-- ==== Sys2Proof/Word.lean ====
section
/-! DEFINITION. The words of the machine (R7, R8): bytes, words, doubles, 256-byte vectors and masks. -/

namespace Sys2Proof

/-- A byte of any memory. -/
abbrev Byte := BitVec 8

/-- A scalar register, a control register or a double (R8, R238). -/
abbrev Double := BitVec 64

/-- A vector register, a ring entry or a row of an operand (R23, R265). -/
abbrev Vec := BitVec 2048

/-- A mask register (R265). -/
abbrev Mask := BitVec 256

end Sys2Proof
end

