-- ==== Sys2Proof/Syntax.lean ====
section
/-! DEFINITION. The instruction set: one constructor of `Instr` per row of spec/opcode_table.json. The first
kind of rows are the slot operations (R212-R225): their arguments are the fields of the slot body, each a number
below the field's own bound, named as the table (S, V, X) or R219 (M, C) names them. The other rows are the
device's events: their arguments say which core, cluster, queue, team or request the event is about, and, for what
the outside does, what it brings. -/

namespace Sys2Proof

/-- The seven slots of a bundle, in the order of the bits of H (R212). -/
inductive Slot where
  | s | v0 | v1 | m | x | c0 | c1
  deriving DecidableEq, Repr

/-- The kinds of slot body (R219): V0 and V1 decode alike, and so do C0 and C1. -/
inductive Unit' where
  | s | v | m | x | c
  deriving DecidableEq, Repr

/-- One constructor per row of the opcode table. Each docstring cites the row's rule. -/
inductive Instr where
  /-- ADD (R241): Writes sa + sb modulo 2^64 to sd. -/
  | add (d a b : Fin 64)
  /-- SUB (R241): Writes sa − sb modulo 2^64 to sd. -/
  | sub (d a b : Fin 64)
  /-- MUL (R241): Writes the low 64 bits of sa × sb to sd, with latency 3. -/
  | mul (d a b : Fin 64)
  /-- MULH (R241): Writes the high 64 bits of the signed product to sd. -/
  | mulh (d a b : Fin 64)
  /-- MULHN (R241): Writes the high 64 bits of the unsigned product to sd. -/
  | mulhn (d a b : Fin 64)
  /-- DIV (R241): Signed division truncated toward zero, with fixed results for division by zero and overflow. -/
  | div (d a b : Fin 64)
  /-- DIVN (R241): Unsigned division, truncated. -/
  | divn (d a b : Fin 64)
  /-- REM (R241): Signed remainder, which takes the sign of a. -/
  | rem (d a b : Fin 64)
  /-- REMN (R241): Unsigned remainder. -/
  | remn (d a b : Fin 64)
  /-- AND (R241): Bitwise AND of sa and sb. -/
  | and (d a b : Fin 64)
  /-- OR (R241): Bitwise OR of sa and sb. -/
  | or (d a b : Fin 64)
  /-- XOR (R241): Bitwise XOR of sa and sb. -/
  | xor (d a b : Fin 64)
  /-- SHL (R241): Shifts sa left by bits [5:0] of sb. -/
  | shl (d a b : Fin 64)
  /-- SHR (R241): Shifts sa right logically by bits [5:0] of sb. -/
  | shr (d a b : Fin 64)
  /-- SRA (R241): Shifts sa right arithmetically by bits [5:0] of sb. -/
  | sra (d a b : Fin 64)
  /-- MIN (R241): Writes the signed minimum of sa and sb. -/
  | min (d a b : Fin 64)
  /-- MAX (R241): Writes the signed maximum of sa and sb. -/
  | max (d a b : Fin 64)
  /-- MINN (R241): Writes the unsigned minimum of sa and sb. -/
  | minn (d a b : Fin 64)
  /-- MAXN (R241): Writes the unsigned maximum of sa and sb. -/
  | maxn (d a b : Fin 64)
  /-- CLZ (R241): Writes the number of leading zero bits of sa. -/
  | clz (d a : Fin 64)
  /-- POPC (R241): Writes the number of one bits of sa. -/
  | popc (d a : Fin 64)
  /-- SEL (R241): Writes sa if predicate pN is true, else sb. -/
  | sel (d a b : Fin 64) (p : Fin 16)
  /-- CMP (R243): Writes a register comparison under condition cc to a predicate. -/
  | cmp (p : Fin 16) (a b : Fin 64) (c : Fin 8)
  /-- PAND (R243): Writes pA AND pB to pD. -/
  | pand (d a b : Fin 16)
  /-- POR (R243): Writes pA OR pB to pD. -/
  | por (d a b : Fin 16)
  /-- PXOR (R243): Writes pA XOR pB to pD. -/
  | pxor (d a b : Fin 16)
  /-- PNOT (R243): Writes NOT pA to pD. -/
  | pnot (d a : Fin 16)
  /-- JR (R248): Jumps to the address in sa, optionally writing the return address to sd. -/
  | jr (d a : Fin 64)
  /-- RET (R248): Jumps to the address in sa, which is s55 by default. -/
  | ret (a : Fin 64)
  /-- ADDI (R242): Adds the sign-extended 13-bit immediate to sa. -/
  | addi (d a : Fin 64) (i : Fin 8192)
  /-- ANDI (R242): ANDs sa with the zero-extended immediate. -/
  | andi (d a : Fin 64) (i : Fin 8192)
  /-- ORI (R242): ORs sa with the zero-extended immediate. -/
  | ori (d a : Fin 64) (i : Fin 8192)
  /-- XORI (R242): XORs sa with the zero-extended immediate. -/
  | xori (d a : Fin 64) (i : Fin 8192)
  /-- SHLI (R242): Shifts sa left by an immediate count of 0 to 63. -/
  | shli (d a i : Fin 64)
  /-- SHRI (R242): Shifts sa right logically by an immediate count. -/
  | shri (d a i : Fin 64)
  /-- SRAI (R242): Shifts sa right arithmetically by an immediate count. -/
  | srai (d a i : Fin 64)
  /-- CMPI (R243): Writes the comparison of sa with an immediate to a predicate. -/
  | cmpi (c : Fin 4) (p : Fin 16) (a : Fin 64) (i : Fin 8192)
  /-- LIH (R242): Writes sext(imm19) × 2^13 to sd. -/
  | lih (d : Fin 64) (i : Fin 524288)
  /-- BR (R248): Branches unconditionally by a signed byte offset. -/
  | br (o : Fin 1048576)
  /-- BRC (R248): Branches when predicate pN XOR neg is 1. -/
  | brc (p : Fin 16) (n : Fin 2) (o : Fin 1048576)
  /-- CALL (R248): Writes the return address to s55 and branches. -/
  | call (o : Fin 1048576)
  /-- LOOP (R252): Pushes a hardware loop whose count is read from a register. -/
  | loop (l : Fin 4) (s : Fin 8) (b : Fin 4096) (c : Fin 64)
  /-- LOOPI (R252): Pushes a hardware loop with an immediate count. -/
  | loopi (l : Fin 4) (s : Fin 8) (b : Fin 4096) (c : Fin 256)
  /-- LEXIT (R255): Pops the named loop and the loops inside it, and jumps to its end. -/
  | lexit (l : Fin 4)
  /-- LD (R245): Loads 1 to 8 bytes from the field or the commons into sd, zero-extended. -/
  | ld (d a : Fin 64) (z : Fin 4) (o : Fin 2048)
  /-- ST (R245): Stores 1 to 8 bytes of sd to local memory as a partial write. -/
  | st (d a : Fin 64) (z : Fin 4) (o : Fin 2048)
  /-- LDC (R246): A load that is an acquire read at CLUSTER scope in the commons. -/
  | ldc (d a : Fin 64) (z : Fin 4) (o : Fin 2048)
  /-- STC (R246): A store that is a release write at CLUSTER scope in the commons. -/
  | stc (d a : Fin 64) (z : Fin 4) (o : Fin 2048)
  /-- CSRR (R365): Reads a control register into sd. -/
  | csrr (d : Fin 64) (c : Fin 4096)
  /-- CSRW (R365): Writes a control register and returns its old value. -/
  | csrw (d a : Fin 64) (c : Fin 4096) (x : Fin 2)
  /-- CSRS (R365): Sets bits of a control register and returns its old value. -/
  | csrs (d a : Fin 64) (c : Fin 4096) (x : Fin 2)
  /-- CSRC (R365): Clears bits of a control register and returns its old value. -/
  | csrc (d a : Fin 64) (c : Fin 4096) (x : Fin 2)
  /-- RADV (R261): Advances the read or write pointer of a ring by n entries. -/
  | radv (q : Fin 16) (w : Fin 2) (n : Fin 8) (g : Fin 16)
  /-- RCFG (R262): Sets a ring's depth and thresholds and empties it. -/
  | rcfg (q : Fin 16) (d r w : Fin 8)
  /-- RFILL (R263): Republishes n entries from wp as full, without rewriting them. -/
  | rfill (q n : Fin 16)
  /-- FENCE (R173): Places a join in both copy-engine queues that orders commands by mode and scope. -/
  | fence (m : Fin 4) (s : Fin 8) (k : Fin 2)
  /-- WAITB (R369): Ends the current furrow at a headland on barrier bN. -/
  | waitb (b : Fin 16)
  /-- WAITT (R370): Holds the next bundle until cycle 1 of tick s(a). -/
  | waitt (a : Fin 64)
  /-- TRAP (R371): Takes the software trap with an immediate code. -/
  | trap (i : Fin 524288)
  /-- BRKPT (R371): Takes the breakpoint trap when DBGCTL.BE = 1, and otherwise has no effect. -/
  | brkpt (i : Fin 524288)
  /-- EXIT (R61): Ends the member's task; commands drain, and pipes and IXE contexts close. -/
  | exit
  /-- TURN (R374): Stores a turn checkpoint over an input buffer. -/
  | turn (a b : Fin 64)
  /-- YIELD (R373): Requests pre-emption of the team if its launch's queue is not empty. -/
  | yield
  /-- BOOK (R377): Posts a request to the CC to book a child image's profile. -/
  | book (d a b : Fin 64)
  /-- UNBOOK (R377): Posts a request to release a booking handle. -/
  | unbook (d a b : Fin 64)
  /-- BQRY (R377): Posts a request that returns a 64-tick view of one calendar row. -/
  | bqry (d a b : Fin 64)
  /-- SPAWN (R377): Posts a request to submit a launch, optionally on a booking. -/
  | spawn (d a b : Fin 64)
  /-- CANCEL (R50): Posts a request to cancel a launch, graph, phase or job of the issuer's context. -/
  | cancel (d a b : Fin 64)
  /-- VADD (R270): Floating-point addition, rounded once. -/
  | vadd (d a b : Fin 64) (f : Fin 8) (g : Fin 16)
  /-- VSUB (R270): Floating-point subtraction. -/
  | vsub (d a b : Fin 64) (f : Fin 8) (g : Fin 16)
  /-- VMUL (R270): Floating-point multiplication. -/
  | vmul (d a b : Fin 64) (f : Fin 8) (g : Fin 16)
  /-- VFMA (R270): Fused a × b + d. -/
  | vfma (d : Fin 32) (a b : Fin 64) (f : Fin 8) (g : Fin 16)
  /-- VFMS (R270): Fused a × b − d. -/
  | vfms (d : Fin 32) (a b : Fin 64) (f : Fin 8) (g : Fin 16)
  /-- VFNMA (R270): Fused d − a × b. -/
  | vfnma (d : Fin 32) (a b : Fin 64) (f : Fin 8) (g : Fin 16)
  /-- VMIN (R207): Element minimum under the NaN and signed-zero rules. -/
  | vmin (d a b : Fin 64) (f : Fin 8) (g : Fin 16)
  /-- VMAX (R207): Element maximum under the NaN and signed-zero rules. -/
  | vmax (d a b : Fin 64) (f : Fin 8) (g : Fin 16)
  /-- VABS (R270): Clears the sign bit of each element. -/
  | vabs (d a : Fin 64) (f : Fin 8) (g : Fin 16)
  /-- VNEG (R270): Inverts the sign bit of each element. -/
  | vneg (d a : Fin 64) (f : Fin 8) (g : Fin 16)
  /-- VRCP (R271): Reciprocal of each element. -/
  | vrcp (d a : Fin 64) (f : Fin 8) (g : Fin 16)
  /-- VRSQ (R271): Reciprocal square root of each element. -/
  | vrsq (d a : Fin 64) (f : Fin 8) (g : Fin 16)
  /-- VSQRT (R271): Correctly rounded square root. -/
  | vsqrt (d a : Fin 64) (f : Fin 8) (g : Fin 16)
  /-- VEXP2 (R271): 2 to the power of each element. -/
  | vexp2 (d a : Fin 64) (f : Fin 8) (g : Fin 16)
  /-- VLOG2 (R271): Base-2 logarithm of each element. -/
  | vlog2 (d a : Fin 64) (f : Fin 8) (g : Fin 16)
  /-- VTANH (R271): Hyperbolic tangent of each element. -/
  | vtanh (d a : Fin 64) (f : Fin 8) (g : Fin 16)
  /-- VIADD (R273): Integer addition modulo the element width. -/
  | viadd (d a b : Fin 64) (f : Fin 8) (g : Fin 16)
  /-- VISUB (R273): Integer subtraction. -/
  | visub (d a b : Fin 64) (f : Fin 8) (g : Fin 16)
  /-- VIMUL (R273): Low bits of the integer product. -/
  | vimul (d a b : Fin 64) (f : Fin 8) (g : Fin 16)
  /-- VIMULH (R273): High bits of the signed integer product. -/
  | vimulh (d a b : Fin 64) (f : Fin 8) (g : Fin 16)
  /-- VIADDS (R273): Saturating signed addition. -/
  | viadds (d a b : Fin 64) (f : Fin 8) (g : Fin 16)
  /-- VISUBS (R273): Saturating signed subtraction. -/
  | visubs (d a b : Fin 64) (f : Fin 8) (g : Fin 16)
  /-- VIMIN (R273): Signed integer minimum. -/
  | vimin (d a b : Fin 64) (f : Fin 8) (g : Fin 16)
  /-- VIMAX (R273): Signed integer maximum. -/
  | vimax (d a b : Fin 64) (f : Fin 8) (g : Fin 16)
  /-- VIMINN (R273): Unsigned integer minimum. -/
  | viminn (d a b : Fin 64) (f : Fin 8) (g : Fin 16)
  /-- VIMAXN (R273): Unsigned integer maximum. -/
  | vimaxn (d a b : Fin 64) (f : Fin 8) (g : Fin 16)
  /-- VAND (R273): Bitwise AND of elements. -/
  | vand (d a b : Fin 64) (f : Fin 8) (g : Fin 16)
  /-- VOR (R273): Bitwise OR of elements. -/
  | vor (d a b : Fin 64) (f : Fin 8) (g : Fin 16)
  /-- VXOR (R273): Bitwise XOR of elements. -/
  | vxor (d a b : Fin 64) (f : Fin 8) (g : Fin 16)
  /-- VSHL (R273): Left shift of each element. -/
  | vshl (d a b : Fin 64) (f : Fin 8) (g : Fin 16)
  /-- VSHR (R273): Logical right shift of each element. -/
  | vshr (d a b : Fin 64) (f : Fin 8) (g : Fin 16)
  /-- VSRA (R273): Arithmetic right shift of each element. -/
  | vsra (d a b : Fin 64) (f : Fin 8) (g : Fin 16)
  /-- VCMP (R274): Compares elements and writes mask mN. -/
  | vcmp (c m : Fin 8) (a b : Fin 64) (f : Fin 8) (g : Fin 16)
  /-- VSEL (R275): Selects a or b per element by the guard. -/
  | vsel (d a b : Fin 64) (f : Fin 8) (g : Fin 16)
  /-- VMAND (R276): mD ← mA AND mB. -/
  | vmand (d a b : Fin 8)
  /-- VMOR (R276): mD ← mA OR mB. -/
  | vmor (d a b : Fin 8)
  /-- VMXOR (R276): mD ← mA XOR mB. -/
  | vmxor (d a b : Fin 8)
  /-- VMNOT (R276): mD ← NOT mA. -/
  | vmnot (d a : Fin 8)
  /-- VMPOP (R276): Writes the popcount of mA to each i32 element of vd. -/
  | vmpop (d : Fin 64) (a : Fin 8)
  /-- VCVT (R277): Converts elements between formats. -/
  | vcvt (d a : Fin 64) (f s g : Fin 8)
  /-- VQNT (R279): Block-quantises elements, writing codes to vd and scales to a ring. -/
  | vqnt (d a : Fin 64) (f : Fin 8) (t : Fin 4) (q : Fin 16) (g : Fin 8)
  /-- VDQNT (R280): Dequantises element codes with scales read from a ring. -/
  | vdqnt (d a : Fin 64) (f : Fin 8) (t : Fin 4) (q : Fin 16) (g : Fin 8)
  /-- VPACK (R278): Packs the low halves of va and vb. -/
  | vpack (d a b : Fin 64) (f : Fin 8) (g : Fin 16)
  /-- VUNPK (R278): Moves the upper half of va to the lower half. -/
  | vunpk (d a : Fin 64) (f : Fin 8) (g : Fin 16)
  /-- VMOV (R281): Copies elements. -/
  | vmov (d a : Fin 64) (f : Fin 8) (g : Fin 16)
  /-- VMOVI (R281): Writes a 7-bit signed immediate, converted, to every element. -/
  | vmovi (d : Fin 64) (f : Fin 8) (i : Fin 128) (g : Fin 8)
  /-- VPERM (R281): Permutes va by the indices in vb. -/
  | vperm (d a b : Fin 64) (f : Fin 8) (g : Fin 16)
  /-- VSHUF (R281): Applies one of four fixed shuffles. -/
  | vshuf (d a : Fin 64) (f : Fin 8) (k : Fin 128) (g : Fin 8)
  /-- VROT (R281): Rotates elements by an immediate. -/
  | vrot (d a : Fin 64) (f : Fin 8) (r : Fin 128) (g : Fin 8)
  /-- VBCST (R281): Broadcasts a scalar to every element. -/
  | vbcst (d s : Fin 64) (w : Fin 8) (g : Fin 16)
  /-- VIDX (R281): Writes the arithmetic sequence sa + e × sb. -/
  | vidx (d s t : Fin 64) (w : Fin 8) (g : Fin 16)
  /-- VINS (R281): Inserts a scalar into element k. -/
  | vins (d : Fin 32) (s t : Fin 64) (w : Fin 8) (g : Fin 16)
  /-- VEXT (R281): Extracts element k of a vector into a scalar register. -/
  | vext (v s t : Fin 64) (w : Fin 8)
  /-- VRSUM (R282): Pairwise-tree sum of the enabled elements into element 0. -/
  | vrsum (d a : Fin 64) (f : Fin 8) (g : Fin 16)
  /-- VRMAX (R282): Maximum reduction into element 0. -/
  | vrmax (d a : Fin 64) (f : Fin 8) (g : Fin 16)
  /-- VRMIN (R282): Minimum reduction into element 0. -/
  | vrmin (d a : Fin 64) (f : Fin 8) (g : Fin 16)
  /-- VSCAN (R283): Inclusive prefix sum. -/
  | vscan (d a : Fin 64) (f : Fin 8) (g : Fin 16)
  /-- VSORT (R284): Writes the sorting permutation of va. -/
  | vsort (d a : Fin 64) (f : Fin 8) (g : Fin 16)
  /-- VLD (R285): Loads 256 B from local memory. -/
  | vld (d s : Fin 64) (o : Fin 512) (g : Fin 16)
  /-- VST (R285): Stores 256 B to local memory. -/
  | vst (d s : Fin 64) (o : Fin 512) (g : Fin 16)
  /-- VLDS (R286): Strided load of granules. -/
  | vlds (d s t : Fin 64) (w : Fin 8) (g : Fin 16)
  /-- VSTS (R286): Strided store of granules. -/
  | vsts (d s t : Fin 64) (w : Fin 8) (g : Fin 16)
  /-- VGTH (R287): Indexed gather from local memory. -/
  | vgth (d a b : Fin 64) (f : Fin 8) (g : Fin 16)
  /-- VSCT (R287): Indexed scatter to local memory. -/
  | vsct (d a b : Fin 64) (f : Fin 8) (g : Fin 16)
  /-- VLDC (R285): Vector load that is an acquire read in the commons. -/
  | vldc (d s : Fin 64) (o : Fin 512) (g : Fin 16)
  /-- VSTC (R285): Vector store that is a release write in the commons. -/
  | vstc (d s : Fin 64) (o : Fin 512) (g : Fin 16)
  /-- VCMPR (R290): Compacts the enabled elements into a ring byte stream. -/
  | vcmpr (q : Fin 16) (a : Fin 64) (f : Fin 8) (g : Fin 16)
  /-- VCMPR_FLUSH (R290): Pads and publishes a partly written stream entry. -/
  | vcmprFlush (q : Fin 16) (f : Fin 8)
  /-- VXPND (R291): Expands stream bytes from a ring into the enabled elements. -/
  | vxpnd (d : Fin 32) (q : Fin 16) (f : Fin 8) (g : Fin 16)
  /-- VXPND_DROP (R291): Drops the rest of a partly read stream entry. -/
  | vxpndDrop (q : Fin 16) (f : Fin 8)
  /-- MLDB (R301): Loads 8 ring entries, and their scales, into rows of the inactive B buffer. -/
  | mldb (qa : Fin 16) (fs : Fin 8) (ft rb qs g : Fin 16)
  /-- MSTEP (R302): Runs one matrix step of 8 A rows against the active B tile into an accumulator tile. -/
  | mstep (acc : Fin 8) (qa : Fin 16) (fs : Fin 8) (ft rb qs g : Fin 16) (bsw : Fin 2)
  /-- MZERO (R303): Clears an accumulator tile. -/
  | mzero (acc : Fin 8) (g : Fin 16)
  /-- MRD (R307): Converts 8 tile rows and writes them to rings. -/
  | mrd (acc : Fin 8) (qa : Fin 16) (fs : Fin 8) (ft rb g : Fin 16) (f : Fin 8) (band : Fin 64)
  /-- MWR (R305): Writes ring rows into 8 tile rows. -/
  | mwr (acc : Fin 8) (qa rb g : Fin 16) (f : Fin 8)
  /-- MBIAS (R306): Adds a bias row to every row of 8 tile rows. -/
  | mbias (acc : Fin 8) (qa rb g : Fin 16) (f : Fin 8)
  /-- XPUT (R309): Writes a row of the transpose buffer. -/
  | xput (s : Fin 64) (i : Fin 128) (w : Fin 8) (g : Fin 16)
  /-- XGET (R310): Reads a column of the transpose buffer, landing 16 cycles later. -/
  | xget (s : Fin 64) (i : Fin 128) (w : Fin 8) (g : Fin 16)
  /-- XCLR (R308): Clears the transpose buffer. -/
  | xclr (g : Fin 16)
  /-- CDSET (R319): Writes one double of a copy descriptor. -/
  | cdset (g d : Fin 16) (sa : Fin 64) (w : Fin 8)
  /-- CGET (R322): Copies global rows into local memory, with an optional transform. -/
  | cget (g b : Fin 16) (o : Fin 4) (c : Fin 8) (d x : Fin 16) (sa sb sc : Fin 64) (w : Fin 8) (i : Fin 32768)
  /-- CPUT (R322): Copies local rows to global memory, with an optional transform. -/
  | cput (g b : Fin 16) (o : Fin 4) (c : Fin 8) (d x : Fin 16) (sa sb sc : Fin 64) (w : Fin 8) (i : Fin 32768)
  /-- CXFER (R322): Copies local rows into another core's field, with an optional target signal. -/
  | cxfer (g b : Fin 16) (o : Fin 4) (c : Fin 8) (d : Fin 16) (sa sb sc : Fin 64) (i : Fin 32768)
  /-- CFILL (R322): Fills global or local rows with a repeated byte pattern. -/
  | cfill (g b : Fin 16) (o : Fin 4) (c : Fin 8) (d : Fin 16) (sa sb sc : Fin 64) (w : Fin 2) (i : Fin 32768)
  /-- CTOUCH (R329): Fills the invalid groups of a mapped range from global memory. -/
  | ctouch (g b : Fin 16) (o : Fin 4) (c : Fin 8) (sa sb : Fin 64) (i : Fin 32768)
  /-- CFLUSH (R329): Writes the valid groups of a mapped range back to global memory. -/
  | cflush (g b : Fin 16) (o : Fin 4) (c : Fin 8) (sa sb : Fin 64) (i : Fin 32768)
  /-- CMAP (R328): Maps or unmaps a region to a global range, invalidating its groups. -/
  | cmap (g b : Fin 16) (o : Fin 4) (c : Fin 8) (sa : Fin 64) (i : Fin 16)
  /-- CMIGR (R330): Migrates pages of a global range into a tier, with a deadline. -/
  | cmigr (g b : Fin 16) (o : Fin 4) (c : Fin 8) (sa sb sc : Fin 64) (w : Fin 8)
  /-- CPFX (R331): Prefetches translations of a range into the TLBs. -/
  | cpfx (g b : Fin 16) (sa sb : Fin 64)
  /-- AADD (R332): Atomic integer add at the home, returning the old value. -/
  | aadd (g b : Fin 16) (o : Fin 4) (c : Fin 8) (sa sb sc : Fin 64) (w : Fin 8) (i : Fin 32768)
  /-- AFADD (R333): Atomic floating-point add. -/
  | afadd (g b : Fin 16) (o : Fin 4) (c : Fin 8) (sa sb sc : Fin 64) (w : Fin 8) (i : Fin 32768)
  /-- AAND (R332): Atomic AND. -/
  | aand (g b : Fin 16) (o : Fin 4) (c : Fin 8) (sa sb sc : Fin 64) (w : Fin 8) (i : Fin 32768)
  /-- AOR (R332): Atomic OR. -/
  | aor (g b : Fin 16) (o : Fin 4) (c : Fin 8) (sa sb sc : Fin 64) (w : Fin 8) (i : Fin 32768)
  /-- AXOR (R332): Atomic XOR. -/
  | axor (g b : Fin 16) (o : Fin 4) (c : Fin 8) (sa sb sc : Fin 64) (w : Fin 8) (i : Fin 32768)
  /-- AMIN (R332): Atomic signed minimum. -/
  | amin (g b : Fin 16) (o : Fin 4) (c : Fin 8) (sa sb sc : Fin 64) (w : Fin 8) (i : Fin 32768)
  /-- AMAX (R332): Atomic signed maximum. -/
  | amax (g b : Fin 16) (o : Fin 4) (c : Fin 8) (sa sb sc : Fin 64) (w : Fin 8) (i : Fin 32768)
  /-- AMINN (R332): Atomic unsigned minimum. -/
  | aminn (g b : Fin 16) (o : Fin 4) (c : Fin 8) (sa sb sc : Fin 64) (w : Fin 8) (i : Fin 32768)
  /-- AMAXN (R332): Atomic unsigned maximum. -/
  | amaxn (g b : Fin 16) (o : Fin 4) (c : Fin 8) (sa sb sc : Fin 64) (w : Fin 8) (i : Fin 32768)
  /-- AXCHG (R332): Atomic exchange. -/
  | axchg (g b : Fin 16) (o : Fin 4) (c : Fin 8) (sa sb sc : Fin 64) (w : Fin 8) (i : Fin 32768)
  /-- ACAS (R332): Atomic compare-and-swap against the slot's value. -/
  | acas (g b : Fin 16) (o : Fin 4) (c : Fin 8) (sa sb sc : Fin 64) (w : Fin 8) (i : Fin 32768)
  /-- ADECP (R332): Atomic decrement if the old value is at least v. -/
  | adecp (g b : Fin 16) (o : Fin 4) (c : Fin 8) (sa sb sc : Fin 64) (w : Fin 8) (i : Fin 32768)
  /-- ADCAS (R334): Double compare-and-swap on two operands under ordered locks. -/
  | adcas (g b : Fin 16) (o : Fin 4) (c : Fin 8) (sa sb sc : Fin 64) (w : Fin 8) (i : Fin 32768)
  /-- AMOVE (R334): Atomically moves one operand to another and writes a new value. -/
  | amove (g b : Fin 16) (o : Fin 4) (c : Fin 8) (sa sb sc : Fin 64) (w : Fin 8) (i : Fin 32768)
  /-- ARED (R335): Sends one contribution to a multi-module reduction window. -/
  | ared (g b : Fin 16) (o : Fin 4) (c : Fin 8) (sa sb : Fin 64) (w : Fin 8)
  /-- WAITA (R336): Compares a word at its home, and arms a monitor or completes at once. -/
  | waita (g b : Fin 16) (o : Fin 4) (c : Fin 8) (sa sb sc : Fin 64) (w : Fin 8) (i : Fin 32768)
  /-- WAKE (R337): Wakes the n earliest-armed waiters of a line. -/
  | wake (g b : Fin 16) (o : Fin 4) (c : Fin 8) (sa sb sc : Fin 64) (i : Fin 32768)
  /-- PSEND (R339): Sends one pipe record to a receiving member's endpoint. -/
  | psend (g b : Fin 16) (o : Fin 4) (c : Fin 8) (d : Fin 16) (sa sb : Fin 64) (i : Fin 32768)
  /-- PRECV (R340): Takes the oldest record of the endpoint, or CLOSED. -/
  | precv (g b : Fin 16) (o : Fin 4) (c : Fin 8) (d : Fin 16) (sa sc : Fin 64) (i : Fin 32768)
  /-- PCLOSE (R341): Closes the member's end of a pipe. -/
  | pclose (g b d : Fin 16)
  /-- TBAR (R342): Records an arrival at a team barrier, and completes when its generation completes. -/
  | tbar (g b : Fin 16) (o : Fin 4) (c : Fin 8) (d : Fin 16)
  /-- BARSIG (R342): Records an arrival at a team barrier without waiting. -/
  | barsig (g : Fin 16) (o : Fin 4) (c : Fin 8) (d : Fin 16)
  /-- BARSET (R315): Sets EXP of a transfer barrier. -/
  | barset (g b : Fin 16) (sb : Fin 64)
  /-- IXOPEN (R353): Binds a handle to a query context. -/
  | ixopen (g b d : Fin 16) (sa sb : Fin 64)
  /-- IXLIST (R354): Attaches a KBP list as term t. -/
  | ixlist (g b : Fin 16) (o : Fin 4) (c : Fin 8) (d : Fin 16) (sa sb : Fin 64) (i : Fin 32)
  /-- IXAND (R355): Intersects the candidate set with the named lists. -/
  | ixand (g b d : Fin 16) (sa : Fin 64)
  /-- IXOR (R355): Unites the candidate set with the named lists. -/
  | ixor (g b d : Fin 16) (sa : Fin 64)
  /-- IXSCORE (R356): Adds weighted impacts to the lexical scores. -/
  | ixscore (g b d : Fin 16) (sa : Fin 64)
  /-- IXVEC (R357): Merges (ID, score) pairs into the vector scores. -/
  | ixvec (g b : Fin 16) (o : Fin 4) (c : Fin 8) (d : Fin 16) (sa sb : Fin 64)
  /-- IXTOPK (R358): Fuses the scores and ranks the top k. -/
  | ixtopk (g b d : Fin 16)
  /-- IXDRAIN (R359): Writes the ranked list and its count to local memory. -/
  | ixdrain (g b : Fin 16) (o : Fin 4) (c : Fin 8) (d : Fin 16) (sa sc : Fin 64)
  /-- IXCLOSE (R360): Returns a handle to CLOSED and frees its context. -/
  | ixclose (g b d : Fin 16)
  /-- WAITT_RESUME (R370): When tick s(a) arrives, the bundle after the WAITT issues in cycle 1. -/
  | waittResume (core : Nat)
  /-- CC_REQUEST_SERVE (R376): The CC serves a queued BOOK, UNBOOK, BQRY, SPAWN or CANCEL request at step 7, writes the block and decrements PEND. -/
  | ccRequestServe (cl : Nat)
  /-- BOOKING_LAPSE (R377): A booking not used by a SPAWN or LAUNCH by its release tick is released, and its handle lapses. -/
  | bookingLapse (cl handle : Nat)
  /-- MSTEP_COMPLETE (R298): 12 working cycles after issue, the step's tile rows are complete and its flags are ORed into VSTAT. -/
  | mstepComplete (core : Nat)
  /-- RESULT_LAND (R240): A fixed-latency scalar, vector, ring, MRD or XGET result lands after its latency, and a pending ring entry becomes full. -/
  | resultLand (core : Nat)
  /-- CXFER_TARGET_SIGNAL (R322): After its writes are performed at CLUSTER scope, a CXFER adds 1 to CNT of the target's barrier. -/
  | cxferTargetSignal (core id : Nat)
  /-- PSEND_STORE (R339): Once the endpoint holds fewer records than its depth, the record is stored and the PSEND completes. -/
  | psendStore (core id : Nat)
  /-- PRECV_RECEIVE (R340): A waiting PRECV receives an arriving record, or the close, and writes its status. -/
  | precvReceive (core id : Nat)
  /-- IX_COMMAND_START (R352): An accepted IX command starts once earlier commands on its handle have ended, and checks its phase. -/
  | ixCommandStart (core id : Nat)
  /-- COMMAND_ACCEPT (R317): A copy engine accepts a queued command when a place is free and ordering allows, and makes its acceptance checks. -/
  | commandAccept (core : Nat) (e : Fin 2)
  /-- COMMAND_COMPLETE (R313): A command's accesses are performed, and it subtracts its weight from PEND and frees its queue entry. -/
  | commandComplete (core id : Nat)
  /-- PAGE_FAULT_RESOLVED (R141): The served entry becomes valid, and every waiting command retries its walk from L0. -/
  | pageFaultResolved (ctx va : Nat)
  /-- PAGE_FAULT_UNRESOLVABLE (R469): After 2^24 ticks unresolved, the GS declares the fault unresolvable, and waiting commands end with TRANSLATION. -/
  | pageFaultUnresolvable (ctx va : Nat)
  /-- INVTLB (R139): The GS broadcasts an invalidation of cached translations for a scope. -/
  | invtlb (scope : Fin 3) (ctx base len : Nat)
  /-- INVTLB_COMPLETE (R139): The INVTLB completes once no cache holds the scope and the commands using it have performed. -/
  | invtlbComplete (id : Nat)
  /-- MIGRATION_PAGE (R150): The migrating agent invalidates, copies and remaps one page. -/
  | migrationPage (id : Nat)
  /-- CALENDAR_TICK (R95): The CC processes the tick's booking work: releases, stakes, compaction, anchoring, extensions, ballast and staging. -/
  | calendarTick (cl : Nat)
  /-- HEADLAND_RESOLVE (R83): At the first tick after WAITB and barrier satisfaction, the next furrow is anchored and CNT reduced by EXP. -/
  | headlandResolve (core : Nat)
  /-- GRACE_EXPIRY (R83): At the end of tick G, an unresolved headland's held cells are released. -/
  | graceExpiry (core : Nat)
  /-- OVERRUN (R98): At cycle 0 after its span, a furrow whose WAITB or EXIT has not issued overruns, and is extended or pre-empted. -/
  | overrun (core : Nat)
  /-- STAKE_PLACE (R96): A wait that exceeds STARVE_LIM places a stake for the waiting furrow. -/
  | stakePlace (core : Nat)
  /-- STAKE_LAPSE (R97): A stake whose first tick arrives while its holder is not ready lapses, and a new one is placed. -/
  | stakeLapse (core : Nat)
  /-- STAGE_TEAM (R53): The front end loads the shadow banks, books the profile, places regions and writes presets. -/
  | stageTeam (team : Nat)
  /-- TASK_RELEASE (R54): At the release tick, members swap instruction banks in cycle 0 and issue in cycle 1. -/
  | taskRelease (team : Nat)
  /-- TEAM_PLACE (R395): The GS places a ready team on eligible cores in the fewest clusters. -/
  | teamPlace (team : Nat)
  /-- QUANTUM_EXPIRY (R71): A team's quantum expires, and it is swapped out for the head of its launch's queue. -/
  | quantumExpiry (team : Nat)
  /-- PREEMPT (R62): A pre-emption request stops every member of a team at its next bundle boundary. -/
  | preempt (team : Nat)
  /-- DRAIN_END (R63): A stopped member's issued commands have drained; it enters SWAPPED and its save begins. -/
  | drainEnd (core : Nat)
  /-- SWAP_OUT_COMPLETE (R65): A member's state has been written to the save area; the core becomes IDLE. -/
  | swapOutComplete (core : Nat)
  /-- SWAP_IN_COMPLETE (R68): A resuming team's state is restored and its segment booked; members become STAGED. -/
  | swapInComplete (team : Nat)
  /-- INSTANCE_COMPLETE (R48): All members have exited and drained; counters update, regions are released and dependents may be released. -/
  | instanceComplete (inst : Nat)
  /-- SIBLING_STOP (R449): When a member traps, the others stop, drain and record SIBLING. -/
  | siblingStop (core cause : Nat)
  /-- RESERVED_CYCLE (R28): The tick's last cycle holds issue, and banks refresh or scrub one row. -/
  | reservedCycle (cl : Nat)
  /-- REFRESH_URGENT (R119): A request that has waited 8 µs becomes urgent and takes working cycles on its banks. -/
  | refreshUrgent (cl : Nat)
  /-- EXPIRY_WRITEBACK_COMPLETE (R124): An expiry write-back completes, and the group becomes invalid. -/
  | expiryWritebackComplete (cl mem grp : Nat)
  /-- TURN_ROLLBACK (R375): An uncorrectable error in the turn buffer stops the core, restores the checkpoint and starts a refill. -/
  | turnRollback (core : Nat) (syndrome : BitVec 64)
  /-- ROLLBACK_RESTART (R375): When the refill barrier is satisfied, the core reissues from the checkpoint address. -/
  | rollbackRestart (core : Nat)
  /-- CONTEXT_END (R439): The device stops, drains and discards all work of a context and posts 0x0B01. -/
  | contextEnd (ctx cause refill : Nat)
  /-- BUCKET_LEAK (R432): Once per leak period a bucket's count falls by 1. -/
  | bucketLeak (kind : Fin 6)
  /-- LAUNCH_ADMIT (R488): The GS checks the images of a launch, and admits it or refuses it. -/
  | launchAdmit (unit : Nat)
  /-- WAIT_REEVALUATE (R387): A write to a WAIT's line re-evaluates the condition and may release parsing. -/
  | waitReevaluate (q : Nat)
  /-- DEFERRED_WRITE_PERFORM (R387): Once earlier launches finish, a deferred SIGNAL or TIMESTAMP write is performed in packet order. -/
  | deferredWritePerform (q : Nat)
  /-- QUEUE_UNPARK (R391): A parked queue rejoins when its page becomes valid or a table entry frees. -/
  | queueUnpark (q : Nat)
  /-- DOORBELL_NOTIFY (R381): A write to a kick word's line notifies the queue's fetcher. -/
  | doorbellNotify (q : Nat)
  /-- PERMIT_RETURN (R392): A returned send permit lets a held message be sent, urgent first. -/
  | permitReturn (cl : Nat) (toCC : Bool)
  /-- REDUCTION_CONTRIBUTION (R406): A contribution reaches the switches and joins or opens a round. -/
  | reductionContribution (module addr : Nat) (op : Fin 8) (v : BitVec 64)
  /-- ROUND_TIMEOUT (R407): A round past its timeout is discarded and recorded INCOMPLETE. -/
  | roundTimeout (win seg : Nat)
  /-- PEER_TIMEOUT (R500): A command to an unreachable module ends with DATA after 2^20 ticks. -/
  | peerTimeout (core id : Nat)
  /-- WEIGHT_SET_VERIFIED (R418): The security engine finishes hashing a weight set's pages, writes the leaf entries valid with W = 0 or reports the first mismatch, and returns the command. -/
  | weightSetVerified (id : Nat)
  /-- CXL_LINK_TIMEOUT (R501): Device accesses to tier 2 that have waited 2^20 ticks for a down CXL link end with status DATA. -/
  | cxlLinkTimeout (core id : Nat)
  /-- KAT_RUN (R440): The CC runs known-answer tests on an IDLE core. -/
  | katRun (core : Nat) (differ : List (Nat × Nat))
  /-- THERMAL_TRIP (R420): A sensor above 125 °C removes module power. -/
  | thermalTrip (sensor : Nat)
  /-- CC_FAILURE (R495): The GS counts a CC failed, pre-empts its teams and restarts it. -/
  | ccFailure (cl : Nat) (permit : Bool)
  /-- BSTAT_WRITE (R367): A write to BSTATn sets EXP, and clears the ERR code field and OVF as W1C fields. -/
  | bstatWrite (n : Fin 16) (k : Fin 3) (v : BitVec 64)
  /-- MONCAP_WRITE (R425): A write to MONCAP with the booker privilege caps the monitor entries, and disarms none. -/
  | moncapWrite (k : Fin 3) (v : BitVec 64)
  /-- FALLOW_BUNDLE (R213): A bundle with no slots takes one issue cycle. -/
  | fallowBundle
  /-- TICK_BOUNDARY (R73): The device tick counter advances, and the ended tick's calendar column is cleared. -/
  | tickBoundary
  /-- RETENTION_TICK (R117): Every 1 µs, valid groups age and those reaching their figure are handled. -/
  | retentionTick
  /-- SHADOW_LATCH_REPLAY (R430): A late transition repeats the cycle at half clock, costing 2 cycles. -/
  | shadowLatchReplay (place : Fin 4) (unit sub : Nat) (again : Bool)
  /-- CSR_WRITE (R365): A write to a control register that has no behaviour of its own sets its RW fields, clears its W1C fields and keeps its RO fields. -/
  | csrWrite (n : Nat) (k : Fin 3) (v : BitVec 64)
  /-- GLOBAL_SCRUB (R436): The scrubber reads HBM and LPDDR sectors, poisoning uncorrectable blocks. -/
  | globalScrub (addr : Nat) (err : Fin 3)
  /-- NOP (R383): A NOP packet is skipped. -/
  | nop (q : Nat)
  /-- LAUNCH (R384): A LAUNCH packet submits a launch to the dependence table and writes its counter records. -/
  | launch (q : Nat)
  /-- WAIT (R387): A WAIT packet holds parsing until a memory condition holds. -/
  | wait (q : Nat)
  /-- SIGNAL (R387): A SIGNAL packet is queued for deferral. -/
  | signal (q : Nat)
  /-- IB_CALL (R388): Parsing continues in an indirect buffer. -/
  | ibCall (q : Nat)
  /-- PKT_FENCE (R387): A FENCE packet holds parsing until earlier launches and deferred writes finish. -/
  | pktFence (q : Nat)
  /-- PKT_BOOK (R387): A BOOK packet books an image's profile for the next LAUNCH. -/
  | pktBook (q : Nat)
  /-- PKT_CANCEL (R387): A CANCEL packet cancels a unit within the queue's context. -/
  | pktCancel (q : Nat)
  /-- COUNTER (R387): A COUNTER packet waits on a counter record or copies it. -/
  | counter (q : Nat)
  /-- TIMESTAMP (R387): A TIMESTAMP packet writes TICK and RTICK, at parse or deferred. -/
  | timestamp (q : Nat)
  /-- QUEUE_ENABLE (R379): Setting EN makes the queue IDLE, reads the kick word and arms its doorbell. -/
  | queueEnable (q : Nat)
  /-- QUEUE_DISABLE (R379): Clearing EN stops parsing at the next packet boundary. -/
  | queueDisable (q : Nat)
  /-- QUEUE_DESCRIPTOR_WRITE (R379): A host write to another queue descriptor field, ignored where EN forbids it. -/
  | queueDescriptorWrite (q : Nat) (reg : Fin 4) (v : BitVec 64)
  /-- KICKQ_WRITE (R381): A write to the KICKq alias register writes the kick word. -/
  | kickqWrite (q : Nat) (v : BitVec 64)
  /-- MSG_PLACE (R392): GS to CC: place a team. -/
  | msgPlace (cl arg : Nat)
  /-- MSG_BOOK (R392): GS to CC: book a profile. -/
  | msgBook (cl arg : Nat)
  /-- MSG_STAGE (R392): GS to CC: stage a team. -/
  | msgStage (cl arg : Nat)
  /-- MSG_RELEASE (R392): GS to CC: release a team. -/
  | msgRelease (cl arg : Nat)
  /-- MSG_INVTLB (R392): GS to CC: invalidate translations. -/
  | msgInvtlb (cl arg : Nat)
  /-- MSG_RETIRE (R392): GS to CC: retire a unit. -/
  | msgRetire (cl arg : Nat)
  /-- MSG_QUANTUM (R392): GS to CC: quantum handling. -/
  | msgQuantum (cl arg : Nat)
  /-- MSG_PREEMPT (R392): GS to CC, urgent: pre-empt a team. -/
  | msgPreempt (cl arg : Nat)
  /-- MSG_CANCEL (R392): GS to CC, urgent: cancel work. -/
  | msgCancel (cl arg : Nat)
  /-- MSG_BOOKED (R392): CC to GS: booking made. -/
  | msgBooked (cl arg : Nat)
  /-- MSG_NOFIT (R392): CC to GS: booking did not fit. -/
  | msgNofit (cl arg : Nat)
  /-- MSG_STAGED (R392): CC to GS: team staged. -/
  | msgStaged (cl arg : Nat)
  /-- MSG_HALTED (R392): CC to GS: member halted. -/
  | msgHalted (cl arg : Nat)
  /-- MSG_SWAPPED (R392): CC to GS: team swapped, with its swap records. -/
  | msgSwapped (cl arg : Nat)
  /-- MSG_SLIP (R392): CC to GS: a headland slipped. -/
  | msgSlip (cl arg : Nat)
  /-- MSG_EVENT (R392): CC to GS: an event record. -/
  | msgEvent (cl arg : Nat)
  /-- MSG_COMPLETE (R392): CC to GS, urgent: work completed. -/
  | msgComplete (cl arg : Nat)
  /-- MSG_FAULT (R392): CC to GS, urgent: work faulted. -/
  | msgFault (cl arg : Nat)
  /-- VSEED_WRITE (R195): A write to VSEED reseeds the 128 lane LFSRs from the next bundle. -/
  | vseedWrite (k : Fin 3) (v : BitVec 64)
  /-- MODULE_STOP (R496): A GS memory error or stall stops the module. -/
  | moduleStop (stall : Bool)
  /-- CTX_CREATE (R403): Mailbox: binds a context ID to its tables and limits. -/
  | ctxCreate (inp : List (BitVec 64))
  /-- CTX_DESTROY (R403): Mailbox: cancels a context's work and frees its ID. -/
  | ctxDestroy (inp : List (BitVec 64))
  /-- MB_INVTLB (R403): Mailbox: issues an INVTLB and returns on completion. -/
  | mbInvtlb (inp : List (BitVec 64))
  /-- MIGRATE (R403): Mailbox: migrates a range into a tier. -/
  | migrate (inp : List (BitVec 64))
  /-- HASH_SET (R403): Mailbox: changes a domain's hash code. -/
  | hashSet (inp : List (BitVec 64))
  /-- POWER_SET (R412): Mailbox: sets the module limit and divides island limits. -/
  | powerSet (inp : List (BitVec 64))
  /-- CKPT (R504): Mailbox: checkpoints the module, optionally holding it after step 3. -/
  | ckpt (inp : List (BitVec 64))
  /-- RESTORE (R507): Mailbox: restores a checkpoint and resumes its teams. -/
  | restore (inp : List (BitVec 64))
  /-- KEY_INSTALL (R417): Mailbox: writes a publisher key slot. -/
  | keyInstall (inp : List (BitVec 64))
  /-- WSET_REGISTER (R418): Mailbox: verifies and registers a signed weight set. -/
  | wsetRegister (inp : List (BitVec 64))
  /-- ATTEST (R416): Mailbox: returns a signed attestation. -/
  | attest (inp : List (BitVec 64))
  /-- WINDOW_OPEN (R405): Mailbox: opens a reduction window. -/
  | windowOpen (inp : List (BitVec 64))
  /-- WINDOW_CLOSE (R403): Mailbox: closes a window, discarding open rounds. -/
  | windowClose (inp : List (BitVec 64))
  /-- MB_RETIRE (R39): Mailbox: retires a unit. -/
  | mbRetire (inp : List (BitVec 64))
  /-- EVENT_READ (R403): Mailbox: returns and removes the oldest event records. -/
  | eventRead (inp : List (BitVec 64))
  /-- HOST_CXL_MEM_ACCESS (R401): A host CXL.mem access is performed at its home slice. -/
  | hostCxlMemAccess (pa len : Nat) (data : List (BitVec 8))
  /-- POWER_GOOD (R419): After power-good the module runs its bring-up. `links` holds the LPDDR channels found in bits 31:0 and the
  Phiok ports found from bit 32 up. -/
  | powerGood (cores clusters hbm links : Nat) (boot : Bool)
  /-- MODULE_RESET (R421): Module reset returns registers to reset values. -/
  | moduleReset
  /-- VCTL_WRITE (R192): A write to VCTL sets the rounding mode and FTZ from the next bundle; RM values 5 to 7 take the reserved-field trap. -/
  | vctlWrite (k : Fin 3) (v : BitVec 64)
  /-- HEARTBEAT (R506): Every 2^14 ticks the GS sends a heartbeat on every up port. -/
  | heartbeat
  /-- PHIOK_REPLAY (R498): A CRC error or sequence gap triggers a flit replay. -/
  | phiokReplay (port : Nat)
  /-- PORT_RETRAIN (R498): A port retrains, and goes down after two failures. -/
  | portRetrain (port : Nat) (ok : Bool)
  /-- CXL_LINK_DOWN (R501): The CXL link goes down and tier 2 accesses wait. -/
  | cxlLinkDown
  /-- CXL_LINK_UP (R501): The returning link lets waiting tier 2 accesses and parked queues proceed. -/
  | cxlLinkUp
  /-- IDE_FAILURE (R502): An IDE integrity failure takes the link down and insecure. -/
  | ideFailure
  /-- PHIOK_INBOUND_REQUEST (R34): A request from a peer module arrives over Phiok Link and is performed at this module's home slice, including atomics, monitor wake-ups and block merges. -/
  | phiokInboundRequest (kind : Fin 8) (pa len : Nat) (data : List (BitVec 8))
  /-- CHECKPOINT_COMPLETE (R409): The streaming of tiers 0 and 1 to the fabric memory node ends, and the tables and digest are written before CKPT returns Success. -/
  | checkpointComplete
  /-- RESTORE_COMPLETE (R411): The checkpoint's memories, tables and queue state have been written back, and every swapped team is resumed at new release ticks. -/
  | restoreComplete
  /-- IDE_KEY_PROGRAMMING (R502): The host programs new IDE keys through the mailbox, and the port again carries CXL.cache and CXL.mem traffic. -/
  | ideKeyProgramming
  deriving DecidableEq, Repr

end Sys2Proof
end

