-- ==== Sys2Proof/WellFormed.lean ====
section
/-! DEFINITION. What a decoded slot operation must satisfy beyond the bounds of its fields: the reserved values of
R453 (gathered there from R219-R225, R269, R295, R318, R324, R351), as the bit that the reserved-field and the
reserved-operand traps report in INFO (R450). -/

namespace Sys2Proof

/-- Place of the lowest 1 bit of `w`, looking at the low `k` bits; 0 when there is none. -/
def lowBitAux : Nat → Nat → Nat
  | 0, _ => 0
  | k + 1, w => if w % 2 == 1 then 0 else lowBitAux k (w / 2) + 1

/-- Place of the lowest 1 bit of a field of a slot body (R450, reserved-field INFO). -/
def lowBit (w : Nat) : Nat := lowBitAux 64 w

/-- The bit of the first condition that holds. -/
def firstFault : List (Bool × Nat) → Option Nat
  | [] => none
  | (c, b) :: rest => if c then some b else firstFault rest

/-- A reserved value in a field in use (R453): the bit that the reserved-field trap reports. The checks of an op
stand in ascending order of bits. -/
def Instr.fieldFault : Instr → Option Nat
  | .add _ _ _ => none
  | .sub _ _ _ => none
  | .mul _ _ _ => none
  | .mulh _ _ _ => none
  | .mulhn _ _ _ => none
  | .div _ _ _ => none
  | .divn _ _ _ => none
  | .rem _ _ _ => none
  | .remn _ _ _ => none
  | .and _ _ _ => none
  | .or _ _ _ => none
  | .xor _ _ _ => none
  | .shl _ _ _ => none
  | .shr _ _ _ => none
  | .sra _ _ _ => none
  | .min _ _ _ => none
  | .max _ _ _ => none
  | .minn _ _ _ => none
  | .maxn _ _ _ => none
  | .clz _ _ => none
  | .popc _ _ => none
  | .sel _ _ _ _ => none
  | .cmp _ _ _ c => firstFault [(!(c.val ≤ 5), 0)]
  | .pand _ _ _ => none
  | .por _ _ _ => none
  | .pxor _ _ _ => none
  | .pnot _ _ => none
  | .jr _ _ => none
  | .ret _ => none
  | .addi _ _ _ => none
  | .andi _ _ _ => none
  | .ori _ _ _ => none
  | .xori _ _ _ => none
  | .shli _ _ _ => none
  | .shri _ _ _ => none
  | .srai _ _ _ => none
  | .cmpi _ _ _ _ => none
  | .lih _ _ => none
  | .br _ => none
  | .brc _ _ _ => none
  | .call _ => none
  | .loop _ _ _ _ => none
  | .loopi _ _ _ _ => none
  | .lexit _ => none
  | .ld _ _ _ _ => none
  | .st _ _ _ _ => none
  | .ldc _ _ _ _ => none
  | .stc _ _ _ _ => none
  | .csrr _ _ => none
  | .csrw _ _ _ _ => none
  | .csrs _ _ _ _ => none
  | .csrc _ _ _ _ => none
  | .radv _ _ _ _ => none
  | .rcfg _ d r w => firstFault [(decide (d.val < r.val), 15), (decide (d.val < w.val), 12)]
  | .rfill _ n => firstFault [(!(n.val ≤ 8), 17)]
  | .fence m s _ => firstFault [(!(s.val ≤ 4), 20), (m.val == 0, 23)]
  | .waitb _ => none
  | .waitt _ => none
  | .trap _ => none
  | .brkpt _ => none
  | .exit => none
  | .turn _ _ => none
  | .yield => none
  | .book _ _ _ => none
  | .unbook _ _ _ => none
  | .bqry _ _ _ => none
  | .spawn _ _ _ => none
  | .cancel _ _ _ => none
  | .vadd _ _ _ f _ => firstFault [(!(f.val ≤ 2), 4)]
  | .vsub _ _ _ f _ => firstFault [(!(f.val ≤ 2), 4)]
  | .vmul _ _ _ f _ => firstFault [(!(f.val ≤ 2), 4)]
  | .vfma _ _ _ f _ => firstFault [(!(f.val ≤ 2), 4)]
  | .vfms _ _ _ f _ => firstFault [(!(f.val ≤ 2), 4)]
  | .vfnma _ _ _ f _ => firstFault [(!(f.val ≤ 2), 4)]
  | .vmin _ _ _ f _ => firstFault [(!(f.val ≤ 2), 4)]
  | .vmax _ _ _ f _ => firstFault [(!(f.val ≤ 2), 4)]
  | .vabs _ _ f _ => firstFault [(!(f.val ≤ 4), 4)]
  | .vneg _ _ f _ => firstFault [(!(f.val ≤ 4), 4)]
  | .vrcp _ _ f _ => firstFault [(!(f.val ≤ 2), 4)]
  | .vrsq _ _ f _ => firstFault [(!(f.val ≤ 2), 4)]
  | .vsqrt _ _ f _ => firstFault [(!(f.val ≤ 2), 4)]
  | .vexp2 _ _ f _ => firstFault [(!(f.val ≤ 2), 4)]
  | .vlog2 _ _ f _ => firstFault [(!(f.val ≤ 2), 4)]
  | .vtanh _ _ f _ => firstFault [(!(f.val ≤ 2), 4)]
  | .viadd _ _ _ f _ => firstFault [(!(5 ≤ f.val), 4)]
  | .visub _ _ _ f _ => firstFault [(!(5 ≤ f.val), 4)]
  | .vimul _ _ _ f _ => firstFault [(!(5 ≤ f.val), 4)]
  | .vimulh _ _ _ f _ => firstFault [(!(5 ≤ f.val), 4)]
  | .viadds _ _ _ f _ => firstFault [(!(5 ≤ f.val), 4)]
  | .visubs _ _ _ f _ => firstFault [(!(5 ≤ f.val), 4)]
  | .vimin _ _ _ f _ => firstFault [(!(5 ≤ f.val), 4)]
  | .vimax _ _ _ f _ => firstFault [(!(5 ≤ f.val), 4)]
  | .viminn _ _ _ f _ => firstFault [(!(5 ≤ f.val), 4)]
  | .vimaxn _ _ _ f _ => firstFault [(!(5 ≤ f.val), 4)]
  | .vand _ _ _ f _ => firstFault [(!(5 ≤ f.val), 4)]
  | .vor _ _ _ f _ => firstFault [(!(5 ≤ f.val), 4)]
  | .vxor _ _ _ f _ => firstFault [(!(5 ≤ f.val), 4)]
  | .vshl _ _ _ f _ => firstFault [(!(5 ≤ f.val), 4)]
  | .vshr _ _ _ f _ => firstFault [(!(5 ≤ f.val), 4)]
  | .vsra _ _ _ f _ => firstFault [(!(5 ≤ f.val), 4)]
  | .vcmp _ _ _ _ _ _ => none
  | .vsel _ _ _ _ _ => none
  | .vmand _ _ _ => none
  | .vmor _ _ _ => none
  | .vmxor _ _ _ => none
  | .vmnot _ _ => none
  | .vmpop _ _ => none
  | .vcvt _ _ _ _ _ => none
  | .vqnt _ _ f t _ _ => firstFault [(!(t.val ≤ 2), 8), (!(f.val ≤ 2), 10)]
  | .vdqnt _ _ f t _ _ => firstFault [(!(t.val ≤ 2), 8), (!(f.val ≤ 2), 10)]
  | .vpack _ _ _ _ _ => none
  | .vunpk _ _ _ _ => none
  | .vmov _ _ _ _ => none
  | .vmovi _ _ _ _ => none
  | .vperm _ _ _ _ _ => none
  | .vshuf _ _ _ k _ => firstFault [(!(k.val ≤ 3), 3)]
  | .vrot _ _ _ _ _ => none
  | .vbcst _ _ w _ => firstFault [(!(w.val ≤ 2), 4)]
  | .vidx _ _ _ w _ => firstFault [(!(w.val ≤ 2), 4)]
  | .vins _ _ _ w _ => firstFault [(!(w.val ≤ 2), 4)]
  | .vext _ _ _ w => firstFault [(!(w.val ≤ 2), 4)]
  | .vrsum _ _ f _ => firstFault [(!(f.val ≤ 2 || 5 ≤ f.val), 4)]
  | .vrmax _ _ f _ => firstFault [(!(f.val ≤ 2 || 5 ≤ f.val), 4)]
  | .vrmin _ _ f _ => firstFault [(!(f.val ≤ 2 || 5 ≤ f.val), 4)]
  | .vscan _ _ f _ => firstFault [(!(f.val ≤ 2 || 5 ≤ f.val), 4)]
  | .vsort _ _ _ _ => none
  | .vld _ _ _ _ => none
  | .vst _ _ _ _ => none
  | .vlds _ _ _ w _ => firstFault [(!(w.val ≤ 3), 4)]
  | .vsts _ _ _ w _ => firstFault [(!(w.val ≤ 3), 4)]
  | .vgth _ _ _ _ _ => none
  | .vsct _ _ _ _ _ => none
  | .vldc _ _ _ _ => none
  | .vstc _ _ _ _ => none
  | .vcmpr _ _ _ _ => none
  | .vcmprFlush _ _ => none
  | .vxpnd _ _ _ _ => none
  | .vxpndDrop _ _ => none
  | .mldb _ fs ft _ _ _ => firstFault [(fs.val ≤ 3 && ft.val != 0, 44 + lowBit ft.val), (5 ≤ fs.val, 48)]
  | .mstep _ _ fs ft _ _ _ _ => firstFault [(fs.val ≤ 3 && ft.val != 0, 44 + lowBit ft.val), (5 ≤ fs.val, 48)]
  | .mzero _ _ => none
  | .mrd _ _ fs ft _ _ _ _ => firstFault [(fs.val ≤ 3 && ft.val != 0, 44 + lowBit ft.val), (5 ≤ fs.val, 48)]
  | .mwr _ _ _ _ _ => none
  | .mbias _ _ _ _ _ => none
  | .xput _ _ w _ => firstFault [(!(w.val ≤ 2), 12)]
  | .xget _ _ w _ => firstFault [(!(w.val ≤ 2), 12)]
  | .xclr _ => none
  | .cdset _ _ _ w => firstFault [(4 ≤ w.val, 15)]
  | .cget _ _ o c _ x _ _ _ w _ => firstFault [(2 ≤ x.val && x.val ≤ 7 && 3 ≤ w.val, 15), (!(2 ≤ x.val && x.val ≤ 7) && w.val != 0, 15 + lowBit w.val), (10 ≤ x.val, 36), (o.val == 0 && c.val != 0, 44 + lowBit c.val), (5 ≤ c.val, 44)]
  | .cput _ _ o c _ x _ _ _ w _ => firstFault [(2 ≤ x.val && x.val ≤ 7 && 3 ≤ w.val, 15), (!(2 ≤ x.val && x.val ≤ 7) && w.val != 0, 15 + lowBit w.val), (10 ≤ x.val, 36), (o.val == 0 && c.val != 0, 44 + lowBit c.val), (5 ≤ c.val, 44)]
  | .cxfer _ _ o c _ _ _ _ _ => firstFault [(o.val == 0 && c.val != 0, 44 + lowBit c.val), (5 ≤ c.val, 44)]
  | .cfill _ _ o c _ _ _ _ _ _ => firstFault [(o.val == 0 && c.val != 0, 44 + lowBit c.val), (5 ≤ c.val, 44)]
  | .ctouch _ _ o c _ _ _ => firstFault [(o.val == 0 && c.val != 0, 44 + lowBit c.val), (5 ≤ c.val, 44)]
  | .cflush _ _ o c _ _ _ => firstFault [(o.val == 0 && c.val != 0, 44 + lowBit c.val), (5 ≤ c.val, 44)]
  | .cmap _ _ o c _ _ => firstFault [(o.val == 0 && c.val != 0, 44 + lowBit c.val), (5 ≤ c.val, 44)]
  | .cmigr _ _ o c _ _ _ w => firstFault [(2 ≤ w.val, 15), (o.val == 0 && c.val != 0, 44 + lowBit c.val), (5 ≤ c.val, 44)]
  | .cpfx _ _ _ _ => none
  | .aadd _ _ o c _ _ _ w _ => firstFault [(2 ≤ w.val, 15), (o.val == 0 && c.val != 0, 44 + lowBit c.val), (5 ≤ c.val, 44)]
  | .afadd _ _ o c _ _ _ w _ => firstFault [(3 ≤ w.val, 15), (o.val == 0 && c.val != 0, 44 + lowBit c.val), (5 ≤ c.val, 44)]
  | .aand _ _ o c _ _ _ w _ => firstFault [(2 ≤ w.val, 15), (o.val == 0 && c.val != 0, 44 + lowBit c.val), (5 ≤ c.val, 44)]
  | .aor _ _ o c _ _ _ w _ => firstFault [(2 ≤ w.val, 15), (o.val == 0 && c.val != 0, 44 + lowBit c.val), (5 ≤ c.val, 44)]
  | .axor _ _ o c _ _ _ w _ => firstFault [(2 ≤ w.val, 15), (o.val == 0 && c.val != 0, 44 + lowBit c.val), (5 ≤ c.val, 44)]
  | .amin _ _ o c _ _ _ w _ => firstFault [(2 ≤ w.val, 15), (o.val == 0 && c.val != 0, 44 + lowBit c.val), (5 ≤ c.val, 44)]
  | .amax _ _ o c _ _ _ w _ => firstFault [(2 ≤ w.val, 15), (o.val == 0 && c.val != 0, 44 + lowBit c.val), (5 ≤ c.val, 44)]
  | .aminn _ _ o c _ _ _ w _ => firstFault [(2 ≤ w.val, 15), (o.val == 0 && c.val != 0, 44 + lowBit c.val), (5 ≤ c.val, 44)]
  | .amaxn _ _ o c _ _ _ w _ => firstFault [(2 ≤ w.val, 15), (o.val == 0 && c.val != 0, 44 + lowBit c.val), (5 ≤ c.val, 44)]
  | .axchg _ _ o c _ _ _ w _ => firstFault [(2 ≤ w.val, 15), (o.val == 0 && c.val != 0, 44 + lowBit c.val), (5 ≤ c.val, 44)]
  | .acas _ _ o c _ _ _ w _ => firstFault [(2 ≤ w.val, 15), (o.val == 0 && c.val != 0, 44 + lowBit c.val), (5 ≤ c.val, 44)]
  | .adecp _ _ o c _ _ _ w _ => firstFault [(2 ≤ w.val, 15), (o.val == 0 && c.val != 0, 44 + lowBit c.val), (5 ≤ c.val, 44)]
  | .adcas _ _ o c _ _ _ w _ => firstFault [(2 ≤ w.val, 15), (o.val == 0 && c.val != 0, 44 + lowBit c.val), (5 ≤ c.val, 44)]
  | .amove _ _ o c _ _ _ w _ => firstFault [(2 ≤ w.val, 15), (o.val == 0 && c.val != 0, 44 + lowBit c.val), (5 ≤ c.val, 44)]
  | .ared _ _ o c _ _ w => firstFault [(5 ≤ w.val, 15), (o.val == 0 && c.val != 0, 44 + lowBit c.val), (5 ≤ c.val, 44)]
  | .waita _ _ o c _ _ _ w _ => firstFault [(2 ≤ w.val, 15), (o.val == 0 && c.val != 0, 44 + lowBit c.val), (5 ≤ c.val, 44)]
  | .wake _ _ o c _ _ _ _ => firstFault [(o.val == 0 && c.val != 0, 44 + lowBit c.val), (5 ≤ c.val, 44)]
  | .psend _ _ o c _ _ _ _ => firstFault [(5 ≤ c.val, 44), (o.val != 1, 47)]
  | .precv _ _ o c _ _ _ _ => firstFault [(5 ≤ c.val, 44), (o.val != 2, 47)]
  | .pclose _ _ _ => none
  | .tbar _ _ o c d => firstFault [(4 ≤ d.val, 40), (5 ≤ c.val, 44), (o.val != 3, 47)]
  | .barsig _ o c d => firstFault [(4 ≤ d.val, 40), (5 ≤ c.val, 44), (o.val != 1, 47)]
  | .barset _ _ _ => none
  | .ixopen _ _ _ _ _ => none
  | .ixlist _ _ o c _ _ _ _ => firstFault [(o.val == 0 && c.val != 0, 44 + lowBit c.val), (5 ≤ c.val, 44)]
  | .ixand _ _ _ _ => none
  | .ixor _ _ _ _ => none
  | .ixscore _ _ _ _ => none
  | .ixvec _ _ o c _ _ _ => firstFault [(o.val == 0 && c.val != 0, 44 + lowBit c.val), (5 ≤ c.val, 44)]
  | .ixtopk _ _ _ => none
  | .ixdrain _ _ o c _ _ _ => firstFault [(o.val == 0 && c.val != 0, 44 + lowBit c.val), (5 ≤ c.val, 44)]
  | .ixclose _ _ _ => none
  | .waittResume _ => none
  | .ccRequestServe _ => none
  | .bookingLapse _ _ => none
  | .mstepComplete _ => none
  | .resultLand _ => none
  | .cxferTargetSignal _ _ => none
  | .psendStore _ _ => none
  | .precvReceive _ _ => none
  | .ixCommandStart _ _ => none
  | .commandAccept _ _ => none
  | .commandComplete _ _ => none
  | .pageFaultResolved _ _ => none
  | .pageFaultUnresolvable _ _ => none
  | .invtlb _ _ _ _ => none
  | .invtlbComplete _ => none
  | .migrationPage _ => none
  | .calendarTick _ => none
  | .headlandResolve _ => none
  | .graceExpiry _ => none
  | .overrun _ => none
  | .stakePlace _ => none
  | .stakeLapse _ => none
  | .stageTeam _ => none
  | .taskRelease _ => none
  | .teamPlace _ => none
  | .quantumExpiry _ => none
  | .preempt _ => none
  | .drainEnd _ => none
  | .swapOutComplete _ => none
  | .swapInComplete _ => none
  | .instanceComplete _ => none
  | .siblingStop _ _ => none
  | .reservedCycle _ => none
  | .refreshUrgent _ => none
  | .expiryWritebackComplete _ _ _ => none
  | .turnRollback _ _ => none
  | .rollbackRestart _ => none
  | .contextEnd _ _ _ => none
  | .bucketLeak _ => none
  | .launchAdmit _ => none
  | .waitReevaluate _ => none
  | .deferredWritePerform _ => none
  | .queueUnpark _ => none
  | .doorbellNotify _ => none
  | .permitReturn _ _ => none
  | .reductionContribution _ _ _ _ => none
  | .roundTimeout _ _ => none
  | .peerTimeout _ _ => none
  | .weightSetVerified _ => none
  | .cxlLinkTimeout _ _ => none
  | .csrWrite _ _ _ => none
  | .vctlWrite _ _ => none
  | .vseedWrite _ _ => none
  | .bstatWrite _ _ _ => none
  | .moncapWrite _ _ => none
  | .fallowBundle => none
  | .tickBoundary => none
  | .retentionTick => none
  | .shadowLatchReplay _ _ _ _ => none
  | .katRun _ _ => none
  | .globalScrub _ _ => none
  | .nop _ => none
  | .launch _ => none
  | .wait _ => none
  | .signal _ => none
  | .ibCall _ => none
  | .pktFence _ => none
  | .pktBook _ => none
  | .pktCancel _ => none
  | .counter _ => none
  | .timestamp _ => none
  | .queueEnable _ => none
  | .queueDisable _ => none
  | .queueDescriptorWrite _ _ _ => none
  | .kickqWrite _ _ => none
  | .msgPlace _ _ => none
  | .msgBook _ _ => none
  | .msgStage _ _ => none
  | .msgRelease _ _ => none
  | .msgInvtlb _ _ => none
  | .msgRetire _ _ => none
  | .msgQuantum _ _ => none
  | .msgPreempt _ _ => none
  | .msgCancel _ _ => none
  | .msgBooked _ _ => none
  | .msgNofit _ _ => none
  | .msgStaged _ _ => none
  | .msgHalted _ _ => none
  | .msgSwapped _ _ => none
  | .msgSlip _ _ => none
  | .msgEvent _ _ => none
  | .msgComplete _ _ => none
  | .msgFault _ _ => none
  | .ccFailure _ _ => none
  | .moduleStop _ => none
  | .ctxCreate _ => none
  | .ctxDestroy _ => none
  | .mbInvtlb _ => none
  | .migrate _ => none
  | .hashSet _ => none
  | .powerSet _ => none
  | .ckpt _ => none
  | .restore _ => none
  | .keyInstall _ => none
  | .wsetRegister _ => none
  | .attest _ => none
  | .windowOpen _ => none
  | .windowClose _ => none
  | .mbRetire _ => none
  | .eventRead _ => none
  | .hostCxlMemAccess _ _ _ => none
  | .powerGood _ _ _ _ _ => none
  | .moduleReset => none
  | .thermalTrip _ => none
  | .heartbeat => none
  | .phiokReplay _ => none
  | .portRetrain _ _ => none
  | .cxlLinkDown => none
  | .cxlLinkUp => none
  | .ideFailure => none
  | .phiokInboundRequest _ _ _ _ => none
  | .checkpointComplete => none
  | .restoreComplete => none
  | .ideKeyProgramming => none

/-- A reserved specifier, guard or destination mask (R220, R221, R453): the lowest bit of the offending field. -/
def Instr.operandFault : Instr → Option Nat
  | .add _ _ _ => none
  | .sub _ _ _ => none
  | .mul _ _ _ => none
  | .mulh _ _ _ => none
  | .mulhn _ _ _ => none
  | .div _ _ _ => none
  | .divn _ _ _ => none
  | .rem _ _ _ => none
  | .remn _ _ _ => none
  | .and _ _ _ => none
  | .or _ _ _ => none
  | .xor _ _ _ => none
  | .shl _ _ _ => none
  | .shr _ _ _ => none
  | .sra _ _ _ => none
  | .min _ _ _ => none
  | .max _ _ _ => none
  | .minn _ _ _ => none
  | .maxn _ _ _ => none
  | .clz _ _ => none
  | .popc _ _ => none
  | .sel _ _ _ _ => none
  | .cmp _ _ _ _ => none
  | .pand _ _ _ => none
  | .por _ _ _ => none
  | .pxor _ _ _ => none
  | .pnot _ _ => none
  | .jr _ _ => none
  | .ret _ => none
  | .addi _ _ _ => none
  | .andi _ _ _ => none
  | .ori _ _ _ => none
  | .xori _ _ _ => none
  | .shli _ _ _ => none
  | .shri _ _ _ => none
  | .srai _ _ _ => none
  | .cmpi _ _ _ _ => none
  | .lih _ _ => none
  | .br _ => none
  | .brc _ _ _ => none
  | .call _ => none
  | .loop _ _ _ _ => none
  | .loopi _ _ _ _ => none
  | .lexit _ => none
  | .ld _ _ _ _ => none
  | .st _ _ _ _ => none
  | .ldc _ _ _ _ => none
  | .stc _ _ _ _ => none
  | .csrr _ _ => none
  | .csrw _ _ _ _ => none
  | .csrs _ _ _ _ => none
  | .csrc _ _ _ _ => none
  | .radv _ _ _ g => firstFault [(1 ≤ g.val && g.val ≤ 7, 0)]
  | .rcfg _ _ _ _ => none
  | .rfill _ _ => none
  | .fence _ _ _ => none
  | .waitb _ => none
  | .waitt _ => none
  | .trap _ => none
  | .brkpt _ => none
  | .exit => none
  | .turn _ _ => none
  | .yield => none
  | .book _ _ _ => none
  | .unbook _ _ _ => none
  | .bqry _ _ _ => none
  | .spawn _ _ _ => none
  | .cancel _ _ _ => none
  | .vadd d a b _ _ => firstFault [(60 ≤ b.val, 7), (60 ≤ a.val, 13), (48 ≤ d.val, 19)]
  | .vsub d a b _ _ => firstFault [(60 ≤ b.val, 7), (60 ≤ a.val, 13), (48 ≤ d.val, 19)]
  | .vmul d a b _ _ => firstFault [(60 ≤ b.val, 7), (60 ≤ a.val, 13), (48 ≤ d.val, 19)]
  | .vfma _ a b _ _ => firstFault [(60 ≤ b.val, 7), (60 ≤ a.val, 13)]
  | .vfms _ a b _ _ => firstFault [(60 ≤ b.val, 7), (60 ≤ a.val, 13)]
  | .vfnma _ a b _ _ => firstFault [(60 ≤ b.val, 7), (60 ≤ a.val, 13)]
  | .vmin d a b _ _ => firstFault [(60 ≤ b.val, 7), (60 ≤ a.val, 13), (48 ≤ d.val, 19)]
  | .vmax d a b _ _ => firstFault [(60 ≤ b.val, 7), (60 ≤ a.val, 13), (48 ≤ d.val, 19)]
  | .vabs d a _ _ => firstFault [(60 ≤ a.val, 13), (48 ≤ d.val, 19)]
  | .vneg d a _ _ => firstFault [(60 ≤ a.val, 13), (48 ≤ d.val, 19)]
  | .vrcp d a _ _ => firstFault [(60 ≤ a.val, 13), (48 ≤ d.val, 19)]
  | .vrsq d a _ _ => firstFault [(60 ≤ a.val, 13), (48 ≤ d.val, 19)]
  | .vsqrt d a _ _ => firstFault [(60 ≤ a.val, 13), (48 ≤ d.val, 19)]
  | .vexp2 d a _ _ => firstFault [(60 ≤ a.val, 13), (48 ≤ d.val, 19)]
  | .vlog2 d a _ _ => firstFault [(60 ≤ a.val, 13), (48 ≤ d.val, 19)]
  | .vtanh d a _ _ => firstFault [(60 ≤ a.val, 13), (48 ≤ d.val, 19)]
  | .viadd d a b _ _ => firstFault [(60 ≤ b.val, 7), (60 ≤ a.val, 13), (48 ≤ d.val, 19)]
  | .visub d a b _ _ => firstFault [(60 ≤ b.val, 7), (60 ≤ a.val, 13), (48 ≤ d.val, 19)]
  | .vimul d a b _ _ => firstFault [(60 ≤ b.val, 7), (60 ≤ a.val, 13), (48 ≤ d.val, 19)]
  | .vimulh d a b _ _ => firstFault [(60 ≤ b.val, 7), (60 ≤ a.val, 13), (48 ≤ d.val, 19)]
  | .viadds d a b _ _ => firstFault [(60 ≤ b.val, 7), (60 ≤ a.val, 13), (48 ≤ d.val, 19)]
  | .visubs d a b _ _ => firstFault [(60 ≤ b.val, 7), (60 ≤ a.val, 13), (48 ≤ d.val, 19)]
  | .vimin d a b _ _ => firstFault [(60 ≤ b.val, 7), (60 ≤ a.val, 13), (48 ≤ d.val, 19)]
  | .vimax d a b _ _ => firstFault [(60 ≤ b.val, 7), (60 ≤ a.val, 13), (48 ≤ d.val, 19)]
  | .viminn d a b _ _ => firstFault [(60 ≤ b.val, 7), (60 ≤ a.val, 13), (48 ≤ d.val, 19)]
  | .vimaxn d a b _ _ => firstFault [(60 ≤ b.val, 7), (60 ≤ a.val, 13), (48 ≤ d.val, 19)]
  | .vand d a b _ _ => firstFault [(60 ≤ b.val, 7), (60 ≤ a.val, 13), (48 ≤ d.val, 19)]
  | .vor d a b _ _ => firstFault [(60 ≤ b.val, 7), (60 ≤ a.val, 13), (48 ≤ d.val, 19)]
  | .vxor d a b _ _ => firstFault [(60 ≤ b.val, 7), (60 ≤ a.val, 13), (48 ≤ d.val, 19)]
  | .vshl d a b _ _ => firstFault [(60 ≤ b.val, 7), (60 ≤ a.val, 13), (48 ≤ d.val, 19)]
  | .vshr d a b _ _ => firstFault [(60 ≤ b.val, 7), (60 ≤ a.val, 13), (48 ≤ d.val, 19)]
  | .vsra d a b _ _ => firstFault [(60 ≤ b.val, 7), (60 ≤ a.val, 13), (48 ≤ d.val, 19)]
  | .vcmp _ m a b _ _ => firstFault [(60 ≤ b.val, 7), (60 ≤ a.val, 13), (m.val == 0, 19)]
  | .vsel d a b _ _ => firstFault [(60 ≤ b.val, 7), (60 ≤ a.val, 13), (48 ≤ d.val, 19)]
  | .vmand d _ _ => firstFault [(d.val == 0, 19)]
  | .vmor d _ _ => firstFault [(d.val == 0, 19)]
  | .vmxor d _ _ => firstFault [(d.val == 0, 19)]
  | .vmnot d _ => firstFault [(d.val == 0, 19)]
  | .vmpop d _ => firstFault [(48 ≤ d.val, 19)]
  | .vcvt d a _ _ _ => firstFault [(60 ≤ a.val, 13), (48 ≤ d.val, 19)]
  | .vqnt d a _ _ _ _ => firstFault [(60 ≤ a.val, 13), (48 ≤ d.val, 19)]
  | .vdqnt d a _ _ _ _ => firstFault [(60 ≤ a.val, 13), (48 ≤ d.val, 19)]
  | .vpack d a b _ _ => firstFault [(60 ≤ b.val, 7), (60 ≤ a.val, 13), (48 ≤ d.val, 19)]
  | .vunpk d a _ _ => firstFault [(60 ≤ a.val, 13), (48 ≤ d.val, 19)]
  | .vmov d a _ _ => firstFault [(60 ≤ a.val, 13), (48 ≤ d.val, 19)]
  | .vmovi d _ _ _ => firstFault [(48 ≤ d.val, 19)]
  | .vperm d a b _ _ => firstFault [(60 ≤ b.val, 7), (60 ≤ a.val, 13), (48 ≤ d.val, 19)]
  | .vshuf d a _ _ _ => firstFault [(60 ≤ a.val, 13), (48 ≤ d.val, 19)]
  | .vrot d a _ _ _ => firstFault [(60 ≤ a.val, 13), (48 ≤ d.val, 19)]
  | .vbcst d _ _ _ => firstFault [(48 ≤ d.val, 19)]
  | .vidx d _ _ _ _ => firstFault [(48 ≤ d.val, 19)]
  | .vins _ _ _ _ _ => none
  | .vext v _ _ _ => firstFault [(60 ≤ v.val, 19)]
  | .vrsum d a _ _ => firstFault [(60 ≤ a.val, 13), (48 ≤ d.val, 19)]
  | .vrmax d a _ _ => firstFault [(60 ≤ a.val, 13), (48 ≤ d.val, 19)]
  | .vrmin d a _ _ => firstFault [(60 ≤ a.val, 13), (48 ≤ d.val, 19)]
  | .vscan d a _ _ => firstFault [(60 ≤ a.val, 13), (48 ≤ d.val, 19)]
  | .vsort d a _ _ => firstFault [(60 ≤ a.val, 13), (48 ≤ d.val, 19)]
  | .vld d _ _ _ => firstFault [(48 ≤ d.val, 19)]
  | .vst d _ _ _ => firstFault [(60 ≤ d.val, 19)]
  | .vlds d _ _ _ _ => firstFault [(48 ≤ d.val, 19)]
  | .vsts d _ _ _ _ => firstFault [(60 ≤ d.val, 19)]
  | .vgth d a b _ _ => firstFault [(!(52 ≤ b.val && b.val ≤ 59), 7), (60 ≤ a.val, 13), (48 ≤ d.val, 19)]
  | .vsct d a b _ _ => firstFault [(!(52 ≤ b.val && b.val ≤ 59), 7), (60 ≤ a.val, 13), (60 ≤ d.val, 19)]
  | .vldc d _ _ _ => firstFault [(48 ≤ d.val, 19)]
  | .vstc d _ _ _ => firstFault [(60 ≤ d.val, 19)]
  | .vcmpr _ a _ _ => firstFault [(60 ≤ a.val || a.val == 48, 13)]
  | .vcmprFlush _ _ => none
  | .vxpnd _ _ _ _ => none
  | .vxpndDrop _ _ => none
  | .mldb _ _ _ _ _ g => firstFault [(1 ≤ g.val && g.val ≤ 7, 32)]
  | .mstep _ _ _ _ _ _ g _ => firstFault [(1 ≤ g.val && g.val ≤ 7, 32)]
  | .mzero _ g => firstFault [(1 ≤ g.val && g.val ≤ 7, 32)]
  | .mrd _ qa _ _ _ g f _ => firstFault [(1 ≤ g.val && g.val ≤ 7, 32), ((f.val == 0 || f.val == 5) && qa.val % 2 == 1, 51)]
  | .mwr _ qa _ g f => firstFault [(1 ≤ g.val && g.val ≤ 7, 32), ((f.val == 0 || f.val == 5) && qa.val % 2 == 1, 51)]
  | .mbias _ qa _ g f => firstFault [(1 ≤ g.val && g.val ≤ 7, 32), ((f.val == 0 || f.val == 5) && qa.val % 2 == 1, 51)]
  | .xput s _ _ g => firstFault [(1 ≤ g.val && g.val ≤ 7, 0), (60 ≤ s.val, 22)]
  | .xget s _ _ g => firstFault [(1 ≤ g.val && g.val ≤ 7, 0), (48 ≤ s.val, 22)]
  | .xclr g => firstFault [(1 ≤ g.val && g.val ≤ 7, 0)]
  | .cdset g _ _ _ => firstFault [(1 ≤ g.val && g.val ≤ 7, 53)]
  | .cget g _ _ _ _ _ _ _ _ _ _ => firstFault [(1 ≤ g.val && g.val ≤ 7, 53)]
  | .cput g _ _ _ _ _ _ _ _ _ _ => firstFault [(1 ≤ g.val && g.val ≤ 7, 53)]
  | .cxfer g _ _ _ _ _ _ _ _ => firstFault [(1 ≤ g.val && g.val ≤ 7, 53)]
  | .cfill g _ _ _ _ _ _ _ _ _ => firstFault [(1 ≤ g.val && g.val ≤ 7, 53)]
  | .ctouch g _ _ _ _ _ _ => firstFault [(1 ≤ g.val && g.val ≤ 7, 53)]
  | .cflush g _ _ _ _ _ _ => firstFault [(1 ≤ g.val && g.val ≤ 7, 53)]
  | .cmap g _ _ _ _ _ => firstFault [(1 ≤ g.val && g.val ≤ 7, 53)]
  | .cmigr g _ _ _ _ _ _ _ => firstFault [(1 ≤ g.val && g.val ≤ 7, 53)]
  | .cpfx g _ _ _ => firstFault [(1 ≤ g.val && g.val ≤ 7, 53)]
  | .aadd g _ _ _ _ _ _ _ _ => firstFault [(1 ≤ g.val && g.val ≤ 7, 53)]
  | .afadd g _ _ _ _ _ _ _ _ => firstFault [(1 ≤ g.val && g.val ≤ 7, 53)]
  | .aand g _ _ _ _ _ _ _ _ => firstFault [(1 ≤ g.val && g.val ≤ 7, 53)]
  | .aor g _ _ _ _ _ _ _ _ => firstFault [(1 ≤ g.val && g.val ≤ 7, 53)]
  | .axor g _ _ _ _ _ _ _ _ => firstFault [(1 ≤ g.val && g.val ≤ 7, 53)]
  | .amin g _ _ _ _ _ _ _ _ => firstFault [(1 ≤ g.val && g.val ≤ 7, 53)]
  | .amax g _ _ _ _ _ _ _ _ => firstFault [(1 ≤ g.val && g.val ≤ 7, 53)]
  | .aminn g _ _ _ _ _ _ _ _ => firstFault [(1 ≤ g.val && g.val ≤ 7, 53)]
  | .amaxn g _ _ _ _ _ _ _ _ => firstFault [(1 ≤ g.val && g.val ≤ 7, 53)]
  | .axchg g _ _ _ _ _ _ _ _ => firstFault [(1 ≤ g.val && g.val ≤ 7, 53)]
  | .acas g _ _ _ _ _ _ _ _ => firstFault [(1 ≤ g.val && g.val ≤ 7, 53)]
  | .adecp g _ _ _ _ _ _ _ _ => firstFault [(1 ≤ g.val && g.val ≤ 7, 53)]
  | .adcas g _ _ _ _ _ _ _ _ => firstFault [(1 ≤ g.val && g.val ≤ 7, 53)]
  | .amove g _ _ _ _ _ _ _ _ => firstFault [(1 ≤ g.val && g.val ≤ 7, 53)]
  | .ared g _ _ _ _ _ _ => firstFault [(1 ≤ g.val && g.val ≤ 7, 53)]
  | .waita g _ _ _ _ _ _ _ _ => firstFault [(1 ≤ g.val && g.val ≤ 7, 53)]
  | .wake g _ _ _ _ _ _ _ => firstFault [(1 ≤ g.val && g.val ≤ 7, 53)]
  | .psend g _ _ _ _ _ _ _ => firstFault [(1 ≤ g.val && g.val ≤ 7, 53)]
  | .precv g _ _ _ _ _ _ _ => firstFault [(1 ≤ g.val && g.val ≤ 7, 53)]
  | .pclose g _ _ => firstFault [(1 ≤ g.val && g.val ≤ 7, 53)]
  | .tbar g _ _ _ _ => firstFault [(1 ≤ g.val && g.val ≤ 7, 53)]
  | .barsig g _ _ _ => firstFault [(1 ≤ g.val && g.val ≤ 7, 53)]
  | .barset g _ _ => firstFault [(1 ≤ g.val && g.val ≤ 7, 53)]
  | .ixopen g _ _ _ _ => firstFault [(1 ≤ g.val && g.val ≤ 7, 53)]
  | .ixlist g _ _ _ _ _ _ _ => firstFault [(1 ≤ g.val && g.val ≤ 7, 53)]
  | .ixand g _ _ _ => firstFault [(1 ≤ g.val && g.val ≤ 7, 53)]
  | .ixor g _ _ _ => firstFault [(1 ≤ g.val && g.val ≤ 7, 53)]
  | .ixscore g _ _ _ => firstFault [(1 ≤ g.val && g.val ≤ 7, 53)]
  | .ixvec g _ _ _ _ _ _ => firstFault [(1 ≤ g.val && g.val ≤ 7, 53)]
  | .ixtopk g _ _ => firstFault [(1 ≤ g.val && g.val ≤ 7, 53)]
  | .ixdrain g _ _ _ _ _ _ => firstFault [(1 ≤ g.val && g.val ≤ 7, 53)]
  | .ixclose g _ _ => firstFault [(1 ≤ g.val && g.val ≤ 7, 53)]
  | .waittResume _ => none
  | .ccRequestServe _ => none
  | .bookingLapse _ _ => none
  | .mstepComplete _ => none
  | .resultLand _ => none
  | .cxferTargetSignal _ _ => none
  | .psendStore _ _ => none
  | .precvReceive _ _ => none
  | .ixCommandStart _ _ => none
  | .commandAccept _ _ => none
  | .commandComplete _ _ => none
  | .pageFaultResolved _ _ => none
  | .pageFaultUnresolvable _ _ => none
  | .invtlb _ _ _ _ => none
  | .invtlbComplete _ => none
  | .migrationPage _ => none
  | .calendarTick _ => none
  | .headlandResolve _ => none
  | .graceExpiry _ => none
  | .overrun _ => none
  | .stakePlace _ => none
  | .stakeLapse _ => none
  | .stageTeam _ => none
  | .taskRelease _ => none
  | .teamPlace _ => none
  | .quantumExpiry _ => none
  | .preempt _ => none
  | .drainEnd _ => none
  | .swapOutComplete _ => none
  | .swapInComplete _ => none
  | .instanceComplete _ => none
  | .siblingStop _ _ => none
  | .reservedCycle _ => none
  | .refreshUrgent _ => none
  | .expiryWritebackComplete _ _ _ => none
  | .turnRollback _ _ => none
  | .rollbackRestart _ => none
  | .contextEnd _ _ _ => none
  | .bucketLeak _ => none
  | .launchAdmit _ => none
  | .waitReevaluate _ => none
  | .deferredWritePerform _ => none
  | .queueUnpark _ => none
  | .doorbellNotify _ => none
  | .permitReturn _ _ => none
  | .reductionContribution _ _ _ _ => none
  | .roundTimeout _ _ => none
  | .peerTimeout _ _ => none
  | .weightSetVerified _ => none
  | .cxlLinkTimeout _ _ => none
  | .csrWrite _ _ _ => none
  | .vctlWrite _ _ => none
  | .vseedWrite _ _ => none
  | .bstatWrite _ _ _ => none
  | .moncapWrite _ _ => none
  | .fallowBundle => none
  | .tickBoundary => none
  | .retentionTick => none
  | .shadowLatchReplay _ _ _ _ => none
  | .katRun _ _ => none
  | .globalScrub _ _ => none
  | .nop _ => none
  | .launch _ => none
  | .wait _ => none
  | .signal _ => none
  | .ibCall _ => none
  | .pktFence _ => none
  | .pktBook _ => none
  | .pktCancel _ => none
  | .counter _ => none
  | .timestamp _ => none
  | .queueEnable _ => none
  | .queueDisable _ => none
  | .queueDescriptorWrite _ _ _ => none
  | .kickqWrite _ _ => none
  | .msgPlace _ _ => none
  | .msgBook _ _ => none
  | .msgStage _ _ => none
  | .msgRelease _ _ => none
  | .msgInvtlb _ _ => none
  | .msgRetire _ _ => none
  | .msgQuantum _ _ => none
  | .msgPreempt _ _ => none
  | .msgCancel _ _ => none
  | .msgBooked _ _ => none
  | .msgNofit _ _ => none
  | .msgStaged _ _ => none
  | .msgHalted _ _ => none
  | .msgSwapped _ _ => none
  | .msgSlip _ _ => none
  | .msgEvent _ _ => none
  | .msgComplete _ _ => none
  | .msgFault _ _ => none
  | .ccFailure _ _ => none
  | .moduleStop _ => none
  | .ctxCreate _ => none
  | .ctxDestroy _ => none
  | .mbInvtlb _ => none
  | .migrate _ => none
  | .hashSet _ => none
  | .powerSet _ => none
  | .ckpt _ => none
  | .restore _ => none
  | .keyInstall _ => none
  | .wsetRegister _ => none
  | .attest _ => none
  | .windowOpen _ => none
  | .windowClose _ => none
  | .mbRetire _ => none
  | .eventRead _ => none
  | .hostCxlMemAccess _ _ _ => none
  | .powerGood _ _ _ _ _ => none
  | .moduleReset => none
  | .thermalTrip _ => none
  | .heartbeat => none
  | .phiokReplay _ => none
  | .portRetrain _ _ => none
  | .cxlLinkDown => none
  | .cxlLinkUp => none
  | .ideFailure => none
  | .phiokInboundRequest _ _ _ _ => none
  | .checkpointComplete => none
  | .restoreComplete => none
  | .ideKeyProgramming => none

/-- A slot operation that no encoding check refuses. Every event is well formed. -/
def Instr.wf (i : Instr) : Bool := i.fieldFault.isNone && i.operandFault.isNone

/-- The kind of slot body that holds the operation, or `none` for an event (R212, R219). -/
def Instr.unit : Instr → Option Unit'
  | .add _ _ _ => some .s
  | .sub _ _ _ => some .s
  | .mul _ _ _ => some .s
  | .mulh _ _ _ => some .s
  | .mulhn _ _ _ => some .s
  | .div _ _ _ => some .s
  | .divn _ _ _ => some .s
  | .rem _ _ _ => some .s
  | .remn _ _ _ => some .s
  | .and _ _ _ => some .s
  | .or _ _ _ => some .s
  | .xor _ _ _ => some .s
  | .shl _ _ _ => some .s
  | .shr _ _ _ => some .s
  | .sra _ _ _ => some .s
  | .min _ _ _ => some .s
  | .max _ _ _ => some .s
  | .minn _ _ _ => some .s
  | .maxn _ _ _ => some .s
  | .clz _ _ => some .s
  | .popc _ _ => some .s
  | .sel _ _ _ _ => some .s
  | .cmp _ _ _ _ => some .s
  | .pand _ _ _ => some .s
  | .por _ _ _ => some .s
  | .pxor _ _ _ => some .s
  | .pnot _ _ => some .s
  | .jr _ _ => some .s
  | .ret _ => some .s
  | .addi _ _ _ => some .s
  | .andi _ _ _ => some .s
  | .ori _ _ _ => some .s
  | .xori _ _ _ => some .s
  | .shli _ _ _ => some .s
  | .shri _ _ _ => some .s
  | .srai _ _ _ => some .s
  | .cmpi _ _ _ _ => some .s
  | .lih _ _ => some .s
  | .br _ => some .s
  | .brc _ _ _ => some .s
  | .call _ => some .s
  | .loop _ _ _ _ => some .s
  | .loopi _ _ _ _ => some .s
  | .lexit _ => some .s
  | .ld _ _ _ _ => some .s
  | .st _ _ _ _ => some .s
  | .ldc _ _ _ _ => some .s
  | .stc _ _ _ _ => some .s
  | .csrr _ _ => some .s
  | .csrw _ _ _ _ => some .s
  | .csrs _ _ _ _ => some .s
  | .csrc _ _ _ _ => some .s
  | .radv _ _ _ _ => some .s
  | .rcfg _ _ _ _ => some .s
  | .rfill _ _ => some .s
  | .fence _ _ _ => some .s
  | .waitb _ => some .s
  | .waitt _ => some .s
  | .trap _ => some .s
  | .brkpt _ => some .s
  | .exit => some .s
  | .turn _ _ => some .s
  | .yield => some .s
  | .book _ _ _ => some .s
  | .unbook _ _ _ => some .s
  | .bqry _ _ _ => some .s
  | .spawn _ _ _ => some .s
  | .cancel _ _ _ => some .s
  | .vadd _ _ _ _ _ => some .v
  | .vsub _ _ _ _ _ => some .v
  | .vmul _ _ _ _ _ => some .v
  | .vfma _ _ _ _ _ => some .v
  | .vfms _ _ _ _ _ => some .v
  | .vfnma _ _ _ _ _ => some .v
  | .vmin _ _ _ _ _ => some .v
  | .vmax _ _ _ _ _ => some .v
  | .vabs _ _ _ _ => some .v
  | .vneg _ _ _ _ => some .v
  | .vrcp _ _ _ _ => some .v
  | .vrsq _ _ _ _ => some .v
  | .vsqrt _ _ _ _ => some .v
  | .vexp2 _ _ _ _ => some .v
  | .vlog2 _ _ _ _ => some .v
  | .vtanh _ _ _ _ => some .v
  | .viadd _ _ _ _ _ => some .v
  | .visub _ _ _ _ _ => some .v
  | .vimul _ _ _ _ _ => some .v
  | .vimulh _ _ _ _ _ => some .v
  | .viadds _ _ _ _ _ => some .v
  | .visubs _ _ _ _ _ => some .v
  | .vimin _ _ _ _ _ => some .v
  | .vimax _ _ _ _ _ => some .v
  | .viminn _ _ _ _ _ => some .v
  | .vimaxn _ _ _ _ _ => some .v
  | .vand _ _ _ _ _ => some .v
  | .vor _ _ _ _ _ => some .v
  | .vxor _ _ _ _ _ => some .v
  | .vshl _ _ _ _ _ => some .v
  | .vshr _ _ _ _ _ => some .v
  | .vsra _ _ _ _ _ => some .v
  | .vcmp _ _ _ _ _ _ => some .v
  | .vsel _ _ _ _ _ => some .v
  | .vmand _ _ _ => some .v
  | .vmor _ _ _ => some .v
  | .vmxor _ _ _ => some .v
  | .vmnot _ _ => some .v
  | .vmpop _ _ => some .v
  | .vcvt _ _ _ _ _ => some .v
  | .vqnt _ _ _ _ _ _ => some .v
  | .vdqnt _ _ _ _ _ _ => some .v
  | .vpack _ _ _ _ _ => some .v
  | .vunpk _ _ _ _ => some .v
  | .vmov _ _ _ _ => some .v
  | .vmovi _ _ _ _ => some .v
  | .vperm _ _ _ _ _ => some .v
  | .vshuf _ _ _ _ _ => some .v
  | .vrot _ _ _ _ _ => some .v
  | .vbcst _ _ _ _ => some .v
  | .vidx _ _ _ _ _ => some .v
  | .vins _ _ _ _ _ => some .v
  | .vext _ _ _ _ => some .v
  | .vrsum _ _ _ _ => some .v
  | .vrmax _ _ _ _ => some .v
  | .vrmin _ _ _ _ => some .v
  | .vscan _ _ _ _ => some .v
  | .vsort _ _ _ _ => some .v
  | .vld _ _ _ _ => some .v
  | .vst _ _ _ _ => some .v
  | .vlds _ _ _ _ _ => some .v
  | .vsts _ _ _ _ _ => some .v
  | .vgth _ _ _ _ _ => some .v
  | .vsct _ _ _ _ _ => some .v
  | .vldc _ _ _ _ => some .v
  | .vstc _ _ _ _ => some .v
  | .vcmpr _ _ _ _ => some .v
  | .vcmprFlush _ _ => some .v
  | .vxpnd _ _ _ _ => some .v
  | .vxpndDrop _ _ => some .v
  | .mldb _ _ _ _ _ _ => some .m
  | .mstep _ _ _ _ _ _ _ _ => some .m
  | .mzero _ _ => some .m
  | .mrd _ _ _ _ _ _ _ _ => some .m
  | .mwr _ _ _ _ _ => some .m
  | .mbias _ _ _ _ _ => some .m
  | .xput _ _ _ _ => some .x
  | .xget _ _ _ _ => some .x
  | .xclr _ => some .x
  | .cdset _ _ _ _ => some .c
  | .cget _ _ _ _ _ _ _ _ _ _ _ => some .c
  | .cput _ _ _ _ _ _ _ _ _ _ _ => some .c
  | .cxfer _ _ _ _ _ _ _ _ _ => some .c
  | .cfill _ _ _ _ _ _ _ _ _ _ => some .c
  | .ctouch _ _ _ _ _ _ _ => some .c
  | .cflush _ _ _ _ _ _ _ => some .c
  | .cmap _ _ _ _ _ _ => some .c
  | .cmigr _ _ _ _ _ _ _ _ => some .c
  | .cpfx _ _ _ _ => some .c
  | .aadd _ _ _ _ _ _ _ _ _ => some .c
  | .afadd _ _ _ _ _ _ _ _ _ => some .c
  | .aand _ _ _ _ _ _ _ _ _ => some .c
  | .aor _ _ _ _ _ _ _ _ _ => some .c
  | .axor _ _ _ _ _ _ _ _ _ => some .c
  | .amin _ _ _ _ _ _ _ _ _ => some .c
  | .amax _ _ _ _ _ _ _ _ _ => some .c
  | .aminn _ _ _ _ _ _ _ _ _ => some .c
  | .amaxn _ _ _ _ _ _ _ _ _ => some .c
  | .axchg _ _ _ _ _ _ _ _ _ => some .c
  | .acas _ _ _ _ _ _ _ _ _ => some .c
  | .adecp _ _ _ _ _ _ _ _ _ => some .c
  | .adcas _ _ _ _ _ _ _ _ _ => some .c
  | .amove _ _ _ _ _ _ _ _ _ => some .c
  | .ared _ _ _ _ _ _ _ => some .c
  | .waita _ _ _ _ _ _ _ _ _ => some .c
  | .wake _ _ _ _ _ _ _ _ => some .c
  | .psend _ _ _ _ _ _ _ _ => some .c
  | .precv _ _ _ _ _ _ _ _ => some .c
  | .pclose _ _ _ => some .c
  | .tbar _ _ _ _ _ => some .c
  | .barsig _ _ _ _ => some .c
  | .barset _ _ _ => some .c
  | .ixopen _ _ _ _ _ => some .c
  | .ixlist _ _ _ _ _ _ _ _ => some .c
  | .ixand _ _ _ _ => some .c
  | .ixor _ _ _ _ => some .c
  | .ixscore _ _ _ _ => some .c
  | .ixvec _ _ _ _ _ _ _ => some .c
  | .ixtopk _ _ _ => some .c
  | .ixdrain _ _ _ _ _ _ _ => some .c
  | .ixclose _ _ _ => some .c
  | .waittResume _ => none
  | .ccRequestServe _ => none
  | .bookingLapse _ _ => none
  | .mstepComplete _ => none
  | .resultLand _ => none
  | .cxferTargetSignal _ _ => none
  | .psendStore _ _ => none
  | .precvReceive _ _ => none
  | .ixCommandStart _ _ => none
  | .commandAccept _ _ => none
  | .commandComplete _ _ => none
  | .pageFaultResolved _ _ => none
  | .pageFaultUnresolvable _ _ => none
  | .invtlb _ _ _ _ => none
  | .invtlbComplete _ => none
  | .migrationPage _ => none
  | .calendarTick _ => none
  | .headlandResolve _ => none
  | .graceExpiry _ => none
  | .overrun _ => none
  | .stakePlace _ => none
  | .stakeLapse _ => none
  | .stageTeam _ => none
  | .taskRelease _ => none
  | .teamPlace _ => none
  | .quantumExpiry _ => none
  | .preempt _ => none
  | .drainEnd _ => none
  | .swapOutComplete _ => none
  | .swapInComplete _ => none
  | .instanceComplete _ => none
  | .siblingStop _ _ => none
  | .reservedCycle _ => none
  | .refreshUrgent _ => none
  | .expiryWritebackComplete _ _ _ => none
  | .turnRollback _ _ => none
  | .rollbackRestart _ => none
  | .contextEnd _ _ _ => none
  | .bucketLeak _ => none
  | .launchAdmit _ => none
  | .waitReevaluate _ => none
  | .deferredWritePerform _ => none
  | .queueUnpark _ => none
  | .doorbellNotify _ => none
  | .permitReturn _ _ => none
  | .reductionContribution _ _ _ _ => none
  | .roundTimeout _ _ => none
  | .peerTimeout _ _ => none
  | .weightSetVerified _ => none
  | .cxlLinkTimeout _ _ => none
  | .csrWrite _ _ _ => none
  | .vctlWrite _ _ => none
  | .vseedWrite _ _ => none
  | .bstatWrite _ _ _ => none
  | .moncapWrite _ _ => none
  | .fallowBundle => none
  | .tickBoundary => none
  | .retentionTick => none
  | .shadowLatchReplay _ _ _ _ => none
  | .katRun _ _ => none
  | .globalScrub _ _ => none
  | .nop _ => none
  | .launch _ => none
  | .wait _ => none
  | .signal _ => none
  | .ibCall _ => none
  | .pktFence _ => none
  | .pktBook _ => none
  | .pktCancel _ => none
  | .counter _ => none
  | .timestamp _ => none
  | .queueEnable _ => none
  | .queueDisable _ => none
  | .queueDescriptorWrite _ _ _ => none
  | .kickqWrite _ _ => none
  | .msgPlace _ _ => none
  | .msgBook _ _ => none
  | .msgStage _ _ => none
  | .msgRelease _ _ => none
  | .msgInvtlb _ _ => none
  | .msgRetire _ _ => none
  | .msgQuantum _ _ => none
  | .msgPreempt _ _ => none
  | .msgCancel _ _ => none
  | .msgBooked _ _ => none
  | .msgNofit _ _ => none
  | .msgStaged _ _ => none
  | .msgHalted _ _ => none
  | .msgSwapped _ _ => none
  | .msgSlip _ _ => none
  | .msgEvent _ _ => none
  | .msgComplete _ _ => none
  | .msgFault _ _ => none
  | .ccFailure _ _ => none
  | .moduleStop _ => none
  | .ctxCreate _ => none
  | .ctxDestroy _ => none
  | .mbInvtlb _ => none
  | .migrate _ => none
  | .hashSet _ => none
  | .powerSet _ => none
  | .ckpt _ => none
  | .restore _ => none
  | .keyInstall _ => none
  | .wsetRegister _ => none
  | .attest _ => none
  | .windowOpen _ => none
  | .windowClose _ => none
  | .mbRetire _ => none
  | .eventRead _ => none
  | .hostCxlMemAccess _ _ _ => none
  | .powerGood _ _ _ _ _ => none
  | .moduleReset => none
  | .thermalTrip _ => none
  | .heartbeat => none
  | .phiokReplay _ => none
  | .portRetrain _ _ => none
  | .cxlLinkDown => none
  | .cxlLinkUp => none
  | .ideFailure => none
  | .phiokInboundRequest _ _ _ _ => none
  | .checkpointComplete => none
  | .restoreComplete => none
  | .ideKeyProgramming => none

end Sys2Proof
end

