-- ==== Sys2Proof/Decode.lean ====
section
/-! DEFINITION. The decoder, total on every slot body and on every bundle (R212-R216, R219-R225, R452, R453), and
after it the encoder, written from the same tables. A bundle is a header byte H, then D, then I, then the bodies
(R212); a body is a little-endian number whose opcode stands in its top bits (R219). -/

namespace Sys2Proof

/-- Why a slot body is no operation, in the order of R446: steps 2, 3 and 4. -/
inductive BodyFault where
  /-- A reserved opcode (R452); INFO is the opcode. -/
  | opcode (op : Nat)
  /-- A nonzero reserved field or a reserved value (R453); INFO is the bit. -/
  | field (bit : Nat)
  /-- A reserved specifier, guard or mask (R453); INFO is the lowest bit of the field. -/
  | operand (bit : Nat)
  deriving DecidableEq, Repr

/-- The field of `len` bits at bit `lo` of a body, as a number below `n`. -/
def field (n : Nat) [NeZero n] (w lo : Nat) : Fin n := Fin.ofNat n (w / 2 ^ lo)

/-- The lowest 1 bit within the reserved-zero ranges (place, length) of a body, ranges ascending. -/
def zeroFault (w : Nat) : List (Nat × Nat) → Option Nat
  | [] => none
  | (lo, len) :: rest =>
    if w / 2 ^ lo % 2 ^ len == 0 then zeroFault w rest else some (lo + lowBit (w / 2 ^ lo % 2 ^ len))

/-- The lower of two reported bits. -/
def minFault : Option Nat → Option Nat → Option Nat
  | some a, some b => some (min a b)
  | some a, none => some a
  | none, b => b

/-- A specifier's fixed bits (place, length, value, bit to report): the special forms whose destination or source
is a vector register or a ring only (R270, R281, R290, R291). -/
def wantFault (w : Nat) : List (Nat × Nat × Nat × Nat) → Option Nat
  | [] => none
  | (lo, len, v, bit) :: rest => if w / 2 ^ lo % 2 ^ len == v then wantFault w rest else some bit

/-- Steps 3 and 4 of R446 on a body whose opcode is listed: reserved fields first, then reserved operands. -/
def checked (w : Nat) (zeros : List (Nat × Nat)) (want : List (Nat × Nat × Nat × Nat)) (i : Instr) :
    Except BodyFault Instr :=
  match minFault (zeroFault w zeros) i.fieldFault with
  | some b => .error (.field b)
  | none =>
    match minFault (wantFault w want) i.operandFault with
    | some b => .error (.operand b)
    | none => .ok i

/-- Decode of a body of the S slot (R223). -/
def decodeS (w : Nat) : Except BodyFault Instr :=
  match w / 2 ^ 25 with
  | 0x01 => checked w [(0, 7)] [] (.add (field 64 w 19) (field 64 w 13) (field 64 w 7))
  | 0x02 => checked w [(0, 7)] [] (.sub (field 64 w 19) (field 64 w 13) (field 64 w 7))
  | 0x03 => checked w [(0, 7)] [] (.mul (field 64 w 19) (field 64 w 13) (field 64 w 7))
  | 0x04 => checked w [(0, 7)] [] (.mulh (field 64 w 19) (field 64 w 13) (field 64 w 7))
  | 0x05 => checked w [(0, 7)] [] (.mulhn (field 64 w 19) (field 64 w 13) (field 64 w 7))
  | 0x06 => checked w [(0, 7)] [] (.div (field 64 w 19) (field 64 w 13) (field 64 w 7))
  | 0x07 => checked w [(0, 7)] [] (.divn (field 64 w 19) (field 64 w 13) (field 64 w 7))
  | 0x08 => checked w [(0, 7)] [] (.rem (field 64 w 19) (field 64 w 13) (field 64 w 7))
  | 0x09 => checked w [(0, 7)] [] (.remn (field 64 w 19) (field 64 w 13) (field 64 w 7))
  | 0x0A => checked w [(0, 7)] [] (.and (field 64 w 19) (field 64 w 13) (field 64 w 7))
  | 0x0B => checked w [(0, 7)] [] (.or (field 64 w 19) (field 64 w 13) (field 64 w 7))
  | 0x0C => checked w [(0, 7)] [] (.xor (field 64 w 19) (field 64 w 13) (field 64 w 7))
  | 0x0D => checked w [(0, 7)] [] (.shl (field 64 w 19) (field 64 w 13) (field 64 w 7))
  | 0x0E => checked w [(0, 7)] [] (.shr (field 64 w 19) (field 64 w 13) (field 64 w 7))
  | 0x0F => checked w [(0, 7)] [] (.sra (field 64 w 19) (field 64 w 13) (field 64 w 7))
  | 0x10 => checked w [(0, 7)] [] (.min (field 64 w 19) (field 64 w 13) (field 64 w 7))
  | 0x11 => checked w [(0, 7)] [] (.max (field 64 w 19) (field 64 w 13) (field 64 w 7))
  | 0x12 => checked w [(0, 7)] [] (.minn (field 64 w 19) (field 64 w 13) (field 64 w 7))
  | 0x13 => checked w [(0, 7)] [] (.maxn (field 64 w 19) (field 64 w 13) (field 64 w 7))
  | 0x14 => checked w [(0, 13)] [] (.clz (field 64 w 19) (field 64 w 13))
  | 0x15 => checked w [(0, 13)] [] (.popc (field 64 w 19) (field 64 w 13))
  | 0x16 => checked w [(4, 3)] [] (.sel (field 64 w 19) (field 64 w 13) (field 64 w 7) (field 16 w 0))
  | 0x17 => checked w [(3, 4), (23, 2)] [] (.cmp (field 16 w 19) (field 64 w 13) (field 64 w 7) (field 8 w 0))
  | 0x18 => checked w [(0, 7), (11, 2), (17, 2), (23, 2)] [] (.pand (field 16 w 19) (field 16 w 13) (field 16 w 7))
  | 0x19 => checked w [(0, 7), (11, 2), (17, 2), (23, 2)] [] (.por (field 16 w 19) (field 16 w 13) (field 16 w 7))
  | 0x1A => checked w [(0, 7), (11, 2), (17, 2), (23, 2)] [] (.pxor (field 16 w 19) (field 16 w 13) (field 16 w 7))
  | 0x1B => checked w [(0, 13), (17, 2), (23, 2)] [] (.pnot (field 16 w 19) (field 16 w 13))
  | 0x1C => checked w [(0, 13)] [] (.jr (field 64 w 19) (field 64 w 13))
  | 0x1D => checked w [(0, 13), (19, 6)] [] (.ret (field 64 w 13))
  | 0x20 => checked w [] [] (.addi (field 64 w 19) (field 64 w 13) (field 8192 w 0))
  | 0x21 => checked w [] [] (.andi (field 64 w 19) (field 64 w 13) (field 8192 w 0))
  | 0x22 => checked w [] [] (.ori (field 64 w 19) (field 64 w 13) (field 8192 w 0))
  | 0x23 => checked w [] [] (.xori (field 64 w 19) (field 64 w 13) (field 8192 w 0))
  | 0x24 => checked w [(6, 7)] [] (.shli (field 64 w 19) (field 64 w 13) (field 64 w 0))
  | 0x25 => checked w [(6, 7)] [] (.shri (field 64 w 19) (field 64 w 13) (field 64 w 0))
  | 0x26 => checked w [(6, 7)] [] (.srai (field 64 w 19) (field 64 w 13) (field 64 w 0))
  | 0x27 => checked w [] [] (.cmpi (field 4 w 23) (field 16 w 19) (field 64 w 13) (field 8192 w 0))
  | 0x28 => checked w [] [] (.lih (field 64 w 19) (field 524288 w 0))
  | 0x30 => checked w [(20, 5)] [] (.br (field 1048576 w 0))
  | 0x31 => checked w [] [] (.brc (field 16 w 21) (field 2 w 20) (field 1048576 w 0))
  | 0x32 => checked w [(20, 5)] [] (.call (field 1048576 w 0))
  | 0x38 => checked w [(6, 2)] [] (.loop (field 4 w 23) (field 8 w 20) (field 4096 w 8) (field 64 w 0))
  | 0x39 => checked w [] [] (.loopi (field 4 w 23) (field 8 w 20) (field 4096 w 8) (field 256 w 0))
  | 0x3A => checked w [(0, 23)] [] (.lexit (field 4 w 23))
  | 0x40 => checked w [] [] (.ld (field 64 w 19) (field 64 w 13) (field 4 w 11) (field 2048 w 0))
  | 0x41 => checked w [] [] (.st (field 64 w 19) (field 64 w 13) (field 4 w 11) (field 2048 w 0))
  | 0x42 => checked w [] [] (.ldc (field 64 w 19) (field 64 w 13) (field 4 w 11) (field 2048 w 0))
  | 0x43 => checked w [] [] (.stc (field 64 w 19) (field 64 w 13) (field 4 w 11) (field 2048 w 0))
  | 0x48 => checked w [(0, 1), (13, 6)] [] (.csrr (field 64 w 19) (field 4096 w 1))
  | 0x49 => checked w [] [] (.csrw (field 64 w 19) (field 64 w 13) (field 4096 w 1) (field 2 w 0))
  | 0x4A => checked w [] [] (.csrs (field 64 w 19) (field 64 w 13) (field 4096 w 1) (field 2 w 0))
  | 0x4B => checked w [] [] (.csrc (field 64 w 19) (field 64 w 13) (field 4096 w 1) (field 2 w 0))
  | 0x50 => checked w [(4, 13)] [] (.radv (field 16 w 21) (field 2 w 20) (field 8 w 17) (field 16 w 0))
  | 0x51 => checked w [(0, 12)] [] (.rcfg (field 16 w 21) (field 8 w 18) (field 8 w 15) (field 8 w 12))
  | 0x52 => checked w [(0, 17)] [] (.rfill (field 16 w 21) (field 16 w 17))
  | 0x58 => checked w [(0, 19)] [] (.fence (field 4 w 23) (field 8 w 20) (field 2 w 19))
  | 0x59 => checked w [(0, 21)] [] (.waitb (field 16 w 21))
  | 0x5A => checked w [(0, 13), (19, 6)] [] (.waitt (field 64 w 13))
  | 0x5B => checked w [(19, 6)] [] (.trap (field 524288 w 0))
  | 0x5C => checked w [(19, 6)] [] (.brkpt (field 524288 w 0))
  | 0x5D => checked w [(0, 25)] [] .exit
  | 0x5E => checked w [(0, 7), (19, 6)] [] (.turn (field 64 w 13) (field 64 w 7))
  | 0x5F => checked w [(0, 25)] [] .yield
  | 0x60 => checked w [(0, 7)] [] (.book (field 64 w 19) (field 64 w 13) (field 64 w 7))
  | 0x61 => checked w [(0, 7)] [] (.unbook (field 64 w 19) (field 64 w 13) (field 64 w 7))
  | 0x62 => checked w [(0, 7)] [] (.bqry (field 64 w 19) (field 64 w 13) (field 64 w 7))
  | 0x63 => checked w [(0, 7)] [] (.spawn (field 64 w 19) (field 64 w 13) (field 64 w 7))
  | 0x64 => checked w [(0, 7)] [] (.cancel (field 64 w 19) (field 64 w 13) (field 64 w 7))
  | op => .error (.opcode op)

/-- Decode of a body of the V slots (R224). -/
def decodeV (w : Nat) : Except BodyFault Instr :=
  match w / 2 ^ 25 with
  | 0x01 => checked w [] [] (.vadd (field 64 w 19) (field 64 w 13) (field 64 w 7) (field 8 w 4) (field 16 w 0))
  | 0x02 => checked w [] [] (.vsub (field 64 w 19) (field 64 w 13) (field 64 w 7) (field 8 w 4) (field 16 w 0))
  | 0x03 => checked w [] [] (.vmul (field 64 w 19) (field 64 w 13) (field 64 w 7) (field 8 w 4) (field 16 w 0))
  | 0x04 => checked w [] [(24, 1, 0, 19)] (.vfma (field 32 w 19) (field 64 w 13) (field 64 w 7) (field 8 w 4) (field 16 w 0))
  | 0x05 => checked w [] [(24, 1, 0, 19)] (.vfms (field 32 w 19) (field 64 w 13) (field 64 w 7) (field 8 w 4) (field 16 w 0))
  | 0x06 => checked w [] [(24, 1, 0, 19)] (.vfnma (field 32 w 19) (field 64 w 13) (field 64 w 7) (field 8 w 4) (field 16 w 0))
  | 0x07 => checked w [] [] (.vmin (field 64 w 19) (field 64 w 13) (field 64 w 7) (field 8 w 4) (field 16 w 0))
  | 0x08 => checked w [] [] (.vmax (field 64 w 19) (field 64 w 13) (field 64 w 7) (field 8 w 4) (field 16 w 0))
  | 0x09 => checked w [(7, 6)] [] (.vabs (field 64 w 19) (field 64 w 13) (field 8 w 4) (field 16 w 0))
  | 0x0A => checked w [(7, 6)] [] (.vneg (field 64 w 19) (field 64 w 13) (field 8 w 4) (field 16 w 0))
  | 0x10 => checked w [(7, 6)] [] (.vrcp (field 64 w 19) (field 64 w 13) (field 8 w 4) (field 16 w 0))
  | 0x11 => checked w [(7, 6)] [] (.vrsq (field 64 w 19) (field 64 w 13) (field 8 w 4) (field 16 w 0))
  | 0x12 => checked w [(7, 6)] [] (.vsqrt (field 64 w 19) (field 64 w 13) (field 8 w 4) (field 16 w 0))
  | 0x13 => checked w [(7, 6)] [] (.vexp2 (field 64 w 19) (field 64 w 13) (field 8 w 4) (field 16 w 0))
  | 0x14 => checked w [(7, 6)] [] (.vlog2 (field 64 w 19) (field 64 w 13) (field 8 w 4) (field 16 w 0))
  | 0x15 => checked w [(7, 6)] [] (.vtanh (field 64 w 19) (field 64 w 13) (field 8 w 4) (field 16 w 0))
  | 0x18 => checked w [] [] (.viadd (field 64 w 19) (field 64 w 13) (field 64 w 7) (field 8 w 4) (field 16 w 0))
  | 0x19 => checked w [] [] (.visub (field 64 w 19) (field 64 w 13) (field 64 w 7) (field 8 w 4) (field 16 w 0))
  | 0x1A => checked w [] [] (.vimul (field 64 w 19) (field 64 w 13) (field 64 w 7) (field 8 w 4) (field 16 w 0))
  | 0x1B => checked w [] [] (.vimulh (field 64 w 19) (field 64 w 13) (field 64 w 7) (field 8 w 4) (field 16 w 0))
  | 0x1C => checked w [] [] (.viadds (field 64 w 19) (field 64 w 13) (field 64 w 7) (field 8 w 4) (field 16 w 0))
  | 0x1D => checked w [] [] (.visubs (field 64 w 19) (field 64 w 13) (field 64 w 7) (field 8 w 4) (field 16 w 0))
  | 0x1E => checked w [] [] (.vimin (field 64 w 19) (field 64 w 13) (field 64 w 7) (field 8 w 4) (field 16 w 0))
  | 0x1F => checked w [] [] (.vimax (field 64 w 19) (field 64 w 13) (field 64 w 7) (field 8 w 4) (field 16 w 0))
  | 0x20 => checked w [] [] (.viminn (field 64 w 19) (field 64 w 13) (field 64 w 7) (field 8 w 4) (field 16 w 0))
  | 0x21 => checked w [] [] (.vimaxn (field 64 w 19) (field 64 w 13) (field 64 w 7) (field 8 w 4) (field 16 w 0))
  | 0x22 => checked w [] [] (.vand (field 64 w 19) (field 64 w 13) (field 64 w 7) (field 8 w 4) (field 16 w 0))
  | 0x23 => checked w [] [] (.vor (field 64 w 19) (field 64 w 13) (field 64 w 7) (field 8 w 4) (field 16 w 0))
  | 0x24 => checked w [] [] (.vxor (field 64 w 19) (field 64 w 13) (field 64 w 7) (field 8 w 4) (field 16 w 0))
  | 0x25 => checked w [] [] (.vshl (field 64 w 19) (field 64 w 13) (field 64 w 7) (field 8 w 4) (field 16 w 0))
  | 0x26 => checked w [] [] (.vshr (field 64 w 19) (field 64 w 13) (field 64 w 7) (field 8 w 4) (field 16 w 0))
  | 0x27 => checked w [] [] (.vsra (field 64 w 19) (field 64 w 13) (field 64 w 7) (field 8 w 4) (field 16 w 0))
  | 0x28 => checked w [] [] (.vcmp (field 8 w 22) (field 8 w 19) (field 64 w 13) (field 64 w 7) (field 8 w 4) (field 16 w 0))
  | 0x29 => checked w [] [] (.vsel (field 64 w 19) (field 64 w 13) (field 64 w 7) (field 8 w 4) (field 16 w 0))
  | 0x2A => checked w [(0, 7), (10, 3), (16, 3), (22, 3)] [] (.vmand (field 8 w 19) (field 8 w 13) (field 8 w 7))
  | 0x2B => checked w [(0, 7), (10, 3), (16, 3), (22, 3)] [] (.vmor (field 8 w 19) (field 8 w 13) (field 8 w 7))
  | 0x2C => checked w [(0, 7), (10, 3), (16, 3), (22, 3)] [] (.vmxor (field 8 w 19) (field 8 w 13) (field 8 w 7))
  | 0x2D => checked w [(0, 13), (16, 3), (22, 3)] [] (.vmnot (field 8 w 19) (field 8 w 13))
  | 0x2E => checked w [(0, 13), (16, 3)] [] (.vmpop (field 64 w 19) (field 8 w 13))
  | 0x30 => checked w [(3, 4)] [] (.vcvt (field 64 w 19) (field 64 w 13) (field 8 w 10) (field 8 w 7) (field 8 w 0))
  | 0x31 => checked w [(3, 1)] [] (.vqnt (field 64 w 19) (field 64 w 13) (field 8 w 10) (field 4 w 8) (field 16 w 4) (field 8 w 0))
  | 0x32 => checked w [(3, 1)] [] (.vdqnt (field 64 w 19) (field 64 w 13) (field 8 w 10) (field 4 w 8) (field 16 w 4) (field 8 w 0))
  | 0x33 => checked w [] [] (.vpack (field 64 w 19) (field 64 w 13) (field 64 w 7) (field 8 w 4) (field 16 w 0))
  | 0x34 => checked w [(7, 6)] [] (.vunpk (field 64 w 19) (field 64 w 13) (field 8 w 4) (field 16 w 0))
  | 0x38 => checked w [(7, 6)] [] (.vmov (field 64 w 19) (field 64 w 13) (field 8 w 4) (field 16 w 0))
  | 0x39 => checked w [(13, 6)] [] (.vmovi (field 64 w 19) (field 8 w 10) (field 128 w 3) (field 8 w 0))
  | 0x3A => checked w [] [] (.vperm (field 64 w 19) (field 64 w 13) (field 64 w 7) (field 8 w 4) (field 16 w 0))
  | 0x3B => checked w [] [] (.vshuf (field 64 w 19) (field 64 w 13) (field 8 w 10) (field 128 w 3) (field 8 w 0))
  | 0x3C => checked w [] [] (.vrot (field 64 w 19) (field 64 w 13) (field 8 w 10) (field 128 w 3) (field 8 w 0))
  | 0x3D => checked w [(7, 6)] [] (.vbcst (field 64 w 19) (field 64 w 13) (field 8 w 4) (field 16 w 0))
  | 0x3E => checked w [] [] (.vidx (field 64 w 19) (field 64 w 13) (field 64 w 7) (field 8 w 4) (field 16 w 0))
  | 0x3F => checked w [] [(24, 1, 0, 19)] (.vins (field 32 w 19) (field 64 w 13) (field 64 w 7) (field 8 w 4) (field 16 w 0))
  | 0x40 => checked w [(0, 4)] [] (.vext (field 64 w 19) (field 64 w 13) (field 64 w 7) (field 8 w 4))
  | 0x48 => checked w [(7, 6)] [] (.vrsum (field 64 w 19) (field 64 w 13) (field 8 w 4) (field 16 w 0))
  | 0x49 => checked w [(7, 6)] [] (.vrmax (field 64 w 19) (field 64 w 13) (field 8 w 4) (field 16 w 0))
  | 0x4A => checked w [(7, 6)] [] (.vrmin (field 64 w 19) (field 64 w 13) (field 8 w 4) (field 16 w 0))
  | 0x4B => checked w [(7, 6)] [] (.vscan (field 64 w 19) (field 64 w 13) (field 8 w 4) (field 16 w 0))
  | 0x4C => checked w [(7, 6)] [] (.vsort (field 64 w 19) (field 64 w 13) (field 8 w 4) (field 16 w 0))
  | 0x50 => checked w [] [] (.vld (field 64 w 19) (field 64 w 13) (field 512 w 4) (field 16 w 0))
  | 0x51 => checked w [] [] (.vst (field 64 w 19) (field 64 w 13) (field 512 w 4) (field 16 w 0))
  | 0x52 => checked w [] [] (.vlds (field 64 w 19) (field 64 w 13) (field 64 w 7) (field 8 w 4) (field 16 w 0))
  | 0x53 => checked w [] [] (.vsts (field 64 w 19) (field 64 w 13) (field 64 w 7) (field 8 w 4) (field 16 w 0))
  | 0x54 => checked w [] [] (.vgth (field 64 w 19) (field 64 w 13) (field 64 w 7) (field 8 w 4) (field 16 w 0))
  | 0x55 => checked w [] [] (.vsct (field 64 w 19) (field 64 w 13) (field 64 w 7) (field 8 w 4) (field 16 w 0))
  | 0x56 => checked w [] [] (.vldc (field 64 w 19) (field 64 w 13) (field 512 w 4) (field 16 w 0))
  | 0x57 => checked w [] [] (.vstc (field 64 w 19) (field 64 w 13) (field 512 w 4) (field 16 w 0))
  | 0x58 =>
    if w / 2 ^ 13 % 64 == 48 then checked w [(0, 4), (7, 6)] [(23, 2, 2, 19)] (.vcmprFlush (field 16 w 19) (field 8 w 4))
    else checked w [(7, 6)] [(23, 2, 2, 19)] (.vcmpr (field 16 w 19) (field 64 w 13) (field 8 w 4) (field 16 w 0))
  | 0x59 =>
    if w / 2 ^ 19 % 64 == 48 then checked w [(0, 4), (7, 6)] [(17, 2, 2, 13)] (.vxpndDrop (field 16 w 13) (field 8 w 4))
    else checked w [(7, 6)] [(24, 1, 0, 19), (17, 2, 2, 13)] (.vxpnd (field 32 w 19) (field 16 w 13) (field 8 w 4) (field 16 w 0))
  | op => .error (.opcode op)

/-- Decode of a body of the X slot (R225). -/
def decodeX (w : Nat) : Except BodyFault Instr :=
  match w / 2 ^ 28 with
  | 0x01 => checked w [(4, 8)] [] (.xput (field 64 w 22) (field 128 w 15) (field 8 w 12) (field 16 w 0))
  | 0x02 => checked w [(4, 8)] [] (.xget (field 64 w 22) (field 128 w 15) (field 8 w 12) (field 16 w 0))
  | 0x03 => checked w [(4, 24)] [] (.xclr (field 16 w 0))
  | op => .error (.opcode op)

/-- Decode of a body of the M slot (R225). -/
def decodeM (w : Nat) : Except BodyFault Instr :=
  match w / 2 ^ 58 with
  | 0x01 => checked w [(0, 32), (55, 3)] [] (.mldb (field 16 w 51) (field 8 w 48) (field 16 w 44) (field 16 w 40) (field 16 w 36) (field 16 w 32))
  | 0x02 => checked w [(1, 31)] [] (.mstep (field 8 w 55) (field 16 w 51) (field 8 w 48) (field 16 w 44) (field 16 w 40) (field 16 w 36) (field 16 w 32) (field 2 w 0))
  | 0x03 => checked w [(0, 32), (36, 19)] [] (.mzero (field 8 w 55) (field 16 w 32))
  | 0x04 => checked w [(0, 23), (36, 4)] [] (.mrd (field 8 w 55) (field 16 w 51) (field 8 w 48) (field 16 w 44) (field 16 w 40) (field 16 w 32) (field 8 w 29) (field 64 w 23))
  | 0x05 => checked w [(0, 29), (36, 4), (44, 7)] [] (.mwr (field 8 w 55) (field 16 w 51) (field 16 w 40) (field 16 w 32) (field 8 w 29))
  | 0x06 => checked w [(0, 29), (36, 4), (44, 7)] [] (.mbias (field 8 w 55) (field 16 w 51) (field 16 w 40) (field 16 w 32) (field 8 w 29))
  | op => .error (.opcode op)

/-- Decode of a body of the C slots (R225). -/
def decodeC (w : Nat) : Except BodyFault Instr :=
  match w / 2 ^ 57 with
  | 0x01 => checked w [(0, 15), (18, 12), (36, 4), (44, 9)] [] (.cdset (field 16 w 53) (field 16 w 40) (field 64 w 30) (field 8 w 15))
  | 0x02 => checked w [] [] (.cget (field 16 w 53) (field 16 w 49) (field 4 w 47) (field 8 w 44) (field 16 w 40) (field 16 w 36) (field 64 w 30) (field 64 w 24) (field 64 w 18) (field 8 w 15) (field 32768 w 0))
  | 0x03 => checked w [] [] (.cput (field 16 w 53) (field 16 w 49) (field 4 w 47) (field 8 w 44) (field 16 w 40) (field 16 w 36) (field 64 w 30) (field 64 w 24) (field 64 w 18) (field 8 w 15) (field 32768 w 0))
  | 0x04 => checked w [(15, 3), (36, 4)] [] (.cxfer (field 16 w 53) (field 16 w 49) (field 4 w 47) (field 8 w 44) (field 16 w 40) (field 64 w 30) (field 64 w 24) (field 64 w 18) (field 32768 w 0))
  | 0x05 => checked w [(16, 2), (36, 4)] [] (.cfill (field 16 w 53) (field 16 w 49) (field 4 w 47) (field 8 w 44) (field 16 w 40) (field 64 w 30) (field 64 w 24) (field 64 w 18) (field 2 w 15) (field 32768 w 0))
  | 0x06 => checked w [(15, 9), (36, 8)] [] (.ctouch (field 16 w 53) (field 16 w 49) (field 4 w 47) (field 8 w 44) (field 64 w 30) (field 64 w 24) (field 32768 w 0))
  | 0x07 => checked w [(15, 9), (36, 8)] [] (.cflush (field 16 w 53) (field 16 w 49) (field 4 w 47) (field 8 w 44) (field 64 w 30) (field 64 w 24) (field 32768 w 0))
  | 0x08 => checked w [(4, 26), (36, 8)] [] (.cmap (field 16 w 53) (field 16 w 49) (field 4 w 47) (field 8 w 44) (field 64 w 30) (field 16 w 0))
  | 0x09 => checked w [(0, 15), (36, 8)] [] (.cmigr (field 16 w 53) (field 16 w 49) (field 4 w 47) (field 8 w 44) (field 64 w 30) (field 64 w 24) (field 64 w 18) (field 8 w 15))
  | 0x0A => checked w [(0, 24), (36, 13)] [] (.cpfx (field 16 w 53) (field 16 w 49) (field 64 w 30) (field 64 w 24))
  | 0x10 => checked w [(36, 8)] [] (.aadd (field 16 w 53) (field 16 w 49) (field 4 w 47) (field 8 w 44) (field 64 w 30) (field 64 w 24) (field 64 w 18) (field 8 w 15) (field 32768 w 0))
  | 0x11 => checked w [(36, 8)] [] (.afadd (field 16 w 53) (field 16 w 49) (field 4 w 47) (field 8 w 44) (field 64 w 30) (field 64 w 24) (field 64 w 18) (field 8 w 15) (field 32768 w 0))
  | 0x12 => checked w [(36, 8)] [] (.aand (field 16 w 53) (field 16 w 49) (field 4 w 47) (field 8 w 44) (field 64 w 30) (field 64 w 24) (field 64 w 18) (field 8 w 15) (field 32768 w 0))
  | 0x13 => checked w [(36, 8)] [] (.aor (field 16 w 53) (field 16 w 49) (field 4 w 47) (field 8 w 44) (field 64 w 30) (field 64 w 24) (field 64 w 18) (field 8 w 15) (field 32768 w 0))
  | 0x14 => checked w [(36, 8)] [] (.axor (field 16 w 53) (field 16 w 49) (field 4 w 47) (field 8 w 44) (field 64 w 30) (field 64 w 24) (field 64 w 18) (field 8 w 15) (field 32768 w 0))
  | 0x15 => checked w [(36, 8)] [] (.amin (field 16 w 53) (field 16 w 49) (field 4 w 47) (field 8 w 44) (field 64 w 30) (field 64 w 24) (field 64 w 18) (field 8 w 15) (field 32768 w 0))
  | 0x16 => checked w [(36, 8)] [] (.amax (field 16 w 53) (field 16 w 49) (field 4 w 47) (field 8 w 44) (field 64 w 30) (field 64 w 24) (field 64 w 18) (field 8 w 15) (field 32768 w 0))
  | 0x17 => checked w [(36, 8)] [] (.aminn (field 16 w 53) (field 16 w 49) (field 4 w 47) (field 8 w 44) (field 64 w 30) (field 64 w 24) (field 64 w 18) (field 8 w 15) (field 32768 w 0))
  | 0x18 => checked w [(36, 8)] [] (.amaxn (field 16 w 53) (field 16 w 49) (field 4 w 47) (field 8 w 44) (field 64 w 30) (field 64 w 24) (field 64 w 18) (field 8 w 15) (field 32768 w 0))
  | 0x19 => checked w [(36, 8)] [] (.axchg (field 16 w 53) (field 16 w 49) (field 4 w 47) (field 8 w 44) (field 64 w 30) (field 64 w 24) (field 64 w 18) (field 8 w 15) (field 32768 w 0))
  | 0x1A => checked w [(36, 8)] [] (.acas (field 16 w 53) (field 16 w 49) (field 4 w 47) (field 8 w 44) (field 64 w 30) (field 64 w 24) (field 64 w 18) (field 8 w 15) (field 32768 w 0))
  | 0x1B => checked w [(36, 8)] [] (.adecp (field 16 w 53) (field 16 w 49) (field 4 w 47) (field 8 w 44) (field 64 w 30) (field 64 w 24) (field 64 w 18) (field 8 w 15) (field 32768 w 0))
  | 0x1C => checked w [(36, 8)] [] (.adcas (field 16 w 53) (field 16 w 49) (field 4 w 47) (field 8 w 44) (field 64 w 30) (field 64 w 24) (field 64 w 18) (field 8 w 15) (field 32768 w 0))
  | 0x1D => checked w [(36, 8)] [] (.amove (field 16 w 53) (field 16 w 49) (field 4 w 47) (field 8 w 44) (field 64 w 30) (field 64 w 24) (field 64 w 18) (field 8 w 15) (field 32768 w 0))
  | 0x1E => checked w [(0, 15), (18, 6), (36, 8)] [] (.ared (field 16 w 53) (field 16 w 49) (field 4 w 47) (field 8 w 44) (field 64 w 30) (field 64 w 24) (field 8 w 15))
  | 0x20 => checked w [(36, 8)] [] (.waita (field 16 w 53) (field 16 w 49) (field 4 w 47) (field 8 w 44) (field 64 w 30) (field 64 w 24) (field 64 w 18) (field 8 w 15) (field 32768 w 0))
  | 0x21 => checked w [(15, 3), (36, 8)] [] (.wake (field 16 w 53) (field 16 w 49) (field 4 w 47) (field 8 w 44) (field 64 w 30) (field 64 w 24) (field 64 w 18) (field 32768 w 0))
  | 0x28 => checked w [(15, 9), (36, 4)] [] (.psend (field 16 w 53) (field 16 w 49) (field 4 w 47) (field 8 w 44) (field 16 w 40) (field 64 w 30) (field 64 w 24) (field 32768 w 0))
  | 0x29 => checked w [(15, 3), (24, 6), (36, 4)] [] (.precv (field 16 w 53) (field 16 w 49) (field 4 w 47) (field 8 w 44) (field 16 w 40) (field 64 w 30) (field 64 w 18) (field 32768 w 0))
  | 0x2A => checked w [(0, 40), (44, 5)] [] (.pclose (field 16 w 53) (field 16 w 49) (field 16 w 40))
  | 0x2B => checked w [(0, 40)] [] (.tbar (field 16 w 53) (field 16 w 49) (field 4 w 47) (field 8 w 44) (field 16 w 40))
  | 0x2C => checked w [(0, 40), (49, 4)] [] (.barsig (field 16 w 53) (field 4 w 47) (field 8 w 44) (field 16 w 40))
  | 0x2D => checked w [(0, 24), (30, 19)] [] (.barset (field 16 w 53) (field 16 w 49) (field 64 w 24))
  | 0x30 => checked w [(0, 24), (36, 4), (44, 5)] [] (.ixopen (field 16 w 53) (field 16 w 49) (field 16 w 40) (field 64 w 30) (field 64 w 24))
  | 0x31 => checked w [(5, 19), (36, 4)] [] (.ixlist (field 16 w 53) (field 16 w 49) (field 4 w 47) (field 8 w 44) (field 16 w 40) (field 64 w 30) (field 64 w 24) (field 32 w 0))
  | 0x32 => checked w [(0, 30), (36, 4), (44, 5)] [] (.ixand (field 16 w 53) (field 16 w 49) (field 16 w 40) (field 64 w 30))
  | 0x33 => checked w [(0, 30), (36, 4), (44, 5)] [] (.ixor (field 16 w 53) (field 16 w 49) (field 16 w 40) (field 64 w 30))
  | 0x34 => checked w [(0, 30), (36, 4), (44, 5)] [] (.ixscore (field 16 w 53) (field 16 w 49) (field 16 w 40) (field 64 w 30))
  | 0x35 => checked w [(0, 24), (36, 4)] [] (.ixvec (field 16 w 53) (field 16 w 49) (field 4 w 47) (field 8 w 44) (field 16 w 40) (field 64 w 30) (field 64 w 24))
  | 0x36 => checked w [(0, 40), (44, 5)] [] (.ixtopk (field 16 w 53) (field 16 w 49) (field 16 w 40))
  | 0x37 => checked w [(0, 18), (24, 6), (36, 4)] [] (.ixdrain (field 16 w 53) (field 16 w 49) (field 4 w 47) (field 8 w 44) (field 16 w 40) (field 64 w 30) (field 64 w 18))
  | 0x38 => checked w [(0, 40), (44, 5)] [] (.ixclose (field 16 w 53) (field 16 w 49) (field 16 w 40))
  | op => .error (.opcode op)

/-- Decode of a slot body by the slot that holds it (R212, R219). -/
def decodeBody : Slot → Nat → Except BodyFault Instr
  | .s, w => decodeS w
  | .v0, w => decodeV w
  | .v1, w => decodeV w
  | .m, w => decodeM w
  | .x, w => decodeX w
  | .c0, w => decodeC w
  | .c1, w => decodeC w

/-- The seven slots in the order in which their bodies appear (R212). -/
def Slot.all : List Slot := [.s, .v0, .v1, .m, .x, .c0, .c1]

/-- The bit of H and of D that stands for a slot (R212), and the SLOT code of a trap record (R445). -/
def Slot.index : Slot → Nat
  | .s => 0 | .v0 => 1 | .v1 => 2 | .m => 3 | .x => 4 | .c0 => 5 | .c1 => 6

/-- Bytes of a slot body (R212). -/
def Slot.width : Slot → Nat
  | .s => 4 | .v0 => 4 | .v1 => 4 | .m => 8 | .x => 4 | .c0 => 8 | .c1 => 8

/-- Little-endian number in the first `n` bytes of a list (R7); missing bytes read as 0. -/
def leNat : Nat → List (BitVec 8) → Nat
  | 0, _ => 0
  | _ + 1, [] => 0
  | n + 1, b :: bs => b.toNat + 256 * leNat n bs

/-- The low `n` bytes of a number, lowest first (R7). -/
def leBytes : Nat → Nat → List (BitVec 8)
  | 0, _ => []
  | n + 1, w => BitVec.ofNat 8 w :: leBytes n (w / 256)

/-- Bit `k` of a number. -/
def bitOf (w k : Nat) : Bool := w / 2 ^ k % 2 == 1

/-- The address field of a body, as place and width, or `none` for a body that has none (R216). -/
def addressField (k : Slot) (w : Nat) : Option (Nat × Nat) :=
  match k with
  | .s => if w / 2 ^ 25 / 4 == 0x10 then some (0, 11) else none
  | .v0 | .v1 =>
    let op := w / 2 ^ 25
    if op == 0x50 || op == 0x51 || op == 0x56 || op == 0x57 then some (4, 9) else none
  | .m => if 1 ≤ w / 2 ^ 58 && w / 2 ^ 58 ≤ 6 then some (40, 4) else none
  | .x => if w / 2 ^ 28 == 1 || w / 2 ^ 28 == 2 then some (15, 7) else none
  | .c0 | .c1 =>
    match decodeC w with
    | .error (.opcode _) => none
    | _ => some (0, 15)

/-- The signed value of a 16-bit increment (R212). -/
def incOf (w : Nat) : Int := if w < 2 ^ 15 then w else (w : Int) - 2 ^ 16

/-- The effective body of a repeating slot: the increment added to the address field, modulo its width (R215). -/
def addIncrement (k : Slot) (w : Nat) (inc : Int) : Nat :=
  match addressField k w with
  | none => w
  | some (lo, len) =>
    let old := w / 2 ^ lo % 2 ^ len
    let new := (((old : Int) + inc) % (2 ^ len : Int)).toNat
    w - old * 2 ^ lo + new * 2 ^ lo

/-- One present slot of a bundle: its slot, whether it repeats, and its effective body, or `none` for a repeat whose
latch is empty (R215). -/
structure SlotBody where
  slot : Slot
  rep : Bool
  body : Option Nat
  deriving DecidableEq, Repr

/-- A parsed bundle (R212). -/
structure Bundle where
  h : Nat
  d : Nat
  /-- The increment I, when the bundle carries one. -/
  inc : Option Nat
  slots : List SlotBody
  /-- Length in bytes. -/
  len : Nat
  deriving DecidableEq, Repr

/-- What the sequencer finds at an address (R213, R214). -/
inductive Fetched where
  /-- A header 0x00: fetch goes on at the next line. -/
  | padding
  /-- A malformed bundle, with its reason (R450): 1 repeat bit without slot, 2 I without repeat, 3 past line end. -/
  | malformed (reason h d i : Nat)
  | bundle (b : Bundle)
  deriving DecidableEq, Repr

/-- The bodies of the present slots, in order, from the bytes after H, D and I (pseudocode of R216). Returns the
slots and the number of body bytes. -/
def takeSlots (h d : Nat) (inc : Int) (latch : Slot → Option Nat) : List Slot → List (BitVec 8) → List SlotBody × Nat
  | [], _ => ([], 0)
  | k :: ks, bytes =>
    if bitOf h k.index then
      if bitOf d k.index then
        let r := takeSlots h d inc latch ks bytes
        (⟨k, true, (latch k).map (fun w => addIncrement k w inc)⟩ :: r.1, r.2)
      else
        let r := takeSlots h d inc latch ks (bytes.drop k.width)
        (⟨k, false, some (leNat k.width bytes)⟩ :: r.1, r.2 + k.width)
    else takeSlots h d inc latch ks bytes

/-- Parse the bundle whose header is the first byte of `bytes`, at byte `pc` of the code (R212-R214, R216).
`bytes` are the bytes from `pc` on; only those of the bundle's line are used. -/
def parseBundle (pc : Nat) (latch : Slot → Option Nat) (bytes : List (BitVec 8)) : Fetched :=
  let h := leNat 1 bytes
  if h == 0 then .padding else
  let hasD := bitOf h 7
  let d := if hasD then leNat 1 (bytes.drop 1) else 0
  let hasI := bitOf d 7
  let i := if hasI then leNat 2 (bytes.drop 2) else 0
  let n := if hasI then 4 else if hasD then 2 else 1
  let (slots, m) := takeSlots h d (if hasI then incOf i else 0) latch Slot.all (bytes.drop n)
  if Slot.all.any (fun k => bitOf d k.index && !bitOf h k.index) then .malformed 1 h d i
  else if hasI && d % 128 == 0 then .malformed 2 h d i
  else if pc % 64 + n + m > 64 then .malformed 3 h d i
  else .bundle ⟨h, d, if hasI then some i else none, slots, n + m⟩

/-- Decode of one instruction from bytes that start at a line: a fallow bundle, or a bundle that holds one slot
operation written in full. Answers the instruction and the bytes after it; any other bundle is refused by `none`. -/
def decode (bytes : List (BitVec 8)) : Option (Instr × List (BitVec 8)) :=
  match parseBundle 0 (fun _ => none) bytes with
  | .bundle ⟨_, _, _, [], n⟩ => some (.fallowBundle, bytes.drop n)
  | .bundle ⟨_, _, _, [⟨k, _, some w⟩], n⟩ =>
    match decodeBody k w with
    | .ok i => some (i, bytes.drop n)
    | .error _ => none
  | _ => none

/-! ### The encoder -/

/-- A body from its fields: pairs of a value and the place of its lowest bit. -/
def pack : List (Nat × Nat) → Nat
  | [] => 0
  | (v, k) :: rest => v * 2 ^ k + pack rest

/-- The body of an operation of the S slot (R223) as a number (R219); `none` for any other instruction. -/
def encodeS : Instr → Option Nat
  | .add d a b => some (pack [(0x01, 25), (d.val, 19), (a.val, 13), (b.val, 7)])
  | .sub d a b => some (pack [(0x02, 25), (d.val, 19), (a.val, 13), (b.val, 7)])
  | .mul d a b => some (pack [(0x03, 25), (d.val, 19), (a.val, 13), (b.val, 7)])
  | .mulh d a b => some (pack [(0x04, 25), (d.val, 19), (a.val, 13), (b.val, 7)])
  | .mulhn d a b => some (pack [(0x05, 25), (d.val, 19), (a.val, 13), (b.val, 7)])
  | .div d a b => some (pack [(0x06, 25), (d.val, 19), (a.val, 13), (b.val, 7)])
  | .divn d a b => some (pack [(0x07, 25), (d.val, 19), (a.val, 13), (b.val, 7)])
  | .rem d a b => some (pack [(0x08, 25), (d.val, 19), (a.val, 13), (b.val, 7)])
  | .remn d a b => some (pack [(0x09, 25), (d.val, 19), (a.val, 13), (b.val, 7)])
  | .and d a b => some (pack [(0x0A, 25), (d.val, 19), (a.val, 13), (b.val, 7)])
  | .or d a b => some (pack [(0x0B, 25), (d.val, 19), (a.val, 13), (b.val, 7)])
  | .xor d a b => some (pack [(0x0C, 25), (d.val, 19), (a.val, 13), (b.val, 7)])
  | .shl d a b => some (pack [(0x0D, 25), (d.val, 19), (a.val, 13), (b.val, 7)])
  | .shr d a b => some (pack [(0x0E, 25), (d.val, 19), (a.val, 13), (b.val, 7)])
  | .sra d a b => some (pack [(0x0F, 25), (d.val, 19), (a.val, 13), (b.val, 7)])
  | .min d a b => some (pack [(0x10, 25), (d.val, 19), (a.val, 13), (b.val, 7)])
  | .max d a b => some (pack [(0x11, 25), (d.val, 19), (a.val, 13), (b.val, 7)])
  | .minn d a b => some (pack [(0x12, 25), (d.val, 19), (a.val, 13), (b.val, 7)])
  | .maxn d a b => some (pack [(0x13, 25), (d.val, 19), (a.val, 13), (b.val, 7)])
  | .clz d a => some (pack [(0x14, 25), (d.val, 19), (a.val, 13)])
  | .popc d a => some (pack [(0x15, 25), (d.val, 19), (a.val, 13)])
  | .sel d a b p => some (pack [(0x16, 25), (d.val, 19), (a.val, 13), (b.val, 7), (p.val, 0)])
  | .cmp p a b c => some (pack [(0x17, 25), (p.val, 19), (a.val, 13), (b.val, 7), (c.val, 0)])
  | .pand d a b => some (pack [(0x18, 25), (d.val, 19), (a.val, 13), (b.val, 7)])
  | .por d a b => some (pack [(0x19, 25), (d.val, 19), (a.val, 13), (b.val, 7)])
  | .pxor d a b => some (pack [(0x1A, 25), (d.val, 19), (a.val, 13), (b.val, 7)])
  | .pnot d a => some (pack [(0x1B, 25), (d.val, 19), (a.val, 13)])
  | .jr d a => some (pack [(0x1C, 25), (d.val, 19), (a.val, 13)])
  | .ret a => some (pack [(0x1D, 25), (a.val, 13)])
  | .addi d a i => some (pack [(0x20, 25), (d.val, 19), (a.val, 13), (i.val, 0)])
  | .andi d a i => some (pack [(0x21, 25), (d.val, 19), (a.val, 13), (i.val, 0)])
  | .ori d a i => some (pack [(0x22, 25), (d.val, 19), (a.val, 13), (i.val, 0)])
  | .xori d a i => some (pack [(0x23, 25), (d.val, 19), (a.val, 13), (i.val, 0)])
  | .shli d a i => some (pack [(0x24, 25), (d.val, 19), (a.val, 13), (i.val, 0)])
  | .shri d a i => some (pack [(0x25, 25), (d.val, 19), (a.val, 13), (i.val, 0)])
  | .srai d a i => some (pack [(0x26, 25), (d.val, 19), (a.val, 13), (i.val, 0)])
  | .cmpi c p a i => some (pack [(0x27, 25), (c.val, 23), (p.val, 19), (a.val, 13), (i.val, 0)])
  | .lih d i => some (pack [(0x28, 25), (d.val, 19), (i.val, 0)])
  | .br o => some (pack [(0x30, 25), (o.val, 0)])
  | .brc p n o => some (pack [(0x31, 25), (p.val, 21), (n.val, 20), (o.val, 0)])
  | .call o => some (pack [(0x32, 25), (o.val, 0)])
  | .loop l s b c => some (pack [(0x38, 25), (l.val, 23), (s.val, 20), (b.val, 8), (c.val, 0)])
  | .loopi l s b c => some (pack [(0x39, 25), (l.val, 23), (s.val, 20), (b.val, 8), (c.val, 0)])
  | .lexit l => some (pack [(0x3A, 25), (l.val, 23)])
  | .ld d a z o => some (pack [(0x40, 25), (d.val, 19), (a.val, 13), (z.val, 11), (o.val, 0)])
  | .st d a z o => some (pack [(0x41, 25), (d.val, 19), (a.val, 13), (z.val, 11), (o.val, 0)])
  | .ldc d a z o => some (pack [(0x42, 25), (d.val, 19), (a.val, 13), (z.val, 11), (o.val, 0)])
  | .stc d a z o => some (pack [(0x43, 25), (d.val, 19), (a.val, 13), (z.val, 11), (o.val, 0)])
  | .csrr d c => some (pack [(0x48, 25), (d.val, 19), (c.val, 1)])
  | .csrw d a c x => some (pack [(0x49, 25), (d.val, 19), (a.val, 13), (c.val, 1), (x.val, 0)])
  | .csrs d a c x => some (pack [(0x4A, 25), (d.val, 19), (a.val, 13), (c.val, 1), (x.val, 0)])
  | .csrc d a c x => some (pack [(0x4B, 25), (d.val, 19), (a.val, 13), (c.val, 1), (x.val, 0)])
  | .radv q w n g => some (pack [(0x50, 25), (q.val, 21), (w.val, 20), (n.val, 17), (g.val, 0)])
  | .rcfg q d r w => some (pack [(0x51, 25), (q.val, 21), (d.val, 18), (r.val, 15), (w.val, 12)])
  | .rfill q n => some (pack [(0x52, 25), (q.val, 21), (n.val, 17)])
  | .fence m s k => some (pack [(0x58, 25), (m.val, 23), (s.val, 20), (k.val, 19)])
  | .waitb b => some (pack [(0x59, 25), (b.val, 21)])
  | .waitt a => some (pack [(0x5A, 25), (a.val, 13)])
  | .trap i => some (pack [(0x5B, 25), (i.val, 0)])
  | .brkpt i => some (pack [(0x5C, 25), (i.val, 0)])
  | .exit => some (pack [(0x5D, 25)])
  | .turn a b => some (pack [(0x5E, 25), (a.val, 13), (b.val, 7)])
  | .yield => some (pack [(0x5F, 25)])
  | .book d a b => some (pack [(0x60, 25), (d.val, 19), (a.val, 13), (b.val, 7)])
  | .unbook d a b => some (pack [(0x61, 25), (d.val, 19), (a.val, 13), (b.val, 7)])
  | .bqry d a b => some (pack [(0x62, 25), (d.val, 19), (a.val, 13), (b.val, 7)])
  | .spawn d a b => some (pack [(0x63, 25), (d.val, 19), (a.val, 13), (b.val, 7)])
  | .cancel d a b => some (pack [(0x64, 25), (d.val, 19), (a.val, 13), (b.val, 7)])
  | _ => none

/-- The body of an operation of the V slots (R224) as a number (R219); `none` for any other instruction. -/
def encodeV : Instr → Option Nat
  | .vadd d a b f g => some (pack [(0x01, 25), (d.val, 19), (a.val, 13), (b.val, 7), (f.val, 4), (g.val, 0)])
  | .vsub d a b f g => some (pack [(0x02, 25), (d.val, 19), (a.val, 13), (b.val, 7), (f.val, 4), (g.val, 0)])
  | .vmul d a b f g => some (pack [(0x03, 25), (d.val, 19), (a.val, 13), (b.val, 7), (f.val, 4), (g.val, 0)])
  | .vfma d a b f g => some (pack [(0x04, 25), (d.val, 19), (a.val, 13), (b.val, 7), (f.val, 4), (g.val, 0)])
  | .vfms d a b f g => some (pack [(0x05, 25), (d.val, 19), (a.val, 13), (b.val, 7), (f.val, 4), (g.val, 0)])
  | .vfnma d a b f g => some (pack [(0x06, 25), (d.val, 19), (a.val, 13), (b.val, 7), (f.val, 4), (g.val, 0)])
  | .vmin d a b f g => some (pack [(0x07, 25), (d.val, 19), (a.val, 13), (b.val, 7), (f.val, 4), (g.val, 0)])
  | .vmax d a b f g => some (pack [(0x08, 25), (d.val, 19), (a.val, 13), (b.val, 7), (f.val, 4), (g.val, 0)])
  | .vabs d a f g => some (pack [(0x09, 25), (d.val, 19), (a.val, 13), (f.val, 4), (g.val, 0)])
  | .vneg d a f g => some (pack [(0x0A, 25), (d.val, 19), (a.val, 13), (f.val, 4), (g.val, 0)])
  | .vrcp d a f g => some (pack [(0x10, 25), (d.val, 19), (a.val, 13), (f.val, 4), (g.val, 0)])
  | .vrsq d a f g => some (pack [(0x11, 25), (d.val, 19), (a.val, 13), (f.val, 4), (g.val, 0)])
  | .vsqrt d a f g => some (pack [(0x12, 25), (d.val, 19), (a.val, 13), (f.val, 4), (g.val, 0)])
  | .vexp2 d a f g => some (pack [(0x13, 25), (d.val, 19), (a.val, 13), (f.val, 4), (g.val, 0)])
  | .vlog2 d a f g => some (pack [(0x14, 25), (d.val, 19), (a.val, 13), (f.val, 4), (g.val, 0)])
  | .vtanh d a f g => some (pack [(0x15, 25), (d.val, 19), (a.val, 13), (f.val, 4), (g.val, 0)])
  | .viadd d a b f g => some (pack [(0x18, 25), (d.val, 19), (a.val, 13), (b.val, 7), (f.val, 4), (g.val, 0)])
  | .visub d a b f g => some (pack [(0x19, 25), (d.val, 19), (a.val, 13), (b.val, 7), (f.val, 4), (g.val, 0)])
  | .vimul d a b f g => some (pack [(0x1A, 25), (d.val, 19), (a.val, 13), (b.val, 7), (f.val, 4), (g.val, 0)])
  | .vimulh d a b f g => some (pack [(0x1B, 25), (d.val, 19), (a.val, 13), (b.val, 7), (f.val, 4), (g.val, 0)])
  | .viadds d a b f g => some (pack [(0x1C, 25), (d.val, 19), (a.val, 13), (b.val, 7), (f.val, 4), (g.val, 0)])
  | .visubs d a b f g => some (pack [(0x1D, 25), (d.val, 19), (a.val, 13), (b.val, 7), (f.val, 4), (g.val, 0)])
  | .vimin d a b f g => some (pack [(0x1E, 25), (d.val, 19), (a.val, 13), (b.val, 7), (f.val, 4), (g.val, 0)])
  | .vimax d a b f g => some (pack [(0x1F, 25), (d.val, 19), (a.val, 13), (b.val, 7), (f.val, 4), (g.val, 0)])
  | .viminn d a b f g => some (pack [(0x20, 25), (d.val, 19), (a.val, 13), (b.val, 7), (f.val, 4), (g.val, 0)])
  | .vimaxn d a b f g => some (pack [(0x21, 25), (d.val, 19), (a.val, 13), (b.val, 7), (f.val, 4), (g.val, 0)])
  | .vand d a b f g => some (pack [(0x22, 25), (d.val, 19), (a.val, 13), (b.val, 7), (f.val, 4), (g.val, 0)])
  | .vor d a b f g => some (pack [(0x23, 25), (d.val, 19), (a.val, 13), (b.val, 7), (f.val, 4), (g.val, 0)])
  | .vxor d a b f g => some (pack [(0x24, 25), (d.val, 19), (a.val, 13), (b.val, 7), (f.val, 4), (g.val, 0)])
  | .vshl d a b f g => some (pack [(0x25, 25), (d.val, 19), (a.val, 13), (b.val, 7), (f.val, 4), (g.val, 0)])
  | .vshr d a b f g => some (pack [(0x26, 25), (d.val, 19), (a.val, 13), (b.val, 7), (f.val, 4), (g.val, 0)])
  | .vsra d a b f g => some (pack [(0x27, 25), (d.val, 19), (a.val, 13), (b.val, 7), (f.val, 4), (g.val, 0)])
  | .vcmp c m a b f g => some (pack [(0x28, 25), (c.val, 22), (m.val, 19), (a.val, 13), (b.val, 7), (f.val, 4), (g.val, 0)])
  | .vsel d a b f g => some (pack [(0x29, 25), (d.val, 19), (a.val, 13), (b.val, 7), (f.val, 4), (g.val, 0)])
  | .vmand d a b => some (pack [(0x2A, 25), (d.val, 19), (a.val, 13), (b.val, 7)])
  | .vmor d a b => some (pack [(0x2B, 25), (d.val, 19), (a.val, 13), (b.val, 7)])
  | .vmxor d a b => some (pack [(0x2C, 25), (d.val, 19), (a.val, 13), (b.val, 7)])
  | .vmnot d a => some (pack [(0x2D, 25), (d.val, 19), (a.val, 13)])
  | .vmpop d a => some (pack [(0x2E, 25), (d.val, 19), (a.val, 13)])
  | .vcvt d a f s g => some (pack [(0x30, 25), (d.val, 19), (a.val, 13), (f.val, 10), (s.val, 7), (g.val, 0)])
  | .vqnt d a f t q g => some (pack [(0x31, 25), (d.val, 19), (a.val, 13), (f.val, 10), (t.val, 8), (q.val, 4), (g.val, 0)])
  | .vdqnt d a f t q g => some (pack [(0x32, 25), (d.val, 19), (a.val, 13), (f.val, 10), (t.val, 8), (q.val, 4), (g.val, 0)])
  | .vpack d a b f g => some (pack [(0x33, 25), (d.val, 19), (a.val, 13), (b.val, 7), (f.val, 4), (g.val, 0)])
  | .vunpk d a f g => some (pack [(0x34, 25), (d.val, 19), (a.val, 13), (f.val, 4), (g.val, 0)])
  | .vmov d a f g => some (pack [(0x38, 25), (d.val, 19), (a.val, 13), (f.val, 4), (g.val, 0)])
  | .vmovi d f i g => some (pack [(0x39, 25), (d.val, 19), (f.val, 10), (i.val, 3), (g.val, 0)])
  | .vperm d a b f g => some (pack [(0x3A, 25), (d.val, 19), (a.val, 13), (b.val, 7), (f.val, 4), (g.val, 0)])
  | .vshuf d a f k g => some (pack [(0x3B, 25), (d.val, 19), (a.val, 13), (f.val, 10), (k.val, 3), (g.val, 0)])
  | .vrot d a f r g => some (pack [(0x3C, 25), (d.val, 19), (a.val, 13), (f.val, 10), (r.val, 3), (g.val, 0)])
  | .vbcst d s w g => some (pack [(0x3D, 25), (d.val, 19), (s.val, 13), (w.val, 4), (g.val, 0)])
  | .vidx d s t w g => some (pack [(0x3E, 25), (d.val, 19), (s.val, 13), (t.val, 7), (w.val, 4), (g.val, 0)])
  | .vins d s t w g => some (pack [(0x3F, 25), (d.val, 19), (s.val, 13), (t.val, 7), (w.val, 4), (g.val, 0)])
  | .vext v s t w => some (pack [(0x40, 25), (v.val, 19), (s.val, 13), (t.val, 7), (w.val, 4)])
  | .vrsum d a f g => some (pack [(0x48, 25), (d.val, 19), (a.val, 13), (f.val, 4), (g.val, 0)])
  | .vrmax d a f g => some (pack [(0x49, 25), (d.val, 19), (a.val, 13), (f.val, 4), (g.val, 0)])
  | .vrmin d a f g => some (pack [(0x4A, 25), (d.val, 19), (a.val, 13), (f.val, 4), (g.val, 0)])
  | .vscan d a f g => some (pack [(0x4B, 25), (d.val, 19), (a.val, 13), (f.val, 4), (g.val, 0)])
  | .vsort d a f g => some (pack [(0x4C, 25), (d.val, 19), (a.val, 13), (f.val, 4), (g.val, 0)])
  | .vld d s o g => some (pack [(0x50, 25), (d.val, 19), (s.val, 13), (o.val, 4), (g.val, 0)])
  | .vst d s o g => some (pack [(0x51, 25), (d.val, 19), (s.val, 13), (o.val, 4), (g.val, 0)])
  | .vlds d s t w g => some (pack [(0x52, 25), (d.val, 19), (s.val, 13), (t.val, 7), (w.val, 4), (g.val, 0)])
  | .vsts d s t w g => some (pack [(0x53, 25), (d.val, 19), (s.val, 13), (t.val, 7), (w.val, 4), (g.val, 0)])
  | .vgth d a b f g => some (pack [(0x54, 25), (d.val, 19), (a.val, 13), (b.val, 7), (f.val, 4), (g.val, 0)])
  | .vsct d a b f g => some (pack [(0x55, 25), (d.val, 19), (a.val, 13), (b.val, 7), (f.val, 4), (g.val, 0)])
  | .vldc d s o g => some (pack [(0x56, 25), (d.val, 19), (s.val, 13), (o.val, 4), (g.val, 0)])
  | .vstc d s o g => some (pack [(0x57, 25), (d.val, 19), (s.val, 13), (o.val, 4), (g.val, 0)])
  | .vcmpr q a f g => some (pack [(0x58, 25), (2, 23), (q.val, 19), (a.val, 13), (f.val, 4), (g.val, 0)])
  | .vcmprFlush q f => some (pack [(0x58, 25), (2, 23), (q.val, 19), (48, 13), (f.val, 4)])
  | .vxpnd d q f g => some (pack [(0x59, 25), (d.val, 19), (2, 17), (q.val, 13), (f.val, 4), (g.val, 0)])
  | .vxpndDrop q f => some (pack [(0x59, 25), (48, 19), (2, 17), (q.val, 13), (f.val, 4)])
  | _ => none

/-- The body of an operation of the X slot (R225) as a number (R219); `none` for any other instruction. -/
def encodeX : Instr → Option Nat
  | .xput s i w g => some (pack [(0x01, 28), (s.val, 22), (i.val, 15), (w.val, 12), (g.val, 0)])
  | .xget s i w g => some (pack [(0x02, 28), (s.val, 22), (i.val, 15), (w.val, 12), (g.val, 0)])
  | .xclr g => some (pack [(0x03, 28), (g.val, 0)])
  | _ => none

/-- The body of an operation of the M slot (R225) as a number (R219); `none` for any other instruction. -/
def encodeM : Instr → Option Nat
  | .mldb qa fs ft rb qs g => some (pack [(0x01, 58), (qa.val, 51), (fs.val, 48), (ft.val, 44), (rb.val, 40), (qs.val, 36), (g.val, 32)])
  | .mstep acc qa fs ft rb qs g bsw => some (pack [(0x02, 58), (acc.val, 55), (qa.val, 51), (fs.val, 48), (ft.val, 44), (rb.val, 40), (qs.val, 36), (g.val, 32), (bsw.val, 0)])
  | .mzero acc g => some (pack [(0x03, 58), (acc.val, 55), (g.val, 32)])
  | .mrd acc qa fs ft rb g f band => some (pack [(0x04, 58), (acc.val, 55), (qa.val, 51), (fs.val, 48), (ft.val, 44), (rb.val, 40), (g.val, 32), (f.val, 29), (band.val, 23)])
  | .mwr acc qa rb g f => some (pack [(0x05, 58), (acc.val, 55), (qa.val, 51), (rb.val, 40), (g.val, 32), (f.val, 29)])
  | .mbias acc qa rb g f => some (pack [(0x06, 58), (acc.val, 55), (qa.val, 51), (rb.val, 40), (g.val, 32), (f.val, 29)])
  | _ => none

/-- The body of an operation of the C slots (R225) as a number (R219); `none` for any other instruction. -/
def encodeC : Instr → Option Nat
  | .cdset g d sa w => some (pack [(0x01, 57), (g.val, 53), (d.val, 40), (sa.val, 30), (w.val, 15)])
  | .cget g b o c d x sa sb sc w i => some (pack [(0x02, 57), (g.val, 53), (b.val, 49), (o.val, 47), (c.val, 44), (d.val, 40), (x.val, 36), (sa.val, 30), (sb.val, 24), (sc.val, 18), (w.val, 15), (i.val, 0)])
  | .cput g b o c d x sa sb sc w i => some (pack [(0x03, 57), (g.val, 53), (b.val, 49), (o.val, 47), (c.val, 44), (d.val, 40), (x.val, 36), (sa.val, 30), (sb.val, 24), (sc.val, 18), (w.val, 15), (i.val, 0)])
  | .cxfer g b o c d sa sb sc i => some (pack [(0x04, 57), (g.val, 53), (b.val, 49), (o.val, 47), (c.val, 44), (d.val, 40), (sa.val, 30), (sb.val, 24), (sc.val, 18), (i.val, 0)])
  | .cfill g b o c d sa sb sc w i => some (pack [(0x05, 57), (g.val, 53), (b.val, 49), (o.val, 47), (c.val, 44), (d.val, 40), (sa.val, 30), (sb.val, 24), (sc.val, 18), (w.val, 15), (i.val, 0)])
  | .ctouch g b o c sa sb i => some (pack [(0x06, 57), (g.val, 53), (b.val, 49), (o.val, 47), (c.val, 44), (sa.val, 30), (sb.val, 24), (i.val, 0)])
  | .cflush g b o c sa sb i => some (pack [(0x07, 57), (g.val, 53), (b.val, 49), (o.val, 47), (c.val, 44), (sa.val, 30), (sb.val, 24), (i.val, 0)])
  | .cmap g b o c sa i => some (pack [(0x08, 57), (g.val, 53), (b.val, 49), (o.val, 47), (c.val, 44), (sa.val, 30), (i.val, 0)])
  | .cmigr g b o c sa sb sc w => some (pack [(0x09, 57), (g.val, 53), (b.val, 49), (o.val, 47), (c.val, 44), (sa.val, 30), (sb.val, 24), (sc.val, 18), (w.val, 15)])
  | .cpfx g b sa sb => some (pack [(0x0A, 57), (g.val, 53), (b.val, 49), (sa.val, 30), (sb.val, 24)])
  | .aadd g b o c sa sb sc w i => some (pack [(0x10, 57), (g.val, 53), (b.val, 49), (o.val, 47), (c.val, 44), (sa.val, 30), (sb.val, 24), (sc.val, 18), (w.val, 15), (i.val, 0)])
  | .afadd g b o c sa sb sc w i => some (pack [(0x11, 57), (g.val, 53), (b.val, 49), (o.val, 47), (c.val, 44), (sa.val, 30), (sb.val, 24), (sc.val, 18), (w.val, 15), (i.val, 0)])
  | .aand g b o c sa sb sc w i => some (pack [(0x12, 57), (g.val, 53), (b.val, 49), (o.val, 47), (c.val, 44), (sa.val, 30), (sb.val, 24), (sc.val, 18), (w.val, 15), (i.val, 0)])
  | .aor g b o c sa sb sc w i => some (pack [(0x13, 57), (g.val, 53), (b.val, 49), (o.val, 47), (c.val, 44), (sa.val, 30), (sb.val, 24), (sc.val, 18), (w.val, 15), (i.val, 0)])
  | .axor g b o c sa sb sc w i => some (pack [(0x14, 57), (g.val, 53), (b.val, 49), (o.val, 47), (c.val, 44), (sa.val, 30), (sb.val, 24), (sc.val, 18), (w.val, 15), (i.val, 0)])
  | .amin g b o c sa sb sc w i => some (pack [(0x15, 57), (g.val, 53), (b.val, 49), (o.val, 47), (c.val, 44), (sa.val, 30), (sb.val, 24), (sc.val, 18), (w.val, 15), (i.val, 0)])
  | .amax g b o c sa sb sc w i => some (pack [(0x16, 57), (g.val, 53), (b.val, 49), (o.val, 47), (c.val, 44), (sa.val, 30), (sb.val, 24), (sc.val, 18), (w.val, 15), (i.val, 0)])
  | .aminn g b o c sa sb sc w i => some (pack [(0x17, 57), (g.val, 53), (b.val, 49), (o.val, 47), (c.val, 44), (sa.val, 30), (sb.val, 24), (sc.val, 18), (w.val, 15), (i.val, 0)])
  | .amaxn g b o c sa sb sc w i => some (pack [(0x18, 57), (g.val, 53), (b.val, 49), (o.val, 47), (c.val, 44), (sa.val, 30), (sb.val, 24), (sc.val, 18), (w.val, 15), (i.val, 0)])
  | .axchg g b o c sa sb sc w i => some (pack [(0x19, 57), (g.val, 53), (b.val, 49), (o.val, 47), (c.val, 44), (sa.val, 30), (sb.val, 24), (sc.val, 18), (w.val, 15), (i.val, 0)])
  | .acas g b o c sa sb sc w i => some (pack [(0x1A, 57), (g.val, 53), (b.val, 49), (o.val, 47), (c.val, 44), (sa.val, 30), (sb.val, 24), (sc.val, 18), (w.val, 15), (i.val, 0)])
  | .adecp g b o c sa sb sc w i => some (pack [(0x1B, 57), (g.val, 53), (b.val, 49), (o.val, 47), (c.val, 44), (sa.val, 30), (sb.val, 24), (sc.val, 18), (w.val, 15), (i.val, 0)])
  | .adcas g b o c sa sb sc w i => some (pack [(0x1C, 57), (g.val, 53), (b.val, 49), (o.val, 47), (c.val, 44), (sa.val, 30), (sb.val, 24), (sc.val, 18), (w.val, 15), (i.val, 0)])
  | .amove g b o c sa sb sc w i => some (pack [(0x1D, 57), (g.val, 53), (b.val, 49), (o.val, 47), (c.val, 44), (sa.val, 30), (sb.val, 24), (sc.val, 18), (w.val, 15), (i.val, 0)])
  | .ared g b o c sa sb w => some (pack [(0x1E, 57), (g.val, 53), (b.val, 49), (o.val, 47), (c.val, 44), (sa.val, 30), (sb.val, 24), (w.val, 15)])
  | .waita g b o c sa sb sc w i => some (pack [(0x20, 57), (g.val, 53), (b.val, 49), (o.val, 47), (c.val, 44), (sa.val, 30), (sb.val, 24), (sc.val, 18), (w.val, 15), (i.val, 0)])
  | .wake g b o c sa sb sc i => some (pack [(0x21, 57), (g.val, 53), (b.val, 49), (o.val, 47), (c.val, 44), (sa.val, 30), (sb.val, 24), (sc.val, 18), (i.val, 0)])
  | .psend g b o c d sa sb i => some (pack [(0x28, 57), (g.val, 53), (b.val, 49), (o.val, 47), (c.val, 44), (d.val, 40), (sa.val, 30), (sb.val, 24), (i.val, 0)])
  | .precv g b o c d sa sc i => some (pack [(0x29, 57), (g.val, 53), (b.val, 49), (o.val, 47), (c.val, 44), (d.val, 40), (sa.val, 30), (sc.val, 18), (i.val, 0)])
  | .pclose g b d => some (pack [(0x2A, 57), (g.val, 53), (b.val, 49), (d.val, 40)])
  | .tbar g b o c d => some (pack [(0x2B, 57), (g.val, 53), (b.val, 49), (o.val, 47), (c.val, 44), (d.val, 40)])
  | .barsig g o c d => some (pack [(0x2C, 57), (g.val, 53), (o.val, 47), (c.val, 44), (d.val, 40)])
  | .barset g b sb => some (pack [(0x2D, 57), (g.val, 53), (b.val, 49), (sb.val, 24)])
  | .ixopen g b d sa sb => some (pack [(0x30, 57), (g.val, 53), (b.val, 49), (d.val, 40), (sa.val, 30), (sb.val, 24)])
  | .ixlist g b o c d sa sb i => some (pack [(0x31, 57), (g.val, 53), (b.val, 49), (o.val, 47), (c.val, 44), (d.val, 40), (sa.val, 30), (sb.val, 24), (i.val, 0)])
  | .ixand g b d sa => some (pack [(0x32, 57), (g.val, 53), (b.val, 49), (d.val, 40), (sa.val, 30)])
  | .ixor g b d sa => some (pack [(0x33, 57), (g.val, 53), (b.val, 49), (d.val, 40), (sa.val, 30)])
  | .ixscore g b d sa => some (pack [(0x34, 57), (g.val, 53), (b.val, 49), (d.val, 40), (sa.val, 30)])
  | .ixvec g b o c d sa sb => some (pack [(0x35, 57), (g.val, 53), (b.val, 49), (o.val, 47), (c.val, 44), (d.val, 40), (sa.val, 30), (sb.val, 24)])
  | .ixtopk g b d => some (pack [(0x36, 57), (g.val, 53), (b.val, 49), (d.val, 40)])
  | .ixdrain g b o c d sa sc => some (pack [(0x37, 57), (g.val, 53), (b.val, 49), (o.val, 47), (c.val, 44), (d.val, 40), (sa.val, 30), (sc.val, 18)])
  | .ixclose g b d => some (pack [(0x38, 57), (g.val, 53), (b.val, 49), (d.val, 40)])
  | _ => none

/-- The slot body of an operation as a number (R219, R223-R225); `none` for an event. -/
def encodeBody (i : Instr) : Option Nat :=
  match i.unit with
  | some .s => encodeS i
  | some .v => encodeV i
  | some .x => encodeX i
  | some .m => encodeM i
  | some .c => encodeC i
  | none => none

/-- The first slot that can hold an operation of a unit. -/
def Unit'.slot : Unit' → Slot
  | .s => .s | .v => .v0 | .m => .m | .x => .x | .c => .c0

/-- The bytes of a bundle that holds one operation, written in full in the first slot of its unit, or of a fallow
bundle (R212, R213). An event has no bytes. -/
def encode (i : Instr) : List (BitVec 8) :=
  match i.unit, encodeBody i with
  | some u, some w => BitVec.ofNat 8 (2 ^ u.slot.index) :: leBytes u.slot.width w
  | _, _ => if i = .fallowBundle then [0x80, 0x00] else []

/-! ### The table's words

A body alone does not name its slot (S, V and X bodies are all 32 bits, and their opcodes overlap); the header does.
The table's word is a body, so the model tries the slots in a fixed order and takes the first that accepts it. -/

/-- The slot in which a table word of `nbits` bits is read: for 32 bits the first of S, X, V0 that decodes it; for 64
bits the first of M, C0 (DESIGN CHOICE, log 19). -/
def tableSlot (nbits w : Nat) : Option Slot :=
  let tries : List Slot := if nbits == 32 then [.s, .x, .v0] else if nbits == 64 then [.m, .c0] else []
  tries.find? (fun k => match decodeBody k w with | .ok _ => true | .error _ => false)

/-- The bytes of the bundle that holds a table word alone: header, then the body (R212). 16 bits are a whole bundle
without a body. -/
def tableBytes (nbits w : Nat) : List (BitVec 8) :=
  match tableSlot nbits w with
  | some k => BitVec.ofNat 8 (2 ^ k.index) :: leBytes k.width w
  | none => leBytes (nbits / 8) w

/-- The instruction the decoder reads from a table word laid out as a bundle of its own. -/
def decodeTableWord (nbits w : Nat) : Option Instr := (decode (tableBytes nbits w)).map Prod.fst

end Sys2Proof
end

