-- ==== Sys2Proof/Machine/Number.lean ====
section
/-! DEFINITION. Number formats and rounding (R184-R200, R205-R210): a code is read to an exact value, operations are
formed exactly, and one function rounds an exact value to a code with its flags. -/

namespace Sys2Proof.Machine

/-- The element formats of the vector unit by fmt3 code (R221), and E2M1 (R184). -/
inductive Fmt where
  | fp32 | bf16 | fp16 | e4m3 | e5m2 | i32 | i16 | i8 | e2m1
  deriving DecidableEq, Repr

/-- fmt3 codes (R221). -/
def Fmt.ofCode (c : Nat) : Fmt :=
  match c with
  | 0 => .fp32 | 1 => .bf16 | 2 => .fp16 | 3 => .e4m3 | 4 => .e5m2 | 5 => .i32 | 6 => .i16 | _ => .i8

/-- Width of an element in bits (R184, R186). -/
def Fmt.bits : Fmt → Nat
  | .fp32 => 32 | .bf16 => 16 | .fp16 => 16 | .e4m3 => 8 | .e5m2 => 8 | .i32 => 32 | .i16 => 16 | .i8 => 8 | .e2m1 => 4

/-- Fraction bits F (R184). -/
def Fmt.frac : Fmt → Nat
  | .fp32 => 23 | .bf16 => 7 | .fp16 => 10 | .e4m3 => 3 | .e5m2 => 2 | .e2m1 => 1 | _ => 0

/-- Exponent bias (R184). -/
def Fmt.bias : Fmt → Nat
  | .fp32 => 127 | .bf16 => 127 | .fp16 => 15 | .e4m3 => 7 | .e5m2 => 15 | .e2m1 => 1 | _ => 0

/-- Formats with infinities and NaNs (R184). -/
def Fmt.hasInf : Fmt → Bool
  | .fp32 => true | .bf16 => true | .fp16 => true | .e5m2 => true | _ => false

/-- Integer formats (R186). -/
def Fmt.isInt : Fmt → Bool
  | .i32 => true | .i16 => true | .i8 => true | _ => false

/-- The code of the largest finite value, sign clear (R184, R185). -/
def Fmt.maxCode : Fmt → Nat
  | .fp32 => 0x7F7FFFFF | .bf16 => 0x7F7F | .fp16 => 0x7BFF | .e4m3 => 0x7E | .e5m2 => 0x7B | .e2m1 => 7 | _ => 0

/-- The canonical NaN (R187); a format without NaNs has none, and 0 stands here. -/
def Fmt.nanCode : Fmt → Nat
  | .fp32 => 0x7FC00000 | .bf16 => 0x7FC0 | .fp16 => 0x7E00 | .e5m2 => 0x7E | _ => 0

/-- The sign bit of a code. -/
def Fmt.signBit (f : Fmt) : Nat := 2 ^ (f.bits - 1)

/-- An exact value: a rational `num / den` with a sign (zero keeps its sign), an infinity or NaN (R193). -/
inductive Exact where
  | nan
  | inf (neg : Bool)
  | fin (neg : Bool) (num den : Nat)
  deriving DecidableEq, Repr

/-- The sign factor of a flag, applied to a code. -/
def withSign (f : Fmt) (neg : Bool) (code : Nat) : Nat := if neg then code + f.signBit else code

/-- The value of a code of a floating format (R184, R185). -/
def floatValue (f : Fmt) (code : Nat) : Exact :=
  let neg := code / f.signBit % 2 == 1
  let mag := code % f.signBit
  let mag := if f == .e4m3 && mag == 0x7F then 0x7E else mag
  let e := mag / 2 ^ f.frac
  let m := mag % 2 ^ f.frac
  if f.hasInf && mag > f.maxCode then (if m == 0 then .inf neg else .nan)
  else if e == 0 then .fin neg m (2 ^ (f.bias + f.frac - 1))
  else if e ≥ f.bias + f.frac then .fin neg ((2 ^ f.frac + m) * 2 ^ (e - f.bias - f.frac)) 1
  else .fin neg (2 ^ f.frac + m) (2 ^ (f.bias + f.frac - e))

/-- Signed reading of a `w`-bit code (R6, R186). -/
def signedOf (w code : Nat) : Int :=
  let c := code % 2 ^ w
  if c < 2 ^ (w - 1) then (c : Int) else (c : Int) - (2 ^ w : Nat)

/-- A signed integer written modulo 2^w. -/
def wrapTo (w : Nat) (x : Int) : Nat := (x % ((2 ^ w : Nat) : Int)).toNat

/-- The value of an integer as an exact value. -/
def Exact.ofInt (x : Int) : Exact := .fin (decide (x < 0)) x.natAbs 1

/-- The value of a code of any format (R184-R186). -/
def valueOf (f : Fmt) (code : Nat) : Exact :=
  if f.isInt then .ofInt (signedOf f.bits code) else floatValue f code

/-- The value of an E4M5 scale container (R188, R191). -/
def e4m5Value (container : Nat) : Exact :=
  let c := container % 512
  let c := if c == 0x1FF then 0x1FE else c
  if c < 32 then .fin false c 2048 else .fin false ((32 + c % 32) * 2 ^ (c / 32)) 4096

/-- The value of an E8M0 scale container (R189, R191). -/
def e8m0Value (container : Nat) : Exact :=
  let c := container % 256
  let c := if c == 255 then 254 else c
  if 127 ≤ c then .fin false (2 ^ (c - 127)) 1 else .fin false 1 (2 ^ (127 - c))

/-! ### Flags (R198), as the bits of VSTAT (R367) -/

/-- The six sticky flags as a number in VSTAT's layout. -/
abbrev Flags := BitVec 6

def flagNV : Flags := 1
def flagDZ : Flags := 2
def flagOF : Flags := 4
def flagUF : Flags := 8
def flagNX : Flags := 16
def flagQNAN : Flags := 32

/-! ### Rounding (R192-R196) -/

/-- A rounding mode; `sr width r` rounds stochastically with `width` random bits `r` (R196). -/
inductive Round where
  | rne | rz | rup | rdn
  | sr (width r : Nat)
  deriving DecidableEq, Repr

/-- Modes by VCTL.RM (R192), with the random bits that SR takes. -/
def Round.ofCode (rm width r : Nat) : Round :=
  match rm with
  | 0 => .rne | 1 => .rz | 2 => .rup | 3 => .rdn | _ => .sr width r

/-- Whether the mode goes to the neighbour of larger magnitude, for a value `lo + rem / d` with `0 < rem < d`
(R192, R196). -/
def Round.away (md : Round) (neg : Bool) (lo rem d : Nat) : Bool :=
  match md with
  | .rne => decide (d < 2 * rem) || (2 * rem == d && lo % 2 == 1)
  | .rz => false
  | .rup => !neg
  | .rdn => neg
  | .sr width r => decide (r * d < rem * 2 ^ width)

/-- `n / d` rounded to an integer, with whether it was inexact. -/
def Round.toNat (md : Round) (neg : Bool) (n d : Nat) : Nat × Bool :=
  if n % d == 0 then (n / d, false)
  else (if md.away neg (n / d) (n % d) d then n / d + 1 else n / d, true)

/-- The exponent of the leading bit of `num / den`, for both nonzero. -/
def expOf (num den : Nat) : Int :=
  let e : Int := (num.log2 : Int) - (den.log2 : Int)
  let ge : Bool := if 0 ≤ e then decide (den * 2 ^ e.toNat ≤ num) else decide (den ≤ num * 2 ^ (-e).toNat)
  if ge then e else e - 1

/-- `num / den` in units of `2 ^ q`, rounded. -/
def Round.inUnits (md : Round) (neg : Bool) (num den : Nat) (q : Int) : Nat × Bool :=
  if 0 ≤ q then md.toNat neg num (den * 2 ^ q.toNat) else md.toNat neg (num * 2 ^ (-q).toNat) den

/-- The result of an overflow (R194). -/
def overflowCode (f : Fmt) (md : Round) (neg : Bool) : Nat :=
  let infCode := f.maxCode + 1
  let big := match md with
    | .rne => f.hasInf
    | .rz => false
    | .rup => f.hasInf && !neg
    | .rdn => f.hasInf && neg
    | .sr _ _ => false
  withSign f neg (if big then infCode else f.maxCode)

/-- Rounding of a nonzero magnitude to a floating format (R193 step 4, R194): the code and its flags. -/
def roundMag (f : Fmt) (md : Round) (neg : Bool) (num den : Nat) : Nat × Flags :=
  let e := expOf num den
  let minExp : Int := 1 - (f.bias : Int)
  let q := e - f.frac
  let k := md.inUnits neg num den q
  -- the code magnitude the unbounded neighbour would have
  let code : Int := (e + f.bias - 1) * ((2 ^ f.frac : Nat) : Int) + k.1
  if (f.maxCode : Int) < code then (overflowCode f md neg, flagOF ||| flagNX)
  else if code < ((2 ^ f.frac : Nat) : Int) then
    let ks := md.inUnits neg num den (minExp - f.frac)
    (withSign f neg ks.1, if ks.2 then (if ks.1 = 0 then flagNX else flagUF ||| flagNX) else 0)
  else (withSign f neg code.toNat, if k.2 then flagNX else 0)

/-- The bounds of an integer format. -/
def Fmt.intMin (f : Fmt) : Int := -((2 ^ (f.bits - 1) : Nat) : Int)
def Fmt.intMax (f : Fmt) : Int := ((2 ^ (f.bits - 1) : Nat) : Int) - 1

/-- Saturation of an integer to a format, NV when it saturates (R193). -/
def saturateInt (f : Fmt) (x : Int) : Nat × Flags :=
  if x < f.intMin then (wrapTo f.bits f.intMin, flagNV)
  else if f.intMax < x then (wrapTo f.bits f.intMax, flagNV)
  else (wrapTo f.bits x, 0)

/-- round_to(fmt, x, mode) of R193 (DEDUCED, log 72). -/
def roundTo (f : Fmt) (x : Exact) (md : Round) : Nat × Flags :=
  if f.isInt then
    match x with
    | .nan => (0, flagNV)
    | .inf neg => (wrapTo f.bits (if neg then f.intMin else f.intMax), flagNV)
    | .fin neg num den =>
      let k := md.toNat neg num den
      let r := saturateInt f (if neg then -(k.1 : Int) else (k.1 : Int))
      (r.1, if r.2 == 0 && k.2 then flagNX else r.2)
  else
    match x with
    | .nan => if f.hasInf then (f.nanCode, 0) else (0, flagQNAN)
    | .inf neg => if f.hasInf then (withSign f neg (f.maxCode + 1), 0) else (withSign f neg f.maxCode, flagNX)
    | .fin neg num den => if num == 0 then (withSign f neg 0, 0) else roundMag f md neg num den

/-- Formats that FTZ touches (R197). -/
def Fmt.ftzable : Fmt → Bool
  | .fp32 => true | .bf16 => true | .fp16 => true | _ => false

/-- A code that is a nonzero subnormal. -/
def isSubnormal (f : Fmt) (code : Nat) : Bool :=
  !f.isInt && code % f.signBit != 0 && decide (code % f.signBit < 2 ^ f.frac)

/-- An operand as FTZ reads it (R197). -/
def ftzIn (f : Fmt) (ftz : Bool) (code : Nat) : Nat :=
  if ftz && f.ftzable && isSubnormal f code then code / f.signBit % 2 * f.signBit else code

/-- A rounded result as FTZ writes it (R197). -/
def ftzOut (f : Fmt) (ftz : Bool) (r : Nat × Flags) : Nat × Flags :=
  if ftz && f.ftzable && isSubnormal f r.1 then (r.1 / f.signBit % 2 * f.signBit, r.2 ||| flagUF ||| flagNX) else r

/-! ### Exact arithmetic -/

/-- Negation. -/
def Exact.neg : Exact → Exact
  | .nan => .nan
  | .inf s => .inf (!s)
  | .fin s n d => .fin (!s) n d

/-- Product, with NV for 0 × ∞ (R198, R270). -/
def Exact.mul : Exact → Exact → Exact × Flags
  | .nan, _ => (.nan, 0)
  | _, .nan => (.nan, 0)
  | .inf s, .inf t => (.inf (s != t), 0)
  | .inf s, .fin t n _ => if n == 0 then (.nan, flagNV) else (.inf (s != t), 0)
  | .fin t n _, .inf s => if n == 0 then (.nan, flagNV) else (.inf (s != t), 0)
  | .fin s n d, .fin t m e => (.fin (s != t) (n * m) (d * e), 0)

/-- Sum, with NV for ∞ − ∞; an exact zero from opposite signs is −0 under RDN and else +0 (R193 step 5) (DEDUCED, log 22). -/
def Exact.add (down : Bool) : Exact → Exact → Exact × Flags
  | .nan, _ => (.nan, 0)
  | _, .nan => (.nan, 0)
  | .inf s, .inf t => if s == t then (.inf s, 0) else (.nan, flagNV)
  | .inf s, .fin _ _ _ => (.inf s, 0)
  | .fin _ _ _, .inf s => (.inf s, 0)
  | .fin s n d, .fin t m e =>
    if s == t then (.fin s (n * e + m * d) (d * e), 0)
    else if n * e == m * d then (.fin down 0 1, 0)
    else if m * d < n * e then (.fin s (n * e - m * d) (d * e), 0)
    else (.fin t (m * d - n * e) (d * e), 0)

/-- Order of finite and infinite values: −1, 0 or 1; −0 equals +0. Not used for NaN. -/
def Exact.compare : Exact → Exact → Int
  | .nan, _ => 0
  | _, .nan => 0
  | .inf s, .inf t => if s == t then 0 else if s then -1 else 1
  | .inf s, .fin _ _ _ => if s then -1 else 1
  | .fin _ _ _, .inf t => if t then 1 else -1
  | .fin s n d, .fin t m e =>
    let x : Int := (if s then -((n * e : Nat) : Int) else ((n * e : Nat) : Int))
    let y : Int := (if t then -((m * d : Nat) : Int) else ((m * d : Nat) : Int))
    if x < y then -1 else if y < x then 1 else 0

def Exact.isNan : Exact → Bool
  | .nan => true | _ => false

def Exact.isNeg : Exact → Bool
  | .nan => false | .inf s => s | .fin s _ _ => s

def Exact.isZero : Exact → Bool
  | .fin _ n _ => n == 0 | _ => false

/-- Order with −0 below +0 (R207): `a` strictly before `b`. -/
def Exact.before (a b : Exact) : Bool :=
  let c := Exact.compare a b
  decide (c < 0) || (c == 0 && a.isNeg && !b.isNeg)

/-- |x|. -/
def Exact.abs : Exact → Exact
  | .nan => .nan | .inf _ => .inf false | .fin _ n d => .fin false n d

/-- x / y for a finite positive y (block quantisation, R209). -/
def Exact.divBy (x y : Exact) : Exact :=
  match x, y with
  | .fin s n d, .fin _ m e => .fin s (n * e) (d * m)
  | x, _ => x

/-! ### Integer square root and the exact functions (R271, R272) -/

/-- The largest `acc + x` with square at most `n`, looking at bits below `k`. -/
def isqrtAux : Nat → Nat → Nat → Nat
  | 0, acc, _ => acc
  | k + 1, acc, n => isqrtAux k (if (acc + 2 ^ k) * (acc + 2 ^ k) ≤ n then acc + 2 ^ k else acc) n

/-- Integer square root. -/
def isqrt (n : Nat) : Nat := isqrtAux (n.log2 / 2 + 1) 0 n

/-- √(num / den) as a value that rounds as the exact root does: the root itself where it is rational, else a value
strictly between two neighbours 2^−200 apart. -/
def sqrtValue (num den : Nat) : Exact :=
  let n := num * den * 4 ^ 200
  let r := isqrt n
  if r * r == n then .fin false r (den * 2 ^ 200) else .fin false (2 * r + 1) (den * 2 ^ 201)

/-- Bits of fixed-point precision of the functions below. -/
def fnPrec : Nat := 400

/-- Product of the constants 2^(2^−i) for the one bits of the fraction `f` (in units of 2^−fnPrec), `c` being the
constant of the next bit. -/
def exp2Aux : Nat → Nat → Nat → Nat → Nat
  | 0, _, _, acc => acc
  | k + 1, f, c, acc =>
    let c' := isqrt (c * 2 ^ fnPrec)
    exp2Aux k f c' (if f / 2 ^ k % 2 == 1 then acc * c' / 2 ^ fnPrec else acc)

/-- 2^(f / 2^fnPrec) for f below 2^fnPrec, in units of 2^−fnPrec. -/
def exp2Frac (f : Nat) : Nat := exp2Aux fnPrec f (2 * 2 ^ fnPrec) (2 ^ fnPrec)

/-- Fraction bits of log2 of `m` (in units of 2^−fnPrec, from 1 to below 2). -/
def log2Aux : Nat → Nat → Nat → Nat
  | 0, _, acc => acc
  | k + 1, m, acc =>
    let s := m * m / 2 ^ fnPrec
    if 2 * 2 ^ fnPrec ≤ s then log2Aux k (s / 2) (2 * acc + 1) else log2Aux k s (2 * acc)

/-- Terms of the series of e^t, `t` in units of 2^−fnPrec. -/
def expAux : Nat → Nat → Nat → Nat → Nat → Nat
  | 0, _, _, _, acc => acc
  | fuel + 1, k, t, term, acc =>
    let term' := term * t / (k * 2 ^ fnPrec)
    expAux fuel (k + 1) t term' (acc + term')

/-- e^t in units of 2^−fnPrec. -/
def expFixed (t : Nat) : Nat := expAux 400 1 t (2 ^ fnPrec) (2 ^ fnPrec)

/-- The functions of R271. -/
inductive VFun where
  | rcp | rsq | sqrt | exp2 | log2 | tanh
  deriving DecidableEq, Repr

/-- A number of the function in the free choice of Config. -/
def VFun.code : VFun → Nat
  | .rcp => 0 | .rsq => 1 | .sqrt => 2 | .exp2 => 3 | .log2 => 4 | .tanh => 5

/-- An approximation of the function's value of a finite nonzero operand, far inside every bound of R271. -/
def VFun.approx (k : VFun) (neg : Bool) (num den : Nat) : Exact :=
  match k with
  | .rcp => .fin neg den num
  | .sqrt => sqrtValue num den
  | .rsq => sqrtValue den num
  | .exp2 =>
    let n := num / den
    let f := num % den * 2 ^ fnPrec / den
    if 4096 ≤ n then (if neg then .fin false 1 (2 ^ 4096) else .fin false (2 ^ 4096) 1)
    else if neg then .fin false (2 ^ fnPrec) (exp2Frac f * 2 ^ n)
    else .fin false (exp2Frac f * 2 ^ n) (2 ^ fnPrec)
  | .log2 =>
    let e := expOf num den
    let m := if 0 ≤ e then num * 2 ^ fnPrec / (den * 2 ^ e.toNat) else num * 2 ^ (-e).toNat * 2 ^ fnPrec / den
    let l : Int := e * ((2 ^ 300 : Nat) : Int) + (log2Aux 300 m 0 : Int)
    .fin (decide (l < 0)) l.natAbs (2 ^ 300)
  | .tanh =>
    if 32 * den ≤ num then .fin neg (2 ^ 80 - 1) (2 ^ 80)
    else
      let ex := expFixed (2 * num * 2 ^ fnPrec / den)
      .fin neg (ex - 2 ^ fnPrec) (ex + 2 ^ fnPrec)

/-- One unit in the last place at a value, as a rational: 2^(e − F), never below the subnormal grid. -/
def ulpAt (f : Fmt) (num den : Nat) : Nat × Nat :=
  let e := if num == 0 then 1 - (f.bias : Int) else max (expOf num den) (1 - (f.bias : Int))
  let q := e - f.frac
  if 0 ≤ q then (2 ^ q.toNat, 1) else (1, 2 ^ (-q).toNat)

/-- Whether |x − y| ≤ n/d for two finite values; false otherwise. -/
def withinBound (x y : Exact) (n d : Nat) : Bool :=
  match x, y with
  | .fin s a b, .fin t c e =>
    let p : Int := (if s then -((a * e : Nat) : Int) else ((a * e : Nat) : Int))
    let q : Int := (if t then -((c * b : Nat) : Int) else ((c * b : Nat) : Int))
    decide ((p - q).natAbs * d ≤ n * (b * e))
  | _, _ => false

/-- The bound of R271 for a function value `y`: a number of ulps, or an absolute bound where the table has one. -/
def VFun.bounded (k : VFun) (f : Fmt) (y r : Exact) : Bool :=
  match y with
  | .fin _ n d =>
    let u := ulpAt f n d
    let two := f == .fp32 && (k == .exp2 || k == .log2 || k == .tanh)
    withinBound r y ((if two then 2 else 1) * u.1) u.2
      || (f == .fp32 && k == .log2 && decide (n < d) && withinBound r y 1 (2 ^ 22))
      || (f == .fp32 && k == .tanh && decide (n * 64 < d) && withinBound r y 1 (2 ^ 24))
  | _ => false

/-- Powers of two: `num / den` equal to 2^e. -/
def isPow2 (num den : Nat) : Bool :=
  let e := expOf num den
  if 0 ≤ e then num == den * 2 ^ e.toNat else num * 2 ^ (-e).toNat == den

/-- Whether the function value is one of the exact cases of R272, for a finite nonzero operand. VEXP2 of an integer is one of them also where its power is
not representable: the result is then the power rounded (DESIGN CHOICE, log 109). -/
def VFun.exactCase (k : VFun) (neg : Bool) (num den : Nat) : Bool :=
  match k with
  | .rcp => isPow2 num den
  | .rsq => isPow2 num den && expOf num den % 2 == 0
  | .sqrt => false
  | .exp2 => num % den == 0
  | .log2 => isPow2 num den && !neg
  | .tanh => false

/-- The exact value in an exact case. -/
def VFun.exactValue (k : VFun) (neg : Bool) (num den : Nat) : Exact :=
  match k with
  | .rcp => .fin neg den num
  | .rsq =>
    let e := expOf num den / 2
    if 0 ≤ e then .fin false 1 (2 ^ e.toNat) else .fin false (2 ^ (-e).toNat) 1
  | .exp2 =>
    let n := num / den
    if 4096 ≤ n then (if neg then .fin false 1 (2 ^ 4096) else .fin false (2 ^ 4096) 1)
    else if neg then .fin false 1 (2 ^ n) else .fin false (2 ^ n) 1
  | .log2 => .ofInt (expOf num den)
  | _ => .fin neg num den

/-- The code of a function result that the unit's free choice `pick` gives, where it lies within the bound of R271, else `base`. Under SR
the unit computes a value at a code or at some place between it and the next one, and the lane's random bits choose the neighbour (R196, R271). -/
def VFun.choose (k : VFun) (f : Fmt) (md : Round) (pick : Nat) (y : Exact) (base : Nat) : Nat :=
  let ok := fun c => k.bounded f y (floatValue f c)
  let c := pick % 2 ^ f.bits
  match md with
  | .sr w r =>
    let n := pick / 2 ^ f.bits
    if n % 2 = 1 then (if ok c then c else base)
    else if ok c && ok (c + 1) then (if r < n / 2 % 2 ^ w + 1 then c + 1 else c)
    else base
  | _ => if ok c then c else base

/-- One function result (R271, R272). `pick` is the choice that a core of this module makes, used where it lies within the bound of R271;
otherwise the rounded approximation stands. -/
def VFun.result (k : VFun) (f : Fmt) (md : Round) (pick : Nat) (x : Exact) : Nat × Flags :=
  match x with
  | .nan => (f.nanCode, 0)
  | .inf neg =>
    match k with
    | .rcp => (withSign f neg 0, 0)
    | .rsq => if neg then (f.nanCode, flagNV) else (0, 0)
    | .sqrt => if neg then (f.nanCode, flagNV) else (f.maxCode + 1, 0)
    | .exp2 => if neg then (0, 0) else (f.maxCode + 1, 0)
    | .log2 => if neg then (f.nanCode, flagNV) else (f.maxCode + 1, 0)
    | .tanh => roundTo f (.fin neg 1 1) .rne
  | .fin neg num den =>
    if num == 0 then
      match k with
      | .rcp => (withSign f neg (f.maxCode + 1), flagDZ)
      | .rsq => (withSign f neg (f.maxCode + 1), flagDZ)
      | .sqrt => (withSign f neg 0, 0)
      | .exp2 => roundTo f (.fin false 1 1) .rne
      | .log2 => (withSign f true (f.maxCode + 1), flagDZ)
      | .tanh => (withSign f neg 0, 0)
    else if neg && (k == .rsq || k == .sqrt || k == .log2) then (f.nanCode, flagNV)
    else if k == .sqrt then roundTo f (sqrtValue num den) md
    else if k.exactCase neg num den then roundTo f (k.exactValue neg num den) md
    else
      let y := k.approx neg num den
      let base := roundTo f y md
      if base.2 &&& flagOF != 0 then base
      else
        let code := k.choose f md pick y base.1
        (code, if isSubnormal f code then flagUF ||| flagNX else flagNX)

/-! ### Elementwise operations -/

/-- A binary floating operation with one rounding (R270). -/
inductive FOp where
  | add | sub | mul
  deriving DecidableEq, Repr

/-- Whether a mode rounds toward −∞, for the sign of an exact zero sum (R193). -/
def Round.isDown : Round → Bool
  | .rdn => true | _ => false

/-- The exact result of an operation on values, with the flags of an invalid one. -/
def FOp.exact (k : FOp) (down : Bool) (a b : Exact) : Exact × Flags :=
  match k with
  | .add => Exact.add down a b
  | .sub => Exact.add down a b.neg
  | .mul => Exact.mul a b

/-- VADD, VSUB and VMUL on one element (R270, R197). -/
def FOp.elem (k : FOp) (f : Fmt) (ftz : Bool) (md : Round) (a b : Nat) : Nat × Flags :=
  let x := k.exact md.isDown (floatValue f (ftzIn f ftz a)) (floatValue f (ftzIn f ftz b))
  let r := ftzOut f ftz (roundTo f x.1 md)
  (r.1, r.2 ||| x.2)

/-- The fused operations on one element (R270): `(±a × b) + (±d)`. -/
def fmaElem (f : Fmt) (ftz : Bool) (md : Round) (negProd negAdd : Bool) (a b d : Nat) : Nat × Flags :=
  let p := Exact.mul (floatValue f (ftzIn f ftz a)) (floatValue f (ftzIn f ftz b))
  let prod := if negProd then p.1.neg else p.1
  let addend := floatValue f (ftzIn f ftz d)
  let addend := if negAdd then addend.neg else addend
  let x := Exact.add md.isDown prod addend
  let r := ftzOut f ftz (roundTo f x.1 md)
  (r.1, r.2 ||| x.2 ||| p.2)

/-- VMIN and VMAX on one element (R207): exact, no flag. -/
def minMaxElem (f : Fmt) (ftz : Bool) (max : Bool) (a b : Nat) : Nat :=
  let a := ftzIn f ftz a
  let b := ftzIn f ftz b
  let x := floatValue f a
  let y := floatValue f b
  if x.isNan && y.isNan then f.nanCode
  else if x.isNan then b
  else if y.isNan then a
  else if max then (if x.before y then b else a) else (if y.before x then b else a)

/-- Smaller or larger of two integer elements, signed or unsigned. -/
def intMinMax (w : Nat) (max signed : Bool) (a b : Nat) : Nat :=
  let lt : Bool := if signed then decide (signedOf w a < signedOf w b) else decide (a % 2 ^ w < b % 2 ^ w)
  if max then (if lt then b else a) else (if lt then a else b)

end Sys2Proof.Machine
end

