-- ==== Sys2Proof/Config.lean ====
section
/-! DEFINITION. What one module fixes and what the spec leaves open. An `opaque` constant has no body: nothing in Lean
can evaluate it, so a statement that mentions one holds whatever its value (DESIGN CHOICE, log 6, 7 and 12). -/

namespace Sys2Proof.Config

/-- Cores of a module (R4, R20). -/
def cores : Nat := 256

/-- Clusters of a module (R4). -/
def clusters : Nat := 32

/-- The free values of the spec's open numbers: the n-th one that a run takes (DESIGN CHOICE, log 6, 12). -/
opaque freeNat : Nat → Nat

/-- The free vectors, for a value of many bits that the spec leaves open (DESIGN CHOICE, log 12). -/
opaque freeVec : Nat → Vec

/-- The code that a core returns for a function of R271 where only a bound is given: arguments are the function, the
format, VCTL.RM, VCTL.FTZ and the operand code (DESIGN CHOICE, log 7). -/
opaque functionCode : Nat → Nat → Nat → Nat → Nat → Nat

/-- The bytes of a context save area, whose layout is not architected (R66; DESIGN CHOICE, log 48): the n-th one that is written. -/
opaque saveArea : Nat → List Byte

/-- The ceiling of an island's voltage trim in steps of 10 mV, whose figure the spec does not give (R433; DESIGN CHOICE, log 98). -/
opaque trimCeiling : Nat

/-- A signature over a byte string (R416; DESIGN CHOICE, log 13). -/
opaque sign : List Byte → List Byte

/-- The loader's verdict on the ring waits of an image (R57, R231; DESIGN CHOICE, log 14), from its ring table (depth, rt and wt of each
ring) and its code. -/
opaque ringWaitsMet : List (Nat × Nat × Nat) → List Byte → Bool

end Sys2Proof.Config
end

