-- ==== Sys2Proof/Machine/CoreState.lean ====
section
/-! DEFINITION. The state of one core as plain data, and that core after reset. A table keyed by number is a list of
pairs; what an unlisted key reads as is said beside the field. -/

namespace Sys2Proof.Machine

/-- A table keyed by a number. -/
abbrev Tbl (α : Type) := List (Nat × α)

/-! ### A core -/

/-- Core states (R51), with the codes of CORE_STAT.STATE (R367). -/
inductive Mode where
  | idle | staged | running | atHeadland | swapped | halted
  deriving DecidableEq, Repr

/-- States of a ring entry (R258). -/
inductive EntryState where
  | empty | pending | full
  deriving DecidableEq, Repr

/-- One ring (R258), with its stream offsets (R265). -/
structure Ring where
  depth : Nat
  rt : Nat
  wt : Nat
  rp : Nat
  wp : Nat
  h : Nat
  st : Vector EntryState 8
  data : Vector Vec 8
  sw : Nat
  sr : Nat
  deriving DecidableEq, Repr

/-- One transfer barrier (R312). -/
structure Barrier where
  pend : Nat
  exp : Nat
  cnt : Nat
  err : Nat
  ovf : Bool
  deriving DecidableEq, Repr

/-- One active hardware loop (R251, R252): counter, start, end E, count, stage count S, total T. -/
structure Loop where
  n : Fin 4
  start : Nat
  stop : Nat
  count : Nat
  stages : Nat
  total : Nat
  deriving DecidableEq, Repr

/-- Where a result in flight lands (R239, R259, R268). -/
inductive Dest where
  | sreg (n : Fin 64)
  | vreg (n : Fin 32)
  | mreg (n : Fin 8)
  | entry (q : Fin 16) (e : Fin 8)
  /-- Flags only (R299). -/
  | flags
  deriving DecidableEq, Repr

/-- A result in flight: the working cycle in which it becomes visible, its place, its bits, and which bits it writes. -/
structure Landing where
  due : Nat
  dest : Dest
  value : Vec
  mask : Vec
  flags : BitVec 6
  deriving DecidableEq, Repr

/-- An operation on an accumulator tile in flight (R298, R299). -/
inductive TileOp where
  /-- A matrix step (R302): first cycle, A ring, its rp at issue, A rows read so far, B rows and scales as at issue,
  A scales, format code, row block. -/
  | step (issued : Nat) (qa : Fin 16) (rp : Nat) (rows : List Vec) (b : List Vec) (scaleB : List (BitVec 1024))
      (scaleA : List (BitVec 1024)) (fc rb : Nat)
  | zero
  /-- Rows of 128 elements of 32 bits written from row `8·rb` (R305). -/
  | write (rb : Nat) (rows : List (BitVec 4096))
  /-- One bias element per column, added to the 8 rows (R306): as FP32 or as i32, elements given in FP32 or i32. -/
  | bias (rb : Nat) (int : Bool) (beta : BitVec 4096)
  /-- A readout (R307): destination ring and first entry, element format, format code, band scale, rounding mode, and
  per row and column the random bits of SR. -/
  | read (rb : Nat) (qa : Fin 16) (wp depth wp2 depth2 : Nat) (fmt fc band rm : Nat) (random : List (List (BitVec 32)))
  deriving DecidableEq, Repr

/-- A tile operation with the working cycle in which it takes effect. -/
structure TileFlight where
  due : Nat
  acc : Fin 8
  op : TileOp
  deriving DecidableEq, Repr

/-- A B buffer (R293): 128 rows and, per column, 64 scale containers of 16 bits. -/
structure BBuf where
  rows : Vector Vec 128
  scales : Vector (BitVec 1024) 128
  deriving DecidableEq, Repr

/-- The matrix unit and the transposer (R293, R308). -/
structure Matrix where
  acc : Vector (Vector (BitVec 4096) 128) 8
  buf0 : BBuf
  buf1 : BBuf
  actb : Bool
  xbuf : Vector Vec 128
  tiles : List TileFlight
  /-- Working cycle of the last MSTEP (R298). -/
  lastStep : Option Nat
  deriving DecidableEq, Repr

/-- An array of a core whose 8-byte words carry SEC-DED (R434). -/
inductive CoreArray where
  | acc | bBuffer | transposer | vreg | mask | ring | bank | shadowBank
  deriving DecidableEq, Repr

/-- A word of an array of a core with an error (R434): the array, the number of the word in it (DESIGN CHOICE, log 97), and whether the error is
uncorrectable. -/
structure Flaw where
  array : CoreArray
  word : Nat
  bad : Bool
  deriving DecidableEq, Repr

/-- Row-group state (R114), with the time (RTICK) at which its pending request was queued, whether that is an expiry write-back
(R118), the banks that have refreshed a row of it for the request, one entry a row (R29), whether a write-back has failed before (R464), and
the tick since which its write-back waits for a link (R501). -/
structure Group where
  age : Nat
  valid : Bool
  fresh : BitVec 32
  cls : Nat
  act : Nat
  owner : Nat
  pending : Bool
  since : Nat
  writeback : Bool
  served : List Nat
  failed : Bool
  held : Option Nat
  deriving DecidableEq, Repr

/-- A local memory (R26, R114): its bytes by offset in canonical form (an unlisted byte reads 0), and its row groups
by number (an unlisted group is invalid), its uncorrectable 8-byte words (R434, R435), and those with one bit wrong, which a
read corrects (R434). -/
structure Local where
  cells : List Host.Cell
  groups : Tbl Group
  bad : List Nat
  weak : List Nat
  /-- Reserved cycles in which each bank was not free for its scrub (R29, R436); an unlisted one has 0. -/
  missed : Tbl Nat
  deriving DecidableEq, Repr

/-- A region descriptor (R106). -/
structure Region where
  valid : Bool
  commons : Bool
  base : Nat
  size : Nat
  cls : Nat
  act : Nat
  span : Nat
  mapped : Bool
  mapva : Nat
  deriving DecidableEq, Repr

/-- One furrow record, expanded fields (R79): DUR, SLACK and REP as counts. -/
structure Furrow where
  dur : Nat
  slack : Nat
  rep : Nat
  slots : Nat
  cshare : Nat
  ixe : Bool
  mesh : Nat
  mshare : Nat
  frd : Nat
  fwr : Nat
  crd : Nat
  cwr : Nat
  eq : Nat
  deriving DecidableEq, Repr

/-- A pipe record of an image (R230). -/
structure PipeRec where
  num : Nat
  recv : Bool
  scope : Nat
  size : Nat
  depth : Nat
  worst : Nat
  deriving DecidableEq, Repr

/-- A task image as the loader reads it (R229, R230). -/
structure Image where
  flags : Nat
  usem : Double
  teamSize : Nat
  gangRole : Nat
  fmtInit : Double
  vctlInit : BitVec 4
  vseedInit : BitVec 32
  rings : List (Nat × Nat × Nat)
  furrows : List Furrow
  regions : List Region
  pipes : List PipeRec
  headlands : List Nat
  /-- Barrier number and EXP. -/
  barriers : List (Nat × Nat)
  /-- Region index, offset, bytes. -/
  data : List (Nat × Nat × List Byte)
  code : List Byte
  deriving DecidableEq, Repr

/-- What a slot's access to one row of one bank does (R245, R285-R288). -/
inductive RowAct where
  /-- A load: its number among the loads of the bundle, and the parts that it reads: local address, length, and byte place in the result. -/
  | load (k : Nat) (parts : List (Nat × Nat × Nat))
  /-- A store: the parts that it writes: local address, bytes, and the number of the whole-row write that it belongs to (0 for a partial
  write). -/
  | store (parts : List (Nat × List Byte × Nat))
  deriving DecidableEq, Repr

/-- An access of a core's slot that its bank's port has not served (R30): whether it is to the commons, its bank and row in the bank, the
instant since which it waits, the number of its operation among the bundle's, ascending in slot order, and what it does once it is served. -/
structure PortWait where
  commons : Bool
  bank : Nat
  row : Nat
  since : Nat
  op : Nat
  act : RowAct
  deriving DecidableEq, Repr

/-- An access that takes its bank's write port. -/
def PortWait.write (w : PortWait) : Bool :=
  match w.act with
  | .load _ _ => false
  | .store _ => true

/-- Where a command stands (R317). -/
inductive CmdState where
  /-- In its queue, not accepted. -/
  | queued
  /-- Accepted; its accesses are performed at the instant `due` (DESIGN CHOICE, log 6). -/
  | accepted (due : Nat)
  /-- A WAITA whose monitor is armed (R180). -/
  | armed
  /-- A PSEND, PRECV or TBAR that waits for room, a record or a generation (R339, R340, R342). -/
  | waiting
  /-- Waiting for the service of a page fault on the page of `va` (R140). -/
  | fault (va : Nat)
  /-- Waiting, with its first attempt in the tick `since`, for a module that no path reaches, or for the CXL link (R500, R501). -/
  | link (since : Nat) (peer : Bool)
  deriving DecidableEq, Repr

/-- A command in an engine's queue (R316, R317), with the registers and the descriptor as they stood before its bundle.
A FENCE stands in the queue as a join and takes no entry (R368). -/
structure Command where
  id : Nat
  op : Instr
  ctx : Nat
  a : Double
  b : Double
  c : Double
  desc : Vector Double 4
  bar : Option (Fin 16)
  weight : Nat
  state : CmdState
  /-- Doubles of the slot P read at acceptance (R332, R334); for a woken WAITA, status and value (R336). -/
  slot : List Nat
  /-- The index list read at acceptance (R327). -/
  index : List Nat
  /-- Steps performed, and the bytes read but not yet written (R140, R174). -/
  done : Nat
  buf : List Byte
  /-- The tick in which the access that waits for a link was first tried (R500). -/
  tried : Option Nat
  /-- The core's bundles when it issued, and local bytes as they stood before the stores of its own bundle, which it does not see (R166). -/
  born : Nat
  hidden : List Host.Cell
  /-- An IX command that has started (R352). -/
  started : Bool
  /-- The refill of a rollback (R375). -/
  refill : Bool
  /-- To be withdrawn: the command of an instance or context that has ended (R439, R474). -/
  killed : Bool
  deriving DecidableEq, Repr

/-- A cached translation (R138): context, first byte and size of the page, its leaf entry, and whether its parity fails (R434). -/
structure Xlat where
  ctx : Nat
  base : Nat
  size : Nat
  leaf : Nat
  bad : Bool
  deriving DecidableEq, Repr

/-- An entry of a walk cache (R138): context, level, address bits above the level's index, the table entry, and whether its parity
fails (R434). -/
structure WalkItem where
  ctx : Nat
  level : Nat
  tag : Nat
  entry : Nat
  bad : Bool
  deriving DecidableEq, Repr

/-- A request posted to the cluster controller (R376). -/
structure Request where
  core : Nat
  op : Fin 5
  blk : Nat
  bar : Fin 16
  /-- The page that it waits for, and whether that page holds an image; pages of its images that were declared unresolvable (R490, R491). -/
  on : Option (Nat × Bool)
  given : List Nat
  deriving DecidableEq, Repr

/-- A turn checkpoint (R374). -/
structure Turn where
  pc : Nat
  s : Vector Double 64
  p : Vector Bool 16
  loops : List Loop
  lc : Vector (BitVec 32) 4
  ps : Vector Bool 8
  latch : Vector (Option Nat) 7
  inc : Option Nat
  vctl : BitVec 4
  vseed : BitVec 32
  lfsr : Vector (BitVec 32) 128
  desc : Vector (Vector Double 4) 16
  exps : List Nat
  refill : Vector Double 4
  base : Nat
  len : Nat
  bar : Fin 16
  engine : Fin 2
  /-- Times that it has been rolled back (R438). -/
  rolled : Nat
  deriving DecidableEq, Repr

/-- Why a core has stopped issuing and is draining (R50, R62, R375, R439, R449). -/
inductive Stop where
  | preempt | cancel | rollback | sibling (core : Nat) | contextEnd | exit
  deriving DecidableEq, Repr

/-- The scalar unit (R238, R251). -/
structure Scalar where
  s : Vector Double 64
  p : Vector Bool 16
  lc : Vector (BitVec 32) 4
  ps : Vector Bool 8
  loops : List Loop
  deriving DecidableEq, Repr

/-- The vector units (R195, R265). -/
structure VecUnit where
  v : Vector Vec 32
  m : Vector Mask 8
  lfsr : Vector (BitVec 32) 128
  deriving DecidableEq, Repr

/-- The control registers that have storage of their own (R366, R367, R445). -/
structure Csrs where
  ctxId : BitVec 12
  teamRank : BitVec 6
  teamSize : BitVec 7
  launchIdx : BitVec 24
  capm : Double
  usem : Double
  fmt : Double
  vctl : BitVec 4
  vstat : BitVec 6
  vseed : BitVec 32
  trapCause : Double
  trapPc : Double
  trapAddr : Double
  trapSrc : Double
  dbgBe : Bool
  chsel : BitVec 9
  refcnt : Double
  slackCnt : Double
  ovrCnt : Double
  replayCnt : Double
  turnCnt : Double
  turnRb : Double
  deriving DecidableEq, Repr

/-- The sequencer (R20, R21, R215, R251) and the core's place in the schedule (R51, R56, R369, R370). -/
structure Seq where
  mode : Mode
  /-- Released: it is RUNNING from the next working cycle on (R52, R54). -/
  starts : Bool
  /-- The shadow bank holds a staged next task (R51). -/
  shadow : Bool
  pc : Nat
  code : List Byte
  codeLen : Nat
  shCode : List Byte
  shLen : Nat
  latch : Vector (Option Nat) 7
  /-- The increment state (R215). -/
  inc : Option Nat
  /-- Address of the last bundle that committed (R447). -/
  last : Nat
  /-- Working cycles since the core left IDLE (R28). -/
  wc : Nat
  /-- The working cycle before which no bundle issues (R249, R247). -/
  busy : Nat
  /-- The working cycle in which the last bundle completes (R30, R247). -/
  complete : Nat
  /-- Bundles committed. -/
  epoch : Nat
  /-- Index of the current furrow in the expanded profile (R367). -/
  furrow : Nat
  /-- The barrier of the headland the core is at (R369). -/
  wait : Option (Fin 16)
  /-- The anchor of the next furrow, once the headland has resolved (R59, R83), and the tick of resolution of a slipped
  headland (R96). -/
  anchor : Option Nat
  slipped : Option Nat
  /-- The tick before which no bundle issues (R370), when a WAITT is waiting. -/
  waitt : Option Nat
  /-- Ticks of the present furrow already run (R68), and overruns of it (R98). -/
  ranTicks : Nat
  overruns : Nat
  /-- Extension ticks left after an overrun, and the slack renewed by one (R98). -/
  ext : Nat
  renewed : Option Nat
  stop : Option Stop
  deriving DecidableEq, Repr

/-- A core. -/
structure Core where
  seq : Seq
  x : Scalar
  vec : VecUnit
  rings : Vector Ring 16
  bars : Vector Barrier 16
  desc : Vector (Vector Double 4) 16
  mat : Matrix
  csr : Csrs
  rgn : Vector Region 16
  field : Local
  /-- Results in flight, in issue order (R239, R240). -/
  flight : List Landing
  /-- Accesses of the last bundle that no port has served yet, and the results of its loads, whose latency counts from its completion
  (R30, R247). -/
  unserved : List PortWait
  loads : List Landing
  /-- The queues of C0 and C1 (R316). -/
  queue0 : List Command
  queue1 : List Command
  nextCmd : Nat
  /-- Working cycles of the present tick in which C0 and C1 have accessed the core's field (R86). -/
  copied : Nat
  /-- The handles the core holds (R377). -/
  handles : List Nat
  /-- Handles of the core whose bookings have lapsed (R377). -/
  lapsed : List Nat
  turn : Option Turn
  /-- Rollback in progress (R375): the refill barrier whose satisfaction restarts the core, and whether the core was at a
  headland. -/
  rollback : Option (Fin 16 × Bool)
  /-- Image of the running task and of the staged one. -/
  image : Option Image
  shImage : Option Image
  /-- The team instance the core belongs to. -/
  team : Option Nat
  /-- The L1 TLB, oldest fill first (R24, R138). -/
  tlb : List Xlat
  /-- Pipes whose send side the member has closed (R341). -/
  closed : List Nat
  /-- Words of the core's arrays with an error (R434). -/
  flaws : List Flaw
  /-- The working cycle before which a replay at a bank of the field holds the slots' accesses to it, and the loads of the bundle that completed last, as
  they went in flight (R430). -/
  portHold : Nat
  sentLoads : List Landing
  deriving DecidableEq, Repr

/-! ### A core at reset. Where the spec gives no reset value, R55's value at release stands (DESIGN CHOICE, log 4). -/

/-- A ring at reset: the default record of R235. -/
def Ring.init : Ring :=
  { depth := 8, rt := 1, wt := 1, rp := 0, wp := 0, h := 0, st := Vector.replicate 8 .empty,
    data := Vector.replicate 8 0, sw := 0, sr := 0 }

/-- A barrier at reset (R366, R367). -/
def Barrier.init : Barrier := { pend := 0, exp := 0, cnt := 0, err := 0, ovf := false }

/-- A row group that is not held (R114). -/
def Group.init : Group :=
  { age := 0, valid := false, fresh := 0, cls := 0, act := 0, owner := 0, pending := false, since := 0, writeback := false,
    served := [], failed := false, held := none }

/-- An invalid region descriptor (R366). -/
def Region.init : Region :=
  { valid := false, commons := false, base := 0, size := 0, cls := 0, act := 0, span := 0, mapped := false, mapva := 0 }

/-- One repetition of an LFSR step (R195). -/
def lfsrShift (s : BitVec 32) : BitVec 32 := if s.getLsbD 0 then (s >>> 1) ^^^ 0x80200003 else s >>> 1

/-- State of lane L of unit u, numbered 64u + L, after a write of VSEED (R195). -/
def lfsrSeed (seed : BitVec 32) (k : Nat) : BitVec 32 :=
  let v := seed ^^^ (0x9E3779B9 * BitVec.ofNat 32 (k + 1))
  if v = 0 then 1 else v

/-- All 128 lanes after a write of VSEED (R195). -/
def lfsrAll (seed : BitVec 32) : Vector (BitVec 32) 128 :=
  Vector.mk ((List.range 128).map (lfsrSeed seed)).toArray (by simp)

def Scalar.init : Scalar :=
  { s := Vector.replicate 64 0, p := Vector.replicate 16 false, lc := Vector.replicate 4 0,
    ps := Vector.replicate 8 true, loops := [] }

def VecUnit.init : VecUnit :=
  { v := Vector.replicate 32 0, m := Vector.replicate 8 0, lfsr := lfsrAll 1 }

def BBuf.init : BBuf := { rows := Vector.replicate 128 0, scales := Vector.replicate 128 0 }

def Matrix.init : Matrix :=
  { acc := Vector.replicate 8 (Vector.replicate 128 0), buf0 := BBuf.init, buf1 := BBuf.init, actb := false,
    xbuf := Vector.replicate 128 0, tiles := [], lastStep := none }

/-- The classes of R226: the bits that CAPM of a core with every unit has set (DESIGN CHOICE, log 2). -/
def allClasses : Double := 0x0FFF03FF3F1FFFFF

def Csrs.init : Csrs :=
  { ctxId := 0, teamRank := 0, teamSize := 1, launchIdx := 0, capm := allClasses, usem := 0, fmt := 0, vctl := 0,
    vstat := 0, vseed := 1, trapCause := 0, trapPc := 0, trapAddr := 0, trapSrc := 0, dbgBe := false, chsel := 0,
    refcnt := 0, slackCnt := 0, ovrCnt := 0, replayCnt := 0, turnCnt := 0, turnRb := 0 }

def Seq.init : Seq :=
  { mode := .idle, starts := false, shadow := false, pc := 0, code := [], codeLen := 0, shCode := [], shLen := 0,
    latch := Vector.replicate 7 none, inc := none, last := 0, wc := 0, busy := 0, complete := 0, epoch := 0, furrow := 0, wait := none,
    anchor := none, slipped := none, waitt := none, ranTicks := 0, overruns := 0, ext := 0, renewed := none, stop := none }

def Local.init : Local := { cells := [], groups := [], bad := [], weak := [], missed := [] }

/-- A core after module reset. -/
def Core.init : Core :=
  { seq := Seq.init, x := Scalar.init, vec := VecUnit.init, rings := Vector.replicate 16 Ring.init,
    bars := Vector.replicate 16 Barrier.init, desc := Vector.replicate 16 (Vector.replicate 4 0), mat := Matrix.init,
    csr := Csrs.init, rgn := Vector.replicate 16 Region.init, field := Local.init, flight := [], unserved := [], loads := [], queue0 := [],
    queue1 := [], nextCmd := 0, copied := 0, handles := [], lapsed := [], turn := none, rollback := none, image := none,
    shImage := none, team := none, tlb := [], closed := [], flaws := [], portHold := 0, sentLoads := [] }

end Sys2Proof.Machine
end

