-- ==== Sys2Proof/Machine/Table.lean ====
section
/-! DEFINITION. Tables keyed by number, and memories as lists of (address, byte) in one canonical form: addresses
strictly rising, no byte equal to 0, which is what an unlisted address reads as (DESIGN CHOICE, log 1). -/

namespace Sys2Proof.Machine

/-! ### Tables -/

/-- Entry `k` of a table, or `d` when the table does not list it. -/
def tget {α : Type} (d : α) : Tbl α → Nat → α
  | [], _ => d
  | (j, v) :: rest, k => if j = k then v else tget d rest k

/-- The table with entry `k` set; keys stay in rising order. -/
def tset {α : Type} : Tbl α → Nat → α → Tbl α
  | [], k, v => [(k, v)]
  | (j, w) :: rest, k, v =>
    if j = k then (k, v) :: rest
    else if k < j then (k, v) :: (j, w) :: rest
    else (j, w) :: tset rest k v

/-- The table without entry `k`. -/
def tdel {α : Type} : Tbl α → Nat → Tbl α
  | [], _ => []
  | (j, w) :: rest, k => if j = k then rest else (j, w) :: tdel rest k

/-- Entry `k` when the table lists it. -/
def tfind {α : Type} : Tbl α → Nat → Option α
  | [], _ => none
  | (j, v) :: rest, k => if j = k then some v else tfind rest k

/-- Every entry of a table changed. -/
def tmap {α β : Type} (f : Nat → α → β) : Tbl α → Tbl β
  | [] => []
  | (j, v) :: rest => (j, f j v) :: tmap f rest

/-- A list in rising order of a key; equal keys keep their order. -/
def insertKey {α : Type} (f : α → Nat) (x : α) : List α → List α
  | [] => [x]
  | y :: rest => if f x < f y then x :: y :: rest else y :: insertKey f x rest

def sortKey {α : Type} (f : α → Nat) (l : List α) : List α := l.foldl (fun r x => insertKey f x r) []

/-! ### Bytes of a memory -/

/-- What a byte that nothing has written reads as (DESIGN CHOICE, log 1). -/
def unlisted : Byte := 0

/-- One byte. -/
def readByte : List Host.Cell → Nat → Byte
  | [], _ => unlisted
  | (j, b) :: rest, a => if j = a then b else readByte rest a

/-- The memory with one byte written, in canonical form. -/
def writeByte : List Host.Cell → Nat → Byte → List Host.Cell
  | [], a, b => if b = unlisted then [] else [(a, b)]
  | (j, c) :: rest, a, b =>
    if j = a then (if b = unlisted then rest else (a, b) :: rest)
    else if a < j then (if b = unlisted then (j, c) :: rest else (a, b) :: (j, c) :: rest)
    else (j, c) :: writeByte rest a b

/-- Canonical form from address `lo` on. -/
def memWfFrom : Nat → List Host.Cell → Bool
  | _, [] => true
  | lo, (a, b) :: rest => decide (lo ≤ a) && decide (b ≠ unlisted) && memWfFrom (a + 1) rest

/-- Canonical form: addresses strictly rising and no listed byte equal to an unlisted one. -/
def memWf (m : List Host.Cell) : Bool := memWfFrom 0 m

/-- `n` bytes from address `a`, lowest first. -/
def readBytes (m : List Host.Cell) (a : Nat) : Nat → List Byte
  | 0 => []
  | n + 1 => readByte m a :: readBytes m (a + 1) n

/-- The memory with a list of bytes written from address `a` on. -/
def writeBytes (m : List Host.Cell) (a : Nat) : List Byte → List Host.Cell
  | [] => m
  | b :: bs => writeBytes (writeByte m a b) (a + 1) bs

/-- Little-endian number in a list of bytes (R7). -/
def natOfBytes : List Byte → Nat
  | [] => 0
  | b :: bs => b.toNat + 256 * natOfBytes bs

/-- The low `n` bytes of a number, lowest first (R7). -/
def bytesOfNat : Nat → Nat → List Byte
  | 0, _ => []
  | n + 1, w => BitVec.ofNat 8 w :: bytesOfNat n (w / 256)

/-- An `n`-byte little-endian number in memory (R7). -/
def readNat (m : List Host.Cell) (a n : Nat) : Nat := natOfBytes (readBytes m a n)

/-- An `n`-byte little-endian number written to memory (R7). -/
def writeNat (m : List Host.Cell) (a n w : Nat) : List Host.Cell := writeBytes m a (bytesOfNat n w)

/-- Every byte from `a` on, `n` of them, written as 0. -/
def clearBytes (m : List Host.Cell) (a n : Nat) : List Host.Cell :=
  m.filter (fun c => decide (c.1 < a) || decide (a + n ≤ c.1))

/-- The bits `hi` to `lo` of a number (R6). -/
def bits (w hi lo : Nat) : Nat := w / 2 ^ lo % 2 ^ (hi + 1 - lo)

/-- Bit `k` of a number. -/
def bit (w k : Nat) : Bool := w / 2 ^ k % 2 == 1

/-- Element `k` of a list of numbers; 0 past its end. -/
def nth (l : List Nat) (k : Nat) : Nat := l.getD k 0

end Sys2Proof.Machine
end

