-- ==== Sys2Proof/Machine/Lanes.lean ====
section
/-! DEFINITION. Elements of vectors and rows (R266, R186), and the operations on an accumulator tile (R201-R204,
R302-R307). -/

namespace Sys2Proof.Machine

/-- Element `e` of `w` bits of a number (R266). -/
def el (x w e : Nat) : Nat := x / 2 ^ (w * e) % 2 ^ w

/-- A number from its elements of `w` bits, element 0 lowest (R266). -/
def unel (w : Nat) : List Nat → Nat
  | [] => 0
  | x :: xs => x % 2 ^ w + 2 ^ w * unel w xs

/-- A vector from its elements. -/
def vecOf (w : Nat) (l : List Nat) : Vec := BitVec.ofNat 2048 (unel w l)

/-- The first `n` elements of a number. -/
def els (x w n : Nat) : List Nat := (List.range n).map (el x w)

/-- The bits of the elements that `en` selects, of `n` elements. -/
def bitsOf (w n : Nat) (en : Nat → Bool) : Vec :=
  vecOf w ((List.range n).map (fun e => if en e then 2 ^ w - 1 else 0))

/-- Every bit of a vector. -/
def allBits : Vec := BitVec.allOnes 2048

/-- `old` with the bits of `mask` taken from `new`. -/
def merge (old new mask : Vec) : Vec := (old &&& ~~~mask) ||| (new &&& mask)

/-! ### Matrix arithmetic -/

/-- Matrix formats by code (R222): element format of A and B. -/
def matFmt (fc : Nat) : Fmt :=
  match fc with
  | 0 => .bf16 | 1 => .fp16 | 2 => .e4m3 | 3 => .e5m2 | 4 => .e4m3 | 5 => .e5m2 | 6 => .e2m1 | _ => .i8

/-- Step depth D (R294). -/
def matDepth (fc : Nat) : Nat :=
  match fc with
  | 0 => 128 | 1 => 128 | 6 => 512 | _ => 256

/-- Scaled formats (R294). -/
def matScaled (fc : Nat) : Bool := fc == 4 || fc == 5 || fc == 6

/-- Scale entries read from qs (R294). -/
def matScaleEntries (fc : Nat) : Nat := if fc == 6 then 4 else if fc == 4 || fc == 5 then 1 else 0

/-- Fraction bits of the exact adder of a matrix step (R201): below the last place of any finite term. -/
def adderBits : Nat := 700

/-- An exact finite value in units of 2^−adderBits. -/
def toAdder : Exact → Int
  | .fin neg n d => if neg then -((n * 2 ^ adderBits / d : Nat) : Int) else ((n * 2 ^ adderBits / d : Nat) : Int)
  | _ => 0

/-- The exact sum of the terms of a group, and NV (R201, R202). -/
def groupSum (terms : List (Exact × Flags)) : Exact × Flags :=
  let flags := terms.foldl (fun f t => f ||| t.2) 0
  let hasInf := fun (neg : Bool) => terms.any (fun t => match t.1 with | .inf s => s == neg | _ => false)
  let both := hasInf true && hasInf false
  let flags := if both then flags ||| flagNV else flags
  if both || terms.any (fun t => t.1.isNan) then (.nan, flags)
  else if hasInf true then (.inf true, flags)
  else if hasInf false then (.inf false, flags)
  else
    let t := terms.foldl (fun (acc : Int) t => acc + toAdder t.1) 0
    (.fin (decide (t < 0)) t.natAbs (2 ^ adderBits), flags)

/-- The scale value of a container by format code (R188, R189). -/
def scaleValue (fc container : Nat) : Exact := if fc == 6 then e4m5Value container else e8m0Value container

/-- The term k of a group for an unscaled or scaled format (R201). -/
def groupTerm (fc a b : Nat) (sa sb : Nat → Nat) (k : Nat) : Exact × Flags :=
  let f := matFmt fc
  let p := Exact.mul (valueOf f (el a f.bits k)) (valueOf f (el b f.bits k))
  if matScaled fc then
    let blk := if fc == 6 then k / 8 else k / 32
    let s := Exact.mul (scaleValue fc (sa blk)) (scaleValue fc (sb blk))
    let r := Exact.mul p.1 s.1
    (r.1, p.2)
  else p

/-- One element of a step (R201-R203): the accumulator element after all groups, and the flags NV and OF. -/
def stepElem (fc a b : Nat) (sa sb : Nat → Nat) (acc : Nat) : Nat × Flags :=
  if fc == 7 then
    let t := (List.range 256).foldl (fun (t : Int) k => t + signedOf 8 (el a 8 k) * signedOf 8 (el b 8 k)) 0
    (wrapTo 32 (signedOf 32 acc + t), 0)
  else
    (List.range (matDepth fc / 32)).foldl
      (fun (st : Nat × Flags) g =>
        let t := groupSum ((List.range 32).map (fun j => groupTerm fc a b sa sb (32 * g + j)))
        let s := roundTo .fp32 t.1 .rne
        let x := Exact.add false (floatValue .fp32 st.1) (floatValue .fp32 s.1)
        let r := roundTo .fp32 x.1 .rne
        (r.1, st.2 ||| t.2 ||| x.2 ||| ((s.2 ||| r.2) &&& flagOF)))
      (acc, 0)

/-- One row of 128 elements after a step. -/
def stepRow (fc a : Nat) (sa : Nat → Nat) (b : List Vec) (sb : List (BitVec 1024)) (acc : BitVec 4096) :
    BitVec 4096 × Flags :=
  let r := (List.range 128).map (fun j =>
    stepElem fc a (b.getD j 0).toNat sa (fun blk => el (sb.getD j 0).toNat 16 blk) (el acc.toNat 32 j))
  (BitVec.ofNat 4096 (unel 32 (r.map Prod.fst)), r.foldl (fun f x => f ||| x.2) 0)

/-- The 32-bit element that MWR writes for an element code (R305). -/
def mwrElem (f : Fmt) (code : Nat) : Nat :=
  if f.isInt then wrapTo 32 (signedOf f.bits code) else (roundTo .fp32 (floatValue f code) .rne).1

/-- The element of a bias, added to an accumulator element (R306); `beta` is in FP32 or i32. -/
def biasElem (int : Bool) (acc beta : Nat) : Nat :=
  if int then (acc + beta) % 2 ^ 32
  else (roundTo .fp32 (Exact.add false (floatValue .fp32 acc) (floatValue .fp32 beta)).1 .rne).1

/-- One element of a readout (R204, R307). -/
def readElem (f : Fmt) (fc band : Nat) (md : Round) (acc : Nat) : Nat × Flags :=
  if fc == 7 then roundTo f (.ofInt (signedOf 32 acc)) md
  else
    let v := floatValue .fp32 acc
    if fc == 6 then
      let p := Exact.mul v (floatValue .bf16 (band % 65536))
      let r := roundTo f p.1 md
      (r.1, r.2 ||| p.2)
    else roundTo f v md

/-- Entries and layout of 8 rows in rings (R304): the elements of one entry, from the rows' elements. -/
def rowEntries (w : Nat) (rows : List (List Nat)) : List Vec × List Vec :=
  if w == 32 then (rows.map (fun r => vecOf 32 (r.take 64)), rows.map (fun r => vecOf 32 (r.drop 64)))
  else if w == 16 then (rows.map (fun r => vecOf 16 r), [])
  else ((List.range 4).map (fun u => vecOf 8 (rows.getD (2 * u) [] ++ rows.getD (2 * u + 1) [])), [])

/-- The 8 rows of 128 elements that entries in the layout of R304 hold; `one` repeats entry 0 for every row (MBIAS). -/
def rowsOfEntries (w : Nat) (lo hi : Nat → Vec) (one : Bool) : List (List Nat) :=
  (List.range 8).map (fun r =>
    let r := if one then 0 else r
    if w == 32 then els (lo r).toNat 32 64 ++ els (hi r).toNat 32 64
    else if w == 16 then els (lo r).toNat 16 128
    else (List.range 128).map (fun j => el (lo (r / 2)).toNat 8 (128 * (r % 2) + j)))

end Sys2Proof.Machine
end

