-- ==== Sys2Proof/Machine/Names.lean ====
section
/-! DEFINITION. What a slot operation names, as tables over `Instr`: its guard (R221), its opcode class and format
classes (R226, R227), its destinations (R218), and its operand specifiers (R220). -/

namespace Sys2Proof

/-- The guard field of an operation (R221): 0-7 a mask, 8-15 a stage predicate; `none` where the op has none. -/
def Instr.guard : Instr → Option Nat
  | .radv _ _ _ g => some g.val
  | .vadd _ _ _ _ g => some g.val
  | .vsub _ _ _ _ g => some g.val
  | .vmul _ _ _ _ g => some g.val
  | .vfma _ _ _ _ g => some g.val
  | .vfms _ _ _ _ g => some g.val
  | .vfnma _ _ _ _ g => some g.val
  | .vmin _ _ _ _ g => some g.val
  | .vmax _ _ _ _ g => some g.val
  | .vabs _ _ _ g => some g.val
  | .vneg _ _ _ g => some g.val
  | .vrcp _ _ _ g => some g.val
  | .vrsq _ _ _ g => some g.val
  | .vsqrt _ _ _ g => some g.val
  | .vexp2 _ _ _ g => some g.val
  | .vlog2 _ _ _ g => some g.val
  | .vtanh _ _ _ g => some g.val
  | .viadd _ _ _ _ g => some g.val
  | .visub _ _ _ _ g => some g.val
  | .vimul _ _ _ _ g => some g.val
  | .vimulh _ _ _ _ g => some g.val
  | .viadds _ _ _ _ g => some g.val
  | .visubs _ _ _ _ g => some g.val
  | .vimin _ _ _ _ g => some g.val
  | .vimax _ _ _ _ g => some g.val
  | .viminn _ _ _ _ g => some g.val
  | .vimaxn _ _ _ _ g => some g.val
  | .vand _ _ _ _ g => some g.val
  | .vor _ _ _ _ g => some g.val
  | .vxor _ _ _ _ g => some g.val
  | .vshl _ _ _ _ g => some g.val
  | .vshr _ _ _ _ g => some g.val
  | .vsra _ _ _ _ g => some g.val
  | .vcmp _ _ _ _ _ g => some g.val
  | .vsel _ _ _ _ g => some g.val
  | .vcvt _ _ _ _ g => some g.val
  | .vqnt _ _ _ _ _ g => some g.val
  | .vdqnt _ _ _ _ _ g => some g.val
  | .vpack _ _ _ _ g => some g.val
  | .vunpk _ _ _ g => some g.val
  | .vmov _ _ _ g => some g.val
  | .vmovi _ _ _ g => some g.val
  | .vperm _ _ _ _ g => some g.val
  | .vshuf _ _ _ _ g => some g.val
  | .vrot _ _ _ _ g => some g.val
  | .vbcst _ _ _ g => some g.val
  | .vidx _ _ _ _ g => some g.val
  | .vins _ _ _ _ g => some g.val
  | .vrsum _ _ _ g => some g.val
  | .vrmax _ _ _ g => some g.val
  | .vrmin _ _ _ g => some g.val
  | .vscan _ _ _ g => some g.val
  | .vsort _ _ _ g => some g.val
  | .vld _ _ _ g => some g.val
  | .vst _ _ _ g => some g.val
  | .vlds _ _ _ _ g => some g.val
  | .vsts _ _ _ _ g => some g.val
  | .vgth _ _ _ _ g => some g.val
  | .vsct _ _ _ _ g => some g.val
  | .vldc _ _ _ g => some g.val
  | .vstc _ _ _ g => some g.val
  | .vcmpr _ _ _ g => some g.val
  | .vxpnd _ _ _ g => some g.val
  | .mldb _ _ _ _ _ g => some g.val
  | .mstep _ _ _ _ _ _ g _ => some g.val
  | .mzero _ g => some g.val
  | .mrd _ _ _ _ _ g _ _ => some g.val
  | .mwr _ _ _ g _ => some g.val
  | .mbias _ _ _ g _ => some g.val
  | .xput _ _ _ g => some g.val
  | .xget _ _ _ g => some g.val
  | .xclr g => some g.val
  | .cdset g _ _ _ => some g.val
  | .cget g _ _ _ _ _ _ _ _ _ _ => some g.val
  | .cput g _ _ _ _ _ _ _ _ _ _ => some g.val
  | .cxfer g _ _ _ _ _ _ _ _ => some g.val
  | .cfill g _ _ _ _ _ _ _ _ _ => some g.val
  | .ctouch g _ _ _ _ _ _ => some g.val
  | .cflush g _ _ _ _ _ _ => some g.val
  | .cmap g _ _ _ _ _ => some g.val
  | .cmigr g _ _ _ _ _ _ _ => some g.val
  | .cpfx g _ _ _ => some g.val
  | .aadd g _ _ _ _ _ _ _ _ => some g.val
  | .afadd g _ _ _ _ _ _ _ _ => some g.val
  | .aand g _ _ _ _ _ _ _ _ => some g.val
  | .aor g _ _ _ _ _ _ _ _ => some g.val
  | .axor g _ _ _ _ _ _ _ _ => some g.val
  | .amin g _ _ _ _ _ _ _ _ => some g.val
  | .amax g _ _ _ _ _ _ _ _ => some g.val
  | .aminn g _ _ _ _ _ _ _ _ => some g.val
  | .amaxn g _ _ _ _ _ _ _ _ => some g.val
  | .axchg g _ _ _ _ _ _ _ _ => some g.val
  | .acas g _ _ _ _ _ _ _ _ => some g.val
  | .adecp g _ _ _ _ _ _ _ _ => some g.val
  | .adcas g _ _ _ _ _ _ _ _ => some g.val
  | .amove g _ _ _ _ _ _ _ _ => some g.val
  | .ared g _ _ _ _ _ _ => some g.val
  | .waita g _ _ _ _ _ _ _ _ => some g.val
  | .wake g _ _ _ _ _ _ _ => some g.val
  | .psend g _ _ _ _ _ _ _ => some g.val
  | .precv g _ _ _ _ _ _ _ => some g.val
  | .pclose g _ _ => some g.val
  | .tbar g _ _ _ _ => some g.val
  | .barsig g _ _ _ => some g.val
  | .barset g _ _ => some g.val
  | .ixopen g _ _ _ _ => some g.val
  | .ixlist g _ _ _ _ _ _ _ => some g.val
  | .ixand g _ _ _ => some g.val
  | .ixor g _ _ _ => some g.val
  | .ixscore g _ _ _ => some g.val
  | .ixvec g _ _ _ _ _ _ => some g.val
  | .ixtopk g _ _ => some g.val
  | .ixdrain g _ _ _ _ _ _ => some g.val
  | .ixclose g _ _ => some g.val
  | _ => none

/-- The format class of a vector fmt3 code (R226, R269). -/
def fmtClass (f : Nat) : Nat := if f ≤ 4 then 24 + f else 29

/-- The classes an operation belongs to (R226, R227, R269). The class of an MSTEP depends on the selected format and is checked with it. -/
def Instr.classes : Instr → List Nat
  | .add _ _ _ => [0]
  | .sub _ _ _ => [0]
  | .mul _ _ _ => [1]
  | .mulh _ _ _ => [1]
  | .mulhn _ _ _ => [1]
  | .div _ _ _ => [1]
  | .divn _ _ _ => [1]
  | .rem _ _ _ => [1]
  | .remn _ _ _ => [1]
  | .and _ _ _ => [0]
  | .or _ _ _ => [0]
  | .xor _ _ _ => [0]
  | .shl _ _ _ => [0]
  | .shr _ _ _ => [0]
  | .sra _ _ _ => [0]
  | .min _ _ _ => [0]
  | .max _ _ _ => [0]
  | .minn _ _ _ => [0]
  | .maxn _ _ _ => [0]
  | .clz _ _ => [0]
  | .popc _ _ => [0]
  | .sel _ _ _ _ => [0]
  | .cmp _ _ _ _ => [2]
  | .pand _ _ _ => [2]
  | .por _ _ _ => [2]
  | .pxor _ _ _ => [2]
  | .pnot _ _ => [2]
  | .jr _ _ => [4]
  | .ret _ => [4]
  | .addi _ _ _ => [0]
  | .andi _ _ _ => [0]
  | .ori _ _ _ => [0]
  | .xori _ _ _ => [0]
  | .shli _ _ _ => [0]
  | .shri _ _ _ => [0]
  | .srai _ _ _ => [0]
  | .cmpi _ _ _ _ => [2]
  | .lih _ _ => [0]
  | .br _ => [4]
  | .brc _ _ _ => [4]
  | .call _ => [4]
  | .loop _ _ _ _ => [5]
  | .loopi _ _ _ _ => [5]
  | .lexit _ => [5]
  | .ld _ _ _ _ => [3]
  | .st _ _ _ _ => [3]
  | .ldc _ _ _ _ => [3]
  | .stc _ _ _ _ => [3]
  | .csrr _ _ => [7]
  | .csrw _ _ _ _ => [7]
  | .csrs _ _ _ _ => [7]
  | .csrc _ _ _ _ => [7]
  | .radv _ _ _ _ => [6]
  | .rcfg _ _ _ _ => [6]
  | .rfill _ _ => [6]
  | .fence _ _ _ => [7]
  | .waitb _ => [7]
  | .waitt _ => [7]
  | .trap _ => [7]
  | .brkpt _ => [7]
  | .exit => [7]
  | .turn _ _ => [7]
  | .yield => [7]
  | .book _ _ _ => [8]
  | .unbook _ _ _ => [8]
  | .bqry _ _ _ => [8]
  | .spawn _ _ _ => [8]
  | .cancel _ _ _ => [8]
  | .vadd _ _ _ f _ => [9, fmtClass f.val]
  | .vsub _ _ _ f _ => [9, fmtClass f.val]
  | .vmul _ _ _ f _ => [10, fmtClass f.val]
  | .vfma _ _ _ f _ => [10, fmtClass f.val]
  | .vfms _ _ _ f _ => [10, fmtClass f.val]
  | .vfnma _ _ _ f _ => [10, fmtClass f.val]
  | .vmin _ _ _ f _ => [9, fmtClass f.val]
  | .vmax _ _ _ f _ => [9, fmtClass f.val]
  | .vabs _ _ f _ => [9, fmtClass f.val]
  | .vneg _ _ f _ => [9, fmtClass f.val]
  | .vrcp _ _ f _ => [11, fmtClass f.val]
  | .vrsq _ _ f _ => [11, fmtClass f.val]
  | .vsqrt _ _ f _ => [11, fmtClass f.val]
  | .vexp2 _ _ f _ => [11, fmtClass f.val]
  | .vlog2 _ _ f _ => [11, fmtClass f.val]
  | .vtanh _ _ f _ => [11, fmtClass f.val]
  | .viadd _ _ _ f _ => [12, fmtClass f.val]
  | .visub _ _ _ f _ => [12, fmtClass f.val]
  | .vimul _ _ _ f _ => [12, fmtClass f.val]
  | .vimulh _ _ _ f _ => [12, fmtClass f.val]
  | .viadds _ _ _ f _ => [12, fmtClass f.val]
  | .visubs _ _ _ f _ => [12, fmtClass f.val]
  | .vimin _ _ _ f _ => [12, fmtClass f.val]
  | .vimax _ _ _ f _ => [12, fmtClass f.val]
  | .viminn _ _ _ f _ => [12, fmtClass f.val]
  | .vimaxn _ _ _ f _ => [12, fmtClass f.val]
  | .vand _ _ _ f _ => [12, fmtClass f.val]
  | .vor _ _ _ f _ => [12, fmtClass f.val]
  | .vxor _ _ _ f _ => [12, fmtClass f.val]
  | .vshl _ _ _ f _ => [12, fmtClass f.val]
  | .vshr _ _ _ f _ => [12, fmtClass f.val]
  | .vsra _ _ _ f _ => [12, fmtClass f.val]
  | .vcmp _ _ _ _ f _ => [13, fmtClass f.val]
  | .vsel _ _ _ f _ => [13, fmtClass f.val]
  | .vmand _ _ _ => [13]
  | .vmor _ _ _ => [13]
  | .vmxor _ _ _ => [13]
  | .vmnot _ _ => [13]
  | .vmpop _ _ => [13]
  | .vcvt _ _ f s _ => [14, fmtClass f.val, fmtClass s.val]
  | .vqnt _ _ f t _ _ => [15, fmtClass f.val] ++ (if t.val == 1 then [27] else if t.val == 2 then [28] else [])
  | .vdqnt _ _ f t _ _ => [15, fmtClass f.val] ++ (if t.val == 1 then [27] else if t.val == 2 then [28] else [])
  | .vpack _ _ _ f _ => [14, fmtClass f.val]
  | .vunpk _ _ f _ => [14, fmtClass f.val]
  | .vmov _ _ f _ => [16, fmtClass f.val]
  | .vmovi _ f _ _ => [16, fmtClass f.val]
  | .vperm _ _ _ f _ => [16, fmtClass f.val]
  | .vshuf _ _ f _ _ => [16, fmtClass f.val]
  | .vrot _ _ f _ _ => [16, fmtClass f.val]
  | .vbcst _ _ _ _ => [16]
  | .vidx _ _ _ _ _ => [16]
  | .vins _ _ _ _ _ => [16]
  | .vext _ _ _ _ => [16]
  | .vrsum _ _ f _ => [17, fmtClass f.val]
  | .vrmax _ _ f _ => [17, fmtClass f.val]
  | .vrmin _ _ f _ => [17, fmtClass f.val]
  | .vscan _ _ f _ => [17, fmtClass f.val]
  | .vsort _ _ f _ => [18, fmtClass f.val]
  | .vld _ _ _ _ => [19]
  | .vst _ _ _ _ => [19]
  | .vlds _ _ _ _ _ => [19]
  | .vsts _ _ _ _ _ => [19]
  | .vgth _ _ _ f _ => [19, fmtClass f.val]
  | .vsct _ _ _ f _ => [19, fmtClass f.val]
  | .vldc _ _ _ _ => [19]
  | .vstc _ _ _ _ => [19]
  | .vcmpr _ _ f _ => [20, fmtClass f.val]
  | .vcmprFlush _ f => [20, fmtClass f.val]
  | .vxpnd _ _ f _ => [20, fmtClass f.val]
  | .vxpndDrop _ f => [20, fmtClass f.val]
  | .mldb _ _ _ _ _ _ => [32]
  | .mstep _ _ _ _ _ _ _ _ => []
  | .mzero _ _ => [32]
  | .mrd _ _ _ _ _ _ _ _ => [32]
  | .mwr _ _ _ _ _ => [32]
  | .mbias _ _ _ _ _ => [32]
  | .xput _ _ _ _ => [41]
  | .xget _ _ _ _ => [41]
  | .xclr _ => [41]
  | .cdset _ _ _ _ => [48]
  | .cget _ _ _ _ _ x _ _ _ _ _ => if x.val == 0 then [48] else [48, 51]
  | .cput _ _ _ _ _ x _ _ _ _ _ => if x.val == 0 then [48] else [48, 51]
  | .cxfer _ _ _ _ _ _ _ _ _ => [48]
  | .cfill _ _ _ _ _ _ _ _ _ _ => [48]
  | .ctouch _ _ _ _ _ _ _ => [49]
  | .cflush _ _ _ _ _ _ _ => [49]
  | .cmap _ _ _ _ _ _ => [49]
  | .cmigr _ _ _ _ _ _ _ _ => [50]
  | .cpfx _ _ _ _ => [48]
  | .aadd _ _ _ _ _ _ _ _ _ => [52]
  | .afadd _ _ _ _ _ _ _ _ _ => [53]
  | .aand _ _ _ _ _ _ _ _ _ => [52]
  | .aor _ _ _ _ _ _ _ _ _ => [52]
  | .axor _ _ _ _ _ _ _ _ _ => [52]
  | .amin _ _ _ _ _ _ _ _ _ => [52]
  | .amax _ _ _ _ _ _ _ _ _ => [52]
  | .aminn _ _ _ _ _ _ _ _ _ => [52]
  | .amaxn _ _ _ _ _ _ _ _ _ => [52]
  | .axchg _ _ _ _ _ _ _ _ _ => [52]
  | .acas _ _ _ _ _ _ _ _ _ => [52]
  | .adecp _ _ _ _ _ _ _ _ _ => [52]
  | .adcas _ _ _ _ _ _ _ _ _ => [54]
  | .amove _ _ _ _ _ _ _ _ _ => [54]
  | .ared _ _ _ _ _ _ _ => [55]
  | .waita _ _ _ _ _ _ _ _ _ => [56]
  | .wake _ _ _ _ _ _ _ _ => [56]
  | .psend _ _ _ _ _ _ _ _ => [57]
  | .precv _ _ _ _ _ _ _ _ => [57]
  | .pclose _ _ _ => [57]
  | .tbar _ _ _ _ _ => [58]
  | .barsig _ _ _ _ => [58]
  | .barset _ _ _ => [58]
  | .ixopen _ _ _ _ _ => [59]
  | .ixlist _ _ _ _ _ _ _ _ => [59]
  | .ixand _ _ _ _ => [59]
  | .ixor _ _ _ _ => [59]
  | .ixscore _ _ _ _ => [59]
  | .ixvec _ _ _ _ _ _ _ => [59]
  | .ixtopk _ _ _ => [59]
  | .ixdrain _ _ _ _ _ _ _ => [59]
  | .ixclose _ _ _ => [59]
  | _ => []

/-- A destination specifier as kind of R450 and number: a vector register or a ring (R220). -/
def specDest (d : Nat) : List (Nat × Nat) := if d < 32 then [(1, d)] else if d < 48 then [(5, d - 32)] else []

/-- A scalar destination; s0 names none (R218). -/
def scalarDest (d : Nat) : List (Nat × Nat) := if d = 0 then [] else [(0, d)]

/-- The destinations an operation names (R218), as kind of R450 and number. -/
def Instr.dests : Instr → List (Nat × Nat)
  | .add d _ _ => scalarDest d.val
  | .sub d _ _ => scalarDest d.val
  | .mul d _ _ => scalarDest d.val
  | .mulh d _ _ => scalarDest d.val
  | .mulhn d _ _ => scalarDest d.val
  | .div d _ _ => scalarDest d.val
  | .divn d _ _ => scalarDest d.val
  | .rem d _ _ => scalarDest d.val
  | .remn d _ _ => scalarDest d.val
  | .and d _ _ => scalarDest d.val
  | .or d _ _ => scalarDest d.val
  | .xor d _ _ => scalarDest d.val
  | .shl d _ _ => scalarDest d.val
  | .shr d _ _ => scalarDest d.val
  | .sra d _ _ => scalarDest d.val
  | .min d _ _ => scalarDest d.val
  | .max d _ _ => scalarDest d.val
  | .minn d _ _ => scalarDest d.val
  | .maxn d _ _ => scalarDest d.val
  | .clz d _ => scalarDest d.val
  | .popc d _ => scalarDest d.val
  | .sel d _ _ _ => scalarDest d.val
  | .cmp p _ _ _ => [(3, p.val)]
  | .pand d _ _ => [(3, d.val)]
  | .por d _ _ => [(3, d.val)]
  | .pxor d _ _ => [(3, d.val)]
  | .pnot d _ => [(3, d.val)]
  | .jr d _ => scalarDest d.val
  | .addi d _ _ => scalarDest d.val
  | .andi d _ _ => scalarDest d.val
  | .ori d _ _ => scalarDest d.val
  | .xori d _ _ => scalarDest d.val
  | .shli d _ _ => scalarDest d.val
  | .shri d _ _ => scalarDest d.val
  | .srai d _ _ => scalarDest d.val
  | .cmpi _ p _ _ => [(3, p.val)]
  | .lih d _ => scalarDest d.val
  | .call _ => [(0, 55)]
  | .loop l _ _ _ => [(4, l.val)]
  | .loopi l _ _ _ => [(4, l.val)]
  | .ld d _ _ _ => scalarDest d.val
  | .ldc d _ _ _ => scalarDest d.val
  | .csrr d _ => scalarDest d.val
  | .csrw d _ _ _ => scalarDest d.val
  | .csrs d _ _ _ => scalarDest d.val
  | .csrc d _ _ _ => scalarDest d.val
  | .book d _ _ => scalarDest d.val
  | .unbook d _ _ => scalarDest d.val
  | .bqry d _ _ => scalarDest d.val
  | .spawn d _ _ => scalarDest d.val
  | .cancel d _ _ => scalarDest d.val
  | .vadd d _ _ _ _ => specDest d.val
  | .vsub d _ _ _ _ => specDest d.val
  | .vmul d _ _ _ _ => specDest d.val
  | .vfma d _ _ _ _ => [(1, d.val)]
  | .vfms d _ _ _ _ => [(1, d.val)]
  | .vfnma d _ _ _ _ => [(1, d.val)]
  | .vmin d _ _ _ _ => specDest d.val
  | .vmax d _ _ _ _ => specDest d.val
  | .vabs d _ _ _ => specDest d.val
  | .vneg d _ _ _ => specDest d.val
  | .vrcp d _ _ _ => specDest d.val
  | .vrsq d _ _ _ => specDest d.val
  | .vsqrt d _ _ _ => specDest d.val
  | .vexp2 d _ _ _ => specDest d.val
  | .vlog2 d _ _ _ => specDest d.val
  | .vtanh d _ _ _ => specDest d.val
  | .viadd d _ _ _ _ => specDest d.val
  | .visub d _ _ _ _ => specDest d.val
  | .vimul d _ _ _ _ => specDest d.val
  | .vimulh d _ _ _ _ => specDest d.val
  | .viadds d _ _ _ _ => specDest d.val
  | .visubs d _ _ _ _ => specDest d.val
  | .vimin d _ _ _ _ => specDest d.val
  | .vimax d _ _ _ _ => specDest d.val
  | .viminn d _ _ _ _ => specDest d.val
  | .vimaxn d _ _ _ _ => specDest d.val
  | .vand d _ _ _ _ => specDest d.val
  | .vor d _ _ _ _ => specDest d.val
  | .vxor d _ _ _ _ => specDest d.val
  | .vshl d _ _ _ _ => specDest d.val
  | .vshr d _ _ _ _ => specDest d.val
  | .vsra d _ _ _ _ => specDest d.val
  | .vcmp _ m _ _ _ _ => [(2, m.val)]
  | .vsel d _ _ _ _ => specDest d.val
  | .vmand d _ _ => [(2, d.val)]
  | .vmor d _ _ => [(2, d.val)]
  | .vmxor d _ _ => [(2, d.val)]
  | .vmnot d _ => [(2, d.val)]
  | .vmpop d _ => specDest d.val
  | .vcvt d _ _ _ _ => specDest d.val
  | .vqnt d _ _ _ q _ => specDest d.val ++ [(5, q.val)]
  | .vdqnt d _ _ _ _ _ => specDest d.val
  | .vpack d _ _ _ _ => specDest d.val
  | .vunpk d _ _ _ => specDest d.val
  | .vmov d _ _ _ => specDest d.val
  | .vmovi d _ _ _ => specDest d.val
  | .vperm d _ _ _ _ => specDest d.val
  | .vshuf d _ _ _ _ => specDest d.val
  | .vrot d _ _ _ _ => specDest d.val
  | .vbcst d _ _ _ => specDest d.val
  | .vidx d _ _ _ _ => specDest d.val
  | .vins d _ _ _ _ => [(1, d.val)]
  | .vext _ s _ _ => scalarDest s.val
  | .vrsum d _ _ _ => specDest d.val
  | .vrmax d _ _ _ => specDest d.val
  | .vrmin d _ _ _ => specDest d.val
  | .vscan d _ _ _ => specDest d.val
  | .vsort d _ _ _ => specDest d.val
  | .vld d _ _ _ => specDest d.val
  | .vlds d _ _ _ _ => specDest d.val
  | .vgth d _ _ _ _ => specDest d.val
  | .vldc d _ _ _ => specDest d.val
  | .vcmpr q _ _ _ => [(5, q.val)]
  | .vcmprFlush q _ => [(5, q.val)]
  | .vxpnd d _ _ _ => [(1, d.val)]
  | .mrd _ qa _ _ _ _ f _ => if f.val == 0 || f.val == 5 then [(5, qa.val), (5, (qa.val + 1) % 16)] else [(5, qa.val)]
  | .xget s _ _ _ => specDest s.val
  | .cdset _ d _ _ => [(6, d.val)]
  | _ => []

/-- The source specifiers of a V or X operation (R220). -/
def Instr.sources : Instr → List Nat
  | .vadd _ a b _ _ => [a.val, b.val]
  | .vsub _ a b _ _ => [a.val, b.val]
  | .vmul _ a b _ _ => [a.val, b.val]
  | .vfma _ a b _ _ => [a.val, b.val]
  | .vfms _ a b _ _ => [a.val, b.val]
  | .vfnma _ a b _ _ => [a.val, b.val]
  | .vmin _ a b _ _ => [a.val, b.val]
  | .vmax _ a b _ _ => [a.val, b.val]
  | .vabs _ a _ _ => [a.val]
  | .vneg _ a _ _ => [a.val]
  | .vrcp _ a _ _ => [a.val]
  | .vrsq _ a _ _ => [a.val]
  | .vsqrt _ a _ _ => [a.val]
  | .vexp2 _ a _ _ => [a.val]
  | .vlog2 _ a _ _ => [a.val]
  | .vtanh _ a _ _ => [a.val]
  | .viadd _ a b _ _ => [a.val, b.val]
  | .visub _ a b _ _ => [a.val, b.val]
  | .vimul _ a b _ _ => [a.val, b.val]
  | .vimulh _ a b _ _ => [a.val, b.val]
  | .viadds _ a b _ _ => [a.val, b.val]
  | .visubs _ a b _ _ => [a.val, b.val]
  | .vimin _ a b _ _ => [a.val, b.val]
  | .vimax _ a b _ _ => [a.val, b.val]
  | .viminn _ a b _ _ => [a.val, b.val]
  | .vimaxn _ a b _ _ => [a.val, b.val]
  | .vand _ a b _ _ => [a.val, b.val]
  | .vor _ a b _ _ => [a.val, b.val]
  | .vxor _ a b _ _ => [a.val, b.val]
  | .vshl _ a b _ _ => [a.val, b.val]
  | .vshr _ a b _ _ => [a.val, b.val]
  | .vsra _ a b _ _ => [a.val, b.val]
  | .vcmp _ _ a b _ _ => [a.val, b.val]
  | .vsel _ a b _ _ => [a.val, b.val]
  | .vcvt _ a _ _ _ => [a.val]
  | .vqnt _ a _ _ _ _ => [a.val]
  | .vdqnt _ a _ _ _ _ => [a.val]
  | .vpack _ a b _ _ => [a.val, b.val]
  | .vunpk _ a _ _ => [a.val]
  | .vmov _ a _ _ => [a.val]
  | .vperm _ a b _ _ => [a.val, b.val]
  | .vshuf _ a _ _ _ => [a.val]
  | .vrot _ a _ _ _ => [a.val]
  | .vext v _ _ _ => [v.val]
  | .vrsum _ a _ _ => [a.val]
  | .vrmax _ a _ _ => [a.val]
  | .vrmin _ a _ _ => [a.val]
  | .vscan _ a _ _ => [a.val]
  | .vsort _ a _ _ => [a.val]
  | .vst d _ _ _ => [d.val]
  | .vsts d _ _ _ _ => [d.val]
  | .vgth _ a _ _ _ => [a.val]
  | .vsct d a _ _ _ => [a.val, d.val]
  | .vstc d _ _ _ => [d.val]
  | .vcmpr _ a _ _ => [a.val]
  | .xput s _ _ _ => [s.val]
  | _ => []

end Sys2Proof
end

