-- ==== Sys2Proof/Machine/DevState.lean ====
section
/-! DEFINITION. The state of the device around its cores as plain data: the calendar's bookings, instances and teams, units of
work, queues, the firmware tree, reduction windows, ports, checkpoints and trust (R40-R102, R379-R421, R488-R507). -/

namespace Sys2Proof.Machine

/-! ### The booking calendar (R73-R102) -/

/-- Kinds of a furrow's booking (R81, R82, R511). -/
inductive BookKind where
  /-- A fixed first tick. -/
  | anchored
  /-- A tentative anchor, with every tick to the end of the grace held. -/
  | floating
  /-- No cell held: after the grace, or where the floating booking did not fit. -/
  | unbooked
  deriving DecidableEq, Repr

/-- The booking record of one furrow of a member (R494 keeps bookings as records; the calendar's cells follow from
them). -/
structure Booking where
  core : Nat
  team : Nat
  kind : BookKind
  /-- Index in the expanded profile (R80). -/
  index : Nat
  /-- The resource vector. -/
  vec : Furrow
  /-- T, or the anchor. -/
  first : Nat
  /-- Duration and slack in ticks as booked (R68, R99). -/
  dur : Nat
  slack : Nat
  /-- G (R82). -/
  grace : Nat
  /-- Fallow ticks of the span (R93). -/
  fallow : List Nat
  /-- Last tick of the span as far as it is booked, and working ticks not yet placed beyond the horizon (R74). -/
  last : Nat
  left : Nat
  /-- Its grace has ended (R83). -/
  expired : Bool
  /-- Duration and slack are those of thermal fallback (R99). -/
  long : Bool
  deriving DecidableEq, Repr

/-- A stake (R96): its holder, its furrow and the ticks of its window. Stakes of one team that were placed together name the first of
their cores as `lead`, and count as one in a calendar (R97). -/
structure Stake where
  core : Nat
  team : Nat
  lead : Nat
  index : Nat
  vec : Furrow
  first : Nat
  last : Nat
  deriving DecidableEq, Repr

/-- A ballast cell (R94): its tick, its core's M row and the energy that it books. -/
structure Ballast where
  tick : Nat
  core : Nat
  eq : Nat
  deriving DecidableEq, Repr

/-! ### Query contexts and pipe endpoints (R338, R345-R359) -/

/-- A term attached to a query context (R350): list address, weight, NBLK and NPOST. -/
structure Term where
  addr : Nat
  weight : BitVec 32
  nblk : Nat
  npost : Nat
  deriving DecidableEq, Repr

/-- A candidate with a score: document ID and FP32 code. -/
abbrev Scored := Nat × BitVec 32

/-- An entry of a ranked list (R358). -/
structure Ranked where
  doc : Nat
  f : BitVec 32
  lex : BitVec 32
  vec : BitVec 32
  deriving DecidableEq, Repr

/-- A query context that is not CLOSED (R350), bound to a handle of a core. -/
structure Query where
  core : Nat
  handle : Fin 16
  ranked : Bool
  alpha : BitVec 32
  beta : BitVec 32
  k : Nat
  capacity : Nat
  terms : Tbl Term
  /-- C with its lexical scores, in ascending ID; `none` is UNSET. -/
  lex : Option (List Scored)
  /-- V with its vector scores, in ascending ID. -/
  vec : List Scored
  list : List Ranked
  deriving DecidableEq, Repr

/-- A pipe endpoint of a receiving member (R338): team instance, core, pipe, record size, declared depth, the records with
their senders' ranks, oldest first, whether the receiver has closed it, and who waits to send. -/
structure Endpoint where
  team : Nat
  core : Nat
  pipe : Nat
  size : Nat
  depth : Nat
  records : List (Nat × List Byte)
  closed : Bool
  /-- PSENDs that wait for room, in order of arrival: core and command (R339). -/
  senders : List (Nat × Nat)
  deriving DecidableEq, Repr

/-! ### Instances, teams and members (R40-R43, R51-R72) -/

/-- Where a team stands. -/
inductive TeamState where
  /-- Ready, not placed. -/
  | ready
  /-- Placed, not staged. -/
  | placed
  /-- Staged, with its release tick. -/
  | staged
  /-- Staged and held past its release tick (R481). -/
  | held
  | running
  /-- Stopped by a pre-emption: draining and being saved. -/
  | stopping
  | swapped
  /-- Being swapped in. -/
  | restoring
  /-- Ended, its instance not yet counted. -/
  | over
  deriving DecidableEq, Repr

/-- The save of a member (R65): its core, the commons groups of its team, its query contexts and its endpoints. -/
structure Saved where
  core : Core
  commons : Local
  queries : List Query
  endpoints : List Endpoint
  deriving DecidableEq, Repr

/-- A member of a team (R41): its core, whether it has executed EXIT, its save, and the segment that it resumes with
(R68): furrow index, duration and slack; none for a member that stopped at a headland. -/
structure Member where
  rank : Nat
  core : Nat
  exited : Bool
  /-- It has stopped and saved, or had exited, in the pre-emption in progress. -/
  done : Bool
  saved : Option Saved
  segment : Option (Nat × Nat × Nat)
  deriving DecidableEq, Repr

/-- A team barrier (R342): generation, and the ranks arrived in it and in the next. -/
structure TeamBar where
  gen : Nat
  now : List Nat
  next : List Nat
  deriving DecidableEq, Repr

/-- A team instance of one image (R40). -/
structure Team where
  inst : Nat
  role : Nat
  ctx : Nat
  imageVa : Nat
  image : Image
  state : TeamState
  members : List Member
  bars : List TeamBar
  /-- Release tick, when staged. -/
  release : Nat
  /-- The first release tick that it was given, by which held teams are booked again in order (R482). -/
  first : Option Nat
  /-- The tick from which it waits (R96), the ticks that it had waited before (R394), and its place in its launch's queue (R72). -/
  since : Nat
  waited : Nat
  turn : Nat
  /-- Ticks of its quantum used (R71). -/
  used : Nat
  /-- The release is a resume (R68). -/
  resumed : Bool
  /-- The bytes of the save area, in privileged pages of the context, and the digest in the CC's swap record (R66). -/
  area : List Byte
  digest : List Byte
  /-- A word of the save area is uncorrectable (R437). -/
  areaBad : Bool
  /-- The first time the team takes its turn, it may use this booking (R377): cores by rank and release tick. -/
  booked : Option (List Nat × Nat)
  /-- A pre-emption reached it during its swap-in (R69). -/
  asked : Bool
  deriving DecidableEq, Repr

/-- An instance of a launch (R43): one team, or the teams of a gang. -/
structure Instance where
  launch : Nat
  index : Nat
  teams : List Nat
  faulted : Bool
  cancelled : Bool
  deriving DecidableEq, Repr

/-- The end of a context (R439): the context, its tick, and the instances that it made FAULTED. -/
structure Ending where
  ctx : Nat
  tick : Nat
  insts : List Nat
  deriving DecidableEq, Repr

/-! ### Units of work (R44-R50, R384-R386) -/

/-- A launch, graph, phase or job in flight, with its counter (R47) and its counter record (R386). -/
structure UnitRec where
  /-- 0 launch, 1 graph, 2 phase, 3 job. -/
  kind : Nat
  ctx : Nat
  parent : Option Nat
  /-- The queue that submitted it; none for a SPAWN. -/
  queue : Option Nat
  count : Nat
  expected : Nat
  closed : Bool
  /-- 0 PENDING, 1 ACTIVE, 2 DONE, 3 FAULTED, 4 CANCELLED. -/
  status : Nat
  faulted : Bool
  cancelled : Bool
  start : Nat
  finish : Nat
  /-- Virtual address of the counter record. -/
  record : Nat
  /-- Of a launch: images, instances, read and write sets, presets (register, region or none, value), acceptance order,
  priority, whether it is admitted, instances made so far, its images that passed R231, each with its place in the launch, and whether its end
posts an interrupt. -/
  images : List Nat
  total : Nat
  reads : List (Nat × Nat)
  writes : List (Nat × Nat)
  presets : List (Nat × Option Nat × Nat)
  order : Nat
  prio : Nat
  admitted : Bool
  made : Nat
  /-- The tick from which its instances wait to be placed (R72, R394). -/
  ready : Option Nat
  parsed : List (Nat × Image)
  /-- Its images whose signature does not verify, by address (R489). -/
  unsigned : List Nat
  interrupt : Bool
  /-- The booking that instance 0 uses (R377, R387). -/
  booking : Option Nat
  /-- Its refusal, not yet acted on (R488, R489): event, DETAIL and the image's address. -/
  refusal : Option (Nat × Nat × Nat)
  deriving DecidableEq, Repr

/-- A booking by BOOK (R377, R387): its handle, the core or queue that holds it, its image, the cores and the release
tick, and the team number that its cells are booked for. -/
structure Reservation where
  handle : Nat
  core : Option Nat
  queue : Option Nat
  image : Nat
  ctx : Nat
  cores : List Nat
  tick : Nat
  team : Nat
  deriving DecidableEq, Repr

/-! ### Queues (R379-R391) -/

/-- A level of parsing (R388): buffer address, its length in words, and the next word. -/
structure Level where
  addr : Nat
  len : Nat
  pos : Nat
  /-- The IB_CALL that opened it asks for an interrupt. -/
  interrupt : Bool
  deriving DecidableEq, Repr

/-- A write of the front end that waits its turn (R382, R386, R387, R492): context, address, the bytes, whether it is an
add of the double, the interrupt that its performance posts, and whether it goes behind the queue's launches. -/
structure FrontWrite where
  ctx : Nat
  va : Nat
  bytes : List Byte
  add : Bool
  interrupt : Option Nat
  /-- A deferred TIMESTAMP takes its values when it is performed. -/
  stamp : Bool
  /-- The acceptance order below which launches of the queue must have finished. -/
  after : Nat
  /-- The queue whose SIGNAL or TIMESTAMP it is (R387). -/
  queue : Option Nat
  deriving DecidableEq, Repr

/-- Why a queue is parked (R391). -/
inductive Park where
  | page (ctx va : Nat)
  | table
  | link
  deriving DecidableEq, Repr

/-- A queue (R379): its descriptor, its pointers, and what its fetcher holds. -/
structure Queue where
  base : Nat
  log2 : Nat
  prio : Nat
  fetcher : Nat
  ctx : Nat
  en : Bool
  /-- STATE. -/
  state : Nat
  kick : Nat
  rptr : Nat
  /-- RP as published, the next ring word to parse, and WP as last read. -/
  rp : Nat
  pos : Nat
  wp : Nat
  /-- RP is to be read from the kick word when its page becomes valid (R379). -/
  unread : Bool
  levels : List Level
  /-- Home of the kick word's monitor and of the line of a WAIT. -/
  kickAt : Option (Nat × Nat)
  waitAt : Option (Nat × Nat)
  park : Option Park
  parkSince : Nat
  /-- Park on an image (R491). -/
  onImage : Bool
  /-- Pages of the images of the packet under way whose faults were declared unresolvable (R491). -/
  given : List Nat
  job : Option Nat
  phase : Option Nat
  graph : Option Nat
  deferred : List FrontWrite
  /-- Writes of RPTR that wait for a page (R382). -/
  rpWrites : List FrontWrite
  booking : Option Nat
  /-- It holds one of its fetcher's 32 slots; its kicks that are not wholly parsed, oldest first, as time and WP (R389). -/
  slot : Bool
  kicks : List (Nat × Nat)
  /-- CANCELs whose interrupt waits until they have taken effect: the launches that each has still to end (R383). -/
  cancels : List (List Nat)
  deriving DecidableEq, Repr

/-- QD0-QD3 of queue `q` after reset (R379). -/
def Queue.init (q : Nat) : Queue :=
  { base := 0, log2 := 10, prio := 0, fetcher := q % 16, ctx := 0, en := false, state := 0, kick := 0, rptr := 0, rp := 0,
    pos := 0, wp := 0, unread := false, levels := [], kickAt := none, waitAt := none, park := none, parkSince := 0,
    onImage := false, given := [], job := none, phase := none, graph := none, deferred := [], rpWrites := [], booking := none, slot := false,
    kicks := [], cancels := [] }

/-! ### The firmware tree (R392) -/

/-- Kinds of message: GS to CC, then CC to GS, the urgent ones last (R392). -/
inductive MsgKind where
  | place | book | stage | release | invtlb | retire | quantum | preempt | cancel
  | booked | nofit | staged | halted | swapped | slip | event | complete | fault
  deriving DecidableEq, Repr

/-- Urgent kinds. -/
def MsgKind.urgent : MsgKind → Bool
  | .preempt => true
  | .cancel => true
  | .complete => true
  | .fault => true
  | _ => false

/-- One direction of a command link (R392): the receiver's inbox, the messages held for want of a permit, and, of the 16
permits, how many urgent messages hold one of the 4 reserved ones. -/
structure Link where
  inbox : List (MsgKind × Nat)
  held : List (MsgKind × Nat)
  /-- General permits and reserved permits in use. -/
  general : Nat
  reserved : Nat
  /-- The ticks in which the messages of the inbox were sent (R495). -/
  times : List Nat
  /-- For each message of the inbox, whether the permit it holds is a reserved one (R392). -/
  taken : List Bool
  deriving DecidableEq, Repr

def Link.init : Link := { inbox := [], held := [], general := 0, reserved := 0, times := [], taken := [] }

/-! ### Reduction windows (R405-R408) -/

/-- An open round of a segment (R406): its operator (w3), RTICK at its opening, flags, and the contributions in order of
arrival: rank, unit and operand. -/
structure Round' where
  op : Nat
  opened : Nat
  mixed : Bool
  dup : Bool
  parts : List (Nat × Nat × Nat)
  deriving DecidableEq, Repr

/-- A segment: the number of its present or next round, and the round that is open. -/
structure Segment where
  round : Nat
  current : Option Round'
  deriving DecidableEq, Repr

/-- A reduction window (R405). -/
structure Window where
  handle : Nat
  base : Nat
  size : Nat
  timeout : Nat
  record : Nat
  group : List Nat
  segments : Tbl Segment
  deriving DecidableEq, Repr

/-! ### Ports, keys, weight sets, checkpoints -/

/-- A Phiok Link port (R498): down, failures to retrain in a row, and RTICK at each replay of the last millisecond. -/
structure Port where
  down : Bool
  fails : Nat
  replays : List Nat
  retraining : Bool
  deriving DecidableEq, Repr

def Port.init : Port := { down := false, fails := 0, replays := [], retraining := false }

/-- A weight set being verified (R418): context, first page, and the leaves of its table. -/
structure WeightSet where
  id : Nat
  ctx : Nat
  base : Nat
  leaves : List Nat
  /-- Leaf entries as they stood before they were held at V = 0: virtual address, entry address and value. -/
  entries : List (Nat × Nat × Nat)
  deriving DecidableEq, Repr

/-- What goes back to the outside: a mailbox return (R402) with its opcode, CXL's return code (0 Success, 2 Invalid Input, 3 Unsupported;
PRESUMED, log 84) and output bytes; or, with opcode 1 for the host and 2 for a peer, the answer to a memory request, code 1 for poison (R401, R404). -/
structure Reply where
  opcode : Nat
  code : Nat
  out : List Byte
  deriving DecidableEq, Repr

/-- A mailbox command that returns when something else has come about: CTX_DESTROY, RETIRE; or that waits for a page: WSET_REGISTER. -/
structure Waiting where
  opcode : Nat
  arg : Nat
  input : List Double
  deriving DecidableEq, Repr

/-- A bucket of correctable errors (R432), and the 1 ms window of its last record of a corrected error (R429). -/
structure Bucket where
  count : Nat
  warned : Bool
  acted : Bool
  window : Option Nat
  deriving DecidableEq, Repr

end Sys2Proof.Machine
end

