-- ==== Sys2Proof/Machine/State.lean ====
section
/-! DEFINITION. The whole machine's state as plain data, the faults and refusals of a step, and the state after reset. -/

namespace Sys2Proof.Machine

/-- Why a step stops. -/
inductive Fault where
  /-- Raised by `step` when the module has no power or has stopped for good (R420, R496); safe: the part does nothing
  more. -/
  | moduleOff
  deriving DecidableEq, Repr

/-- Why an instruction has no meaning. -/
inductive Refusal where
  /-- Raised by `exec` for a row that has no meaning yet; safe. -/
  | notModelled (mnemonic : String)
  deriving DecidableEq, Repr

/-! ### Clusters -/

/-- States of an island (R19). -/
inductive Island where
  | inService | fallback | off
  deriving DecidableEq, Repr

/-- The registers of a cluster (R366, R412). -/
structure ClusterCsrs where
  tempBand : BitVec 4
  crefcnt : Double
  slipCnt : Double
  ballastCnt : Double
  islLimit : BitVec 8
  islBase : BitVec 8
  ballastEq : BitVec 8
  islEmeas : BitVec 16
  moncap : BitVec 7
  deriving DecidableEq, Repr

/-- A cluster (R17). -/
structure Cluster where
  island : Island
  csr : ClusterCsrs
  commons : Local
  /-- Requests to the CC in order of arrival (R376). -/
  reqQ : List Request
  /-- The L2 TLB, oldest fill first, and the walk caches (R138). -/
  tlb2 : List Xlat
  walks : List WalkItem
  /-- The IXE's 16 physical contexts by number, and the last one served (R345, R361). -/
  queries : Tbl Query
  ixTurn : Nat
  /-- Pipe endpoints of the cluster's members (R338). -/
  endpoints : List Endpoint
  /-- The CC's records of bookings, stakes and ballast (R75, R94, R96, R494). -/
  bookings : List Booking
  stakes : List Stake
  ballast : List Ballast
  /-- Booked M cells of the last ramp window, and of the ticks of the present one that have ended (R92). -/
  rampPrev : Nat
  rampNow : Nat
  /-- M cells of the windows ahead after the last step 6 of R95; an unlisted one has 0 (R94). -/
  windowMs : Tbl Nat
  /-- Row of a calendar cell whose parity fails (R494), whether cells were released (R88), and the step of R95 that the CC
  has reached in the tick. -/
  calBad : Option Nat
  compact : Bool
  calStep : Nat
  /-- The command link (R392). -/
  toCC : Link
  toGS : Link
  /-- TICK of the CC's last failure (R495), and steps of voltage trim (R433). -/
  failed : Option Nat
  trim : Nat
  /-- What the hottest sensor of the island reads, in thousandths of a degree Celsius (R112). -/
  temp : Int
  /-- Every sensor of the island passes its self-check (R466). -/
  sensorsOk : Bool
  /-- Cycles of the present tick in which each port of a bank was contended (R30); an unlisted one has 0. -/
  contended : Tbl Nat
  /-- Banks whose next reserved cycle finishes a row that a replay held up (R430): memory, 8 being the commons, and bank. -/
  redo : List (Nat × Nat)
  deriving DecidableEq, Repr

/-! ### Global memory (R142-R156) -/

/-- A memory in stored form: bytes by storage address in canonical form (an unlisted byte reads 0), the code of each
128-byte block by its number (an unlisted block has code 15), the poisoned blocks, the 32-byte sectors with a symbol wrong,
which a read corrects, and those that fail uncorrectably (R434, R435), and of the tag words of 16 blocks' codes those with a bit wrong and
those that fail (R472); where and when errors strike is free (DESIGN CHOICE, log 36). -/
structure GMem where
  cells : List Host.Cell
  codes : Tbl Nat
  bad : List Nat
  weak : List Nat
  fails : List Nat
  tagWeak : List Nat
  tagBad : List Nat
  deriving DecidableEq, Repr

def GMem.init : GMem := { cells := [], codes := [], bad := [], weak := [], fails := [], tagWeak := [], tagBad := [] }

/-- A page fault being served (R140, R469): context, page number, the tick of the first walk that met it, and its address. -/
structure Faulting where
  ctx : Nat
  page : Nat
  since : Nat
  va : Nat
  deriving DecidableEq, Repr

/-- An INVTLB in progress (R139): its number, its scope (0 all contexts, 1 one context, 2 a range), and whether it is one
of the mailbox. -/
structure Inv where
  id : Nat
  scope : Nat
  ctx : Nat
  base : Nat
  len : Nat
  mailbox : Bool
  deriving DecidableEq, Repr

/-- A migration in progress (R150): its number, context, the pages to move, the target tier, and the command of a core or
the mailbox that asked for it. -/
structure Migration where
  id : Nat
  ctx : Nat
  pages : List Nat
  tier : Nat
  owner : Option (Nat × Nat)
  /-- The deadline tick (R100), and pages moved so far. -/
  deadline : Nat
  moved : Nat
  /-- A page with V = 0 whose INVTLB has not completed (R150): its address, its old leaf entry, the INVTLB's number, the
  new output address. -/
  page : Option (Nat × Nat × Nat × Nat)
  /-- The tick in which its last byte so far was performed (R474), and the channel of the tier that the GS empties by it (R39). -/
  lastByte : Option Nat
  channel : Option Nat
  deriving DecidableEq, Repr

/-- An armed monitor (R180): tier, physical address and size of the waiter's word, the waiter's core and command; core 256 + m is a
waiter of module m. -/
structure Monitor where
  tier : Nat
  pa : Nat
  size : Nat
  core : Nat
  cmd : Nat
  deriving DecidableEq, Repr

/-! ### The error log (R428, R429) -/

/-- An error or event record (R428). -/
structure Record where
  code : Nat
  cls : Nat
  sev : Nat
  ctx : Option Nat
  tick : Nat
  rtick : Nat
  unit : Nat
  unitNo : Nat
  sub : Nat
  addr : Nat
  detail : Nat
  detail2 : Nat
  seq : Nat
  lost : Nat
  deriving DecidableEq, Repr

/-- The log of the GS, oldest first, with what R429 counts, the MSI-X vectors posted, and the trip store of the security
engine. -/
structure Log where
  records : List Record
  seq : Nat
  lost : Nat
  posts : List Nat
  trips : List Record
  deriving DecidableEq, Repr

/-- A context of the GS (R130, R366, R403). -/
structure Context where
  l0 : Nat
  starve : Nat
  quantum : Nat
  key : Nat
  deriving DecidableEq, Repr

/-- Units present (R36): bit i set when unit i is present. -/
structure Presence where
  cores : Nat
  clusters : Nat
  hbm : Nat
  lpddr : Nat
  phiok : Nat
  deriving DecidableEq, Repr

/-- The counters of a memory channel (R149). -/
structure Channel where
  rowConf : Double
  refStall : Double
  rdBytes : Double
  wrBytes : Double
  deriving DecidableEq, Repr
/-- What a checkpoint on a fabric memory node holds (R409): its contexts, tiers 0 and 1, the hash-domain table, contexts,
queues, units, instances, teams and presence. -/
structure Snapshot where
  ctxs : List Nat
  dev : GMem
  hash : Tbl Nat
  contexts : Tbl Context
  queues : Tbl Queue
  units : Tbl UnitRec
  insts : Tbl Instance
  teams : Tbl Team
  pres : Presence
  nextOp : Nat
  /-- Writes of counter records that wait for a page (R386, R409). -/
  recWrites : List FrontWrite
  past : List (Nat × Nat × Nat)
  /-- The bytes on the node, whose layout is not given, and their SHA-256 digest (R409, R411). -/
  bytes : List Byte
  digest : List Byte
  deriving DecidableEq, Repr

/-! ### The machine -/

/-- Power and life of the module (R419-R421, R496). -/
inductive Power where
  /-- Reset is done and the bring-up of R419 has not run. -/
  | inReset
  | up
  /-- Stopped by the GS (R496). -/
  | stopped
  /-- Power removed by a thermal trip (R420). -/
  | tripped
  /-- Left in reset, a stage of the boot having failed to verify (R415). -/
  | bootFailed
  deriving DecidableEq, Repr

/-- One piece of work of the present cycle: an event, the next bundle of a core, the next packet of a queue, or a look at the groups that may
expire. -/
inductive Work where
  | event (i : Instr)
  | issue (core : Nat)
  | packet (q : Nat)
  /-- Which groups on the verge of expiry a write of a cluster's present cycle saves (R123). -/
  | verge (cl : Nat)
  deriving DecidableEq, Repr

/-- What ends the furrow or the task at the commit of the bundle in hand (R368-R373). -/
inductive Leave where
  | stay
  | headland (b : Fin 16)
  | waitt (tick : Nat)
  | exit
  | yield
  /-- TURN: base, length, refill descriptor, barrier and engine (R374). -/
  | turn (base len : Nat) (d bar : Fin 16) (engine : Fin 2)
  deriving DecidableEq, Repr

/-- The bundle in hand (R217). Outside a bundle it says which core and slot an operation run by itself belongs to. -/
structure Issue where
  core : Nat
  slot : Slot
  /-- More slots of the bundle follow. -/
  more : Bool
  /-- Length of the bundle in bytes. -/
  len : Nat
  /-- The slot's body came from its latch (R445 REP). -/
  rep : Bool
  /-- The increment that the bundle carries (R445 INC). -/
  inc : Option Nat
  /-- The other operations of the bundle. -/
  bundle : List Instr
  /-- The core as it stood before the bundle (R218). -/
  pre : Option Core
  /-- Destinations named so far: kind of R450 and number. -/
  dests : List (Nat × Nat)
  /-- Target of a taken transfer (R248), or of a skipped loop body (R252). -/
  jump : Option Nat
  skip : Option Nat
  /-- Accesses to local memory, in slot order, and the results of loads, which count from the bundle's completion (R30, R239). -/
  ports : List PortWait
  loads : List Landing
  /-- VSEED was written in this bundle (R199). -/
  reseed : Bool
  leave : Leave
  /-- The request that a task op posts at the commit (R376). -/
  post : Option Request
  /-- The new MONCAP that a CSR op writes at the commit (R425). -/
  moncap : Option (BitVec 7)
  deriving DecidableEq, Repr

/-- The state of the machine. -/
structure State where
  /-- TICK (R73), RTICK (R111), and the instant within the tick (R9). -/
  tick : Nat
  rtick : Nat
  instant : Nat
  /-- Instants since the last retention tick (R111). -/
  rsub : Nat
  power : Power
  /-- The work of the present cycle, the happenings outside, the bundle in hand, and the count of free values taken:
  the model's own fields (DESIGN CHOICE, log 3, 5). -/
  agenda : List Work
  inputs : List Instr
  issue : Issue
  freeCtr : Nat
  /-- Cores by number; an unlisted one is as `Core.init`. -/
  cores : Tbl Core
  /-- Clusters by number; an unlisted one is as `Cluster.init`. -/
  clusters : Tbl Cluster
  log : Log
  /-- Presence registers (R36, R366) and device identity. -/
  pres : Presence
  stepping : BitVec 8
  moduleNum : BitVec 14
  /-- Counters of channels by number, 0-255 HBM and 256-287 LPDDR (R149); an unlisted one is 0. -/
  chan : Tbl Channel
  /-- Contexts by ID (R403); an ID that is not listed is not in use. -/
  contexts : Tbl Context
  /-- Tiers 0 and 1 by storage address (channel and channel address, R146, R147), tier 2 by host physical address, and
  tier 3, the peers' memories, by fabric address (R143). -/
  dev : GMem
  host : GMem
  peer : GMem
  /-- The hash-domain table by domain, LPDDR's after HBM's 512; an unlisted domain has code 1 (R148). -/
  hash : Tbl Nat
  faults : List Faulting
  invs : List Inv
  migrations : List Migration
  /-- Contexts that are being ended (R439, R443). -/
  endings : List Ending
  /-- Armed monitors of every cluster, in the order in which they armed (R180, R181). -/
  monitors : List Monitor
  /-- Numbers given out to INVTLBs and migrations. -/
  nextOp : Nat
  /-- The CXL link (R501, R502). -/
  cxlUp : Bool
  cxlSecure : Bool
  /-- The tick since which the link carries no CXL.cache traffic. -/
  cxlSince : Nat
  /-- Modules that no path reaches (R500). -/
  lostPeers : List Nat
  /-- First responses to the requests of peers, by tag (R499). -/
  answered : List (Nat × List Reply)
  /-- The device snoop filter: the host's 64-byte lines that the port holds, each with the core that it holds it for (R397, R400). -/
  snoop : List (Nat × Nat)
  /-- 64-byte lines of tiers 0 and 1 that the host may hold (R401). -/
  hostLines : List Nat
  /-- Teams, instances and units of work by number (R40-R50). -/
  teams : Tbl Team
  insts : Tbl Instance
  units : Tbl UnitRec
  /-- Bookings by BOOK that no launch has used (R377). -/
  reservations : List Reservation
  /-- Queues by number; an unlisted one is as `Queue.init` (R379). -/
  queues : Tbl Queue
  /-- The queue that each packet fetcher served last (R389). -/
  fetchLast : Tbl Nat
  /-- Writes of counter records that wait for a page (R386). -/
  recWrites : List FrontWrite
  /-- The host interface: returns of mailbox commands, and those that still wait (R402). -/
  replies : List Reply
  mbWait : List Waiting
  /-- Trust: key slots, measurement registers, one-time keys used, fencings kept by the security engine (R415-R417, R441). -/
  keys : Tbl (List Byte)
  measure : List Nat
  idSigs : Nat
  fenced : Tbl Nat
  wsets : List WeightSet
  /-- The module limit in watts (R412), and the module's energy in mJ, which the management interface reports (R413). -/
  modLimit : Nat
  energy : Double
  /-- The module's power in watts, averaged over the last whole millisecond, and its energy at that millisecond's end (R413). -/
  power1ms : Double
  energyMark : Double
  /-- Phiok Link: windows by handle, ports by number, heartbeats sent (R405, R498, R506). -/
  windows : Tbl Window
  ports : Tbl Port
  beats : Nat
  /-- Buckets by kind and unit (R433): key = kind * 2^20 + unit. -/
  buckets : Tbl Bucket
  /-- Marks and leak periods that the GS has set, by kind of bucket: WARN, ACT, and the period in µs; an unlisted kind has R433's (R432). -/
  marks : Tbl (Nat × Nat × Nat)
  /-- Row groups whose fresh mask completes in the present cycle, at whose end they would expire: cluster, memory (8 the commons) and group
  (R123). -/
  spared : List (Nat × Nat × Nat)
  /-- Units that have left the tables: ID, context and kind (R50, R377). An ID that is used again, or whose context is destroyed, stands here no
  more. -/
  past : List (Nat × Nat × Nat)
  /-- Cores that owe a KAT run or a retirement (R433, R440). -/
  katDue : List Nat
  /-- Tests that are booked (R440): core, the number that their cells are booked under, and the last tick. -/
  kats : List (Nat × Nat × Nat)
  retireDue : List Nat
  /-- Other units that are to be retired, by UNIT code and number (R39, R433). -/
  unitDue : List (Nat × Nat)
  /-- The module is held (R504): checkpoint address and contexts; a CKPT in progress, with whether it is to hold; a RESTORE in
  progress; and the checkpoints on fabric memory nodes, by address. -/
  hold : Option (Nat × List Nat)
  ckpt : Option (Nat × List Nat × Bool)
  restoring : Option Nat
  /-- Aligned 8-byte words of the module's memory as they stood before host writes that the checkpoint may or may not show (R410). -/
  late : List (Nat × List Byte)
  nodes : Tbl Snapshot
  deriving DecidableEq, Repr

/-! ### After reset -/

/-- Outside a bundle: core 0, slot S. -/
def Issue.init : Issue :=
  { core := 0, slot := .s, more := false, len := 0, rep := false, inc := none, bundle := [], pre := none, dests := [],
    jump := none, skip := none, ports := [], loads := [], reseed := false, leave := .stay, post := none, moncap := none }

def Cluster.init : Cluster :=
  { island := .inService,
    csr := { tempBand := 0, crefcnt := 0, slipCnt := 0, ballastCnt := 0, islLimit := 36, islBase := 4, ballastEq := 4,
             islEmeas := 0, moncap := 64 },
    commons := Local.init, reqQ := [], tlb2 := [], walks := [], queries := [], ixTurn := 15, endpoints := [],
    bookings := [], stakes := [], ballast := [], rampPrev := 0, rampNow := 0, windowMs := [], calBad := none, compact := false, calStep := 0,
    toCC := Link.init, toGS := Link.init, failed := none, trim := 0, temp := 25000, sensorsOk := true, contended := [], redo := [] }

/-- The machine right after module reset: the bring-up has not run (R419, R421). -/
def State.reset : State :=
  { tick := 0, rtick := 0, instant := 0, rsub := 0, power := .inReset, agenda := [], inputs := [], issue := Issue.init,
    freeCtr := 0, cores := [], clusters := [],
    log := { records := [], seq := 0, lost := 0, posts := [], trips := [] }, pres := { cores := 2 ^ 256 - 1, clusters := 2 ^ 32 - 1, hbm := 2 ^ 256 - 1, lpddr := 2 ^ 32 - 1, phiok := 2 ^ 18 - 1 },
    stepping := 0, moduleNum := 0, chan := [], contexts := [], dev := GMem.init, host := GMem.init,
    peer := GMem.init, hash := [], faults := [], invs := [], migrations := [], endings := [], monitors := [], nextOp := 1, cxlUp := false,
    cxlSecure := true, cxlSince := 0, lostPeers := [], answered := [], snoop := [], hostLines := [], teams := [], insts := [], units := [], reservations := [], queues := [],
    fetchLast := [], recWrites := [], replies := [], mbWait := [], keys := [], measure := [0, 0, 0, 0, 0, 0, 0, 0], idSigs := 0, fenced := [],
    wsets := [], modLimit := 3200, energy := 0, power1ms := 0, energyMark := 0, windows := [], ports := [], beats := 0, buckets := [], marks := [], spared := [], past := [], katDue := [], kats := [], retireDue := [], unitDue := [],
    hold := none, ckpt := none, restoring := none, late := [], nodes := [] }

end Sys2Proof.Machine
end

