-- ==== Sys2Proof/Machine/Ops.lean ====
section
/-! DEFINITION. The named operations over registers, rings, results in flight and local memory, taking a trap, and the
commit of a bundle. -/

namespace Sys2Proof.Machine

/-- The outcome of a step or of an instruction. -/
abbrev Out := Host.Outcome State Fault Refusal

/-! ### Cores and clusters -/

/-- Core `n`. -/
def State.core (s : State) (n : Nat) : Core := tget Core.init s.cores n

/-- The state with core `n` replaced. -/
def State.setCore (s : State) (n : Nat) (c : Core) : State := { s with cores := tset s.cores n c }

/-- The state with core `n` changed. -/
def State.updCore (s : State) (n : Nat) (f : Core → Core) : State := s.setCore n (f (s.core n))

/-- The cluster of a core (R4). -/
def clusterOf (n : Nat) : Nat := n / 8

/-- Cluster `k`. -/
def State.cluster (s : State) (k : Nat) : Cluster := tget Cluster.init s.clusters k

def State.setCluster (s : State) (k : Nat) (c : Cluster) : State := { s with clusters := tset s.clusters k c }

def State.updCluster (s : State) (k : Nat) (f : Cluster → Cluster) : State := s.setCluster k (f (s.cluster k))

/-- The core of the bundle in hand. -/
def State.here (s : State) : Nat := s.issue.core

/-- That core as it stands, with the effects of earlier slots of the bundle. -/
def State.cur (s : State) : Core := s.core s.here

/-- That core as every slot of the bundle reads it: as it stood before the bundle (R218). -/
def State.view (s : State) : Core := s.issue.pre.getD s.cur

/-- The commons of the core of the bundle in hand. Loads and stores reach it when a port serves them (R30), so it stands as before the
bundle while the slots issue. -/
def State.viewCommons (s : State) : Local := (s.cluster (clusterOf s.here)).commons

/-- The state with the core of the bundle in hand changed. -/
def State.upd (s : State) (f : Core → Core) : State := s.updCore s.here f

/-! ### Cycles of an island (R9, R19, R28) -/

/-- Whether a cycle of an island in this state begins at an instant (R9, R19). -/
def cycleStarts (isl : Island) (instant : Nat) : Bool :=
  match isl with
  | .inService => true
  | .fallback => instant % 2 == 0
  | .off => false

/-- Whether an instant lies in the island's reserved cycle (R28). -/
def isReserved (isl : Island) (instant : Nat) : Bool :=
  match isl with
  | .inService => instant == 63
  | .fallback => decide (62 ≤ instant)
  | .off => false

/-- The present instant lies in the reserved cycle of a cluster. -/
def State.reservedNow (s : State) (cl : Nat) : Bool := isReserved (s.cluster cl).island s.instant

/-! ### Registers -/

/-- s0 reads as 0 (R238). -/
def Core.rs (c : Core) (n : Fin 64) : Double := if n = 0 then 0 else c.x.s[n]

/-- p0 reads as true (R238). -/
def Core.rp (c : Core) (n : Fin 16) : Bool := if n = 0 then true else c.x.p[n]

/-- m0 reads as all ones (R265). -/
def Core.rm (c : Core) (n : Fin 8) : Mask := if n = 0 then BitVec.allOnes 256 else c.vec.m[n]

/-- Whether a result in flight would land on scalar register `n` no later than the next working cycle. -/
def Landing.dueOn (l : Landing) (n : Fin 64) (wc : Nat) : Bool := decide (l.dest = .sreg n) && decide (l.due ≤ wc + 1)

/-- A scalar result of latency 1: visible to the next bundle; a write of s0 is discarded. An earlier result that would
land in the same cycle is lost to it (R239, R240). -/
def Core.ws (c : Core) (n : Fin 64) (v : Double) : Core :=
  if n = 0 then c
  else { c with x := { c.x with s := c.x.s.set n v }, flight := c.flight.filter (fun l => !l.dueOn n c.seq.wc) }

/-- A predicate result; a write of p0 is discarded (R238, R239). -/
def Core.wp (c : Core) (n : Fin 16) (b : Bool) : Core :=
  if n = 0 then c else { c with x := { c.x with p := c.x.p.set n b } }

/-- A result put in flight, landing `lat` working cycles after the present one (R239, R268). -/
def Core.launch (c : Core) (lat : Nat) (d : Dest) (value mask : Vec) : Core :=
  { c with flight := c.flight ++ [⟨c.seq.wc + lat, d, value, mask, 0⟩] }

/-- A scalar result of latency `lat`; s0 discards (R239). -/
def Core.wsLate (c : Core) (lat : Nat) (n : Fin 64) (v : Double) : Core :=
  if n = 0 then c else c.launch lat (.sreg n) (v.setWidth 2048) (BitVec.ofNat 2048 (2 ^ 64 - 1))

/-- Flags ORed into VSTAT (R198, R199). -/
def Core.raise (c : Core) (f : Flags) : Core := { c with csr := { c.csr with vstat := c.csr.vstat ||| f } }

/-! ### Rings (R258, R259) -/

/-- State of the `k`-th entry from `p` of a ring. -/
def Ring.at (r : Ring) (p k : Nat) : EntryState := r.st.toList.getD ((p + k) % r.depth) .empty

/-- Bytes of the `k`-th entry from `p`. -/
def Ring.dataAt (r : Ring) (p k : Nat) : Vec := r.data.toList.getD ((p + k) % r.depth) 0

/-- How many of `n` entries from `p` are in state `e` in a row. -/
def Ring.run (r : Ring) (e : EntryState) (p : Nat) : Nat → Nat
  | 0 => 0
  | n + 1 => if r.at p 0 = e then 1 + r.run e (p + 1) n else 0

/-- fill: consecutive full entries among the held ones, from rp. -/
def Ring.fill (r : Ring) : Nat := r.run .full r.rp r.h

/-- free: consecutive empty entries among those not held, from wp. -/
def Ring.free (r : Ring) : Nat := r.run .empty r.wp (r.depth - r.h)

/-- Entry at the read pointer. -/
def Ring.head (r : Ring) : Vec := r.dataAt r.rp 0

/-- State of `n` entries from `p` set. -/
def Ring.mark (r : Ring) (e : EntryState) (p : Nat) : Nat → Ring
  | 0 => r
  | n + 1 => Ring.mark { r with st := r.st.setIfInBounds (p % r.depth) e } e (p + 1) n

/-- A read advance of `n` entries (R261). -/
def Ring.advR (r : Ring) (n : Nat) : Ring :=
  { r.mark .empty r.rp n with rp := (r.rp + n) % r.depth, h := r.h - n }

/-- A write advance of `n` entries (R261). -/
def Ring.advW (r : Ring) (n : Nat) : Ring := { r with wp := (r.wp + n) % r.depth, h := r.h + n }

def Core.ring (c : Core) (q : Fin 16) : Ring := c.rings[q]

def Core.setRing (c : Core) (q : Fin 16) (r : Ring) : Core := { c with rings := c.rings.set q r }

/-- A ring result: the entry at `p` becomes pending now and full when the result lands (R259). -/
def Core.toRing (c : Core) (lat : Nat) (q : Fin 16) (p : Nat) (v : Vec) : Core :=
  let c' := c.setRing q ((c.ring q).mark .pending p 1)
  c'.launch lat (.entry q (Fin.ofNat 8 (p % (c.ring q).depth))) v allBits

/-! ### Results that land (R240, R268, R298, R299) -/

/-- The flaws of a core that a write to `n` words of an array leaves: a word written whole is sound again (R435). -/
def rewritten (l : List Flaw) (a : CoreArray) (lo n : Nat) (whole : Nat → Bool) : List Flaw :=
  l.filter (fun f => !(f.array == a && decide (lo ≤ f.word) && decide (f.word < lo + n) && whole (f.word - lo)))

/-- One result lands. -/
def Core.land (c : Core) (l : Landing) : Core :=
  let c := c.raise l.flags
  let whole := fun (k : Nat) => el l.mask.toNat 64 k == 2 ^ 64 - 1
  match l.dest with
  | .sreg n =>
    { c with x := { c.x with s := c.x.s.set n (BitVec.setWidth 64 (merge ((c.x.s[n]).setWidth 2048) l.value l.mask)) } }
  | .vreg n =>
    { c with vec := { c.vec with v := c.vec.v.set n (merge c.vec.v[n] l.value l.mask) }, flaws := rewritten c.flaws .vreg (32 * n.val) 32 whole }
  | .mreg n =>
    { c with vec := { c.vec with m := c.vec.m.set n (BitVec.setWidth 256 (merge ((c.vec.m[n]).setWidth 2048) l.value l.mask)) },
             flaws := rewritten c.flaws .mask (4 * n.val) 4 whole }
  | .entry q e =>
    let r := c.ring q
    { c.setRing q { r with data := r.data.set e (merge r.data[e] l.value l.mask), st := r.st.set e .full } with
      flaws := rewritten c.flaws .ring (32 * (8 * q.val + e.val)) 32 whole }
  | .flags => c

/-- Every result due by working cycle `t` lands, in issue order. -/
def Core.landDue (c : Core) (t : Nat) : Core :=
  (c.flight.filter (fun l => decide (l.due ≤ t))).foldl Core.land
    { c with flight := c.flight.filter (fun l => !decide (l.due ≤ t)) }

/-- Rows of a tile (R293). -/
def Core.tileRow (c : Core) (a : Fin 8) (i : Nat) : BitVec 4096 := (c.mat.acc[a]).toList.getD i 0

def Core.setTileRow (c : Core) (a : Fin 8) (i : Nat) (v : BitVec 4096) : Core :=
  { c with mat := { c.mat with acc := c.mat.acc.set a ((c.mat.acc[a]).setIfInBounds i v) },
           flaws := rewritten c.flaws .acc (64 * (128 * a.val + i)) 64 (fun _ => true) }

/-- Rows `8·rb …` of a tile replaced. -/
def Core.setTileRows (c : Core) (a : Fin 8) (i : Nat) : List (BitVec 4096) → Core
  | [] => c
  | v :: vs => (c.setTileRow a i v).setTileRows a (i + 1) vs

/-- Results of a readout go in flight (R304, R307): one landing per entry, the flags with the last. -/
def Core.sendRows (c : Core) (due : Nat) (q : Fin 16) (wp depth : Nat) (flags : Flags) : List Vec → Core
  | [] => c
  | v :: vs =>
    Core.sendRows { c with flight := c.flight ++ [⟨due, .entry q (Fin.ofNat 8 (wp % depth)), v, allBits, flags⟩] }
      due q (wp + 1) depth flags vs

/-- A tile operation takes effect (R299, R302-R307). -/
def Core.applyTile (c : Core) (t : TileFlight) : Core :=
  match t.op with
  | .step _ _ _ rows b sb sa fc rb =>
    let r := (List.range 8).map (fun k =>
      stepRow fc (rows.getD k 0).toNat (fun blk => el (sa.getD k 0).toNat 16 blk) b sb (c.tileRow t.acc (8 * rb + k)))
    (c.setTileRows t.acc (8 * rb) (r.map Prod.fst)).raise (r.foldl (fun f x => f ||| x.2) 0)
  | .zero =>
    { c with mat := { c.mat with acc := c.mat.acc.set t.acc (Vector.replicate 128 0) },
             flaws := rewritten c.flaws .acc (8192 * t.acc.val) 8192 (fun _ => true) }
  | .write rb rows => c.setTileRows t.acc (8 * rb) rows
  | .bias rb int beta =>
    c.setTileRows t.acc (8 * rb) ((List.range 8).map (fun k =>
      let row := (c.tileRow t.acc (8 * rb + k)).toNat
      BitVec.ofNat 4096 (unel 32 ((List.range 128).map (fun j => biasElem int (el row 32 j) (el beta.toNat 32 j))))))
  | .read rb qa wp depth wp2 depth2 fmt fc band rm random =>
    let f := Fmt.ofCode fmt
    let r := (List.range 8).map (fun k =>
      let row := (c.tileRow t.acc (8 * rb + k)).toNat
      (List.range 128).map (fun j =>
        let lane := ((random.getD k []).getD (j % 64) 0).toNat
        readElem f fc band (Round.ofCode rm 16 (el lane 16 (j / 64))) (el row 32 j)))
    let flags := r.foldl (fun a row => row.foldl (fun a x => a ||| x.2) a) 0
    let e := rowEntries f.bits (r.map (fun row => row.map Prod.fst))
    let c := c.sendRows (t.due + 6) qa wp depth flags e.1
    if f.bits == 32 then c.sendRows (t.due + 6) (Fin.ofNat 16 (qa.val + 1)) wp2 depth2 flags e.2 else c

/-- Matrix steps read the ring entry of the present working cycle (R302). -/
def Core.captureRows (c : Core) : Core :=
  { c with mat := { c.mat with tiles := c.mat.tiles.map (fun t =>
      match t.op with
      | .step at' qa rp rows b sb sa fc rb =>
        if rows.length < 8 && decide (at' + rows.length ≤ c.seq.wc) then
          { t with op := .step at' qa rp (rows ++ [(c.ring qa).data.toList.getD ((rp + rows.length) % 8) 0]) b sb sa fc rb }
        else t
      | _ => t) } }

/-- Tile operations that are steps. -/
def TileFlight.isStep (t : TileFlight) : Bool :=
  match t.op with
  | .step _ _ _ _ _ _ _ _ _ => true
  | _ => false

/-- Tile operations due by cycle `t` that `p` selects take effect, in issue order. -/
def Core.tilesDue (c : Core) (p : TileFlight → Bool) (t : Nat) : Core :=
  let due := fun (x : TileFlight) => p x && decide (x.due ≤ t)
  (c.mat.tiles.filter due).foldl Core.applyTile
    { c with mat := { c.mat with tiles := c.mat.tiles.filter (fun x => !due x) } }

/-- One working cycle passes in a core: results land, steps read their rows, tile operations take effect. -/
def Core.advance (c : Core) : Core :=
  let c := { c with seq := { c.seq with wc := c.seq.wc + 1 } }
  let c := c.landDue c.seq.wc
  let c := c.captureRows
  c.tilesDue (fun _ => true) c.seq.wc

/-- Nothing in flight, and no access waiting for its port. -/
def Core.quiet (c : Core) : Bool := c.flight.isEmpty && c.loads.isEmpty && c.unserved.isEmpty && c.mat.tiles.isEmpty

/-- The result of a load goes in flight at working cycle `t` (R247): in a ring entry, disabled elements are 0 (R266). -/
def Landing.sent (l : Landing) (t : Nat) : Landing :=
  match l.dest with
  | .entry _ _ => { l with due := t + l.due, value := l.value &&& l.mask, mask := allBits }
  | _ => { l with due := t + l.due }

/-- The bundle completes: the latencies of its loads count from here (R247). -/
def Core.sendLoads (c : Core) : Core :=
  let sent := c.loads.map (fun l => l.sent c.seq.complete)
  { c with unserved := [], loads := [], flight := c.flight ++ sent, sentLoads := sent }

/-- Working cycles pass until nothing is in flight, at most `k` of them. -/
def Core.settleFor : Nat → Core → Core
  | 0, c => c
  | k + 1, c => if c.quiet then c else Core.settleFor k c.advance

/-- Every result in flight lands (R63, R444): no latency exceeds 18 cycles, and a readout adds 6 to a step's 12. A bundle of which an access
still waits for its port completes only when it is served. -/
def Core.settle (c : Core) : Core := (if c.unserved.isEmpty then c.sendLoads else c).settleFor 64

/-- The next free value of a run (DESIGN CHOICE, log 12). -/
def State.free (s : State) : Nat × State := (Config.freeNat s.freeCtr, { s with freeCtr := s.freeCtr + 1 })

/-! ### The error log (R428, R429) -/

/-- A record enters the log: its MSI-X vector is posted; a full log drops it or displaces another. -/
def Log.add (l : Log) (r : Record) : Log :=
  let full := decide (4096 ≤ l.records.length)
  let stored : Record := { r with seq := l.seq, lost := min (if full then l.lost + 1 else l.lost) 65535 }
  let trips := if r.sev == 5 then l.trips ++ [stored] else l.trips
  if !full then
    { l with records := l.records ++ [stored], seq := l.seq + 1, lost := 0, posts := l.posts ++ [1024 + r.cls], trips := trips }
  else if r.sev ≤ 1 then { l with lost := l.lost + 1, seq := l.seq + 1 }
  else
    let rest := match l.records.findIdx? (fun x => x.sev ≤ 1) with
      | some k => l.records.eraseIdx k
      | none => l.records.drop 1
    { l with records := rest ++ [stored], seq := l.seq + 1, lost := 0,
             posts := l.posts ++ [1024 + r.cls], trips := trips }

/-- An event of core `n` or another unit is recorded (R428). -/
def State.record (s : State) (code cls sev : Nat) (ctx : Option Nat) (unit unitNo sub addr detail detail2 : Nat) : State :=
  { s with log := s.log.add { code := code, cls := cls, sev := sev, ctx := ctx, tick := s.tick, rtick := s.rtick,
                              unit := unit, unitNo := unitNo, sub := sub, addr := addr, detail := detail,
                              detail2 := detail2, seq := 0, lost := 0 } }

/-- An event is recorded: its CLASS follows from its code (R458, R459). -/
def State.event (s : State) (code sev : Nat) (ctx : Option Nat) (unit unitNo sub addr detail detail2 : Nat) : State :=
  s.record code (code / 256) sev ctx unit unitNo sub addr detail detail2

/-- Kinds of bucket (R433): field bank, commons bank, lane, cluster replay, HBM channel, LPDDR channel: WARN, ACT and leak period. -/
def bucketFigures (kind : Nat) : Nat × Nat × Nat :=
  if kind ≤ 1 then (64, 256, 65536) else if kind = 2 then (512, 4096, 1) else if kind = 3 then (1024, 8192, 1) else (256, 1024, 65536)

/-- WARN, ACT and leak period of a kind of bucket, as the GS has set them (R432). -/
def State.bucketMarks (s : State) (kind : Nat) : Nat × Nat × Nat := tget (bucketFigures kind) s.marks kind

/-- UNIT, unit number and sub-unit of a bucket's records: units are numbered 32 banks to a core, 64 to a cluster, 144 lanes and row
groups to a core. -/
def bucketUnit (kind u : Nat) : Nat × Nat × Nat :=
  if kind = 0 then (1, u / 32, u % 32) else if kind = 1 then (2, u / 64, u % 64) else if kind = 2 then (0, u / 144, u % 144)
  else (kind, u, 0)

/-- The action of a bucket that has reached ACT (R433). -/
def State.bucketAct (s : State) (kind u : Nat) : State :=
  if kind = 0 then { s with retireDue := s.retireDue ++ [u / 32] }
  else if kind = 2 then { s with katDue := s.katDue ++ [u / 144] }
  else if kind = 3 then { s with clusters := tset s.clusters u (let k := tget Cluster.init s.clusters u; { k with trim := min (k.trim + 1) Config.trimCeiling }) }
  else if 4 ≤ kind then { s with unitDue := s.unitDue ++ [(kind, u)] }
  else s

/-- Weight added to a bucket (R432): the records of WARN and ACT, and the action. -/
def State.bucketAdd (s : State) (kind u w : Nat) : State :=
  let key := kind * 2 ^ 20 + u
  let b := tget ⟨0, false, false, none⟩ s.buckets key
  let n := min (b.count + w) 65535
  let m := s.bucketMarks kind
  let x := bucketUnit kind u
  let warn := !b.warned && decide (m.1 ≤ n)
  let act := !b.acted && decide (m.2.1 ≤ n)
  let s := { s with buckets := tset s.buckets key ⟨n, b.warned || warn, b.acted || act, b.window⟩ }
  let s := if warn then s.event 0x901 1 none x.1 x.2.1 x.2.2 0 n m.1 else s
  let s := if act && (decide (kind < 2) || kind == 3) then s.event 0x902 1 none x.1 x.2.1 x.2.2 0 n m.2.1 else s
  if act then s.bucketAct kind u else s

/-- A corrected error: counted, and recorded once per bucket in each 1 ms window (R429, R432). -/
def State.corrected (s : State) (kind u unit unitNo sub addr : Nat) : State :=
  let s := s.bucketAdd kind u 1
  let key := kind * 2 ^ 20 + u
  let b := tget ⟨0, false, false, none⟩ s.buckets key
  if b.window = some (s.rtick / 1000) then s
  else
    let f := s.free
    ({ f.2 with buckets := tset f.2.buckets key { b with window := some (s.rtick / 1000) } }).event 0x301 0 none unit unitNo sub addr (f.1 % 2 ^ 64) 0

/-- Work put at the end of the agenda. -/
def State.push (s : State) (i : Instr) : State := { s with agenda := s.agenda ++ [.event i] }

/-! ### Local memory (R103-R109, R114-R116) -/

/-- Which local memory a local address lies in, and the offset there (R103). -/
def locate (a : Nat) : Option (Bool × Nat) :=
  if a < 0x800000 then some (false, a)
  else if 0x2000000 ≤ a && a < 0x4000000 then some (true, a - 0x2000000)
  else none

/-- A region holds the byte at `a` (R108). -/
def Region.holds (r : Region) (a : Nat) : Bool := r.valid && decide (r.base ≤ a) && decide (a < r.base + r.size)

/-- The region of the core that holds the byte at `a`, by index. -/
def Core.regionAt (c : Core) (a : Nat) : Option (Fin 16) := (List.finRange 16).find? (fun k => (c.rgn[k]).holds a)

/-- The first byte of `n` from `a` that is not in the region of the first one, or that is in none (R245). -/
def Core.outside (c : Core) (a n : Nat) : Option Nat :=
  match (if (locate a).isSome then c.regionAt a else none) with
  | none => some a
  | some k =>
    let stop := (c.rgn[k]).base + (c.rgn[k]).size
    if a + n ≤ stop then none else some stop

/-- The row group of an offset in a local memory. -/
def Local.group (l : Local) (off : Nat) : Group := tget Group.init l.groups (off / 2048)

/-- A local memory's view of an address: the field of the core or the commons. -/
def pick (field commons : Local) (isCommons : Bool) : Local := if isCommons then commons else field

/-- Row-group starts that `n` bytes from `a` touch. -/
def groupStarts (a n : Nat) : List Nat :=
  if n = 0 then [] else (List.range ((a + n - 1) / 2048 - a / 2048 + 1)).map (fun k => max a ((a / 2048 + k) * 2048))

/-- The first byte of `n` from local address `a` whose group fails `p`. -/
def firstGroup (field commons : Local) (p : Group → Bool) (a n : Nat) : Option Nat :=
  (groupStarts a n).find? (fun x =>
    match locate x with
    | some (m, off) => p ((pick field commons m).group off)
    | none => true)

/-- Bytes of local memory from local address `a` (R31: as they stood before the bundle when the caller passes those). -/
def localBytes (field commons : Local) (a n : Nat) : List Byte :=
  match locate a with
  | some (m, off) => readBytes (pick field commons m).cells off n
  | none => List.replicate n 0

/-- A whole row is written (R115): its fresh bit is set; a full mask resets the age and makes the group valid. -/
def Local.freshRow (l : Local) (off : Nat) : Local :=
  let g := l.group off
  let f := g.fresh ||| (1 <<< (off / 64 % 32))
  let g' := if f = BitVec.allOnes 32 then { g with fresh := 0, age := 0, valid := true, pending := g.pending && g.writeback, served := [] }
            else { g with fresh := f }
  { l with groups := tset l.groups (off / 2048) g' }

/-- Bytes stored from an offset: a partial write (R116). A word that they cover whole is correctable again; one that
they cover in part stays uncorrectable (R435). -/
def Local.put (l : Local) (off : Nat) (bs : List Byte) : Local :=
  { l with cells := writeBytes l.cells off bs,
           bad := l.bad.filter (fun w => !(decide (off ≤ 8 * w) && decide (8 * w + 8 ≤ off + bs.length))),
           weak := l.weak.filter (fun w => !(decide (off ≤ 8 * w) && decide (8 * w + 8 ≤ off + bs.length))) }

/-- Whether `n` bytes from an offset meet an uncorrectable word (R435). -/
def Local.badIn (l : Local) (off n : Nat) : Bool := l.bad.any (fun w => decide (off < 8 * w + 8) && decide (8 * w < off + n))

/-- 64 bytes of one row stored by one access: a whole-row write (R115). -/
def Local.putRow (l : Local) (off : Nat) (bs : List Byte) : Local := (l.put off bs).freshRow off

/-- Whether `n` bytes from a local address meet an uncorrectable word. -/
def localBad (field commons : Local) (a n : Nat) : Bool :=
  match locate a with
  | some (m, off) => (pick field commons m).badIn off n
  | none => false

/-- The rows that `n` bytes from `off` cover entirely, each made fresh (R322). -/
def Local.freshRows (l : Local) (off n : Nat) : Local :=
  ((List.range ((off + n) / 64 - (off + 63) / 64)).map (fun k => ((off + 63) / 64 + k) * 64)).foldl Local.freshRow l

/-- The own field or the commons of core `n` changed at a local address. -/
def State.updLocal (s : State) (n : Nat) (isCommons : Bool) (f : Local → Local) : State :=
  if isCommons then s.updCluster (clusterOf n) (fun k => { k with commons := f k.commons })
  else s.updCore n (fun c => { c with field := f c.field })

/-- Bytes stored at a local address of core `n`, as a partial write. -/
def State.storeLocal (s : State) (n a : Nat) (bs : List Byte) : State :=
  match locate a with
  | some (m, off) => s.updLocal n m (fun l => l.put off bs)
  | none => s

/-- A row stored at a local address of core `n`, as a whole-row write. -/
def State.storeRow (s : State) (n a : Nat) (bs : List Byte) : State :=
  match locate a with
  | some (m, off) => s.updLocal n m (fun l => l.putRow off bs)
  | none => s

/-- Bytes that one bank row holds in a row (R104, R105): 64, or the span of a commons region where that is less. -/
def spanBytes (code : Nat) : Nat := if code = 0 then 16 else if code = 1 then 32 else 64

/-- Bank, and byte address in the bank, of an offset in the commons under a span code (R105). -/
def commonsPlace (code o : Nat) : Nat × Nat :=
  let k := if code = 7 then 6 else 4 + code
  let j := o / 2 ^ (k + 6)
  let bank := bits (o / 2 ^ k) 5 0
  (if code = 7 then bank else bank ^^^ bits j 5 0, j * 2 ^ k + o % 2 ^ k)

/-- Bank and row in the bank of an offset in a local memory (R104, R105). -/
def bankRow (code : Nat) (isCommons : Bool) (off : Nat) : Nat × Nat :=
  if isCommons then ((commonsPlace code off).1, (commonsPlace code off).2 / 64) else (bits off 10 6, off / 2048)

/-- Bytes from `a` cut at the multiples of `k`: address and length of each part. -/
def spansOf (k a n : Nat) : List (Nat × Nat) :=
  if n = 0 then []
  else (List.range ((a + n - 1) / k - a / k + 1)).map (fun j =>
    let lo := max a ((a / k + j) * k)
    (lo, min (a + n) ((a / k + j + 1) * k) - lo))

/-- The span code of a local address, 7 where no region of the core gives one. -/
def Core.spanAt (c : Core) (a : Nat) : Nat :=
  match c.regionAt a with
  | some k => if (c.rgn[k]).commons then (c.rgn[k]).span else 7
  | none => 7

/-- Memory, bank and row in the bank of a local address, as core `c` holds it. -/
def Core.rowOf (c : Core) (a : Nat) : Bool × Nat × Nat :=
  match locate a with
  | some (m, o) => let b := bankRow (c.spanAt a) m o; (m, b.1, b.2)
  | none => (false, 0, 0)

/-- Bytes from a local address, cut where the bank row changes. -/
def Core.cut (c : Core) (a n : Nat) : List (Nat × Nat) := spansOf (spanBytes (c.spanAt a)) a n

/-- The lowest core of a cluster that holds a commons address in a region, with the region's index. -/
def State.holderOf (s : State) (cl a : Nat) : Option (Nat × Nat × Region) :=
  (List.range 8).findSome? (fun j =>
    let n := 8 * cl + j
    ((s.core n).regionAt a).map (fun k => (n, k.val, (s.core n).rgn[k])))

/-- The span code of an offset in the field of core `n` or in the commons of its cluster. -/
def State.spanAt (s : State) (n : Nat) (isCommons : Bool) (off : Nat) : Nat :=
  if isCommons then ((s.holderOf (clusterOf n) (0x2000000 + off)).map (fun h => h.2.2.span)).getD 7 else 7

/-- The bank of an offset in the field of core `n` or in the commons of its cluster. -/
def State.bankAt (s : State) (n : Nat) (isCommons : Bool) (off : Nat) : Nat := (bankRow (s.spanAt n isCommons off) isCommons off).1

/-- Parts of an access gathered by bank row: the parts of one row share its port in one cycle (R288). -/
def Core.byRow {α : Type} (c : Core) (at' : α → Nat) (l : List α) : List ((Bool × Nat × Nat) × List α) :=
  ((l.map (fun x => c.rowOf (at' x))).eraseDups).map (fun k => (k, l.filter (fun x => decide (c.rowOf (at' x) = k))))

/-- A load of the bundle in hand (R245, R285): its result, and the pieces that it reads, as local address, length and byte place. Nothing
is read before the ports of its banks serve it (R30, R247). -/
def State.addLoad (s : State) (l : Landing) (pieces : List (Nat × Nat × Nat)) : State :=
  let c := s.view
  let parts := pieces.flatMap (fun p => (c.cut p.1 p.2.1).map (fun q => (q.1, q.2, p.2.2 + (q.1 - p.1))))
  { s with issue := { s.issue with loads := s.issue.loads ++ [l],
                                   ports := s.issue.ports ++ (c.byRow (fun p => p.1) parts).map (fun g =>
                                     ⟨g.1.1, g.1.2.1, g.1.2.2, 0, s.issue.ports.length, .load s.issue.loads.length g.2⟩) } }

/-- A store of the bundle in hand: the pieces that it writes, as local address, bytes and number of the whole-row write. -/
def State.addStore (s : State) (pieces : List (Nat × List Byte × Nat)) : State :=
  let c := s.view
  let parts := pieces.flatMap (fun p => (c.cut p.1 p.2.1.length).map (fun q => (q.1, (p.2.1.drop (q.1 - p.1)).take q.2, p.2.2)))
  { s with issue := { s.issue with ports := s.issue.ports ++ (c.byRow (fun p => p.1) parts).map (fun g =>
      ⟨g.1.1, g.1.2.1, g.1.2.2, 0, s.issue.ports.length, .store g.2⟩) } }

/-! ### What a command does not see of its own bundle (R166) -/

/-- A command keeps bytes as they stood before a store of its own bundle; of two stores to one byte, as before the first. -/
def Command.hide (x : Command) (a : Nat) (old : List Byte) : Command :=
  { x with hidden := x.hidden ++ (((List.range old.length).map (a + ·)).zip old).filter (fun p => !(x.hidden.any (fun q => q.1 == p.1))) }

/-- Another write has replaced bytes: the command sees what stands there. -/
def Command.reveal (x : Command) (a n : Nat) : Command := { x with hidden := x.hidden.filter (fun p => !(decide (a ≤ p.1) && decide (p.1 < a + n))) }

/-- The commands of the core's last bundle keep bytes that a store of that bundle replaces; to others it is another write (R166) (DEDUCED,
log 28). -/
def Core.hide (c : Core) (a : Nat) (old : List Byte) : Core :=
  let f := fun (x : Command) => if x.born + 1 = c.seq.epoch then x.hide a old else x.reveal a old.length
  { c with queue0 := c.queue0.map f, queue1 := c.queue1.map f }

/-- Another write has replaced bytes for every command of the core. -/
def Core.reveal (c : Core) (a n : Nat) : Core :=
  { c with queue0 := c.queue0.map (fun x => x.reveal a n), queue1 := c.queue1.map (fun x => x.reveal a n) }

/-- The same for every core that sees the bytes: the core of a field, the cores of a cluster for its commons. -/
def State.reveal (s : State) (n : Nat) (isCommons : Bool) (a len : Nat) : State :=
  { s with cores := tmap (fun k c => if (if isCommons then clusterOf k = clusterOf n else k = n) then c.reveal a len else c) s.cores }

/-- Local bytes of core `n` as one of its commands sees them (R166). -/
def Command.sees (x : Command) (a : Nat) (bs : List Byte) : List Byte :=
  (List.range bs.length).zipWith (fun k b => ((x.hidden.find? (fun p => p.1 == a + k)).map Prod.snd).getD b) bs

/-! ### Groups as they age (R112, R113, R117, R118) -/

/-- The age at which a group of a class reaches its figure in a band. -/
def figure (band cls : Nat) : Nat :=
  let m := if band ≤ 9 then 8 else 17 - band
  if cls = 0 then 4 * m else if cls = 1 then 32 * m else if cls = 2 then 256 * m else 192 * m

/-- A group one retention tick older. -/
def Group.older (g : Group) : Group := if g.valid then { g with age := min 4095 (g.age + 1) } else g

/-- A group reaches its figure (R117 step 3). -/
def Group.reaches (g : Group) (band : Nat) : Bool := g.valid && !g.pending && decide (figure band g.cls ≤ g.age)

/-- What a group that reaches its figure comes to (R118): 1 a refresh, 2 an expiry, 3 a write-back. -/
def Group.outcome (g : Group) (mapped : Bool) : Nat :=
  if g.cls = 3 ∨ g.act = 0 then 1 else if g.act = 2 ∧ mapped = true then 3 else 2

/-- The band that a temperature in thousandths of a degree selects (R112): the smallest k in 0 to 14 with temperature ≤ 40 + 5k, else 15. -/
def bandOf (temp : Int) : Nat := ((List.range 15).find? (fun (k : Nat) => decide (temp ≤ 40000 + 5000 * Int.ofNat k))).getD 15

/-- The sensors of an island may be believed (R466): all pass their self-check, and the hottest reads from −40 to 150 °C. -/
def Cluster.sane (k : Cluster) : Bool := k.sensorsOk && decide (-40000 ≤ k.temp) && decide (k.temp ≤ 150000)

/-- The band that an island selects; a sensor that may not be believed is taken to read above 110 °C (R112, R466). -/
def Cluster.band (k : Cluster) : Nat := if k.sane then bandOf k.temp else 15

/-- The band of a cluster from the boundary of the present instant on (R112, R122). -/
def State.bandNow (s : State) (cl : Nat) : Nat :=
  let k := tget Cluster.init s.clusters cl
  if s.rsub = 0 ∧ (s.rtick + 1) % 100 = 0 then k.band else k.csr.tempBand.toNat

/-- A group expires at the boundary of this very cycle, as it stands (R117, R123). -/
def State.onVerge (s : State) (cl : Nat) (g : Group) (mapped : Bool) : Bool :=
  decide (s.rsub = 0) && g.older.reaches (s.bandNow cl) && g.outcome mapped == 2

/-- A group that a load of this cycle finds expired: one that is invalid, or one that expires at the boundary of this very cycle (R121,
R123) (DEDUCED, log 77), unless a write of the cycle completes its fresh mask first. `m` and `grp` name it in its cluster. -/
def State.expired (s : State) (n m grp : Nat) (g : Group) (mapped : Bool) : Bool :=
  !g.valid || (s.onVerge (clusterOf n) g mapped && !s.spared.contains (clusterOf n, m, grp))

/-! ### Traps (R444-R450) -/

/-- A trap: code, INFO and TRAP_ADDR (R450). -/
structure Trap where
  code : Nat
  info : Nat
  addr : Nat
  deriving DecidableEq, Repr

def Trap.localAddress (w a : Nat) : Trap := ⟨0x10, w, a⟩
def Trap.misaligned (w a : Nat) : Trap := ⟨0x11, w, a⟩
def Trap.reservedField (bit : Nat) : Trap := ⟨4, bit, 0⟩
def Trap.reservedOperand (bit : Nat) : Trap := ⟨5, bit, 0⟩
def Trap.ring (q reason : Nat) : Trap := ⟨0x1A, q + 256 * reason, 0⟩
def Trap.loopState (reason : Nat) : Trap := ⟨0x19, reason, 0⟩

/-- TRAP_CAUSE (R445). -/
def causeWord (t : Trap) (slot : Nat) (rep inc : Bool) : Double :=
  BitVec.ofNat 64 (t.code + slot * 2 ^ 16 + (if rep then 2 ^ 19 else 0) + (if inc then 2 ^ 20 else 0) + t.info * 2 ^ 32)

/-- The address of the bundle at or after `pc`, padding skipped line by line (R213). -/
def paddedTo (code : List Byte) (codeLen : Nat) : Nat → Nat → Nat
  | 0, pc => pc
  | k + 1, pc => if pc < codeLen ∧ code.getD pc 0 = 0 then paddedTo code codeLen k ((pc / 64 + 1) * 64) else pc

/-- The address of the next bundle that would have issued (R448, R449); a bank holds 4,096 lines. -/
def Core.nextPc (c : Core) : Nat := paddedTo c.seq.code c.seq.codeLen 4097 c.seq.pc

/-- The trap record is written and the core halts (R444 steps 2 to 4): results in flight land, the active turn ends. -/
def Core.halt (c : Core) (cause : Double) (pc addr src : Nat) : Core :=
  let c := c.settle
  { c with seq := { c.seq with mode := .halted, starts := false, stop := none, wait := none, waitt := none },
           csr := { c.csr with trapCause := cause, trapPc := BitVec.ofNat 64 pc, trapAddr := BitVec.ofNat 64 addr,
                               trapSrc := BitVec.ofNat 64 src },
           turn := none, rollback := none }

/-- The bundle in hand is put aside: nothing of it commits (R217). -/
def State.discard (s : State) : State :=
  match s.issue.pre with
  | some c => { s.setCore s.here c with issue := { Issue.init with core := s.here } }
  | none => { s with issue := { Issue.init with core := s.here } }

/-- Core `n` takes a trap (R444): the record is written, the core is HALTED, an error record of CLASS 0 and SEV 3 is
posted, and the fault of the instance follows as the next work of the cycle (R49, R449). -/
def State.trapCore (s : State) (n : Nat) (t : Trap) (slot : Nat) (rep inc : Bool) (pc src : Nat) : State :=
  let s := s.updCore n (fun c => c.halt (causeWord t slot rep inc) pc t.addr src)
  let s := s.record t.code 0 3 (some (s.core n).csr.ctxId.toNat) 0 n slot t.addr pc src
  { s with agenda := .event (.siblingStop n n) :: s.agenda }

/-- The bundle in hand takes a trap of slot `k`, whose effective body is `src` (R217, R444). -/
def State.takeTrap (s : State) (k : Nat) (t : Trap) (src : Nat) : State :=
  (s.discard).trapCore s.here t k s.issue.rep s.issue.inc.isSome s.view.seq.pc src

/-- The uncorrectable words of `n` bytes from an offset, by number. -/
def Local.badWords (l : Local) (off n : Nat) : List Nat := l.bad.filter (fun w => decide (off < 8 * w + 8) && decide (8 * w < off + n))

/-- The uncorrectable word at an offset of the field or the commons of core `n` is recorded and contained (R437, R438, R475): in the
buffer of the active turn, the turn is rolled back, unless it has been twice or is being rolled back; in another valid group,
the owner's context is ended; in an invalid group, there is a record of SEV 0 only. Its bucket takes 16 (R433). -/
def State.wordError (s : State) (n : Nat) (isCommons : Bool) (w : Nat) : State :=
  let c := s.core n
  let k := clusterOf n
  let l := if isCommons then (s.cluster k).commons else c.field
  let g := l.group (8 * w)
  let a := (if isCommons then 0x2000000 else 0) + 8 * w
  let bank := s.bankAt n isCommons (8 * w)
  let f := s.free
  let s := f.2.bucketAdd (if isCommons then 1 else 0) (if isCommons then 64 * k + bank else 32 * n + bank) 16
  let unit := if isCommons then 2 else 1
  let num := if isCommons then k else n
  let inTurn := !isCommons && (match c.turn with
    | some t => t.len != 0 && decide (t.base ≤ a) && decide (a < t.base + t.len) && decide (t.rolled < 2) && c.rollback.isNone && decide (c.seq.stop ≠ some .rollback)
        && (decide (c.seq.mode = .running) || decide (c.seq.mode = .atHeadland))
    | none => false)
  if inTurn then
    let s := s.event 0x904 2 (some c.csr.ctxId.toNat) unit num bank a (f.1 % 2 ^ 64) c.csr.turnCnt.toNat
    { s with agenda := .event (.turnRollback n (BitVec.ofNat 64 f.1)) :: s.agenda }
  else if g.valid then
    let s := s.event 0x302 3 (some g.owner) unit num bank a (f.1 % 2 ^ 64) 0
    { s with agenda := .event (.contextEnd g.owner 0x302 0) :: s.agenda }
  else s.event 0x302 0 none unit num bank a (f.1 % 2 ^ 64) 0

/-- Words with one bit wrong among `len` bytes from an offset of the field or the commons of core `n` are returned corrected, and
each is counted (R433, R434) (DEDUCED, log 75). -/
def State.correctWords (s : State) (n : Nat) (isCommons : Bool) (off len : Nat) : State :=
  let l := if isCommons then (s.cluster (clusterOf n)).commons else (s.core n).field
  (l.weak.filter (fun w => decide (off < 8 * w + 8) && decide (8 * w < off + len))).foldl (fun s w =>
    let a := (if isCommons then 0x2000000 else 0) + 8 * w
    let k := clusterOf n
    let bank := s.bankAt n isCommons (8 * w)
    s.corrected (if isCommons then 1 else 0) (if isCommons then 64 * k + bank else 32 * n + bank) (if isCommons then 2 else 1)
      (if isCommons then k else n) bank a) s

/-- A read of core `n` of `len` bytes from a local address, none of them in an uncorrectable word. -/
def State.readCorrects (s : State) (n a len : Nat) : State :=
  match locate a with
  | some (m, off) => s.correctWords n m off len
  | none => s

/-- Every uncorrectable word of `len` bytes from an offset of the field or the commons of core `n` is recorded and contained. -/
def State.wordErrors (s : State) (n : Nat) (isCommons : Bool) (off len : Nat) : State :=
  let l := if isCommons then (s.cluster (clusterOf n)).commons else (s.core n).field
  (l.badWords off len).foldl (fun s w => s.wordError n isCommons w) s

/-- A read of core `n` of `len` bytes from a local address met uncorrectable words. -/
def State.readError (s : State) (n a len : Nat) : State :=
  match locate a with
  | some (m, off) => s.wordErrors n m off len
  | none => s

/-! ### The commit of a bundle (R217, R253) -/

/-- Stage predicates of the active loop with more than one stage (R253 set_stages); all true when there is none. -/
def Core.setStages (c : Core) : Core :=
  let ps := match c.x.loops.find? (fun l => decide (1 < l.stages)) with
    | none => Vector.replicate 8 true
    | some l =>
      let i := (c.x.lc[l.n]).toNat
      let f := fun (k : Nat) => if k < l.stages then decide (k ≤ i) && decide (i < l.count + k) else true
      #v[f 0, f 1, f 2, f 3, f 4, f 5, f 6, f 7]
  { c with x := { c.x with ps := ps } }

/-- The loop-back of a bundle that ends at `next` by fall-through (R253), for the loops given, innermost first: the
core and its next pc. lc has 32 bits and wraps, so that a staged loop whose T is 2^32 or more never ends (DESIGN CHOICE, log 90). -/
def Core.loopBack (c : Core) (next : Nat) : List Loop → Core × Nat
  | [] => (c, next)
  | l :: rest =>
    if l.stop ≠ next then (c, next)
    else
      let n := c.x.lc[l.n] + 1
      let c := { c with x := { c.x with lc := c.x.lc.set l.n n } }
      if n.toNat < l.total then (c.setStages, l.start)
      else (Core.setStages { c with x := { c.x with loops := rest } }).loopBack next rest

/-- The first destination named twice (R218). -/
def firstTwice : List (Nat × Nat) → Option (Nat × Nat)
  | [] => none
  | d :: rest => if rest.contains d then some d else firstTwice rest

/-- The sequencer after a bundle at an instant: the next pc, the cost of a taken transfer (R249). The bundle completes in this cycle,
unless a port keeps an access of it waiting (R30). -/
def Core.commitSeq (c : Core) (iss : Issue) (now : Nat) : Core :=
  let pc := c.seq.pc
  let c := { c with unserved := iss.ports.map (fun p => { p with since := now }), loads := iss.loads }
  let r : Core × Nat := match iss.jump with
    | some t => (c, t)
    | none => c.loopBack (iss.skip.getD (pc + iss.len)) c.x.loops
  let c := r.1
  { c with seq := { c.seq with pc := r.2, last := pc, epoch := c.seq.epoch + 1,
                               inc := (if iss.inc.isSome then iss.inc else c.seq.inc), complete := c.seq.wc,
                               busy := c.seq.wc + 1 + (if iss.jump.isSome then 1 else 0) } }

/-- Commands of the core that have not ended. -/
def Core.outstanding (c : Core) : Bool := !(c.queue0.isEmpty && c.queue1.isEmpty)

/-- A team that its launch's queue holds (R72): it is not yet released, or it is swapped. -/
def Team.queued (t : Team) : Bool :=
  match t.state with
  | .ready => true
  | .swapped => true
  | .placed => !t.resumed
  | .staged => !t.resumed
  | .held => !t.resumed
  | _ => false

/-- The waiting queue of a team's launch is not empty (R72): an instance not yet released, or a swapped team. -/
def State.queueWaits (s : State) (team : Nat) : Bool :=
  match tfind s.teams team with
  | none => false
  | some t =>
    match tfind s.insts t.inst with
    | none => false
    | some i =>
      let more := match tfind s.units i.launch with
        | some u => decide (u.made < u.total)
        | none => false
      more || s.teams.any (fun p =>
        decide (p.2.inst ≠ t.inst) && p.2.queued
          && (match tfind s.insts p.2.inst with | some j => j.launch == i.launch | none => false))

/-- What ends the furrow, the wait or the task after the commit (R369, R370, R372, R373). EXIT halts the core, at once
where no command and no access of its own is outstanding, and else when the last one ends (R61). -/
def State.commitLeave (s : State) (n : Nat) (lv : Leave) : State :=
  match lv with
  | .stay => s
  | .headland b => s.updCore n (fun c => { c with seq := { c.seq with mode := .atHeadland, wait := some b } })
  | .waitt t => s.updCore n (fun c => { c with seq := { c.seq with waitt := some t } })
  | .exit =>
    let s := s.updCore n (fun c =>
      { c with x := { c.x with loops := [] }, turn := none,
               seq := (if c.outstanding || !c.unserved.isEmpty then { c.seq with stop := some .exit } else { c.seq with mode := .halted }) })
    { s with agenda := .event (.drainEnd n) :: s.agenda }
  | .turn base len d bar engine => s.updCore n (fun c =>
      { c with turn := some { pc := c.seq.pc, s := c.x.s, p := c.x.p, loops := c.x.loops, lc := c.x.lc, ps := c.x.ps,
                              latch := c.seq.latch, inc := c.seq.inc, vctl := c.csr.vctl, vseed := c.csr.vseed,
                              lfsr := c.vec.lfsr, desc := c.desc, exps := c.bars.toList.map Barrier.exp,
                              refill := c.desc[d], base := base, len := len, bar := bar, engine := engine, rolled := 0 },
               csr := { c.csr with turnCnt := c.csr.turnCnt + 1 } })
  | .yield =>
    let t := (s.core n).team.getD 0
    if s.queueWaits t then { s with agenda := .event (.preempt t) :: s.agenda } else s

/-- The states that a write of VSEED in the bundle sets: they apply from the next bundle (R195, R199). -/
def State.reseed (s : State) : State :=
  if s.issue.reseed then s.upd (fun c => { c with vec := { c.vec with lfsr := lfsrAll c.csr.vseed } }) else s

/-- The bundle in hand commits (R217), or takes the write-conflict trap (R218). -/
def State.retire (s : State) : State :=
  match firstTwice s.issue.dests with
  | some d => s.takeTrap 7 ⟨9, d.1 * 16 + d.2 * 256, 0⟩ 0
  | none =>
    let n := s.here
    let lv := s.issue.leave
    let s := s.reseed
    let s := match s.issue.post with
      | some r => s.updCluster (clusterOf n) (fun k => { k with reqQ := k.reqQ ++ [r] })
      | none => s
    let s := match s.issue.moncap with
      | some m => s.updCluster (clusterOf n) (fun k => { k with csr := { k.csr with moncap := m } })
      | none => s
    let s := s.updCore n (fun c => c.commitSeq s.issue (s.tick * 64 + s.instant))
    let s := { s with issue := { Issue.init with core := n } }
    s.commitLeave n lv

end Sys2Proof.Machine
end

