-- ==== Sys2Proof/Machine/Operands.lean ====
section
/-! DEFINITION. Operand forms: source specifiers, guards, destinations and random bits of the vector units (R220, R221,
R266-R268, R195, R196), ring waits (R259, R260), and the frame in which every slot operation runs (R215, R217, R446). -/

namespace Sys2Proof.Machine

/-! ### Sources (R220, R267) -/

/-- Element `e` of the lane-index source (R267). -/
def laneCode (f : Fmt) (e : Nat) : Nat := if f.isInt then e else (roundTo f (.ofInt e) .rne).1

/-- The source `one` (R267). -/
def oneCode (f : Fmt) : Nat := if f.isInt then 1 else (roundTo f (.ofInt 1) .rne).1

/-- A scalar register converted to the format and broadcast (R267). -/
def broadcastCode (f : Fmt) (v : Nat) : Nat :=
  if f.isInt then v % 2 ^ f.bits else (roundTo f (floatValue .fp32 (v % 2 ^ 32)) .rne).1

/-- Elements of a vector in a format (R266). -/
def Fmt.lanes (f : Fmt) : Nat := 2048 / f.bits

/-- The 2,048 bits that a source specifier yields, elements in format `f` (R267). -/
def Core.source (c : Core) (f : Fmt) (spec : Nat) : Nat :=
  if spec < 32 then (c.vec.v[spec]?.getD 0).toNat
  else if spec < 48 then (c.ring (Fin.ofNat 16 (spec - 32))).head.toNat
  else if spec = 48 then 0
  else if spec = 49 then 2 ^ 2048 - 1
  else if spec = 50 then unel f.bits ((List.range f.lanes).map (laneCode f))
  else if spec = 51 then unel f.bits (List.replicate f.lanes (oneCode f))
  else if spec < 60 then unel f.bits (List.replicate f.lanes (broadcastCode f (c.rs (Fin.ofNat 64 (spec + 4))).toNat))
  else 0

/-! ### Guards (R221, R266) -/

/-- Whether the guard enables element `e`; a stage guard that is false never comes this far. -/
def Core.enabled (c : Core) (g e : Nat) : Bool := if g < 8 then (c.rm (Fin.ofNat 8 g)).getLsbD e else true

/-- A stage guard that is false (R221). -/
def Core.guardOff (c : Core) (g : Nat) : Bool := decide (8 ≤ g) && !(c.x.ps[(Fin.ofNat 8 (g - 8) : Fin 8)])

/-! ### Random bits (R195, R196) -/

/-- One step of an LFSR: 32 repetitions. -/
def lfsrStep (s : BitVec 32) : BitVec 32 := (List.range 32).foldl (fun s _ => lfsrShift s) s

/-- Whether any of the elements of lane `l` is enabled, for elements of `w` bits. -/
def laneOn (w : Nat) (en : Nat → Bool) (l : Nat) : Bool := (List.range (32 / w)).any (fun j => en (l * (32 / w) + j))

/-- All LFSRs after one step of every lane of unit `u` that `on` selects. -/
def stepLanes (lf : Vector (BitVec 32) 128) (u : Nat) (on : Nat → Bool) : Vector (BitVec 32) 128 :=
  (List.range 64).foldl (fun lf l =>
    if on l then lf.setIfInBounds (64 * u + l) (lfsrStep (lf.toList.getD (64 * u + l) 0)) else lf) lf

/-- VCTL.RM and VCTL.FTZ (R367). -/
def Core.rmode (c : Core) : Nat := (c.csr.vctl &&& 7).toNat
def Core.ftz (c : Core) : Bool := c.csr.vctl.getLsbD 3

/-- Whether an operation that rounds steps LFSRs (R196). -/
def Core.isSR (c : Core) : Bool := decide (4 ≤ c.rmode)

/-- The rounding mode of element `e` of `w` bits on unit `u`, the lanes' LFSRs having stepped (R192, R196). -/
def Core.roundFor (c : Core) (u w e : Nat) : Round :=
  let k := 32 / w
  let st := if c.isSR then (lfsrStep (c.vec.lfsr.toList.getD (64 * u + e / k) 0)).toNat else 0
  Round.ofCode c.rmode w (el st w (e % k))

/-- The rounding mode of element `e` in a combine: a lane whose elements are all guarded off does not step, and its random bits are those of
its state as it stands (R196, R282) (DEDUCED, log 85). -/
def Core.roundIn (c : Core) (en : Nat → Bool) (u w e : Nat) : Round :=
  let k := 32 / w
  if laneOn w en (e / k) then c.roundFor u w e
  else Round.ofCode c.rmode w (el (c.vec.lfsr.toList.getD (64 * u + e / k) 0).toNat w (e % k))

/-- The vector unit of the slot in hand. -/
def State.vunit (s : State) : Nat := if s.issue.slot = .v1 then 1 else 0

/-- The lanes of the unit step (R196). -/
def State.stepLfsr (s : State) (w : Nat) (en : Nat → Bool) : State :=
  if s.view.isSR then
    s.upd (fun c => { c with vec := { c.vec with lfsr := stepLanes c.vec.lfsr s.vunit (laneOn w en) } })
  else s

/-! ### Destinations (R220, R266, R268) -/

/-- A vector result for a destination specifier: a register keeps the bits that `mask` clears; a ring entry has 0
there (R266). -/
def State.putVec (s : State) (lat spec : Nat) (value mask : Vec) : State :=
  if spec < 32 then s.upd (fun c => c.launch lat (.vreg (Fin.ofNat 32 spec)) value mask)
  else
    let q : Fin 16 := Fin.ofNat 16 (spec - 32)
    s.upd (fun c => c.toRing lat q (s.view.ring q).wp (value &&& mask))

/-- The same for a load of some pieces: the result counts from the bundle's completion (R268). A ring entry is pending from the issue
on. -/
def State.putLoad (s : State) (lat spec : Nat) (mask : Vec) (pieces : List (Nat × Nat × Nat)) : State :=
  if spec < 32 then s.addLoad ⟨lat, .vreg (Fin.ofNat 32 spec), 0, mask, 0⟩ pieces
  else
    let q : Fin 16 := Fin.ofNat 16 (spec - 32)
    let wp := (s.view.ring q).wp
    let e : Fin 8 := Fin.ofNat 8 (wp % (s.view.ring q).depth)
    (s.upd (fun c => c.setRing q ((c.ring q).mark .pending wp 1))).addLoad ⟨lat, .entry q e, 0, mask, 0⟩ pieces

/-! ### Ring waits (R259, R260) -/

/-- A wait of a slot on a ring: read until fill, or write until free, reaches a count (R259); or the A ring of an MSTEP
(R302). -/
inductive RingWait where
  | read (q : Fin 16) (n : Nat)
  | write (q : Fin 16) (n : Nat)
  | step (q : Fin 16) (n : Nat)
  deriving DecidableEq, Repr

/-- What becomes of a wait: met, met once a result lands, or never met, with the ring (R260). -/
inductive WaitState where
  | met
  | later
  | never (q : Fin 16) (read : Bool)
  deriving DecidableEq, Repr

/-- How many of the first `n` held entries from rp are empty. -/
def Ring.anyEmpty (r : Ring) (n : Nat) : Bool := (List.range n).any (fun k => decide (r.at r.rp k = .empty))

/-- Whether entry `k` from rp lands no later than `t` cycles from now, or is full (R302). -/
def Core.landsBy (c : Core) (q : Fin 16) (k t : Nat) : Bool :=
  let r := c.ring q
  decide (r.at r.rp k = .full) ||
    (decide (r.at r.rp k = .pending) &&
      c.flight.any (fun l => decide (l.dest = .entry q (Fin.ofNat 8 ((r.rp + k) % r.depth))) && decide (l.due ≤ c.seq.wc + t)))

/-- The state of one wait. -/
def Core.waitState (c : Core) : RingWait → WaitState
  | .read q n =>
    let r := c.ring q
    if n ≤ r.fill then .met else if r.h < n || r.anyEmpty n then .never q true else .later
  | .write q n => if n ≤ (c.ring q).free then .met else .never q false
  | .step q n =>
    let r := c.ring q
    if n ≤ r.fill && decide (8 ≤ r.h) && (List.range 8).all (fun k => c.landsBy q k k) then .met
    else if r.h < max 8 n || r.anyEmpty (max 8 n) then .never q true else .later

/-- The format that a selector yields, as stored in FMT (R222). -/
def Core.selected (c : Core) (fs ft : Nat) : Nat :=
  let k := if fs ≤ 3 then (c.x.lc[(Fin.ofNat 4 fs : Fin 4)]).toNat % 16 else ft
  el c.csr.fmt.toNat 4 k

/-- The entry of FMT that a selector names (R222). -/
def Core.selIndex (c : Core) (fs ft : Nat) : Nat :=
  if fs ≤ 3 then (c.x.lc[(Fin.ofNat 4 fs : Fin 4)]).toNat % 16 else ft

/-- Ring heads among source specifiers, waiting until fill ≥ rt (R259). -/
def Core.sourceWaits (c : Core) (specs : List Nat) : List RingWait :=
  specs.filterMap (fun x =>
    if 32 ≤ x && x < 48 then some (.read (Fin.ofNat 16 (x - 32)) (c.ring (Fin.ofNat 16 (x - 32))).rt) else none)

/-- Entries of a ring that MWR, MBIAS and MRD use for an element width (R304). -/
def rowEntryCount (f : Nat) (bias : Bool) : Nat := if bias then 1 else if (Fmt.ofCode f).bits == 8 then 4 else 8

/-- Elements that a guard enables in a format. -/
def Core.enabledCount (c : Core) (f : Fmt) (g : Nat) : Nat := ((List.range f.lanes).filter (c.enabled g)).length

/-- The rings of MWR, MBIAS and MRD for a format (R304). -/
def rowRings (qa : Fin 16) (f : Nat) : List (Fin 16) := if f == 0 || f == 5 then [qa, Fin.ofNat 16 (qa.val + 1)] else [qa]

/-- The waits that an operation names beyond its sources and destinations, with their counts (R259, R261, R279, R280,
R290, R291, R301, R302, R304). The flush form of VCMPR and the drop form of VXPND make none (DESIGN CHOICE, log 105). -/
def Core.statedWaits (c : Core) : Instr → List RingWait
  | .radv q w n _ => if w = 0 then [.read q (n.val + 1)] else []
  | .vqnt _ _ _ _ q _ => [.write q (c.ring q).wt]
  | .vdqnt _ _ _ _ q _ => [.read q (c.ring q).rt]
  | .vcmpr q _ _ _ => [.write q (max (c.ring q).wt 2)]
  | .vxpnd _ q f g =>
    let fm := Fmt.ofCode f.val
    let b := c.enabledCount fm g.val * (fm.bits / 8)
    [.read q (max (c.ring q).rt (if (c.ring q).sr + b ≤ 256 then 1 else 2))]
  | .mldb qa fs ft _ qs _ =>
    let n := matScaleEntries (c.selected fs.val ft.val)
    .read qa (max (c.ring qa).rt 8) :: (if n = 0 then [] else [.read qs (max (c.ring qs).rt n)])
  | .mstep _ qa fs ft _ qs _ _ =>
    let n := matScaleEntries (c.selected fs.val ft.val)
    .step qa (c.ring qa).rt :: (if n = 0 then [] else [.read qs (max (c.ring qs).rt n)])
  | .mwr _ qa _ _ f => (rowRings qa f.val).map (fun q => .read q (max (c.ring q).rt (rowEntryCount f.val false)))
  | .mbias _ qa _ _ f => (rowRings qa f.val).map (fun q => .read q (max (c.ring q).rt (rowEntryCount f.val true)))
  | .mrd _ qa _ _ _ _ f _ => (rowRings qa f.val).map (fun q => .write q (max (c.ring q).wt (rowEntryCount f.val false)))
  | _ => []

/-- Destination rings wait until free ≥ wt (R259); VQNT's scale ring, MRD's rings and the streams state their own. -/
def Core.destWaits (c : Core) (i : Instr) : List RingWait :=
  match i with
  | .mrd .. => []
  | .vcmpr .. => []
  | .vcmprFlush .. => []
  | .vqnt d .. => if 32 ≤ d.val && d.val < 48 then [.write (Fin.ofNat 16 (d.val - 32)) (c.ring (Fin.ofNat 16 (d.val - 32))).wt] else []
  | _ => i.dests.filterMap (fun d =>
      if d.1 = 5 then some (.write (Fin.ofNat 16 d.2) (c.ring (Fin.ofNat 16 d.2)).wt) else none)

/-- Every ring wait of an operation (R259). -/
def Core.waits (c : Core) (i : Instr) : List RingWait :=
  c.statedWaits i ++ c.sourceWaits i.sources ++ c.destWaits i

/-- The lowest of a list of states: never before later before met. -/
def worstWait : List WaitState → WaitState
  | [] => .met
  | .met :: rest => worstWait rest
  | .later :: rest => match worstWait rest with | .never q r => .never q r | _ => .later
  | .never q true :: _ => .never q true
  | .never q false :: rest => match worstWait rest with | .never q' true => .never q' true | _ => .never q false

/-- What becomes of the operation's waits; a null issue makes none (R221). -/
def Core.ringState (c : Core) (i : Instr) : WaitState :=
  if (i.guard.map c.guardOff).getD false then .met else worstWait ((c.waits i).map c.waitState)

/-- A ring whose configured depth is too small (R455 reasons 7 and 10), recorded before any other reason. -/
def Core.depthTrap (c : Core) : Instr → Option Trap
  | .vcmpr q _ _ _ => if (c.ring q).depth < 2 then some (.ring q.val 7) else none
  | .vcmprFlush q _ => if (c.ring q).depth < 2 then some (.ring q.val 7) else none
  | .vxpnd _ q _ _ => if (c.ring q).depth < 2 then some (.ring q.val 7) else none
  | .vxpndDrop q _ => if (c.ring q).depth < 2 then some (.ring q.val 7) else none
  | .mldb qa _ _ _ _ _ => if (c.ring qa).depth < 8 then some (.ring qa.val 10) else none
  | .mstep _ qa _ _ _ _ _ _ => if (c.ring qa).depth < 8 then some (.ring qa.val 10) else none
  | .mwr _ qa _ _ f => shallow (rowRings qa f.val) (rowEntryCount f.val false)
  | .mbias _ qa _ _ f => shallow (rowRings qa f.val) (rowEntryCount f.val true)
  | .mrd _ qa _ _ _ _ f _ => shallow (rowRings qa f.val) (rowEntryCount f.val false)
  | _ => none
where
  shallow (qs : List (Fin 16)) (n : Nat) : Option Trap :=
    (qs.find? (fun q => decide ((c.ring q).depth < n))).map (fun q => .ring q.val 10)

/-! ### The frame of a slot operation (R215, R217, R446) -/

/-- The slot of the operation in hand: V1 and C1 only where the bundle says so. -/
def State.slotOf (s : State) (i : Instr) : Slot :=
  match i.unit with
  | some .v => if s.issue.slot = .v1 then .v1 else .v0
  | some .c => if s.issue.slot = .c1 then .c1 else .c0
  | some .m => .m
  | some .x => .x
  | _ => .s

/-- The body of an operation as TRAP_SRC and the latches hold it. -/
def bodyOf (i : Instr) : Nat := (encodeBody i).getD 0

/-- The lowest class that a mask lacks (R456). -/
def lowestMissing (mask : Double) (cls : List Nat) : Option Nat :=
  (cls.filter (fun k => !mask.getLsbD k)).min?

/-- The value that CSRW, CSRS and CSRC give an RW field (R365). -/
def csrNew (k : Fin 3) (old v : Double) : Double := if k = 0 then v else if k = 1 then old ||| v else old &&& ~~~v

/-- A reserved value of a field: the bit that the reserved-field trap reports (R192, R365, R450). -/
def csrReserved (n : Nat) (new : Double) : Option Nat := if n = 0x020 ∧ 5 ≤ new.toNat % 8 then some 64 else none

/-- The value that a write of VCTL, the one register with reserved values, would leave there (R192, R365); `none` for every other
operation. -/
def Core.vctlAfter (c : Core) (i : Instr) : Option Double :=
  let put := fun (k : Fin 3) (a : Fin 64) (n : Fin 4096) (x : Fin 2) =>
    if n = 0x020 then some (csrNew k (c.csr.vctl.setWidth 64) (if x = 0 then c.rs a else BitVec.ofNat 64 a.val)) else none
  match i with
  | .csrw _ a n x => put 0 a n x
  | .csrs _ a n x => put 1 a n x
  | .csrc _ a n x => put 2 a n x
  | _ => none

/-- Reserved fields of R446 step 3: those of the encoding, MRD's band register where the selected format is not 6 (R307), and a
reserved value written to a control register (R365). The lowest bit is reported (DESIGN CHOICE, log 10). -/
def Core.fieldTrap (c : Core) (i : Instr) : Option Nat :=
  match i with
  | .mrd _ _ fs ft _ _ _ band =>
    if c.selected fs.val ft.val ≠ 6 ∧ band.val ≠ 0 then minFault (some (23 + lowBit band.val)) i.fieldFault else i.fieldFault
  | .csrw .. | .csrs .. | .csrc .. => minFault ((c.vctlAfter i).bind (csrReserved 0x020)) i.fieldFault
  | _ => i.fieldFault

/-- The selector of an M operation that uses one (R222, R295). -/
def selectorOf : Instr → Option (Nat × Nat)
  | .mldb _ fs ft _ _ _ => some (fs.val, ft.val)
  | .mstep _ _ fs ft _ _ _ _ => some (fs.val, ft.val)
  | .mrd _ _ fs ft _ _ _ _ => some (fs.val, ft.val)
  | _ => none

/-- Steps 3 to 5 of R446: reserved field, reserved operand, reserved format. -/
def Core.formatTrap (c : Core) (i : Instr) : Option Trap :=
  match c.fieldTrap i with
  | some b => some (.reservedField b)
  | none =>
    match i.operandFault with
    | some b => some (.reservedOperand b)
    | none =>
      match selectorOf i with
      | some (fs, ft) => if 8 ≤ c.selected fs ft then some ⟨6, c.selIndex fs ft, 0⟩ else none
      | none => none

/-- The classes that an operation is checked in (R227): an MSTEP's is that of the selected format (R302). -/
def Core.classesOf (c : Core) (i : Instr) : List Nat :=
  match i with
  | .mstep _ _ fs ft _ _ _ _ => [33 + c.selected fs.val ft.val]
  | _ => i.classes

/-- Steps 6 and 7 of R446: undeclared in USEM, then fenced in CAPM (R227, R456). -/
def Core.classTrap (c : Core) (i : Instr) : Option Trap :=
  match lowestMissing c.csr.usem (c.classesOf i) with
  | some k => some ⟨7, k, 0⟩
  | none => (lowestMissing c.csr.capm (c.classesOf i)).map (fun k => ⟨8, k, 0⟩)

/-- Steps 3 to 7 of R446. -/
def Core.checkTrap (c : Core) (i : Instr) : Option Trap :=
  match c.formatTrap i with
  | some t => some t
  | none => c.classTrap i

/-- The latch of the slot takes the effective body (R215), and the slot's destinations join the bundle's (R218). -/
def State.fillLatch (s : State) (i : Instr) : State :=
  let k := (s.slotOf i).index
  let s := s.upd (fun c => { c with seq := { c.seq with latch := c.seq.latch.setIfInBounds k (some (bodyOf i)) } })
  { s with issue := { s.issue with dests := s.issue.dests ++ i.dests } }

/-- The slot is done: the bundle commits when it was the last one. -/
def State.finish (s : State) (i : Instr) : State :=
  let s := s.fillLatch i
  if s.issue.more then s else s.retire

/-- A cycle of ring wait, charged to slack (R259, R60): the bundle is tried again in the next working cycle. -/
def State.stall (s : State) : State :=
  s.upd (fun c => { c with csr := { c.csr with slackCnt := c.csr.slackCnt + 1 } })

/-- A slot operation (R217, R221, R446): the waits, the checks of the encoding and the classes, the null issue of a false
stage guard, the operation's own traps and its effect. Its ring-protocol traps come before those of `act` (for MSTEP's, DESIGN CHOICE, log
110). -/
def slotOp (i : Instr) (act : State → Except Trap State) (s : State) : Out :=
  let c := s.view
  let trap := fun (t : Trap) => Host.Outcome.next (s.takeTrap (s.slotOf i).index t (bodyOf i))
  if c.ringState i = .later ∧ s.issue.bundle = [] then .next s.stall
  else
    match c.checkTrap i with
    | some t => trap t
    | none =>
      if (i.guard.map c.guardOff).getD false then .next (s.finish i)
      else
        match c.depthTrap i with
        | some t => trap t
        | none =>
          match c.ringState i with
          | .never q r => trap (.ring q.val (if r then 1 else 2))
          | _ =>
            match act s with
            | .error t => trap t
            | .ok s' => .next (s'.finish i)

/-- What holds of core and operands when an operation of a slot has its effect: no wait on a ring, no trap of the encoding, the
classes or a ring's depth, and a guard that is on (R217, R221, R259, R446). -/
structure Ready (i : Instr) (s : State) : Prop where
  rings : s.view.ringState i = .met
  checks : s.view.checkTrap i = none
  guard : (i.guard.map s.view.guardOff).getD false = false
  depth : s.view.depthTrap i = none

/-- The trap that a slot operation takes. -/
def State.slotTrap (s : State) (i : Instr) (t : Trap) : State := s.takeTrap (s.slotOf i).index t (bodyOf i)

end Sys2Proof.Machine
end

