-- ==== Sys2Proof/Machine/Csr.lean ====
section
/-! DEFINITION. Control registers: their numbers and layouts, reads and writes (R365-R367, R425). -/

namespace Sys2Proof.Machine

/-- A field of `v` at bit `lo`, for building a register. -/
def at' (v lo : Nat) : Nat := v * 2 ^ lo

/-- Core states as CORE_STAT.STATE codes them (R367). -/
def Mode.code : Mode → Nat
  | .idle => 0 | .staged => 1 | .running => 2 | .atHeadland => 3 | .swapped => 4 | .halted => 5

/-- A flag as 0 or 1. -/
def ofBool (b : Bool) : Nat := if b then 1 else 0

/-- CORE_STAT (R367). -/
def coreStat (c : Core) (island : Island) : Nat :=
  c.seq.mode.code + at' (ofBool c.seq.shadow) 3 + at' (ofBool (decide (island = .fallback))) 4
    + at' (min c.seq.furrow 65535) 16

/-- RGNn (R367): BASE[31:11] in [31:11], SIZE[25:11] in [46:32]. -/
def rgnWord (r : Region) : Nat :=
  ofBool r.valid + at' (ofBool r.commons) 1 + at' (r.cls % 4) 2 + at' (r.act % 4) 4 + at' (r.span % 8) 6
    + at' (ofBool r.mapped) 9 + at' (bits r.base 31 11) 11 + at' (bits r.size 25 11) 32

/-- BSTATn (R367). -/
def bstatWord (b : Barrier) : Nat :=
  b.exp % 65536 + at' (b.cnt % 65536) 16 + at' (b.err % 256) 32 + at' (ofBool b.ovf) 40 + at' (ofBool (b.pend == 0)) 41

/-- A counter of the channel that CHSEL names; 0 for an absent channel (R366). -/
def State.channelReg (s : State) (c : Core) (f : Channel → Double) : Double :=
  let k := c.csr.chsel.toNat
  let present := if k < 256 then bit s.pres.hbm k else k < 288 && bit s.pres.lpddr (k - 256)
  if present then f (tget ⟨0, 0, 0, 0⟩ s.chan k) else 0

/-- The context of the running task, with the defaults of R366 where the ID is not in use. -/
def State.contextOf (s : State) (c : Core) : Context := tget ⟨0, 4096, 65536, 0⟩ s.contexts c.csr.ctxId.toNat

/-- A control register as core `n` reads it, `c` being the core as it stood before the bundle (R365, R366); `none` for
a number that names no register. -/
def State.csr (s : State) (n : Nat) (c : Core) (k : Nat) : Option Double :=
  let w := fun (x : Nat) => some (BitVec.ofNat 64 x)
  let cl := s.cluster (clusterOf n)
  if 0x010 ≤ k ∧ k < 0x014 then w (c.x.lc.toList.getD (k - 0x010) 0).toNat
  else if 0x100 ≤ k ∧ k < 0x110 then w (rgnWord (c.rgn.toList.getD (k - 0x100) Region.init))
  else if 0x110 ≤ k ∧ k < 0x120 then w (c.rgn.toList.getD (k - 0x110) Region.init).mapva
  else if 0x200 ≤ k ∧ k < 0x210 then w (bstatWord (c.bars.toList.getD (k - 0x200) Barrier.init))
  else if 0x210 ≤ k ∧ k < 0x220 then w (c.bars.toList.getD (k - 0x210) Barrier.init).pend
  else if 0x810 ≤ k ∧ k < 0x814 then w (s.pres.cores / 2 ^ (64 * (k - 0x810)))
  else if 0x818 ≤ k ∧ k < 0x81C then w (s.pres.hbm / 2 ^ (64 * (k - 0x818)))
  else
    match k with
    | 0x000 => w n
    | 0x001 => w c.csr.ctxId.toNat
    | 0x002 => w c.csr.teamRank.toNat
    | 0x003 => w c.csr.teamSize.toNat
    | 0x004 => w c.csr.launchIdx.toNat
    | 0x005 => w (coreStat c cl.island)
    | 0x006 => some c.csr.capm
    | 0x007 => some c.csr.usem
    | 0x008 => some c.csr.fmt
    | 0x020 => w c.csr.vctl.toNat
    | 0x021 => w c.csr.vstat.toNat
    | 0x022 => w c.csr.vseed.toNat
    | 0x030 => some c.csr.trapCause
    | 0x031 => some c.csr.trapPc
    | 0x032 => some c.csr.trapAddr
    | 0x033 => some c.csr.trapSrc
    | 0x034 => w (ofBool c.csr.dbgBe)
    | 0x035 => w c.csr.chsel.toNat
    | 0x300 => some c.csr.refcnt
    | 0x301 => some c.csr.slackCnt
    | 0x302 => some c.csr.ovrCnt
    | 0x303 => some c.csr.replayCnt
    | 0x304 => some c.csr.turnCnt
    | 0x305 => some c.csr.turnRb
    | 0x400 => w cl.csr.tempBand.toNat
    | 0x401 => some cl.csr.crefcnt
    | 0x402 => some cl.csr.slipCnt
    | 0x403 => some cl.csr.ballastCnt
    | 0x404 => w cl.csr.islLimit.toNat
    | 0x405 => w cl.csr.islBase.toNat
    | 0x406 => w cl.csr.ballastEq.toNat
    | 0x407 => w cl.csr.islEmeas.toNat
    | 0x408 => w cl.csr.moncap.toNat
    | 0x40A => some (s.channelReg c Channel.rowConf)
    | 0x40B => some (s.channelReg c Channel.refStall)
    | 0x40C => some (s.channelReg c Channel.rdBytes)
    | 0x40D => some (s.channelReg c Channel.wrBytes)
    | 0x800 => w s.tick
    | 0x801 => w s.rtick
    | 0x802 => w (0x0840 + at' s.stepping.toNat 16)
    | 0x803 => w s.moduleNum.toNat
    | 0x814 => w s.pres.clusters
    | 0x81C => w s.pres.lpddr
    | 0x81D => w s.pres.phiok
    | 0x820 => w (s.contextOf c).starve
    | 0x821 => w (s.contextOf c).quantum
    | _ => none

/-- BSTATn after a write (R367): EXP is RW, ERR is a W1C code field (R10), OVF is W1C, the rest RO. -/
def writeBstat (b : Barrier) (new v : Double) : Barrier :=
  { b with exp := new.toNat % 65536,
           err := (if bits v.toNat 39 32 &&& b.err = b.err then 0 else b.err),
           ovf := b.ovf && !bit v.toNat 40 }

/-- The write part of a CSR op on the core and its cluster: `new` for RW fields, `v` as written for W1C fields; RO fields
and registers keep their values (R10, R365). MONCAP is writable with the booker privilege (R366, R425). -/
def State.csrStore (s : State) (n : Nat) (k : Nat) (new v : Double) : State :=
  if 0x200 ≤ k ∧ k < 0x210 then
    s.updCore n (fun c => { c with bars := c.bars.set (Fin.ofNat 16 (k - 0x200)) (writeBstat c.bars[(Fin.ofNat 16 (k - 0x200) : Fin 16)] new v) })
  else
    match k with
    | 0x008 => s.updCore n (fun c => { c with csr := { c.csr with fmt := new } })
    | 0x020 => s.updCore n (fun c => { c with csr := { c.csr with vctl := new.setWidth 4 } })
    | 0x021 => s.updCore n (fun c => { c with csr := { c.csr with vstat := new.setWidth 6 } })
    | 0x022 =>
      let s := s.updCore n (fun c => { c with csr := { c.csr with vseed := new.setWidth 32 } })
      { s with issue := { s.issue with reseed := true } }
    | 0x035 => s.updCore n (fun c => { c with csr := { c.csr with chsel := new.setWidth 9 } })
    | 0x408 =>
      if ((s.core n).image.map (fun i => bit i.flags 1)).getD false then
        { s with issue := { s.issue with moncap := some (BitVec.ofNat 7 (min (new.toNat % 128) 64)) } }
      else s
    | _ => s

/-- A CSR write op (R365): checks, the write, and the old value for s(d). -/
def csrWriteOp (n : Nat) (k : Fin 3) (v : Double) (s : State) : Except Trap (State × Double) :=
  match s.csr s.here s.view n with
  | none => .error ⟨0x20, n, 0⟩
  | some old =>
    let new := csrNew k old v
    match csrReserved n new with
    | some b => .error (.reservedField b)
    | none => .ok (s.csrStore s.here n new v, old)

/-- The operand of a CSR write op: register a, or a as a 6-bit immediate (R223, R365). -/
def csrOperand (s : State) (a : Fin 64) (x : Fin 2) : Double := if x = 0 then s.view.rs a else BitVec.ofNat 64 a.val

/-- CSRW, CSRS and CSRC as slot operations. -/
def csrOp (k : Fin 3) (d a : Fin 64) (n : Fin 4096) (x : Fin 2) (s : State) : Except Trap State :=
  match csrWriteOp n.val k (csrOperand s a x) s with
  | .error t => .error t
  | .ok (s', old) => .ok (s'.upd (fun c => c.ws d old))

/-- CSRR (R365). -/
def execCsrr (d : Fin 64) (n : Fin 4096) (s : State) : Out :=
  slotOp (.csrr d n)
    (fun s =>
      match s.csr s.here s.view n.val with
      | none => .error ⟨0x20, n.val, 0⟩
      | some v => .ok (s.upd (fun c => c.ws d v))) s

/-- CSRW (R365). -/
def execCsrw (d a : Fin 64) (n : Fin 4096) (x : Fin 2) (s : State) : Out := slotOp (.csrw d a n x) (csrOp 0 d a n x) s

/-- CSRS (R365). -/
def execCsrs (d a : Fin 64) (n : Fin 4096) (x : Fin 2) (s : State) : Out := slotOp (.csrs d a n x) (csrOp 1 d a n x) s

/-- CSRC (R365). -/
def execCsrc (d a : Fin 64) (n : Fin 4096) (x : Fin 2) (s : State) : Out := slotOp (.csrc d a n x) (csrOp 2 d a n x) s

/-- A write of a control register by the core in hand, apart from the slot operation that makes it (R365): its checks trap
in the S slot. -/
def csrEvent (n : Nat) (k : Fin 3) (v : Double) (s : State) : Out :=
  match csrWriteOp n k v s with
  | .error t => .next (s.takeTrap 0 t 0)
  | .ok (s', _) =>
    let s'' := match s'.issue.moncap with
      | some m => s'.updCluster (clusterOf s.here) (fun cl => { cl with csr := { cl.csr with moncap := m } })
      | none => s'
    .next { (s''.reseed) with issue := s.issue }

/-- CSR_WRITE (R365): the write of register `n`. -/
def execCsrWrite (n : Nat) (k : Fin 3) (v : BitVec 64) (s : State) : Out := csrEvent n k v s

/-- VCTL_WRITE (R192, R199). -/
def execVctlWrite (k : Fin 3) (v : BitVec 64) (s : State) : Out := csrEvent 0x020 k v s

/-- VSEED_WRITE (R195). -/
def execVseedWrite (k : Fin 3) (v : BitVec 64) (s : State) : Out := csrEvent 0x022 k v s

/-- BSTAT_WRITE (R367). -/
def execBstatWrite (n : Fin 16) (k : Fin 3) (v : BitVec 64) (s : State) : Out := csrEvent (0x200 + n.val) k v s

/-- MONCAP_WRITE (R425). -/
def execMoncapWrite (k : Fin 3) (v : BitVec 64) (s : State) : Out := csrEvent 0x408 k v s

end Sys2Proof.Machine
end

