-- ==== Sys2Proof/Machine/LocalMem.lean ====
section
/-! DEFINITION. Scalar loads and stores of local memory (R244-R247). -/

namespace Sys2Proof.Machine

/-- The field of the core in hand, which no slot of the bundle has written yet (R31). -/
def State.field (s : State) : Local := s.view.field

/-- The row group of a local address. -/
def groupAt (field commons : Local) (a : Nat) : Group :=
  match locate a with
  | some (m, off) => (pick field commons m).group off
  | none => Group.init

/-- The first byte of `n` from a local address whose group a load of the core in hand finds expired. -/
def firstExpired (s : State) (a n : Nat) : Option Nat :=
  (groupStarts a n).find? (fun x =>
    s.expired s.here (if (locate x).any Prod.fst then 8 else s.here % 8) (((locate x).map (fun p => p.2 / 2048)).getD 0)
      (groupAt s.field s.viewCommons x) (((s.view.regionAt x).map (fun k => (s.view.rgn[k]).mapped)).getD false))

/-- The checks of R245 on an access of `w` bytes, in order: the end of the address space, alignment, the region, the
owner tag, and for loads an expired group (DEDUCED, log 77). -/
def accessTrap (s : State) (a w : Nat) (load : Bool) : Option Trap :=
  let c := s.view
  if 2 ^ 32 < a + w then some (.localAddress w (max a (2 ^ 32)))
  else if a % w ≠ 0 then some (.misaligned w a)
  else
    match c.outside a w with
    | some b => some (.localAddress w b)
    | none =>
      match firstGroup s.field s.viewCommons (fun g => decide (g.owner ≠ c.csr.ctxId.toNat)) a w with
      | some b => some ⟨0x12, (groupAt s.field s.viewCommons b).owner, b⟩
      | none =>
        match if load then firstExpired s a w else none with
        | some b => some ⟨0x13, ((c.regionAt b).map Fin.val).getD 0, b⟩
        | none => none

/-- The effective address of format S.M: a 64-bit unsigned sum (R245; DEDUCED, log 15). -/
def memAddr (s : State) (a : Fin 64) (z : Fin 4) (o : Fin 2048) : Nat :=
  ((s.view.rs a).toNat + o.val * 2 ^ z.val) % 2 ^ 64

/-- Whether a local address lies in the commons. -/
def inCommons (a : Nat) : Bool := (locate a).map Prod.fst == some true

/-- Latency of a load (R239, R268). -/
def loadLatency (a : Nat) : Nat := if inCommons a then 8 else 4

/-- A scalar load (R245): once its bank's port serves it, the zero-extended bytes land after the latency that R239 gives, counted from the
completion of the bundle. -/
def loadScalar (d a : Fin 64) (z : Fin 4) (o : Fin 2048) (s : State) : Except Trap State :=
  let w := 2 ^ z.val
  let ea := memAddr s a z o
  match accessTrap s ea w true with
  | some t => .error t
  | none =>
    .ok (s.addLoad ⟨loadLatency ea, (if d = 0 then .flags else .sreg d), 0, BitVec.ofNat 2048 (2 ^ 64 - 1), 0⟩ [(ea, w, 0)])

/-- A scalar store (R245): a partial write of the low bytes of s(d). -/
def storeScalar (d a : Fin 64) (z : Fin 4) (o : Fin 2048) (s : State) : Except Trap State :=
  let w := 2 ^ z.val
  let ea := memAddr s a z o
  match accessTrap s ea w false with
  | some t => .error t
  | none => .ok (s.addStore [(ea, bytesOfNat w (s.view.rs d).toNat, 0)])

/-- LD (R244, R245). -/
def execLd (d a : Fin 64) (z : Fin 4) (o : Fin 2048) (s : State) : Out := slotOp (.ld d a z o) (loadScalar d a z o) s

/-- ST (R244, R245). -/
def execSt (d a : Fin 64) (z : Fin 4) (o : Fin 2048) (s : State) : Out := slotOp (.st d a z o) (storeScalar d a z o) s

/-- LDC (R246): an acquire read at CLUSTER scope. The accesses of every commons take effect one after another in the model, so it reads as LD
(R167) (DESIGN CHOICE, log 93). -/
def execLdc (d a : Fin 64) (z : Fin 4) (o : Fin 2048) (s : State) : Out := slotOp (.ldc d a z o) (loadScalar d a z o) s

/-- STC (R246): a release write at CLUSTER scope, which writes as ST (R167) (DESIGN CHOICE, log 93). -/
def execStc (d a : Fin 64) (z : Fin 4) (o : Fin 2048) (s : State) : Out := slotOp (.stc d a z o) (storeScalar d a z o) s

end Sys2Proof.Machine
end

