-- ==== Sys2Proof/Machine/System.lean ====
section
/-! DEFINITION. System and task operations of the S slot: fences, headlands, timed waits, traps, exit, turns, yield, and
the requests to the cluster controller (R368-R377). -/

namespace Sys2Proof.Machine

/-- A join or command entered in a copy engine's queue (R316, R368). -/
def Core.enqueue (c : Core) (e : Fin 2) (cmd : Command) : Core :=
  let c := { c with nextCmd := c.nextCmd + 1 }
  if e = 0 then { c with queue0 := c.queue0 ++ [cmd] } else { c with queue1 := c.queue1 ++ [cmd] }

/-- The join of a FENCE (R173, R368): it takes no entry of the queue. -/
def joinOf (c : Core) (i : Instr) : Command :=
  { id := c.nextCmd, op := i, ctx := c.csr.ctxId.toNat, a := 0, b := 0, c := 0, desc := Vector.replicate 4 0, bar := none,
    weight := 0, state := .queued, slot := [], index := [], done := 0, buf := [], tried := none, born := c.seq.epoch, hidden := [], started := false,
    refill := false, killed := false }

/-- FENCE (R173, R368): one join, in both queues, before the commands of its own bundle. -/
def execFence (m : Fin 4) (sc : Fin 8) (k : Fin 2) (s : State) : Out :=
  slotOp (.fence m sc k)
    (fun s => .ok (s.upd (fun c =>
      let j := joinOf c (.fence m sc k)
      { c with queue0 := c.queue0 ++ [j], queue1 := c.queue1 ++ [j], nextCmd := c.nextCmd + 1 }))) s

/-- Furrows of the expanded profile (R80). -/
def Image.furrowCount (i : Image) : Nat := (i.furrows.map Furrow.rep).sum

/-- The furrow record of an index in the expanded profile (R80). -/
def expandAt : List Furrow → Nat → Option Furrow
  | [], _ => none
  | f :: rest, k => if k < f.rep then some f else expandAt rest (k - f.rep)

/-- WAITB (R369): the profile-end trap in the last furrow (R56); else the headland, at the commit. -/
def execWaitb (b : Fin 16) (s : State) : Out :=
  slotOp (.waitb b)
    (fun s =>
      let n := (s.view.image.map Image.furrowCount).getD 0
      if n ≤ s.view.seq.furrow + 1 then .error ⟨0x22, b.val, 0⟩
      else .ok { s with issue := { s.issue with leave := .headland b } }) s

/-- WAITT (R370): the wait for tick s(a), unless it has come. -/
def execWaitt (a : Fin 64) (s : State) : Out :=
  slotOp (.waitt a)
    (fun s =>
      let t := (s.view.rs a).toNat
      if t ≤ s.tick then .ok s else .ok { s with issue := { s.issue with leave := .waitt t } }) s

/-- Whether an instant begins cycle 1 of a tick or a later cycle in the island's state (R9). -/
def cycleOne (isl : Island) (instant : Nat) : Bool := if isl = .fallback then decide (2 ≤ instant) else decide (1 ≤ instant)

/-- WAITT_RESUME (R370): in cycle 1 of the tick waited for, the core issues again. -/
def execWaittResume (n : Nat) (s : State) : Out :=
  match (s.core n).seq.waitt with
  | some t =>
    if t < s.tick ∨ (t = s.tick ∧ cycleOne (s.cluster (clusterOf n)).island s.instant = true) then
      .next (s.updCore n (fun c => { c with seq := { c.seq with waitt := none } }))
    else .next s
  | none => .next s

/-- TRAP (R371): the software trap. -/
def execTrap (i : Fin 524288) (s : State) : Out := slotOp (.trap i) (fun _ => .error ⟨0x30, i.val, 0⟩) s

/-- BRKPT (R371): the breakpoint trap when DBGCTL.BE = 1, else no effect. -/
def execBrkpt (i : Fin 524288) (s : State) : Out :=
  slotOp (.brkpt i) (fun s => if s.view.csr.dbgBe then .error ⟨0x31, i.val, 0⟩ else .ok s) s

/-- EXIT (R372): the task ends at the commit (DEDUCED, log 20). -/
def execExit (s : State) : Out := slotOp .exit (fun s => .ok { s with issue := { s.issue with leave := .exit } }) s

/-- The checks of TURN (R374): the buffer, then the rings. -/
def turnTrap (c : Core) (base len : Nat) : Option Trap :=
  let inField := match c.regionAt base with
    | some k => !(c.rgn[k]).commons && decide (base + len ≤ (c.rgn[k]).base + (c.rgn[k]).size)
    | none => false
  if len ≠ 0 ∧ (base % 2048 ≠ 0 ∨ len % 2048 ≠ 0 ∨ inField = false) then some ⟨0x10, 0, base⟩
  else
    ((List.finRange 16).find? (fun q => decide (0 < (c.ring q).h) || (c.ring q).st.toList.contains .pending)).map
      (fun q => .ring q.val 11)

/-- TURN (R374): the checkpoint is stored at the commit. -/
def execTurn (a b : Fin 64) (s : State) : Out :=
  slotOp (.turn a b)
    (fun s =>
      let x := (s.view.rs a).toNat
      let y := (s.view.rs b).toNat
      match turnTrap s.view (x % 2 ^ 32) (x / 2 ^ 32) with
      | some t => .error t
      | none => .ok { s with issue := { s.issue with
          leave := .turn (x % 2 ^ 32) (x / 2 ^ 32) (Fin.ofNat 16 y) (Fin.ofNat 16 (y / 16)) (Fin.ofNat 2 (y / 256)) } }) s

/-- YIELD (R373): a request for pre-emption at the commit; nothing follows from it where no team waits. -/
def execYield (s : State) : Out := slotOp .yield (fun s => .ok { s with issue := { s.issue with leave := .yield } }) s

/-- The opcode of a task op (R364), for INFO of the booker-privilege trap. -/
def taskOpcode (op : Fin 5) : Nat := 0x60 + op.val

/-- The image of a core has the booker privilege (R229). -/
def Core.booker (c : Core) : Bool := (c.image.map (fun i => bit i.flags 1)).getD false

/-- Requests of a core that the CC has not served. -/
def State.requestsOf (s : State) (n : Nat) : Nat := ((s.cluster (clusterOf n)).reqQ.filter (fun r => r.core == n)).length

/-- The five task ops (R376): the privilege, the block, the request queue. -/
def taskOp (op : Fin 5) (d a b : Fin 64) (s : State) : Except Trap State :=
  let c := s.view
  let blk := (c.rs a).toNat % 2 ^ 32
  let bb : Fin 16 := Fin.ofNat 16 (c.rs b).toNat
  if c.booker = false then .error ⟨0x21, taskOpcode op, 0⟩
  else if blk % 64 ≠ 0 then .error (.misaligned 64 blk)
  else
    match (if inCommons blk then some blk else c.outside blk 64) with
    | some x => .error (.localAddress 64 x)
    | none =>
      match firstGroup s.field s.viewCommons (fun g => decide (g.owner ≠ c.csr.ctxId.toNat)) blk 64 with
      | some x => .error ⟨0x12, (groupAt s.field s.viewCommons x).owner, x⟩
      | none =>
        if 8 ≤ s.requestsOf s.here then .ok (s.upd (fun c => c.ws d 1))
        else
          let s := s.upd (fun c =>
            (c.ws d 0 |> fun c => { c with bars := c.bars.set bb { c.bars[bb] with pend := (c.bars[bb].pend + 1) % 2 ^ 64 } }))
          .ok { s with issue := { s.issue with post := some ⟨s.here, op, blk, bb, none, []⟩ } }

/-- BOOK (R376, R377). -/
def execBook (d a b : Fin 64) (s : State) : Out := slotOp (.book d a b) (taskOp 0 d a b) s

/-- UNBOOK (R376, R377). -/
def execUnbook (d a b : Fin 64) (s : State) : Out := slotOp (.unbook d a b) (taskOp 1 d a b) s

/-- BQRY (R376, R377). -/
def execBqry (d a b : Fin 64) (s : State) : Out := slotOp (.bqry d a b) (taskOp 2 d a b) s

/-- SPAWN (R376, R377). -/
def execSpawn (d a b : Fin 64) (s : State) : Out := slotOp (.spawn d a b) (taskOp 3 d a b) s

/-- CANCEL (R376, R377). -/
def execCancel (d a b : Fin 64) (s : State) : Out := slotOp (.cancel d a b) (taskOp 4 d a b) s

end Sys2Proof.Machine
end

