-- ==== Sys2Proof/Machine/Link.lean ====
section
/-! DEFINITION. The command links of the firmware tree: messages and send permits (R392, R396, R493). -/

namespace Sys2Proof.Machine

/-! ### Messages and permits (R392) -/

/-- A message enters the inbox with a permit: a general one first, else, if it is urgent, a reserved one. -/
def Link.post (l : Link) (k : MsgKind) (arg now : Nat) : Option Link :=
  let posted := fun (urgent : Bool) => { l with inbox := l.inbox ++ [(k, arg)], times := l.times ++ [now], taken := l.taken ++ [urgent] }
  if l.general < 12 then some { posted false with general := l.general + 1 }
  else if k.urgent && decide (l.reserved < 4) then some { posted true with reserved := l.reserved + 1 }
  else none

/-- A message is sent, or held for want of a permit, and so is one that others of its link are held before. -/
def Link.send (l : Link) (k : MsgKind) (arg now : Nat) : Link :=
  let hold := { l with held := l.held ++ [(k, arg)] }
  if l.held.any (fun m => !k.urgent || m.1.urgent) then hold else (l.post k arg now).getD hold

/-- Messages from the GS to a CC. -/
def MsgKind.toCC (k : MsgKind) : Bool :=
  match k with
  | .place => true | .book => true | .stage => true | .release => true | .invtlb => true | .retire => true | .quantum => true
  | .preempt => true | .cancel => true
  | _ => false

/-- A message on the command link of a cluster. -/
def State.send (s : State) (k : MsgKind) (cl arg : Nat) : State :=
  s.updCluster cl (fun c => if k.toCC then { c with toCC := c.toCC.send k arg s.tick } else { c with toGS := c.toGS.send k arg s.tick })

/-- The held message that goes first: the oldest urgent one before the others. -/
def Link.nextHeld (l : Link) : Option (MsgKind × Nat) := (l.held.find? (fun m => m.1.urgent)).orElse (fun _ => l.held.head?)

/-- The receiver takes the oldest message and returns the permit that it took; a held message goes. -/
def Link.take (l : Link) (now : Nat) : Link :=
  match l.inbox with
  | [] => l
  | _ :: rest =>
    let reserved := l.taken.headD false
    let l := { l with inbox := rest, times := l.times.drop 1, taken := l.taken.drop 1 }
    let l := if reserved then { l with reserved := l.reserved - 1 } else { l with general := l.general - 1 }
    match l.nextHeld with
    | some h => (Link.post { l with held := l.held.erase h } h.1 h.2 now).getD l
    | none => l

/-- A message to every present cluster. -/
def State.sendAll (s : State) (k : MsgKind) (arg : Nat) : State :=
  ((List.range 32).filter (bit s.pres.clusters)).foldl (fun s cl => s.send k cl arg) s

end Sys2Proof.Machine
end

