-- ==== Sys2Proof/Machine/Global.lean ====
section
/-! DEFINITION. Global memory at its home: tiers, channels and hashes (R142-R149), blocks and compression (R152-R155),
poison (R435, R472), and the wake-up of monitors by a write (R180). -/

namespace Sys2Proof.Machine

/-- Instants since reset: the time line of commands (R9). -/
def State.now (s : State) : Nat := s.tick * 64 + s.instant

/-! ### Channels and hashes -/

/-- The set bits of a mask of `n` bits, ascending. -/
def setBits (mask n : Nat) : List Nat := (List.range n).filter (bit mask)

/-- Numbers of the present channels of tier 0 or 1 (R37, R147). -/
def State.channels (s : State) (tier : Nat) : List Nat := if tier = 0 then setBits s.pres.hbm 256 else setBits s.pres.lpddr 32

/-- First device physical address of tier 0 or 1 (R142). -/
def tierBase (tier : Nat) : Nat := if tier = 0 then 0 else 2 ^ 41

/-- Bytes of one channel of tier 0 or 1 (R32). -/
def channelBytes (tier : Nat) : Nat := if tier = 0 then 2 ^ 31 else 2 ^ 36

/-- Bytes of tier 0 or 1 as it stands (R142). -/
def State.tierBytes (s : State) (tier : Nat) : Nat := (s.channels tier).length * channelBytes tier

/-- The tier of a device physical address (R142). -/
def State.tierOf (s : State) (pa : Nat) : Option Nat :=
  if pa < s.tierBytes 0 then some 0
  else if 2 ^ 41 ≤ pa ∧ pa < 2 ^ 41 + s.tierBytes 1 then some 1
  else none

/-- A range lies wholly in one tier. -/
def State.tierHolds (s : State) (tier pa n : Nat) : Bool :=
  decide (tierBase tier ≤ pa) && decide (pa + n ≤ tierBase tier + s.tierBytes tier)

/-- Bytes of a hash domain (R146). -/
def State.domainBytes (s : State) (tier : Nat) : Nat := (s.channels tier).length * 4194304

/-- Number of a domain in the hash-domain table: LPDDR's follow HBM's 512. -/
def domainKey (tier d : Nat) : Nat := if tier = 0 then d else 512 + d

/-- Hash code of a domain (R148). -/
def State.hashCode (s : State) (tier d : Nat) : Nat := tget 1 s.hash (domainKey tier d)

/-- Exclusive-or of the successive `b`-bit fields of a row (R147). -/
def foldBits : Nat → Nat → Nat → Nat
  | 0, _, _ => 0
  | k + 1, row, b => if b = 0 then 0 else (row % 2 ^ b) ^^^ foldBits k (row / 2 ^ b) b

/-- Channel index and slice offset of offset `x` in a domain of `n` channels (R147). -/
def slicePlace (h n x : Nat) : Nat × Nat :=
  let g := x / 256
  let lo := x % 256
  let row := g / n
  let power := 2 ^ n.log2 == n
  match h with
  | 1 => (g % n, row * 256 + lo)
  | 3 => (x / 65536 % n, x / 65536 / n * 65536 + x % 65536)
  | 0 => if power then ((g % 2 ^ n.log2) ^^^ foldBits 64 row n.log2, row * 256 + lo) else ((g + row) % n, row * 256 + lo)
  | _ => ((g + row) % n, row * 256 + lo)

/-- Channel number and channel address of a device physical address in its tier (R146, R147). -/
def State.place (s : State) (tier pa : Nat) : Nat × Nat :=
  let ch := s.channels tier
  let x := pa - tierBase tier
  let d := x / s.domainBytes tier
  let p := slicePlace (s.hashCode tier d) ch.length (x % s.domainBytes tier)
  (nth ch p.1, d * 4194304 + p.2)

/-- Storage address of a device physical address: channel by channel (DESIGN CHOICE, log 8). -/
def State.storage (s : State) (tier pa : Nat) : Nat :=
  let p := s.place tier pa
  tierBase tier + p.1 * channelBytes tier + p.2

/-- Offset in a hash domain of a place in a slice (R147): the inverse of `slicePlace`. -/
def sliceOffset (h n idx p : Nat) : Nat :=
  let row := p / 256
  match h with
  | 1 => (row * n + idx) * 256 + p % 256
  | 3 => (p / 65536 * n + idx) * 65536 + p % 65536
  | 0 =>
    if 2 ^ n.log2 = n then (row * n + (idx ^^^ foldBits 64 row n.log2)) * 256 + p % 256
    else (row * n + (idx + n - row % n) % n) * 256 + p % 256
  | _ => (row * n + (idx + n - row % n) % n) * 256 + p % 256

/-- Device physical address of a storage block of a tier. -/
def State.paOfBlock (s : State) (tier b : Nat) : Nat :=
  let a := 128 * b - tierBase tier
  let ca := a % channelBytes tier
  let d := ca / 4194304
  let ch := s.channels tier
  tierBase tier + d * s.domainBytes tier
    + sliceOffset (s.hashCode tier d) ch.length (ch.findIdx (fun x => x == a / channelBytes tier)) (ca % 4194304)

/-- The memory that holds a tier (R143). -/
def State.gmem (s : State) (tier : Nat) : GMem := if tier = 2 then s.host else if tier = 3 then s.peer else s.dev

def State.setGmem (s : State) (tier : Nat) (g : GMem) : State :=
  if tier = 2 then { s with host := g } else if tier = 3 then { s with peer := g } else { s with dev := g }

/-- Number of the block that holds an address of a tier, in the memory that holds the tier. -/
def State.blockOf (s : State) (tier pa : Nat) : Nat := if tier < 2 then s.storage tier pa / 128 else pa / 128

/-! ### Compression (R152-R154) -/

/-- Element width and delta width of codes 2 to 9 (R152). -/
def codeForm (k : Nat) : Option (Nat × Nat) :=
  match k with
  | 2 => some (8, 1) | 3 => some (8, 2) | 4 => some (8, 4) | 5 => some (4, 1) | 6 => some (4, 2) | 7 => some (2, 1)
  | 8 => some (8, 3) | 9 => some (4, 3) | _ => none

/-- Stored sectors of a code (R152). -/
def codeSectors (k : Nat) : Nat :=
  match k with
  | 0 => 1 | 1 => 1 | 2 => 1 | 3 => 2 | 4 => 3 | 5 => 2 | 6 => 3 | 7 => 3 | 8 => 2 | _ => 4

/-- Data bytes of a code (R152). -/
def codeBytes (k : Nat) : Nat :=
  match k with
  | 0 => 0 | 1 => 8 | 2 => 24 | 3 => 40 | 4 => 72 | 5 => 36 | 6 => 68 | 7 => 66 | 8 => 56 | 9 => 100 | _ => 128

/-- Codes 10 to 14 are reserved (R152) (DEDUCED, log 27). -/
def reservedCode (k : Nat) : Bool := decide (10 ≤ k) && decide (k ≤ 14)

/-- The `e` little-endian elements of `w` bytes of a block. -/
def elements (w : Nat) (bs : List Byte) : Nat → List Nat
  | 0 => []
  | e + 1 => natOfBytes (bs.take w) :: elements w (bs.drop w) e

/-- `n` as a signed value of `w` bytes, from its residue. -/
def signedBytes (w n : Nat) : Int := if n < 2 ^ (8 * w - 1) then n else (n : Int) - 2 ^ (8 * w)

/-- The block that a code and its stored bytes stand for (R153). -/
def decodeBlock (k : Nat) (stored : List Byte) : List Byte :=
  match k with
  | 0 => List.replicate 128 0
  | 1 => (List.range 16).flatMap (fun _ => stored.take 8)
  | _ =>
    match codeForm k with
    | some (w, d) =>
      let base := natOfBytes (stored.take w)
      (elements d (stored.drop w) (128 / w)).flatMap (fun x =>
        bytesOfNat w ((((base : Int) + signedBytes d x) % (2 ^ (8 * w) : Int)).toNat))
    | none => stored

/-- The deltas of a block viewed as elements of `w` bytes (R153). -/
def deltas (w : Nat) (bs : List Byte) : List Int :=
  let e := elements w bs (128 / w)
  e.map (fun (x : Nat) => signedBytes w (((Int.ofNat x - Int.ofNat (e.headD 0)) % (2 ^ (8 * w) : Int)).toNat))

/-- Whether a block can be stored in a code (R152, R153). -/
def codeFits (bs : List Byte) (k : Nat) : Bool :=
  match k with
  | 0 => bs.all (fun b => b == 0)
  | 1 => (deltas 8 bs).all (fun d => d == 0)
  | 15 => true
  | _ =>
    match codeForm k with
    | some (w, d) => (deltas w bs).all (fun x => decide (-(2 ^ (8 * d - 1) : Int) ≤ x) && decide (x < 2 ^ (8 * d - 1)))
    | none => false

/-- Codes by sectors, then data bytes, then number (R154). -/
def codeOrder : List Nat := [0, 1, 2, 5, 3, 8, 7, 6, 4, 9, 15]

/-- A list of bytes filled up with zeros to a block. -/
def padBlock (bs : List Byte) : List Byte := (bs ++ List.replicate 128 0).take 128

/-- The stored bytes of a block in a code that fits it (R153). -/
def storedBytes (bs : List Byte) (k : Nat) : List Byte :=
  match k with
  | 0 => List.replicate 128 0
  | 1 => padBlock (bs.take 8)
  | _ =>
    match codeForm k with
    | some (w, d) =>
      padBlock (bs.take w ++ (deltas w bs).flatMap (fun x => bytesOfNat d ((x % (2 ^ (8 * d) : Int)).toNat)))
    | none => padBlock bs

/-- The code that a whole block is written with (R154). -/
def chooseCode (cmp : Bool) (bs : List Byte) : Nat := if cmp then (codeOrder.find? (codeFits bs)).getD 15 else 15

/-! ### Blocks at their home -/

/-- Bytes counted at a channel of tier 0 or 1 (R149). -/
def State.countBytes (s : State) (tier ch read written : Nat) : State :=
  let key := ch + (if tier = 0 then 0 else 256)
  let k := tget ⟨0, 0, 0, 0⟩ s.chan key
  { s with chan := tset s.chan key { k with rdBytes := k.rdBytes + BitVec.ofNat 64 read, wrBytes := k.wrBytes + BitVec.ofNat 64 written } }

/-- Bytes of the sectors that one channel stores (R152): four sectors a block, less what the codes of its blocks save. -/
def State.storedIn (s : State) (tier ch : Nat) : Nat :=
  let first := (tierBase tier + ch * channelBytes tier) / 128
  let mine := s.dev.codes.filter (fun p => decide (first ≤ p.1) && decide (p.1 < first + channelBytes tier / 128))
  channelBytes tier - (mine.map (fun p => 128 - 32 * codeSectors p.2)).sum

/-- Tiers 0 and 1 streamed as stored sectors, to a checkpoint or back (R149, R409, R411). -/
def State.countStream (s : State) (write : Bool) : State :=
  [0, 1].foldl (fun s tier => (s.channels tier).foldl (fun s ch =>
    let n := s.storedIn tier ch
    s.countBytes tier ch (if write then 0 else n) (if write then n else 0)) s) s

/-- A save area written or read (R65, R149): the GS maps its pages in HBM where it will, so what each channel counts is a free value
(DESIGN CHOICE, log 48). -/
def State.countArea (s : State) (write : Bool) : State :=
  (s.channels 0).foldl (fun s ch =>
    let f := s.free
    f.2.countBytes 0 ch (if write then 0 else 32 * f.1) (if write then 32 * f.1 else 0)) s

/-- Counters of a channel after an access (R149): stored sectors only; what the spec leaves to the DRAM is a free
value. -/
def State.countAccess (s : State) (tier pa code : Nat) (write : Bool) : State :=
  if 2 ≤ tier then s
  else
    let ch := (s.place tier pa).1 + (if tier = 0 then 0 else 256)
    let n := BitVec.ofNat 64 (if code = 0 then 0 else 32 * codeSectors code)
    let f1 := s.free
    let f2 := f1.2.free
    let s := f2.2
    let k := tget ⟨0, 0, 0, 0⟩ s.chan ch
    let k := { k with rowConf := k.rowConf + BitVec.ofNat 64 (f1.1 % 2), refStall := k.refStall + BitVec.ofNat 64 f2.1,
                      rdBytes := (if write then k.rdBytes else k.rdBytes + n),
                      wrBytes := (if write then k.wrBytes + n else k.wrBytes) }
    { s with chan := tset s.chan ch k }

/-- Code and stored bytes of a block. -/
def GMem.block (g : GMem) (b : Nat) : Nat × List Byte := (tget 15 g.codes b, readBytes g.cells (128 * b) 128)

/-- A block written whole in a code: its poison is cleared (R155, R435). -/
def GMem.putBlock (g : GMem) (b code : Nat) (stored : List Byte) : GMem :=
  { g with cells := writeBytes g.cells (128 * b) (padBlock stored),
           codes := if code = 15 then tdel g.codes b else tset g.codes b code,
           bad := g.bad.filter (fun x => x ≠ b), weak := g.weak.filter (fun w => w / 4 ≠ b), fails := g.fails.filter (fun w => w / 4 ≠ b) }

/-- The bytes of a block as its code gives them, poison aside. -/
def State.peekBlock (s : State) (tier pa : Nat) : List Byte :=
  let x := (s.gmem tier).block (s.blockOf tier pa)
  decodeBlock x.1 x.2

/-- `n` bytes inside one block, poison aside. -/
def State.peek (s : State) (tier pa n : Nat) : List Byte := ((s.peekBlock tier pa).drop (pa % 128)).take n

/-- The unit of a channel of a tier in records (R428). -/
def unitOfTier (tier : Nat) : Nat := if tier = 0 then 4 else if tier = 1 then 5 else if tier = 2 then 6 else 7

/-- A block is marked poisoned (R435). -/
def State.poison (s : State) (tier pa : Nat) : State :=
  let b := s.blockOf tier pa
  let g := s.gmem tier
  if g.bad.contains b then s else s.setGmem tier { g with bad := g.bad ++ [b] }

/-- The 16 blocks of a tag word marked poisoned (R472). -/
def State.poisonTag (s : State) (tier tag : Nat) : State :=
  let g := s.gmem tier
  s.setGmem tier { g with bad := g.bad ++ ((List.range 16).map (fun k => 16 * tag + k)).filter (fun b => !g.bad.contains b) }

/-- The tag word of a block is uncorrectable (R472). -/
def State.tagFails (s : State) (tier pa : Nat) : Bool := decide (tier < 2) && (s.gmem tier).tagBad.contains (s.blockOf tier pa / 16)

/-- The tag word and the sectors of a block that a read corrects (R433, R434, R472); the DRAM bank is a free value. -/
def State.correctSectors (s : State) (tier pa : Nat) : State :=
  if 2 ≤ tier then s
  else
    let b := s.blockOf tier pa
    let ch := (s.place tier pa).1
    let g := s.gmem tier
    let at' := (if g.tagWeak.contains (b / 16) then [s.paOfBlock tier (b / 16 * 16)] else [])
      ++ (g.weak.filter (fun w => w / 4 == b)).map (fun w => pa / 128 * 128 + 32 * (w % 4))
    at'.foldl (fun s a =>
      let f := s.free
      f.2.corrected (4 + tier) ch (4 + tier) ch (f.1 % 65536) a) s

/-- A block read at its home: its bytes, or `none` where it is poisoned. An uncorrectable tag word poisons it with its 15 neighbours, a reserved
code or a sector that fails poisons it alone (R153, R435, R472). -/
def State.readBlock (s : State) (tier pa : Nat) : State × Option (List Byte) :=
  let b := s.blockOf tier pa
  let x := (s.gmem tier).block b
  let s := s.countAccess tier pa x.1 false
  if s.tagFails tier pa then (s.poisonTag tier (b / 16), none)
  else if (s.gmem tier).bad.contains b then (s, none)
  else if reservedCode x.1 || (s.gmem tier).fails.any (fun w => w / 4 == b) then (s.poison tier pa, none)
  else (s.correctSectors tier pa, some (decodeBlock x.1 x.2))

/-- ADDR of the record of a poisoned block (R428, R472, R475): the virtual address in tiers 2 and 3; the first block of a tag word that failed;
the block whose code is reserved; else the sector that failed, or the one read. -/
def State.errorAddr (s : State) (tier pa va : Nat) : Nat :=
  let b := s.blockOf tier pa
  if 2 ≤ tier then va
  else if s.tagFails tier pa then s.paOfBlock tier (b / 16 * 16)
  else if reservedCode ((s.gmem tier).block b).1 then pa / 128 * 128
  else match (s.gmem tier).fails.find? (fun w => w / 4 == b) with
    | some w => pa / 128 * 128 + 32 * (w % 4)
    | none => pa / 32 * 32

/-- A poisoned block was met at the virtual address `va` on behalf of a context, or of none (R437, R472, R475): the record, the channel's
bucket, and the end of the context. DETAIL is a reserved code as read, else the syndrome, a free value (DESIGN CHOICE, log 38). A tag word
that failed is reported once: its blocks stay poisoned, and their next writes store it anew. -/
def State.blockError (s : State) (ctx : Option Nat) (tier pa va : Nat) : State :=
  let f := s.free
  let g := f.2.free
  let s := g.2
  let b := s.blockOf tier pa
  let tag := s.tagFails tier pa
  let code := ((s.gmem tier).block b).1
  let ch := if tier < 2 then (s.place tier pa).1 else 0
  let addr := s.errorAddr tier pa va
  let s := if tier < 2 then s.bucketAdd (4 + tier) ch 16 else s
  let s := if tag then s.setGmem tier { (s.gmem tier) with tagBad := (s.gmem tier).tagBad.filter (fun k => k ≠ b / 16) } else s
  let s := s.event 0x302 (if ctx.isSome then 3 else 0) ctx (unitOfTier tier) ch (g.1 % 65536) addr
    (if !tag && reservedCode code then code else f.1 % 2 ^ 64) 0
  match ctx with
  | some c => { s with agenda := .event (.contextEnd c 0x302 0) :: s.agenda }
  | none => s

/-- `n` bytes inside one block, read at their home. -/
def State.readHome (s : State) (tier pa n : Nat) : State × Option (List Byte) :=
  let r := s.readBlock tier pa
  (r.1, r.2.map (fun bs => (bs.drop (pa % 128)).take n))

/-! ### Monitors (R180) -/

/-- Command `id` of a core. -/
def Core.command (c : Core) (id : Nat) : Option Command := (c.queue0 ++ c.queue1).find? (fun x => x.id == id)

/-- The core with its command `id` changed. -/
def Core.updCommand (c : Core) (id : Nat) (f : Command → Command) : Core :=
  let g := fun (x : Command) => if x.id = id then f x else x
  { c with queue0 := c.queue0.map g, queue1 := c.queue1.map g }

/-- A block cannot be read without an error (R435, R472). -/
def State.unreadable (s : State) (tier pa : Nat) : Bool :=
  let b := s.blockOf tier pa
  let g := s.gmem tier
  s.tagFails tier pa || g.bad.contains b || reservedCode (g.block b).1 || g.fails.any (fun w => w / 4 == b)

/-- A monitor's waiter is woken (R180, R336): status WOKEN and the operand's value as it now stands. A peer's waiter is told (R34). Where the
line is poisoned, the error is met on behalf of the waiter, and status 0 stands for the DATA with which its WAITA ends (R435, R437). -/
def State.wake (s : State) (m : Monitor) : State :=
  let s := { s with monitors := s.monitors.filter (fun x => x ≠ m) }
  let bad := s.unreadable m.tier m.pa
  let v := natOfBytes (s.peek m.tier m.pa m.size)
  if 256 ≤ m.core then
    { (if bad then (s.readBlock m.tier m.pa).1.blockError none m.tier m.pa 0 else s) with
      replies := s.replies ++ [⟨2, 0, bytesOfNat 2 (m.core - 256) ++ if bad then [] else bytesOfNat 8 v⟩] }
  else
    let s := if bad then
        (s.readBlock m.tier m.pa).1.blockError (some (s.core m.core).csr.ctxId.toNat) m.tier m.pa
          ((((s.core m.core).command m.cmd).map (fun x => x.a.toNat)).getD 0)
      else s
    s.updCore m.core (fun c => c.updCommand m.cmd (fun x => { x with state := .accepted s.now, slot := if bad then [0, 0] else [1, v] }))

/-- A line is that of a monitor. -/
def sameLine (m : Option (Nat × Nat)) (tier pa : Nat) : Bool :=
  match m with
  | some (t, a) => t == tier && a / 128 == pa / 128
  | none => false

/-- The queues whose kick word or WAIT lies in a line are notified (R381, R387). -/
def State.notifyQueues (s : State) (tier pa : Nat) : State :=
  { s with agenda := s.agenda
      ++ (s.queues.filter (fun q => sameLine q.2.kickAt tier pa)).map (fun q => .event (.doorbellNotify q.1))
      ++ (s.queues.filter (fun q => sameLine q.2.waitAt tier pa)).map (fun q => .event (.waitReevaluate q.1)) }

/-- Every armed waiter of a line is woken (R180). -/
def State.wakeLine (s : State) (tier pa : Nat) : State :=
  ((s.monitors.filter (fun m => m.tier == tier && m.pa / 128 == pa / 128)).foldl State.wake s).notifyQueues tier pa

/-- The two 64-byte lines of the block of an address. -/
def hostLinesOf (pa : Nat) : List Nat := [pa / 128 * 2, pa / 128 * 2 + 1]

/-- A back-invalidation snoop of a block of tier 0 or 1: the host holds its lines no more (R401). -/
def State.backInvalidate (s : State) (tier pa : Nat) : State :=
  if tier < 2 then { s with hostLines := s.hostLines.filter (fun l => !(hostLinesOf pa).contains l) } else s

/-- A block stored at its home in a code (R154), once the host holds no line of it (R401), and counted. To store its code the channel reads its
tag word, which may fail there (R472; DESIGN CHOICE, log 75). -/
def State.placeBlock (s : State) (tier pa code : Nat) (stored : List Byte) : State :=
  let s := (s.backInvalidate tier pa).countAccess tier pa code true
  let s := if s.tagFails tier pa then (s.poisonTag tier (s.blockOf tier pa / 16)).blockError none tier pa 0 else s
  s.setGmem tier ((s.gmem tier).putBlock (s.blockOf tier pa) code stored)

/-- A block stored, and the line's waiters woken (R154, R180). -/
def State.storeBlock (s : State) (tier pa code : Nat) (stored : List Byte) : State :=
  (s.placeBlock tier pa code stored).wakeLine tier pa

/-- A whole block written (R154, R155). -/
def State.writeBlock (s : State) (tier pa : Nat) (cmp : Bool) (bs : List Byte) : State :=
  let k := chooseCode cmp bs
  s.storeBlock tier pa k (storedBytes bs k)

/-- A block's bytes with some of them replaced from offset `o`. -/
def mergeBytes (old : List Byte) (o : Nat) (bs : List Byte) : List Byte := old.take o ++ bs ++ old.drop (o + bs.length)

/-- Bytes stored inside one block, whole or as a partial write merged at the home; `none` of it where the block is
poisoned (R155, R435). -/
def State.placeHome (s : State) (tier pa : Nat) (cmp : Bool) (bs : List Byte) : State × Bool :=
  let place := fun (s : State) (bs : List Byte) => s.placeBlock tier pa (chooseCode cmp bs) (storedBytes bs (chooseCode cmp bs))
  if bs.length = 128 then (place s bs, true)
  else
    match s.readBlock tier pa with
    | (s, none) => (s, false)
    | (s, some old) => (place s (mergeBytes old (pa % 128) bs), true)

/-- The same, and the line's waiters woken (R180). -/
def State.writeHome (s : State) (tier pa : Nat) (cmp : Bool) (bs : List Byte) : State × Bool :=
  match s.placeHome tier pa cmp bs with
  | (s, true) => (s.wakeLine tier pa, true)
  | r => r

/-- Bytes written inside one block by an address that no translation gave: whether the block is stored compressed the spec does not
say, so it is a free value (DESIGN CHOICE, log 18). -/
def State.writePlain (s : State) (tier pa : Nat) (bs : List Byte) : State × Bool :=
  let f := s.free
  f.2.writeHome tier pa (f.1 % 2 == 1) bs

/-- The operand of an atomic read and written at its home as one step (R155, R178): `f` gives the new value, or nothing
where the atomic writes nothing. Answers the old value, or `none` where the block is poisoned. -/
def State.atomicHome (s : State) (tier pa n : Nat) (cmp : Bool) (f : Nat → Option Nat) : State × Option Nat :=
  match s.readBlock tier pa with
  | (s, none) => (s, none)
  | (s, some old) =>
    let o := natOfBytes ((old.drop (pa % 128)).take n)
    match f o with
    | some v => (s.writeBlock tier pa cmp (mergeBytes old (pa % 128) (bytesOfNat n v)), some o)
    | none => (s, some o)

/-- A range of a memory cut at block boundaries: address and length of each piece. -/
def blockPieces : Nat → Nat → Nat → List (Nat × Nat)
  | 0, _, _ => []
  | k + 1, a, n =>
    if n = 0 then []
    else
      let m := min n (128 - a % 128)
      (a, m) :: blockPieces k (a + m) (n - m)

/-- Pieces of a range of `n` bytes from `a`. -/
def piecesOf (a n : Nat) : List (Nat × Nat) := blockPieces (n / 128 + 2) a n

/-- A range of physical memory read, or the address of the first piece of it whose block is poisoned. -/
def State.readRangeAt (s : State) (tier pa n : Nat) : State × Except Nat (List Byte) :=
  (piecesOf pa n).foldl
    (fun (r : State × Except Nat (List Byte)) p =>
      match r.2 with
      | .error _ => r
      | .ok bs =>
        match r.1.readHome tier p.1 p.2 with
        | (s, some y) => (s, .ok (bs ++ y))
        | (s, none) => (s, .error p.1))
    (s, .ok [])

/-- A range of physical memory read, or `none` where a block of it is poisoned. -/
def State.readRange (s : State) (tier pa n : Nat) : State × Option (List Byte) :=
  match s.readRangeAt tier pa n with
  | (s, .ok bs) => (s, some bs)
  | (s, .error _) => (s, none)

/-- A range of physical memory written; false where a partial write met a poisoned block. -/
def State.writeRange (s : State) (tier pa : Nat) (cmp : Bool) (bs : List Byte) : State × Bool :=
  (piecesOf pa bs.length).foldl
    (fun (r : State × Bool) p =>
      if r.2 then r.1.writeHome tier p.1 cmp ((bs.drop (p.1 - pa)).take p.2) else r)
    (s, true)

end Sys2Proof.Machine
end

