-- ==== Sys2Proof/Machine/Translate.lean ====
section
/-! DEFINITION. Virtual addresses, page tables, the walk, the TLBs and walk caches (R129-R141). -/

namespace Sys2Proof.Machine

/-! ### Ranges (R129) -/

/-- Bits [63:57] all equal bit 56. -/
def canonical (va : Nat) : Bool := decide (va < 2 ^ 56) || (decide (2 ^ 64 - 2 ^ 56 ≤ va) && decide (va < 2 ^ 64))

/-- A range of `n` bytes starts at a canonical address and ends in the half that holds its first byte (R129). -/
def rangeOk (va n : Nat) : Bool :=
  canonical va && (n == 0 || (if va < 2 ^ 56 then decide (va + n ≤ 2 ^ 56) else decide (va + n ≤ 2 ^ 64)))

/-! ### Table entries (R132, R133) -/

def leafW (e : Nat) : Bool := bit e 2
def leafPriv (e : Nat) : Bool := bit e 3
def leafTier (e : Nat) : Nat := bits e 5 4
def leafOrd (e : Nat) : Nat := bits e 7 6
def leafCmp (e : Nat) : Bool := bit e 8
def leafHash (e : Nat) : Nat := bits e 10 9
def leafDirty (e : Nat) : Bool := bit e 12
def leafSz (e : Nat) : Nat := bits e 14 13
def entryOut (e : Nat) : Nat := bits e 55 16 * 65536

/-- Page size of a leaf entry (R133). -/
def leafSize (e : Nat) : Nat := if leafSz e = 0 then 2 ^ 16 else if leafSz e = 1 then 2 ^ 21 else 2 ^ 30

/-- Physical address of a virtual address under a leaf entry (R134). -/
def leafPa (e va : Nat) : Nat := entryOut e + va % leafSize e

/-- The hash domains of a range all have a code (R135, R148). -/
def State.domainsHave (s : State) (tier pa n code : Nat) : Bool :=
  let d0 := (pa - tierBase tier) / s.domainBytes tier
  let d1 := (pa - tierBase tier + (n - 1)) / s.domainBytes tier
  (List.range (d1 + 1 - d0)).all (fun k => s.hashCode tier (d0 + k) == code)

/-- An OA is within range (R145). -/
def State.outOk (s : State) (e : Nat) : Bool :=
  match leafTier e with
  | 0 => s.tierHolds 0 (entryOut e) (leafSize e)
  | 1 => s.tierHolds 1 (entryOut e) (leafSize e)
  | 2 => bits e 55 52 == 0
  | _ => entryOut e / 2 ^ 42 != s.moduleNum.toNat

/-- A valid entry read at a level breaks the format (R135) (DEDUCED, log 24). -/
def State.entryBad (s : State) (level e : Nat) : Bool :=
  if bit e 1 then
    level < 2 || bits e 63 56 != 0 || bit e 15 || (level == 3 && decide (1 < leafSz e)) || (level == 2 && leafSz e != 2)
      || leafOrd e == 3 || (leafCmp e && leafTier e == 2) || !s.outOk e || entryOut e % leafSize e != 0
      || (decide (leafTier e < 2) && !s.domainsHave (leafTier e) (entryOut e) (leafSize e) (leafHash e))
  else
    level == 3 || bits e 63 56 != 0 || bits e 15 2 != 0 || bits e 55 52 != 0 || (s.tierOf (entryOut e)).isNone

/-! ### The walk (R131-R137) -/

/-- Levels with the lowest VA bit that indexes them and their index width (R131). -/
def walkLevels : List (Nat × Nat × Nat) := [(0, 55, 2), (1, 42, 13), (2, 29, 13), (3, 16, 13)]

/-- How a walk ends. -/
inductive WalkEnd where
  /-- A leaf entry and its physical address. -/
  | leaf (pa entry : Nat)
  | pageFault
  | format
  | protection
  | data
  deriving DecidableEq, Repr

/-- A table entry read by a walk: from the walk cache, else from memory (R137, R138). A cached entry whose parity fails is dropped (R434). -/
def State.readEntry (s : State) (cl ctx level tag pa : Nat) : State × Option Nat :=
  let mine := fun (w : WalkItem) => w.ctx == ctx && w.level == level && w.tag == tag
  let s := if (s.cluster cl).walks.any (fun w => w.bad && mine w) then
    s.updCluster cl (fun k => { k with walks := k.walks.filter (fun w => !(w.bad && mine w)) }) else s
  match (s.cluster cl).walks.find? (fun w => w.ctx == ctx && w.level == level && w.tag == tag) with
  | some w => (s, some w.entry)
  | none =>
    match s.tierOf pa with
    | none => (s, none)
    | some t =>
      let r := s.readHome t pa 8
      (r.1, r.2.map natOfBytes)

/-- A table entry may be kept in the cluster's walk cache (R138): whether it is, is a free value, since the spec states no
capacity (DESIGN CHOICE, log 25). -/
def State.keepEntry (s : State) (cl ctx level tag e : Nat) : State :=
  let f := s.free
  if f.1 % 2 = 1 then
    f.2.updCluster cl (fun k =>
      { k with walks := k.walks.filter (fun w => !(w.ctx == ctx && w.level == level && w.tag == tag)) ++ [⟨ctx, level, tag, e, false⟩] })
  else f.2

/-- The walk from a table at `base` down the levels that remain. -/
def walkFrom (cl ctx va : Nat) : List (Nat × Nat × Nat) → Nat → State → State × WalkEnd
  | [], _, s => (s, .format)
  | (level, sh, w) :: rest, base, s =>
    let pa := base + 8 * (va / 2 ^ sh % 2 ^ w)
    match s.readEntry cl ctx level (va / 2 ^ sh) pa with
    | (s, none) => (match s.tierOf pa with | some t => s.blockError (some ctx) t pa va | none => s, .data)
    | (s, some e) =>
      if bit e 0 = false then (s, .pageFault)
      else if s.entryBad level e then (s, .format)
      else if bit e 1 then (s, .leaf pa e)
      else walkFrom cl ctx va rest (entryOut e) (s.keepEntry cl ctx level (va / 2 ^ sh) e)

/-- The L0 table of a context (R130); a context that is not in use has none. -/
def State.l0 (s : State) (ctx : Nat) : Option Nat := (tfind s.contexts ctx).map Context.l0

/-- W or PRIV forbids the access (R135). -/
def forbidden (e : Nat) (write priv : Bool) : Bool := (write && !leafW e) || (leafPriv e && !priv)

/-- A leaf entry as the walker leaves it (R136): A set by a translation that reads, A and D by one that writes and finds D = 0. -/
def withAD (e : Nat) (read write : Bool) : Nat :=
  let d := write && !bit e 12
  let e := if (read || d) && !bit e 11 then e + 2 ^ 11 else e
  if d then e + 2 ^ 12 else e

/-- A whole walk (R131-R136). The walk is one step of the model, so its compare-and-set finds the value it read. -/
def State.walk (s : State) (cl ctx va : Nat) (read write priv : Bool) : State × WalkEnd :=
  match s.l0 ctx with
  | none => (s, .pageFault)
  | some base =>
    match walkFrom cl ctx va walkLevels base s with
    | (s, .leaf pa e) =>
      if forbidden e write priv then (s, .protection)
      else
        let e' := withAD e read write
        if e' = e then (s, .leaf pa e)
        else
          match s.tierOf pa with
          | none => (s, .data)
          | some t =>
            match s.writePlain t pa (bytesOfNat 8 e') with
            | (s, true) => (s, .leaf pa e')
            | (s, false) => (s.blockError (some ctx) t pa va, .data)
    | r => r

/-! ### TLBs (R138) -/

/-- The translation of a page that a leaf entry gives. -/
def xlatOf (ctx va e : Nat) : Xlat := ⟨ctx, va / leafSize e * leafSize e, leafSize e, e, false⟩

/-- A cached translation serves an access: a write needs D, and a read A, which only a walk sets (R136) (DEDUCED, log 24). -/
def Xlat.serves (x : Xlat) (ctx va : Nat) (read write : Bool) : Bool :=
  x.ctx == ctx && decide (x.base ≤ va) && decide (va < x.base + x.size) && withAD x.leaf read write == x.leaf

/-- A translation enters a TLB of `cap` entries: it replaces its page's, and a full TLB loses the entry that `pick`
chooses. -/
def fillTlb (cap pick : Nat) (l : List Xlat) (x : Xlat) : List Xlat :=
  let l := l.filter (fun y => !(y.ctx == x.ctx && y.base == x.base && y.size == x.size))
  (if l.length < cap then l else l.eraseIdx (pick % cap)) ++ [x]

/-- A translation enters the L1 TLB of a core, where one asked, and the cluster's L2 TLB. Which entry a full TLB loses is
a free value. -/
def State.fill (s : State) (cl : Nat) (n : Option Nat) (x : Xlat) : State :=
  let f1 := s.free
  let f2 := f1.2.free
  let s := f2.2.updCluster cl (fun k => { k with tlb2 := fillTlb 4096 f1.1 k.tlb2 x })
  match n with
  | some n => s.updCore n (fun c => { c with tlb := fillTlb 256 f2.1 c.tlb x })
  | none => s

/-- A usable page: tier, physical address, ordering kind and CMP. -/
structure Page where
  tier : Nat
  pa : Nat
  ord : Nat
  cmp : Bool
  /-- The virtual address of the access, which the record of an error in tiers 2 and 3 names (R428). -/
  va : Nat
  deriving DecidableEq, Repr

def pageOf (e va : Nat) : Page := ⟨leafTier e, leafPa e va, leafOrd e, leafCmp e, va⟩

/-- A fault of a translation (R140). -/
inductive Fate where
  | pageFault | protection | format | data
  deriving DecidableEq, Repr

/-- The entries that a lookup of an address reads whose parity fails are dropped (R434). -/
def dropParity (ctx va : Nat) (l : List Xlat) : List Xlat := l.filter (fun x => !(x.bad && x.ctx == ctx && decide (x.base ≤ va) && decide (va < x.base + x.size)))

/-- Translation of an access of a context (R24): L1 TLB of the core, L2 TLB of the cluster, then the page walker; an entry whose parity fails is
dropped, and the walk is done again (R434). -/
def State.translate (s : State) (cl : Nat) (n : Option Nat) (ctx va : Nat) (read write priv : Bool) :
    State × Except Fate Page :=
  let s := match n with
    | some n => if (s.core n).tlb.any Xlat.bad then s.updCore n (fun c => { c with tlb := dropParity ctx va c.tlb }) else s
    | none => s
  let s := if (s.cluster cl).tlb2.any Xlat.bad then s.updCluster cl (fun k => { k with tlb2 := dropParity ctx va k.tlb2 }) else s
  let hit1 := match n with
    | some n => (s.core n).tlb.find? (fun (x : Xlat) => x.serves ctx va read write)
    | none => none
  let hit := match hit1 with
    | some x => some x
    | none => (s.cluster cl).tlb2.find? (fun (x : Xlat) => x.serves ctx va read write)
  match hit with
  | some x =>
    if forbidden x.leaf write priv then (s, .error .protection)
    else (if hit1.isSome then s else s.fill cl n x, .ok (pageOf x.leaf va))
  | none =>
    match s.walk cl ctx va read write priv with
    | (s, .leaf _ e) => (s.fill cl n (xlatOf ctx va e), .ok (pageOf e va))
    | (s, .pageFault) => (s, .error .pageFault)
    | (s, .format) => (s, .error .format)
    | (s, .protection) => (s, .error .protection)
    | (s, .data) => (s, .error .data)

/-! ### A look at the tables without an access -/

/-- The entry that a walk would end on, read without counting or caching: its physical address and value. -/
def peekFrom (s : State) (va : Nat) : List (Nat × Nat × Nat) → Nat → Option (Nat × Nat)
  | [], _ => none
  | (level, sh, w) :: rest, base =>
    let pa := base + 8 * (va / 2 ^ sh % 2 ^ w)
    match s.tierOf pa with
    | none => none
    | some t =>
      let e := natOfBytes (s.peek t pa 8)
      if bit e 0 = false then some (pa, e)
      else if s.entryBad level e then none
      else if bit e 1 then some (pa, e)
      else peekFrom s va rest (entryOut e)

/-- The valid entries of a table and of those below it, each with its first virtual address, where it stands, and its value. -/
def entriesFrom (s : State) : List (Nat × Nat × Nat) → Nat → Nat → List (Nat × Nat × Nat)
  | [], _, _ => []
  | (_, sh, w) :: rest, base, va =>
    (List.range (2 ^ w)).flatMap (fun k =>
      match s.tierOf (base + 8 * k) with
      | none => []
      | some t =>
        let e := natOfBytes (s.peek t (base + 8 * k) 8)
        let a := va + k * 2 ^ sh
        if bit e 0 = false then []
        else if bit e 1 then [(a, base + 8 * k, e)]
        else (a, base + 8 * k, e) :: entriesFrom s rest (entryOut e) a)

/-- The valid entries of a context's tables, by virtual address. -/
def State.entriesOf (s : State) (ctx : Nat) : List (Nat × Nat) :=
  match s.l0 ctx with
  | none => []
  | some base => (entriesFrom s walkLevels base 0).map (fun p => (if p.1 < 2 ^ 56 then p.1 else p.1 + (2 ^ 64 - 2 ^ 57), p.2.2))

/-- The entries of a context's tables that name a further table: where each stands, and its value. -/
def State.tableEntries (s : State) (ctx : Nat) : List (Nat × Nat) :=
  match s.l0 ctx with
  | none => []
  | some base => ((entriesFrom s walkLevels base 0).map Prod.snd).filter (fun p => !bit p.2 1)

/-- The valid leaf entry of a virtual address, if the tables hold one. -/
def State.peekLeaf (s : State) (ctx va : Nat) : Option Nat :=
  match s.l0 ctx with
  | none => none
  | some base =>
    match peekFrom s va walkLevels base with
    | some (_, e) => if bit e 0 then some e else none
    | none => none

/-- A walk for an address would not meet V = 0: what a page fault waits for (R140). The entry may break the format, which the walk then
finds. -/
def State.arrived (s : State) (ctx va : Nat) : Bool :=
  match s.l0 ctx with
  | none => false
  | some base =>
    match peekFrom s va walkLevels base with
    | some (_, e) => bit e 0
    | none => true

/-- The ordering kind of the page of an address, if it is mapped (R133). -/
def State.pageKind (s : State) (ctx va : Nat) : Option Nat := (s.peekLeaf ctx va).map leafOrd

/-! ### Page faults and INVTLB (R139-R141, R469) -/

/-- A walk of a context met V = 0 on the page of `va` (R140, R141): one service per page. Faults on one page that are met in different
clusters share it, and its start time (DESIGN CHOICE, log 101). -/
def State.noteFault (s : State) (ctx va : Nat) : State :=
  if s.faults.any (fun f => f.ctx == ctx && f.page == va / 65536) then s
  else { s with faults := s.faults ++ [⟨ctx, va / 65536, s.tick, va⟩] }

/-- An INVTLB's scope holds a translation of `size` bytes from `base` in a context (R139). -/
def Inv.covers (v : Inv) (ctx base size : Nat) : Bool :=
  v.scope == 0 || (v.ctx == ctx && (v.scope == 1 || (decide (base < v.base + v.len) && decide (v.base < base + size))))

/-- Every cached item in an INVTLB's scope is dropped (R139). -/
def State.dropCached (s : State) (v : Inv) : State :=
  { s with
    cores := tmap (fun _ c => { c with tlb := c.tlb.filter (fun x => !v.covers x.ctx x.base x.size) }) s.cores,
    clusters := tmap (fun _ k =>
      { k with tlb2 := k.tlb2.filter (fun x => !v.covers x.ctx x.base x.size),
               walks := k.walks.filter (fun w =>
                 let sh := if w.level = 0 then 55 else if w.level = 1 then 42 else 29
                 !v.covers w.ctx (w.tag * 2 ^ sh) (2 ^ sh)) }) s.clusters }

/-- An INVTLB is issued (R139) and broadcast on the command links: it completes by a step of its own. -/
def State.issueInv (s : State) (scope ctx base len : Nat) (mailbox : Bool) : State :=
  { s.sendAll .invtlb s.nextOp with invs := s.invs ++ [⟨s.nextOp, scope, ctx, base, len, mailbox⟩], nextOp := s.nextOp + 1 }

end Sys2Proof.Machine
end

