-- ==== Sys2Proof/Machine/Command.lean ====
section
/-! DEFINITION. Commands of the C slots: their fields, their issue into an engine's queue, their weight, the checks of local
ranges, the accesses that they make, and their end (R312-R321, R343, R468, R471). -/

namespace Sys2Proof.Machine

/-! ### Status codes of a command's end (R343, R349, R457) -/

def stRange : Nat := 1
def stOwner : Nat := 2
def stExpired : Nat := 3
def stTranslation : Nat := 4
def stProtection : Nat := 5
def stWalkFormat : Nat := 6
def stData : Nat := 7
def stArg : Nat := 8
def stOverlap : Nat := 9
def stWindow : Nat := 10
def stRank : Nat := 11
def stClosed : Nat := 12
def stContext : Nat := 13
def stCapacity : Nat := 14

/-! ### Fields (R318, R351) -/

/-- The fields of a C-slot operation; a field that the operation does not name is 0. -/
structure CFields where
  bar : Option (Fin 16)
  order : Nat
  d : Fin 16
  xf : Nat
  sa : Fin 64
  sb : Fin 64
  sc : Fin 64
  w : Nat
  imm : Nat
  deriving DecidableEq, Repr

/-- Fields of an operation with three registers, a width and an immediate. -/
def fieldsAll (b : Fin 16) (o : Fin 4) (sa sb sc : Fin 64) (w : Fin 8) (i : Fin 32768) : CFields :=
  ⟨some b, o.val, 0, 0, sa, sb, sc, w.val, i.val⟩

/-- Fields of an operation that names a barrier, a handle or pipe and two registers. -/
def fieldsTwo (b d : Fin 16) (sa sb : Fin 64) : CFields := ⟨some b, 0, d, 0, sa, sb, 0, 0, 0⟩

/-- The fields of a C-slot operation. Its scope is not among them: every release and acquire of the model orders as one at SYSTEM scope does
(R163) (DESIGN CHOICE, log 92). -/
def cfields : Instr → CFields
  | .cget _ b o _ d x sa sb sc w i => ⟨some b, o.val, d, x.val, sa, sb, sc, w.val, i.val⟩
  | .cput _ b o _ d x sa sb sc w i => ⟨some b, o.val, d, x.val, sa, sb, sc, w.val, i.val⟩
  | .cxfer _ b o _ d sa sb sc i => ⟨some b, o.val, d, 0, sa, sb, sc, 0, i.val⟩
  | .cfill _ b o _ d sa sb sc w i => ⟨some b, o.val, d, 0, sa, sb, sc, w.val, i.val⟩
  | .ctouch _ b o _ sa sb i => ⟨some b, o.val, 0, 0, sa, sb, 0, 0, i.val⟩
  | .cflush _ b o _ sa sb i => ⟨some b, o.val, 0, 0, sa, sb, 0, 0, i.val⟩
  | .cmap _ b o _ sa i => ⟨some b, o.val, 0, 0, sa, 0, 0, 0, i.val⟩
  | .cmigr _ b o _ sa sb sc w => ⟨some b, o.val, 0, 0, sa, sb, sc, w.val, 0⟩
  | .cpfx _ b sa sb => fieldsTwo b 0 sa sb
  | .aadd _ b o _ sa sb sc w i => fieldsAll b o sa sb sc w i
  | .afadd _ b o _ sa sb sc w i => fieldsAll b o sa sb sc w i
  | .aand _ b o _ sa sb sc w i => fieldsAll b o sa sb sc w i
  | .aor _ b o _ sa sb sc w i => fieldsAll b o sa sb sc w i
  | .axor _ b o _ sa sb sc w i => fieldsAll b o sa sb sc w i
  | .amin _ b o _ sa sb sc w i => fieldsAll b o sa sb sc w i
  | .amax _ b o _ sa sb sc w i => fieldsAll b o sa sb sc w i
  | .aminn _ b o _ sa sb sc w i => fieldsAll b o sa sb sc w i
  | .amaxn _ b o _ sa sb sc w i => fieldsAll b o sa sb sc w i
  | .axchg _ b o _ sa sb sc w i => fieldsAll b o sa sb sc w i
  | .acas _ b o _ sa sb sc w i => fieldsAll b o sa sb sc w i
  | .adecp _ b o _ sa sb sc w i => fieldsAll b o sa sb sc w i
  | .adcas _ b o _ sa sb sc w i => fieldsAll b o sa sb sc w i
  | .amove _ b o _ sa sb sc w i => fieldsAll b o sa sb sc w i
  | .ared _ b o _ sa sb w => ⟨some b, o.val, 0, 0, sa, sb, 0, w.val, 0⟩
  | .waita _ b o _ sa sb sc w i => fieldsAll b o sa sb sc w i
  | .wake _ b o _ sa sb sc i => ⟨some b, o.val, 0, 0, sa, sb, sc, 0, i.val⟩
  | .psend _ b o _ d sa sb i => ⟨some b, o.val, d, 0, sa, sb, 0, 0, i.val⟩
  | .precv _ b o _ d sa sc i => ⟨some b, o.val, d, 0, sa, 0, sc, 0, i.val⟩
  | .pclose _ b d => fieldsTwo b d 0 0
  | .tbar _ b o _ d => ⟨some b, o.val, d, 0, 0, 0, 0, 0, 0⟩
  | .barsig _ o _ d => ⟨none, o.val, d, 0, 0, 0, 0, 0, 0⟩
  | .ixopen _ b d sa sb => fieldsTwo b d sa sb
  | .ixlist _ b o _ d sa sb i => ⟨some b, o.val, d, 0, sa, sb, 0, 0, i.val⟩
  | .ixand _ b d sa => fieldsTwo b d sa 0
  | .ixor _ b d sa => fieldsTwo b d sa 0
  | .ixscore _ b d sa => fieldsTwo b d sa 0
  | .ixvec _ b o _ d sa sb => ⟨some b, o.val, d, 0, sa, sb, 0, 0, 0⟩
  | .ixtopk _ b d => fieldsTwo b d 0 0
  | .ixdrain _ b o _ d sa sc => ⟨some b, o.val, d, 0, sa, 0, sc, 0, 0⟩
  | .ixclose _ b d => fieldsTwo b d 0 0
  | _ => ⟨none, 0, 0, 0, 0, 0, 0, 0, 0⟩

/-- A transfer (R322). -/
def isTransfer : Instr → Bool
  | .cget .. => true
  | .cput .. => true
  | .cxfer .. => true
  | .cfill .. => true
  | _ => false

/-- A join stands in a queue for a FENCE and is no command (R173). -/
def isJoin : Instr → Bool
  | .fence .. => true
  | _ => false

/-- An IX command (R351). -/
def isIx : Instr → Bool
  | .ixopen .. => true
  | .ixlist .. => true
  | .ixand .. => true
  | .ixor .. => true
  | .ixscore .. => true
  | .ixvec .. => true
  | .ixtopk .. => true
  | .ixdrain .. => true
  | .ixclose .. => true
  | _ => false

/-! ### Copy descriptors (R319, R320) -/

/-- GVA. -/
def descGva (d : Vector Double 4) : Nat := (d[0]).toNat
/-- LADDR. -/
def descLaddr (d : Vector Double 4) : Nat := (d[1]).toNat % 2 ^ 32
/-- LSTRIDE, modulo 2^32. -/
def descLstride (d : Vector Double 4) : Nat := (d[1]).toNat / 2 ^ 32
/-- GSTRIDE, modulo 2^64. -/
def descGstride (d : Vector Double 4) : Nat := (d[2]).toNat
/-- NROWS. -/
def descRows (d : Vector Double 4) : Nat := bits (d[3]).toNat 39 24 + 1
/-- RLEN. -/
def descRlen (d : Vector Double 4) : Nat := (d[3]).toNat % 2 ^ 24
/-- RSV. -/
def descRsv (d : Vector Double 4) : Nat := (d[3]).toNat / 2 ^ 40

/-- The weight that a command adds to PEND (R313): descriptor and s(sb) as they stood before the bundle. -/
def weightOf (i : Instr) (d : Vector Double 4) (b : Nat) : Nat :=
  match i with
  | .cget .. => descRows d * descRlen d
  | .cput .. => descRows d * descRlen d
  | .cxfer .. => descRows d * descRlen d
  | .cfill .. => descRows d * descRlen d
  | .ctouch .. => max b 1
  | .cflush .. => max b 1
  | .cmigr .. => max b 1
  | .cpfx .. => max b 1
  | _ => 1

/-! ### Issue (R313, R316, R317) -/

/-- The engine of the slot in hand. -/
def State.engine (s : State) : Fin 2 := if s.issue.slot = .c1 then 1 else 0

/-- The queue of an engine. -/
def Core.queue (c : Core) (e : Fin 2) : List Command := if e = 0 then c.queue0 else c.queue1

/-- Entries that the commands of a queue take. -/
def Core.queueLen (c : Core) (e : Fin 2) : Nat := ((c.queue e).filter (fun x => !isJoin x.op)).length

/-- A barrier's weight grows at the commit (R313). -/
def Core.addPend (c : Core) (b : Option (Fin 16)) (w : Nat) : Core :=
  match b with
  | some b => { c with bars := c.bars.set b { c.bars[b] with pend := (c.bars[b].pend + w) % 2 ^ 64 } }
  | none => c

/-- The command that an operation issues: registers and descriptor of `v`, the core as it stood before the bundle. -/
def commandOf (v : Core) (id : Nat) (i : Instr) : Command :=
  let f := cfields i
  let d := if isTransfer i then v.desc[f.d] else Vector.replicate 4 0
  { id := id, op := i, ctx := v.csr.ctxId.toNat, a := v.rs f.sa, b := v.rs f.sb, c := v.rs f.sc, desc := d, bar := f.bar,
    weight := weightOf i d (v.rs f.sb).toNat, state := .queued, slot := [], index := [], done := 0, buf := [], born := v.seq.epoch,
    tried := none, hidden := [], started := false,
    refill := false, killed := false }

/-- The effect of a command op at its commit: the queue-full trap, or one more entry and the weight (R313, R316). -/
def issueCommand (i : Instr) (s : State) : Except Trap State :=
  let e := s.engine
  if 64 ≤ s.view.queueLen e then .error ⟨0x1C, e.val, 0⟩
  else .ok (s.upd (fun c =>
    let cmd := commandOf s.view c.nextCmd i
    (c.addPend cmd.bar cmd.weight).enqueue e cmd))

/-- A command op (R316). -/
def commandOp (i : Instr) (s : State) : Out := slotOp i (issueCommand i) s

/-! ### The end of a command (R313, R343, R471) -/

/-- A command leaves its queue. -/
def Core.dropCommand (c : Core) (id : Nat) : Core :=
  { c with queue0 := c.queue0.filter (fun x => x.id ≠ id), queue1 := c.queue1.filter (fun x => x.id ≠ id) }

/-- A status enters ERR of a barrier, or its overflow bit (R343). -/
def Barrier.fail (b : Barrier) (st : Nat) : Barrier := if b.err = 0 then { b with err := st } else { b with ovf := true }

/-- A command's end at its barrier: ERR first, then PEND (R471). -/
def Core.endAt (c : Core) (b : Option (Fin 16)) (w st : Nat) : Core :=
  match b with
  | some b =>
    let x := if st = 0 then c.bars[b] else c.bars[b].fail st
    { c with bars := c.bars.set b { x with pend := (x.pend + (2 ^ 64 - w % 2 ^ 64)) % 2 ^ 64 } }
  | none => c

/-- What follows when a stopped or exiting core has no command left (R50, R61, R63, R439, R449), or when a refill ends
(R375). -/
def State.afterEnd (s : State) (n : Nat) : State :=
  let c := s.core n
  if c.seq.stop.isSome && !c.outstanding then { s with agenda := .event (.drainEnd n) :: s.agenda } else s

/-- The host lines that the port holds for a unit: a core, or 256 plus a cluster (R400). -/
def State.freeHost (s : State) (who : Nat) : State := { s with snoop := s.snoop.filter (fun x => x.2 ≠ who) }

/-- A command ends, with error status unless `st` is 0 (R313, R343). -/
def State.endCommand (s : State) (n id st : Nat) : State :=
  match (s.core n).command id with
  | none => s
  | some x =>
    let s := (s.updCore n (fun c => (c.endAt x.bar x.weight st).dropCommand id)).freeHost n
    let s := if st ≠ 0 ∧ x.bar = none then s.record 0x0101 1 0 (some x.ctx) 0 n 0 0 st 0 else s
    let s := s.afterEnd n
    if st ≠ 0 ∧ x.refill = true then { s with agenda := .event (.contextEnd x.ctx 0x904 st) :: s.agenda } else s

/-! ### Progress -/

/-- What one piece of a command's work comes to. -/
inductive Prog where
  | ok
  /-- The command ends with error status. -/
  | fail (status : Nat)
  /-- The command waits in a state. -/
  | wait (state : CmdState)
  deriving DecidableEq, Repr

/-- A piece of a command: of a transfer, row, offset in the row and length (R174, R320); of a map command, the group (R124). -/
structure Piece where
  row : Nat
  off : Nat
  len : Nat
  deriving DecidableEq, Repr

/-- The least that a command performs at once: an access, or an act at a home, an endpoint or an engine. Bytes read wait in the command's
buffer until they are written. -/
inductive CAct where
  /-- Global bytes inside one block, from a virtual address; `raw` in stored form (R325). -/
  | readGlobal (va len : Nat) (raw : Bool)
  /-- The bytes from `pos` on of what the command then writes, into one global block. -/
  | writeGlobal (va len pos : Nat) (raw : Bool)
  /-- Own local bytes inside one 64-byte row. -/
  | readLocal (a len : Nat)
  /-- Own local bytes inside one 64-byte row of what the command reads at its acceptance: its slot or its index list (R327, R332). -/
  | readList (a len : Nat)
  /-- The bytes from `pos` on of what the command then writes, into one 64-byte row of the local memory of core `t`: `done` bytes of the
  row of the transfer from `a` on stand already, and 64-byte rows that become covered are whole-row writes where `rows` (R115, R322). -/
  | writeLocal (t a done len pos : Nat) (rows : Bool)
  | home
  deriving DecidableEq, Repr

/-- A step of a command, and whether it is the first or the last of its piece. -/
structure CStep where
  act : CAct
  piece : Piece
  first : Bool
  last : Bool
  deriving DecidableEq, Repr

/-- The steps of a piece, in order. -/
def pieceSteps (p : Piece) (l : List CAct) : List CStep := l.mapIdx (fun k a => ⟨a, p, k == 0, k + 1 == l.length⟩)

/-- Local bytes read, 64-byte row by row: a row is one access (R159). -/
def readLocals (a len : Nat) : List CAct := (spansOf 64 a len).map (fun q => .readLocal q.1 q.2)

/-- Local bytes of core `t` written from `pos` of the output on, 64-byte row by row (R159): a row of a transfer from `a`, of which `done`
bytes stand. -/
def writeLocals (t a done len pos : Nat) (rows : Bool) : List CAct :=
  (spansOf 64 (a + done) len).map (fun q => .writeLocal t a (q.1 - a) q.2 (pos + (q.1 - (a + done))) rows)

/-- Global bytes read, or written from `pos` of the output on, block by block. -/
def readGlobals (va len : Nat) : List CAct := (piecesOf va len).map (fun q => .readGlobal q.1 q.2 false)
def writeGlobals (va len pos : Nat) : List CAct := (piecesOf va len).map (fun q => .writeGlobal q.1 q.2 (pos + (q.1 - va)) false)

/-! ### Accesses of a command -/

/-- A port is up: present and not down (R498). -/
def State.portUp (s : State) (p : Nat) : Bool := bit s.pres.phiok p && !(tget Port.init s.ports p).down

/-- A page can be reached (R500-R502). -/
def State.reachable (s : State) (p : Page) : Bool :=
  if p.tier = 2 then s.cxlUp && s.cxlSecure
  else if p.tier = 3 then (List.range 18).any s.portUp && !s.lostPeers.contains (p.pa / 2 ^ 42)
  else true

/-- The host's ownership of the lines of the tier 2 blocks of `n` bytes: they are held, or are granted when the snoop filter has room for
them, or the access waits (R400). -/
def State.holdHost (s : State) (who pa n : Nat) : State × Bool :=
  let ls := ((piecesOf pa n).flatMap (fun p => hostLinesOf p.1)).map (fun l => (l, who))
  if ls.all s.snoop.contains then (s, true)
  else
    let all := (s.snoop ++ ls).eraseDups
    if all.length ≤ 16384 then ({ s with snoop := all }, false) else (s, false)

/-- The snoop filter has no room for the lines of an access to tier 2 (R400). -/
def State.filterFull (s : State) (pa n : Nat) : Bool :=
  let ls := ((piecesOf pa n).flatMap (fun p => hostLinesOf p.1)).filter (fun l => !s.snoop.any (fun e => e.1 == l))
  decide (16384 < (s.snoop.map Prod.fst).eraseDups.length + ls.length)

/-- The page of an access to `len` bytes in one page that reads, writes or does both, through core `n`'s L1 TLB where there is one (R24),
or why the access is not made (R140, R469, R470, R500, R501). -/
def State.accessBy (s : State) (cl : Nat) (n : Option Nat) (ctx va len : Nat) (read write priv : Bool) : State × Except Prog Page :=
  match s.translate cl n ctx va read write priv with
  | (s, .ok p) =>
    if !s.reachable p then (s, .error (.wait (.link s.tick (p.tier == 3))))
    else if p.tier = 2 then
      match s.holdHost (n.getD (256 + cl)) p.pa len with
      | (s, true) => (s, .ok p)
      | (s, false) => (s, .error (.wait (.accepted (s.now + 1))))
    else (s, .ok p)
  | (s, .error .pageFault) => (s.noteFault ctx va, .error (.wait (.fault va)))
  | (s, .error .protection) => (s, .error (.fail stProtection))
  | (s, .error .format) => (s, .error (.fail stWalkFormat))
  | (s, .error .data) => (s, .error (.fail stData))

/-- The page of an access by a command of core `n`. -/
def State.access (s : State) (n ctx va : Nat) (write : Bool) : State × Except Prog Page :=
  s.accessBy (clusterOf n) (some n) ctx va 1 (!write) write false

/-- The page of an atomic's operand, which is read and written. -/
def State.accessBoth (s : State) (n ctx va : Nat) : State × Except Prog Page := s.accessBy (clusterOf n) (some n) ctx va 1 true true false

/-- A page for `len` bytes that the map unit or the IXE of a cluster accesses; they have no L1 TLB (R24). -/
def State.accessMap (s : State) (cl ctx va len : Nat) (write priv : Bool) : State × Except Prog Page :=
  s.accessBy cl none ctx va len (!write) write priv

/-- Bytes inside one block read at their home for a context. -/
def State.readPage (s : State) (ctx : Nat) (p : Page) (n : Nat) : State × Except Prog (List Byte) :=
  match s.readHome p.tier p.pa n with
  | (s, some bs) => (s, .ok bs)
  | (s, none) => (s.blockError (some ctx) p.tier p.pa p.va, .error (.fail stData))

/-- Bytes inside one block written at their home for a context; a poisoned block takes no partial write (R435). A merge that finds the error is
a read that meets it (R437, R472). -/
def State.writePage (s : State) (ctx : Nat) (p : Page) (bs : List Byte) : State × Prog :=
  let known := (s.gmem p.tier).bad.contains (s.blockOf p.tier p.pa)
  match s.writeHome p.tier p.pa p.cmp bs with
  | (s, true) => (s, .ok)
  | (s, false) => (if known then s else s.blockError (some ctx) p.tier p.pa p.va, .fail stData)

/-! ### Local accesses of a command -/

/-- The commons of a core. -/
def State.commonsOf (s : State) (n : Nat) : Local := (s.cluster (clusterOf n)).commons

/-- Local bytes read for a command of core `n`: an invalid group gives EXPIRED (R323), an uncorrectable word DATA (R437); bytes that its
own bundle has stored are as they stood before (R166). -/
def State.getLocal (s : State) (n : Nat) (x : Command) (a len : Nat) : State × Except Prog (List Byte) :=
  let f := (s.core n).field
  let k := s.commonsOf n
  if (firstGroup f k (fun g => !g.valid) a len).isSome then (s, .error (.fail stExpired))
  else if localBad f k a len then (s.readError n a len, .error (.fail stData))
  else (s.readCorrects n a len, .ok (x.sees a (localBytes f k a len)))

/-- Rows of 64 bytes that a row of a transfer from offset `o`, having reached `done + len` bytes from `done`, now covers
whole (R322). -/
def Local.freshSpan (l : Local) (o done len : Nat) : Local :=
  let lo := max ((o + 63) / 64) ((o + done) / 64)
  let hi := (o + done + len) / 64
  ((List.range (hi - lo)).map (fun k => (lo + k) * 64)).foldl Local.freshRow l

/-- Bytes written for a command into the local memory of core `t`: a row of a transfer starts at `a`, `done` bytes stand, and rows that
become covered are whole-row writes where `rows` (R115, R116, R322). No command's own bundle hides them (R166). -/
def State.putSpan (s : State) (t a done : Nat) (bs : List Byte) (rows : Bool) : State :=
  match locate a with
  | some (m, o) =>
    (s.updLocal t m (fun l =>
      let l := l.put (o + done) bs
      if rows then l.freshSpan o done bs.length else l)).reveal t m (a + done) bs.length
  | none => s

/-! ### Checks of local ranges at acceptance (R103, R108, R321, R332, R468) -/

/-- RANGE unless `len` bytes from `a` lie wholly in one region. -/
def State.localRange (s : State) (n a len : Nat) : Option Nat :=
  if len ≠ 0 ∧ ((s.core n).outside a len).isSome = true then some stRange else none

/-- OWNER unless every tag of `len` bytes from `a` is the context's. -/
def State.localOwner (s : State) (n ctx a len : Nat) : Option Nat :=
  if len ≠ 0 ∧ (firstGroup (s.core n).field (s.commonsOf n) (fun g => decide (g.owner ≠ ctx)) a len).isSome = true then some stOwner
  else none

/-- The first failure of a list of checks. -/
def firstStatus : List (Option Nat) → Option Nat
  | [] => none
  | some st :: _ => some st
  | none :: rest => firstStatus rest

/-- RANGE, and then OWNER, of a local range. -/
def State.localStatus (s : State) (n ctx a len : Nat) : Option Nat := firstStatus [s.localRange n a len, s.localOwner n ctx a len]

/-- The slot P of an atomic and the like: aligned to 8 and wholly in one region of the own field (R332). -/
def State.slotBad (s : State) (n p len : Nat) : Bool :=
  p % 8 ≠ 0 || ((locate p).map Prod.fst != some false) || ((s.core n).outside p len).isSome

/-- A slot whose groups another context owns. -/
def State.slotOwner (s : State) (n ctx p len : Nat) : Bool :=
  (firstGroup (s.core n).field (s.commonsOf n) (fun g => decide (g.owner ≠ ctx)) p len).isSome

/-- A check that gives a status when it fails. -/
def failIf (b : Bool) (st : Nat) : Option Nat := if b then some st else none

/-! ### Teams and members, and what a stop withdraws (R40, R64, R341) -/

/-- Team `t`. -/
def State.team (s : State) (t : Nat) : Option Team := tfind s.teams t

/-- The state with team `t` changed. -/
def State.updTeam (s : State) (t : Nat) (f : Team → Team) : State :=
  match tfind s.teams t with
  | some x => { s with teams := tset s.teams t (f x) }
  | none => s

/-- The team of a core, with its number. -/
def State.teamOf (s : State) (n : Nat) : Option (Nat × Team) :=
  match (s.core n).team with
  | some t => (s.team t).map (fun x => (t, x))
  | none => none

/-- Teams of an instance, with their numbers. -/
def State.teamsOf (s : State) (inst : Nat) : List (Nat × Team) := s.teams.filter (fun p => p.2.inst == inst)

/-- A stop that withdraws what waits (R64): every one but EXIT and a rollback. -/
def Stop.withdraws : Stop → Bool
  | .exit => false
  | .rollback => false
  | _ => true

/-- The team of core `n` is being pre-empted, or its instance has faulted or been cancelled: whatever else a member's drain is for, it
withdraws then too (R341, R344, R485, R497). -/
def State.yields (s : State) (n : Nat) : Bool :=
  match s.teamOf n with
  | none => false
  | some (_, t) => decide (t.state = .stopping) || (tfind s.insts t.inst).any (fun i => i.faulted || i.cancelled)

/-- What waits of a stopped member is withdrawn (R64, R341), of one that has trapped too (R485). -/
def State.stopped (s : State) (n : Nat) : Bool :=
  match (s.core n).seq.stop with
  | some r => r.withdraws || s.yields n
  | none => decide ((s.core n).seq.mode = .halted) && s.yields n

end Sys2Proof.Machine
end

