-- ==== Sys2Proof/Machine/VecArith.lean ====
section
/-! DEFINITION. Vector arithmetic, functions and integer operations (R266-R273). -/

namespace Sys2Proof.Machine

/-- The elements that an operation forms in format `f` under guard `g`, 0 where disabled, and the flags of the enabled
ones (R266). -/
def Core.elems (c : Core) (f : Fmt) (g : Nat) (op : Nat → Nat × Flags) : Vec × Flags :=
  let r := (List.range f.lanes).map (fun e => if c.enabled g e then op e else (0, 0))
  (vecOf f.bits (r.map Prod.fst), r.foldl (fun a x => a ||| x.2) 0)

/-- The bits of the enabled elements. -/
def Core.onBits (c : Core) (f : Fmt) (g : Nat) : Vec := bitsOf f.bits f.lanes (c.enabled g)

/-- An element result: the enabled elements land after `lat` cycles, the flags are raised at the commit (R199, R268). -/
def State.putElems (s : State) (lat d : Nat) (f : Fmt) (g : Nat) (r : Vec × Flags) : State :=
  (s.putVec lat d r.1 (s.view.onBits f g)).upd (fun c => c.raise r.2)

/-- A rounding operation on two sources, latency 4 (R268, R270). -/
def vecRound (d a b : Nat) (fc : Fin 8) (g : Fin 16) (op : Fmt → Bool → Round → Nat → Nat → Nat × Flags) (s : State) :
    Except Trap State :=
  let f := Fmt.ofCode fc.val
  let c := s.view
  let x := c.source f a
  let y := c.source f b
  let r := c.elems f g.val (fun e => op f c.ftz (c.roundFor s.vunit f.bits e) (el x f.bits e) (el y f.bits e))
  .ok ((s.stepLfsr f.bits (c.enabled g.val)).putElems 4 d f g.val r)

/-- A fused operation: the old element of vd is the addend (R270). -/
def vecFma (d : Fin 32) (a b : Nat) (fc : Fin 8) (g : Fin 16) (negProd negAdd : Bool) (s : State) : Except Trap State :=
  let f := Fmt.ofCode fc.val
  let c := s.view
  let x := c.source f a
  let y := c.source f b
  let z := c.vec.v[d].toNat
  let r := c.elems f g.val (fun e =>
    fmaElem f c.ftz (c.roundFor s.vunit f.bits e) negProd negAdd (el x f.bits e) (el y f.bits e) (el z f.bits e))
  .ok ((s.stepLfsr f.bits (c.enabled g.val)).putElems 4 d.val f g.val r)

/-- An operation on two sources that never rounds and raises no flag, latency `lat` (R196, R273). -/
def vecPlain (lat d a b : Nat) (fc : Nat) (g : Fin 16) (op : Fmt → Nat → Nat → Nat) (s : State) : Except Trap State :=
  let f := Fmt.ofCode fc
  let c := s.view
  let x := c.source f a
  let y := c.source f b
  .ok (s.putElems lat d f g.val (c.elems f g.val (fun e => (op f (el x f.bits e) (el y f.bits e), 0))))

/-- A function of one source, latency 10 (R268, R271): the code is the free choice of Config within the bound (DESIGN CHOICE, log 7). -/
def vecFun (k : VFun) (d a : Nat) (fc : Fin 8) (g : Fin 16) (s : State) : Except Trap State :=
  let f := Fmt.ofCode fc.val
  let c := s.view
  let x := c.source f a
  let one := fun (e : Nat) =>
    let code := ftzIn f c.ftz (el x f.bits e)
    let pick := Config.functionCode k.code fc.val c.rmode (if c.ftz then 1 else 0) (el x f.bits e)
    ftzOut f c.ftz (k.result f (c.roundFor s.vunit f.bits e) pick (floatValue f code))
  .ok ((s.stepLfsr f.bits (c.enabled g.val)).putElems 10 d f g.val (c.elems f g.val one))

/-- VADD (R270). -/
def execVadd (d a b : Fin 64) (f : Fin 8) (g : Fin 16) (s : State) : Out :=
  slotOp (.vadd d a b f g) (vecRound d.val a.val b.val f g FOp.add.elem) s

/-- VSUB (R270). -/
def execVsub (d a b : Fin 64) (f : Fin 8) (g : Fin 16) (s : State) : Out :=
  slotOp (.vsub d a b f g) (vecRound d.val a.val b.val f g FOp.sub.elem) s

/-- VMUL (R270). -/
def execVmul (d a b : Fin 64) (f : Fin 8) (g : Fin 16) (s : State) : Out :=
  slotOp (.vmul d a b f g) (vecRound d.val a.val b.val f g FOp.mul.elem) s

/-- VFMA (R270): a × b + d. -/
def execVfma (d : Fin 32) (a b : Fin 64) (f : Fin 8) (g : Fin 16) (s : State) : Out :=
  slotOp (.vfma d a b f g) (vecFma d a.val b.val f g false false) s

/-- VFMS (R270): a × b − d. -/
def execVfms (d : Fin 32) (a b : Fin 64) (f : Fin 8) (g : Fin 16) (s : State) : Out :=
  slotOp (.vfms d a b f g) (vecFma d a.val b.val f g false true) s

/-- VFNMA (R270): d − a × b. -/
def execVfnma (d : Fin 32) (a b : Fin 64) (f : Fin 8) (g : Fin 16) (s : State) : Out :=
  slotOp (.vfnma d a b f g) (vecFma d a.val b.val f g true false) s

/-- VMIN and VMAX: floating-point arithmetic latency, no rounding (R207, R268). -/
def vecMinMax (max : Bool) (d a b : Fin 64) (f : Fin 8) (g : Fin 16) (s : State) : Except Trap State :=
  let ftz := s.view.ftz
  vecPlain 4 d.val a.val b.val f.val g (fun fm x y => minMaxElem fm ftz max x y) s

/-- VMIN (R270, R207). -/
def execVmin (d a b : Fin 64) (f : Fin 8) (g : Fin 16) (s : State) : Out :=
  slotOp (.vmin d a b f g) (vecMinMax false d a b f g) s

/-- VMAX (R270, R207). -/
def execVmax (d a b : Fin 64) (f : Fin 8) (g : Fin 16) (s : State) : Out :=
  slotOp (.vmax d a b f g) (vecMinMax true d a b f g) s

/-- VABS (R270): the sign bit cleared. -/
def execVabs (d a : Fin 64) (f : Fin 8) (g : Fin 16) (s : State) : Out :=
  slotOp (.vabs d a f g) (vecPlain 4 d.val a.val 48 f.val g (fun fm x _ => x % fm.signBit)) s

/-- VNEG (R270): the sign bit inverted. -/
def execVneg (d a : Fin 64) (f : Fin 8) (g : Fin 16) (s : State) : Out :=
  slotOp (.vneg d a f g) (vecPlain 4 d.val a.val 48 f.val g (fun fm x _ => x ^^^ fm.signBit)) s

/-- VRCP (R271, R272). -/
def execVrcp (d a : Fin 64) (f : Fin 8) (g : Fin 16) (s : State) : Out :=
  slotOp (.vrcp d a f g) (vecFun .rcp d.val a.val f g) s

/-- VRSQ (R271, R272). -/
def execVrsq (d a : Fin 64) (f : Fin 8) (g : Fin 16) (s : State) : Out :=
  slotOp (.vrsq d a f g) (vecFun .rsq d.val a.val f g) s

/-- VSQRT (R271, R272): correctly rounded. -/
def execVsqrt (d a : Fin 64) (f : Fin 8) (g : Fin 16) (s : State) : Out :=
  slotOp (.vsqrt d a f g) (vecFun .sqrt d.val a.val f g) s

/-- VEXP2 (R271, R272). -/
def execVexp2 (d a : Fin 64) (f : Fin 8) (g : Fin 16) (s : State) : Out :=
  slotOp (.vexp2 d a f g) (vecFun .exp2 d.val a.val f g) s

/-- VLOG2 (R271, R272). -/
def execVlog2 (d a : Fin 64) (f : Fin 8) (g : Fin 16) (s : State) : Out :=
  slotOp (.vlog2 d a f g) (vecFun .log2 d.val a.val f g) s

/-- VTANH (R271, R272). -/
def execVtanh (d a : Fin 64) (f : Fin 8) (g : Fin 16) (s : State) : Out :=
  slotOp (.vtanh d a f g) (vecFun .tanh d.val a.val f g) s

/-! ### Integer (R273), latency 2 -/

/-- An integer operation on two sources. -/
def vecInt (d a b : Fin 64) (f : Fin 8) (g : Fin 16) (op : Nat → Nat → Nat → Nat) : State → Except Trap State :=
  vecPlain 2 d.val a.val b.val f.val g (fun fm x y => op fm.bits x y)

/-- Saturation to a signed width (R273). -/
def satTo (w : Nat) (x : Int) : Nat :=
  if x < -((2 ^ (w - 1) : Nat) : Int) then 2 ^ (w - 1)
  else if ((2 ^ (w - 1) : Nat) : Int) - 1 < x then 2 ^ (w - 1) - 1
  else wrapTo w x

/-- VIADD (R273). -/
def execViadd (d a b : Fin 64) (f : Fin 8) (g : Fin 16) (s : State) : Out :=
  slotOp (.viadd d a b f g) (vecInt d a b f g (fun w x y => (x + y) % 2 ^ w)) s

/-- VISUB (R273). -/
def execVisub (d a b : Fin 64) (f : Fin 8) (g : Fin 16) (s : State) : Out :=
  slotOp (.visub d a b f g) (vecInt d a b f g (fun w x y => wrapTo w ((x : Int) - y))) s

/-- VIMUL (R273). -/
def execVimul (d a b : Fin 64) (f : Fin 8) (g : Fin 16) (s : State) : Out :=
  slotOp (.vimul d a b f g) (vecInt d a b f g (fun w x y => x * y % 2 ^ w)) s

/-- VIMULH (R273): the high half of the signed product. -/
def execVimulh (d a b : Fin 64) (f : Fin 8) (g : Fin 16) (s : State) : Out :=
  slotOp (.vimulh d a b f g)
    (vecInt d a b f g (fun w x y => wrapTo w (signedOf w x * signedOf w y / ((2 ^ w : Nat) : Int)))) s

/-- VIADDS (R273). -/
def execViadds (d a b : Fin 64) (f : Fin 8) (g : Fin 16) (s : State) : Out :=
  slotOp (.viadds d a b f g) (vecInt d a b f g (fun w x y => satTo w (signedOf w x + signedOf w y))) s

/-- VISUBS (R273). -/
def execVisubs (d a b : Fin 64) (f : Fin 8) (g : Fin 16) (s : State) : Out :=
  slotOp (.visubs d a b f g) (vecInt d a b f g (fun w x y => satTo w (signedOf w x - signedOf w y))) s

/-- VIMIN (R273). -/
def execVimin (d a b : Fin 64) (f : Fin 8) (g : Fin 16) (s : State) : Out :=
  slotOp (.vimin d a b f g) (vecInt d a b f g (fun w x y => intMinMax w false true x y)) s

/-- VIMAX (R273). -/
def execVimax (d a b : Fin 64) (f : Fin 8) (g : Fin 16) (s : State) : Out :=
  slotOp (.vimax d a b f g) (vecInt d a b f g (fun w x y => intMinMax w true true x y)) s

/-- VIMINN (R273). -/
def execViminn (d a b : Fin 64) (f : Fin 8) (g : Fin 16) (s : State) : Out :=
  slotOp (.viminn d a b f g) (vecInt d a b f g (fun w x y => intMinMax w false false x y)) s

/-- VIMAXN (R273). -/
def execVimaxn (d a b : Fin 64) (f : Fin 8) (g : Fin 16) (s : State) : Out :=
  slotOp (.vimaxn d a b f g) (vecInt d a b f g (fun w x y => intMinMax w true false x y)) s

/-- VAND (R273). -/
def execVand (d a b : Fin 64) (f : Fin 8) (g : Fin 16) (s : State) : Out :=
  slotOp (.vand d a b f g) (vecInt d a b f g (fun _ x y => x &&& y)) s

/-- VOR (R273). -/
def execVor (d a b : Fin 64) (f : Fin 8) (g : Fin 16) (s : State) : Out :=
  slotOp (.vor d a b f g) (vecInt d a b f g (fun _ x y => x ||| y)) s

/-- VXOR (R273). -/
def execVxor (d a b : Fin 64) (f : Fin 8) (g : Fin 16) (s : State) : Out :=
  slotOp (.vxor d a b f g) (vecInt d a b f g (fun _ x y => x ^^^ y)) s

/-- VSHL (R273): by bits(b, log2(8w) − 1, 0). -/
def execVshl (d a b : Fin 64) (f : Fin 8) (g : Fin 16) (s : State) : Out :=
  slotOp (.vshl d a b f g) (vecInt d a b f g (fun w x y => x * 2 ^ (y % w) % 2 ^ w)) s

/-- VSHR (R273). -/
def execVshr (d a b : Fin 64) (f : Fin 8) (g : Fin 16) (s : State) : Out :=
  slotOp (.vshr d a b f g) (vecInt d a b f g (fun w x y => x / 2 ^ (y % w))) s

/-- VSRA (R273). -/
def execVsra (d a b : Fin 64) (f : Fin 8) (g : Fin 16) (s : State) : Out :=
  slotOp (.vsra d a b f g) (vecInt d a b f g (fun w x y => wrapTo w (signedOf w x / ((2 ^ (y % w) : Nat) : Int)))) s

end Sys2Proof.Machine
end

