-- ==== Sys2Proof/Machine/VecMove.lean ====
section
/-! DEFINITION. Compare, select, masks, conversion, block quantisation, moves, reductions, scan and sort
(R205-R210, R274-R284). -/

namespace Sys2Proof.Machine

/-! ### Compare, select and masks (R274-R276), latency 2 -/

/-- The condition of VCMP on two element codes (R274). -/
def vcmpCond (cc : Nat) (f : Fmt) (ftz : Bool) (a b : Nat) : Bool :=
  if f.isInt then
    let x := signedOf f.bits a
    let y := signedOf f.bits b
    match cc with
    | 0 => x == y | 1 => x != y | 2 => decide (x < y) | 3 => decide (x ≤ y) | 4 => decide (y < x) | 5 => decide (y ≤ x)
    | 6 => decide (a < b) | _ => decide (b ≤ a)
  else
    let x := floatValue f (ftzIn f ftz a)
    let y := floatValue f (ftzIn f ftz b)
    let un := x.isNan || y.isNan
    let c := Exact.compare x y
    match cc with
    | 0 => !un && c == 0 | 1 => un || c != 0 | 2 => !un && decide (c < 0) | 3 => !un && decide (c ≤ 0)
    | 4 => !un && decide (0 < c) | 5 => !un && decide (0 ≤ c) | 6 => un | _ => !un

/-- A mask result (R268, R274). -/
def State.putMask (s : State) (m : Fin 8) (v : Nat) : State :=
  s.upd (fun c => c.launch 2 (.mreg m) (BitVec.ofNat 2048 v) (BitVec.ofNat 2048 (2 ^ 256 - 1)))

/-- VCMP (R274). -/
def execVcmp (cc m : Fin 8) (a b : Fin 64) (f : Fin 8) (g : Fin 16) (s : State) : Out :=
  slotOp (.vcmp cc m a b f g)
    (fun s =>
      let fm := Fmt.ofCode f.val
      let c := s.view
      let x := c.source fm a.val
      let y := c.source fm b.val
      .ok (s.putMask m (unel 1 ((List.range fm.lanes).map (fun e =>
        if c.enabled g.val e && vcmpCond cc.val fm c.ftz (el x fm.bits e) (el y fm.bits e) then 1 else 0))))) s

/-- A whole vector in format `f`, every element written (R275, R282-R284). -/
def State.putAll (s : State) (lat d : Nat) (f : Fmt) (l : List Nat) : State := s.putVec lat d (vecOf f.bits l) allBits

/-- VSEL (R275): the guard selects. The code is copied, also where FTZ is set and it is a subnormal (R197) (DEDUCED, log 87). -/
def execVsel (d a b : Fin 64) (f : Fin 8) (g : Fin 16) (s : State) : Out :=
  slotOp (.vsel d a b f g)
    (fun s =>
      let fm := Fmt.ofCode f.val
      let c := s.view
      let x := c.source fm a.val
      let y := c.source fm b.val
      .ok (s.putAll 2 d.val fm ((List.range fm.lanes).map (fun e =>
        if c.enabled g.val e then el x fm.bits e else el y fm.bits e)))) s

/-- VMAND (R276). -/
def execVmand (d a b : Fin 8) (s : State) : Out :=
  slotOp (.vmand d a b) (fun s => .ok (s.putMask d (s.view.rm a &&& s.view.rm b).toNat)) s

/-- VMOR (R276). -/
def execVmor (d a b : Fin 8) (s : State) : Out :=
  slotOp (.vmor d a b) (fun s => .ok (s.putMask d (s.view.rm a ||| s.view.rm b).toNat)) s

/-- VMXOR (R276). -/
def execVmxor (d a b : Fin 8) (s : State) : Out :=
  slotOp (.vmxor d a b) (fun s => .ok (s.putMask d (s.view.rm a ^^^ s.view.rm b).toNat)) s

/-- VMNOT (R276). -/
def execVmnot (d a : Fin 8) (s : State) : Out :=
  slotOp (.vmnot d a) (fun s => .ok (s.putMask d (~~~(s.view.rm a)).toNat)) s

/-- One bits of a number of 256 bits. -/
def popCount256 (w : Nat) : Nat := ((List.range 256).filter (bit w)).length

/-- VMPOP (R276): the count in every 32-bit element. -/
def execVmpop (d : Fin 64) (a : Fin 8) (s : State) : Out :=
  slotOp (.vmpop d a) (fun s => .ok (s.putAll 2 d.val .i32 (List.replicate 64 (popCount256 (s.view.rm a).toNat)))) s

/-! ### Conversion (R277, R278) -/

/-- VCVT (R277): the conversions fill the low part of vd, and what lies above it becomes 0 whatever the guard. -/
def vecCvt (d a : Fin 64) (f sf g : Fin 8) (s : State) : Except Trap State :=
  let df := Fmt.ofCode f.val
  let fm := Fmt.ofCode sf.val
  let wide := if df.bits < fm.bits then fm else df
  let n := wide.lanes
  let c := s.view
  let x := c.source fm a.val
  let r := (List.range n).map (fun e =>
    if c.enabled g.val e then
      let v := valueOf fm (if fm.isInt then el x fm.bits e else ftzIn fm c.ftz (el x fm.bits e))
      ftzOut df c.ftz (roundTo df v (c.roundFor s.vunit wide.bits e))
    else (0, 0))
  let mask := bitsOf df.bits df.lanes (fun e => decide (n ≤ e) || c.enabled g.val e)
  let s := if fm.isInt && df.isInt then s else s.stepLfsr wide.bits (fun e => decide (e < n) && c.enabled g.val e)
  .ok ((s.putVec 6 d.val (vecOf df.bits (r.map Prod.fst)) mask).upd (fun c => c.raise (r.foldl (fun a x => a ||| x.2) 0)))

/-- VCVT (R277). -/
def execVcvt (d a : Fin 64) (f sf g : Fin 8) (s : State) : Out := slotOp (.vcvt d a f sf g) (vecCvt d a f sf g) s

/-- An operation that moves whole elements of one or two sources, latency 3 (R278, R281): element e of vd from the
sources' elements. -/
def vecMove (d : Nat) (a b : Nat) (fc : Nat) (g : Nat) (op : Nat → (Nat → Nat) → (Nat → Nat) → Nat → Nat) (s : State) :
    Except Trap State :=
  let f := Fmt.ofCode fc
  let c := s.view
  let x := c.source f a
  let y := c.source f b
  .ok (s.putElems 3 d f g (c.elems f g (fun e => (op f.lanes (el x f.bits) (el y f.bits) e, 0))))

/-- VPACK (R278). -/
def execVpack (d a b : Fin 64) (f : Fin 8) (g : Fin 16) (s : State) : Out :=
  slotOp (.vpack d a b f g)
    (vecMove d.val a.val b.val f.val g.val (fun n x y e => if e < n / 2 then x e else y (e - n / 2))) s

/-- VUNPK (R278): the upper half is written 0 whatever the guard enables (R292) (DEDUCED, log 21). -/
def execVunpk (d a : Fin 64) (f : Fin 8) (g : Fin 16) (s : State) : Out :=
  slotOp (.vunpk d a f g)
    (fun s =>
      let fm := Fmt.ofCode f.val
      let c := s.view
      let x := c.source fm a.val
      let h := fm.lanes / 2
      .ok (s.putVec 3 d.val (vecOf fm.bits ((List.range h).map (fun e => el x fm.bits (e + h))))
        (bitsOf fm.bits fm.lanes (fun e => decide (h ≤ e) || c.enabled g.val e)))) s

/-! ### Block quantisation (R208-R210, R279, R280) -/

/-- Target of VQNT, VDQNT and the copy transforms: element format and block length (R208). -/
def quantFmt (t : Nat) : Fmt := match t with | 0 => .e2m1 | 1 => .e4m3 | _ => .e5m2
def quantBlock (t : Nat) : Nat := if t == 0 then 8 else 32

/-- The value of a scale container of a target. -/
def quantScale (t container : Nat) : Exact := if t == 0 then e4m5Value container else e8m0Value container

/-- The larger magnitude of two values; an infinity or NaN makes it infinite (R208). -/
def maxMag (m x : Exact) : Exact :=
  match x with
  | .nan => .inf false
  | _ => if Exact.compare m x.abs < 0 then x.abs else m

/-- The scale code of a block whose maximum is `m` (R209). -/
def scaleCode (t : Nat) (m : Exact) : Nat :=
  match m with
  | .fin _ n d =>
    if n == 0 then 0
    else if t == 0 then
      ((List.range 0x1FF).find? (fun c => decide (0 ≤ Exact.compare (e4m5Value c) (.fin false n (6 * d))))).getD 0x1FE
    else
      let c := expOf n d - (if t == 1 then 8 else 15) + 127
      if c < 0 then 0 else if 254 < c then 254 else c.toNat
  | _ => if t == 0 then 0x1FE else 0xFE

/-- The element code of a value in a block (R209). -/
def quantElem (t : Nat) (m sigma x : Exact) : Nat × Flags :=
  let f := quantFmt t
  if m.isZero then (0, 0)
  else
    match x with
    | .nan => if t == 2 then (f.nanCode, 0) else (0, flagQNAN)
    | .inf neg => (withSign f neg f.maxCode, flagNX)
    | .fin neg _ _ =>
      let r := roundTo f (x.divBy sigma) .rne
      if r.2 &&& flagOF != 0 then (withSign f neg f.maxCode, flagNX) else r

/-- One block: its scale code, its element codes, its flags. `none` is a ragged element (R208, R209). -/
def quantBlockOf (t : Nat) (xs : List (Option Exact)) : Nat × List Nat × Flags :=
  let m := xs.foldl (fun m x => match x with | some v => maxMag m v | none => m) (.fin false 0 1)
  let code := scaleCode t m
  let r := xs.map (fun x => match x with | some v => quantElem t m (quantScale t code) v | none => (0, 0))
  (code, r.map Prod.fst, r.foldl (fun a x => a ||| x.2) 0)

/-- Consecutive blocks of `b` values. -/
def chunks {α : Type} (b : Nat) : Nat → List α → List (List α)
  | 0, _ => []
  | k + 1, l => l.take b :: chunks b k (l.drop b)

/-- VQNT (R279). -/
def vecQnt (d a : Fin 64) (f : Fin 8) (t : Fin 4) (q : Fin 16) (g : Fin 8) (s : State) : Except Trap State :=
  let fm := Fmt.ofCode f.val
  let c := s.view
  let x := c.source fm a.val
  let xs := (List.range fm.lanes).map (fun e =>
    if c.enabled g.val e then some (floatValue fm (ftzIn fm c.ftz (el x fm.bits e))) else none)
  let b := quantBlock t.val
  let blocks := (chunks b (fm.lanes / b) xs).map (quantBlockOf t.val)
  let codes := blocks.flatMap (fun r => r.2.1)
  let s := s.putVec 6 d.val (vecOf (quantFmt t.val).bits codes) allBits
  let s := s.upd (fun c => c.toRing 6 q (s.view.ring q).wp (vecOf 16 (blocks.map Prod.fst)))
  .ok (s.upd (fun c => c.raise (blocks.foldl (fun a r => a ||| r.2.2) 0)))

/-- VQNT (R279). -/
def execVqnt (d a : Fin 64) (f : Fin 8) (t : Fin 4) (q : Fin 16) (g : Fin 8) (s : State) : Out :=
  slotOp (.vqnt d a f t q g) (vecQnt d a f t q g) s

/-- One element dequantised (R210). -/
def dequantElem (t : Nat) (f : Fmt) (code scale : Nat) : Nat × Flags :=
  roundTo f (Exact.mul (floatValue (quantFmt t) code) (quantScale t scale)).1 .rne

/-- VDQNT (R280). Special sources are read in the format of fmt3 (DESIGN CHOICE, log 107). -/
def vecDqnt (d a : Fin 64) (f : Fin 8) (t : Fin 4) (q : Fin 16) (g : Fin 8) (s : State) : Except Trap State :=
  let fm := Fmt.ofCode f.val
  let c := s.view
  let x := c.source fm a.val
  let sc := (c.ring q).head.toNat
  let w := (quantFmt t.val).bits
  .ok (s.putElems 6 d.val fm g.val (c.elems fm g.val (fun e =>
    ftzOut fm c.ftz (dequantElem t.val fm (el x w e) (el sc 16 (e / quantBlock t.val))))))

/-- VDQNT (R280). -/
def execVdqnt (d a : Fin 64) (f : Fin 8) (t : Fin 4) (q : Fin 16) (g : Fin 8) (s : State) : Out :=
  slotOp (.vdqnt d a f t q g) (vecDqnt d a f t q g) s

/-! ### Moves and permutes (R281), latency 3 -/

/-- VMOV (R281). -/
def execVmov (d a : Fin 64) (f : Fin 8) (g : Fin 16) (s : State) : Out :=
  slotOp (.vmov d a f g) (vecMove d.val a.val 48 f.val g.val (fun _ x _ e => x e)) s

/-- round_to(f, sext(imm7, 7), RNE) (R281). -/
def movImm (f : Fmt) (i : Fin 128) : Nat :=
  let v := signedOf 7 i.val
  if f.isInt then wrapTo f.bits v else (roundTo f (.ofInt v) .rne).1

/-- VMOVI (R281). -/
def execVmovi (d : Fin 64) (f : Fin 8) (i : Fin 128) (g : Fin 8) (s : State) : Out :=
  slotOp (.vmovi d f i g) (vecMove d.val 48 48 f.val g.val (fun _ _ _ _ => movImm (Fmt.ofCode f.val) i)) s

/-- VPERM (R281): a[bits(b[e], log2 n − 1, 0)]. -/
def execVperm (d a b : Fin 64) (f : Fin 8) (g : Fin 16) (s : State) : Out :=
  slotOp (.vperm d a b f g) (vecMove d.val a.val b.val f.val g.val (fun n x y e => x (y e % n))) s

/-- The element that VSHUF k takes (R281). -/
def shufIndex (k n e : Nat) : Nat :=
  match k with
  | 0 => n - 1 - e
  | 1 => e ^^^ 1
  | 2 => if e < n / 2 then 2 * e else 2 * (e - n / 2) + 1
  | _ => if e % 2 = 0 then e / 2 else n / 2 + (e - 1) / 2

/-- VSHUF (R281). -/
def execVshuf (d a : Fin 64) (f : Fin 8) (k : Fin 128) (g : Fin 8) (s : State) : Out :=
  slotOp (.vshuf d a f k g) (vecMove d.val a.val 48 f.val g.val (fun n x _ e => x (shufIndex k.val n e))) s

/-- VROT (R281): a[(e − r) mod n]. -/
def execVrot (d a : Fin 64) (f : Fin 8) (r : Fin 128) (g : Fin 8) (s : State) : Out :=
  slotOp (.vrot d a f r g) (vecMove d.val a.val 48 f.val g.val (fun n x _ e => x ((e + 2 * n - r.val) % n))) s

/-- Element width by w3, as the fmt3 code of the integer format of that width (R224, R281). -/
def widthCode (w : Nat) : Nat := match w with | 0 => 5 | 1 => 6 | _ => 7

/-- VBCST (R281). -/
def execVbcst (d a : Fin 64) (w : Fin 8) (g : Fin 16) (s : State) : Out :=
  slotOp (.vbcst d a w g)
    (fun s => vecMove d.val 48 48 (widthCode w.val) g.val (fun _ _ _ _ => (s.view.rs a).toNat) s) s

/-- VIDX (R281): (s(a) + e × s(b)) mod 2^(8w). -/
def execVidx (d a b : Fin 64) (w : Fin 8) (g : Fin 16) (s : State) : Out :=
  slotOp (.vidx d a b w g)
    (fun s => vecMove d.val 48 48 (widthCode w.val) g.val
      (fun _ _ _ e => (s.view.rs a).toNat + e * (s.view.rs b).toNat) s) s

/-- VINS (R281): only element k, where it is enabled. -/
def execVins (d : Fin 32) (a b : Fin 64) (w : Fin 8) (g : Fin 16) (s : State) : Out :=
  slotOp (.vins d a b w g)
    (fun s =>
      let f := Fmt.ofCode (widthCode w.val)
      let c := s.view
      let k := (c.rs b).toNat % f.lanes
      .ok (s.putVec 3 d.val (vecOf f.bits (List.replicate f.lanes (c.rs a).toNat))
        (bitsOf f.bits f.lanes (fun e => e == k && c.enabled g.val e)))) s

/-- VEXT (R281): element k of a source, to a scalar register, latency 3. -/
def execVext (v a b : Fin 64) (w : Fin 8) (s : State) : Out :=
  slotOp (.vext v a b w)
    (fun s =>
      let f := Fmt.ofCode (widthCode w.val)
      let c := s.view
      let k := (c.rs b).toNat % f.lanes
      .ok (s.upd (fun x => x.wsLate 3 a (BitVec.ofNat 64 (el (c.source f v.val) f.bits k))))) s

/-! ### Reductions, scan and sort (R205-R207, R282-R284) -/

/-- One combine of a reduction: the present one unchanged, or the operation of both (R205). A NaN that stands alone passes with its payload,
R187 notwithstanding (DEDUCED, log 86). -/
def combine (op : Nat → Nat → Nat × Flags) (p q : Option Nat) : Option Nat × Flags :=
  match p, q with
  | some x, some y => let r := op x y; (some r.1, r.2)
  | some x, none => (some x, 0)
  | none, y => (y, 0)

/-- One level of the pairwise tree; element e of the new level is formed with `op e` (R205, R282). -/
def treeLevel (op : Nat → Nat → Nat → Nat × Flags) : Nat → List (Option Nat) → List (Option Nat) × Flags
  | e, p :: q :: rest =>
    let r := combine (op e) p q
    let rs := treeLevel op (e + 1) rest
    (r.1 :: rs.1, r.2 ||| rs.2)
  | _, l => (l, 0)

/-- The whole tree: `k` levels (R205). -/
def tree (op : Nat → Nat → Nat → Nat × Flags) : Nat → List (Option Nat) → Option Nat × Flags
  | 0, l => (l.headD none, 0)
  | k + 1, l =>
    let r := treeLevel op 0 l
    let t := tree op k r.1
    (t.1, r.2 ||| t.2)

/-- The elements of a source that the guard enables, as an operand is read under FTZ (R197, R205). -/
def Core.present (c : Core) (f : Fmt) (x g : Nat) : List (Option Nat) :=
  (List.range f.lanes).map (fun e =>
    if c.enabled g e then some (if f.isInt then el x f.bits e else ftzIn f c.ftz (el x f.bits e)) else none)

/-- Sum of two elements (R205); `en` are the enabled ones. -/
def sumOp (c : Core) (en : Nat → Bool) (u : Nat) (f : Fmt) (e a b : Nat) : Nat × Flags :=
  if f.isInt then ((a + b) % 2 ^ f.bits, 0) else FOp.add.elem f c.ftz (c.roundIn en u f.bits e) a b

/-- A reduction, latency 8 (R282): the result in element 0, zeros above. -/
def vecReduce (d a : Fin 64) (fc : Fin 8) (g : Fin 16) (rounds : Bool) (op : Core → (Nat → Bool) → Nat → Fmt → Nat → Nat → Nat → Nat × Flags)
    (absent : Fmt → Nat) (s : State) : Except Trap State :=
  let f := Fmt.ofCode fc.val
  let c := s.view
  let r := tree (op c (c.enabled g.val) s.vunit f) (f.lanes.log2) (c.present f (c.source f a.val) g.val)
  let s := if rounds && !f.isInt then s.stepLfsr f.bits (c.enabled g.val) else s
  .ok ((s.putAll 8 d.val f [r.1.getD (absent f)]).upd (fun c => c.raise r.2))

/-- VRSUM (R282). -/
def execVrsum (d a : Fin 64) (f : Fin 8) (g : Fin 16) (s : State) : Out :=
  slotOp (.vrsum d a f g) (vecReduce d a f g true sumOp (fun _ => 0)) s

/-- Larger or smaller of two elements: integers signed (R207, R282). -/
def extremeOp (max : Bool) (c : Core) (_ : Nat → Bool) (_ : Nat) (f : Fmt) (_ a b : Nat) : Nat × Flags :=
  (if f.isInt then intMinMax f.bits max true a b else minMaxElem f c.ftz max a b, 0)

/-- VRMAX (R282): the smallest integer or the canonical NaN where no element is enabled (R205). -/
def execVrmax (d a : Fin 64) (f : Fin 8) (g : Fin 16) (s : State) : Out :=
  slotOp (.vrmax d a f g)
    (vecReduce d a f g false (extremeOp true) (fun fm => if fm.isInt then 2 ^ (fm.bits - 1) else fm.nanCode)) s

/-- VRMIN (R282): the largest integer or the canonical NaN where no element is enabled (R205). -/
def execVrmin (d a : Fin 64) (f : Fin 8) (g : Fin 16) (s : State) : Out :=
  slotOp (.vrmin d a f g)
    (vecReduce d a f g false (extremeOp false) (fun fm => if fm.isInt then 2 ^ (fm.bits - 1) - 1 else fm.nanCode)) s

/-- Round `k` of the prefix: every element from 2^k on combines with the one 2^k below it (R206). -/
def scanRound (op : Nat → Nat → Nat → Nat × Flags) (step : Nat) (l : List (Option Nat)) : List (Option Nat × Flags) :=
  (List.range l.length).map (fun e =>
    if step ≤ e then combine (op e) (l.getD (e - step) none) (l.getD e none) else (l.getD e none, 0))

/-- The rounds from `step` on (R206). -/
def scanRounds (op : Nat → Nat → Nat → Nat × Flags) : Nat → Nat → List (Option Nat) → List (Option Nat) × Flags
  | 0, _, l => (l, 0)
  | k + 1, step, l =>
    let r := scanRound op step l
    let t := scanRounds op k (2 * step) (r.map Prod.fst)
    (t.1, (r.foldl (fun a x => a ||| x.2) 0) ||| t.2)

/-- VSCAN (R283). -/
def execVscan (d a : Fin 64) (f : Fin 8) (g : Fin 16) (s : State) : Out :=
  slotOp (.vscan d a f g)
    (fun s =>
      let fm := Fmt.ofCode f.val
      let c := s.view
      let r := scanRounds (sumOp c (c.enabled g.val) s.vunit fm) fm.lanes.log2 1 (c.present fm (c.source fm a.val) g.val)
      let s := if fm.isInt then s else s.stepLfsr fm.bits (c.enabled g.val)
      .ok ((s.putAll 8 d.val fm (r.1.map (fun x => x.getD 0))).upd (fun c => c.raise r.2))) s

/-- The order of VSORT on keys: `a` strictly before `b` (R284). -/
def sortBefore (f : Fmt) (ftz : Bool) (a b : Nat) : Bool :=
  if f.isInt then decide (signedOf f.bits a < signedOf f.bits b)
  else
    let x := floatValue f (ftzIn f ftz a)
    let y := floatValue f (ftzIn f ftz b)
    if x.isNan then false else if y.isNan then true else x.before y

/-- An index put behind every index whose key is not after its own. -/
def sortInsert (before : Nat → Nat → Bool) (e : Nat) : List Nat → List Nat
  | [] => [e]
  | x :: rest => if before e x then e :: x :: rest else x :: sortInsert before e rest

/-- VSORT (R284): the permutation, disabled elements last. -/
def execVsort (d a : Fin 64) (f : Fin 8) (g : Fin 16) (s : State) : Out :=
  slotOp (.vsort d a f g)
    (fun s =>
      let fm := Fmt.ofCode f.val
      let c := s.view
      let x := c.source fm a.val
      let all := List.range fm.lanes
      let on := all.filter (c.enabled g.val)
      let sorted := on.foldl (fun l e => sortInsert (fun p q => sortBefore fm c.ftz (el x fm.bits p) (el x fm.bits q)) e l) []
      .ok (s.putAll 16 d.val fm (sorted ++ all.filter (fun e => !c.enabled g.val e)))) s

end Sys2Proof.Machine
end

