-- ==== Sys2Proof/Machine/Transfer.lean ====
section
/-! DEFINITION. Transfers: rows and transforms, the checks at acceptance and the work piece by piece (R319-R327, R468), and
the operations that issue them. -/

namespace Sys2Proof.Machine

/-! ### Rows (R320, R324-R327) -/

/-- The fields of a command. -/
def Command.f (x : Command) : CFields := cfields x.op

/-- The rows that a transfer moves, j0 first. -/
def Command.rowNums (x : Command) : List Nat := (List.range (descRows x.desc)).map (fun k => x.f.imm + k)

/-- The index of row `j` in the index list read at acceptance (R327). -/
def Command.indexOf (x : Command) (j : Nat) : Nat := nth x.index (j - x.f.imm)

/-- g(j) (R320, R327). -/
def Command.g (x : Command) (j : Nat) : Nat :=
  match x.f.xf with
  | 8 => (descGva x.desc + x.a.toNat + x.indexOf j) % 2 ^ 64
  | 9 => (descGva x.desc + x.a.toNat + x.indexOf j * descGstride x.desc) % 2 ^ 64
  | _ => (descGva x.desc + x.a.toNat + j * descGstride x.desc) % 2 ^ 64

/-- l(j) (R320). -/
def Command.l (x : Command) (j : Nat) : Nat := (descLaddr x.desc + x.b.toNat + j * descLstride x.desc) % 2 ^ 32

/-- RLEN. -/
def Command.rlen (x : Command) : Nat := descRlen x.desc

/-- CFILL of the local side (R322). -/
def Command.fillsLocal (x : Command) : Bool :=
  match x.op with
  | .cfill .. => x.f.w == 1
  | _ => false

/-- Quantise and dequantise (R326). -/
def Command.quantises (x : Command) : Bool := decide (2 ≤ x.f.xf) && decide (x.f.xf ≤ 4)
def Command.dequantises (x : Command) : Bool := decide (5 ≤ x.f.xf) && decide (x.f.xf ≤ 7)
def Command.scaled (x : Command) : Bool := x.quantises || x.dequantises

/-- Target of a quantising transform, as VQNT numbers it. -/
def Command.target (x : Command) : Nat :=
  match x.f.xf with
  | 2 => 1
  | 3 => 2
  | 5 => 1
  | 6 => 2
  | _ => 0

/-- Unquantised format of w3, and the bytes of its element (R324). -/
def Command.elemFmt (x : Command) : Fmt := if x.f.w = 0 then .fp32 else if x.f.w = 1 then .bf16 else .fp16
def Command.elemBytes (x : Command) : Nat := x.elemFmt.bits / 8

/-- Bytes of a code row. -/
def Command.codeLen (x : Command) : Nat := x.rlen * (quantFmt x.target).bits / (8 * x.elemBytes)

/-- Scales of a row. -/
def Command.scaleCount (x : Command) : Nat := x.rlen / (quantBlock x.target * x.elemBytes)

/-- The codes lie on the global side. -/
def Command.codesGlobal (x : Command) : Bool :=
  match x.op with
  | .cget .. => x.dequantises
  | .cput .. => x.quantises
  | _ => false

/-- Bytes of a row on the global and on the local side. -/
def Command.globalLen (x : Command) : Nat := if x.codesGlobal then x.codeLen else x.rlen
def Command.localLen (x : Command) : Nat := if x.scaled && !x.codesGlobal then x.codeLen else x.rlen

/-- Address of the scales of row `j` (R326). -/
def Command.scaleAt (x : Command) (j : Nat) : Nat := x.c.toNat + 2 * ((j - x.f.imm) * x.scaleCount)

/-- Bytes of the array at s(sc): the scale array, or the code array of BDI. -/
def Command.arrayLen (x : Command) : Nat :=
  if x.scaled then 2 * (descRows x.desc * x.scaleCount)
  else if x.f.xf = 1 then descRows x.desc * (x.rlen / 128)
  else if x.f.xf = 8 || x.f.xf = 9 then 4 * descRows x.desc
  else 0

/-! ### CXFER's target (R322) -/

/-- The local core whose window holds a local address (R103). -/
def windowOf (a : Nat) : Option Nat := if 0x08000000 ≤ a ∧ a < 0x0C000000 then some ((a - 0x08000000) / 0x00800000) else none

/-- Windows that the destination rows of a CXFER touch. -/
def Command.windows (x : Command) : List Nat :=
  (x.rowNums.flatMap (fun j => [windowOf (x.g j), windowOf (x.g j + x.rlen - 1)])).filterMap (fun w => w)

/-- Core number of the target of a CXFER of core `n`. -/
def Command.targetCore (x : Command) (n : Nat) : Nat := clusterOf n * 8 + x.windows.headD 0

/-- The rows lie in the windows of two or more cores. -/
def Command.manyTargets (x : Command) : Bool :=
  match x.windows with
  | [] => false
  | w :: rest => rest.any (fun v => v ≠ w)

/-- Offset in the target's field of a window address. -/
def fieldOffset (a : Nat) : Nat := (a - 0x08000000) % 0x00800000

/-- A core is present (R36). -/
def State.hasCore (s : State) (n : Nat) : Bool := bit s.pres.cores n

/-- A core runs a task of a context: one that has been released and has not executed EXIT, trapped or been swapped out (R61) (DEDUCED, log 31). -/
def Core.runs (c : Core) (ctx : Nat) : Bool :=
  (decide (c.seq.mode = .running) || decide (c.seq.mode = .atHeadland) || c.seq.starts) && decide (c.seq.stop ≠ some .exit)
    && decide (c.csr.ctxId.toNat = ctx)

/-- The target of a CXFER still takes a row at an offset of its field: its task and its owner tags are the context's. -/
def State.targetOk (s : State) (t ctx off len : Nat) : Bool :=
  (s.core t).runs ctx
    && (firstGroup (s.core t).field Local.init (fun g => decide (g.owner ≠ ctx)) off len).isNone

/-! ### Checks at acceptance (R319-R327, R468) -/

/-- BDI pass-through of a page of tier 2, as the tables map it (R325); a page that is not mapped yet shows its tier when it is reached. -/
def State.farBdi (s : State) (x : Command) : Bool :=
  x.f.xf == 1 && x.rowNums.any (fun j => (piecesOf (x.g j) x.rlen).any (fun p => (s.peekLeaf x.ctx p.1).any (fun e => leafTier e == 2)))

/-- Conditions that give ARG. -/
def State.argBad (s : State) (x : Command) : Bool :=
  let d := x.desc
  descRsv d ≠ 0 || x.rlen == 0
    || (match x.op with | .cxfer .. => decide (2 ^ 32 ≤ descGva d) || x.manyTargets | _ => false)
    || (x.f.xf == 1 && (x.rlen % 128 ≠ 0 || x.rowNums.any (fun j => x.g j % 128 ≠ 0 || x.l j % 64 ≠ 0)))
    || (x.scaled && (x.rlen % (quantBlock x.target * x.elemBytes) ≠ 0 || x.c.toNat % 2 ≠ 0))
    || ((x.f.xf == 8 || x.f.xf == 9) && x.c.toNat % 4 ≠ 0)
    || s.farBdi x

/-- RANGE of the destination of one row of a CXFER: outside the windows, or not in one region of the target's task. -/
def State.destRange (s : State) (n ctx a len : Nat) : Option Nat :=
  match windowOf a with
  | none => some stRange
  | some w =>
    let t := clusterOf n * 8 + w
    failIf (!s.hasCore t || windowOf (a + len - 1) ≠ some w
      || ((s.core t).runs ctx && ((s.core t).outside (fieldOffset a) len).isSome)) stRange

/-- OWNER of the destination of one row of a CXFER: another context's task or groups. -/
def State.destOwner (s : State) (n ctx a len : Nat) : Option Nat :=
  failIf ((windowOf a).any (fun w => !s.targetOk (clusterOf n * 8 + w) ctx (fieldOffset a) len)) stOwner

/-- The check of one row (R468): the range of the global side and of the local side, and then the owners. -/
def State.rowStatus (s : State) (n : Nat) (x : Command) (j : Nat) : Option Nat :=
  let loc := s.localStatus n x.ctx (x.l j) x.localLen
  match x.op with
  | .cxfer .. => firstStatus [s.destRange n x.ctx (x.g j) x.rlen, s.localRange n (x.l j) x.rlen, s.destOwner n x.ctx (x.g j) x.rlen, loc]
  | .cfill .. => if x.fillsLocal then loc else failIf (!rangeOk (x.g j) x.rlen) stRange
  | _ => firstStatus [failIf (!rangeOk (x.g j) x.globalLen) stRange, loc]

/-- The check of the array at s(sc), where the transform has one. -/
def State.arrayStatus (s : State) (n : Nat) (x : Command) : Option Nat :=
  if x.arrayLen = 0 then none
  else if x.scaled && x.codesGlobal then failIf (!rangeOk x.c.toNat x.arrayLen) stRange
  else s.localStatus n x.ctx x.c.toNat x.arrayLen

/-- Little-endian words of 4 bytes. -/
def words4 : Nat → List Byte → List Nat
  | 0, _ => []
  | k + 1, bs => natOfBytes (bs.take 4) :: words4 k (bs.drop 4)

/-- A gather or scatter, whose rows lie where its index list says (R327). -/
def Command.gathers (x : Command) : Bool := isTransfer x.op && (x.f.xf == 8 || x.f.xf == 9)

/-- Address and bytes of the index list of a gather (R327). -/
def Command.indexAt (x : Command) : Nat := x.c.toNat + 4 * x.f.imm
def Command.indexLen (x : Command) : Nat := 4 * descRows x.desc

/-- The first failure among the local sides of a gather's rows. -/
def State.localRows (s : State) (n : Nat) (x : Command) : Option Nat :=
  firstStatus (x.rowNums.map (fun j => s.localStatus n x.ctx (x.l j) x.localLen))

/-- The first failure among the rows of a transfer. -/
def State.rowsStatus (s : State) (n : Nat) (x : Command) : Option Nat := firstStatus (x.rowNums.map (s.rowStatus n x))

/-- Acceptance of a transfer: the first failure in R468's order. Where the rows of a gather lie is known once its list has been read: of one
whose list fails its own check, the local rows alone are checked before it; else the rows are checked when it has been read (DEDUCED,
log 30). -/
def State.acceptTransfer (s : State) (n : Nat) (x : Command) : Option Nat :=
  if s.argBad x then some stArg
  else if x.gathers then
    match s.localStatus n x.ctx x.indexAt x.indexLen with
    | some st => some ((s.localRows n x).getD st)
    | none => none
  else firstStatus [s.rowsStatus n x, s.arrayStatus n x]

/-! ### The work of a transfer -/

/-- The pieces of a transfer in order (R320): rows ascending, 128 bytes at a time; a quantising row is one piece. -/
def Command.pieces (x : Command) : List Piece :=
  if x.scaled then x.rowNums.map (fun j => ⟨j, 0, x.rlen⟩)
  else x.rowNums.flatMap (fun j =>
    let base := if x.fillsLocal then x.l j else x.g j
    (piecesOf base x.rlen).map (fun p => ⟨j, p.1 - base, p.2⟩))

/-- Bytes of a row of CFILL from an offset (R322): byte i is byte i mod 8 of s(sc). -/
def fillBytes (v off len : Nat) : List Byte := (List.range len).map (fun k => BitVec.ofNat 8 (v / 2 ^ (8 * ((off + k) % 8))))

/-- Address of the code-array byte of a block of BDI pass-through (R325). -/
def Command.codeAt (x : Command) (p : Piece) : Nat := x.c.toNat + (p.row - x.f.imm) * (x.rlen / 128) + p.off / 128

/-- Elements of `w` bits packed into bytes (R186). -/
def packBits (w : Nat) (l : List Nat) : List Byte := bytesOfNat (w * l.length / 8) (unel w l)

/-- A row of unquantised elements turned into codes and scales (R209, R326): code bytes and scale bytes. -/
def Command.quantRow (x : Command) (bs : List Byte) : List Byte × List Byte :=
  let t := x.target
  let v := natOfBytes bs
  let es := (els v x.elemFmt.bits (x.rlen / x.elemBytes)).map (fun c => some (floatValue x.elemFmt c))
  let r := (chunks (quantBlock t) x.scaleCount es).map (quantBlockOf t)
  (packBits (quantFmt t).bits (r.flatMap (fun b => b.2.1)), packBits 16 (r.map Prod.fst))

/-- A row of codes turned into elements under its scales (R210, R326). -/
def Command.dequantRow (x : Command) (codes scales : List Byte) : List Byte :=
  let t := x.target
  let cv := natOfBytes codes
  let sv := natOfBytes scales
  packBits x.elemFmt.bits ((List.range (x.rlen / x.elemBytes)).map (fun k =>
    (dequantElem t x.elemFmt (el cv (quantFmt t).bits k) (el sv 16 (k / quantBlock t))).1))

/-- Ranges of one side of a piece: on the global side or not, first byte of the row, offset and length, and whether 64-byte rows covered
whole are whole-row writes. -/
structure Span where
  glob : Bool
  base : Nat
  off : Nat
  len : Nat
  rows : Bool
  deriving DecidableEq, Repr

/-- How far a command has read row `j` of its local side when it has moved the bytes before offset `o`: a 64-byte row is read as a whole
(R159). -/
def Command.readTo (x : Command) (j o : Nat) : Nat := if o = 0 then 0 else min x.rlen ((x.l j + o + 63) / 64 * 64 - x.l j)

/-- How far a command has written row `j` of its local side when it has read the bytes before offset `o`: a 64-byte row that the row
of the transfer covers is written as a whole (R159). -/
def Command.writtenTo (x : Command) (j o : Nat) : Nat :=
  let r := (x.l j + o) / 64 * 64
  if x.l j ≤ r ∧ r + 64 ≤ x.l j + x.rlen then r - x.l j else o

/-- What a piece reads (R322, R325, R326). -/
def Command.readSpans (x : Command) (p : Piece) : List Span :=
  let g := fun (len : Nat) => (⟨true, x.g p.row, p.off, len, false⟩ : Span)
  let l := fun (len : Nat) => (⟨false, x.l p.row, p.off, len, false⟩ : Span)
  let ahead := (⟨false, x.l p.row, x.readTo p.row p.off, x.readTo p.row (p.off + p.len) - x.readTo p.row p.off, false⟩ : Span)
  let scales := fun (b : Bool) => (⟨b, x.scaleAt p.row, 0, 2 * x.scaleCount, false⟩ : Span)
  match x.op with
  | .cget .. => if x.dequantises then [g x.codeLen, scales true] else [g p.len]
  | .cput .. =>
    if x.dequantises then [l x.codeLen, scales false]
    else if x.f.xf = 1 then [⟨false, x.codeAt p, 0, 1, false⟩, l 128]
    else [ahead]
  | .cxfer .. => [ahead]
  | _ => []

/-- What a piece writes, in order (R115, R322, R325, R326): scales and block codes are no row of the transfer. -/
def Command.writeSpans (x : Command) (p : Piece) : List Span :=
  let g := fun (len : Nat) => (⟨true, x.g p.row, p.off, len, false⟩ : Span)
  let l := fun (len : Nat) => (⟨false, x.l p.row, p.off, len, true⟩ : Span)
  let scales := fun (b : Bool) => (⟨b, x.scaleAt p.row, 0, 2 * x.scaleCount, false⟩ : Span)
  match x.op with
  | .cget .. =>
    if x.quantises then [l x.codeLen, scales false]
    else if x.f.xf = 1 then [l 128, ⟨false, x.codeAt p, 0, 1, false⟩]
    else [⟨false, x.l p.row, x.writtenTo p.row p.off, x.writtenTo p.row (p.off + p.len) - x.writtenTo p.row p.off, true⟩]
  | .cput .. => if x.quantises then [g x.codeLen, scales true] else if x.f.xf = 1 then [g 128] else [g p.len]
  | .cxfer .. => [⟨false, fieldOffset (x.g p.row), p.off, p.len, true⟩]
  | _ => if x.fillsLocal then [l p.len] else [g p.len]

/-- What a piece writes, from what it has read. BDI pass-through carries the block's code with its bytes. -/
def Command.convert (x : Command) (p : Piece) (bs : List Byte) : List Byte :=
  if x.quantises then let r := x.quantRow bs; r.1 ++ r.2
  else if x.dequantises then x.dequantRow (bs.take x.codeLen) (bs.drop x.codeLen)
  else
    match x.op with
    | .cfill .. => fillBytes x.c.toNat p.off p.len
    | _ => bs

/-- The steps of one piece: its reads, and then its writes. -/
def Command.transferSteps (x : Command) (n : Nat) (p : Piece) : List CStep :=
  let raw := x.f.xf == 1
  let t := match x.op with | .cxfer .. => x.targetCore n | _ => n
  let reads := (x.readSpans p).flatMap (fun q =>
    if !q.glob then readLocals (q.base + q.off) q.len
    else if raw then [.readGlobal (q.base + q.off) q.len true] else readGlobals (q.base + q.off) q.len)
  let writes := ((x.writeSpans p).foldl
    (fun (r : List CAct × Nat) q =>
      (r.1 ++ (if !q.glob then writeLocals t q.base q.off q.len r.2 q.rows
        else if raw then [.writeGlobal (q.base + q.off) q.len r.2 true] else writeGlobals (q.base + q.off) q.len r.2), r.2 + q.len))
    ([], 0)).1
  pieceSteps p (reads ++ writes)

/-- The target signal that a CXFER sends: barrier of the target (R322). -/
def Command.signal (x : Command) : Option (Fin 16) :=
  match x.op with
  | .cxfer .. => if x.f.sc ≠ 0 ∧ bit x.c.toNat 4 then some (Fin.ofNat 16 x.c.toNat) else none
  | _ => none

/-- CXFER_TARGET_SIGNAL (R322): CNT of the target's barrier grows by 1, saturating, and the CXFER completes; OWNER where the
target no longer runs the context. -/
def execCxferTargetSignal (n id : Nat) (s : State) : Out :=
  match (s.core n).command id with
  | none => .next s
  | some x =>
    match x.signal with
    | none => .next s
    | some b =>
      let t := x.targetCore n
      if (s.core t).runs x.ctx then
        .next ((s.updCore t (fun c => { c with bars := c.bars.set b { c.bars[b] with cnt := min (c.bars[b].cnt + 1) 65535 } })).endCommand
          n id 0)
      else .next (s.endCommand n id stOwner)

/-! ### The operations -/

/-- CDSET (R319): one double of a descriptor, at the commit. -/
def execCdset (g d : Fin 16) (sa : Fin 64) (w : Fin 8) (s : State) : Out :=
  slotOp (.cdset g d sa w)
    (fun s => .ok (s.upd (fun c =>
      { c with desc := c.desc.set d ((c.desc[d]).setIfInBounds w.val (s.view.rs sa)) }))) s

/-- CGET (R318, R322). -/
def execCget (g b : Fin 16) (o : Fin 4) (c : Fin 8) (d x : Fin 16) (sa sb sc : Fin 64) (w : Fin 8) (i : Fin 32768)
    (s : State) : Out := commandOp (.cget g b o c d x sa sb sc w i) s

/-- CPUT (R318, R322). -/
def execCput (g b : Fin 16) (o : Fin 4) (c : Fin 8) (d x : Fin 16) (sa sb sc : Fin 64) (w : Fin 8) (i : Fin 32768)
    (s : State) : Out := commandOp (.cput g b o c d x sa sb sc w i) s

/-- CXFER (R318, R322). -/
def execCxfer (g b : Fin 16) (o : Fin 4) (c : Fin 8) (d : Fin 16) (sa sb sc : Fin 64) (i : Fin 32768) (s : State) : Out :=
  commandOp (.cxfer g b o c d sa sb sc i) s

/-- CFILL (R318, R322). -/
def execCfill (g b : Fin 16) (o : Fin 4) (c : Fin 8) (d : Fin 16) (sa sb sc : Fin 64) (w : Fin 2) (i : Fin 32768)
    (s : State) : Out := commandOp (.cfill g b o c d sa sb sc w i) s

/-- BARSET (R315): EXP, at the commit; no command. -/
def execBarset (g b : Fin 16) (sb : Fin 64) (s : State) : Out :=
  slotOp (.barset g b sb)
    (fun s => .ok (s.upd (fun c =>
      { c with bars := c.bars.set b { c.bars[b] with exp := min (s.view.rs sb).toNat 65535 } }))) s

end Sys2Proof.Machine
end

