-- ==== Sys2Proof/Machine/Atomic.lean ====
section
/-! DEFINITION. Atomics, contributions to reduction windows, WAITA and WAKE (R178-R181, R332-R337). -/

namespace Sys2Proof.Machine

/-! ### Operands and slots (R332-R334) -/

/-- An AFADD. -/
def isAfadd : Instr → Bool
  | .afadd .. => true
  | _ => false

/-- Format of an AFADD (R333). -/
def afaddFmt (w : Nat) : Fmt := if w = 0 then .fp32 else if w = 1 then .bf16 else .fp16

/-- Bytes of the operand. -/
def Command.size (x : Command) : Nat :=
  if isAfadd x.op then (afaddFmt x.f.w).bits / 8
  else
    match x.op with
    | .ared .. => if x.f.w = 1 then 4 else if x.f.w = 2 then 2 else 8
    | .wake .. => 1
    | _ => if x.f.w = 0 then 4 else 8

/-- P (R332). -/
def Command.slotAt (x : Command) : Nat := x.c.toNat + 8 * x.f.imm

/-- Bytes of the slot that the command uses. -/
def Command.slotLen (x : Command) : Nat :=
  match x.op with
  | .adcas .. => 32
  | .amove .. => 16
  | .waita .. => 16
  | _ => 8

/-- The two-operand atomics (R334). -/
def isPair : Instr → Bool
  | .adcas .. => true
  | .amove .. => true
  | _ => false

/-- The operand v of an atomic: the low bytes of s(sb). -/
def Command.operand (x : Command) : Nat := x.b.toNat % 2 ^ (8 * x.size)

/-- Doubles of the slot that a command reads at acceptance (R332, R334). -/
def Command.slotReads (x : Command) : Nat :=
  match x.op with
  | .acas .. => 1
  | .adcas .. => 4
  | .amove .. => 1
  | _ => 0

/-- Little-endian doubles. -/
def words8 : Nat → List Byte → List Nat
  | 0, _ => []
  | k + 1, bs => natOfBytes (bs.take 8) :: words8 k (bs.drop 8)

/-- Conditions that give ARG at acceptance. -/
def State.atomicArg (s : State) (n : Nat) (x : Command) : Bool :=
  x.a.toNat % x.size ≠ 0
    || (isPair x.op && x.b.toNat % x.size ≠ 0)
    || (match x.op with
        | .adecp .. => decide (signedOf (8 * x.size) x.operand < 1)
        | _ => false)
    || (match x.op with
        | .ared .. => false
        | _ => s.slotBad n x.slotAt x.slotLen)

/-- Two ranges of one length overlap. -/
def overlap (a b n : Nat) : Bool := decide (a < b + n) && decide (b < a + n)

/-- Checks of an atomic, WAITA or WAKE at acceptance, before its slot is read. -/
def State.atomicStatus (s : State) (n : Nat) (x : Command) : Option Nat :=
  firstStatus [
    failIf (s.atomicArg n x) stArg,
    failIf (isPair x.op && overlap x.a.toNat x.b.toNat x.size) stOverlap,
    failIf (!rangeOk x.a.toNat x.size) stRange,
    failIf (isPair x.op && !rangeOk x.b.toNat x.size) stRange,
    failIf (match x.op with | .ared .. => false | _ => s.slotOwner n x.ctx x.slotAt x.slotLen) stOwner]

/-! ### New values (R332, R333) -/

/-- Smaller or larger of two operands of `w` bits. -/
def pickInt (w : Nat) (max signed : Bool) (a b : Nat) : Nat := intMinMax w max signed a b

/-- The new value of a single-operand atomic with old value `o` and operand `v`; `none` writes nothing. -/
def newValue (i : Instr) (w fmt o v cmp : Nat) : Option Nat :=
  match i with
  | .aadd .. => some ((o + v) % 2 ^ w)
  | .afadd .. => some (FOp.elem .add (afaddFmt fmt) false .rne o v).1
  | .aand .. => some (Nat.land o v)
  | .aor .. => some (Nat.lor o v)
  | .axor .. => some (Nat.xor o v)
  | .amin .. => some (pickInt w false true o v)
  | .amax .. => some (pickInt w true true o v)
  | .aminn .. => some (pickInt w false false o v)
  | .amaxn .. => some (pickInt w true false o v)
  | .axchg .. => some v
  | .acas .. => if o = cmp then some v else none
  | .adecp .. => if signedOf w v ≤ signedOf w o then some ((o + 2 ^ w - v) % 2 ^ w) else none
  | _ => none

/-- Bytes of the slot that a command writes: partial writes (R116, R332). -/
def Command.slotWrites (x : Command) : Nat :=
  match x.op with
  | .adcas .. => 16
  | .amove .. => 16
  | .waita .. => 16
  | .ared .. => 0
  | _ => 8

/-- The steps of an atomic, a WAITA or a WAKE: the step at the home, and the words that it returns. -/
def Command.atomicSteps (x : Command) (n : Nat) : List CStep :=
  pieceSteps ⟨0, 0, 0⟩ (.home :: writeLocals n x.slotAt 0 x.slotWrites 0 false)

/-- A single-operand atomic at its home (R178): the old value. -/
def State.atomicStep (s : State) (n : Nat) (x : Command) : State × Prog × List Byte :=
  match s.accessBoth n x.ctx x.a.toNat with
  | (s, .error e) => (s, e, [])
  | (s, .ok p) =>
    let w := 8 * x.size
    let cmp := nth x.slot 0 % 2 ^ w
    match s.atomicHome p.tier p.pa x.size p.cmp (fun o => newValue x.op w x.f.w o x.operand cmp) with
    | (s, none) => (s.blockError (some x.ctx) p.tier p.pa p.va, .fail stData, [])
    | (s, some o) => (s, .ok, bytesOfNat 8 o)

/-- Two writes performed as one: both stand before either line's waiters are woken (R179, R180). -/
def State.writeBoth (s : State) (p q : Page) (v w : List Byte) : State :=
  let s := ((s.placeHome p.tier p.pa p.cmp v).1.placeHome q.tier q.pa q.cmp w).1
  let s := s.wakeLine p.tier p.pa
  if p.tier = q.tier ∧ p.pa / 128 = q.pa / 128 then s else s.wakeLine q.tier q.pa

/-- ADCAS and AMOVE at their homes, both locks held (R179, R334): the old values. -/
def State.pairStep (s : State) (n : Nat) (x : Command) : State × Prog × List Byte :=
  match s.accessBoth n x.ctx x.a.toNat with
  | (s, .error e) => (s, e, [])
  | (s, .ok p) =>
    match s.accessBoth n x.ctx x.b.toNat with
    | (s, .error e) => (s, e, [])
    | (s, .ok q) =>
      if p.tier = q.tier ∧ overlap p.pa q.pa x.size = true then (s, .fail stOverlap, [])
      else
        match s.readPage x.ctx p x.size with
        | (s, .error e) => (s, e, [])
        | (s, .ok b1) =>
          match s.readPage x.ctx q x.size with
          | (s, .error e) => (s, e, [])
          | (s, .ok b2) =>
            let o1 := natOfBytes b1
            let o2 := natOfBytes b2
            let m := 2 ^ (8 * x.size)
            let v : Option (Nat × Nat) := match x.op with
              | .adcas .. =>
                if o1 = nth x.slot 0 % m ∧ o2 = nth x.slot 1 % m then some (nth x.slot 2 % m, nth x.slot 3 % m) else none
              | _ => some (nth x.slot 0 % m, o1)
            let s := match v with
              | some v => s.writeBoth p q (bytesOfNat x.size v.1) (bytesOfNat x.size v.2)
              | none => s
            (s, .ok, bytesOfNat 8 o1 ++ bytesOfNat 8 o2)

/-! ### Contributions (R335, R405) -/

/-- The fabric address of a page's byte (R143): tiers 0 and 1 are the module's own. -/
def State.fabricOf (s : State) (p : Page) : Option Nat :=
  match p.tier with
  | 2 => none
  | 3 => some p.pa
  | _ => some (s.moduleNum.toNat * 2 ^ 42 + p.pa)

/-- The open window that holds a fabric address (R405). -/
def State.windowAt (s : State) (a : Nat) : Option Window :=
  (s.windows.map Prod.snd).find? (fun w => decide (w.base ≤ a) && decide (a < w.base + w.size))

/-- An ARED handed to its switch (R335): WINDOW outside the window or the group. Whether a window of another home module takes
it is known to the switches only: a free value (DESIGN CHOICE, log 34). -/
def State.aredStep (s : State) (n : Nat) (x : Command) : State × Prog :=
  match s.access n x.ctx x.a.toNat true with
  | (s, .error e) => (s, e)
  | (s, .ok p) =>
    match s.fabricOf p with
    | none => (s, .fail stWindow)
    | some a =>
      if a / 2 ^ 42 = s.moduleNum.toNat then
        match s.windowAt a with
        | some w =>
          if w.group.contains s.moduleNum.toNat then
            ({ s with agenda := s.agenda ++
                [.event (.reductionContribution s.moduleNum.toNat a (Fin.ofNat 8 x.f.w) x.b)] }, .ok)
          else (s, .fail stWindow)
        | none => (s, .fail stWindow)
      else
        let f := s.free
        (f.2, if f.1 % 2 = 1 then .ok else .fail stWindow)

/-! ### WAITA and WAKE (R180, R181, R336, R337) -/

/-- A WAITA that has been woken and has not completed. -/
def Command.woken (x : Command) : Bool :=
  match x.op with
  | .waita .. => !x.slot.isEmpty
  | _ => false

/-- Monitor entries of a cluster in use: an armed WAITA holds its entry until it completes (R336, R425). -/
def State.armed (s : State) (cl : Nat) : Nat :=
  (s.monitors.filter (fun m => clusterOf m.core == cl)).length
    + ((s.cores.filter (fun p => clusterOf p.1 == cl)).map (fun p => ((p.2.queue0 ++ p.2.queue1).filter Command.woken).length)).sum

/-- A WAITA's result: status at P, value at P + 8. -/
def waitaResult (st v : Nat) : List Byte := bytesOfNat 8 st ++ bytesOfNat 8 v

/-- The step of a WAITA at the home: MISMATCH, armed, or NOT_ARMED; and the end of a woken one. In a drain that withdraws it arms nothing, and
is compared again when the team resumes (R64). -/
def State.waitaStep (s : State) (n : Nat) (x : Command) : State × Prog × List Byte :=
  match x.slot with
  | [0, _] => (s, .fail stData, [])
  | [st, v] => (s, .ok, waitaResult st v)
  | _ =>
    match s.access n x.ctx x.a.toNat false with
    | (s, .error e) => (s, e, [])
    | (s, .ok p) =>
      match s.readPage x.ctx p x.size with
      | (s, .error e) => (s, e, [])
      | (s, .ok bs) =>
        let v := natOfBytes bs
        if v ≠ x.operand then (s, .ok, waitaResult 2 v)
        else if s.stopped n then (s, .wait .armed, [])
        else if (s.cluster (clusterOf n)).csr.moncap.toNat ≤ s.armed (clusterOf n) then (s, .ok, waitaResult 3 v)
        else ({ s with monitors := s.monitors ++ [⟨p.tier, p.pa, x.size, n, x.id⟩] }, .wait .armed, [])

/-- A WAKE at the home: the first n waiters of the line that armed, or all of them; how many. -/
def State.wakeStep (s : State) (n : Nat) (x : Command) : State × Prog × List Byte :=
  match s.access n x.ctx x.a.toNat false with
  | (s, .error e) => (s, e, [])
  | (s, .ok p) =>
    let ms := s.monitors.filter (fun m => m.tier == p.tier && m.pa / 128 == p.pa / 128)
    let ms := if x.b = 0 then ms else ms.take x.b.toNat
    (ms.foldl State.wake s, .ok, bytesOfNat 8 ms.length)

/-- The step of an atomic, a WAITA or a WAKE at its home, with the bytes that it returns. -/
def State.atomicHomeStep (s : State) (n : Nat) (x : Command) : State × Prog × List Byte :=
  match x.op with
  | .adcas .. => s.pairStep n x
  | .amove .. => s.pairStep n x
  | .ared .. => let r := s.aredStep n x; (r.1, r.2, [])
  | .waita .. => s.waitaStep n x
  | .wake .. => s.wakeStep n x
  | _ => s.atomicStep n x

/-! ### The operations (R318) -/

/-- AADD (R332). -/
def execAadd (g b : Fin 16) (o : Fin 4) (c : Fin 8) (sa sb sc : Fin 64) (w : Fin 8) (i : Fin 32768) (s : State) : Out :=
  commandOp (.aadd g b o c sa sb sc w i) s

/-- AFADD (R333). -/
def execAfadd (g b : Fin 16) (o : Fin 4) (c : Fin 8) (sa sb sc : Fin 64) (w : Fin 8) (i : Fin 32768) (s : State) : Out :=
  commandOp (.afadd g b o c sa sb sc w i) s

/-- AAND (R332). -/
def execAand (g b : Fin 16) (o : Fin 4) (c : Fin 8) (sa sb sc : Fin 64) (w : Fin 8) (i : Fin 32768) (s : State) : Out :=
  commandOp (.aand g b o c sa sb sc w i) s

/-- AOR (R332). -/
def execAor (g b : Fin 16) (o : Fin 4) (c : Fin 8) (sa sb sc : Fin 64) (w : Fin 8) (i : Fin 32768) (s : State) : Out :=
  commandOp (.aor g b o c sa sb sc w i) s

/-- AXOR (R332). -/
def execAxor (g b : Fin 16) (o : Fin 4) (c : Fin 8) (sa sb sc : Fin 64) (w : Fin 8) (i : Fin 32768) (s : State) : Out :=
  commandOp (.axor g b o c sa sb sc w i) s

/-- AMIN (R332). -/
def execAmin (g b : Fin 16) (o : Fin 4) (c : Fin 8) (sa sb sc : Fin 64) (w : Fin 8) (i : Fin 32768) (s : State) : Out :=
  commandOp (.amin g b o c sa sb sc w i) s

/-- AMAX (R332). -/
def execAmax (g b : Fin 16) (o : Fin 4) (c : Fin 8) (sa sb sc : Fin 64) (w : Fin 8) (i : Fin 32768) (s : State) : Out :=
  commandOp (.amax g b o c sa sb sc w i) s

/-- AMINN (R332). -/
def execAminn (g b : Fin 16) (o : Fin 4) (c : Fin 8) (sa sb sc : Fin 64) (w : Fin 8) (i : Fin 32768) (s : State) : Out :=
  commandOp (.aminn g b o c sa sb sc w i) s

/-- AMAXN (R332). -/
def execAmaxn (g b : Fin 16) (o : Fin 4) (c : Fin 8) (sa sb sc : Fin 64) (w : Fin 8) (i : Fin 32768) (s : State) : Out :=
  commandOp (.amaxn g b o c sa sb sc w i) s

/-- AXCHG (R332). -/
def execAxchg (g b : Fin 16) (o : Fin 4) (c : Fin 8) (sa sb sc : Fin 64) (w : Fin 8) (i : Fin 32768) (s : State) : Out :=
  commandOp (.axchg g b o c sa sb sc w i) s

/-- ACAS (R332). -/
def execAcas (g b : Fin 16) (o : Fin 4) (c : Fin 8) (sa sb sc : Fin 64) (w : Fin 8) (i : Fin 32768) (s : State) : Out :=
  commandOp (.acas g b o c sa sb sc w i) s

/-- ADECP (R332). -/
def execAdecp (g b : Fin 16) (o : Fin 4) (c : Fin 8) (sa sb sc : Fin 64) (w : Fin 8) (i : Fin 32768) (s : State) : Out :=
  commandOp (.adecp g b o c sa sb sc w i) s

/-- ADCAS (R334). -/
def execAdcas (g b : Fin 16) (o : Fin 4) (c : Fin 8) (sa sb sc : Fin 64) (w : Fin 8) (i : Fin 32768) (s : State) : Out :=
  commandOp (.adcas g b o c sa sb sc w i) s

/-- AMOVE (R334). -/
def execAmove (g b : Fin 16) (o : Fin 4) (c : Fin 8) (sa sb sc : Fin 64) (w : Fin 8) (i : Fin 32768) (s : State) : Out :=
  commandOp (.amove g b o c sa sb sc w i) s

/-- WAITA (R336). -/
def execWaita (g b : Fin 16) (o : Fin 4) (c : Fin 8) (sa sb sc : Fin 64) (w : Fin 8) (i : Fin 32768) (s : State) : Out :=
  commandOp (.waita g b o c sa sb sc w i) s

/-- ARED (R335). -/
def execAred (g b : Fin 16) (o : Fin 4) (c : Fin 8) (sa sb : Fin 64) (w : Fin 8) (s : State) : Out :=
  commandOp (.ared g b o c sa sb w) s

/-- WAKE (R337). -/
def execWake (g b : Fin 16) (o : Fin 4) (c : Fin 8) (sa sb sc : Fin 64) (i : Fin 32768) (s : State) : Out :=
  commandOp (.wake g b o c sa sb sc i) s

end Sys2Proof.Machine
end

