-- ==== Sys2Proof/Machine/Maps.lean ====
section
/-! DEFINITION. Maps of regions, touch and flush, expiry write-back, migration and prefetch (R124, R125, R150, R328-R331, R473,
R474, R476). -/

namespace Sys2Proof.Machine

/-! ### The map unit (R124) -/

/-- A local memory: the field of core `n`, or the commons of its cluster. -/
def State.localOf (s : State) (n : Nat) (isCommons : Bool) : Local := if isCommons then s.commonsOf n else (s.core n).field

/-- 2 KiB of a local memory written to a page block by block; a block with an uncorrectable word is left poisoned (R476). -/
def State.writeGroup (s : State) (p : Page) (l : Local) (off : Nat) : State :=
  (List.range 16).foldl
    (fun s k =>
      let s := s.writeBlock p.tier (p.pa + 128 * k) p.cmp (readBytes l.cells (off + 128 * k) 128)
      if l.badIn (off + 128 * k) 128 then s.poison p.tier (p.pa + 128 * k) else s) s

/-- The write-back of a group of core `n` to its global range (R124): with an uncorrectable word in it, the owner's context is
ended too (R476). -/
def State.flushGroup (s : State) (n ctx va : Nat) (isCommons priv : Bool) (off : Nat) : State × Prog :=
  match s.accessMap (clusterOf n) ctx va 2048 true priv with
  | (s, .error e) => (s, e)
  | (s, .ok p) =>
    let l := s.localOf n isCommons
    let s := (s.writeGroup p l off).freeHost (256 + clusterOf n)
    (s.wordErrors n isCommons off 2048, .ok)

/-- The fill of a group from its global range as whole-row writes (R124). -/
def State.fillGroup (s : State) (n ctx va : Nat) (isCommons priv : Bool) (off : Nat) : State × Prog :=
  match s.accessMap (clusterOf n) ctx va 2048 false priv with
  | (s, .error e) => (s, e)
  | (s, .ok p) =>
    let s := s.freeHost (256 + clusterOf n)
    match s.readRangeAt p.tier p.pa 2048 with
    | (s, .error pa) => (s.blockError (some ctx) p.tier pa (va + (pa - p.pa)), .fail stData)
    | (s, .ok bs) => (s.updLocal n isCommons (fun l => (l.put off bs).freshRows off 2048), .ok)

/-- A group changed. -/
def Local.updGroup (l : Local) (off : Nat) (f : Group → Group) : Local :=
  { l with groups := tset l.groups (off / 2048) (f (l.group off)) }

/-- A group that is no longer held, its requests dropped (R118, R124), and its fresh mask cleared too, in every case (DESIGN CHOICE, log 91). -/
def Group.gone (g : Group) : Group := { g with valid := false, fresh := 0, pending := false, writeback := false }

/-- Every group of `n` bytes from an offset becomes invalid. -/
def Local.invalidate (l : Local) (off n : Nat) : Local :=
  (List.range (n / 2048)).foldl (fun l k => l.updGroup (off + 2048 * k) Group.gone) l

/-! ### CTOUCH and CFLUSH (R329) -/

/-- First byte of the local range. -/
def Command.rangeStart (x : Command) : Nat := x.a.toNat + x.f.imm * 2048

/-- The mapped region that holds the whole local range. -/
def State.mappedRegion (s : State) (n : Nat) (x : Command) : Option Region :=
  match (s.core n).regionAt x.rangeStart with
  | some k =>
    let r := (s.core n).rgn[k]
    if r.mapped && decide (x.rangeStart + x.b.toNat ≤ r.base + r.size) then some r else none
  | none => none

/-- Checks at acceptance. -/
def State.mapStatus (s : State) (n : Nat) (x : Command) : Option Nat :=
  if x.b = 0 then none
  else firstStatus [failIf (s.mappedRegion n x).isNone stArg, s.localStatus n x.ctx x.rangeStart x.b.toNat]

/-- Groups that meet the range, by local address. -/
def Command.groupsOf (x : Command) : List Nat :=
  (groupStarts x.rangeStart x.b.toNat).map (fun a => a / 2048 * 2048)

/-- A CTOUCH. -/
def isTouch : Instr → Bool
  | .ctouch .. => true
  | _ => false

/-- The steps of CTOUCH or CFLUSH (R124, R329): group by group, 128 bytes at a time, each group a piece. -/
def State.mapSteps (s : State) (n : Nat) (x : Command) : List CStep :=
  match s.mappedRegion n x with
  | none => []
  | some r =>
    (if x.b = 0 then [] else x.groupsOf).flatMap (fun a =>
      let va := r.mapva + (a - r.base)
      pieceSteps ⟨a, 0, 2048⟩ ((List.range 16).flatMap (fun k =>
        if isTouch x.op then .readGlobal (va + 128 * k) 128 false :: writeLocals n a (128 * k) 128 (128 * k) true
        else readLocals (a + 128 * k) 128 ++ [.writeGlobal (va + 128 * k) 128 (128 * k) false])))

/-- The group of a local address of core `n`. -/
def State.groupOf (s : State) (n a : Nat) : Group :=
  match locate a with
  | some (m, off) => (s.localOf n m).group off
  | none => Group.init

/-- A group that CTOUCH or CFLUSH passes over (R124): CTOUCH a valid one, CFLUSH an invalid one. -/
def State.passes (s : State) (n : Nat) (x : Command) (a : Nat) : Bool := (s.groupOf n a).valid == isTouch x.op

/-- After the last block of a flushed group: a write-back that was pending for it is done with (R464); with an uncorrectable word in it,
the owner's context is ended (R476). -/
def State.flushed (s : State) (n a : Nat) : State :=
  match locate a with
  | none => s
  | some (m, off) =>
    let l := s.localOf n m
    let s := if (l.group off).writeback then s.updLocal n m (fun l => l.updGroup off Group.gone) else s
    s.wordErrors n m off 2048

/-! ### CMAP (R328) -/

/-- The region that CMAP names. -/
def Command.region (x : Command) : Fin 16 := Fin.ofNat 16 x.f.imm

/-- Checks at acceptance. -/
def State.cmapStatus (s : State) (n : Nat) (x : Command) : Option Nat :=
  let r := (s.core n).rgn[x.region]
  let v := x.a.toNat
  firstStatus [
    failIf (!r.valid) stArg,
    failIf (v == 0 && r.act == 2) stArg,
    failIf (v % 2048 ≠ 0) stArg,
    failIf (v ≠ 0 && !rangeOk v r.size) stRange]

/-- A core's descriptor of a region mapped at `v`, or unmapped. -/
def Core.mapRegion (c : Core) (k : Fin 16) (v : Nat) : Core :=
  let r := c.rgn[k]
  { c with rgn := c.rgn.set k (if v = 0 then { r with mapped := false, mapva := 0 } else { r with mapped := true, mapva := v }) }

/-- Cores that hold one commons region: those of the cluster with a valid descriptor of it (R107). -/
def State.sharers (s : State) (n : Nat) (k : Fin 16) : List Nat :=
  let r := (s.core n).rgn[k]
  if r.commons then
    (List.range 8).filterMap (fun i =>
      let m := clusterOf n * 8 + i
      let q := (s.core m).rgn[k]
      if q.valid && q.commons && q.base == r.base && q.size == r.size then some m else none)
  else [n]

/-- CMAP performed: the descriptor, and every group of the region invalid (R124). -/
def State.performCmap (s : State) (n : Nat) (x : Command) : State :=
  let r := (s.core n).rgn[x.region]
  let s := (s.sharers n x.region).foldl (fun s m => s.updCore m (fun c => c.mapRegion x.region x.a.toNat)) s
  let s := match locate r.base with
    | some (m, off) => s.updLocal n m (fun l => l.invalidate off r.size)
    | none => s
  s.endCommand n x.id 0

/-! ### CPFX (R331) -/

/-- The pages of 64 KiB that a global range meets. -/
def pagesOf (va n : Nat) : List Nat :=
  if n = 0 then [] else (List.range ((va + n - 1) / 65536 - va / 65536 + 1)).map (fun k => max va ((va / 65536 + k) * 65536))

/-- One page of CPFX: a fault other than a page fault is dropped. -/
def State.cpfxPiece (s : State) (n : Nat) (x : Command) (va : Nat) : State × Prog :=
  match s.translate (clusterOf n) (some n) x.ctx va true false false with
  | (s, .error .pageFault) => (s.noteFault x.ctx va, .wait (.fault va))
  | (s, .error .data) => (s, .fail stData)
  | (s, _) => (s, .ok)

/-- The steps of CPFX: page by page. -/
def Command.cpfxSteps (x : Command) : List CStep :=
  (pagesOf x.a.toNat x.b.toNat).flatMap (fun va => pieceSteps ⟨va, 0, 0⟩ [.home])

/-! ### Migration (R100, R150, R330, R474) -/

/-- The pages of whatever size that meet a range, by first address. -/
def State.pageBases (s : State) (ctx : Nat) : Nat → Nat → Nat → List Nat
  | 0, _, _ => []
  | k + 1, va, stop =>
    if stop ≤ va then []
    else
      let size := ((s.peekLeaf ctx va).map leafSize).getD 65536
      va / size * size :: s.pageBases ctx k (va / size * size + size) stop

/-- Pages of a range of `n` bytes. -/
def State.rangePages (s : State) (ctx va n : Nat) : List Nat := s.pageBases ctx (n / 65536 + 2) va (va + n)

/-- A page may be migrated for a task: valid, W = 1, PRIV = 0 (R330). -/
def State.mayMigrate (s : State) (ctx va : Nat) : Bool :=
  match s.peekLeaf ctx va with
  | some e => leafW e && !leafPriv e
  | none => false

/-- A migration is set up; each page moves by a step of its own. -/
def State.startMigration (s : State) (ctx : Nat) (pages : List Nat) (tier : Nat) (owner : Option (Nat × Nat))
    (deadline : Nat) : State :=
  { s with migrations := s.migrations ++ [⟨s.nextOp, ctx, pages, tier, owner, deadline, 0, none, none, none⟩], nextOp := s.nextOp + 1 }

/-- CMIGR performed up to the start of its migration (R330). -/
def State.performCmigr (s : State) (n : Nat) (x : Command) : State :=
  let pages := s.rangePages x.ctx x.a.toNat x.b.toNat
  if pages.all (s.mayMigrate x.ctx) then
    (s.updCore n (fun c => c.updCommand x.id (fun y => { y with state := .waiting }))).startMigration x.ctx pages x.f.w
      (some (n, x.id)) x.c.toNat
  else s.endCommand n x.id stProtection

/-- A migration taken off the list. -/
def State.dropMigration (s : State) (id : Nat) : State := { s with migrations := s.migrations.filter (fun m => m.id ≠ id) }

/-- A migration changed. -/
def State.updMigration (s : State) (id : Nat) (f : Migration → Migration) : State :=
  { s with migrations := s.migrations.map (fun m => if m.id = id then f m else m) }

/-- SLIP_CNT of a cluster grows by 1 (R100). -/
def State.slip (s : State) (cl : Nat) : State :=
  s.updCluster cl (fun k => { k with csr := { k.csr with slipCnt := k.csr.slipCnt + 1 } })

/-- A mailbox return (R402); it is lost while the link is down (R501). -/
def State.reply (s : State) (opcode code : Nat) (out : List Byte) : State :=
  if s.cxlUp then { s with replies := s.replies ++ [⟨opcode, code, out⟩] } else s

/-- A migration ends: the command's barrier, or the mailbox's return. One that has moved every page counts once where its last byte was
performed after its deadline (R100, R474). One that is cut short, or has no byte to move, does not count (DESIGN CHOICE, log 102). -/
def State.endMigration (s : State) (m : Migration) (st : Nat) : State :=
  let s := s.dropMigration m.id
  match m.owner with
  | some (n, id) =>
    let late := m.lastByte.any (fun t => decide (m.deadline < t)) && m.pages.isEmpty && st == 0
    (if late then s.slip (clusterOf n) else s).endCommand n id st
  | none => if m.channel.isSome then s else s.reply 0xC003 0 (bytesOfNat 8 m.moved ++ bytesOfNat 8 st)

/-- The physical address of the entry that a walk of an address ends on. -/
def State.entryAt (s : State) (ctx va : Nat) : Option (Nat × Nat) :=
  match s.l0 ctx with
  | some base => peekFrom s va walkLevels base
  | none => none

/-- First entry of a large page's group and how many entries it has (R134). -/
def entryGroup (pa e : Nat) : Nat × Nat :=
  if leafSz e = 0 then (pa, 1) else if leafSz e = 1 then (pa / 256 * 256, 32) else (pa / 16 * 16, 2)

/-- Every entry of a page's group written with one value: what the A and D bits of the others held is not kept (DESIGN CHOICE, log 103). -/
def State.writeEntries (s : State) (pa e v : Nat) : State :=
  let g := entryGroup pa e
  (List.range g.2).foldl
    (fun s k =>
      match s.tierOf (g.1 + 8 * k) with
      | some t => (s.writePlain t (g.1 + 8 * k) (bytesOfNat 8 v)).1
      | none => s) s

/-- A block copied with its code and its poison (R150, R473), read at one channel and written at the other (R149), where the host then holds no
line of it (R401). -/
def State.copyBlock (s : State) (t1 a1 t2 a2 : Nat) : State :=
  let g := s.gmem t1
  let b := s.blockOf t1 a1
  let x := g.block b
  let s := ((s.backInvalidate t2 a2).countAccess t1 a1 x.1 false).countAccess t2 a2 x.1 true
  let s := s.setGmem t2 ((s.gmem t2).putBlock (s.blockOf t2 a2) x.1 x.2)
  if g.bad.contains b then s.poison t2 a2 else s

/-- A page copied, and the monitors armed on its old frame moved with it. -/
def State.copyPage (s : State) (t1 a1 t2 a2 size : Nat) : State :=
  let s := (List.range (size / 128)).foldl (fun s k => s.copyBlock t1 (a1 + 128 * k) t2 (a2 + 128 * k)) s
  let move := fun (x : Nat × Nat) => if x.1 = t1 ∧ a1 ≤ x.2 ∧ x.2 < a1 + size then (t2, a2 + (x.2 - a1)) else x
  { s with monitors := s.monitors.map (fun m => { m with tier := (move (m.tier, m.pa)).1, pa := (move (m.tier, m.pa)).2 }),
           queues := tmap (fun _ q => { q with kickAt := q.kickAt.map move, waitAt := q.waitAt.map move }) s.queues }

/-- A leaf entry with another tier and output address. -/
def withFrame (e tier oa : Nat) : Nat := e - leafTier e * 16 - entryOut e + tier * 16 + oa

/-- A bit of a mask cleared. -/
def clearBit (m k : Nat) : Nat := if bit m k then m - 2 ^ k else m

/-- The machine with a memory channel absent. -/
def State.withoutChannel (s : State) (tier ch : Nat) : State :=
  { s with pres := if tier = 0 then { s.pres with hbm := clearBit s.pres.hbm ch } else { s.pres with lpddr := clearBit s.pres.lpddr ch } }

/-- A frame for a page lies in its tier, in domains whose hash code is the page's (R135, R330). -/
def State.frameOk (s : State) (tier e oa : Nat) : Bool :=
  s.tierHolds tier oa (leafSize e) && s.domainsHave tier oa (leafSize e) (leafHash e)

/-- A frame of the target tier for a page (R330): which frames are free the spec does not say, so the one taken is a free
value, and so is that there is none (DESIGN CHOICE, log 26); its domains' hash code is the page's, and where the GS empties a channel
(R39) that holds of the channels that remain too. -/
def State.takeFrame (s : State) (m : Migration) (e : Nat) : State × Option Nat :=
  let f := s.free
  let g := f.2.free
  let frames := f.2.tierBytes m.tier / leafSize e
  let oa := tierBase m.tier + g.1 % frames * leafSize e
  let later := m.channel.all (fun ch => (g.2.withoutChannel m.tier ch).frameOk m.tier e oa)
  (g.2, if f.1 % 2 = 1 ∧ g.2.frameOk m.tier e oa = true ∧ later = true then some oa else none)

/-- The first step of a page's migration: its entries with V = 0, and an INVTLB (R150). A page whose entry has V = 0 by then is passed over (DESIGN
CHOICE, log 104). -/
def State.beginPage (s : State) (m : Migration) (va : Nat) : State :=
  match s.entryAt m.ctx va with
  | none => s.updMigration m.id (fun m => { m with pages := m.pages.drop 1 })
  | some (pa, e) =>
    if bit e 0 = false || (leafTier e == m.tier && m.channel.isNone) then s.updMigration m.id (fun m => { m with pages := m.pages.drop 1 })
    else
      match s.takeFrame m e with
      | (s, none) => s.endMigration m stArg
      | (s, some oa) =>
        let inv := s.nextOp
        let s := (s.writeEntries pa e (e - 1)).issueInv 2 m.ctx va (leafSize e) false
        s.updMigration m.id (fun m => { m with page := some (va, e, inv, oa), pages := m.pages.drop 1 })

/-- The later steps of a page's migration, once its INVTLB has completed (R150). -/
def State.finishPage (s : State) (m : Migration) (va e oa : Nat) : State :=
  match s.entryAt m.ctx va with
  | none => s.updMigration m.id (fun m => { m with page := none })
  | some (pa, _) =>
    let s := s.copyPage (leafTier e) (entryOut e) m.tier oa (leafSize e)
    let s := s.writeEntries pa e (withFrame e m.tier oa)
    let s := s.updMigration m.id (fun m => { m with page := none, moved := m.moved + 1, lastByte := some s.tick })
    let hit := s.faults.find? (fun f => f.ctx == m.ctx && decide (va < (f.page + 1) * 65536) && decide (f.page * 65536 < va + leafSize e))
    match hit with
    | some f => s.push (.pageFaultResolved f.ctx f.va)
    | none => s

/-- Commands that wait on a page of a range take up their work again (R140). -/
def Core.retryRange (c : Core) (ctx base len now : Nat) : Core :=
  let f := fun (x : Command) =>
    match x.state with
    | .fault va => if x.ctx = ctx ∧ base ≤ va ∧ va < base + len then { x with state := .accepted now } else x
    | _ => x
  { c with queue0 := c.queue0.map f, queue1 := c.queue1.map f }

/-- Every waiting command of a context takes up its work again where a range has become valid. -/
def State.retryRange (s : State) (ctx base len : Nat) : State :=
  { s with cores := tmap (fun _ c => c.retryRange ctx base len s.now) s.cores }

/-- MIGRATION_PAGE (R150): one page's first step, or its copy and its new entry once its INVTLB has completed; the end of the
migration when no page is left, or when its instance or context has ended (R474). -/
def execMigrationPage (id : Nat) (s : State) : Out :=
  match s.migrations.find? (fun m => m.id == id) with
  | none => .next s
  | some m =>
    match m.page with
    | some (va, e, inv, oa) =>
      if s.invs.any (fun v => v.id == inv) then .next s
      else .next (s.finishPage m va e oa)
    | none =>
      let gone := match m.owner with
        | some (n, id) => match (s.core n).command id with | some x => x.killed | none => true
        | none => false
      match m.pages with
      | [] => .next (s.endMigration m 0)
      | va :: _ => if gone then .next (s.endMigration m 0) else .next (s.beginPage m va)

/-- INVTLB (R139): cached items in the scope go; the INVTLB is in progress. -/
def execInvtlb (scope : Fin 3) (ctx base len : Nat) (s : State) : Out :=
  let s := s.issueInv scope.val ctx base len false
  .next (s.dropCached ⟨0, scope.val, ctx, base, len, false⟩)

/-- INVTLB_COMPLETE (R139): no cache holds the scope; every access of the model is performed in the step that translates it, so
no command still uses such a translation. -/
def execInvtlbComplete (id : Nat) (s : State) : Out :=
  match s.invs.find? (fun v => v.id == id) with
  | none => .next s
  | some v =>
    let s := { s.dropCached v with invs := s.invs.filter (fun w => w.id ≠ id) }
    .next (if v.mailbox then s.reply 0xC002 0 [] else s)

/-! ### A memory channel emptied by the GS (R39) -/

/-- A frame stays where it is when a channel leaves: it lies in what remains of its tier, in domains of its hash code. -/
def State.staysIn (new : State) (tier e : Nat) : Bool := leafTier e != tier || new.frameOk tier e (entryOut e)

/-- The pages of a context that the GS must move before a channel of a tier leaves. -/
def State.displaced (s : State) (tier ch ctx : Nat) : List Nat :=
  ((s.entriesOf ctx).filterMap (fun p =>
    if bit p.2 1 && !(s.withoutChannel tier ch).staysIn tier p.2 then some (p.1 / leafSize p.2 * leafSize p.2) else none)).eraseDups

/-- A range of a tier keeps its address when a channel leaves. -/
def State.rangeStays (s : State) (tier ch pa n : Nat) : Bool :=
  s.tierOf pa != some tier || (s.withoutChannel tier ch).tierHolds tier pa n

/-- A table that would lose its address with a channel: where it stands, and its bytes (an L0 table has 4 entries). -/
def State.strayTable (s : State) (tier ch : Nat) : Option (Nat × Nat) :=
  let all := s.contexts.flatMap (fun p => (p.2.l0, 32) :: ((s.tableEntries p.1).map (fun q => (entryOut q.2, 65536))))
  all.find? (fun x => !s.rangeStays tier ch x.1 x.2)

/-- A table given another place: its blocks are copied, every entry that names it and every context whose L0 table it is follow, and no cache
keeps what was read of it. -/
def State.moveTable (s : State) (tier old n new : Nat) : State :=
  let up := (s.contexts.flatMap (fun p => s.tableEntries p.1)).eraseDups.filter (fun q => decide (entryOut q.2 = old))
  let first := old / 128 * 128
  let s := (List.range ((old + n - first + 127) / 128)).foldl (fun s k => s.copyBlock tier (first + 128 * k) tier (new - old % 128 + 128 * k)) s
  let s := up.foldl (fun s q => match s.tierOf q.1 with
    | some t => (s.writePlain t q.1 (bytesOfNat 8 (q.2 - old + new))).1
    | none => s) s
  { s with contexts := tmap (fun _ (c : Context) => if c.l0 = old then { c with l0 := new } else c) s.contexts }.dropCached ⟨0, 0, 0, 0, 0, false⟩

/-- The GS moves a table off a channel that is to leave. Which place is free for it the spec does not say, so the one taken is a free value, as for
a page's frame (DESIGN CHOICE, log 59). -/
def State.emptyTables (s : State) (tier ch : Nat) : State :=
  match s.strayTable tier ch with
  | none => s
  | some (old, n) =>
    let f := s.free
    let new := tierBase tier + f.1 % (f.2.tierBytes tier / 65536) * 65536 + old % 65536
    if f.2.rangeStays tier ch new n then f.2.moveTable tier old n new else f.2

/-- What has no page that could be moved keeps its address: the pages of a weight set under verification, whose entries stand at V = 0 (R418), and
the units and records of a reduction window (R405). -/
def State.heldStays (s : State) (tier ch : Nat) : Bool :=
  s.wsets.all (fun w => w.entries.all (fun x => (s.withoutChannel tier ch).staysIn tier x.2.2))
    && s.windows.all (fun w => s.rangeStays tier ch (w.2.base % 2 ^ 42) w.2.size && s.rangeStays tier ch (w.2.record % 2 ^ 42) (w.2.size / 16))

/-- The GS moves the pages of every context off a channel: one migration for each context that has any. -/
def State.emptyChannel (s : State) (tier ch : Nat) : State :=
  s.contexts.foldl (fun s p =>
    match s.displaced tier ch p.1 with
    | [] => s
    | pages =>
      { s with migrations := s.migrations ++ [⟨s.nextOp, p.1, pages, tier, none, 0, 0, none, none, some ch⟩], nextOp := s.nextOp + 1 }) s

/-! ### The operations (R318) -/

/-- CTOUCH (R329). -/
def execCtouch (g b : Fin 16) (o : Fin 4) (c : Fin 8) (sa sb : Fin 64) (i : Fin 32768) (s : State) : Out :=
  commandOp (.ctouch g b o c sa sb i) s

/-- CFLUSH (R329). -/
def execCflush (g b : Fin 16) (o : Fin 4) (c : Fin 8) (sa sb : Fin 64) (i : Fin 32768) (s : State) : Out :=
  commandOp (.cflush g b o c sa sb i) s

/-- CMAP (R328). -/
def execCmap (g b : Fin 16) (o : Fin 4) (c : Fin 8) (sa : Fin 64) (i : Fin 16) (s : State) : Out :=
  commandOp (.cmap g b o c sa i) s

/-- CMIGR (R330). -/
def execCmigr (g b : Fin 16) (o : Fin 4) (c : Fin 8) (sa sb sc : Fin 64) (w : Fin 8) (s : State) : Out :=
  commandOp (.cmigr g b o c sa sb sc w) s

/-- CPFX (R331). -/
def execCpfx (g b : Fin 16) (sa sb : Fin 64) (s : State) : Out := commandOp (.cpfx g b sa sb) s

end Sys2Proof.Machine
end

