-- ==== Sys2Proof/Machine/Pipe.lean ====
section
/-! DEFINITION. Pipes between the teams of a gang, and team barriers (R338-R342, R484). -/

namespace Sys2Proof.Machine

/-! ### Pipe declarations (R230, R338) -/

/-- The pipe record of an image for a number and a direction. -/
def Image.pipe (i : Image) (p : Nat) (recv : Bool) : Option PipeRec := i.pipes.find? (fun r => r.num == p && r.recv == recv)

/-- The pipe record of a core's image. -/
def Core.pipe (c : Core) (p : Nat) (recv : Bool) : Option PipeRec :=
  match c.image with
  | some i => i.pipe p recv
  | none => none

/-- The team of an instance that declares a pipe in a direction. -/
def State.pipeTeam (s : State) (inst p : Nat) (recv : Bool) : Option (Nat × Team) :=
  (s.teamsOf inst).find? (fun t => (t.2.image.pipe p recv).isSome)

/-- An endpoint is that of the member on a core (R338); a staged team's stand beside it. -/
def State.endpointIs (s : State) (core p : Nat) (e : Endpoint) : Bool :=
  e.core == core && e.pipe == p && decide ((s.core core).team = some e.team)

/-- The endpoint of a member on a core (R338). -/
def State.endpoint (s : State) (core p : Nat) : Option Endpoint := (s.cluster (clusterOf core)).endpoints.find? (s.endpointIs core p)

/-- An endpoint changed. -/
def State.updEndpoint (s : State) (core p : Nat) (f : Endpoint → Endpoint) : State :=
  s.updCluster (clusterOf core) (fun k =>
    { k with endpoints := k.endpoints.map (fun e => if s.endpointIs core p e then f e else e) })

/-- The receiving member that a PSEND names (R339): its core. -/
def State.receiver (s : State) (n p rank : Nat) : Option Nat :=
  match s.teamOf n with
  | none => none
  | some t =>
    match s.pipeTeam t.2.inst p true with
    | none => none
    | some r => (r.2.members.find? (fun m => m.rank == rank)).map Member.core

/-- A member has closed its send side: by PCLOSE or by EXIT (R341). -/
def State.memberClosed (s : State) (p : Nat) (m : Member) : Bool := m.exited || (s.core m.core).closed.contains p

/-- The pipe is closed at the endpoints of a core: every member of the sending team has closed it (R341). -/
def State.pipeClosed (s : State) (core p : Nat) : Bool :=
  match s.teamOf core with
  | none => true
  | some t =>
    match s.pipeTeam t.2.inst p false with
    | none => true
    | some x => x.2.members.all (s.memberClosed p)

/-! ### PSEND (R339) -/

/-- Local address of the record. -/
def Command.recordAt (x : Command) : Nat := x.a.toNat + 64 * x.f.imm

/-- Record size of a command's pipe. -/
def State.recordSize (s : State) (n : Nat) (x : Command) (recv : Bool) : Nat :=
  (((s.core n).pipe x.f.d.val recv).map PipeRec.size).getD 0

/-- Checks of a PSEND at acceptance. -/
def State.psendStatus (s : State) (n : Nat) (x : Command) : Option Nat :=
  let p := x.f.d.val
  firstStatus [
    failIf ((s.core n).pipe p false).isNone stArg,
    failIf ((s.core n).outside x.recordAt (s.recordSize n x false)).isSome stArg,
    failIf ((s.core n).closed.contains p) stClosed,
    failIf (s.receiver n p x.b.toNat).isNone stRank,
    s.localStatus n x.ctx x.recordAt (s.recordSize n x false)]

/-- A waiting PRECV of a core is told of a record or a close. -/
def State.tellReceiver (s : State) (core p : Nat) : State :=
  match ((s.core core).queue0 ++ (s.core core).queue1).find? (fun x =>
      decide (x.state = .waiting) && (match x.op with | .precv .. => true | _ => false) && x.f.d.val == p) with
  | some x => { s with agenda := s.agenda ++ [.event (.precvReceive core x.id)] }
  | none => s

/-- Every PSEND that waits at an endpoint is told of room or a close. -/
def State.tellSenders (s : State) (core p : Nat) : State :=
  match s.endpoint core p with
  | some e => { s with agenda := s.agenda ++ e.senders.map (fun w => .event (.psendStore w.1 w.2)) }
  | none => s

/-- The steps of a PSEND: the record is read, and then sent. -/
def State.psendSteps (s : State) (n : Nat) (x : Command) : List CStep :=
  pieceSteps ⟨0, 0, 0⟩ (readLocals x.recordAt (s.recordSize n x false) ++ [.home])

/-- A PSEND at its endpoint: CLOSED, or the record is stored, or it waits for room behind those that came first. -/
def State.psendStep (s : State) (n : Nat) (x : Command) : State × Prog :=
  let p := x.f.d.val
  match s.receiver n p x.b.toNat with
  | none => (s, .fail stRank)
  | some r =>
    match s.endpoint r p with
    | none => (s, .fail stClosed)
    | some e =>
      let s := s.updEndpoint r p (fun e => { e with senders := e.senders.filter (fun w => w ≠ (n, x.id)) })
      if e.closed || (s.core n).closed.contains p then (s, .fail stClosed)
      else if e.records.length < e.depth ∧ (e.senders.head? = none ∨ e.senders.head? = some (n, x.id)) then
        let s := s.updEndpoint r p (fun e => { e with records := e.records ++ [((s.core n).csr.teamRank.toNat, x.buf)] })
        ((s.tellReceiver r p).tellSenders r p, .ok)
      else
        (s.updEndpoint r p (fun f => { f with senders := if e.senders.contains (n, x.id) then e.senders else e.senders ++ [(n, x.id)] }),
          .wait .waiting)

/-- A command that a stop withdraws rather than drains (R64, R341): an armed WAITA, a PSEND that is not sent or a PRECV that has received
nothing, or a TBAR's wait (DEDUCED, log 45). -/
def Command.withdrawn (x : Command) : Bool :=
  match x.op with
  | .waita .. => decide (x.state = .armed)
  | .psend .. => decide (x.done = 0) || !x.buf.isEmpty
  | .precv .. => decide (x.done = 0)
  | .tbar .. => decide (x.state = .waiting)
  | _ => false

/-! ### PRECV (R340) -/

/-- Checks of a PRECV at acceptance. -/
def State.precvStatus (s : State) (n : Nat) (x : Command) : Option Nat :=
  firstStatus [
    failIf ((s.core n).pipe x.f.d.val true).isNone stArg,
    failIf (s.slotBad n x.c.toNat 8) stArg,
    s.localStatus n x.ctx x.recordAt (s.recordSize n x true),
    failIf (s.slotOwner n x.ctx x.c.toNat 8) stOwner]

/-- The steps of a PRECV: a record or the close is received; then the record is written, if there is one, and the status. -/
def Command.precvSteps (x : Command) (n : Nat) : List CStep :=
  let len := x.buf.length - 8
  pieceSteps ⟨0, 0, 0⟩ (.home :: (if x.done = 0 then [] else
    writeLocals n x.recordAt 0 len 0 true ++ writeLocals n x.c.toNat 0 8 len false))

/-- A PRECV at its endpoint: the oldest record and its status, or CLOSED, or it waits (DEDUCED, log 32). -/
def State.precvStep (s : State) (n : Nat) (x : Command) : State × Prog × List Byte :=
  let p := x.f.d.val
  match s.endpoint n p with
  | none => (s, .ok, bytesOfNat 8 2)
  | some e =>
    match e.records with
    | (rank, bs) :: rest =>
      let s := s.updEndpoint n p (fun e => { e with records := rest })
      (s.tellSenders n p, .ok, bs ++ bytesOfNat 8 (1 + rank * 2 ^ 16 + bs.length * 2 ^ 32))
    | [] => if s.pipeClosed n p then (s, .ok, bytesOfNat 8 2) else (s, .wait .waiting, [])

/-! ### PCLOSE (R341) -/

/-- Every waiting PRECV of the receiving team is told that a sender has closed. -/
def State.tellClosed (s : State) (n p : Nat) : State :=
  match s.teamOf n with
  | none => s
  | some t =>
    match s.pipeTeam t.2.inst p true with
    | none => s
    | some r => r.2.members.foldl (fun s m => s.tellReceiver m.core p) s

/-- The send side of a core's pipe is closed. -/
def State.closeSend (s : State) (n p : Nat) : State :=
  (s.updCore n (fun c => { c with closed := if c.closed.contains p then c.closed else c.closed ++ [p] })).tellClosed n p

/-- The receive side of a core's pipe is closed: its records are discarded. -/
def State.closeRecv (s : State) (n p : Nat) : State :=
  (s.updEndpoint n p (fun e => { e with records := [], closed := true })).tellSenders n p

/-- PCLOSE performed. -/
def State.performPclose (s : State) (n : Nat) (x : Command) : State :=
  let p := x.f.d.val
  let s := if ((s.core n).pipe p false).isSome then s.closeSend n p else s.closeRecv n p
  s.endCommand n x.id 0

/-- Checks of a PCLOSE at acceptance. -/
def State.pcloseStatus (s : State) (n : Nat) (x : Command) : Option Nat :=
  failIf (((s.core n).pipe x.f.d.val false).isNone && ((s.core n).pipe x.f.d.val true).isNone) stArg

/-! ### Team barriers (R342) -/

/-- A barrier of a team. -/
def Team.bar (t : Team) (k : Nat) : TeamBar := t.bars.getD k ⟨0, [], []⟩

/-- A team with one of its barriers replaced. -/
def Team.setBar (t : Team) (k : Nat) (b : TeamBar) : Team := { t with bars := t.bars.set k b }

/-- The generation is complete: every member has arrived or has executed EXIT. -/
def Team.complete (t : Team) (b : TeamBar) : Bool := t.members.all (fun m => m.exited || b.now.contains m.rank)

/-- The next generation becomes current. -/
def TeamBar.advance (b : TeamBar) : TeamBar := { gen := b.gen + 1, now := b.next, next := [] }

/-- A TBAR of a core that waits on a generation which is past. -/
def waitsOn (k gen : Nat) (x : Command) : Bool :=
  decide (x.state = .waiting) && (match x.op with | .tbar .. => true | _ => false) && x.f.d.val == k && decide (nth x.slot 0 < gen)

/-- TBARs of a team's resident members whose generation is complete end. -/
def State.endTbars (s : State) (tn : Nat) (t : Team) (k gen : Nat) : State :=
  (t.members.filter (fun m => decide ((s.core m.core).team = some tn))).foldl
    (fun s m =>
      (((s.core m.core).queue0 ++ (s.core m.core).queue1).filter (waitsOn k gen)).foldl
        (fun s x => s.endCommand m.core x.id 0) s) s

/-- A team barrier settled (R342): a complete generation ends, and so may the one that follows it. -/
def State.settleBar (s : State) (tn k : Nat) : State :=
  match s.team tn with
  | none => s
  | some t =>
    let b := t.bar k
    if t.complete b then
      let b := b.advance
      let b := if t.complete b && !b.now.isEmpty then b.advance else b
      (s.updTeam tn (fun t => t.setBar k b)).endTbars tn t k b.gen
    else s

/-- An arrival: which generation it counts toward, or `none` where the member has arrived in both. -/
def TeamBar.arrive (b : TeamBar) (rank : Nat) : Option (TeamBar × Nat) :=
  if b.now.contains rank then
    if b.next.contains rank then none else some ({ b with next := b.next ++ [rank] }, b.gen + 1)
  else some ({ b with now := b.now ++ [rank] }, b.gen)

/-- A TBAR or BARSIG performed. A core that belongs to no team is a team of its own. -/
def State.performArrival (s : State) (n : Nat) (x : Command) (waits : Bool) : State :=
  let k := x.f.d.val
  match s.teamOf n with
  | none => s.endCommand n x.id 0
  | some (tn, t) =>
    match (t.bar k).arrive (s.core n).csr.teamRank.toNat with
    | none => s.endCommand n x.id stArg
    | some (b, gen) =>
      let s := s.updTeam tn (fun t => t.setBar k b)
      let s := if waits then s.updCore n (fun c => c.updCommand x.id (fun y => { y with state := .waiting, slot := [gen] }))
               else s.endCommand n x.id 0
      s.settleBar tn k

/-! ### The operations (R318) -/

/-- PSEND (R339). -/
def execPsend (g b : Fin 16) (o : Fin 4) (c : Fin 8) (d : Fin 16) (sa sb : Fin 64) (i : Fin 32768) (s : State) : Out :=
  commandOp (.psend g b o c d sa sb i) s

/-- PRECV (R340). -/
def execPrecv (g b : Fin 16) (o : Fin 4) (c : Fin 8) (d : Fin 16) (sa sc : Fin 64) (i : Fin 32768) (s : State) : Out :=
  commandOp (.precv g b o c d sa sc i) s

/-- PCLOSE (R341). -/
def execPclose (g b d : Fin 16) (s : State) : Out := commandOp (.pclose g b d) s

/-- TBAR (R342) (DEDUCED, log 79). -/
def execTbar (g b : Fin 16) (o : Fin 4) (c : Fin 8) (d : Fin 16) (s : State) : Out := commandOp (.tbar g b o c d) s

/-- BARSIG (R342). -/
def execBarsig (g : Fin 16) (o : Fin 4) (c : Fin 8) (d : Fin 16) (s : State) : Out := commandOp (.barsig g o c d) s

end Sys2Proof.Machine
end

