-- ==== Sys2Proof/Machine/Ixe.lean ====
section
/-! DEFINITION. The index engine: KBP lists, query contexts and the nine IX commands (R345-R363). -/

namespace Sys2Proof.Machine

/-! ### Contexts (R345, R350) -/

/-- The physical context bound to a handle of a core, with its number. -/
def State.query (s : State) (n h : Nat) : Option (Nat × Query) :=
  (s.cluster (clusterOf n)).queries.find? (fun p => p.2.core == n && p.2.handle.val == h)

/-- A physical context replaced. -/
def State.setQuery (s : State) (cl k : Nat) (q : Query) : State :=
  s.updCluster cl (fun c => { c with queries := tset c.queries k q })

/-- A physical context freed (R360). -/
def State.dropQuery (s : State) (cl k : Nat) : State := s.updCluster cl (fun c => { c with queries := tdel c.queries k })

/-- Every context of a core ends (R360). -/
def State.closeQueries (s : State) (n : Nat) : State :=
  s.updCluster (clusterOf n) (fun c => { c with queries := c.queries.filter (fun p => p.2.core ≠ n) })

/-- A free physical context, lowest first. -/
def Cluster.freeQuery (c : Cluster) : Option Nat := (List.range 16).find? (fun k => (tfind c.queries k).isNone)

/-- Candidates that the open contexts of an engine may hold (R345). -/
def Cluster.store (c : Cluster) : Nat := (c.queries.map (fun p => p.2.capacity)).sum

/-! ### Sets of candidates in ascending ID -/

/-- The entry of an ID. -/
def scoreOf (l : List Scored) (d : Nat) : Option (BitVec 32) := (l.find? (fun x => x.1 == d)).map Prod.snd

/-- The list with the entry of an ID set. -/
def setScore : List Scored → Nat → BitVec 32 → List Scored
  | [], d, v => [(d, v)]
  | (e, w) :: rest, d, v =>
    if e = d then (d, v) :: rest else if d < e then (d, v) :: (e, w) :: rest else (e, w) :: setScore rest d v

/-- C, with UNSET counting as empty (R350). -/
def Query.lexical (q : Query) : List Scored := q.lex.getD []

/-- R: the candidates of a context in ascending ID. -/
def Query.candidates (q : Query) : List Nat :=
  (q.vec.foldl (fun l p => if (scoreOf l p.1).isSome then l else setScore l p.1 0) q.lexical).map Prod.fst

/-- A context with its phase set to OPEN, if it stays within its capacity (R349, R350). -/
def Query.reopen (q : Query) : Except Nat Query :=
  if q.capacity < q.candidates.length then .error stCapacity else .ok { q with ranked := false }

/-! ### KBP lists (R346-R348) -/

/-- Global bytes read by the IXE of a cluster. -/
def State.ixRead (s : State) (cl ctx va len : Nat) : State × Except Prog (List Byte) :=
  (piecesOf va len).foldl
    (fun (r : State × Except Prog (List Byte)) p =>
      match r.2 with
      | .error _ => r
      | .ok bs =>
        match r.1.accessMap cl ctx p.1 p.2 false false with
        | (s, .error e) => (s, .error e)
        | (s, .ok page) =>
          match s.readPage ctx page p.2 with
          | (s, .ok y) => (s, .ok (bs ++ y))
          | (s, .error e) => (s, .error e))
    (s, .ok [])

/-- Skip table: LAST and OFFSET of each block. -/
def skipEntries (n : Nat) (bs : List Byte) : List (Nat × Nat) := (words8 n bs).map (fun w => (w % 2 ^ 32, w / 2 ^ 32))

/-- Each value is below the next. -/
def ascending : List Nat → Bool
  | a :: b :: rest => decide (a < b) && ascending (b :: rest)
  | _ => true

/-- The header of a list is well formed (R346, R348). -/
def headerOk (h : List Byte) : Bool :=
  natOfBytes (h.take 4) == 0x0150424B && natOfBytes (h.drop 12) == 0
    && decide (1 ≤ natOfBytes ((h.drop 4).take 4)) && decide (natOfBytes ((h.drop 4).take 4) ≤ 16777216)

/-- The skip table is well formed (R348). -/
def skipOk (t : List (Nat × Nat)) : Bool :=
  ascending (t.map Prod.fst) && ascending (t.map Prod.snd)
    && t.all (fun e => decide ((16 + 8 * t.length + 15) / 16 ≤ e.2))

/-- IDs of a block from its deltas (R348). -/
def blockIds (dw : Nat) (v : Nat) : Nat → Nat → Nat → List Nat
  | 0, _, _ => []
  | c + 1, i, id => id :: blockIds dw v c (i + 1) (id + v / 2 ^ (i * dw) % 2 ^ dw + 1)

/-- A block's postings, ID and impact, or nothing where it is not well formed (R347, R348). `last` is its skip entry. -/
def decodePosts (h data : List Byte) (last : Nat) : Option (List (Nat × Nat)) :=
  let w := natOfBytes h
  let c := bits w 79 73 + 1
  let dw := bits w 68 64
  let iw := bits w 72 69
  let nd := ((c - 1) * dw + 7) / 8
  let ids := blockIds dw (natOfBytes (data.take nd)) c 0 (bits w 31 0)
  let imps := els (natOfBytes (data.drop nd)) iw c
  if bits w 127 96 = 0 ∧ bits w 95 80 = nd + (c * iw + 7) / 8 ∧ ids.all (fun d => decide (d < 2 ^ 32)) = true
      ∧ ids.getLast? = some (bits w 63 32) ∧ bits w 63 32 = last then
    some (ids.zip imps)
  else none

/-- Blocks of a list: number, LAST and OFFSET, with the LAST of the block before. -/
def blocksOf : Nat → Option Nat → List (Nat × Nat) → List (Option Nat × Nat × Nat)
  | _, _, [] => []
  | i, prev, (last, off) :: rest => (prev, last, off) :: blocksOf (i + 1) (some last) rest

/-- One block read and decoded: DATA where it is not well formed (R348). -/
def State.readPosts (s : State) (cl ctx addr : Nat) (b : Option Nat × Nat × Nat) : State × Except Prog (List (Nat × Nat)) :=
  let a := addr + 16 * b.2.2
  if !rangeOk a 16 then (s, .error (.fail stRange))
  else
    match s.ixRead cl ctx a 16 with
    | (s, .error e) => (s, .error e)
    | (s, .ok h) =>
      let len := bits (natOfBytes h) 95 80
      if !rangeOk (a + 16) len then (s, .error (.fail stRange))
      else
        match s.ixRead cl ctx (a + 16) len with
        | (s, .error e) => (s, .error e)
        | (s, .ok d) =>
          match decodePosts h d b.2.1 with
          | none => (s, .error (.fail stData))
          | some ps =>
            let first := (ps.map Prod.fst).headD 0
            if (match b.1 with | some p => decide (first ≤ p) | none => false) then (s, .error (.fail stData))
            else (s, .ok ps)

/-- Whether a block can hold one of the IDs (R355): its range is known from the skip table. -/
def blockNeeded (cand : Option (List Nat)) (b : Option Nat × Nat × Nat) : Bool :=
  match cand with
  | none => true
  | some l => l.any (fun d => decide (d ≤ b.2.1) && (match b.1 with | some p => decide (p < d) | none => true))

/-- The postings of an attached list that a command reads: every block, or, where `skip`, only those that its result can
depend on (R348, R355). -/
def State.readTerm (s : State) (cl ctx : Nat) (t : Term) (cand : Option (List Nat)) (skip : Bool) :
    State × Except Prog (List (Nat × Nat)) :=
  match s.ixRead cl ctx (t.addr + 16) (8 * t.nblk) with
  | (s, .error e) => (s, .error e)
  | (s, .ok bs) =>
    let all := blocksOf 0 none (skipEntries t.nblk bs)
    let blocks := if skip then all.filter (blockNeeded cand) else all
    let r := blocks.foldl
      (fun (r : State × Except Prog (List (Nat × Nat))) b =>
        match r.2 with
        | .error _ => r
        | .ok ps =>
          match r.1.readPosts cl ctx t.addr b with
          | (s, .ok qs) => (s, .ok (ps ++ qs))
          | (s, .error e) => (s, .error e))
      (s, .ok [])
    match r with
    | (s, .ok ps) => if blocks.length = all.length ∧ ps.length ≠ t.npost then (s, .error (.fail stData)) else (s, .ok ps)
    | r => r

/-! ### What the lists of a command occupy, without an access (R168, R175) -/

/-- Global bytes as the tables map them now; a page that is not mapped shows zeros. -/
def State.look (s : State) (ctx va n : Nat) : List Byte :=
  (piecesOf va n).flatMap (fun p =>
    match s.peekLeaf ctx p.1 with
    | some e => s.peek (leafTier e) (leafPa e p.1) p.2
    | none => List.replicate p.2 0)

/-- The header and the skip table of the list at an address. -/
def State.tableRange (s : State) (ctx addr : Nat) : Nat × Nat :=
  (addr, 16 + 8 * min 16777216 (natOfBytes (s.look ctx (addr + 4) 4)))

/-- The skip table and the blocks of an attached list. -/
def State.listRanges (s : State) (ctx : Nat) (t : Term) : List (Nat × Nat) :=
  (t.addr, 16 + 8 * t.nblk) :: (skipEntries t.nblk (s.look ctx (t.addr + 16) (8 * t.nblk))).map (fun e =>
    let a := t.addr + 16 * e.2
    (a, 16 + bits (natOfBytes (s.look ctx a 16)) 95 80))

/-! ### Phases and operands, checked at the start (R352) -/

/-- The terms that a mask names, ascending. -/
def maskTerms (m : Nat) : List Nat := setBits m 32

/-- A term mask breaks R355's conditions. -/
def maskBad (q : Query) (m : Nat) : Bool :=
  m == 0 || decide (2 ^ 32 ≤ m) || (maskTerms m).any (fun t => (tfind q.terms t).isNone)

/-- IXOPEN's s(sK) breaks R353's conditions. -/
def openBad (k : Nat) : Bool :=
  bits k 15 0 == 0 || decide (1024 < bits k 15 0) || bits k 20 16 == 0 || decide (16 < bits k 20 16) || decide (2 ^ 21 ≤ k)

/-- Local conditions of IXVEC (R357). -/
def State.ixvecStatus (s : State) (n : Nat) (x : Command) : Option Nat :=
  firstStatus [
    failIf (x.b = 0 || decide (65536 < x.b.toNat) || x.a.toNat % 8 ≠ 0) stArg,
    s.localStatus n x.ctx x.a.toNat (8 * x.b.toNat)]

/-- Local conditions of IXDRAIN (R359). -/
def State.ixdrainStatus (s : State) (n : Nat) (x : Command) (k : Nat) : Option Nat :=
  firstStatus [
    failIf (x.a.toNat % 64 ≠ 0 || s.slotBad n x.c.toNat 8) stArg,
    s.localStatus n x.ctx x.a.toNat (16 * k),
    failIf (s.slotOwner n x.ctx x.c.toNat 8) stOwner]

/-- The checks that an IX command makes when it starts. -/
def State.ixStatus (s : State) (n : Nat) (x : Command) : Option Nat :=
  let cl := s.cluster (clusterOf n)
  match x.op, s.query n x.f.d.val with
  | .ixopen .., none =>
    firstStatus [
      failIf (openBad x.b.toNat) stArg,
      failIf (cl.freeQuery.isNone || decide (65536 < cl.store + bits x.b.toNat 20 16 * 1024)) stCapacity]
  | .ixopen .., some _ => some stContext
  | _, none => some stContext
  | .ixlist .., some _ =>
    firstStatus [failIf (x.a.toNat % 16 ≠ 0) stArg, failIf (!rangeOk x.a.toNat 16) stRange]
  | .ixand .., some q => failIf (maskBad q.2 x.a.toNat) stArg
  | .ixor .., some q => failIf (maskBad q.2 x.a.toNat) stArg
  | .ixscore .., some q => failIf (maskBad q.2 x.a.toNat) stArg
  | .ixvec .., some _ => s.ixvecStatus n x
  | .ixdrain .., some q => if q.2.ranked then s.ixdrainStatus n x q.2.k else some stContext
  | _, some _ => none

/-! ### The work of each command (R353-R360) -/

/-- IXOPEN. -/
def State.ixOpen (s : State) (n : Nat) (x : Command) : State × Prog :=
  let cl := s.cluster (clusterOf n)
  let cap := bits x.b.toNat 20 16 * 1024
  match cl.freeQuery with
  | none => (s, .fail stCapacity)
  | some k =>
    if 65536 < cl.store + cap then (s, .fail stCapacity)
    else
      (s.setQuery (clusterOf n) k
        { core := n, handle := x.f.d, ranked := false, alpha := x.a.setWidth 32, beta := (x.a >>> 32).setWidth 32,
          k := bits x.b.toNat 15 0, capacity := cap, terms := [], lex := none, vec := [], list := [] }, .ok)

/-- IXLIST. -/
def State.ixList (s : State) (n : Nat) (x : Command) (k : Nat) (q : Query) : State × Prog :=
  let cl := clusterOf n
  let a := x.a.toNat
  match s.ixRead cl x.ctx a 16 with
  | (s, .error e) => (s, e)
  | (s, .ok h) =>
    let nblk := natOfBytes ((h.drop 4).take 4)
    if !headerOk h then (s, .fail stData)
    else if !rangeOk a (16 + 8 * nblk) then (s, .fail stRange)
    else
      match s.ixRead cl x.ctx (a + 16) (8 * nblk) with
      | (s, .error e) => (s, e)
      | (s, .ok t) =>
        if !skipOk (skipEntries nblk t) then (s, .fail stData)
        else
          let term : Term := ⟨a, x.b.setWidth 32, nblk, natOfBytes ((h.drop 8).take 4)⟩
          (s.setQuery cl k { q with ranked := false, terms := tset q.terms x.f.imm term }, .ok)

/-- The lists that a mask names, read one after another; `cand` narrows as an intersection is formed. -/
def State.readTerms (s : State) (cl ctx : Nat) (q : Query) (inter skip : Bool) :
    List Nat → Option (List Nat) → State × Except Prog (Tbl (List (Nat × Nat)))
  | [], _ => (s, .ok [])
  | t :: rest, cand =>
    match tfind q.terms t with
    | none => (s, .error (.fail stArg))
    | some tm =>
      match s.readTerm cl ctx tm cand skip with
      | (s, .error e) => (s, .error e)
      | (s, .ok ps) =>
        let ids := ps.map Prod.fst
        let cand := if inter then some (match cand with | some l => l.filter ids.contains | none => ids) else cand
        match s.readTerms cl ctx q inter skip rest cand with
        | (s, .ok r) => (s, .ok ((t, ps) :: r))
        | (s, .error e) => (s, .error e)

/-- A new C: members that stay keep their score, members that enter have +0 (R355). -/
def newSet (old : List Scored) (ids : List Nat) : List Scored :=
  ids.foldl (fun l d => setScore l d ((scoreOf old d).getD 0)) []

/-- IXAND and IXOR. Which blocks beyond the needed ones IXAND reads is a free value (DESIGN CHOICE, log 33). -/
def State.ixSet (s : State) (n : Nat) (x : Command) (k : Nat) (q : Query) (inter : Bool) : State × Prog :=
  let f := s.free
  let cand := if inter then q.lex.map (fun l => l.map Prod.fst) else none
  match f.2.readTerms (clusterOf n) x.ctx q inter (inter && f.1 % 2 == 1) (maskTerms x.a.toNat) cand with
  | (s, .error e) => (s, e)
  | (s, .ok r) =>
    let sets := r.map (fun p => p.2.map Prod.fst)
    let ids :=
      if inter then
        match sets with
        | [] => []
        | l :: rest => (l.filter (fun d => rest.all (fun m => m.contains d))).filter (fun d =>
            match q.lex with | some c => (scoreOf c d).isSome | none => true)
      else q.lexical.map Prod.fst ++ sets.flatten
    match Query.reopen { q with lex := some (newSet q.lexical ids) } with
    | .ok q => (s.setQuery (clusterOf n) k q, .ok)
    | .error st => (s, .fail st)

/-- One score grows by weight times impact, rounded once (R356). -/
def addScore (w : BitVec 32) (imp : Nat) (lex : BitVec 32) : BitVec 32 :=
  BitVec.ofNat 32 (fmaElem .fp32 false .rne false false w.toNat (roundTo .fp32 (.ofInt imp) .rne).1 lex.toNat).1

/-- IXSCORE. With C UNSET or empty it reads no block (DESIGN CHOICE, log 111). -/
def State.ixScore (s : State) (n : Nat) (x : Command) (k : Nat) (q : Query) : State × Prog :=
  if q.lexical.isEmpty then (s.setQuery (clusterOf n) k { q with ranked := false }, .ok)
  else
    let f := s.free
    match f.2.readTerms (clusterOf n) x.ctx q false (f.1 % 2 == 1) (maskTerms x.a.toNat)
        (some (q.lexical.map Prod.fst)) with
    | (s, .error e) => (s, e)
    | (s, .ok r) =>
      let lex := r.foldl
        (fun l p =>
          let w := ((tfind q.terms p.1).map Term.weight).getD 0
          l.map (fun (e : Scored) => match p.2.find? (fun y => y.1 == e.1) with
            | some y => (e.1, addScore w y.2 e.2)
            | none => e))
        q.lexical
      (s.setQuery (clusterOf n) k { q with ranked := false, lex := some lex }, .ok)

/-- IXVEC, its pairs read. -/
def State.ixVec (s : State) (n : Nat) (x : Command) (k : Nat) (q : Query) : State × Prog :=
  let vec := (words8 x.b.toNat x.buf).foldl (fun l w => setScore l (w % 2 ^ 32) (BitVec.ofNat 32 (w / 2 ^ 32))) q.vec
  match Query.reopen { q with vec := vec } with
  | .ok q => (s.setQuery (clusterOf n) k q, .ok)
  | .error st => (s, .fail st)

/-- The fused score of a candidate (R358): exact inner value, one rounding. -/
def fuse (q : Query) (d : Nat) : Ranked :=
  let l := (scoreOf q.lexical d).getD 0
  let v := (scoreOf q.vec d).getD 0
  let p := Exact.mul (floatValue .fp32 q.alpha.toNat) (floatValue .fp32 l.toNat)
  let r := Exact.mul (floatValue .fp32 q.beta.toNat) (floatValue .fp32 v.toNat)
  { doc := d, f := BitVec.ofNat 32 (roundTo .fp32 (Exact.add false p.1 r.1).1 .rne).1, lex := l, vec := v }

/-- Descending f, with −0 equal to +0; then ascending ID (R358). -/
def ranksBefore (a b : Ranked) : Bool :=
  let c := Exact.compare (floatValue .fp32 a.f.toNat) (floatValue .fp32 b.f.toNat)
  decide (0 < c) || (decide (c = 0) && decide (a.doc < b.doc))

/-- Insertion in rank order. -/
def insertRank (e : Ranked) : List Ranked → List Ranked
  | [] => [e]
  | x :: rest => if ranksBefore e x then e :: x :: rest else x :: insertRank e rest

/-- The ranked list of a context. -/
def Query.rank (q : Query) : List Ranked :=
  (((q.candidates.map (fuse q)).filter (fun e => !(floatValue .fp32 e.f.toNat).isNan)).foldl (fun l e => insertRank e l) []).take
    q.k

/-- IXTOPK. -/
def State.ixTopk (s : State) (n k : Nat) (q : Query) : State × Prog :=
  (s.setQuery (clusterOf n) k { q with ranked := true, list := q.rank }, .ok)

/-- The 16 bytes of a result (R359). -/
def Ranked.bytes (r : Ranked) : List Byte :=
  bytesOfNat 4 r.doc ++ bytesOfNat 4 r.f.toNat ++ bytesOfNat 4 r.lex.toNat ++ bytesOfNat 4 r.vec.toNat

/-- The bytes that IXDRAIN writes: the entries, and then the count. -/
def Query.drain (q : Query) : List Byte := q.list.flatMap Ranked.bytes ++ bytesOfNat 8 q.list.length

/-- The steps of an IX command: IXVEC reads its pairs first; IXDRAIN writes the entries, rows of four whole, and then the count (R357, R359). -/
def Command.ixSteps (x : Command) (n : Nat) : List CStep :=
  let len := x.buf.length - 8
  pieceSteps ⟨0, 0, 0⟩ (match x.op with
    | .ixvec .. => readLocals x.a.toNat (8 * x.b.toNat) ++ [.home]
    | .ixdrain .. => .home :: (if x.done = 0 then [] else
        writeLocals n x.a.toNat 0 len 0 true ++ writeLocals n x.c.toNat 0 8 len false)
    | _ => [.home])

/-- An IX command performed at the engine. -/
def State.ixStep (s : State) (n : Nat) (x : Command) : State × Prog :=
  match s.ixStatus n x with
  | some st => (s, .fail st)
  | none =>
    match x.op, s.query n x.f.d.val with
    | .ixdrain .., some _ => (s, .ok)
    | .ixopen .., _ => s.ixOpen n x
    | _, none => (s, .fail stContext)
    | .ixlist .., some (k, q) => s.ixList n x k q
    | .ixand .., some (k, q) => s.ixSet n x k q true
    | .ixor .., some (k, q) => s.ixSet n x k q false
    | .ixscore .., some (k, q) => s.ixScore n x k q
    | .ixvec .., some (k, q) => s.ixVec n x k q
    | .ixtopk .., some (k, q) => s.ixTopk n k q
    | _, some (k, _) => (s.dropQuery (clusterOf n) k, .ok)

/-- The turn of the engine passes on when it serves a command (R361). -/
def State.ixServed (s : State) (n : Nat) (x : Command) : State :=
  match s.query n x.f.d.val with
  | some (k, _) => s.updCluster (clusterOf n) (fun c => { c with ixTurn := k })
  | none => s

/-- An IX command at the engine, with the bytes that it is to write. -/
def State.ixHomeStep (s : State) (n : Nat) (x : Command) : State × Prog × List Byte :=
  let out := match x.op, s.query n x.f.d.val with
    | .ixdrain .., some (_, q) => q.drain
    | _, _ => []
  let r := s.ixStep n x
  (r.1, r.2, out)

/-- An earlier IX command on the same handle has not ended (R352). -/
def Core.ixBehind (c : Core) (x : Command) : Bool :=
  (c.queue0 ++ c.queue1).any (fun y => isIx y.op && decide (y.id < x.id) && decide (y.f.d = x.f.d))

/-- IX_COMMAND_START (R352): once every earlier command on its handle has ended, an accepted IX command checks its phase and
operands, and starts or ends with error status. -/
def execIxCommandStart (n id : Nat) (s : State) : Out :=
  match (s.core n).command id with
  | none => .next s
  | some x =>
    match x.state with
    | .accepted _ =>
      if !isIx x.op || x.started || (s.core n).ixBehind x then .next s
      else
        match s.ixStatus n x with
        | some st => .next (s.endCommand n id st)
        | none => .next (s.updCore n (fun c => c.updCommand id (fun y => { y with started := true })))
    | _ => .next s

/-! ### The operations (R351) -/

/-- IXOPEN (R353). -/
def execIxopen (g b d : Fin 16) (sa sb : Fin 64) (s : State) : Out := commandOp (.ixopen g b d sa sb) s

/-- IXLIST (R354). -/
def execIxlist (g b : Fin 16) (o : Fin 4) (c : Fin 8) (d : Fin 16) (sa sb : Fin 64) (i : Fin 32) (s : State) : Out :=
  commandOp (.ixlist g b o c d sa sb i) s

/-- IXAND (R355). -/
def execIxand (g b d : Fin 16) (sa : Fin 64) (s : State) : Out := commandOp (.ixand g b d sa) s

/-- IXOR (R355). -/
def execIxor (g b d : Fin 16) (sa : Fin 64) (s : State) : Out := commandOp (.ixor g b d sa) s

/-- IXSCORE (R356). -/
def execIxscore (g b d : Fin 16) (sa : Fin 64) (s : State) : Out := commandOp (.ixscore g b d sa) s

/-- IXVEC (R357). -/
def execIxvec (g b : Fin 16) (o : Fin 4) (c : Fin 8) (d : Fin 16) (sa sb : Fin 64) (s : State) : Out :=
  commandOp (.ixvec g b o c d sa sb) s

/-- IXTOPK (R358). -/
def execIxtopk (g b d : Fin 16) (s : State) : Out := commandOp (.ixtopk g b d) s

/-- IXDRAIN (R359). -/
def execIxdrain (g b : Fin 16) (o : Fin 4) (c : Fin 8) (d : Fin 16) (sa sc : Fin 64) (s : State) : Out :=
  commandOp (.ixdrain g b o c d sa sc) s

/-- IXCLOSE (R360). -/
def execIxclose (g b d : Fin 16) (s : State) : Out := commandOp (.ixclose g b d) s

end Sys2Proof.Machine
end

