-- ==== Sys2Proof/Machine/Engine.lean ====
section
/-! DEFINITION. The copy engines at work: which commands are ordered, acceptance, and completion (R168-R175, R313, R317). -/

namespace Sys2Proof.Machine

/-! ### The steps of a command (R166, R168, R174) -/

/-- Address and bytes of what a command reads at its acceptance (R327, R332): its index list or its slot. -/
def Command.listSpan (x : Command) : Nat × Nat := if x.gathers then (x.indexAt, x.indexLen) else (x.slotAt, 8 * x.slotReads)

/-- What a command reads at its acceptance has not been read. -/
def Command.unlisted (x : Command) : Bool := if x.gathers then x.index.isEmpty else decide (x.slotReads ≠ 0) && x.slot.isEmpty

/-- The steps that read it, at the ports of its banks (R30). -/
def Command.listSteps (x : Command) : List CStep :=
  pieceSteps ⟨0, 0, 0⟩ ((spansOf 64 x.listSpan.1 x.listSpan.2).map (fun q => .readList q.1 q.2))

/-- The steps of a command that follow its acceptance, in order. -/
def State.workSteps (s : State) (n : Nat) (x : Command) : List CStep :=
  if isTransfer x.op then x.pieces.flatMap (x.transferSteps n)
  else if isIx x.op then x.ixSteps n
  else
    match x.op with
    | .ctouch .. => s.mapSteps n x
    | .cflush .. => s.mapSteps n x
    | .cpfx .. => x.cpfxSteps
    | .psend .. => s.psendSteps n x
    | .precv .. => x.precvSteps n
    | .cmap .. => pieceSteps ⟨0, 0, 0⟩ [.home]
    | .cmigr .. => pieceSteps ⟨0, 0, 0⟩ [.home]
    | .pclose .. => pieceSteps ⟨0, 0, 0⟩ [.home]
    | .tbar .. => pieceSteps ⟨0, 0, 0⟩ [.home]
    | .barsig .. => pieceSteps ⟨0, 0, 0⟩ [.home]
    | _ => x.atomicSteps n

/-- The steps of a command, in order. -/
def State.stepsOf (s : State) (n : Nat) (x : Command) : List CStep := x.listSteps ++ s.workSteps n x

/-- The global ranges that the act of a command at a home or at the IXE accesses (R175). -/
def State.homeRanges (s : State) (n : Nat) (x : Command) : List (Nat × Nat) :=
  let lists := match s.query n x.f.d.val with
    | some q => (maskTerms x.a.toNat).flatMap (fun t => match tfind q.2.terms t with | some tm => s.listRanges x.ctx tm | none => [])
    | none => []
  match x.op with
  | .cmigr .. => [(x.a.toNat, x.b.toNat)]
  | .ixlist .. => [s.tableRange x.ctx x.a.toNat]
  | .ixand .. => lists
  | .ixor .. => lists
  | .ixscore .. => lists
  | .adcas .. => [(x.a.toNat, x.size), (x.b.toNat, x.size)]
  | .amove .. => [(x.a.toNat, x.size), (x.b.toNat, x.size)]
  | .cmap .. => []
  | .psend .. => []
  | .precv .. => []
  | .pclose .. => []
  | .tbar .. => []
  | .barsig .. => []
  | .ixopen .. => []
  | .ixvec .. => []
  | .ixtopk .. => []
  | .ixdrain .. => []
  | .ixclose .. => []
  | _ => [(x.a.toNat, x.size)]

/-- What ordering asks of one step: the kinds of the pages that it accesses, 1 where it accesses local memory, an endpoint or a team barrier,
and whether it reads and writes. -/
structure Access where
  kinds : List Nat
  reads : Bool
  writes : Bool
  deriving DecidableEq, Repr

/-- Kinds of the pages of a range; an unknown page counts as SO (DESIGN CHOICE, log 17). -/
def State.kindsOf (s : State) (ctx : Nat) (r : Nat × Nat) : List Nat := (pagesOf r.1 r.2).map (fun va => (s.pageKind ctx va).getD 0)

/-- An act at an endpoint or a team barrier is ordered as a local access is (R163, R168). -/
def meets : Instr → Bool
  | .psend .. => true
  | .precv .. => true
  | .pclose .. => true
  | .tbar .. => true
  | .barsig .. => true
  | _ => false

/-- The terms of a set or score command are not known yet: an earlier command on its handle may attach or drop them (R352); its blocks may then
be of any kind (DESIGN CHOICE, log 17). -/
def Core.termsOpen (c : Core) (x : Command) : Bool :=
  (match x.op with | .ixand .. => true | .ixor .. => true | .ixscore .. => true | _ => false)
    && (c.queue0 ++ c.queue1).any (fun y => decide (y.id < x.id) && decide (y.f.d = x.f.d)
      && (match y.op with | .ixopen .. => true | .ixlist .. => true | .ixclose .. => true | _ => false))

/-- The access of a step. -/
def State.accessOf (s : State) (n : Nat) (x : Command) (st : CStep) : Access :=
  match st.act with
  | .readGlobal va len _ => ⟨s.kindsOf x.ctx (va, len), true, false⟩
  | .writeGlobal va len _ _ => ⟨s.kindsOf x.ctx (va, len), false, true⟩
  | .readLocal _ _ => ⟨[1], true, false⟩
  | .readList _ _ => ⟨[1], true, false⟩
  | .writeLocal _ _ _ _ _ _ => ⟨[1], false, true⟩
  | .home =>
    let k := if meets x.op then [1] else if (s.core n).termsOpen x then [0, 1] else (s.homeRanges n x).flatMap (s.kindsOf x.ctx)
    match x.op with
    | .psend .. => ⟨k, false, true⟩
    | .precv .. => ⟨k, true, false⟩
    | .pclose .. => ⟨k, false, true⟩
    | .barsig .. => ⟨k, false, true⟩
    | .waita .. => ⟨k, true, false⟩
    | _ => ⟨k, true, !isIx x.op⟩

/-- CTOUCH and CFLUSH. -/
def isMap : Instr → Bool
  | .ctouch .. => true
  | .cflush .. => true
  | _ => false

/-- The steps of a command that are still to be performed: CTOUCH and CFLUSH pass over groups when they come to them (R124). -/
def State.stepsLeft (s : State) (n : Nat) (x : Command) : List CStep :=
  let l := (s.stepsOf n x).drop x.done
  if isMap x.op then l.dropWhile (fun st => s.passes n x st.piece.row && l.head?.all CStep.first) else l

/-- Accesses of a command that are not performed; those of a gather whose index list has not been read may be of any kind (DESIGN CHOICE,
log 17). -/
def State.remaining (s : State) (n : Nat) (x : Command) : List Access :=
  if x.gathers && x.unlisted then [⟨[0, 1], true, true⟩] else (s.stepsLeft n x).map (s.accessOf n x)

/-- A command that performs no access of its own (R331). -/
def isCpfx : Instr → Bool
  | .cpfx .. => true
  | _ => false

/-- A CMAP (R328). -/
def isCmap : Instr → Bool
  | .cmap .. => true
  | _ => false

/-- Acquire and release flags (R169). PCLOSE is a release write (R341). -/
def Command.acquires (x : Command) : Bool := decide (2 ≤ x.f.order)
def Command.releases (x : Command) : Bool :=
  x.f.order % 2 == 1 || (match x.op with | .pclose .. => true | _ => false)

/-- Mode and memory-kind bit of a join (R368). -/
def joinOfOp : Instr → Nat × Bool
  | .fence m _ k => (m.val, k == 1)
  | _ => (0, false)

/-- The joins between two commands. -/
def Core.joinsBetween (c : Core) (lo hi : Nat) : List (Nat × Bool) :=
  (c.queue0.filter (fun j => isJoin j.op && decide (lo < j.id) && decide (j.id < hi))).map (fun j => joinOfOp j.op)

/-- An access of which a part lies elsewhere than in UO pages. -/
def Access.ordered (a : Access) : Bool := a.kinds.any (fun k => k ≠ 2)

/-- The earlier command `e` of core `n` holds back an access `a` of command `x` (R168, R170-R175, R328): an acquiring command until its
reads are performed, a releasing one's writes until every earlier access is, SO accesses in issue order, and what a join between the two
orders; accesses to UO pages are ordered by a memory-kind join alone (DEDUCED, log 29). The refill of a rollback waits for nothing that a pre-emption
withdraws (R378). -/
def State.holdsBack (s : State) (n : Nat) (x e : Command) (a : Access) : Bool :=
  if isCmap x.op || isCmap e.op then true
  else if x.refill && e.withdrawn then false
  else if isCpfx x.op || isCpfx e.op then false
  else
    let left := s.remaining n e
    let joins := (s.core n).joinsBetween e.id x.id
    (e.acquires && a.ordered && left.any Access.reads)
      || (x.releases && a.writes && left.any (fun r => r.ordered || joins.any Prod.snd))
      || (decide (e.state ≠ .armed) && a.kinds.contains 0 && left.any (fun r => r.kinds.contains 0))
      || joins.any (fun j =>
        (bit j.1 0 && (j.2 || a.ordered) && left.any (fun r => r.reads && (j.2 || r.ordered)))
          || (bit j.1 1 && a.writes && (j.2 || a.ordered) && left.any (fun r => j.2 || r.ordered)))

/-! ### COMMAND_ACCEPT (R317, R468) -/

/-- Joins with nothing earlier outstanding leave the queues (R183). -/
def Core.dropJoins (c : Core) : Core :=
  let old := fun (j : Command) => (c.queue0 ++ c.queue1).any (fun x => !isJoin x.op && decide (x.id < j.id))
  let keep := fun (x : Command) => !isJoin x.op || old x
  { c with queue0 := c.queue0.filter keep, queue1 := c.queue1.filter keep }

/-- The next command of an engine to be accepted, when a place among the 16 is free. -/
def Core.nextQueued (c : Core) (e : Fin 2) : Option Command :=
  let q := (c.queue e).filter (fun x => !isJoin x.op)
  if 16 ≤ (q.filter (fun x => decide (x.state ≠ .queued))).length then none else q.find? (fun x => decide (x.state = .queued))

/-- Earlier commands of the core that have not ended. -/
def Core.earlier (c : Core) (x : Command) : List Command :=
  (c.queue0 ++ c.queue1).filter (fun y => !isJoin y.op && decide (y.id < x.id))

/-- Checks at acceptance, before anything is read: the status of the first that fails. -/
def State.acceptCheck (s : State) (n : Nat) (x : Command) : Option Nat :=
  if isTransfer x.op then s.acceptTransfer n x
  else if isIx x.op then none
  else
    match x.op with
    | .ctouch .. => s.mapStatus n x
    | .cflush .. => s.mapStatus n x
    | .cmap .. => s.cmapStatus n x
    | .cmigr .. => failIf (!rangeOk x.a.toNat x.b.toNat) stRange
    | .cpfx .. => failIf (!rangeOk x.a.toNat x.b.toNat) stRange
    | .psend .. => s.psendStatus n x
    | .precv .. => s.precvStatus n x
    | .pclose .. => s.pcloseStatus n x
    | .tbar .. => none
    | .barsig .. => none
    | _ => s.atomicStatus n x

/-- When the accesses of a command accepted now are performed: no sooner than the next instant, else a free value (DESIGN CHOICE, log 6). -/
def State.dueTime (s : State) : Nat × State :=
  let f := s.free
  (s.now + 1 + f.1, f.2)

/-- The command is accepted, or ends with error status. One that has a slot or an index list to read asks for its ports at once (DEDUCED,
log 30). -/
def State.acceptCommand (s : State) (n : Nat) (x : Command) : State :=
  match s.acceptCheck n x with
  | some st => s.endCommand n x.id st
  | none =>
    let d := if x.unlisted then (s.now, s) else s.dueTime
    d.2.updCore n (fun c => c.updCommand x.id (fun y => { y with state := .accepted d.1 }))

/-- A row of what a command reads at its acceptance has been read. After the last one, the slot's doubles or the index list are there; the rows
of a gather are then checked (R468). -/
def State.listed (s : State) (n : Nat) (x : Command) (last : Bool) (bs : List Byte) : State :=
  let go := fun (s : State) (due : Nat) (y : Command) =>
    s.updCore n (fun c => c.updCommand x.id (fun _ => { y with state := .accepted due, done := x.done + 1 }))
  if !last then go s s.now { x with buf := bs }
  else
    let y := { x with buf := [], index := (if x.gathers then words4 (descRows x.desc) bs else x.index),
                      slot := (if x.gathers then x.slot else words8 x.slotReads bs) }
    match (if x.gathers then s.rowsStatus n y else none) with
    | some st => s.endCommand n x.id st
    | none => let d := s.dueTime; go d.2 d.1 y

/-- A row of it could not be read: the local rows of a gather come before its list (R468). -/
def State.listFails (s : State) (n : Nat) (x : Command) (st : Nat) : State :=
  s.endCommand n x.id ((if x.gathers then s.localRows n x else none).getD st)

/-- A held module accepts no command of the contexts that its checkpoint names (R504). -/
def State.holds (s : State) (ctx : Nat) : Bool :=
  match s.hold with
  | some h => h.2.contains ctx
  | none => false

/-- Contexts whose queues and teams stand still: the module is held for them, or a checkpoint or a restore of them is in progress
(R409, R504, R507). -/
def State.paused (s : State) (ctx : Nat) : Bool :=
  s.holds ctx
    || (match s.ckpt with | some c => c.2.1.contains ctx | none => false)
    || (match s.restoring.bind (tfind s.nodes) with | some v => v.ctxs.contains ctx | none => false)

/-- What a command accesses first: at acceptance its slot or its index list, then its first step, where that is known. -/
def State.firstAccesses (s : State) (n : Nat) (x : Command) : List Access :=
  (if x.unlisted then [⟨[1], true, false⟩] else [])
    ++ ((if x.gathers && x.unlisted then [] else if x.unlisted then s.workSteps n x else s.stepsLeft n x).take 1).map (s.accessOf n x)

/-- CMAP stands alone (R328): no later command is accepted before it completes, and it is not accepted before the earlier ones have. -/
def Core.behindCmap (c : Core) (x : Command) : Bool := (c.earlier x).any (fun e => isCmap e.op || isCmap x.op)

/-- An earlier command holds back some of the accesses of a command. -/
def State.heldBack (s : State) (n : Nat) (x : Command) (l : List Access) : Bool :=
  ((s.core n).earlier x).any (fun e => l.any (s.holdsBack n x e))

/-- COMMAND_ACCEPT (R317): the engine accepts its next command when order allows. -/
def execCommandAccept (n : Nat) (e : Fin 2) (s : State) : Out :=
  let s := s.updCore n Core.dropJoins
  match (s.core n).nextQueued e with
  | none => .next s
  | some x =>
    if s.holds x.ctx || (s.core n).behindCmap x || s.heldBack n x (s.firstAccesses n x) then .next s
    else .next (s.acceptCommand n x)

/-! ### One step of a command (R124, R166, R174, R322, R325) -/

/-- A CXFER. -/
def isCxfer : Instr → Bool
  | .cxfer .. => true
  | _ => false

/-- A CFLUSH. -/
def isFlush : Instr → Bool
  | .cflush .. => true
  | _ => false

/-- The page of an access of a command: CTOUCH and CFLUSH translate as the map unit does (R124). -/
def State.stepPage (s : State) (n : Nat) (x : Command) (va : Nat) (write : Bool) : State × Except Prog Page :=
  if isMap x.op then s.accessMap (clusterOf n) x.ctx va 1 write false else s.access n x.ctx va write

/-- A block as it is stored, and its code (R325): the sectors that it has, with 0 beyond them. -/
def State.rawBlock (s : State) (p : Page) : List Byte :=
  let b := (s.gmem p.tier).block (s.blockOf p.tier p.pa)
  padBlock (b.2.take (if b.1 = 0 then 0 else 32 * codeSectors b.1)) ++ [BitVec.ofNat 8 b.1]

/-- Global bytes inside one block read for a command. -/
def State.readStep (s : State) (n : Nat) (x : Command) (va len : Nat) (raw : Bool) : State × Prog × List Byte :=
  match s.stepPage n x va false with
  | (s, .error e) => (s, e, [])
  | (s, .ok p) =>
    if raw && p.tier == 2 then (s, .fail stArg, [])
    else
      match s.readPage x.ctx p len with
      | (s, .error e) => (s, e, [])
      | (s, .ok bs) => (s, .ok, if raw then s.rawBlock p else bs)

/-- A block stored in the form that it comes in (R325): its code, and then its bytes. -/
def State.putRaw (s : State) (p : Page) (code : Nat) (bs : List Byte) : State × Prog :=
  if reservedCode code then (s, .fail stData)
  else if p.cmp then (s.storeBlock p.tier p.pa code (padBlock (bs.take (codeBytes code))), .ok)
  else (s.storeBlock p.tier p.pa 15 (padBlock (decodeBlock code bs)), .ok)

/-- Global bytes inside one block written for a command; a CFLUSH leaves a block with an uncorrectable word poisoned (R476). -/
def State.writeStep (s : State) (n : Nat) (x : Command) (st : CStep) (va pos : Nat) (raw : Bool) (bs : List Byte) : State × Prog :=
  match s.stepPage n x va true with
  | (s, .error e) => (s, e)
  | (s, .ok p) =>
    if raw && p.tier == 2 then (s, .fail stArg)
    else if raw then s.putRaw p (natOfBytes (bs.take 1) % 16) (bs.drop 1)
    else
      match s.writePage x.ctx p bs with
      | (s, .ok) =>
        let a := st.piece.row + pos
        (if isFlush x.op && localBad (s.core n).field (s.commonsOf n) a bs.length then s.poison p.tier p.pa else s, .ok)
      | r => r

/-- Local bytes read for a command: CFLUSH takes uncorrectable words too (R476). -/
def State.takeLocal (s : State) (n : Nat) (x : Command) (a len : Nat) : State × Prog × List Byte :=
  if isFlush x.op && localBad (s.core n).field (s.commonsOf n) a len && (s.groupOf n a).valid then
    (s, .ok, x.sees a (localBytes (s.core n).field (s.commonsOf n) a len))
  else
    match s.getLocal n x a len with
    | (s, .ok bs) => (s, .ok, bs)
    | (s, .error e) => (s, e, [])

/-- The act of a command at a home, an endpoint or the IXE, with the bytes that it returns. -/
def State.homeStep (s : State) (n : Nat) (x : Command) (p : Piece) : State × Prog × List Byte :=
  if isIx x.op then (s.ixServed n x).ixHomeStep n x
  else
    match x.op with
    | .psend .. => let r := s.psendStep n x; (r.1, r.2, [])
    | .precv .. => s.precvStep n x
    | .cpfx .. => let r := s.cpfxPiece n x p.row; (r.1, r.2, [])
    | _ => s.atomicHomeStep n x

/-- A transfer that moves bytes as they are: what it has read and not yet written waits in its buffer (R174). -/
def Command.streams (x : Command) : Bool :=
  match x.op with
  | .cget .. => !x.scaled && x.f.xf != 1
  | .cput .. => !x.scaled && x.f.xf != 1
  | .cxfer .. => true
  | _ => false

/-- What a command writes: a transfer's bytes converted as its first write begins. -/
def Command.output (x : Command) (p : Piece) (pos : Nat) : List Byte := if isTransfer x.op && pos == 0 then x.convert p x.buf else x.buf

/-- A step performed: how it ends, and the bytes that the command then holds. -/
def State.runStep (s : State) (n : Nat) (x : Command) (st : CStep) : State × Prog × List Byte :=
  let held := if st.first && !x.streams then [] else x.buf
  let rest := fun (out : List Byte) (k : Nat) => if st.last && x.streams then out.drop k else out
  match st.act with
  | .readGlobal va len raw => let r := s.readStep n x va len raw; (r.1, r.2.1, held ++ r.2.2)
  | .readLocal a len => let r := s.takeLocal n x a len; (r.1, r.2.1, held ++ r.2.2)
  | .readList a len => let r := s.takeLocal n x a len; (r.1, r.2.1, held ++ r.2.2)
  | .writeGlobal va len pos raw =>
    let out := x.output st.piece pos
    let r := s.writeStep n x st va pos raw (if raw then out else (out.drop pos).take len)
    (r.1, r.2, rest out (pos + len))
  | .writeLocal t a done len pos rows =>
    let out := x.output st.piece pos
    if isCxfer x.op && !s.targetOk t x.ctx a x.rlen then (s, .fail stOwner, out)
    else (s.putSpan t a done ((out.drop pos).take len) rows, .ok, rest out (pos + len))
  | .home => s.homeStep n x st.piece

/-- Commands that are performed as a whole (R328, R330, R341, R342). -/
def State.performWhole (s : State) (n : Nat) (x : Command) : Option State :=
  match x.op with
  | .cmap .. => some (s.performCmap n x)
  | .cmigr .. => some (s.performCmigr n x)
  | .pclose .. => some (s.performPclose n x)
  | .tbar .. => some (s.performArrival n x true)
  | .barsig .. => some (s.performArrival n x false)
  | _ => none

/-- The step reads what a command reads at its acceptance. -/
def CAct.isList : CAct → Bool
  | .readList _ _ => true
  | _ => false

/-- A wait for a link counts from the first attempt of the access (R500). -/
def Command.waits (x : Command) (w : CmdState) : Command :=
  match w with
  | .link since peer => { x with state := .link (x.tried.getD since) peer, tried := some (x.tried.getD since) }
  | _ => { x with state := w }

/-- A step of a command: it goes on, waits, or ends with error status; the next step is due no sooner than the next instant. -/
def State.stepCommand (s : State) (n : Nat) (x : Command) (st : CStep) : State :=
  let start := (s.stepsOf n x).length - (s.stepsLeft n x).length
  match s.runStep n x st with
  | (s, .fail e, _) => if st.act.isList then s.listFails n x e else s.endCommand n x.id e
  | (s, .wait w, _) => s.updCore n (fun c => c.updCommand x.id (fun y => { y with done := start }.waits w))
  | (s, .ok, bs) =>
    if st.act.isList then s.listed n x st.last bs else
    let s := (s.freeHost n).freeHost (256 + clusterOf n)
    let s := if st.last && isFlush x.op then s.flushed n st.piece.row else s
    let d := s.dueTime
    d.2.updCore n (fun c => c.updCommand x.id (fun y => { y with done := start + 1, buf := bs, tried := none, state := .accepted d.1 }))

/-- Every step of a command is performed (R175, R313): it completes, a CXFER with a target signal by that signal (R322). -/
def State.completeCommand (s : State) (n : Nat) (x : Command) : State :=
  if isMap x.op && x.b != 0 && (s.mappedRegion n x).isNone then s.endCommand n x.id stArg
  else if x.signal.isSome then { s with agenda := .event (.cxferTargetSignal n x.id) :: s.agenda }
  else s.endCommand n x.id 0

/-- A command is ready for its next step: accepted, its time has come, and an IX command has started. -/
def Command.ready (x : Command) (now : Nat) : Bool :=
  match x.state with
  | .accepted due => decide (due ≤ now) && (!isIx x.op || x.started)
  | _ => false

/-- The act takes a port of a local memory (R30). -/
def CAct.isLocal : CAct → Bool
  | .readLocal _ _ => true
  | .readList _ _ => true
  | .writeLocal _ _ _ _ _ _ => true
  | _ => false

/-- COMMAND_COMPLETE (R313): a ready command performs its next step, where no earlier command holds it back, or completes when none is
left. A step at a local memory takes its turn at the port instead (R30). -/
def execCommandComplete (n id : Nat) (s : State) : Out :=
  match (s.core n).command id with
  | none => .next s
  | some x =>
    if !x.ready s.now then .next s
    else
      match s.stepsLeft n x with
      | [] => .next (s.completeCommand n x)
      | st :: _ =>
        if st.act.isLocal || (x.withdrawn && s.stopped n) || s.heldBack n x [s.accessOf n x st] then .next s
        else
          match s.performWhole n x with
          | some s => .next s
          | none => .next (s.stepCommand n x st)

/-! ### PSEND_STORE and PRECV_RECEIVE (R339, R340) -/

/-- A waiting PSEND or PRECV tries again, unless its member has stopped (R64, R341). -/
def State.retryPipe (s : State) (n id : Nat) : State :=
  match (s.core n).command id with
  | some x =>
    if x.state = .waiting ∧ s.stopped n = false then
      match s.stepsLeft n x with
      | st :: _ => s.stepCommand n x st
      | [] => s
    else s
  | none => s

/-- PSEND_STORE (R339): a waiting PSEND finds room, or its pipe closed. -/
def execPsendStore (n id : Nat) (s : State) : Out := .next (s.retryPipe n id)

/-- PRECV_RECEIVE (R340): a waiting PRECV receives a record, or the close. -/
def execPrecvReceive (n id : Nat) (s : State) : Out := .next (s.retryPipe n id)

end Sys2Proof.Machine
end

