-- ==== Sys2Proof/Machine/Calendar.lean ====
section
/-! DEFINITION. The booking calendar of a cluster: cells, the ramp, placing a furrow, anchoring, compaction, overruns, stakes
and ballast (R73-R102, R477-R482, R510, R511). The CC keeps its bookings as records (R494); the cells follow from them. -/

namespace Sys2Proof.Machine

/-! ### Cells (R75, R82, R93) -/

/-- Last tick of the horizon (R73). -/
def State.horizon (s : State) : Nat := s.tick + 8191

/-- A furrow books its core's M slot (R79). -/
def Furrow.hasM (f : Furrow) : Bool := f.slots % 2 == 1

/-- What a furrow holds in a fallow tick: every cell but M and EQ (R93). -/
def Furrow.idle (f : Furrow) : Furrow := { f with slots := f.slots / 2 * 2, eq := 0 }

/-- Last tick that a booking holds: of its span, or of its held window (R82). -/
def Booking.end' (b : Booking) : Nat := if b.kind = .floating then b.grace + (b.dur + b.slack) - 1 else b.last

/-- A booking holds cells in a tick. -/
def Booking.covers (b : Booking) (t : Nat) : Bool := decide (b.kind ≠ .unbooked) && decide (b.first ≤ t) && decide (t ≤ b.end')

/-- The vector that a booking holds in a tick it covers. -/
def Booking.vecAt (b : Booking) (t : Nat) : Furrow := if b.fallow.contains t then b.vec.idle else b.vec

/-- Holders of a cluster's cells in a tick: core, team and vector, of bookings and of stakes (R96). -/
def Cluster.heldAt (k : Cluster) (t : Nat) : List (Nat × Nat × Furrow) :=
  (k.bookings.filter (fun b => b.covers t)).map (fun b => (b.core, b.team, b.vecAt t))

def Cluster.stakedAt (k : Cluster) (t team : Nat) : List (Nat × Nat × Furrow) :=
  (k.stakes.filter (fun q => decide (q.team ≠ team) && decide (q.first ≤ t) && decide (t ≤ q.last))).map
    (fun q => (q.core, q.team, q.vec))

/-- Two vectors meet in an exclusive cell (R75, R510). -/
def clash (core team : Nat) (v : Furrow) (h : Nat × Nat × Furrow) : Bool :=
  let w := h.2.2
  (decide (core = h.1) && (v.slots &&& w.slots != 0 || v.frd &&& w.frd != 0 || v.fwr &&& w.fwr != 0))
    || (decide (team ≠ h.2.1) && (v.crd &&& w.crd != 0 || v.cwr &&& w.cwr != 0 || (v.ixe && w.ixe)))

/-- Share of a mesh port that a team holds: its members' largest (R510). -/
def teamShare (l : List (Nat × Nat × Furrow)) (p team : Nat) : Nat :=
  ((l.filter (fun h => decide (h.2.1 = team) && bit h.2.2.mesh p)).map (fun h => h.2.2.mshare)).foldl max 0

/-- Shares booked on a mesh port (R75). -/
def portShare (l : List (Nat × Nat × Furrow)) (p : Nat) : Nat :=
  ((l.map (fun h => h.2.1)).eraseDups.map (teamShare l p)).sum

/-- Energy booked in a tick, ballast included, but for ballast on the M row of `core` (R89, R94). -/
def Cluster.energyAt (k : Cluster) (l : List (Nat × Nat × Furrow)) (t core : Nat) : Nat :=
  (l.map (fun h => h.2.2.eq)).sum + ((k.ballast.filter (fun q => q.tick == t && q.core != core)).map Ballast.eq).sum

/-- Bookable energy of an island (R89). -/
def Cluster.bookable (k : Cluster) : Nat := k.csr.islLimit.toNat - k.csr.islBase.toNat

/-! ### What is to be placed -/

/-- A furrow of a member that is to be booked: duration and slack in ticks as they will be booked (R99). -/
structure Want where
  core : Nat
  team : Nat
  index : Nat
  vec : Furrow
  dur : Nat
  slack : Nat
  long : Bool
  deriving DecidableEq, Repr

/-- The furrow of a booking, as it is booked. -/
def Booking.want (b : Booking) : Want := ⟨b.core, b.team, b.index, b.vec, b.dur, b.slack, b.long⟩

/-- Working ticks. -/
def Want.work (x : Want) : Nat := x.dur + x.slack

/-- Ticks in fallback that hold at least as many working cycles (R99). -/
def lengthen (isl : Island) (n : Nat) : Nat := if isl = .fallback then (n * 63 + 30) / 31 else n

/-- A furrow of a member with a duration and slack stated for an island in service. -/
def State.want (s : State) (core team index : Nat) (vec : Furrow) (dur slack : Nat) : Want :=
  let isl := (s.cluster (clusterOf core)).island
  ⟨core, team, index, vec, lengthen isl dur, lengthen isl slack, decide (isl = .fallback)⟩

/-- The furrow of a booking, as a new anchor or a new floating booking books it now (R99): longer in fallback, once; what holds no booking has
no length to keep. -/
def State.wantNow (s : State) (b : Booking) : Want :=
  let isl := (s.cluster (clusterOf b.core)).island
  if b.kind = .unbooked then s.want b.core b.team b.index b.vec b.vec.dur b.vec.slack
  else if b.long then b.want else { b.want with dur := lengthen isl b.dur, slack := lengthen isl b.slack, long := decide (isl = .fallback) }

/-- The furrow of an index of an image for a member (R80). -/
def State.wantOf (s : State) (core team index : Nat) (image : Image) : Option Want :=
  (expandAt image.furrows index).map (fun f => s.want core team index f f.dur f.slack)

/-- A vector fits a tick: exclusive cells, mesh shares, stakes and, in a working tick, energy (R75, R89, R96). In a tick that the
furrow already holds (`kept`) its EQ stands whatever the figures are (R90). -/
def State.fitsTick (s : State) (x : Want) (t : Nat) (working kept : Bool) : Bool :=
  let k := s.cluster (clusterOf x.core)
  let v := if working then x.vec else x.vec.idle
  let l := k.heldAt t ++ k.stakedAt t x.team
  !(l.any (clash x.core x.team v))
    && (List.range 4).all (fun p => !bit v.mesh p || decide (portShare ((x.core, x.team, v) :: l) p ≤ 8))
    && (!working || kept || decide (k.energyAt l t (if v.hasM then x.core else 256) + v.eq ≤ k.bookable))

/-! ### The ramp (R92, R93) -/

/-- Cores present in a cluster. -/
def State.presentIn (s : State) (cl : Nat) : Nat := ((List.range 8).filter (fun j => bit s.pres.cores (8 * cl + j))).length

/-- The bound Δ (R92). -/
def State.rampStep (s : State) (cl : Nat) : Nat := (17 * s.presentIn cl + 7) / 8

/-- M cells booked in a tick, ballast included. -/
def Cluster.mCells (k : Cluster) (t : Nat) : Nat :=
  ((k.heldAt t).filter (fun h => h.2.2.hasM)).length + (k.ballast.filter (fun q => q.tick == t)).length

/-- C_w (R92): of a window that has ended, of the present one, or of a later one. -/
def State.windowCount (s : State) (cl w : Nat) : Nat :=
  let k := s.cluster cl
  let now := s.tick / 17
  if w < now then (if w + 1 = now then k.rampPrev else 0)
  else
    let lo := max (17 * w) s.tick
    (if w = now then k.rampNow else 0) + ((List.range (17 * w + 17 - lo)).map (fun j => k.mCells (lo + j))).sum

/-- The M cells that a working tick of a furrow adds: none where it takes a ballast cell (R94). -/
def State.addsM (s : State) (x : Want) (t : Nat) : Nat :=
  if x.vec.hasM && !((s.cluster (clusterOf x.core)).ballast.any (fun q => q.tick == t && q.core == x.core)) then 1 else 0

/-- Clusters of a list of furrows. -/
def clustersOf (l : List Want) : List Nat := (l.map (fun x => clusterOf x.core)).eraseDups

/-- M cells that furrows add to a cluster when each works in the first of `n` ticks from `t` that it has left. -/
def State.addedM (s : State) (l : List Want) (cl done t n : Nat) : Nat :=
  ((l.filter (fun x => clusterOf x.core == cl)).map (fun x =>
    ((List.range (min n (x.work - done))).map (fun j => s.addsM x (t + j))).sum)).sum

/-- A layout of furrows with one anchor: working ticks and fallow ticks, in order (R93). -/
structure Plan where
  work : List Nat
  fallow : List Nat
  deriving DecidableEq, Repr

/-- The rest of a layout from tick `t` on, window by window (R93): the smallest count of fallow ticks first, that keeps the rise
rule in every island; `prev` holds what the layout added to the window before. -/
def State.layFrom (s : State) (l : List Want) (most : Nat) : Nat → Nat → Tbl Nat → Plan → Plan
  | 0, _, _, p => p
  | k + 1, t, prev, p =>
    if most ≤ p.work.length ∨ s.horizon < t then p
    else
      let w := t / 17
      let room := min (17 * w + 16) s.horizon + 1 - t
      let done := p.work.length
      let ok := fun (f : Nat) => (clustersOf l).all (fun cl =>
        let a := s.addedM l cl done (t + f) (room - f)
        a == 0 || decide (s.windowCount cl w + a ≤ (if w = 0 then 0 else s.windowCount cl (w - 1)) + tget 0 prev cl + s.rampStep cl))
      let f := ((List.range room).find? ok).getD room
      let n := min (room - f) (most - done)
      let next := (clustersOf l).map (fun cl => (cl, s.addedM l cl done (t + f) (room - f)))
      s.layFrom l most k (t + room) next
        { work := p.work ++ (List.range n).map (fun j => t + f + j),
          fallow := p.fallow ++ (if done = 0 then [] else (List.range f).map (fun j => t + j)) }

/-- The layout of furrows from tick `t`. -/
def State.lay (s : State) (l : List Want) (t : Nat) : Plan :=
  s.layFrom l ((l.map Want.work).foldl max 0) 484 t [] ⟨[], []⟩

/-- The booking that a layout gives a furrow: a span longer than the horizon is booked as far as the horizon (R74). -/
def Plan.booking (p : Plan) (x : Want) : Booking :=
  let mine := p.work.take x.work
  let last := mine.getLastD 0
  let left := x.work - mine.length
  { core := x.core, team := x.team, kind := .anchored, index := x.index, vec := x.vec, first := mine.headD 0, dur := x.dur,
    slack := x.slack, grace := 0, fallow := p.fallow.filter (fun t => decide (t < last) || decide (0 < left)), last := last,
    left := left, expired := false, long := x.long }

/-- The horizon rule for a layout (R74): a span of at most 8,192 ticks must end within the horizon. -/
def Booking.inHorizon (b : Booking) : Bool := b.left == 0 || decide (8192 < b.dur + b.slack + b.fallow.length)

/-- A booking made: it takes the ballast cells that it needs (R94), and its holder's stakes give way (R96). -/
def State.book (s : State) (b : Booking) : State :=
  s.updCluster (clusterOf b.core) (fun k =>
    { k with bookings := k.bookings ++ [b],
             ballast := k.ballast.filter (fun q => !(q.core == b.core && b.covers q.tick && (b.vecAt q.tick).hasM)),
             stakes := (if b.kind = .anchored then k.stakes.filter (fun q => !(q.team == b.team && q.core == b.core)) else k.stakes) })

/-- Every tick of a booking fits; ticks of `kept` are held already. -/
def State.fits (s : State) (x : Want) (b : Booking) (kept : Option Booking) : Bool :=
  (List.range (min b.end' s.horizon + 1 - b.first)).all (fun j =>
    let t := b.first + j
    s.fitsTick x t (!b.fallow.contains t) ((kept.map (fun h => h.covers t)).getD false))

/-- Furrows anchored together from tick `t` on, if they fit (R54, R84): the state and the anchor. -/
def State.anchorAt (s : State) (l : List Want) (kept : Option Booking) (t : Nat) : Option (State × Nat) :=
  let p := s.lay l t
  match p.work with
  | [] => none
  | a :: _ =>
    (l.foldl
      (fun (r : Option State) x =>
        match r with
        | none => none
        | some s =>
          let b := p.booking x
          if b.inHorizon && s.fits x b kept then some (s.book b) else none)
      (some s)).map (fun s => (s, a))

/-- The first tick of `n` from `t` at which furrows fit, and `f` then succeeds. -/
def State.firstFit (s : State) (l : List Want) (f : State → Nat → Option State) : Nat → Nat → Option (State × Nat)
  | 0, _ => none
  | k + 1, t =>
    match s.anchorAt l none t with
    | some (s', a) =>
      match f s' a with
      | some s'' => some (s'', a)
      | none => s.firstFit l f k (t + 1)
    | none => s.firstFit l f k (t + 1)

/-! ### Floating furrows (R82, R511) -/

/-- The floating booking of a furrow with tentative anchor T and grace end G. -/
def floatOf (x : Want) (t g : Nat) : Booking :=
  { core := x.core, team := x.team, kind := .floating, index := x.index, vec := x.vec, first := t, dur := x.dur,
    slack := x.slack, grace := g, fallow := [], last := 0, left := 0, expired := false, long := x.long }

/-- The floating booking of a furrow, held or unbooked (R82, R511). -/
def State.holdNext (s : State) (x : Want) (t : Nat) : State :=
  let b := floatOf x t (t + 64)
  if s.fits x b none then s.book b else s.book { b with kind := .unbooked }

/-- Last tick of a member's anchored booking of an index. -/
def State.lastOf (s : State) (core team index : Nat) : Nat :=
  (((s.cluster (clusterOf core)).bookings.find? (fun b => b.core == core && b.team == team && b.index == index && decide (b.kind = .anchored))).map
    (fun b => b.last + b.left)).getD 0

/-- The successor of an anchored furrow floats (R82). -/
def State.holdSuccessor (s : State) (core team index : Nat) (image : Image) : State :=
  match s.wantOf core team (index + 1) image with
  | none => s
  | some x => s.holdNext x (s.lastOf core team index + 1)

/-- Second furrows held as floating bookings, all of them or none (R84). -/
def State.holdAll (s : State) (l : List (Want × Image)) : Option State :=
  l.foldl
    (fun (r : Option State) p =>
      match r with
      | none => none
      | some s =>
        let x := p.1
        match s.wantOf x.core x.team (x.index + 1) p.2 with
        | none => some s
        | some y =>
          let t := s.lastOf x.core x.team x.index + 1
          let b := floatOf y t (t + 64)
          if s.fits y b none then some (s.book b) else none)
    (some s)

/-- The booking of members' first furrows on one common tick, at or after `t` (R54, R84). -/
def State.bookTeam (s : State) (l : List (Want × Image)) (t n : Nat) : Option (State × Nat) :=
  s.firstFit (l.map Prod.fst) (fun s _ => s.holdAll l) n t

/-! ### Release of cells (R88) -/

/-- A booking without its cells after a tick. -/
def Booking.cut (b : Booking) (upto : Nat) : Option Booking :=
  if b.kind = .anchored ∧ b.first ≤ upto then some { b with last := min b.last upto, left := 0 } else none

/-- Bookings that `p` selects lose their cells after a tick; a compaction follows (R88). -/
def Cluster.release (k : Cluster) (upto : Nat) (p : Booking → Bool) : Cluster :=
  if k.bookings.any p then
    { k with bookings := k.bookings.filterMap (fun b => if p b then b.cut upto else some b), compact := true }
  else k

/-- Every booking of a team after a tick released, in every cluster. -/
def State.releaseTeam (s : State) (team upto : Nat) : State :=
  { s with clusters := tmap (fun _ k => k.release upto (fun b => b.team == team)) s.clusters }

/-- Every stake of a team released; a compaction follows (R101). -/
def State.dropStakes (s : State) (team : Nat) : State :=
  { s with clusters := tmap (fun _ k =>
      { k with stakes := k.stakes.filter (fun q => q.team != team), compact := k.compact || k.stakes.any (fun q => q.team == team) }) s.clusters }

/-- Bookings of one member after a tick released (R61, R88). -/
def State.releaseMember (s : State) (core team upto : Nat) : State :=
  s.updCluster (clusterOf core) (fun k => k.release upto (fun b => b.core == core && b.team == team))

/-- The booking of the furrow that a core is in. -/
def State.present (s : State) (n : Nat) : Option Booking :=
  let c := s.core n
  (s.cluster (clusterOf n)).bookings.find? (fun b =>
    b.core == n && decide (c.team = some b.team) && decide (b.kind = .anchored) && b.index == c.seq.furrow)

/-- The record of a core's next furrow. -/
def State.successor (s : State) (n : Nat) : Option Booking :=
  let c := s.core n
  (s.cluster (clusterOf n)).bookings.find? (fun b => b.core == n && decide (c.team = some b.team) && b.index == c.seq.furrow + 1)

/-- A booking taken out of the records. -/
def State.unbook (s : State) (b : Booking) : State :=
  s.updCluster (clusterOf b.core) (fun k => { k with bookings := k.bookings.filter (fun x => x ≠ b) })

/-- A booking replaced. -/
def State.rebook (s : State) (b b' : Booking) : State :=
  s.updCluster (clusterOf b.core) (fun k => { k with bookings := k.bookings.map (fun x => if x = b then b' else x) })

/-! ### GRACE_EXPIRY (R83, R101) -/

/-- A floating booking whose grace has ended holds nothing; SLIP_CNT counts it. -/
def State.expire (s : State) (b : Booking) : State :=
  let cl := clusterOf b.core
  let s := s.rebook b { b with kind := .unbooked, expired := true }
  (s.send .slip cl b.core).updCluster cl (fun k => { k with csr := { k.csr with slipCnt := k.csr.slipCnt + 1 }, compact := true })

/-- GRACE_EXPIRY (R83): at the end of tick G the floating booking of core `n` is released. -/
def execGraceExpiry (n : Nat) (s : State) : Out :=
  match (s.cluster (clusterOf n)).bookings.find? (fun b => b.core == n && decide (b.kind = .floating) && decide (b.grace < s.tick)) with
  | some b => .next (s.expire b)
  | none => .next s

/-! ### HEADLAND_RESOLVE (R59, R83, R369, R511) -/

/-- A barrier is satisfied (R314). -/
def Barrier.satisfied (b : Barrier) : Bool := b.pend == 0 && decide (b.exp ≤ b.cnt)

/-- CNT less EXP. -/
def Barrier.spend (b : Barrier) : Barrier := { b with cnt := b.cnt - b.exp }

/-- The core's next furrow is anchored: its booking is made, and its successor's. -/
def State.anchored (s : State) (n a : Nat) (slipped : Option Nat) : State :=
  let c := s.core n
  let s := s.updCore n (fun c => { c with seq := { c.seq with anchor := some a, slipped := slipped } })
  match c.team, c.image with
  | some t, some i => s.holdSuccessor n t (c.seq.furrow + 1) i
  | _, _ => s

/-- SLIP_CNT of a core's cluster, one more. -/
def State.slipOf (s : State) (n : Nat) : State :=
  (s.send .slip (clusterOf n) n).updCluster (clusterOf n) (fun k => { k with csr := { k.csr with slipCnt := k.csr.slipCnt + 1 } })

/-- The anchoring of the next furrow of core `n`, whose headland resolved at tick `h` (R83, R511): under its floating booking, or at
the first tick at which it fits; else it is tried again in the next tick. In fallback the anchor is longer than the window that it
stands under wherever the cells are free (R99, R101). A headland that has slipped waits until its anchor (R96). A core of no booked
furrow goes on in the tick of the resolution. -/
def State.anchorNext (s : State) (n h : Nat) : State :=
  match s.successor n with
  | none => s.anchored n (max h s.tick) none
  | some b =>
    let x := s.wantNow b
    let s0 := s.unbook b
    let holds := decide (b.kind = .floating)
    let kept := if holds then some b else none
    let t := if holds then max b.first h else max h s.tick
    let r := match s0.anchorAt [x] kept t with
      | some r => some r
      | none =>
        match (if holds then s0.anchorAt [b.want] kept t else none) with
        | some r => some r
        | none => s0.firstFit [x] (fun s _ => some s) (s.horizon + 1 - t) t
    match r with
    | some (s1, a) =>
      let s1 := if b.kind = .unbooked ∧ b.expired = false ∧ h < a then s1.slipOf n else s1
      s1.anchored n a (if holds then none else some h)
    | none => s.updCore n (fun c => { c with seq := { c.seq with slipped := some h } })

/-- The furrows of core `n` that are held unbooked (R511): the successor of the furrow that it is in, or, once that is anchored, of that one; a
headland that has resolved waits for its anchor instead. -/
def State.heldUnbooked (s : State) (n : Nat) : List Booking :=
  let c := s.core n
  (s.cluster (clusterOf n)).bookings.filter (fun b => b.core == n && decide (c.team = some b.team) && decide (b.kind = .unbooked) && !b.expired
    && decide (c.seq.furrow < b.index) && !(b.index == c.seq.furrow + 1 && c.seq.slipped.isSome))

/-- What core `n` holds unbooked is tried again over what is left of its window (R511). -/
def State.retryHold (s : State) (n : Nat) : State :=
  (s.heldUnbooked n).foldl
    (fun s b =>
      let x := s.wantNow b
      let f := { floatOf x (max b.first s.tick) b.grace with vec := b.vec }
      if s.tick ≤ f.end' ∧ (s.unbook b).fits x f none then (s.unbook b).book f else s) s

/-- The next furrow of core `n` starts (R59): the bundle after the WAITB issues from cycle 1 on. -/
def Core.startFurrow (c : Core) : Core :=
  { c with seq := { c.seq with mode := .running, furrow := c.seq.furrow + 1, anchor := none, wait := none, slipped := none, ranTicks := 0,
                               overruns := 0, ext := 0, renewed := none } }

/-- HEADLAND_RESOLVE (R83, R314, R511): a successor held unbooked is tried again; at the first tick after both the WAITB and the satisfaction of its barrier, CNT falls by EXP and
the next furrow is anchored; a slipped headland is tried again in each tick; in cycle 1 of the anchor tick the core issues
again. -/
def execHeadlandResolve (n : Nat) (s : State) : Out :=
  let s := s.retryHold n
  let c := s.core n
  if c.seq.mode ≠ .atHeadland ∨ c.seq.stop.isSome ∨ c.rollback.isSome then .next s
  else
    match c.seq.anchor with
    | some a =>
      if a < s.tick ∨ (a = s.tick ∧ cycleOne (s.cluster (clusterOf n)).island s.instant = true) then .next (s.updCore n Core.startFurrow)
      else .next s
    | none =>
      match c.seq.slipped, c.seq.wait with
      | some h, _ => .next (s.anchorNext n h)
      | none, some b =>
        if (c.bars[b]).satisfied then
          .next ((s.updCore n (fun c => { c with bars := c.bars.set b (c.bars[b]).spend, seq := { c.seq with wait := none } })).anchorNext n s.tick)
        else .next s
      | none, none => .next (s.anchorNext n s.tick)

/-! ### OVERRUN (R98, R448, R477-R479) -/

/-- The overrun policy of a core's image: pre-empt when FLAGS[0] is set (R229). -/
def Core.preempts (c : Core) : Bool := (c.image.map (fun i => bit i.flags 0)).getD false

/-- Event 0x0501. -/
def State.overrunEvent (s : State) (n detail2 : Nat) : State :=
  let c := s.core n
  s.event 0x0501 0 (some c.csr.ctxId.toNat) 0 n 0 0 c.seq.furrow detail2

/-- The overrunning team is pre-empted; its member carries a renewed slack (R98). -/
def State.overrunPreempt (s : State) (n slack : Nat) : State :=
  (s.updCore n (fun c => { c with seq := { c.seq with ext := 0, renewed := some slack } })).push (.preempt (((s.core n).team).getD 0))

/-- A booking's span one tick longer, where the cells of the tick are free and the ramp allows its M cell (R92, R98, R99). -/
def State.stretch (s : State) (b : Booking) (t : Nat) : Option (State × Booking) :=
  let x := b.want
  let cl := clusterOf b.core
  let w := t / 17
  let a := s.addsM x t
  let ramp := a == 0 || decide (s.windowCount cl w + a ≤ (if w = 0 then 0 else s.windowCount cl (w - 1)) + s.rampStep cl)
  if ramp && (s.unbook b).fitsTick x t true false then
    let b' := { b with last := t }
    some ((s.unbook b).book b', b')
  else none

/-- One more tick for an overrunning furrow, when its vector fits the present tick (R98); else the pre-emption. -/
def State.extend (s : State) (n : Nat) (b : Booking) : State :=
  match s.stretch b s.tick with
  | some (s, _) => s.updCore n (fun c => { c with seq := { c.seq with ext := c.seq.ext - 1 } })
  | none => (s.overrunEvent n (2 + (if (s.core n).preempts then 1 else 0))).overrunPreempt n (s.core n).seq.ext

/-- OVERRUN (R98, R477): a furrow whose span has ended and whose WAITB or EXIT has not issued overruns: its policy follows, or the
booking-overrun trap when it has overrun before. Within an extension it takes one tick more. A rollback in progress does not keep it
from overrunning, a pre-emption does (R479). -/
def execOverrun (n : Nat) (s : State) : Out :=
  let c := s.core n
  match s.present n with
  | none => .next s
  | some b =>
    if s.tick ≤ b.last ∨ b.left ≠ 0 ∨ c.seq.mode ≠ .running ∨ (c.seq.stop.isSome ∧ c.seq.stop ≠ some .rollback) ∨ s.yields n = true then .next s
    else if 0 < c.seq.ext then .next (s.extend n b)
    else
      let policy := c.preempts
      let s := s.updCore n (fun c => { c with csr := { c.csr with ovrCnt := c.csr.ovrCnt + 1 }, seq := { c.seq with overruns := c.seq.overruns + 1 } })
      let s := s.overrunEvent n (if policy then 1 else 0)
      if 0 < c.seq.overruns then .next (s.trapCore n ⟨0x38, c.seq.furrow, 0⟩ 7 false false c.nextPc 0)
      else if policy then .next (s.overrunPreempt n (max b.vec.slack 1))
      else .next ((s.updCore n (fun c => { c with seq := { c.seq with ext := max b.vec.slack 1 } })).extend n b)

/-! ### Stakes (R96, R97) -/

/-- Stakes of a calendar: those placed together for one team count as one (R97). -/
def Cluster.stakeCount (k : Cluster) : Nat := ((k.stakes.map (fun q => (q.team, q.lead))).eraseDups).length

/-- A window of a furrow is free of anchored bookings and stakes. -/
def State.stakeFits (s : State) (x : Want) (t : Nat) : Bool :=
  let cl := clusterOf x.core
  let s0 := s.updCluster cl (fun k => { k with bookings := k.bookings.filter (fun b => decide (b.kind = .anchored)) })
  decide ((s.cluster cl).stakeCount < 4) && (List.range x.work).all (fun j => s0.fitsTick x (t + j) true false)

/-- A floating booking overlaps a stake of a furrow in a tick: they meet in an exclusive cell, or on a mesh port or in energy that does
not suffice for both. -/
def State.meetsStake (s : State) (x : Want) (t : Nat) (b : Booking) : Bool :=
  b.covers t && (clash x.core x.team x.vec (b.core, b.team, b.vecAt t)
    || ((x.vec.mesh &&& b.vec.mesh != 0 || (b.vec.eq != 0 && x.vec.eq != 0)) && !s.fitsTick x t true false))

/-- Floating bookings that overlap a stake float again, as if their grace had expired (R96). -/
def State.clearStake (s : State) (x : Want) (t : Nat) : State :=
  let fl := (s.cluster (clusterOf x.core)).bookings.filter (fun b => decide (b.kind = .floating))
  fl.foldl (fun s b => if (List.range x.work).any (fun j => s.meetsStake x (t + j) b) then s.expire b else s) s

/-- A stake of furrows at one common tick. -/
def State.stakeAt (s : State) (l : List Want) (t : Nat) : State :=
  let lead := (l.head?.map Want.core).getD 0
  l.foldl
    (fun s x =>
      let s := s.clearStake x t
      s.updCluster (clusterOf x.core) (fun k => { k with stakes := k.stakes ++ [⟨x.core, x.team, lead, x.index, x.vec, t, t + x.work - 1⟩] })) s

/-- The waiting furrows that a stake of core `n` is for: the next furrow of a slipped headland, or the first furrows of a team that
is held. -/
def State.waiting (s : State) (n : Nat) : List Want :=
  match s.successor n with
  | some b => if (s.core n).seq.slipped.isSome then [s.wantNow b] else []
  | none => []

/-- First furrows of a held team's members (R482). -/
def State.heldWants (s : State) (tn : Nat) (t : Team) : List Want :=
  t.members.filterMap (fun m =>
    if m.exited then none
    else match m.segment with
      | some (k, d, sl) => (expandAt t.image.furrows k).map (fun f => s.want m.core tn k f d sl)
      | none => if t.resumed then none else s.wantOf m.core tn 0 t.image)

/-- CAPM covers a use mask (R38). -/
def Core.covers (c : Core) (usem : Double) : Bool := usem &&& ~~~c.csr.capm == 0

/-- Cores of a cluster that `ok` accepts, ascending. -/
def coresIn (ok : Nat → Bool) (cl : Nat) : List Nat := ((List.range 8).map (fun j => 8 * cl + j)).filter ok

/-- The most that `k` of some clusters can hold, each as many as `size` says. -/
def mostOf (size : Nat → Nat) (k : Nat) (l : List Nat) : Nat := (((sortKey (fun c => 8 - size c) l).take k).map size).sum

/-- `k` of some clusters that hold `n` members, the earlier ones of the list before the later. -/
def pickClusters (size : Nat → Nat) : Nat → Nat → List Nat → List Nat
  | 0, _, _ => []
  | _ + 1, _, [] => []
  | k + 1, n, c :: rest =>
    if n ≤ size c + mostOf size k rest then c :: pickClusters size k (n - size c) rest else pickClusters size (k + 1) n rest

/-- The cores for a team of `n` members (R395): the fewest clusters, at most 8, those with the most eligible cores first, then the
lowest numbers; each gives its cores in ascending local index, as many as it has room for. -/
def chooseCores (ok : Nat → Bool) (room : Nat → Nat) (n : Nat) : Option (List Nat) :=
  let of := fun (cl : Nat) => (coresIn ok cl).take (room cl)
  let size := fun (cl : Nat) => (of cl).length
  let cls := sortKey (fun cl => (8 - (coresIn ok cl).length) * 32 + cl) (List.range 32)
  match (List.range 9).find? (fun k => decide (n ≤ mostOf size k cls)) with
  | some k => some (sortKey (fun x => x) (((pickClusters size k n cls).flatMap of).take n))
  | none => none

/-- The furrows that a team without a place would wait for on the present cores that could hold it (R395). -/
def State.wouldBe (s : State) (tn : Nat) (t : Team) : List Want :=
  let live := t.members.filter (fun m => !m.exited)
  match chooseCores (fun n => bit s.pres.cores n && (s.core n).covers t.image.usem) (fun _ => 8) (if t.members.isEmpty then t.image.teamSize else live.length) with
  | none => []
  | some cores =>
    if t.members.isEmpty then cores.filterMap (fun n => s.wantOf n tn 0 t.image)
    else s.heldWants tn { t with resumed := true, members := live.mapIdx (fun k m => { m with core := nth cores k }) }

/-- A team that waits for a place or for its release (R96, R395). -/
def TeamState.waits : TeamState → Bool
  | .ready => true
  | .swapped => true
  | .staged => true
  | .held => true
  | _ => false

/-- The furrows that a waiting team's stake would be for: of a staged team, those of its gang too, which are released with it. -/
def State.stakeWants (s : State) (tn : Nat) (t : Team) : List Want :=
  if t.state = .held then s.heldWants tn t
  else if t.state = .staged then (s.teamsOf t.inst).flatMap (fun p => s.heldWants p.1 p.2)
  else if t.state.waits then s.wouldBe tn t
  else []

/-- A team holds a stake. -/
def State.hasStake (s : State) (tn : Nat) : Bool := (List.range 32).any (fun cl => (s.cluster cl).stakes.any (fun q => q.team == tn))

/-- STARVE_LIM of a context (R96). -/
def State.starveLim (s : State) (ctx : Nat) : Nat := ((tfind s.contexts ctx).map Context.starve).getD 4096

/-- A waiting team whose wait has passed its context's limit, with `n` the first core of its stake. -/
def State.starvingOn (s : State) (n : Nat) (p : Nat × Team) : Bool :=
  p.2.state.waits && decide (p.2.since + s.starveLim p.2.ctx < s.tick) && !s.hasStake p.1
    && ((s.stakeWants p.1 p.2).head?.map Want.core == some n)

/-- The next furrow of core `n`, slipped and anchored at a later tick, without that anchor. -/
def State.unanchor (s : State) (n : Nat) : State :=
  match (s.core n).seq.anchor, s.successor n with
  | some _, some b =>
    let s := s.updCluster (clusterOf n) (fun k => { k with bookings := k.bookings.filter (fun q => !(q.core == n && q.team == b.team && q.index == b.index + 1)) })
    (s.rebook b { b with kind := .unbooked, expired := true }).updCore n (fun c => { c with seq := { c.seq with anchor := none } })
  | _, _ => s

/-- A stake of a slipped headland of core `n`, earlier than the anchor that it has, if it has one. -/
def State.stakeHeadland (s : State) (n : Nat) : Option State :=
  let s0 := s.unanchor n
  let l := s0.waiting n
  let most := match (s.core n).seq.anchor with | some a => a - s.tick | none => 8192
  match (List.range most).find? (fun j => l.all (fun x => s0.stakeFits x (s.tick + j))) with
  | some j => some (s0.stakeAt l (s.tick + j))
  | none => none

/-- A slipped headland of core `n` whose wait has passed its context's limit without a stake (R96): since when. -/
def State.starvingHeadland (s : State) (n : Nat) : Option Nat :=
  let c := s.core n
  let has := fun (x : Want) => (s.cluster (clusterOf x.core)).stakes.any (fun q => q.team == x.team && q.core == x.core)
  match c.seq.slipped with
  | some h => if c.seq.mode = .atHeadland ∧ h + s.starveLim c.csr.ctxId.toNat < s.tick ∧ (s.waiting n).any has = false then some h else none
  | none => none

/-- Those on core `n` whose wait has passed the limit: since when, and the team, none for the core's headland; the longest wait first (R97). -/
def State.starving (s : State) (n : Nat) : List (Nat × Option (Nat × Team)) :=
  sortKey Prod.fst ((s.starvingHeadland n).toList.map (fun h => (h, none))
    ++ (s.teams.filter (s.starvingOn n)).map (fun p => (p.2.since, some p)))

/-- A staged team's first furrows, and its gang's, booked at their stake instead: they are released there. -/
def State.restage (s : State) (t : Team) (a : Nat) : Option State :=
  let g := s.teamsOf t.inst
  (s.bookTeam (g.flatMap (fun p => (s.heldWants p.1 p.2).map (fun x => (x, p.2.image)))) a 1).map (fun r =>
    g.foldl (fun s p => s.updTeam p.1 (fun t => { t with release := r.2 })) r.1)

/-- A stake of a team: of a staged one, earlier than the release that it has, at the first tick at which it can be booked there. -/
def State.stakeTeam (s : State) (tn : Nat) (t : Team) : Option State :=
  let staged := decide (t.state = .staged)
  let l := s.stakeWants tn t
  let s0 := if staged then (s.teamsOf t.inst).foldl (fun s p => s.releaseTeam p.1 (s.tick - 1)) s else s
  let most := if staged then t.release - s.tick else 8192
  if l.isEmpty then none
  else
    (List.range most).findSome? (fun j =>
      if l.all (fun x => s0.stakeFits x (s.tick + j)) then
        if staged then (s0.stakeAt l (s.tick + j)).restage t (s.tick + j) else some (s0.stakeAt l (s.tick + j))
      else none)

/-- A stake for one that waits. -/
def State.stakeFor (s : State) (n : Nat) (p : Nat × Option (Nat × Team)) : Option State :=
  match p.2 with
  | none => s.stakeHeadland n
  | some (tn, t) => s.stakeTeam tn t

/-- STAKE_PLACE (R96, R97): the earliest window that no anchored booking and no stake overlaps, for the one on core `n` that has waited longest
beyond STARVE_LIM and can have a stake. -/
def execStakePlace (n : Nat) (s : State) : Out := .next (((s.starving n).findSome? (s.stakeFor n)).getD s)

/-- STAKE_LAPSE (R97): a stake whose first tick arrives while its holder is not ready; its holder's wait goes on. -/
def execStakeLapse (n : Nat) (s : State) : Out :=
  let k := s.cluster (clusterOf n)
  if k.stakes.any (fun q => q.core == n && decide (q.first ≤ s.tick)) then
    .next (s.updCluster (clusterOf n) (fun k => { k with stakes := k.stakes.filter (fun q => !(q.core == n && decide (q.first ≤ s.tick))), compact := true }))
  else .next s

/-! ### CALENDAR_TICK (R95) -/

/-- The column of tick `t`, which has entered the horizon, for a span that reaches beyond it (R74): a working tick, or a fallow one where the
rise rule requires it. -/
def State.columnAt (cl : Nat) (s : State) (t : Nat) : State :=
  (sortKey (fun (b : Booking) => b.core) (s.cluster cl).bookings).foldl
    (fun s b =>
      if b.left = 0 ∨ t ≤ b.last then s
      else
        let x := b.want
        let a := s.addsM x t
        let ok := a == 0 || decide (s.windowCount cl (t / 17) + a ≤ s.windowCount cl (t / 17 - 1) + s.rampStep cl)
        if ok then (s.unbook b).book { b with last := t, left := b.left - 1 }
        else (s.unbook b).book { b with last := t, fallow := b.fallow ++ [t] }) s

/-- The columns that have entered the horizon since this was last done: more than one where the booking work of a tick has moved to the next
(R494). -/
def State.newColumn (s : State) (cl : Nat) : State :=
  let from' := (((s.cluster cl).bookings.filter (fun b => b.left != 0)).map (fun b => b.last + 1)).foldl min s.horizon
  ((List.range (s.horizon + 1 - from')).map (fun j => from' + j)).foldl (State.columnAt cl) s

/-- The furrow of a booking has ended: its core is past it, or no longer runs its team (R88). -/
def State.furrowOver (s : State) (b : Booking) : Bool :=
  let c := s.core b.core
  decide (b.kind = .anchored) && decide (b.first < s.tick) && decide (c.team = some b.team)
    && ((decide (c.seq.mode = .atHeadland) && b.index == c.seq.furrow) || decide (b.index < c.seq.furrow))

/-- A record that holds nothing any more. -/
def State.stale (s : State) (b : Booking) : Bool :=
  decide (b.kind = .anchored) && decide (b.last < s.tick) && b.left == 0
    && !(decide ((s.core b.core).team = some b.team) && b.index == (s.core b.core).seq.furrow && decide ((s.core b.core).seq.mode = .running))

/-- Step 1 of R95, the releases: cells of furrows that ended early. -/
def State.calendarRelease (s : State) (cl : Nat) : State :=
  let ended := fun b => s.furrowOver b && decide (s.tick ≤ b.last + b.left)
  let s := s.updCluster cl (fun k => k.release (s.tick - 1) ended)
  s.updCluster cl (fun k => { k with bookings := k.bookings.filter (fun b => !s.stale b) })

/-- Present cores of a cluster, ascending. -/
def State.coresOf (s : State) (cl : Nat) : List Nat := ((List.range 8).map (fun j => 8 * cl + j)).filter (fun n => bit s.pres.cores n)

/-- The start of step 1: releases, and expired graces as work of their own. -/
def State.calendarFirst (s : State) (cl : Nat) : State :=
  let s := s.calendarRelease cl
  let k := s.cluster cl
  let due := (s.coresOf cl).filter (fun n => k.bookings.any (fun b => b.core == n && decide (b.kind = .floating) && decide (b.grace < s.tick)))
  { s with agenda := due.map (fun n => .event (.graceExpiry n)) ++ s.agenda }

/-- The end of step 1, and the first half of step 2: the new column; then stakes that fall due, by core (R97). -/
def State.calendarStakes (s : State) (cl : Nat) : State :=
  let s := s.newColumn cl
  let k := s.cluster cl
  let due := (s.coresOf cl).filter (fun n => k.stakes.any (fun q => q.core == n && decide (q.first ≤ s.tick)))
  { s with agenda := due.map (fun n => .event (.stakeLapse n)) ++ s.agenda }

/-- The second half of step 2: new stakes, in order of wait (R97). -/
def State.calendarWaits (s : State) (cl : Nat) : State :=
  let new := sortKey Prod.fst ((s.coresOf cl).flatMap (fun n => (s.starving n).map (fun p => (p.1, n))))
  { s with agenda := new.map (fun p => .event (.stakePlace p.2)) ++ s.agenda }

/-- The earliest tick from the present one to which a floating booking can move (R88). -/
def State.earliest (s : State) (b : Booking) : Nat :=
  let x := b.want
  let free := (List.range (b.first - s.tick)).map (fun j => s.fitsTick x (s.tick + j) true false)
  b.first - (free.reverse.takeWhile (fun f => f)).length

/-- Step 3: compaction (R88). -/
def State.compact (s : State) (cl : Nat) : State :=
  let k := s.cluster cl
  if k.compact then
    let fl := sortKey (fun b => b.first * 256 + b.core) (k.bookings.filter (fun b => decide (b.kind = .floating) && decide (s.tick < b.first)))
    fl.foldl (fun s b => (s.unbook b).book { b with first := s.earliest b }) (s.updCluster cl (fun k => { k with compact := false }))
  else s

/-- Core `n` has something to anchor: its headland, or a successor held unbooked. -/
def State.anchors (s : State) (n : Nat) : Bool :=
  decide ((s.core n).seq.mode = .atHeadland) || !(s.heldUnbooked n).isEmpty

/-- Steps 3 to 5: compaction, then headlands with the retries, and overruns, by core, as work of their own. -/
def State.calendarSecond (s : State) (cl : Nat) : State :=
  let s := s.compact cl
  let cs := s.coresOf cl
  let run := cs.filter (fun n => decide ((s.core n).seq.mode = .running))
  { s with agenda := (cs.filter s.anchors).map (fun n => .event (.headlandResolve n)) ++ run.map (fun n => .event (.overrun n)) ++ s.agenda }

/-- Free M rows of a tick that have energy for ballast, in ascending core index, at most `n` (R94) (DEDUCED, log 39). -/
def State.ballastTick (s : State) (cl t : Nat) : Nat → List Nat → State × Nat
  | n, [] => (s, n)
  | 0, _ => (s, 0)
  | n + 1, c :: cs =>
    let k := s.cluster cl
    let l := k.heldAt t ++ k.stakedAt t (2 ^ 64)
    let e := k.csr.ballastEq.toNat
    let taken := l.any (fun h => decide (h.1 = c) && h.2.2.hasM) || k.ballast.any (fun q => q.tick == t && q.core == c)
    if taken || decide (k.bookable < k.energyAt l t 256 + e) then s.ballastTick cl t (n + 1) cs
    else (s.updCluster cl (fun k => { k with ballast := k.ballast ++ [⟨t, c, e⟩] })).ballastTick cl t n cs

/-- Ballast in a window, as far as the fall rule needs it (R94). -/
def State.ballastWindow (s : State) (cl w : Nat) : State :=
  let need := (if w = 0 then 0 else s.windowCount cl (w - 1)) - s.rampStep cl - s.windowCount cl w
  let lo := max (17 * w) s.tick
  if need = 0 then s
  else
    ((List.range (17 * w + 17 - lo)).foldl
      (fun (r : State × Nat) j => r.1.ballastTick cl (lo + j) r.2 (r.1.coresOf cl)) (s, need)).1

/-- Step 6 in one window: the present one, one that has lost cells since the last step 6, or one whose predecessor has just taken ballast;
with it, whether the window took any (R94) (DEDUCED, log 39). -/
def State.ballastStep (cl : Nat) (r : State × Bool) (w : Nat) : State × Bool :=
  let n := r.1.windowCount cl w
  if w = r.1.tick / 17 ∨ r.2 = true ∨ n < tget 0 (r.1.cluster cl).windowMs w then
    let s := r.1.ballastWindow cl w
    (s, decide (n < s.windowCount cl w))
  else (r.1, false)

/-- Step 6: ballast in the windows of the horizon, just enough to meet the rule beside the ballast that stands. -/
def State.ballastAll (s : State) (cl : Nat) : State :=
  let ws := (List.range ((s.horizon + 1) / 17 - s.tick / 17)).map (fun j => s.tick / 17 + j)
  let s := (ws.foldl (State.ballastStep cl) (s, false)).1
  s.updCluster cl (fun k => { k with windowMs := (ws.map (fun w => (w, s.windowCount cl w))).filter (fun p => decide (p.2 ≠ 0)) })

/-- Step 7: held teams, staging and requests as work of their own (R95, R482). -/
def State.calendarThird (s : State) (cl : Nat) : State :=
  let mine := fun (p : Nat × Team) => ((p.2.members.head?).map (fun m => clusterOf m.core)) == some cl
  let held := sortKey (fun p => p.2.first.getD p.2.release) (s.teams.filter (fun p => decide (p.2.state = .held) && mine p))
  let placed := s.teams.filter (fun p => decide (p.2.state = .placed) && mine p)
  { s with agenda := (held ++ placed).map (fun p => .event (.stageTeam p.1)) ++ [.event (.ccRequestServe cl)] ++ s.agenda }

/-- The next part of a cluster's booking work stands behind the present part of the other clusters', so that what spans clusters at a later step
sees every earlier step of them all (R95). -/
def laterWork (cl : Nat) (l : List Work) : List Work :=
  let isTick := fun (w : Work) => match w with | .event (.calendarTick _) => true | _ => false
  let k := l.length - (l.reverse.takeWhile (fun w => !isTick w)).length
  l.take k ++ .event (.calendarTick cl) :: l.drop k

/-- CALENDAR_TICK (R95): the steps of the tick's booking work; work of other events stands between them. A cell whose parity fails
is recorded, its column is rebuilt from the records, and the tick's work moves to the next tick (R494). -/
def execCalendarTick (cl : Nat) (s : State) : Out :=
  let k := s.cluster cl
  match k.calBad with
  | some row =>
    let s := s.updCluster cl (fun k => { k with calBad := none, calStep := 0 })
    .next (s.event 0x0504 0 none 3 cl 0 0 row 0)
  | none =>
    let later := fun (j : Nat) => { s with agenda := laterWork cl s.agenda }.updCluster cl (fun k => { k with calStep := j })
    if k.calStep = 0 then .next ((later 1).calendarFirst cl)
    else if k.calStep = 1 then .next ((later 2).calendarStakes cl)
    else if k.calStep = 2 then .next ((later 3).calendarWaits cl)
    else if k.calStep = 3 then .next ((later 4).calendarSecond cl)
    else if k.calStep = 4 then .next ((later 5).ballastAll cl)
    else .next ((s.updCluster cl (fun k => { k with calStep := 0 })).calendarThird cl)

end Sys2Proof.Machine
end

