-- ==== Sys2Proof/Machine/Control.lean ====
section
/-! DEFINITION. Branches, calls and hardware loops (R248-R257). -/

namespace Sys2Proof.Machine

/-- Byte address of the bundle in hand, and of the one after it (R216). -/
def State.pc (s : State) : Nat := s.view.seq.pc
def State.nextPc (s : State) : Nat := s.pc + s.issue.len

/-- pc + sext(off20, 20) (R248). The spec does not say what a target below byte 0 is: here it wraps modulo 2^64, and the fetch there
faults with INFO 2 (DESIGN CHOICE, log 89). -/
def branchTarget (pc : Nat) (o : Fin 1048576) : Nat :=
  (BitVec.ofNat 64 pc + (BitVec.ofNat 20 o.val).signExtend 64).toNat

/-- A taken transfer (R248, R249). -/
def State.jumpTo (s : State) (t : Nat) : State := { s with issue := { s.issue with jump := some t } }

/-- BR (R248). -/
def execBr (o : Fin 1048576) (s : State) : Out :=
  slotOp (.br o) (fun s => .ok (s.jumpTo (branchTarget s.pc o))) s

/-- BRC (R248): taken when p(N) xor neg = 1. -/
def execBrc (p : Fin 16) (n : Fin 2) (o : Fin 1048576) (s : State) : Out :=
  slotOp (.brc p n o) (fun s => .ok (if s.view.rp p != decide (n = 1) then s.jumpTo (branchTarget s.pc o) else s)) s

/-- CALL (R248): the return address goes to s55. -/
def execCall (o : Fin 1048576) (s : State) : Out :=
  slotOp (.call o)
    (fun s => .ok ((s.upd (fun c => c.ws 55 (BitVec.ofNat 64 s.nextPc))).jumpTo (branchTarget s.pc o))) s

/-- JR (R248): to the old s(a), the return address in s(d) unless d is s0. -/
def execJr (d a : Fin 64) (s : State) : Out :=
  slotOp (.jr d a)
    (fun s => .ok ((s.upd (fun c => c.ws d (BitVec.ofNat 64 s.nextPc))).jumpTo (s.view.rs a).toNat)) s

/-- RET (R248). -/
def execRet (a : Fin 64) (s : State) : Out := slotOp (.ret a) (fun s => .ok (s.jumpTo (s.view.rs a).toNat)) s

/-- The checks of R254 on a loop of counter `l` and `stages` stages that ends at `e` (reasons of R455). -/
def loopTrap (loops : List Loop) (l : Fin 4) (stages e : Nat) : Option Trap :=
  if 4 ≤ loops.length then some (.loopState 1)
  else if 1 < stages ∧ loops.any (fun x => decide (1 < x.stages)) = true then some (.loopState 2)
  else if loops.any (fun x => decide (x.n = l)) = true then some (.loopState 3)
  else
    match loops with
    | x :: _ => if x.stop < e then some (.loopState 4) else none
    | [] => none

/-- LOOP and LOOPI (R252) with the count in hand. -/
def pushLoop (l : Fin 4) (st : Fin 8) (body : Fin 4096) (count : Nat) (s : State) : Except Trap State :=
  let start := s.nextPc
  let e := start + body.val + 1
  let stages := st.val + 1
  if 2 ^ 32 ≤ count then .error ⟨0x18, 0, 0⟩
  else
    match loopTrap s.view.x.loops l stages e with
    | some t => .error t
    | none =>
      let s := s.upd (fun c => { c with x := { c.x with lc := c.x.lc.set l 0 } })
      if count = 0 then .ok { s with issue := { s.issue with skip := some e } }
      else
        let total := if stages = 1 then count else count + stages - 1
        .ok (s.upd (fun c => Core.setStages { c with x := { c.x with loops := ⟨l, start, e, count, stages, total⟩ :: c.x.loops } }))

/-- LOOP (R252): the count is in the register that cnt names. -/
def execLoop (l : Fin 4) (st : Fin 8) (b : Fin 4096) (c : Fin 64) (s : State) : Out :=
  slotOp (.loop l st b c) (fun s => pushLoop l st b (s.view.rs c).toNat s) s

/-- LOOPI (R252): the count is cnt. -/
def execLoopi (l : Fin 4) (st : Fin 8) (b : Fin 4096) (c : Fin 256) (s : State) : Out :=
  slotOp (.loopi l st b c) (fun s => pushLoop l st b c.val s) s

/-- The loops that stay when the loop of counter `l` and every loop inside it are popped, and the popped loop's E
(R255). -/
def popTo (l : Fin 4) : List Loop → Option (Nat × List Loop)
  | [] => none
  | x :: rest => if x.n = l then some (x.stop, rest) else popTo l rest

/-- LEXIT (R255): a transfer to the popped loop's E, at the cost of a taken transfer. -/
def execLexit (l : Fin 4) (s : State) : Out :=
  slotOp (.lexit l)
    (fun s =>
      match popTo l s.view.x.loops with
      | none => .error (.loopState 5)
      | some (e, rest) =>
        .ok ((s.upd (fun c => Core.setStages { c with x := { c.x with loops := rest } })).jumpTo e)) s

end Sys2Proof.Machine
end

