-- ==== Sys2Proof/Machine/Arrays.lean ====
section
/-! DEFINITION. Errors in the arrays of a core (R434-R437, R443, R447): which words a bundle reads, what an error that is found comes to, and
the scrub of the arrays. -/

namespace Sys2Proof.Machine

/-! ### Words -/

/-- A flaw of an instruction bank. -/
def Flaw.inBank (f : Flaw) : Bool := decide (f.array = .bank) || decide (f.array = .shadowBank)

/-- The flaws of the instruction banks once the banks have swapped (R22). -/
def swapBanks (l : List Flaw) : List Flaw :=
  (l.filter Flaw.inBank).map (fun f => { f with array := if f.array = .bank then .shadowBank else .bank })

/-- The mask registers that an operation reads: its guard, and the operands of the mask operations (R221, R265). -/
def Instr.masksRead (i : Instr) : List Nat :=
  ((i.guard.toList).filter (fun g => decide (0 < g) && decide (g < 8))) ++
    (match i with
      | .vmand _ a b => [a.val, b.val]
      | .vmor _ a b => [a.val, b.val]
      | .vmxor _ a b => [a.val, b.val]
      | .vmnot _ a => [a.val]
      | .vmpop _ a => [a.val]
      | _ => [])

/-- The vector registers that an operation reads: its sources, and the addend of a fused operation (R220, R271). -/
def Instr.vregsRead (i : Instr) : List Nat :=
  (i.sources.filter (fun x => decide (x < 32))) ++
    (match i with
      | .vfma d _ _ _ _ => [d.val]
      | .vfms d _ _ _ _ => [d.val]
      | .vfnma d _ _ _ _ => [d.val]
      | _ => [])

/-- The entries that an operation reads of rings, as `8·ring + entry`: the heads among its sources, and what it waits for beyond them; RADV reads
none (R259, R261). -/
def Core.entriesRead (c : Core) (i : Instr) : List Nat :=
  let entry := fun (q : Fin 16) (k : Nat) => 8 * q.val + ((c.ring q).rp + k) % (c.ring q).depth
  let heads := (i.sources.filter (fun x => decide (32 ≤ x) && decide (x < 48))).map (fun x => entry (Fin.ofNat 16 (x - 32)) 0)
  match i with
  | .radv _ _ _ _ => []
  | _ => heads ++ (c.statedWaits i).flatMap (fun w => match w with
      | .read q n => (List.range n).map (entry q)
      | .step q _ => (List.range 8).map (entry q)
      | .write _ _ => [])

/-- An operation reads the rows of a tile or of a B buffer (R302, R306, R307): accumulator and row block, or buffer. -/
def Core.tileRead : Instr → Option (Nat × Nat)
  | .mstep a _ _ _ rb _ _ _ => some (a.val, rb.val)
  | .mbias a _ rb _ _ => some (a.val, rb.val)
  | .mrd a _ _ _ rb _ _ _ => some (a.val, rb.val)
  | _ => none

/-- The B buffer that an operation reads (R302). -/
def Core.bufferRead (c : Core) : Instr → Option Bool
  | .mstep _ _ _ _ _ _ _ bsw => some (if bsw = 1 then !c.mat.actb else c.mat.actb)
  | _ => none

/-- Whether an operation reads a word of an array (R434): rows of 512 bytes in an accumulator, of 256 in a B buffer with 128 behind both
buffers for each column's scales, in the transposer, a vector register and a ring entry, and of 32 in a mask (DESIGN CHOICE, log 97). -/
def Core.readsWord (c : Core) (i : Instr) (f : Flaw) : Bool :=
  match f.array with
  | .vreg => (Instr.vregsRead i).contains (f.word / 32)
  | .mask => (Instr.masksRead i).contains (f.word / 4)
  | .ring => (c.entriesRead i).contains (f.word / 32)
  | .acc => (Core.tileRead i).any (fun t => decide (f.word / 512 = 16 * t.1 + t.2))
  | .bBuffer => (c.bufferRead i).any (fun b => if f.word < 8192 then f.word / 4096 == b.toNat else (f.word - 8192) / 2048 == b.toNat)
  | .transposer => match i with
    | .xget _ _ _ _ => true
    | _ => false
  | .bank => false
  | .shadowBank => false

/-- The flaws among the words of the active bank that hold `len` bytes from `pc`. -/
def Core.wordsFetched (c : Core) (pc len : Nat) : List Flaw :=
  c.flaws.filter (fun f => decide (f.array = .bank) && decide (pc / 8 ≤ f.word) && decide (f.word ≤ (pc + len - 1) / 8))

/-- The flaws among the words that the operations of a bundle read. -/
def Core.wordsRead (c : Core) (ops : List Instr) : List Flaw :=
  c.flaws.filter (fun f => ops.any (fun i => c.readsWord i f))

/-! ### An error that is found -/

/-- The context that runs on core `n` (R437): none where no task is on it. -/
def State.ctxOn (s : State) (n : Nat) : Option Nat := (s.core n).team.map (fun _ => (s.core n).csr.ctxId.toNat)

/-- A flawed word of an array of core `n` was read (R434, R437): a corrected one is recorded; an uncorrectable one ends the context that runs on the
core, and is recorded alone where none runs. The syndrome is a free value. -/
def State.flawFound (s : State) (n : Nat) (f : Flaw) : State :=
  let x := s.free
  if f.bad = false then x.2.event 0x301 0 none 0 n (f.word % 65536) 0 (x.1 % 2 ^ 64) 0
  else
    match s.ctxOn n with
    | some c =>
      let s := x.2.event 0x302 3 (some c) 0 n (f.word % 65536) 0 (x.1 % 2 ^ 64) 0
      { s with agenda := .event (.contextEnd c 0x302 0) :: s.agenda }
    | none => x.2.event 0x302 0 none 0 n (f.word % 65536) 0 (x.1 % 2 ^ 64) 0

/-- Every flaw of a list found. -/
def State.flawsFound (s : State) (n : Nat) (l : List Flaw) : State := l.foldl (fun s f => s.flawFound n f) s

/-! ### The scrub (R436) -/

/-- One word of an array is visited in a reserved cycle: which one is a free value (DESIGN CHOICE, log 97); `l` are the flawed ones. A corrected
word is rewritten. -/
def State.scrubArray (s : State) (n : Nat) (l : List Flaw) : State :=
  let x := s.free
  match l[x.1 % (2 * l.length)]? with
  | none => x.2
  | some f =>
    let s := x.2.flawFound n f
    if f.bad then s else s.updCore n (fun c => { c with flaws := c.flaws.filter (fun g => decide (g ≠ f)) })

/-- The scrub of the arrays of core `n`: of each that has a flaw. -/
def State.scrubArrays (s : State) (n : Nat) : State :=
  let l := (s.core n).flaws
  ((l.map Flaw.array).eraseDups).foldl (fun s a => s.scrubArray n (l.filter (fun f => decide (f.array = a)))) s

end Sys2Proof.Machine
end

