-- ==== Sys2Proof/Machine/Hash.lean ====
section
/-! DEFINITION. SHA-256, and the verification of LMS and HSS signatures with it (R1, R66, R414-R418; FIPS 180-4, RFC 8554, NIST SP 800-208,
which the spec names). -/

namespace Sys2Proof.Machine

/-! ### SHA-256 -/

/-- The greatest number below `r + 2 ^ b` whose `e`-th power does not exceed `n`, from `r` on, bit by bit. -/
def rootFrom (e n : Nat) : Nat → Nat → Nat
  | 0, r => r
  | b + 1, r => rootFrom e n b (if (r + 2 ^ b) ^ e ≤ n then r + 2 ^ b else r)

/-- The first 32 bits of the fractional part of the `e`-th root of a number, as FIPS 180-4 defines the constants of SHA-256. -/
def rootWord (e p : Nat) : BitVec 32 := BitVec.ofNat 32 (rootFrom e (p * 2 ^ (32 * e)) 37 0)

/-- The first 64 primes. -/
def shaPrimes : List Nat := ((List.range 310).map (· + 2)).filter (fun p => (List.range 16).all (fun d => decide (p ≤ d + 2) || p % (d + 2) != 0))

/-- The round constants: from the cube roots of the primes. -/
def shaK : List (BitVec 32) := shaPrimes.map (rootWord 3)

/-- The eight working words. -/
structure ShaWords where
  a : BitVec 32
  b : BitVec 32
  c : BitVec 32
  d : BitVec 32
  e : BitVec 32
  f : BitVec 32
  g : BitVec 32
  h : BitVec 32
  deriving DecidableEq, Repr

/-- The initial hash value: from the square roots of the first eight primes. -/
def shaInit : ShaWords :=
  let r := shaPrimes.map (rootWord 2)
  let w := fun (k : Nat) => r.getD k 0
  ⟨w 0, w 1, w 2, w 3, w 4, w 5, w 6, w 7⟩

/-- The functions σ of the message schedule and Σ of a round: three rotations, or two and a shift. -/
def shaMix (x : BitVec 32) (i j k : Nat) (shift : Bool) : BitVec 32 :=
  x.rotateRight i ^^^ x.rotateRight j ^^^ (if shift then x >>> k else x.rotateRight k)

/-- One round with a message word and a round constant. -/
def shaRound (s : ShaWords) (k w : BitVec 32) : ShaWords :=
  let t := s.h + shaMix s.e 6 11 25 false + ((s.e &&& s.f) ^^^ (~~~s.e &&& s.g)) + k + w
  let u := shaMix s.a 2 13 22 false + ((s.a &&& s.b) ^^^ (s.a &&& s.c) ^^^ (s.b &&& s.c))
  ⟨t + u, s.a, s.b, s.c, s.d + t, s.e, s.f, s.g⟩

/-- The rounds for the constants given, `w` being the next 16 words of the message schedule. -/
def shaRounds : List (BitVec 32) → List (BitVec 32) → ShaWords → ShaWords
  | [], _, s => s
  | k :: ks, w, s =>
    let next := shaMix (w.getD 14 0) 17 19 10 true + w.getD 9 0 + shaMix (w.getD 1 0) 7 18 3 true + w.getD 0 0
    shaRounds ks (w.drop 1 ++ [next]) (shaRound s k (w.getD 0 0))

/-- Two hash values added word by word. -/
def ShaWords.add (s t : ShaWords) : ShaWords := ⟨s.a + t.a, s.b + t.b, s.c + t.c, s.d + t.d, s.e + t.e, s.f + t.f, s.g + t.g, s.h + t.h⟩

/-- A big-endian number in bytes. -/
def bigOf (bs : List Byte) : Nat := natOfBytes bs.reverse

/-- `n` bytes of a number, the highest first. -/
def bigBytes (n v : Nat) : List Byte := (bytesOfNat n v).reverse

/-- `k` big-endian words of a block. -/
def shaBlock : Nat → List Byte → List (BitVec 32)
  | 0, _ => []
  | k + 1, bs => BitVec.ofNat 32 (bigOf (bs.take 4)) :: shaBlock k (bs.drop 4)

/-- The hash of `n` blocks of 64 bytes. -/
def shaBlocks : Nat → List Byte → ShaWords → ShaWords
  | 0, _, s => s
  | n + 1, bs, s => shaBlocks n (bs.drop 64) (s.add (shaRounds shaK (shaBlock 16 bs) s))

/-- A message padded to whole blocks. -/
def shaPad (bs : List Byte) : List Byte :=
  bs ++ [0x80] ++ List.replicate ((119 - bs.length % 64) % 64) 0 ++ bigBytes 8 (8 * bs.length)

/-- SHA-256 of a byte string: 32 bytes. -/
def sha256 (bs : List Byte) : List Byte :=
  let p := shaPad bs
  let s := shaBlocks (p.length / 64) p shaInit
  [s.a, s.b, s.c, s.d, s.e, s.f, s.g, s.h].flatMap (fun w => bigBytes 4 w.toNat)

/-! ### LM-OTS and LMS with SHA-256, n = 32 (R414) -/

/-- Winternitz width, chains and checksum shift of an LM-OTS type; none where the device does not accept it. -/
def otsParams (type : Nat) : Option (Nat × Nat × Nat) :=
  if type = 1 then some (1, 265, 7) else if type = 2 then some (2, 133, 6) else if type = 3 then some (4, 67, 4)
  else if type = 4 then some (8, 34, 0) else none

/-- Height of an LMS type; none where the device does not accept it. -/
def lmsHeight (type : Nat) : Option Nat := if 5 ≤ type ∧ type ≤ 9 then some (5 * (type - 4)) else none

/-- The i-th digit of `w` bits of a byte string. -/
def otsDigit (bs : List Byte) (i w : Nat) : Nat := (bs.getD (i * w / 8) 0).toNat / 2 ^ (8 - (w * (i % (8 / w)) + w)) % 2 ^ w

/-- A chain value carried on `k` times from position `j`. -/
def otsChain (id q i : List Byte) : Nat → Nat → List Byte → List Byte
  | 0, _, v => v
  | k + 1, j, v => otsChain id q i k (j + 1) (sha256 (id ++ q ++ i ++ bigBytes 1 j ++ v))

/-- The digits that a signature's chains start from: of the message's hash, and of the checksum after it. -/
def otsDigits (hash : List Byte) (w ls : Nat) (p : Nat) : List Nat :=
  let sum := ((List.range (256 / w)).map (fun i => 2 ^ w - 1 - otsDigit hash i w)).sum
  let all := hash ++ bigBytes 2 (sum * 2 ^ ls % 65536)
  (List.range p).map (fun i => otsDigit all i w)

/-- The LM-OTS public key that a signature gives for a message, at leaf `q` of the tree `id`. -/
def otsKey (w p ls : Nat) (id q c y msg : List Byte) : List Byte :=
  let hash := sha256 (id ++ q ++ [0x81, 0x81] ++ c ++ msg)
  let z := (otsDigits hash w ls p).mapIdx (fun i a => otsChain id q (bigBytes 2 i) (2 ^ w - 1 - a) a ((y.drop (32 * i)).take 32))
  sha256 (id ++ q ++ [0x80, 0x80] ++ z.flatten)

/-- The root that a path of `h` nodes gives for a node. -/
def lmsRoot (id : List Byte) : Nat → Nat → List Byte → List Byte → List Byte
  | 0, _, _, v => v
  | h + 1, node, path, v =>
    let pair := if node % 2 = 1 then path.take 32 ++ v else v ++ path.take 32
    lmsRoot id h (node / 2) (path.drop 32) (sha256 (id ++ bigBytes 4 (node / 2) ++ [0x83, 0x83] ++ pair))

/-- Length of an LMS signature under a public key; none where its types are not accepted. -/
def lmsLength (key : List Byte) : Option Nat :=
  match lmsHeight (bigOf (key.take 4)), otsParams (bigOf ((key.drop 4).take 4)) with
  | some h, some (_, p, _) => some (4 + (36 + 32 * p) + 4 + 32 * h)
  | _, _ => none

/-- An LMS signature of a message verifies under a public key of 56 bytes: types, identifier and root. -/
def lmsVerify (key msg sig : List Byte) : Bool :=
  let id := (key.drop 8).take 16
  match lmsHeight (bigOf (key.take 4)), otsParams (bigOf ((key.drop 4).take 4)) with
  | some h, some (w, p, ls) =>
    let q := sig.take 4
    let ots := sig.drop 4
    let rest := ots.drop (36 + 32 * p)
    let node := 2 ^ h + bigOf q
    let leaf := sha256 (id ++ bigBytes 4 node ++ [0x82, 0x82] ++ otsKey w p ls id q ((ots.drop 4).take 32) (ots.drop 36) msg)
    key.length == 56 && some sig.length == lmsLength key && decide (bigOf q < 2 ^ h) && ots.take 4 == (key.drop 4).take 4
      && rest.take 4 == key.take 4 && lmsRoot id h node (rest.drop 4) leaf == key.drop 24
  | _, _ => false

/-- An HSS public key whose types the device accepts (R403, R414): 1 or 2 levels, and the top-level LMS public key (PRESUMED, log 67). -/
def hssKeyOk (key : List Byte) : Bool :=
  key.length == 60 && (bigOf (key.take 4) == 1 || bigOf (key.take 4) == 2) && (lmsLength (key.drop 4)).isSome

/-- An HSS signature of a message verifies under an HSS public key (R414-R418). -/
def hssVerify (key msg sig : List Byte) : Bool :=
  let top := key.drop 4
  hssKeyOk key && bigOf (sig.take 4) + 1 == bigOf (key.take 4) && sig.length != 0
    && (if bigOf (key.take 4) = 1 then lmsVerify top msg (sig.drop 4)
        else
          let n := (lmsLength top).getD 0
          let s1 := (sig.drop 4).take n
          let next := (sig.drop (4 + n)).take 56
          lmsVerify top next s1 && lmsVerify next msg (sig.drop (60 + n)))

end Sys2Proof.Machine
end

