-- ==== Sys2Proof/Machine/Image.lean ====
section
/-! DEFINITION. Front-end accesses to global memory; task images: their records, and the checks of the loader (R79, R107, R228-R231,
R257, R417, R488, R489). -/

namespace Sys2Proof.Machine

/-! ### Accesses of the GS and the fetchers (R140, R391, R437) -/

/-- The I/O die's page walker and TLB stand beside those of the clusters. -/
def frontCluster : Nat := 32

/-- Why a front-end access is not made. -/
inductive Stop' where
  | page (va : Nat)
  | link
  /-- The snoop filter is full (R400): the access is tried again. -/
  | busy
  | fail (status : Nat)
  deriving DecidableEq, Repr

/-- The page of a front-end access that reads, writes or does both. One to tier 2 holds its lines for the one step in which it is made, and waits
while the snoop filter is full (R400). -/
def State.frontPage (s : State) (ctx va : Nat) (read write : Bool) : State × Except Stop' Page :=
  match s.translate frontCluster none ctx va read write true with
  | (s, .ok p) =>
    if !s.reachable p then (s, .error .link)
    else if p.tier = 2 ∧ s.filterFull p.pa 1 = true then (s, .error .busy)
    else (s, .ok p)
  | (s, .error .pageFault) => (s.noteFault ctx va, .error (.page va))
  | (s, .error .protection) => (s, .error (.fail stProtection))
  | (s, .error .format) => (s, .error (.fail stWalkFormat))
  | (s, .error .data) => (s, .error (.fail stData))

/-- Bytes of a range read by the front end. A poisoned block ends the context (R437). -/
def State.frontRead (s : State) (ctx va n : Nat) : State × Except Stop' (List Byte) :=
  (piecesOf va n).foldl
    (fun (r : State × Except Stop' (List Byte)) p =>
      match r.2 with
      | .error _ => r
      | .ok bs =>
        match r.1.frontPage ctx p.1 true false with
        | (s, .error e) => (s, .error e)
        | (s, .ok q) =>
          match s.readHome q.tier q.pa p.2 with
          | (s, some y) => (s, .ok (bs ++ y))
          | (s, none) => (s.blockError (some ctx) q.tier q.pa q.va, .error (.fail stData)))
    (s, .ok [])

/-- Bytes inside one block written by the front end. -/
def State.frontWrite (s : State) (ctx va : Nat) (bs : List Byte) : State × Option Stop' :=
  match s.frontPage ctx va false true with
  | (s, .error e) => (s, some e)
  | (s, .ok q) =>
    match s.writeHome q.tier q.pa q.cmp bs with
    | (s, true) => (s, none)
    | (s, false) => (s.blockError (some ctx) q.tier q.pa q.va, some (.fail stData))

/-- Bytes written by the front end block by block. -/
def State.frontWriteAll (s : State) (ctx va : Nat) (bs : List Byte) : State × Option Stop' :=
  (piecesOf va bs.length).foldl
    (fun (r : State × Option Stop') p => match r.2 with
      | some _ => r
      | none => r.1.frontWrite ctx p.1 ((bs.drop (p.1 - va)).take p.2)) (s, none)

/-- A double added to at its home as one atomic (R387). -/
def State.frontAdd (s : State) (ctx va v : Nat) : State × Option Stop' :=
  match s.frontPage ctx va true true with
  | (s, .error e) => (s, some e)
  | (s, .ok q) =>
    match s.atomicHome q.tier q.pa 8 q.cmp (fun o => some ((o + v) % 2 ^ 64)) with
    | (s, some _) => (s, none)
    | (s, none) => (s.blockError (some ctx) q.tier q.pa q.va, some (.fail stData))

/-! ### Records of an image (R78, R229, R230) -/

/-- A little-endian number in a list of bytes. -/
def num (b : List Byte) (off n : Nat) : Nat := natOfBytes ((b.drop off).take n)

/-- The furrow record of two doubles (R78). -/
def furrowOf (d0 d1 : Nat) : Furrow :=
  { dur := bits d0 11 0 + 1, slack := bits d0 21 12, rep := bits d0 37 22 + 1, slots := bits d0 43 38, cshare := bits d0 47 44,
    ixe := bit d0 48, mesh := bits d0 52 49, mshare := bits d0 56 53, frd := bits d1 7 0, fwr := bits d1 15 8, crd := bits d1 31 16,
    cwr := bits d1 47 32, eq := bits d1 55 48 }

/-- The region record at an offset (R230), its BASE not yet known. -/
def regionOf (b : List Byte) (o : Nat) : Region :=
  let f := num b o 1
  { valid := true, commons := bit f 0, base := 0, size := num b (o + 4) 4, cls := bits f 2 1, act := bits f 4 3, span := bits f 7 5,
    mapped := bit (num b (o + 1) 1) 0, mapva := num b (o + 8) 8 }

/-- Places of the variable records of a header. -/
structure Places where
  furrows : Nat
  regions : Nat
  pipes : Nat
  headlands : Nat
  barriers : Nat
  data : Nat
  stop : Nat
  deriving DecidableEq, Repr

/-- Where the records of a header stand (R229). -/
def placesOf (b : List Byte) : Places :=
  let r := 128 + 16 * num b 24 2
  let p := r + 16 * num b 26 1
  let h := p + 8 * num b 27 1
  let q := h + 4 * num b 30 2
  let d := q + 4 * num b 120 1
  ⟨128, r, p, h, q, d, d + num b 112 4⟩

/-- The heads of the data records from an offset to `stop`: where the record's bytes stand, region, offset in it, length. -/
def dataHeads (b : List Byte) (stop : Nat) : Nat → Nat → List (Nat × Nat × Nat × Nat)
  | 0, _ => []
  | k + 1, o =>
    if stop ≤ o then []
    else
      let n := num b (o + 8) 4
      (o + 12, num b o 4, num b (o + 4) 4, n) :: dataHeads b stop k (o + (12 + n + 7) / 8 * 8)

/-- The data records of a header: region, offset, bytes. -/
def dataRecords (b : List Byte) (stop n o : Nat) : List (Nat × Nat × List Byte) :=
  (dataHeads b stop n o).map (fun h => (h.2.1, h.2.2.1, (b.drop h.1).take h.2.2.2))

/-- An image from its bytes (R229, R230). -/
def imageOf (b : List Byte) : Image :=
  let p := placesOf b
  { flags := num b 6 2, usem := BitVec.ofNat 64 (num b 16 8), teamSize := num b 28 1, gangRole := num b 29 1,
    fmtInit := BitVec.ofNat 64 (num b 32 8), vctlInit := BitVec.ofNat 4 (num b 40 4), vseedInit := BitVec.ofNat 32 (num b 44 4),
    rings := (List.range 16).map (fun q => (num b (48 + 4 * q) 1, num b (49 + 4 * q) 1, num b (50 + 4 * q) 1)),
    furrows := (List.range (num b 24 2)).map (fun k => furrowOf (num b (p.furrows + 16 * k) 8) (num b (p.furrows + 16 * k + 8) 8)),
    regions := (List.range (num b 26 1)).map (fun k => regionOf b (p.regions + 16 * k)),
    pipes := (List.range (num b 27 1)).map (fun k =>
      let o := p.pipes + 8 * k
      ⟨num b o 1, num b (o + 1) 1 == 1, num b (o + 2) 1, num b (o + 4) 2, num b (o + 6) 1, num b (o + 7) 1⟩),
    headlands := (List.range (num b 30 2)).map (fun k => num b (p.headlands + 4 * k) 4),
    barriers := (List.range (num b 120 1)).map (fun k => (num b (p.barriers + 4 * k) 1, num b (p.barriers + 4 * k + 2) 2)),
    data := dataRecords b p.stop (num b 112 4) p.data,
    code := (b.drop (num b 8 4)).take (num b 12 4) }

/-! ### The linear decode (R228) -/

/-- One bundle of the linear decode: its offset, what stands there, its length. -/
structure Found where
  pc : Nat
  at' : Fetched
  deriving Repr

/-- Bodies that a bundle leaves in the latches (R215). -/
def latchAfter (l : Tbl Nat) (b : Bundle) : Tbl Nat :=
  b.slots.foldl (fun l x => match x.body with | some w => tset l x.slot.index w | none => l) l

/-- The linear decode of code from `pc` on, line by line, with the latches as it leaves them. -/
def linearFrom (code : List Byte) : Nat → Nat → Tbl Nat → List Found
  | 0, _, _ => []
  | k + 1, pc, l =>
    if code.length ≤ pc then []
    else
      match parseBundle pc (fun k => tfind l k.index) (code.drop pc) with
      | .padding => linearFrom code k ((pc / 64 + 1) * 64) l
      | .malformed r h d i => ⟨pc, .malformed r h d i⟩ :: linearFrom code k ((pc / 64 + 1) * 64) l
      | .bundle b => ⟨pc, .bundle b⟩ :: linearFrom code k (pc + b.len) (latchAfter l b)

def linearDecode (code : List Byte) : List Found := linearFrom code (code.length + 1) 0 []

/-- The bundle found at a place. -/
def Found.bundle (f : Found) : Option Bundle :=
  match f.at' with
  | .bundle b => some b
  | _ => none

/-- The operations of a bundle found. -/
def Found.ops (f : Found) : List Instr :=
  match f.bundle with
  | some b => b.slots.filterMap (fun x => match x.body with
      | some w => match decodeBody x.slot w with | .ok i => some i | .error _ => none
      | none => none)
  | none => []

/-- A malformed bundle, a reserved opcode, a nonzero reserved field or a reserved operand value (R231). -/
def Found.bad (f : Found) : Bool :=
  match f.bundle with
  | none => true
  | some b => b.slots.any (fun x => match x.body with
      | some w => match decodeBody x.slot w with
        | .ok i => i.fieldFault.isSome || i.operandFault.isSome
        | .error _ => true
      | none => false)

/-- The classes that an operation needs declared (R228): an MSTEP's follow from the initial format table, whose codes 0 to 7 name
a class each. -/
def loaderClasses (fmt : Double) (i : Instr) : List Nat :=
  match i with
  | .mstep _ _ fs ft _ _ _ _ =>
    let e := fun (k : Nat) => let code := bits fmt.toNat (4 * k + 3) (4 * k); if code < 8 then [33 + code] else []
    if fs.val = 4 then e ft.val else (List.range 16).flatMap e
  | _ => i.classes

def isWaitb : Instr → Bool
  | .waitb _ => true
  | _ => false

/-- Length of the body of a hardware loop. -/
def loopBody : Instr → Option Nat
  | .loop _ _ b _ => some (b.val + 1)
  | .loopi _ _ b _ => some (b.val + 1)
  | _ => none

/-- Where the bundle after a bundle found stands. -/
def Found.next (f : Found) : Nat := f.pc + (f.bundle.map Bundle.len).getD 0

/-! ### The loader's conditions (R231, R489) -/

/-- Reserved fields and counts of a header, the second condition (DEDUCED, log 43). -/
def headerBad (b : List Byte) : Bool :=
  let p := placesOf b
  let h := num b 8 4
  let c := num b 12 4
  let zero := fun (o n : Nat) => num b o n != 0
  let nums := (List.range (num b 120 1)).map (fun k => num b (p.barriers + 4 * k) 1)
  decide (4 ≤ num b 6 2) || h % 64 != 0 || c % 64 != 0 || decide (c < 64) || decide (262144 < c) || decide (h < p.stop)
    || decide (num b 24 2 = 0) || decide (1024 < num b 24 2) || decide (16 < num b 26 1) || decide (16 < num b 27 1)
    || decide (num b 28 1 = 0) || decide (64 < num b 28 1) || (decide (7 < num b 29 1) && num b 29 1 != 255)
    || decide (16 < num b 120 1) || zero 121 7
    || decide (16 ≤ num b 40 4) || decide (5 ≤ num b 40 4 % 8)
    || (num b 27 1 != 0 && num b 29 1 == 255)
    || nums.any (fun x => decide (16 ≤ x)) || decide (nums.eraseDups.length ≠ nums.length)
    || (List.range (num b 120 1)).any (fun k => zero (p.barriers + 4 * k + 1) 1)
    || (List.range 16).any (fun q => decide (num b (48 + 4 * q) 1 = 0) || decide (8 < num b (48 + 4 * q) 1) || zero (51 + 4 * q) 1
        || decide (num b (49 + 4 * q) 1 = 0) || decide (num b (50 + 4 * q) 1 = 0))
    || (List.range (num b 24 2)).any (fun k => decide (2 ^ 57 ≤ num b (128 + 16 * k) 8) || decide (2 ^ 56 ≤ num b (136 + 16 * k) 8))
    || (List.range (num b 26 1)).any (fun k =>
        let o := p.regions + 16 * k
        decide (2 ≤ num b (o + 1) 1) || zero (o + 2) 2 || (num b (o + 1) 1 == 0 && zero (o + 8) 8))
    || (List.range (num b 27 1)).any (fun k =>
        let o := p.pipes + 8 * k
        decide (16 ≤ num b o 1) || decide (2 ≤ num b (o + 1) 1) || zero (o + 3) 1 || decide (5 ≤ num b (o + 2) 1)
          || decide (num b (o + 4) 2 < 8) || decide (4096 < num b (o + 4) 2) || num b (o + 4) 2 % 8 != 0)
    || (dataHeads b p.stop (num b 112 4) p.data).any (fun d => decide (p.stop < d.1 + d.2.2.2))
    || ((b.drop p.stop).take (h - p.stop)).any (fun x => x != 0)

/-- A furrow record breaks R79. -/
def furrowBad (f : Furrow) : Bool :=
  decide (8 < f.cshare) || (if f.mesh = 0 then f.mshare != 0 else decide (f.mshare = 0) || decide (8 < f.mshare))

/-- A region record breaks R107. -/
def regionBad (r : Region) : Bool :=
  let unit := if r.commons then 32768 else 2048
  r.size % unit != 0 || decide (r.size = 0) || decide ((if r.commons then 2 ^ 25 else 2 ^ 23) < r.size) || r.act == 3
    || (if r.commons then r.span == 6 else r.span != 0) || (r.cls == 3 && r.act != 0) || (r.act == 2 && !r.mapped)
    || (r.mapped && (!canonical r.mapva || r.mapva % 2048 != 0))

/-- A pipe record breaks its depth (R231, R338). -/
def pipeBad (p : PipeRec) : Bool := decide (p.depth < p.worst) || decide (min 64 (16384 / p.size) < p.worst)

/-- Rings whose entries an operation may write, hold, publish or reset (R259, R261-R263). -/
def ringsGiven (i : Instr) : List Nat :=
  match i with
  | .radv q w _ _ => if w = 1 then [q.val] else []
  | .rfill q _ => [q.val]
  | .rcfg q _ _ _ => [q.val]
  | _ => i.dests.filterMap (fun d => if d.1 = 5 then some d.2 else none)

/-- An operation without a guard reads a ring that no operation before it has given an entry: h is 0, and no landing result can meet the wait
(R258, R260). -/
def starves (given : List Nat) (i : Instr) : Bool :=
  i.guard.isNone && (Core.init.waits i).any (fun w => match w with
    | .read q _ => !given.contains q.val
    | .step q _ => !given.contains q.val
    | .write _ _ => false)

/-- The bundle after an operation need not be the next that issues. -/
def leavesPath : Instr → Bool
  | .jr _ _ | .ret _ | .br _ | .brc _ _ _ | .call _ | .loop _ _ _ _ | .loopi _ _ _ _ | .lexit _ | .exit | .trap _ => true
  | _ => false

/-- On the bundles that every run issues first, up to the first that may leave them, some operation starves. -/
def starvedFrom : List Found → List Nat → Bool
  | [], _ => false
  | f :: rest, given =>
    f.ops.any (starves given) || (!f.ops.any leavesPath && starvedFrom rest (given ++ f.ops.flatMap ringsGiven))

/-- Every ring wait of an image is satisfied by construction (R57, R231): so it is where there is none, and not where the first bundles read an empty
ring (R260). Between the two the spec gives no procedure (DESIGN CHOICE, log 14). -/
def ringWaits (i : Image) (f : List Found) : Bool :=
  if (f.flatMap Found.ops).all (fun x => (Core.init.waits x).isEmpty) then true
  else !starvedFrom f [] && Config.ringWaitsMet i.rings i.code

/-- The 3rd to 10th conditions of R231 and the loop bounds of R257, in the order of R489. -/
def loaderConditions (b : List Byte) (i : Image) : List Bool :=
  let f := linearDecode i.code
  let ends := f.map Found.next
  [ f.any Found.bad,
    (f.flatMap Found.ops).any (fun x => (loaderClasses i.fmtInit x).any (fun k => !i.usem.getLsbD k)) || !(i.usem &&& ~~~allClasses == 0),
    i.furrows.any furrowBad || i.regions.any regionBad,
    i.rings.any (fun r => decide (r.1 < r.2.1) || decide (r.1 < r.2.2)),
    i.pipes.any pipeBad,
    f.any (fun x => x.ops.any isWaitb && !i.headlands.contains x.pc)
      || i.headlands.any (fun h => !f.any (fun x => x.pc == h && x.ops.any isWaitb)),
    !ringWaits i f,
    (dataHeads b (placesOf b).stop (num b 112 4) (placesOf b).data).any (fun d =>
      match i.regions[d.2.1]? with | some r => decide (r.size < d.2.2.1 + d.2.2.2) | none => true),
    f.any (fun x => (x.ops.filterMap loopBody).any (fun n => decide (i.code.length < x.next + n) || !ends.contains (x.next + n))) ]

/-- What the loader finds in an image (R231): the DETAIL of event 0x0502, or the image. -/
def loaderCheck (b : List Byte) : Except Nat Image :=
  if num b 0 4 ≠ 0x4946444B ∨ num b 4 2 ≠ 1 then .error 1
  else if headerBad b then .error 2
  else
    let i := imageOf b
    match (loaderConditions b i).findIdx? (fun x => x) with
    | some k => .error (k + 3)
    | none => .ok i

/-- An image's signature verifies under the key slot of its context (R417). -/
def State.signed (s : State) (ctx : Nat) (body sig : List Byte) : Bool :=
  match tfind s.contexts ctx with
  | none => false
  | some c => match tfind s.keys c.key with
    | some k => hssVerify k body sig
    | none => false

/-- Length of an image as its header states it: header and code, and the signature. -/
def imageLengths (h : List Byte) : Nat × Nat := (num h 8 4 + num h 12 4, num h 116 4)

/-- An image read and checked by the GS (R488, R489): the image or the DETAIL of its event 0x0502, and whether its signature verifies; or why it
could not be read. The header is read first; where it is none, or states no length, there is no signature to verify. -/
def State.readImage (s : State) (ctx va : Nat) : State × Except Stop' (Except Nat Image × Bool) :=
  match s.frontRead ctx va 128 with
  | (s, .error e) => (s, .error e)
  | (s, .ok h) =>
    if num h 0 4 ≠ 0x4946444B ∨ num h 4 2 ≠ 1 then (s, .ok (.error 1, true))
    else if num h 12 4 < 64 ∨ 262144 < num h 12 4 then (s, .ok (.error 2, true))
    else
      let n := imageLengths h
      match s.frontRead ctx va (n.1 + n.2) with
      | (s, .error e) => (s, .error e)
      | (s, .ok b) => (s, .ok (loaderCheck (b.take n.1), s.signed ctx (b.take n.1) (b.drop n.1)))

/-- The events of a refusal (R489): the row's, and one for each image whose signature does not verify. -/
def State.refusalEvents (s : State) (ctx : Nat) (r : Nat × Nat × Nat) (unsigned : List Nat) : State :=
  unsigned.foldl (fun s va => s.event 0xC01 0 (some ctx) 9 0 0 va (((tfind s.contexts ctx).map Context.key).getD 0) 0)
    (s.event r.1 0 (some ctx) 9 0 0 r.2.2 r.2.1 0)

end Sys2Proof.Machine
end

