-- ==== Sys2Proof/Machine/Units.lean ====
section
/-! DEFINITION. Messages of the firmware tree (R392), units of work and their counter records (R40-R50, R384-R386), how a member leaves its
core (R52, R110), and the stop and cancel of instances (R49, R50, R449). -/

namespace Sys2Proof.Machine

/-! ### Messages about teams (R392) -/

/-- PERMIT_RETURN (R392, R396): a message leaves an inbox, its permit returns, and a held message is sent. -/
def execPermitReturn (cl : Nat) (toCC : Bool) (s : State) : Out :=
  .next (s.updCluster cl (fun c => if toCC then { c with toCC := c.toCC.take s.tick } else { c with toGS := c.toGS.take s.tick }))

/-- Clusters of a team's members. -/
def Team.clusters (t : Team) : List Nat := (t.members.map (fun m => clusterOf m.core)).eraseDups

/-- A message about a team on the link of each of its clusters. -/
def State.sendTeam (s : State) (k : MsgKind) (tn : Nat) : State :=
  match s.team tn with
  | some t => t.clusters.foldl (fun s cl => s.send k cl tn) s
  | none => s

/-- A new wait of a team begins; the ticks that it has waited before count toward its age (R394, R483; DEDUCED, log 114). -/
def Team.rewait (t : Team) (now : Nat) : Team := { t with waited := t.waited + (if t.state = .running ∨ t.state = .stopping then 0 else now - t.since), since := now }

/-! ### Counter records (R386) -/

def State.unit (s : State) (u : Nat) : Option UnitRec := tfind s.units u

def State.updUnit (s : State) (u : Nat) (f : UnitRec → UnitRec) : State :=
  match tfind s.units u with
  | some x => { s with units := tset s.units u (f x) }
  | none => s

def State.inst (s : State) (i : Nat) : Option Instance := tfind s.insts i

def State.updInst (s : State) (i : Nat) (f : Instance → Instance) : State :=
  match tfind s.insts i with
  | some x => { s with insts := tset s.insts i (f x) }
  | none => s

/-- The 32 bytes of a unit's record. -/
def recordBytes (u : Nat) (x : UnitRec) : List Byte :=
  bytesOfNat 4 x.count ++ bytesOfNat 4 (if x.closed then x.expected else 0xFFFFFFFF)
    ++ bytesOfNat 4 (x.status + x.kind * 256) ++ bytesOfNat 4 u ++ bytesOfNat 8 x.start ++ bytesOfNat 8 x.finish

/-- A front-end write that cannot be performed is dropped with event 0x0603 (R386, R492). -/
def State.dropWrite (s : State) (ctx va status : Nat) : State := s.event 0x603 0 (some ctx) 9 0 0 va status 0

/-- The host interrupt of a queue: its MSI-X vector is posted (R383, R399). -/
def State.interrupt (s : State) (q : Option Nat) : State :=
  match q with
  | some q => { s with log := { s.log with posts := s.log.posts ++ [q] } }
  | none => s

/-- A write of the front end has been performed or dropped: its interrupt is due, and a FENCE of its queue looks again (R383, R387). -/
def State.endWrite (s : State) (w : FrontWrite) : State :=
  let s := s.interrupt w.interrupt
  match w.queue with
  | some q => s.push (.waitReevaluate q)
  | none => s

/-- A write of the front end that waits for its page, or is performed, or dropped (R386). -/
def State.tryRecord (s : State) (w : FrontWrite) : State :=
  match s.frontWriteAll w.ctx w.va w.bytes with
  | (s, none) => s.endWrite w
  | (s, some (.fail st)) => (s.dropWrite w.ctx w.va st).endWrite w
  | (s, some _) => { s with recWrites := s.recWrites ++ [w] }

/-- The record of a unit is written whole; updates of one record are performed in order (R386). -/
def State.writeRecord (s : State) (u : Nat) : State :=
  match s.unit u with
  | none => s
  | some x =>
    let w : FrontWrite := ⟨x.ctx, x.record, recordBytes u x, false, none, false, 0, none⟩
    if s.recWrites.any (fun v => v.ctx == w.ctx && v.va == w.va) then { s with recWrites := s.recWrites ++ [w] } else s.tryRecord w

/-- Record writes that wait are tried again, in order. -/
def State.retryRecords (s : State) : State :=
  s.recWrites.foldl
    (fun s w => if s.recWrites.any (fun v => v.ctx == w.ctx && v.va == w.va) then { s with recWrites := s.recWrites ++ [w] } else s.tryRecord w)
    { s with recWrites := [] }

/-! ### Units that finish (R47, R49) -/

/-- The number under which bookings by BOOK stand for a member that holds no core. -/
def absentKey (tn rank : Nat) : Nat := 2 ^ 20 + tn * 64 + rank

/-- The holder of bookings by BOOK changes: the core, or, under an `absentKey`, what a swap saved of the member. -/
def State.updHolder (s : State) (n : Nat) (f : Core → Core) : State :=
  if n < 2 ^ 20 then s.updCore n f
  else s.updTeam ((n - 2 ^ 20) / 64) (fun t =>
    { t with members := t.members.map (fun m => if m.rank = (n - 2 ^ 20) % 64 then { m with saved := m.saved.map (fun v => { v with core := f v.core }) } else m) })

/-- A booking by BOOK released, with its handle or its queue's hold on it (R377, R387). -/
def State.dropReservation (s : State) (r : Reservation) : State :=
  let s := s.releaseTeam r.team s.tick
  let s := match r.core with
    | some n => s.updHolder n (fun c => { c with handles := c.handles.filter (fun h => h ≠ r.handle) })
    | none => s
  { s with reservations := s.reservations.filter (fun x => x.team ≠ r.team),
           queues := tmap (fun _ x => if x.booking = some r.team then { x with booking := none } else x) s.queues }

/-- Bookings by BOOK that `p` selects released. -/
def State.dropReservations (s : State) (p : Reservation → Bool) : State := (s.reservations.filter p).foldl State.dropReservation s

/-- A unit has not finished. -/
def UnitRec.open' (x : UnitRec) : Bool := decide (x.status < 2)

/-- Two ranges share a byte. -/
def shares (a b : Nat × Nat) : Bool := decide (max a.1 b.1 < min (a.1 + a.2) (b.1 + b.2))

/-- A later launch depends on an earlier one (R44). -/
def UnitRec.dependsOn (y x : UnitRec) : Bool :=
  decide (x.parent = y.parent) && decide (x.order < y.order)
    && (x.writes.any (fun w => (y.reads ++ y.writes).any (shares w)) || x.reads.any (fun r => y.writes.any (shares r)))

/-- Launches that a launch depends on. -/
def State.predecessors (s : State) (y : UnitRec) : List UnitRec :=
  (s.units.map Prod.snd).filter (fun x => x.kind == 0 && y.dependsOn x)

/-- The booking that a launch was to use and has not used is released (R50, R377). -/
def State.dropLaunchBooking (s : State) (u : Nat) : State :=
  match (s.unit u).bind UnitRec.booking with
  | some h => s.dropReservations (fun r => decide (r.team = h))
  | none => s

/-- A unit whose count has reached its expected value finishes (R47): its record, its queue's interrupt, its parent's count. -/
def State.finishUnit (s : State) (u : Nat) : State :=
  match s.unit u with
  | none => s
  | some x =>
    if x.open' && x.closed && decide (x.expected ≤ x.count) then
      let st := if x.faulted then 3 else if x.cancelled then 4 else 2
      let s := (s.updUnit u (fun x => { x with status := st, finish := s.tick })).writeRecord u
      let s := s.dropLaunchBooking u
      let s := if x.interrupt then s.interrupt x.queue else s
      let s := match x.parent with
        | some p => (s.updUnit p (fun y => { y with count := y.count + 1, faulted := y.faulted || x.faulted,
                                                      cancelled := y.cancelled || x.cancelled })).writeRecord p
        | none => s
      match x.queue with
      | some q => if x.kind = 0 then (s.push (.deferredWritePerform q)).push (.waitReevaluate q) else s
      | none => s
    else s

/-- Instances of a launch not yet made are dropped and count as finished (R50). -/
def UnitRec.dropUnmade (x : UnitRec) : UnitRec := { x with count := x.count + (x.total - x.made), made := x.total, cancelled := true }

/-- A launch that depends on one that faulted or was cancelled becomes CANCELLED (R49). -/
def State.cancelDependent (s : State) (u : Nat) : State :=
  match s.unit u with
  | none => s
  | some y =>
    if y.kind = 0 ∧ y.open' = true ∧ y.made = 0 ∧ (s.predecessors y).any (fun x => decide (3 ≤ x.status)) = true then
      (s.updUnit u UnitRec.dropUnmade).finishUnit u
    else s.finishUnit u

/-- Units of one kind, by number. -/
def State.unitsOf (s : State) (kind : Nat) : List Nat := (s.units.filter (fun p => p.2.kind == kind)).map Prod.fst

/-- Jobs that have finished leave the tables with everything of theirs; of each unit its ID, context and kind stand on (R50). -/
def State.pruneUnits (s : State) : State :=
  let up := fun (x : UnitRec) => x.parent.bind (fun p => tfind s.units p)
  let job := fun (x : UnitRec) => match up x with
    | some a => (match up a with
      | some b => (match up b with | some c => c | none => b)
      | none => a)
    | none => x
  { s with units := s.units.filter (fun p => (job p.2).open'),
           past := s.past ++ (s.units.filter (fun p => !(job p.2).open')).map (fun p => (p.1, p.2.ctx, p.2.kind)) }

/-- CANCELs that have taken effect post their interrupts (R383): every launch that they named has finished. -/
def State.settleCancels (s : State) : State :=
  let left := fun (l : List Nat) => l.filter (fun u => (s.unit u).any UnitRec.open')
  let done := s.queues.flatMap (fun p => (p.2.cancels.filter (fun l => (left l).isEmpty)).map (fun _ => p.1))
  let s := { s with queues := tmap (fun _ (q : Queue) => { q with cancels := (q.cancels.map left).filter (fun l => !l.isEmpty) }) s.queues }
  done.foldl (fun s q => s.interrupt (some q)) s

/-- Counts settled from launches to jobs: what finishes finishes, what depends on a failure is cancelled (R47, R49). -/
def State.settleUnits (s : State) : State :=
  let s := (s.unitsOf 0).foldl State.cancelDependent s
  let s := (s.unitsOf 1).foldl State.finishUnit s
  let s := (s.unitsOf 2).foldl State.finishUnit s
  ((s.unitsOf 3).foldl State.finishUnit s).settleCancels.pruneUnits

/-- A unit's first release (R47): its status becomes ACTIVE, and its parents'. -/
def State.activate (s : State) : Nat → Nat → State
  | 0, _ => s
  | k + 1, u =>
    match s.unit u with
    | none => s
    | some x =>
      let s := if x.status = 0 then (s.updUnit u (fun x => { x with status := 1, start := s.tick })).writeRecord u else s
      match x.parent with
      | some p => s.activate k p
      | none => s

/-! ### A member leaves its core (R52, R110) -/

/-- Field groups of a core's regions, by offset. -/
def Region.offsets (r : Region) : List Nat :=
  match locate r.base with
  | some (_, off) => (List.range (r.size / 2048)).map (fun k => off + 2048 * k)
  | none => []

/-- Write-backs of a region that are dropped with it are reported once (R464). -/
def State.dropRegion (s : State) (n : Nat) (r : Region) : State :=
  match locate r.base with
  | none => s
  | some (m, off) =>
    let l := s.localOf n m
    let lost := (r.offsets.filter (fun o => (l.group o).valid && (l.group o).pending && (l.group o).writeback)).length
    let s := if lost = 0 then s
      else s.event 0x202 0 (some (s.core n).csr.ctxId.toNat) (if m then 2 else 1) (if m then clusterOf n else n) 0 r.base 0 lost
    s.updLocal n m (fun l => l.invalidate off r.size)

/-- Another core of the cluster holds a commons region. -/
def State.sharedBy (s : State) (n : Nat) (r : Region) : Bool :=
  (List.range 8).any (fun j =>
    let m := 8 * clusterOf n + j
    decide (m ≠ n) && (s.core m).rgn.toList.any (fun q => q.valid && q.commons && q.base == r.base && q.size == r.size))

/-- The regions of a core's task are released (R110). -/
def State.releaseRegions (s : State) (n : Nat) : State :=
  let rs := (s.core n).rgn.toList.filter (fun r => r.valid)
  let s := rs.foldl (fun s r => if r.commons && s.sharedBy n r then s else s.dropRegion n r) s
  s.updCore n (fun c => { c with rgn := Vector.replicate 16 Region.init })

/-- A core without a task: STAGED when the shadow bank holds the next one (R51, R52). Nothing of the task is under way on it; what
its registers hold stays until a release sets them (R55, R445) (DEDUCED, log 74). -/
def Core.vacate (c : Core) : Core :=
  let c := c.settle
  { c with flight := [], unserved := [], loads := [], queue0 := [], queue1 := [], handles := [], lapsed := [], turn := none, rollback := none, image := none, team := none, closed := [], sentLoads := [],
           mat := { c.mat with tiles := [], lastStep := none },
           seq := { c.seq with mode := (if c.seq.shadow then .staged else .idle), starts := false, busy := 0, furrow := 0, wait := none, anchor := none,
                               slipped := none, waitt := none, ranTicks := 0, overruns := 0, ext := 0, renewed := none, stop := none } }

/-- Requests of a core that the CC has not served are dropped, and its bookings by BOOK released (R376, R377). -/
def State.dropRequests (s : State) (n : Nat) : State :=
  let s := s.updCluster (clusterOf n) (fun k => { k with reqQ := k.reqQ.filter (fun r => r.core ≠ n) })
  s.dropReservations (fun r => decide (r.core = some n))

/-- A member leaves its core: regions, IXE contexts, endpoints, monitors, requests and bookings go with it. -/
def State.leaveCore (s : State) (n : Nat) : State :=
  let s := match (s.core n).team with
    | some t => s.releaseMember n t s.tick
    | none => s
  let s := ((s.closeQueries n).dropRequests n).releaseRegions n
  let s := s.updCluster (clusterOf n) (fun k => { k with endpoints := k.endpoints.filter (fun e => !(e.core == n && decide ((s.core n).team = some e.team))) })
  let s := { s with monitors := s.monitors.filter (fun m => m.core ≠ n) }
  s.updCore n Core.vacate

/-- The staged task of a core is dropped: its shadow bank is empty, its regions with it (R50). -/
def State.emptyShadow (s : State) (n : Nat) : State :=
  s.updCore n (fun c =>
    { c with shImage := none,
             seq := { c.seq with shadow := false, mode := if c.seq.mode = .staged ∧ c.seq.starts = false then .idle else c.seq.mode } })

/-- A staged or held team is dropped on all of its members; one that had executed EXIT before a swap has nothing staged, and its core stays
HALTED until the instance is complete (R52, R61). -/
def State.unstage (s : State) (tn : Nat) (t : Team) : State :=
  let s := (s.releaseTeam tn s.tick).dropStakes tn
  (t.members.filter (fun m => !m.exited)).foldl
    (fun s m =>
      let s := s.updCluster (clusterOf m.core) (fun k => { k with endpoints := k.endpoints.filter (fun e => !(e.team == tn && e.core == m.core)) })
      if t.resumed then (if (s.core m.core).team = some tn then (s.emptyShadow m.core).leaveCore m.core else s) else s.emptyShadow m.core) s

/-! ### Stopping members (R50, R62, R439, R449) -/

/-- A core that holds a task under way: RUNNING, at a headland, or just released. -/
def Core.busy (c : Core) : Bool := decide (c.seq.mode = .running) || decide (c.seq.mode = .atHeadland) || c.seq.starts

/-- Member core `n` stops issuing for a reason; one that drains after EXIT keeps its EXIT unless its work is discarded, a rollback comes before
a pre-emption, and a stop for a sibling's trap before a cancel, which finds the instance finished (R460). -/
def State.stopCore (s : State) (n : Nat) (r : Stop) : State :=
  let keep := match (s.core n).seq.stop, r with
    | some .exit, .cancel => false
    | some .exit, .contextEnd => false
    | some .exit, _ => true
    | some .rollback, .preempt => true
    | some (.sibling _), .contextEnd => false
    | some (.sibling _), _ => true
    | _, _ => false
  let s := if r.withdraws && (s.core n).busy then { s with monitors := s.monitors.filter (fun m => m.core ≠ n) } else s
  if keep then s
  else if (s.core n).busy then
    (s.updCore n (fun c => { c with seq := { c.seq with stop := some r, waitt := (if r = .preempt then c.seq.waitt else none) },
                                    rollback := (match r with | .preempt => c.rollback | .rollback => c.rollback | _ => none) })).push (.drainEnd n)
  else s

/-- Commands of a core that are to end with its instance or context: a migration moves no later page (R474). -/
def Core.killCommands (c : Core) : Core :=
  let f := fun (x : Command) => { x with killed := true }
  { c with queue0 := c.queue0.map f, queue1 := c.queue1.map f }

/-- What a command accesses next. -/
def State.nextAccesses (s : State) (n : Nat) (x : Command) : List Access :=
  if x.state = .queued then s.firstAccesses n x else ((s.stepsLeft n x).take 1).map (s.accessOf n x)

/-- Of the commands of core `n`, in the order of issue, those that go no further in its drain: what is withdrawn, and what is blocked behind
such: an order holds it back, or it cannot be accepted because one before it in its queue cannot, or because the withdrawn hold every place of
the engine (R317). With each, whether it is blocked. -/
def State.stuck (s : State) (n : Nat) : List Command → List (Command × Bool) → List (Command × Bool)
  | [], acc => acc
  | x :: rest, acc =>
    let same := fun (y : Command) => decide ((s.core n).queue0.contains y = (s.core n).queue0.contains x)
    let held := acc.any (fun y => (s.nextAccesses n x).any (s.holdsBack n x y.1))
    let behind := decide (x.state = .queued) && (acc.any (fun y => isCmap x.op || isCmap y.1.op || (same y.1 && y.2 && decide (y.1.state = .queued)))
      || decide (16 ≤ (acc.filter (fun y => same y.1 && decide (y.1.state ≠ .queued))).length))
    s.stuck n rest (if held || behind || x.withdrawn then acc ++ [(x, held || behind)] else acc)

/-- The drain of core `n` has ended (R63): no access of its own is under way, and no command is left but, where the stop withdraws, what goes no
further for that. -/
def State.drained (s : State) (n : Nat) : Bool :=
  let c := s.core n
  let all := (c.queue0 ++ c.queue1).filter (fun x => !isJoin x.op)
  if !c.unserved.isEmpty then false
  else if c.seq.stop.isSome && !s.stopped n then all.isEmpty
  else decide ((s.stuck n (sortKey (fun x => x.id) all) []).length = all.length)

/-! ### Instances (R48-R50) -/

/-- Where a member stands that still holds a core for its team. -/
def State.holdsCore (s : State) (tn : Nat) (m : Member) : Bool := decide ((s.core m.core).team = some tn)

/-- A member has ended: by EXIT, by a trap or stop that left the core HALTED, or it holds no core any more. -/
def State.memberOver (s : State) (tn : Nat) (m : Member) : Bool :=
  m.exited || !s.holdsCore tn m || (decide ((s.core m.core).seq.mode = .halted) && (s.core m.core).seq.stop.isNone)

/-- Commands of a member's core are left (R48, R444): those that no wait keeps for ever. -/
def State.commandsLeft (s : State) (tn : Nat) (m : Member) : Bool := s.holdsCore tn m && !s.drained m.core

/-- A team of an instance that has ended wants no more of the machine; one whose members all drained after EXIT may have been asked to stop
(R69). -/
def State.teamOver (s : State) (i : Instance) (tn : Nat) : Bool :=
  match s.team tn with
  | none => true
  | some t =>
    if i.cancelled || i.faulted then t.members.all (fun m => s.memberOver tn m && !s.commandsLeft tn m)
    else (decide (t.state = .running) || decide (t.state = .stopping)) && !t.members.isEmpty && t.members.all (fun m => m.exited) && !t.members.any (s.commandsLeft tn)

/-- INSTANCE_COMPLETE (R48, R49, R110): every member has ended and every command with it; cores are freed, the launch counts the
instance, and what depends on it is settled. -/
def execInstanceComplete (i : Nat) (s : State) : Out :=
  match s.inst i with
  | none => .next s
  | some x =>
    if !x.teams.all (s.teamOver x) then .next s
    else
      let s := x.teams.foldl
        (fun s tn =>
          match s.team tn with
          | none => s
          | some t =>
            let s := (t.members.filter (s.holdsCore tn)).foldl (fun s m => s.leaveCore m.core) s
            let s := ((s.sendTeam (if x.faulted then .fault else .complete) tn).releaseTeam tn s.tick).dropStakes tn
            { s with teams := tdel s.teams tn }) s
      let s := { s with insts := tdel s.insts i }
      let s := s.updUnit x.launch (fun u => { u with count := u.count + 1, faulted := u.faulted || x.faulted, cancelled := u.cancelled || x.cancelled })
      .next ((s.writeRecord x.launch).settleUnits)

/-- A team that is taken off: of its members, those that have executed EXIT keep their cores until the instance is complete (R52, R61). -/
def Team.end' (t : Team) : Team := { t with members := t.members.filter Member.exited, state := .over }

/-- A team of an instance that is cancelled, faulted while not running, or whose context ends, is taken off the machine as its
state asks (R50). -/
def State.dropTeam (s : State) (tn : Nat) (r : Stop) : State :=
  match s.team tn with
  | none => s
  | some t =>
    let s := ((s.releaseTeam tn s.tick).dropStakes tn)
    match t.state with
    | .ready => s.updTeam tn Team.end'
    | .placed => s.updTeam tn Team.end'
    | .staged => (s.unstage tn t).updTeam tn Team.end'
    | .held => (s.unstage tn t).updTeam tn Team.end'
    | .swapped => s.updTeam tn Team.end'
    | .over => s
    | _ =>
      t.members.foldl
        (fun s m =>
          if s.holdsCore tn m then
            if (s.core m.core).busy then (s.updCore m.core Core.killCommands).stopCore m.core r
            else if (s.core m.core).seq.mode = .swapped then s.leaveCore m.core else s
          else s) (s.updTeam tn (fun t => { t with state := .running }))

/-- Requests and bookings of an instance's members go when it faults or is cancelled (R376, R377). -/
def State.dropInstRequests (s : State) (i : Nat) : State :=
  (s.teamsOf i).foldl (fun s p =>
    p.2.members.foldl (fun s m =>
      let s := if s.holdsCore p.1 m then s.dropRequests m.core else s
      s.dropReservations (fun r => decide (r.core = some (absentKey p.1 m.rank)))) s) s

/-- An instance is cancelled (R50); one that has faulted counts as finished (R460). -/
def State.cancelInst (s : State) (i : Nat) : State :=
  match s.inst i with
  | none => s
  | some x =>
    if x.faulted || x.cancelled then s else
    let s := (s.updInst i (fun x => { x with cancelled := true })).dropInstRequests i
    let s := x.teams.foldl (fun s tn => (s.sendTeam .cancel tn).dropTeam tn .cancel) s
    s.push (.instanceComplete i)

/-- Instances of a launch. -/
def State.instsOf (s : State) (u : Nat) : List Nat := (s.insts.filter (fun p => p.2.launch == u)).map Prod.fst

/-- A launch that is not finished is cancelled: what is not yet made is dropped, the rest cancelled one by one. -/
def State.cancelLaunch (s : State) (u : Nat) : State :=
  match s.unit u with
  | none => s
  | some x => if x.kind = 0 ∧ x.open' = true then ((s.instsOf u).foldl State.cancelInst (s.updUnit u UnitRec.dropUnmade)).dropLaunchBooking u else s

/-- The launches below a unit. -/
def State.launchesOf (s : State) (u : Nat) : List Nat :=
  let par := fun (x : Nat) => (s.unit x).bind UnitRec.parent
  (s.unitsOf 0).filter (fun l =>
    l == u || par l == some u || ((par l).bind par) == some u || (((par l).bind par).bind par) == some u)

/-- A unit is cancelled, and every unit below it (R50). A graph, phase or job that has not finished is itself marked, so that it ends as
CANCELLED even where nothing below it was left to cancel (DESIGN CHOICE, log 81). -/
def State.cancelUnit (s : State) (u : Nat) : State :=
  let s := (s.launchesOf u).foldl State.cancelLaunch s
  (s.updUnit u (fun x => if x.open' then { x with cancelled := true } else x)).settleUnits

/-- The endpoints of some teams are discarded (R485). -/
def State.dropEndpoints (s : State) (teams : List Nat) : State :=
  { s with clusters := tmap (fun _ k => { k with endpoints := k.endpoints.filter (fun e => !teams.contains e.team) }) s.clusters }

/-- The instance of a team has faulted (R49): the others of its teams stop, and record the member that trapped (R449); its endpoints are
discarded (R485). -/
def State.faultInst (s : State) (i core : Nat) : State :=
  match s.inst i with
  | none => s
  | some x =>
    let s := ((s.updInst i (fun x => { x with faulted := true })).dropInstRequests i).dropEndpoints x.teams
    let members := x.teams.flatMap (fun tn => match s.team tn with
      | some t => (t.members.filter (fun m => !m.exited && decide (m.core ≠ core) && s.holdsCore tn m)).map Member.core
      | none => [])
    let s := members.foldl (fun s m => s.push (.siblingStop m core)) s
    s.push (.instanceComplete i)

/-- A drained sibling's trap record (R449): HALTED, TRAP_PC the bundle that it would have issued next. -/
def State.siblingHalt (s : State) (n m : Nat) : State :=
  let pc := (s.core n).nextPc
  let s := s.updCore n (fun c => c.halt (causeWord ⟨0x39, m, 0⟩ 7 false false) pc 0 0)
  let s := s.record 0x39 0 3 (some (s.core n).csr.ctxId.toNat) 0 n 7 0 pc 0
  match s.teamOf n with
  | some (_, t) => (s.send .halted (clusterOf n) n).push (.instanceComplete t.inst)
  | none => s

/-- SIBLING_STOP (R449): the member's own trap faults its instance; another member's trap stops it, at once at a headland and else at
its bundle boundary. A swap-out in progress is abandoned (R460): a member that is drained already halts. -/
def execSiblingStop (n m : Nat) (s : State) : Out :=
  match s.teamOf n with
  | none => .next s
  | some (tn, t) =>
    if n = m then .next (((s.sendTeam .fault tn).releaseTeam tn s.tick).faultInst t.inst n)
    else
      let s := s.updTeam tn (fun t => if t.state = .stopping then { t with state := .running } else t)
      .next (if (s.core n).seq.mode = .swapped then s.siblingHalt n m else s.stopCore n (.sibling m))

end Sys2Proof.Machine
end

