-- ==== Sys2Proof/Machine/Place.lean ====
section
/-! DEFINITION. Placement of teams, staging, and release (R41, R42, R51-R55, R68, R394, R395, R481-R483). -/

namespace Sys2Proof.Machine

/-! ### Eligible cores (R395, R483) -/

/-- A team that has a place on cores without having been released. -/
def TeamState.waitsHere : TeamState → Bool
  | .placed => true
  | .staged => true
  | .held => true
  | _ => false

/-- A team that waits on core `n` for its release. -/
def State.nextOn (s : State) (n : Nat) : Option (Nat × Team) :=
  s.teams.find? (fun p => p.2.state.waitsHere && p.2.members.any (fun m => !m.exited && m.core == n))

/-- The bookings that the task of core `n` has for the last furrow of its profile. -/
def State.lastFurrow (s : State) (n : Nat) (i : Image) : List Booking :=
  (s.cluster (clusterOf n)).bookings.filter (fun b =>
    b.core == n && decide ((s.core n).team = some b.team) && b.index + 1 == i.furrowCount && decide (b.kind ≠ .unbooked))

/-- The task of core `n` is in, or has booked, the last furrow of its profile, and that booking ends within the horizon (R395): draining or in a
rollback as well, and after EXIT, which leaves nothing booked (R61). -/
def State.lastBooked (s : State) (n : Nat) : Bool :=
  match (s.core n).image with
  | none => false
  | some i =>
    ((s.core n).seq.furrow + 1 == i.furrowCount || !(s.lastFurrow n i).isEmpty)
      && (s.lastFurrow n i).all (fun b => b.left == 0 && decide (b.end' ≤ s.horizon))

/-- A core is to be retired, or its cluster is. -/
def State.leaving (s : State) (n : Nat) : Bool := s.retireDue.contains n || s.unitDue.contains (3, clusterOf n)

/-- A core is eligible for a new team (R395, R54): not while a test is booked on it (R440). -/
def State.eligible (s : State) (usem : Double) (n : Nat) : Bool :=
  let c := s.core n
  bit s.pres.cores n && c.covers usem && !c.seq.shadow && (s.nextOn n).isNone && !s.leaving n && !s.kats.any (fun x => x.1 == n)
    && (decide (c.seq.mode = .idle) || ((c.busy || decide (c.seq.mode = .halted)) && s.lastBooked n))

/-- Priority of a launch: its queue's PRIO, or what its SPAWN gave it (R394). -/
def State.prioOf (s : State) (u : UnitRec) : Nat := (u.queue.map (fun q => (tget (Queue.init q) s.queues q).prio)).getD u.prio

/-- Keys of R394: priority raised by waiting (over all the team's waits; DEDUCED, log 114), then the launch's acceptance, then the place in the
launch's queue, which a swapped team joins at the tail (R72). -/
def State.rank (s : State) (t : Team) : Nat × Nat × Nat :=
  match (s.inst t.inst).bind (fun i => s.unit i.launch) with
  | none => (7, 0, t.turn)
  | some u =>
    let lim := ((tfind s.contexts t.ctx).map Context.starve).getD 4096
    (7 - min 7 (s.prioOf u + (t.waited + (s.tick - t.since)) / lim), u.order, t.turn)

/-- The same with the instance number for the third key, as R483 compares a resuming team with a staged one. -/
def State.rankByNumber (s : State) (t : Team) : Nat × Nat × Nat :=
  let r := s.rank t
  (r.1, r.2.1, ((s.inst t.inst).map Instance.index).getD r.2.2)

/-- A team ranks before another (R394). -/
def before (a b : Nat × Nat × Nat) : Bool :=
  decide (a.1 < b.1) || (a.1 == b.1 && (decide (a.2.1 < b.2.1) || (a.2.1 == b.2.1 && decide (a.2.2 < b.2.2))))

/-- A core is eligible for a resuming team (R52, R483): it is IDLE, and a staged team on it gives way to one that ranks before
it. -/
def State.eligibleResume (s : State) (t : Team) (n : Nat) : Bool :=
  let c := s.core n
  let gives := match s.nextOn n with
    | some (_, u) => before (s.rankByNumber t) (s.rankByNumber u)
    | none => true
  bit s.pres.cores n && c.covers t.image.usem && !s.leaving n && !s.kats.any (fun x => x.1 == n) && gives && c.team.isNone
    && (decide (c.seq.mode = .idle) || decide (c.seq.mode = .staged))

/-- Members of a team on cores, ranks in ascending order of core number (R41). -/
def freshMembers (cores : List Nat) : List Member :=
  (List.range cores.length).map (fun k => ⟨k, nth cores k, false, false, none, none⟩)

/-- Pipes that an image receives (R338). -/
def Image.receives (i : Image) : List PipeRec := i.pipes.filter PipeRec.recv

/-- Endpoints that a cluster holds and those that placed teams will take in it (R338). -/
def State.endpointsIn (s : State) (cl : Nat) : Nat :=
  (s.cluster cl).endpoints.length
    + ((s.teams.filter (fun p => decide (p.2.state = .placed))).map (fun p =>
        (p.2.members.filter (fun m => !m.exited && clusterOf m.core == cl)).length * p.2.image.receives.length)).sum

/-- Members of a team that receives `pipes` pipes for which `used` of a cluster's 32 endpoints leave room (R338, R395). -/
def endpointRoom (pipes used : Nat) : Nat := if pipes = 0 then 8 else (32 - used) / pipes

/-- The reservation that a launch's first instance uses: it holds for team 0, whose image it books (R387). -/
def State.reservationOf (s : State) (t : Team) : Option Reservation :=
  match s.inst t.inst with
  | none => none
  | some i =>
    if i.index ≠ 0 then none
    else (s.unit i.launch).bind (fun u => u.booking.bind (fun h => s.reservations.find? (fun r => r.team == h)))

/-- The cores that a team must take: those of its booking (R377, R387), or of its stakes (R96). -/
def State.pinned (s : State) (tn : Nat) (t : Team) : List Nat :=
  match (if t.role = 0 ∧ t.resumed = false then s.reservationOf t else none) with
  | some v => v.cores
  | none => sortKey (fun x => x) (((List.range 32).flatMap (fun cl => (s.cluster cl).stakes.filter (fun q => q.team == tn))).map Stake.core)

/-- Another core may join the cores that a team has: at most 8 clusters, and no more in one than it has room for (R41, R395). -/
def joins (room : Nat → Nat) (got : List Nat) (c : Nat) : Bool :=
  decide ((got.filter (fun x => clusterOf x == clusterOf c)).length < room (clusterOf c))
    && decide (((c :: got).map clusterOf).eraseDups.length ≤ 8)

/-- The first choice of `n` more cores out of a list, in ascending order, from which `k` leads to a placement. -/
def seekCores {α : Type} (room : Nat → Nat) (k : List Nat → Option α) : Nat → List Nat → List Nat → Option α
  | 0, _, got => k got
  | _ + 1, [], _ => none
  | n + 1, c :: rest, got =>
    if rest.length < n then none
    else
      match (if joins room got c then seekCores room k n rest (got ++ [c]) else none) with
      | some r => some r
      | none => seekCores room k (n + 1) rest got

/-- Cores for a team: those that R395 prefers, and where they lead to no placement of the whole, the first choice that does (DESIGN
CHOICE, log 96). -/
def tryCores {α : Type} (ok : Nat → Bool) (room : Nat → Nat) (n : Nat) (k : List Nat → Option α) : Option α :=
  match (chooseCores ok room n).bind k with
  | some r => some r
  | none => seekCores room k n ((List.range 256).filter ok) []

/-- A team's members on cores: fresh ones by rank, or, for a resume, those that have not executed EXIT (R41, R68). -/
def Team.onCores (t : Team) (cores : List Nat) : Team :=
  let live := t.members.filter (fun m => !m.exited)
  { t with
    state := .placed
    members := if t.members.isEmpty then freshMembers cores
      else t.members.map (fun m => if m.exited then m
        else { m with core := nth cores (live.findIdx (fun x => x.rank == m.rank)), done := false }) }

/-- Cores for the teams of an instance, one team after another, each with what the earlier ones left; `fin` completes the placement (DESIGN
CHOICE, log 96). -/
def State.placeAll (ok : State → Team → Nat → Bool) (fin : State → Option State) : List (Nat × Team) → State → Option State
  | [], r => fin r
  | (tn, t) :: rest, r =>
    let n := if t.members.isEmpty then t.image.teamSize else (t.members.filter (fun m => !m.exited)).length
    let pinned := r.pinned tn t
    let put := fun (cores : List Nat) => State.placeAll ok fin rest (r.updTeam tn (fun t => t.onCores cores))
    if pinned.isEmpty then tryCores (ok r t) (fun cl => endpointRoom t.image.receives.length (r.endpointsIn cl)) n put
    else if pinned.length = n ∧ pinned.all (fun c => ok r t c && decide (r.endpointsIn (clusterOf c) + t.image.receives.length ≤ 32)) = true then put pinned
    else none

/-- What a region of a resuming member of team `tn` meets in its cluster: the regions of the cores there and of what is staged on them; a commons
region that a member of its own team has there already is the same one (R107). -/
def State.regionsMeet (s : State) (tn m : Nat) (q : Region) : Bool :=
  (List.range 8).any (fun j =>
    let n := 8 * clusterOf m + j
    let mine := q.commons && decide ((s.core n).team = some tn) && (s.core n).rgn.toList.contains q
    ((s.core n).rgn.toList ++ ((s.core n).shImage.map Image.regions).getD []).any (fun r =>
      q.valid && r.valid && r.commons == q.commons && (q.commons || n == m) && decide (r.base < q.base + q.size) && decide (q.base < r.base + r.size)
        && !(mine && r == q)))

/-- Every member of a team in one cluster holds the same commons regions (R107). -/
def State.sameCommons (s : State) (tn m : Nat) (l : List Region) : Bool :=
  let of := fun (l : List Region) => l.filter (fun r => r.valid && r.commons)
  (List.range 8).all (fun j =>
    let n := 8 * clusterOf m + j
    decide ((s.core n).team ≠ some tn) || decide ((s.core n).seq.mode ≠ .swapped) || of (s.core n).rgn.toList == of l)

/-- A resuming member's regions can stand at their addresses on its new core beside those that the members before it have taken (R107), and its
IXE contexts and endpoints find room (R362, R486). -/
def State.fitsSave (s : State) (tn : Nat) (m : Member) : Bool :=
  let cl := clusterOf m.core
  m.saved.toList.all (fun v =>
    v.core.rgn.toList.all (fun q => !s.regionsMeet tn m.core q) && s.sameCommons tn m.core v.core.rgn.toList
      && decide ((s.cluster cl).queries.length + v.queries.length ≤ 16)
      && decide ((s.cluster cl).store + (v.queries.map Query.capacity).sum ≤ 65536)
      && decide (s.endpointsIn cl + v.endpoints.length ≤ 32))

/-- A saved query context bound to a free physical one (R362). -/
def State.bindQuery (s : State) (n : Nat) (q : Query) : State :=
  s.updCluster (clusterOf n) (fun k => match k.freeQuery with
    | some p => { k with queries := tset k.queries p { q with core := n } }
    | none => k)

/-- A resuming member takes its core, which is SWAPPED, and with it the regions, IXE contexts and endpoints that its save asks for. -/
def State.takeSave (s : State) (tn : Nat) (m : Member) : State :=
  match m.saved with
  | none => s
  | some v =>
    let n := m.core
    let s := s.updCore n (fun c => { c with team := some tn, rgn := v.core.rgn, seq := { c.seq with mode := .swapped } })
    let s := v.queries.foldl (fun s q => s.bindQuery n q) s
    s.updCluster (clusterOf n) (fun k => { k with endpoints := k.endpoints ++ v.endpoints.map (fun e => { e with core := n, team := tn }) })

/-- A team that waits on core `n` is dropped, with its gang, to make way for the resume of an instance (R483): it returns to placement with
its launch's age. -/
def State.dropStaged (s : State) (inst n : Nat) : State :=
  match s.teams.find? (fun p => p.2.state.waitsHere && p.2.inst != inst && p.2.members.any (fun m => !m.exited && m.core == n)) with
  | some (_, u) =>
    (s.teamsOf u.inst).foldl (fun s p =>
      if p.2.state.waitsHere then (s.unstage p.1 p.2).updTeam p.1 (fun t => { t with members := [], state := .ready, release := 0, first := none }) else s) s
  | none => s

/-- Live members of some teams. -/
def liveOf (g : List (Nat × Team)) : List (Nat × Member) := g.flatMap (fun p => (p.2.members.filter (fun m => !m.exited)).map (fun m => (p.1, m)))

/-- A list of steps that may fail, one after another. -/
def tryAll {α : Type} (f : State → α → Option State) : List α → State → Option State
  | [], s => some s
  | x :: rest, s =>
    match f s x with
    | some s => tryAll f rest s
    | none => none

/-- The swap-in of an instance's teams begins on the cores that they are placed on: staged teams give way, and each team takes what its
saves ask for, member by member, where there is room for it all (R68, R107, R362, R483, R486). What a commons region holds that members saved
in different clusters bring into one is what the last of them saved (DESIGN CHOICE, log 117). -/
def State.beginResume (inst : Nat) (r : State) : Option State :=
  let g := r.teamsOf inst
  let r := (liveOf g).foldl (fun s x => s.dropStaged inst x.2.core) r
  let r := g.foldl (fun s p => s.updTeam p.1 (fun t => { t with state := .restoring, members := t.members.map (fun m => { m with done := false }) })) r
  tryAll (fun s (x : Nat × Member) => if s.fitsSave x.1 x.2 then some (s.takeSave x.1 x.2) else none) (liveOf g) r

/-- A core that a team of the instance has been placed on in the placement in hand. -/
def State.takenBy (s : State) (inst n : Nat) : Bool :=
  (s.teamsOf inst).any (fun p => decide (p.2.state = .placed) && p.2.members.any (fun m => !m.exited && m.core == n))

/-- A ready team, or every team of its gang, takes eligible cores (R395, R42); a swapped one begins its swap-in on IDLE cores, from
which a staged team of lower rank is dropped (R483). -/
def State.placeTeam (tn : Nat) (s : State) : State :=
  match s.team tn with
  | none => s
  | some t =>
    let all := s.teamsOf t.inst
    let told := fun (r : State) => all.foldl (fun s p => s.sendTeam .place p.1) r
    if s.paused t.ctx then s
    else if t.state = .ready ∧ all.all (fun p => decide (p.2.state = .ready)) = true then
      ((State.placeAll (fun r x n => r.eligible x.image.usem n) some all s).map told).getD s
    else if t.state = .swapped ∧ all.all (fun p => decide (p.2.state = .swapped)) = true then
      ((State.placeAll (fun r x n => r.eligibleResume x n && !r.takenBy t.inst n) (State.beginResume t.inst) all s).map told).getD s
    else s

/-! ### Regions of a staged team (R53, R107) -/

/-- Two regions of one memory overlap. -/
def overlaps (commons : Bool) (base size : Nat) (r : Region) : Bool :=
  r.valid && r.commons == commons && decide (base < r.base + r.size) && decide (r.base < base + size)

/-- Regions that stand in the memory that a region of core `n` is to be placed in. -/
def State.standing (s : State) (n : Nat) (commons : Bool) : List Region :=
  let of := fun (m : Nat) => (s.core m).rgn.toList ++ ((s.core m).shImage.map Image.regions).getD []
  if commons then (List.range 8).flatMap (fun j => of (8 * clusterOf n + j)) else of n

/-- Addresses at which a region can be placed: which of them is taken is a free value (DESIGN CHOICE, log 42). -/
def State.basesFor (s : State) (n : Nat) (r : Region) : List Nat :=
  let unit := if r.commons then 32768 else 2048
  let lo := if r.commons then 0x2000000 else 0
  let top := if r.commons then 2 ^ 25 else 2 ^ 23
  let st := s.standing n r.commons
  ((List.range (top / unit)).map (fun k => lo + unit * k)).filter (fun b =>
    decide (b + r.size ≤ lo + top) && !(st.any (overlaps r.commons b r.size)))

/-- Region `k` of the staged image of core `n` placed at an address. -/
def State.setBase (s : State) (n k base : Nat) : State :=
  s.updCore n (fun c => { c with shImage := c.shImage.map (fun i =>
    { i with regions := i.regions.mapIdx (fun j r => if j = k then { r with valid := true, base := base } else r) }) })

/-- Where another member of the team in the cluster has commons region `k`. -/
def State.teamBase (s : State) (t : Team) (n k : Nat) : Option Nat :=
  t.members.findSome? (fun m =>
    if clusterOf m.core = clusterOf n ∧ m.core ≠ n then
      (((s.core m.core).shImage.map Image.regions).getD [])[k]?.bind (fun r => if r.valid then some r.base else none)
    else none)

/-- One region of one member placed. -/
def State.placeRegion (s : State) (t : Team) (n k : Nat) (r : Region) : Option State :=
  match (if r.commons then s.teamBase t n k else none) with
  | some b => some (s.setBase n k b)
  | none =>
    let f := s.free
    match s.basesFor n r with
    | [] => none
    | b :: rest => some (f.2.setBase n k (nth (b :: rest) (f.1 % (rest.length + 1))))

/-- The shadow bank of core `n` is loaded with an image (R22, R53), whose regions are as given. -/
def State.loadShadow (s : State) (n : Nat) (i : Image) (regions : List Region) : State :=
  s.updCore n (fun c =>
    { c with shImage := some { i with regions := regions },
             flaws := c.flaws.filter (fun f => decide (f.array ≠ .shadowBank)),
             seq := { c.seq with shadow := true, shCode := i.code, shLen := i.code.length, mode := if c.seq.mode = .idle then .staged else c.seq.mode } })

/-- Banks loaded and regions placed for every member of a team. -/
def State.prepare (s : State) (t : Team) : Option State :=
  tryAll (fun s (m : Member) =>
    tryAll (fun s k => match t.image.regions[k]? with
      | some r => s.placeRegion t m.core k r
      | none => some s) (List.range t.image.regions.length) (s.loadShadow m.core t.image (t.image.regions.map (fun r => { r with valid := false })))) t.members s

/-- A member's endpoints (R338). -/
def State.openEndpoints (s : State) (tn : Nat) (t : Team) : State :=
  t.members.foldl
    (fun s m => s.updCluster (clusterOf m.core) (fun k =>
      { k with endpoints := k.endpoints ++ t.image.receives.map (fun p =>
          ⟨tn, m.core, p.num, p.size, p.depth, [], false, []⟩) })) s

/-- Last tick that the task of core `n` has booked (R54). -/
def State.lastTick (s : State) (n : Nat) : Nat :=
  (((s.cluster (clusterOf n)).bookings.filter (fun b => b.core == n && decide ((s.core n).team = some b.team) && decide (b.kind ≠ .unbooked))).map
    (fun b => b.end' + b.left)).foldl max 0

/-- Cells booked ahead under another number become a team's (R377). -/
def State.renameBookings (s : State) (old new : Nat) : State :=
  { s with clusters := tmap (fun _ k => { k with bookings := k.bookings.map (fun b => if b.team = old then { b with team := new } else b) }) s.clusters }

/-- First furrows of a group's members. -/
def State.groupWants (s : State) (g : List (Nat × Team)) : List (Want × Image) :=
  g.flatMap (fun p =>
    let l := if p.2.state = .held ∨ p.2.resumed then s.heldWants p.1 p.2 else p.2.members.filterMap (fun m => s.wantOf m.core p.1 0 p.2.image)
    l.map (fun x => (x, p.2.image)))

/-- The cores of a resuming member that its save has been read back to enter STAGED (R52). -/
def Core.restaged (c : Core) : Core := if c.seq.mode = .swapped then { c with seq := { c.seq with mode := .staged } } else c

/-- The group is STAGED with its release tick. -/
def State.markStaged (s : State) (g : List (Nat × Team)) (a : Nat) : State :=
  g.foldl (fun s p =>
    let s := if p.2.resumed then (liveOf [p]).foldl (fun s x => s.updCore x.2.core Core.restaged) s else s
    (s.updTeam p.1 (fun t =>
      { (if t.state = .held then t else t.rewait s.tick) with state := .staged, release := a, first := t.first.orElse (fun _ => some a) })).sendTeam
      .staged p.1) s

/-- A member of a held team has its core to itself: the core is IDLE but for the team (R481, R482). -/
def State.coreWaits (s : State) (p : Nat × Team) (m : Member) : Bool :=
  let q := (s.core m.core).seq
  m.exited || (!q.starts && (decide (q.mode = .staged) || (p.2.resumed && decide (q.mode = .swapped))))

/-- A held group is booked again (R482): the first furrows at one tick, or, where every member stopped at a headland, no furrow at all. -/
def State.bookHeld (s : State) (g : List (Nat × Team)) : Option State :=
  let l := s.groupWants g
  if l.isEmpty then some (s.markStaged g (s.tick + 1)) else (s.bookTeam l (s.tick + 1) 8191).map (fun r => r.1.markStaged g r.2)

/-- A placed group with its banks loaded is booked and STAGED (R53, R54). A booking by BOOK that team 0 uses fixes the tick for its gang
(R377, R387); where the gang does not fit that tick, the group waits, and the booking lapses with it. -/
def State.bookStaged (r : State) (g : List (Nat × Team)) (v : Option Reservation) : Option State :=
  match v with
  | some v =>
    let mine := g.filter (fun p => p.2.role == 0)
    let rest := g.filter (fun p => p.2.role != 0)
    let r := mine.foldl (fun r p => r.renameBookings v.team p.1) { r with reservations := r.reservations.filter (fun x => x.team ≠ v.team) }
    if rest.isEmpty then some (r.markStaged g v.tick) else (r.bookTeam (r.groupWants rest) v.tick 1).map (fun x => x.1.markStaged g v.tick)
  | none =>
    let first := (g.flatMap (fun p => p.2.members.map (fun m => r.lastTick m.core))).foldl max r.tick + 1
    (r.bookTeam (r.groupWants g) first (r.horizon + 1 - first)).map (fun x => x.1.markStaged g x.2)

/-- A team can be staged on core `n` now: it is IDLE, or its task has booked its last furrow still (R54). -/
def State.mayStage (s : State) (n : Nat) : Bool := !((s.core n).busy || decide ((s.core n).seq.mode = .halted)) || s.lastBooked n

/-- STAGE_TEAM (R53, R54, R482): banks, regions, endpoints and bookings of a placed team, or of its gang, on one common release tick;
what does not fit waits. A held team is booked again once every member core is IDLE but for it. -/
def execStageTeam (tn : Nat) (s : State) : Out :=
  match s.team tn with
  | none => .next s
  | some t =>
    let g := s.teamsOf t.inst
    if s.paused t.ctx then .next s
    else if t.state = .held then
      if g.all (fun p => p.2.members.all (s.coreWaits p)) then .next ((s.bookHeld g).getD (s.sendTeam .nofit tn)) else .next s
    else if t.state = .placed ∧ g.all (fun p => decide (p.2.state = .placed) && p.2.members.all (fun m => s.mayStage m.core)) = true then
      match tryAll (fun s (p : Nat × Team) => s.prepare p.2) g s with
      | none => .next s
      | some r =>
        let r := g.foldl (fun s p => s.openEndpoints p.1 p.2) r
        .next (((r.bookStaged g (s.reservationOf t)).map (fun r => r.sendTeam .booked tn)).getD (s.sendTeam .nofit tn))
    else .next s

/-! ### Release (R52, R54, R55, R109) -/

/-- The range of a region cleared and its groups made valid (R109): every row is written whole, so no word of it is bad. -/
def Local.stage (l : Local) (off size : Nat) (g : Group) : Local :=
  { cells := clearBytes l.cells off size,
    groups := (List.range (size / 2048)).foldl (fun t k => tset t (off / 2048 + k) g) l.groups,
    bad := l.bad.filter (fun w => !(decide (off ≤ 8 * w) && decide (8 * w < off + size))),
    weak := l.weak.filter (fun w => !(decide (off ≤ 8 * w) && decide (8 * w < off + size))), missed := l.missed }

/-- A region of a released member with its initial data (R109). -/
def State.fillRegion (s : State) (n ctx : Nat) (i : Image) (k : Nat) (r : Region) : State :=
  match locate r.base with
  | none => s
  | some (m, off) =>
    let g : Group := { Group.init with valid := true, cls := r.cls, act := r.act, owner := ctx }
    let s := s.updLocal n m (fun l => l.stage off r.size g)
    (i.data.filter (fun d => d.1 == k)).foldl (fun s d => s.updLocal n m (fun l => { l with cells := writeBytes l.cells (off + d.2.1) d.2.2 })) s

/-- The ring of a record of an image's ring table (R55, R229). -/
def ringOf (r : Nat × Nat × Nat) : Ring := { Ring.init with depth := r.1, rt := r.2.1, wt := r.2.2 }

/-- A register preset (R384): a value, or a region's BASE plus an offset. -/
def presetValue (i : Image) (p : Nat × Option Nat × Nat) : Double :=
  match p.2.1 with
  | some k => BitVec.ofNat 64 (((i.regions[k]?).map Region.base).getD 0 + p.2.2)
  | none => BitVec.ofNat 64 p.2.2

/-- A member's visible state at release (R55, R445); counters and CAPM stay. In cycle 0 of the release tick the banks swap; the core is
RUNNING from cycle 1 on (R52, R54). -/
def Core.released (c : Core) (i : Image) (tn ctx rank size index : Nat) (presets : List (Nat × Option Nat × Nat)) : Core :=
  let bars := i.barriers.foldl (fun (v : Vector Barrier 16) b => v.setIfInBounds b.1 { Barrier.init with exp := b.2 }) (Vector.replicate 16 Barrier.init)
  let s0 := presets.foldl (fun (v : Vector Double 64) p => v.setIfInBounds p.1 (presetValue i p)) (Vector.replicate 64 0)
  { Core.init with
    seq := { Seq.init with mode := .staged, starts := true, epoch := c.seq.epoch, code := c.seq.shCode, codeLen := c.seq.shLen, shCode := c.seq.code,
                           shLen := c.seq.codeLen },
    x := { Scalar.init with s := s0 },
    vec := { VecUnit.init with lfsr := lfsrAll i.vseedInit },
    rings := Vector.mk ((List.range 16).map (fun q => ringOf (i.rings.getD q (8, 1, 1)))).toArray (by simp),
    bars := bars,
    rgn := Vector.mk ((List.range 16).map (fun k => i.regions.getD k Region.init)).toArray (by simp),
    csr := { c.csr with ctxId := BitVec.ofNat 12 ctx, teamRank := BitVec.ofNat 6 rank, teamSize := BitVec.ofNat 7 size,
                        launchIdx := BitVec.ofNat 24 index, usem := i.usem, fmt := i.fmtInit, vctl := i.vctlInit, vstat := 0,
                        vseed := i.vseedInit, trapCause := 0, trapPc := 0, trapAddr := 0, trapSrc := 0 },
    field := c.field, tlb := c.tlb, nextCmd := c.nextCmd, image := some i, team := some tn, flaws := swapBanks c.flaws }

/-- A fresh member is released. -/
def State.releaseFresh (s : State) (tn : Nat) (t : Team) (index : Nat) (presets : List (Nat × Option Nat × Nat)) (m : Member) : State :=
  match (s.core m.core).shImage with
  | none => s
  | some i =>
    let s := s.updCore m.core (fun c => c.released i tn t.ctx m.rank t.members.length index presets)
    (List.range i.regions.length).foldl (fun s k => match i.regions[k]? with
      | some r => s.fillRegion m.core t.ctx i k r
      | none => s) s

/-- A resuming member is released (R22, R68): its banks swap; it is RUNNING from cycle 1 on, after the bundle that it issued last, or at
its headland, with its next furrow floating from the release tick. One that drained after EXIT goes on draining. Its trap record is cleared
(R445), and an extension or a renewed slack does not outlast the swap (R478). -/
def State.releaseResumed (s : State) (tn : Nat) (t : Team) (m : Member) : State :=
  let s := s.updCore m.core (fun c =>
    { c with image := c.shImage, shImage := none, flaws := swapBanks c.flaws ++ c.flaws.filter (fun f => !f.inBank),
             seq := { c.seq with mode := (if m.segment.isSome ∨ c.seq.stop = some .exit then .staged else .atHeadland), starts := m.segment.isSome || decide (c.seq.stop = some .exit), code := c.seq.shCode,
                                 codeLen := c.seq.shLen, shCode := c.seq.code, shLen := c.seq.codeLen, shadow := false, busy := c.seq.wc, anchor := none,
                                 slipped := none, ext := 0, renewed := none },
             csr := { c.csr with trapCause := 0, trapPc := 0, trapAddr := 0, trapSrc := 0 } })
  match m.segment with
  | some _ => s
  | none =>
    if (s.core m.core).seq.stop = some .exit then s else
    match s.wantOf m.core tn ((s.core m.core).seq.furrow + 1) t.image with
    | some x => s.holdNext x s.tick
    | none => s

/-- The release of one team. -/
def State.releaseOne (s : State) (tn : Nat) (t : Team) : State :=
  let inst := s.inst t.inst
  let index := (inst.map Instance.index).getD 0
  let launch := (inst.map Instance.launch).getD 0
  let presets := ((s.unit launch).map UnitRec.presets).getD []
  let s := (t.members.filter (fun m => !m.exited)).foldl
    (fun s m => if t.resumed then s.releaseResumed tn t m else s.releaseFresh tn t index presets m) s
  ((s.updTeam tn (fun t => { (t.rewait s.tick) with state := .running, used := 0, members := t.members.map (fun m => { m with done := false, saved := none, segment := none }) })).activate
    4 launch).sendTeam .release tn

/-- TASK_RELEASE (R54, R481): in cycle 0 of the release tick every member swaps its banks, with the gang's teams together; a team with a
member core that has not left its task is held, and its cells are released. -/
def execTaskRelease (tn : Nat) (s : State) : Out :=
  match s.team tn with
  | none => .next s
  | some t =>
    if t.state ≠ .staged ∨ s.tick < t.release ∨ s.paused t.ctx = true then .next s
    else
      let g := s.teamsOf t.inst
      let ready := g.all (fun p => decide (p.2.state = .staged) && p.2.members.all (s.coreWaits p))
      if ready then .next (g.foldl (fun s p => s.releaseOne p.1 p.2) s)
      else .next (g.foldl (fun s p => (s.releaseTeam p.1 (s.tick - 1)).updTeam p.1 (fun t => { t with state := .held })) s)

end Sys2Proof.Machine
end

