-- ==== Sys2Proof/Machine/Swap.lean ====
section
/-! DEFINITION. Pre-emption, drain and swap (R61-R72, R126, R480, R486), turn rollback (R375, R438), and the end of a context (R439). -/

namespace Sys2Proof.Machine

/-! ### Pre-emption (R62, R67, R69-R71) -/

/-- Working ticks of its present furrow that a running member has run, the present tick included (R68). -/
def State.ranOf (s : State) (n : Nat) : Nat :=
  let c := s.core n
  c.seq.ranTicks + (match s.present n with
    | some b => if b.covers s.tick && !b.fallow.contains s.tick then 1 else 0
    | none => 0)

/-- The segment with which a member that stops RUNNING resumes (R68); one that drains after EXIT has no bookings left (R61). -/
def State.segmentOf (s : State) (n : Nat) : Option (Nat × Nat × Nat) :=
  let c := s.core n
  if c.seq.stop ≠ some .exit ∧ (c.seq.mode = .running ∨ c.seq.starts = true) then
    (c.image.bind (fun i => expandAt i.furrows c.seq.furrow)).map (fun f =>
      let ran := s.ranOf n
      (c.seq.furrow, max 1 (f.dur - ran), c.seq.renewed.getD (f.slack - (ran - f.dur))))
  else none

/-- A running team stops: its bookings are forfeited, its stakes stay. -/
def State.haltTeam (s : State) (tn : Nat) (t : Team) : State :=
  let live := t.members.filter (fun m => !m.exited)
  let s := s.updTeam tn (fun t =>
    { t with state := .stopping,
             members := t.members.map (fun m => if m.exited then { m with done := true } else { m with done := false, segment := s.segmentOf m.core }) })
  let s := live.foldl (fun s m => s.updCore m.core (fun c => { c with seq := { c.seq with ranTicks := s.ranOf m.core } })) s
  let s := (s.releaseTeam tn s.tick).sendTeam .preempt tn
  live.foldl (fun s m => s.stopCore m.core .preempt) s

/-- One team of an instance that is pre-empted, as its state asks (R69). -/
def State.preemptOne (s : State) (p : Nat × Team) : State :=
  match p.2.state with
  | .running => s.haltTeam p.1 p.2
  | .staged => (s.releaseTeam p.1 s.tick).updTeam p.1 (fun t => { t with state := .held })
  | .restoring => s.updTeam p.1 (fun t => { t with asked := true })
  | _ => s

/-- PREEMPT (R62, R70): every member of the team and of its gang stops at its next bundle boundary; a fault or a cancel wins. -/
def execPreempt (tn : Nat) (s : State) : Out :=
  match s.team tn with
  | none => .next s
  | some t =>
    if (s.inst t.inst).any (fun i => i.faulted || i.cancelled) then .next s
    else .next ((s.teamsOf t.inst).foldl State.preemptOne s)

/-- QUANTUM_EXPIRY (R71, R72): a team whose quantum is used up gives way where its launch's queue is not empty. -/
def execQuantumExpiry (tn : Nat) (s : State) : Out :=
  match s.team tn with
  | none => .next s
  | some t =>
    let q := ((tfind s.contexts t.ctx).map Context.quantum).getD 65536
    if t.state = .running ∧ q ≤ t.used ∧ s.queueWaits tn = true then .next ((s.sendTeam .quantum tn).push (.preempt tn))
    else .next s

/-! ### The end of a drain (R61, R63, R375, R439, R449) -/

/-- The member of a team on core `n` changed. -/
def Team.updMember (t : Team) (n : Nat) (f : Member → Member) : Team :=
  { t with members := t.members.map (fun m => if m.core = n ∧ m.exited = false then f m else m) }

/-- A team is SWAPPED: the bytes of its save area are written, the CC keeps their digest (R66), and it joins the tail of its launch's
queue (R72). -/
def State.swapTeam (s : State) (tn : Nat) : State :=
  let f := (s.countArea true).free
  let area := Config.saveArea f.1
  let op := f.2.nextOp
  ({ f.2 with nextOp := op + 1 }.updTeam tn (fun t =>
    { (t.rewait s.tick) with state := .swapped, turn := 2 ^ 24 + op, first := none, area := area, digest := sha256 area })).sendTeam .swapped tn

/-- A team whose every member has been saved or has ended is SWAPPED, with its gang. -/
def State.swapDone (s : State) (inst : Nat) : State :=
  let g := s.teamsOf inst
  if !g.isEmpty && g.all (fun p => decide (p.2.state = .stopping) && p.2.members.all (fun m => m.done || m.exited)) && !(liveOf g).isEmpty then
    (g.map Prod.fst).foldl State.swapTeam s
  else s

/-- The pipes of a member close with its task (R341). -/
def State.closePipes (s : State) (n : Nat) : State :=
  (((s.core n).image.map Image.pipes).getD []).foldl (fun s p => if p.recv then s.closeRecv n p.num else s.closeSend n p.num) s

/-- A member has executed EXIT and drained (R61): HALTED, its pipes and query contexts closed, counted at team barriers, its remaining
bookings released. -/
def State.exitDone (s : State) (n : Nat) : State :=
  let s := s.updCore n (fun c => { c with seq := { c.seq with mode := .halted, stop := none } })
  match s.teamOf n with
  | none => s.closeQueries n
  | some (tn, t) =>
    if !t.members.any (fun m => m.core == n && !m.exited) then s
    else
      let s := ((s.releaseMember n tn s.tick).closePipes n).closeQueries n
      let s := s.updTeam tn (fun t => t.updMember n (fun m => { m with exited := true, done := true }))
      let s := (List.range 16).foldl (fun s k => s.settleBar tn k) s
      ((s.send .halted (clusterOf n) n).swapDone t.inst).push (.instanceComplete t.inst)

/-- The checkpoint of a turn restored (R375 step 2): rings emptied; PEND, CNT and ERR stay (DEDUCED, log 46). -/
def Core.restoreTurn (c : Core) (t : Turn) : Core :=
  let c := c.settle
  { c with seq := { c.seq with pc := t.pc, latch := t.latch, inc := t.inc },
           x := { s := t.s, p := t.p, lc := t.lc, ps := t.ps, loops := t.loops },
           vec := { c.vec with lfsr := t.lfsr }, csr := { c.csr with vctl := t.vctl, vseed := t.vseed }, desc := t.desc,
           bars := Vector.ofFn (fun (k : Fin 16) => { c.bars[k] with exp := nth t.exps k.val }),
           rings := c.rings.map (fun r => { r with rp := 0, wp := 0, h := 0, st := Vector.replicate 8 .empty, sw := 0, sr := 0 }) }

/-- The refill of a rolled-back turn (R375 step 3): CGET with the saved descriptor and no offset, acquire at DEVICE scope. -/
def refillCommand (c : Core) (t : Turn) : Command :=
  { id := c.nextCmd, op := .cget 0 t.bar 2 3 0 0 0 0 0 0 0, ctx := c.csr.ctxId.toNat, a := 0, b := 0, c := 0, desc := t.refill, bar := some t.bar,
    weight := descRows t.refill * descRlen t.refill, state := .queued, slot := [], index := [], done := 0, started := false, refill := true,
    killed := false, buf := [], tried := none, born := 0, hidden := [] }

/-- Steps 2 and 3 of a rollback. A pre-emption that arrived meanwhile follows (DEDUCED, log 47). -/
def State.refillTurn (s : State) (n : Nat) (t : Turn) : State :=
  let stopping := (s.teamOf n).any (fun p => decide (p.2.state = .stopping))
  let s := s.updCore n (fun c =>
    let c := c.restoreTurn t
    let x := refillCommand c t
    let c := (c.addPend x.bar x.weight).enqueue t.engine x
    { c with seq := { c.seq with stop := if stopping then some .preempt else none }, turn := some { t with rolled := t.rolled + 1 },
             rollback := some (t.bar, decide (c.seq.mode = .atHeadland)) })
  if stopping then s.push (.drainEnd n) else s

/-- Step 4 of a rollback (R375): once the refill barrier is satisfied, CNT falls by EXP, TURN_RB counts, and the cycles since the stop are
charged to slack. -/
def State.restartTurn (s : State) (n : Nat) : State :=
  match (s.core n).rollback with
  | some (b, _) =>
    if ((s.core n).bars[b]).satisfied then
      s.updCore n (fun c =>
        { c with bars := c.bars.set b (c.bars[b]).spend, rollback := none,
                 csr := { c.csr with turnRb := c.csr.turnRb + 1, slackCnt := c.csr.slackCnt + BitVec.ofNat 64 (c.seq.wc - c.seq.busy) },
                 seq := { c.seq with busy := c.seq.wc } })
    else s
  | none => s

/-- Requests of core `n` to the CC that are not served, and so hold its drain open (R375, R376). -/
def State.asks (s : State) (n : Nat) : Bool := (s.cluster (clusterOf n)).reqQ.any (fun r => r.core == n)

/-- The member on core `n` has left its drain for its swap-out: a rollback has completed in the drain (R378), and the core is SWAPPED. One that
drains after EXIT goes on draining when its team resumes (R341; DEDUCED, log 115). -/
def State.leaveDrain (s : State) (n : Nat) : State :=
  (s.restartTurn n).updCore n (fun c => { c with seq := { c.seq with mode := .swapped, starts := false,
                                                                     stop := if c.seq.stop = some .exit then some .exit else none } })

/-- Commands of core `n` are left that a pre-emption has withdrawn, and that its team's resume reissues (R341). -/
def State.leftOver (s : State) (n : Nat) : Bool :=
  ((s.core n).queue0 ++ (s.core n).queue1).any (fun x => !isJoin x.op) && (s.teamOf n).any (fun p => decide (p.2.state = .stopping))

/-- The member on core `n` of a context that has ended leaves it, and what its registers held is discarded (R439). -/
def Core.discard (c : Core) : Core :=
  { c with x := Scalar.init, vec := VecUnit.init, rings := Vector.replicate 16 Ring.init, bars := Vector.replicate 16 Barrier.init,
           desc := Vector.replicate 16 (Vector.replicate 4 0), mat := Matrix.init }

/-- DRAIN_END (R61, R63): the drain of core `n` has ended, and what its stop asks follows. Bookings after an EXIT are released at
once, and requests to the CC that are not served yet hold the drain of a pre-emption or a rollback open. -/
def execDrainEnd (n : Nat) (s : State) : Out :=
  let c := s.core n
  match c.seq.stop with
  | none => if c.seq.mode = .halted ∧ c.csr.trapCause = 0 then .next (s.exitDone n) else .next s
  | some .exit =>
    if !c.busy then .next s else
    let s := match (s.core n).team with
      | some t => s.releaseMember n t s.tick
      | none => s
    if s.drained n then .next (if s.leftOver n then s.leaveDrain n else s.exitDone n) else .next s
  | some .preempt => if s.drained n && !s.asks n then .next (s.leaveDrain n) else .next s
  | some .rollback =>
    match c.turn with
    | some t => if s.drained n && !s.asks n then .next (s.refillTurn n t) else .next s
    | none => .next (s.updCore n (fun c => { c with seq := { c.seq with stop := none } }))
  | some (.sibling m) => if s.drained n then .next (s.siblingHalt n m) else .next s
  | some .cancel =>
    if s.drained n then
      match s.teamOf n with
      | some (_, t) => .next ((s.leaveCore n).push (.instanceComplete t.inst))
      | none => .next (s.leaveCore n)
    else .next s
  | some .contextEnd =>
    if s.drained n then
      match s.teamOf n with
      | some (_, t) => .next (((s.leaveCore n).updCore n Core.discard).push (.instanceComplete t.inst))
      | none => .next ((s.leaveCore n).updCore n Core.discard)
    else .next s

/-! ### Turns (R375, R438) -/

/-- TURN_ROLLBACK (R375, R438): the core stops at its bundle boundary and drains; the word's record, with the syndrome, stands already. A pre-emption that drains the core
goes on after the rollback (R378, R443). -/
def execTurnRollback (n : Nat) (_ : BitVec 64) (s : State) : Out :=
  let c := s.core n
  if c.busy && c.turn.isSome && (c.seq.stop.isNone || decide (c.seq.stop = some .preempt)) && c.rollback.isNone then
    .next ((s.updCore n (fun c => { c with seq := { c.seq with busy := c.seq.wc, waitt := none, stop := none } })).stopCore n .rollback)
  else .next s

/-- ROLLBACK_RESTART (R375 step 4): the refill barrier is satisfied, and the core issues again. -/
def execRollbackRestart (n : Nat) (s : State) : Out :=
  let c := s.core n
  .next (if c.busy && c.seq.stop.isNone then s.restartTurn n else s)

/-! ### Swap-out (R64-R66, R126, R486) -/

/-- Offsets and sizes of a core's regions of one memory, or of the mapped ones among them. -/
def Core.spansOf (c : Core) (commons mapped : Bool) : List (Nat × Nat) :=
  (c.rgn.toList.filter (fun r => r.valid && r.commons == commons && (r.mapped || !mapped))).filterMap (fun r =>
    (locate r.base).map (fun x => (x.2, r.size)))

/-- Offsets and sizes of a core's regions of one memory. -/
def Core.spans (c : Core) (commons : Bool) : List (Nat × Nat) := c.spansOf commons false

/-- An offset lies in one of some spans. -/
def inSpans (l : List (Nat × Nat)) (o : Nat) : Bool := l.any (fun p => decide (p.1 ≤ o) && decide (o < p.1 + p.2))

/-- A local memory with what another holds put in the place of some spans. -/
def Local.overlay (l : Local) (sp : List (Nat × Nat)) (v : Local) : Local :=
  { cells := (v.cells.filter (fun c => inSpans sp c.1)).foldl (fun m c => writeByte m c.1 c.2) (l.cells.filter (fun c => !inSpans sp c.1)),
    groups := (v.groups.filter (fun g => inSpans sp (2048 * g.1))).foldl (fun t g => tset t g.1 g.2) (l.groups.filter (fun g => !inSpans sp (2048 * g.1))),
    bad := l.bad.filter (fun w => !inSpans sp (8 * w)) ++ v.bad.filter (fun w => inSpans sp (8 * w)),
    weak := l.weak.filter (fun w => !inSpans sp (8 * w)), missed := l.missed }

/-- A group as a save holds it (R126): an invalid one as invalid; one with a pending refresh as refreshed. -/
def Group.saved (g : Group) : Group :=
  if !g.valid then { Group.init with cls := g.cls, act := g.act, owner := g.owner }
  else if g.pending && !g.writeback then { g with age := 0, fresh := 0, pending := false }
  else { g with pending := false, writeback := false }

/-- What a save holds of a local memory in the spans `sp` of the member's regions (R126): the groups, and the data of those that are valid
and lie in no mapped region. -/
def Local.saved (l : Local) (sp mapped : List (Nat × Nat)) : Local :=
  let keeps := fun (o : Nat) => inSpans sp o && (l.group o).valid && !inSpans mapped o
  { cells := l.cells.filter (fun c => keeps c.1), groups := (l.groups.filter (fun g => inSpans sp (2048 * g.1))).map (fun g => (g.1, g.2.saved)),
    bad := l.bad.filter (fun w => keeps (8 * w)), weak := [], missed := [] }

/-- A withdrawn WAITA, PSEND or PRECV is reissued when its team resumes; a TBAR's arrival stands (R64). -/
def Command.requeued (x : Command) : Command :=
  match x.op with
  | .tbar .. => x
  | _ => { x with state := .queued, done := 0, buf := [], tried := none }

/-- One group of a mapped region written back at a swap-out (R124): done, to wait for its page, or ended in an error, which is
reported as event 0x0202; the group is then saved as valid (DESIGN CHOICE, log 82). -/
def State.flushSwap (s : State) (n : Nat) (r : Region) (m : Bool) (base off : Nat) : State × Bool :=
  let g := (s.localOf n m).group off
  if !g.valid then (s, true)
  else
    match s.flushGroup n g.owner (r.mapva + (off - base)) m false off with
    | (s, .ok) => (s.updLocal n m (fun l => l.updGroup off (fun g => { g with pending := false, writeback := false })), true)
    | (s, .wait _) => (s, false)
    | (s, .fail st) =>
      let s := s.event 0x202 0 (some g.owner) (if m then 2 else 1) (if m then clusterOf n else n) 0 (r.base + (off - base)) st 0
      (s.updLocal n m (fun l => l.updGroup off (fun g => { g with pending := false, writeback := false })), true)

/-- Every valid group of the mapped regions of core `n` written back. -/
def State.flushAll (s : State) (n : Nat) : State × Bool :=
  ((s.core n).rgn.toList.filter (fun r => r.valid && r.mapped)).foldl
    (fun (q : State × Bool) r =>
      match locate r.base with
      | none => q
      | some (m, base) => r.offsets.foldl (fun (q : State × Bool) o => if q.2 then q.1.flushSwap n r m base o else q) q) (s, true)

/-- The first of the uncorrectable words in valid groups of the regions of core `n` that `p` selects by memory and offset. -/
def State.badWord (s : State) (n : Nat) (p : Bool → Nat → Bool) : Option (Bool × Nat) :=
  let find := fun (m : Bool) =>
    let l := s.localOf n m
    (l.bad.find? (fun w => inSpans ((s.core n).spans m) (8 * w) && (l.group (8 * w)).valid && p m (8 * w))).map (fun w => (m, w))
  (find false).orElse (fun _ => find true)

/-- An uncorrectable word as the save of core `n` reads it: in no mapped region. -/
def State.badLive (s : State) (n : Nat) : Option (Bool × Nat) := s.badWord n (fun m o => !inSpans ((s.core n).spansOf m true) o)

/-- A mapped region of core `n` holds an uncorrectable word, which its write-back has found and poisoned in the global block (R476). -/
def State.badMapped (s : State) (n : Nat) : Bool := (s.badWord n (fun m o => inSpans ((s.core n).spansOf m true) o)).isSome

/-- An uncorrectable word of an array that a save reads: of any but the instruction banks (R65). -/
def Core.badSaved (c : Core) : Option Flaw := c.flaws.find? (fun f => f.bad && !f.inBank)

/-- Reservations of one holder given to another. -/
def State.moveHolder (s : State) (old new : Nat) : State :=
  { s with reservations := s.reservations.map (fun r => if r.core = some old then { r with core := some new } else r) }

/-- The save of the member on core `n`: neither its instruction banks nor its image (R65). -/
def State.saveOf (s : State) (n tn : Nat) : Saved :=
  let c := (s.core n).settle
  let k := s.cluster (clusterOf n)
  { core := { c with seq := { c.seq with shadow := false, code := [], codeLen := 0, shCode := [], shLen := 0 }, image := none, shImage := none, tlb := [], flaws := [],
                     field := c.field.saved (c.spans false) (c.spansOf false true),
                     queue0 := c.queue0.map Command.requeued, queue1 := c.queue1.map Command.requeued },
    commons := k.commons.saved (c.spans true) (c.spansOf true true),
    queries := (k.queries.map Prod.snd).filter (fun q => q.core == n),
    endpoints := (k.endpoints.filter (fun e => e.core == n && e.team == tn)).map (fun e => { e with senders := [] }) }

/-- SWAP_OUT_COMPLETE (R65, R126): mapped groups are written back, the member's state is in its save area, and the core is IDLE. An
uncorrectable word in what is written back or saved ends the context, and nothing is saved (R443, R476). No bank is read in the reserved cycle
(R28). -/
def execSwapOutComplete (n : Nat) (s : State) : Out :=
  match s.teamOf n with
  | none => .next s
  | some (tn, t) =>
    match t.members.find? (fun m => m.core == n && !m.exited && !m.done) with
    | none => .next s
    | some m =>
      if (s.core n).seq.mode ≠ .swapped ∨ t.state ≠ .stopping ∨ s.reservedNow (clusterOf n) = true then .next s
      else
        match s.flushAll n with
        | (s, false) => .next s
        | (s, true) =>
          match s.badLive n, (s.core n).badSaved with
          | some (b, w), _ => .next (s.wordError n b w)
          | none, some f => .next (s.flawFound n f)
          | none, none =>
            if s.badMapped n then .next s else
            let v := s.saveOf n tn
            let sp := v.core.spans true
            let s := s.updTeam tn (fun t =>
              { t with members := t.members.map (fun x =>
                  if x.rank = m.rank then { x with done := true, saved := some v }
                  else if clusterOf x.core = clusterOf n then { x with saved := x.saved.map (fun y => { y with commons := y.commons.overlay sp v.commons }) }
                  else x) })
            let s := (s.moveHolder n (absentKey tn m.rank)).leaveCore n
            .next (s.swapDone t.inst)

/-! ### Swap-in (R66, R68, R126, R362, R486) -/

/-- A saved member on a core, which stays SWAPPED: the core's own banks, counters, capabilities and caches stay its own, and its trap record
until the release (R445). -/
def Core.restored (c v : Core) (tn : Nat) : Core :=
  { v with
    seq := { v.seq with mode := .swapped, starts := false, shadow := c.seq.shadow, code := c.seq.code, codeLen := c.seq.codeLen, shCode := c.seq.shCode,
                        shLen := c.seq.shLen, wc := c.seq.wc, busy := c.seq.wc, epoch := c.seq.epoch + v.seq.epoch,
                        stop := if v.seq.stop = some .exit then some .exit else none },
    csr := { v.csr with capm := c.csr.capm, refcnt := c.csr.refcnt, slackCnt := c.csr.slackCnt, ovrCnt := c.csr.ovrCnt,
                        replayCnt := c.csr.replayCnt, trapCause := c.csr.trapCause, trapPc := c.csr.trapPc, trapAddr := c.csr.trapAddr,
                        trapSrc := c.csr.trapSrc, turnCnt := c.csr.turnCnt, turnRb := c.csr.turnRb, dbgBe := c.csr.dbgBe, chsel := c.csr.chsel },
    field := c.field.overlay (v.spans false) v.field, tlb := c.tlb, nextCmd := max c.nextCmd v.nextCmd, image := c.image, shImage := c.shImage,
    mat := { v.mat with lastStep := none }, team := some tn, flaws := c.flaws.filter Flaw.inBank,
    portHold := c.portHold, sentLoads := [] }

/-- One mapped group filled from its global range, with its saved age and mask. -/
def State.fillSwap (s : State) (n : Nat) (r : Region) (m : Bool) (base off : Nat) : State × Bool :=
  let g := (s.localOf n m).group off
  if !g.valid then (s, true)
  else
    match s.fillGroup n g.owner (r.mapva + (off - base)) m false off with
    | (s, .ok) => (s.updLocal n m (fun l => l.updGroup off (fun _ => g)), true)
    | (s, .wait _) => (s, false)
    | (s, .fail _) => (s.updLocal n m (fun l => l.updGroup off Group.gone), true)

/-- Every valid group of the mapped regions of core `n` filled. -/
def State.fillAll (s : State) (n : Nat) : State × Bool :=
  ((s.core n).rgn.toList.filter (fun r => r.valid && r.mapped)).foldl
    (fun (q : State × Bool) r =>
      match locate r.base with
      | none => q
      | some (m, base) => r.offsets.foldl (fun (q : State × Bool) o => if q.2 then q.1.fillSwap n r m base o else q) q) (s, true)

/-- TBARs whose generation was completed while the member was away end. -/
def State.endPastTbars (s : State) (n : Nat) (t : Team) : State :=
  (List.range 16).foldl (fun s k =>
    ((((s.core n).queue0 ++ (s.core n).queue1).filter (waitsOn k (t.bar k).gen)).foldl (fun s x => s.endCommand n x.id 0) s)) s

/-- A member restored on its core, its team's image in the shadow bank (R22, R65); false where a fill waits for a page. -/
def State.restoreMember (s : State) (tn : Nat) (t : Team) (m : Member) : State × Bool :=
  match m.saved with
  | none => (s, true)
  | some v =>
    let n := m.core
    let s := (s.updCore n (fun c => c.restored v.core tn)).loadShadow n t.image v.core.rgn.toList
    let s := s.updCluster (clusterOf n) (fun k => { k with commons := k.commons.overlay (v.core.spans true) v.commons })
    match s.fillAll n with
    | (s, false) => (s, false)
    | (s, true) => ((s.moveHolder (absentKey tn m.rank) n).endPastTbars n t, true)

/-- Members of some teams restored one after another. -/
def State.restoreAll (s : State) (g : List (Nat × Team)) : State × Bool :=
  g.foldl (fun (q : State × Bool) p =>
    (p.2.members.filter (fun m => !m.exited)).foldl (fun (q : State × Bool) m => if q.2 then q.1.restoreMember p.1 p.2 m else q) q) (s, true)

/-- A swap-in that cannot be done: the instance faults, and no member is released (R66). -/
def State.resumeFault (s : State) (inst : Nat) (g : List (Nat × Team)) : State :=
  let s := ((s.countArea false).updInst inst (fun i => { i with faulted := true })).dropInstRequests inst
  (g.foldl (fun s p => s.dropTeam p.1 .cancel) s).push (.instanceComplete inst)

/-- The cluster of the first live member of some teams: the CC that restores them. -/
def headCluster (g : List (Nat × Team)) : Nat := ((liveOf g).head?.map (fun x => clusterOf x.2.core)).getD 0

/-- Event 0x0402: a save area does not match its digest (R66, R459). -/
def State.digestEvent (s : State) (ctx : Nat) (g : List (Nat × Team)) : State := s.event 0x402 3 (some ctx) 3 (headCluster g) 0 0 0 0

/-- A save area that reads back with an uncorrectable word ends its team's context (R437). The spec gives no channel and no address to a page
that the GS maps where it will: the record holds unit 3, the CC, and a free syndrome (DESIGN CHOICE, log 116). -/
def State.areaError (s : State) (ctx : Nat) (g : List (Nat × Team)) : State :=
  let f := (s.countArea false).free
  (f.2.event 0x302 3 (some ctx) 3 (headCluster g) 0 0 (f.1 % 2 ^ 64) 0).push (.contextEnd ctx 0x302 0)

/-- The images of some teams loaded again from memory (R65): done, to wait for a page, or refused, as at admission (DESIGN CHOICE, log 83). -/
def State.reloadImages (s : State) : List (Nat × Team) → State × Except (Option ((Nat × Nat × Nat) × List Nat)) Unit
  | [] => (s, .ok ())
  | (tn, t) :: rest =>
    match s.readImage t.ctx t.imageVa with
    | (s, .ok (.ok i, true)) => (s.updTeam tn (fun t => { t with image := i })).reloadImages rest
    | (s, .ok (.ok _, false)) => (s, .error (some ((0x503, 4, t.imageVa), [t.imageVa])))
    | (s, .ok (.error d, signed)) => (s, .error (some ((0x502, d, t.imageVa), if signed then [] else [t.imageVa])))
    | (s, .error (.fail _)) => (s, .error (some ((0x503, 5, t.imageVa), [])))
    | (s, .error _) => (s, .error none)

/-- The teams of an instance are back in their cores: they are STAGED on one release tick, or held where their segments do not fit yet.
A pre-emption that arrived during the swap-in follows (R68, R69). -/
def State.resumeStaged (r : State) (tn inst : Nat) (asked : Bool) : State :=
  let r := r.countArea false
  let r := (r.teamsOf inst).foldl (fun r p => r.updTeam p.1 (fun t =>
    { (t.rewait r.tick) with resumed := true, asked := false, state := .held, release := r.tick, members := t.members.map (fun m => { m with saved := none }) })) r
  let r := (r.bookHeld (r.teamsOf inst)).getD (r.sendTeam .nofit tn)
  if asked then r.push (.preempt tn) else r

/-- SWAP_IN_COMPLETE (R68): each save area is read, the digest is checked, the images are loaded again, every member of the team and its gang is restored, and the
segments are booked. No bank is written in the reserved cycle (R28). -/
def execSwapInComplete (tn : Nat) (s : State) : Out :=
  match s.team tn with
  | none => .next s
  | some t =>
    let g := s.teamsOf t.inst
    if !g.all (fun p => decide (p.2.state = .restoring)) || g.any (fun p => p.2.members.any (fun m => s.reservedNow (clusterOf m.core))) then .next s
    else if g.any (fun p => p.2.areaBad) then .next (s.areaError t.ctx g)
    else if !g.all (fun p => sha256 p.2.area == p.2.digest) then .next ((s.digestEvent t.ctx g).resumeFault t.inst g)
    else
      match s.reloadImages g with
      | (r, .error none) => .next { s with faults := r.faults, snoop := r.snoop }
      | (r, .error (some w)) => .next ((r.refusalEvents t.ctx w.1 w.2).resumeFault t.inst g)
      | (r, .ok ()) =>
        match r.restoreAll (r.teamsOf t.inst) with
        | (r, false) => .next { s with faults := r.faults, snoop := r.snoop }
        | (r, true) => .next (r.resumeStaged tn t.inst (g.any (fun p => p.2.asked)))

/-! ### The end of a context (R439) -/

/-- What the end of a context stops is not all gone: an instance of it is not complete, or a core drains for it. -/
def State.endLeft (s : State) (e : Ending) : Bool :=
  e.insts.any (fun i => (s.inst i).isSome) || s.cores.any (fun p => p.2.csr.ctxId.toNat == e.ctx && decide (p.2.seq.stop = some .contextEnd))

/-- A context is being ended (R443; DEDUCED, log 49): since an earlier happening of the present tick, or until what its end stopped is gone. -/
def State.isEnding (s : State) (ctx : Nat) : Bool := s.endings.any (fun e => e.ctx == ctx && (decide (e.tick = s.tick) || s.endLeft e))

/-- Commands that no engine has accepted, and those that wait for a page, are no more (R439 step 2). -/
def Core.discardQueued (c : Core) : Core :=
  let keep := fun (x : Command) => match x.state with
    | .queued => false
    | .fault _ => false
    | _ => !x.withdrawn && !isJoin x.op
  { c with queue0 := c.queue0.filter keep, queue1 := c.queue1.filter keep }

/-- A core with work of the context stops; its monitors are disarmed. -/
def State.endCore (s : State) (n : Nat) : State := (s.updCore n (fun c => c.discardQueued.killCommands)).stopCore n .contextEnd

/-- An instance of the context faults, and its teams are taken off. -/
def State.endInst (s : State) (i : Nat) : State :=
  let s := (s.updInst i (fun x => { x with faulted := true })).dropInstRequests i
  let s := (s.teamsOf i).foldl (fun s p =>
    let s := p.2.members.foldl (fun s m =>
      if s.holdsCore p.1 m && !m.exited then
        { s.updCore m.core Core.discardQueued with monitors := s.monitors.filter (fun x => x.core ≠ m.core) }
      else s) s
    s.dropTeam p.1 .contextEnd) s
  s.push (.instanceComplete i)

/-- A launch of the context that depends on no other in flight faults; one that does is left to be cancelled (R49). -/
def State.endLaunch (s : State) (u : Nat) : State :=
  s.updUnit u (fun x => if x.open' && (decide (x.status = 1) || !(s.predecessors x).any UnitRec.open') then { x.dropUnmade with faulted := true } else x)

/-- CONTEXT_END (R439): a second error of a context that is being ended has no further effect (R443). -/
def execContextEnd (ctx cause refill : Nat) (s : State) : Out :=
  if s.isEnding ctx then .next s
  else
    let stop := fun (q : Queue) => if q.ctx = ctx ∧ q.en = true then
        { q with state := 5, kickAt := none, waitAt := none, park := none, job := none, phase := none, graph := none }
      else q
    let s := { s with queues := tmap (fun _ q => stop q) s.queues }
    let mine := (s.insts.filter (fun p => (s.teamsOf p.1).any (fun t => t.2.ctx == ctx))).map Prod.fst
    let s := mine.foldl State.endInst { s with endings := s.endings.filter (fun e => decide (e.tick = s.tick) || s.endLeft e) ++ [⟨ctx, s.tick, mine⟩] }
    let bare := (s.cores.filter (fun p => p.2.busy && p.2.csr.ctxId.toNat == ctx && p.2.team.isNone)).map Prod.fst
    let s := bare.foldl State.endCore s
    let us := (s.units.filter (fun p => p.2.ctx == ctx && p.2.open')).map Prod.fst
    let s := (us.filter (fun u => (s.unit u).any (fun x => x.kind == 0))).foldl State.endLaunch s
    let s := (us.filter (fun u => (s.unit u).any (fun x => x.kind != 0))).foldl
      (fun s u => s.updUnit u (fun x => { x with closed := true, faulted := true })) s
    let s := s.dropReservations (fun r => r.ctx == ctx && r.queue.isSome)
    .next ((s.settleUnits).event 0xB01 3 (some ctx) 9 0 0 0 (cause % 65536 + refill * 65536) 0)

end Sys2Proof.Machine
end

