-- ==== Sys2Proof/Machine/Queue.lean ====
section
/-! DEFINITION. User queues: descriptors, kick words, packets, acceptance, deferred writes and parking (R379-R391, R488-R492). -/

namespace Sys2Proof.Machine

/-! ### Queues -/

/-- Queue `q`. -/
def State.queue (s : State) (q : Nat) : Queue := tget (Queue.init q) s.queues q

def State.setQueue (s : State) (q : Nat) (x : Queue) : State := { s with queues := tset s.queues q x }

def State.updQueue (s : State) (q : Nat) (f : Queue → Queue) : State := s.setQueue q (f (s.queue q))

/-- A queue enters ERROR with event 0x0601 (R379, R380, R383, R388) (DESIGN CHOICE, log 37). -/
def State.queueError (s : State) (q detail : Nat) : State :=
  let s := s.updQueue q (fun x => { x with state := 5, kickAt := none, waitAt := none, park := none, slot := false, kicks := [] })
  let f := s.free
  f.2.event 0x601 0 (some (s.queue q).ctx) 9 (f.1 % 65536) 0 0 detail 0

/-- A queue is PARKED with event 0x0602 (R391, R491). -/
def State.parkQueue (s : State) (q : Nat) (p : Park) (detail va : Nat) (onImage : Bool) : State :=
  let s := s.updQueue q (fun x => { x with state := 4, waitAt := none, park := some p, parkSince := s.tick, onImage := onImage, slot := false })
  let f := s.free
  f.2.event 0x602 0 (some (s.queue q).ctx) 9 (f.1 % 65536) 0 va detail 0

/-! ### The kick word (R379-R381) -/

/-- The kick word read as the queue is enabled: IDLE with its monitor armed, PARKED, or in ERROR. -/
def State.readKick (s : State) (q : Nat) : State :=
  let x := s.queue q
  match s.frontPage x.ctx x.kick true false with
  | (s, .error (.page va)) => (s.updQueue q (fun x => { x with unread := true })).parkQueue q (.page x.ctx va) 1 va false
  | (s, .error .link) => (s.updQueue q (fun x => { x with unread := true })).parkQueue q .link 1 x.kick false
  | (s, .error .busy) => s.updQueue q (fun x => { x with unread := true, state := 4, park := some .link, parkSince := s.tick })
  | (s, .error (.fail _)) => s.queueError q 7
  | (s, .ok p) =>
    match s.readHome p.tier p.pa 8 with
    | (s, none) => s.blockError (some x.ctx) p.tier p.pa p.va
    | (s, some bs) =>
      let w := natOfBytes bs
      s.updQueue q (fun x =>
        { x with state := 1, rp := w, pos := w, wp := w, unread := false, levels := [], kickAt := some (p.tier, p.pa), waitAt := none,
                 park := none, onImage := false, given := [], kicks := [] })

/-- A queue is enabled. -/
def State.enable (s : State) (q : Nat) : State :=
  if (s.queue q).en then s else (s.updQueue q (fun x => { x with en := true })).readKick q

/-- A queue is disabled: nothing more is parsed; writes that are deferred stay (R379, R396). -/
def State.disable (s : State) (q : Nat) : State :=
  s.updQueue q (fun x =>
    { x with en := false, state := 0, kickAt := none, waitAt := none, park := none, unread := false, levels := [], onImage := false, given := [], slot := false,
             kicks := [] })

/-- QUEUE_ENABLE (R379). -/
def execQueueEnable (q : Nat) (s : State) : Out := .next (if q < 1024 then s.enable q else s)

/-- QUEUE_DISABLE (R379, R396): in this model a packet is parsed in one step, so the next boundary is at once. -/
def execQueueDisable (q : Nat) (s : State) : Out := .next (if q < 1024 then s.disable q else s)

/-- A write of QD1 (R379): as a whole ignored where LOG2SIZE is out of range; LOG2SIZE and CTX only while EN was 0. A queue that another fetcher
is to parse leaves its slot (R389). -/
def State.writeQd1 (s : State) (q v : Nat) : State :=
  let log2 := bits v 4 0
  if log2 < 10 ∨ 24 < log2 then s
  else
    let s := s.updQueue q (fun x =>
      let x := { x with prio := bits v 7 5, fetcher := bits v 11 8, slot := x.slot && x.fetcher == bits v 11 8 }
      if x.en then x else { x with log2 := log2, ctx := bits v 23 12 })
    if bit v 24 then s.enable q else if (s.queue q).en then s.disable q else s

/-- QUEUE_DESCRIPTOR_WRITE (R379). -/
def execQueueDescriptorWrite (q : Nat) (reg : Fin 4) (v : BitVec 64) (s : State) : Out :=
  if 1024 ≤ q then .next s
  else if reg.val = 1 then .next (s.writeQd1 q v.toNat)
  else
    .next (s.updQueue q (fun x =>
      if x.en then x
      else if reg.val = 0 then { x with base := v.toNat }
      else if reg.val = 2 then { x with kick := v.toNat }
      else { x with rptr := v.toNat }))

/-- KICKQ_WRITE (R381): the alias writes the kick word. A write that meets a page fault waits for it (DESIGN CHOICE, log 55). -/
def execKickqWrite (q : Nat) (v : BitVec 64) (s : State) : Out :=
  let x := s.queue q
  if 1024 ≤ q then .next s
  else
    match s.frontWrite x.ctx x.kick (bytesOfNat 8 v.toNat) with
    | (s, none) => .next s
    | (s, some (.fail _)) => .next s
    | (s, some _) => .next { s with recWrites := s.recWrites ++ [⟨x.ctx, x.kick, bytesOfNat 8 v.toNat, false, none, false, 0, none⟩] }

/-- DOORBELL_NOTIFY (R380, R381): the fetcher reads the kick word; one that fell, or that passes RP by more than the ring, is an
error. -/
def execDoorbellNotify (q : Nat) (s : State) : Out :=
  let x := s.queue q
  match x.kickAt with
  | none => .next s
  | some (t, pa) =>
    match s.readHome t pa 8 with
    | (s, none) => .next (s.blockError (some x.ctx) t pa x.kick)
    | (s, some bs) =>
      let w := natOfBytes bs
      if w < x.wp ∨ x.rp + 2 ^ x.log2 < w then .next (s.queueError q 6)
      else .next (s.updQueue q (fun x =>
        { x with wp := w, state := (if x.state = 1 ∧ x.pos < w then 2 else x.state), kicks := if x.wp < w then x.kicks ++ [(s.now, w)] else x.kicks }))

/-! ### Reading packet words (R380, R388) -/

/-- Address of the `k`-th word from the place where a queue is parsing. -/
def Queue.wordAt (x : Queue) (k : Nat) : Nat :=
  match x.levels with
  | [] => x.base + 4 * ((x.pos + k) % 2 ^ x.log2)
  | l :: _ => l.addr + 4 * (l.pos + k)

/-- Words that are there to be parsed. -/
def Queue.avail (x : Queue) : Nat :=
  match x.levels with
  | [] => x.wp - x.pos
  | l :: _ => l.len - l.pos

/-- The fetcher has a word to parse. -/
def Queue.ready (x : Queue) : Bool := x.en && (x.state == 1 || x.state == 2) && decide (0 < x.avail)

/-- Words `k` to `k + n − 1` read. -/
def State.readWords (s : State) (q : Nat) (k : Nat) : Nat → State × Except Stop' (List Nat)
  | 0 => (s, .ok [])
  | n + 1 =>
    let x := s.queue q
    match s.frontRead x.ctx (x.wordAt k) 4 with
    | (s, .error e) => (s, .error e)
    | (s, .ok bs) =>
      match s.readWords q (k + 1) n with
      | (s, .ok w) => (s, .ok (natOfBytes bs :: w))
      | (s, .error e) => (s, .error e)

/-- A ring or buffer word cannot be read (R391, R437). -/
def State.wordStop (s : State) (q : Nat) (e : Stop') : State :=
  match e with
  | .page va => s.parkQueue q (.page (s.queue q).ctx va) 1 va false
  | .link => s.parkQueue q .link 1 0 false
  | .busy => s
  | .fail st => if st = stData then s else s.queueError q 7

/-- Type of the packet that a queue is to parse next, without an access. -/
def State.packetType (s : State) (q : Nat) : Option Nat :=
  let x := s.queue q
  if !x.ready then none
  else match s.frontRead x.ctx (x.wordAt 0) 4 with
    | (_, .ok bs) => some (natOfBytes bs / 2 ^ 24)
    | _ => none

/-! ### Writes in order (R382, R387, R492) -/

/-- One write of the front end made, or why it is not. -/
def State.makeWrite (s : State) (w : FrontWrite) : State × Option Stop' :=
  if w.add then s.frontAdd w.ctx w.va (natOfBytes w.bytes)
  else s.frontWrite w.ctx w.va (if w.stamp then bytesOfNat 8 s.tick ++ bytesOfNat 8 s.rtick else w.bytes)

/-- The writes of a list that can be made now, in order: made or dropped, each with its interrupt; the first that must wait holds
the rest back. -/
def runWrites (ok : FrontWrite → Bool) : List FrontWrite → State → State × List FrontWrite
  | [], s => (s, [])
  | w :: rest, s =>
    if !ok w then (s, w :: rest)
    else
      match s.makeWrite w with
      | (s, none) => runWrites ok rest (s.endWrite w)
      | (s, some (.fail st)) => runWrites ok rest ((s.dropWrite w.ctx w.va st).endWrite w)
      | (s, some _) => (s, w :: rest)

/-- Launches of a queue accepted before a place in the order that have not finished. -/
def State.launchesBefore (s : State) (q after : Nat) : Bool :=
  s.units.any (fun p => p.2.kind == 0 && decide (p.2.queue = some q) && decide (p.2.order < after) && p.2.open')

/-- Writes of RPTR that wait. -/
def State.flushRp (s : State) (q : Nat) : State :=
  let r := runWrites (fun _ => true) (s.queue q).rpWrites s
  r.1.updQueue q (fun x => { x with rpWrites := r.2 })

/-- RP is published (R382). -/
def State.publish (s : State) (q : Nat) : State :=
  (s.updQueue q (fun x =>
    { x with rp := x.pos, rpWrites := x.rpWrites ++ [⟨x.ctx, x.rptr, bytesOfNat 8 x.pos, false, none, false, 0, none⟩] })).flushRp q

/-- Deferred writes whose launches have finished (R387). -/
def State.flushDeferred (s : State) (q : Nat) : State :=
  let r := runWrites (fun w => !s.launchesBefore q w.after) (s.queue q).deferred s
  r.1.updQueue q (fun x => { x with deferred := r.2 })

/-- DEFERRED_WRITE_PERFORM (R387, R492): deferred writes are performed in packet order once the launches before them have finished. -/
def execDeferredWritePerform (q : Nat) (s : State) : Out :=
  .next ((s.flushRp q).flushDeferred q)

/-- WAIT_REEVALUATE (R387): the packet that holds parsing is evaluated again. -/
def execWaitReevaluate (q : Nat) (s : State) : Out :=
  .next (if (s.queue q).state = 3 then s.updQueue q (fun x => { x with state := 2, waitAt := none }) else s)

/-! ### Acceptance (R382, R388, R390) -/

/-- What a packet comes to. -/
inductive Took where
  /-- Accepted; with true, its interrupt is due now. -/
  | accept (now : Bool)
  /-- It holds parsing; the line whose writes re-evaluate it. -/
  | hold (line : Option (Nat × Nat))
  | park (p : Park) (detail va : Nat) (onImage : Bool)
  | error (detail : Nat)
  /-- Parsing goes on in a buffer. -/
  | call (l : Level)
  /-- The context has been ended meanwhile (R437). -/
  | gone
  /-- It is tried again (R400). -/
  | again
  deriving DecidableEq, Repr

/-- `n` words parsed (DEDUCED, log 50). -/
def Queue.skip (x : Queue) (n : Nat) : Queue :=
  match x.levels with
  | [] => { x with pos := x.pos + n }
  | l :: rest => { x with levels := { l with pos := l.pos + n } :: rest }

/-- Buffers parsed to their last word are left, innermost first: how many of their calls ask for an interrupt. -/
def leaveLevels : List Level → List Level × Nat
  | [] => ([], 0)
  | l :: rest =>
    if l.len ≤ l.pos then
      let r := leaveLevels rest
      (r.1, r.2 + (if l.interrupt then 1 else 0))
    else (l :: rest, 0)

/-- A queue after a packet of `n` words was accepted: buffers that have ended are left, and RP is published once a ring packet is
whole. -/
def State.acceptPacket (s : State) (q n : Nat) : State :=
  let x := (s.queue q).skip n
  let r := leaveLevels x.levels
  let s := s.setQueue q { x with levels := r.1, waitAt := none, onImage := false, given := [], state := 2 }
  let s := (List.range r.2).foldl (fun s _ => s.interrupt (some q)) s
  let s := if r.1.isEmpty then s.publish q else s
  s.updQueue q (fun x =>
    let x := { x with kicks := x.kicks.filter (fun k => decide (x.pos < k.2)) }
    if x.avail = 0 then { x with state := 1, slot := false } else x)

/-- The counts that a header may give (R383, R384): a LAUNCH has 8 to 118 words, an even number of them. -/
def countOk (ty count : Nat) (need : Option Nat) : Bool :=
  need.all (fun n => n == count) && (ty != 1 || (decide (8 ≤ count) && decide (count ≤ 118) && count % 2 == 0))

/-- Rules of a header (R383): the DETAIL of event 0x0601 that it breaks. -/
def headerFault (x : Queue) (ty count flags : Nat) (need : Option Nat) : Option Nat :=
  if 9 < ty then some 1
  else if !countOk ty count need then some 2
  else if 2 ≤ flags then some 3
  else if !x.levels.isEmpty && decide (x.avail < 1 + count) then some 5
  else none

/-- Words that a LAUNCH payload has by its word 3. -/
def launchWords (w3 : Nat) : Nat := 8 + 2 * bits w3 14 12 + 4 * (bits w3 7 4 + bits w3 11 8) + 2 * bits w3 20 16

/-- The word 3 of a LAUNCH of which not all words are there yet, but that one, contradicts the header's count (R383). -/
def State.launchWrong (s : State) (q ty count : Nat) : Bool :=
  ty == 1 && decide (5 ≤ (s.queue q).avail)
    && (match (s.readWords q 4 1).2 with | .ok w => decide (launchWords (nth w 0) ≠ count) | .error _ => false)

/-- The next packet of a queue, when its type is `ty`: its words read, its effect, and what follows from it. -/
def State.runPacket (s : State) (q ty : Nat) (need : Option Nat) (f : State → List Nat → Bool → State × Took) : State :=
  if !(s.queue q).ready then s
  else
    match s.readWords q 0 1 with
    | (s, .error e) => s.wordStop q e
    | (s, .ok h) =>
      let w := nth h 0
      let count := bits w 23 8
      let flags := bits w 7 0
      if w / 2 ^ 24 ≠ ty then s
      else
        match headerFault (s.queue q) ty count flags need with
        | some d => s.queueError q d
        | none =>
          if (s.queue q).avail < 1 + count then (if s.launchWrong q ty count then s.queueError q 2 else s)
          else
            match s.readWords q 1 (if ty = 0 then 0 else count) with
            | (s, .error e) => s.wordStop q e
            | (s, .ok p) =>
              let int := bit flags 0
              match f s p int with
              | (s, .accept now) => (if now && int then s.interrupt (some q) else s).acceptPacket q (1 + count)
              | (s, .hold line) => s.updQueue q (fun x => { x with state := 3, waitAt := line })
              | (s, .park p d va image) => s.parkQueue q p d va image
              | (s, .error d) => s.queueError q d
              | (s, .call l) => s.updQueue q (fun x => let x := x.skip (1 + count); { x with levels := l :: x.levels, state := 2 })
              | (s, .gone) => s
              | (s, .again) => s

/-- A reserved type (R383). -/
def State.badPacket (s : State) (q : Nat) : State :=
  match s.packetType q with
  | some ty => if 9 < ty then s.queueError q 1 else s
  | none => match s.readWords q 0 1 with
    | (s, .error e) => if (s.queue q).ready then s.wordStop q e else s
    | (s, .ok _) => s

/-- A double of a payload, low word first. -/
def dw (p : List Nat) (k : Nat) : Nat := nth p k + nth p (k + 1) * 2 ^ 32

/-- The signed value of a double. -/
def signed64 (v : Nat) : Int := if v < 2 ^ 63 then v else (v : Int) - 2 ^ 64

/-- A condition (R387). -/
def holdsCond (c a v : Nat) : Bool :=
  match c with
  | 0 => a == v
  | 1 => a != v
  | 2 => decide (v ≤ a)
  | 3 => decide (a < v)
  | 4 => decide (signed64 v ≤ signed64 a)
  | _ => decide (signed64 a < signed64 v)

/-- A packet's own access that is not made: a WAIT or COUNTER address that is not resident parks, another failure is an error. -/
def tookStop (ctx : Nat) (e : Stop') : Took :=
  match e with
  | .page va => .park (.page ctx va) 2 va false
  | .link => .park .link 2 0 false
  | .busy => .again
  | .fail st => if st = stData then .gone else .error 7

/-- `n` bytes that a packet reads, with the line that they lie in. -/
def State.packetRead (s : State) (ctx va n : Nat) : State × Except Took (List Byte × (Nat × Nat)) :=
  match s.frontPage ctx va true false with
  | (s, .error e) => (s, .error (tookStop ctx e))
  | (s, .ok p) =>
    match s.readHome p.tier p.pa n with
    | (s, some bs) => (s, .ok (bs, (p.tier, p.pa)))
    | (s, none) => (s.blockError (some ctx) p.tier p.pa p.va, .error .gone)

/-! ### The launch record (R44, R384) -/

/-- A LAUNCH payload. -/
structure LaunchRec where
  images : List Nat
  n : Nat
  flags : Nat
  counter : Nat
  reads : List (Nat × Nat)
  writes : List (Nat × Nat)
  presets : List (Nat × Option Nat × Nat)
  deriving DecidableEq, Repr

/-- A LAUNCH payload parsed, or the DETAIL of what it breaks: a wrong count, a reserved bit, a range or an alignment. -/
def parseLaunch (p : List Nat) : Except Nat LaunchRec :=
  let w3 := nth p 3
  let g := bits w3 14 12
  let nr := bits w3 7 4
  let nw := bits w3 11 8
  let npre := bits w3 20 16
  let fpr := bits (nth p 6) 5 0
  let images := dw p 0 :: (List.range g).map (fun k => dw p (8 + 2 * k))
  let sets := (List.range (nr + nw)).map (fun k => (dw p (8 + 2 * g + 4 * k), dw p (10 + 2 * g + 4 * k)))
  let pre := (List.range npre).map (fun k => (k, dw p (8 + 2 * g + 4 * (nr + nw) + 2 * k)))
  let rel := fun (k : Nat) => bit (nth p 7) k
  if p.length < 8 ∨ p.length ≠ launchWords w3 then .error 2
  else if bits (nth p 2) 31 24 ≠ 0 ∨ bits w3 31 21 ≠ 0 ∨ nth p 6 / 64 ≠ 0 ∨ nth p 7 / 65536 ≠ 0
      ∨ pre.any (fun x => rel x.1 && x.2 / 2 ^ 36 != 0) = true then .error 3
  else if images.any (fun a => a % 64 != 0) = true ∨ dw p 4 % 128 ≠ 0 ∨ 8 < nr ∨ 8 < nw ∨ 16 < npre
      ∨ fpr = 0 ∨ 64 < fpr + npre then .error 8
  else .ok
    { images := images, n := bits (nth p 2) 23 0 + 1, flags := w3, counter := dw p 4, reads := sets.take nr, writes := sets.drop nr,
      presets := pre.map (fun x => (fpr + x.1, if rel x.1 then (some (bits x.2 35 32), x.2 % 2 ^ 32) else (none, x.2))) }

/-- The lower of two refusals by the order of R489's table; an earlier image's first. -/
def worse (a b : Option (Nat × Nat × Nat)) : Option (Nat × Nat × Nat) :=
  match a, b with
  | none, b => b
  | a, none => a
  | some x, some y => if y.1 * 16 + y.2.1 < x.1 * 16 + x.2.1 then some y else some x

/-- What the images of a launch or a BOOK are found to be (R488, R489): those that pass R231, each with its place, the refusal found so far,
and the addresses of those whose signature does not verify. -/
structure Readings where
  images : List (Nat × Image)
  refusal : Option (Nat × Nat × Nat)
  unsigned : List Nat
  deriving DecidableEq, Repr

/-- The images of a launch read (R488), from place `k` on; or the page or link that the reading waits for. An image on one of the pages
`given`, whose faults were declared unresolvable, is unreadable. -/
def State.readImages (s : State) (ctx : Nat) (given : List Nat) : Nat → List Nat → State × Except Stop' Readings
  | _, [] => (s, .ok ⟨[], none, []⟩)
  | k, va :: rest =>
    let next := fun (s : State) (i : List (Nat × Image)) (r : Option (Nat × Nat × Nat)) (signed : Bool) =>
      match s.readImages ctx given (k + 1) rest with
      | (s, .ok q) => (s, Except.ok (⟨i ++ q.images, worse r q.refusal, (if signed then [] else [va]) ++ q.unsigned⟩ : Readings))
      | (s, .error e) => (s, .error e)
    match s.readImage ctx va with
    | (s, .ok (.ok i, signed)) => next s [(k, i)] (if signed then none else some (0x503, 4, va)) signed
    | (s, .ok (.error d, signed)) => next s [] (some (0x502, d, va)) signed
    | (s, .error (.fail _)) => next s [] (some (0x503, 5, va)) true
    | (r, .error (.page p)) =>
      if given.contains (p / 65536) then next { r with faults := s.faults } [] (some (0x503, 5, va)) true else (r, .error (.page p))
    | (s, .error .link) => (s, .error .link)
    | (s, .error .busy) => (s, .error .busy)

/-! ### Units formed by a launch (R45, R47, R385, R386) -/

/-- A unit not yet released. -/
def UnitRec.fresh (kind ctx : Nat) (parent queue : Option Nat) (record : Nat) : UnitRec :=
  { kind := kind, ctx := ctx, parent := parent, queue := queue, count := 0, expected := 0, closed := false, status := 0, faulted := false,
    cancelled := false, start := 0, finish := 0, record := record, images := [], total := 0, reads := [], writes := [], presets := [],
    order := 0, prio := 0, admitted := false, made := 0, ready := none, parsed := [], unsigned := [], interrupt := false, booking := none, refusal := none }

/-- The ID of the next unit: 32 bits, and no unit in flight has it (R385). -/
def State.freeUnit (s : State) : Nat :=
  ((List.range (s.units.length + 1)).map (fun k => (s.nextOp + k) % 2 ^ 32)).find? (fun u => (s.unit u).isNone) |>.getD 0

/-- A unit enters the tables, and its parent expects one more. -/
def State.newUnit (s : State) (x : UnitRec) : State × Nat :=
  let u := s.freeUnit
  let s := { s with units := tset s.units u { x with order := s.nextOp }, past := s.past.filter (fun v => v.1 ≠ u), nextOp := s.nextOp + 1 }
  (match x.parent with
    | some p => s.updUnit p (fun y => { y with expected := y.expected + 1 })
    | none => s, u)

/-- A unit closes: from now on its expected count stands. -/
def State.closeUnit (s : State) (u : Option Nat) : State :=
  match u with
  | some u => s.updUnit u (fun x => { x with closed := true })
  | none => s

/-- A unit that is open, or a new one of a kind. -/
def State.openUnit (s : State) (cur : Option Nat) (x : UnitRec) : State × Nat :=
  match cur with
  | some u => (s, u)
  | none => s.newUnit x

/-- The launch, and the graph, phase and job that it joins or opens (R385): the launch's number, and those that stay open. -/
def State.formUnits (s : State) (ctx : Nat) (queue job phase graph : Option Nat) (r : LaunchRec) (x : UnitRec) :
    State × Nat × Option Nat × Option Nat × Option Nat :=
  let at' := fun (k : Nat) => r.counter + 32 * k
  let opens := bit r.flags 0
  let s := if opens then s.closeUnit graph else s
  let (s, j) := s.openUnit job (UnitRec.fresh 3 ctx none queue (at' 3))
  let (s, p) := s.openUnit phase (UnitRec.fresh 2 ctx (some j) queue (at' 2))
  let (s, g) := s.openUnit (if opens then none else graph) (UnitRec.fresh 1 ctx (some p) queue (at' 1))
  let (s, u) := s.newUnit { x with parent := some g }
  let shutJob := bit r.flags 3
  let shutPhase := bit r.flags 2 || shutJob
  let shutGraph := bit r.flags 1 || shutPhase || (!opens && graph.isNone)
  let s := if shutGraph then s.closeUnit (some g) else s
  let s := if shutPhase then s.closeUnit (some p) else s
  let s := if shutJob then s.closeUnit (some j) else s
  let old := [graph, phase, job].filterMap (fun o => o)
  let s := ((old ++ [u, g, p, j]).eraseDups).foldl (fun s k => s.writeRecord k) s
  (s, u, if shutJob then none else some j, if shutPhase then none else some p, if shutGraph then none else some g)

/-- The dependence table is full (R45). -/
def State.tableFull (s : State) : Bool := decide (1024 ≤ (s.units.filter (fun p => p.2.kind == 0 && p.2.open')).length)

/-- A launch accepted (R384, R390, R391): the table has room, its images have been read, and its counter block can be written. -/
def State.enterLaunch (s : State) (ctx prio : Nat) (queue job phase graph booking : Option Nat) (given : List Nat) (int : Bool) (r : LaunchRec) :
    State × Except Took (Nat × Option Nat × Option Nat × Option Nat) :=
  if s.tableFull then (s, .error (.park .table 3 0 false))
  else
    match s.readImages ctx given 0 r.images with
    | (s, .error (.page va)) => (s, .error (.park (.page ctx va) 1 va true))
    | (s, .error .link) => (s, .error (.park .link 1 0 true))
    | (s, .error .busy) => (s, .error .again)
    | (s, .error (.fail _)) => (s, .error .gone)
    | (s, .ok found) =>
      match s.frontPage ctx r.counter false true with
      | (s, .error (.page va)) => (s, .error (.park (.page ctx va) 1 va false))
      | (s, .error .link) => (s, .error (.park .link 1 0 false))
      | (s, .error .busy) => (s, .error .again)
      | (s, .error (.fail st)) => (s, .error (if st = stData then .gone else .error 7))
      | (s, .ok _) =>
        let x := { UnitRec.fresh 0 ctx none queue r.counter with
          expected := r.n, closed := true, images := r.images, total := r.n, reads := r.reads, writes := r.writes, presets := r.presets,
          prio := prio, parsed := found.images, unsigned := found.unsigned, interrupt := int, booking := booking, refusal := found.refusal }
        let (s, u, j, p, g) := s.formUnits ctx queue job phase graph r x
        ((s.settleUnits).push (.launchAdmit u), .ok (u, j, p, g))

/-! ### Admission (R42, R79, R338, R395, R488-R490) -/

/-- Cores for the teams of a launch, one after another, each on present cores that the others leave, with room for its endpoints in every
cluster: some choice of them places all. -/
def State.couldPlace (s : State) : List Image → List (Image × List Nat) → Bool
  | [], _ => true
  | i :: rest, used =>
    let taken := fun (cl : Nat) => (used.map (fun p => (p.2.filter (fun n => clusterOf n == cl)).length * p.1.receives.length)).sum
    (tryCores (fun n => bit s.pres.cores n && (s.core n).covers i.usem && !used.any (fun p => p.2.contains n))
      (fun cl => endpointRoom i.receives.length (taken cl)) i.teamSize
      (fun cs => if State.couldPlace s rest (used ++ [(i, cs)]) then some () else none)).isSome

/-- Some set of present cores could hold the team or the gang, endpoints and all (R42, R338, R395). -/
def State.placeable (s : State) (is : List Image) : Bool := s.couldPlace is []

/-- A cluster could hold a member of a team of an image: it has a present core that covers the image's mask, and with 7 other clusters it
has enough of them for the team. -/
def State.mayHold (s : State) (i : Image) (cl : Nat) : Bool :=
  let count := fun (cl : Nat) => (coresIn (fun n => bit s.pres.cores n && (s.core n).covers i.usem) cl).length
  let others := sortKey (fun k => 8 - k) (((List.range 32).filter (fun c => c ≠ cl)).map count)
  decide (0 < count cl) && decide (i.teamSize ≤ count cl + (others.take 7).sum)

/-- The first image with a furrow whose EQ exceeds the bookable energy of every island that could hold it (R79): its place. -/
def State.eqBad (s : State) (is : List (Nat × Image)) : Option Nat :=
  (is.find? (fun i => i.2.furrows.any (fun f => (List.range 32).all (fun cl => !s.mayHold i.2 cl || decide ((s.cluster cl).bookable < f.eq))))).map
    Prod.fst

/-- The pipes of a launch of `n` images cannot pair, as far as the images read show (R338): a pipe number has more than one image at an end, or, with
every image read, one at one end only; or an image's role is not its team's index (R384). -/
def pipesClash (n : Nat) (is : List (Nat × Image)) : Bool :=
  let ends := fun (k : Nat) (recv : Bool) => (is.filter (fun i => (i.2.pipe k recv).isSome)).length
  (List.range 16).any (fun k => decide (1 < ends k true) || decide (1 < ends k false) || (decide (is.length = n) && ends k true != ends k false))
    || (decide (1 < n) && is.any (fun i => i.2.gangRole != i.1))

/-- The conditions of admission that the images read break, whatever those that could not be read hold (R489). -/
def State.admission (s : State) (images : List Nat) (is : List (Nat × Image)) : Option (Nat × Nat × Nat) :=
  if !s.placeable (is.map Prod.snd) then some (0x503, 1, nth images 0)
  else match s.eqBad is with
    | some k => some (0x503, 2, nth images k)
    | none => if pipesClash images.length is then some (0x503, 3, nth images 0) else none

/-- The refusal of a launch (R489): the first row of the table among what its images showed and the conditions of admission (DEDUCED, log 53). -/
def State.refusalOf (s : State) (x : UnitRec) : Option (Nat × Nat × Nat) := worse (s.admission x.images x.parsed) x.refusal

/-- LAUNCH_ADMIT (R488, R489): the launch is admitted, or refused as FAULTED with its event. -/
def execLaunchAdmit (u : Nat) (s : State) : Out :=
  match s.unit u with
  | none => .next s
  | some x =>
    if x.kind ≠ 0 ∨ x.admitted = true ∨ x.open' = false then .next s
    else
      match s.refusalOf x with
      | none => .next (s.updUnit u (fun x => { x with admitted := true, refusal := none }))
      | some r =>
        .next (((s.refusalEvents x.ctx r x.unsigned).updUnit u (fun x =>
          { x with count := x.total, made := x.total, faulted := true, refusal := none })).settleUnits)

/-! ### BOOK (R377, R387, R490) -/

/-- The lowest handle not in use. -/
def State.freeHandle (s : State) : Nat :=
  ((List.range 65535).map (fun k => k + 1)).find? (fun h => !s.reservations.any (fun r => r.handle == h)) |>.getD 0

/-- A core is free for a child from a tick on (DEDUCED, log 52): its task, if it has one, has booked its last furrow, no team waits on it,
and nothing is booked on it at or after the tick. -/
def State.coreFree (s : State) (n t : Nat) : Bool :=
  ((s.core n).team.isNone || s.lastBooked n) && (s.nextOn n).isNone
    && !(s.cluster (clusterOf n)).bookings.any (fun b => b.core == n && decide (b.kind ≠ .unbooked) && decide (t ≤ b.end' + b.left))

/-- First furrows of an image on some cores. -/
def State.firstWants (s : State) (team : Nat) (i : Image) (cores : List Nat) : List (Want × Image) :=
  (cores.filterMap (fun n => s.wantOf n team 0 i)).map (fun x => (x, i))

/-- Cores taken in ascending order at a tick, each if it fits beside those taken. -/
def State.takeCores (s : State) (team t : Nat) (i : Image) : List Nat → List Nat → List Nat
  | [], got => got
  | n :: rest, got =>
    if got.length < i.teamSize ∧ s.coreFree n t = true ∧ joins (fun _ => 8) got n = true
        ∧ ((s.bookTeam (s.firstWants team i (got ++ [n])) t 1).any (fun r => r.2 == t)) = true then
      s.takeCores team t i rest (got ++ [n])
    else s.takeCores team t i rest got

/-- The booking of an image at the first tick of `k` from `t`: the state, the cores and the tick. -/
def State.bookAt (s : State) (team : Nat) (i : Image) (cand : List Nat) : Nat → Nat → Option (State × List Nat × Nat)
  | 0, _ => none
  | k + 1, t =>
    let cs := s.takeCores team t i cand []
    if cs.length = i.teamSize then
      match s.bookTeam (s.firstWants team i cs) t 1 with
      | some (s, _) => some (s, cs, t)
      | none => s.bookAt team i cand k (t + 1)
    else s.bookAt team i cand k (t + 1)

/-- An image booked on some cores in a window of ticks (R377): its reservation. -/
def State.bookImage (s : State) (core queue : Option Nat) (ctx va : Nat) (i : Image) (cand : List Nat) (lo hi : Nat) : Option (State × Reservation) :=
  let team := s.nextOp
  let from' := max lo (s.tick + 1)
  let ok := cand.filter (fun n => bit s.pres.cores n && (s.core n).covers i.usem)
  match s.bookAt team i ok (min hi s.horizon + 1 - from') from' with
  | none => none
  | some (s, cs, t) =>
    let r : Reservation := ⟨s.freeHandle, core, queue, va, ctx, cs, t, team⟩
    some ({ s with reservations := s.reservations ++ [r], nextOp := team + 1 }, r)

/-- The open booking of a queue is given up. -/
def State.dropBooking (s : State) (q : Nat) : State :=
  match (s.queue q).booking.bind (fun t => s.reservations.find? (fun r => r.team == t)) with
  | some r => s.dropReservation r
  | none => s.updQueue q (fun x => { x with booking := none })

/-! ### The packets (R383-R388) -/

/-- NOP (R383). -/
def execNop (q : Nat) (s : State) : Out := .next (s.runPacket q 0 none (fun s _ _ => (s, .accept true)))

/-- The effect of a LAUNCH (R384-R386): the booking that it uses, and the units that stay open. -/
def State.takeLaunch (s : State) (q : Nat) (p : List Nat) (int : Bool) : State × Took :=
  match parseLaunch p with
  | .error d => (s, .error d)
  | .ok r =>
    let x := s.queue q
    let mine := x.booking.bind (fun t => s.reservations.find? (fun v => v.team == t))
    let use := bit r.flags 15 && mine.any (fun v => v.image == nth r.images 0)
    match s.enterLaunch x.ctx x.prio (some q) x.job x.phase x.graph (if use then x.booking else none) x.given int r with
    | (s, .error t) => (s, t)
    | (s, .ok (_, j, ph, g)) =>
      let s := if use then s.updQueue q (fun x => { x with booking := none }) else s.dropBooking q
      (s.updQueue q (fun x => { x with job := j, phase := ph, graph := g }), .accept false)

/-- LAUNCH (R384). -/
def execLaunch (q : Nat) (s : State) : Out := .next (s.runPacket q 1 none (fun s p int => s.takeLaunch q p int))

/-- The effect of a WAIT (R387). -/
def State.takeWait (s : State) (q : Nat) (p : List Nat) : State × Took :=
  let c := nth p 2
  if 8 ≤ c then (s, .error 3)
  else if 6 ≤ c ∨ dw p 0 % 8 ≠ 0 then (s, .error 8)
  else
    match s.packetRead (s.queue q).ctx (dw p 0) 8 with
    | (s, .error t) => (s, t)
    | (s, .ok (bs, line)) => if holdsCond c (natOfBytes bs) (dw p 3) then (s, .accept true) else (s, .hold (some line))

/-- WAIT (R387). -/
def execWait (q : Nat) (s : State) : Out := .next (s.runPacket q 2 (some 5) (fun s p _ => s.takeWait q p))

/-- A deferred write is queued. -/
def State.defer (s : State) (q : Nat) (va : Nat) (bytes : List Byte) (add stamp int : Bool) : State :=
  s.updQueue q (fun x => { x with deferred := x.deferred ++ [⟨x.ctx, va, bytes, add, if int then some q else none, stamp, s.nextOp, some q⟩] })

/-- The effect of a SIGNAL (R387). -/
def State.takeSignal (s : State) (q : Nat) (p : List Nat) (int : Bool) : State × Took :=
  let o := nth p 2
  if 4 ≤ o then (s, .error 3)
  else if 2 ≤ o ∨ dw p 0 % 8 ≠ 0 then (s, .error 8)
  else ((s.defer q (dw p 0) (bytesOfNat 8 (dw p 3)) (o == 1) false int).push (.deferredWritePerform q), .accept false)

/-- SIGNAL (R387). -/
def execSignal (q : Nat) (s : State) : Out := .next (s.runPacket q 3 (some 5) (fun s p int => s.takeSignal q p int))

/-- The effect of an IB_CALL (R388). -/
def State.takeCall (s : State) (q : Nat) (p : List Nat) (int : Bool) : State × Took :=
  let n := nth p 2
  if dw p 0 % 4 ≠ 0 ∨ n = 0 ∨ 16777216 < n then (s, .error 8)
  else if 4 ≤ (s.queue q).levels.length then (s, .error 4)
  else (s, .call ⟨dw p 0, n, 0, int⟩)

/-- IB_CALL (R388). -/
def execIbCall (q : Nat) (s : State) : Out := .next (s.runPacket q 4 (some 3) (fun s p int => s.takeCall q p int))

/-- The effect of a FENCE (R387). -/
def State.takeFence (s : State) (q : Nat) : State × Took :=
  if s.launchesBefore q s.nextOp || !(s.queue q).deferred.isEmpty || s.recWrites.any (fun w => decide (w.queue = some q)) then (s, .hold none)
  else (s, .accept true)

/-- PKT_FENCE (R387). -/
def execPktFence (q : Nat) (s : State) : Out := .next (s.runPacket q 5 (some 0) (fun s _ _ => s.takeFence q))

/-- The result doubles of a BOOK packet: one write of both, which may wait for its pages (R383). -/
def State.bookResult (s : State) (q va status tick : Nat) (int : Bool) : State :=
  s.tryRecord ⟨(s.queue q).ctx, va, bytesOfNat 8 status ++ bytesOfNat 8 tick, false, if int then some q else none, false, 0, none⟩

/-- Cores of the clusters of a mask, ascending. -/
def coresOfMask (mask : Nat) : List Nat := (List.range 256).filter (fun n => bit mask (clusterOf n))

/-- A BOOK of an image that was read (R387, R490): the queue's booking, and its result. -/
def State.bookFound (s : State) (q : Nat) (p : List Nat) (int : Bool) (found : Readings) : State :=
  let x := s.queue q
  let out := dw p 7
  match found.images, found.refusal with
  | [(_, i)], none =>
    if (s.admission [dw p 0] [(0, i)]).isSome || decide (8 < i.teamSize) then s.bookResult q out 2 0 int
    else
      match s.bookImage none (some q) x.ctx (dw p 0) i (coresOfMask (nth p 2)) (dw p 3) (dw p 5) with
      | some (s, r) => (s.updQueue q (fun x => { x with booking := some r.team })).bookResult q out 0 r.tick int
      | none => s.bookResult q out 1 0 int
  | _, _ => s.bookResult q out 2 0 int

/-- The effect of a BOOK packet (R387, R490). -/
def State.takeBook (s : State) (q : Nat) (p : List Nat) (int : Bool) : State × Took :=
  let x := s.queue q
  if dw p 0 % 64 ≠ 0 ∨ dw p 7 % 8 ≠ 0 then (s, .error 8)
  else
    match s.readImages x.ctx x.given 0 [dw p 0] with
    | (s, .error (.page a)) => (s, .park (.page x.ctx a) 1 a true)
    | (s, .error .link) => (s, .park .link 1 0 true)
    | (s, .error .busy) => (s, .again)
    | (s, .error (.fail _)) => (s, .gone)
    | (s, .ok found) => ((s.dropBooking q).bookFound q p int found, .accept false)

/-- PKT_BOOK (R387). -/
def execPktBook (q : Nat) (s : State) : Out := .next (s.runPacket q 6 (some 9) (fun s p int => s.takeBook q p int))

/-- A unit of a context by kind and ID that has not finished. -/
def State.inFlight (s : State) (ctx kind id : Nat) : Bool :=
  (s.unit id).any (fun x => x.ctx == ctx && x.kind == kind && x.open')

/-- The effect of a CANCEL packet (R50, R387): its interrupt waits until every launch that it cancels has ended (R383). -/
def State.takeCancel (s : State) (q : Nat) (p : List Nat) (int : Bool) : State × Took :=
  if 4 ≤ nth p 0 then (s, .error 3)
  else if s.inFlight (s.queue q).ctx (nth p 0) (nth p 1) then
    let s := if int then s.updQueue q (fun x => { x with cancels := x.cancels ++ [s.launchesOf (nth p 1)] }) else s
    (s.cancelUnit (nth p 1), .accept false)
  else (s, .accept true)

/-- PKT_CANCEL (R387). -/
def execPktCancel (q : Nat) (s : State) : Out := .next (s.runPacket q 7 (some 2) (fun s p int => s.takeCancel q p int))

/-- The effect of a COUNTER packet (R387). -/
def State.takeCounter (s : State) (q : Nat) (p : List Nat) : State × Took :=
  let o := nth p 2
  let ctx := (s.queue q).ctx
  if 4 ≤ o then (s, .error 3)
  else if o = 3 ∨ dw p 0 % 32 ≠ 0 then (s, .error 8)
  else
    match s.packetRead ctx (dw p 0) 32 with
    | (s, .error t) => (s, t)
    | (s, .ok (bs, line)) =>
      if o = 2 then
        match s.frontWriteAll ctx (dw p 3) bs with
        | (s, none) => (s, .accept true)
        | (s, some e) => (s, tookStop ctx e)
      else if (if o = 0 then decide (2 ≤ num bs 8 1) else decide (dw p 3 ≤ num bs 0 4)) then (s, .accept true)
      else (s, .hold (some line))

/-- COUNTER (R387). -/
def execCounter (q : Nat) (s : State) : Out := .next (s.runPacket q 8 (some 5) (fun s p _ => s.takeCounter q p))

/-- The effect of a TIMESTAMP (R387, R492): deferred, or written at once with the values of now. -/
def State.takeTimestamp (s : State) (q : Nat) (p : List Nat) (int : Bool) : State × Took :=
  let o := nth p 2
  if 2 ≤ o then (s, .error 3)
  else if dw p 0 % 16 ≠ 0 then (s, .error 8)
  else if o = 1 then ((s.defer q (dw p 0) [] false true int).push (.deferredWritePerform q), .accept false)
  else
    (s.tryRecord ⟨(s.queue q).ctx, dw p 0, bytesOfNat 8 s.tick ++ bytesOfNat 8 s.rtick, false, if int then some q else none, false, 0, some q⟩,
      .accept false)

/-- TIMESTAMP (R387). -/
def execTimestamp (q : Nat) (s : State) : Out := .next (s.runPacket q 9 (some 3) (fun s p int => s.takeTimestamp q p int))

/-! ### Slots (R389) -/

/-- A queue keeps its slot: it is enabled, and neither empty nor in ERROR nor PARKED. -/
def Queue.keepsSlot (x : Queue) : Bool := x.slot && x.en && (x.state == 3 || (x.state == 2 && decide (0 < x.avail)))

/-- A queue waits for a slot: it has words to parse, or a WAIT to evaluate. -/
def Queue.wantsSlot (x : Queue) : Bool := !x.slot && x.en && (x.state == 3 || x.ready)

/-- Free slots of fetcher `k` taken in order of priority, and then of the oldest unparsed kick. -/
def State.takeSlots (s : State) (k : Nat) : State :=
  let s := { s with queues := tmap (fun _ (x : Queue) => if x.fetcher = k then { x with slot := x.keepsSlot } else x) s.queues }
  let mine := s.queues.filter (fun p => p.2.fetcher == k)
  let age := fun (x : Queue) => (x.kicks.head?.map Prod.fst).getD s.now
  let wait := sortKey (fun (p : Nat × Queue) => (7 - p.2.prio) * 2 ^ 128 + age p.2) (mine.filter (fun p => p.2.wantsSlot))
  (wait.take (32 - (mine.filter (fun p => p.2.slot)).length)).foldl (fun s p => s.updQueue p.1 (fun x => { x with slot := true })) s

/-- Payload words of the packet types that have one count (R383). -/
def packetNeed (ty : Nat) : Option Nat := [none, none, some 5, some 5, some 3, some 0, some 9, some 2, some 5, some 3].getD ty none

/-- The next packet of a queue can be parsed: all its words are there, or it is found wrong before, or a word cannot be read. -/
def State.parsable (s : State) (q : Nat) : Bool :=
  match (s.readWords q 0 1).2 with
  | .error _ => true
  | .ok h =>
    let w := nth h 0
    let count := bits w 23 8
    (headerFault (s.queue q) (w / 2 ^ 24) count (bits w 7 0) (packetNeed (w / 2 ^ 24))).isSome || decide (1 + count ≤ (s.queue q).avail)
      || s.launchWrong q (w / 2 ^ 24) count

/-- The queue that fetcher `k` parses next: of those in its slots with a packet to parse, the highest PRIO, and among equals the next after
the one served last. -/
def State.nextQueue (s : State) (k : Nat) : Option Nat :=
  let l := s.queues.filter (fun p => p.2.fetcher == k && p.2.slot && p.2.ready && !s.paused p.2.ctx && s.parsable p.1)
  let top := (l.map (fun p => p.2.prio)).foldl max 0
  let last := tget 1023 s.fetchLast k
  ((sortKey (fun (p : Nat × Queue) => (p.1 + 1023 - last) % 1024) (l.filter (fun p => p.2.prio == top))).head?).map Prod.fst

/-! ### Parked queues (R391, R491) -/

/-- What a parked queue waits for has come about. -/
def State.parkOver (s : State) (x : Queue) : Bool :=
  match x.park with
  | none => true
  | some (.page ctx va) => s.arrived ctx va
  | some .table => !s.tableFull
  | some .link => s.cxlUp && s.cxlSecure

/-- QUEUE_UNPARK (R391): a parked queue rejoins, and its packet is evaluated from its first word; one parked on its kick word reads
it first. -/
def execQueueUnpark (q : Nat) (s : State) : Out :=
  let x := s.queue q
  if x.state ≠ 4 ∨ s.parkOver x = false then .next s
  else if x.unread then .next (s.readKick q)
  else .next (s.updQueue q (fun x => { x with state := 2, park := none, onImage := false }))

/-! ### Instances made ready (R43, R44, R46, R49) -/

/-- Whether a launch may release instances: admitted, its earlier launches done, and every phase of its job before its own finished. -/
def State.releasable (s : State) (x : UnitRec) : Bool :=
  let phase := x.parent.bind (fun g => (s.unit g).bind UnitRec.parent)
  let job := phase.bind (fun p => (s.unit p).bind UnitRec.parent)
  x.kind == 0 && x.admitted && x.open' && decide (x.made < x.total)
    && (s.predecessors x).all (fun y => decide (y.status = 2))
    && !(s.units.any (fun p => p.2.kind == 2 && decide (p.2.parent = job) && p.2.open'
      && (phase.bind s.unit).any (fun y => decide (p.2.order < y.order))))

/-- A team of a new instance (DESIGN CHOICE, log 54). -/
def newTeam (inst role ctx va tick index : Nat) (i : Image) : Team :=
  { inst := inst, role := role, ctx := ctx, imageVa := va, image := i, state := .ready, members := [],
    bars := List.replicate 16 ⟨0, [], []⟩, release := 0, first := none, since := tick, waited := 0, turn := index, used := 0, resumed := false, area := [], digest := [], areaBad := false,
    booked := none, asked := false }

/-- The next instance of a launch with its teams, ready to be placed. -/
def State.makeInstance (s : State) (u : Nat) (x : UnitRec) : State :=
  let i := s.nextOp
  let k := x.parsed.length
  let s := { s with
    insts := tset s.insts i ⟨u, x.made, (List.range k).map (fun j => i + 1 + j), false, false⟩,
    teams := (List.range k).foldl (fun t j => match x.parsed[j]? with
      | some (_, im) => tset t (i + 1 + j) (newTeam i j x.ctx (nth x.images j) (x.ready.getD s.tick) x.made im)
      | none => t) s.teams,
    nextOp := i + 1 + k }
  s.updUnit u (fun x => { x with made := x.made + 1 })

/-- A launch that may release instances has one that is ready: instances come in ascending order (R43). All of them wait from the tick in
which the launch first may (R72, R394). -/
def State.readyOf (s : State) (u : Nat) : State :=
  match s.unit u with
  | none => s
  | some y =>
    let x := { y with ready := y.ready.orElse (fun _ => if s.releasable y then some s.tick else none) }
    let s := { s with units := tset s.units u x }
    if s.releasable x && !(s.instsOf u).any (fun i => (s.teamsOf i).any (fun t => decide (t.2.state = .ready))) then s.makeInstance u x
    else s

/-- Every launch that may release instances has one that is ready (R43). -/
def State.makeReady (s : State) : State := (s.units.map Prod.fst).foldl State.readyOf s

/-- One number for a rank of R394. -/
def rankKey (r : Nat × Nat × Nat) : Nat := (r.1 * 2 ^ 64 + r.2.1) * 2 ^ 64 + r.2.2

/-- Once an instance is placed, the next of its launch is ready, and it takes its turn among the teams that are yet to be looked at
in the tick (R43, R394). -/
def State.placeMore (s : State) (inst : Nat) : State :=
  let s := match s.inst inst with
    | some i => s.readyOf i.launch
    | none => s
  let pending := s.agenda.filterMap (fun w => match w with
    | .event (.teamPlace t) => some t
    | _ => none)
  let rest := s.agenda.filter (fun w => match w with
    | .event (.teamPlace _) => false
    | _ => true)
  let mine := s.teams.filter (fun p => decide (p.2.state = .ready) && decide (inst < p.2.inst) && !pending.contains p.1
    && decide ((s.inst p.2.inst).map Instance.launch = (s.inst inst).map Instance.launch))
  let key := fun (t : Nat) => match s.team t with
    | some x => rankKey (s.rank x)
    | none => 0
  { s with agenda := (sortKey key (pending ++ mine.map Prod.fst)).map (fun t => .event (.teamPlace t)) ++ rest }

/-- TEAM_PLACE (R395, R42, R43): a ready team is placed, or a swapped one begins its swap-in. -/
def execTeamPlace (tn : Nat) (s : State) : Out :=
  let r := s.placeTeam tn
  match s.team tn with
  | none => .next r
  | some t =>
    if t.state = .ready ∧ ((r.team tn).map Team.state = some .placed) then .next (r.placeMore t.inst)
    else .next r

end Sys2Proof.Machine
end

