-- ==== Sys2Proof/Machine/Requests.lean ====
section
/-! DEFINITION. Requests to the cluster controller (R376, R377, R490), bookings that lapse, and the end of page faults' service (R140,
R141, R469, R491, R492). -/

namespace Sys2Proof.Machine

/-! ### The request block (R376) -/

/-- What serving a request comes to: a status with output doubles; or a wait, for a page, for a link, or for room. -/
inductive Served where
  | done (status : Nat) (out : List (Nat × Nat))
  | page (va : Nat) (image : Bool)
  | link
  | room
  deriving DecidableEq, Repr

/-- A front-end read that a request needs and that is not made. -/
def servedStop : Stop' → Served
  | .page va => .page va false
  | .link => .link
  | .busy => .room
  | .fail _ => .done 2 []

/-- A double of a request block in the field. -/
def State.blockDouble (s : State) (r : Request) (k : Nat) : Nat :=
  natOfBytes (localBytes (s.core r.core).field (s.commonsOf r.core) (r.blk + 8 * k) 8)

/-- A double of a request block written, as a partial write that every later read sees. -/
def State.answerDouble (s : State) (r : Request) (k v : Nat) : State :=
  (s.storeLocal r.core (r.blk + 8 * k) (bytesOfNat 8 v)).reveal r.core false (r.blk + 8 * k) 8

/-- The outputs and the status are written, and then the request leaves PEND. -/
def State.finishRequest (s : State) (r : Request) (status : Nat) (out : List (Nat × Nat)) : State :=
  let s := (out ++ [(0, status)]).foldl (fun (s : State) (p : Nat × Nat) => s.answerDouble r p.1 p.2) s
  let s := s.updCore r.core (fun c => c.endAt (some r.bar) 1 0)
  if (s.core r.core).seq.stop.isSome then s.push (.drainEnd r.core) else s

/-- A request leaves the CC's queue with its answer. -/
def State.takeRequest (s : State) (r : Request) (status : Nat) (out : List (Nat × Nat)) : State :=
  (s.updCluster (clusterOf r.core) (fun k => { k with reqQ := k.reqQ.erase r })).finishRequest r status out

/-! ### The five ops (R377) -/

/-- Present cores of the issuer's cluster by a mask of local indices. -/
def localCores (n mask : Nat) : List Nat := ((List.range 8).filter (bit mask)).map (fun j => 8 * clusterOf n + j)

/-- BOOK (DEDUCED, log 51). -/
def State.serveBook (s : State) (r : Request) : State × Served :=
  let n := r.core
  let ctx := (s.core n).csr.ctxId.toNat
  let va := s.blockDouble r 1
  match s.readImages ctx r.given 0 [va] with
  | (s, .error (.page p)) => (s, .page p true)
  | (s, .error e) => (s, servedStop e)
  | (s, .ok ⟨[(_, i)], none, _⟩) =>
    if (s.admission [va] [(0, i)]).isSome || decide (8 < i.teamSize) then (s, .done 2 [])
    else if 16 ≤ (s.core n).handles.length then (s, .done 5 [])
    else
      match s.bookImage (some n) none ctx va i (localCores n (s.blockDouble r 2 % 256)) (s.blockDouble r 3) (s.blockDouble r 4) with
      | some (s, v) => (s.updCore n (fun c => { c with handles := c.handles ++ [v.handle], lapsed := c.lapsed.filter (fun h => h ≠ v.handle) }), .done 0 [(5, v.handle), (6, v.tick)])
      | none => (s, .done 1 [])
  | (s, .ok _) => (s, .done 2 [])

/-- The booking of a core under a handle. -/
def State.bookingOf (s : State) (n h : Nat) : Option Reservation := s.reservations.find? (fun v => v.handle == h && decide (v.core = some n))

/-- UNBOOK. -/
def State.serveUnbook (s : State) (r : Request) : State × Served :=
  match s.bookingOf r.core (s.blockDouble r 1) with
  | some v => (s.dropReservation v, .done 0 [])
  | none => (s, .done 3 [])

/-- Whether a row's cell is taken in a tick, by a booking, a stake or ballast (R377); `none` for a kind or an index that there is not. -/
def State.cellTaken (s : State) (cl kind k t : Nat) : Option Bool :=
  let c := s.cluster cl
  let l := c.heldAt t ++ c.stakedAt t (2 ^ 64)
  let at' := fun (j : Nat) => l.filter (fun h => h.1 == 8 * cl + j)
  match kind with
  | 0 => if 48 ≤ k then none else
      some ((at' (k / 6)).any (fun h => bit h.2.2.slots (k % 6)) || (k % 6 == 0 && c.ballast.any (fun q => q.tick == t && q.core == 8 * cl + k / 6)))
  | 1 => if 64 ≤ k then none else some ((at' (k / 8)).any (fun h => bit h.2.2.frd (k % 8)))
  | 2 => if 64 ≤ k then none else some ((at' (k / 8)).any (fun h => bit h.2.2.fwr (k % 8)))
  | 3 => if 16 ≤ k then none else some (l.any (fun h => bit h.2.2.crd k))
  | 4 => if 16 ≤ k then none else some (l.any (fun h => bit h.2.2.cwr k))
  | 5 => if 1 ≤ k then none else some (l.any (fun h => h.2.2.ixe))
  | 6 => if 4 ≤ k then none else some (decide (8 ≤ portShare l k))
  | 7 => if 1 ≤ k then none else some (decide (c.bookable ≤ c.energyAt l t 256))
  | _ => none

/-- Least bookable energy left in 64 ticks. -/
def State.leastEnergy (s : State) (cl start : Nat) : Nat :=
  let c := s.cluster cl
  ((List.range 64).map (fun j => c.bookable - c.energyAt (c.heldAt (start + j) ++ c.stakedAt (start + j) (2 ^ 64)) (start + j) 256)).min?.getD 0

/-- BQRY. -/
def State.serveBqry (s : State) (r : Request) : State × Served :=
  let cl := clusterOf r.core
  let w := s.blockDouble r 1
  let start := s.blockDouble r 2
  if start < s.tick ∨ s.horizon < start + 63 ∨ (s.cellTaken cl (bits w 15 8) (bits w 7 0) start).isNone then (s, .done 2 [])
  else
    let map := ((List.range 64).map (fun j => if s.cellTaken cl (bits w 15 8) (bits w 7 0) (start + j) = some true then 2 ^ j else 0)).sum
    (s, .done 0 [(3, map), (4, s.leastEnergy cl start)])

/-- Words of a launch record in memory. -/
def wordsOf (bs : List Byte) : List Nat := (List.range (bs.length / 4)).map (fun k => num bs (4 * k) 4)

/-- The launch of a SPAWN entered: a graph, phase and job of its own, at its issuer's priority (R377, R490). -/
def State.spawn (s : State) (r : Request) (l : LaunchRec) (v : Option Reservation) : State × Served :=
  let n := r.core
  let ctx := (s.core n).csr.ctxId.toNat
  let prio := ((s.teamOf n).bind (fun t => (s.inst t.2.inst).bind (fun i => s.unit i.launch))).map s.prioOf |>.getD 0
  match s.enterLaunch ctx prio none none none none (v.map Reservation.team) r.given false { l with flags := l.flags ||| 15 } with
  | (s, .ok (u, _)) =>
    let s := match v with
      | some v =>
        { s.updCore n (fun c => { c with handles := c.handles.filter (fun h => h ≠ v.handle) }) with
          reservations := s.reservations.map (fun x => if x.team = v.team then { x with core := none } else x) }
      | none => s
    (s, .done 0 [(3, u)])
  | (s, .error (.park (.page _ va) _ _ image)) => (s, .page va image)
  | (s, .error (.park .link _ _ _)) => (s, .link)
  | (s, .error (.park .table _ _ _)) => (s, .room)
  | (s, .error .again) => (s, .room)
  | (s, .error _) => (s, .done 2 [])

/-- SPAWN. -/
def State.serveSpawn (s : State) (r : Request) : State × Served :=
  let n := r.core
  let ctx := (s.core n).csr.ctxId.toNat
  let va := s.blockDouble r 1
  let h := s.blockDouble r 2
  match s.frontRead ctx va 32 with
  | (s, .error e) => (s, servedStop e)
  | (s, .ok b) =>
    match s.frontRead ctx va (4 * launchWords (num b 12 4)) with
    | (s, .error e) => (s, servedStop e)
    | (s, .ok b) =>
      match parseLaunch (wordsOf b) with
      | .error _ => (s, .done 2 [])
      | .ok l =>
        if h = 0 then s.spawn r l none
        else
          match s.bookingOf n h with
          | none => (s, .done (if (s.core n).lapsed.contains h then 4 else 3) [])
          | some v =>
            if v.tick ≤ s.tick then (s, .done 4 [])
            else if v.image ≠ nth l.images 0 then (s, .done 2 [])
            else s.spawn r l (some v)

/-- CANCEL: a unit that has finished is unchanged (R50), whether or not its job still stands in the tables. -/
def State.serveCancel (s : State) (r : Request) : State × Served :=
  let u := s.blockDouble r 2 % 2 ^ 32
  let ctx := (s.core r.core).csr.ctxId.toNat
  let kind := s.blockDouble r 1 % 4
  match s.unit u with
  | some x =>
    if x.ctx = ctx ∧ x.kind = kind then (if x.open' then s.cancelUnit u else s, .done 0 []) else (s, .done 3 [])
  | none => (s, .done (if s.past.contains (u, ctx, kind) then 0 else 3) [])

/-- One request served. -/
def State.serve (s : State) (r : Request) : State × Served :=
  if localBad (s.core r.core).field (s.commonsOf r.core) r.blk 64 then (s.readError r.core r.blk 64, .done 2 [])
  else if r.op = 0 then s.serveBook r
  else if r.op = 1 then s.serveUnbook r
  else if r.op = 2 then s.serveBqry r
  else if r.op = 3 then s.serveSpawn r
  else s.serveCancel r

/-- The first request of a cluster's queue waits on a page, or on none. -/
def State.headWaits (s : State) (cl : Nat) (on : Option (Nat × Bool)) : State :=
  s.updCluster cl (fun k => match k.reqQ with
    | r :: rest => { k with reqQ := { r with on := on } :: rest }
    | [] => k)

/-- CC_REQUEST_SERVE (R376, R95 step 7): requests are served in order of arrival; one that waits holds those behind it back. One that waits for a
link that has been down for 2^20 ticks is answered ARG, as where its memory cannot be read (R501) (DEDUCED, log 51). -/
def execCcRequestServe (cl : Nat) (s : State) : Out :=
  match (s.cluster cl).reqQ with
  | [] => .next s
  | r :: rest =>
    let answer := fun (s : State) (st : Nat) (out : List (Nat × Nat)) =>
      let s := if (s.cluster cl).reqQ.contains r then s.takeRequest r st out else s
      Host.Outcome.next (if rest.isEmpty then s else { s with agenda := .event (.ccRequestServe cl) :: s.agenda })
    match s.serve r with
    | (s, .done st out) => answer s st out
    | (s, .page va image) => .next (s.headWaits cl (some (va, image)))
    | (s, .link) => if s.cxlSince + 2 ^ 20 ≤ s.tick then answer s 2 [] else .next (s.headWaits cl none)
    | (s, .room) => .next (s.headWaits cl none)

/-- The handle of a core's booking lapses. -/
def State.lapse (s : State) (v : Reservation) : State :=
  match v.core with
  | some n => s.updHolder n (fun c => { c with lapsed := (v.handle :: c.lapsed).eraseDups })
  | none => s

/-- BOOKING_LAPSE (R377): a booking that no launch has used by its release tick is released, and its handle lapses. -/
def execBookingLapse (cl handle : Nat) (s : State) : Out :=
  match s.reservations.find? (fun v => v.handle == handle && v.cores.any (fun n => clusterOf n == cl) && decide (v.tick ≤ s.tick)) with
  | some v => .next ((s.dropReservation v).lapse v)
  | none => .next s

/-! ### Page faults (R140, R141, R469, R491, R492) -/

/-- Everything that waits for a page of the front end is tried again. -/
def State.retryFront (s : State) : State :=
  let s := s.retryRecords
  let late := s.queues.filter (fun p => !p.2.deferred.isEmpty || !p.2.rpWrites.isEmpty)
  let parked := s.queues.filter (fun p => p.2.state == 4)
  { s with agenda := s.agenda ++ late.map (fun p => .event (.deferredWritePerform p.1)) ++ parked.map (fun p => .event (.queueUnpark p.1)) }

/-- PAGE_FAULT_RESOLVED (R140, R141): the page's entry is valid; every command that waits for it retries its walk from L0, and parked
queues and waiting writes go on. An entry that breaks the format is found by that walk. -/
def execPageFaultResolved (ctx va : Nat) (s : State) : Out :=
  if !s.arrived ctx va then .next s
  else
    let size := ((s.peekLeaf ctx va).map leafSize).getD 65536
    let base := va / size * size
    let s := { s with faults := s.faults.filter (fun f =>
      !(f.ctx == ctx && decide (base < (f.page + 1) * 65536) && decide (f.page * 65536 < base + size))) }
    .next ((s.retryRange ctx base size).retryFront)

/-- A write of the front end waits for a page. -/
def FrontWrite.onPage (w : FrontWrite) (ctx page : Nat) : Bool :=
  w.ctx == ctx && decide (w.va / 65536 ≤ page) && decide (page ≤ (w.va + max 1 w.bytes.length - 1) / 65536)

/-- Writes of the front end that wait for an unresolvable page are dropped with their event (R492): those of counter records, and the
first of a queue's, which holds the others back. -/
def State.dropWrites (s : State) (ctx page : Nat) : State :=
  let drop := fun (s : State) (w : FrontWrite) => (s.dropWrite w.ctx w.va stTranslation).endWrite w
  let gone := s.recWrites.filter (fun w => w.onPage ctx page)
  let s := gone.foldl drop { s with recWrites := s.recWrites.filter (fun w => !w.onPage ctx page) }
  s.queues.foldl
    (fun s p =>
      let x := s.queue p.1
      let s := match x.rpWrites with
        | w :: rest => if w.onPage ctx page then (drop s w).updQueue p.1 (fun x => { x with rpWrites := rest }) else s
        | [] => s
      match x.deferred with
      | w :: rest =>
        if w.onPage ctx page && !s.launchesBefore p.1 w.after then (drop s w).updQueue p.1 (fun x => { x with deferred := rest }) else s
      | [] => s) s

/-- A queue parked on the page for 2^24 ticks: ERROR, or the launch of an image is refused (R491). -/
def State.queueGivesUp (s : State) (q : Nat) (x : Queue) (ctx page : Nat) : State :=
  match x.park with
  | some (.page c va) =>
    if c = ctx ∧ va / 65536 = page ∧ x.parkSince + 2 ^ 24 ≤ s.tick then
      (if x.onImage then s.updQueue q (fun x => { x with state := 2, park := none, given := page :: x.given }) else s.queueError q 7)
    else s
  | _ => s

/-- A request that waits on a page declared unresolvable: where the page holds an image, that image is unreadable; else the answer is ARG
(R377, R490, R491). -/
def State.requestGivesUp (s : State) (ctx page : Nat) (r : Request) : State :=
  if (s.core r.core).csr.ctxId.toNat ≠ ctx then s
  else match r.on with
    | none => s
    | some (va, image) =>
      if va / 65536 ≠ page then s
      else if image then
        s.updCluster (clusterOf r.core) (fun k => { k with reqQ := k.reqQ.map (fun x => if x = r then { x with on := none, given := page :: x.given } else x) })
      else s.takeRequest r 2 []

/-- Commands of core `n` that wait for a page end with TRANSLATION; a CPFX drops the fault and walks on (R331). -/
def State.commandsGiveUp (s : State) (n ctx page : Nat) : State :=
  let waits := fun (x : Command) => match x.state with
    | .fault va => x.ctx == ctx && va / 65536 == page
    | _ => false
  (((s.core n).queue0 ++ (s.core n).queue1).filter waits).foldl
    (fun s x =>
      if isCpfx x.op then s.updCore n (fun c => c.updCommand x.id (fun y => { y with done := y.done + 1, state := .accepted s.now }))
      else s.endCommand n x.id stTranslation) s

/-! ### Write-backs of expiring groups that fail (R125, R464) -/

/-- Holder, region index and region of a group: of the field of core `n`, or of the commons of its cluster. -/
def State.ownerRegion (s : State) (n : Nat) (isCommons : Bool) (off : Nat) : Option (Nat × Nat × Region) :=
  if isCommons then s.holderOf (clusterOf n) (0x2000000 + off)
  else ((s.core n).regionAt off).map (fun k => (n, k.val, (s.core n).rgn[k]))

/-- The write-back of a group ends in an error (R464): a first failure is reported; the group stays valid and pending. -/
def State.failWriteback (s : State) (n : Nat) (isCommons : Bool) (off st : Nat) : State :=
  let g := (s.localOf n isCommons).group off
  let s := if g.failed then s
    else s.event 0x202 0 (some g.owner) (if isCommons then 2 else 1) (if isCommons then clusterOf n else n) 0 ((if isCommons then 0x2000000 else 0) + off) st 0
  s.updLocal n isCommons (fun l => l.updGroup off (fun g => { g with failed := true, held := none }))

/-- Write-backs of one memory that wait for a page of a context fail with TRANSLATION (R464). -/
def State.writebacksGiveUp (s : State) (ctx page n : Nat) (isCommons : Bool) : State :=
  let base := if isCommons then 0x2000000 else 0
  let hit := (s.localOf n isCommons).groups.filter (fun p => p.2.valid && p.2.pending && p.2.writeback && p.2.owner == ctx
    && (s.ownerRegion n isCommons (2048 * p.1)).any (fun x => x.2.2.mapped && (x.2.2.mapva + (base + 2048 * p.1 - x.2.2.base)) / 65536 == page))
  hit.foldl (fun s p => s.failWriteback n isCommons (2048 * p.1) stTranslation) s

/-- Write-backs of every memory that wait for a page of a context fail. -/
def State.dropWritebacks (s : State) (ctx page : Nat) : State :=
  let s := (s.cores.map Prod.fst).foldl (fun s n => s.writebacksGiveUp ctx page n false) s
  (s.clusters.map Prod.fst).foldl (fun s cl => s.writebacksGiveUp ctx page (8 * cl) true) s

/-- PAGE_FAULT_UNRESOLVABLE (R469, R491): a page still invalid 2^24 ticks after the first walk that met it. -/
def execPageFaultUnresolvable (ctx va : Nat) (s : State) : Out :=
  let page := va / 65536
  if s.arrived ctx va then .next s
  else
    let s := s.queues.foldl (fun s p => s.queueGivesUp p.1 p.2 ctx page) s
    if s.faults.any (fun f => f.ctx == ctx && f.page == page && decide (f.since + 2 ^ 24 ≤ s.tick)) then
      let s := { s with faults := s.faults.filter (fun f => !(f.ctx == ctx && f.page == page)) }
      let s := s.event 0x401 0 (some ctx) 9 0 0 va stTranslation 0
      let s := s.cores.foldl (fun s p => s.commandsGiveUp p.1 ctx page) s
      let s := s.clusters.foldl (fun s p => p.2.reqQ.foldl (fun s r => s.requestGivesUp ctx page r) s) s
      .next (((s.dropWrites ctx page).dropWritebacks ctx page).retryFront)
    else .next s

end Sys2Proof.Machine
end

