-- ==== Sys2Proof/Machine/Retention.lean ====
section
/-! DEFINITION. Ageing, expiry, refresh and scrub of local memory, temperature bands and thermal fallback (R19, R28, R29, R99, R111-R125,
R461-R467, R476), and buckets that leak (R432). -/

namespace Sys2Proof.Machine

/-! ### Groups at a boundary (R117, R118) -/

/-- A group after a retention tick boundary. One held for its write-back wants a refresh each time its age reaches the figure again (R125). -/
def Group.aged (g : Group) (band rtick : Nat) (mapped : Bool) : Group :=
  let g := g.older
  if g.reaches band then
    match g.outcome mapped with
    | 1 => { g with pending := true, since := rtick, writeback := false, served := [] }
    | 2 => g.gone
    | _ => { g with pending := true, since := rtick, writeback := true, served := [], failed := false, held := none }
  else if g.pending && g.writeback && decide (figure band g.cls ≤ g.age) && decide (g.since + g.age ≤ rtick) then { g with since := rtick, served := [] }
  else g

/-! ### Where groups belong -/

/-- A core's task is on it, so that its groups age (R126). -/
def Core.ages (c : Core) : Bool := decide (c.seq.mode ≠ .staged) && decide (c.seq.mode ≠ .swapped)

/-- Some core that holds a commons address has its task on it. -/
def State.commonsAges (s : State) (cl off : Nat) : Bool :=
  (List.range 8).any (fun j => (s.core (8 * cl + j)).ages && ((s.core (8 * cl + j)).regionAt (0x2000000 + off)).isSome)

/-! ### RETENTION_TICK (R117, R118, R461, R462) -/

/-- Groups of a cluster that would expire at the boundary of the present cycle, though some of their rows are fresh (R117, R123): cluster,
memory (8 the commons) and group. -/
def State.verges (s : State) (cl : Nat) : List (Nat × Nat × Nat) :=
  let of := fun (n m : Nat) (isCommons : Bool) =>
    ((s.localOf n isCommons).groups.filter (fun p => decide (p.2.fresh ≠ 0)
      && s.onVerge cl p.2 ((s.ownerRegion n isCommons (2048 * p.1)).any (fun x => x.2.2.mapped)))).map (fun p => (cl, m, p.1))
  if s.rsub = 0 then (s.coresOf cl).flatMap (fun n => of n (n % 8) false) ++ of (8 * cl) 8 true else []

/-- The groups of one memory of core `n` a tick older: the state, and the offsets that expired. -/
def State.ageMem (s : State) (n : Nat) (isCommons : Bool) : State × List Nat :=
  let band := (s.cluster (clusterOf n)).csr.tempBand.toNat
  let l := s.localOf n isCommons
  let runs := fun (o : Nat) => if isCommons then s.commonsAges (clusterOf n) o else (s.core n).ages
  let mapped := fun (o : Nat) => (s.ownerRegion n isCommons o).any (fun x => x.2.2.mapped)
  let hit := (l.groups.filter (fun p => runs (2048 * p.1) && p.2.older.reaches band && p.2.outcome (mapped (2048 * p.1)) == 2)).map
    (fun p => 2048 * p.1)
  let gs := tmap (fun k g => if runs (2048 * k) then g.aged band s.rtick (mapped (2048 * k)) else g) l.groups
  (s.updLocal n isCommons (fun l => { l with groups := gs }), hit)

/-- The record of the groups of one region that expired at one boundary (R461, R462) (DEDUCED, log 56): the region that index `k` names to the
task whose lowest core is `holder`. -/
def State.expiryEvent (s : State) (n : Nat) (isCommons : Bool) (holder k : Nat) (offs : List Nat) : State :=
  match offs.filter (fun o => ((s.ownerRegion n isCommons o).map (fun x => (x.1, x.2.1))) == some (holder, k)) with
  | [] => s
  | o :: rest =>
    s.event 0x201 0 (some ((s.localOf n isCommons).group o).owner) (if isCommons then 2 else 1) (if isCommons then clusterOf n else n) 0
      ((if isCommons then 0x2000000 else 0) + o) (k + holder * 65536) (rest.length + 1)

/-- One memory at a retention tick boundary. -/
def State.retainMem (s : State) (n : Nat) (isCommons : Bool) : State :=
  let r := s.ageMem n isCommons
  let regions := (r.2.filterMap (fun o => (r.1.ownerRegion n isCommons o).map (fun x => (x.1, x.2.1)))).eraseDups
  regions.foldl (fun s x => s.expiryEvent n isCommons x.1 x.2 r.2) r.1

/-- Write-backs that are queued: a new one, one that still waits for its page (R125), and from time to time one that has failed (R464). -/
def State.runWritebacks (s : State) (n : Nat) (isCommons : Bool) : State :=
  let due := (s.localOf n isCommons).groups.filter (fun p => p.2.valid && p.2.pending && p.2.writeback && (!p.2.failed || s.rtick % 256 == 0))
  { s with agenda := s.agenda ++ due.map (fun p =>
      .event (.expiryWritebackComplete (clusterOf n) (if isCommons then 8 else n % 8) p.1)) }

/-! ### Bands and fallback (R19, R99, R112, R466) -/

/-- A span `k` ticks longer in place, as far as the horizon, if every tick is free for it. -/
def State.stretchBy : Nat → State → Booking → Option (State × Booking)
  | 0, s, b => some (s, b)
  | k + 1, s, b =>
    if s.horizon ≤ b.last then some (s, b)
    else match s.stretch b (b.last + 1) with
      | some (s, b) => State.stretchBy k s b
      | none => none

/-- The span of a booking lengthened for fallback (R99): what is left of an anchored span, where the cells are free, else it keeps its length
(DESIGN CHOICE, log 40); a floating window too, unless its grace runs (R101). -/
def State.lengthenBooking (s : State) (b : Booking) : State :=
  if b.kind = .anchored then
    let rest := (if b.first ≤ s.tick then b.last - s.tick else b.last + 1 - b.first) + b.left
    let more := lengthen .fallback rest - rest
    if b.left ≠ 0 then s.rebook b { b with left := b.left + more, long := true }
    else match State.stretchBy more s b with
      | some (s, b') => s.rebook b' { b' with left := more - (b'.last - b.last), long := true }
      | none => s
  else
    let x := s.wantNow b
    let b' := { b with dur := x.dur, slack := x.slack, long := x.long }
    if b.kind = .unbooked then s.rebook b b'
    else if s.tick < b.first ∧ (s.unbook b).fits x b' (some b) = true then s.rebook b b'
    else s

/-- An island takes a band, and enters or leaves fallback (R19, R112). -/
def State.setBand (s : State) (cl band : Nat) : State :=
  let k := s.cluster cl
  let s := s.updCluster cl (fun k => { k with csr := { k.csr with tempBand := BitVec.ofNat 4 band } })
  if band = 15 ∧ k.island = .inService then
    let s := s.updCluster cl (fun k => { k with island := .fallback })
    let s := s.event 0x702 0 none 3 cl 0 0 band 0
    k.bookings.foldl State.lengthenBooking s
  else if band ≠ 15 ∧ k.island = .fallback then
    (s.updCluster cl (fun k => { k with island := .inService })).event 0x703 0 none 3 cl 0 0 band 0
  else s

/-- The band that an island's hottest sensor selects (R112, R466); a sensor that may be believed above 125 °C trips the module (R420). What the
sensors come to by the next evaluation is a free value (DESIGN CHOICE, log 35). -/
def State.evaluateBand (s : State) (cl : Nat) : State :=
  let k := s.cluster cl
  let s := if k.sane && decide (125000 < k.temp) then s.push (.thermalTrip cl) else s
  let f := (s.setBand cl k.band).free
  let g := f.2.free
  g.2.updCluster cl (fun k => { k with temp := Int.ofNat (f.1 % 220000) - 50000, sensorsOk := g.1 % 2 == 1 })

/-- Present clusters whose island runs. -/
def State.liveClusters (s : State) : List Nat := (List.range 32).filter (fun cl => bit s.pres.clusters cl && decide ((s.cluster cl).island ≠ .off))

/-- One island at a retention tick boundary (R117). -/
def State.retainCluster (s : State) (cl : Nat) : State :=
  let s := if s.rtick % 100 = 0 then s.evaluateBand cl else s
  let s := (s.coresOf cl).foldl (fun s n => (s.retainMem n false).runWritebacks n false) s
  (s.retainMem (8 * cl) true).runWritebacks (8 * cl) true

/-- Module power averaged over a millisecond, in watts (R413): the energy that it has used, in millijoules. -/
def State.meterPower (s : State) : State :=
  if s.rtick % 1000 = 0 then { s with power1ms := s.energy - s.energyMark, energyMark := s.energy } else s

/-- RETENTION_TICK (R111, R117): RTICK advances; bands, ages and expiries of every island. -/
def execRetentionTick (s : State) : Out :=
  let s := { s with rtick := s.rtick + 1 }
  .next (s.liveClusters.foldl State.retainCluster s).meterPower

/-- EXPIRY_WRITEBACK_COMPLETE (R124, R125, R464, R501): memory 0 to 7 is a core's field, 8 the commons. The group becomes invalid once its
bytes are written. It waits for a page, for a link at most 2^20 ticks, and out of the reserved cycle, in which no row is read (R28). It
takes no turn at the ports of the banks, among whose users R30 does not name it (DESIGN CHOICE, log 99). -/
def execExpiryWritebackComplete (cl mem grp : Nat) (s : State) : Out :=
  let isCommons := mem == 8
  let n := if isCommons then 8 * cl else 8 * cl + mem % 8
  let off := 2048 * grp
  let g := (s.localOf n isCommons).group off
  match s.ownerRegion n isCommons off with
  | none => .next s
  | some (_, _, r) =>
    if !(g.valid && g.pending && g.writeback && r.mapped) || s.reservedNow cl then .next s
    else
      let a := (if isCommons then 0x2000000 else 0) + off
      match s.flushGroup n g.owner (r.mapva + (a - r.base)) isCommons false off with
      | (s, .ok) => .next (s.updLocal n isCommons (fun l => l.updGroup off Group.gone))
      | (s, .wait (.link t _)) =>
        if (g.held.getD t) + 2 ^ 20 ≤ s.tick then .next (s.failWriteback n isCommons off stData)
        else .next (s.updLocal n isCommons (fun l => l.updGroup off (fun g => { g with held := some (g.held.getD t) })))
      | (s, .wait _) => .next s
      | (s, .fail st) => .next (s.failWriteback n isCommons off st)

/-! ### Refresh and scrub (R28, R29, R119, R436, R476) -/

/-- A group wants a refresh: one that is queued, or one held for its write-back as often as its age requires (R125). -/
def Group.wants (g : Group) (band : Nat) : Bool :=
  g.valid && g.pending && (!g.writeback || decide (figure band g.cls ≤ g.age))

/-- Requests of a memory, oldest first, by offset. -/
def State.requestsIn (s : State) (n : Nat) (isCommons : Bool) : List Nat :=
  let band := (s.cluster (clusterOf n)).csr.tempBand.toNat
  (sortKey (fun (p : Nat × Group) => p.2.since) ((s.localOf n isCommons).groups.filter (fun p => p.2.wants band))).map (fun p => 2048 * p.1)

/-- The last row of a group has been rewritten (R119): it is counted. -/
def State.refreshed (s : State) (n : Nat) (isCommons : Bool) (off : Nat) : State :=
  let s := s.updLocal n isCommons (fun l => l.updGroup off (fun g => { g with age := 0, fresh := 0, pending := g.writeback, served := [] }))
  if isCommons then s.updCluster (clusterOf n) (fun k => { k with csr := { k.csr with crefcnt := k.csr.crefcnt + 1 } })
  else s.updCore n (fun c => { c with csr := { c.csr with refcnt := c.csr.refcnt + 1 } })

/-- Bytes of a group from an offset, cut at the bank rows that hold them (R104, R105): the bank and the row in it, offset and length. -/
def State.placesOf (s : State) (n : Nat) (isCommons : Bool) (off : Nat) : List ((Nat × Nat) × Nat × Nat) :=
  let code := s.spanAt n isCommons off
  (spansOf (spanBytes code) off 2048).map (fun p => (bankRow code isCommons p.1, p))

/-- Banks and rows in them that hold the group at an offset. -/
def State.rowsOf (s : State) (n : Nat) (isCommons : Bool) (off : Nat) : List (Nat × Nat) := ((s.placesOf n isCommons off).map Prod.fst).eraseDups

/-- Bytes of a row that refresh or scrub reads are checked (R29, R434, R437): words with one bit wrong are rewritten, and every uncorrectable
word is recorded. -/
def State.checkSpan (s : State) (n : Nat) (isCommons : Bool) (off len : Nat) : State :=
  let s := (s.correctWords n isCommons off len).updLocal n isCommons (fun l =>
    { l with weak := l.weak.filter (fun w => !(decide (off < 8 * w + 8) && decide (8 * w < off + len))) })
  s.wordErrors n isCommons off len

/-- The rows of the group at an offset that a cycle rewrites are checked. -/
def State.checkRows (s : State) (n : Nat) (isCommons : Bool) (off : Nat) (rows : List (Nat × Nat)) : State :=
  let l := s.localOf n isCommons
  if l.bad.isEmpty && l.weak.isEmpty then s
  else ((s.placesOf n isCommons off).filter (fun p => rows.contains p.1)).foldl (fun s p => s.checkSpan n isCommons p.2.1 p.2.2) s

/-- A row of a bank as one number. -/
def rowKey (r : Nat × Nat) : Nat := r.1 + 64 * r.2

/-- One row for every bank that is not taken, of the rows that a group has still to refresh. -/
def pickRows : List (Nat × Nat) → List Nat → List (Nat × Nat)
  | [], _ => []
  | r :: rest, used => if used.contains r.1 then pickRows rest used else r :: pickRows rest (r.1 :: used)

/-- Requests served in one cycle, in order (R29, R119): in each bank the first that has a row there, which then has the bank; a group is
refreshed once all its rows are. Answers the banks taken, too. -/
def State.serveRefresh (s : State) (n : Nat) (isCommons : Bool) : List Nat → List Nat → State × List Nat
  | [], used => (s, used)
  | off :: rest, used =>
    let g := (s.localOf n isCommons).group off
    let left := (s.rowsOf n isCommons off).filter (fun r => !g.served.contains (rowKey r))
    let now := pickRows left used
    let s := s.checkRows n isCommons off now
    let s := if left.length ≤ now.length then s.refreshed n isCommons off
      else s.updLocal n isCommons (fun l => l.updGroup off (fun g => { g with served := g.served ++ now.map rowKey }))
    s.serveRefresh n isCommons rest (used ++ left.map Prod.fst)

/-- The rows of a bank that the scrubber visits (R436), those of valid groups of the kept class, each with its parts. -/
def State.scrubRows (s : State) (n : Nat) (isCommons : Bool) (bank : Nat) : List (Nat × Nat × Nat) :=
  (((s.localOf n isCommons).groups.filter (fun p => p.2.valid && p.2.cls == 3)).flatMap (fun p => s.placesOf n isCommons (2048 * p.1))).filterMap
    (fun p => if p.1.1 = bank then some (p.1.2, p.2) else none)

/-- The scrub of one bank (R28, R29, R436): in a reserved cycle that no refresh takes it visits the next of its rows in ascending order, and
round again: the cycles that the bank has had for it count from reset (DESIGN CHOICE, log 57). -/
def State.scrubBank (s : State) (n : Nat) (isCommons : Bool) (bank : Nat) : State :=
  let places := s.scrubRows n isCommons bank
  let rows := ((places.map Prod.fst).eraseDups).mergeSort (fun a b => decide (a ≤ b))
  let turn := s.tick - tget 0 (s.localOf n isCommons).missed bank
  let row := rows.getD (turn % rows.length) 0
  (places.filter (fun p => p.1 == row)).foldl (fun s p => s.checkSpan n isCommons p.2.1 p.2.2) s

/-- Scrubs of a memory in the banks that no refresh has taken; only a row in which a word has an error shows a visit. -/
def State.scrub (s : State) (n : Nat) (isCommons : Bool) (used : List Nat) : State :=
  let l := s.localOf n isCommons
  let s := if used.isEmpty then s else s.updLocal n isCommons (fun l =>
    { l with missed := used.eraseDups.foldl (fun t b => tset t b (tget 0 t b + 1)) l.missed })
  let words := (l.bad ++ l.weak).filter (fun w => (l.group (8 * w)).valid && (l.group (8 * w)).cls == 3)
  (((words.map (fun w => s.bankAt n isCommons (8 * w))).eraseDups).filter (fun b => !used.contains b)).foldl (fun s b => s.scrubBank n isCommons b) s

/-- The reserved cycle of one memory: a bank in which a replay held a row up finishes that row (R430). -/
def State.reserveMem (s : State) (n : Nat) (isCommons : Bool) : State :=
  let mem := if isCommons then 8 else n % 8
  let late := ((s.cluster (clusterOf n)).redo.filter (fun p => p.1 == mem)).map Prod.snd
  let s := if late.isEmpty then s else s.updCluster (clusterOf n) (fun k => { k with redo := k.redo.filter (fun p => p.1 != mem) })
  let r := s.serveRefresh n isCommons (s.requestsIn n isCommons) late
  r.1.scrub n isCommons r.2

/-- RESERVED_CYCLE (R28, R29): refreshes, and scrubs where no refresh is asked for. -/
def execReservedCycle (cl : Nat) (s : State) : Out :=
  .next (((s.coresOf cl).foldl (fun s n => (s.reserveMem n false).scrubArrays n) s).reserveMem (8 * cl) true)

/-! ### The ports of the banks in a working cycle (R30, R31, R86, R119, R247) -/

/-- Requests that have waited 8 µs. -/
def State.urgentIn (s : State) (n : Nat) (isCommons : Bool) : List Nat :=
  (s.requestsIn n isCommons).filter (fun o => decide (((s.localOf n isCommons).group o).since + 8 ≤ s.rtick))

/-- A bank's port, numbered within a cluster: the fields of its cores, and the commons as a ninth memory. -/
def portKey (n : Nat) (isCommons : Bool) (bank : Nat) (write : Bool) : Nat :=
  ((if isCommons then 8 else n % 8) * 64 + bank) * 2 + (if write then 1 else 0)

/-- Both ports of some banks of a memory. -/
def bankPorts (n : Nat) (isCommons : Bool) (banks : List Nat) : List Nat :=
  banks.flatMap (fun b => [portKey n isCommons b false, portKey n isCommons b true])

/-- Urgent requests of one memory served in a working cycle, and the ports that they take (R119). -/
def State.urgentMem (s : State) (n : Nat) (isCommons : Bool) : State × List Nat :=
  let r := s.serveRefresh n isCommons (s.urgentIn n isCommons) []
  (r.1, bankPorts n isCommons r.2)

/-- Urgent requests of a cluster served in a working cycle. -/
def State.urgentAll (s : State) (cl : Nat) : State × List Nat :=
  let r := (s.coresOf cl).foldl
    (fun (q : State × List Nat) n =>
      let x := q.1.urgentMem n false
      (x.1, q.2 ++ x.2)) (s, [])
  let x := r.1.urgentMem (8 * cl) true
  (x.1, r.2 ++ x.2)

/-- An access that asks for ports: of a slot of core `core`, or a step of its command `cmd`, at banks of the memory of core `mem`. A 64-byte row of
the commons that lies in several banks is moved by a command in the cycle in which the ports of all of them are free (R105, R159; DEDUCED,
log 100). -/
structure PortUse where
  core : Nat
  mem : Nat
  commons : Bool
  banks : List Nat
  write : Bool
  slot : Option PortWait
  cmd : Option (Nat × CStep)
  deriving DecidableEq, Repr

/-- The ports that it asks for. -/
def PortUse.keys (u : PortUse) : List Nat := u.banks.map (fun b => portKey u.mem u.commons b u.write)

/-- Accesses of the slots of core `n`; those of its field not while a replay holds them up (R430). -/
def State.slotUses (s : State) (n : Nat) : List PortUse :=
  ((s.core n).unserved.filter (fun w => w.commons || decide ((s.core n).portHold ≤ (s.core n).seq.wc))).map
    (fun w => ⟨n, n, w.commons, [w.bank], w.write, some w, none⟩)

/-- Banks of the field of core `n`, or of the commons of its cluster, that hold `len` bytes from an offset. -/
def State.banksAt (s : State) (n : Nat) (isCommons : Bool) (off len : Nat) : List Nat :=
  let code := s.spanAt n isCommons off
  ((spansOf (spanBytes code) off len).map (fun p => (bankRow code isCommons p.1).1)).eraseDups

/-- The ports that a command's step asks for, if its act is one at a local memory. -/
def State.stepUse (s : State) (n : Nat) (x : Command) (st : CStep) : Option PortUse :=
  let use := fun (t a len : Nat) (write : Bool) => (locate a).map (fun p => ⟨n, t, p.1, s.banksAt t p.1 p.2 len, write, none, some (x.id, st)⟩)
  match st.act with
  | .readLocal a len => use n a len false
  | .readList a len => use n a len false
  | .writeLocal t a done len _ _ => use t (a + done) len true
  | _ => none

/-- Bytes of a field that an access of a command moves (R25). -/
def PortUse.fieldBytes (u : PortUse) : Nat :=
  if u.commons then 0
  else match u.cmd.map (fun (p : Nat × CStep) => p.2.act) with
    | some (CAct.readLocal _ len) => len
    | some (CAct.readList _ len) => len
    | some (CAct.writeLocal _ _ _ len _ _) => len
    | _ => 0

/-- The user of R30's list that a command is at a port, in its order: C0, C1, CXFER, IXE, atomic return words, the map unit. -/
def State.userOf (s : State) (n : Nat) (u : PortUse) (x : Command) : Nat :=
  if isCxfer x.op && u.write then 2
  else if isIx x.op then 3
  else if isMap x.op then 5
  else if u.write && x.slotWrites ≠ 0 then 4
  else if (s.core n).queue0.any (fun y => y.id == x.id) then 0 else 1

/-- The copy-port share of a core in eighths (R86). -/
def State.copyShare (s : State) (n : Nat) : Nat :=
  let c := s.core n
  if c.seq.mode = .running ∧ c.seq.stop = none then ((s.present n).map (fun b => b.vec.cshare)).getD 8 else 8

/-- C0 and C1 may access the field of core `n` in this cycle (R86). -/
def State.mayCopy (s : State) (n : Nat) : Bool :=
  let w := if (s.cluster (clusterOf n)).island = .fallback then 31 else 63
  decide ((s.core n).copied < w * s.copyShare n / 8)

/-- The next access of a command at a local memory, when it may be performed now. -/
def State.nextUse (s : State) (n : Nat) (x : Command) : Option PortUse :=
  if !x.ready s.now || (x.withdrawn && s.stopped n) then none
  else
    match s.stepsLeft n x with
    | [] => none
    | st :: _ =>
      match s.stepUse n x st with
      | none => none
      | some u =>
        if s.heldBack n x [s.accessOf n x st] || (decide (s.userOf n u x < 2) && !u.commons && !s.mayCopy n) then none else some u

/-- What an engine asks for in a cycle, of the accesses of its commands in queue order: the first read and the first write, or, where they
would move more than 64 bytes of a field between them, the first of the two (R25). -/
def firstEach (l : List PortUse) : List PortUse :=
  let two := (l.find? (fun u => !u.write)).toList ++ (l.find? PortUse.write).toList
  if (two.map PortUse.fieldBytes).sum ≤ 64 then two else l.take 1

/-- The IXE of the cluster is booked in this tick by another member or team than core `n` (R361, R510). -/
def State.ixeTaken (s : State) (n : Nat) : Bool :=
  let l := ((s.cluster (clusterOf n)).heldAt s.tick).filter (fun h => h.2.2.ixe)
  !l.isEmpty && !l.any (fun h => h.1 == n && decide ((s.core n).team = some h.2.1))

/-- The turn of a command at the IXE: contexts in order from the one served last (R361) (DEDUCED, log 71). -/
def State.ixOrder (s : State) (n : Nat) (x : Command) : Nat :=
  match s.query n x.f.d.val with
  | some (k, _) => (k + 32 - (s.cluster (clusterOf n)).ixTurn - 1) % 16
  | none => 0

/-- The command that the IXE of a cluster serves. -/
def State.ixNext (s : State) (cl : Nat) : Option (Nat × Command) :=
  let l := ((s.coresOf cl).filter (fun n => !s.ixeTaken n)).flatMap (fun n =>
    (((s.core n).queue0 ++ (s.core n).queue1).filter (fun x => isIx x.op && x.ready s.now
      && !((s.stepsLeft n x).head?.any (fun st => s.heldBack n x [s.accessOf n x st])))).map (fun x => (n, x)))
  (sortKey (fun (p : Nat × Command) => s.ixOrder p.1 p.2) l).head?

/-- Accesses of commands at the memories of a cluster: of each engine of each core a read and a write, and of the IXE the command that it
serves. -/
def State.commandUses (s : State) (cl : Nat) : List PortUse :=
  let of := fun (n : Nat) (l : List Command) => firstEach ((l.filter (fun x => !isIx x.op)).filterMap (s.nextUse n))
  let ix := match s.ixNext cl with
    | some (n, x) => (s.nextUse n x).toList
    | none => []
  ((s.cores.flatMap (fun p => of p.1 p.2.queue0 ++ of p.1 p.2.queue1)) ++ ix).filter (fun u => clusterOf u.mem == cl)

/-- The furrow of core `n` books the commons port group of a bank in this tick (R75, R76). -/
def State.booksPort (s : State) (n bank : Nat) (write : Bool) : Bool :=
  (s.present n).any (fun b => bit (if write then b.vec.cwr else b.vec.crd) (bank / 4))

/-- The place of an access at its port (R30): slots first, of a core that books the group before others, in ascending core index, and else
by the cycle since which they wait; then the other users, in turn. -/
def State.portRank (s : State) (u : PortUse) : Nat :=
  match u.slot with
  | some w => if w.commons && s.booksPort u.core w.bank w.write then u.core % 8 else 8 + 8 * w.since + u.core % 8
  | none =>
    let user := (u.cmd.bind (fun p => (s.core u.core).command p.1)).map (s.userOf u.core u) |>.getD 0
    let turn := tget 0 (s.cluster (clusterOf u.mem)).contended (u.keys.headD 0)
    2 ^ 96 + ((user + 6 - turn % 6) % 6) * 256 + u.core

/-- Accesses in order of their places: each port that is not taken serves one. -/
def servePorts : List PortUse → List Nat → List PortUse
  | [], _ => []
  | u :: rest, used => if u.keys.any used.contains then servePorts rest used else u :: servePorts rest (u.keys ++ used)

/-- A load's parts read and put into its result; an uncorrectable word makes it write nothing (R437). -/
def State.serveLoad (s : State) (n k : Nat) (parts : List (Nat × Nat × Nat)) : State :=
  parts.foldl (fun s p =>
    let l := localBytes (s.core n).field (s.commonsOf n) p.1 p.2.1
    let bad := localBad (s.core n).field (s.commonsOf n) p.1 p.2.1
    let fill := fun (x : Landing) => if bad then { x with dest := .flags } else { x with value := x.value ||| BitVec.ofNat 2048 (natOfBytes l * 2 ^ (8 * p.2.2)) }
    let s := s.updCore n (fun c => { c with loads := c.loads.modify k fill })
    if bad then s.readError n p.1 p.2.1 else s.readCorrects n p.1 p.2.1) s

/-- Two local addresses lie in one 64-byte row. -/
def sameRow (a b : Nat) : Bool := a / 64 == b / 64

/-- One part of a store: the commands of its bundle do not see it (R166), and the row of a whole-row write is fresh once its last part is
written (R115). -/
def State.storePart (s : State) (n : Nat) (p : Nat × List Byte × Nat) (more : Bool) : State :=
  match locate p.1 with
  | none => s
  | some (m, off) =>
    let old := localBytes (s.core n).field (s.commonsOf n) p.1 p.2.1.length
    let s := { s with cores := tmap (fun k (c : Core) =>
      if k = n then c.hide p.1 old else if m && clusterOf k == clusterOf n then c.reveal p.1 old.length else c) s.cores }
    s.updLocal n m (fun l => let l := l.put off p.2.1; if p.2.2 ≠ 0 ∧ more = false then l.freshRow (off / 64 * 64) else l)

/-- What the loads of the same bundle still have to read of the row that a store writes is read before the store, which they do not see (R31,
R159). -/
def State.readBefore (s : State) (n : Nat) (p : Nat × List Byte × Nat) : State :=
  let meets := fun (q : Nat × Nat × Nat) => sameRow q.1 p.1
  (s.core n).unserved.foldl
    (fun s w => match w.act with
      | .store _ => s
      | .load k parts =>
        if parts.any meets then
          (s.updCore n (fun c => { c with unserved := c.unserved.map (fun v =>
            if v = w then { v with act := .load k (parts.filter (fun q => !meets q)) } else v) })).serveLoad n k (parts.filter meets)
        else s) s

/-- What a load still has to read of the 64-byte rows of some parts. -/
def PortWait.rowRest (k : Nat) (parts : List (Nat × Nat × Nat)) (w : PortWait) : List (Nat × Nat × Nat) :=
  match w.act with
  | .load j ps => if j = k then ps.filter (fun q => parts.any (fun p => sameRow p.1 q.1)) else []
  | .store _ => []

/-- An access without the parts of a load that have been read. -/
def PortWait.without (k : Nat) (read : List (Nat × Nat × Nat)) (w : PortWait) : PortWait :=
  match w.act with
  | .load j ps => if j = k then { w with act := .load j (ps.filter (fun q => !read.contains q)) } else w
  | .store _ => w

/-- An access of the bundle, of the same operation or one before it, that has still to write a part of a 64-byte row. -/
def PortWait.keepsRow (op a : Nat) (w : PortWait) : Bool :=
  decide (w.op ≤ op) && (match w.act with
    | .store ps => ps.any (fun q => sameRow q.1 a)
    | .load _ _ => false)

/-- An access that writes a part more. -/
def PortWait.also (p : Nat × List Byte × Nat) (w : PortWait) : PortWait :=
  match w.act with
  | .store ps => { w with act := .store (ps ++ [p]) }
  | .load _ _ => w

/-- Parts of a store of operation `op` written, in order. A row of the commons that lies in several banks is written as a whole, when the port of
its last bank serves it (R159; DEDUCED, log 100). -/
def State.storeParts (n op : Nat) : List (Nat × List Byte × Nat) → State → State
  | [], s => s
  | p :: rest, s =>
    match (s.core n).unserved.find? (fun w => w.keepsRow op p.1) with
    | some w => State.storeParts n op rest (s.updCore n (fun c => { c with unserved := c.unserved.map (fun v => if v = w then v.also p else v) }))
    | none => State.storeParts n op rest ((s.readBefore n p).storePart n p (rest.any (fun q => q.2.2 == p.2.2 && sameRow q.1 p.1)))

/-- Two accesses of one operation at one row of a bank. -/
def PortWait.same (w v : PortWait) : Bool := w.op == v.op && w.commons == v.commons && w.bank == v.bank && w.row == v.row

/-- An access of a slot served, as others of the cycle have left it: with a part of a 64-byte row, a load reads all that it reads of that row
(R159). -/
def State.serveSlot (s : State) (n : Nat) (w : PortWait) : State :=
  let w := ((s.core n).unserved.find? (fun v => v.same w)).getD w
  let s := s.updCore n (fun c => { c with unserved := c.unserved.erase w })
  match w.act with
  | .load k parts =>
    let more := (s.core n).unserved.flatMap (fun v => v.rowRest k parts)
    let s := if more.isEmpty then s else s.updCore n (fun c => { c with unserved := c.unserved.map (fun v => v.without k more) })
    s.serveLoad n k (parts ++ more)
  | .store parts => State.storeParts n w.op parts s

/-- A step of a command served at its port. -/
def State.serveStep (s : State) (n id : Nat) (st : CStep) : State :=
  match (s.core n).command id with
  | some x => if (s.stepsLeft n x).head? = some st then (if isIx x.op then s.ixServed n x else s).stepCommand n x st else s
  | none => s

/-- An access served. -/
def State.serveUse (s : State) (u : PortUse) : State :=
  let s := match u.slot with
    | some w => s.serveSlot u.core w
    | none => s
  match u.cmd with
  | some (id, st) => s.serveStep u.core id st
  | none => s

/-- The cores whose copy engines access their fields in this cycle have used one more of their cycles (R86). -/
def State.countCopies (s : State) (won : List PortUse) : State :=
  let mine := won.filter (fun u => !u.commons && u.mem == u.core && u.cmd.any (fun p => ((s.core u.core).command p.1).any (fun x => decide (s.userOf u.core u x < 2))))
  ((mine.map PortUse.core).eraseDups).foldl (fun s n => s.updCore n (fun c => { c with copied := c.copied + 1 })) s

/-- The turns of the ports that more than one access asks for (R30). -/
def State.countTurns (s : State) (cl : Nat) (all : List PortUse) : State :=
  let keys := all.flatMap PortUse.keys
  let busy := keys.eraseDups.filter (fun k => decide (2 ≤ keys.count k))
  s.updCluster cl (fun c => { c with contended := busy.foldl (fun t k => tset t k (tget 0 t k + 1)) c.contended })

/-- A core after its cluster's ports have served a cycle: a bundle with an access left completes no sooner than the next working cycle,
which is charged to slack; one with none left has completed (R30, R60, R247). -/
def Core.afterPorts (c : Core) : Core :=
  if c.unserved.isEmpty then c.sendLoads
  else
    let d := c.seq.wc + 1 - c.seq.complete
    { c with seq := { c.seq with complete := c.seq.complete + d, busy := c.seq.busy + d },
             csr := { c.csr with slackCnt := c.csr.slackCnt + BitVec.ofNat 64 d } }

/-- The accesses at the ports of a cluster in a working cycle, some ports being taken: every read sees its row as it stood before the writes of
the cycle (R31) (DEDUCED, log 73). -/
def State.usePorts (s : State) (cl : Nat) (used : List Nat) : State :=
  let cs := (s.coresOf cl).filter (fun n => !((s.core n).unserved.isEmpty && (s.core n).loads.isEmpty))
  let all := cs.flatMap s.slotUses ++ s.commandUses cl
  let won := servePorts (sortKey s.portRank all) used
  let s := (s.countCopies won).countTurns cl all
  let s := (won.filter (fun u => !u.write) ++ won.filter PortUse.write).foldl State.serveUse s
  cs.foldl (fun s n => s.updCore n Core.afterPorts) s

/-- REFRESH_URGENT (R30, R119, R247, R465): the bank ports of a cluster in one working cycle. Requests that have waited 8 µs take the
ports of their banks first; the accesses of slots and commands take what is left. -/
def execRefreshUrgent (cl : Nat) (s : State) : Out :=
  let r := s.urgentAll cl
  .next (r.1.usePorts cl r.2)

/-! ### BUCKET_LEAK (R432, R433) -/

/-- A bucket one lower; its marks arm again below half. -/
def Bucket.leak (b : Bucket) (warn act : Nat) : Bucket :=
  let n := b.count - 1
  { b with count := n, warned := b.warned && !decide (2 * n < warn), acted := b.acted && !decide (2 * n < act) }

/-- BUCKET_LEAK (R432): every bucket of a kind falls by 1; a cluster's trim falls back a step when its bucket arms again. -/
def execBucketLeak (kind : Fin 6) (s : State) : Out :=
  let m := s.bucketMarks kind.val
  let mine := fun (k : Nat) => k / 2 ^ 20 == kind.val
  let back := (s.buckets.filter (fun p => mine p.1 && p.2.acted && !(p.2.leak m.1 m.2.1).acted)).map (fun p => p.1 % 2 ^ 20)
  let s := { s with buckets := tmap (fun k b => if mine k then b.leak m.1 m.2.1 else b) s.buckets }
  .next (if kind = 3 then back.foldl (fun s cl => s.updCluster cl (fun c => { c with trim := c.trim - 1 })) s else s)

end Sys2Proof.Machine
end

