-- ==== Sys2Proof/Machine/Health.lean ====
section
/-! DEFINITION. Replays and timing errors (R430, R431), known-answer tests and fencing (R440-R442), global scrub (R436), retirement of units
(R36, R37, R39), the failure of a CC (R495), and the stop of the module (R496). -/

namespace Sys2Proof.Machine

/-! ### Replays (R430, R431) -/

/-- A tile operation that holds its state for some cycles. -/
def TileFlight.freeze (t : TileFlight) (k : Nat) : TileFlight :=
  { t with due := t.due + k, op := match t.op with
      | .step at' qa rp rows b sb sa fc rb => .step (at' + k) qa rp rows b sb sa fc rb
      | o => o }

/-- A core issues nothing for `k` working cycles, and what is in flight holds its state; the cycles are charged to slack. -/
def Core.freeze (c : Core) (k : Nat) : Core :=
  { c with seq := { c.seq with busy := max c.seq.busy c.seq.wc + k, complete := c.seq.complete + k }, flight := c.flight.map (fun l => { l with due := l.due + k }),
           mat := { c.mat with tiles := c.mat.tiles.map (fun t => t.freeze k), lastStep := c.mat.lastStep.map (fun t => t + k) },
           csr := { c.csr with slackCnt := c.csr.slackCnt + BitVec.ofNat 64 k } }

/-- One more replay of a core. -/
def State.countReplay (s : State) (n : Nat) : State := s.updCore n (fun c => { c with csr := { c.csr with replayCnt := c.csr.replayCnt + 1 } })

/-- A replay at a field bank's port (R430): whether it delays a core slot access, or another's, is a free value (DESIGN CHOICE, log 80). The slot access
is served 2 cycles later, and its bundle completes later by as much (R247): where it still waits, it waits on; where it has been served in
this cycle, what the bundle loaded lands 2 cycles later. -/
def State.delayPort (s : State) (n : Nat) : State :=
  let f := s.free
  let c := s.core n
  if f.1 % 2 = 0 ∨ c.busy = false then f.2
  else if c.unserved.any (fun w => !w.commons) then f.2.updCore n (fun c => { c with portHold := c.seq.wc + 2 })
  else
    f.2.updCore n (fun c =>
      { c with seq := { c.seq with busy := max c.seq.busy c.seq.wc + 2, complete := c.seq.complete + 2 },
               flight := c.flight.map (fun l => if c.sentLoads.contains l then { l with due := l.due + 2 } else l), sentLoads := [],
               csr := { c.csr with slackCnt := c.csr.slackCnt + 2 } })

/-- The context that runs on a core. -/
def State.runningCtx (s : State) (n : Nat) : Option Nat := if (s.core n).busy then some (s.core n).csr.ctxId.toNat else none

/-- The owner of what a refresh or scrub of a commons bank works on (R114, R437): of the valid groups with a row there, which one it is is a free
value (DESIGN CHOICE, log 80). -/
def State.bankOwner (s : State) (cl bank : Nat) : State × Option Nat :=
  let l := s.localOf (8 * cl) true
  let gs := l.groups.filter (fun p => p.2.valid && (s.rowsOf (8 * cl) true (2048 * p.1)).any (fun r => r.1 == bank))
  let f := s.free
  (f.2, (gs[f.1 % gs.length]?).map (fun p => p.2.owner))

/-- A timing error (R431, R437): recorded, with the end of the context that it strikes, and 16 in the unit's bucket. -/
def State.timingError (s : State) (ctx : Option Nat) (unit unitNo sub kind u : Nat) : State :=
  let s := s.event 0x304 (if ctx.isSome then 3 else 0) ctx unit unitNo sub 0 0 0
  let s := s.bucketAdd kind u 16
  match ctx with
  | some c => s.push (.contextEnd c 0x304 0)
  | none => s

/-- SHADOW_LATCH_REPLAY (R430, R431). Places: 0 a datapath of core `unit` (lane `sub`), 1 a port of bank `sub` of its field, 2 the
shared blocks of cluster `unit` (`sub` 0 to 7 the copy engines of its cores, else a commons bank, the IXE, the map unit or the CC), 3 a refresh
or scrub: bank `sub` of core `unit`'s field, or bank `sub − 32` of its commons. -/
def execShadowLatchReplay (place : Fin 4) (unit sub : Nat) (again : Bool) (s : State) : Out :=
  if (if place = 2 then 32 else 256) ≤ unit then .next s
  else
    match place with
    | 0 =>
      let s := ((s.updCore unit (fun c => c.freeze 2)).countReplay unit).bucketAdd 2 (144 * unit + sub % 144) 1
      .next (if again then s.timingError (s.runningCtx unit) 0 unit (sub % 144) 2 (144 * unit + sub % 144) else s)
    | 1 =>
      let s := ((s.countReplay unit).delayPort unit).bucketAdd 0 (32 * unit + sub % 32) 1
      .next (if again then s.timingError (s.runningCtx unit) 1 unit (sub % 32) 0 (32 * unit + sub % 32) else s)
    | 2 =>
      let s := s.bucketAdd 3 unit 1
      .next (if again then s.timingError (if sub < 8 then s.runningCtx (8 * unit + sub) else none) 3 unit 0 3 unit else s)
    | 3 =>
      let field := decide (sub < 32)
      let bank := if field then sub else (sub - 32) % 64
      let u := if field then 32 * unit + bank else 64 * clusterOf unit + bank
      let s := s.bucketAdd (if field then 0 else 1) u 1
      let s := s.updCluster (clusterOf unit) (fun k => { k with redo := k.redo ++ [(if field then unit % 8 else 8, bank)] })
      if again = false then .next s
      else if field then .next (s.timingError (s.runningCtx unit) 1 unit bank 0 u)
      else
        let o := s.bankOwner (clusterOf unit) bank
        .next (o.1.timingError o.2 2 (clusterOf unit) bank 1 u)

/-! ### Retirement (R36, R37, R39) -/

/-- Event 0x0A02, and the return of a RETIRE that waits for the unit. -/
def State.retiredEvent (s : State) (unit no : Nat) : State :=
  let s := s.event 0xA02 4 none unit no 0 0 (unit + no * 65536) 0
  let mine := fun (w : Waiting) => w.opcode == 0xC00D && w.arg == unit + no * 65536
  let n := (s.mbWait.filter mine).length
  { s with mbWait := s.mbWait.filter (fun w => !mine w), replies := s.replies ++ (if s.cxlUp then List.replicate n ⟨0xC00D, 0, []⟩ else []) }

/-- Stakes of the furrows of a core are given up, each with those that were placed with it (R97). -/
def State.dropCoreStakes (s : State) (core : Nat) : State :=
  let mine := ((s.cluster (clusterOf core)).stakes.filter (fun q => q.core == core)).map (fun q => (q.team, q.lead))
  { s with clusters := tmap (fun _ (k : Cluster) => { k with stakes := k.stakes.filter (fun q => !mine.contains (q.team, q.lead)) }) s.clusters }

/-- A unit's bookings that no team has taken are dropped, and its stakes and tests: the calendar holds no rows for an absent core (R37). -/
def State.dropBookings (s : State) (core : Nat) : State :=
  let s := (s.reservations.filter (fun r => r.cores.contains core)).foldl State.dropReservation s
  let s := { s.dropCoreStakes core with kats := s.kats.filter (fun x => x.1 ≠ core) }
  s.updCluster (clusterOf core) (fun k =>
    { k with bookings := k.bookings.filter (fun b => b.core ≠ core), ballast := k.ballast.filter (fun b => b.core ≠ core) })

/-- Teams that hold or wait for a core of a cluster. -/
def State.teamsIn (s : State) (cl : Nat) : List (Nat × Team) :=
  s.teams.filter (fun p => p.2.members.any (fun m => !m.exited && clusterOf m.core == cl && (p.2.state.waitsHere || s.holdsCore p.1 m)))

/-- A team that waits on its cores for its release leaves them and is placed again; a resumed one, which holds them, is released first and then
pre-empted (R52). -/
def State.withdraw (s : State) (p : Nat × Team) : State :=
  if !p.2.state.waitsHere || p.2.resumed then s
  else (s.unstage p.1 p.2).updTeam p.1 (fun t => { t with members := [], state := .ready, release := 0 })

/-- A team gives up its place with its gang: one that waits leaves its cores, and one that runs is pre-empted. -/
def State.giveUp (s : State) (p : Nat × Team) : State :=
  match s.team p.1 with
  | none => s
  | some t => if t.state.waitsHere then (s.teamsOf t.inst).foldl State.withdraw s else s.push (.preempt p.1)

/-- A core that is IDLE is retired; a team that is placed on it and not staged is placed again. -/
def State.retireCore (s : State) (n : Nat) : State :=
  let idle := (s.core n).seq.mode = .idle ∧ (s.core n).team = none
  let s := match s.nextOn n with
    | some p => if idle ∧ p.2.state = .placed then s.giveUp p else s
    | none => s
  if (s.core n).seq.mode = .idle ∧ (s.core n).team = none ∧ (s.nextOn n).isNone = true ∧ bit s.pres.cores n = true then
    let s := s.dropBookings n
    ({ s with pres := { s.pres with cores := clearBit s.pres.cores n }, retireDue := s.retireDue.filter (fun x => x ≠ n),
              katDue := s.katDue.filter (fun x => x ≠ n) }.send .retire (clusterOf n) n).retiredEvent 0 n
  else s

/-- A cluster in which no team has a member is retired: its island is off, and its cores go with it. -/
def State.retireCluster (s : State) (cl : Nat) : State :=
  if (s.teamsIn cl).isEmpty && (List.range 8).all (fun j => decide ((s.core (8 * cl + j)).seq.mode = .idle)) then
    let s := (List.range 8).foldl (fun s j => s.dropBookings (8 * cl + j)) s
    let s := { s with pres := { s.pres with clusters := clearBit s.pres.clusters cl,
                                            cores := (List.range 8).foldl (fun m j => clearBit m (8 * cl + j)) s.pres.cores },
                      unitDue := s.unitDue.filter (fun x => x ≠ (3, cl)) }
    ((s.send .retire cl cl).updCluster cl (fun k =>
      { k with island := .off, tlb2 := [], walks := [], bookings := [], stakes := [], ballast := [], windowMs := [] })).retiredEvent 3 cl
  else s

/-- Blocks that a memory lists, of one tier. -/
def GMem.blocksOf (g : GMem) (tier : Nat) : List Nat :=
  ((g.cells.map (fun (c : Host.Cell) => c.1 / 128)) ++ g.codes.map Prod.fst ++ g.bad).eraseDups.filter (fun b => decide ((2 ^ 41 ≤ 128 * b) = (tier = 1)))

/-- A tier laid out again over other channels: every block keeps its device physical address, and those that no page maps and whose
address leaves go (R37, R39). -/
def State.relay (s : State) (tier : Nat) (new : State) : State :=
  let bs := s.dev.blocksOf tier
  let rest : GMem := bs.foldl (fun g b =>
    { g with cells := clearBytes g.cells (128 * b) 128, codes := tdel g.codes b, bad := g.bad.filter (fun x => x ≠ b),
             weak := g.weak.filter (fun w => w / 4 ≠ b), fails := g.fails.filter (fun w => w / 4 ≠ b) }) s.dev
  let put := fun (g : GMem) (b : Nat) =>
    let pa := s.paOfBlock tier b
    if new.tierHolds tier pa 128 then
      let x := s.dev.block b
      let c := new.storage tier pa / 128
      let g := g.putBlock c x.1 x.2
      let g := if s.dev.bad.contains b || s.dev.tagBad.contains (b / 16) then { g with bad := g.bad ++ [c] } else g
      let move := fun (l : List Nat) => (l.filter (fun w => w / 4 == b)).map (fun w => 4 * c + w % 4)
      { g with weak := g.weak ++ move s.dev.weak, fails := g.fails ++ move s.dev.fails }
    else g
  let keep := fun (k : Nat) => decide ((2 ^ 41 ≤ 2048 * k) ≠ (tier = 1))
  { new with dev := bs.foldl put { rest with tagWeak := rest.tagWeak.filter keep, tagBad := rest.tagBad.filter keep } }

/-- A memory channel is retired only after the GS has migrated its pages (R39); blocks keep their device physical addresses. The last
present channel of a tier has no other to migrate to and stays, and so does a channel while something that has no page lies where it would leave
no address (DESIGN CHOICE, log 59). Tables move once the pages have. -/
def State.retireChannel (s : State) (tier ch : Nat) : State :=
  if (s.channels tier).length ≤ 1 ∨ (s.channels tier).contains ch = false then s
  else if s.contexts.any (fun p => !(s.displaced tier ch p.1).isEmpty) ∨ s.migrations.any (fun m => m.page.isSome) = true then
    if s.migrations.any (fun m => m.channel == some ch && m.tier == tier) then s else s.emptyChannel tier ch
  else if (s.strayTable tier ch).isSome then s.emptyTables tier ch
  else if s.heldStays tier ch then
    let new := { s.withoutChannel tier ch with unitDue := s.unitDue.filter (fun x => x ≠ (4 + tier, ch)) }
    (s.relay tier new).retiredEvent (4 + tier) ch
  else s

/-- A Phiok port is retired (R498). -/
def State.retirePort (s : State) (p : Nat) : State :=
  ({ s with pres := { s.pres with phiok := clearBit s.pres.phiok p }, ports := tset s.ports p { tget Port.init s.ports p with down := true },
            unitDue := s.unitDue.filter (fun x => x ≠ (7, p)) }).retiredEvent 7 p

/-- A unit other than a core whose retirement is due. -/
def State.retireUnit (s : State) (u : Nat × Nat) : State :=
  if u.1 = 3 then s.retireCluster u.2
  else if u.1 = 4 ∨ u.1 = 5 then
    s.retireChannel (u.1 - 4) u.2
  else if u.1 = 7 then s.retirePort u.2
  else { s with unitDue := s.unitDue.filter (fun x => x ≠ u) }

/-- Running teams of a unit that is to be retired: a swap-in that was under way has brought them back to it. -/
def State.backOnLeaving (s : State) : List (Nat × Team) :=
  s.teams.filter (fun p => decide (p.2.state = .running) && p.2.members.any (fun m => !m.exited && s.leaving m.core))

/-- Retirements that are due take effect where they can. -/
def State.retireAll (s : State) : State :=
  let s := s.backOnLeaving.foldl State.giveUp s
  let s := s.retireDue.foldl State.retireCore s
  s.unitDue.foldl State.retireUnit s

/-! ### KAT_RUN (R440-R442) -/

/-- Classes whose fencing leaves a core useless (R441). -/
def vital (mask : Nat) : Bool := bit mask 0 || bit mask 3 || bit mask 4 || bit mask 5 || bit mask 7

/-- Classes of a core fenced: CAPM, the security engine's store, and the record; a team placed there that it no longer serves is placed again
(R442); or the core is retired. -/
def State.fence (s : State) (n mask : Nat) : State :=
  if mask = 0 then s
  else
    let s := s.updCore n (fun c => { c with csr := { c.csr with capm := c.csr.capm &&& ~~~(BitVec.ofNat 64 mask) } })
    let s := { s with fenced := tset s.fenced n (tget 0 s.fenced n ||| mask) }
    let s := s.event 0xA01 4 none 0 n 0 0 mask 0
    let s := match s.nextOn n with
      | some p => if (s.core n).covers p.2.image.usem then s else s.giveUp p
      | none => s
    if vital mask then ({ s with retireDue := s.retireDue ++ [n] }).retireCore n else s

/-- A core may be tested (R440): it is IDLE with its shadow bank free. -/
def State.mayTest (s : State) (n : Nat) : Bool :=
  decide ((s.core n).seq.mode = .idle) && !(s.core n).seq.shadow && (s.core n).team.isNone && bit s.pres.cores n

/-- A run that each core owes once in 2^26 ticks (R440): the cores take turns (DESIGN CHOICE, log 80). -/
def State.oweKat (s : State) : State :=
  if s.tick % 2 ^ 18 = 0 then { s with katDue := (s.katDue ++ [s.tick / 2 ^ 18 % 256]).eraseDups } else s

/-- The classes whose results differ, with the number of runs of three in which they do. -/
def differing (which runs : Nat) : List (Nat × Nat) := ((List.range 64).filter (bit which)).map (fun k => (k, 1 + runs / 4 ^ k % 3))

/-- The outcome of a test is a free value (DESIGN CHOICE, log 80). -/
def State.pushKat (s : State) (n : Nat) : State :=
  let f := s.free
  let g := f.2.free
  g.2.push (.katRun n (differing f.1 g.1))

/-- The profile of a test (R440): one furrow of at most 64 ticks in the core's M, V0, V1, X, C0 and C1 rows. -/
def katImage (ticks : Nat) : Image :=
  { flags := 0, usem := 0, teamSize := 1, gangRole := 255, fmtInit := 0, vctlInit := 0, vseedInit := 1, rings := [],
    furrows := [⟨ticks, 0, 1, 63, 0, false, 0, 0, 0, 0, 0, 0, 0⟩], regions := [], pipes := [], headlands := [], barriers := [], data := [], code := [] }

/-- A test that a core owes is booked, at the first tick at which it fits; its length is a free value of at most 64 ticks (R440; DESIGN CHOICE, log
80). -/
def State.bookKat (s : State) (n : Nat) : State :=
  let f := s.free
  let i := katImage (1 + f.1 % 64)
  let team := f.2.nextOp
  match f.2.bookTeam (f.2.firstWants team i [n]) (s.tick + 1) (s.horizon - s.tick) with
  | none => f.2
  | some (r, t) => { r with kats := r.kats ++ [(n, team, t + f.1 % 64)], nextOp := team + 1 }

/-- Tests at a tick boundary (R440): those whose booked ticks have passed run, and those that are owed by cores that may be tested are booked. -/
def State.runKats (s : State) : State :=
  let ended := s.kats.filter (fun x => decide (x.2.2 < s.tick))
  let s := ended.foldl (fun s x => (s.releaseTeam x.2.1 s.tick).pushKat x.1) { s with kats := s.kats.filter (fun x => decide (s.tick ≤ x.2.2)) }
  (s.katDue.filter (fun n => s.mayTest n && !s.kats.any (fun x => x.1 == n) && !ended.any (fun x => x.1 == n))).foldl State.bookKat s

/-- KAT_RUN (R440): the tests of an IDLE core whose shadow bank is free. `differ` gives, for a class, how many of its three runs
differ; which lane a transient counts in is a free value (DESIGN CHOICE, log 80). -/
def execKatRun (n : Nat) (differ : List (Nat × Nat)) (s : State) : Out :=
  let c := s.core n
  if c.seq.mode ≠ .idle ∨ c.seq.shadow = true ∨ c.team.isSome = true ∨ bit s.pres.cores n = false then .next s
  else
    let s := { s with katDue := s.katDue.filter (fun x => x ≠ n) }
    let s := (differ.filter (fun p => p.2 == 1)).foldl
      (fun s p =>
        let f := s.free
        (f.2.bucketAdd 2 (144 * n + f.1 % 144) 64).event 0x903 0 none 0 n 0 0 p.1 0) s
    let mask := (((differ.filter (fun p => decide (2 ≤ p.2) && decide (p.1 < 64))).map Prod.fst).eraseDups.map (fun k => 2 ^ k)).sum
    .next (s.fence n mask)

/-! ### GLOBAL_SCRUB (R429, R436) -/

/-- A sector of a channel read by the scrubber (R436): correct, corrected (1) and so rewritten, or uncorrectable (2), which poisons its block. The
syndrome and the DRAM bank are free values. -/
def State.scrubSector (s : State) (tier ch sector err : Nat) : State :=
  let pa := s.paOfBlock tier (sector / 4) + 32 * (sector % 4)
  let s := s.countBytes tier ch 32 (if err = 1 then 32 else 0)
  if err = 0 then s
  else
    let f := s.free
    let g := f.2.free
    let m := g.2.gmem tier
    if err = 1 then
      (g.2.setGmem tier { m with weak := m.weak.filter (fun w => w ≠ sector) }).corrected (4 + tier) ch (4 + tier) ch (f.1 % 65536) pa
    else
      let s := ((g.2.setGmem tier { m with fails := if m.fails.contains sector then m.fails else m.fails ++ [sector] }).poison tier pa).bucketAdd (4 + tier) ch 16
      s.event 0x303 0 none (4 + tier) ch (f.1 % 65536) pa (g.1 % 2 ^ 64) 0

/-- GLOBAL_SCRUB (R436): the scrubber reads the sector of an address and finds it correct, corrected (1) or uncorrectable (2). -/
def execGlobalScrub (addr : Nat) (err : Fin 3) (s : State) : Out :=
  match s.tierOf addr with
  | none => .next s
  | some t => .next (s.scrubSector t (s.place t addr).1 (4 * s.blockOf t addr + addr % 128 / 32) err.val)

/-- The sector of each channel of a tier that the scrubber has come to in a tick: all of them once, ascending, in the 1,485,000,000,000 ticks of 24 h
(R436). -/
def scrubPlace (tier t : Nat) : Nat := t * (channelBytes tier / 32) / 1485000000000 % (channelBytes tier / 32)

/-- The scrubber's work of a tick in one tier: where its turn has come to a further sector, that sector of every present channel. -/
def State.scrubTier (s : State) (tier : Nat) : State :=
  let k := scrubPlace tier s.tick
  if k = scrubPlace tier (s.tick - 1) then s
  else (s.channels tier).foldl (fun s ch =>
    let x := (tierBase tier + ch * channelBytes tier) / 32 + k
    s.scrubSector tier ch x (if s.dev.fails.contains x then 2 else if s.dev.weak.contains x then 1 else 0)) s

/-! ### CC_FAILURE (R495) and MODULE_STOP (R496) -/

/-- The calendar of a cluster cleared with its bookings, stakes and handles. -/
def State.clearCalendar (s : State) (cl : Nat) : State :=
  let lost := s.reservations.filter (fun r => r.cores.any (fun n => clusterOf n == cl))
  let s := lost.foldl State.dropReservation s
  let s := { s with kats := s.kats.filter (fun x => clusterOf x.1 ≠ cl) }
  s.updCluster cl (fun k =>
    { k with bookings := [], stakes := [], ballast := [], calBad := none, calStep := 0, compact := false, toCC := Link.init, toGS := Link.init,
             failed := some s.tick })

/-- A team with a member in a failed CC's cluster (R495): pre-empted as a whole, or held with its gang, or placed again. -/
def State.ccTeam (s : State) (p : Nat × Team) : State :=
  match p.2.state with
  | .placed => s.giveUp p
  | .staged =>
    ((s.teamsOf p.2.inst).filter (fun q => decide (q.2.state = .staged))).foldl
      (fun s q => (s.releaseTeam q.1 s.tick).updTeam q.1 (fun t => { t with state := .held })) s
  | .held => s
  | _ => s.push (.preempt p.1)

/-- A digest extended into a measurement register (R415). -/
def State.extendMeasure (s : State) (k digest : Nat) : State :=
  { s with measure := s.measure.set k (natOfBytes (sha256 (bytesOfNat 32 (nth s.measure k) ++ bytesOfNat 32 digest))) }

/-- A CC's firmware verified again (R415, R495): its digest and its register are free values, and so is whether it verifies; where it does not it is
not run, and its cluster is retired (DESIGN CHOICE, log 118). -/
def State.verifyCc (s : State) : State × Bool :=
  let f := s.free
  let g := f.2.free
  if f.1 % 2 = 0 then (g.2.extendMeasure (f.1 / 2 % 8) (g.1 % 2 ^ 256), true) else (g.2, false)

/-- CC_FAILURE (R495): an uncorrectable word in the CC's memory, whose syndrome is a free value, or a permit that did not return. -/
def execCcFailure (cl : Nat) (permit : Bool) (s : State) : Out :=
  if bit s.pres.clusters cl = false then .next s
  else
    let again := (s.cluster cl).failed.any (fun t => decide (s.tick < t + 2 ^ 30))
    let f := s.free
    let s := f.2.event 0x302 0 none 3 cl (if permit then 0xFFFF else 0) 0 (if permit then 0 else f.1 % 2 ^ 64) 0
    let s := (s.teamsIn cl).foldl State.ccTeam s
    let s := (s.cluster cl).reqQ.foldl (fun s r => s.finishRequest r 4 []) s
    let v := s.verifyCc
    let s := (v.1.updCluster cl (fun k => { k with reqQ := [] })).clearCalendar cl
    .next (if (again || !v.2) && !s.unitDue.contains (3, cl) then { s with unitDue := s.unitDue ++ [(3, cl)] } else s)

/-- MODULE_STOP (R496): an uncorrectable error in the GS's memory, whose syndrome is a free value, or its stall: the record enters the trip store,
and nothing more is done until module reset. -/
def execModuleStop (stall : Bool) (s : State) : Out :=
  let f := s.free
  let s := f.2.event 0x302 5 none 9 0 (if stall then 1 else 0) 0 (if stall then 0 else f.1 % 2 ^ 64) 0
  .next { s with power := .stopped }

end Sys2Proof.Machine
end

