-- ==== Sys2Proof/Machine/Firmware.lean ====
section
/-! DEFINITION. The messages of the command links, one meaning for each kind (R392). What a message tells of, the model does where it comes
about; a message itself takes a permit and a place in the receiver's inbox. -/

namespace Sys2Proof.Machine

/-- A message of a present cluster's link (DESIGN CHOICE, log 60). -/
def State.message (s : State) (k : MsgKind) (cl arg : Nat) : State := if bit s.pres.clusters cl then s.send k cl arg else s

/-- MSG_PLACE (R392). -/
def execMsgPlace (cl arg : Nat) (s : State) : Out := .next (s.message .place cl arg)

/-- MSG_BOOK (R392). -/
def execMsgBook (cl arg : Nat) (s : State) : Out := .next (s.message .book cl arg)

/-- MSG_STAGE (R392). -/
def execMsgStage (cl arg : Nat) (s : State) : Out := .next (s.message .stage cl arg)

/-- MSG_RELEASE (R392). -/
def execMsgRelease (cl arg : Nat) (s : State) : Out := .next (s.message .release cl arg)

/-- MSG_INVTLB (R392). -/
def execMsgInvtlb (cl arg : Nat) (s : State) : Out := .next (s.message .invtlb cl arg)

/-- MSG_RETIRE (R392). -/
def execMsgRetire (cl arg : Nat) (s : State) : Out := .next (s.message .retire cl arg)

/-- MSG_QUANTUM (R392). -/
def execMsgQuantum (cl arg : Nat) (s : State) : Out := .next (s.message .quantum cl arg)

/-- MSG_PREEMPT (R392). -/
def execMsgPreempt (cl arg : Nat) (s : State) : Out := .next (s.message .preempt cl arg)

/-- MSG_CANCEL (R392). -/
def execMsgCancel (cl arg : Nat) (s : State) : Out := .next (s.message .cancel cl arg)

/-- MSG_BOOKED (R392). -/
def execMsgBooked (cl arg : Nat) (s : State) : Out := .next (s.message .booked cl arg)

/-- MSG_NOFIT (R392). -/
def execMsgNofit (cl arg : Nat) (s : State) : Out := .next (s.message .nofit cl arg)

/-- MSG_STAGED (R392). -/
def execMsgStaged (cl arg : Nat) (s : State) : Out := .next (s.message .staged cl arg)

/-- MSG_HALTED (R392). -/
def execMsgHalted (cl arg : Nat) (s : State) : Out := .next (s.message .halted cl arg)

/-- MSG_SWAPPED (R392). -/
def execMsgSwapped (cl arg : Nat) (s : State) : Out := .next (s.message .swapped cl arg)

/-- MSG_SLIP (R392). -/
def execMsgSlip (cl arg : Nat) (s : State) : Out := .next (s.message .slip cl arg)

/-- MSG_EVENT (R392). -/
def execMsgEvent (cl arg : Nat) (s : State) : Out := .next (s.message .event cl arg)

/-- MSG_COMPLETE (R392). -/
def execMsgComplete (cl arg : Nat) (s : State) : Out := .next (s.message .complete cl arg)

/-- MSG_FAULT (R392). -/
def execMsgFault (cl arg : Nat) (s : State) : Out := .next (s.message .fault cl arg)

end Sys2Proof.Machine
end

