-- ==== Sys2Proof/Machine/Fabric.lean ====
section
/-! DEFINITION. Phiok Link and its reduction windows (R404-R408, R498-R500, R503), the CXL port and accesses from outside (R34, R400, R401,
R410, R435, R501, R502), and bring-up, reset, trip and heartbeat (R415, R419-R421, R506). -/

namespace Sys2Proof.Machine

/-! ### Rounds of a reduction window (R405-R408) -/

/-- Bytes of a unit of a round (R335, R406). -/
def unitBytes (op : Nat) : Nat := if op = 1 then 4 else if op = 2 then 2 else 8

/-- One combination of a round (R335): w3 selects it. -/
def combineUnit (op a b : Nat) : Nat :=
  match op with
  | 0 => (a + b) % 2 ^ 64
  | 1 => (FOp.elem .add .fp32 false .rne a b).1
  | 2 => (FOp.elem .add .bf16 false .rne a b).1
  | 3 => intMinMax 64 true true a b
  | _ => intMinMax 64 false true a b

/-- Operands combined in an order that the spec leaves open (R406): which two are taken at each step is a free value (DESIGN CHOICE, log 61). -/
def combineAll (op : Nat) : Nat → List Nat → State → State × Nat
  | 0, l, s => (s, l.headD 0)
  | k + 1, l, s =>
    if l.length ≤ 1 then (s, l.headD 0)
    else
      let f := s.free
      let i := f.1 % l.length
      let r := l.eraseIdx i
      let g := f.2.free
      let j := g.1 % r.length
      combineAll op k (combineUnit op (nth l i) (nth r j) :: r.eraseIdx j) g.2

/-- Every unit of a segment has a contribution of a rank. -/
def Round'.whole (r : Round') (rank : Nat) : Bool := decide ((r.parts.filter (fun p => p.1 == rank)).length = 4096 / unitBytes r.op)

/-- The contributor bitmap (R408). -/
def Round'.bitmap (r : Round') (n : Nat) : Nat := ((List.range n).map (fun k => if r.whole k then 2 ^ k else 0)).sum

/-- A completion record (R408). -/
def roundRecord (r : Round') (n seg round rtick : Nat) (incomplete : Bool) : List Byte :=
  bytesOfNat 8 ((if incomplete then 1 else 0) + (if r.mixed then 2 ^ 8 else 0) + (if r.dup then 2 ^ 9 else 0) + r.op * 2 ^ 16 + seg * 2 ^ 32)
    ++ bytesOfNat 8 round ++ bytesOfNat 8 rtick ++ List.replicate (13 * 8) 0 ++ bytesOfNat 128 (r.bitmap n)

/-- Tier and device physical address of a fabric address of this module (R143). -/
def State.ownPlace (s : State) (a : Nat) : Option (Nat × Nat) :=
  if a / 2 ^ 42 = s.moduleNum.toNat then (s.tierOf (a % 2 ^ 42)).map (fun t => (t, a % 2 ^ 42)) else none

/-- Bytes written at a fabric address of this module, block by block. -/
def State.writeOwn (s : State) (a : Nat) (bs : List Byte) : State :=
  match s.ownPlace a with
  | none => s
  | some (t, pa) => (piecesOf pa bs.length).foldl (fun s p => (s.writePlain t p.1 ((bs.drop (p.1 - pa)).take p.2)).1) s

/-- Window changed. -/
def State.updWindow (s : State) (h : Nat) (f : Window → Window) : State :=
  match tfind s.windows h with
  | some w => { s with windows := tset s.windows h (f w) }
  | none => s

/-- A segment of a window; one that is not listed has had no round. -/
def Window.segment (w : Window) (k : Nat) : Segment := tget ⟨0, none⟩ w.segments k

def Window.setSegment (w : Window) (k : Nat) (g : Segment) : Window := { w with segments := tset w.segments k g }

/-- A round ends: its record is written, and the next contribution opens a new round. -/
def State.closeRound (s : State) (h k : Nat) (w : Window) (r : Round') (incomplete : Bool) : State :=
  let g := w.segment k
  let s := s.writeOwn (w.record + 256 * k) (roundRecord r w.group.length k g.round s.rtick incomplete)
  s.updWindow h (fun w => w.setSegment k ⟨g.round + 1, none⟩)

/-- The merged units of a complete round, in order (R407). -/
def mergeUnits (r : Round') (s : State) : State × List Byte :=
  (List.range (4096 / unitBytes r.op)).foldl
    (fun (q : State × List Byte) u =>
      let x := combineAll r.op r.parts.length ((r.parts.filter (fun p => p.2.1 == u)).map (fun p => p.2.2)) q.1
      (x.1, q.2 ++ bytesOfNat (unitBytes r.op) x.2)) (s, [])

/-- A round that every member has contributed to in every unit: the merged units, and then the record (R407). -/
def State.completeRound (s : State) (h k : Nat) (w : Window) (r : Round') : State :=
  let m := mergeUnits r s
  (m.1.writeOwn (w.base + 4096 * k) m.2).closeRound h k w r false

/-- A round that is discarded: the segment keeps its contents (R407). -/
def State.breakRound (s : State) (h k : Nat) (w : Window) (r : Round') : State :=
  (s.closeRound h k w r true).event 0x801 0 none 7 0 0 0 k 0

/-- A round with a contribution: discarded with a flag when its operator differs, or when its member has contributed to the unit. -/
def Round'.take (r : Round') (op rank unit v : Nat) : Round' :=
  if op ≠ r.op then { r with mixed := true }
  else if r.parts.any (fun p => p.1 == rank && p.2.1 == unit) then { r with dup := true }
  else { r with parts := r.parts ++ [(rank, unit, v % 2 ^ (8 * unitBytes op))] }

/-- REDUCTION_CONTRIBUTION (R406, R407): a contribution of a module to a window of this home module. -/
def execReductionContribution (module addr : Nat) (op : Fin 8) (v : BitVec 64) (s : State) : Out :=
  match s.windowAt addr with
  | none => .next s
  | some w =>
    match w.group.findIdx? (fun m => m == module) with
    | none => .next s
    | some rank =>
      if 5 ≤ op.val then .next s
      else
        let k := (addr - w.base) / 4096
        let g := w.segment k
        let r := (g.current.getD ⟨op.val, s.rtick, false, false, []⟩).take op.val rank ((addr - w.base) % 4096 / unitBytes op.val) v.toNat
        let w' := w.setSegment k ⟨g.round, some r⟩
        let s := s.updWindow w.handle (fun _ => w')
        .next (if r.parts.length = w.group.length * (4096 / unitBytes r.op) then s.completeRound w.handle k w' r else s)

/-- ROUND_TIMEOUT (R407, R503): the timeout has passed from the round's opening. -/
def execRoundTimeout (win seg : Nat) (s : State) : Out :=
  match tfind s.windows win with
  | none => .next s
  | some w =>
    match (w.segment seg).current with
    | none => .next s
    | some r => .next (if r.opened + w.timeout ≤ s.rtick then s.breakRound win seg w r else s)

/-! ### Ports (R498-R500) -/

/-- PHIOK_REPLAY (R498): more than 16 replays within 1 ms make the port retrain. -/
def execPhiokReplay (port : Nat) (s : State) : Out :=
  if s.portUp port = false then .next s
  else
    let p := tget Port.init s.ports port
    let p := { p with replays := p.replays.filter (fun t => decide (s.rtick < t + 1000)) ++ [s.rtick] }
    .next { s with ports := tset s.ports port { p with retraining := p.retraining || decide (16 < p.replays.length) } }

/-- Modules by number, as a mask chooses. -/
def modulesOf (mask : Nat) : List Nat := (List.range 16384).filter (bit mask)

/-- Peers that a down port leaves without a path: which, lies in the wiring of the tray, so it is a free value (DESIGN CHOICE, log 62). -/
def State.losePaths (s : State) : State :=
  let f := s.free
  { f.2 with lostPeers := (f.2.lostPeers ++ modulesOf f.1).eraseDups }

/-- Peers that a port that is up again leads to. -/
def State.findPaths (s : State) : State :=
  let f := s.free
  { f.2 with lostPeers := f.2.lostPeers.filter (fun m => bit f.1 m) }

/-- Commands that wait for a link take up their work again (R500, R501). -/
def Core.retryLink (c : Core) (peer : Bool) (now : Nat) : Core :=
  let f := fun (x : Command) =>
    match x.state with
    | .link _ p => if p = peer then { x with state := .accepted now } else x
    | _ => x
  { c with queue0 := c.queue0.map f, queue1 := c.queue1.map f }

/-- Everything that waits for a link is tried again. -/
def State.retryLink (s : State) (peer : Bool) : State :=
  { s with cores := tmap (fun _ (c : Core) => c.retryLink peer s.now) s.cores }.retryFront

/-- A peer stops, or answers again, behind ports that stay up (R496, R500): which, and when, are free values (DESIGN CHOICE, log 62). -/
def State.changePeers (s : State) : State :=
  let f := s.free
  if f.1 % 4 = 1 then f.2.losePaths
  else if f.1 % 4 = 2 then f.2.findPaths.retryLink true
  else f.2

/-- PORT_RETRAIN (R498): the port is up, or fails to retrain; the second failure in a row takes it down. -/
def execPortRetrain (port : Nat) (ok : Bool) (s : State) : Out :=
  if bit s.pres.phiok port = false then .next s
  else
    let p := tget Port.init s.ports port
    if ok then
      let s := { s with ports := tset s.ports port Port.init }
      .next (if p.down then s.findPaths.retryLink true else s)
    else if p.down then .next s
    else if 1 ≤ p.fails then
      .next (({ s with ports := tset s.ports port { p with down := true, retraining := false, fails := p.fails + 1 } }.losePaths).event 0x802 0 none 7 port 0 0 port 0)
    else .next { s with ports := tset s.ports port { p with retraining := true, fails := 1 } }

/-- PEER_TIMEOUT (R500): a command has waited 2^20 ticks for a module that no path reaches, or that does not answer. -/
def execPeerTimeout (core id : Nat) (s : State) : Out :=
  match (s.core core).command id with
  | none => .next s
  | some x =>
    match x.state with
    | .link since true => .next (if since + 2 ^ 20 ≤ s.tick then s.endCommand core id stData else s)
    | _ => .next s

/-! ### The CXL link (R501, R502) -/

/-- The link goes down. -/
def State.linkDown (s : State) : State :=
  if s.cxlUp then
    let since := if s.cxlSecure then s.tick else s.cxlSince
    { s with cxlUp := false, cxlSince := since, snoop := [] }.event 0x803 0 none 6 0 0 0 0 0
  else s

/-- CXL_LINK_DOWN (R501). -/
def execCxlLinkDown (s : State) : Out := .next s.linkDown

/-- CXL_LINK_UP (R501): waiting accesses proceed, and parked queues rejoin. -/
def execCxlLinkUp (s : State) : Out :=
  let s := { s with cxlUp := true }
  .next (if s.cxlSecure then s.retryLink false else s.retryFront)

/-- CXL_LINK_TIMEOUT (R501): a command has waited 2^20 ticks for the link. -/
def execCxlLinkTimeout (core id : Nat) (s : State) : Out :=
  match (s.core core).command id with
  | none => .next s
  | some x =>
    match x.state with
    | .link since false => .next (if since + 2 ^ 20 ≤ s.tick then s.endCommand core id stData else s)
    | _ => .next s

/-- IDE_FAILURE (R502): the link goes down, and IDE is insecure until new keys are programmed. -/
def execIdeFailure (s : State) : Out := .next { s.linkDown with cxlSecure := false }

/-- IDE_KEY_PROGRAMMING (R502): the host programs new keys through the mailbox, which a link that is down does not carry. -/
def execIdeKeyProgramming (s : State) : Out :=
  .next (if s.cxlUp then { s with cxlSecure := true }.retryLink false else s)

/-! ### Accesses from outside (R34, R401, R410, R435) -/

/-- The answer to a memory request from outside. -/
def State.answer (s : State) (who : Nat) (r : Option (List Byte)) : State :=
  { s with replies := s.replies ++ [match r with | some bs => ⟨who, 0, bs⟩ | none => ⟨who, 1, []⟩] }

/-- A read from outside (R401): expanded data, or poison, which is recorded and ends no context (R435, R437) (DESIGN CHOICE, log 94). -/
def State.readOutside (s : State) (who t pa n : Nat) : State :=
  match s.readRangeAt t pa n with
  | (s, .ok bs) => s.answer who (some bs)
  | (s, .error a) => (s.blockError none t a 0).answer who none

/-- A write from outside, block by block, whole or merged; a poisoned block takes no partial write (R155, R435). -/
def State.writeOutside (s : State) (t pa : Nat) (bs : List Byte) : State :=
  (piecesOf pa bs.length).foldl (fun s p => (s.writePlain t p.1 ((bs.drop (p.1 - pa)).take p.2)).1) s

/-- Words that a host write may change in a checkpoint, as they stand (R410). -/
def State.keepLate (s : State) (t pa n : Nat) : State :=
  if s.ckpt.isNone && s.hold.isNone then s
  else { s with late := s.late ++ (List.range ((pa + n + 7) / 8 - pa / 8)).map (fun k => (8 * (pa / 8 + k), s.peek t (8 * (pa / 8 + k)) 8)) }

/-- The host may hold the 64-byte lines of a range (R401). -/
def State.hostTakes (s : State) (pa n : Nat) : State :=
  { s with hostLines := (s.hostLines ++ (List.range ((pa + n + 63) / 64 - pa / 64)).map (fun k => pa / 64 + k)).eraseDups }

/-- A write from outside may fall in the save area of a swapped team, whose pages and layout the spec leaves open (R66): whether it does,
and in which byte of which team's, are free values (DESIGN CHOICE, log 48). -/
def State.maySpoil (s : State) (data : List Byte) : State :=
  let f := s.free
  let g := f.2.free
  if f.1 % 2 = 1 then
    { g.2 with teams := tmap (fun k t => if k = f.1 / 2 then { t with area := t.area.set (g.1 % t.area.length) (data.headD 0) } else t) g.2.teams }
  else g.2

/-- The address of the host's own memory in an access of the host. -/
def hostSide : Nat := 2 ^ 52

/-- HOST_CXL_MEM_ACCESS (R401): a read of `len` bytes when there is no data, else a write. From 2^52 on, the address is the host's own
memory, which the host writes under its coherence and the port sees (R180, R400) (DESIGN CHOICE, log 95). -/
def execHostCxlMemAccess (pa len : Nat) (data : List (BitVec 8)) (s : State) : Out :=
  if !(s.cxlUp && s.cxlSecure) then .next s
  else if hostSide ≤ pa then .next (if data.isEmpty then s else s.writeOutside 2 (pa - hostSide) data)
  else
    match s.tierOf pa with
    | none => .next s
    | some t =>
      if s.tierHolds t pa (max len data.length) = false then .next s
      else if data.isEmpty then .next ((s.readOutside 1 t pa len).hostTakes pa len)
      else .next ((((s.keepLate t pa data.length).writeOutside t pa data).maySpoil data).hostTakes pa data.length)

/-- An atomic of a peer: op7 of R332, w3, operand and compare value. -/
def peerAtomic (op w : Nat) : Instr :=
  match op with
  | 0x10 => .aadd 0 0 0 0 0 0 0 (Fin.ofNat 8 w) 0
  | 0x11 => .afadd 0 0 0 0 0 0 0 (Fin.ofNat 8 w) 0
  | 0x12 => .aand 0 0 0 0 0 0 0 (Fin.ofNat 8 w) 0
  | 0x13 => .aor 0 0 0 0 0 0 0 (Fin.ofNat 8 w) 0
  | 0x14 => .axor 0 0 0 0 0 0 0 (Fin.ofNat 8 w) 0
  | 0x15 => .amin 0 0 0 0 0 0 0 (Fin.ofNat 8 w) 0
  | 0x16 => .amax 0 0 0 0 0 0 0 (Fin.ofNat 8 w) 0
  | 0x17 => .aminn 0 0 0 0 0 0 0 (Fin.ofNat 8 w) 0
  | 0x18 => .amaxn 0 0 0 0 0 0 0 (Fin.ofNat 8 w) 0
  | 0x19 => .axchg 0 0 0 0 0 0 0 (Fin.ofNat 8 w) 0
  | 0x1A => .acas 0 0 0 0 0 0 0 (Fin.ofNat 8 w) 0
  | _ => .adecp 0 0 0 0 0 0 0 (Fin.ofNat 8 w) 0

/-- Bytes of such an operand. -/
def peerSize (op w : Nat) : Nat := if op = 0x11 then (if w = 0 then 4 else 2) else if w = 0 then 4 else 8

/-- An atomic of a peer performed at its home slice (R34, R178). -/
def State.atomicOutside (s : State) (t pa op w v cmp : Nat) : State :=
  let n := peerSize op w
  let f := s.free
  match f.2.atomicHome t pa n (f.1 % 2 == 1) (fun o => newValue (peerAtomic op w) (8 * n) w o (v % 2 ^ (8 * n)) (cmp % 2 ^ (8 * n))) with
  | (s, some o) => s.answer 2 (some (bytesOfNat 8 o))
  | (s, none) => (s.blockError none t pa 0).answer 2 none

/-- ADCAS or AMOVE of a peer on two operands of this module, as one step (R179): `d` holds the second address and then the slot. -/
def State.pairOutside (s : State) (t pa n : Nat) (cas : Bool) (d : List Nat) : State :=
  let pb := nth d 0
  match s.tierOf pb with
  | none => s
  | some u =>
    match s.readHome t pa n, s.readHome u pb n with
    | (s1, some b1), (_, some b2) =>
      let s := (s1.readHome u pb n).1
      let m := 2 ^ (8 * n)
      let o1 := natOfBytes b1
      let o2 := natOfBytes b2
      let w := if cas then (if o1 = nth d 1 % m ∧ o2 = nth d 2 % m then some (nth d 3 % m, nth d 4 % m) else none) else some (nth d 1 % m, o1)
      let s := match w with
        | some w =>
          let f := s.free
          f.2.writeBoth ⟨t, pa, 0, f.1 % 2 == 1, 0⟩ ⟨u, pb, 0, f.1 / 2 % 2 == 1, 0⟩ (bytesOfNat n w.1) (bytesOfNat n w.2)
        | none => s
      s.answer 2 (some (bytesOfNat 8 o1 ++ bytesOfNat 8 o2))
    | (s1, none), _ => (s1.blockError none t pa 0).answer 2 none
    | (s1, some _), _ => ((s1.readHome u pb n).1.blockError none u pb 0).answer 2 none

/-- A WAITA of a peer (R34, R180): MISMATCH with the value, or armed. The arming cap is the waiter's module's. -/
def State.waitOutside (s : State) (t pa n module tag cmp : Nat) : State :=
  match s.readHome t pa n with
  | (s, some bs) =>
    if natOfBytes bs = cmp % 2 ^ (8 * n) then { s with monitors := s.monitors ++ [⟨t, pa, n, 256 + module, tag⟩] }
    else s.answer 2 (some (bytesOfNat 8 (natOfBytes bs)))
  | (s, none) => (s.blockError none t pa 0).answer 2 none

/-- Waiters of a line woken by a peer's WAKE (R181): the first `n` that armed, or all. -/
def State.wakeOutside (s : State) (t pa n : Nat) : State :=
  let ms := s.monitors.filter (fun m => m.tier == t && m.pa / 128 == pa / 128)
  let ms := if n = 0 then ms else ms.take n
  (ms.foldl State.wake s).answer 2 (some (bytesOfNat 8 ms.length))

/-- A peer's request performed (R34, R404): kinds 0 read; 1 write; 2 atomic (doubles: op7, w3, operand, compare); 3 ADCAS and 4 AMOVE (doubles:
the second address, then the slot), with `len` bytes each; 5 a WAITA (doubles: module, tag, compare), disarmed again by a WAITA of the
same module and tag; 6 WAKE (a double: the count); 7 a write in a peer's own memory, at a fabric address, of which this module's waiters
are told. -/
def State.inbound (s : State) (kind : Fin 8) (pa len : Nat) (data : List Byte) : State :=
  let d := words8 (data.length / 8) data
  if kind = 7 then (if pa / 2 ^ 42 = s.moduleNum.toNat then s else s.writeOutside 3 pa data)
  else
    match s.tierOf pa with
    | none => s
    | some t =>
      if s.tierHolds t pa (max len data.length) = false then s
      else
        match kind with
        | 0 => s.readOutside 2 t pa len
        | 1 => (s.writeOutside t pa data).maySpoil data
        | 2 => if nth d 0 < 0x10 ∨ 0x1B < nth d 0 ∨ pa % peerSize (nth d 0) (nth d 1) ≠ 0 then s
            else s.atomicOutside t pa (nth d 0) (nth d 1) (nth d 2) (nth d 3)
        | 3 => if len = 0 ∨ pa % len ≠ 0 ∨ 128 % len ≠ 0 ∨ nth d 0 % len ≠ 0 then s else s.pairOutside t pa len true d
        | 4 => if len = 0 ∨ pa % len ≠ 0 ∨ 128 % len ≠ 0 ∨ nth d 0 % len ≠ 0 then s else s.pairOutside t pa len false d
        | 5 =>
          let mine := fun (m : Monitor) => m.core == 256 + nth d 0 && m.cmd == nth d 1
          if s.monitors.any mine then { s with monitors := s.monitors.filter (fun m => !mine m) }
            else if len = 0 ∨ pa % len ≠ 0 ∨ 128 % len ≠ 0 then s else s.waitOutside t pa len (nth d 0) (nth d 1) (nth d 2)
        | 6 => s.wakeOutside t pa (nth d 0)
        | 7 => s

/-- PHIOK_INBOUND_REQUEST (R34, R404, R499): a request under a tag, which stands above bit 55 of `addr`. It is performed once: under a tag that has
been answered it gets the first response again (DESIGN CHOICE, log 119). -/
def execPhiokInboundRequest (kind : Fin 8) (addr len : Nat) (data : List (BitVec 8)) (s : State) : Out :=
  let tag := addr / 2 ^ 56
  match s.answered.find? (fun x => x.1 == tag) with
  | some x => .next { s with replies := s.replies ++ x.2 }
  | none =>
    let t := s.inbound kind (addr % 2 ^ 56) len data
    .next { t with answered := t.answered ++ [(tag, t.replies.drop s.replies.length)] }

/-! ### Bring-up, reset, trip, heartbeat (R415, R419-R421, R506) -/

/-- The first `n` stages of the boot, each digest extended into its register before the stage runs (R415): which digests, is a free value (DESIGN
CHOICE, log 41). -/
def State.measureBoot (s : State) (n : Nat) : State :=
  (List.range n).foldl
    (fun (s : State) k =>
      let f := s.free
      f.2.extendMeasure k (f.1 % 2 ^ 256)) s

/-- An island as bring-up leaves it (R36, R90, R412): ISL_BASE is measured, and BALLAST_EQ set no higher than 8: free values. -/
def State.bootCluster (s : State) (cl : Nat) : State :=
  let f := s.free
  let g := f.2.free
  g.2.updCluster cl (fun k =>
    { k with island := (if bit s.pres.clusters cl then .inService else .off),
             csr := { k.csr with islBase := BitVec.ofNat 8 (f.1 % 37), ballastEq := BitVec.ofNat 8 (g.1 % 9) } })

/-- CAPM of the cores on which classes have been fenced (R441). -/
def State.bootFences (s : State) : State :=
  s.fenced.foldl (fun s p => s.updCore p.1 (fun c => { c with csr := { c.csr with capm := c.csr.capm &&& ~~~(BitVec.ofNat 64 p.2) } })) s

/-- Cores of the present clusters. -/
def coresOfClusters (clusters : Nat) : Nat := ((List.range 32).map (fun cl => if bit clusters cl then 255 * 256 ^ cl else 0)).sum

/-- POWER_GOOD (R419): the bring-up, with what the tests found present (`links`: the LPDDR channels, then the Phiok ports from bit 32 up). The
known-answer tests of the cores run (step 4) before anything from outside is met (step 6). With `boot` false a stage failed to verify: those before
it, a free number, have run; the module stays in reset, and its record is readable over I3C only (R415; DESIGN CHOICE, log 41). -/
def execPowerGood (cores clusters hbm links : Nat) (boot : Bool) (s : State) : Out :=
  if s.power ≠ .inReset then .next s
  else if boot = false then
    let n := s.free
    let f := (n.2.measureBoot (n.1 % 8)).free
    let r : Record := { code := 0xC01, cls := 12, sev := 0, ctx := none, tick := s.tick, rtick := s.rtick, unit := 9, unitNo := 0, sub := 0,
                        addr := 0, detail := f.1, detail2 := 0, seq := 0, lost := 0 }
    .next { f.2 with power := .bootFailed, log := { f.2.log with trips := f.2.log.trips ++ [r] } }
  else
    let f := (s.measureBoot 8).free
    let s := { f.2 with power := .up, cxlUp := true, cxlSecure := true, moduleNum := BitVec.ofNat 14 f.1,
                        pres := { s.pres with cores := cores &&& s.pres.cores &&& coresOfClusters clusters, clusters := clusters &&& s.pres.clusters,
                                              hbm := hbm &&& s.pres.hbm, lpddr := links % 2 ^ 32 &&& s.pres.lpddr,
                                              phiok := links / 2 ^ 32 &&& s.pres.phiok } }
    let s := ((List.range 32).foldl State.bootCluster s).bootFences
    .next (((List.range 256).filter (bit s.pres.cores)).foldl State.pushKat s)

/-- The state after module reset: registers at their reset values; what the security engine keeps, and what lies outside, stays
(R36, R416, R417, R421, R441) (DESIGN CHOICE, log 65). -/
def State.afterReset (s : State) : State :=
  { State.reset with inputs := s.inputs, freeCtr := s.freeCtr, log := { State.reset.log with trips := s.log.trips }, pres := s.pres,
                     stepping := s.stepping, moduleNum := s.moduleNum, idSigs := s.idSigs, fenced := s.fenced, host := s.host, peer := s.peer,
                     nodes := s.nodes }

/-- MODULE_RESET (R421). -/
def execModuleReset (s : State) : Out := .next s.afterReset

/-- THERMAL_TRIP (R420): a sensor above 125 °C removes the module's power, whatever the firmware does. -/
def execThermalTrip (sensor : Nat) (s : State) : Out :=
  .next { s.event 0x704 5 none 9 0 0 0 sensor 0 with power := .tripped }

/-- HEARTBEAT (R506): a flit on every up port, held and restoring too. -/
def execHeartbeat (s : State) : Out :=
  .next (if s.power = .up then { s with beats := s.beats + ((List.range 18).filter s.portUp).length } else s)

end Sys2Proof.Machine
end

