-- ==== Sys2Proof/Machine/Host.lean ====
section
/-! DEFINITION. The commands of the mailbox (R402, R403), energy limits (R412), attestation, keys and weight sets (R414-R418), and
checkpoints (R409-R411, R504, R507). -/

namespace Sys2Proof.Machine

/-! ### The mailbox (R402, R403) -/

/-- The mailbox is reached: the module is up and the link carries CXL.io (DESIGN CHOICE, log 64). -/
def State.mailboxUp (s : State) : Bool := decide (s.power = .up) && s.cxlUp

/-- A command: its effect where its input keeps its layout and names a context that the caller has rights to, else Invalid Input and no
effect. The spec states no rights beyond a context's being in use (DESIGN CHOICE, log 64). -/
def State.mailbox (s : State) (opcode : Nat) (ok : Bool) (run : State → State) : Out :=
  if !s.mailboxUp then .next s else if ok then .next (run s) else .next (s.reply opcode 2 [])

/-- The doubles of an input. -/
def doubles (inp : List (BitVec 64)) : List Nat := inp.map (fun x => x.toNat)

/-- Output doubles. -/
def outBytes (l : List Nat) : List Byte := l.flatMap (bytesOfNat 8)

/-- A context ID in use. -/
def State.inUse (s : State) (ctx : Nat) : Bool := (tfind s.contexts ctx).isSome

/-! ### BAR0 (R379, R398) -/

/-- A register of a queue's descriptor as the host reads it (R379). -/
def Queue.read (x : Queue) (reg : Nat) : Double :=
  BitVec.ofNat 64 (match reg with
    | 0 => x.base
    | 1 => x.log2 + x.prio * 2 ^ 5 + x.fetcher * 2 ^ 8 + x.ctx * 2 ^ 12 + (if x.en then 2 ^ 24 else 0) + x.state * 2 ^ 25
    | 2 => x.kick
    | _ => x.rptr)

/-- The double at an offset of BAR0 (R398): the queue table; `none` for the mailbox's, the MSI-X and the KICKq regions, what whose reads
give CXL and PCI Express say and this spec does not (DESIGN CHOICE, log 64); every other offset reads 0. -/
def State.bar0 (s : State) (off : Nat) : Option Double :=
  if off < 32 * 1024 then some ((s.queue (off / 32)).read (off / 8 % 4))
  else if (0x200000 ≤ off ∧ off < 0x202000) ∨ (0x300000 ≤ off ∧ off < 0x384400) then none
  else some 0

/-! ### The sideband (R413, R421) -/

/-- What the I3C sideband reads, whether or not the host link is up: identity, temperatures, power and energy, presence, and the boot and trip
records. -/
structure Sideband where
  devId : Option Double
  moduleNum : BitVec 14
  temps : List Int
  power : Double
  energy : Double
  pres : Presence
  trips : List Record
  deriving DecidableEq, Repr

/-- The report of the sideband. -/
def State.sideband (s : State) : Sideband :=
  { devId := s.csr 0 (s.core 0) 0x802, moduleNum := s.moduleNum, temps := (List.range 32).map (fun cl => (s.cluster cl).temp), power := s.power1ms,
    energy := s.energy, pres := s.pres, trips := s.log.trips }

/-! ### Contexts -/

/-- CTX_CREATE keeps its layout. -/
def State.createOk (s : State) (d : List Nat) : Bool :=
  let st := bits (nth d 2) 15 0
  let qu := bits (nth d 2) 36 16
  decide (4 ≤ d.length) && decide (nth d 0 < 4096) && !s.inUse (nth d 0) && nth d 1 % 64 == 0 && (s.tierOf (nth d 1)).isSome
    && decide (nth d 2 < 2 ^ 37) && decide (256 ≤ st) && decide (1024 ≤ qu) && decide (qu ≤ 1048576) && decide (nth d 3 < 16)

/-- CTX_CREATE (R130, R403). -/
def execCtxCreate (inp : List (BitVec 64)) (s : State) : Out :=
  let d := doubles inp
  s.mailbox 0xC000 (s.createOk d) (fun s =>
    { s with contexts := tset s.contexts (nth d 0) ⟨nth d 1, bits (nth d 2) 15 0, bits (nth d 2) 36 16, nth d 3⟩ }.reply 0xC000 0 [])

/-- Units of a context that have not finished. -/
def State.openUnits (s : State) (ctx : Nat) : List (Nat × UnitRec) := s.units.filter (fun p => p.2.ctx == ctx && p.2.open')

/-- A context has no work left: no launch in flight, and no team. A job that no packet has closed holds nothing up. -/
def State.idleContext (s : State) (ctx : Nat) : Bool :=
  !(s.openUnits ctx).any (fun p => p.2.kind == 0) && !s.teams.any (fun p => p.2.ctx == ctx)

/-- Every job of a context is cancelled (R50). -/
def State.cancelContext (s : State) (ctx : Nat) : State :=
  (((s.openUnits ctx).filter (fun p => p.2.kind == 3)).map Prod.fst).foldl State.cancelUnit s

/-- A CTX_DESTROY whose cancel has completed frees its ID; its units leave the tables. -/
def State.freeContext (s : State) (w : Waiting) : State :=
  if s.idleContext w.arg then
    { s with contexts := tdel s.contexts w.arg, mbWait := s.mbWait.filter (fun x => x ≠ w), units := s.units.filter (fun p => p.2.ctx ≠ w.arg),
             past := s.past.filter (fun p => p.2.1 ≠ w.arg),
             queues := tmap (fun _ (q : Queue) => if q.ctx = w.arg then { q with job := none, phase := none, graph := none } else q) s.queues }.reply 0xC001 0 []
  else s

/-- CTX_DESTROY (R50, R403) (DEDUCED, log 76). -/
def execCtxDestroy (inp : List (BitVec 64)) (s : State) : Out :=
  let d := doubles inp
  s.mailbox 0xC001 (decide (1 ≤ d.length) && s.inUse (nth d 0)) (fun s =>
    let w : Waiting := ⟨0xC001, nth d 0, []⟩
    ({ s with mbWait := s.mbWait ++ [w] }.cancelContext (nth d 0)).freeContext w)

/-! ### Translation and memory -/

/-- MB_INVTLB (R139, R403): it returns when it completes. -/
def execMbInvtlb (inp : List (BitVec 64)) (s : State) : Out :=
  let d := doubles inp
  let w := nth d 0
  let scope := bits w 1 0
  s.mailbox 0xC002 (decide (3 ≤ d.length) && decide (scope < 3) && w == scope + bits w 23 12 * 4096 && (scope == 0 || s.inUse (bits w 23 12))) (fun s =>
    s.issueInv scope (bits w 23 12) (nth d 1) (nth d 2) true)

/-- The effect of MIGRATE: the range and its pages are checked as CMIGR's are (R330). -/
def State.mbMigrate (s : State) (d : List Nat) : State :=
  let ctx := nth d 0
  if !rangeOk (nth d 1) (nth d 2) then s.reply 0xC003 0 (outBytes [0, stRange])
  else
    let pages := s.rangePages ctx (nth d 1) (nth d 2)
    if pages.all (s.mayMigrate ctx) then s.startMigration ctx pages (nth d 3) none (nth d 4)
    else s.reply 0xC003 0 (outBytes [0, stProtection])

/-- MIGRATE (R150, R403). -/
def execMigrate (inp : List (BitVec 64)) (s : State) : Out :=
  let d := doubles inp
  s.mailbox 0xC003 (decide (5 ≤ d.length) && s.inUse (nth d 0) && decide (nth d 3 < 2)) (fun s => s.mbMigrate d)

/-- HASH_SET (R148, R403). -/
def execHashSet (inp : List (BitVec 64)) (s : State) : Out :=
  let d := doubles inp
  let w := nth d 0
  let tier := bits w 0 0
  let dom := bits w 29 16
  let code := bits w 33 32
  s.mailbox 0xC004 (decide (1 ≤ d.length) && w == tier + dom * 2 ^ 16 + code * 2 ^ 32 && (tier == 1 || decide (dom < 512))) (fun s =>
    let k := domainKey tier dom
    { s with hash := if code = 1 then tdel s.hash k else tset s.hash k code }.reply 0xC004 0 [])

/-! ### Energy (R412) -/

/-- Shares of a budget of `num`/`den` EQ among islands by weight, those that would fall below their base taking it first: island, weight
and base in; island and limit out. -/
def shareEnergy (den : Nat) : Nat → Nat → List (Nat × Nat × Nat) → List (Nat × Nat)
  | 0, _, l => l.map (fun x => (x.1, x.2.2))
  | k + 1, num, l =>
    let w := (l.map (fun x => x.2.1)).sum
    let share := fun (x : Nat × Nat × Nat) => num * x.2.1 / (den * max w 1)
    let low := l.filter (fun x => decide (share x < x.2.2))
    if low.isEmpty then l.map (fun x => (x.1, max x.2.2 (min 44 (share x))))
    else low.map (fun x => (x.1, x.2.2))
      ++ shareEnergy den k (num - den * (low.map (fun x => x.2.2)).sum) (l.filter (fun x => !decide (share x < x.2.2)))

/-- Weight of an island in a POWER_SET. -/
def weightIn (d : List Nat) (i : Nat) : Nat := nth d (1 + i / 8) / 256 ^ (i % 8) % 256

/-- Limits that a POWER_SET gives, by island; `none` where the budget does not reach every island's base. One EQ is 275/128 W. -/
def State.newLimits (s : State) (d : List Nat) : Option (List (Nat × Nat)) :=
  let isl := (List.range 32).filter (bit s.pres.clusters)
  let base := fun (i : Nat) => (s.cluster i).csr.islBase.toNat
  let budget := (nth d 0 - 725) * 128
  if nth d 0 < 725 ∨ budget < 275 * (isl.map base).sum then none
  else
    let rest := isl.filter (fun i => decide (weightIn d i ≠ 0))
    let fixed := isl.filter (fun i => decide (weightIn d i = 0))
    some (fixed.map (fun i => (i, base i))
      ++ shareEnergy 275 33 (budget - 275 * (fixed.map base).sum) (rest.map (fun i => (i, weightIn d i, base i))))

/-- Limits set. -/
def State.setLimits (s : State) (watts : Nat) (l : List (Nat × Nat)) : State :=
  let s := l.foldl (fun s p => s.updCluster p.1 (fun k => { k with csr := { k.csr with islLimit := BitVec.ofNat 8 p.2 } })) s
  { s with modLimit := watts }.reply 0xC005 0 ((List.range 32).map (fun i => (s.cluster i).csr.islLimit))

/-- POWER_SET (R412) (DEDUCED, log 66). -/
def execPowerSet (inp : List (BitVec 64)) (s : State) : Out :=
  let d := doubles inp
  let l := s.newLimits d
  s.mailbox 0xC005 (decide (5 ≤ d.length) && decide (nth d 0 ≤ 3200) && l.isSome) (fun s => s.setLimits (nth d 0) (l.getD []))

/-! ### Trust (R414, R416-R418) -/

/-- KEY_INSTALL (R417). -/
def execKeyInstall (inp : List (BitVec 64)) (s : State) : Out :=
  let d := doubles inp
  let l := nth d 1
  let bs := outBytes (d.drop 2)
  let key := bs.take l
  s.mailbox 0xC008 (decide (2 ≤ d.length) && decide (nth d 0 < 16) && decide (l < 65536) && decide (l ≤ bs.length) && hssKeyOk key
      && ((bs.drop l).take ((8 - l % 8) % 8)).all (fun b => b == 0) && (tfind s.keys (nth d 0)).isNone) (fun s =>
    { s with keys := tset s.keys (nth d 0) key }.reply 0xC008 0 [])

/-- What ATTEST signs, after the nonce's place: measurements, identity, presence and CAPM (R403). -/
def State.attested (s : State) : List Byte :=
  s.measure.flatMap (bytesOfNat 32) ++ bytesOfNat 8 (0x0840 + s.stepping.toNat * 65536) ++ bytesOfNat 32 s.pres.cores
    ++ bytesOfNat 8 s.pres.clusters ++ bytesOfNat 32 s.pres.hbm ++ bytesOfNat 8 s.pres.lpddr ++ bytesOfNat 8 s.pres.phiok
    ++ (List.range 256).flatMap (fun n => bytesOfNat 8 (s.core n).csr.capm.toNat)

/-- The effect of ATTEST: no one-time key signs twice, and 2^40 signatures are all (R416). -/
def State.attest (s : State) (d : List Nat) : State :=
  if 2 ^ 40 ≤ s.idSigs then s.reply 0xC00A 3 []
  else
    let body := s.attested ++ outBytes (d.take 4)
    let sig := Config.sign (bytesOfNat 8 s.idSigs ++ body)
    { s with idSigs := s.idSigs + 1 }.reply 0xC00A 0 (body ++ bytesOfNat 8 sig.length ++ sig)

/-- ATTEST (R416). -/
def execAttest (inp : List (BitVec 64)) (s : State) : Out :=
  let d := doubles inp
  s.mailbox 0xC00A (decide (4 ≤ d.length)) (fun s => s.attest d)

/-- One level of the hash tree: a node with no right sibling is carried up (R418). -/
def hashLevel : List Nat → List Nat
  | a :: b :: rest => natOfBytes (sha256 (bytesOfNat 32 a ++ bytesOfNat 32 b)) :: hashLevel rest
  | l => l

/-- The root of a hash tree. -/
def treeRoot : Nat → List Nat → Nat
  | 0, l => l.headD 0
  | k + 1, l => if l.length ≤ 1 then l.headD 0 else treeRoot k (hashLevel l)

/-- Leaf entries of the pages of a set, once each, or the first page that has none. -/
def State.setEntries (s : State) (ctx base pages : Nat) : Except Nat (List (Nat × Nat × Nat)) :=
  (List.range pages).foldl
    (fun (r : Except Nat (List (Nat × Nat × Nat))) k =>
      match r with
      | .error v => .error v
      | .ok l =>
        let va := base + 65536 * k
        match s.entryAt ctx va with
        | some (pa, e) =>
          if bit e 0 = false then .error va
          else
            let first := va / leafSize e * leafSize e
            .ok (if l.any (fun x => x.1 == first) then l else l ++ [(first, pa, e)])
        | none => .error va)
    (.ok [])

/-- A set whose signature and leaf table verify: its entries are held at V = 0 while its pages are hashed (R418). -/
def State.holdSet (s : State) (ctx base : Nat) (leaves : List Nat) (l : List (Nat × Nat × Nat)) : State :=
  let s := l.foldl (fun s x => s.writeEntries x.2.1 x.2.2 (x.2.2 - 1)) s
  let s := s.dropCached ⟨0, 2, ctx, base, 65536 * leaves.length, false⟩
  { s with wsets := s.wsets ++ [⟨s.nextOp, ctx, base, leaves, l⟩], nextOp := s.nextOp + 1 }

/-- WSET_REGISTER as far as it goes now: true when it waits for a page or the link (DEDUCED, log 68). -/
def State.registerSet (s : State) (d : List Nat) : State × Bool :=
  let ctx := nth d 0
  let slot := nth d 3
  let root := outBytes ((d.drop 4).take 4)
  match s.frontRead ctx (nth d 8) (nth d 9) with
  | (s, .error (.fail _)) => (s.reply 0xC009 2 [], false)
  | (s, .error _) => (s, true)
  | (s, .ok sig) =>
    match s.frontRead ctx (nth d 10) (32 * nth d 2) with
    | (s, .error (.fail _)) => (s.reply 0xC009 2 [], false)
    | (s, .error _) => (s, true)
    | (s, .ok table) =>
      let leaves := (List.range (nth d 2)).map (fun k => num table (32 * k) 32)
      let good := match tfind s.keys slot with
        | some k => hssVerify k root sig
        | none => false
      if !(good && treeRoot 25 leaves == natOfBytes root) then
        ((s.event 0xC01 0 (some ctx) 9 0 0 0 slot 0).reply 0xC009 0 (outBytes [1, 0]), false)
      else
        match s.setEntries ctx (nth d 1) (nth d 2) with
        | .error va => (s.noteFault ctx va, true)
        | .ok l => (s.holdSet ctx (nth d 1) leaves l, false)

/-- WSET_REGISTER (R418). -/
def execWsetRegister (inp : List (BitVec 64)) (s : State) : Out :=
  let d := doubles inp
  s.mailbox 0xC009 (decide (11 ≤ d.length) && s.inUse (nth d 0) && nth d 1 % 65536 == 0 && decide (1 ≤ nth d 2) && decide (nth d 2 ≤ 16777216)
      && decide (nth d 3 < 16)) (fun s =>
    match s.registerSet d with
    | (s, true) => { s with mbWait := s.mbWait ++ [(⟨0xC009, 0, inp⟩ : Waiting)] }
    | (s, false) => s)

/-- The bytes of a page of a set, by the entries as they stood; `none` where a block is poisoned. -/
def State.setPage (s : State) (w : WeightSet) (k : Nat) : State × Option (List Byte) :=
  let va := w.base + 65536 * k
  match w.entries.find? (fun x => decide (x.1 ≤ va) && decide (va < x.1 + leafSize x.2.2)) with
  | some x => s.readRange (leafTier x.2.2) (leafPa x.2.2 va) 65536
  | none => (s, none)

/-- The first page of a set whose hash is not its leaf. -/
def State.firstMismatch (s : State) (w : WeightSet) : State × Option Nat :=
  (List.range w.leaves.length).foldl
    (fun (r : State × Option Nat) k =>
      match r.2 with
      | some _ => r
      | none =>
        match r.1.setPage w k with
        | (s, some bs) => (s, if natOfBytes (sha256 bs) = nth w.leaves k then none else some k)
        | (s, none) => (s, some k))
    (s, none)

/-- A leaf entry without W. -/
def readOnly (e : Nat) : Nat := if bit e 2 then e - 4 else e

/-- WEIGHT_SET_VERIFIED (R418): the entries are written valid with W = 0 when every page matches its leaf; else none is. -/
def execWeightSetVerified (id : Nat) (s : State) : Out :=
  match s.wsets.find? (fun w => w.id == id) with
  | none => .next s
  | some w =>
    match ({ s with wsets := s.wsets.filter (fun x => x.id ≠ id) }).firstMismatch w with
    | (s, some k) => .next ((s.event 0xC02 0 (some w.ctx) 9 0 0 0 k 0).reply 0xC009 0 (outBytes [2, k]))
    | (s, none) =>
      let s := w.entries.foldl (fun s x => s.writeEntries x.2.1 x.2.2 (readOnly x.2.2)) s
      .next ((s.retryRange w.ctx w.base (65536 * w.leaves.length)).retryFront.reply 0xC009 0 (outBytes [0, 0]))

/-! ### Windows (R405) -/

/-- Module numbers of a WINDOW_OPEN, in order of rank. -/
def windowGroup (d : List Nat) : List Nat := (List.range (nth d 4)).map (fun k => nth d (5 + k / 4) / 65536 ^ (k % 4) % 65536)

/-- A range of fabric addresses in one tier of this module. -/
def State.ownRange (s : State) (a n : Nat) : Bool :=
  match s.ownPlace a with
  | some (t, pa) => s.tierHolds t pa n
  | none => false

/-- WINDOW_OPEN keeps its layout. -/
def State.windowOk (s : State) (d : List Nat) : Bool :=
  let n := nth d 4
  let size := nth d 1
  decide (5 ≤ d.length) && decide (1 ≤ n) && decide (n ≤ 1024) && decide (5 + (n + 3) / 4 ≤ d.length) && nth d 0 % 4096 == 0 && size % 4096 == 0
    && decide (0 < size) && decide (size ≤ 2 ^ 30) && decide (100 ≤ nth d 2) && decide (nth d 2 ≤ 100000) && nth d 3 % 256 == 0
    && s.ownRange (nth d 0) size && s.ownRange (nth d 3) (256 * (size / 4096)) && (windowGroup d).all (fun m => decide (m < 16384))
    && (n % 4 == 0 || nth d (5 + n / 4) / 65536 ^ (n % 4) == 0) && decide (s.windows.length < 16)

/-- WINDOW_OPEN (R405). The handle that it gives is the lowest that is free (DESIGN CHOICE, log 113). -/
def execWindowOpen (inp : List (BitVec 64)) (s : State) : Out :=
  let d := doubles inp
  let h := ((List.range 16).find? (fun h => (tfind s.windows h).isNone)).getD 0
  s.mailbox 0xC00B (s.windowOk d) (fun s =>
    { s with windows := tset s.windows h ⟨h, nth d 0, nth d 1, nth d 2, nth d 3, windowGroup d, []⟩ }.reply 0xC00B 0 (outBytes [h]))

/-- Open rounds of a window discarded, each with its record (R403, R407). -/
def State.breakRounds (s : State) (h : Nat) (w : Window) : State :=
  w.segments.foldl (fun s p => match p.2.current with | some r => s.breakRound h p.1 w r | none => s) s

/-- WINDOW_CLOSE (R403). -/
def execWindowClose (inp : List (BitVec 64)) (s : State) : Out :=
  let d := doubles inp
  let h := nth d 0
  s.mailbox 0xC00C (decide (1 ≤ d.length) && (tfind s.windows h).isSome) (fun s =>
    let s := match tfind s.windows h with
      | some w => s.breakRounds h w
      | none => s
    { s with windows := tdel s.windows h }.reply 0xC00C 0 [])

/-! ### Retirement and records -/

/-- A unit that RETIRE may name is present (R36). -/
def State.unitPresent (s : State) (unit no : Nat) : Bool :=
  if unit = 0 then bit s.pres.cores no && decide (no < 256)
  else if unit = 3 then bit s.pres.clusters no && decide (no < 32)
  else if unit = 4 then bit s.pres.hbm no && decide (no < 256)
  else if unit = 5 then bit s.pres.lpddr no && decide (no < 32)
  else unit == 7 && bit s.pres.phiok no && decide (no < 18)

/-- Teams that stand on a core or in a cluster give up their places (R39). -/
def State.clearUnit (s : State) (unit no : Nat) : State :=
  if unit = 3 then (s.teamsIn no).foldl State.giveUp s
  else if unit = 0 then
    (s.teams.filter (fun p => p.2.members.any (fun m => !m.exited && m.core == no && (p.2.state.waitsHere || s.holdsCore p.1 m)))).foldl State.giveUp s
  else s

/-- MB_RETIRE (R39): it returns when the retirement has taken effect (DEDUCED, log 58). -/
def execMbRetire (inp : List (BitVec 64)) (s : State) : Out :=
  let d := doubles inp
  let w := nth d 0
  let unit := bits w 3 0
  let no := bits w 31 16
  s.mailbox 0xC00D (decide (1 ≤ d.length) && w == unit + no * 65536 && s.unitPresent unit no) (fun s =>
    let s := { s with mbWait := s.mbWait ++ [(⟨0xC00D, unit + no * 65536, []⟩ : Waiting)] }
    let s := if unit = 0 then { s with retireDue := s.retireDue ++ [no] } else { s with unitDue := s.unitDue ++ [(unit, no)] }
    (s.clearUnit unit no).retireAll)

/-- The 64 bytes of a record (R428). -/
def Record.bytes (r : Record) : List Byte :=
  outBytes [r.code % 65536 + r.cls % 16 * 2 ^ 16 + r.sev % 8 * 2 ^ 20 + (match r.ctx with | some c => 2 ^ 23 + c % 4096 * 2 ^ 24 | none => 0) + r.lost % 65536 * 2 ^ 48,
    r.tick, r.rtick, r.unit % 16 + r.unitNo % 65536 * 2 ^ 16 + r.sub % 65536 * 2 ^ 32, r.addr, r.detail, r.detail2, r.seq]

/-- EVENT_READ (R403, R429): the oldest records are returned and removed. -/
def execEventRead (inp : List (BitVec 64)) (s : State) : Out :=
  let d := doubles inp
  let n := nth d 0
  s.mailbox 0xC00E (decide (1 ≤ d.length) && decide (1 ≤ n) && decide (n ≤ 4096)) (fun s =>
    let out := s.log.records.take n
    { s with log := { s.log with records := s.log.records.drop n } }.reply 0xC00E 0 (outBytes [out.length] ++ out.flatMap Record.bytes))

/-! ### Checkpoints (R409-R411, R504, R507) -/

/-- Context IDs of a CKPT. -/
def ckptContexts (d : List Nat) : List Nat := (List.range (nth d 2)).map (fun k => nth d (3 + k / 4) / 65536 ^ (k % 4) % 65536)

/-- CKPT keeps its layout (R504). -/
def State.ckptOk (s : State) (d : List Nat) : Bool :=
  let n := nth d 2
  decide (3 ≤ d.length) && nth d 0 % 4096 == 0 && decide (nth d 0 < 2 ^ 56) && decide (nth d 1 < 2) && decide (1 ≤ n) && decide (n ≤ 4096)
    && decide (3 + (n + 3) / 4 ≤ d.length) && (ckptContexts d).all (fun c => decide (c < 4096) && s.inUse c)
    && (n % 4 == 0 || nth d (3 + n / 4) / 65536 ^ (n % 4) == 0) && s.ckpt.isNone && s.restoring.isNone
    && (match s.hold with | some h => nth d 1 == 1 || h.1 == nth d 0 | none => true)

/-- A team of the context set is pre-empted and swapped, or is placed again later (R409 step 2). -/
def State.restTeam (s : State) (p : Nat × Team) : State :=
  match p.2.state with
  | .running => s.push (.preempt p.1)
  | .restoring => s.updTeam p.1 (fun t => { t with asked := true })
  | _ => if p.2.state.waitsHere then s.giveUp p else s

/-- Steps 1 to 3 are done: every team of the set is swapped or has not begun, and no round is open. -/
def State.atRest (s : State) (ctxs : List Nat) : Bool :=
  s.teams.all (fun p => !ctxs.contains p.2.ctx || decide (p.2.state = .swapped) || decide (p.2.state = .ready) || decide (p.2.state = .over))
    && s.windows.all (fun w => w.2.segments.all (fun g => g.2.current.isNone))

/-- A CKPT with HOLD returns once its steps are done, and leaves the module held (R504). -/
def State.settleHold (s : State) : State :=
  match s.ckpt with
  | some (a, cs, true) => if s.atRest cs then { s with ckpt := none, hold := some (a, cs) }.reply 0xC006 0 [] else s
  | _ => s

/-- CKPT (R409, R504) (DEDUCED, log 69). -/
def execCkpt (inp : List (BitVec 64)) (s : State) : Out :=
  let d := doubles inp
  s.mailbox 0xC006 (s.ckptOk d) (fun s =>
    let cs := match s.hold with
      | some h => if nth d 1 = 0 then h.2 else ckptContexts d
      | none => ckptContexts d
    let s := { s with ckpt := some (nth d 0, cs, nth d 1 == 1) }
    ((s.teams.filter (fun p => cs.contains p.2.ctx)).foldl State.restTeam s).settleHold)

/-- Words that the host wrote meanwhile, each in its new value or its old one: a free value (R410). -/
def State.oldWords (s : State) : State :=
  s.late.reverse.foldl
    (fun s w =>
      let f := s.free
      match f.2.tierOf w.1 with
      | some t => if f.1 % 2 = 1 then f.2 else (f.2.writePlain t w.1 w.2).1
      | none => f.2) s

/-- A queue as a checkpoint holds it (R67, R409): monitors are disarmed. -/
def Queue.kept (x : Queue) : Queue := { x with kickAt := none, waitAt := none, booking := none, slot := false }

/-- A team as a checkpoint holds it: its bookings and handles are forfeited (R67). -/
def Team.kept (t : Team) : Team :=
  { t with booked := none, members := t.members.map (fun m =>
      { m with saved := m.saved.map (fun v => { v with core := { v.core with handles := [], tlb := [] } }) }) }

/-- What CKPT writes to the node: its bytes, in a layout that the spec does not give, and their digest (DESIGN CHOICE, log 48). -/
def State.snapshot (s : State) (cs : List Nat) (bytes : List Byte) : Snapshot :=
  let mine := fun (t : Team) => cs.contains t.ctx
  { ctxs := cs, dev := s.oldWords.dev, hash := s.hash, contexts := s.contexts.filter (fun p => cs.contains p.1),
    queues := (s.queues.filter (fun p => cs.contains p.2.ctx)).map (fun p => (p.1, p.2.kept)),
    units := s.units.filter (fun p => cs.contains p.2.ctx),
    insts := s.insts.filter (fun p => (s.teamsOf p.1).any (fun t => mine t.2)),
    teams := (s.teams.filter (fun p => mine p.2)).map (fun p => (p.1, p.2.kept)), pres := s.pres, nextOp := s.nextOp,
    recWrites := s.recWrites.filter (fun w => cs.contains w.ctx), past := s.past.filter (fun p => cs.contains p.2.1), bytes := bytes, digest := sha256 bytes }

/-- CHECKPOINT_COMPLETE (R409): steps 4 to 6 are done. No window survives it (R503). -/
def execCheckpointComplete (s : State) : Out :=
  match s.ckpt with
  | some (a, cs, false) =>
    if s.atRest cs then
      let f := s.free
      let s := f.2
      let n := s.oldWords.freeCtr
      .next ({ s with nodes := tset s.nodes a (s.snapshot cs (Config.saveArea f.1)), ckpt := none, hold := none, late := [], windows := [], freeCtr := n }.countStream false |>.reply 0xC006 0 [])
    else .next s
  | _ => .next s

/-- The memories of a checkpoint are in canonical form (DESIGN CHOICE, log 1). -/
def Snapshot.wf (v : Snapshot) : Bool :=
  memWf v.dev.cells && v.teams.all (fun t => t.2.members.all (fun m => m.saved.all (fun x => memWf x.core.field.cells && memWf x.commons.cells)))

/-- A checkpoint of another module at an address of a fabric memory node, if there is one: a free value (R507; DESIGN CHOICE, log 48). -/
opaque foreignNode : Nat → Nat → Option Snapshot

/-- What stands at a checkpoint address that this module has not written itself: nothing, or the checkpoint of another module (R507), as a free value
decides (DESIGN CHOICE, log 48). -/
def State.meetNode (s : State) (a : Nat) : State :=
  if (tfind s.nodes a).isSome then s
  else
    let f := s.free
    match foreignNode a f.1 with
    | some v => if v.wf then { f.2 with nodes := tset f.2.nodes a v } else f.2
    | none => f.2

/-- What a node gives back for a checkpoint: whether it still holds the bytes that were written is a free value, and so is what it holds
otherwise (DESIGN CHOICE, log 48). -/
def State.readNode (s : State) (a : Nat) : State :=
  let f := s.meetNode a |>.free
  if f.1 % 2 = 1 then
    { f.2 with nodes := match tfind f.2.nodes a with
        | some v => tset f.2.nodes a { v with bytes := Config.saveArea (f.1 / 2) }
        | none => f.2.nodes }
  else f.2

/-- RESTORE finds its checkpoint under its digest, and its channels those that were present (R411). -/
def State.restorable (s : State) (a : Nat) : Bool :=
  match tfind s.nodes a with
  | some v => sha256 v.bytes == v.digest && v.pres.hbm == s.pres.hbm && v.pres.lpddr == s.pres.lpddr && s.ckpt.isNone && s.restoring.isNone
  | none => false

/-- The first step of RESTORE (R507): every unit of the contexts is cancelled, and EN of their queues is clear. -/
def State.clearFor (s : State) (a : Nat) : State :=
  match tfind s.nodes a with
  | none => s
  | some v =>
    let s := v.ctxs.foldl State.cancelContext s
    let qs := (s.queues.filter (fun p => v.ctxs.contains p.2.ctx && p.2.en)).map Prod.fst
    { qs.foldl State.disable s with hold := none, late := [], restoring := some a }

/-- RESTORE (R411, R507, R509). -/
def execRestore (inp : List (BitVec 64)) (s : State) : Out :=
  let d := doubles inp
  let r := if s.mailboxUp then s.readNode (nth d 0) else s
  r.mailbox 0xC007 (decide (1 ≤ d.length) && r.restorable (nth d 0)) (fun s => s.clearFor (nth d 0))

/-- A restored queue that is enabled watches its kick word again, and its packet is evaluated anew. -/
def State.rearm (s : State) (q : Nat) : State :=
  let x := s.queue q
  if !x.en || x.state == 5 then s
  else
    match s.frontPage x.ctx x.kick true false with
    | (s, .ok p) => (s.updQueue q (fun x => { x with kickAt := some (p.tier, p.pa), state := if x.state = 3 then 2 else x.state })).push (.doorbellNotify q)
    | (s, .error (.page va)) => s.parkQueue q (.page x.ctx va) 1 va false
    | (s, .error .link) => s.parkQueue q .link 1 x.kick false
    | (s, .error .busy) => s.updQueue q (fun x => { x with unread := true, state := 4, park := some .link, parkSince := s.tick })
    | (s, .error (.fail _)) => s.queueError q 7

/-- One table laid over another. -/
def overTable {α : Type} (t new : Tbl α) : Tbl α := new.foldl (fun t p => tset t p.1 p.2) t

/-- A checkpoint written back (R411): memories, of which the host then holds no line (R401), hash domains, contexts, queues and work; swapped teams wait
for a place from now on. Each counter record reads as at the checkpoint, wherever it lies (R508). -/
def State.restored (s : State) (v : Snapshot) : State :=
  let teams := v.teams.map (fun p => (p.1, { p.2 with since := s.tick }))
  let s := { s with dev := v.dev, hash := v.hash, contexts := overTable s.contexts v.contexts, queues := overTable s.queues v.queues,
                    units := overTable s.units v.units, insts := overTable s.insts v.insts, teams := overTable s.teams teams,
                    nextOp := max s.nextOp v.nextOp, windows := [], restoring := none, hostLines := [],
                    recWrites := s.recWrites.filter (fun (w : FrontWrite) => !v.ctxs.contains w.ctx) ++ v.recWrites,
                    past := (s.past.filter (fun (p : Nat × Nat × Nat) => !v.past.any (fun q => q.1 == p.1))) ++ v.past }
  let s := (s.countStream true).dropCached ⟨0, 0, 0, 0, 0, false⟩
  (v.queues.map Prod.fst).foldl State.rearm ((v.units.map Prod.fst).foldl State.writeRecord s)

/-- RESTORE_COMPLETE (R411): once the cancel has completed, everything is written back and RESTORE returns. -/
def execRestoreComplete (s : State) : Out :=
  match s.restoring.bind (tfind s.nodes) with
  | some v => if v.ctxs.all s.idleContext then .next ((s.restored v).reply 0xC007 0 []) else .next s
  | none => .next s

/-! ### Commands that wait -/

/-- One waiting command tried again. -/
def State.retryWaiting (s : State) (w : Waiting) : State :=
  if w.opcode = 0xC001 then s.freeContext w
  else if w.opcode = 0xC009 then
    match ({ s with mbWait := s.mbWait.filter (fun x => x ≠ w) }).registerSet (doubles w.input) with
    | (s, true) => { s with mbWait := s.mbWait ++ [w] }
    | (s, false) => s
  else s

/-- Teams of a checkpoint's contexts that have come back to their cores meanwhile are swapped out again. -/
def State.settleTeams (s : State) : State :=
  match s.ckpt with
  | some (_, cs, _) =>
    (s.teams.filter (fun p => cs.contains p.2.ctx && (decide (p.2.state = .staged) || decide (p.2.state = .held) || decide (p.2.state = .placed)))).foldl
      State.restTeam s
  | none => s

/-- Mailbox commands that wait are tried again. -/
def State.settleMailbox (s : State) : State := ((s.mbWait.foldl State.retryWaiting s).settleTeams).settleHold

end Sys2Proof.Machine
end

