-- ==== Sys2Proof/Machine/Matrix.lean ====
section
/-! DEFINITION. The matrix unit (R293-R307), the transposer (R308-R310), and the core's own events: a fallow bundle, a
matrix step that completes, results that land. -/

namespace Sys2Proof.Machine

/-! ### Operands of the M slot -/

/-- Entry `k` from rp of ring `q` as the bundle reads it. -/
def Core.entryOf (c : Core) (q : Fin 16) (k : Nat) : Vec := (c.ring q).dataAt (c.ring q).rp k

/-- Scale containers of row or column `t` of a scaled format, read from ring `qs` (R294): 64 containers of 16 bits. -/
def Core.scalesOf (c : Core) (qs : Fin 16) (fc t : Nat) : BitVec 1024 :=
  let l :=
    if fc == 6 then (List.range 64).map (fun b => el (c.entryOf qs (t / 2)).toNat 16 (64 * (t % 2) + b))
    else (List.range 8).map (fun b => el (c.entryOf qs 0).toNat 16 (8 * t + b))
  BitVec.ofNat 1024 (unel 16 l)

/-- Containers that a step of a scaled format writes per column (R301). -/
def scaleMask (fc : Nat) : BitVec 1024 := if fc == 6 then BitVec.allOnes 1024 else BitVec.ofNat 1024 (2 ^ 128 - 1)

/-- The working cycle in which an operation issued now on a tile takes effect: its stated time or the completion of every
earlier operation on the tile, whichever is later (R299) (DEDUCED, log 23). -/
def Core.joinTile (c : Core) (a : Fin 8) (lat : Nat) : Nat :=
  c.mat.tiles.foldl (fun m t => if t.acc = a then max m t.due else m) (c.seq.wc + lat)

/-- A tile operation put in flight. -/
def Core.flyTile (c : Core) (a : Fin 8) (lat : Nat) (op : TileOp) : Core :=
  { c with mat := { c.mat with tiles := c.mat.tiles ++ [⟨c.joinTile a lat, a, op⟩] } }

/-- Buffer `b` of the two (R293). -/
def Matrix.buf (m : Matrix) (b : Bool) : BBuf := if b then m.buf1 else m.buf0

def Matrix.setBuf (m : Matrix) (b : Bool) (x : BBuf) : Matrix := if b then { m with buf1 := x } else { m with buf0 := x }

/-! ### M operations -/

/-- Data row `8·rb + t` of a buffer written with an entry, and its scales where the format has them (R301). -/
def BBuf.load (x : BBuf) (fc rb t : Nat) (row : Vec) (sc : BitVec 1024) : BBuf :=
  let j := 8 * rb + t
  { rows := x.rows.setIfInBounds j row,
    scales := if matScaled fc then
        x.scales.setIfInBounds j ((x.scales.toList.getD j 0 &&& ~~~(scaleMask fc)) ||| (sc &&& scaleMask fc))
      else x.scales }

/-- The trap of a scale ring that is also the operand ring (R295). -/
def sameRing (fc : Nat) (qa qs : Fin 16) : Bool := matScaled fc && decide (qa = qs)

/-- MLDB (R301). -/
def execMldb (qa : Fin 16) (fs : Fin 8) (ft rb qs g : Fin 16) (s : State) : Out :=
  slotOp (.mldb qa fs ft rb qs g)
    (fun s =>
      let v := s.view
      let fc := v.selected fs.val ft.val
      if sameRing fc qa qs then .error (.ring qa.val 9)
      else .ok (s.upd (fun c =>
        let b := !c.mat.actb
        let x := (List.range 8).foldl
          (fun (x : BBuf) t => x.load fc rb.val t (v.entryOf qa t) (v.scalesOf qs fc t)) (c.mat.buf b)
        let at' := 128 * b.toNat + 8 * rb.val
        let scales := rewritten c.flaws .bBuffer (8192 + 16 * at') (if matScaled fc then 128 else 0) (fun k => decide (fc = 6) || decide (k % 16 < 2))
        { c with mat := c.mat.setBuf b x, flaws := rewritten scales .bBuffer (32 * at') 256 (fun _ => true) }))) s

/-- MSTEP (R302): BSW swaps at issue; the step keeps the B and the scales of its issue, and reads A row t in its cycle t. Of a ring-protocol trap and
matrix-busy it takes the former (DESIGN CHOICE, log 110). -/
def execMstep (acc : Fin 8) (qa : Fin 16) (fs : Fin 8) (ft rb qs g : Fin 16) (bsw : Fin 2) (s : State) : Out :=
  slotOp (.mstep acc qa fs ft rb qs g bsw)
    (fun s =>
      let v := s.view
      let fc := v.selected fs.val ft.val
      if sameRing fc qa qs then .error (.ring qa.val 9)
      else
        match v.mat.lastStep with
        | some t => if v.seq.wc < t + 8 then .error ⟨0x1B, v.seq.wc - t, 0⟩ else .ok (issueStep v fc s)
        | none => .ok (issueStep v fc s)) s
where
  issueStep (v : Core) (fc : Nat) (s : State) : State :=
    s.upd (fun c =>
      let act := if bsw = 1 then !c.mat.actb else c.mat.actb
      let b := c.mat.buf act
      let sa := if matScaled fc then (List.range 8).map (v.scalesOf qs fc) else []
      let op := TileOp.step v.seq.wc qa (v.ring qa).rp [v.entryOf qa 0] b.rows.toList b.scales.toList sa fc rb.val
      (Core.flyTile { c with mat := { c.mat with actb := act, lastStep := some v.seq.wc } } acc 12 op))

/-- MZERO (R303). -/
def execMzero (acc : Fin 8) (g : Fin 16) (s : State) : Out :=
  slotOp (.mzero acc g) (fun s => .ok (s.upd (fun c => c.flyTile acc 2 .zero))) s

/-- The rows of elements that MWR and MBIAS read (R304). -/
def Core.rowsIn (c : Core) (qa : Fin 16) (f : Fmt) (one : Bool) : List (List Nat) :=
  rowsOfEntries f.bits (c.entryOf qa) (c.entryOf (Fin.ofNat 16 (qa.val + 1))) one

/-- MWR (R305). -/
def execMwr (acc : Fin 8) (qa rb g : Fin 16) (f : Fin 8) (s : State) : Out :=
  slotOp (.mwr acc qa rb g f)
    (fun s =>
      let fm := Fmt.ofCode f.val
      let rows := (s.view.rowsIn qa fm false).map (fun r => BitVec.ofNat 4096 (unel 32 (r.map (mwrElem fm))))
      .ok (s.upd (fun c => c.flyTile acc 2 (.write rb.val rows)))) s

/-- MBIAS (R306). -/
def execMbias (acc : Fin 8) (qa rb g : Fin 16) (f : Fin 8) (s : State) : Out :=
  slotOp (.mbias acc qa rb g f)
    (fun s =>
      let fm := Fmt.ofCode f.val
      let beta := ((s.view.rowsIn qa fm true).getD 0 []).map (mwrElem fm)
      .ok (s.upd (fun c => c.flyTile acc 2 (.bias rb.val fm.isInt (BitVec.ofNat 4096 (unel 32 beta)))))) s

/-- The states of V0's lanes before each of the 8 rows of a readout under SR, and after the last (R307). -/
def laneRows : Nat → Vector (BitVec 32) 128 → List (List (BitVec 32)) × Vector (BitVec 32) 128
  | 0, lf => ([], lf)
  | k + 1, lf =>
    let lf' := stepLanes lf 0 (fun _ => true)
    let r := laneRows k lf'
    (lf'.toList.take 64 :: r.1, r.2)

/-- MRD (R307): the destination entries are pending from the commit; the tile is read at the read cycle (R298, R299). -/
def execMrd (acc : Fin 8) (qa : Fin 16) (fs : Fin 8) (ft rb g : Fin 16) (f : Fin 8) (band : Fin 64) (s : State) : Out :=
  slotOp (.mrd acc qa fs ft rb g f band)
    (fun s =>
      let v := s.view
      let fc := v.selected fs.val ft.val
      let n := rowEntryCount f.val false
      let q2 : Fin 16 := Fin.ofNat 16 (qa.val + 1)
      .ok (s.upd (fun c =>
        let rnd := if v.isSR then laneRows 8 c.vec.lfsr else ([], c.vec.lfsr)
        let c := { c with vec := { c.vec with lfsr := rnd.2 } }
        let c := (rowRings qa f.val).foldl (fun (c : Core) q => c.setRing q ((c.ring q).mark .pending (v.ring q).wp n)) c
        let t := c.joinTile acc 0
        let op := TileOp.read rb.val qa (v.ring qa).wp (v.ring qa).depth (v.ring q2).wp (v.ring q2).depth f.val fc
          ((v.rs band).toNat % 65536) v.rmode rnd.1
        let c := c.flyTile acc 0 op
        c.tilesDue (fun x => decide (x.acc = acc) && decide (t ≤ c.seq.wc)) c.seq.wc))) s

/-- MSTEP_COMPLETE (R298): the rows of every step due in the next working cycle of the core are complete. -/
def execMstepComplete (n : Nat) (s : State) : Out :=
  .next (s.updCore n (fun c => c.tilesDue TileFlight.isStep (c.seq.wc + 1)))

/-! ### The transposer -/

/-- Element width in bytes of w3 (R296, R309). -/
def xWidth (w : Nat) : Nat := if w = 0 then 4 else if w = 1 then 2 else 1

/-- XPUT (R308, R309): w3 fixes only the special sources. -/
def xputRow (c : Core) (spec w : Nat) : Vec :=
  let b := 8 * xWidth w
  let n := 2048 / b
  if spec < 49 then BitVec.ofNat 2048 (c.source .i32 spec)
  else if spec = 49 then allBits
  else if spec = 50 then vecOf b ((List.range n).map id)
  else if spec = 51 then vecOf b (List.replicate n 1)
  else vecOf b (List.replicate n ((c.rs (Fin.ofNat 64 (spec + 4))).toNat % 2 ^ b))

/-- XPUT (R308, R309). -/
def execXput (x : Fin 64) (i : Fin 128) (w : Fin 8) (g : Fin 16) (s : State) : Out :=
  slotOp (.xput x i w g)
    (fun s =>
      let row := xputRow s.view x.val w.val
      .ok (s.upd (fun c =>
        { c with mat := { c.mat with xbuf := c.mat.xbuf.set i row }, flaws := rewritten c.flaws .transposer (32 * i.val) 32 (fun _ => true) }))) s

/-- Column `i` of the transposer buffer in elements of `w` bytes (R310). -/
def xgetColumn (x : Vector Vec 128) (i w : Nat) : Vec :=
  let row := fun (k : Nat) => (x.toList.getD k 0).toNat
  if w = 4 then vecOf 32 ((List.range 64).map (fun e => el (row (64 * (i / 64) + e)) 32 (i % 64)))
  else if w = 2 then vecOf 16 ((List.range 128).map (fun e => el (row e) 16 i))
  else vecOf 8 ((List.range 256).map (fun e => el (row (e % 128)) 8 (2 * i + e / 128)))

/-- XGET (R308, R310): the buffer is read at issue; the result lands 16 working cycles later. -/
def execXget (x : Fin 64) (i : Fin 128) (w : Fin 8) (g : Fin 16) (s : State) : Out :=
  slotOp (.xget x i w g) (fun s => .ok (s.putVec 16 x.val (xgetColumn s.view.mat.xbuf i.val (xWidth w.val)) allBits)) s

/-- XCLR (R308). -/
def execXclr (g : Fin 16) (s : State) : Out :=
  slotOp (.xclr g)
    (fun s => .ok (s.upd (fun c =>
      { c with mat := { c.mat with xbuf := Vector.replicate 128 0 }, flaws := rewritten c.flaws .transposer 0 4096 (fun _ => true) }))) s

/-! ### The core's own events -/

/-- FALLOW_BUNDLE (R213): a bundle with no slot takes one issue cycle and falls through. -/
def execFallowBundle (s : State) : Out := .next s.retire

/-- RESULT_LAND (R240, R268): a working cycle passes in core `n`; the results due in it become visible. -/
def execResultLand (n : Nat) (s : State) : Out := .next (s.updCore n Core.advance)

end Sys2Proof.Machine
end

