-- ==== Sys2Proof/Machine/RingOps.lean ====
section
/-! DEFINITION. Ring pointer operations of the S slot (R258-R263). -/

namespace Sys2Proof.Machine

/-- The scale ring of an operation whose selected format uses one (R295). -/
def Core.scaleRing (c : Core) (fs : Fin 8) (ft qs : Fin 16) : List Nat :=
  if matScaleEntries (c.selected fs.val ft.val) = 0 then [] else [qs.val]

/-- Rings that an operation names, beyond specifiers: stream, scale, operand and destination rings. -/
def Core.ringFields (c : Core) : Instr → List Nat
  | .radv q _ _ _ => [q.val]
  | .rcfg q _ _ _ => [q.val]
  | .rfill q _ => [q.val]
  | .vqnt _ _ _ _ q _ => [q.val]
  | .vdqnt _ _ _ _ q _ => [q.val]
  | .vcmpr q _ _ _ => [q.val]
  | .vcmprFlush q _ => [q.val]
  | .vxpnd _ q _ _ => [q.val]
  | .vxpndDrop q _ => [q.val]
  | .mldb qa fs ft _ qs _ => qa.val :: c.scaleRing fs ft qs
  | .mstep _ qa fs ft _ qs _ _ => qa.val :: c.scaleRing fs ft qs
  | .mrd _ qa _ _ _ _ f _ => (rowRings qa f.val).map Fin.val
  | .mwr _ qa _ _ f => (rowRings qa f.val).map Fin.val
  | .mbias _ qa _ _ f => (rowRings qa f.val).map Fin.val
  | _ => []

/-- Whether an operation names ring `q` (R262). -/
def Core.namesRing (c : Core) (q : Nat) (i : Instr) : Bool :=
  (c.ringFields i).contains q || i.sources.contains (q + 32) || i.dests.contains (5, q)

/-- RADV (R261): the wait of `.r` is a ring wait; `.w` checks the room among entries not held. -/
def execRadv (q : Fin 16) (w : Fin 2) (n : Fin 8) (g : Fin 16) (s : State) : Out :=
  slotOp (.radv q w n g)
    (fun s =>
      let k := n.val + 1
      let r := s.view.ring q
      if w = 0 then .ok (s.upd (fun c => c.setRing q ((c.ring q).advR k)))
      else if r.depth - r.h < k then .error (.ring q.val 3)
      else .ok (s.upd (fun c => c.setRing q ((c.ring q).advW k)))) s

/-- A ring as RCFG leaves it: depth and thresholds set, pointers 0, every entry empty, the bytes kept (R262). -/
def Ring.configure (r : Ring) (d rt wt : Nat) : Ring :=
  { r with depth := d, rt := rt, wt := wt, rp := 0, wp := 0, h := 0, st := Vector.replicate 8 .empty, sw := 0, sr := 0 }

/-- RCFG (R262). -/
def execRcfg (q : Fin 16) (d r w : Fin 8) (s : State) : Out :=
  slotOp (.rcfg q d r w)
    (fun s =>
      if (s.view.ring q).st.toList.contains .pending || s.issue.bundle.any (s.view.namesRing q.val) then .error (.ring q.val 5)
      else .ok (s.upd (fun c => c.setRing q ((c.ring q).configure (d.val + 1) (r.val + 1) (w.val + 1))))) s

/-- RFILL (R263): `n` entries from wp become full and held. A producer of the same ring in the bundle then takes the same wp, in slot order
(DESIGN CHOICE, log 88). -/
def execRfill (q n : Fin 16) (s : State) : Out :=
  slotOp (.rfill q n)
    (fun s =>
      if (s.view.ring q).free < n.val then .error (.ring q.val 6)
      else .ok (s.upd (fun c => let r := c.ring q; c.setRing q ((r.mark .full r.wp n.val).advW n.val)))) s

end Sys2Proof.Machine
end

