-- ==== Sys2Proof/Machine/Scalar.lean ====
section
/-! DEFINITION. Integer and predicate operations of the S slot (R238-R243). -/

namespace Sys2Proof.Machine

/-- A result of latency 1 in scalar register `d` (R239). -/
def setNow (d : Fin 64) (v : State → Double) (s : State) : Except Trap State := .ok (s.upd (fun c => c.ws d (v s)))

/-- A result of latency `lat` in scalar register `d` (R239). -/
def setLate (lat : Nat) (d : Fin 64) (v : State → Double) (s : State) : Except Trap State :=
  .ok (s.upd (fun c => c.wsLate lat d (v s)))

/-- A predicate result (R243). -/
def setPred (d : Fin 16) (v : State → Bool) (s : State) : Except Trap State := .ok (s.upd (fun c => c.wp d (v s)))

/-- A two-register operation of latency 1. -/
def binNow (d a b : Fin 64) (f : Double → Double → Double) : State → Except Trap State :=
  setNow d (fun s => f (s.view.rs a) (s.view.rs b))

/-- A two-register operation of latency `lat`. -/
def binLate (lat : Nat) (d a b : Fin 64) (f : Double → Double → Double) : State → Except Trap State :=
  setLate lat d (fun s => f (s.view.rs a) (s.view.rs b))

/-- An operation on a register and an immediate. -/
def immNow (d a : Fin 64) (imm : Double) (f : Double → Double → Double) : State → Except Trap State :=
  setNow d (fun s => f (s.view.rs a) imm)

/-- High 64 bits of the signed product (R241). -/
def mulHigh (a b : Double) : Double := BitVec.ofInt 64 (a.toInt * b.toInt / 2 ^ 64)

/-- High 64 bits of the unsigned product (R241). -/
def mulHighN (a b : Double) : Double := BitVec.ofNat 64 (a.toNat * b.toNat / 2 ^ 64)

/-- Signed division truncated toward zero; −1 by zero (R241). -/
def divS (a b : Double) : Double := if b = 0 then BitVec.allOnes 64 else BitVec.ofInt 64 (a.toInt.tdiv b.toInt)

/-- Unsigned division; all ones by zero (R241). -/
def divU (a b : Double) : Double := if b = 0 then BitVec.allOnes 64 else BitVec.ofNat 64 (a.toNat / b.toNat)

/-- sx(a) − sx(b) × DIV(a, b); a by zero (R241). -/
def remS (a b : Double) : Double := if b = 0 then a else a - b * divS a b

/-- a − b × DIVN(a, b); a by zero (R241). -/
def remU (a b : Double) : Double := if b = 0 then a else a - b * divU a b

/-- Signed and unsigned smaller and larger (R241). -/
def minS (a b : Double) : Double := if a.slt b then a else b
def maxS (a b : Double) : Double := if a.slt b then b else a
def minU (a b : Double) : Double := if a.ult b then a else b
def maxU (a b : Double) : Double := if a.ult b then b else a

/-- Leading zero bits among the low `k` bits of a number. -/
def leadingZeros : Nat → Nat → Nat
  | 0, _ => 0
  | k + 1, w => if w / 2 ^ k % 2 = 1 then 0 else leadingZeros k w + 1

/-- One bits among the low `k` bits of a number. -/
def oneBits : Nat → Nat → Nat
  | 0, _ => 0
  | k + 1, w => w % 2 + oneBits k (w / 2)

/-- A shift count: bits [5:0] (R241). -/
def shiftCount (b : Double) : Nat := b.toNat % 64

/-- Conditions of CMP and CMPI (R243). -/
def cond (cc : Nat) (a b : Double) : Bool :=
  match cc with
  | 0 => a == b
  | 1 => a != b
  | 2 => a.slt b
  | 3 => !a.slt b
  | 4 => a.ult b
  | _ => !a.ult b

/-- sext(imm13, 13) (R242). -/
def sext13 (i : Fin 8192) : Double := (BitVec.ofNat 13 i.val).signExtend 64

/-- zext(imm13, 13) (R242). -/
def zext13 (i : Fin 8192) : Double := BitVec.ofNat 64 i.val

/-- sext(imm19, 19) × 2^13 (R242). -/
def lihValue (i : Fin 524288) : Double := (BitVec.ofNat 19 i.val).signExtend 64 <<< 13

/-- ADD (R241). -/
def execAdd (d a b : Fin 64) (s : State) : Out := slotOp (.add d a b) (binNow d a b (· + ·)) s

/-- SUB (R241). -/
def execSub (d a b : Fin 64) (s : State) : Out := slotOp (.sub d a b) (binNow d a b (· - ·)) s

/-- MUL (R241), latency 3. -/
def execMul (d a b : Fin 64) (s : State) : Out := slotOp (.mul d a b) (binLate 3 d a b (· * ·)) s

/-- MULH (R241), latency 3. -/
def execMulh (d a b : Fin 64) (s : State) : Out := slotOp (.mulh d a b) (binLate 3 d a b mulHigh) s

/-- MULHN (R241), latency 3. -/
def execMulhn (d a b : Fin 64) (s : State) : Out := slotOp (.mulhn d a b) (binLate 3 d a b mulHighN) s

/-- DIV (R241), latency 18. -/
def execDiv (d a b : Fin 64) (s : State) : Out := slotOp (.div d a b) (binLate 18 d a b divS) s

/-- DIVN (R241), latency 18. -/
def execDivn (d a b : Fin 64) (s : State) : Out := slotOp (.divn d a b) (binLate 18 d a b divU) s

/-- REM (R241), latency 18. -/
def execRem (d a b : Fin 64) (s : State) : Out := slotOp (.rem d a b) (binLate 18 d a b remS) s

/-- REMN (R241), latency 18. -/
def execRemn (d a b : Fin 64) (s : State) : Out := slotOp (.remn d a b) (binLate 18 d a b remU) s

/-- AND (R241). -/
def execAnd (d a b : Fin 64) (s : State) : Out := slotOp (.and d a b) (binNow d a b (· &&& ·)) s

/-- OR (R241). -/
def execOr (d a b : Fin 64) (s : State) : Out := slotOp (.or d a b) (binNow d a b (· ||| ·)) s

/-- XOR (R241). -/
def execXor (d a b : Fin 64) (s : State) : Out := slotOp (.xor d a b) (binNow d a b (· ^^^ ·)) s

/-- SHL (R241). -/
def execShl (d a b : Fin 64) (s : State) : Out := slotOp (.shl d a b) (binNow d a b (fun x y => x <<< shiftCount y)) s

/-- SHR (R241). -/
def execShr (d a b : Fin 64) (s : State) : Out := slotOp (.shr d a b) (binNow d a b (fun x y => x >>> shiftCount y)) s

/-- SRA (R241). -/
def execSra (d a b : Fin 64) (s : State) : Out :=
  slotOp (.sra d a b) (binNow d a b (fun x y => x.sshiftRight (shiftCount y))) s

/-- MIN (R241). -/
def execMin (d a b : Fin 64) (s : State) : Out := slotOp (.min d a b) (binNow d a b minS) s

/-- MAX (R241). -/
def execMax (d a b : Fin 64) (s : State) : Out := slotOp (.max d a b) (binNow d a b maxS) s

/-- MINN (R241). -/
def execMinn (d a b : Fin 64) (s : State) : Out := slotOp (.minn d a b) (binNow d a b minU) s

/-- MAXN (R241). -/
def execMaxn (d a b : Fin 64) (s : State) : Out := slotOp (.maxn d a b) (binNow d a b maxU) s

/-- CLZ (R241). -/
def execClz (d a : Fin 64) (s : State) : Out :=
  slotOp (.clz d a) (setNow d (fun s => BitVec.ofNat 64 (leadingZeros 64 (s.view.rs a).toNat))) s

/-- POPC (R241). -/
def execPopc (d a : Fin 64) (s : State) : Out :=
  slotOp (.popc d a) (setNow d (fun s => BitVec.ofNat 64 (oneBits 64 (s.view.rs a).toNat))) s

/-- SEL (R241). -/
def execSel (d a b : Fin 64) (p : Fin 16) (s : State) : Out :=
  slotOp (.sel d a b p) (setNow d (fun s => if s.view.rp p then s.view.rs a else s.view.rs b)) s

/-- CMP (R243). -/
def execCmp (p : Fin 16) (a b : Fin 64) (c : Fin 8) (s : State) : Out :=
  slotOp (.cmp p a b c) (setPred p (fun s => cond c.val (s.view.rs a) (s.view.rs b))) s

/-- PAND (R243). -/
def execPand (d a b : Fin 16) (s : State) : Out := slotOp (.pand d a b) (setPred d (fun s => s.view.rp a && s.view.rp b)) s

/-- POR (R243). -/
def execPor (d a b : Fin 16) (s : State) : Out := slotOp (.por d a b) (setPred d (fun s => s.view.rp a || s.view.rp b)) s

/-- PXOR (R243). -/
def execPxor (d a b : Fin 16) (s : State) : Out := slotOp (.pxor d a b) (setPred d (fun s => s.view.rp a != s.view.rp b)) s

/-- PNOT (R243). -/
def execPnot (d a : Fin 16) (s : State) : Out := slotOp (.pnot d a) (setPred d (fun s => !s.view.rp a)) s

/-- ADDI (R242). -/
def execAddi (d a : Fin 64) (i : Fin 8192) (s : State) : Out := slotOp (.addi d a i) (immNow d a (sext13 i) (· + ·)) s

/-- ANDI (R242). -/
def execAndi (d a : Fin 64) (i : Fin 8192) (s : State) : Out := slotOp (.andi d a i) (immNow d a (zext13 i) (· &&& ·)) s

/-- ORI (R242). -/
def execOri (d a : Fin 64) (i : Fin 8192) (s : State) : Out := slotOp (.ori d a i) (immNow d a (zext13 i) (· ||| ·)) s

/-- XORI (R242). -/
def execXori (d a : Fin 64) (i : Fin 8192) (s : State) : Out := slotOp (.xori d a i) (immNow d a (zext13 i) (· ^^^ ·)) s

/-- SHLI (R242). -/
def execShli (d a i : Fin 64) (s : State) : Out := slotOp (.shli d a i) (setNow d (fun s => s.view.rs a <<< i.val)) s

/-- SHRI (R242). -/
def execShri (d a i : Fin 64) (s : State) : Out := slotOp (.shri d a i) (setNow d (fun s => s.view.rs a >>> i.val)) s

/-- SRAI (R242). -/
def execSrai (d a i : Fin 64) (s : State) : Out :=
  slotOp (.srai d a i) (setNow d (fun s => (s.view.rs a).sshiftRight i.val)) s

/-- CMPI (R243). -/
def execCmpi (c : Fin 4) (p : Fin 16) (a : Fin 64) (i : Fin 8192) (s : State) : Out :=
  slotOp (.cmpi c p a i) (setPred p (fun s => cond c.val (s.view.rs a) (sext13 i))) s

/-- LIH (R242). -/
def execLih (d : Fin 64) (i : Fin 524288) (s : State) : Out := slotOp (.lih d i) (setNow d (fun _ => lihValue i)) s

end Sys2Proof.Machine
end

