-- ==== Sys2Proof/Machine/Tick.lean ====
section
/-! DEFINITION. What a cycle and a tick hold, in order (R9, R28, R54, R71, R73, R91, R92, R95, R111, R361, R389, R394, R413, R432, R469, R500,
R501, R506): the work that the passing of time puts on the agenda. How long work without a stated time takes is free (DESIGN CHOICE, log 6, 11). -/

namespace Sys2Proof.Machine

/-! ### Free choices -/

/-- The elements of a list whose time has come: for each, a free value (DESIGN CHOICE, log 44). -/
def pickSome {α : Type} : List α → State → List α × State
  | [], s => ([], s)
  | x :: rest, s =>
    let f := s.free
    let r := pickSome rest f.2
    (if f.1 % 2 = 1 then x :: r.1 else r.1, r.2)

/-! ### Cores (R9, R19, R28, R93) -/

/-- A core stands in a fallow tick of its furrow (R93). -/
def State.fallow (s : State) (n : Nat) : Bool := (s.present n).any (fun b => b.fallow.contains s.tick)

/-- What one working cycle of a core holds: in cycle 1 of its anchor tick, of its release tick or of the tick it waits for, it issues (R52,
R59, R370). -/
def State.coreWork (s : State) (n : Nat) : List Work :=
  let c := s.core n
  let idle := c.quiet && !c.busy
  (if decide (c.seq.mode = .atHeadland) && c.seq.anchor.any (fun a => decide (a ≤ s.tick)) then [.event (.headlandResolve n)] else [])
    ++ (if c.seq.waitt.any (fun a => decide (a ≤ s.tick)) then [.event (.waittResume n)] else [])
    ++ (if idle then [] else [.event (.mstepComplete n), .event (.resultLand n)])
    ++ (if c.busy then [.issue n] else [])

/-- Present cores of a cluster that have a state of their own. -/
def State.listedCores (s : State) (cl : Nat) : List Nat := (s.coresOf cl).filter (fun n => s.cores.any (fun p => p.1 == n))

/-! ### Engines (R86, R317, R352, R361) -/

/-- Acceptance, and the steps of commands that are ready, of one core; those at a local memory are performed at the ports, and the IXE's
commands as it serves them. What a resuming member has to reissue waits for its release (R64, R68). -/
def State.engineWork (s : State) (n : Nat) : List Work :=
  let c := s.core n
  let all := c.queue0 ++ c.queue1
  let accepted := fun (x : Command) => match x.state with | .accepted _ => true | _ => false
  if c.team.isSome && !c.seq.starts && (decide (c.seq.mode = .swapped) || decide (c.seq.mode = .staged)) then [] else
  (if c.queue0.isEmpty then [] else [.event (.commandAccept n 0)]) ++ (if c.queue1.isEmpty then [] else [.event (.commandAccept n 1)])
    ++ (all.filter (fun x => isIx x.op && !x.started && accepted x)).map (fun x => .event (.ixCommandStart n x.id))
    ++ (all.filter (fun x => !isIx x.op && x.ready s.now)).map (fun x => .event (.commandComplete n x.id))

/-- The IXE of a cluster serves one command. -/
def State.ixWork (s : State) (cl : Nat) : List Work :=
  match s.ixNext cl with
  | none => []
  | some p => [.event (.commandComplete p.1 p.2.id)]

/-- The ports of a cluster have something to serve, or may have when its cores have issued (R30, R119): a CXFER comes from any core. -/
def State.portWork (s : State) (cl : Nat) (cs : List Nat) : List Work :=
  if cs.any (fun n => (s.core n).busy || !(s.core n).loads.isEmpty || !(s.core n).unserved.isEmpty || !(s.urgentIn n false).isEmpty)
      || s.cores.any (fun p => !p.2.queue0.isEmpty || !p.2.queue1.isEmpty) || !(s.urgentIn (8 * cl) true).isEmpty then [.event (.refreshUrgent cl)]
  else []

/-- What one instant holds in one cluster: in the reserved cycle no core issues, no memory serves an access but refresh and scrub, and
the IXE does no work (R28, R361). -/
def State.cycleWork (s : State) (cl : Nat) : List Work :=
  let isl := (s.cluster cl).island
  if cycleStarts isl s.instant then
    let cs := s.listedCores cl
    if isReserved isl s.instant then .event (.reservedCycle cl) :: cs.flatMap s.engineWork
    else (cs.filter (fun n => !s.fallow n)).flatMap s.coreWork ++ s.portWork cl cs ++ cs.flatMap s.engineWork ++ s.ixWork cl
  else []

/-- The same, after a look at the groups that a write of the cycle may save from expiry (R123). -/
def State.clusterWork (s : State) (cl : Nat) : List Work := (if (s.verges cl).isEmpty then [] else [.verge cl]) ++ s.cycleWork cl

/-! ### Work of the GS, the CCs and the front end -/

/-- Cores that may have drained, or whose rollback may restart (R63, R375). -/
def State.drainWork (s : State) : List Work :=
  s.cores.flatMap (fun p =>
    (if p.2.seq.stop.isSome then [.event (.drainEnd p.1)] else []) ++ (if p.2.rollback.isSome then [.event (.rollbackRestart p.1)] else []))

/-- Saves and restores of teams under way (R65, R68). -/
def State.swapWork (s : State) : List Work :=
  s.teams.flatMap (fun p =>
    if p.2.state = .stopping then
      (p.2.members.filter (fun m => !m.exited && !m.done && decide ((s.core m.core).seq.mode = .swapped))).map (fun m => .event (.swapOutComplete m.core))
    else if p.2.state = .restoring then [.event (.swapInComplete p.1)]
    else [])

/-- Work that takes a time of its own. -/
def State.slowWork (s : State) : List Work :=
  s.swapWork ++ s.invs.map (fun v => .event (.invtlbComplete v.id)) ++ s.migrations.map (fun m => .event (.migrationPage m.id))
    ++ s.wsets.map (fun w => .event (.weightSetVerified w.id)) ++ (if s.ckpt.isSome then [.event .checkpointComplete] else [])
    ++ (if s.restoring.isSome then [.event .restoreComplete] else [])
    ++ s.clusters.flatMap (fun p =>
      (if p.2.toCC.inbox.isEmpty then [] else [.event (.permitReturn p.1 true)]) ++ (if p.2.toGS.inbox.isEmpty then [] else [.event (.permitReturn p.1 false)]))

/-- Work that what it waits for brings about at once. -/
def State.readyWork (s : State) : List Work :=
  s.drainWork ++ (s.faults.filter (fun f => s.arrived f.ctx f.va)).map (fun f => .event (.pageFaultResolved f.ctx f.va))
    ++ (s.queues.filter (fun p => p.2.state == 4 && s.parkOver p.2)).map (fun p => .event (.queueUnpark p.1))
    ++ (s.insts.filter (fun p => p.2.teams.all (s.teamOver p.2))).map (fun p => .event (.instanceComplete p.1))

/-- The packet that a fetcher parses in a cycle (R389). -/
def State.fetcherWork (s : State) (k : Nat) : List Work × State :=
  let s := s.takeSlots k
  match s.nextQueue k with
  | none => ([], s)
  | some q => ([.packet q], { s with fetchLast := tset s.fetchLast k q })

/-- One packet of each fetcher. -/
def State.frontWork (s : State) : List Work × State :=
  (List.range 16).foldl
    (fun (r : List Work × State) k =>
      let x := r.2.fetcherWork k
      (r.1 ++ x.1, x.2)) ([], s)

/-! ### Retention ticks (R111, R407, R432) -/

/-- What a retention tick boundary holds. -/
def State.retentionWork (s : State) : List Work :=
  [.event .retentionTick]
    ++ ((List.finRange 6).filter (fun k => (s.rtick + 1) % (s.bucketMarks k.val).2.2 == 0)).map (fun k => .event (.bucketLeak k))
    ++ s.windows.flatMap (fun w => (w.2.segments.filter (fun g => g.2.current.isSome)).map (fun g => .event (.roundTimeout w.1 g.1)))

/-- The work of an instant: every cluster's cycle, a retention tick boundary behind all writes of its cycle (R117, R123), and then what stands
around them. -/
def State.instantWork (s : State) : State :=
  let local' := s.liveClusters.flatMap s.clusterWork
  let slow := pickSome s.slowWork s
  let front := slow.2.frontWork
  let ret := if s.rsub = 0 then s.retentionWork else []
  { front.2 with agenda := front.2.agenda ++ local' ++ ret ++ s.readyWork ++ slow.1 ++ front.1 }

/-! ### Ticks (R54, R71, R73, R92, R95, R394, R413) -/

/-- A cluster at the end of a tick: ballast run, the ramp window, and its measured energy, which is a free value (R94, R413; DESIGN CHOICE, log 35). -/
def State.endTickOf (s : State) (cl : Nat) : State :=
  let k := s.cluster cl
  let n := (k.ballast.filter (fun q => q.tick == s.tick)).length
  let now := k.rampNow + k.mCells s.tick
  let last := decide (s.tick % 17 = 16)
  let f := s.free
  let e := BitVec.ofNat 16 f.1
  let short := last && decide (now + s.rampStep cl < k.rampPrev)
  let s := f.2.updCluster cl (fun k =>
    { k with csr := { k.csr with ballastCnt := k.csr.ballastCnt + BitVec.ofNat 64 n, islEmeas := e }, ballast := k.ballast.filter (fun q => decide (s.tick < q.tick)),
             rampPrev := (if last then now else k.rampPrev), rampNow := (if last then 0 else now), calStep := 0, contended := [] })
  let s := if short then s.event 0x705 0 none 3 cl 0 0 (s.tick / 17) 0 else s
  if k.csr.islLimit.toNat < e.toNat then s.event 0x701 0 none 3 cl 0 0 e.toNat 0 else s

/-- A tick of a core ends: a working tick of its furrow has run, unless a pre-emption has counted it (R68), and its copy-port share is whole again (R86). -/
def State.countTick (s : State) (n : Nat) : State :=
  let s := if (s.core n).seq.mode = .running ∧ (s.teamOf n).all (fun p => decide (p.2.state ≠ .stopping)) = true then s.updCore n (fun c => { c with seq := { c.seq with ranTicks := s.ranOf n } }) else s
  if (s.core n).copied = 0 then s else s.updCore n (fun c => { c with copied := 0 })

/-- Once the CXL link has been down for 2^20 ticks, front-end writes that wait for it are dropped with DATA, and those behind them proceed (R387,
R492, R501) (DEDUCED, log 70). -/
def State.frontGivesUp (s : State) : State :=
  if (s.cxlUp && s.cxlSecure) || decide (s.tick < s.cxlSince + 2 ^ 20) then s
  else
    let far := fun (w : FrontWrite) => (s.peekLeaf w.ctx w.va).any (fun e => leafTier e == 2)
    let drop := fun (s : State) (w : FrontWrite) => (s.dropWrite w.ctx w.va stData).endWrite w
    let gone := s.recWrites.filter far
    let s := gone.foldl drop { s with recWrites := s.recWrites.filter (fun w => !far w) }
    s.queues.foldl
      (fun s p =>
        let late := p.2.rpWrites.filter far ++ p.2.deferred.filter (fun w => far w && !s.launchesBefore p.1 w.after)
        if late.isEmpty then s else
        (late.foldl drop (s.updQueue p.1 (fun x =>
          { x with rpWrites := x.rpWrites.filter (fun w => !far w), deferred := x.deferred.filter (fun w => !(far w && !s.launchesBefore p.1 w.after)) }))).push
          (.deferredWritePerform p.1)) s

/-- Front-end writes that waited for room in the snoop filter are tried again (R400). -/
def State.retryFar (s : State) : State :=
  let far := fun (w : FrontWrite) => (s.peekLeaf w.ctx w.va).any (fun e => leafTier e == 2)
  if !(s.cxlUp && s.cxlSecure) then s
  else
    let s := if s.recWrites.any far then s.retryRecords else s
    { s with agenda := s.agenda ++ (s.queues.filter (fun p => (p.2.rpWrites ++ p.2.deferred).any far)).map (fun p => .event (.deferredWritePerform p.1)) }

/-- Commands that have waited 2^20 ticks for a link (R500, R501). -/
def State.linkWork (s : State) : List Work :=
  s.cores.flatMap (fun p => (p.2.queue0 ++ p.2.queue1).flatMap (fun x =>
    match x.state with
    | .link since peer =>
      if since + 2 ^ 20 ≤ s.tick then [if peer then .event (.peerTimeout p.1 x.id) else .event (.cxlLinkTimeout p.1 x.id)] else []
    | _ => []))

/-- Page faults that have waited 2^24 ticks (R469, R491). -/
def State.lateFaults (s : State) : List Work :=
  (s.faults.filter (fun f => decide (f.since + 2 ^ 24 ≤ s.tick))).map (fun f => .event (.pageFaultUnresolvable f.ctx f.va))
    ++ s.queues.flatMap (fun p =>
      match p.2.park with
      | some (.page c va) => if p.2.state = 4 ∧ p.2.parkSince + 2 ^ 24 ≤ s.tick then [.event (.pageFaultUnresolvable c va)] else []
      | _ => [])

/-- Teams that wait for a place, in the order of R394. -/
def State.placeWork (s : State) : List Work :=
  (sortKey (fun (p : Nat × Team) => rankKey (s.rank p.2)) (s.teams.filter (fun p => decide (p.2.state = .ready) || decide (p.2.state = .swapped)))).map
    (fun p => .event (.teamPlace p.1))

/-- CCs that have not returned the permit of a message of the GS within 2^16 ticks (R495). -/
def State.silentCCs (s : State) : List Work :=
  (s.liveClusters.filter (fun cl => (s.cluster cl).toCC.times.any (fun t => decide (t + 2 ^ 16 ≤ s.tick)))).map (fun cl => .event (.ccFailure cl true))

/-- The work of a tick, in order: releases, lapses, the calendars, quanta, placements, and what has waited too long. -/
def State.tickWork (s : State) : List Work :=
  (s.teams.filter (fun p => decide (p.2.state = .staged) && decide (p.2.release ≤ s.tick))).map (fun p => .event (.taskRelease p.1))
    ++ (s.reservations.filter (fun v => decide (v.tick ≤ s.tick))).map (fun v => .event (.bookingLapse (clusterOf (v.cores.headD 0)) v.handle))
    ++ s.liveClusters.map (fun cl => .event (.calendarTick cl))
    ++ (s.teams.filter (fun p => decide (p.2.state = .running))).map (fun p => .event (.quantumExpiry p.1))
    ++ s.placeWork ++ s.linkWork ++ s.lateFaults ++ s.silentCCs ++ (if s.tick % 2 ^ 14 = 0 then [.event .heartbeat] else [])

/-- The GS may clear the counters of channels (R149): whether it does, and which, are free values (DESIGN CHOICE, log 44).
Firmware makes no use of its right to write DBGCTL.BE and to clear the counters of cores and clusters (R366; DESIGN CHOICE, log 112). -/
def State.clearChannels (s : State) : State :=
  let f := s.free
  { f.2 with chan := f.2.chan.filter (fun p => !bit f.1 p.1) }

/-- The GS may set the marks and the leak period of a kind of bucket (R432): whether it does, and to what, are free values, WARN below ACT
(DESIGN CHOICE, log 98). -/
def State.setMarks (s : State) : State :=
  let f := s.free
  if f.1 % 2 = 1 then f.2
  else
    let w := f.2.free
    let a := w.2.free
    let p := a.2.free
    let warn := 1 + w.1 % 65534
    { p.2 with marks := tset p.2.marks (f.1 / 2 % 6) (warn, min 65535 (warn + 1 + a.1), 1 + p.1) }

/-- The module's energy grows by what the tick has used, which is a free value (R413; DESIGN CHOICE, log 35). -/
def State.countEnergy (s : State) : State :=
  let f := s.free
  { f.2 with energy := f.2.energy + BitVec.ofNat 64 f.1 }

/-- An element of a list changed. -/
def changeAt {α : Type} (l : List α) (k : Nat) (f : α → α) : List α := l.modify (k % l.length) f

/-- A word of a memory has one bit wrong, or, with `bad`, more than its code corrects (R434). -/
def Local.struck (l : Local) (w : Nat) (bad : Bool) : Local :=
  if bad then { l with bad := (l.bad ++ [w]).eraseDups } else { l with weak := (l.weak ++ [w]).eraseDups }

/-- An array of a core, by number. -/
def arrayOf (k : Nat) : CoreArray :=
  match k with
  | 0 => .acc | 1 => .bBuffer | 2 => .transposer | 3 => .vreg | 4 => .mask | 5 => .ring | 6 => .bank | _ => .shadowBank

/-- An error strikes a word of some memory or array (R434, R472, R494), or a save area (R437): whether one does in a tick, which kind, and where, are
free values (DESIGN CHOICE, log 36). -/
def State.strike (s : State) : State :=
  let f := s.free
  let g := f.2.free
  let h := g.2.free
  let s := h.2
  let n := g.1 % 256
  let cl := g.1 % 32
  let w := h.1
  let add := fun (l : List Nat) => (l ++ [w % 2 ^ 37]).eraseDups
  match f.1 % 32 with
  | 1 => s.updLocal n false (fun l => l.struck (w % 2 ^ 20) false)
  | 2 => s.updLocal n false (fun l => l.struck (w % 2 ^ 20) true)
  | 3 => s.updLocal (8 * cl) true (fun l => l.struck (w % 2 ^ 22) false)
  | 4 => s.updLocal (8 * cl) true (fun l => l.struck (w % 2 ^ 22) true)
  | 5 => s.updCore n (fun c => { c with flaws := (c.flaws ++ [(⟨arrayOf (w % 8), w / 16, w / 8 % 2 == 1⟩ : Flaw)]).eraseDups })
  | 6 => { s with dev := { s.dev with weak := add s.dev.weak } }
  | 7 => { s with dev := { s.dev with fails := add s.dev.fails } }
  | 8 => { s with dev := { s.dev with tagWeak := add s.dev.tagWeak } }
  | 9 => { s with dev := { s.dev with tagBad := add s.dev.tagBad } }
  | 10 => s.updCluster cl (fun k => { k with calBad := some (w % 256) })
  | 11 => s.updCore n (fun c => { c with tlb := changeAt c.tlb w (fun x => { x with bad := true }) })
  | 12 => s.updCluster cl (fun k => { k with tlb2 := changeAt k.tlb2 w (fun x => { x with bad := true }) })
  | 13 => s.updCluster cl (fun k => { k with walks := changeAt k.walks w (fun x => { x with bad := true }) })
  | 14 => s.updTeam w (fun t => if t.state = .swapped then { t with areaBad := true } else t)
  | _ => s

/-- The scrubber's work of a tick in both tiers (R436). -/
def State.scrubAll (s : State) : State := (s.scrubTier 0).scrubTier 1

/-- The state as a tick ends and the next begins. -/
def State.nextTick (s : State) : State :=
  let s := s.liveClusters.foldl State.endTickOf s
  let s := (s.cores.map Prod.fst).foldl State.countTick s
  let s := { s with tick := s.tick + 1, teams := tmap (fun _ (t : Team) => if t.state = TeamState.running then { t with used := t.used + 1 } else t) s.teams }
  ((s.settleMailbox).retireAll).clearChannels.setMarks.countEnergy.changePeers.makeReady.frontGivesUp.retryFar.oweKat.runKats.scrubAll.strike

/-- TICK_BOUNDARY (R73): the tick counter advances, the ended column is gone, and the work of the tick's first instant follows. -/
def execTickBoundary (s : State) : Out :=
  let s := s.nextTick
  .next ({ s with agenda := s.agenda ++ s.tickWork }).instantWork

end Sys2Proof.Machine
end

