-- ==== Sys2Proof/Machine/VecMem.lean ====
section
/-! DEFINITION. Vector loads and stores of local memory, and conditional streams (R285-R291). -/

namespace Sys2Proof.Machine

/-- The lowest of the addresses that a check reports. -/
def lowest (l : List (Option Nat)) : Option Nat := (l.filterMap id).min?

/-- The region, owner-tag and expired-read checks of R285 on pieces of `w` bytes, check by check across the pieces, then
the rule that a load into a ring reads the own field only. `info` is the access width recorded (DESIGN CHOICE, log 9). -/
def piecesTrap (s : State) (pieces : List Nat) (w info : Nat) (load ring : Bool) : Option Trap :=
  let c := s.view
  match lowest (pieces.map (fun a => c.outside a w)) with
  | some b => some (.localAddress info b)
  | none =>
    match lowest (pieces.map (fun a =>
        firstGroup s.field s.viewCommons (fun g => decide (g.owner ≠ c.csr.ctxId.toNat)) a w)) with
    | some b => some ⟨0x12, (groupAt s.field s.viewCommons b).owner, b⟩
    | none =>
      match (if load then lowest (pieces.map (fun a => firstExpired s a w)) else none) with
      | some b => some ⟨0x13, ((c.regionAt b).map Fin.val).getD 0, b⟩
      | none =>
        if ring then (lowest (pieces.map (fun a => if inCommons a then some a else none))).map (.localAddress info) else none

/-- The end of the address space and the alignment of pieces of `w` bytes (R286, R287). -/
def piecesAlign (pieces : List Nat) (w : Nat) : Option Trap :=
  match lowest (pieces.map (fun a => if 2 ^ 32 < a + w then some (max a (2 ^ 32)) else none)) with
  | some b => some (.localAddress w b)
  | none => (lowest (pieces.map (fun a => if a % w ≠ 0 then some a else none))).map (.misaligned w)

/-- A vector load (R285-R288): the pieces, with their places in the vector, and which bits they fill. One with pieces in both memories has the latency
of the commons throughout (DESIGN CHOICE, log 108). -/
def State.vecLoad (s : State) (d : Nat) (pieces : List (Nat × Nat)) (w : Nat) (mask : Vec) : State :=
  let lat := if (pieces.map Prod.fst).any inCommons then 8 else 4
  s.putLoad lat d mask (pieces.map (fun p => (p.1, w, p.2)))

/-- Number of a whole-row write of the slot in hand (R115). -/
def State.rowTag (s : State) (k : Nat) : Nat := (if s.issue.slot = .v1 then 8 else 0) + k + 1

/-- Whether a destination specifier is a ring. -/
def specRing (d : Nat) : Bool := decide (32 ≤ d) && decide (d < 48)

/-- The effective address of format V.A (R285). -/
def rowAddr (s : State) (a : Fin 64) (o : Fin 512) : Nat := (s.view.rs a).toNat + o.val * 64

/-- The rows of a 256-byte access that hold an enabled 32-bit element (R285). -/
def accessedRows (c : Core) (g : Nat) : List Nat :=
  (List.range 4).filter (fun r => (List.range 16).any (fun j => c.enabled g (16 * r + j)))

/-- The checks of R285. -/
def rowTrap (s : State) (ea g d : Nat) (load : Bool) : Option Trap :=
  if 2 ^ 32 < ea + 256 then some (.localAddress 256 (max ea (2 ^ 32)))
  else if ea % 64 ≠ 0 then some (.misaligned 256 ea)
  else piecesTrap s ((accessedRows s.view g).map (fun r => ea + 64 * r)) 64 256 load (load && specRing d)

/-- VLD and VLDC (R285). -/
def loadRows (d a : Fin 64) (o : Fin 512) (g : Fin 16) (s : State) : Except Trap State :=
  let ea := rowAddr s a o
  match rowTrap s ea g.val d.val true with
  | some t => .error t
  | none =>
    .ok (s.vecLoad d.val ((accessedRows s.view g.val).map (fun r => (ea + 64 * r, 64 * r))) 64
      (bitsOf 32 64 (s.view.enabled g.val)))

/-- VST and VSTC (R285): a row enabled whole is a whole-row write, any other store is partial. Special sources are read as i32
(DESIGN CHOICE, log 106). -/
def storeRows (d a : Fin 64) (o : Fin 512) (g : Fin 16) (s : State) : Except Trap State :=
  let ea := rowAddr s a o
  match rowTrap s ea g.val d.val false with
  | some t => .error t
  | none =>
    let c := s.view
    let x := c.source .i32 d.val
    let rows := accessedRows c g.val
    .ok (s.addStore (rows.flatMap (fun r =>
      if (List.range 16).all (fun j => c.enabled g.val (16 * r + j)) then [(ea + 64 * r, bytesOfNat 64 (el x 512 r), s.rowTag r)]
      else ((List.range 16).filter (fun j => c.enabled g.val (16 * r + j))).map (fun j =>
        (ea + 64 * r + 4 * j, bytesOfNat 4 (el x 32 (16 * r + j)), 0)))))

/-- Granule size by w3 (R286). -/
def granule (w : Nat) : Nat := 64 / 2 ^ w

/-- The enabled granules of VLDS and VSTS, as number and address (R286). -/
def granules (s : State) (a b : Fin 64) (w : Nat) (g : Nat) : List (Nat × Nat) :=
  ((List.range (256 / granule w)).filter (s.view.enabled g)).map (fun j =>
    (j, ((s.view.rs a) + BitVec.ofNat 64 j * (s.view.rs b)).toNat))

/-- The checks of R286. -/
def granuleTrap (s : State) (gs : List (Nat × Nat)) (w d : Nat) (load : Bool) : Option Trap :=
  match piecesAlign (gs.map Prod.snd) (granule w) with
  | some t => some t
  | none => piecesTrap s (gs.map Prod.snd) (granule w) (granule w) load (load && specRing d)

/-- VLDS (R286). -/
def loadGranules (d a b : Fin 64) (w : Fin 8) (g : Fin 16) (s : State) : Except Trap State :=
  let gs := granules s a b w.val g.val
  match granuleTrap s gs w.val d.val true with
  | some t => .error t
  | none =>
    let k := granule w.val
    .ok (s.vecLoad d.val (gs.map (fun p => (p.2, k * p.1))) k (bitsOf (8 * k) (256 / k) (s.view.enabled g.val)))

/-- VSTS (R286): granules in ascending order; one of 64 B is a whole-row write. -/
def storeGranules (d a b : Fin 64) (w : Fin 8) (g : Fin 16) (s : State) : Except Trap State :=
  let gs := granules s a b w.val g.val
  match granuleTrap s gs w.val d.val false with
  | some t => .error t
  | none =>
    let k := granule w.val
    let x := s.view.source .i32 d.val
    .ok (s.addStore (gs.map (fun p => (p.2, bytesOfNat k (el x (8 * k) p.1), if k = 64 then s.rowTag p.1 else 0))))

/-- The enabled elements of VGTH and VSCT, as number and address (R287). -/
def gathered (s : State) (idx base : Nat) (f : Fmt) (g : Nat) : List (Nat × Nat) :=
  let x := s.view.source f idx
  let w := f.bits / 8
  ((List.range f.lanes).filter (s.view.enabled g)).map (fun e =>
    (e, (s.view.rs (Fin.ofNat 64 (base + 4))).toNat + el x f.bits e * w))

/-- The checks of R287. -/
def gatherTrap (s : State) (es : List (Nat × Nat)) (w d : Nat) (load : Bool) : Option Trap :=
  match piecesAlign (es.map Prod.snd) w with
  | some t => some t
  | none => piecesTrap s (es.map Prod.snd) w w load (load && specRing d)

/-- VLD (R285). -/
def execVld (d a : Fin 64) (o : Fin 512) (g : Fin 16) (s : State) : Out := slotOp (.vld d a o g) (loadRows d a o g) s

/-- VST (R285). -/
def execVst (d a : Fin 64) (o : Fin 512) (g : Fin 16) (s : State) : Out := slotOp (.vst d a o g) (storeRows d a o g) s

/-- VLDS (R286). -/
def execVlds (d a b : Fin 64) (w : Fin 8) (g : Fin 16) (s : State) : Out :=
  slotOp (.vlds d a b w g) (loadGranules d a b w g) s

/-- VSTS (R286). -/
def execVsts (d a b : Fin 64) (w : Fin 8) (g : Fin 16) (s : State) : Out :=
  slotOp (.vsts d a b w g) (storeGranules d a b w g) s

/-- VGTH (R287). -/
def execVgth (d a b : Fin 64) (f : Fin 8) (g : Fin 16) (s : State) : Out :=
  slotOp (.vgth d a b f g)
    (fun s =>
      let fm := Fmt.ofCode f.val
      let w := fm.bits / 8
      let es := gathered s a.val b.val fm g.val
      match gatherTrap s es w d.val true with
      | some t => .error t
      | none => .ok (s.vecLoad d.val (es.map (fun p => (p.2, w * p.1))) w (s.view.onBits fm g.val))) s

/-- VSCT (R287): ascending e; partial writes. -/
def execVsct (d a b : Fin 64) (f : Fin 8) (g : Fin 16) (s : State) : Out :=
  slotOp (.vsct d a b f g)
    (fun s =>
      let fm := Fmt.ofCode f.val
      let w := fm.bits / 8
      let es := gathered s a.val b.val fm g.val
      match gatherTrap s es w d.val false with
      | some t => .error t
      | none =>
        let x := s.view.source fm d.val
        .ok (s.addStore (es.map (fun p => (p.2, bytesOfNat w (el x fm.bits p.1), 0))))) s

/-- VLDC (R285): an acquire read at CLUSTER scope in the commons; accesses are performed one at a time. -/
def execVldc (d a : Fin 64) (o : Fin 512) (g : Fin 16) (s : State) : Out := slotOp (.vldc d a o g) (loadRows d a o g) s

/-- VSTC (R285): a release write at CLUSTER scope in the commons; accesses are performed one at a time. -/
def execVstc (d a : Fin 64) (o : Fin 512) (g : Fin 16) (s : State) : Out := slotOp (.vstc d a o g) (storeRows d a o g) s

/-! ### Conditional streams (R289-R291) -/

/-- Entry `k` from `p` of a ring with its bytes from `lo` on replaced by `n` bytes of a number. -/
def Ring.patch (r : Ring) (p lo n v : Nat) : Ring :=
  let e := p % r.depth
  let v := merge (r.data.toList.getD e 0) (BitVec.ofNat 2048 (v * 2 ^ (8 * lo))) (BitVec.ofNat 2048 ((2 ^ (8 * n) - 1) * 2 ^ (8 * lo)))
  { r with data := r.data.setIfInBounds e v }

/-- The entry at wp is published: pending now, full 6 cycles later, and held (R290). -/
def Core.publish (c : Core) (q : Fin 16) : Core :=
  let r := c.ring q
  let c := c.setRing q ((r.mark .pending r.wp 1).advW 1)
  c.launch 6 (.entry q (Fin.ofNat 8 (r.wp % r.depth))) 0 0

/-- A VCMPR, of either form, shares its bundle with a write advance, an RFILL or a reconfiguration of its ring (R290, R455). -/
def cmprClash (q : Fin 16) (l : List Instr) : Bool :=
  l.any (fun i => match i with
    | .radv p w _ _ => decide (p = q) && decide (w ≠ 0)
    | .rfill p _ => decide (p = q)
    | .rcfg p _ _ _ => decide (p = q)
    | _ => false)

/-- VCMPR (R290). -/
def execVcmpr (q : Fin 16) (a : Fin 64) (f : Fin 8) (g : Fin 16) (s : State) : Out :=
  slotOp (.vcmpr q a f g)
    (fun s =>
      let fm := Fmt.ofCode f.val
      let c := s.view
      if cmprClash q s.issue.bundle then .error (.ring q.val 8)
      else
        let x := c.source fm a.val
        let on := (List.range fm.lanes).filter (c.enabled g.val)
        let b := on.length * (fm.bits / 8)
        let v := unel fm.bits (on.map (el x fm.bits))
        .ok (s.upd (fun c =>
          let r := c.ring q
          let first := min b (256 - r.sw)
          let r := r.patch r.wp r.sw first v
          if r.sw + b < 256 then c.setRing q { r with sw := r.sw + b }
          else
            let r := r.patch (r.wp + 1) 0 (r.sw + b - 256) (v / 2 ^ (8 * first))
            (c.setRing q { r with sw := r.sw + b - 256 }).publish q))) s

/-- VCMPR qN, zero (R290): the entry begun is filled up with zeros and published. -/
def execVcmprFlush (q : Fin 16) (f : Fin 8) (s : State) : Out :=
  slotOp (.vcmprFlush q f)
    (fun s =>
      if cmprClash q s.issue.bundle then .error (.ring q.val 8)
      else .ok (s.upd (fun c =>
        let r := c.ring q
        if r.sw = 0 then c else (c.setRing q { (r.patch r.wp r.sw (256 - r.sw) 0) with sw := 0 }).publish q))) s

/-- A VXPND shares its bundle with a read advance or a reconfiguration of its ring (R291) (DEDUCED, log 78). -/
def xpndClash (q : Fin 16) (l : List Instr) : Bool :=
  l.any (fun i => match i with
    | .radv p w _ _ => decide (p = q) && decide (w = 0)
    | .rcfg p _ _ _ => decide (p = q)
    | _ => false)

/-- The read side of a stream after VXPND has taken `b` bytes: as it stood before the bundle, so that two VXPND of one ring in a bundle take
the same bytes and move it once (R218, R291) (DEDUCED, log 78). -/
def Core.take (c : Core) (v : Ring) (q : Fin 16) (b : Nat) : Core :=
  let r := c.ring q
  if r.rp ≠ v.rp ∨ r.sr ≠ v.sr then c
  else if v.sr + b < 256 then c.setRing q { r with sr := v.sr + b }
  else c.setRing q { (r.advR 1) with sr := v.sr + b - 256 }

/-- VXPND (R291). -/
def execVxpnd (d : Fin 32) (q : Fin 16) (f : Fin 8) (g : Fin 16) (s : State) : Out :=
  slotOp (.vxpnd d q f g)
    (fun s =>
      let fm := Fmt.ofCode f.val
      let c := s.view
      if xpndClash q s.issue.bundle then .error (.ring q.val 8)
      else
        let r := c.ring q
        let on := (List.range fm.lanes).filter (c.enabled g.val)
        let b := on.length * (fm.bits / 8)
        let stream := ((r.dataAt r.rp 0).toNat + (r.dataAt r.rp 1).toNat * 2 ^ 2048) / 2 ^ (8 * r.sr)
        let v := on.foldl (fun (acc : Nat × Nat) e => (acc.1 + 1, acc.2 + el stream fm.bits acc.1 * 2 ^ (fm.bits * e))) (0, 0)
        let s := s.putVec 6 d.val (BitVec.ofNat 2048 v.2) (c.onBits fm g.val)
        .ok (s.upd (fun c => c.take r q b))) s

/-- VXPND zero, qN (R291): the entry begun is dropped. -/
def execVxpndDrop (q : Fin 16) (f : Fin 8) (s : State) : Out :=
  slotOp (.vxpndDrop q f)
    (fun s =>
      if xpndClash q s.issue.bundle then .error (.ring q.val 8)
      else .ok (s.upd (fun c => if (s.view.ring q).sr = 0 then c else c.take (s.view.ring q) q (256 - (s.view.ring q).sr)))) s

end Sys2Proof.Machine
end

