-- ==== Sys2Proof/Machine/Dispatch.lean ====
section
/-! DEFINITION. The meaning of every constructor of Instr: one arm each, in the table's order. -/

namespace Sys2Proof.Machine

def exec (i : Instr) (s : State) : Host.Outcome State Fault Refusal :=
  match i with
  | .add a0 a1 a2 => Sys2Proof.Machine.execAdd a0 a1 a2 s
  | .sub a0 a1 a2 => Sys2Proof.Machine.execSub a0 a1 a2 s
  | .mul a0 a1 a2 => Sys2Proof.Machine.execMul a0 a1 a2 s
  | .mulh a0 a1 a2 => Sys2Proof.Machine.execMulh a0 a1 a2 s
  | .mulhn a0 a1 a2 => Sys2Proof.Machine.execMulhn a0 a1 a2 s
  | .div a0 a1 a2 => Sys2Proof.Machine.execDiv a0 a1 a2 s
  | .divn a0 a1 a2 => Sys2Proof.Machine.execDivn a0 a1 a2 s
  | .rem a0 a1 a2 => Sys2Proof.Machine.execRem a0 a1 a2 s
  | .remn a0 a1 a2 => Sys2Proof.Machine.execRemn a0 a1 a2 s
  | .and a0 a1 a2 => Sys2Proof.Machine.execAnd a0 a1 a2 s
  | .or a0 a1 a2 => Sys2Proof.Machine.execOr a0 a1 a2 s
  | .xor a0 a1 a2 => Sys2Proof.Machine.execXor a0 a1 a2 s
  | .shl a0 a1 a2 => Sys2Proof.Machine.execShl a0 a1 a2 s
  | .shr a0 a1 a2 => Sys2Proof.Machine.execShr a0 a1 a2 s
  | .sra a0 a1 a2 => Sys2Proof.Machine.execSra a0 a1 a2 s
  | .min a0 a1 a2 => Sys2Proof.Machine.execMin a0 a1 a2 s
  | .max a0 a1 a2 => Sys2Proof.Machine.execMax a0 a1 a2 s
  | .minn a0 a1 a2 => Sys2Proof.Machine.execMinn a0 a1 a2 s
  | .maxn a0 a1 a2 => Sys2Proof.Machine.execMaxn a0 a1 a2 s
  | .clz a0 a1 => Sys2Proof.Machine.execClz a0 a1 s
  | .popc a0 a1 => Sys2Proof.Machine.execPopc a0 a1 s
  | .sel a0 a1 a2 a3 => Sys2Proof.Machine.execSel a0 a1 a2 a3 s
  | .cmp a0 a1 a2 a3 => Sys2Proof.Machine.execCmp a0 a1 a2 a3 s
  | .pand a0 a1 a2 => Sys2Proof.Machine.execPand a0 a1 a2 s
  | .por a0 a1 a2 => Sys2Proof.Machine.execPor a0 a1 a2 s
  | .pxor a0 a1 a2 => Sys2Proof.Machine.execPxor a0 a1 a2 s
  | .pnot a0 a1 => Sys2Proof.Machine.execPnot a0 a1 s
  | .jr a0 a1 => Sys2Proof.Machine.execJr a0 a1 s
  | .ret a0 => Sys2Proof.Machine.execRet a0 s
  | .addi a0 a1 a2 => Sys2Proof.Machine.execAddi a0 a1 a2 s
  | .andi a0 a1 a2 => Sys2Proof.Machine.execAndi a0 a1 a2 s
  | .ori a0 a1 a2 => Sys2Proof.Machine.execOri a0 a1 a2 s
  | .xori a0 a1 a2 => Sys2Proof.Machine.execXori a0 a1 a2 s
  | .shli a0 a1 a2 => Sys2Proof.Machine.execShli a0 a1 a2 s
  | .shri a0 a1 a2 => Sys2Proof.Machine.execShri a0 a1 a2 s
  | .srai a0 a1 a2 => Sys2Proof.Machine.execSrai a0 a1 a2 s
  | .cmpi a0 a1 a2 a3 => Sys2Proof.Machine.execCmpi a0 a1 a2 a3 s
  | .lih a0 a1 => Sys2Proof.Machine.execLih a0 a1 s
  | .br a0 => Sys2Proof.Machine.execBr a0 s
  | .brc a0 a1 a2 => Sys2Proof.Machine.execBrc a0 a1 a2 s
  | .call a0 => Sys2Proof.Machine.execCall a0 s
  | .loop a0 a1 a2 a3 => Sys2Proof.Machine.execLoop a0 a1 a2 a3 s
  | .loopi a0 a1 a2 a3 => Sys2Proof.Machine.execLoopi a0 a1 a2 a3 s
  | .lexit a0 => Sys2Proof.Machine.execLexit a0 s
  | .ld a0 a1 a2 a3 => Sys2Proof.Machine.execLd a0 a1 a2 a3 s
  | .st a0 a1 a2 a3 => Sys2Proof.Machine.execSt a0 a1 a2 a3 s
  | .ldc a0 a1 a2 a3 => Sys2Proof.Machine.execLdc a0 a1 a2 a3 s
  | .stc a0 a1 a2 a3 => Sys2Proof.Machine.execStc a0 a1 a2 a3 s
  | .csrr a0 a1 => Sys2Proof.Machine.execCsrr a0 a1 s
  | .csrw a0 a1 a2 a3 => Sys2Proof.Machine.execCsrw a0 a1 a2 a3 s
  | .csrs a0 a1 a2 a3 => Sys2Proof.Machine.execCsrs a0 a1 a2 a3 s
  | .csrc a0 a1 a2 a3 => Sys2Proof.Machine.execCsrc a0 a1 a2 a3 s
  | .radv a0 a1 a2 a3 => Sys2Proof.Machine.execRadv a0 a1 a2 a3 s
  | .rcfg a0 a1 a2 a3 => Sys2Proof.Machine.execRcfg a0 a1 a2 a3 s
  | .rfill a0 a1 => Sys2Proof.Machine.execRfill a0 a1 s
  | .fence a0 a1 a2 => Sys2Proof.Machine.execFence a0 a1 a2 s
  | .waitb a0 => Sys2Proof.Machine.execWaitb a0 s
  | .waitt a0 => Sys2Proof.Machine.execWaitt a0 s
  | .trap a0 => Sys2Proof.Machine.execTrap a0 s
  | .brkpt a0 => Sys2Proof.Machine.execBrkpt a0 s
  | .exit => Sys2Proof.Machine.execExit s
  | .turn a0 a1 => Sys2Proof.Machine.execTurn a0 a1 s
  | .yield => Sys2Proof.Machine.execYield s
  | .book a0 a1 a2 => Sys2Proof.Machine.execBook a0 a1 a2 s
  | .unbook a0 a1 a2 => Sys2Proof.Machine.execUnbook a0 a1 a2 s
  | .bqry a0 a1 a2 => Sys2Proof.Machine.execBqry a0 a1 a2 s
  | .spawn a0 a1 a2 => Sys2Proof.Machine.execSpawn a0 a1 a2 s
  | .cancel a0 a1 a2 => Sys2Proof.Machine.execCancel a0 a1 a2 s
  | .vadd a0 a1 a2 a3 a4 => Sys2Proof.Machine.execVadd a0 a1 a2 a3 a4 s
  | .vsub a0 a1 a2 a3 a4 => Sys2Proof.Machine.execVsub a0 a1 a2 a3 a4 s
  | .vmul a0 a1 a2 a3 a4 => Sys2Proof.Machine.execVmul a0 a1 a2 a3 a4 s
  | .vfma a0 a1 a2 a3 a4 => Sys2Proof.Machine.execVfma a0 a1 a2 a3 a4 s
  | .vfms a0 a1 a2 a3 a4 => Sys2Proof.Machine.execVfms a0 a1 a2 a3 a4 s
  | .vfnma a0 a1 a2 a3 a4 => Sys2Proof.Machine.execVfnma a0 a1 a2 a3 a4 s
  | .vmin a0 a1 a2 a3 a4 => Sys2Proof.Machine.execVmin a0 a1 a2 a3 a4 s
  | .vmax a0 a1 a2 a3 a4 => Sys2Proof.Machine.execVmax a0 a1 a2 a3 a4 s
  | .vabs a0 a1 a2 a3 => Sys2Proof.Machine.execVabs a0 a1 a2 a3 s
  | .vneg a0 a1 a2 a3 => Sys2Proof.Machine.execVneg a0 a1 a2 a3 s
  | .vrcp a0 a1 a2 a3 => Sys2Proof.Machine.execVrcp a0 a1 a2 a3 s
  | .vrsq a0 a1 a2 a3 => Sys2Proof.Machine.execVrsq a0 a1 a2 a3 s
  | .vsqrt a0 a1 a2 a3 => Sys2Proof.Machine.execVsqrt a0 a1 a2 a3 s
  | .vexp2 a0 a1 a2 a3 => Sys2Proof.Machine.execVexp2 a0 a1 a2 a3 s
  | .vlog2 a0 a1 a2 a3 => Sys2Proof.Machine.execVlog2 a0 a1 a2 a3 s
  | .vtanh a0 a1 a2 a3 => Sys2Proof.Machine.execVtanh a0 a1 a2 a3 s
  | .viadd a0 a1 a2 a3 a4 => Sys2Proof.Machine.execViadd a0 a1 a2 a3 a4 s
  | .visub a0 a1 a2 a3 a4 => Sys2Proof.Machine.execVisub a0 a1 a2 a3 a4 s
  | .vimul a0 a1 a2 a3 a4 => Sys2Proof.Machine.execVimul a0 a1 a2 a3 a4 s
  | .vimulh a0 a1 a2 a3 a4 => Sys2Proof.Machine.execVimulh a0 a1 a2 a3 a4 s
  | .viadds a0 a1 a2 a3 a4 => Sys2Proof.Machine.execViadds a0 a1 a2 a3 a4 s
  | .visubs a0 a1 a2 a3 a4 => Sys2Proof.Machine.execVisubs a0 a1 a2 a3 a4 s
  | .vimin a0 a1 a2 a3 a4 => Sys2Proof.Machine.execVimin a0 a1 a2 a3 a4 s
  | .vimax a0 a1 a2 a3 a4 => Sys2Proof.Machine.execVimax a0 a1 a2 a3 a4 s
  | .viminn a0 a1 a2 a3 a4 => Sys2Proof.Machine.execViminn a0 a1 a2 a3 a4 s
  | .vimaxn a0 a1 a2 a3 a4 => Sys2Proof.Machine.execVimaxn a0 a1 a2 a3 a4 s
  | .vand a0 a1 a2 a3 a4 => Sys2Proof.Machine.execVand a0 a1 a2 a3 a4 s
  | .vor a0 a1 a2 a3 a4 => Sys2Proof.Machine.execVor a0 a1 a2 a3 a4 s
  | .vxor a0 a1 a2 a3 a4 => Sys2Proof.Machine.execVxor a0 a1 a2 a3 a4 s
  | .vshl a0 a1 a2 a3 a4 => Sys2Proof.Machine.execVshl a0 a1 a2 a3 a4 s
  | .vshr a0 a1 a2 a3 a4 => Sys2Proof.Machine.execVshr a0 a1 a2 a3 a4 s
  | .vsra a0 a1 a2 a3 a4 => Sys2Proof.Machine.execVsra a0 a1 a2 a3 a4 s
  | .vcmp a0 a1 a2 a3 a4 a5 => Sys2Proof.Machine.execVcmp a0 a1 a2 a3 a4 a5 s
  | .vsel a0 a1 a2 a3 a4 => Sys2Proof.Machine.execVsel a0 a1 a2 a3 a4 s
  | .vmand a0 a1 a2 => Sys2Proof.Machine.execVmand a0 a1 a2 s
  | .vmor a0 a1 a2 => Sys2Proof.Machine.execVmor a0 a1 a2 s
  | .vmxor a0 a1 a2 => Sys2Proof.Machine.execVmxor a0 a1 a2 s
  | .vmnot a0 a1 => Sys2Proof.Machine.execVmnot a0 a1 s
  | .vmpop a0 a1 => Sys2Proof.Machine.execVmpop a0 a1 s
  | .vcvt a0 a1 a2 a3 a4 => Sys2Proof.Machine.execVcvt a0 a1 a2 a3 a4 s
  | .vqnt a0 a1 a2 a3 a4 a5 => Sys2Proof.Machine.execVqnt a0 a1 a2 a3 a4 a5 s
  | .vdqnt a0 a1 a2 a3 a4 a5 => Sys2Proof.Machine.execVdqnt a0 a1 a2 a3 a4 a5 s
  | .vpack a0 a1 a2 a3 a4 => Sys2Proof.Machine.execVpack a0 a1 a2 a3 a4 s
  | .vunpk a0 a1 a2 a3 => Sys2Proof.Machine.execVunpk a0 a1 a2 a3 s
  | .vmov a0 a1 a2 a3 => Sys2Proof.Machine.execVmov a0 a1 a2 a3 s
  | .vmovi a0 a1 a2 a3 => Sys2Proof.Machine.execVmovi a0 a1 a2 a3 s
  | .vperm a0 a1 a2 a3 a4 => Sys2Proof.Machine.execVperm a0 a1 a2 a3 a4 s
  | .vshuf a0 a1 a2 a3 a4 => Sys2Proof.Machine.execVshuf a0 a1 a2 a3 a4 s
  | .vrot a0 a1 a2 a3 a4 => Sys2Proof.Machine.execVrot a0 a1 a2 a3 a4 s
  | .vbcst a0 a1 a2 a3 => Sys2Proof.Machine.execVbcst a0 a1 a2 a3 s
  | .vidx a0 a1 a2 a3 a4 => Sys2Proof.Machine.execVidx a0 a1 a2 a3 a4 s
  | .vins a0 a1 a2 a3 a4 => Sys2Proof.Machine.execVins a0 a1 a2 a3 a4 s
  | .vext a0 a1 a2 a3 => Sys2Proof.Machine.execVext a0 a1 a2 a3 s
  | .vrsum a0 a1 a2 a3 => Sys2Proof.Machine.execVrsum a0 a1 a2 a3 s
  | .vrmax a0 a1 a2 a3 => Sys2Proof.Machine.execVrmax a0 a1 a2 a3 s
  | .vrmin a0 a1 a2 a3 => Sys2Proof.Machine.execVrmin a0 a1 a2 a3 s
  | .vscan a0 a1 a2 a3 => Sys2Proof.Machine.execVscan a0 a1 a2 a3 s
  | .vsort a0 a1 a2 a3 => Sys2Proof.Machine.execVsort a0 a1 a2 a3 s
  | .vld a0 a1 a2 a3 => Sys2Proof.Machine.execVld a0 a1 a2 a3 s
  | .vst a0 a1 a2 a3 => Sys2Proof.Machine.execVst a0 a1 a2 a3 s
  | .vlds a0 a1 a2 a3 a4 => Sys2Proof.Machine.execVlds a0 a1 a2 a3 a4 s
  | .vsts a0 a1 a2 a3 a4 => Sys2Proof.Machine.execVsts a0 a1 a2 a3 a4 s
  | .vgth a0 a1 a2 a3 a4 => Sys2Proof.Machine.execVgth a0 a1 a2 a3 a4 s
  | .vsct a0 a1 a2 a3 a4 => Sys2Proof.Machine.execVsct a0 a1 a2 a3 a4 s
  | .vldc a0 a1 a2 a3 => Sys2Proof.Machine.execVldc a0 a1 a2 a3 s
  | .vstc a0 a1 a2 a3 => Sys2Proof.Machine.execVstc a0 a1 a2 a3 s
  | .vcmpr a0 a1 a2 a3 => Sys2Proof.Machine.execVcmpr a0 a1 a2 a3 s
  | .vcmprFlush a0 a1 => Sys2Proof.Machine.execVcmprFlush a0 a1 s
  | .vxpnd a0 a1 a2 a3 => Sys2Proof.Machine.execVxpnd a0 a1 a2 a3 s
  | .vxpndDrop a0 a1 => Sys2Proof.Machine.execVxpndDrop a0 a1 s
  | .mldb a0 a1 a2 a3 a4 a5 => Sys2Proof.Machine.execMldb a0 a1 a2 a3 a4 a5 s
  | .mstep a0 a1 a2 a3 a4 a5 a6 a7 => Sys2Proof.Machine.execMstep a0 a1 a2 a3 a4 a5 a6 a7 s
  | .mzero a0 a1 => Sys2Proof.Machine.execMzero a0 a1 s
  | .mrd a0 a1 a2 a3 a4 a5 a6 a7 => Sys2Proof.Machine.execMrd a0 a1 a2 a3 a4 a5 a6 a7 s
  | .mwr a0 a1 a2 a3 a4 => Sys2Proof.Machine.execMwr a0 a1 a2 a3 a4 s
  | .mbias a0 a1 a2 a3 a4 => Sys2Proof.Machine.execMbias a0 a1 a2 a3 a4 s
  | .xput a0 a1 a2 a3 => Sys2Proof.Machine.execXput a0 a1 a2 a3 s
  | .xget a0 a1 a2 a3 => Sys2Proof.Machine.execXget a0 a1 a2 a3 s
  | .xclr a0 => Sys2Proof.Machine.execXclr a0 s
  | .cdset a0 a1 a2 a3 => Sys2Proof.Machine.execCdset a0 a1 a2 a3 s
  | .cget a0 a1 a2 a3 a4 a5 a6 a7 a8 a9 a10 => Sys2Proof.Machine.execCget a0 a1 a2 a3 a4 a5 a6 a7 a8 a9 a10 s
  | .cput a0 a1 a2 a3 a4 a5 a6 a7 a8 a9 a10 => Sys2Proof.Machine.execCput a0 a1 a2 a3 a4 a5 a6 a7 a8 a9 a10 s
  | .cxfer a0 a1 a2 a3 a4 a5 a6 a7 a8 => Sys2Proof.Machine.execCxfer a0 a1 a2 a3 a4 a5 a6 a7 a8 s
  | .cfill a0 a1 a2 a3 a4 a5 a6 a7 a8 a9 => Sys2Proof.Machine.execCfill a0 a1 a2 a3 a4 a5 a6 a7 a8 a9 s
  | .ctouch a0 a1 a2 a3 a4 a5 a6 => Sys2Proof.Machine.execCtouch a0 a1 a2 a3 a4 a5 a6 s
  | .cflush a0 a1 a2 a3 a4 a5 a6 => Sys2Proof.Machine.execCflush a0 a1 a2 a3 a4 a5 a6 s
  | .cmap a0 a1 a2 a3 a4 a5 => Sys2Proof.Machine.execCmap a0 a1 a2 a3 a4 a5 s
  | .cmigr a0 a1 a2 a3 a4 a5 a6 a7 => Sys2Proof.Machine.execCmigr a0 a1 a2 a3 a4 a5 a6 a7 s
  | .cpfx a0 a1 a2 a3 => Sys2Proof.Machine.execCpfx a0 a1 a2 a3 s
  | .aadd a0 a1 a2 a3 a4 a5 a6 a7 a8 => Sys2Proof.Machine.execAadd a0 a1 a2 a3 a4 a5 a6 a7 a8 s
  | .afadd a0 a1 a2 a3 a4 a5 a6 a7 a8 => Sys2Proof.Machine.execAfadd a0 a1 a2 a3 a4 a5 a6 a7 a8 s
  | .aand a0 a1 a2 a3 a4 a5 a6 a7 a8 => Sys2Proof.Machine.execAand a0 a1 a2 a3 a4 a5 a6 a7 a8 s
  | .aor a0 a1 a2 a3 a4 a5 a6 a7 a8 => Sys2Proof.Machine.execAor a0 a1 a2 a3 a4 a5 a6 a7 a8 s
  | .axor a0 a1 a2 a3 a4 a5 a6 a7 a8 => Sys2Proof.Machine.execAxor a0 a1 a2 a3 a4 a5 a6 a7 a8 s
  | .amin a0 a1 a2 a3 a4 a5 a6 a7 a8 => Sys2Proof.Machine.execAmin a0 a1 a2 a3 a4 a5 a6 a7 a8 s
  | .amax a0 a1 a2 a3 a4 a5 a6 a7 a8 => Sys2Proof.Machine.execAmax a0 a1 a2 a3 a4 a5 a6 a7 a8 s
  | .aminn a0 a1 a2 a3 a4 a5 a6 a7 a8 => Sys2Proof.Machine.execAminn a0 a1 a2 a3 a4 a5 a6 a7 a8 s
  | .amaxn a0 a1 a2 a3 a4 a5 a6 a7 a8 => Sys2Proof.Machine.execAmaxn a0 a1 a2 a3 a4 a5 a6 a7 a8 s
  | .axchg a0 a1 a2 a3 a4 a5 a6 a7 a8 => Sys2Proof.Machine.execAxchg a0 a1 a2 a3 a4 a5 a6 a7 a8 s
  | .acas a0 a1 a2 a3 a4 a5 a6 a7 a8 => Sys2Proof.Machine.execAcas a0 a1 a2 a3 a4 a5 a6 a7 a8 s
  | .adecp a0 a1 a2 a3 a4 a5 a6 a7 a8 => Sys2Proof.Machine.execAdecp a0 a1 a2 a3 a4 a5 a6 a7 a8 s
  | .adcas a0 a1 a2 a3 a4 a5 a6 a7 a8 => Sys2Proof.Machine.execAdcas a0 a1 a2 a3 a4 a5 a6 a7 a8 s
  | .amove a0 a1 a2 a3 a4 a5 a6 a7 a8 => Sys2Proof.Machine.execAmove a0 a1 a2 a3 a4 a5 a6 a7 a8 s
  | .ared a0 a1 a2 a3 a4 a5 a6 => Sys2Proof.Machine.execAred a0 a1 a2 a3 a4 a5 a6 s
  | .waita a0 a1 a2 a3 a4 a5 a6 a7 a8 => Sys2Proof.Machine.execWaita a0 a1 a2 a3 a4 a5 a6 a7 a8 s
  | .wake a0 a1 a2 a3 a4 a5 a6 a7 => Sys2Proof.Machine.execWake a0 a1 a2 a3 a4 a5 a6 a7 s
  | .psend a0 a1 a2 a3 a4 a5 a6 a7 => Sys2Proof.Machine.execPsend a0 a1 a2 a3 a4 a5 a6 a7 s
  | .precv a0 a1 a2 a3 a4 a5 a6 a7 => Sys2Proof.Machine.execPrecv a0 a1 a2 a3 a4 a5 a6 a7 s
  | .pclose a0 a1 a2 => Sys2Proof.Machine.execPclose a0 a1 a2 s
  | .tbar a0 a1 a2 a3 a4 => Sys2Proof.Machine.execTbar a0 a1 a2 a3 a4 s
  | .barsig a0 a1 a2 a3 => Sys2Proof.Machine.execBarsig a0 a1 a2 a3 s
  | .barset a0 a1 a2 => Sys2Proof.Machine.execBarset a0 a1 a2 s
  | .ixopen a0 a1 a2 a3 a4 => Sys2Proof.Machine.execIxopen a0 a1 a2 a3 a4 s
  | .ixlist a0 a1 a2 a3 a4 a5 a6 a7 => Sys2Proof.Machine.execIxlist a0 a1 a2 a3 a4 a5 a6 a7 s
  | .ixand a0 a1 a2 a3 => Sys2Proof.Machine.execIxand a0 a1 a2 a3 s
  | .ixor a0 a1 a2 a3 => Sys2Proof.Machine.execIxor a0 a1 a2 a3 s
  | .ixscore a0 a1 a2 a3 => Sys2Proof.Machine.execIxscore a0 a1 a2 a3 s
  | .ixvec a0 a1 a2 a3 a4 a5 a6 => Sys2Proof.Machine.execIxvec a0 a1 a2 a3 a4 a5 a6 s
  | .ixtopk a0 a1 a2 => Sys2Proof.Machine.execIxtopk a0 a1 a2 s
  | .ixdrain a0 a1 a2 a3 a4 a5 a6 => Sys2Proof.Machine.execIxdrain a0 a1 a2 a3 a4 a5 a6 s
  | .ixclose a0 a1 a2 => Sys2Proof.Machine.execIxclose a0 a1 a2 s
  | .waittResume a0 => Sys2Proof.Machine.execWaittResume a0 s
  | .ccRequestServe a0 => Sys2Proof.Machine.execCcRequestServe a0 s
  | .bookingLapse a0 a1 => Sys2Proof.Machine.execBookingLapse a0 a1 s
  | .mstepComplete a0 => Sys2Proof.Machine.execMstepComplete a0 s
  | .resultLand a0 => Sys2Proof.Machine.execResultLand a0 s
  | .cxferTargetSignal a0 a1 => Sys2Proof.Machine.execCxferTargetSignal a0 a1 s
  | .psendStore a0 a1 => Sys2Proof.Machine.execPsendStore a0 a1 s
  | .precvReceive a0 a1 => Sys2Proof.Machine.execPrecvReceive a0 a1 s
  | .ixCommandStart a0 a1 => Sys2Proof.Machine.execIxCommandStart a0 a1 s
  | .commandAccept a0 a1 => Sys2Proof.Machine.execCommandAccept a0 a1 s
  | .commandComplete a0 a1 => Sys2Proof.Machine.execCommandComplete a0 a1 s
  | .pageFaultResolved a0 a1 => Sys2Proof.Machine.execPageFaultResolved a0 a1 s
  | .pageFaultUnresolvable a0 a1 => Sys2Proof.Machine.execPageFaultUnresolvable a0 a1 s
  | .invtlb a0 a1 a2 a3 => Sys2Proof.Machine.execInvtlb a0 a1 a2 a3 s
  | .invtlbComplete a0 => Sys2Proof.Machine.execInvtlbComplete a0 s
  | .migrationPage a0 => Sys2Proof.Machine.execMigrationPage a0 s
  | .calendarTick a0 => Sys2Proof.Machine.execCalendarTick a0 s
  | .headlandResolve a0 => Sys2Proof.Machine.execHeadlandResolve a0 s
  | .graceExpiry a0 => Sys2Proof.Machine.execGraceExpiry a0 s
  | .overrun a0 => Sys2Proof.Machine.execOverrun a0 s
  | .stakePlace a0 => Sys2Proof.Machine.execStakePlace a0 s
  | .stakeLapse a0 => Sys2Proof.Machine.execStakeLapse a0 s
  | .stageTeam a0 => Sys2Proof.Machine.execStageTeam a0 s
  | .taskRelease a0 => Sys2Proof.Machine.execTaskRelease a0 s
  | .teamPlace a0 => Sys2Proof.Machine.execTeamPlace a0 s
  | .quantumExpiry a0 => Sys2Proof.Machine.execQuantumExpiry a0 s
  | .preempt a0 => Sys2Proof.Machine.execPreempt a0 s
  | .drainEnd a0 => Sys2Proof.Machine.execDrainEnd a0 s
  | .swapOutComplete a0 => Sys2Proof.Machine.execSwapOutComplete a0 s
  | .swapInComplete a0 => Sys2Proof.Machine.execSwapInComplete a0 s
  | .instanceComplete a0 => Sys2Proof.Machine.execInstanceComplete a0 s
  | .siblingStop a0 a1 => Sys2Proof.Machine.execSiblingStop a0 a1 s
  | .reservedCycle a0 => Sys2Proof.Machine.execReservedCycle a0 s
  | .refreshUrgent a0 => Sys2Proof.Machine.execRefreshUrgent a0 s
  | .expiryWritebackComplete a0 a1 a2 => Sys2Proof.Machine.execExpiryWritebackComplete a0 a1 a2 s
  | .turnRollback a0 a1 => Sys2Proof.Machine.execTurnRollback a0 a1 s
  | .rollbackRestart a0 => Sys2Proof.Machine.execRollbackRestart a0 s
  | .contextEnd a0 a1 a2 => Sys2Proof.Machine.execContextEnd a0 a1 a2 s
  | .bucketLeak a0 => Sys2Proof.Machine.execBucketLeak a0 s
  | .launchAdmit a0 => Sys2Proof.Machine.execLaunchAdmit a0 s
  | .waitReevaluate a0 => Sys2Proof.Machine.execWaitReevaluate a0 s
  | .deferredWritePerform a0 => Sys2Proof.Machine.execDeferredWritePerform a0 s
  | .queueUnpark a0 => Sys2Proof.Machine.execQueueUnpark a0 s
  | .doorbellNotify a0 => Sys2Proof.Machine.execDoorbellNotify a0 s
  | .permitReturn a0 a1 => Sys2Proof.Machine.execPermitReturn a0 a1 s
  | .reductionContribution a0 a1 a2 a3 => Sys2Proof.Machine.execReductionContribution a0 a1 a2 a3 s
  | .roundTimeout a0 a1 => Sys2Proof.Machine.execRoundTimeout a0 a1 s
  | .peerTimeout a0 a1 => Sys2Proof.Machine.execPeerTimeout a0 a1 s
  | .weightSetVerified a0 => Sys2Proof.Machine.execWeightSetVerified a0 s
  | .cxlLinkTimeout a0 a1 => Sys2Proof.Machine.execCxlLinkTimeout a0 a1 s
  | .csrWrite a0 a1 a2 => Sys2Proof.Machine.execCsrWrite a0 a1 a2 s
  | .vctlWrite a0 a1 => Sys2Proof.Machine.execVctlWrite a0 a1 s
  | .vseedWrite a0 a1 => Sys2Proof.Machine.execVseedWrite a0 a1 s
  | .bstatWrite a0 a1 a2 => Sys2Proof.Machine.execBstatWrite a0 a1 a2 s
  | .moncapWrite a0 a1 => Sys2Proof.Machine.execMoncapWrite a0 a1 s
  | .fallowBundle => Sys2Proof.Machine.execFallowBundle s
  | .tickBoundary => Sys2Proof.Machine.execTickBoundary s
  | .retentionTick => Sys2Proof.Machine.execRetentionTick s
  | .shadowLatchReplay a0 a1 a2 a3 => Sys2Proof.Machine.execShadowLatchReplay a0 a1 a2 a3 s
  | .katRun a0 a1 => Sys2Proof.Machine.execKatRun a0 a1 s
  | .globalScrub a0 a1 => Sys2Proof.Machine.execGlobalScrub a0 a1 s
  | .nop a0 => Sys2Proof.Machine.execNop a0 s
  | .launch a0 => Sys2Proof.Machine.execLaunch a0 s
  | .wait a0 => Sys2Proof.Machine.execWait a0 s
  | .signal a0 => Sys2Proof.Machine.execSignal a0 s
  | .ibCall a0 => Sys2Proof.Machine.execIbCall a0 s
  | .pktFence a0 => Sys2Proof.Machine.execPktFence a0 s
  | .pktBook a0 => Sys2Proof.Machine.execPktBook a0 s
  | .pktCancel a0 => Sys2Proof.Machine.execPktCancel a0 s
  | .counter a0 => Sys2Proof.Machine.execCounter a0 s
  | .timestamp a0 => Sys2Proof.Machine.execTimestamp a0 s
  | .queueEnable a0 => Sys2Proof.Machine.execQueueEnable a0 s
  | .queueDisable a0 => Sys2Proof.Machine.execQueueDisable a0 s
  | .queueDescriptorWrite a0 a1 a2 => Sys2Proof.Machine.execQueueDescriptorWrite a0 a1 a2 s
  | .kickqWrite a0 a1 => Sys2Proof.Machine.execKickqWrite a0 a1 s
  | .msgPlace a0 a1 => Sys2Proof.Machine.execMsgPlace a0 a1 s
  | .msgBook a0 a1 => Sys2Proof.Machine.execMsgBook a0 a1 s
  | .msgStage a0 a1 => Sys2Proof.Machine.execMsgStage a0 a1 s
  | .msgRelease a0 a1 => Sys2Proof.Machine.execMsgRelease a0 a1 s
  | .msgInvtlb a0 a1 => Sys2Proof.Machine.execMsgInvtlb a0 a1 s
  | .msgRetire a0 a1 => Sys2Proof.Machine.execMsgRetire a0 a1 s
  | .msgQuantum a0 a1 => Sys2Proof.Machine.execMsgQuantum a0 a1 s
  | .msgPreempt a0 a1 => Sys2Proof.Machine.execMsgPreempt a0 a1 s
  | .msgCancel a0 a1 => Sys2Proof.Machine.execMsgCancel a0 a1 s
  | .msgBooked a0 a1 => Sys2Proof.Machine.execMsgBooked a0 a1 s
  | .msgNofit a0 a1 => Sys2Proof.Machine.execMsgNofit a0 a1 s
  | .msgStaged a0 a1 => Sys2Proof.Machine.execMsgStaged a0 a1 s
  | .msgHalted a0 a1 => Sys2Proof.Machine.execMsgHalted a0 a1 s
  | .msgSwapped a0 a1 => Sys2Proof.Machine.execMsgSwapped a0 a1 s
  | .msgSlip a0 a1 => Sys2Proof.Machine.execMsgSlip a0 a1 s
  | .msgEvent a0 a1 => Sys2Proof.Machine.execMsgEvent a0 a1 s
  | .msgComplete a0 a1 => Sys2Proof.Machine.execMsgComplete a0 a1 s
  | .msgFault a0 a1 => Sys2Proof.Machine.execMsgFault a0 a1 s
  | .ccFailure a0 a1 => Sys2Proof.Machine.execCcFailure a0 a1 s
  | .moduleStop a0 => Sys2Proof.Machine.execModuleStop a0 s
  | .ctxCreate a0 => Sys2Proof.Machine.execCtxCreate a0 s
  | .ctxDestroy a0 => Sys2Proof.Machine.execCtxDestroy a0 s
  | .mbInvtlb a0 => Sys2Proof.Machine.execMbInvtlb a0 s
  | .migrate a0 => Sys2Proof.Machine.execMigrate a0 s
  | .hashSet a0 => Sys2Proof.Machine.execHashSet a0 s
  | .powerSet a0 => Sys2Proof.Machine.execPowerSet a0 s
  | .ckpt a0 => Sys2Proof.Machine.execCkpt a0 s
  | .restore a0 => Sys2Proof.Machine.execRestore a0 s
  | .keyInstall a0 => Sys2Proof.Machine.execKeyInstall a0 s
  | .wsetRegister a0 => Sys2Proof.Machine.execWsetRegister a0 s
  | .attest a0 => Sys2Proof.Machine.execAttest a0 s
  | .windowOpen a0 => Sys2Proof.Machine.execWindowOpen a0 s
  | .windowClose a0 => Sys2Proof.Machine.execWindowClose a0 s
  | .mbRetire a0 => Sys2Proof.Machine.execMbRetire a0 s
  | .eventRead a0 => Sys2Proof.Machine.execEventRead a0 s
  | .hostCxlMemAccess a0 a1 a2 => Sys2Proof.Machine.execHostCxlMemAccess a0 a1 a2 s
  | .powerGood a0 a1 a2 a3 a4 => Sys2Proof.Machine.execPowerGood a0 a1 a2 a3 a4 s
  | .moduleReset => Sys2Proof.Machine.execModuleReset s
  | .thermalTrip a0 => Sys2Proof.Machine.execThermalTrip a0 s
  | .heartbeat => Sys2Proof.Machine.execHeartbeat s
  | .phiokReplay a0 => Sys2Proof.Machine.execPhiokReplay a0 s
  | .portRetrain a0 a1 => Sys2Proof.Machine.execPortRetrain a0 a1 s
  | .cxlLinkDown => Sys2Proof.Machine.execCxlLinkDown s
  | .cxlLinkUp => Sys2Proof.Machine.execCxlLinkUp s
  | .ideFailure => Sys2Proof.Machine.execIdeFailure s
  | .phiokInboundRequest a0 a1 a2 a3 => Sys2Proof.Machine.execPhiokInboundRequest a0 a1 a2 a3 s
  | .checkpointComplete => Sys2Proof.Machine.execCheckpointComplete s
  | .restoreComplete => Sys2Proof.Machine.execRestoreComplete s
  | .ideKeyProgramming => Sys2Proof.Machine.execIdeKeyProgramming s

end Sys2Proof.Machine
end

