-- ==== Sys2Proof/Machine/Fetch.lean ====
section
/-! DEFINITION. Fetch, check and issue of a bundle (R213-R218, R446, R447): the sequencer of one core in one working
cycle. -/

namespace Sys2Proof.Machine

/-- A fetch fault at `pc`: beyond the code, at or above 2^32, or outside the bank (R447, R450). -/
def fetchTrap (codeLen pc : Nat) : Option Trap :=
  if 2 ^ 32 ≤ pc then some ⟨0x28, 2, pc⟩
  else if codeLen ≤ pc then some ⟨0x28, 1, pc⟩
  else if 262144 ≤ pc then some ⟨0x28, 3, pc⟩
  else none

/-- What the sequencer finds from `pc` on, padding skipped (R213): the address and the bundle there, or a fetch fault. -/
def fetchAt (code : List Byte) (codeLen : Nat) (latch : Slot → Option Nat) : Nat → Nat → Nat × Except Trap Fetched
  | 0, pc => (pc, .error ⟨0x28, 1, pc⟩)
  | k + 1, pc =>
    match fetchTrap codeLen pc with
    | some t => (pc, .error t)
    | none =>
      match parseBundle pc latch (code.drop pc) with
      | .padding => fetchAt code codeLen latch k ((pc / 64 + 1) * 64)
      | f => (pc, .ok f)

/-- The last-op latch of a slot (R215). -/
def Core.latchOf (c : Core) (k : Slot) : Option Nat := c.seq.latch.toList.getD k.index none

/-- Fetch of core `c` at its pc; a bank holds 4,096 lines. -/
def Core.fetch (c : Core) : Nat × Except Trap Fetched :=
  fetchAt c.seq.code c.seq.codeLen c.latchOf 4097 c.seq.pc

/-- Steps 2 to 4 of R446 on a slot body that decodes to no operation. MRD's band register is a reserved field where the
selected format is not 6, and comes before a reserved operand (R295, R307). -/
def Core.bodyTrap (c : Core) (k : Slot) (w : Nat) : BodyFault → Trap
  | .opcode op => ⟨3, op, 0⟩
  | .field b => .reservedField b
  | .operand b =>
    let band := w / 2 ^ 23 % 64
    if k = .m ∧ w / 2 ^ 58 = 4 ∧ band ≠ 0 ∧ c.selected (w / 2 ^ 48 % 8) (w / 2 ^ 44 % 16) ≠ 6 then
      .reservedField (23 + lowBit band)
    else .reservedOperand b

/-- The operations of a bundle that decode, by slot. -/
def bundleOps (b : Bundle) : List (Slot × Instr) :=
  b.slots.filterMap (fun x => match x.body with
    | some w => match decodeBody x.slot w with | .ok i => some (x.slot, i) | .error _ => none
    | none => none)

/-- One slot of the bundle in hand, and then the rest (R217): the first trap ends it. -/
def runSlots (ops : List (Slot × Instr)) : List SlotBody → State → Out
  | [], s => .next s
  | b :: rest, s =>
    let s := { s with issue := { s.issue with slot := b.slot, rep := b.rep, more := !rest.isEmpty,
                                              bundle := (ops.filter (fun x => x.1 ≠ b.slot)).map Prod.snd } }
    match b.body with
    | none => .next (s.takeTrap b.slot.index ⟨2, 0, 0⟩ 0)
    | some w =>
      match decodeBody b.slot w with
      | .error f => .next (s.takeTrap b.slot.index (s.view.bodyTrap b.slot w f) w)
      | .ok i =>
        match exec i s with
        | .next s' => if rest.isEmpty || !s'.issue.more then .next s' else runSlots ops rest s'
        | o => o

/-- Whether the bundle must wait for a result to land: some wait is not met, and none is one that no landing result can
meet (R217, R259, R260). -/
def Core.mustWait (c : Core) (ops : List (Slot × Instr)) : Bool :=
  let w := ops.map (fun x => c.ringState x.2)
  w.contains .later && !(w.any (fun x => match x with | .never _ _ => true | _ => false))

/-- Bytes H, D and I as TRAP_SRC of an illegal bundle holds them (R445). -/
def headerWord (h d i : Nat) : Nat := h + d * 2 ^ 8 + i * 2 ^ 16

/-- What the sequencer finds in the words that it fetches and in those that the bundle's operations read (R434): a bundle that waits reads
nothing yet. -/
def State.meetFlaws (s : State) (n pc : Nat) (b : Bundle) : State :=
  let c := s.core n
  s.flawsFound n (c.wordsFetched pc b.len ++ if c.mustWait (bundleOps b) then [] else c.wordsRead ((bundleOps b).map Prod.snd))

/-- A bundle of which a fetched word is uncorrectable does not issue (R447). -/
def Core.unreadable (c : Core) (pc : Nat) (b : Bundle) : Bool := (c.wordsFetched pc b.len).any Flaw.bad

/-- The bundle at the pc of core `n` issues, or the core traps or waits (R217, R447). -/
def issueBundle (n : Nat) (s : State) : Out :=
  let c := s.core n
  let f := c.fetch
  let pc := f.1
  let s := { s with issue := { Issue.init with core := n } }
  match f.2 with
  | .error t => .next (s.trapCore n t 7 false false pc c.seq.last)
  | .ok .padding => .next s
  | .ok (.malformed r h d i) => .next (s.trapCore n ⟨1, r, pc⟩ 7 false (bitOf d 7) pc (headerWord h d i))
  | .ok (.bundle b) =>
    if c.unreadable pc b then .next (s.flawsFound n (c.wordsFetched pc b.len)) else
    let s := s.meetFlaws n pc b
    let s := s.updCore n (fun c => { c with seq := { c.seq with pc := pc } })
    let s := { s with issue := { s.issue with len := b.len, inc := b.inc } }
    match b.slots with
    | [] => exec .fallowBundle s
    | [_] => runSlots (bundleOps b) b.slots { s with issue := { s.issue with pre := some (s.core n) } }
    | _ =>
      if c.mustWait (bundleOps b) then .next s.stall
      else runSlots (bundleOps b) b.slots { s with issue := { s.issue with pre := some (s.core n) } }

/-- Whether core `n` may issue in the present working cycle (R28, R51, R62, R370, R375). -/
def Core.mayIssue (c : Core) : Bool :=
  decide (c.seq.mode = .running) && c.seq.stop.isNone && c.seq.waitt.isNone && c.rollback.isNone
    && decide (c.seq.busy ≤ c.seq.wc)

/-- A core that was released in cycle 0 of this tick is RUNNING from cycle 1 on (R52). -/
def Core.begun (c : Core) : Core := if c.seq.starts then { c with seq := { c.seq with mode := .running, starts := false } } else c

/-- The sequencer of core `n` in one working cycle. -/
def issueCore (n : Nat) (s : State) : Out :=
  let s := if (s.core n).seq.starts then s.updCore n Core.begun else s
  if (s.core n).mayIssue then issueBundle n s else .next s

end Sys2Proof.Machine
end

