-- ==== Sys2Proof/Machine/Clock.lean ====
section
/-! DEFINITION. The passing of time from one instant to the next (R9, R73, R111), and packets (R383). -/

namespace Sys2Proof.Machine

/-- The next instant, and the retention clock of 1,100 instants (R111). -/
def State.nextInstant (s : State) : State :=
  { s with instant := (s.instant + 1) % 64, spared := [], rsub := if 1099 ≤ s.rsub then 0 else s.rsub + 1 }

/-- The next instant: its work is put on the agenda; at a tick boundary, by the boundary itself. -/
def advanceClock (s : State) : State :=
  let s := s.nextInstant
  if s.instant = 0 then { s with agenda := [.event .tickBoundary] } else s.instantWork

/-- The next packet of a queue, by its type (R383). -/
def runQueue (q : Nat) (s : State) : Out :=
  match s.packetType q with
  | some 0 => execNop q s
  | some 1 => execLaunch q s
  | some 2 => execWait q s
  | some 3 => execSignal q s
  | some 4 => execIbCall q s
  | some 5 => execPktFence q s
  | some 6 => execPktBook q s
  | some 7 => execPktCancel q s
  | some 8 => execCounter q s
  | some 9 => execTimestamp q s
  | _ => .next (s.badPacket q)

/-- The bring-up after reset (R419): what its tests find present, and whether every stage verifies, are free values (DESIGN CHOICE, log 41). -/
def bringUp (s : State) : Out :=
  let a := s.free
  let b := a.2.free
  let c := b.2.free
  let d := c.2.free
  let e := d.2.free
  execPowerGood a.1 b.1 c.1 d.1 (e.1 % 2 == 1) e.2

/-- What brings a module back that has stopped, was left in reset, or has lost its power (R415, R420, R421, R496): power-good, and, while it has
power, module reset. -/
def revives (power : Power) : Instr → Bool
  | .moduleReset => decide (power ≠ .tripped)
  | .powerGood _ _ _ _ _ => true
  | _ => false

/-- A thermal trip strikes whatever the firmware does (R420): a module that has stopped, too. -/
def tripsStopped (power : Power) : Instr → Bool
  | .thermalTrip _ => decide (power ≠ .tripped)
  | _ => false

/-- A module that has stopped, was left in reset, or has lost its power: module reset, or power-good, which resets it first, or a thermal trip. Nothing
else reaches it. -/
def stepOff (s : State) : Out :=
  match s.inputs with
  | [] => .fault .moduleOff
  | i :: rest =>
    if revives s.power i then exec i { s with inputs := rest }.afterReset
    else if tripsStopped s.power i then exec i { s with inputs := rest }
    else .next { s with inputs := rest }

/-- One piece of work that is performed. -/
def runWork (w : Work) (s : State) : Out :=
  match w with
  | .event i => exec i s
  | .issue n => issueCore n s
  | .packet q => runQueue q s
  | .verge _ => .next s

/-- Of the groups of a cluster on the verge of expiry, those whose fresh masks the writes of the present cycle complete, found by running the
cycle as if none of them expired (R123; DEDUCED, log 77). -/
def State.saves (s : State) (cl : Nat) : List (Nat × Nat × Nat) :=
  let v := s.verges cl
  let t := (s.cycleWork cl).foldl (fun s w => match runWork w s with | .next t => t | _ => s) { s with spared := s.spared ++ v }
  v.filter (fun g => ((t.localOf (8 * cl + g.2.1 % 8) (g.2.1 == 8)).group (2048 * g.2.2)).age = 0)

/-- One piece of work. -/
def doWork (w : Work) (s : State) : Out :=
  match w with
  | .verge cl => .next { s with spared := s.spared ++ s.saves cl }
  | w => runWork w s

/-- What follows when no work is left: a happening outside, else the bring-up or the next instant (DESIGN CHOICE, log 63). -/
def idleStep (s : State) : Out :=
  match s.inputs with
  | i :: rest => exec i { s with inputs := rest }
  | [] => if s.power = .inReset then bringUp s else .next (advanceClock s)

end Sys2Proof.Machine
end

