-- ==== Sys2Proof/Machine/Step.lean ====
section
/-! DEFINITION. One step of the machine, and the state in which a word is fetched next. -/

namespace Sys2Proof.Machine

/-- One step: the next piece of the present cycle's work, else the next happening outside, else the next instant. -/
def step (s : State) : Host.Outcome State Fault Refusal :=
  if s.power = .stopped ∨ s.power = .tripped ∨ s.power = .bootFailed then stepOff s
  else
    match s.agenda with
    | w :: rest => doWork w { s with agenda := rest }
    | [] => idleStep s

/-- The image that stands for a loaded program (DESIGN CHOICE, log 16): every class declared, the booker privilege, and a profile with a
furrow after every WAITB. -/
def loadedImage (code : List Byte) : Image :=
  { flags := 3, usem := BitVec.allOnes 64, teamSize := 1, gangRole := 0, fmtInit := 0, vctlInit := 0, vseedInit := 1,
    rings := [], furrows := [⟨4096, 0, 65536, 63, 8, true, 15, 8, 255, 255, 65535, 65535, 0⟩], regions := [],
    pipes := [], headlands := [], barriers := [], data := [], code := code }

/-- A core with a program loaded and running at address 0. -/
def Core.loaded (c : Core) (code : List Byte) : Core :=
  { c with seq := { c.seq with mode := .running, pc := 0, code := code, codeLen := code.length, busy := 0, stop := none,
                               waitt := none },
           csr := { c.csr with capm := BitVec.allOnes 64, usem := BitVec.allOnes 64 },
           rollback := none, image := some (loadedImage code), flaws := c.flaws.filter (fun f => decide (f.array ≠ .bank)) }

/-- The state with a table word loaded as the program of core 0, whose bundle is the next work (DESIGN CHOICE, log 16). -/
def State.withFetchWord (s : State) (nbits w : Nat) : State :=
  let s := s.updCore 0 (fun c => c.loaded (tableBytes nbits w))
  { s with power := .up, agenda := [.issue 0] }

end Sys2Proof.Machine
end

