-- ==== Sys2Proof/Safety.lean ====
section
/-! DEFINITION. Safe runs, and the terms in which claims say what an operation does and what it leaves alone. -/

namespace Sys2Proof.Machine

/-- The step from `s` goes on: it ends in a next state. -/
def goesOn (s : State) : Bool :=
  match step s with
  | .next _ => true
  | .fault _ => false
  | .refused _ => false

/-- The module has its power and has not stopped: its agenda runs (R415, R420, R496). -/
def State.Powered (s : State) : Prop := s.power ≠ .stopped ∧ s.power ≠ .tripped ∧ s.power ≠ .bootFailed

/-- Operation `i` completes at `s`: its own effect has made `u` of `s`, and the slot finishes, with the commit of the bundle when it
is the last one (R217). -/
def Effects (i : Instr) (s u : State) : Prop := exec i s = .next (u.finish i)

/-- Operation `i` takes trap `t` at `s` (R444). -/
def Traps (i : Instr) (s : State) (t : Trap) : Prop := exec i s = .next (s.slotTrap i t)

/-- The operation is the last of its bundle, no two slots of the bundle have named one destination (R218), and no slot before it has
left anything for the commit (R365, R369, R370, R372-R374, R376). -/
structure Last (i : Instr) (s : State) : Prop where
  more : s.issue.more = false
  once : firstTwice (s.issue.dests ++ i.dests) = none
  leave : s.issue.leave = .stay
  reseed : s.issue.reseed = false
  post : s.issue.post = none
  moncap : s.issue.moncap = none

/-- `t` differs from `s` in the core in hand and the bundle in hand only: every other core, every cluster and its commons, global
memory, the tables of the GS and the front end, the log and the clocks stand as they were. -/
def OnlyHere (s t : State) : Prop := t = { s.setCore s.here (t.core s.here) with issue := t.issue }

/-- `c'` differs from `c` in what the commit of a bundle moves only: the pc and the sequencer's own records of the bundle, the
loop-back (R253), and the accesses that wait for a port with their results (R30, R247). -/
def Commits (c c' : Core) : Prop :=
  c' = { c with
    seq := { c.seq with pc := c'.seq.pc, last := c'.seq.last, latch := c'.seq.latch, epoch := c'.seq.epoch, inc := c'.seq.inc,
                        complete := c'.seq.complete, busy := c'.seq.busy },
    x := { c.x with lc := c'.x.lc, ps := c'.x.ps, loops := c'.x.loops },
    unserved := c'.unserved, loads := c'.loads }

/-- Operation `i`, the last of its bundle, changes the core in hand by `f` and nothing else but what a commit moves. -/
def Leaves (i : Instr) (s : State) (f : Core → Core) : Prop :=
  ∃ t, exec i s = .next t ∧ OnlyHere s t ∧ Commits (f s.cur) (t.core s.here)

/-- Operation `i` changes the core in hand by `f`; as the last slot of its bundle it changes nothing else but what a commit moves. -/
def Changes (i : Instr) (s : State) (f : Core → Core) : Prop := Effects i s (s.upd f) ∧ (Last i s → Leaves i s f)

/-- No word of the field of core `n` or of its commons has an error, corrected or not (R433-R435). -/
def CleanAt (s : State) (n : Nat) : Prop :=
  (s.core n).field.bad = [] ∧ (s.core n).field.weak = [] ∧ (s.cluster (clusterOf n)).commons.bad = [] ∧
    (s.cluster (clusterOf n)).commons.weak = []

/-- Every memory of the machine is in canonical form: the fields, the commons, tiers 0 to 3 (DESIGN CHOICE, log 1). -/
def MemoryCanonical (s : State) : Prop :=
  (∀ n, memWf (s.core n).field.cells = true) ∧ (∀ k, memWf (s.cluster k).commons.cells = true) ∧
    memWf s.dev.cells = true ∧ memWf s.host.cells = true ∧ memWf s.peer.cells = true

end Sys2Proof.Machine
end

