-- ==== Sys2Proof/Certificates/Slice0/Obligations.lean ====
section
/-! DEFINITION. The statements about this machine, and the tables of the spec that they are written with. -/

namespace Sys2Proof.Machine

/-! ### Results of the S slot, written from the tables of 09_scalar_control.md -/

/-- The register and the value of an operation of latency 1 (R241, R242). -/
def scalarResult (c : Core) : Instr → Option (Fin 64 × Double)
  | .add d a b => some (d, .ofNat 64 ((c.rs a).toNat + (c.rs b).toNat))
  | .sub d a b => some (d, .ofInt 64 ((c.rs a).toInt - (c.rs b).toInt))
  | .and d a b => some (d, c.rs a &&& c.rs b)
  | .or d a b => some (d, c.rs a ||| c.rs b)
  | .xor d a b => some (d, c.rs a ^^^ c.rs b)
  | .shl d a b => some (d, .ofNat 64 ((c.rs a).toNat * 2 ^ ((c.rs b).toNat % 64)))
  | .shr d a b => some (d, .ofNat 64 ((c.rs a).toNat / 2 ^ ((c.rs b).toNat % 64)))
  | .sra d a b => some (d, .ofInt 64 ((c.rs a).toInt / 2 ^ ((c.rs b).toNat % 64)))
  | .min d a b => some (d, .ofInt 64 (min (c.rs a).toInt (c.rs b).toInt))
  | .max d a b => some (d, .ofInt 64 (max (c.rs a).toInt (c.rs b).toInt))
  | .minn d a b => some (d, .ofNat 64 (min (c.rs a).toNat (c.rs b).toNat))
  | .maxn d a b => some (d, .ofNat 64 (max (c.rs a).toNat (c.rs b).toNat))
  | .clz d a => some (d, .ofNat 64 (if c.rs a = 0 then 64 else 63 - (c.rs a).toNat.log2))
  | .popc d a => some (d, .ofNat 64 ((List.range 64).countP (fun k => (c.rs a).getLsbD k)))
  | .sel d a b p => some (d, if c.rp p = true then c.rs a else c.rs b)
  | .addi d a i => some (d, .ofInt 64 ((c.rs a).toInt + (BitVec.ofNat 13 i.val).toInt))
  | .andi d a i => some (d, c.rs a &&& .ofNat 64 i.val)
  | .ori d a i => some (d, c.rs a ||| .ofNat 64 i.val)
  | .xori d a i => some (d, c.rs a ^^^ .ofNat 64 i.val)
  | .shli d a i => some (d, .ofNat 64 ((c.rs a).toNat * 2 ^ i.val))
  | .shri d a i => some (d, .ofNat 64 ((c.rs a).toNat / 2 ^ i.val))
  | .srai d a i => some (d, .ofInt 64 ((c.rs a).toInt / 2 ^ i.val))
  | .lih d i => some (d, .ofInt 64 ((BitVec.ofNat 19 i.val).toInt * 2 ^ 13))
  | _ => none

/-- The register, the latency and the value of a multiplication or a division (R239, R241). -/
def lateResult (c : Core) : Instr → Option (Fin 64 × Nat × Double)
  | .mul d a b => some (d, 3, .ofInt 64 ((c.rs a).toInt * (c.rs b).toInt))
  | .mulh d a b => some (d, 3, .ofInt 64 ((c.rs a).toInt * (c.rs b).toInt / 2 ^ 64))
  | .mulhn d a b => some (d, 3, .ofNat 64 ((c.rs a).toNat * (c.rs b).toNat / 2 ^ 64))
  | .div d a b => some (d, 18, if c.rs b = 0 then .ofInt 64 (-1) else .ofInt 64 ((c.rs a).toInt.tdiv (c.rs b).toInt))
  | .divn d a b => some (d, 18, if c.rs b = 0 then .ofInt 64 (-1) else .ofNat 64 ((c.rs a).toNat / (c.rs b).toNat))
  | .rem d a b => some (d, 18, if c.rs b = 0 then c.rs a else .ofInt 64 ((c.rs a).toInt.tmod (c.rs b).toInt))
  | .remn d a b => some (d, 18, if c.rs b = 0 then c.rs a else .ofNat 64 ((c.rs a).toNat % (c.rs b).toNat))
  | _ => none

/-- A condition code of CMP and CMPI on two values (R243). -/
def ccHolds (a b : Double) : Nat → Option Bool
  | 0 => some (decide (a = b))
  | 1 => some (decide (a ≠ b))
  | 2 => some (decide (a.toInt < b.toInt))
  | 3 => some (decide (b.toInt ≤ a.toInt))
  | 4 => some (decide (a.toNat < b.toNat))
  | 5 => some (decide (b.toNat ≤ a.toNat))
  | _ => none

/-- The predicate and the value of a predicate op (R243). -/
def predResult (c : Core) : Instr → Option (Fin 16 × Bool)
  | .cmp p a b cc => (ccHolds (c.rs a) (c.rs b) cc.val).map (fun v => (p, v))
  | .cmpi cc p a i => (ccHolds (c.rs a) (.ofInt 64 (BitVec.ofNat 13 i.val).toInt) cc.val).map (fun v => (p, v))
  | .pand d a b => some (d, c.rp a && c.rp b)
  | .por d a b => some (d, c.rp a || c.rp b)
  | .pxor d a b => some (d, decide (c.rp a ≠ c.rp b))
  | .pnot d a => some (d, !c.rp a)
  | _ => none

/-- pc + off20, the offset signed, modulo 2^64 (R248). -/
def pcPlus (s : State) (o : Fin 1048576) : Nat := (((s.view.seq.pc : Int) + (BitVec.ofNat 20 o.val).toInt) % 2 ^ 64).toNat

/-- The target of a transfer that is taken, and its link register (R248). -/
def transferOf (s : State) : Instr → Option (Nat × Fin 64)
  | .br o => some (pcPlus s o, 0)
  | .brc p n o => if s.view.rp p = decide (n = 1) then none else some (pcPlus s o, 0)
  | .call o => some (pcPlus s o, 55)
  | .jr d a => some ((s.view.rs a).toNat, d)
  | .ret a => some ((s.view.rs a).toNat, 0)
  | _ => none

/-- A loop as LOOP and LOOPI name it: counter, stages, body and count (R252). -/
def loopOf (s : State) : Instr → Option (Fin 4 × Nat × Nat × Nat)
  | .loop l st b c => some (l, st.val + 1, b.val + 1, (s.view.rs c).toNat)
  | .loopi l st b c => some (l, st.val + 1, b.val + 1, c.val)
  | _ => none

/-- The byte after the bundle in hand (R216). -/
def afterBundle (s : State) : Nat := s.view.seq.pc + s.issue.len

/-- The four checks of R254 pass for a loop of counter `l` with `stages` stages that ends at `e`. -/
def loopFits (loops : List Loop) (l : Fin 4) (stages e : Nat) : Prop :=
  loops.length < 4 ∧ (1 < stages → ∀ x ∈ loops, x.stages ≤ 1) ∧ (∀ x ∈ loops, x.n ≠ l) ∧ (∀ x ∈ loops.head?, e ≤ x.stop)

end Sys2Proof.Machine

open Sys2Proof Sys2Proof.Machine

/-! ### Encoding (08_encoding.md) -/

/-- Decoding the bytes of an encoded operation gives the operation back, with the bytes after it: every well-formed operation of every
slot, and the fallow bundle, with every operand at every value (R212, R213, R219, R223-R225). -/
def Obligations.EncodingRoundTrip : Prop :=
  ∀ (i : Instr) (rest : List (BitVec 8)), i.wf = true → encode i ≠ [] → decode (encode i ++ rest) = some (i, rest)

/-- A body that decodes is the encoding of what it decodes to: no operation has two bodies, and no bit of a body is free (R219,
R223-R225, R453). -/
def Obligations.BodyIsTheEncoding : Prop :=
  ∀ (k : Slot) (w : Nat) (i : Instr), decodeBody k w = .ok i → encodeBody i = some w

/-- Bodies of the spec's examples decode to the operations that they stand for. -/
def Obligations.ExampleBodies : Prop :=
  decodeBody .s 0x40104008 = .ok (.addi 2 2 8) ∧ decodeBody .s 0x02514280 = .ok (.add 10 10 5) ∧
  decodeBody .s 0x80285802 = .ok (.ld 5 2 3 2) ∧ decodeBody .s 0x92008041 = .ok (.csrw 0 4 0x020 1) ∧
  decodeBody .s 0xB138_0000 = .ok (.fence 2 3 1) ∧ decodeBody .s 0xB6000005 = .ok (.trap 5) ∧
  decodeBody .s 0xBA000000 = .ok .exit ∧ decodeBody .v0 0x02182111 = .ok (.vadd 3 1 2 1 1) ∧
  decodeBody .v1 0x50902100 = .ok (.vcmp 2 2 1 2 0 0) ∧ decodeBody .v0 0xA0386020 = .ok (.vld 7 3 2 0) ∧
  decodeBody .x 0x28401000 = .ok (.xget 33 0 1 0) ∧ decodeBody .m 0x0804000000000001 = .ok (.mstep 0 0 4 0 0 0 0 1) ∧
  decodeBody .c0 0x0407320000000000 = .ok (.cget 0 3 2 3 2 0 0 0 0 0 0) ∧
  decodeBody .c1 0x3208B0079F0C8000 = .ok (.axchg 0 4 1 3 30 31 3 1 0)

/-- The opcodes that the maps do not list (R452), as R452 gives them by slot. -/
def Sys2Proof.reservedOpcode : Slot → Nat → Bool
  | .s, op => op == 0 || (0x1E ≤ op && op ≤ 0x1F) || (0x29 ≤ op && op ≤ 0x2F) || (0x33 ≤ op && op ≤ 0x37) || (0x3B ≤ op && op ≤ 0x3F)
      || (0x44 ≤ op && op ≤ 0x47) || (0x4C ≤ op && op ≤ 0x4F) || (0x53 ≤ op && op ≤ 0x57) || (0x65 ≤ op && op ≤ 0x7F)
  | .m, op => op == 0 || (7 ≤ op && op ≤ 0x3F)
  | .x, op => op == 0 || (4 ≤ op && op ≤ 0xF)
  | .c0, op => cReserved op
  | .c1, op => cReserved op
  | .v0, op => vReserved op
  | .v1, op => vReserved op
where
  vReserved (op : Nat) : Bool := op == 0 || (0x0B ≤ op && op ≤ 0x0F) || (0x16 ≤ op && op ≤ 0x17) || op == 0x2F || (0x35 ≤ op && op ≤ 0x37)
    || (0x41 ≤ op && op ≤ 0x47) || (0x4D ≤ op && op ≤ 0x4F) || (0x5A ≤ op && op ≤ 0x7F)
  cReserved (op : Nat) : Bool := op == 0 || (0x0B ≤ op && op ≤ 0x0F) || op == 0x1F || (0x22 ≤ op && op ≤ 0x27) || (0x2E ≤ op && op ≤ 0x2F)
    || (0x39 ≤ op && op ≤ 0x7F)

/-- The place of a body's opcode (R219). -/
def Sys2Proof.opcodePlace : Slot → Nat
  | .s => 25 | .v0 => 25 | .v1 => 25 | .m => 58 | .x => 28 | .c0 => 57 | .c1 => 57

/-- Core `n` with its pc at a bundle, and the bundle in hand before any slot of it; what is wrong in the words that it reads is recorded (R434). -/
def Sys2Proof.Machine.State.atBundle (s : State) (n pc : Nat) (b : Bundle) : State :=
  { (s.meetFlaws n pc b).updCore n (fun c => { c with seq := { c.seq with pc := pc } }) with issue := { Issue.init with core := n, len := b.len, inc := b.inc } }

/-- The same before the one slot of a bundle: slots read the core as it stands now (R218). -/
def Sys2Proof.Machine.State.entering (s : State) (n pc : Nat) (b : Bundle) (x : SlotBody) : State :=
  let u := s.atBundle n pc b
  { u with issue := { u.issue with pre := some (u.core n), slot := x.slot, rep := x.rep } }

/-- A body is refused for its opcode exactly when its opcode is one that R452 lists as reserved; a bundle whose one slot has such a body takes
the illegal-opcode trap; and a header of 0x00 is padding, H = 0x80 with D = 0x00 is a fallow bundle, and no other header is padding. -/
def Obligations.ReservedOpcodes : Prop :=
  (∀ (k : Slot) (w : Nat), w < 2 ^ (8 * k.width) →
    ((∃ op, decodeBody k w = .error (.opcode op)) ↔ reservedOpcode k (w / 2 ^ opcodePlace k) = true) ∧
    (reservedOpcode k (w / 2 ^ opcodePlace k) = true → decodeBody k w = .error (.opcode (w / 2 ^ opcodePlace k)))) ∧
  (∀ (s : State) (rest : List Work) (n pc w : Nat) (b : Bundle) (x : SlotBody),
    s.Powered → s.agenda = .issue n :: rest → (s.core n).seq.starts = false → (s.core n).mayIssue = true →
    (s.core n).fetch = (pc, .ok (.bundle b)) → (s.core n).unreadable pc b = false → b.slots = [x] → x.body = some w → w < 2 ^ (8 * x.slot.width) →
    reservedOpcode x.slot (w / 2 ^ opcodePlace x.slot) = true →
    step s = .next (({ s with agenda := rest }.entering n pc b x).takeTrap x.slot.index ⟨3, w / 2 ^ opcodePlace x.slot, 0⟩ w)) ∧
  (∀ (pc : Nat) (latch : Slot → Option Nat) (l : List Byte),
    (parseBundle pc latch l = .padding ↔ leNat 1 l = 0) ∧
    (pc % 64 + 2 ≤ 64 → parseBundle pc latch (0x80 :: 0x00 :: l) = .bundle ⟨0x80, 0, none, [], 2⟩))

/-! ### The step -/

/-- A step runs the decoded instruction: where the next work is a bundle of core `n`, the core may issue, and the bundle that fetch
finds holds one slot whose body decodes to `i`, the step is `exec i` with the core's pc at the bundle (R213, R217). A fallow bundle
runs likewise; a bundle of which a fetched word is uncorrectable does not issue (R447); a core that has been released begins first (R52), and one
that may not issue does nothing; and a piece of work that is an event runs that event. -/
def Obligations.StepRunsTheDecoded : Prop :=
  (∀ (s : State) (rest : List Work) (n pc w : Nat) (b : Bundle) (x : SlotBody) (i : Instr),
    s.Powered → s.agenda = .issue n :: rest → (s.core n).seq.starts = false → (s.core n).mayIssue = true →
    (s.core n).fetch = (pc, .ok (.bundle b)) → (s.core n).unreadable pc b = false → b.slots = [x] → x.body = some w → decodeBody x.slot w = .ok i →
    step s = exec i ({ s with agenda := rest }.entering n pc b x)) ∧
  (∀ (s : State) (rest : List Work) (n pc : Nat) (b : Bundle),
    s.Powered → s.agenda = .issue n :: rest → (s.core n).seq.starts = false → (s.core n).mayIssue = true →
    (s.core n).fetch = (pc, .ok (.bundle b)) → (s.core n).unreadable pc b = false → b.slots = [] →
    step s = exec .fallowBundle (({ s with agenda := rest } : State).atBundle n pc b)) ∧
  (∀ (s : State) (rest : List Work) (n pc : Nat) (b : Bundle),
    s.Powered → s.agenda = .issue n :: rest → (s.core n).seq.starts = false → (s.core n).mayIssue = true →
    (s.core n).fetch = (pc, .ok (.bundle b)) → (s.core n).unreadable pc b = true →
    step s = .next (({ s with agenda := rest } : State).flawsFound n ((s.core n).wordsFetched pc b.len))) ∧
  (∀ (s : State) (rest : List Work) (n : Nat), s.Powered → s.agenda = .issue n :: rest →
    ((s.core n).seq.starts = true →
      step s = step (s.updCore n (fun c => { c with seq := { c.seq with mode := .running, starts := false } }))) ∧
    ((s.core n).seq.starts = false → (s.core n).mayIssue = false → step s = .next { s with agenda := rest })) ∧
  (∀ (s : State) (rest : List Work) (i : Instr),
    s.Powered → s.agenda = .event i :: rest → step s = exec i { s with agenda := rest })

/-- A word placed by `withFetchWord` is what the next step fetches and runs (DESIGN CHOICE, log 16): for every well-formed operation of a slot in
which the decoder reads its table word. -/
def Obligations.FetchWordRuns : Prop :=
  ∀ (s : State) (nbits w : Nat) (k : Slot) (i : Instr), tableSlot nbits w = some k → decodeBody k w = .ok i → w < 2 ^ (8 * k.width) →
    ∃ u, step (s.withFetchWord nbits w) = exec i u ∧ u.here = 0 ∧ u.issue.slot = k ∧ u.issue.len = 1 + k.width ∧
      u.issue.more = false ∧ (u.core 0).seq.pc = 0 ∧ (u.core 0).x = (s.core 0).x ∧ u.clusters = s.clusters

/-- Every operation and every event answers a next state, whatever the state: none faults, and none is refused. -/
def Obligations.EveryInstructionAnswers : Prop := ∀ (i : Instr) (s : State), ∃ t, exec i s = .next t

/-- A step ends in a fault only where the module has stopped, was left in reset by a boot stage that failed, or has lost its power, and nothing
reaches it from outside (R415, R420, R496), and it is never refused. It rests on the model's own choice (DESIGN CHOICE, log 65).

A module that has stopped, that a failed boot stage left in reset, or whose power a trip has removed, stays so (R415, R420, R421, R496): a step
does nothing but drop what reaches it, until power-good, or module reset where it has not lost its power, which reset it first; and a thermal trip
acts on it, unless its power is gone already. It rests on the model's own choice (DESIGN CHOICE, log 65). -/
def Obligations.OnlyADeadModuleFaults : Prop :=
  (∀ (s : State),
    (¬s.Powered ∧ s.inputs = [] → step s = .fault .moduleOff) ∧
    (s.Powered ∨ s.inputs ≠ [] → ∃ t, step s = .next t)) ∧
  (∀ (s : State) (rest : List Instr), ¬s.Powered →
    (∀ a b c d e, s.inputs = .powerGood a b c d e :: rest → step s = exec (.powerGood a b c d e) ({ s with inputs := rest } : State).afterReset) ∧
    (s.inputs = .moduleReset :: rest →
      step s = if s.power = .tripped then .next { s with inputs := rest } else exec .moduleReset ({ s with inputs := rest } : State).afterReset) ∧
    (∀ k, s.inputs = .thermalTrip k :: rest →
      step s = if s.power = .tripped then .next { s with inputs := rest } else exec (.thermalTrip k) { s with inputs := rest }) ∧
    (∀ i, s.inputs = i :: rest → i ≠ .moduleReset → (∀ a b c d e, i ≠ .powerGood a b c d e) → (∀ k, i ≠ .thermalTrip k) →
      step s = .next { s with inputs := rest }))

/-- The control registers of every core after module reset, as R366 gives them: TEAM_SIZE is 1, VSEED is 1, and CTX_ID apart (boot),
every other task register, the trap record and every counter of the core, its cluster and the selected channel is 0; every barrier has PZ set and
nothing else, and no region is described; the band and the energy measured are 0, MONCAP is 64, STARVE_LIM 4,096 and QUANTUM 65,536; and RTICK and
TICK begin at 0 (R73, R111, R425). -/
def Obligations.ResetRegisters : Prop :=
  ∀ n : Nat, n < 256 →
    let r := fun k => State.reset.csr n (State.reset.core n) k
    r 0x000 = some (BitVec.ofNat 64 n) ∧ r 0x002 = some 0 ∧ r 0x003 = some 1 ∧ r 0x004 = some 0 ∧ r 0x005 = some 0 ∧ r 0x007 = some 0 ∧
    r 0x008 = some 0 ∧ r 0x020 = some 0 ∧ r 0x021 = some 0 ∧ r 0x022 = some 1 ∧ r 0x030 = some 0 ∧ r 0x031 = some 0 ∧ r 0x032 = some 0 ∧
    r 0x033 = some 0 ∧ r 0x034 = some 0 ∧ r 0x035 = some 0 ∧ r 0x300 = some 0 ∧ r 0x301 = some 0 ∧ r 0x302 = some 0 ∧ r 0x303 = some 0 ∧
    r 0x304 = some 0 ∧ r 0x305 = some 0 ∧ (∀ k, k < 4 → r (0x010 + k) = some 0) ∧ (∀ k, k < 32 → r (0x100 + k) = some 0) ∧
    (∀ k, k < 16 → r (0x200 + k) = some (BitVec.ofNat 64 0x20000000000) ∧ r (0x210 + k) = some 0) ∧
    r 0x400 = some 0 ∧ r 0x401 = some 0 ∧ r 0x402 = some 0 ∧ r 0x403 = some 0 ∧ r 0x407 = some 0 ∧ r 0x408 = some 64 ∧
    r 0x40A = some 0 ∧ r 0x40B = some 0 ∧ r 0x40C = some 0 ∧ r 0x40D = some 0 ∧
    r 0x800 = some 0 ∧ r 0x801 = some 0 ∧ r 0x820 = some (BitVec.ofNat 64 4096) ∧ r 0x821 = some (BitVec.ofNat 64 65536)

/-! ### The commit of a bundle and traps -/

/-- The commit of the last slot of a bundle (R217): what it changes, and nothing else. With no loop active, the pc becomes the target
of the taken transfer, or that of a skipped loop body, or the byte after the bundle; the accesses of the bundle wait for their ports from
now on (R30). A slot that others of its bundle follow commits
nothing yet but its latch, and its destinations join the bundle's (R218). A fallow bundle commits likewise: it takes one cycle and falls through
(R213). -/
def Obligations.BundleCommit : Prop :=
  (∀ (i : Instr) (u : State), Last i u →
    let t := u.finish i
    let c' := t.core u.here
    OnlyHere u t ∧ Commits u.cur c' ∧ t.issue = { Issue.init with core := u.here } ∧
    c'.seq.latch = u.cur.seq.latch.setIfInBounds (u.slotOf i).index (some (bodyOf i)) ∧ c'.seq.last = u.cur.seq.pc ∧
    c'.seq.epoch = u.cur.seq.epoch + 1 ∧ c'.seq.complete = u.cur.seq.wc ∧ c'.loads = u.issue.loads ∧
    c'.unserved = u.issue.ports.map (fun p => { p with since := u.tick * 64 + u.instant }) ∧
    c'.seq.inc = (if u.issue.inc.isSome then u.issue.inc else u.cur.seq.inc) ∧
    (∀ a, u.issue.jump = some a → c'.seq.pc = a ∧ c'.seq.busy = u.cur.seq.wc + 2 ∧ c'.x = u.cur.x) ∧
    (u.issue.jump = none → c'.seq.busy = u.cur.seq.wc + 1 ∧
      (u.cur.x.loops = [] → c'.seq.pc = u.issue.skip.getD (u.cur.seq.pc + u.issue.len) ∧ c'.x = u.cur.x))) ∧
  (∀ (i : Instr) (u : State), u.issue.more = true →
    u.finish i = { u.upd (fun c => { c with seq := { c.seq with latch := c.seq.latch.setIfInBounds (u.slotOf i).index (some (bodyOf i)) } })
      with issue := { u.issue with dests := u.issue.dests ++ i.dests } }) ∧
  (∀ (s : State), s.issue.dests = [] → s.issue.leave = .stay → s.issue.reseed = false → s.issue.post = none → s.issue.moncap = none →
    s.issue.jump = none → s.issue.skip = none →
    ∃ t, exec .fallowBundle s = .next t ∧ OnlyHere s t ∧ Commits s.cur (t.core s.here) ∧ (t.core s.here).seq.latch = s.cur.seq.latch ∧
      (t.core s.here).seq.epoch = s.cur.seq.epoch + 1 ∧ (t.core s.here).seq.busy = s.cur.seq.wc + 1 ∧
      (s.cur.x.loops = [] → (t.core s.here).seq.pc = s.cur.seq.pc + s.issue.len ∧ (t.core s.here).x = s.cur.x))

/-- The loop-back (R253): a bundle that ends at the end address of the innermost loop by fall-through adds 1 to its counter; below T
the loop starts again, else it is popped, its counter keeping T; where the next loop ends elsewhere, the pc is then the end address. A
bundle that ends elsewhere changes no loop. The stage predicates that set_stages gives: for the active loop with more than one stage,
whose counter is i, ps_k is true where k ≤ i < count + k, for k below its number of stages; every other one is true. A counter
that passes 2^32 wraps, which is the model's own choice (DESIGN CHOICE, log 90). -/
def Obligations.LoopBackAndStages : Prop :=
  (∀ (c : Core) (iss : Issue) (now : Nat) (l : Loop) (rest : List Loop), iss.jump = none → c.x.loops = l :: rest →
    let e := iss.skip.getD (c.seq.pc + iss.len)
    let c' := c.commitSeq iss now
    (l.stop ≠ e → c'.seq.pc = e ∧ c'.x = c.x) ∧
    (l.stop = e → (c.x.lc[l.n] + 1).toNat < l.total →
      c'.seq.pc = l.start ∧ c'.x.lc = c.x.lc.set l.n (c.x.lc[l.n] + 1) ∧ c'.x.loops = c.x.loops ∧
      (∀ k : Fin 8, c'.x.ps[k] = ({ c with x := { c.x with lc := c.x.lc.set l.n (c.x.lc[l.n] + 1) } } : Core).setStages.x.ps[k])) ∧
    (l.stop = e → l.total ≤ (c.x.lc[l.n] + 1).toNat → (∀ m ∈ rest.head?, m.stop ≠ e) →
      c'.seq.pc = e ∧ c'.x.lc = c.x.lc.set l.n (c.x.lc[l.n] + 1) ∧ c'.x.loops = rest)) ∧
  (∀ (c : Core) (k : Fin 8),
    ((∀ l ∈ c.x.loops, l.stages ≤ 1) → c.setStages.x.ps[k] = true) ∧
    (∀ (pre post : List Loop) (l : Loop), c.x.loops = pre ++ l :: post → (∀ m ∈ pre, m.stages ≤ 1) → 1 < l.stages →
      (c.setStages.x.ps[k] = true ↔
        (k.val < l.stages → k.val ≤ (c.x.lc[l.n]).toNat ∧ (c.x.lc[l.n]).toNat < l.count + k.val))))

/-- A bundle in which two slots name one destination takes the write-conflict trap, and commits nothing (R217, R218): the core is HALTED with
code 9 and slot 7 in its trap record, and all else of it, its cluster and its field stands as before the bundle, but for results of earlier
bundles that land. It rests on the model's own choice (DESIGN CHOICE, log 10). -/
def Obligations.WriteConflict : Prop :=
  ∀ (i : Instr) (u : State) (d : Nat × Nat) (p : Core), u.issue.more = false → u.issue.pre = some p → d ∈ u.issue.dests → d ∈ i.dests →
    let t := u.finish i
    let c' := t.core u.here
    c'.seq.mode = .halted ∧ c'.csr.trapCause.toNat % 65536 = 9 ∧ c'.csr.trapCause.toNat / 65536 % 8 = 7 ∧
    c'.bars = p.settle.bars ∧ c'.desc = p.settle.desc ∧ c'.x = p.settle.x ∧ c'.vec = p.settle.vec ∧ c'.rings = p.settle.rings ∧
    c'.mat = p.settle.mat ∧ c'.seq.latch = p.settle.seq.latch ∧ c'.field = p.field ∧ c'.queue0 = p.queue0 ∧ c'.queue1 = p.queue1 ∧
    t.clusters = u.clusters ∧ t.dev = u.dev ∧ t.host = u.host ∧ t.peer = u.peer ∧ (∀ n, n ≠ u.here → t.core n = u.core n)

/-- Taking a trap (R444, R445): nothing of the bundle commits; results in flight land; TRAP_CAUSE holds code, slot, REP, INC and INFO,
TRAP_PC the bundle's address, TRAP_ADDR and TRAP_SRC what the trap gives; the core enters HALTED; and a record of CLASS 0 and SEV 3
with CODE, ADDR = TRAP_ADDR, DETAIL = TRAP_PC and DETAIL2 = TRAP_SRC is posted. -/
def Obligations.TrapEntry : Prop :=
  ∀ (s : State) (i : Instr) (t : Trap), t.code < 65536 → t.info < 2 ^ 32 → s.view.seq.pc < 2 ^ 64 → t.addr < 2 ^ 64 → bodyOf i < 2 ^ 64 →
    let c := s.view
    let u := s.slotTrap i t
    let c' := u.core s.here
    c' = { c.settle with
      seq := { c.settle.seq with mode := .halted, starts := false, stop := none, wait := none, waitt := none },
      csr := { c.settle.csr with trapCause := c'.csr.trapCause, trapPc := .ofNat 64 c.seq.pc, trapAddr := .ofNat 64 t.addr,
                                 trapSrc := .ofNat 64 (bodyOf i) },
      turn := none, rollback := none } ∧
    c'.csr.trapCause.toNat % 65536 = t.code ∧ c'.csr.trapCause.toNat / 2 ^ 16 % 8 = (s.slotOf i).index ∧
    c'.csr.trapCause.getLsbD 19 = s.issue.rep ∧ c'.csr.trapCause.getLsbD 20 = s.issue.inc.isSome ∧
    c'.csr.trapCause.toNat / 2 ^ 21 % 2 ^ 11 = 0 ∧ c'.csr.trapCause.toNat / 2 ^ 32 = t.info ∧
    u.issue = { Issue.init with core := s.here } ∧
    u.agenda = .event (.siblingStop s.here s.here) :: s.agenda ∧
    (u.cluster (clusterOf s.here)).commons = s.viewCommons ∧
    u.log = s.log.add { code := t.code, cls := 0, sev := 3, ctx := some c'.csr.ctxId.toNat, tick := s.tick, rtick := s.rtick, unit := 0,
                        unitNo := s.here, sub := (s.slotOf i).index, addr := t.addr, detail := c.seq.pc, detail2 := bodyOf i, seq := 0,
                        lost := 0 } ∧
    (∀ n, n ≠ s.here → u.core n = s.core n)

/-- The checks before an operation's own effect (R221, R227, R446, R456). Where no wait on a ring holds the bundle back, steps 3 to 7 of R446, a reserved field, a reserved operand, a reserved
format, an undeclared class and a fenced class, are each taken before anything else of the slot, for every operation of every slot. A class
of the operation that USEM lacks is the undeclared-opcode trap, with the lowest such class in INFO; one that USEM has and CAPM lacks is the
fenced-capability trap. A stage guard that is false makes a null issue of an operation: the slot finishes, its latch filled, and nothing
else of the machine changes before the commit. It rests on the model's own choice (DESIGN CHOICE, log 10). -/
def Obligations.ChecksBeforeEffects : Prop :=
  ∀ (i : Instr) (s : State), i.unit ≠ none →
    (∀ t, s.view.checkTrap i = some t → (s.view.ringState i = .later → s.issue.bundle ≠ []) → Traps i s t) ∧
    (∀ k, s.view.formatTrap i = none → (s.view.ringState i = .later → s.issue.bundle ≠ []) → k ∈ s.view.classesOf i →
      (s.view.csr.usem.getLsbD k = false → (∀ j ∈ s.view.classesOf i, s.view.csr.usem.getLsbD j = false → k ≤ j) → Traps i s ⟨7, k, 0⟩) ∧
      ((∀ j ∈ s.view.classesOf i, s.view.csr.usem.getLsbD j = true) → s.view.csr.capm.getLsbD k = false →
        (∀ j ∈ s.view.classesOf i, s.view.csr.capm.getLsbD j = false → k ≤ j) → Traps i s ⟨8, k, 0⟩)) ∧
    (∀ g, i.guard = some g → 8 ≤ g → s.view.guardOff g = true → s.view.checkTrap i = none → Effects i s s)

/-- Every memory keeps its canonical form over a step that issues a bundle, whatever the bundle holds and however it ends: it commits, waits,
traps, or finds no bundle; and over every access of a slot when its port serves it (R30). It rests on the model's own choice (DESIGN CHOICE,
log 1). -/
def Obligations.BundleKeepsMemoryCanonical : Prop :=
  (∀ (s t : State) (n : Nat) (rest : List Work), s.power = .up → s.agenda = .issue n :: rest → MemoryCanonical s → step s = .next t →
    MemoryCanonical t) ∧
  (∀ (s : State) (n : Nat) (w : PortWait), MemoryCanonical s → MemoryCanonical (s.serveSlot n w))

/-- Memory is in canonical form after module reset. It rests on the model's own choice (DESIGN CHOICE, log 1). -/
def Obligations.ResetMemoryCanonical : Prop := MemoryCanonical State.reset

/-! ### Integer and predicate operations (09_scalar_control.md) -/

/-- s0 reads as 0 and discards every write, a write of any other register is read back, and every other register keeps its value; the
same of p0, which reads as true (R238).

A scalar result of latency L issued in working cycle c is read by every bundle from cycle c + L on, and a bundle before it reads
the register's previous value; every other register keeps its value (R239). A vector register takes the bits that the mask selects
likewise, and a ring entry is full from then on (R268). RESULT_LAND passes one working cycle of a core: with no tile operation on its way,
every result due by then has left the flight (R240). -/
def Obligations.RegisterWrites : Prop :=
  (∀ (c : Core) (d r : Fin 64) (v : Double) (p q : Fin 16) (b : Bool),
    c.rs 0 = 0 ∧ c.rp 0 = true ∧ (c.ws d v).rs r = (if r = d ∧ d ≠ 0 then v else c.rs r) ∧
    (c.wp p b).rp q = (if q = p ∧ p ≠ 0 then b else c.rp q) ∧ (c.ws 0 v) = c ∧ (c.wp 0 b) = c) ∧
  (∀ (c : Core) (l k : Nat), c.flight = [] → c.mat.tiles = [] → 1 ≤ l →
    (∀ (d r : Fin 64) (v : Double), d ≠ 0 → (Core.advance^[k] (c.wsLate l d v)).rs r = if r = d ∧ l ≤ k then v else c.rs r) ∧
    (∀ (d r : Fin 32) (v m : Vec), (Core.advance^[k] (c.launch l (.vreg d) v m)).vec.v[r] =
      if r = d ∧ l ≤ k then (c.vec.v[r] &&& ~~~m) ||| (v &&& m) else c.vec.v[r]) ∧
    (∀ (q : Fin 16) (e : Fin 8) (v : Vec), l ≤ k →
      ((Core.advance^[k] (c.launch l (.entry q e) v (BitVec.allOnes 2048))).ring q).st[e] = .full ∧
      ((Core.advance^[k] (c.launch l (.entry q e) v (BitVec.allOnes 2048))).ring q).data[e] = v)) ∧
  (∀ (s : State) (n : Nat), ∃ t, exec (.resultLand n) s = .next t ∧ t = s.setCore n (t.core n) ∧ t.core n = (s.core n).advance ∧
    (t.core n).seq.wc = (s.core n).seq.wc + 1 ∧
    ((s.core n).mat.tiles = [] → (t.core n).flight = (s.core n).flight.filter (fun l => decide ((s.core n).seq.wc + 1 < l.due))))

/-- The register-register and immediate operations of latency 1 write the result of R241 and R242 to sd, set no flag and trap at
nothing of their own; as the last slot of a bundle they change nothing of the machine but sd and what a commit moves; all are class 0;
and imm13[12:6] of the shifts is reserved zero.

Multiplication and division put the result of R241 in flight, to be visible after the latency of R239; as the last slot of a bundle
they change nothing else of the machine but what a commit moves.

The predicate ops write the predicate of R243, and p0 discards; as the last slot of a bundle they change nothing of the machine but
that predicate and what a commit moves. CMP with f[2:0] = 6 or 7 takes the reserved-field trap. -/
def Obligations.ScalarResults : Prop :=
  (∀ (i : Instr) (s : State) (d : Fin 64) (v : Double), scalarResult s.view i = some (d, v) → Ready i s →
    Changes i s (fun c => c.ws d v) ∧ i.classes = [0]) ∧
  (∀ w : Nat, w / 2 ^ 25 ∈ [0x24, 0x25, 0x26] → w / 2 ^ 6 % 2 ^ 7 ≠ 0 → ∃ b, decodeBody .s w = .error (.field b)) ∧
  (∀ (i : Instr) (s : State) (d : Fin 64) (l : Nat) (v : Double), lateResult s.view i = some (d, l, v) → Ready i s →
    Changes i s (fun c => c.wsLate l d v)) ∧
  (∀ (i : Instr) (s : State) (d : Fin 16) (v : Bool), predResult s.view i = some (d, v) → Ready i s → Changes i s (fun c => c.wp d v)) ∧
  (∀ (s : State) (p : Fin 16) (a b : Fin 64) (cc : Fin 8), 6 ≤ cc.val → Traps (.cmp p a b cc) s ⟨4, 0, 0⟩)

/-! ### Branches, calls and loops -/

/-- Transfers (R248, R249): the link register gets the address of the next bundle, read after the target register; as the last slot of
a bundle a taken transfer sets the pc to its target, the next bundle issues two working cycles later, no loop changes, and nothing else
of the machine changes but what a commit moves. A BRC whose condition does not hold does nothing and costs nothing; BRC !p0 is never
taken. All are class 4. A target below byte 0 wraps modulo 2^64, which is the model's own choice (DESIGN CHOICE, log 89). -/
def Obligations.Transfers : Prop :=
  (∀ (i : Instr) (s : State) (a : Nat) (d : Fin 64), transferOf s i = some (a, d) → Ready i s →
    i.classes = [4] ∧ (∃ u, Effects i s u ∧ u.issue.jump = some a) ∧
    (Last i s → Leaves i s (fun c => c.ws d (.ofNat 64 (afterBundle s))) ∧
      ∃ t, exec i s = .next t ∧ (t.core s.here).seq.pc = a ∧ (t.core s.here).seq.busy = s.cur.seq.wc + 2 ∧
        (t.core s.here).x.loops = s.cur.x.loops ∧ (t.core s.here).x.lc = s.cur.x.lc)) ∧
  (∀ (s : State) (p : Fin 16) (n : Fin 2) (o : Fin 1048576), Ready (.brc p n o) s → transferOf s (.brc p n o) = none →
    (Instr.brc p n o).classes = [4] ∧ Effects (.brc p n o) s s ∧ transferOf s (.brc 0 1 o) = none ∧
      (Last (.brc p n o) s → Leaves (.brc p n o) s id ∧ ∃ t, exec (.brc p n o) s = .next t ∧ (t.core s.here).seq.busy = s.cur.seq.wc + 1))

/-- LOOP and LOOPI (R252): with a count of 0 the body is skipped and nothing is pushed; else the loop is pushed with its start, its end
and its total, its counter is 0, and the stage predicates are set. LEXIT pops the loop of its counter and every loop inside it, goes to
the popped loop's end at the cost of a taken transfer, and leaves the counters alone (R255). -/
def Obligations.Loops : Prop :=
  (∀ (i : Instr) (s : State) (l : Fin 4) (st body count : Nat), loopOf s i = some (l, st, body, count) → Ready i s → count < 2 ^ 32 →
    loopFits s.view.x.loops l st (afterBundle s + body) →
    (count = 0 → Effects i s { s.upd (fun c => { c with x := { c.x with lc := c.x.lc.set l 0 } }) with
      issue := { s.issue with skip := some (afterBundle s + body) } }) ∧
    (0 < count → Effects i s (s.upd (fun c => Core.setStages { c with x := { c.x with
      lc := c.x.lc.set l 0,
      loops := ⟨l, afterBundle s, afterBundle s + body, count, st, if st = 1 then count else count + st - 1⟩ :: c.x.loops } })))) ∧
  (∀ (s : State) (l : Fin 4) (x : Loop) (inner rest : List Loop), Ready (.lexit l) s → s.view.x.loops = inner ++ x :: rest → x.n = l →
    (∀ y ∈ inner, y.n ≠ l) →
    Effects (.lexit l) s
      { s.upd (fun c => Core.setStages { c with x := { c.x with loops := rest } }) with issue := { s.issue with jump := some x.stop } } ∧
    (Core.setStages { s.view with x := { s.view.x with loops := rest } }).x.lc = s.view.x.lc)

/-- The traps of LOOP, LOOPI and LEXIT (R252, R254, R255): a count of 2^32 or more is the loop-count trap, checked first; a fifth loop,
a second staged loop, a counter in use and an end beyond the innermost loop's are the loop-state trap; so is a LEXIT of a counter that
no active loop has. -/
def Obligations.LoopTraps : Prop :=
  (∀ (i : Instr) (s : State) (l : Fin 4) (st body count : Nat), loopOf s i = some (l, st, body, count) → Ready i s →
    (2 ^ 32 ≤ count → Traps i s ⟨0x18, 0, 0⟩) ∧
    (count < 2 ^ 32 → ¬loopFits s.view.x.loops l st (afterBundle s + body) → ∃ r, 1 ≤ r ∧ r ≤ 4 ∧ Traps i s ⟨0x19, r, 0⟩)) ∧
  (∀ (s : State) (l : Fin 4), Ready (.lexit l) s → (∀ x ∈ s.view.x.loops, x.n ≠ l) → Traps (.lexit l) s ⟨0x19, 5, 0⟩)


/-! ### Local memory (09_scalar_control.md, 10_vector.md) -/

/-- The register, the address register, the size and the offset of a scalar load (R244, R246). -/
def Sys2Proof.Machine.scalarLoad : Instr → Option (Fin 64 × Fin 64 × Fin 4 × Fin 2048)
  | .ld d a z o => some (d, a, z, o)
  | .ldc d a z o => some (d, a, z, o)
  | _ => none

/-- The same of a scalar store. -/
def Sys2Proof.Machine.scalarStore : Instr → Option (Fin 64 × Fin 64 × Fin 4 × Fin 2048)
  | .st d a z o => some (d, a, z, o)
  | .stc d a z o => some (d, a, z, o)
  | _ => none

/-- The byte of core `n`'s field or of its commons at a local address (R103). -/
def Sys2Proof.Machine.State.byteAt (s : State) (n a : Nat) : Byte :=
  if a < 0x800000 then readByte (s.core n).field.cells a else readByte (s.cluster (clusterOf n)).commons.cells (a - 0x2000000)

/-- In `t`, only the field of core `n` and its commons hold other bytes than in `s`, and these are the ones that `w` gives for a local address;
what waits for a port, what its own loads have read before, and what a command sees of its bundle follow, and the row groups and marked words. -/
def Sys2Proof.Machine.Stores (s t : State) (n : Nat) (w : Nat → Option Byte) : Prop :=
  (∀ a, (a < 0x800000 ∨ 0x2000000 ≤ a) → t.byteAt n a = (w a).getD (s.byteAt n a)) ∧
  t.core n = { s.core n with field := (t.core n).field, unserved := (t.core n).unserved, loads := (t.core n).loads, queue0 := (t.core n).queue0,
                             queue1 := (t.core n).queue1 } ∧
  ((∀ w ∈ (s.core n).unserved, ∀ k ps, w.act ≠ .load k ps) → (t.core n).loads = (s.core n).loads) ∧
  (∀ m, m ≠ n → t.core m = { s.core m with queue0 := (t.core m).queue0, queue1 := (t.core m).queue1 }) ∧
  (∀ k, k ≠ clusterOf n → t.cluster k = s.cluster k) ∧
  t.cluster (clusterOf n) = { s.cluster (clusterOf n) with commons := (t.cluster (clusterOf n)).commons } ∧
  t.dev = s.dev ∧ t.host = s.host ∧ t.peer = s.peer ∧ t.log = s.log ∧ t.agenda = s.agenda

/-- An access that has still to read or write a part of the 64-byte row of a local address (R159). -/
def Sys2Proof.Machine.PortWait.meets (a : Nat) (w : PortWait) : Prop :=
  match w.act with
  | .load _ parts => ∃ p ∈ parts, p.1 / 64 = a / 64
  | .store parts => ∃ p ∈ parts, p.1 / 64 = a / 64

/-- Of what waits at the ports for core `c`, each access has a place of its own, and one at the place of an access of `ports` is that access. -/
def Sys2Proof.Machine.Core.Awaits (c : Core) (ports : List PortWait) : Prop :=
  c.unserved.Pairwise (fun a b => a.same b = false) ∧ ∀ q ∈ c.unserved, ∀ p ∈ ports, q.same p = true → q.act = p.act

/-- What waits for result `k` of the bundle is of `ports`. -/
def Sys2Proof.Machine.Core.LoadsOf (c : Core) (k : Nat) (ports : List PortWait) : Prop :=
  ∀ q ∈ c.unserved, ∀ ps, q.act = .load k ps → ∃ p ∈ ports, q.same p = true

/-- No access that waits, but those of `ports`, meets the 64-byte row of a local address of `l`; or only loads do, in a memory of which no word has
an error. -/
def Sys2Proof.Machine.State.RowsFree (v : State) (n : Nat) (ports : List PortWait) (l : List Nat) : Prop :=
  let others := fun (q : PortWait) => q ∈ (v.core n).unserved ∧ (∀ p ∈ ports, q.same p = false) ∧ ∃ a ∈ l, q.meets a
  (∀ q, ¬others q) ∨ CleanAt v n ∧ ∀ q, others q → ∃ k ps, q.act = .load k ps

/-- A scalar load whose checks pass (R245): its result, of the latency of R239 counted from the bundle's completion (s0 discards), and one access
at the port of its bank, which reads the bytes at the effective address; as the last slot of a bundle it changes no register, no flag and no
byte of memory. When the port serves it, in a memory of which no word has an error, the result is the little-endian bytes there,
zero-extended, and no byte changes. It rests on the model's own reading (DEDUCED, log 15). -/
def Obligations.ScalarLoads : Prop :=
  ∀ (i : Instr) (s : State) (d a : Fin 64) (z : Fin 4) (o : Fin 2048), scalarLoad i = some (d, a, z, o) → Ready i s →
    let w := 2 ^ z.val
    let ea := memAddr s a z o
    accessTrap s ea w true = none →
    let l : Landing := ⟨if ea < 0x800000 then 4 else 8, if d = 0 then .flags else .sreg d, 0, .ofNat 2048 (2 ^ 64 - 1), 0⟩
    ∃ p : PortWait,
      Effects i s { s with issue := { s.issue with ports := s.issue.ports ++ [p], loads := s.issue.loads ++ [l] } } ∧
      p.commons = decide (0x2000000 ≤ ea) ∧ (ea < 0x800000 → p.bank = ea / 64 % 32) ∧ p.write = false ∧
      (Last i s → ∃ t, exec i s = .next t ∧ OnlyHere s t ∧ Commits s.cur (t.core s.here)) ∧
      ∀ v : State, CleanAt v s.here → (v.core s.here).loads[s.issue.loads.length]? = some l →
        (v.core s.here).Awaits [p] → (v.core s.here).LoadsOf s.issue.loads.length [p] →
        ∃ (x : Vec) (u : List PortWait), u.Sublist (v.core s.here).unserved ∧ (∀ q ∈ u, q.same p = false) ∧
          (∀ k, k < 256 → x.toNat / 2 ^ (8 * k) % 256 = if k < w then (v.byteAt s.here (ea + k)).toNat else 0) ∧
          v.serveSlot s.here p = v.setCore s.here { v.core s.here with
            unserved := u,
            loads := (v.core s.here).loads.set s.issue.loads.length { l with value := x } }

/-- A scalar store whose checks pass (R245): one access at the port of its bank; as the last slot of a bundle it changes no register, no flag and
no byte of memory. When the port serves it, the low bytes of sd as they stood before the bundle stand at the effective address, lowest first, no
row group changes, and every other byte and everything else of the machine stands as before: where no other access that waits meets the row, or,
in a memory of which no word has an error, where only loads of the bundle do, which read their bytes before the store (R31, R159). It rests on the
model's own readings (DEDUCED, log 15, 73, 100). -/
def Obligations.ScalarStores : Prop :=
  ∀ (i : Instr) (s : State) (d a : Fin 64) (z : Fin 4) (o : Fin 2048), scalarStore i = some (d, a, z, o) → Ready i s →
    let w := 2 ^ z.val
    let ea := memAddr s a z o
    accessTrap s ea w false = none →
    ∃ p : PortWait,
      Effects i s { s with issue := { s.issue with ports := s.issue.ports ++ [p] } } ∧
      p.commons = decide (0x2000000 ≤ ea) ∧ (ea < 0x800000 → p.bank = ea / 64 % 32) ∧ p.write = true ∧
      (Last i s → ∃ t, exec i s = .next t ∧ OnlyHere s t ∧ Commits s.cur (t.core s.here)) ∧
      ∀ v : State, MemoryCanonical v →
        (v.core s.here).Awaits [p] → v.RowsFree s.here [p] [ea] →
        let t := v.serveSlot s.here p
        Stores v t s.here (fun x => if ea ≤ x ∧ x < ea + w then some (.ofNat 8 ((s.view.rs d).toNat / 2 ^ (8 * (x - ea)))) else none) ∧
        (∀ k, (t.core s.here).field.group k = (v.core s.here).field.group k) ∧
        (∀ k, (t.cluster (clusterOf s.here)).commons.group k = (v.cluster (clusterOf s.here)).commons.group k)

/-- The ports of a cluster's banks in a working cycle (R30, R31, R119, R247). Requests for refresh that have waited 8 µs take the ports of their
banks first, and then, in the order of R30, an access is served whose ports neither they nor an access before it has taken, and no other, so that no
port serves two; a slot of a core that books the group of a commons bank comes before every other access. A core of which an access still waits completes its bundle one
working cycle later, which is charged to slack, and issues no bundle before; one of which none waits sends the results of its loads on
their way, their latencies counted from the completion. An access that nothing contends with is served in its cycle. It rests on the
model's own reading (DEDUCED, log 73). -/
def Obligations.PortService : Prop :=
  (∀ (s : State) (cl : Nat), exec (.refreshUrgent cl) s = .next ((s.urgentAll cl).1.usePorts cl (s.urgentAll cl).2)) ∧
  (∀ (l : List PortUse) (used : List Nat),
    (servePorts l used).Sublist l ∧ ((∀ u ∈ l, u.banks.Nodup) → ((servePorts l used).flatMap PortUse.keys).Nodup) ∧
    (∀ u ∈ servePorts l used, ∀ k ∈ u.keys, k ∉ used) ∧
    (∀ (pre post : List PortUse) (u : PortUse), l = pre ++ u :: post → (∀ k ∈ u.keys, k ∉ used ∧ ∀ v ∈ servePorts pre used, k ∉ v.keys) →
      ∃ rest, servePorts l used = servePorts pre used ++ u :: rest)) ∧
  (∀ (s : State) (u v : PortUse) (w : PortWait), u.slot = some w → w.commons = true → s.booksPort u.core w.bank w.write = true →
    s.portRank u < 8 ∧
    ((∀ w', v.slot = some w' → w'.commons = true → s.booksPort v.core w'.bank w'.write = false) → s.portRank u < s.portRank v)) ∧
  (∀ (c : Core),
    (c.unserved ≠ [] → c.afterPorts = { c with
      seq := { c.seq with complete := c.seq.complete + (c.seq.wc + 1 - c.seq.complete), busy := c.seq.busy + (c.seq.wc + 1 - c.seq.complete) },
      csr := { c.csr with slackCnt := c.csr.slackCnt + .ofNat 64 (c.seq.wc + 1 - c.seq.complete) } }) ∧
    (c.unserved = [] → ∃ l, c.afterPorts = { c with loads := [], flight := c.flight ++ l, sentLoads := l } ∧ l.length = c.loads.length ∧
      ∀ (k : Nat) (x y : Landing), c.loads[k]? = some x → l[k]? = some y →
        y.due = c.seq.complete + x.due ∧ y.dest = x.dest ∧ y.value &&& y.mask = x.value &&& x.mask)) ∧
  (∀ (s : State) (cl n : Nat) (w : PortWait), n / 8 = cl → bit s.pres.cores n = true → (s.core n).unserved = [w] →
    (w.commons = true ∨ (s.core n).portHold ≤ (s.core n).seq.wc) →
    (∀ m, m / 8 = cl → m ≠ n → (s.core m).unserved = [] ∧ (s.core m).loads = []) → (∀ p ∈ s.cores, p.2.queue0 = [] ∧ p.2.queue1 = []) →
    (∀ m, m / 8 = cl → ∀ g ∈ (s.core m).field.groups, g.2.pending = false) → (∀ g ∈ (s.cluster cl).commons.groups, g.2.pending = false) →
    exec (.refreshUrgent cl) s = .next (((s.setCluster cl (s.cluster cl)).serveSlot n w).updCore n Core.afterPorts))

/-- The checks of a scalar access, in the order of R245: an end above 2^32, misalignment, a byte outside the region, another owner, and for
loads an expired group; the first that fails is the trap taken, and nothing of the access happens. It rests on the model's own readings
(DEDUCED, log 15, 77). -/
def Obligations.ScalarAccessTraps : Prop :=
  ∀ (i : Instr) (s : State) (d a : Fin 64) (z : Fin 4) (o : Fin 2048),
    (scalarLoad i = some (d, a, z, o) ∨ scalarStore i = some (d, a, z, o)) → Ready i s →
    let w := 2 ^ z.val
    let ea := memAddr s a z o
    (2 ^ 32 < ea + w → Traps i s ⟨0x10, w, max ea (2 ^ 32)⟩) ∧
    (ea + w ≤ 2 ^ 32 → ea % w ≠ 0 → Traps i s ⟨0x11, w, ea⟩) ∧
    (ea + w ≤ 2 ^ 32 → ea % w = 0 → (∀ k : Fin 16, (s.view.rgn[k]).holds ea = false) → Traps i s ⟨0x10, w, ea⟩) ∧
    (ea + w ≤ 2 ^ 32 → ea % w = 0 → s.view.outside ea w = none → (groupAt s.field s.viewCommons ea).owner ≠ s.view.csr.ctxId.toNat →
      Traps i s ⟨0x12, (groupAt s.field s.viewCommons ea).owner, ea⟩) ∧
    (ea + w ≤ 2 ^ 32 → ea % w = 0 → s.view.outside ea w = none → (groupAt s.field s.viewCommons ea).owner = s.view.csr.ctxId.toNat →
      (scalarLoad i).isSome → (groupAt s.field s.viewCommons ea).valid = false →
      ∃ r, Traps i s ⟨0x13, r, ea⟩)

/-! ### Control registers (14_system_instructions.md) -/

/-- The value that a CSR write op forms from the old one (R365). -/
def Sys2Proof.Machine.csrForms (old v : Double) : Instr → Option (Fin 64 × Fin 64 × Fin 4096 × Fin 2 × Double)
  | .csrw d a n x => some (d, a, n, x, v)
  | .csrs d a n x => some (d, a, n, x, old ||| v)
  | .csrc d a n x => some (d, a, n, x, old &&& ~~~v)
  | _ => none

/-- CSRR reads the register as it stood before the bundle into sd; a number that names no register is the illegal-CSR trap. CSRW, CSRS
and CSRC (R365): sd gets the old value; a register that is read-only in every field keeps its value; FMT, VCTL, VSTAT, VSEED and CHSEL
take the new one in their RW bits, and MONCAP with the booker privilege at the commit, at most 64 (R425); a new VCTL with RM 5 to 7 is the
reserved-field trap, which comes before the checks of classes (R446), and an unlisted number the illegal-CSR trap. The writes of registers as events of their own do the same: CSR_WRITE,
VCTL_WRITE, VSEED_WRITE, which also sets every LFSR (R195), and MONCAP_WRITE.

A write of BSTATn (R10, R365, R367): EXP takes bits 15 to 0 of the new value; ERR takes 0 when the written code covers it and keeps
its value otherwise; OVF is cleared by a 1; CNT and PEND keep their values; and every other barrier keeps all of its state. BSTAT_WRITE
does the same, and changes nothing else. -/
def Obligations.CsrOps : Prop :=
  (∀ (s : State) (d : Fin 64) (n : Fin 4096), Ready (.csrr d n) s →
    (∀ v, s.csr s.here s.view n.val = some v → Changes (.csrr d n) s (fun c => c.ws d v)) ∧
    (s.csr s.here s.view n.val = none → Traps (.csrr d n) s ⟨0x20, n.val, 0⟩)) ∧
  (∀ (i : Instr) (s : State) (old v new : Double) (d a : Fin 64) (n : Fin 4096) (x : Fin 2), Ready i s →
    v = (if x = 0 then s.view.rs a else .ofNat 64 a.val) → csrForms old v i = some (d, a, n, x, new) →
    (s.csr s.here s.view n.val = none → Traps i s ⟨0x20, n.val, 0⟩) ∧
    (s.csr s.here s.view n.val = some old →
      (n.val = 0x008 → Changes i s (fun c => ({ c with csr := { c.csr with fmt := new } } : Core).ws d old)) ∧
      (n.val = 0x020 → new.toNat % 8 < 5 → Changes i s (fun c => ({ c with csr := { c.csr with vctl := new.setWidth 4 } } : Core).ws d old)) ∧
      (n.val = 0x021 → Changes i s (fun c => ({ c with csr := { c.csr with vstat := new.setWidth 6 } } : Core).ws d old)) ∧
      (n.val = 0x022 → ∃ u, Effects i s u ∧ (u.core s.here) = (({ s.cur with csr := { s.cur.csr with vseed := new.setWidth 32 } } : Core).ws d old) ∧
        u.issue = { s.issue with reseed := true }) ∧
      (n.val = 0x035 → Changes i s (fun c => ({ c with csr := { c.csr with chsel := new.setWidth 9 } } : Core).ws d old)) ∧
      (n.val = 0x408 → ∃ u, Effects i s u ∧ u.cores = (s.upd (fun c => c.ws d old)).cores ∧ u.clusters = s.clusters ∧
        u.issue = if s.cur.booker = true then { s.issue with moncap := some (BitVec.ofNat 7 (min (new.toNat % 128) 64)) } else s.issue) ∧
      (¬(0x200 ≤ n.val ∧ n.val < 0x210) → n.val ∉ [0x008, 0x020, 0x021, 0x022, 0x035, 0x408] → Changes i s (fun c => c.ws d old)))) ∧
  (∀ (i : Instr) (s : State) (old v new : Double) (d a : Fin 64) (n : Fin 4096) (x : Fin 2),
    v = (if x = 0 then s.view.rs a else .ofNat 64 a.val) → csrForms old v i = some (d, a, n, x, new) → s.csr s.here s.view n.val = some old →
    n.val = 0x020 → 5 ≤ new.toNat % 8 → i.fieldFault = none → Traps i s ⟨4, 64, 0⟩) ∧
  (∀ (s : State) (k : Fin 3) (v old : Double) (n : Nat), s.issue.reseed = false → s.issue.moncap = none →
    let new := if k = 0 then v else if k = 1 then old ||| v else old &&& ~~~v
    (s.csr s.here s.view n = none → exec (.csrWrite n k v) s = .next (s.takeTrap 0 ⟨0x20, n, 0⟩ 0)) ∧
    (s.csr s.here s.view n = some old →
      (n = 0x008 → exec (.csrWrite n k v) s = .next (s.upd (fun c => { c with csr := { c.csr with fmt := new } }))) ∧
      (n = 0x021 → exec (.csrWrite n k v) s = .next (s.upd (fun c => { c with csr := { c.csr with vstat := new.setWidth 6 } }))) ∧
      (n = 0x035 → exec (.csrWrite n k v) s = .next (s.upd (fun c => { c with csr := { c.csr with chsel := new.setWidth 9 } }))) ∧
      (n = 0x020 → new.toNat % 8 < 5 →
        exec (.vctlWrite k v) s = .next (s.upd (fun c => { c with csr := { c.csr with vctl := new.setWidth 4 } }))) ∧
      (n = 0x020 → 5 ≤ new.toNat % 8 → exec (.vctlWrite k v) s = .next (s.takeTrap 0 ⟨4, 64, 0⟩ 0)) ∧
      (n = 0x022 → exec (.vseedWrite k v) s = .next (s.upd (fun c => { c with
        csr := { c.csr with vseed := new.setWidth 32 }, vec := { c.vec with lfsr := lfsrAll (new.setWidth 32) } }))) ∧
      (n = 0x408 → s.cur.booker = true → exec (.moncapWrite k v) s = .next (s.updCluster (clusterOf s.here)
        (fun c => { c with csr := { c.csr with moncap := BitVec.ofNat 7 (min (new.toNat % 128) 64) } }))) ∧
      (n = 0x408 → s.cur.booker = false → exec (.moncapWrite k v) s = .next s) ∧
      (¬(0x200 ≤ n ∧ n < 0x210) → n ∉ [0x008, 0x020, 0x021, 0x022, 0x035, 0x408] → exec (.csrWrite n k v) s = .next s))) ∧
  (∀ (i : Instr) (s : State) (old v new : Double) (d a : Fin 64) (n : Fin 4096) (x : Fin 2) (b : Fin 16), Ready i s →
    v = (if x = 0 then s.view.rs a else .ofNat 64 a.val) → csrForms old v i = some (d, a, n, x, new) → n.val = 0x200 + b.val →
    s.csr s.here s.view n.val = some old →
    ∃ u, Effects i s u ∧ OnlyHere s u ∧
      let c' := u.core s.here
      c' = ({ s.cur with bars := c'.bars } : Core).ws d old ∧
      (c'.bars[b]).exp = new.toNat % 65536 ∧ (c'.bars[b]).cnt = (s.cur.bars[b]).cnt ∧ (c'.bars[b]).pend = (s.cur.bars[b]).pend ∧
      (c'.bars[b]).err = (if v.toNat / 2 ^ 32 % 256 &&& (s.cur.bars[b]).err = (s.cur.bars[b]).err then 0 else (s.cur.bars[b]).err) ∧
      (c'.bars[b]).ovf = ((s.cur.bars[b]).ovf && !v.getLsbD 40) ∧
      (∀ j : Fin 16, j ≠ b → c'.bars[j] = s.cur.bars[j])) ∧
  (∀ (s : State) (b : Fin 16) (k : Fin 3) (v old : Double), s.issue.reseed = false → s.issue.moncap = none →
    s.csr s.here s.view (0x200 + b.val) = some old →
    let new := if k = 0 then v else if k = 1 then old ||| v else old &&& ~~~v
    ∃ x : Barrier, exec (.bstatWrite b k v) s = .next (s.upd (fun c => { c with bars := c.bars.set b x })) ∧
      x.exp = new.toNat % 65536 ∧ x.cnt = (s.cur.bars[b]).cnt ∧ x.pend = (s.cur.bars[b]).pend ∧
      x.err = (if v.toNat / 2 ^ 32 % 256 &&& (s.cur.bars[b]).err = (s.cur.bars[b]).err then 0 else (s.cur.bars[b]).err) ∧
      x.ovf = ((s.cur.bars[b]).ovf && !v.getLsbD 40))

/-! ### Rings (09_scalar_control.md) -/

/-- Ring `r'` is `r` but for its pointers, its count of held entries and its entry states. -/
def Sys2Proof.Machine.sameRingData (r r' : Ring) : Prop :=
  r'.depth = r.depth ∧ r'.rt = r.rt ∧ r'.wt = r.wt ∧ r'.data = r.data ∧ r'.sw = r.sw ∧ r'.sr = r.sr

/-- RADV (R261): .r empties the n entries from rp and moves rp past them, h falling by n; .w moves wp, h growing by n, and no entry
state changes; more than depth − h entries are the ring-protocol trap. RCFG (R262): depth, rt and wt are set, rp, wp, h and the stream
offsets become 0, every entry becomes empty, and the bytes are kept; with an entry pending, or with another slot of the bundle naming
the ring, it is the ring-protocol trap. RFILL (R263): the n entries from wp become full and held, wp moving past them; more than free
is the trap. -/
def Obligations.Rings : Prop :=
  (∀ (s : State) (q : Fin 16) (m : Fin 8) (g : Fin 16),
    let n := m.val + 1
    let r := s.cur.ring q
    (Ready (.radv q 0 m g) s →
      ∃ r', Changes (.radv q 0 m g) s (fun c => c.setRing q r') ∧
        sameRingData r r' ∧ r'.wp = r.wp ∧ r'.rp = (r.rp + n) % r.depth ∧ r'.h = r.h - n ∧
        ∀ e : Fin 8, r'.st[e] = if ∃ k, k < n ∧ e.val = (r.rp + k) % r.depth then .empty else r.st[e]) ∧
    (Ready (.radv q 1 m g) s →
      (n ≤ (s.view.ring q).depth - (s.view.ring q).h →
        ∃ r', Changes (.radv q 1 m g) s (fun c => c.setRing q r') ∧
          sameRingData r r' ∧ r'.rp = r.rp ∧ r'.wp = (r.wp + n) % r.depth ∧ r'.h = r.h + n ∧ r'.st = r.st) ∧
      ((s.view.ring q).depth - (s.view.ring q).h < n → Traps (.radv q 1 m g) s (.ring q.val 3)))) ∧
  (∀ (s : State) (q : Fin 16),
    (∀ d rt wt : Fin 8, Ready (.rcfg q d rt wt) s →
      (¬(s.view.ring q).st.toList.contains .pending → ¬(s.issue.bundle.any (s.view.namesRing q.val)) →
        let f := fun c : Core => c.setRing q { c.ring q with depth := d.val + 1, rt := rt.val + 1, wt := wt.val + 1, rp := 0, wp := 0, h := 0,
                                                             st := Vector.replicate 8 .empty, sw := 0, sr := 0 }
        Changes (.rcfg q d rt wt) s f) ∧
      ((s.view.ring q).st.toList.contains .pending ∨ s.issue.bundle.any (s.view.namesRing q.val) → Traps (.rcfg q d rt wt) s (.ring q.val 5))) ∧
    (∀ n : Fin 16, Ready (.rfill q n) s →
      (n.val ≤ (s.view.ring q).free →
        ∃ r', Changes (.rfill q n) s (fun c => c.setRing q r') ∧
          sameRingData (s.cur.ring q) r' ∧ r'.rp = (s.cur.ring q).rp ∧ r'.wp = ((s.cur.ring q).wp + n.val) % (s.cur.ring q).depth ∧
          r'.h = (s.cur.ring q).h + n.val ∧
          ∀ e : Fin 8, r'.st[e] = if ∃ k, k < n.val ∧ e.val = ((s.cur.ring q).wp + k) % (s.cur.ring q).depth then .full else (s.cur.ring q).st[e]) ∧
      ((s.view.ring q).free < n.val → Traps (.rfill q n) s (.ring q.val 6))))

/-! ### System and task operations (14_system_instructions.md) -/

/-- FENCE places one join in both copy-engine queues and takes no entry (R173, R368). TRAP takes the software trap with its code in
INFO, and BRKPT the breakpoint trap where DBGCTL.BE = 1; with DBGCTL.BE = 0 it has no effect (R371). -/
def Obligations.FencesAndSoftwareTraps : Prop :=
  (∀ (s : State) (m : Fin 4) (sc : Fin 8) (k : Fin 2), Ready (.fence m sc k) s →
    let f := fun c : Core => { c with queue0 := c.queue0 ++ [joinOf c (.fence m sc k)], queue1 := c.queue1 ++ [joinOf c (.fence m sc k)],
                                      nextCmd := c.nextCmd + 1 }
    Changes (.fence m sc k) s f ∧ (∀ e, (f s.cur).queueLen e = s.cur.queueLen e)) ∧
  (∀ (s : State) (k : Fin 524288),
    (Ready (.trap k) s → Traps (.trap k) s ⟨0x30, k.val, 0⟩) ∧
    (Ready (.brkpt k) s → s.view.csr.dbgBe = true → Traps (.brkpt k) s ⟨0x31, k.val, 0⟩) ∧
    (Ready (.brkpt k) s → s.view.csr.dbgBe = false → Effects (.brkpt k) s s ∧ (Last (.brkpt k) s → Leaves (.brkpt k) s id)))

/-- WAITB (R369): with a furrow after the present one, the core is at the headland of bN once the bundle commits; in the last furrow it
is the profile-end trap (R56). WAITT (R370): where the tick has come nothing happens, else the core waits for it; WAITT_RESUME ends the wait in
cycle 1 of that tick, and before it changes nothing. -/
def Obligations.HeadlandsAndTimedWaits : Prop :=
  (∀ (s : State) (b : Fin 16), Ready (.waitb b) s →
    let n := (s.view.image.map Image.furrowCount).getD 0
    (n ≤ s.view.seq.furrow + 1 → Traps (.waitb b) s ⟨0x22, b.val, 0⟩) ∧
    (s.view.seq.furrow + 1 < n →
      Effects (.waitb b) s { s with issue := { s.issue with leave := .headland b } } ∧
      (Last (.waitb b) s → ∃ t, exec (.waitb b) s = .next t ∧ OnlyHere s t ∧
        (t.core s.here).seq.mode = .atHeadland ∧ (t.core s.here).seq.wait = some b ∧
        Commits { s.cur with seq := { s.cur.seq with mode := .atHeadland, wait := some b } } (t.core s.here)))) ∧
  (∀ (s : State) (a : Fin 64), Ready (.waitt a) s →
    ((s.view.rs a).toNat ≤ s.tick → Effects (.waitt a) s s ∧ (Last (.waitt a) s → Leaves (.waitt a) s id)) ∧
    (s.tick < (s.view.rs a).toNat →
      Effects (.waitt a) s { s with issue := { s.issue with leave := .waitt (s.view.rs a).toNat } } ∧
      (Last (.waitt a) s → Leaves (.waitt a) s (fun c => { c with seq := { c.seq with waitt := some (s.view.rs a).toNat } })))) ∧
  (∀ (s : State) (n w : Nat), (s.core n).seq.waitt = some w →
    let one := if (s.cluster (clusterOf n)).island = .fallback then 2 else 1
    (w < s.tick ∨ (w = s.tick ∧ one ≤ s.instant) →
      exec (.waittResume n) s = .next (s.updCore n (fun c => { c with seq := { c.seq with waitt := none } }))) ∧
    (s.tick < w ∨ (w = s.tick ∧ s.instant < one) → exec (.waittResume n) s = .next s))

/-- EXIT (R61, R372): at the commit the loops and the active turn are gone, and the core is HALTED at once where no command and no access of its own is
outstanding, and stopping until the last one ends where one is. YIELD with a team waiting asks for the pre-emption of its team, and with none waiting has no
effect (R373). It rests on the model's own reading (DEDUCED, log 20). -/
def Obligations.ExitAndYield : Prop :=
  (∀ (s : State), Ready .exit s → Last .exit s →
    ∃ t, exec .exit s = .next t ∧ t.agenda = .event (.drainEnd s.here) :: s.agenda ∧
      (t.core s.here).x.loops = [] ∧ (t.core s.here).turn = none ∧ (t.core s.here).x.s = s.cur.x.s ∧ (t.core s.here).field = s.cur.field ∧
      (t.core s.here).vec = s.cur.vec ∧ (t.core s.here).rings = s.cur.rings ∧ (t.core s.here).bars = s.cur.bars ∧ (t.core s.here).csr = s.cur.csr ∧
      (s.cur.outstanding = false ∧ s.issue.ports = [] → (t.core s.here).seq.mode = .halted) ∧
      (s.cur.outstanding = true ∨ s.issue.ports ≠ [] → (t.core s.here).seq.mode = s.cur.seq.mode ∧ (t.core s.here).seq.stop = some .exit) ∧
      (∀ n, n ≠ s.here → t.core n = s.core n) ∧ t.clusters = s.clusters) ∧
  (∀ (s : State), Ready .yield s → Last .yield s → s.queueWaits ((s.cur.team).getD 0) = true →
    ∃ t, exec .yield s = .next t ∧ t.agenda = .event (.preempt ((s.cur.team).getD 0)) :: s.agenda ∧ Commits s.cur (t.core s.here) ∧
      (∀ n, n ≠ s.here → t.core n = s.core n) ∧ t.clusters = s.clusters) ∧
  (∀ (s : State), Ready .yield s → Last .yield s → s.queueWaits ((s.cur.team).getD 0) = false → Leaves .yield s id)

/-- The buffer of a turn (R374): of length 0, or 2 KiB blocks in one region of the own field. -/
def Sys2Proof.Machine.turnBuffer (c : Core) (base len : Nat) : Prop :=
  len = 0 ∨ (base % 2048 = 0 ∧ len % 2048 = 0 ∧
    ∃ k : Fin 16, c.regionAt base = some k ∧ (c.rgn[k]).commons = false ∧ base + len ≤ (c.rgn[k]).base + (c.rgn[k]).size)

/-- A ring with no entry held and none pending. -/
def Sys2Proof.Machine.ringRests (c : Core) (q : Fin 16) : Prop := (c.ring q).h = 0 ∧ ∀ e : Fin 8, (c.ring q).st[e] ≠ .pending

/-- TURN (R374): a buffer of nonzero length that is not aligned to 2 KiB, or is not in one region of the own field, is the
local-address trap with the base; then a ring with an entry held or pending, the lowest first, is the ring-protocol trap; else the operation
completes, and its commit stores the turn checkpoint (the next bundle's address, the registers and predicates, loops and stage predicates,
latches, VCTL, VSEED and the LFSRs, the descriptors, EXP of every barrier, the refill descriptor, buffer, barrier and engine), TURN_CNT
grows by 1, and nothing else changes but what a commit moves. -/
def Obligations.TurnCheckpoint : Prop :=
  ∀ (s : State) (a b : Fin 64), Ready (.turn a b) s →
    let base := (s.view.rs a).toNat % 2 ^ 32
    let len := (s.view.rs a).toNat / 2 ^ 32
    let y := (s.view.rs b).toNat
    (¬turnBuffer s.view base len → Traps (.turn a b) s ⟨0x10, 0, base⟩) ∧
    (turnBuffer s.view base len →
      (∀ q : Fin 16, ¬ringRests s.view q → (∀ j : Fin 16, j < q → ringRests s.view j) → Traps (.turn a b) s (.ring q.val 11)) ∧
      ((∀ q : Fin 16, ringRests s.view q) →
        (∃ u, Effects (.turn a b) s u ∧ u.cores = s.cores ∧ u.clusters = s.clusters) ∧
        (Last (.turn a b) s →
          ∃ t k, exec (.turn a b) s = .next t ∧ OnlyHere s t ∧ (t.core s.here).turn = some k ∧
            Commits { s.cur with turn := some k, csr := { s.cur.csr with turnCnt := s.cur.csr.turnCnt + 1 } } (t.core s.here) ∧
            k.pc = (t.core s.here).seq.pc ∧ k.s = s.cur.x.s ∧ k.p = s.cur.x.p ∧ k.loops = (t.core s.here).x.loops ∧
            k.lc = (t.core s.here).x.lc ∧ k.ps = (t.core s.here).x.ps ∧ k.latch = (t.core s.here).seq.latch ∧ k.inc = (t.core s.here).seq.inc ∧
            k.vctl = s.cur.csr.vctl ∧ k.vseed = s.cur.csr.vseed ∧ k.lfsr = s.cur.vec.lfsr ∧ k.desc = s.cur.desc ∧
            k.exps = s.cur.bars.toList.map Barrier.exp ∧ k.base = base ∧ k.len = len ∧ k.refill = s.cur.desc[(Fin.ofNat 16 y : Fin 16)] ∧
            k.bar.val = y / 16 % 16 ∧ k.engine.val = y / 256 % 2 ∧ k.rolled = 0)))

/-- The five task ops as one table: the kind of request and the three registers (R376). -/
def Sys2Proof.Machine.taskFields : Instr → Option (Fin 5 × Fin 64 × Fin 64 × Fin 64)
  | .book d a b => some (0, d, a, b)
  | .unbook d a b => some (1, d, a, b)
  | .bqry d a b => some (2, d, a, b)
  | .spawn d a b => some (3, d, a, b)
  | .cancel d a b => some (4, d, a, b)
  | _ => none

/-- BOOK, UNBOOK, BQRY, SPAWN and CANCEL (R376): without the booker privilege they trap; a block that is not aligned to 64 bytes is the
misaligned-access trap; with 8 requests of the core unserved sd gets 1 and nothing is posted; else sd gets 0, PEND of the named barrier
grows by 1, and the request is posted at the commit. -/
def Obligations.TaskRequests : Prop :=
  ∀ (i : Instr) (s : State) (op : Fin 5) (d a b : Fin 64), taskFields i = some (op, d, a, b) → Ready i s →
    let blk := (s.view.rs a).toNat % 2 ^ 32
    let bb : Fin 16 := Fin.ofNat 16 (s.view.rs b).toNat
    (s.view.booker = false → Traps i s ⟨0x21, 0x60 + op.val, 0⟩) ∧
    (s.view.booker = true → blk % 64 ≠ 0 → Traps i s ⟨0x11, 64, blk⟩) ∧
    (s.view.booker = true → blk % 64 = 0 → blk < 0x800000 → s.view.outside blk 64 = none →
      (groupAt s.field s.viewCommons blk).owner = s.view.csr.ctxId.toNat →
      (8 ≤ s.requestsOf s.here → Changes i s (fun c => c.ws d 1)) ∧
      (s.requestsOf s.here < 8 →
        ∃ u, Effects i s u ∧ u.issue = { s.issue with post := some ⟨s.here, op, blk, bb, none, []⟩ } ∧ OnlyHere s u ∧
          (u.core s.here).rs d = 0 ∧ (u.core s.here).bars[bb] = { s.cur.bars[bb] with pend := (s.cur.bars[bb].pend + 1) % 2 ^ 64 } ∧
          u.core s.here = ({ s.cur with bars := (u.core s.here).bars } : Core).ws d 0 ∧
          ∀ j : Fin 16, j ≠ bb → (u.core s.here).bars[j] = s.cur.bars[j]))

namespace Sys2Proof.Machine

/-! ### Results of the vector slots, written from the tables of 10_vector.md -/

/-- A vector result for a destination specifier (R220, R266): a register keeps the bits that `mask` clears, and a ring entry at wp has 0
there and is pending until the result lands. -/
def vecTo (v : Core) (lat spec : Nat) (value mask : Vec) (c : Core) : Core :=
  if spec < 32 then c.launch lat (.vreg (Fin.ofNat 32 spec)) value mask
  else c.toRing lat (Fin.ofNat 16 (spec - 32)) (v.ring (Fin.ofNat 16 (spec - 32))).wp (value &&& mask)

/-- An integer held to a signed range of `w` bits (R273). -/
def clampTo (w : Nat) (x : Int) : Int := max (-(2 ^ (w - 1))) (min x (2 ^ (w - 1) - 1))

/-- The integer operations (R273): their fields, and the element result before it is written modulo 2^w, of operands of `w` bits. -/
def intOp : Instr → Option (Fin 64 × Fin 64 × Fin 64 × Fin 8 × Fin 16 × (Nat → Nat → Nat → Int))
  | .viadd d a b f g => some (d, a, b, f, g, fun _ x y => (x : Int) + y)
  | .visub d a b f g => some (d, a, b, f, g, fun _ x y => (x : Int) - y)
  | .vimul d a b f g => some (d, a, b, f, g, fun _ x y => (x : Int) * y)
  | .vimulh d a b f g => some (d, a, b, f, g, fun w x y => (BitVec.ofNat w x).toInt * (BitVec.ofNat w y).toInt / 2 ^ w)
  | .viadds d a b f g => some (d, a, b, f, g, fun w x y => clampTo w ((BitVec.ofNat w x).toInt + (BitVec.ofNat w y).toInt))
  | .visubs d a b f g => some (d, a, b, f, g, fun w x y => clampTo w ((BitVec.ofNat w x).toInt - (BitVec.ofNat w y).toInt))
  | .vimin d a b f g => some (d, a, b, f, g, fun w x y => min (BitVec.ofNat w x).toInt (BitVec.ofNat w y).toInt)
  | .vimax d a b f g => some (d, a, b, f, g, fun w x y => max (BitVec.ofNat w x).toInt (BitVec.ofNat w y).toInt)
  | .viminn d a b f g => some (d, a, b, f, g, fun _ x y => ((min x y : Nat) : Int))
  | .vimaxn d a b f g => some (d, a, b, f, g, fun _ x y => ((max x y : Nat) : Int))
  | .vand d a b f g => some (d, a, b, f, g, fun _ x y => ((x &&& y : Nat) : Int))
  | .vor d a b f g => some (d, a, b, f, g, fun _ x y => ((x ||| y : Nat) : Int))
  | .vxor d a b f g => some (d, a, b, f, g, fun _ x y => ((x ^^^ y : Nat) : Int))
  | .vshl d a b f g => some (d, a, b, f, g, fun w x y => ((x * 2 ^ (y % w) : Nat) : Int))
  | .vshr d a b f g => some (d, a, b, f, g, fun w x y => ((x / 2 ^ (y % w) : Nat) : Int))
  | .vsra d a b f g => some (d, a, b, f, g, fun w x y => (BitVec.ofNat w x).toInt / 2 ^ (y % w))
  | _ => none

/-- The functions (R271). -/
def funOp : Instr → Option (Fin 64 × Fin 64 × Fin 8 × Fin 16 × VFun)
  | .vrcp d a f g => some (d, a, f, g, .rcp)
  | .vrsq d a f g => some (d, a, f, g, .rsq)
  | .vsqrt d a f g => some (d, a, f, g, .sqrt)
  | .vexp2 d a f g => some (d, a, f, g, .exp2)
  | .vlog2 d a f g => some (d, a, f, g, .log2)
  | .vtanh d a f g => some (d, a, f, g, .tanh)
  | _ => none

/-- An operation that forms each enabled element by itself: its latency, destination, format and guard, whether it rounds, and the code
and the flags of element `e`. -/
structure Elementwise where
  lat : Nat
  dest : Nat
  fmt : Fmt
  guard : Nat
  rounds : Bool
  elem : Nat → Nat × Flags

/-- Element `e` of source `a`, and the same as FTZ reads it (R197, R267). -/
def State.src (s : State) (fm : Fmt) (a e : Nat) : Nat := el (s.view.source fm a) fm.bits e
def State.val (s : State) (fm : Fmt) (a e : Nat) : Exact := floatValue fm (ftzIn fm s.view.ftz (s.src fm a e))

/-- One rounding of an exact value by VCTL.RM, with FTZ on the result (R193, R197, R270). -/
def State.roundElem (s : State) (fm : Fmt) (e : Nat) (x : Exact × Flags) : Nat × Flags :=
  let r := ftzOut fm s.view.ftz (roundTo fm x.1 (s.view.roundFor s.vunit fm.bits e))
  (r.1, r.2 ||| x.2)

/-- Whether VCTL.RM is RDN, for the sign of an exact zero sum (R193). -/
def State.down (s : State) (fm : Fmt) (e : Nat) : Bool := (s.view.roundFor s.vunit fm.bits e).isDown

/-- A fused operation: the product, the addend and the flags of the product (R270). -/
def State.fused (s : State) (d : Fin 32) (a b : Fin 64) (f : Fin 8) (g : Fin 16) (negProd negAdd : Bool) : Elementwise :=
  let fm := Fmt.ofCode f.val
  ⟨4, d.val, fm, g.val, true, fun e =>
    let p := (s.val fm a.val e).mul (s.val fm b.val e)
    let q := if negProd then p.1.neg else p.1
    let z := floatValue fm (ftzIn fm s.view.ftz (el (s.view.vec.v[d]).toNat fm.bits e))
    let x := Exact.add (s.down fm e) q (if negAdd then z.neg else z)
    s.roundElem fm e (x.1, p.2 ||| x.2)⟩

/-- The elementwise operations of R270, R271, R273 and R281. -/
def elementwise (s : State) : Instr → Option Elementwise
  | .vadd d a b f g =>
    let fm := Fmt.ofCode f.val
    some ⟨4, d.val, fm, g.val, true, fun e => s.roundElem fm e (Exact.add (s.down fm e) (s.val fm a.val e) (s.val fm b.val e))⟩
  | .vsub d a b f g =>
    let fm := Fmt.ofCode f.val
    some ⟨4, d.val, fm, g.val, true, fun e => s.roundElem fm e (Exact.add (s.down fm e) (s.val fm a.val e) (s.val fm b.val e).neg)⟩
  | .vmul d a b f g =>
    let fm := Fmt.ofCode f.val
    some ⟨4, d.val, fm, g.val, true, fun e => s.roundElem fm e (Exact.mul (s.val fm a.val e) (s.val fm b.val e))⟩
  | .vfma d a b f g => some (s.fused d a b f g false false)
  | .vfms d a b f g => some (s.fused d a b f g false true)
  | .vfnma d a b f g => some (s.fused d a b f g true false)
  | .vmin d a b f g =>
    let fm := Fmt.ofCode f.val
    some ⟨4, d.val, fm, g.val, false, fun e => (minMaxElem fm s.view.ftz false (s.src fm a.val e) (s.src fm b.val e), 0)⟩
  | .vmax d a b f g =>
    let fm := Fmt.ofCode f.val
    some ⟨4, d.val, fm, g.val, false, fun e => (minMaxElem fm s.view.ftz true (s.src fm a.val e) (s.src fm b.val e), 0)⟩
  | .vabs d a f g =>
    let fm := Fmt.ofCode f.val
    some ⟨4, d.val, fm, g.val, false, fun e => (s.src fm a.val e % 2 ^ (fm.bits - 1), 0)⟩
  | .vneg d a f g =>
    let fm := Fmt.ofCode f.val
    some ⟨4, d.val, fm, g.val, false, fun e => ((s.src fm a.val e + 2 ^ (fm.bits - 1)) % 2 ^ fm.bits, 0)⟩
  | i =>
    match intOp i, funOp i with
    | some (d, a, b, f, g, op), _ =>
      let fm := Fmt.ofCode f.val
      some ⟨2, d.val, fm, g.val, false, fun e => ((op fm.bits (s.src fm a.val e) (s.src fm b.val e) % 2 ^ fm.bits).toNat, 0)⟩
    | none, some (d, a, f, g, k) =>
      let fm := Fmt.ofCode f.val
      some ⟨10, d.val, fm, g.val, true, fun e =>
        let pick := Config.functionCode k.code f.val s.view.rmode (if s.view.ftz then 1 else 0) (s.src fm a.val e)
        ftzOut fm s.view.ftz (k.result fm (s.view.roundFor s.vunit fm.bits e) pick (s.val fm a.val e))⟩
    | none, none => none

/-- The move and permute operations (R278, R281): element `e` of vd from the elements of the sources. -/
def moved (s : State) : Instr → Option Elementwise
  | .vmov d a f g => let fm := Fmt.ofCode f.val; some ⟨3, d.val, fm, g.val, false, fun e => (s.src fm a.val e, 0)⟩
  | .vmovi d f i g => let fm := Fmt.ofCode f.val; some ⟨3, d.val, fm, g.val, false, fun _ =>
      (if fm.isInt then ((BitVec.ofNat 7 i.val).toInt % 2 ^ fm.bits).toNat else (roundTo fm (.ofInt (BitVec.ofNat 7 i.val).toInt) .rne).1, 0)⟩
  | .vperm d a b f g => let fm := Fmt.ofCode f.val; some ⟨3, d.val, fm, g.val, false, fun e => (s.src fm a.val (s.src fm b.val e % fm.lanes), 0)⟩
  | .vshuf d a f k g => let fm := Fmt.ofCode f.val; let n := fm.lanes; some ⟨3, d.val, fm, g.val, false, fun e =>
      (s.src fm a.val (if k.val = 0 then n - 1 - e else if k.val = 1 then (if e % 2 = 0 then e + 1 else e - 1)
        else if k.val = 2 then (if e < n / 2 then 2 * e else 2 * (e - n / 2) + 1) else (if e % 2 = 0 then e / 2 else n / 2 + (e - 1) / 2)), 0)⟩
  | .vrot d a f r g => let fm := Fmt.ofCode f.val; some ⟨3, d.val, fm, g.val, false, fun e =>
      (s.src fm a.val (((e : Int) - r.val) % fm.lanes).toNat, 0)⟩
  | .vpack d a b f g => let fm := Fmt.ofCode f.val; some ⟨3, d.val, fm, g.val, false, fun e =>
      (if e < fm.lanes / 2 then s.src fm a.val e else s.src fm b.val (e - fm.lanes / 2), 0)⟩
  | .vbcst d a w g => some ⟨3, d.val, Fmt.ofCode (widthCode w.val), g.val, false, fun _ => ((s.view.rs a).toNat, 0)⟩
  | .vidx d a b w g => some ⟨3, d.val, Fmt.ofCode (widthCode w.val), g.val, false, fun e => ((s.view.rs a).toNat + e * (s.view.rs b).toNat, 0)⟩
  | _ => none

/-- The lanes of the unit in hand step their LFSRs (R196): under SR, those with an enabled element of `w` bits among elements 0 to n - 1. -/
def stepsLanes (s : State) (w n g : Nat) (c : Core) : Core :=
  if 4 ≤ s.view.rmode then
    { c with vec := { c.vec with lfsr := stepLanes c.vec.lfsr s.vunit (laneOn w (fun e => decide (e < n) && s.view.enabled g e)) } }
  else c

/-- The elements `x e` of `n` stand in a vector. -/
def holdsElems (v : Vec) (w n : Nat) (x : Nat → Nat) : Prop := ∀ e, e < n → el v.toNat w e = x e % 2 ^ w

/-- The flags of the elements below `n` that `on` selects. -/
def flagsOf (fl : Flags) (n : Nat) (on : Nat → Bool) (x : Nat → Flags) : Prop :=
  ∀ k, fl.getLsbD k = true ↔ ∃ e, e < n ∧ on e = true ∧ (x e).getLsbD k = true

/-- An elementwise operation: the enabled elements of the destination are the elements formed; disabled elements are kept by a register
and 0 in a ring entry; the flags of the enabled elements are raised; and under SR the lanes step. -/
def FormsElements (i : Instr) (s : State) (x : Elementwise) : Prop :=
  let w := x.fmt.bits
  let n := x.fmt.lanes
  ∃ (value mask : Vec) (fl : Flags),
    Changes i s (fun c => (vecTo s.view x.lat x.dest value mask (if x.rounds then stepsLanes s w n x.guard c else c)).raise fl) ∧
    holdsElems value w n (fun e => if s.view.enabled x.guard e then (x.elem e).1 else 0) ∧
    (∀ k, k < 2048 → mask.getLsbD k = s.view.enabled x.guard (k / w)) ∧
    flagsOf fl n (s.view.enabled x.guard) (fun e => (x.elem e).2)

/-- A whole vector written: every element, whatever the guard. -/
def WritesAll (i : Instr) (s : State) (lat d w n : Nat) (x : Nat → Nat) : Prop :=
  ∃ value : Vec, Changes i s (vecTo s.view lat d value (BitVec.allOnes 2048)) ∧ holdsElems value w n x

/-- A mask written, visible after 2 working cycles (R268). -/
def WritesMask (i : Instr) (s : State) (m : Fin 8) (x : Nat → Bool) : Prop :=
  ∃ value : Vec, Changes i s (fun c => c.launch 2 (.mreg m) value (BitVec.ofNat 2048 (2 ^ 256 - 1))) ∧
    ∀ e, e < 256 → value.getLsbD e = x e

/-- A condition of VCMP on two elements (R274), the floating values as FTZ reads them. -/
def vcmpHolds (s : State) (cc : Nat) (fm : Fmt) (a b e : Nat) : Prop :=
  let x := s.src fm a e
  let y := s.src fm b e
  if fm.isInt then
    match cc with
    | 0 => x = y
    | 1 => x ≠ y
    | 2 => (BitVec.ofNat fm.bits x).toInt < (BitVec.ofNat fm.bits y).toInt
    | 3 => (BitVec.ofNat fm.bits x).toInt ≤ (BitVec.ofNat fm.bits y).toInt
    | 4 => (BitVec.ofNat fm.bits x).toInt > (BitVec.ofNat fm.bits y).toInt
    | 5 => (BitVec.ofNat fm.bits x).toInt ≥ (BitVec.ofNat fm.bits y).toInt
    | 6 => x < y
    | _ => x ≥ y
  else
    let p := s.val fm a e
    let q := s.val fm b e
    let un := p = .nan ∨ q = .nan
    let c := Exact.compare p q
    match cc with
    | 0 => ¬un ∧ c = 0
    | 1 => un ∨ c ≠ 0
    | 2 => ¬un ∧ c < 0
    | 3 => ¬un ∧ c ≤ 0
    | 4 => ¬un ∧ c > 0
    | 5 => ¬un ∧ c ≥ 0
    | 6 => un
    | _ => ¬un

/-! ### Pieces of local memory that a vector load or store moves -/

/-- A vector access: the trap of its checks, the specifier of its data, the format in which a special source yields it, the width and
number of its guarded elements, its guard, and its pieces in order, each a local address, the place of its bytes in the vector, and how
many they are. -/
structure VecAccess where
  trap : Option Trap
  data : Nat
  fmt : Fmt
  w : Nat
  guard : Nat
  pieces : List (Nat × Nat × Nat)

/-- The pieces of format V.A: the enabled 32-bit elements (R285). -/
def rowAccess (s : State) (load : Bool) (d a : Fin 64) (o : Fin 512) (g : Fin 16) : VecAccess :=
  let ea := rowAddr s a o
  ⟨rowTrap s ea g.val d.val load, d.val, .i32, 32, g.val,
    ((List.range 64).filter (s.view.enabled g.val)).map (fun e => (ea + 4 * e, 4 * e, 4))⟩

/-- The pieces of VLDS and VSTS: the enabled granules (R286). -/
def granuleAccess (s : State) (load : Bool) (d a b : Fin 64) (w : Fin 8) (g : Fin 16) : VecAccess :=
  let k := granule w.val
  let at' := fun (j : Nat) => (((s.view.rs a).toInt + j * (s.view.rs b).toInt) % 2 ^ 64).toNat
  ⟨granuleTrap s (granules s a b w.val g.val) w.val d.val load, d.val, .i32, 8 * k, g.val,
    ((List.range (256 / k)).filter (s.view.enabled g.val)).map (fun j => (at' j, k * j, k))⟩

/-- The pieces of VGTH and VSCT: the enabled elements (R287). -/
def gatherAccess (s : State) (load : Bool) (d a b : Fin 64) (f : Fin 8) (g : Fin 16) : VecAccess :=
  let fm := Fmt.ofCode f.val
  let w := fm.bits / 8
  let at' := fun (e : Nat) => (s.view.rs (Fin.ofNat 64 (b.val + 4))).toNat + s.src fm a.val e * w
  ⟨gatherTrap s (gathered s a.val b.val fm g.val) w d.val load, d.val, fm, fm.bits, g.val,
    ((List.range fm.lanes).filter (s.view.enabled g.val)).map (fun e => (at' e, w * e, w))⟩

/-- The vector loads. -/
def vecLoads (s : State) : Instr → Option VecAccess
  | .vld d a o g => some (rowAccess s true d a o g)
  | .vldc d a o g => some (rowAccess s true d a o g)
  | .vlds d a b w g => some (granuleAccess s true d a b w g)
  | .vgth d a b f g => some (gatherAccess s true d a b f g)
  | _ => none

/-- The vector stores. -/
def vecStores (s : State) : Instr → Option VecAccess
  | .vst d a o g => some (rowAccess s false d a o g)
  | .vstc d a o g => some (rowAccess s false d a o g)
  | .vsts d a b w g => some (granuleAccess s false d a b w g)
  | .vsct d a b f g => some (gatherAccess s false d a b f g)
  | _ => none

/-- The last piece that holds the byte at local address `x`. -/
def lastPiece (l : List (Nat × Nat × Nat)) (x : Nat) : Option (Nat × Nat × Nat) :=
  l.reverse.find? (fun p => decide (p.1 ≤ x) && decide (x < p.1 + p.2.2))

/-- The element of `w` bits that the C-slot fields name, of an instruction that issues a command (R316). -/
def isCommand (i : Instr) : Bool :=
  i.unit == some .c && (match i with | .cdset .. => false | .barset .. => false | _ => true)

end Sys2Proof.Machine

/-! ### Vector operations (10_vector.md) -/

/-- Floating-point and integer arithmetic and the functions (R270, R271, R273): element by element, each with one rounding of the exact
value; the latency is that of R268, the flags of the enabled elements are raised, and nothing else changes. The code of a function that
the bound of R271 leaves open is a free value (DESIGN CHOICE, log 7), but for VEXP2 of an integer, which is the rounded power (DESIGN CHOICE, log
109). -/
def Obligations.VectorElements : Prop :=
  ∀ (i : Instr) (s : State) (x : Elementwise), elementwise s i = some x → Ready i s → FormsElements i s x

/-- Moves and permutes (R278, R281), VINS and VEXT: elements by their places, at latency 3 (R268); VINS writes element k alone, where it is
enabled; VEXT writes a scalar register, and s0 discards; the upper half of VUNPK is 0 whatever the guard. It rests on the model's own
reading (DEDUCED, log 21). -/
def Obligations.VectorMoves : Prop :=
  (∀ (i : Instr) (s : State) (x : Elementwise), moved s i = some x → (∀ d a f k g, i = .vshuf d a f k g → k.val < 4) → Ready i s →
    FormsElements i s x) ∧
  (∀ (s : State) (d : Fin 32) (a b : Fin 64) (w : Fin 8) (g : Fin 16), Ready (.vins d a b w g) s →
    let fm := Fmt.ofCode (widthCode w.val)
    let k := (s.view.rs b).toNat % fm.lanes
    ∃ value mask : Vec, Changes (.vins d a b w g) s (fun c => c.launch 3 (.vreg d) value mask) ∧
      el value.toNat fm.bits k = (s.view.rs a).toNat % 2 ^ fm.bits ∧
      ∀ j, j < 2048 → mask.getLsbD j = (decide (j / fm.bits = k) && s.view.enabled g.val k)) ∧
  (∀ (s : State) (v a b : Fin 64) (w : Fin 8), Ready (.vext v a b w) s →
    let fm := Fmt.ofCode (widthCode w.val)
    Changes (.vext v a b w) s (fun c => c.wsLate 3 a (.ofNat 64 (s.src fm v.val ((s.view.rs b).toNat % fm.lanes))))) ∧
  (∀ (s : State) (d a : Fin 64) (f : Fin 8) (g : Fin 16), Ready (.vunpk d a f g) s →
    let fm := Fmt.ofCode f.val
    let h := fm.lanes / 2
    ∃ value mask : Vec, Changes (.vunpk d a f g) s (vecTo s.view 3 d.val value mask) ∧
      holdsElems value fm.bits fm.lanes (fun e => if e < h then s.src fm a.val (e + h) else 0) ∧
      ∀ k, k < 2048 → mask.getLsbD k = (decide (h ≤ k / fm.bits) || s.view.enabled g.val (k / fm.bits)))

/-- Compare, select and masks (R274-R276): a compare sets the mask bit of each enabled element for which the condition holds and clears
every other bit; VSEL writes every element, copied also where FTZ is set, which is the model's own reading
(DEDUCED, log 87); the mask ops act on all 256 bits; VMPOP counts. -/
def Obligations.VectorMasks : Prop :=
  (∀ (s : State) (cc m : Fin 8) (a b : Fin 64) (f : Fin 8) (g : Fin 16), Ready (.vcmp cc m a b f g) s →
    let fm := Fmt.ofCode f.val
    ∃ x : Nat → Bool, WritesMask (.vcmp cc m a b f g) s m x ∧
      ∀ e, e < 256 → (x e = true ↔ e < fm.lanes ∧ s.view.enabled g.val e = true ∧ vcmpHolds s cc.val fm a.val b.val e)) ∧
  (∀ (s : State) (d a b : Fin 64) (f : Fin 8) (g : Fin 16), Ready (.vsel d a b f g) s →
    let fm := Fmt.ofCode f.val
    WritesAll (.vsel d a b f g) s 2 d.val fm.bits fm.lanes (fun e => if s.view.enabled g.val e then s.src fm a.val e else s.src fm b.val e)) ∧
  (∀ (s : State) (d a b : Fin 8),
    (Ready (.vmand d a b) s → WritesMask (.vmand d a b) s d (fun e => (s.view.rm a).getLsbD e && (s.view.rm b).getLsbD e)) ∧
    (Ready (.vmor d a b) s → WritesMask (.vmor d a b) s d (fun e => (s.view.rm a).getLsbD e || (s.view.rm b).getLsbD e)) ∧
    (Ready (.vmxor d a b) s → WritesMask (.vmxor d a b) s d (fun e => (s.view.rm a).getLsbD e != (s.view.rm b).getLsbD e)) ∧
    (Ready (.vmnot d a) s → WritesMask (.vmnot d a) s d (fun e => !(s.view.rm a).getLsbD e))) ∧
  (∀ (s : State) (d : Fin 64) (a : Fin 8), Ready (.vmpop d a) s →
    WritesAll (.vmpop d a) s 2 d.val 32 64 (fun _ => (List.range 256).countP (fun k => (s.view.rm a).getLsbD k)))

/-- Conversion and block quantisation (R277, R279, R280): VCVT rounds each enabled element of the narrower count once and writes 0
above; VQNT writes the codes and the scales of R209 block by block, disabled elements as +0; VDQNT forms each enabled element under
R210, a special source being read in the format of fmt3 (DESIGN CHOICE, log 107). -/
def Obligations.VectorConversions : Prop :=
  (∀ (s : State) (d a : Fin 64) (f sf g : Fin 8), Ready (.vcvt d a f sf g) s →
    let df := Fmt.ofCode f.val
    let fm := Fmt.ofCode sf.val
    let w := max df.bits fm.bits
    let n := 2048 / w
    let elem := fun e => ftzOut df s.view.ftz (roundTo df (if fm.isInt then .ofInt (BitVec.ofNat fm.bits (s.src fm a.val e)).toInt else s.val fm a.val e)
      (s.view.roundFor s.vunit w e))
    ∃ (value mask : Vec) (fl : Flags),
      Changes (.vcvt d a f sf g) s (fun c =>
        (vecTo s.view 6 d.val value mask (if fm.isInt && df.isInt then c else stepsLanes s w n g.val c)).raise fl) ∧
      holdsElems value df.bits df.lanes (fun e => if e < n ∧ s.view.enabled g.val e = true then (elem e).1 else 0) ∧
      (∀ k, k < 2048 → mask.getLsbD k = (decide (n ≤ k / df.bits) || s.view.enabled g.val (k / df.bits))) ∧
      flagsOf fl n (s.view.enabled g.val) (fun e => (elem e).2)) ∧
  (∀ (s : State) (d a : Fin 64) (f : Fin 8) (t : Fin 4) (q : Fin 16) (g : Fin 8), t.val < 3 → f.val < 3 → Ready (.vqnt d a f t q g) s →
    let fm := Fmt.ofCode f.val
    let b := quantBlock t.val
    let block := fun k => quantBlockOf t.val ((List.range b).map (fun j =>
      if s.view.enabled g.val (b * k + j) then some (s.val fm a.val (b * k + j)) else none))
    ∃ (codes scales : Vec) (fl : Flags),
      Changes (.vqnt d a f t q g) s (fun c =>
        ((vecTo s.view 6 d.val codes (BitVec.allOnes 2048) c).toRing 6 q (s.view.ring q).wp scales).raise fl) ∧
      holdsElems codes (quantFmt t.val).bits (2048 / (quantFmt t.val).bits)
        (fun e => if e < fm.lanes then (block (e / b)).2.1.getD (e % b) 0 else 0) ∧
      holdsElems scales 16 128 (fun k => if k < fm.lanes / b then (block k).1 else 0) ∧
      flagsOf fl (fm.lanes / b) (fun _ => true) (fun k => (block k).2.2)) ∧
  (∀ (s : State) (d a : Fin 64) (f : Fin 8) (t : Fin 4) (q : Fin 16) (g : Fin 8), Ready (.vdqnt d a f t q g) s →
    let fm := Fmt.ofCode f.val
    FormsElements (.vdqnt d a f t q g) s ⟨6, d.val, fm, g.val, false, fun e =>
      ftzOut fm s.view.ftz (roundTo fm (Exact.mul (floatValue (quantFmt t.val) (el (s.view.source fm a.val) (quantFmt t.val).bits e))
        (quantScale t.val (el (s.view.ring q).head.toNat 16 (e / quantBlock t.val)))).1 .rne)⟩)

/-- Reductions, scan and sort (R205-R207, R282-R284): a reduction writes the value of the pairwise tree to element 0 and 0 above; integer VRSUM
and VSCAN sum the enabled elements modulo 2^w; VSORT writes a permutation of the element numbers, enabled elements first, in an order that
never puts a later key first and keeps equal keys in ascending index, disabled elements in ascending index. It rests on the model's own
readings (DEDUCED, log 22, 85, 86). -/
def Obligations.VectorReductions : Prop :=
  (∀ (s : State) (d a : Fin 64) (f : Fin 8) (g : Fin 16), let fm := Fmt.ofCode f.val; fm.isInt = true →
    let on := (List.range fm.lanes).filter (s.view.enabled g.val)
    let key := fun e => (BitVec.ofNat fm.bits (s.src fm a.val e)).toInt
    (Ready (.vrsum d a f g) s →
      WritesAll (.vrsum d a f g) s 8 d.val fm.bits fm.lanes (fun e => if e = 0 then ((on.map (s.src fm a.val)).sum) else 0)) ∧
    (Ready (.vscan d a f g) s → WritesAll (.vscan d a f g) s 8 d.val fm.bits fm.lanes (fun e =>
      (((List.range (e + 1)).filter (s.view.enabled g.val)).map (s.src fm a.val)).sum)) ∧
    (Ready (.vrmax d a f g) s → ∃ m : Int, (on = [] → m = -(2 ^ (fm.bits - 1))) ∧ (∀ e ∈ on, key e ≤ m) ∧ (on ≠ [] → ∃ e ∈ on, key e = m) ∧
      WritesAll (.vrmax d a f g) s 8 d.val fm.bits fm.lanes (fun e => if e = 0 then (m % 2 ^ fm.bits).toNat else 0)) ∧
    (Ready (.vrmin d a f g) s → ∃ m : Int, (on = [] → m = 2 ^ (fm.bits - 1) - 1) ∧ (∀ e ∈ on, m ≤ key e) ∧ (on ≠ [] → ∃ e ∈ on, key e = m) ∧
      WritesAll (.vrmin d a f g) s 8 d.val fm.bits fm.lanes (fun e => if e = 0 then (m % 2 ^ fm.bits).toNat else 0))) ∧
  (∀ (s : State) (d a : Fin 64) (f : Fin 8) (g : Fin 16), let fm := Fmt.ofCode f.val; fm.isInt = false →
    let c := s.view
    let there := c.present fm (c.source fm a.val) g.val
    let sum := tree (sumOp c (c.enabled g.val) s.vunit fm) fm.lanes.log2 there
    let pre := scanRounds (sumOp c (c.enabled g.val) s.vunit fm) fm.lanes.log2 1 there
    (Ready (.vrsum d a f g) s → ∃ value : Vec,
      Changes (.vrsum d a f g) s (fun c => (vecTo s.view 8 d.val value (BitVec.allOnes 2048) (stepsLanes s fm.bits fm.lanes g.val c)).raise sum.2) ∧
      holdsElems value fm.bits fm.lanes (fun e => if e = 0 then sum.1.getD 0 else 0)) ∧
    (Ready (.vscan d a f g) s → ∃ value : Vec,
      Changes (.vscan d a f g) s (fun c => (vecTo s.view 8 d.val value (BitVec.allOnes 2048) (stepsLanes s fm.bits fm.lanes g.val c)).raise pre.2) ∧
      holdsElems value fm.bits fm.lanes (fun e => (pre.1.getD e none).getD 0)) ∧
    (Ready (.vrmax d a f g) s → WritesAll (.vrmax d a f g) s 8 d.val fm.bits fm.lanes (fun e =>
      if e = 0 then (tree (extremeOp true c (c.enabled g.val) s.vunit fm) fm.lanes.log2 there).1.getD fm.nanCode else 0)) ∧
    (Ready (.vrmin d a f g) s → WritesAll (.vrmin d a f g) s 8 d.val fm.bits fm.lanes (fun e =>
      if e = 0 then (tree (extremeOp false c (c.enabled g.val) s.vunit fm) fm.lanes.log2 there).1.getD fm.nanCode else 0))) ∧
  (∀ (s : State) (d a : Fin 64) (f : Fin 8) (g : Fin 16), Ready (.vsort d a f g) s →
    let fm := Fmt.ofCode f.val
    let before := fun p q => sortBefore fm s.view.ftz (s.src fm a.val p) (s.src fm a.val q)
    ∃ l : List Nat, l.Perm (List.range fm.lanes) ∧ WritesAll (.vsort d a f g) s 16 d.val fm.bits fm.lanes (fun e => l.getD e 0) ∧
      ∀ m n, m < n → n < fm.lanes →
        let p := l.getD m 0
        let q := l.getD n 0
        (s.view.enabled g.val q = true → s.view.enabled g.val p = true ∧ before q p = false ∧ (before p q = false → p < q)) ∧
        (s.view.enabled g.val p = false → p < q))

/-- Rounding (R193, R194): in every mode a finite value that the format holds rounds to its own code and raises nothing; NaN and the infinities
of a format that has them keep; an integer format takes an integer of its range, and saturates others with NV alone. It rests on the model's
own reading (DEDUCED, log 72). -/
def Obligations.RoundingRules : Prop :=
  ∀ (fm : Fmt) (md : Round),
    (fm.isInt = false →
      (∀ c, c < 2 ^ fm.bits → c % 2 ^ (fm.bits - 1) ≤ fm.maxCode → roundTo fm (floatValue fm c) md = (c, 0)) ∧
      (fm.hasInf = true → roundTo fm .nan md = (fm.nanCode, 0) ∧ roundTo fm (.inf false) md = (fm.maxCode + 1, 0) ∧
        roundTo fm (.inf true) md = (fm.maxCode + 1 + 2 ^ (fm.bits - 1), 0))) ∧
    (fm.isInt = true → ∀ x : Int, roundTo fm (.ofInt x) md =
      if x < -(2 ^ (fm.bits - 1)) then (2 ^ (fm.bits - 1), flagNV)
      else if 2 ^ (fm.bits - 1) ≤ x then (2 ^ (fm.bits - 1) - 1, flagNV)
      else ((x % 2 ^ fm.bits).toNat, 0))

/-- Vector loads (R285-R287): a check that fails is taken as its trap; else the load's result and its accesses at the ports of its banks are
entered, a ring entry being pending from now on, and nothing else changes. When the ports have served them, in a memory of which no word
has an error, the bytes of each enabled piece stand at its place in the result, which counts from the bundle's completion; disabled
elements are kept by a register and 0 in a ring entry; and no byte of memory changes. It rests on the model's own choices (DESIGN CHOICE,
log 9, 108) and readings (DEDUCED, log 77, 100). -/
def Obligations.VectorLoads : Prop :=
  ∀ (i : Instr) (s : State) (x : VecAccess), vecLoads s i = some x → (∀ d a b w g, i = .vlds d a b w g → w.val < 4) → Ready i s →
    (∀ t, x.trap = some t → Traps i s t) ∧
    (x.trap = none →
      let lat := if x.pieces.any (fun p => decide (0x2000000 ≤ p.1)) then 8 else 4
      let q : Fin 16 := Fin.ofNat 16 (x.data - 32)
      let r := s.view.ring q
      let dest := if x.data < 32 then Dest.vreg (Fin.ofNat 32 x.data) else Dest.entry q (Fin.ofNat 8 (r.wp % r.depth))
      let u := if x.data < 32 then s else s.upd (fun c => c.setRing q ((c.ring q).mark .pending r.wp 1))
      ∃ (mask : Vec) (ports : List PortWait),
        Effects i s { u with issue := { s.issue with ports := s.issue.ports ++ ports, loads := s.issue.loads ++ [⟨lat, dest, 0, mask, 0⟩] } } ∧
        (∀ k, k < 2048 → mask.getLsbD k = s.view.enabled x.guard (k / x.w)) ∧ (∀ p ∈ ports, p.write = false) ∧
        ∀ v : State, CleanAt v s.here → (v.core s.here).loads[s.issue.loads.length]? = some ⟨lat, dest, 0, mask, 0⟩ →
          (v.core s.here).Awaits ports → (v.core s.here).LoadsOf s.issue.loads.length ports →
          let t := ports.foldl (fun v p => v.serveSlot s.here p) v
          ∃ value : Vec,
            t = { v with cores := t.cores } ∧ (∀ m, m ≠ s.here → t.core m = v.core m) ∧
            t.core s.here = { v.core s.here with
              unserved := (t.core s.here).unserved, loads := (v.core s.here).loads.set s.issue.loads.length ⟨lat, dest, value, mask, 0⟩ } ∧
            ∀ k, k < 256 → (value &&& mask).toNat / 2 ^ (8 * k) % 256 =
              match x.pieces.find? (fun p => decide (p.2.1 ≤ k) && decide (k < p.2.1 + p.2.2)) with
              | some p => (v.byteAt s.here (p.1 + (k - p.2.1))).toNat
              | none => 0)

/-- Vector stores (R285-R287): a check that fails is taken as its trap; else the accesses at the ports of the banks are entered, and as the last
slot of a bundle the store changes no register, no flag and no byte of memory. When the ports have served them, each enabled piece of
the source as it stood before the bundle stands at its address, a later piece over an earlier one, and every other byte and everything else
of the machine stands as before: where no other access that waits meets a row of them, or only loads of the bundle, which read before the store
(R31, R159). It rests on the model's own choices (DESIGN CHOICE, log 9, 106) and readings (DEDUCED, log 73,
100). -/
def Obligations.VectorStores : Prop :=
  ∀ (i : Instr) (s : State) (x : VecAccess), vecStores s i = some x → (∀ d a b w g, i = .vsts d a b w g → w.val < 4) → Ready i s →
    (∀ t, x.trap = some t → Traps i s t) ∧
    (x.trap = none →
      let src := s.view.source x.fmt x.data
      ∃ ports : List PortWait,
        Effects i s { s with issue := { s.issue with ports := s.issue.ports ++ ports } } ∧ (∀ p ∈ ports, p.write = true) ∧
        (Last i s → ∃ t, exec i s = .next t ∧ OnlyHere s t ∧ Commits s.cur (t.core s.here)) ∧
        ∀ v : State, MemoryCanonical v → (v.core s.here).Awaits ports → v.RowsFree s.here ports (x.pieces.map Prod.fst) →
          Stores v (ports.foldl (fun v p => v.serveSlot s.here p) v) s.here (fun a =>
            (lastPiece x.pieces a).map (fun p => .ofNat 8 (src / 2 ^ (8 * (p.2.1 + (a - p.1)))))))

/-- An operation of a bundle that moves the write end of ring `q`, or sets it up anew. -/
def Sys2Proof.Machine.movesWrite (q : Fin 16) : Instr → Prop
  | .radv p w _ _ => p = q ∧ w = 1
  | .rfill p _ => p = q
  | .rcfg p _ _ _ => p = q
  | _ => False

/-- The same of the read end. -/
def Sys2Proof.Machine.movesRead (q : Fin 16) : Instr → Prop
  | .radv p w _ _ => p = q ∧ w = 0
  | .rcfg p _ _ _ => p = q
  | _ => False

/-- The entry at rp of a ring is given up, and the stream's read offset is then `sr` (R261, R291). -/
def Sys2Proof.Machine.Ring.dropped (r : Ring) (sr : Nat) : Ring :=
  { r with st := r.st.setIfInBounds (r.rp % r.depth) .empty, rp := (r.rp + 1) % r.depth, h := r.h - 1, sr := sr }

/-- The entry at wp of a ring is published with its bytes, pending until they land, and the stream's write offset is then `sw` (R290). -/
def Sys2Proof.Machine.Ring.published (r : Ring) (data : Vector Vec 8) (sw : Nat) : Ring :=
  { r with data := data, st := r.st.setIfInBounds (r.wp % r.depth) .pending, wp := (r.wp + 1) % r.depth, h := r.h + 1, sw := sw }

/-- Byte `k` of entry `e` of some ring entries. -/
def Sys2Proof.Machine.entryByte (d : Vector Vec 8) (e k : Nat) : Nat := (d.toList.getD e 0).toNat / 2 ^ (8 * k) % 256

/-- Conditional streams (R290, R291), each completing where no other slot of its bundle moves the same end of its ring or sets it up anew, and
else taking the ring-protocol trap. VCMPR writes the enabled elements in ascending order to the stream of the ring, from the write offset of
the entry at wp on and over into the next entry, and publishes the entry at wp when it is full, 6 cycles later; the flush form fills the
begun entry with zeros and publishes it, and does nothing where none is begun; VXPND takes the next bytes for the enabled elements, its
register written 6 cycles later, and empties the entry at rp when it is used up; the drop form empties a begun entry. Nothing else changes.
It rests on the model's own reading (DEDUCED, log 78) and, for the waits of the flush and drop forms, its choice (DESIGN CHOICE, log 105). -/
def Obligations.VectorStreams : Prop :=
  (∀ (s : State) (q : Fin 16) (a : Fin 64) (f : Fin 8) (g : Fin 16), Ready (.vcmpr q a f g) s →
    let fm := Fmt.ofCode f.val
    let w := fm.bits / 8
    let r := s.cur.ring q
    let on := (List.range fm.lanes).filter (s.view.enabled g.val)
    let b := on.length * w
    ((∃ i ∈ s.issue.bundle, movesWrite q i) → Traps (.vcmpr q a f g) s (.ring q.val 8)) ∧
    ((∀ i ∈ s.issue.bundle, ¬movesWrite q i) → r.sw < 256 → 2 ≤ r.depth → r.depth ≤ 8 → r.wp < r.depth →
      ∃ data : Vector Vec 8,
        (r.sw + b < 256 → Changes (.vcmpr q a f g) s (fun c => c.setRing q { r with data := data, sw := r.sw + b })) ∧
        (256 ≤ r.sw + b → Changes (.vcmpr q a f g) s (fun c =>
          (c.setRing q (r.published data (r.sw + b - 256))).launch 6 (.entry q (Fin.ofNat 8 r.wp)) 0 0)) ∧
        (∀ e k, e < 8 → k < 256 → entryByte data e k =
          let j := if e = r.wp then k else 256 + k
          if (e = r.wp ∨ e = (r.wp + 1) % r.depth) ∧ r.sw ≤ j ∧ j < r.sw + b then
            s.src fm a.val (on.getD ((j - r.sw) / w) 0) / 2 ^ (8 * ((j - r.sw) % w)) % 256
          else entryByte r.data e k))) ∧
  (∀ (s : State) (q : Fin 16) (f : Fin 8), Ready (.vcmprFlush q f) s →
    let r := s.cur.ring q
    ((∃ i ∈ s.issue.bundle, movesWrite q i) → Traps (.vcmprFlush q f) s (.ring q.val 8)) ∧
    ((∀ i ∈ s.issue.bundle, ¬movesWrite q i) →
      (r.sw = 0 → Changes (.vcmprFlush q f) s id) ∧
      (0 < r.sw → r.sw < 256 → 1 ≤ r.depth → r.depth ≤ 8 → r.wp < r.depth → ∃ data : Vector Vec 8,
        Changes (.vcmprFlush q f) s (fun c => (c.setRing q (r.published data 0)).launch 6 (.entry q (Fin.ofNat 8 r.wp)) 0 0) ∧
        ∀ e k, e < 8 → k < 256 → entryByte data e k = if e = r.wp ∧ r.sw ≤ k then 0 else entryByte r.data e k))) ∧
  (∀ (s : State) (d : Fin 32) (q : Fin 16) (f : Fin 8) (g : Fin 16), Ready (.vxpnd d q f g) s →
    let fm := Fmt.ofCode f.val
    let w := fm.bits / 8
    let v := s.view.ring q
    let r := s.cur.ring q
    let on := fun e => (List.range e).countP (s.view.enabled g.val)
    let b := on fm.lanes * w
    let stream := (v.dataAt v.rp 0).toNat + 2 ^ 2048 * (v.dataAt v.rp 1).toNat
    ((∃ i ∈ s.issue.bundle, movesRead q i) → Traps (.vxpnd d q f g) s (.ring q.val 8)) ∧
    ((∀ i ∈ s.issue.bundle, ¬movesRead q i) →
      ∃ value mask : Vec,
        (r.rp = v.rp ∧ r.sr = v.sr → Changes (.vxpnd d q f g) s (fun c => (c.launch 6 (.vreg d) value mask).setRing q
          (if r.sr + b < 256 then { r with sr := r.sr + b } else r.dropped (r.sr + b - 256)))) ∧
        (¬(r.rp = v.rp ∧ r.sr = v.sr) → Changes (.vxpnd d q f g) s (fun c => c.launch 6 (.vreg d) value mask)) ∧
        (∀ e, e < fm.lanes → s.view.enabled g.val e = true → el value.toNat fm.bits e = el (stream / 2 ^ (8 * v.sr)) fm.bits (on e)) ∧
        (∀ k, k < 2048 → mask.getLsbD k = s.view.enabled g.val (k / fm.bits)))) ∧
  (∀ (s : State) (q : Fin 16) (f : Fin 8), Ready (.vxpndDrop q f) s →
    let v := s.view.ring q
    let r := s.cur.ring q
    ((∃ i ∈ s.issue.bundle, movesRead q i) → Traps (.vxpndDrop q f) s (.ring q.val 8)) ∧
    ((∀ i ∈ s.issue.bundle, ¬movesRead q i) →
      (v.sr = 0 ∨ ¬(r.rp = v.rp ∧ r.sr = v.sr) → Changes (.vxpndDrop q f) s id) ∧
      (0 < v.sr → v.sr ≤ 256 → r.rp = v.rp → r.sr = v.sr → Changes (.vxpndDrop q f) s (fun c => c.setRing q (r.dropped 0)))))

/-! ### The matrix unit and the transposer (11_matrix.md) -/

/-- Matrix ops at issue (R295-R307). MLDB writes 8 data rows of the inactive buffer, and their scales in the scaled formats; an MSTEP less than
8 cycles after the last is the matrix-busy trap, and else its operands are taken and its rows are due 12 cycles later; MZERO, MWR and MBIAS
are due 2 cycles later, or when the earlier ops of the tile are complete; MRD marks its ring entries pending, and reads the tile at once
where no earlier op of a tile is on its way. It rests on the model's own reading (DEDUCED, log 23) and, for which
trap of an MSTEP comes first, its choice (DESIGN CHOICE, log 110). -/
def Obligations.MatrixIssue : Prop :=
  (∀ (s : State) (qa : Fin 16) (fs : Fin 8) (ft rb qs g : Fin 16), Ready (.mldb qa fs ft rb qs g) s →
    let fc := s.view.selected fs.val ft.val
    let m := s.cur.mat
    let x := m.buf (!m.actb)
    (fc ∈ [4, 5, 6] → qa = qs → Traps (.mldb qa fs ft rb qs g) s (.ring qa.val 9)) ∧
    ((fc ∈ [4, 5, 6] → qa ≠ qs) → ∃ x' : BBuf, Changes (.mldb qa fs ft rb qs g) s (fun c => { c with mat := m.setBuf (!m.actb) x' }) ∧
      (∀ j : Fin 128, x'.rows[j] = if 8 * rb.val ≤ j.val ∧ j.val < 8 * rb.val + 8 then s.view.entryOf qa (j.val - 8 * rb.val) else x.rows[j]) ∧
      (∀ (j : Fin 128) (b : Nat), b < 64 →
        let t := j.val - 8 * rb.val
        el (x'.scales[j]).toNat 16 b =
          if 8 * rb.val ≤ j.val ∧ j.val < 8 * rb.val + 8 ∧ fc = 6 then el (s.view.entryOf qs (t / 2)).toNat 16 (64 * (t % 2) + b)
          else if 8 * rb.val ≤ j.val ∧ j.val < 8 * rb.val + 8 ∧ (fc = 4 ∨ fc = 5) ∧ b < 8 then el (s.view.entryOf qs 0).toNat 16 (8 * t + b)
          else el (x.scales[j]).toNat 16 b))) ∧
  (∀ (s : State) (acc : Fin 8) (qa : Fin 16) (fs : Fin 8) (ft rb qs g : Fin 16) (bsw : Fin 2), Ready (.mstep acc qa fs ft rb qs g bsw) s →
    let fc := s.view.selected fs.val ft.val
    let act := if bsw = 1 then !s.cur.mat.actb else s.cur.mat.actb
    let i : Instr := .mstep acc qa fs ft rb qs g bsw
    (fc ∈ [4, 5, 6] → qa = qs → Traps i s (.ring qa.val 9)) ∧
    ((fc ∈ [4, 5, 6] → qa ≠ qs) →
      (∀ t, s.view.mat.lastStep = some t → s.view.seq.wc < t + 8 → Traps i s ⟨0x1B, s.view.seq.wc - t, 0⟩) ∧
      ((∀ t ∈ s.view.mat.lastStep, t + 8 ≤ s.view.seq.wc) →
        ∃ sa, (¬(fc ∈ [4, 5, 6]) → sa = []) ∧
          Changes i s (fun c => Core.flyTile { c with mat := { c.mat with actb := act, lastStep := some s.view.seq.wc } } acc 12
            (.step s.view.seq.wc qa (s.view.ring qa).rp [s.view.entryOf qa 0] (s.cur.mat.buf act).rows.toList (s.cur.mat.buf act).scales.toList
              sa fc rb.val))))) ∧
  (∀ (s : State) (acc : Fin 8) (qa rb g : Fin 16) (f : Fin 8),
    (Ready (.mzero acc g) s → Changes (.mzero acc g) s (fun c => c.flyTile acc 2 .zero)) ∧
    (Ready (.mwr acc qa rb g f) s → ∃ rows, Changes (.mwr acc qa rb g f) s (fun c => c.flyTile acc 2 (.write rb.val rows)) ∧ rows.length = 8 ∧
      ∀ r j, r < 8 → j < 128 →
        el (rows.getD r 0).toNat 32 j = mwrElem (Fmt.ofCode f.val) (((s.view.rowsIn qa (Fmt.ofCode f.val) false).getD r []).getD j 0) % 2 ^ 32) ∧
    (Ready (.mbias acc qa rb g f) s → ∃ beta, Changes (.mbias acc qa rb g f) s (fun c => c.flyTile acc 2 (.bias rb.val (Fmt.ofCode f.val).isInt beta)) ∧
      ∀ j, j < 128 → el beta.toNat 32 j = mwrElem (Fmt.ofCode f.val) (((s.view.rowsIn qa (Fmt.ofCode f.val) true).getD 0 []).getD j 0) % 2 ^ 32)) ∧
  (∀ (s : State) (acc : Fin 8) (qa : Fin 16) (fs : Fin 8) (ft rb g : Fin 16) (f : Fin 8) (band : Fin 64),
    Ready (.mrd acc qa fs ft rb g f band) s → s.view.isSR = false →
    let marks := fun c : Core => (rowRings qa f.val).foldl (fun (c : Core) q =>
        c.setRing q ((c.ring q).mark .pending (s.view.ring q).wp (rowEntryCount f.val false))) c
    let op := TileOp.read rb.val qa (s.view.ring qa).wp (s.view.ring qa).depth (s.view.ring (Fin.ofNat 16 (qa.val + 1))).wp
        (s.view.ring (Fin.ofNat 16 (qa.val + 1))).depth f.val (s.view.selected fs.val ft.val) ((s.view.rs band).toNat % 65536) s.view.rmode []
    (s.cur.joinTile acc 0 ≠ s.cur.seq.wc → Changes (.mrd acc qa fs ft rb g f band) s (fun c => (marks c).flyTile acc 0 op)) ∧
    (s.cur.mat.tiles = [] → Changes (.mrd acc qa fs ft rb g f band) s (fun c => (marks c).applyTile ⟨c.seq.wc, acc, op⟩)))

/-- Tile operations when they take effect (R298, R299, R303-R306): one put in flight with latency L is seen from L cycles on, or from the
completion of the last earlier op of its tile; MZERO zeroes the tile; MWR replaces the 8 rows; an integer MBIAS adds modulo 2^32; and an i8
step adds the exact dot product modulo 2^32 (R203); an i32 readout of an i8 tile sends its 8 rows, columns 0 to 63 to qa and 64 to 127 to qa
+ 1, to land 6 cycles later (R304, R307). Other rows and other tiles stay. MSTEP_COMPLETE gives the steps due in the next cycle, of which there
are at most two (R298), their effect in order. It rests on the model's own reading (DEDUCED, log 23). -/
def Obligations.TileOperations : Prop :=
  (∀ (c : Core) (a : Fin 8) (l k i : Nat) (op : TileOp), c.flight = [] → c.mat.tiles = [] → 1 ≤ l → (op = .zero ∨ ∃ rb rows, op = .write rb rows) →
    (Core.advance^[k] (c.flyTile a l op)).tileRow a i = if l ≤ k then (c.applyTile ⟨0, a, op⟩).tileRow a i else c.tileRow a i) ∧
  (∀ (c : Core) (a : Fin 8) (l : Nat), c.joinTile a l = ((c.mat.tiles.filter (fun t => t.acc = a)).map TileFlight.due).foldl max (c.seq.wc + l)) ∧
  (∀ (c : Core) (d : Nat) (a b : Fin 8) (i : Nat), i < 128 →
    ((c.applyTile ⟨d, a, .zero⟩).tileRow b i = if b = a then 0 else c.tileRow b i) ∧
    (∀ rb rows, rb < 16 → rows.length = 8 → (c.applyTile ⟨d, a, .write rb rows⟩).tileRow b i =
      if b = a ∧ 8 * rb ≤ i ∧ i < 8 * rb + 8 then rows.getD (i - 8 * rb) 0 else c.tileRow b i) ∧
    (∀ rb beta j, rb < 16 → j < 128 → el ((c.applyTile ⟨d, a, .bias rb true beta⟩).tileRow b i).toNat 32 j =
      if b = a ∧ 8 * rb ≤ i ∧ i < 8 * rb + 8 then (el (c.tileRow a i).toNat 32 j + el beta.toNat 32 j) % 2 ^ 32
      else el (c.tileRow b i).toNat 32 j) ∧
    (∀ n qa rp rows bs sb sa rb j, rb < 16 → j < 128 →
      el ((c.applyTile ⟨d, a, .step n qa rp rows bs sb sa 7 rb⟩).tileRow b i).toNat 32 j =
        if b = a ∧ 8 * rb ≤ i ∧ i < 8 * rb + 8 then
          ((((el (c.tileRow a i).toNat 32 j : Nat) : Int) + ((List.range 256).map (fun k =>
            (BitVec.ofNat 8 (el (rows.getD (i - 8 * rb) 0).toNat 8 k)).toInt * (BitVec.ofNat 8 (el (bs.getD j 0).toNat 8 k)).toInt)).sum) % 2 ^ 32).toNat
        else el (c.tileRow b i).toNat 32 j)) ∧
  (∀ (c : Core) (d : Nat) (a : Fin 8) (rb band rm : Nat) (q : Fin 16) (wp depth wp2 depth2 : Nat) (rnd : List (List (BitVec 32))), rb < 16 →
    ∃ lo hi : List Vec, lo.length = 8 ∧ hi.length = 8 ∧
      (c.applyTile ⟨d, a, .read rb q wp depth wp2 depth2 5 7 band rm rnd⟩).flight = c.flight ++
        (List.range 8).map (fun k => ⟨d + 6, .entry q (Fin.ofNat 8 ((wp + k) % depth)), lo.getD k 0, BitVec.allOnes 2048, 0⟩) ++
        (List.range 8).map (fun k => ⟨d + 6, .entry (Fin.ofNat 16 (q.val + 1)) (Fin.ofNat 8 ((wp2 + k) % depth2)), hi.getD k 0, BitVec.allOnes 2048, 0⟩) ∧
      ∀ k j, k < 8 → j < 64 → el (lo.getD k 0).toNat 32 j = el (c.tileRow a (8 * rb + k)).toNat 32 j ∧
        el (hi.getD k 0).toNat 32 j = el (c.tileRow a (8 * rb + k)).toNat 32 (64 + j)) ∧
  (∀ (s : State) (n : Nat),
    let c := s.core n
    let due := c.mat.tiles.filter (fun x => x.isStep && decide (x.due ≤ c.seq.wc + 1))
    let c' := { c with mat := { c.mat with tiles := c.mat.tiles.filter (fun x => !(x.isStep && decide (x.due ≤ c.seq.wc + 1))) } }
    (due = [] → exec (.mstepComplete n) s = .next (s.setCore n c)) ∧
    (∀ x, due = [x] → exec (.mstepComplete n) s = .next (s.setCore n (c'.applyTile x))) ∧
    (∀ x y, due = [x, y] → exec (.mstepComplete n) s = .next (s.setCore n ((c'.applyTile x).applyTile y))))

/-- The transposer (R308-R310): XPUT writes one row at the commit, from a vector register, a ring head or a special source; XGET gives one
column 16 cycles later, its elements by the width; XCLR clears the buffer. -/
def Obligations.Transposer : Prop :=
  (∀ (s : State) (x : Fin 64) (k : Fin 128) (w : Fin 8) (g : Fin 16), Ready (.xput x k w g) s → w.val < 3 → x.val < 60 →
    let b := 32 / 2 ^ w.val
    ∃ row : Vec, Changes (.xput x k w g) s (fun c => { c with mat := { c.mat with xbuf := c.mat.xbuf.set k row } }) ∧
      (∀ n : Fin 32, n.val = x.val → row = s.view.vec.v[n]) ∧
      (∀ q : Fin 16, 32 + q.val = x.val → row = (s.view.ring q).head) ∧
      (48 ≤ x.val → holdsElems row b (2048 / b) (fun e =>
        if x.val = 48 then 0 else if x.val = 49 then 2 ^ b - 1 else if x.val = 50 then e else if x.val = 51 then 1
        else (s.view.rs (Fin.ofNat 64 (x.val + 4))).toNat))) ∧
  (∀ (s : State) (x : Fin 64) (k : Fin 128) (w : Fin 8) (g : Fin 16), Ready (.xget x k w g) s → w.val < 3 →
    let b := 32 / 2 ^ w.val
    let row := fun r => (s.view.mat.xbuf.toList.getD r 0).toNat
    WritesAll (.xget x k w g) s 16 x.val b (2048 / b) (fun e =>
      if w = 0 then el (row (64 * (k.val / 64) + e)) 32 (k.val % 64) else if w = 1 then el (row e) 16 k.val
      else el (row (e % 128)) 8 (2 * k.val + e / 128))) ∧
  (∀ (s : State) (g : Fin 16), Ready (.xclr g) s →
    Changes (.xclr g) s (fun c => { c with mat := { c.mat with xbuf := Vector.replicate 128 0 } }))

/-! ### Commands (12_copy_sync.md) -/

/-- Every command op of the C slots (CGET, CPUT, CXFER, CFILL, CTOUCH, CFLUSH, CMAP, CMIGR, CPFX, AADD, AFADD, AAND, AOR, AXOR, AMIN, AMAX,
AMINN, AMAXN, AXCHG, ACAS, ADECP, ADCAS, AMOVE, ARED, WAITA, WAKE, PSEND, PRECV, PCLOSE, TBAR, BARSIG, IXOPEN, IXLIST, IXAND, IXOR, IXSCORE,
IXVEC, IXTOPK, IXDRAIN, IXCLOSE; R313, R316, R317): a full queue of its engine is the queue-full trap; else the command stands last
in that queue with its registers and descriptor as they stood before the bundle, its weight enters PEND of the barrier it names, and
nothing else changes. CDSET writes one double of a descriptor, and BARSET the EXP of a barrier; neither takes a queue entry (R315,
R319). -/
def Obligations.CommandIssue : Prop :=
  (∀ (i : Instr) (s : State), isCommand i = true → Ready i s →
    let e := s.engine
    (64 ≤ s.view.queueLen e → Traps i s ⟨0x1C, e.val, 0⟩) ∧
    (s.view.queueLen e < 64 →
      ∃ f : Core → Core, Changes i s f ∧
        let c := s.cur
        let c' := f c
        let k := cfields i
        let weight := if isTransfer i then ((s.view.desc[k.d][3]).toNat / 2 ^ 24 % 2 ^ 16 + 1) * ((s.view.desc[k.d][3]).toNat % 2 ^ 24)
          else match i with
            | .ctouch .. => max (s.view.rs k.sb).toNat 1
            | .cflush .. => max (s.view.rs k.sb).toNat 1
            | .cmigr .. => max (s.view.rs k.sb).toNat 1
            | .cpfx .. => max (s.view.rs k.sb).toNat 1
            | _ => 1
        c' = { c with queue0 := c'.queue0, queue1 := c'.queue1, nextCmd := c.nextCmd + 1, bars := c'.bars } ∧
        (∃ x : Command, c'.queue e = c.queue e ++ [x] ∧ x.id = c.nextCmd ∧ x.op = i ∧ x.ctx = s.view.csr.ctxId.toNat ∧ x.a = s.view.rs k.sa ∧
          x.b = s.view.rs k.sb ∧ x.c = s.view.rs k.sc ∧ (isTransfer i = true → x.desc = s.view.desc[k.d]) ∧ x.bar = k.bar ∧ x.weight = weight ∧
          x.state = .queued ∧ x.done = 0) ∧
        (∀ e' : Fin 2, e' ≠ e → c'.queue e' = c.queue e') ∧
        (∀ b : Fin 16, c'.bars[b] = if k.bar = some b then { c.bars[b] with pend := (c.bars[b].pend + weight) % 2 ^ 64 } else c.bars[b]))) ∧
  (∀ (s : State) (g d : Fin 16) (sa : Fin 64) (w : Fin 8) (k : Fin 4), Ready (.cdset g d sa w) s → w.val = k.val →
    Changes (.cdset g d sa w) s (fun c => { c with desc := c.desc.set d ((c.desc[d]).set k (s.view.rs sa)) })) ∧
  (∀ (s : State) (g b : Fin 16) (sb : Fin 64), Ready (.barset g b sb) s →
    Changes (.barset g b sb) s (fun c => { c with bars := c.bars.set b { c.bars[b] with exp := min (s.view.rs sb).toNat 65535 } }))

namespace Sys2Proof.Machine

/-! ### Bytes at their homes and in local memories, for the statements on data -/

/-- The memory that holds a tier: the module's own for tiers 0 and 1 (R143). -/
def homeOf (tier : Nat) : Nat := if tier = 2 then 2 else if tier = 3 then 3 else 0

/-- Two addresses lie in different blocks of global memory. -/
def State.apart (s : State) (t a u b : Nat) : Prop := homeOf t ≠ homeOf u ∨ s.blockOf t a ≠ s.blockOf u b

/-- The codes of a memory are listed once each, in order, and its bytes are in canonical form. -/
def GMem.ordered (g : GMem) : Prop := (g.codes.map Prod.fst).Pairwise (· < ·) ∧ memWf g.cells = true

/-- `t` is `s` with bytes written inside one block of a tier: every other byte of that block, and of every other block, is as it was. -/
def Written (s t : State) (tier pa : Nat) (bs : List Byte) : Prop :=
  (∀ o < 128, (t.peekBlock tier pa).getD o 0 =
    if pa % 128 ≤ o ∧ o < pa % 128 + bs.length then bs.getD (o - pa % 128) 0 else (s.peekBlock tier pa).getD o 0) ∧
  (∀ u a, s.apart u a tier pa → t.peekBlock u a = s.peekBlock u a)

/-- The cores, the clusters and every global memory are the same. -/
def sameData (s t : State) : Prop := t.cores = s.cores ∧ t.clusters = s.clusters ∧ t.dev = s.dev ∧ t.host = s.host ∧ t.peer = s.peer

/-- `t` is `s` with bytes written from an offset of one local memory: every other byte of it, of every other local memory and of global memory is
as it was. -/
def WrittenLocal (s t : State) (n : Nat) (isCommons : Bool) (off : Nat) (bs : List Byte) : Prop :=
  (∀ b, readByte (t.localOf n isCommons).cells b =
    if off ≤ b ∧ b < off + bs.length then bs.getD (b - off) 0 else readByte (s.localOf n isCommons).cells b) ∧
  (∀ k, k ≠ n ∨ isCommons = true → (t.core k).field = (s.core k).field) ∧
  (∀ k, k ≠ clusterOf n ∨ isCommons = false → (t.cluster k).commons = (s.cluster k).commons) ∧
  t.dev = s.dev ∧ t.host = s.host ∧ t.peer = s.peer

/-- A piece holds offset `o` of row `j`. -/
def Piece.has (p : Piece) (j o : Nat) : Prop := p.row = j ∧ p.off ≤ o ∧ o < p.off + p.len

/-- A CFILL. -/
def isFill : Instr → Bool
  | .cfill .. => true
  | _ => false

/-- What a command holds before a step reads, and after one writes up to byte `k` of its output (R174). -/
def Command.heldBefore (x : Command) (st : CStep) : List Byte := if st.first && !x.streams then [] else x.buf
def Command.heldAfter (x : Command) (st : CStep) (pos k : Nat) : List Byte :=
  if st.last && x.streams then (x.output st.piece pos).drop k else x.output st.piece pos

/-- The acts of one piece of a transfer without conversion, from R320 and R322: what it reads, and then what it writes. -/
def Command.plainActs (x : Command) (n : Nat) (p : Piece) : List CAct :=
  let j := p.row
  let stop := p.off + p.len
  let ahead := readLocals (x.l j + x.readTo j p.off) (x.readTo j stop - x.readTo j p.off)
  match x.op with
  | .cget .. => readGlobals (x.g j + p.off) p.len ++ writeLocals n (x.l j) (x.writtenTo j p.off) (x.writtenTo j stop - x.writtenTo j p.off) 0 true
  | .cput .. => ahead ++ writeGlobals (x.g j + p.off) p.len 0
  | .cxfer .. => ahead ++ writeLocals (x.targetCore n) (fieldOffset (x.g j)) p.off p.len 0 true
  | _ => if x.fillsLocal then writeLocals n (x.l j) p.off p.len 0 true else writeGlobals (x.g j + p.off) p.len 0

/-- The new value of a single-operand atomic, from the tables of R332 and R333: old value `o`, operand `v`, compared value `cmp`, of `w` bits;
`none` writes nothing. -/
def atomicValue (w fmt o v cmp : Nat) : Instr → Option Nat
  | .aadd .. => some ((o + v) % 2 ^ w)
  | .afadd .. => some (FOp.elem .add (afaddFmt fmt) false .rne o v).1
  | .aand .. => some (o &&& v)
  | .aor .. => some (o ||| v)
  | .axor .. => some (o ^^^ v)
  | .amin .. => some (if (BitVec.ofNat w o).toInt ≤ (BitVec.ofNat w v).toInt then o else v)
  | .amax .. => some (if (BitVec.ofNat w v).toInt ≤ (BitVec.ofNat w o).toInt then o else v)
  | .aminn .. => some (min o v)
  | .amaxn .. => some (max o v)
  | .axchg .. => some v
  | .acas .. => if o = cmp then some v else none
  | .adecp .. => if (BitVec.ofNat w v).toInt ≤ (BitVec.ofNat w o).toInt then some ((o + 2 ^ w - v) % 2 ^ w) else none
  | _ => none

/-- The single-operand atomics (R332, R333). -/
def isSingle : Instr → Bool
  | .aadd .. => true
  | .afadd .. => true
  | .aand .. => true
  | .aor .. => true
  | .axor .. => true
  | .amin .. => true
  | .amax .. => true
  | .aminn .. => true
  | .amaxn .. => true
  | .axchg .. => true
  | .acas .. => true
  | .adecp .. => true
  | _ => false

/-- An ADCAS. -/
def isAdcas : Instr → Bool
  | .adcas .. => true
  | _ => false

/-- A document belongs to the new C of IXAND or IXOR (R355): `r` are the lists that the mask names, with their postings. -/
def Query.newMember (q : Query) (r : Tbl (List (Nat × Nat))) (inter : Bool) (d : Nat) : Prop :=
  if inter = true then (∀ p ∈ r, d ∈ p.2.map Prod.fst) ∧ ∀ c, q.lex = some c → (scoreOf c d).isSome = true
  else (scoreOf q.lexical d).isSome = true ∨ ∃ p ∈ r, d ∈ p.2.map Prod.fst

/-- What a set command leaves where it stays within its capacity, and CAPACITY where it does not (R349, R355, R357). -/
def Query.within (q : Query) (s : State) (cl k : Nat) : State × Prog :=
  if q.capacity < q.candidates.length then (s, .fail stCapacity) else (s.setQuery cl k { q with ranked := false }, .ok)

end Sys2Proof.Machine

/-! ### Global memory (05_global_memory.md, 06_memory_model.md) -/

/-- The interleaving of tiers 0 and 1 loses nothing (R146, R147, R148): two addresses of a tier in different 128-byte blocks are stored in different
blocks, whatever channels are present and whatever hash code each domain has, and the two addresses of one block in one; and a block of tier 0 is
never one of tier 1. Where a channel's bytes are stored is the model's own choice (DESIGN CHOICE, log 8). -/
def Obligations.ChannelInterleaving : Prop :=
  (∀ (s : State) (tier a b : Nat), tier < 2 → s.tierHolds tier a 1 = true → s.tierHolds tier b 1 = true →
    (s.blockOf tier a = s.blockOf tier b ↔ a / 128 = b / 128)) ∧
  (∀ (s : State) (a b : Nat), s.tierHolds 0 a 1 = true → s.tierHolds 1 b 1 = true → s.blockOf 0 a ≠ s.blockOf 1 b)

/-- Global memory at its home. A block stored in the code that is chosen for it decodes to its own bytes, and in a page with CMP no other code that
fits it takes fewer sectors (R152-R154). A write of bytes inside one block is read back, and every other byte of the block and every other block
keep their values (R155); it is made unless it is a partial one that meets an unreadable block, and then no byte changes; a whole block's write leaves
the block readable (R435); and the line's monitors are gone after it, and no others (R180). A read gives the bytes that stand there and changes
nothing, or gives none where the block cannot be read. A migration's copy of a block keeps its bytes (R150). An address that no translation gave is
written so too, compressed or not (DESIGN CHOICE, log 18). -/
def Obligations.GlobalMemory : Prop :=
  (∀ (bs : List Byte) (cmp : Bool), bs.length = 128 →
    decodeBlock (chooseCode cmp bs) (storedBytes bs (chooseCode cmp bs)) = bs ∧ codeFits bs (chooseCode cmp bs) = true ∧
    (cmp = false → chooseCode cmp bs = 15) ∧ (cmp = true → ∀ k, codeFits bs k = true → codeSectors (chooseCode cmp bs) ≤ codeSectors k)) ∧
  (∀ (s t : State) (tier pa : Nat) (cmp : Bool) (bs : List Byte), (s.gmem tier).ordered → pa % 128 + bs.length ≤ 128 →
    s.placeHome tier pa cmp bs = (t, true) ∨ s.writeHome tier pa cmp bs = (t, true) ∨ s.writePlain tier pa bs = (t, true) →
    Written s t tier pa bs ∧ (t.gmem tier).ordered) ∧
  (∀ (s : State) (tier pa : Nat) (cmp : Bool) (bs : List Byte), pa % 128 + bs.length ≤ 128 →
    (s.writeHome tier pa cmp bs).2 = (decide (bs.length = 128) || !s.unreadable tier pa) ∧
    ((s.writeHome tier pa cmp bs).2 = false → ∀ u a, (s.writeHome tier pa cmp bs).1.peekBlock u a = s.peekBlock u a) ∧
    ((s.writeHome tier pa cmp bs).2 = true →
      ((s.gmem tier).ordered → (s.placeHome tier pa cmp bs).1.unreadable tier pa = false) ∧
      (s.writeHome tier pa cmp bs).1.monitors = s.monitors.filter (fun m => !(m.tier == tier && m.pa / 128 == pa / 128)))) ∧
  (∀ (s : State) (tier pa n : Nat),
    (s.unreadable tier pa = false → (s.readHome tier pa n).2 = some (s.peek tier pa n) ∧ sameData s (s.readHome tier pa n).1) ∧
    (s.unreadable tier pa = true → (s.readHome tier pa n).2 = none ∧ ∀ u a, (s.readHome tier pa n).1.peekBlock u a = s.peekBlock u a)) ∧
  (∀ (s : State) (t a u b : Nat), (s.gmem u).ordered →
    (s.copyBlock t a u b).peekBlock u b = s.peekBlock t a ∧ ((s.copyBlock t a u b).gmem u).ordered ∧
    ∀ v c, s.apart v c u b → (s.copyBlock t a u b).peekBlock v c = s.peekBlock v c) ∧
  State.reset.dev.ordered ∧ State.reset.host.ordered ∧ State.reset.peer.ordered

/-! ### The data of commands (12_copy_sync.md, 13_index_engine.md) -/

/-- What the transfers, CTOUCH and CFLUSH move. Row j lies at g(j) and l(j), j0 = imm15 first (R320, R327). The pieces of a transfer without
conversion follow one another, row by row in ascending address order, each within 128 bytes, and every byte of every row is in exactly one (R174,
R320); a piece reads and writes as R322 says, at offsets that go from 0 to RLEN, where a 64-byte row of the local side is read or written as a whole
(R159), and each act at a local memory keeps within one 64-byte row. A step that reads adds the bytes at its address to what the command holds; one that
writes puts the bytes held, byte i of s(sc) mod 8 for CFILL, at its address, and changes no other byte; a local read of an invalid group is
EXPIRED, and of an uncorrectable word DATA (R323, R437). BDI pass-through moves the block as it is stored, with its code (R325). A quantising or
dequantising row is converted as VQNT and VDQNT convert (R326). CTOUCH and CFLUSH move 2 KiB groups between the region and its map (R124, R329). -/
def Obligations.TransferData : Prop :=
  (∀ (x : Command) (j : Nat),
    (j ∈ x.rowNums ↔ x.f.imm ≤ j ∧ j < x.f.imm + ((x.desc[3]).toNat / 2 ^ 24 % 2 ^ 16 + 1)) ∧ x.rlen = (x.desc[3]).toNat % 2 ^ 24 ∧
    x.l j = ((x.desc[1]).toNat % 2 ^ 32 + x.b.toNat + j * ((x.desc[1]).toNat / 2 ^ 32)) % 2 ^ 32 ∧
    x.g j = ((x.desc[0]).toNat + x.a.toNat + (if x.f.xf = 8 then nth x.index (j - x.f.imm) else if x.f.xf = 9 then
      nth x.index (j - x.f.imm) * (x.desc[2]).toNat else j * (x.desc[2]).toNat)) % 2 ^ 64) ∧
  (∀ (x : Command), x.scaled = false →
    x.pieces.Pairwise (fun p q => p.row < q.row ∨ (p.row = q.row ∧ p.off + p.len ≤ q.off)) ∧
    ∀ j o, j ∈ x.rowNums → o < x.rlen → ∃ p ∈ x.pieces, p.has j o ∧ (∀ q ∈ x.pieces, q.has j o → q = p) ∧ p.off + p.len ≤ x.rlen ∧
      ((if x.fillsLocal then x.l j else x.g j) + p.off) / 128 = ((if x.fillsLocal then x.l j else x.g j) + p.off + p.len - 1) / 128) ∧
  (∀ (x : Command) (n : Nat) (p : Piece), isTransfer x.op = true → x.f.xf ∈ [0, 8, 9] → (x.transferSteps n p).map CStep.act = x.plainActs n p) ∧
  (∀ (x : Command) (j o o' : Nat), o ≤ o' → o' ≤ x.rlen →
    x.writtenTo j 0 = 0 ∧ x.writtenTo j x.rlen = x.rlen ∧ x.writtenTo j o ≤ o ∧ x.writtenTo j o ≤ x.writtenTo j o' ∧
    x.readTo j 0 = 0 ∧ x.readTo j x.rlen = x.rlen ∧ o ≤ x.readTo j o ∧ x.readTo j o ≤ x.readTo j o') ∧
  (∀ (a n o : Nat), o < n → ∃ q ∈ spansOf 64 a n, q.1 ≤ a + o ∧ a + o < q.1 + q.2 ∧ q.1 / 64 = (q.1 + q.2 - 1) / 64 ∧ a ≤ q.1 ∧ q.1 + q.2 ≤ a + n) ∧
  (∀ (x : Command) (p : Piece) (bs : List Byte),
    (x.scaled = false → isFill x.op = false → x.convert p bs = bs) ∧
    (isFill x.op = true → (x.convert p bs).length = p.len ∧
      ∀ i < p.len, (x.convert p bs).getD i 0 = BitVec.ofNat 8 (x.c.toNat / 2 ^ (8 * ((p.off + i) % 8)))) ∧
    (x.quantises = true →
      let es := (els (natOfBytes bs) x.elemFmt.bits (x.rlen / x.elemBytes)).map (fun c => some (floatValue x.elemFmt c))
      let r := (chunks (quantBlock x.target) x.scaleCount es).map (quantBlockOf x.target)
      x.convert p bs = packBits (quantFmt x.target).bits (r.flatMap (fun b => b.2.1)) ++ packBits 16 (r.map Prod.fst)) ∧
    (x.dequantises = true →
      x.convert p bs = packBits x.elemFmt.bits ((List.range (x.rlen / x.elemBytes)).map (fun k =>
        (dequantElem x.target x.elemFmt (el (natOfBytes (bs.take x.codeLen)) (quantFmt x.target).bits k)
          (el (natOfBytes (bs.drop x.codeLen)) 16 (k / quantBlock x.target))).1)))) ∧
  (∀ (s u : State) (n va len : Nat) (raw : Bool) (x : Command) (st : CStep) (p : Page), st.act = .readGlobal va len raw →
    s.stepPage n x va false = (u, .ok p) → u.unreadable p.tier p.pa = false →
    (raw = false → ∃ t, s.runStep n x st = (t, .ok, x.heldBefore st ++ u.peek p.tier p.pa len) ∧ sameData u t) ∧
    (raw = true → p.tier ≠ 2 →
      let b := (u.gmem p.tier).block (u.blockOf p.tier p.pa)
      ∃ t, s.runStep n x st = (t, .ok, x.heldBefore st ++
        (padBlock (b.2.take (if b.1 = 0 then 0 else 32 * codeSectors b.1)) ++ [BitVec.ofNat 8 b.1])) ∧ sameData u t)) ∧
  (∀ (s u : State) (n va len pos : Nat) (x : Command) (st : CStep) (p : Page), st.act = .writeGlobal va len pos false →
    s.stepPage n x va true = (u, .ok p) → (u.gmem p.tier).ordered → p.pa % 128 + len ≤ 128 → pos + len ≤ (x.output st.piece pos).length →
    len = 128 ∨ u.unreadable p.tier p.pa = false →
    ∃ t, s.runStep n x st = (t, .ok, x.heldAfter st pos (pos + len)) ∧ Written u t p.tier p.pa (((x.output st.piece pos).drop pos).take len)) ∧
  (∀ (s : State) (p : Page) (code : Nat) (bs : List Byte), (s.gmem p.tier).ordered → code < 16 →
    (reservedCode code = true → s.putRaw p code bs = (s, .fail stData)) ∧
    (reservedCode code = false → (s.putRaw p code bs).2 = .ok ∧
      (s.putRaw p code bs).1.peekBlock p.tier p.pa =
        if p.cmp = true then decodeBlock code (padBlock (bs.take (codeBytes code))) else padBlock (decodeBlock code bs))) ∧
  (∀ (s : State) (n a len : Nat) (x : Command) (st : CStep), st.act = .readLocal a len ∨ st.act = .readList a len →
    let expired := (firstGroup (s.core n).field (s.commonsOf n) (fun g => !g.valid) a len).isSome
    let bad := localBad (s.core n).field (s.commonsOf n) a len
    (expired = false → bad = false →
      ∃ t, s.runStep n x st = (t, .ok, x.heldBefore st ++ x.sees a (localBytes (s.core n).field (s.commonsOf n) a len)) ∧ sameData s t) ∧
    (x.hidden = [] → ∀ bs, x.sees a bs = bs) ∧
    (isFlush x.op = false → expired = true → (s.runStep n x st).2.1 = .fail stExpired) ∧
    (isFlush x.op = false → expired = false → bad = true → (s.runStep n x st).2.1 = .fail stData)) ∧
  (∀ (s : State) (n t a done len pos off : Nat) (rows m : Bool) (x : Command) (st : CStep), st.act = .writeLocal t a done len pos rows →
    locate a = some (m, off) → memWf (s.localOf t m).cells = true → pos + len ≤ (x.output st.piece pos).length →
    (isCxfer x.op = false ∨ s.targetOk t x.ctx a x.rlen = true →
      ∃ u, s.runStep n x st = (u, .ok, x.heldAfter st pos (pos + len)) ∧
        WrittenLocal s u t m (off + done) (((x.output st.piece pos).drop pos).take len)) ∧
    (isCxfer x.op = true → s.targetOk t x.ctx a x.rlen = false → ∃ bs, s.runStep n x st = (s, .fail stOwner, bs))) ∧
  (∀ (s : State) (n : Nat) (x : Command) (r : Region), s.mappedRegion n x = some r → x.b ≠ 0 →
    (s.mapSteps n x).map CStep.act = x.groupsOf.flatMap (fun a =>
      let va := r.mapva + (a - r.base)
      (List.range 16).flatMap (fun k =>
        if isTouch x.op = true then .readGlobal (va + 128 * k) 128 false :: writeLocals n a (128 * k) 128 (128 * k) true
        else readLocals (a + 128 * k) 128 ++ [.writeGlobal (va + 128 * k) 128 (128 * k) false])))

/-- What atomics, contributions, waits, wakes and pipes do at their homes. An atomic returns the old value, in 8 bytes, and leaves the new one of R332 or
R333, or nothing new where it writes nothing, as one act (R178); ADCAS and AMOVE change both operands or neither (R179, R334), two parts of one
operand being OVERLAP; the values go to the slot s(sc) + 8 * imm15 (R332). ARED hands its value to the window that holds its address and whose
group names the module, and is WINDOW else (R335). WAITA gives MISMATCH, NOT_ARMED or arms; a woken one gives its status and value (R336); WAKE
wakes the line's waiters, at most s(sb) of them, all if it is 0, and gives their number (R337). PSEND stores its record where there is room and no other waits before it,
waits, or ends CLOSED or RANK (R339); PRECV takes the oldest record with its status, or CLOSED, or waits, and writes them (R340); PCLOSE closes its
side (R341). CMAP maps or unmaps its region (R328). A window of another home takes an ARED or not (DESIGN CHOICE, log 34); PRECV's status at
a close is a reading (DEDUCED, log 32). -/
def Obligations.HomeData : Prop :=
  (∀ (s u : State) (n : Nat) (x : Command) (p : Page), isSingle x.op = true → s.accessBoth n x.ctx x.a.toNat = (u, .ok p) →
    u.unreadable p.tier p.pa = false → p.pa % 128 + x.size ≤ 128 → (u.gmem p.tier).ordered →
    let o := natOfBytes (u.peek p.tier p.pa x.size)
    ∃ t, s.atomicHomeStep n x = (t, .ok, bytesOfNat 8 o) ∧
      match atomicValue (8 * x.size) x.f.w o (x.b.toNat % 2 ^ (8 * x.size)) (nth x.slot 0 % 2 ^ (8 * x.size)) x.op with
      | some v => Written u t p.tier p.pa (bytesOfNat x.size v)
      | none => sameData u t) ∧
  (∀ (s u v : State) (n : Nat) (x : Command) (p q : Page), isPair x.op = true → s.accessBoth n x.ctx x.a.toNat = (u, .ok p) →
    u.accessBoth n x.ctx x.b.toNat = (v, .ok q) →
    (p.tier = q.tier ∧ overlap p.pa q.pa x.size = true → s.atomicHomeStep n x = (v, .fail stOverlap, [])) ∧
    (¬(p.tier = q.tier ∧ overlap p.pa q.pa x.size = true) → v.unreadable p.tier p.pa = false → v.unreadable q.tier q.pa = false →
      p.pa % 128 + x.size ≤ 128 → q.pa % 128 + x.size ≤ 128 → (v.gmem p.tier).ordered → (v.gmem q.tier).ordered →
      (v.apart p.tier p.pa q.tier q.pa ∨ (p.tier = q.tier ∧ p.pa / 128 = q.pa / 128)) →
      let o := natOfBytes (v.peek p.tier p.pa x.size)
      let o' := natOfBytes (v.peek q.tier q.pa x.size)
      let m := 2 ^ (8 * x.size)
      let swaps := isAdcas x.op = false ∨ (o = nth x.slot 0 % m ∧ o' = nth x.slot 1 % m)
      ∃ t, s.atomicHomeStep n x = (t, .ok, bytesOfNat 8 o ++ bytesOfNat 8 o') ∧
        (swaps → t.peek p.tier p.pa x.size = bytesOfNat x.size (if isAdcas x.op = true then nth x.slot 2 else nth x.slot 0) ∧
          t.peek q.tier q.pa x.size = bytesOfNat x.size (if isAdcas x.op = true then nth x.slot 3 else o)) ∧
        (¬swaps → sameData v t))) ∧
  (∀ (x : Command) (n : Nat), (x.atomicSteps n).map CStep.act =
    .home :: writeLocals n (x.c.toNat + 8 * x.f.imm) 0
      (match x.op with | .adcas .. => 16 | .amove .. => 16 | .waita .. => 16 | .ared .. => 0 | _ => 8) 0 false) ∧
  (∀ (s u : State) (n a : Nat) (x : Command) (p : Page), s.access n x.ctx x.a.toNat true = (u, .ok p) →
    (p.tier = 2 → s.aredStep n x = (u, .fail stWindow)) ∧
    (p.tier ≠ 2 → a = (if p.tier = 3 then p.pa else u.moduleNum.toNat * 2 ^ 42 + p.pa) → a / 2 ^ 42 = u.moduleNum.toNat →
      (∀ w, u.windowAt a = some w → u.moduleNum.toNat ∈ w.group → s.aredStep n x =
        ({ u with agenda := u.agenda ++ [.event (.reductionContribution u.moduleNum.toNat a (Fin.ofNat 8 x.f.w) x.b)] }, .ok)) ∧
      ((∀ w, u.windowAt a = some w → u.moduleNum.toNat ∉ w.group) → s.aredStep n x = (u, .fail stWindow)))) ∧
  (∀ (s u : State) (n : Nat) (x : Command) (p : Page), x.slot = [] → s.access n x.ctx x.a.toNat false = (u, .ok p) →
    u.unreadable p.tier p.pa = false →
    let v := natOfBytes (u.peek p.tier p.pa x.size)
    ∃ t, sameData u t ∧ t.monitors = u.monitors ∧
      (v ≠ x.operand → s.waitaStep n x = (t, .ok, bytesOfNat 8 2 ++ bytesOfNat 8 v)) ∧
      (v = x.operand → t.stopped n = true → s.waitaStep n x = (t, .wait .armed, [])) ∧
      (v = x.operand → t.stopped n = false → (u.cluster (clusterOf n)).csr.moncap.toNat ≤ u.armed (clusterOf n) →
        s.waitaStep n x = (t, .ok, bytesOfNat 8 3 ++ bytesOfNat 8 v)) ∧
      (v = x.operand → t.stopped n = false → u.armed (clusterOf n) < (u.cluster (clusterOf n)).csr.moncap.toNat →
        s.waitaStep n x = ({ t with monitors := t.monitors ++ [⟨p.tier, p.pa, x.size, n, x.id⟩] }, .wait .armed, []))) ∧
  (∀ (s : State) (n st v : Nat) (x : Command), x.slot = [st, v] →
    s.waitaStep n x = if st = 0 then (s, .fail stData, []) else (s, .ok, bytesOfNat 8 st ++ bytesOfNat 8 v)) ∧
  (∀ (s u : State) (n : Nat) (x : Command) (p : Page), s.access n x.ctx x.a.toNat false = (u, .ok p) →
    let l := u.monitors.filter (fun m => m.tier == p.tier && m.pa / 128 == p.pa / 128)
    let woken := if x.b = 0 then l else l.take x.b.toNat
    ∃ t, s.wakeStep n x = (t, .ok, bytesOfNat 8 woken.length) ∧ t.monitors = u.monitors.filter (fun m => !woken.contains m)) ∧
  (∀ (s : State) (n : Nat) (x : Command),
    let p := x.f.d.val
    (s.receiver n p x.b.toNat = none → s.psendStep n x = (s, .fail stRank)) ∧
    (∀ r, s.receiver n p x.b.toNat = some r →
      (s.endpoint r p = none → s.psendStep n x = (s, .fail stClosed)) ∧
      ∀ e, s.endpoint r p = some e →
        (e.closed = true ∨ p ∈ (s.core n).closed → (s.psendStep n x).2 = .fail stClosed) ∧
        (e.closed = false → p ∉ (s.core n).closed →
          let room := e.records.length < e.depth ∧ (e.senders.head? = none ∨ e.senders.head? = some (n, x.id))
          (room → ∃ t, s.psendStep n x = (t, .ok) ∧
            (t.endpoint r p).map Endpoint.records = some (e.records ++ [((s.core n).csr.teamRank.toNat, x.buf)])) ∧
          (¬room → ∃ t f, s.psendStep n x = (t, .wait .waiting) ∧ t.endpoint r p = some f ∧ f.records = e.records ∧ (n, x.id) ∈ f.senders)))) ∧
  (∀ (s : State) (n : Nat) (x : Command),
    let p := x.f.d.val
    (s.endpoint n p = none → s.precvStep n x = (s, .ok, bytesOfNat 8 2)) ∧
    ∀ e, s.endpoint n p = some e →
      (∀ rank bs rest, e.records = (rank, bs) :: rest →
        ∃ t, s.precvStep n x = (t, .ok, bs ++ bytesOfNat 8 (1 + rank * 2 ^ 16 + bs.length * 2 ^ 32)) ∧
          (t.endpoint n p).map Endpoint.records = some rest) ∧
      (e.records = [] → s.precvStep n x = if s.pipeClosed n p = true then (s, .ok, bytesOfNat 8 2) else (s, .wait .waiting, []))) ∧
  (∀ (s : State) (n : Nat) (x : Command),
    (s.psendSteps n x).map CStep.act = readLocals (x.a.toNat + 64 * x.f.imm) (s.recordSize n x false) ++ [.home] ∧
    (x.done ≠ 0 → (x.precvSteps n).map CStep.act = .home :: (writeLocals n (x.a.toNat + 64 * x.f.imm) 0 (x.buf.length - 8) 0 true ++
      writeLocals n x.c.toNat 0 8 (x.buf.length - 8) false))) ∧
  (∀ (s : State) (n : Nat) (x : Command),
    let p := x.f.d.val
    (((s.core n).pipe p false).isSome = true → p ∈ ((s.performPclose n x).core n).closed) ∧
    (((s.core n).pipe p false).isSome = false → ∀ e, s.endpoint n p = some e →
      ∃ f, (s.performPclose n x).endpoint n p = some f ∧ f.closed = true ∧ f.records = [])) ∧
  (∀ (s : State) (n : Nat) (x : Command), (s.core n).rgn[x.region].valid = true →
    let r := ((s.performCmap n x).core n).rgn[x.region]
    (x.a = 0 → r.mapped = false) ∧ (x.a ≠ 0 → r.mapped = true ∧ r.mapva = x.a.toNat))

/-- What the IX commands compute once they have started, their lists read (R353-R360). IXOPEN takes the lowest free context with the operands of R353; IXLIST
attaches a list with its weight, or ends DATA where its header or its skip table is malformed; IXAND and IXOR leave the set of R355, a document
that stays with its score and one that enters with +0; IXSCORE adds weight times impact for each list in ascending order, rounded once
each time (R356), and nothing where C is empty (DESIGN CHOICE, log 111); IXVEC sets the scores of its pairs, a later one over an earlier one; each sets OPEN, and ends with CAPACITY
where it would hold more candidates than it may. IXTOPK ranks the candidates whose fused score is no NaN, from first to last, and keeps k of them
(R358); IXDRAIN writes 16 bytes for each and then their number (R359); IXCLOSE frees the context (R360). -/
def Obligations.IndexData : Prop :=
  (∀ (s : State) (n k : Nat) (x : Command) (g b d : Fin 16) (sa sb : Fin 64), x.op = .ixopen g b d sa sb → s.ixStatus n x = none →
    (s.cluster (clusterOf n)).freeQuery = some k →
    s.ixStep n x = (s.setQuery (clusterOf n) k
      { core := n, handle := d, ranked := false, alpha := x.a.setWidth 32, beta := (x.a >>> 32).setWidth 32, k := x.b.toNat % 2 ^ 16,
        capacity := x.b.toNat / 2 ^ 16 % 32 * 1024, terms := [], lex := none, vec := [], list := [] }, .ok)) ∧
  (∀ (s u v : State) (n k : Nat) (x : Command) (q : Query) (h t : List Byte), s.ixRead (clusterOf n) x.ctx x.a.toNat 16 = (u, .ok h) →
    let nblk := natOfBytes ((h.drop 4).take 4)
    (headerOk h = false → s.ixList n x k q = (u, .fail stData)) ∧
    (headerOk h = true → rangeOk x.a.toNat (16 + 8 * nblk) = true → u.ixRead (clusterOf n) x.ctx (x.a.toNat + 16) (8 * nblk) = (v, .ok t) →
      s.ixList n x k q =
        if skipOk (skipEntries nblk t) = true then (v.setQuery (clusterOf n) k { q with
          ranked := false, terms := tset q.terms x.f.imm ⟨x.a.toNat, x.b.setWidth 32, nblk, natOfBytes ((h.drop 8).take 4)⟩ }, .ok)
        else (v, .fail stData))) ∧
  (∀ (s u : State) (n k : Nat) (x : Command) (q : Query) (inter : Bool) (r : Tbl (List (Nat × Nat))), r ≠ [] →
    s.free.2.readTerms (clusterOf n) x.ctx q inter (inter && s.free.1 % 2 == 1) (maskTerms x.a.toNat)
      (if inter = true then q.lex.map (fun l => l.map Prod.fst) else none) = (u, .ok r) →
    ∃ l, s.ixSet n x k q inter = Query.within { q with lex := some l } u (clusterOf n) k ∧
      ∀ d, (q.newMember r inter d → scoreOf l d = some ((scoreOf q.lexical d).getD 0)) ∧ (¬q.newMember r inter d → scoreOf l d = none)) ∧
  (∀ (s u : State) (n k : Nat) (x : Command) (q : Query) (r : Tbl (List (Nat × Nat))),
    (q.lexical = [] → s.ixScore n x k q = (s.setQuery (clusterOf n) k { q with ranked := false }, .ok)) ∧
    (q.lexical ≠ [] → s.free.2.readTerms (clusterOf n) x.ctx q false (s.free.1 % 2 == 1) (maskTerms x.a.toNat)
        (some (q.lexical.map Prod.fst)) = (u, .ok r) →
      s.ixScore n x k q = (u.setQuery (clusterOf n) k { q with ranked := false, lex := some (q.lexical.map (fun e =>
        (e.1, r.foldl (fun v p => match p.2.find? (fun y => y.1 == e.1) with
          | some y => addScore (((tfind q.terms p.1).map Term.weight).getD 0) y.2 v
          | none => v) e.2))) }, .ok))) ∧
  (∀ (s : State) (n k : Nat) (x : Command) (q : Query),
    ∃ l, s.ixVec n x k q = Query.within { q with vec := l } s (clusterOf n) k ∧
      ∀ d, scoreOf l d = match (words8 x.b.toNat x.buf).reverse.find? (fun w => w % 2 ^ 32 == d) with
        | some w => some (BitVec.ofNat 32 (w / 2 ^ 32))
        | none => scoreOf q.vec d) ∧
  (∀ (s : State) (n k : Nat) (q : Query),
    s.ixTopk n k q = (s.setQuery (clusterOf n) k { q with ranked := true, list := q.rank }, .ok) ∧
    ∃ full : List Ranked, full.Perm ((q.candidates.map (fuse q)).filter (fun e => !(floatValue .fp32 e.f.toNat).isNan)) ∧
      q.rank = full.take q.k ∧ ∀ i, (h : i + 1 < full.length) → ranksBefore full[i + 1] full[i] = false) ∧
  (∀ (s : State) (n k : Nat) (x : Command) (q : Query) (g b : Fin 16) (o : Fin 4) (c : Fin 8) (d : Fin 16) (sa sc : Fin 64),
    x.op = .ixdrain g b o c d sa sc → s.query n d.val = some (k, q) → s.ixStatus n x = none →
    s.ixHomeStep n x = (s, .ok, q.list.flatMap (fun e => bytesOfNat 4 e.doc ++ bytesOfNat 4 e.f.toNat ++ bytesOfNat 4 e.lex.toNat ++
      bytesOfNat 4 e.vec.toNat) ++ bytesOfNat 8 q.list.length) ∧
    (x.done ≠ 0 → (x.ixSteps n).map CStep.act = .home :: (writeLocals n x.a.toNat 0 (x.buf.length - 8) 0 true ++
      writeLocals n x.c.toNat 0 8 (x.buf.length - 8) false))) ∧
  (∀ (s : State) (n k : Nat) (x : Command) (q : Query) (g b d : Fin 16), x.op = .ixclose g b d → s.query n d.val = some (k, q) →
    s.ixStep n x = (s.dropQuery (clusterOf n) k, .ok))

namespace Sys2Proof.Machine

/-- A command of a core waits for a resolved page or for a link no longer: the same command, but with `state`. -/
def onlyCommand (s t : State) (n : Nat) : Prop :=
  t = s.setCore n { s.core n with queue0 := (t.core n).queue0, queue1 := (t.core n).queue1 }

/-- The queue, the type, the payload count and the effect of each packet kind (R383-R388). -/
def packetOf : Instr → Option (Nat × Nat × Option Nat × (State → List Nat → Bool → State × Took))
  | .nop q => some (q, 0, none, fun s _ _ => (s, .accept true))
  | .launch q => some (q, 1, none, fun s p int => s.takeLaunch q p int)
  | .wait q => some (q, 2, some 5, fun s p _ => s.takeWait q p)
  | .signal q => some (q, 3, some 5, fun s p int => s.takeSignal q p int)
  | .ibCall q => some (q, 4, some 3, fun s p int => s.takeCall q p int)
  | .pktFence q => some (q, 5, some 0, fun s _ _ => s.takeFence q)
  | .pktBook q => some (q, 6, some 9, fun s p int => s.takeBook q p int)
  | .pktCancel q => some (q, 7, some 2, fun s p int => s.takeCancel q p int)
  | .counter q => some (q, 8, some 5, fun s p _ => s.takeCounter q p)
  | .timestamp q => some (q, 9, some 3, fun s p int => s.takeTimestamp q p int)
  | _ => none

/-- The messages of the command links (R392): from the GS to the CC of a cluster, or the other way, and whether they are urgent. -/
def messageOf : Instr → Option (MsgKind × Nat × Nat × Bool × Bool)
  | .msgPlace cl a => some (.place, cl, a, true, false)
  | .msgBook cl a => some (.book, cl, a, true, false)
  | .msgStage cl a => some (.stage, cl, a, true, false)
  | .msgRelease cl a => some (.release, cl, a, true, false)
  | .msgInvtlb cl a => some (.invtlb, cl, a, true, false)
  | .msgRetire cl a => some (.retire, cl, a, true, false)
  | .msgQuantum cl a => some (.quantum, cl, a, true, false)
  | .msgPreempt cl a => some (.preempt, cl, a, true, true)
  | .msgCancel cl a => some (.cancel, cl, a, true, true)
  | .msgBooked cl a => some (.booked, cl, a, false, false)
  | .msgNofit cl a => some (.nofit, cl, a, false, false)
  | .msgStaged cl a => some (.staged, cl, a, false, false)
  | .msgHalted cl a => some (.halted, cl, a, false, false)
  | .msgSwapped cl a => some (.swapped, cl, a, false, false)
  | .msgSlip cl a => some (.slip, cl, a, false, false)
  | .msgEvent cl a => some (.event, cl, a, false, false)
  | .msgComplete cl a => some (.complete, cl, a, false, true)
  | .msgFault cl a => some (.fault, cl, a, false, true)
  | _ => none

/-- A mailbox command with its opcode (R402, R403), whether its input keeps the layout, and its effect. -/
def mailboxOf (s : State) : Instr → Option (Nat × Bool)
  | .ctxCreate i => some (0xC000, s.createOk (doubles i))
  | .ctxDestroy i => some (0xC001, decide (1 ≤ (doubles i).length) && s.inUse (nth (doubles i) 0))
  | .mbInvtlb i => some (0xC002, decide (3 ≤ (doubles i).length) && decide (bits (nth (doubles i) 0) 1 0 < 3) &&
      nth (doubles i) 0 == bits (nth (doubles i) 0) 1 0 + bits (nth (doubles i) 0) 23 12 * 4096 &&
      (bits (nth (doubles i) 0) 1 0 == 0 || s.inUse (bits (nth (doubles i) 0) 23 12)))
  | .migrate i => some (0xC003, decide (5 ≤ (doubles i).length) && s.inUse (nth (doubles i) 0) && decide (nth (doubles i) 3 < 2))
  | .ckpt i => some (0xC006, s.ckptOk (doubles i))
  | .attest i => some (0xC00A, decide (4 ≤ (doubles i).length))
  | .windowOpen i => some (0xC00B, s.windowOk (doubles i))
  | .windowClose i => some (0xC00C, decide (1 ≤ (doubles i).length) && (tfind s.windows (nth (doubles i) 0)).isSome)
  | .eventRead i => some (0xC00E, decide (1 ≤ (doubles i).length) && decide (1 ≤ nth (doubles i) 0) && decide (nth (doubles i) 0 ≤ 4096))
  | _ => none

/-- A reply of the mailbox. -/
def answered (s t : State) (opcode code : Nat) (out : List Byte) : Prop := t.replies = s.replies ++ [⟨opcode, code, out⟩]

end Sys2Proof.Machine

/-! ### Events of a core (02, 09, 11, 14, 20, 21) -/

/-- What stops a core, and what follows (R61, R62, R63, R341, R342, R372, R375, R439, R449). A drain that has not ended changes nothing, but that the
bookings of a member that has executed EXIT are released at once; when it ends, an EXIT halts the core, closes the member's pipes and its query
contexts, marks the member as exited, tells the GS that it is HALTED, and asks whether the instance is complete; a pre-emption leaves it SWAPPED,
which a request to the CC holds open; a sibling's trap halts it with code 0x39, that member in INFO and the address of the next bundle in TRAP_PC,
and tells the GS; a cancel and the end of a context leave the core without a task, the latter with its registers discarded. SIBLING_STOP stops another
member of the team that trapped. TURN_ROLLBACK stops a core with an active turn, one that drains for a pre-emption too; when it has drained, the
turn's registers, predicates, loops and descriptors are as at its TURN, its rings are empty, its refill stands in the queue, the core waits for the
refill barrier, and a pre-emption that has come meanwhile follows; ROLLBACK_RESTART waits until that is satisfied, and then takes EXP from CNT, adds 1
to TURN_RB and the cycles since the stop to SLACK_CNT, and the core issues again. It rests on the model's own readings (DEDUCED, log 45, 46, 47,
115). -/
def Obligations.CoreEvents : Prop :=
  (∀ (s : State) (n : Nat) (r : Stop), (s.core n).seq.stop = some r → s.drained n = false →
    (r ≠ .exit → (r = .rollback → (s.core n).turn ≠ none) → exec (.drainEnd n) s = .next s) ∧
    (r = .exit → (s.core n).team = none → exec (.drainEnd n) s = .next s)) ∧
  (∀ (s : State) (n tn : Nat) (t : Team), (s.core n).seq.stop = some .exit → s.teamOf n = some (tn, t) → (s.core n).busy = true →
    let u := s.releaseMember n tn s.tick
    (∀ b, b ∈ (u.cluster (clusterOf n)).bookings ↔ ∃ b' ∈ (s.cluster (clusterOf n)).bookings,
      if b'.core = n ∧ b'.team = tn then b'.kind = .anchored ∧ b'.first ≤ s.tick ∧ b = { b' with last := min b'.last s.tick, left := 0 }
      else b = b') ∧
    (u.drained n = false → exec (.drainEnd n) s = .next u) ∧
    (u.drained n = true → u.leftOver n = false → (∃ m ∈ t.members, m.core = n ∧ m.exited = false) →
      ∃ w, exec (.drainEnd n) s = .next w ∧ (w.core n).seq.mode = .halted ∧ (w.core n).seq.stop = none ∧ (w.core n).x = (s.core n).x ∧
        (w.core n).csr = (s.core n).csr ∧ (w.core n).field = (s.core n).field ∧
        (w.cluster (clusterOf n)).bookings = (u.cluster (clusterOf n)).bookings ∧
        (∀ p ∈ ((s.core n).image.map Image.pipes).getD [], p.recv = false → p.num ∈ (w.core n).closed) ∧
        (∀ p ∈ ((s.core n).image.map Image.pipes).getD [], p.recv = true → ∀ e, w.endpoint n p.num = some e → e.closed = true ∧ e.records = []) ∧
        (∀ q ∈ (w.cluster (clusterOf n)).queries, q.2.core ≠ n) ∧
        (∃ t', w.team tn = some t' ∧ ∀ m ∈ t'.members, m.core = n → m.exited = true) ∧
        ((MsgKind.halted, n) ∈ (w.cluster (clusterOf n)).toGS.inbox ∨ (MsgKind.halted, n) ∈ (w.cluster (clusterOf n)).toGS.held) ∧
        .event (.instanceComplete t.inst) ∈ w.agenda)) ∧
  (∀ (s : State) (n : Nat), (s.core n).seq.stop = some .exit → (s.core n).team = none → (s.core n).busy = true → s.drained n = true →
    ∃ t, exec (.drainEnd n) s = .next t ∧ (∀ m, m ≠ n → t.core m = s.core m) ∧
      t.core n = { s.core n with seq := { (s.core n).seq with mode := .halted, stop := none } }) ∧
  (∀ (s : State) (n : Nat), (s.core n).seq.stop = some .preempt → s.drained n = true →
    ((s.cluster (clusterOf n)).reqQ.any (fun r => r.core == n) = true → exec (.drainEnd n) s = .next s) ∧
    ((s.cluster (clusterOf n)).reqQ.any (fun r => r.core == n) = false → (s.core n).rollback = none →
      exec (.drainEnd n) s = .next (s.updCore n (fun c => { c with seq := { c.seq with mode := .swapped, starts := false, stop := none } })))) ∧
  (∀ (s : State) (n : Nat) (b : Fin 16) (h : Bool), (s.core n).seq.stop = some .preempt → s.drained n = true →
    (s.cluster (clusterOf n)).reqQ.any (fun r => r.core == n) = false → (s.core n).rollback = some (b, h) →
    ∃ u, exec (.drainEnd n) s = .next u ∧ (∀ m, m ≠ n → u.core m = s.core m) ∧ (u.core n).seq.mode = .swapped ∧ (u.core n).seq.stop = none ∧
      (u.core n).x = (s.core n).x ∧ (u.core n).field = (s.core n).field ∧
      ((u.core n).rollback = none ↔ ((s.core n).bars[b]).pend = 0 ∧ ((s.core n).bars[b]).exp ≤ ((s.core n).bars[b]).cnt)) ∧
  (∀ (s : State) (n : Nat), (s.core n).seq.stop = some .cancel ∨ (s.core n).seq.stop = some .contextEnd → s.drained n = true →
    ∃ u, exec (.drainEnd n) s = .next u ∧ (u.core n).seq.mode = (if (s.core n).seq.shadow then .staged else .idle) ∧ (u.core n).team = none ∧
      (u.core n).seq.stop = none ∧ (u.core n).queue0 = [] ∧ (u.core n).queue1 = [] ∧ (∀ k : Fin 16, (u.core n).rgn[k] = Region.init) ∧
      (∀ tn t, s.teamOf n = some (tn, t) → .event (.instanceComplete t.inst) ∈ u.agenda) ∧
      ((s.core n).seq.stop = some .contextEnd → (u.core n).x = Scalar.init ∧ (u.core n).vec = VecUnit.init ∧ (u.core n).mat = Matrix.init ∧
        ∀ k : Fin 16, (u.core n).ring k = Ring.init ∧ (u.core n).bars[k] = Barrier.init)) ∧
  (∀ (s : State) (n m : Nat), (s.core n).seq.stop = some (.sibling m) → s.drained n = true → m < 2 ^ 32 →
    ∃ t, exec (.drainEnd n) s = .next t ∧ (∀ k, k ≠ n → t.core k = s.core k) ∧ (t.core n).seq.mode = .halted ∧
      (t.core n).csr.trapCause.toNat % 65536 = 0x39 ∧ (t.core n).csr.trapCause.toNat / 2 ^ 32 = m ∧
      (t.core n).csr.trapPc = .ofNat 64 (s.core n).nextPc ∧ (t.core n).x = (s.core n).settle.x ∧ (t.core n).field = (s.core n).field ∧
      (∀ tn x, s.teamOf n = some (tn, x) →
        ((MsgKind.halted, n) ∈ (t.cluster (clusterOf n)).toGS.inbox ∨ (MsgKind.halted, n) ∈ (t.cluster (clusterOf n)).toGS.held) ∧
          .event (.instanceComplete x.inst) ∈ t.agenda)) ∧
  (∀ (c : Core) (k : Nat), (c.seq.code.getD c.seq.pc 0 ≠ 0 ∨ c.seq.codeLen ≤ c.seq.pc → c.nextPc = c.seq.pc) ∧
    (c.seq.pc < c.seq.codeLen → c.seq.code.getD c.seq.pc 0 = 0 → k = (c.seq.pc / 64 + 1) * 64 → c.seq.code.getD k 0 ≠ 0 → c.nextPc = k)) ∧
  (∀ (s : State) (n m tn : Nat) (t : Team), s.teamOf n = some (tn, t) → n ≠ m → (s.core n).seq.mode ≠ .swapped → (s.core n).busy = true →
    (s.core n).seq.stop = none → t.state ≠ .stopping →
    ∃ u, exec (.siblingStop n m) s = .next u ∧ (∀ k, k ≠ n → u.core k = s.core k) ∧ u.agenda = s.agenda ++ [.event (.drainEnd n)] ∧
      u.core n = { s.core n with seq := { (s.core n).seq with stop := some (.sibling m), waitt := none }, rollback := none }) ∧
  (∀ (s : State) (n : Nat) (y : Double), (s.core n).busy = true → (s.core n).turn.isSome = true →
    (s.core n).seq.stop = none ∨ (s.core n).seq.stop = some .preempt → (s.core n).rollback = none →
    ∃ u, exec (.turnRollback n y) s = .next u ∧ (∀ k, k ≠ n → u.core k = s.core k) ∧ u.agenda = s.agenda ++ [.event (.drainEnd n)] ∧
      u.core n = { s.core n with seq := { (s.core n).seq with stop := some .rollback, busy := (s.core n).seq.wc, waitt := none } }) ∧
  (∀ (s : State) (n : Nat) (k : Turn), (s.core n).seq.stop = some .rollback → (s.core n).turn = some k → s.drained n = true →
    (s.cluster (clusterOf n)).reqQ.any (fun r => r.core == n) = false →
    let yields := (s.teamOf n).any (fun p => decide (p.2.state = .stopping))
    ∃ u, exec (.drainEnd n) s = .next u ∧ (∀ j, j ≠ n → u.core j = s.core j) ∧
      u.agenda = s.agenda ++ (if yields then [.event (.drainEnd n)] else []) ∧
      let c := u.core n
      c.x = { s := k.s, p := k.p, lc := k.lc, ps := k.ps, loops := k.loops } ∧ c.desc = k.desc ∧ c.vec.lfsr = k.lfsr ∧ c.csr.vctl = k.vctl ∧
      c.csr.vseed = k.vseed ∧ c.seq.pc = k.pc ∧ c.seq.latch = k.latch ∧ c.seq.inc = k.inc ∧ c.seq.stop = (if yields then some .preempt else none) ∧
      (∀ q : Fin 16, (c.ring q).h = 0 ∧ (c.ring q).sw = 0 ∧ (c.ring q).sr = 0 ∧ ∀ e : Fin 8, (c.ring q).st[e] = .empty) ∧
      (∀ b : Fin 16, (c.bars[b]).exp = nth k.exps b.val ∧ (c.bars[b]).cnt = ((s.core n).bars[b]).cnt) ∧
      c.turn = some { k with rolled := k.rolled + 1 } ∧ c.rollback = some (k.bar, decide ((s.core n).seq.mode = .atHeadland)) ∧
      c.queue k.engine = (s.core n).queue k.engine ++ [refillCommand (s.core n) k]) ∧
  (∀ (s : State) (n : Nat) (b : Fin 16) (h : Bool), (s.core n).busy = true → (s.core n).seq.stop = none → (s.core n).rollback = some (b, h) →
    (((s.core n).bars[b]).pend = 0 ∧ ((s.core n).bars[b]).exp ≤ ((s.core n).bars[b]).cnt →
      exec (.rollbackRestart n) s = .next (s.updCore n (fun c => { c with
        bars := c.bars.set b { c.bars[b] with cnt := c.bars[b].cnt - c.bars[b].exp }, rollback := none, seq := { c.seq with busy := c.seq.wc },
        csr := { c.csr with turnRb := c.csr.turnRb + 1, slackCnt := c.csr.slackCnt + .ofNat 64 (c.seq.wc - c.seq.busy) } }))) ∧
    (¬(((s.core n).bars[b]).pend = 0 ∧ ((s.core n).bars[b]).exp ≤ ((s.core n).bars[b]).cnt) → exec (.rollbackRestart n) s = .next s))

/-! ### Calendar, teams and launches (03, 02, 15) -/

/-- The calendar's events. A tick boundary advances TICK and RTICK as the clock does (R73); each step of a cluster's booking work leaves the next one
to come, behind the present steps of the other clusters (R95), and a calendar cell whose parity fails is recorded (R494). Step 1 asks for the end of
every grace that has passed and keeps every booking of a furrow that has not ended (R88); step 2 for the lapse of every stake that is due, and then for
the stakes of what starves (R97); steps 4 and 5 for the resolution of every headland and the overrun of every furrow; step 6 adds ballast in M rows
that are free, and nothing else (R94); step 7 asks for the staging of held and placed teams and serves requests. A furrow held unbooked is tried
again over what is left of its window, and where there is none, nothing is (R511); a headland whose barrier is satisfied consumes EXP of CNT and
anchors the next furrow, no earlier than its resolution, or has slipped; one that has slipped tries again, and one whose anchor tick has passed starts
it (R83, R314); grace expiry takes a floating booking's cells and counts a slip (R83); the first overrun of a furrow counts and follows the image's
policy, and a later one counts and traps (R98, R477); a headland that waits beyond STARVE_LIM is staked at the first tick at which its window fits,
and without one that starves nothing is; a stake lapses at its first tick (R96, R97); a booking lapses at its release tick, also while its booker is
swapped out (R377). Requests to the CC (R376): an empty queue does nothing; a request that waits for a page, a link or room stays first; one that is
done leaves the queue, with its status in its block and one less in PEND. It rests on the model's own readings (DEDUCED, log 39, 51 and 52). -/
def Obligations.CalendarEvents : Prop :=
  (∀ (s : State), ∃ t, exec .tickBoundary s = .next t ∧ t.tick = s.nextTick.tick ∧ t.rtick = s.nextTick.rtick) ∧
  (∀ (s : State) (cl : Nat), (s.cluster cl).calBad = none →
    let later := fun (j : Nat) => ({ s with agenda := laterWork cl s.agenda } : State).updCluster cl (fun k => { k with calStep := j })
    ((s.cluster cl).calStep = 0 → exec (.calendarTick cl) s = .next ((later 1).calendarFirst cl)) ∧
    ((s.cluster cl).calStep = 1 → exec (.calendarTick cl) s = .next ((later 2).calendarStakes cl)) ∧
    ((s.cluster cl).calStep = 2 → exec (.calendarTick cl) s = .next ((later 3).calendarWaits cl)) ∧
    ((s.cluster cl).calStep = 3 → exec (.calendarTick cl) s = .next ((later 4).calendarSecond cl)) ∧
    ((s.cluster cl).calStep = 4 → exec (.calendarTick cl) s = .next ((later 5).ballastAll cl)) ∧
    (5 ≤ (s.cluster cl).calStep → exec (.calendarTick cl) s = .next ((s.updCluster cl (fun k => { k with calStep := 0 })).calendarThird cl))) ∧
  (∀ (cl : Nat) (l : List Work), ∃ pre post, l = pre ++ post ∧ laterWork cl l = pre ++ .event (.calendarTick cl) :: post ∧
    (∀ k, .event (.calendarTick k) ∉ post) ∧ (pre = [] ∨ ∃ l' k, pre = l' ++ [.event (.calendarTick k)])) ∧
  (∀ (s : State) (cl : Nat), let t := s.calendarFirst cl
    t.cores = s.cores ∧ (∀ k, k ≠ cl → t.cluster k = s.cluster k) ∧ (t.cluster cl).stakes = (s.cluster cl).stakes ∧
    (∀ b ∈ (s.cluster cl).bookings, s.furrowOver b = false → s.stale b = false → b ∈ (t.cluster cl).bookings) ∧
    (∀ b ∈ (t.cluster cl).bookings, b.core ∈ s.coresOf cl → b.kind = .floating → b.grace < s.tick → .event (.graceExpiry b.core) ∈ t.agenda)) ∧
  (∀ (s : State) (cl : Nat), let t := s.calendarStakes cl
    t.cores = s.cores ∧ (t.cluster cl).stakes = ((s.newColumn cl).cluster cl).stakes ∧
    (∀ q ∈ (t.cluster cl).stakes, q.core ∈ s.coresOf cl → q.first ≤ s.tick → .event (.stakeLapse q.core) ∈ t.agenda)) ∧
  (∀ (s : State) (cl : Nat), ∃ l, s.calendarWaits cl = { s with agenda := l ++ s.agenda } ∧
    ∀ w, w ∈ l ↔ ∃ n ∈ s.coresOf cl, s.starving n ≠ [] ∧ w = .event (.stakePlace n)) ∧
  (∀ (s : State) (cl n : Nat), n ∈ s.coresOf cl → let t := s.calendarSecond cl
    t.cores = s.cores ∧ ((s.core n).seq.mode = .atHeadland → .event (.headlandResolve n) ∈ t.agenda) ∧
    ((s.core n).seq.mode = .running → .event (.overrun n) ∈ t.agenda)) ∧
  (∀ (s : State) (cl : Nat), let t := s.ballastAll cl
    t.cores = s.cores ∧ (∀ k, k ≠ cl → t.cluster k = s.cluster k) ∧
    ∃ l, t.cluster cl = { s.cluster cl with ballast := (s.cluster cl).ballast ++ l, windowMs := (t.cluster cl).windowMs } ∧
      ∀ q ∈ l, q.eq = (s.cluster cl).csr.ballastEq.toNat ∧ s.tick ≤ q.tick ∧ q.core ∈ s.coresOf cl ∧
        (∀ h ∈ (s.cluster cl).heldAt q.tick, h.1 = q.core → h.2.2.hasM = false) ∧ (∀ x ∈ (s.cluster cl).ballast, x.tick = q.tick → x.core ≠ q.core)) ∧
  (∀ (s : State) (cl : Nat), ∃ l : List Nat,
    s.calendarThird cl = { s with agenda := l.map (fun tn => .event (.stageTeam tn)) ++ [.event (.ccRequestServe cl)] ++ s.agenda } ∧
    ∀ tn, tn ∈ l ↔ ∃ t, (tn, t) ∈ s.teams ∧ (t.state = .held ∨ t.state = .placed) ∧ ∃ m, t.members.head? = some m ∧ clusterOf m.core = cl) ∧
  (∀ (s : State) (cl row : Nat), (s.cluster cl).calBad = some row →
    ∃ t, exec (.calendarTick cl) s = .next t ∧ (t.cluster cl).calBad = none ∧ (t.cluster cl).bookings = (s.cluster cl).bookings ∧ t.agenda = s.agenda ∧
      t.log = (s.updCluster cl (fun k => { k with calBad := none, calStep := 0 })).log.add
        { code := 0x504, cls := 5, sev := 0, ctx := none, tick := s.tick, rtick := s.rtick, unit := 3, unitNo := cl, sub := 0, addr := 0, detail := row,
          detail2 := 0, seq := 0, lost := 0 }) ∧
  (∀ (s : State) (n : Nat), (s.retryHold n).cores = s.cores ∧ (s.heldUnbooked n = [] → s.retryHold n = s) ∧
    ∀ b ∈ s.heldUnbooked n, b.core = n ∧ b.kind = .unbooked ∧ b.expired = false ∧ (s.core n).seq.furrow < b.index) ∧
  (∀ (s0 : State) (n : Nat) (b : Fin 16), let s := s0.retryHold n
    (s.core n).seq.mode = .atHeadland → (s.core n).seq.stop = none → (s.core n).rollback = none →
    (s.core n).seq.anchor = none → (s.core n).seq.slipped = none → (s.core n).seq.wait = some b →
    ((s.core n).bars[b].pend = 0 ∧ (s.core n).bars[b].exp ≤ (s.core n).bars[b].cnt →
      exec (.headlandResolve n) s0 = .next ((s.updCore n (fun c => { c with
        bars := c.bars.set b { c.bars[b] with cnt := c.bars[b].cnt - c.bars[b].exp }, seq := { c.seq with wait := none } })).anchorNext n s.tick)) ∧
    (¬((s.core n).bars[b].pend = 0 ∧ (s.core n).bars[b].exp ≤ (s.core n).bars[b].cnt) → exec (.headlandResolve n) s0 = .next s)) ∧
  (∀ (s : State) (n h : Nat), (s.core n).seq.anchor = none → let t := s.anchorNext n h
    (∀ m, m ≠ n → t.core m = s.core m) ∧
    t.core n = { s.core n with seq := { (s.core n).seq with anchor := (t.core n).seq.anchor, slipped := (t.core n).seq.slipped } } ∧
    ((t.core n).seq.anchor = none → (t.core n).seq.slipped = some h ∧ t.clusters = s.clusters) ∧
    (∀ a, (t.core n).seq.anchor = some a → h ≤ a)) ∧
  (∀ (s0 : State) (n h : Nat), let s := s0.retryHold n
    (s.core n).seq.mode = .atHeadland → (s.core n).seq.stop = none → (s.core n).rollback = none → (s.core n).seq.anchor = none →
    (s.core n).seq.slipped = some h → exec (.headlandResolve n) s0 = .next (s.anchorNext n h)) ∧
  (∀ (s0 : State) (n a : Nat), let s := s0.retryHold n
    (s.core n).seq.mode = .atHeadland → (s.core n).seq.stop = none → (s.core n).rollback = none → (s.core n).seq.anchor = some a → a < s.tick →
    ∃ t, exec (.headlandResolve n) s0 = .next t ∧ t = s.setCore n (t.core n) ∧ (t.core n).seq.mode = .running ∧
      (t.core n).seq.furrow = (s.core n).seq.furrow + 1 ∧ (t.core n).seq.anchor = none ∧ (t.core n).x = (s.core n).x ∧ (t.core n).bars = (s.core n).bars) ∧
  (∀ (s : State) (n : Nat) (b : Booking),
    (s.cluster (clusterOf n)).bookings.find? (fun b => b.core == n && decide (b.kind = .floating) && decide (b.grace < s.tick)) = some b →
    clusterOf b.core = clusterOf n →
    ∃ t, exec (.graceExpiry n) s = .next t ∧
      (t.cluster (clusterOf n)).csr.slipCnt = (s.cluster (clusterOf n)).csr.slipCnt + 1 ∧
      (t.cluster (clusterOf n)).bookings = (s.cluster (clusterOf n)).bookings.map (fun x => if x = b then { b with kind := .unbooked, expired := true } else x)) ∧
  (∀ (s : State) (n : Nat) (b : Booking), s.present n = some b → b.last < s.tick → b.left = 0 → (s.core n).seq.mode = .running →
    (s.core n).seq.stop = none ∨ (s.core n).seq.stop = some .rollback → s.yields n = false → (s.core n).seq.ext = 0 →
    (0 < (s.core n).seq.overruns →
      ∃ t, exec (.overrun n) s = .next t ∧ (t.core n).seq.mode = .halted ∧ (t.core n).csr.trapCause.toNat % 65536 = 0x38 ∧
        (t.core n).csr.trapPc = .ofNat 64 (s.core n).nextPc ∧ (t.core n).csr.ovrCnt = (s.core n).csr.ovrCnt + 1) ∧
    ((s.core n).seq.overruns = 0 →
      let u := s.updCore n (fun c => { c with csr := { c.csr with ovrCnt := c.csr.ovrCnt + 1 }, seq := { c.seq with overruns := 1 } })
      let ev := fun (d : Nat) => u.event 0x501 0 (some (s.core n).csr.ctxId.toNat) 0 n 0 0 (s.core n).seq.furrow d
      (((s.core n).image.map (fun i => i.flags % 2)).getD 0 = 1 → exec (.overrun n) s =
        .next (((ev 1).updCore n (fun c => { c with seq := { c.seq with ext := 0, renewed := some (max b.vec.slack 1) } })).push
          (.preempt (((s.core n).team).getD 0)))) ∧
      (((s.core n).image.map (fun i => i.flags % 2)).getD 0 = 0 → exec (.overrun n) s =
        .next (((ev 0).updCore n (fun c => { c with seq := { c.seq with ext := max b.vec.slack 1 } })).extend n b)))) ∧
  (∀ (s : State) (n : Nat) (b : Booking), let t := s.extend n b
    (∀ m, m ≠ n → t.core m = s.core m) ∧ (t.core n).x = (s.core n).x ∧ (t.core n).seq.mode = (s.core n).seq.mode ∧
    (s.stretch b s.tick = none → .event (.preempt (((s.core n).team).getD 0)) ∈ t.agenda ∧ (t.core n).seq.renewed = some (s.core n).seq.ext) ∧
    (s.stretch b s.tick ≠ none → t.agenda = s.agenda ∧ (t.core n).seq.ext = (s.core n).seq.ext - 1 ∧
      { b with last := s.tick } ∈ (t.cluster (clusterOf b.core)).bookings)) ∧
  (∀ (s : State) (n : Nat), s.starving n = [] → exec (.stakePlace n) s = .next s) ∧
  (∀ (s : State) (n h : Nat) (x : Want), s.waiting n = [x] → (s.core n).seq.mode = .atHeadland → (s.core n).seq.anchor = none →
    (s.core n).seq.slipped = some h → h + s.starveLim (s.core n).csr.ctxId.toNat < s.tick → s.teams.filter (s.starvingOn n) = [] →
    (s.cluster (clusterOf x.core)).stakes.any (fun q => q.team == x.team && q.core == x.core) = false →
    (∀ j, j < 8192 → s.stakeFits x (s.tick + j) = true → (∀ i, i < j → s.stakeFits x (s.tick + i) = false) →
      exec (.stakePlace n) s = .next (s.stakeAt [x] (s.tick + j))) ∧
    ((∀ j, j < 8192 → s.stakeFits x (s.tick + j) = false) → exec (.stakePlace n) s = .next s)) ∧
  (∀ (s : State) (x : Want) (t : Nat), ((s.stakeAt [x] t).cluster (clusterOf x.core)).stakes =
    ((s.clearStake x t).cluster (clusterOf x.core)).stakes ++ [⟨x.core, x.team, x.core, x.index, x.vec, t, t + (x.dur + x.slack) - 1⟩]) ∧
  (∀ (s : State) (n : Nat),
    let due := fun (q : Stake) => q.core == n && decide (q.first ≤ s.tick)
    ((s.cluster (clusterOf n)).stakes.any due = true →
      ∃ t, exec (.stakeLapse n) s = .next t ∧ t.agenda = s.agenda ∧
        (t.cluster (clusterOf n)).stakes = (s.cluster (clusterOf n)).stakes.filter (fun q => !due q) ∧ t.cores = s.cores) ∧
    ((s.cluster (clusterOf n)).stakes.any due = false → exec (.stakeLapse n) s = .next s)) ∧
  (∀ (s : State) (cl h : Nat) (v : Reservation),
    s.reservations.find? (fun v => v.handle == h && v.cores.any (fun n => clusterOf n == cl) && decide (v.tick ≤ s.tick)) = some v →
    ∃ t, exec (.bookingLapse cl h) s = .next t ∧ t.reservations = s.reservations.filter (fun x => x.team ≠ v.team) ∧
      (∀ n, v.core = some n → n < 2 ^ 20 → v.handle ∈ (t.core n).lapsed ∧ v.handle ∉ (t.core n).handles) ∧
      (∀ tn rank x, v.core = some (absentKey tn rank) → rank < 64 → t.team tn = some x → ∀ m ∈ x.members, m.rank = rank →
        ∀ w, m.saved = some w → v.handle ∈ w.core.lapsed ∧ v.handle ∉ w.core.handles)) ∧
  (∀ (s : State) (cl : Nat),
    ((s.cluster cl).reqQ = [] → exec (.ccRequestServe cl) s = .next s) ∧
    (∀ r l u va image, (s.cluster cl).reqQ = r :: l → s.serve r = (u, .page va image) →
      exec (.ccRequestServe cl) s = .next (u.headWaits cl (some (va, image)))) ∧
    (∀ r l u, (s.cluster cl).reqQ = r :: l → s.serve r = (u, .room) ∨ s.serve r = (u, .link) ∧ u.tick < u.cxlSince + 2 ^ 20 →
      exec (.ccRequestServe cl) s = .next (u.headWaits cl none)) ∧
    (∀ r l u st out, (s.cluster cl).reqQ = r :: l →
      s.serve r = (u, .done st out) ∨ s.serve r = (u, .link) ∧ u.cxlSince + 2 ^ 20 ≤ u.tick ∧ st = 2 ∧ out = [] → r ∈ (u.cluster cl).reqQ →
      exec (.ccRequestServe cl) s = .next (
        let v := u.takeRequest r st out
        if l = [] then v else { v with agenda := .event (.ccRequestServe cl) :: v.agenda }))) ∧
  (∀ (s : State) (cl : Nat) (on : Option (Nat × Bool)), let t := s.headWaits cl on
    t.cores = s.cores ∧ (∀ k, k ≠ cl → t.cluster k = s.cluster k) ∧
    ∀ r l, (s.cluster cl).reqQ = r :: l → t.cluster cl = { s.cluster cl with reqQ := { r with on := on } :: l }) ∧
  (∀ (s : State) (r : Request) (st : Nat) (out : List (Nat × Nat)), memWf (s.core r.core).field.cells = true → r.blk % 64 = 0 → r.blk < 0x800000 →
    (∀ p ∈ out, 0 < p.1 ∧ p.1 < 8) →
    let t := s.takeRequest r st out
    (∀ k, k < 8 → t.byteAt r.core (r.blk + k) = .ofNat 8 (st / 2 ^ (8 * k))) ∧
    (t.cluster (clusterOf r.core)).reqQ = (s.cluster (clusterOf r.core)).reqQ.erase r ∧
    (1 ≤ ((s.core r.core).bars[r.bar]).pend → ((s.core r.core).bars[r.bar]).pend < 2 ^ 64 →
      ((t.core r.core).bars[r.bar]).pend = ((s.core r.core).bars[r.bar]).pend - 1) ∧
    (∀ a, (a < r.blk ∨ r.blk + 64 ≤ a) → (a < 0x800000 ∨ 0x2000000 ≤ a) → t.byteAt r.core a = s.byteAt r.core a))

/-- Teams and launches. A staged team whose members have all left their tasks swaps its banks at the release tick, and one whose members have
not is held (R54, R481); a held team whose members all stopped at a headland is staged again at once (R482); a team that finds a place takes
it, with its gang; a team whose quantum is used up is pre-empted where its launch's queue waits (R71, R72); a pre-emption acts on
every team of the gang, unless the instance is faulted or cancelled (R62, R70); a drained member is saved, with its registers and what its valid unmapped groups hold, and leaves its core, once its
mapped groups are written back and unless a word that the save reads is uncorrectable (R65, R126, R443, R476), and the reserved cycle excepted (R28);
with its last member saved the team is SWAPPED, with a digest of its save area; a swap-in checks the digest, loads the images again, restores every
member's state but what is the core's own, and stages the teams (R66, R68), and an uncorrectable save area ends the context (R437); a member that is
released has the state of R55; a placed team stands on eligible cores (R395); an instance that is over leaves the tables and its launch counts it
(R48); the end of a context stops its queues and posts its event, and a second error of a context that is being ended has no further effect (R439,
R443); a launch is admitted, or refused as FAULTED with its events (R488, R489). It rests on the model's own readings (DEDUCED, log 49, 53) and choices
(DESIGN CHOICE, log 48, 54, 82, 83, 116). -/
def Obligations.TeamEvents : Prop :=
  (∀ (s : State) (tn : Nat) (t : Team), s.team tn = some t → t.state = .staged → t.release ≤ s.tick → s.paused t.ctx = false →
    let g := s.teamsOf t.inst
    let waits := fun (p : Nat × Team) (m : Member) => m.exited || (!(s.core m.core).seq.starts &&
      (decide ((s.core m.core).seq.mode = .staged) || (p.2.resumed && decide ((s.core m.core).seq.mode = .swapped))))
    let ready := g.all (fun p => decide (p.2.state = .staged) && p.2.members.all (waits p))
    (ready = true → exec (.taskRelease tn) s = .next (g.foldl (fun s p => s.releaseOne p.1 p.2) s)) ∧
    (ready = false →
      exec (.taskRelease tn) s = .next (g.foldl (fun s p => (s.releaseTeam p.1 (s.tick - 1)).updTeam p.1 (fun t => { t with state := .held })) s))) ∧
  (∀ (s : State) (tn : Nat) (t : Team), s.team tn = some t → t.state = .held → s.paused t.ctx = false →
    let ready := (s.teamsOf t.inst).all (fun p => p.2.members.all (fun m => m.exited || (!(s.core m.core).seq.starts &&
      (decide ((s.core m.core).seq.mode = .staged) || (p.2.resumed && decide ((s.core m.core).seq.mode = .swapped))))))
    (ready = true → s.groupWants (s.teamsOf t.inst) = [] → exec (.stageTeam tn) s = .next (s.markStaged (s.teamsOf t.inst) (s.tick + 1))) ∧
    (ready = true → ∀ x l u a, s.groupWants (s.teamsOf t.inst) = x :: l → s.bookTeam (x :: l) (s.tick + 1) 8191 = some (u, a) →
      exec (.stageTeam tn) s = .next (u.markStaged (s.teamsOf t.inst) a)) ∧
    (ready = true → ∀ x l, s.groupWants (s.teamsOf t.inst) = x :: l → s.bookTeam (x :: l) (s.tick + 1) 8191 = none →
      exec (.stageTeam tn) s = .next (s.sendTeam .nofit tn)) ∧
    (ready = false → exec (.stageTeam tn) s = .next s)) ∧
  (∀ (s : State) (tn : Nat) (t : Team), s.team tn = some t → t.state = .ready → ((s.placeTeam tn).team tn).map Team.state = some .placed →
    exec (.teamPlace tn) s = .next ((s.placeTeam tn).placeMore t.inst)) ∧
  (∀ (s : State) (tn : Nat) (t : Team), s.team tn = some t → t.state = .running → s.queueWaits tn = true →
    (((tfind s.contexts t.ctx).map Context.quantum).getD 65536 ≤ t.used →
      ∃ u, exec (.quantumExpiry tn) s = .next u ∧ u.agenda = s.agenda ++ [.event (.preempt tn)] ∧ u.cores = s.cores ∧ u.teams = s.teams) ∧
    (t.used < ((tfind s.contexts t.ctx).map Context.quantum).getD 65536 → exec (.quantumExpiry tn) s = .next s)) ∧
  (∀ (s : State) (tn : Nat) (t : Team), s.team tn = some t →
    ((s.inst t.inst).any (fun i => i.faulted || i.cancelled) = true → exec (.preempt tn) s = .next s) ∧
    ((s.inst t.inst).any (fun i => i.faulted || i.cancelled) = false →
      exec (.preempt tn) s = .next ((s.teamsOf t.inst).foldl State.preemptOne s))) ∧
  (∀ (s : State) (n tn : Nat) (t : Team) (m : Member), s.teamOf n = some (tn, t) → t.members.find? (fun m => m.core == n && !m.exited && !m.done) = some m →
    (s.core n).seq.mode = .swapped → t.state = .stopping →
    (s.reservedNow (clusterOf n) = true → exec (.swapOutComplete n) s = .next s) ∧
    (s.reservedNow (clusterOf n) = false →
    (∀ u, s.flushAll n = (u, false) → exec (.swapOutComplete n) s = .next u) ∧
    (∀ u b w, s.flushAll n = (u, true) → u.badLive n = some (b, w) → exec (.swapOutComplete n) s = .next (u.wordError n b w)) ∧
    (∀ u f, s.flushAll n = (u, true) → u.badLive n = none → (u.core n).badSaved = some f → exec (.swapOutComplete n) s = .next (u.flawFound n f)) ∧
    (∀ u, s.flushAll n = (u, true) → u.badLive n = none → (u.core n).badSaved = none → u.badMapped n = true →
      exec (.swapOutComplete n) s = .next u) ∧
    (∀ u, s.flushAll n = (u, true) → u.badLive n = none → (u.core n).badSaved = none → u.badMapped n = false →
      ∃ (v : List Member → List Member) (w : Saved),
      exec (.swapOutComplete n) s = .next ((((u.updTeam tn (fun t => { t with members := v t.members })).moveHolder n (absentKey tn m.rank)).leaveCore n).swapDone t.inst)
        ∧ w = u.saveOf n tn ∧ (∀ x ∈ t.members, x.rank = m.rank → ∃ y ∈ v t.members, y.rank = m.rank ∧ y.done = true ∧ y.saved = some w)))) ∧
  (∀ (s : State) (n tn : Nat), let w := s.saveOf n tn
    let c := (s.core n).settle
    w.core.x = c.x ∧ w.core.vec = c.vec ∧ w.core.rings = c.rings ∧ w.core.bars = c.bars ∧ w.core.desc = c.desc ∧ w.core.mat = c.mat ∧ w.core.csr = c.csr ∧
    w.core.rgn = c.rgn ∧ w.core.turn = c.turn ∧ w.core.seq.pc = c.seq.pc ∧ w.core.seq.furrow = c.seq.furrow ∧ w.core.seq.latch = c.seq.latch ∧
    w.core.seq.code = [] ∧ w.core.image = none ∧
    (∀ a, inSpans (c.spans false) a = true → (c.field.group a).valid = true → inSpans (c.spansOf false true) a = false →
      ∀ x ∈ c.field.cells, x.1 = a → x ∈ w.core.field.cells)) ∧
  (∀ (s : State) (inst : Nat), let g := s.teamsOf inst
    (g.any (fun p => decide (p.2.state ≠ .stopping) || p.2.members.any (fun m => !m.done && !m.exited)) = true → s.swapDone inst = s) ∧
    (∀ tn t, s.team tn = some t → ∃ u, (s.swapTeam tn).team tn = some u ∧ u.state = .swapped ∧ u.digest = sha256 u.area ∧ u.members = t.members ∧
      u.since = s.tick ∧ (s.swapTeam tn).cores = s.cores)) ∧
  (∀ (s : State) (tn : Nat) (t : Team), s.team tn = some t →
    let g := s.teamsOf t.inst
    let digest := g.all (fun p => sha256 p.2.area == p.2.digest)
    let late := g.any (fun p => p.2.members.any (fun m => s.reservedNow (clusterOf m.core)))
    let bad := g.any (fun p => p.2.areaBad)
    g.all (fun p => decide (p.2.state = .restoring)) = true →
    (late = true → exec (.swapInComplete tn) s = .next s) ∧
    (late = false → bad = true → exec (.swapInComplete tn) s = .next (s.areaError t.ctx g)) ∧
    (late = false → bad = false →
    (digest = false → exec (.swapInComplete tn) s =
      .next ((s.event 0x402 3 (some t.ctx) 3 (headCluster g) 0 0 0 0).resumeFault t.inst g)) ∧
    (∀ r, digest = true → s.reloadImages g = (r, .error none) → exec (.swapInComplete tn) s = .next { s with faults := r.faults, snoop := r.snoop }) ∧
    (∀ r code d va l, digest = true → s.reloadImages g = (r, .error (some ((code, d, va), l))) →
      exec (.swapInComplete tn) s = .next ((r.refusalEvents t.ctx (code, d, va) l).resumeFault t.inst g)) ∧
    (∀ r u, digest = true → s.reloadImages g = (r, .ok ()) → r.restoreAll (r.teamsOf t.inst) = (u, false) →
      exec (.swapInComplete tn) s = .next { s with faults := u.faults, snoop := u.snoop }) ∧
    (∀ r u, digest = true → s.reloadImages g = (r, .ok ()) → r.restoreAll (r.teamsOf t.inst) = (u, true) →
      exec (.swapInComplete tn) s = .next (u.resumeStaged tn t.inst (g.any (fun p => p.2.asked)))))) ∧
  (∀ (s : State) (ctx : Nat) (g : List (Nat × Team)), ∃ syndrome, let t := s.areaError ctx g
    t.agenda = s.agenda ++ [.event (.contextEnd ctx 0x302 0)] ∧ t.cores = s.cores ∧ t.teams = s.teams ∧
    t.log = s.log.add { code := 0x302, cls := 3, sev := 3, ctx := some ctx, tick := s.tick, rtick := s.rtick, unit := 3, unitNo := headCluster g, sub := 0,
                        addr := 0, detail := syndrome, detail2 := 0, seq := 0, lost := 0 }) ∧
  (∀ (s : State) (inst : Nat) (x : Instance) (g : List (Nat × Team)), s.inst inst = some x → let t := s.resumeFault inst g
    .event (.instanceComplete inst) ∈ t.agenda ∧ ∃ y, t.inst inst = some y ∧ y.faulted = true) ∧
  (∀ (s : State) (tn inst : Nat) (asked : Bool), let t := s.resumeStaged tn inst asked
    (∀ k x, t.team k = some x → x.inst = inst → x.resumed = true ∧ x.asked = false ∧ (x.state = .held ∨ x.state = .staged) ∧
      ∀ m ∈ x.members, m.saved = none) ∧
    (asked = true → .event (.preempt tn) ∈ t.agenda)) ∧
  (∀ (c v : Core) (tn : Nat), let t := c.restored v tn
    t.x = v.x ∧ t.vec = v.vec ∧ t.rings = v.rings ∧ t.bars = v.bars ∧ t.desc = v.desc ∧ t.rgn = v.rgn ∧ t.turn = v.turn ∧ t.mat.acc = v.mat.acc ∧
    t.seq.mode = .swapped ∧ t.seq.pc = v.seq.pc ∧ t.seq.furrow = v.seq.furrow ∧ t.csr.ctxId = v.csr.ctxId ∧ t.csr.vctl = v.csr.vctl ∧
    t.csr.capm = c.csr.capm ∧ t.csr.refcnt = c.csr.refcnt ∧ t.csr.trapCause = c.csr.trapCause ∧ t.csr.trapPc = c.csr.trapPc ∧ t.team = some tn ∧
    t.seq.code = c.seq.code ∧ t.seq.shCode = c.seq.shCode) ∧
  (∀ (c : Core) (i : Image) (tn ctx rank size index : Nat) (presets : List (Nat × Option Nat × Nat)),
    let t := c.released i tn ctx rank size index presets
    t.seq.mode = .staged ∧ t.seq.starts = true ∧ t.seq.pc = 0 ∧ t.seq.furrow = 0 ∧ t.seq.stop = none ∧ t.seq.code = c.seq.shCode ∧
    t.seq.shCode = c.seq.code ∧ t.x.p = Scalar.init.p ∧ t.x.loops = [] ∧ (presets = [] → ∀ r, t.rs r = 0) ∧ (∀ r : Fin 32, t.vec.v[r] = 0) ∧
    t.vec.lfsr = lfsrAll i.vseedInit ∧ t.csr.vctl = i.vctlInit ∧ t.csr.vstat = 0 ∧ t.csr.vseed = i.vseedInit ∧ t.csr.fmt = i.fmtInit ∧
    t.csr.usem = i.usem ∧ t.csr.ctxId = .ofNat 12 ctx ∧ t.csr.teamRank = .ofNat 6 rank ∧ t.csr.teamSize = .ofNat 7 size ∧
    t.csr.launchIdx = .ofNat 24 index ∧ t.csr.trapCause = 0 ∧ t.csr.trapPc = 0 ∧ t.csr.trapAddr = 0 ∧ t.csr.trapSrc = 0 ∧ t.csr.capm = c.csr.capm ∧
    t.csr.refcnt = c.csr.refcnt ∧ t.csr.turnCnt = c.csr.turnCnt ∧ t.field = c.field ∧ t.queue0 = [] ∧ t.queue1 = [] ∧ t.image = some i ∧
    t.team = some tn ∧ (∀ k : Fin 16, (t.ring k).h = 0 ∧ (t.ring k).rp = 0 ∧ (t.ring k).wp = 0 ∧
      ((t.ring k).depth, (t.ring k).rt, (t.ring k).wt) = i.rings.getD k.val (8, 1, 1)) ∧
    (∀ k : Fin 16, (i.barriers.filter (fun b => b.1 == k.val) = [] → t.bars[k] = Barrier.init) ∧ (t.bars[k]).cnt = 0 ∧ (t.bars[k]).pend = 0)) ∧
  (∀ (s : State) (tn a : Nat) (t : Team), s.team tn = some t → t.resumed = false →
    ∃ u, (s.markStaged [(tn, t)] a).team tn = some u ∧ u.state = .staged ∧ u.release = a ∧ u.members = t.members ∧
      (s.markStaged [(tn, t)] a).cores = s.cores) ∧
  (∀ (s : State) (tn : Nat) (t u : Team), s.team tn = some t → t.state = .ready → t.members = [] → s.teamsOf t.inst = [(tn, t)] →
    (s.placeTeam tn).team tn = some u → (u = t ∧ s.placeTeam tn = s) ∨ (u.state = .placed ∧ u.members.length = t.image.teamSize ∧
      (s.placeTeam tn).cores = s.cores ∧ ∀ m ∈ u.members, s.eligible t.image.usem m.core = true ∧ m.exited = false)) ∧
  (∀ (s : State) (i : Nat) (x : Instance), s.inst i = some x → x.teams = [] →
    exec (.instanceComplete i) s = .next (
      let u := ({ s with insts := tdel s.insts i } : State).updUnit x.launch
        (fun u => { u with count := u.count + 1, faulted := u.faulted || x.faulted, cancelled := u.cancelled || x.cancelled })
      (u.writeRecord x.launch).settleUnits)) ∧
  (∀ (s : State) (ctx cause refill : Nat),
    (s.isEnding ctx = true → exec (.contextEnd ctx cause refill) s = .next s) ∧
    (s.isEnding ctx = false → ∃ u : State, u.isEnding ctx = true ∧ (∀ q, q < 1024 → (s.queue q).ctx = ctx → (s.queue q).en = true →
        (u.queue q).state = 5) ∧ exec (.contextEnd ctx cause refill) s =
      .next (u.event 0xB01 3 (some ctx) 9 0 0 0 (cause % 65536 + refill * 65536) 0)) ∧
    (s.isEnding ctx = false → (∀ p ∈ s.insts, (s.teamsOf p.1).any (fun t => t.2.ctx == ctx) = false) →
      (∀ p ∈ s.cores, ¬(p.2.busy = true ∧ p.2.csr.ctxId.toNat = ctx ∧ p.2.team = none)) → (∀ p ∈ s.units, p.2.ctx = ctx → p.2.open' = false) →
      (∀ r ∈ s.reservations, r.ctx ≠ ctx) →
      let stop := fun (q : Queue) => if q.ctx = ctx ∧ q.en = true then
          { q with state := 5, kickAt := none, waitAt := none, park := none, job := none, phase := none, graph := none }
        else q
      exec (.contextEnd ctx cause refill) s = .next ((({ s with
          queues := tmap (fun _ q => stop q) s.queues,
          endings := s.endings.filter (fun e => decide (e.tick = s.tick) || s.endLeft e) ++ [⟨ctx, s.tick, []⟩] } : State).settleUnits).event
        0xB01 3 (some ctx) 9 0 0 0 (cause % 65536 + refill * 65536) 0))) ∧
  (∀ (s : State) (u : Nat) (x : UnitRec), s.unit u = some x → x.kind = 0 → x.admitted = false → x.open' = true →
    (s.refusalOf x = none → ∃ t, exec (.launchAdmit u) s = .next t ∧ t.unit u = some { x with admitted := true, refusal := none } ∧
      t.log = s.log ∧ t.cores = s.cores) ∧
    (∀ r, s.refusalOf x = some r →
      exec (.launchAdmit u) s = .next (((s.refusalEvents x.ctx r x.unsigned).updUnit u
        (fun x => { x with count := x.total, made := x.total, faulted := true, refusal := none })).settleUnits))) ∧
  (∀ (s : State) (x : UnitRec), (s.refusalOf x = none ↔ s.admission x.images x.parsed = none ∧ x.refusal = none)) ∧
  (∀ (s : State) (ctx code d va : Nat) (key : Nat), ((tfind s.contexts ctx).map Context.key).getD 0 = key →
    s.refusalEvents ctx (code, d, va) [] = s.event code 0 (some ctx) 9 0 0 va d 0 ∧
    ∀ w, s.refusalEvents ctx (code, d, va) [w] = (s.event code 0 (some ctx) 9 0 0 va d 0).event 0xC01 0 (some ctx) 9 0 0 w key 0)

/-! ### Commands in progress (12, 13, 06) -/

/-- Commands after their issue. A target signal adds 1 to CNT of the target's barrier, saturating; with a target that does not run the context,
the CXFER ends with OWNER (R322); a waiting PSEND or PRECV takes its step again, unless its member has stopped; an IX command starts after its checks, or ends with error
status (R352). A command is accepted when no earlier one holds it back, no CMAP stands before it and, if it is one, nothing does (R317, R328); it ends at
once where a check of acceptance fails, and else is due later, or, with a list or a slot to read, now. One takes its next step when its time has come,
no earlier command holds it back and it waits for no port, and not before: a step that fails ends it, one that waits leaves it at that step, and the
wait for a link counts from its first attempt, and one that succeeds leaves it due for the next; with no step left it completes, CTOUCH and CFLUSH with ARG where their region
is not mapped; a command that waits 2^20 ticks for a module or a link ends with DATA (R500, R501); the end of a command takes its weight from PEND and keeps
the first error status (R313); an INVTLB drops what its scope covers at once, and completes after that (R139); a migration goes on by pages
behind its INVTLBs: a page's entries are written with V = 0, then its bytes are copied and its entries written for the new frame; it ends when none is left or its command is
stopped, and a late last byte counts once (R150, R474). Page faults (R140, R469, R491): once the entry has been written valid, no fault of its range is noted, and the waiting
commands, writes and queues retry; a fault that has stood for 2^24 ticks is given up: commands end with TRANSLATION, a queue on it is in ERROR, or
refuses its image, and one that has not stands. It rests on the model's own
choices (DESIGN CHOICE, log 6, 44, 102, 104) and readings (DEDUCED, log 29, 30, 31, 70). -/
def Obligations.CommandEvents : Prop :=
  (∀ (s : State) (n id : Nat) (x : Command) (b : Fin 16), (s.core n).command id = some x → x.signal = some b →
    ((s.core (x.targetCore n)).runs x.ctx = true →
      ∃ t, exec (.cxferTargetSignal n id) s = .next t ∧
        ((t.core (x.targetCore n)).bars[b]).cnt = min (((s.core (x.targetCore n)).bars[b]).cnt + 1) 65535 ∧
        (x.targetCore n ≠ n → ((t.core (x.targetCore n)).bars[b]).pend = ((s.core (x.targetCore n)).bars[b]).pend) ∧ t.clusters = s.clusters) ∧
    ((s.core (x.targetCore n)).runs x.ctx = false → exec (.cxferTargetSignal n id) s = .next (s.endCommand n id stOwner))) ∧
  (∀ (s : State) (n id : Nat) (x : Command), (s.core n).command id = some x → x.state = .waiting → s.stopped n = false →
    (∀ st l, s.stepsLeft n x = st :: l →
      exec (.psendStore n id) s = .next (s.stepCommand n x st) ∧ exec (.precvReceive n id) s = .next (s.stepCommand n x st))) ∧
  (∀ (s : State) (n id : Nat) (x : Command), (s.core n).command id = some x → x.state ≠ .waiting ∨ s.stopped n = true →
    exec (.psendStore n id) s = .next s ∧ exec (.precvReceive n id) s = .next s) ∧
  (∀ (s : State) (n id due : Nat) (x : Command), (s.core n).command id = some x → x.state = .accepted due → isIx x.op = true → x.started = false →
    (s.core n).ixBehind x = false →
    (∀ st, s.ixStatus n x = some st → exec (.ixCommandStart n id) s = .next (s.endCommand n id st)) ∧
    (s.ixStatus n x = none →
      exec (.ixCommandStart n id) s = .next (s.updCore n (fun c => c.updCommand id (fun y => { y with started := true }))))) ∧
  (∀ (s : State) (n : Nat) (e : Fin 2) (x : Command),
    let u := s.updCore n Core.dropJoins
    ((u.core n).nextQueued e = none → exec (.commandAccept n e) s = .next u) ∧
    ((u.core n).nextQueued e = some x →
      let held := u.holds x.ctx || (u.core n).behindCmap x || ((u.core n).earlier x).any (fun e => (u.firstAccesses n x).any (u.holdsBack n x e))
      (held = false → exec (.commandAccept n e) s = .next (u.acceptCommand n x)) ∧
      (held = true → exec (.commandAccept n e) s = .next u))) ∧
  (∀ (s : State) (n : Nat) (x : Command),
    (∀ st, s.acceptCheck n x = some st → s.acceptCommand n x = s.endCommand n x.id st) ∧
    (s.acceptCheck n x = none → x.unlisted = true →
      s.acceptCommand n x = s.updCore n (fun c => c.updCommand x.id (fun y => { y with state := .accepted s.now }))) ∧
    (s.acceptCheck n x = none → x.unlisted = false →
      s.acceptCommand n x = s.free.2.updCore n (fun c => c.updCommand x.id (fun y => { y with state := .accepted (s.now + 1 + s.free.1) })))) ∧
  (∀ (s : State) (n id : Nat) (x : Command), (s.core n).command id = some x →
    (x.ready s.now = false → exec (.commandComplete n id) s = .next s) ∧
    (x.ready s.now = true → s.stepsLeft n x = [] → exec (.commandComplete n id) s = .next (s.completeCommand n x)) ∧
    (∀ st l, x.ready s.now = true → s.stepsLeft n x = st :: l →
      let waits := st.act.isLocal || (x.withdrawn && s.stopped n) || ((s.core n).earlier x).any (fun e => s.holdsBack n x e (s.accessOf n x st))
      (waits = true → exec (.commandComplete n id) s = .next s) ∧
      (waits = false → exec (.commandComplete n id) s = .next ((s.performWhole n x).getD (s.stepCommand n x st))))) ∧
  (∀ (s : State) (n id : Nat) (x : Command), (s.core n).command id = some x → x.id = id →
    (isMap x.op = true → x.b ≠ 0 → s.mappedRegion n x = none → s.completeCommand n x = s.endCommand n id stArg) ∧
    (isMap x.op = true → x.b = 0 ∨ (s.mappedRegion n x).isSome → s.completeCommand n x = s.endCommand n id 0) ∧
    (isMap x.op = false → x.signal = none → s.completeCommand n x = s.endCommand n id 0) ∧
    (isMap x.op = false → x.signal.isSome → s.completeCommand n x = { s with agenda := .event (.cxferTargetSignal n id) :: s.agenda })) ∧
  (∀ (s u : State) (n : Nat) (x : Command) (st : CStep) (bs : List Byte),
    let start := (s.stepsOf n x).length - (s.stepsLeft n x).length
    (∀ e, s.runStep n x st = (u, .fail e, bs) → s.stepCommand n x st =
      u.endCommand n x.id (if st.act.isList = true ∧ x.gathers = true then (u.localRows n x).getD e else e)) ∧
    (∀ w, s.runStep n x st = (u, .wait w, bs) →
      s.stepCommand n x st = u.updCore n (fun c => c.updCommand x.id (fun y => ({ y with done := start } : Command).waits w))) ∧
    (s.runStep n x st = (u, .ok, bs) → st.act.isList = false → isFlush x.op = false →
      let v := (u.freeHost n).freeHost (256 + clusterOf n)
      s.stepCommand n x st = v.free.2.updCore n (fun c => c.updCommand x.id (fun y =>
        { y with done := start + 1, buf := bs, tried := none, state := .accepted (v.now + 1 + v.free.1) })))) ∧
  (∀ (x : Command) (since : Nat) (peer : Bool),
    (x.tried = none → x.waits (.link since peer) = { x with state := .link since peer, tried := some since }) ∧
    (∀ first, x.tried = some first → x.waits (.link since peer) = { x with state := .link first peer })) ∧
  (∀ (s : State) (n id since : Nat) (x : Command), (s.core n).command id = some x →
    (x.state = .link since true → since + 2 ^ 20 ≤ s.tick → exec (.peerTimeout n id) s = .next (s.endCommand n id stData)) ∧
    (x.state = .link since false → since + 2 ^ 20 ≤ s.tick → exec (.cxlLinkTimeout n id) s = .next (s.endCommand n id stData)) ∧
    (x.state = .link since true → s.tick < since + 2 ^ 20 → exec (.peerTimeout n id) s = .next s) ∧
    (x.state = .link since false → s.tick < since + 2 ^ 20 → exec (.cxlLinkTimeout n id) s = .next s)) ∧
  (∀ (s : State) (n id st : Nat) (x : Command) (b : Fin 16), (s.core n).command id = some x → x.bar = some b → x.weight < 2 ^ 64 → st ≠ 0 →
    (s.core n).bars[b].pend < 2 ^ 64 → x.weight ≤ (s.core n).bars[b].pend →
    let b' := ((s.endCommand n id st).core n).bars[b]
    b'.pend = (s.core n).bars[b].pend - x.weight ∧ b'.cnt = (s.core n).bars[b].cnt ∧
      ((s.core n).bars[b].err = 0 → b'.err = st) ∧ ((s.core n).bars[b].err ≠ 0 → b'.err = (s.core n).bars[b].err ∧ b'.ovf = true)) ∧
  (∀ (s : State) (scope : Fin 3) (ctx base len : Nat), ∃ t, exec (.invtlb scope ctx base len) s = .next t ∧
    t.invs = s.invs ++ [⟨s.nextOp, scope.val, ctx, base, len, false⟩] ∧ t.nextOp = s.nextOp + 1 ∧
    (∀ n, ∀ x ∈ (t.core n).tlb, (⟨0, scope.val, ctx, base, len, false⟩ : Inv).covers x.ctx x.base x.size = false) ∧
    (∀ k, ∀ x ∈ (t.cluster k).tlb2, (⟨0, scope.val, ctx, base, len, false⟩ : Inv).covers x.ctx x.base x.size = false)) ∧
  (∀ (s : State) (id : Nat) (v : Inv), s.invs.find? (fun v => v.id == id) = some v →
    ∃ t, exec (.invtlbComplete id) s = .next t ∧ t.invs = s.invs.filter (fun w => w.id ≠ id) ∧
      (v.mailbox = true → s.cxlUp = true → answered s t 0xC002 0 [])) ∧
  (∀ (s : State) (id : Nat) (m : Migration), s.migrations.find? (fun m => m.id == id) = some m →
    (m.page = none → m.pages = [] → exec (.migrationPage id) s = .next (s.endMigration m 0)) ∧
    (∀ va l, m.page = none → m.pages = va :: l →
      let gone := m.owner.any (fun o => ((s.core o.1).command o.2).all Command.killed)
      (gone = true → exec (.migrationPage id) s = .next (s.endMigration m 0)) ∧
      (gone = false → exec (.migrationPage id) s = .next (s.beginPage m va))) ∧
    (∀ va e inv oa, m.page = some (va, e, inv, oa) → s.invs.any (fun v => v.id == inv) = true → exec (.migrationPage id) s = .next s) ∧
    (∀ va e inv oa, m.page = some (va, e, inv, oa) → s.invs.any (fun v => v.id == inv) = false →
      exec (.migrationPage id) s = .next (s.finishPage m va e oa))) ∧
  (∀ (s u : State) (m : Migration) (va pa e : Nat), s.entryAt m.ctx va = some (pa, e) →
    (bit e 0 = false ∨ (leafTier e = m.tier ∧ m.channel = none) →
      s.beginPage m va = s.updMigration m.id (fun m => { m with pages := m.pages.drop 1 })) ∧
    (bit e 0 = true → leafTier e ≠ m.tier ∨ m.channel ≠ none →
      (s.takeFrame m e = (u, none) → s.beginPage m va = u.endMigration m stArg) ∧
      (∀ oa, s.takeFrame m e = (u, some oa) → s.beginPage m va =
        ((u.writeEntries pa e (e - 1)).issueInv 2 m.ctx va (leafSize e) false).updMigration m.id
          (fun m => { m with page := some (va, e, u.nextOp, oa), pages := m.pages.drop 1 })))) ∧
  (∀ (s : State) (m : Migration) (va pa e f oa : Nat), s.entryAt m.ctx va = some (pa, f) →
    let w := (s.copyPage (leafTier e) (entryOut e) m.tier oa (leafSize e)).writeEntries pa e (withFrame e m.tier oa)
    let u := w.updMigration m.id (fun m => { m with page := none, moved := m.moved + 1, lastByte := some w.tick })
    s.finishPage m va e oa = u ∨ ∃ g ∈ u.faults, g.ctx = m.ctx ∧ s.finishPage m va e oa = { u with agenda := u.agenda ++ [.event (.pageFaultResolved g.ctx g.va)] }) ∧
  (∀ (s : State) (m : Migration) (st : Nat),
    let u := { s with migrations := s.migrations.filter (fun w => w.id ≠ m.id) }
    (∀ n id, m.owner = some (n, id) →
      ((∃ t, m.lastByte = some t ∧ m.deadline < t) ∧ m.pages = [] ∧ st = 0 → s.endMigration m st = (u.slip (clusterOf n)).endCommand n id st) ∧
      (¬((∃ t, m.lastByte = some t ∧ m.deadline < t) ∧ m.pages = [] ∧ st = 0) → s.endMigration m st = u.endCommand n id st)) ∧
    (m.owner = none → m.channel = none → s.cxlUp = true → answered s (s.endMigration m st) 0xC003 0 (bytesOfNat 8 m.moved ++ bytesOfNat 8 st))) ∧
  (∀ (s : State) (ctx va : Nat), s.arrived ctx va = true →
    let size := ((s.peekLeaf ctx va).map leafSize).getD 65536
    let base := va / size * size
    let keep := fun (f : Faulting) => !(f.ctx == ctx && decide (base < (f.page + 1) * 65536) && decide (f.page * 65536 < base + size))
    exec (.pageFaultResolved ctx va) s = .next ((({ s with faults := s.faults.filter keep } : State).retryRange ctx base size).retryFront) ∧
      exec (.pageFaultUnresolvable ctx va) s = .next s) ∧
  (∀ (c : Core) (x : Command) (ctx base len now va : Nat), x ∈ c.queue0 → x.state = .fault va → x.ctx = ctx → base ≤ va → va < base + len →
    { x with state := .accepted now } ∈ (c.retryRange ctx base len now).queue0) ∧
  (∀ (s : State) (ctx va : Nat), s.arrived ctx va = false → exec (.pageFaultResolved ctx va) s = .next s) ∧
  (∀ (s0 : State) (ctx va : Nat), s0.arrived ctx va = false →
    let page := va / 65536
    let s := s0.queues.foldl (fun s p => s.queueGivesUp p.1 p.2 ctx page) s0
    (s.faults.any (fun f => f.ctx == ctx && f.page == page && decide (f.since + 2 ^ 24 ≤ s.tick)) = true →
      let u := ({ s with faults := s.faults.filter (fun f => !(f.ctx == ctx && f.page == page)) } : State).event 0x401 0 (some ctx) 9 0 0 va stTranslation 0
      let v := u.cores.foldl (fun s p => s.commandsGiveUp p.1 ctx page) u
      let w := v.clusters.foldl (fun s p => p.2.reqQ.foldl (fun s r => s.requestGivesUp ctx page r) s) v
      exec (.pageFaultUnresolvable ctx va) s0 = .next (((w.dropWrites ctx page).dropWritebacks ctx page).retryFront)) ∧
    (s.faults.any (fun f => f.ctx == ctx && f.page == page && decide (f.since + 2 ^ 24 ≤ s.tick)) = false →
      exec (.pageFaultUnresolvable ctx va) s0 = .next s)) ∧
  (∀ (s : State) (n ctx page va : Nat) (x : Command), (s.core n).queue0 = [x] → (s.core n).queue1 = [] → x.state = .fault va → x.ctx = ctx →
    va / 65536 = page → isCpfx x.op = false → s.commandsGiveUp n ctx page = s.endCommand n x.id stTranslation) ∧
  (∀ (s : State) (q ctx page va : Nat) (x : Queue), x.park = some (.page ctx va) → va / 65536 = page → x.parkSince + 2 ^ 24 ≤ s.tick →
    s.queueGivesUp q x ctx page =
      if x.onImage = true then s.updQueue q (fun y => { y with state := 2, park := none, given := page :: y.given }) else s.queueError q 7)

/-! ### The front end (15_command_front_end.md) -/

/-- Packets (R383): a packet whose header keeps its rules is evaluated by its kind, once all of its words are there, and when it is accepted its
words are passed, with the interrupt that it asks for now; a header that breaks a rule stops the queue in ERROR; a NOP is accepted whatever it
holds; a SIGNAL defers its write; a FENCE holds parsing until the launches and the writes before it are done; a fifth call level is an error;
a CANCEL of a unit in flight cancels it, and one of another unit does nothing (R387, R388); a WAIT is accepted where its condition holds, and a COUNTER
where its counter has come far enough, and each is held by its line otherwise; a TIMESTAMP writes now or is deferred; a BOOK writes its result; a LAUNCH that
finds the table full parks its queue, and so does one whose images or counter block are not resident (R384, R391). A LAUNCH of 8 to 118 words, an even number, is whole
(R383). It rests on the model's own readings (DEDUCED, log 50, 53) and choice (DESIGN CHOICE, log 81). -/
def Obligations.PacketEvents : Prop :=
  (∀ (i : Instr) (s s1 : State) (q ty w : Nat) (need : Option Nat) (f : State → List Nat → Bool → State × Took),
    packetOf i = some (q, ty, need, f) → (s.queue q).ready = true → s.readWords q 0 1 = (s1, .ok [w]) → w / 2 ^ 24 = ty →
    let count := w / 2 ^ 8 % 2 ^ 16
    let int := decide (w % 2 = 1)
    let good := (∀ n ∈ need, n = count) ∧ (ty = 1 → 8 ≤ count ∧ count ≤ 118 ∧ count % 2 = 0)
    (w % 256 < 2 → good → 1 + count ≤ (s1.queue q).avail →
      ∀ s2 p, s1.readWords q 1 (if ty = 0 then 0 else count) = (s2, .ok p) →
        (∀ s3 now, f s2 p int = (s3, .accept now) →
          exec i s = .next ((if now && int then s3.interrupt (some q) else s3).acceptPacket q (1 + count))) ∧
        (∀ s3 pk d va im, f s2 p int = (s3, .park pk d va im) → exec i s = .next (s3.parkQueue q pk d va im)) ∧
        (∀ s3, f s2 p int = (s3, .gone) ∨ f s2 p int = (s3, .again) → exec i s = .next s3) ∧
        (∀ s3 line, f s2 p int = (s3, .hold line) → exec i s = .next (s3.updQueue q (fun x => { x with state := 3, waitAt := line }))) ∧
        (∀ s3 d, f s2 p int = (s3, .error d) → exec i s = .next (s3.queueError q d)) ∧
        (∀ s3 l, f s2 p int = (s3, .call l) → ∃ t, exec i s = .next t ∧ (t.queue q).levels = l :: ((s3.queue q).skip (1 + count)).levels)) ∧
    (w % 256 < 2 → good → (s1.queue q).avail < 1 + count →
      ((s1.queue q).levels ≠ [] → exec i s = .next (s1.queueError q 5)) ∧
      ((s1.queue q).levels = [] → ty ≠ 1 ∨ (s1.queue q).avail < 5 → exec i s = .next s1) ∧
      (∀ s2 w3, (s1.queue q).levels = [] → ty = 1 → 5 ≤ (s1.queue q).avail → s1.readWords q 4 1 = (s2, .ok [w3]) →
        exec i s = .next (if launchWords w3 = count then s1 else s1.queueError q 2))) ∧
    (¬good → exec i s = .next (s1.queueError q 2)) ∧
    (good → 2 ≤ w % 256 → exec i s = .next (s1.queueError q 3))) ∧
  (∀ (s : State) (q d : Nat), ((s.queueError q d).queue q).state = 5) ∧
  (∀ (s : State) (q n : Nat), (s.queue q).levels = [] →
    s.acceptPacket q n = ((s.setQueue q { s.queue q with
      pos := (s.queue q).pos + n, waitAt := none, onImage := false, given := [], state := 2 }).publish q).updQueue q
      (fun x =>
        let x := { x with kicks := x.kicks.filter (fun k => decide (x.pos < k.2)) }
        if x.avail = 0 then { x with state := 1, slot := false } else x)) ∧
  (∀ (s : State) (q : Nat) (p : List Nat) (int : Bool), nth p 2 < 2 → dw p 0 % 8 = 0 →
    ∃ t, s.takeSignal q p int = (t, .accept false) ∧ (t.queue q).deferred = (s.queue q).deferred ++
      [⟨(s.queue q).ctx, dw p 0, bytesOfNat 8 (dw p 3), decide (nth p 2 = 1), if int then some q else none, false, s.nextOp, some q⟩]) ∧
  (∀ (s : State) (q : Nat), (s.takeFence q).2 =
    if s.launchesBefore q s.nextOp = true ∨ (s.queue q).deferred ≠ [] ∨ (∃ w ∈ s.recWrites, w.queue = some q) then .hold none else .accept true) ∧
  (∀ (s : State) (q : Nat) (p : List Nat) (int : Bool), dw p 0 % 4 = 0 → nth p 2 ≠ 0 → nth p 2 ≤ 16777216 →
    s.takeCall q p int = (s, if (s.queue q).levels.length < 4 then .call ⟨dw p 0, nth p 2, 0, int⟩ else .error 4)) ∧
  (∀ (s : State) (q : Nat) (p : List Nat) (int : Bool), nth p 0 < 4 →
    (s.inFlight (s.queue q).ctx (nth p 0) (nth p 1) = false → s.takeCancel q p int = (s, .accept true)) ∧
    (s.inFlight (s.queue q).ctx (nth p 0) (nth p 1) = true → int = false → s.takeCancel q p int = (s.cancelUnit (nth p 1), .accept false)) ∧
    (s.inFlight (s.queue q).ctx (nth p 0) (nth p 1) = true → int = true → s.takeCancel q p int =
      ((s.updQueue q (fun x => { x with cancels := x.cancels ++ [s.launchesOf (nth p 1)] })).cancelUnit (nth p 1), .accept false))) ∧
  (∀ (s u : State) (q : Nat) (p : List Nat) (bs : List Byte) (line : Nat × Nat), nth p 2 < 6 → dw p 0 % 8 = 0 →
    s.packetRead (s.queue q).ctx (dw p 0) 8 = (u, .ok (bs, line)) →
    let a := natOfBytes bs
    let v := dw p 3
    let c := nth p 2
    let met := (c = 0 ∧ a = v) ∨ (c = 1 ∧ a ≠ v) ∨ (c = 2 ∧ v ≤ a) ∨ (c = 3 ∧ a < v) ∨
      (c = 4 ∧ signed64 v ≤ signed64 a) ∨ (c = 5 ∧ signed64 a < signed64 v)
    (met → s.takeWait q p = (u, .accept true)) ∧ (¬met → s.takeWait q p = (u, .hold (some line)))) ∧
  (∀ (s u : State) (q : Nat) (p : List Nat) (bs : List Byte) (line : Nat × Nat), dw p 0 % 32 = 0 →
    s.packetRead (s.queue q).ctx (dw p 0) 32 = (u, .ok (bs, line)) →
    let met := (nth p 2 = 0 ∧ 2 ≤ num bs 8 1) ∨ (nth p 2 = 1 ∧ dw p 3 ≤ num bs 0 4)
    (nth p 2 < 2 → met → s.takeCounter q p = (u, .accept true)) ∧ (nth p 2 < 2 → ¬met → s.takeCounter q p = (u, .hold (some line))) ∧
    (∀ v, nth p 2 = 2 → u.frontWriteAll (s.queue q).ctx (dw p 3) bs = (v, none) → s.takeCounter q p = (v, .accept true))) ∧
  (∀ (s : State) (q : Nat) (p : List Nat) (int : Bool), dw p 0 % 16 = 0 →
    let who := if int then some q else none
    (nth p 2 = 1 → ∃ t, s.takeTimestamp q p int = (t, .accept false) ∧ (t.queue q).deferred = (s.queue q).deferred ++
      [⟨(s.queue q).ctx, dw p 0, [], false, who, true, s.nextOp, some q⟩]) ∧
    (nth p 2 = 0 → s.takeTimestamp q p int = (s.tryRecord ⟨(s.queue q).ctx, dw p 0, bytesOfNat 8 s.tick ++ bytesOfNat 8 s.rtick, false, who, false, 0, some q⟩,
      .accept false))) ∧
  (∀ (s u : State) (q : Nat) (p : List Nat) (int : Bool) (found : Readings), dw p 0 % 64 = 0 → dw p 7 % 8 = 0 →
    s.readImages (s.queue q).ctx (s.queue q).given 0 [dw p 0] = (u, .ok found) →
    s.takeBook q p int = ((u.dropBooking q).bookFound q p int found, .accept false)) ∧
  (∀ (v : State) (q : Nat) (p : List Nat) (int : Bool) (found : Readings), found.refusal ≠ none →
    v.bookFound q p int found = v.bookResult q (dw p 7) 2 0 int) ∧
  (∀ (v : State) (q k : Nat) (i : Image) (p : List Nat) (int : Bool),
    let t := v.bookFound q p int ⟨[(k, i)], none, []⟩
    let book := v.bookImage none (some q) (v.queue q).ctx (dw p 0) i (coresOfMask (nth p 2)) (dw p 3) (dw p 5)
    (v.admission [dw p 0] [(0, i)] = none → i.teamSize ≤ 8 →
      (book = none → t = v.bookResult q (dw p 7) 1 0 int) ∧
      (∀ w r, book = some (w, r) → t = (w.updQueue q (fun x => { x with booking := some r.team })).bookResult q (dw p 7) 0 r.tick int)) ∧
    (v.admission [dw p 0] [(0, i)] ≠ none ∨ 8 < i.teamSize → t = v.bookResult q (dw p 7) 2 0 int)) ∧
  (∀ (s : State) (core queue : Option Nat) (ctx va lo hi : Nat) (i : Image) (cand : List Nat) (t : State) (r : Reservation),
    s.bookImage core queue ctx va i cand lo hi = some (t, r) →
    t.reservations = s.reservations ++ [r] ∧ r.core = core ∧ r.queue = queue ∧ r.image = va ∧ r.cores.length = i.teamSize ∧
    lo ≤ r.tick ∧ s.tick < r.tick ∧ r.tick ≤ hi ∧ r.tick ≤ s.horizon ∧
    ∀ n ∈ r.cores, n ∈ cand ∧ bit s.pres.cores n = true ∧ (s.core n).covers i.usem = true ∧ s.coreFree n r.tick = true) ∧
  (∀ (s : State) (ctx prio : Nat) (queue job phase graph booking : Option Nat) (given : List Nat) (int : Bool) (r : LaunchRec),
    (s.tableFull = true → s.enterLaunch ctx prio queue job phase graph booking given int r = (s, .error (.park .table 3 0 false))) ∧
    (∀ u va, s.tableFull = false → s.readImages ctx given 0 r.images = (u, .error (.page va)) →
      s.enterLaunch ctx prio queue job phase graph booking given int r = (u, .error (.park (.page ctx va) 1 va true))) ∧
    (∀ u v f va, s.tableFull = false → s.readImages ctx given 0 r.images = (u, .ok f) → u.frontPage ctx r.counter false true = (v, .error (.page va)) →
      s.enterLaunch ctx prio queue job phase graph booking given int r = (v, .error (.park (.page ctx va) 1 va false)))) ∧
  (∀ (s : State) (q : Nat) (p : List Nat) (int : Bool),
    (∀ d, parseLaunch p = .error d → s.takeLaunch q p int = (s, .error d)) ∧
    (p.length < 8 ∨ p.length ≠ launchWords (nth p 3) → parseLaunch p = .error 2))

/-- The queues' registers and the fetcher (R379-R381, R387, R391): QUEUE_ENABLE sets EN and reads the kick word, QUEUE_DISABLE stops the queue;
the addresses of an enabled queue keep their values, and QD1 with LOG2SIZE below 10 or above 24 is ignored; a kick word that is not resident parks the queue
or, as it is written, waits for its page; one that falls, or passes RP by more than the ring, is an error, and one in
order becomes WP; a held packet is evaluated again; a parked queue whose reason is gone rejoins; a deferred write whose
launches have finished is performed and leaves its queue, one whose page is not resident holds the rest back, and where nothing is deferred,
nothing of the queue changes. It rests on the model's own choice (DESIGN CHOICE, log 55). -/
def Obligations.QueueEvents : Prop :=
  (∀ (s : State) (q : Nat), q < 1024 →
    ((s.queue q).en = true → exec (.queueEnable q) s = .next s) ∧
    ((s.queue q).en = false → exec (.queueEnable q) s = .next ((s.updQueue q (fun x => { x with en := true })).readKick q)) ∧
    (∃ t, exec (.queueDisable q) s = .next t ∧ (t.queue q).en = false ∧ (t.queue q).state = 0 ∧ (t.queue q).deferred = (s.queue q).deferred ∧
      (∀ p, p ≠ q → t.queue p = s.queue p) ∧ t.cores = s.cores)) ∧
  (∀ (s : State) (q : Nat) (v : Double), q < 1024 →
    ((s.queue q).en = false →
      exec (.queueDescriptorWrite q 0 v) s = .next (s.setQueue q { s.queue q with base := v.toNat }) ∧
      exec (.queueDescriptorWrite q 2 v) s = .next (s.setQueue q { s.queue q with kick := v.toNat }) ∧
      exec (.queueDescriptorWrite q 3 v) s = .next (s.setQueue q { s.queue q with rptr := v.toNat })) ∧
    ((s.queue q).en = true → ∀ r : Fin 4, r ≠ 1 → exec (.queueDescriptorWrite q r v) s = .next (s.setQueue q (s.queue q))) ∧
    (v.toNat % 32 < 10 ∨ 24 < v.toNat % 32 → exec (.queueDescriptorWrite q 1 v) s = .next s) ∧
    (10 ≤ v.toNat % 32 → v.toNat % 32 ≤ 24 → v.getLsbD 24 = false → (s.queue q).en = false →
      exec (.queueDescriptorWrite q 1 v) s = .next (s.setQueue q { s.queue q with
        prio := v.toNat / 2 ^ 5 % 8, fetcher := v.toNat / 2 ^ 8 % 16, slot := (s.queue q).slot && (s.queue q).fetcher == v.toNat / 2 ^ 8 % 16,
        log2 := v.toNat % 32, ctx := v.toNat / 2 ^ 12 % 4096 }))) ∧
  (∀ (s u : State) (q : Nat) (v : Double), q < 1024 → s.frontWrite (s.queue q).ctx (s.queue q).kick (bytesOfNat 8 v.toNat) = (u, none) →
    exec (.kickqWrite q v) s = .next u) ∧
  (∀ (s u : State) (q va : Nat) (v : Double), q < 1024 → s.frontWrite (s.queue q).ctx (s.queue q).kick (bytesOfNat 8 v.toNat) = (u, some (.page va)) →
    exec (.kickqWrite q v) s = .next { u with recWrites := u.recWrites ++
      [⟨(s.queue q).ctx, (s.queue q).kick, bytesOfNat 8 v.toNat, false, none, false, 0, none⟩] }) ∧
  (∀ (s u v : State) (q : Nat) (p : Page) (bs : List Byte), s.frontPage (s.queue q).ctx (s.queue q).kick true false = (u, .ok p) →
    u.readHome p.tier p.pa 8 = (v, some bs) →
    let y := ((s.readKick q).queue q)
    y.state = 1 ∧ y.rp = natOfBytes bs ∧ y.pos = natOfBytes bs ∧ y.wp = natOfBytes bs ∧ y.kickAt = some (p.tier, p.pa) ∧ y.park = none ∧ y.levels = []) ∧
  (∀ (s u : State) (q va : Nat), s.frontPage (s.queue q).ctx (s.queue q).kick true false = (u, .error (.page va)) →
    let y := ((s.readKick q).queue q)
    y.state = 4 ∧ y.park = some (.page (s.queue q).ctx va) ∧ y.unread = true ∧ y.parkSince = u.tick) ∧
  (∀ (s : State) (x : Queue),
    (x.park = none → s.parkOver x = true) ∧ (∀ ctx va, x.park = some (.page ctx va) → s.parkOver x = s.arrived ctx va) ∧
    (x.park = some .table → s.parkOver x = !s.tableFull) ∧ (x.park = some .link → s.parkOver x = (s.cxlUp && s.cxlSecure))) ∧
  (∀ (s u : State) (q t pa : Nat) (bs : List Byte), (s.queue q).kickAt = some (t, pa) → s.readHome t pa 8 = (u, some bs) →
    let w := natOfBytes bs
    let x := s.queue q
    (w < x.wp ∨ x.rp + 2 ^ x.log2 < w → exec (.doorbellNotify q) s = .next (u.queueError q 6)) ∧
    (x.wp ≤ w → w ≤ x.rp + 2 ^ x.log2 →
      exec (.doorbellNotify q) s = .next (u.updQueue q (fun x => { x with
        wp := w, state := if x.state = 1 ∧ x.pos < w then 2 else x.state, kicks := if x.wp < w then x.kicks ++ [(u.now, w)] else x.kicks })))) ∧
  (∀ (s : State) (q : Nat),
    ((s.queue q).state = 3 → exec (.waitReevaluate q) s = .next (s.updQueue q (fun x => { x with state := 2, waitAt := none }))) ∧
    ((s.queue q).state ≠ 3 → exec (.waitReevaluate q) s = .next s) ∧
    ((s.queue q).state = 4 → s.parkOver (s.queue q) = true → (s.queue q).unread = false →
      exec (.queueUnpark q) s = .next (s.updQueue q (fun x => { x with state := 2, park := none, onImage := false }))) ∧
    ((s.queue q).state ≠ 4 → exec (.queueUnpark q) s = .next s) ∧
    ((s.queue q).deferred = [] → (s.queue q).rpWrites = [] →
      ∃ t, exec (.deferredWritePerform q) s = .next t ∧ t.agenda = s.agenda ∧ (t.queue q) = s.queue q)) ∧
  (∀ (s : State) (q : Nat) (w : FrontWrite) (rest : List FrontWrite), (s.queue q).rpWrites = [] → (s.queue q).deferred = w :: rest →
    let s0 := s.updQueue q (fun x => { x with rpWrites := [] })
    (s.launchesBefore q w.after = true → exec (.deferredWritePerform q) s = .next (s0.updQueue q (fun x => { x with deferred := w :: rest }))) ∧
    (∀ u e, s.launchesBefore q w.after = false → s0.makeWrite w = (u, some e) → (∀ st, e ≠ .fail st) →
      exec (.deferredWritePerform q) s = .next (u.updQueue q (fun x => { x with deferred := w :: rest }))) ∧
    (∀ u, s.launchesBefore q w.after = false → rest = [] → s0.makeWrite w = (u, none) →
      exec (.deferredWritePerform q) s = .next ((u.endWrite w).updQueue q (fun x => { x with deferred := [] }))) ∧
    (∀ u st, s.launchesBefore q w.after = false → rest = [] → s0.makeWrite w = (u, some (.fail st)) →
      exec (.deferredWritePerform q) s = .next (((u.dropWrite w.ctx w.va st).endWrite w).updQueue q (fun x => { x with deferred := [] })))) ∧
  (∀ (s : State) (w : FrontWrite), s.makeWrite w =
    if w.add then s.frontAdd w.ctx w.va (natOfBytes w.bytes)
    else s.frontWrite w.ctx w.va (if w.stamp then bytesOfNat 8 s.tick ++ bytesOfNat 8 s.rtick else w.bytes))

/-- The command links (R392): a message takes a general permit of its link while one of the 12 is free and no message that goes before it is
held; else an urgent one takes one of the 4 reserved ones; else it is held; an urgent one goes before held ones that are not. The oldest message of the
inbox is taken and gives back the permit that it took, a general or a reserved one, and the held message that goes first takes one that it may. It rests on the model's own choice (DESIGN
CHOICE, log 60). -/
def Obligations.LinkMessages : Prop :=
  (∀ (i : Instr) (s : State) (k : MsgKind) (cl a : Nat) (down urgent : Bool), messageOf i = some (k, cl, a, down, urgent) →
    (bit s.pres.clusters cl = false → exec i s = .next s) ∧
    (bit s.pres.clusters cl = true →
      ∃ t, exec i s = .next t ∧ t = s.setCluster cl (t.cluster cl) ∧
        let l := if down then (s.cluster cl).toCC else (s.cluster cl).toGS
        let l' := if down then (t.cluster cl).toCC else (t.cluster cl).toGS
        (t.cluster cl = if down then { s.cluster cl with toCC := l' } else { s.cluster cl with toGS := l' }) ∧
        (l.held = [] → l.general < 12 →
          l' = { l with inbox := l.inbox ++ [(k, a)], times := l.times ++ [s.tick], taken := l.taken ++ [false], general := l.general + 1 }) ∧
        (l.held = [] → 12 ≤ l.general → urgent = true → l.reserved < 4 →
          l' = { l with inbox := l.inbox ++ [(k, a)], times := l.times ++ [s.tick], taken := l.taken ++ [true], reserved := l.reserved + 1 }) ∧
        (urgent = false → l.held ≠ [] → l' = { l with held := l.held ++ [(k, a)] }) ∧
        (urgent = true → l.held.any (fun m => m.1.urgent) = true → l' = { l with held := l.held ++ [(k, a)] }) ∧
        (urgent = true → l.held.any (fun m => m.1.urgent) = false → l.general < 12 →
          l' = { l with inbox := l.inbox ++ [(k, a)], times := l.times ++ [s.tick], taken := l.taken ++ [false], general := l.general + 1 }) ∧
        (12 ≤ l.general → (urgent = false ∨ 4 ≤ l.reserved) → l' = { l with held := l.held ++ [(k, a)] }))) ∧
  (∀ (s : State) (cl : Nat) (b : Bool), ∃ t, exec (.permitReturn cl b) s = .next t ∧ t = s.setCluster cl (t.cluster cl) ∧
    let l := if b then (s.cluster cl).toCC else (s.cluster cl).toGS
    let l' := if b then (t.cluster cl).toCC else (t.cluster cl).toGS
    (l.inbox = [] → l' = l) ∧
    (∀ m rest, l.inbox = m :: rest → l.held = [] → l.taken.headD false = false →
      l' = { l with inbox := rest, times := l.times.drop 1, taken := l.taken.drop 1, general := l.general - 1 }) ∧
    (∀ m rest, l.inbox = m :: rest → l.held = [] → l.taken.headD false = true →
      l' = { l with inbox := rest, times := l.times.drop 1, taken := l.taken.drop 1, reserved := l.reserved - 1 }) ∧
    (∀ m rest h tl, l.inbox = m :: rest → l.held = h :: tl → (∀ x ∈ l.held, x.1.urgent = h.1.urgent) → l.taken.headD false = false →
      1 ≤ l.general → l.general ≤ 12 →
      l' = { l with inbox := rest ++ [h], held := tl, times := l.times.drop 1 ++ [s.tick], taken := l.taken.drop 1 ++ [false] }) ∧
    (∀ m rest h tl, l.inbox = m :: rest → l.held = h :: tl → (∀ x ∈ l.held, x.1.urgent = false) → l.taken.headD false = true → 12 ≤ l.general →
      l' = { l with inbox := rest, times := l.times.drop 1, taken := l.taken.drop 1, reserved := l.reserved - 1 }))

/-! ### Host interface (16_attachment.md) -/

/-- The mailbox (R402, R403): a command whose input breaks its layout, or names a context that is not in use, answers Invalid Input and does
nothing; CTX_CREATE enters the context;
HASH_SET sets the code of one domain; POWER_SET sets the limits; ATTEST signs with the next key of its own; KEY_INSTALL stores a key where the slot has none; WINDOW_OPEN
gives the lowest free handle, which is the model's own choice (DESIGN CHOICE, log 113); MIGRATE checks its range and its pages and starts a
migration (R150, R330); WSET_REGISTER checks the signature and the leaf table and then holds its pages at V = 0 (R418);
EVENT_READ returns and removes the oldest records. Where the link is down nothing happens. Checkpoints and weight sets (R409, R411,
R418). A checkpoint completes when its contexts are at rest: the snapshot is stored, the hold ends and CKPT returns; a restore completes
when the restored contexts are idle; a verified weight set becomes valid, and one with a page that does not match answers 2 with its number.
It rests on the model's own choices (DESIGN CHOICE, log 48, 64), readings (DEDUCED, log 68, 69) and family knowledge (PRESUMED, log 67, 84). -/
def Obligations.MailboxCommands : Prop :=
  (∀ (i : Instr) (s : State) (op : Nat) (ok : Bool), mailboxOf s i = some (op, ok) →
    (s.mailboxUp = false → exec i s = .next s) ∧
    (s.mailboxUp = true → ok = false → ∃ t, exec i s = .next t ∧ answered s t op 2 [] ∧ t = { s with replies := t.replies })) ∧
  (∀ (s : State) (d : List Double), s.mailboxUp = true →
    let w := nth (doubles d) 0
    (1 ≤ d.length → s.inUse w = true →
      exec (.ctxDestroy d) s = .next ((({ s with mbWait := s.mbWait ++ [⟨0xC001, w, []⟩] } : State).cancelContext w).freeContext ⟨0xC001, w, []⟩)) ∧
    (mailboxOf s (.mbInvtlb d) = some (0xC002, true) → ∃ t, exec (.mbInvtlb d) s = .next t ∧ t.replies = s.replies ∧
      t.invs = s.invs ++ [⟨s.nextOp, w % 4, w / 2 ^ 12 % 2 ^ 12, nth (doubles d) 1, nth (doubles d) 2, true⟩]) ∧
    (mailboxOf s (.migrate d) = some (0xC003, true) → exec (.migrate d) s = .next (s.mbMigrate (doubles d))) ∧
    (s.ckptOk (doubles d) = true → nth (doubles d) 1 = 0 → s.hold = none →
      let u : State := { s with ckpt := some (w, ckptContexts (doubles d), false) }
      exec (.ckpt d) s = .next (((u.teams.filter (fun p => (ckptContexts (doubles d)).contains p.2.ctx)).foldl State.restTeam u).settleHold)) ∧
    (1 ≤ d.length → (s.readNode w).restorable w = true → exec (.restore d) s = .next ((s.readNode w).clearFor w)) ∧
    (1 ≤ d.length → (s.readNode w).restorable w = false → exec (.restore d) s = .next ((s.readNode w).reply 0xC007 2 [])) ∧
    (∀ v, tfind (s.readNode w).nodes w = some v → ((s.readNode w).restorable w = true ↔
      sha256 v.bytes = v.digest ∧ v.pres.hbm = s.pres.hbm ∧ v.pres.lpddr = s.pres.lpddr ∧ s.ckpt = none ∧ s.restoring = none)) ∧
    (4 ≤ d.length → s.idSigs < 2 ^ 40 → s.cxlUp = true → ∃ t, exec (.attest d) s = .next t ∧ t.idSigs = s.idSigs + 1 ∧
      (let sig := Config.sign (bytesOfNat 8 s.idSigs ++ (s.attested ++ outBytes ((doubles d).take 4)))
       answered s t 0xC00A 0 (s.attested ++ outBytes ((doubles d).take 4) ++ bytesOfNat 8 sig.length ++ sig))) ∧
    (4 ≤ d.length → 2 ^ 40 ≤ s.idSigs → ∃ t, exec (.attest d) s = .next t ∧ t.idSigs = s.idSigs ∧ answered s t 0xC00A 3 [])) ∧
  (∀ (s : State) (d : List Double), s.mailboxUp = true →
    (s.createOk (doubles d) = true →
      ∃ t, exec (.ctxCreate d) s = .next t ∧ answered s t 0xC000 0 [] ∧
        t.contexts = tset s.contexts (nth (doubles d) 0)
          ⟨nth (doubles d) 1, nth (doubles d) 2 % 2 ^ 16, nth (doubles d) 2 / 2 ^ 16 % 2 ^ 21, nth (doubles d) 3⟩) ∧
    (s.windowOk (doubles d) = true →
      ∃ t h, exec (.windowOpen d) s = .next t ∧ answered s t 0xC00B 0 (outBytes [h]) ∧
        t.windows = tset s.windows h ⟨h, nth (doubles d) 0, nth (doubles d) 1, nth (doubles d) 2, nth (doubles d) 3, windowGroup (doubles d), []⟩ ∧
        (∀ k, k < 16 → tfind s.windows k = none → h ≤ k ∧ tfind s.windows h = none)) ∧
    (1 ≤ d.length → 1 ≤ nth (doubles d) 0 → nth (doubles d) 0 ≤ 4096 →
      ∃ t, exec (.eventRead d) s = .next t ∧ t.log.records = s.log.records.drop (nth (doubles d) 0) ∧
        answered s t 0xC00E 0 (outBytes [(s.log.records.take (nth (doubles d) 0)).length] ++ (s.log.records.take (nth (doubles d) 0)).flatMap Record.bytes)) ∧
    (∀ h w, 1 ≤ d.length → nth (doubles d) 0 = h → tfind s.windows h = some w → w.segments = [] →
      ∃ t, exec (.windowClose d) s = .next t ∧ answered s t 0xC00C 0 [] ∧ t.windows = tdel s.windows h)) ∧
  (∀ (s : State) (ctx va len tier deadline : Nat) (l : List Nat),
    let d := ctx :: va :: len :: tier :: deadline :: l
    let pages := s.rangePages ctx va len
    (rangeOk va len = false → s.mbMigrate d = s.reply 0xC003 0 (outBytes [0, stRange])) ∧
    (rangeOk va len = true → pages.all (s.mayMigrate ctx) = false → s.mbMigrate d = s.reply 0xC003 0 (outBytes [0, stProtection])) ∧
    (rangeOk va len = true → pages.all (s.mayMigrate ctx) = true → s.mbMigrate d = { s with
      migrations := s.migrations ++ [⟨s.nextOp, ctx, pages, tier, none, deadline, 0, none, none, none⟩], nextOp := s.nextOp + 1 })) ∧
  (∀ (s u v : State) (d : List Nat) (sig table : List Byte),
    (∀ va, s.frontRead (nth d 0) (nth d 8) (nth d 9) = (u, .error (.page va)) → s.registerSet d = (u, true)) ∧
    (s.frontRead (nth d 0) (nth d 8) (nth d 9) = (u, .ok sig) → u.frontRead (nth d 0) (nth d 10) (32 * nth d 2) = (v, .ok table) →
      let leaves := (List.range (nth d 2)).map (fun k => num table (32 * k) 32)
      let root := outBytes ((d.drop 4).take 4)
      let signed := ∃ key, tfind v.keys (nth d 3) = some key ∧ hssVerify key root sig = true
      (¬signed ∨ treeRoot 25 leaves ≠ natOfBytes root →
        s.registerSet d = ((v.event 0xC01 0 (some (nth d 0)) 9 0 0 0 (nth d 3) 0).reply 0xC009 0 (outBytes [1, 0]), false)) ∧
      (signed → treeRoot 25 leaves = natOfBytes root →
        (∀ va, v.setEntries (nth d 0) (nth d 1) (nth d 2) = .error va → s.registerSet d = (v.noteFault (nth d 0) va, true)) ∧
        (∀ l, v.setEntries (nth d 0) (nth d 1) (nth d 2) = .ok l →
          let w := (l.foldl (fun s x => s.writeEntries x.2.1 x.2.2 (x.2.2 - 1)) v).dropCached ⟨0, 2, nth d 0, nth d 1, 65536 * leaves.length, false⟩
          s.registerSet d = ({ w with wsets := w.wsets ++ [⟨w.nextOp, nth d 0, nth d 1, leaves, l⟩], nextOp := w.nextOp + 1 }, false))))) ∧
  (∀ (s : State) (watts : Nat) (l : List (Nat × Nat)), (l.map Prod.fst).Nodup →
    let t := s.setLimits watts l
    t.modLimit = watts ∧ t.cores = s.cores ∧ (∀ p ∈ l, t.cluster p.1 = { s.cluster p.1 with
      csr := { (s.cluster p.1).csr with islLimit := BitVec.ofNat 8 p.2 } }) ∧ ∀ k, k ∉ l.map Prod.fst → t.cluster k = s.cluster k) ∧
  (∀ (s : State) (a : Nat) (v : Snapshot), tfind s.nodes a = some v →
    (s.clearFor a).restoring = some a ∧ (s.clearFor a).hold = none ∧ (s.clearFor a).late = []) ∧
  (∀ (s : State) (tier dom code : Nat), s.mailboxUp = true → tier < 2 → dom < 2 ^ 14 → (tier = 0 → dom < 512) → code < 4 →
    let w : Double := .ofNat 64 (tier + dom * 2 ^ 16 + code * 2 ^ 32)
    ∃ t, exec (.hashSet [w]) s = .next t ∧ answered s t 0xC004 0 [] ∧
      t.hash = (if code = 1 then tdel s.hash (domainKey tier dom) else tset s.hash (domainKey tier dom) code)) ∧
  (∀ (s : State) (d : List Double) (l : List (Nat × Nat)), s.mailboxUp = true → 5 ≤ d.length → nth (doubles d) 0 ≤ 3200 → s.newLimits (doubles d) = some l →
    exec (.powerSet d) s = .next (s.setLimits (nth (doubles d) 0) l)) ∧
  (∀ (s : State) (d : List Double), s.mailboxUp = true → s.newLimits (doubles d) = none → ∃ t, exec (.powerSet d) s = .next t ∧ answered s t 0xC005 2 []) ∧
  (∀ (s : State) (d : List Double), s.mailboxUp = true →
    let key := (outBytes ((doubles d).drop 2)).take (nth (doubles d) 1)
    2 ≤ d.length → nth (doubles d) 0 < 16 → nth (doubles d) 1 < 65536 → nth (doubles d) 1 ≤ 8 * (d.length - 2) → hssKeyOk key = true →
    (∀ b ∈ ((outBytes ((doubles d).drop 2)).drop (nth (doubles d) 1)).take ((8 - nth (doubles d) 1 % 8) % 8), b = 0) →
    (tfind s.keys (nth (doubles d) 0) = none → ∃ t, exec (.keyInstall d) s = .next t ∧ answered s t 0xC008 0 [] ∧ t.keys = tset s.keys (nth (doubles d) 0) key) ∧
    ((tfind s.keys (nth (doubles d) 0)).isSome → ∃ t, exec (.keyInstall d) s = .next t ∧ answered s t 0xC008 2 [] ∧ t.keys = s.keys)) ∧
  (∀ (s : State) (d : List Double), s.mailboxUp = true → 11 ≤ d.length → s.inUse (nth (doubles d) 0) = true → nth (doubles d) 1 % 65536 = 0 →
    1 ≤ nth (doubles d) 2 → nth (doubles d) 2 ≤ 16777216 → nth (doubles d) 3 < 16 →
    (∀ u, s.registerSet (doubles d) = (u, false) → exec (.wsetRegister d) s = .next u) ∧
    (∀ u, s.registerSet (doubles d) = (u, true) → exec (.wsetRegister d) s = .next { u with mbWait := u.mbWait ++ [⟨0xC009, 0, d⟩] })) ∧
  (∀ (s : State) (u n : Nat), s.mailboxUp = true → u < 16 → n < 65536 → s.unitPresent u n = true →
    let v : State := { s with mbWait := s.mbWait ++ [⟨0xC00D, u + n * 65536, []⟩] }
    let w : State := if u = 0 then { v with retireDue := v.retireDue ++ [n] } else { v with unitDue := v.unitDue ++ [(u, n)] }
    exec (.mbRetire [.ofNat 64 (u + n * 65536)]) s = .next ((w.clearUnit u n).retireAll)) ∧
  (∀ (s : State) (a : Nat) (cs : List Nat), s.ckpt = some (a, cs, false) →
    (s.atRest cs = true → s.cxlUp = true →
      ∃ (t : State) (v : Snapshot), exec .checkpointComplete s = .next t ∧ t.ckpt = none ∧ t.hold = none ∧ t.windows = [] ∧ t.late = [] ∧
        tfind t.nodes a = some v ∧ v.ctxs = cs ∧ v.digest = sha256 v.bytes ∧ v.hash = s.hash ∧ v.pres = s.pres ∧
        (s.late = [] → v.dev = s.dev) ∧ answered s t 0xC006 0 []) ∧
    (s.atRest cs = false → exec .checkpointComplete s = .next s)) ∧
  (∀ (s : State) (a : Nat) (v : Snapshot), s.restoring = some a → tfind s.nodes a = some v →
    (v.ctxs.all s.idleContext = true → exec .restoreComplete s = .next ((s.restored v).reply 0xC007 0 [])) ∧
    (v.ctxs.all s.idleContext = false → exec .restoreComplete s = .next s)) ∧
  (∀ (s u : State) (id k : Nat) (w : WeightSet), s.wsets.find? (fun w => w.id == id) = some w →
    ({ s with wsets := s.wsets.filter (fun x => x.id ≠ id) } : State).firstMismatch w = (u, some k) →
    exec (.weightSetVerified id) s = .next ((u.event 0xC02 0 (some w.ctx) 9 0 0 0 k 0).reply 0xC009 0 (outBytes [2, k]))) ∧
  (∀ (s u : State) (id : Nat) (w : WeightSet), s.wsets.find? (fun w => w.id == id) = some w →
    ({ s with wsets := s.wsets.filter (fun x => x.id ≠ id) } : State).firstMismatch w = (u, none) →
    exec (.weightSetVerified id) s = .next
      ((((w.entries.foldl (fun s x => s.writeEntries x.2.1 x.2.2 (readOnly x.2.2)) u).retryRange w.ctx w.base (65536 * w.leaves.length)).retryFront).reply
        0xC009 0 (outBytes [0, 0])))

/-- Retention and health (R28-R30, R111, R117, R124, R430-R440, R495). RTICK advances by 1 each µs. At that boundary a cluster takes, each 100 ticks,
the band of its hottest sensor; the groups of its tasks age, and write-backs that are due are queued. A reserved cycle acts on the memories of its
cluster: of the rows that are asked for, each bank refreshes one, a group whose last row is refreshed is fresh again and is counted, and a row that is
read loses its corrected errors.

An expired group whose bytes are written becomes invalid, out of the reserved cycle; one whose write-back fails, or has waited 2^20 ticks
for a link, stays and is reported once; a bucket of the kind that leaks falls by 1; a
replay adds 2 cycles to SLACK_CNT and 1 to REPLAY_CNT; a test that fails fences its class; an uncorrectable word of a core's array ends the context that
runs there; a scrub that finds nothing counts the bytes that it reads, and
one that finds an uncorrectable sector poisons its block; a failed CC forgets its bookings, stakes and requests; a stopped module keeps its
cores and clusters. It rests on the model's own choices (DESIGN CHOICE, log 35, 38, 57, 80, 91, 97, 98, 99, 118) and readings (DEDUCED, log 75,
100). -/
def Obligations.HealthEvents : Prop :=
  (∀ (s : State), exec .retentionTick s = .next (s.liveClusters.foldl State.retainCluster { s with rtick := s.rtick + 1 }).meterPower) ∧
  (∀ (s : State) (cl : Nat),
    exec (.reservedCycle cl) s = .next (((s.coresOf cl).foldl (fun s n => (s.reserveMem n false).scrubArrays n) s).reserveMem (8 * cl) true)) ∧
  (∀ (s : State) (cl : Nat),
    let t := s.retainCluster cl
    let band := if s.rtick % 100 = 0 then (s.cluster cl).band else (s.cluster cl).csr.tempBand.toNat
    let mapped := fun (n : Nat) (c : Bool) (k : Nat) => (s.ownerRegion n c (2048 * k)).any (fun x => x.2.2.mapped)
    (t.cluster cl).csr.tempBand.toNat = band ∧
    (∀ n ∈ s.coresOf cl, (t.core n).field.groups =
      tmap (fun k g => if (s.core n).ages then g.aged band s.rtick (mapped n false k) else g) (s.core n).field.groups) ∧
    (t.cluster cl).commons.groups =
      tmap (fun k g => if s.commonsAges cl (2048 * k) then g.aged band s.rtick (mapped (8 * cl) true k) else g) (s.cluster cl).commons.groups ∧
    (∀ n ∈ s.coresOf cl, ∀ k g, (k, g) ∈ (t.core n).field.groups → g.valid = true → g.pending = true → g.writeback = true →
      g.failed = false ∨ s.rtick % 256 = 0 → Work.event (.expiryWritebackComplete cl (n % 8) k) ∈ t.agenda)) ∧
  (∀ (l : List (Nat × Nat)) (used : List Nat),
    ((pickRows l used).map Prod.fst).Nodup ∧ (∀ r ∈ pickRows l used, r ∈ l ∧ r.1 ∉ used) ∧
    (∀ r ∈ l, r.1 ∉ used → r.1 ∈ (pickRows l used).map Prod.fst)) ∧
  (∀ (s : State) (n : Nat) (c : Bool), (s.localOf n c).bad = [] → (s.localOf n c).weak = [] →
    (s.cluster (clusterOf n)).redo.all (fun p => p.1 != if c then 8 else n % 8) = true →
    let t := s.reserveMem n c
    (t.localOf n c).cells = (s.localOf n c).cells ∧
    (s.requestsIn n c = [] → (t.localOf n c).groups = (s.localOf n c).groups) ∧
    (∀ off, s.requestsIn n c = [off] →
      let g := (s.localOf n c).group off
      let left := (s.rowsOf n c off).filter (fun r => !g.served.contains (rowKey r))
      (∀ o, o / 2048 ≠ off / 2048 → (t.localOf n c).group o = (s.localOf n c).group o) ∧
      (¬ (left.map Prod.fst).Nodup → (t.localOf n c).group off = { g with served := g.served ++ (pickRows left []).map rowKey }) ∧
      ((left.map Prod.fst).Nodup →
        (t.localOf n c).group off = { g with age := 0, fresh := 0, pending := g.writeback, served := [] } ∧
        (c = false → (t.core n).csr.refcnt = (s.core n).csr.refcnt + 1) ∧
        (c = true → (t.cluster (clusterOf n)).csr.crefcnt = (s.cluster (clusterOf n)).csr.crefcnt + 1)))) ∧
  (∀ (s : State) (n off len : Nat) (c : Bool),
    ((s.checkSpan n c off len).localOf n c).weak =
      (s.localOf n c).weak.filter (fun w => !(decide (off < 8 * w + 8) && decide (8 * w < off + len))) ∧
    ((s.checkSpan n c off len).localOf n c).cells = (s.localOf n c).cells) ∧
  (∀ (s : State) (cl mem grp : Nat), s.reservedNow cl = true → exec (.expiryWritebackComplete cl mem grp) s = .next s) ∧
  (∀ (s : State) (n off st : Nat) (c : Bool), s.failWriteback n c off st =
    let g := (s.localOf n c).group off
    (if g.failed then s else s.event 0x202 0 (some g.owner) (if c then 2 else 1) (if c then clusterOf n else n) 0
      ((if c then 0x2000000 else 0) + off) st 0).updLocal n c (fun l => l.updGroup off (fun g => { g with failed := true, held := none }))) ∧
  (∀ (s u : State) (cl mem grp : Nat),
    let c := mem == 8
    let n := if c then 8 * cl else 8 * cl + mem % 8
    let g := (s.localOf n c).group (2048 * grp)
    s.reservedNow cl = false →
    ∀ (k x : Nat) (r : Region), s.ownerRegion n c (2048 * grp) = some (k, x, r) → g.valid = true → g.pending = true → g.writeback = true → r.mapped = true →
      let a := (if c then 0x2000000 else 0) + 2048 * grp
      (s.flushGroup n g.owner (r.mapva + (a - r.base)) c false (2048 * grp) = (u, .ok) →
        exec (.expiryWritebackComplete cl mem grp) s = .next (u.updLocal n c (fun l => l.updGroup (2048 * grp) Group.gone))) ∧
      (∀ w, s.flushGroup n g.owner (r.mapva + (a - r.base)) c false (2048 * grp) = (u, .wait w) → (∀ t p, w ≠ .link t p) →
        exec (.expiryWritebackComplete cl mem grp) s = .next u) ∧
      (∀ t p, s.flushGroup n g.owner (r.mapva + (a - r.base)) c false (2048 * grp) = (u, .wait (.link t p)) →
        (u.tick < g.held.getD t + 2 ^ 20 → exec (.expiryWritebackComplete cl mem grp) s =
          .next (u.updLocal n c (fun l => l.updGroup (2048 * grp) (fun g => { g with held := some (g.held.getD t) })))) ∧
        (g.held.getD t + 2 ^ 20 ≤ u.tick → exec (.expiryWritebackComplete cl mem grp) s = .next (u.failWriteback n c (2048 * grp) stData))) ∧
      (∀ st, s.flushGroup n g.owner (r.mapva + (a - r.base)) c false (2048 * grp) = (u, .fail st) →
        exec (.expiryWritebackComplete cl mem grp) s = .next (u.failWriteback n c (2048 * grp) st))) ∧
  (∀ (s : State) (k : Fin 6), ∃ t, exec (.bucketLeak k) s = .next t ∧ (∀ key b, (key, b) ∈ t.buckets →
    ∃ b0, (key, b0) ∈ s.buckets ∧ b.count = if key / 2 ^ 20 = k.val then b0.count - 1 else b0.count)) ∧
  (∀ (s : State) (n lane : Nat), n < 256 → lane < 144 →
    ∃ t, exec (.shadowLatchReplay 0 n lane false) s = .next t ∧ (t.core n).csr.replayCnt = (s.core n).csr.replayCnt + 1 ∧
      (t.core n).csr.slackCnt = (s.core n).csr.slackCnt + 2 ∧ (t.core n).x = (s.core n).x) ∧
  (∀ (s : State) (n k : Nat), k < 64 → (s.core n).seq.mode = .idle → (s.core n).seq.shadow = false → (s.core n).team = none →
    bit s.pres.cores n = true →
    (exec (.katRun n []) s = .next { s with katDue := s.katDue.filter (fun x => x ≠ n) }) ∧
    ∃ t, exec (.katRun n [(k, 2)]) s = .next t ∧ (t.core n).csr.capm.getLsbD k = false) ∧
  (∀ (s : State) (n : Nat) (f : Flaw), ∃ d,
    let e := fun (code sev : Nat) (ctx : Option Nat) => s.free.2.event code sev ctx 0 n (f.word % 65536) 0 d 0
    (f.bad = false → s.flawFound n f = e 0x301 0 none) ∧
    (f.bad = true → (s.core n).team = none → s.flawFound n f = e 0x302 0 none) ∧
    (f.bad = true → (s.core n).team ≠ none → s.flawFound n f =
      { e 0x302 3 (some (s.core n).csr.ctxId.toNat) with agenda := .event (.contextEnd (s.core n).csr.ctxId.toNat 0x302 0) :: s.agenda })) ∧
  (∀ (s : State) (a t : Nat), s.tierOf a = some t →
    let k := s.blockOf t a
    (∃ c, exec (.globalScrub a 0) s = .next { s with chan := c } ∧
      (tget ⟨0, 0, 0, 0⟩ c ((s.place t a).1 + if t = 0 then 0 else 256)).rdBytes =
        (tget ⟨0, 0, 0, 0⟩ s.chan ((s.place t a).1 + if t = 0 then 0 else 256)).rdBytes + 32) ∧
    (∃ u, exec (.globalScrub a 2) s = .next u ∧ 4 * k + a % 128 / 32 ∈ (u.gmem t).fails ∧
      s.blockOf t (s.paOfBlock t k + 32 * (a % 128 / 32)) ∈ (u.gmem t).bad)) ∧
  (∀ (s : State) (cl : Nat) (b : Bool), bit s.pres.clusters cl = true →
    ∃ t, exec (.ccFailure cl b) s = .next t ∧ (t.cluster cl).bookings = [] ∧ (t.cluster cl).stakes = [] ∧ (t.cluster cl).reqQ = []) ∧
  (∀ (s : State) (b : Bool), ∃ t, exec (.moduleStop b) s = .next t ∧ t.power = .stopped ∧ t.cores = s.cores ∧ t.clusters = s.clusters ∧
    ∃ r ∈ t.log.trips, r.code = 0x302 ∧ r.sev = 5 ∧ r.sub = (if b then 1 else 0))

/-- Links, power and the outside (R400-R421, R496-R506). A contribution outside a window or its group does nothing, the first one of a
segment opens its round, and the one that completes it has the merged units written and the round counted; additions are merged to
their sum, in whatever order; a round is broken off after its timeout and not before; host memory accesses need the link; power-good brings a
module in reset up with the units that it finds, each core's known-answer test before anything else, unless a stage fails to verify, which
leaves it in reset with a record in the trip store, and does nothing elsewhere; module reset keeps the trips; a thermal trip removes power
and is recorded.

A heartbeat leaves by every port that is up; more than 16 replays in the last millisecond retrain a port, and the second failure in a row takes
it down; the CXL link goes down and up, with and without its keys; inbound requests 0 and 1 read and write, and a request under a tag that has
been answered gets its first response again. It rests on the model's own choices (DESIGN CHOICE, log 41, 48, 61, 62,
63, 64, 65, 80, 94, 95, 119). -/
def Obligations.OutsideEvents : Prop :=
  (∀ (s : State) (m a : Nat) (op : Fin 8) (v : Double),
    (s.windowAt a = none → exec (.reductionContribution m a op v) s = .next s) ∧
    (∀ w, s.windowAt a = some w → w.group.findIdx? (fun x => x == m) = none → exec (.reductionContribution m a op v) s = .next s) ∧
    (∀ w rank, s.windowAt a = some w → w.group.findIdx? (fun x => x == m) = some rank → op.val < 5 →
      (w.segment ((a - w.base) / 4096)).current = none → 1 < w.group.length * (4096 / unitBytes op.val) → tfind s.windows w.handle = some w →
      ∃ t, exec (.reductionContribution m a op v) s = .next t ∧
        ∃ w', tfind t.windows w.handle = some w' ∧ (w'.segment ((a - w.base) / 4096)).current =
          some ⟨op.val, s.rtick, false, false, [(rank, (a - w.base) % 4096 / unitBytes op.val, v.toNat % 2 ^ (8 * unitBytes op.val))]⟩) ∧
    (∀ w rank r, s.windowAt a = some w → w.group.findIdx? (fun x => x == m) = some rank → op.val < 5 → tfind s.windows w.handle = some w →
      (w.segment ((a - w.base) / 4096)).current = some r → r.op = op.val →
      r.parts.any (fun p => p.1 == rank && p.2.1 == (a - w.base) % 4096 / unitBytes op.val) = false →
      r.parts.length + 1 = w.group.length * (4096 / unitBytes op.val) →
      ∃ t, exec (.reductionContribution m a op v) s = .next t ∧
        ∃ w', tfind t.windows w.handle = some w' ∧
          w'.segment ((a - w.base) / 4096) = ⟨(w.segment ((a - w.base) / 4096)).round + 1, none⟩)) ∧
  (∀ (s : State) (l : List Nat), (∀ x ∈ l, x < 2 ^ 64) → (combineAll 0 l.length l s).2 = l.sum % 2 ^ 64) ∧
  (∀ (s : State) (h k : Nat) (w : Window) (r : Round'), tfind s.windows h = some w → (w.segment k).current = some r →
    (r.opened + w.timeout ≤ s.rtick → exec (.roundTimeout h k) s = .next (s.breakRound h k w r)) ∧
    (s.rtick < r.opened + w.timeout → exec (.roundTimeout h k) s = .next s)) ∧
  (∀ (s : State) (pa len : Nat) (data : List Byte),
    (s.cxlUp = false → exec (.hostCxlMemAccess pa len data) s = .next s) ∧
    (s.cxlSecure = false → exec (.hostCxlMemAccess pa len data) s = .next s) ∧
    (s.cxlUp = true → s.cxlSecure = true → 2 ^ 52 ≤ pa → data ≠ [] → exec (.hostCxlMemAccess pa len data) s = .next (s.writeOutside 2 (pa - 2 ^ 52) data)) ∧
    (∀ t, s.cxlUp = true → s.cxlSecure = true → pa < 2 ^ 52 → s.tierOf pa = some t → s.tierHolds t pa (max len data.length) = true →
      (data = [] → exec (.hostCxlMemAccess pa len data) s = .next ((s.readOutside 1 t pa len).hostTakes pa len)) ∧
      (data ≠ [] → s.ckpt = none → s.hold = none →
        exec (.hostCxlMemAccess pa len data) s = .next (((s.writeOutside t pa data).maySpoil data).hostTakes pa data.length)))) ∧
  (∀ (s : State) (cores clusters hbm links : Nat) (b : Bool), s.power ≠ .inReset → exec (.powerGood cores clusters hbm links b) s = .next s) ∧
  (∀ (s : State) (cores clusters hbm links : Nat), s.power = .inReset →
    ∃ t, exec (.powerGood cores clusters hbm links true) s = .next t ∧ t.power = .up ∧ t.cxlUp = true ∧ t.cxlSecure = true ∧
      t.pres.cores = cores &&& s.pres.cores &&& coresOfClusters clusters ∧
      t.pres.phiok = links / 2 ^ 32 &&& s.pres.phiok ∧ t.pres.clusters = clusters &&& s.pres.clusters ∧ t.pres.hbm = hbm &&& s.pres.hbm ∧ t.pres.lpddr = links % 2 ^ 32 &&& s.pres.lpddr ∧
      (∀ n < 256, bit t.pres.cores n = true → ∃ d, Work.event (.katRun n d) ∈ t.agenda)) ∧
  (∀ (s : State) (cores clusters hbm links : Nat), s.power = .inReset →
    ∃ t, exec (.powerGood cores clusters hbm links false) s = .next t ∧ t.power = .bootFailed ∧ t.cores = s.cores ∧ t.pres = s.pres ∧
      ∃ r, t.log.trips = s.log.trips ++ [r] ∧ r.code = 0xC01) ∧
  (∀ (s : State), exec .moduleReset s = .next s.afterReset ∧ s.afterReset.cores = State.reset.cores ∧ s.afterReset.log.trips = s.log.trips) ∧
  (∀ (s : State) (n : Nat), ∃ t, exec (.thermalTrip n) s = .next t ∧ t.power = .tripped ∧ t.cores = s.cores ∧
    ∃ r ∈ t.log.trips, r.code = 0x704 ∧ r.sev = 5 ∧ r.detail = n) ∧
  (∀ (s : State), s.power = .up → exec .heartbeat s = .next { s with beats := s.beats + ((List.range 18).filter s.portUp).length }) ∧
  (∀ (s : State) (p : Nat), s.portUp p = true →
    ∃ t, exec (.phiokReplay p) s = .next t ∧
      let now := (tget Port.init s.ports p).replays.filter (fun x => decide (s.rtick < x + 1000)) ++ [s.rtick]
      (tget Port.init t.ports p).replays = now ∧
      (16 < now.length → (tget Port.init t.ports p).retraining = true) ∧
      (now.length ≤ 16 → (tget Port.init t.ports p).retraining = (tget Port.init s.ports p).retraining)) ∧
  (∀ (s : State) (p : Nat), bit s.pres.phiok p = true → (tget Port.init s.ports p).down = false →
    ((tget Port.init s.ports p).fails = 0 → ∃ t, exec (.portRetrain p false) s = .next t ∧ (tget Port.init t.ports p).down = false) ∧
    ((tget Port.init s.ports p).fails = 1 → ∃ t, exec (.portRetrain p false) s = .next t ∧ (tget Port.init t.ports p).down = true) ∧
    (∃ t, exec (.portRetrain p true) s = .next t ∧ tget Port.init t.ports p = Port.init)) ∧
  (∀ (s : State), s.cxlUp = true →
    (∃ t, exec .cxlLinkDown s = .next t ∧ t.cxlUp = false ∧ t.snoop = [] ∧ t.cxlSecure = s.cxlSecure ∧ t.log ≠ s.log) ∧
    (∃ t, exec .ideFailure s = .next t ∧ t.cxlUp = false ∧ t.cxlSecure = false)) ∧
  (∀ (s : State),
    (s.cxlSecure = true → exec .cxlLinkUp s = .next (({ s with cxlUp := true } : State).retryLink false)) ∧
    (s.cxlSecure = false → exec .cxlLinkUp s = .next ({ s with cxlUp := true } : State).retryFront)) ∧
  (∀ (s : State), (s.cxlUp = true → exec .ideKeyProgramming s = .next (({ s with cxlSecure := true } : State).retryLink false)) ∧
    (s.cxlUp = false → exec .ideKeyProgramming s = .next s)) ∧
  (∀ (s : State) (pa len t : Nat) (data : List Byte), s.tierOf pa = some t → s.tierHolds t pa (max len data.length) = true →
    ∀ tag, pa < 2 ^ 56 → s.answered.find? (fun x => x.1 == tag) = none →
      let done := fun (u : State) => ({ u with answered := u.answered ++ [(tag, u.replies.drop s.replies.length)] } : State)
      exec (.phiokInboundRequest 0 (tag * 2 ^ 56 + pa) len data) s = .next (done (s.readOutside 2 t pa len)) ∧
      exec (.phiokInboundRequest 1 (tag * 2 ^ 56 + pa) len data) s = .next (done ((s.writeOutside t pa data).maySpoil data))) ∧
  (∀ (s : State) (kind : Fin 8) (a len tag : Nat) (data : List Byte) (l : List Reply),
    s.answered.find? (fun x => x.1 == a / 2 ^ 56) = some (tag, l) →
    exec (.phiokInboundRequest kind a len data) s = .next { s with replies := s.replies ++ l }) ∧
  (∀ (s u : State) (who t pa len : Nat) (bs : List Byte), s.readRangeAt t pa len = (u, .ok bs) →
    s.readOutside who t pa len = { u with replies := u.replies ++ [⟨who, 0, bs⟩] })
end

