-- ==== Sys2Proof/Laws/Arrays.lean ====
section
/-! SUPPORT. What finding an error in an array of a core can do (R434, R437): the log, the work to come and the count of free values change, and
nothing else. -/

namespace Sys2Proof.Machine

theorem State.flawFound_frame (s : State) (n : Nat) (f : Flaw) :
    ∃ l a k, s.flawFound n f = { s with log := l, agenda := a, freeCtr := k } := by
  unfold State.flawFound
  dsimp only
  split
  · exact ⟨_, _, _, rfl⟩
  · split <;> exact ⟨_, _, _, rfl⟩

theorem State.flawsFound_frame (s : State) (n : Nat) (l : List Flaw) :
    ∃ g a k, s.flawsFound n l = { s with log := g, agenda := a, freeCtr := k } := by
  induction l generalizing s with
  | nil => exact ⟨_, _, _, rfl⟩
  | cons f rest ih =>
    obtain ⟨g, a, k, h⟩ := s.flawFound_frame n f
    obtain ⟨g', a', k', h'⟩ := ih (s.flawFound n f)
    exact ⟨g', a', k', by rw [show s.flawsFound n (f :: rest) = (s.flawFound n f).flawsFound n rest from rfl, h', h]⟩

/-- A core without flaws has nothing to find. -/
theorem State.meetFlaws_none (s : State) (n pc : Nat) (b : Bundle) (h : (s.core n).flaws = []) : s.meetFlaws n pc b = s := by
  simp [State.meetFlaws, State.flawsFound, Core.wordsFetched, Core.wordsRead, h]

theorem State.meetFlaws_frame (s : State) (n pc : Nat) (b : Bundle) :
    ∃ g a k, s.meetFlaws n pc b = { s with log := g, agenda := a, freeCtr := k } := State.flawsFound_frame _ _ _

end Sys2Proof.Machine
end

