-- ==== Sys2Proof/Laws/Memory.lean ====
section
/-! SUPPORT. The laws of memory: every operation keeps the canonical form, a read gives what was written last, and a write leaves
every other byte alone. -/

namespace Sys2Proof.Machine

/-! ### The canonical form -/

theorem memWfFrom_cons (lo a : Nat) (b : Byte) (m : List Host.Cell) :
    memWfFrom lo ((a, b) :: m) = true ↔ lo ≤ a ∧ b ≠ unlisted ∧ memWfFrom (a + 1) m = true := by
  simp [memWfFrom, and_assoc]

theorem memWfFrom_mono {lo lo' : Nat} (h : lo ≤ lo') {m : List Host.Cell} (w : memWfFrom lo' m = true) : memWfFrom lo m = true := by
  cases m with
  | nil => rfl
  | cons c m => obtain ⟨a, b⟩ := c; rw [memWfFrom_cons] at *; exact ⟨by omega, w.2⟩

theorem writeByte_wfFrom (a : Nat) (b : Byte) :
    ∀ (m : List Host.Cell) (lo : Nat), lo ≤ a → memWfFrom lo m = true → memWfFrom lo (writeByte m a b) = true
  | [], lo, h, _ => by
    unfold writeByte
    split
    · rfl
    · next hb => rw [memWfFrom_cons]; exact ⟨h, hb, rfl⟩
  | (j, c) :: rest, lo, h, w => by
    rw [memWfFrom_cons] at w
    unfold writeByte
    split
    · next e =>
      subst e
      split
      · exact memWfFrom_mono (by omega) w.2.2
      · next hb => rw [memWfFrom_cons]; exact ⟨h, hb, w.2.2⟩
    · split
      · split
        · rw [memWfFrom_cons]; exact w
        · next hb => rw [memWfFrom_cons, memWfFrom_cons]; exact ⟨h, hb, by omega, w.2⟩
      · next h1 h2 => rw [memWfFrom_cons]; exact ⟨w.1, w.2.1, writeByte_wfFrom a b rest (j + 1) (by omega) w.2.2⟩

theorem writeByte_wf {m : List Host.Cell} (a : Nat) (b : Byte) (w : memWf m = true) : memWf (writeByte m a b) = true :=
  writeByte_wfFrom a b m 0 (Nat.zero_le a) w

theorem writeBytes_wf : ∀ (bs : List Byte) {m : List Host.Cell} (a : Nat), memWf m = true → memWf (writeBytes m a bs) = true
  | [], _, _, w => w
  | b :: bs, _, a, w => writeBytes_wf bs (a + 1) (writeByte_wf a b w)

theorem writeNat_wf {m : List Host.Cell} (a n w : Nat) (h : memWf m = true) : memWf (writeNat m a n w) = true :=
  writeBytes_wf _ _ h

theorem filter_wfFrom (p : Host.Cell → Bool) : ∀ (m : List Host.Cell) (lo : Nat), memWfFrom lo m = true → memWfFrom lo (m.filter p) = true
  | [], _, _ => rfl
  | (a, b) :: rest, lo, w => by
    rw [memWfFrom_cons] at w
    rw [List.filter_cons]
    split
    · rw [memWfFrom_cons]; exact ⟨w.1, w.2.1, filter_wfFrom p rest (a + 1) w.2.2⟩
    · exact memWfFrom_mono (by omega) (filter_wfFrom p rest (a + 1) w.2.2)

theorem filter_wf (p : Host.Cell → Bool) {m : List Host.Cell} (w : memWf m = true) : memWf (m.filter p) = true := filter_wfFrom p m 0 w

theorem clearBytes_wf {m : List Host.Cell} (a n : Nat) (w : memWf m = true) : memWf (clearBytes m a n) = true := filter_wf _ w

theorem putBlock_wf {g : GMem} (b code : Nat) (bs : List Byte) (w : memWf g.cells = true) : memWf (g.putBlock b code bs).cells = true :=
  writeBytes_wf _ _ w

theorem Local.put_wf {l : Local} (off : Nat) (bs : List Byte) (w : memWf l.cells = true) : memWf (l.put off bs).cells = true :=
  writeBytes_wf _ _ w

@[simp] theorem Local.freshRow_cells (l : Local) (off : Nat) : (l.freshRow off).cells = l.cells := rfl

theorem Local.putRow_wf {l : Local} (off : Nat) (bs : List Byte) (w : memWf l.cells = true) : memWf (l.putRow off bs).cells = true :=
  Local.put_wf off bs w

theorem Local.stage_wf {l : Local} (off n : Nat) (g : Group) (w : memWf l.cells = true) : memWf (l.stage off n g).cells = true :=
  clearBytes_wf off n w

theorem Local.saved_wf {l : Local} (sp mapped : List (Nat × Nat)) (w : memWf l.cells = true) : memWf (l.saved sp mapped).cells = true := filter_wf _ w

theorem foldCells_wf (l : List Host.Cell) : ∀ {m : List Host.Cell}, memWf m = true → memWf (l.foldl (fun m c => writeByte m c.1 c.2) m) = true := by
  induction l with
  | nil => intro m w; exact w
  | cons c l ih => intro m w; exact ih (writeByte_wf c.1 c.2 w)

theorem Local.overlay_wf {l : Local} (sp : List (Nat × Nat)) (v : Local) (w : memWf l.cells = true) :
    memWf (l.overlay sp v).cells = true := foldCells_wf _ (filter_wf _ w)

/-- Every memory after reset is in canonical form. -/
theorem reset_wf : memWf State.reset.dev.cells = true ∧ memWf State.reset.host.cells = true ∧ memWf State.reset.peer.cells = true
    ∧ (∀ n, memWf (State.reset.core n).field.cells = true) ∧ (∀ k, memWf (State.reset.cluster k).commons.cells = true) :=
  ⟨rfl, rfl, rfl, fun _ => rfl, fun _ => rfl⟩

/-! ### Reads after writes -/

theorem readByte_below {m : List Host.Cell} {lo a : Nat} (w : memWfFrom lo m = true) (h : a < lo) : readByte m a = unlisted := by
  induction m generalizing lo with
  | nil => rfl
  | cons c m ih =>
    obtain ⟨j, b⟩ := c
    rw [memWfFrom_cons] at w
    have : j ≠ a := by omega
    simp only [readByte, this, if_false]
    exact ih w.2.2 (by omega)

theorem readByte_writeByte_from (a : Nat) (b : Byte) (x : Nat) :
    ∀ (m : List Host.Cell) (lo : Nat), memWfFrom lo m = true → readByte (writeByte m a b) x = if x = a then b else readByte m x
  | [], lo, _ => by
    unfold writeByte
    split
    · next hb => subst hb; simp [readByte]
    · simp [readByte, eq_comm]
  | (j, c) :: rest, lo, w => by
    rw [memWfFrom_cons] at w
    have hr := readByte_writeByte_from a b x rest (j + 1) w.2.2
    unfold writeByte
    split
    · next e =>
      subst e
      split
      · next hb =>
        by_cases hx : x = j
        · subst hx; simp [hb, readByte_below w.2.2 (Nat.lt_succ_self x)]
        · simp [readByte, hx, Ne.symm hx]
      · by_cases hx : x = j
        · subst hx; simp [readByte]
        · simp [readByte, hx, Ne.symm hx]
    · next hj =>
      split
      · next hlt =>
        split
        · next hb =>
          by_cases hx : x = a
          · subst hx
            have h1 : j ≠ x := hj
            simp only [readByte, h1, if_false, if_true, hb]
            exact readByte_below w.2.2 (by omega)
          · simp [hx]
        · by_cases hx : x = a
          · subst hx; simp [readByte]
          · simp [readByte, hx, Ne.symm hx]
      · by_cases hx : x = j
        · subst hx; simp [readByte, hj]
        · simp only [readByte, Ne.symm hx, if_false]; exact hr

/-- A read after a write of one byte. -/
theorem readByte_writeByte {m : List Host.Cell} (w : memWf m = true) (a : Nat) (b : Byte) (x : Nat) :
    readByte (writeByte m a b) x = if x = a then b else readByte m x := readByte_writeByte_from a b x m 0 w

/-- A read after a write of bytes: the byte written where the write reaches, and what was there elsewhere. -/
theorem readByte_writeBytes : ∀ (bs : List Byte) {m : List Host.Cell} (_ : memWf m = true) (a x : Nat),
    readByte (writeBytes m a bs) x = if a ≤ x ∧ x < a + bs.length then bs.getD (x - a) 0 else readByte m x
  | [], m, _, a, x => by
    have h : ¬ (a ≤ x ∧ x < a + ([] : List Byte).length) := by simp
    rw [if_neg h]; rfl
  | b :: bs, m, w, a, x => by
    rw [writeBytes, readByte_writeBytes bs (writeByte_wf a b w), readByte_writeByte w]
    by_cases hx : x = a
    · subst hx
      have h1 : ¬ (x + 1 ≤ x ∧ x < x + 1 + bs.length) := by omega
      simp
    · by_cases h : a ≤ x ∧ x < a + (b :: bs).length
      · have h1 : a + 1 ≤ x ∧ x < a + 1 + bs.length := by simp at h; omega
        have h2 : x - a = (x - (a + 1)) + 1 := by omega
        rw [if_pos h1, if_pos h, h2]; rfl
      · have h1 : ¬ (a + 1 ≤ x ∧ x < a + 1 + bs.length) := by simp at h; omega
        rw [if_neg h1, if_neg hx, if_neg h]

/-- Bytes read from where bytes were just written. -/
theorem readBytes_length (m : List Host.Cell) (a n : Nat) : (readBytes m a n).length = n := by
  induction n generalizing a with
  | zero => rfl
  | succ n ih => simp [readBytes, ih]

@[simp] theorem bytesOfNat_length (n w : Nat) : (bytesOfNat n w).length = n := by
  induction n generalizing w with
  | zero => rfl
  | succ n ih => simp [bytesOfNat, ih]

/-- The bytes of a number give back its low part (R7). -/
theorem natOfBytes_bytesOfNat (n w : Nat) : natOfBytes (bytesOfNat n w) = w % 256 ^ n := by
  induction n generalizing w with
  | zero => simp [bytesOfNat, natOfBytes, Nat.mod_one]
  | succ n ih =>
    simp only [bytesOfNat, natOfBytes, ih, BitVec.toNat_ofNat]
    have h : 256 ^ (n + 1) = 256 * 256 ^ n := by rw [Nat.pow_succ, Nat.mul_comm]
    rw [h, Nat.mod_mul]

/-! ### Tables -/

theorem tget_tset {α : Type} (d : α) (t : Tbl α) (k : Nat) (v : α) : tget d (tset t k v) k = v := by
  induction t with
  | nil => simp [tset, tget]
  | cons e t ih =>
    obtain ⟨j, w⟩ := e
    unfold tset
    split
    · simp [tget]
    · split
      · simp [tget]
      · next h _ => simp [tget, h, ih]

theorem tget_tset_other {α : Type} (d : α) (t : Tbl α) (k : Nat) (v : α) {i : Nat} (h : i ≠ k) : tget d (tset t k v) i = tget d t i := by
  induction t with
  | nil => simp [tset, tget, Ne.symm h]
  | cons e t ih =>
    obtain ⟨j, w⟩ := e
    unfold tset
    split
    · next e => subst e; simp [tget, Ne.symm h]
    · split
      · simp [tget, Ne.symm h]
      · simp [tget, ih]

@[simp] theorem State.core_setCore (s : State) (n : Nat) (c : Core) : (s.setCore n c).core n = c := tget_tset _ _ _ _

@[simp] theorem State.core_updCore (s : State) (n : Nat) (f : Core → Core) : (s.updCore n f).core n = f (s.core n) := tget_tset _ _ _ _

/-- Another core is untouched. -/
theorem State.core_updCore_other (s : State) {n i : Nat} (f : Core → Core) (h : i ≠ n) : (s.updCore n f).core i = s.core i :=
  tget_tset_other _ _ _ _ h

@[simp] theorem State.cluster_updCluster (s : State) (k : Nat) (f : Cluster → Cluster) : (s.updCluster k f).cluster k = f (s.cluster k) :=
  tget_tset _ _ _ _

/-- Another cluster is untouched. -/
theorem State.cluster_updCluster_other (s : State) {k i : Nat} (f : Cluster → Cluster) (h : i ≠ k) :
    (s.updCluster k f).cluster i = s.cluster i := tget_tset_other _ _ _ _ h

@[simp] theorem State.cluster_updCore (s : State) (n : Nat) (f : Core → Core) (k : Nat) : (s.updCore n f).cluster k = s.cluster k := rfl

@[simp] theorem State.core_updCluster (s : State) (k : Nat) (f : Cluster → Cluster) (n : Nat) : (s.updCluster k f).core n = s.core n := rfl

end Sys2Proof.Machine
end

