-- ==== Sys2Proof/Laws/State.lean ====
section
/-! SUPPORT. One lemma per field per update of the state and of a core: what an update leaves alone, and what it sets. -/

namespace Sys2Proof.Machine

/-! ### Updates of the state -/

@[simp] theorem State.setCore_tick : ∀ (s : State) (n : Nat) (c : Core), (s.setCore n c).tick = s.tick := fun _ _ _ => rfl
@[simp] theorem State.setCore_rtick : ∀ (s : State) (n : Nat) (c : Core), (s.setCore n c).rtick = s.rtick := fun _ _ _ => rfl
@[simp] theorem State.setCore_instant : ∀ (s : State) (n : Nat) (c : Core), (s.setCore n c).instant = s.instant := fun _ _ _ => rfl
@[simp] theorem State.setCore_rsub : ∀ (s : State) (n : Nat) (c : Core), (s.setCore n c).rsub = s.rsub := fun _ _ _ => rfl
@[simp] theorem State.setCore_power : ∀ (s : State) (n : Nat) (c : Core), (s.setCore n c).power = s.power := fun _ _ _ => rfl
@[simp] theorem State.setCore_agenda : ∀ (s : State) (n : Nat) (c : Core), (s.setCore n c).agenda = s.agenda := fun _ _ _ => rfl
@[simp] theorem State.setCore_inputs : ∀ (s : State) (n : Nat) (c : Core), (s.setCore n c).inputs = s.inputs := fun _ _ _ => rfl
@[simp] theorem State.setCore_issue : ∀ (s : State) (n : Nat) (c : Core), (s.setCore n c).issue = s.issue := fun _ _ _ => rfl
@[simp] theorem State.setCore_freeCtr : ∀ (s : State) (n : Nat) (c : Core), (s.setCore n c).freeCtr = s.freeCtr := fun _ _ _ => rfl
@[simp] theorem State.setCore_clusters : ∀ (s : State) (n : Nat) (c : Core), (s.setCore n c).clusters = s.clusters := fun _ _ _ => rfl
@[simp] theorem State.setCore_log : ∀ (s : State) (n : Nat) (c : Core), (s.setCore n c).log = s.log := fun _ _ _ => rfl
@[simp] theorem State.setCore_pres : ∀ (s : State) (n : Nat) (c : Core), (s.setCore n c).pres = s.pres := fun _ _ _ => rfl
@[simp] theorem State.setCore_stepping : ∀ (s : State) (n : Nat) (c : Core), (s.setCore n c).stepping = s.stepping := fun _ _ _ => rfl
@[simp] theorem State.setCore_moduleNum : ∀ (s : State) (n : Nat) (c : Core), (s.setCore n c).moduleNum = s.moduleNum := fun _ _ _ => rfl
@[simp] theorem State.setCore_chan : ∀ (s : State) (n : Nat) (c : Core), (s.setCore n c).chan = s.chan := fun _ _ _ => rfl
@[simp] theorem State.setCore_contexts : ∀ (s : State) (n : Nat) (c : Core), (s.setCore n c).contexts = s.contexts := fun _ _ _ => rfl
@[simp] theorem State.setCore_dev : ∀ (s : State) (n : Nat) (c : Core), (s.setCore n c).dev = s.dev := fun _ _ _ => rfl
@[simp] theorem State.setCore_host : ∀ (s : State) (n : Nat) (c : Core), (s.setCore n c).host = s.host := fun _ _ _ => rfl
@[simp] theorem State.setCore_peer : ∀ (s : State) (n : Nat) (c : Core), (s.setCore n c).peer = s.peer := fun _ _ _ => rfl
@[simp] theorem State.setCore_hash : ∀ (s : State) (n : Nat) (c : Core), (s.setCore n c).hash = s.hash := fun _ _ _ => rfl
@[simp] theorem State.setCore_faults : ∀ (s : State) (n : Nat) (c : Core), (s.setCore n c).faults = s.faults := fun _ _ _ => rfl
@[simp] theorem State.setCore_invs : ∀ (s : State) (n : Nat) (c : Core), (s.setCore n c).invs = s.invs := fun _ _ _ => rfl
@[simp] theorem State.setCore_migrations : ∀ (s : State) (n : Nat) (c : Core), (s.setCore n c).migrations = s.migrations := fun _ _ _ => rfl
@[simp] theorem State.setCore_monitors : ∀ (s : State) (n : Nat) (c : Core), (s.setCore n c).monitors = s.monitors := fun _ _ _ => rfl
@[simp] theorem State.setCore_nextOp : ∀ (s : State) (n : Nat) (c : Core), (s.setCore n c).nextOp = s.nextOp := fun _ _ _ => rfl
@[simp] theorem State.setCore_cxlUp : ∀ (s : State) (n : Nat) (c : Core), (s.setCore n c).cxlUp = s.cxlUp := fun _ _ _ => rfl
@[simp] theorem State.setCore_cxlSecure : ∀ (s : State) (n : Nat) (c : Core), (s.setCore n c).cxlSecure = s.cxlSecure := fun _ _ _ => rfl
@[simp] theorem State.setCore_cxlSince : ∀ (s : State) (n : Nat) (c : Core), (s.setCore n c).cxlSince = s.cxlSince := fun _ _ _ => rfl
@[simp] theorem State.setCore_lostPeers : ∀ (s : State) (n : Nat) (c : Core), (s.setCore n c).lostPeers = s.lostPeers := fun _ _ _ => rfl
@[simp] theorem State.setCore_teams : ∀ (s : State) (n : Nat) (c : Core), (s.setCore n c).teams = s.teams := fun _ _ _ => rfl
@[simp] theorem State.setCore_insts : ∀ (s : State) (n : Nat) (c : Core), (s.setCore n c).insts = s.insts := fun _ _ _ => rfl
@[simp] theorem State.setCore_units : ∀ (s : State) (n : Nat) (c : Core), (s.setCore n c).units = s.units := fun _ _ _ => rfl
@[simp] theorem State.setCore_reservations : ∀ (s : State) (n : Nat) (c : Core), (s.setCore n c).reservations = s.reservations := fun _ _ _ => rfl
@[simp] theorem State.setCore_queues : ∀ (s : State) (n : Nat) (c : Core), (s.setCore n c).queues = s.queues := fun _ _ _ => rfl
@[simp] theorem State.setCore_recWrites : ∀ (s : State) (n : Nat) (c : Core), (s.setCore n c).recWrites = s.recWrites := fun _ _ _ => rfl
@[simp] theorem State.setCore_replies : ∀ (s : State) (n : Nat) (c : Core), (s.setCore n c).replies = s.replies := fun _ _ _ => rfl
@[simp] theorem State.setCore_mbWait : ∀ (s : State) (n : Nat) (c : Core), (s.setCore n c).mbWait = s.mbWait := fun _ _ _ => rfl
@[simp] theorem State.setCore_keys : ∀ (s : State) (n : Nat) (c : Core), (s.setCore n c).keys = s.keys := fun _ _ _ => rfl
@[simp] theorem State.setCore_measure : ∀ (s : State) (n : Nat) (c : Core), (s.setCore n c).measure = s.measure := fun _ _ _ => rfl
@[simp] theorem State.setCore_idSigs : ∀ (s : State) (n : Nat) (c : Core), (s.setCore n c).idSigs = s.idSigs := fun _ _ _ => rfl
@[simp] theorem State.setCore_fenced : ∀ (s : State) (n : Nat) (c : Core), (s.setCore n c).fenced = s.fenced := fun _ _ _ => rfl
@[simp] theorem State.setCore_wsets : ∀ (s : State) (n : Nat) (c : Core), (s.setCore n c).wsets = s.wsets := fun _ _ _ => rfl
@[simp] theorem State.setCore_modLimit : ∀ (s : State) (n : Nat) (c : Core), (s.setCore n c).modLimit = s.modLimit := fun _ _ _ => rfl
@[simp] theorem State.setCore_windows : ∀ (s : State) (n : Nat) (c : Core), (s.setCore n c).windows = s.windows := fun _ _ _ => rfl
@[simp] theorem State.setCore_ports : ∀ (s : State) (n : Nat) (c : Core), (s.setCore n c).ports = s.ports := fun _ _ _ => rfl
@[simp] theorem State.setCore_beats : ∀ (s : State) (n : Nat) (c : Core), (s.setCore n c).beats = s.beats := fun _ _ _ => rfl
@[simp] theorem State.setCore_buckets : ∀ (s : State) (n : Nat) (c : Core), (s.setCore n c).buckets = s.buckets := fun _ _ _ => rfl
@[simp] theorem State.setCore_katDue : ∀ (s : State) (n : Nat) (c : Core), (s.setCore n c).katDue = s.katDue := fun _ _ _ => rfl
@[simp] theorem State.setCore_retireDue : ∀ (s : State) (n : Nat) (c : Core), (s.setCore n c).retireDue = s.retireDue := fun _ _ _ => rfl
@[simp] theorem State.setCore_unitDue : ∀ (s : State) (n : Nat) (c : Core), (s.setCore n c).unitDue = s.unitDue := fun _ _ _ => rfl
@[simp] theorem State.setCore_hold : ∀ (s : State) (n : Nat) (c : Core), (s.setCore n c).hold = s.hold := fun _ _ _ => rfl
@[simp] theorem State.setCore_ckpt : ∀ (s : State) (n : Nat) (c : Core), (s.setCore n c).ckpt = s.ckpt := fun _ _ _ => rfl
@[simp] theorem State.setCore_restoring : ∀ (s : State) (n : Nat) (c : Core), (s.setCore n c).restoring = s.restoring := fun _ _ _ => rfl
@[simp] theorem State.setCore_late : ∀ (s : State) (n : Nat) (c : Core), (s.setCore n c).late = s.late := fun _ _ _ => rfl
@[simp] theorem State.setCore_nodes : ∀ (s : State) (n : Nat) (c : Core), (s.setCore n c).nodes = s.nodes := fun _ _ _ => rfl
@[simp] theorem State.setCore_snoop : ∀ (s : State) (n : Nat) (c : Core), (s.setCore n c).snoop = s.snoop := fun _ _ _ => rfl
@[simp] theorem State.setCore_hostLines : ∀ (s : State) (n : Nat) (c : Core), (s.setCore n c).hostLines = s.hostLines := fun _ _ _ => rfl
@[simp] theorem State.setCore_fetchLast : ∀ (s : State) (n : Nat) (c : Core), (s.setCore n c).fetchLast = s.fetchLast := fun _ _ _ => rfl
@[simp] theorem State.setCore_energy : ∀ (s : State) (n : Nat) (c : Core), (s.setCore n c).energy = s.energy := fun _ _ _ => rfl
@[simp] theorem State.setCore_power1ms : ∀ (s : State) (n : Nat) (c : Core), (s.setCore n c).power1ms = s.power1ms := fun _ _ _ => rfl
@[simp] theorem State.setCore_energyMark : ∀ (s : State) (n : Nat) (c : Core), (s.setCore n c).energyMark = s.energyMark := fun _ _ _ => rfl
@[simp] theorem State.setCore_marks : ∀ (s : State) (n : Nat) (c : Core), (s.setCore n c).marks = s.marks := fun _ _ _ => rfl
@[simp] theorem State.setCore_spared : ∀ (s : State) (n : Nat) (c : Core), (s.setCore n c).spared = s.spared := fun _ _ _ => rfl
@[simp] theorem State.setCore_endings : ∀ (s : State) (n : Nat) (c : Core), (s.setCore n c).endings = s.endings := fun _ _ _ => rfl
@[simp] theorem State.setCore_past : ∀ (s : State) (n : Nat) (c : Core), (s.setCore n c).past = s.past := fun _ _ _ => rfl
@[simp] theorem State.setCore_kats : ∀ (s : State) (n : Nat) (c : Core), (s.setCore n c).kats = s.kats := fun _ _ _ => rfl
@[simp] theorem State.setCore_answered : ∀ (s : State) (n : Nat) (c : Core), (s.setCore n c).answered = s.answered := fun _ _ _ => rfl
@[simp] theorem State.updCore_tick : ∀ (s : State) (n : Nat) (f : Core → Core), (s.updCore n f).tick = s.tick := fun _ _ _ => rfl
@[simp] theorem State.updCore_rtick : ∀ (s : State) (n : Nat) (f : Core → Core), (s.updCore n f).rtick = s.rtick := fun _ _ _ => rfl
@[simp] theorem State.updCore_instant : ∀ (s : State) (n : Nat) (f : Core → Core), (s.updCore n f).instant = s.instant := fun _ _ _ => rfl
@[simp] theorem State.updCore_rsub : ∀ (s : State) (n : Nat) (f : Core → Core), (s.updCore n f).rsub = s.rsub := fun _ _ _ => rfl
@[simp] theorem State.updCore_power : ∀ (s : State) (n : Nat) (f : Core → Core), (s.updCore n f).power = s.power := fun _ _ _ => rfl
@[simp] theorem State.updCore_agenda : ∀ (s : State) (n : Nat) (f : Core → Core), (s.updCore n f).agenda = s.agenda := fun _ _ _ => rfl
@[simp] theorem State.updCore_inputs : ∀ (s : State) (n : Nat) (f : Core → Core), (s.updCore n f).inputs = s.inputs := fun _ _ _ => rfl
@[simp] theorem State.updCore_issue : ∀ (s : State) (n : Nat) (f : Core → Core), (s.updCore n f).issue = s.issue := fun _ _ _ => rfl
@[simp] theorem State.updCore_freeCtr : ∀ (s : State) (n : Nat) (f : Core → Core), (s.updCore n f).freeCtr = s.freeCtr := fun _ _ _ => rfl
@[simp] theorem State.updCore_clusters : ∀ (s : State) (n : Nat) (f : Core → Core), (s.updCore n f).clusters = s.clusters := fun _ _ _ => rfl
@[simp] theorem State.updCore_log : ∀ (s : State) (n : Nat) (f : Core → Core), (s.updCore n f).log = s.log := fun _ _ _ => rfl
@[simp] theorem State.updCore_pres : ∀ (s : State) (n : Nat) (f : Core → Core), (s.updCore n f).pres = s.pres := fun _ _ _ => rfl
@[simp] theorem State.updCore_stepping : ∀ (s : State) (n : Nat) (f : Core → Core), (s.updCore n f).stepping = s.stepping := fun _ _ _ => rfl
@[simp] theorem State.updCore_moduleNum : ∀ (s : State) (n : Nat) (f : Core → Core), (s.updCore n f).moduleNum = s.moduleNum := fun _ _ _ => rfl
@[simp] theorem State.updCore_chan : ∀ (s : State) (n : Nat) (f : Core → Core), (s.updCore n f).chan = s.chan := fun _ _ _ => rfl
@[simp] theorem State.updCore_contexts : ∀ (s : State) (n : Nat) (f : Core → Core), (s.updCore n f).contexts = s.contexts := fun _ _ _ => rfl
@[simp] theorem State.updCore_dev : ∀ (s : State) (n : Nat) (f : Core → Core), (s.updCore n f).dev = s.dev := fun _ _ _ => rfl
@[simp] theorem State.updCore_host : ∀ (s : State) (n : Nat) (f : Core → Core), (s.updCore n f).host = s.host := fun _ _ _ => rfl
@[simp] theorem State.updCore_peer : ∀ (s : State) (n : Nat) (f : Core → Core), (s.updCore n f).peer = s.peer := fun _ _ _ => rfl
@[simp] theorem State.updCore_hash : ∀ (s : State) (n : Nat) (f : Core → Core), (s.updCore n f).hash = s.hash := fun _ _ _ => rfl
@[simp] theorem State.updCore_faults : ∀ (s : State) (n : Nat) (f : Core → Core), (s.updCore n f).faults = s.faults := fun _ _ _ => rfl
@[simp] theorem State.updCore_invs : ∀ (s : State) (n : Nat) (f : Core → Core), (s.updCore n f).invs = s.invs := fun _ _ _ => rfl
@[simp] theorem State.updCore_migrations : ∀ (s : State) (n : Nat) (f : Core → Core), (s.updCore n f).migrations = s.migrations := fun _ _ _ => rfl
@[simp] theorem State.updCore_monitors : ∀ (s : State) (n : Nat) (f : Core → Core), (s.updCore n f).monitors = s.monitors := fun _ _ _ => rfl
@[simp] theorem State.updCore_nextOp : ∀ (s : State) (n : Nat) (f : Core → Core), (s.updCore n f).nextOp = s.nextOp := fun _ _ _ => rfl
@[simp] theorem State.updCore_cxlUp : ∀ (s : State) (n : Nat) (f : Core → Core), (s.updCore n f).cxlUp = s.cxlUp := fun _ _ _ => rfl
@[simp] theorem State.updCore_cxlSecure : ∀ (s : State) (n : Nat) (f : Core → Core), (s.updCore n f).cxlSecure = s.cxlSecure := fun _ _ _ => rfl
@[simp] theorem State.updCore_cxlSince : ∀ (s : State) (n : Nat) (f : Core → Core), (s.updCore n f).cxlSince = s.cxlSince := fun _ _ _ => rfl
@[simp] theorem State.updCore_lostPeers : ∀ (s : State) (n : Nat) (f : Core → Core), (s.updCore n f).lostPeers = s.lostPeers := fun _ _ _ => rfl
@[simp] theorem State.updCore_teams : ∀ (s : State) (n : Nat) (f : Core → Core), (s.updCore n f).teams = s.teams := fun _ _ _ => rfl
@[simp] theorem State.updCore_insts : ∀ (s : State) (n : Nat) (f : Core → Core), (s.updCore n f).insts = s.insts := fun _ _ _ => rfl
@[simp] theorem State.updCore_units : ∀ (s : State) (n : Nat) (f : Core → Core), (s.updCore n f).units = s.units := fun _ _ _ => rfl
@[simp] theorem State.updCore_reservations : ∀ (s : State) (n : Nat) (f : Core → Core), (s.updCore n f).reservations = s.reservations := fun _ _ _ => rfl
@[simp] theorem State.updCore_queues : ∀ (s : State) (n : Nat) (f : Core → Core), (s.updCore n f).queues = s.queues := fun _ _ _ => rfl
@[simp] theorem State.updCore_recWrites : ∀ (s : State) (n : Nat) (f : Core → Core), (s.updCore n f).recWrites = s.recWrites := fun _ _ _ => rfl
@[simp] theorem State.updCore_replies : ∀ (s : State) (n : Nat) (f : Core → Core), (s.updCore n f).replies = s.replies := fun _ _ _ => rfl
@[simp] theorem State.updCore_mbWait : ∀ (s : State) (n : Nat) (f : Core → Core), (s.updCore n f).mbWait = s.mbWait := fun _ _ _ => rfl
@[simp] theorem State.updCore_keys : ∀ (s : State) (n : Nat) (f : Core → Core), (s.updCore n f).keys = s.keys := fun _ _ _ => rfl
@[simp] theorem State.updCore_measure : ∀ (s : State) (n : Nat) (f : Core → Core), (s.updCore n f).measure = s.measure := fun _ _ _ => rfl
@[simp] theorem State.updCore_idSigs : ∀ (s : State) (n : Nat) (f : Core → Core), (s.updCore n f).idSigs = s.idSigs := fun _ _ _ => rfl
@[simp] theorem State.updCore_fenced : ∀ (s : State) (n : Nat) (f : Core → Core), (s.updCore n f).fenced = s.fenced := fun _ _ _ => rfl
@[simp] theorem State.updCore_wsets : ∀ (s : State) (n : Nat) (f : Core → Core), (s.updCore n f).wsets = s.wsets := fun _ _ _ => rfl
@[simp] theorem State.updCore_modLimit : ∀ (s : State) (n : Nat) (f : Core → Core), (s.updCore n f).modLimit = s.modLimit := fun _ _ _ => rfl
@[simp] theorem State.updCore_windows : ∀ (s : State) (n : Nat) (f : Core → Core), (s.updCore n f).windows = s.windows := fun _ _ _ => rfl
@[simp] theorem State.updCore_ports : ∀ (s : State) (n : Nat) (f : Core → Core), (s.updCore n f).ports = s.ports := fun _ _ _ => rfl
@[simp] theorem State.updCore_beats : ∀ (s : State) (n : Nat) (f : Core → Core), (s.updCore n f).beats = s.beats := fun _ _ _ => rfl
@[simp] theorem State.updCore_buckets : ∀ (s : State) (n : Nat) (f : Core → Core), (s.updCore n f).buckets = s.buckets := fun _ _ _ => rfl
@[simp] theorem State.updCore_katDue : ∀ (s : State) (n : Nat) (f : Core → Core), (s.updCore n f).katDue = s.katDue := fun _ _ _ => rfl
@[simp] theorem State.updCore_retireDue : ∀ (s : State) (n : Nat) (f : Core → Core), (s.updCore n f).retireDue = s.retireDue := fun _ _ _ => rfl
@[simp] theorem State.updCore_unitDue : ∀ (s : State) (n : Nat) (f : Core → Core), (s.updCore n f).unitDue = s.unitDue := fun _ _ _ => rfl
@[simp] theorem State.updCore_hold : ∀ (s : State) (n : Nat) (f : Core → Core), (s.updCore n f).hold = s.hold := fun _ _ _ => rfl
@[simp] theorem State.updCore_ckpt : ∀ (s : State) (n : Nat) (f : Core → Core), (s.updCore n f).ckpt = s.ckpt := fun _ _ _ => rfl
@[simp] theorem State.updCore_restoring : ∀ (s : State) (n : Nat) (f : Core → Core), (s.updCore n f).restoring = s.restoring := fun _ _ _ => rfl
@[simp] theorem State.updCore_late : ∀ (s : State) (n : Nat) (f : Core → Core), (s.updCore n f).late = s.late := fun _ _ _ => rfl
@[simp] theorem State.updCore_nodes : ∀ (s : State) (n : Nat) (f : Core → Core), (s.updCore n f).nodes = s.nodes := fun _ _ _ => rfl
@[simp] theorem State.updCore_snoop : ∀ (s : State) (n : Nat) (f : Core → Core), (s.updCore n f).snoop = s.snoop := fun _ _ _ => rfl
@[simp] theorem State.updCore_hostLines : ∀ (s : State) (n : Nat) (f : Core → Core), (s.updCore n f).hostLines = s.hostLines := fun _ _ _ => rfl
@[simp] theorem State.updCore_fetchLast : ∀ (s : State) (n : Nat) (f : Core → Core), (s.updCore n f).fetchLast = s.fetchLast := fun _ _ _ => rfl
@[simp] theorem State.updCore_energy : ∀ (s : State) (n : Nat) (f : Core → Core), (s.updCore n f).energy = s.energy := fun _ _ _ => rfl
@[simp] theorem State.updCore_power1ms : ∀ (s : State) (n : Nat) (f : Core → Core), (s.updCore n f).power1ms = s.power1ms := fun _ _ _ => rfl
@[simp] theorem State.updCore_energyMark : ∀ (s : State) (n : Nat) (f : Core → Core), (s.updCore n f).energyMark = s.energyMark := fun _ _ _ => rfl
@[simp] theorem State.updCore_marks : ∀ (s : State) (n : Nat) (f : Core → Core), (s.updCore n f).marks = s.marks := fun _ _ _ => rfl
@[simp] theorem State.updCore_spared : ∀ (s : State) (n : Nat) (f : Core → Core), (s.updCore n f).spared = s.spared := fun _ _ _ => rfl
@[simp] theorem State.updCore_endings : ∀ (s : State) (n : Nat) (f : Core → Core), (s.updCore n f).endings = s.endings := fun _ _ _ => rfl
@[simp] theorem State.updCore_past : ∀ (s : State) (n : Nat) (f : Core → Core), (s.updCore n f).past = s.past := fun _ _ _ => rfl
@[simp] theorem State.updCore_kats : ∀ (s : State) (n : Nat) (f : Core → Core), (s.updCore n f).kats = s.kats := fun _ _ _ => rfl
@[simp] theorem State.updCore_answered : ∀ (s : State) (n : Nat) (f : Core → Core), (s.updCore n f).answered = s.answered := fun _ _ _ => rfl
@[simp] theorem State.upd_tick : ∀ (s : State) (f : Core → Core), (s.upd f).tick = s.tick := fun _ _ => rfl
@[simp] theorem State.upd_rtick : ∀ (s : State) (f : Core → Core), (s.upd f).rtick = s.rtick := fun _ _ => rfl
@[simp] theorem State.upd_instant : ∀ (s : State) (f : Core → Core), (s.upd f).instant = s.instant := fun _ _ => rfl
@[simp] theorem State.upd_rsub : ∀ (s : State) (f : Core → Core), (s.upd f).rsub = s.rsub := fun _ _ => rfl
@[simp] theorem State.upd_power : ∀ (s : State) (f : Core → Core), (s.upd f).power = s.power := fun _ _ => rfl
@[simp] theorem State.upd_agenda : ∀ (s : State) (f : Core → Core), (s.upd f).agenda = s.agenda := fun _ _ => rfl
@[simp] theorem State.upd_inputs : ∀ (s : State) (f : Core → Core), (s.upd f).inputs = s.inputs := fun _ _ => rfl
@[simp] theorem State.upd_issue : ∀ (s : State) (f : Core → Core), (s.upd f).issue = s.issue := fun _ _ => rfl
@[simp] theorem State.upd_freeCtr : ∀ (s : State) (f : Core → Core), (s.upd f).freeCtr = s.freeCtr := fun _ _ => rfl
@[simp] theorem State.upd_clusters : ∀ (s : State) (f : Core → Core), (s.upd f).clusters = s.clusters := fun _ _ => rfl
@[simp] theorem State.upd_log : ∀ (s : State) (f : Core → Core), (s.upd f).log = s.log := fun _ _ => rfl
@[simp] theorem State.upd_pres : ∀ (s : State) (f : Core → Core), (s.upd f).pres = s.pres := fun _ _ => rfl
@[simp] theorem State.upd_stepping : ∀ (s : State) (f : Core → Core), (s.upd f).stepping = s.stepping := fun _ _ => rfl
@[simp] theorem State.upd_moduleNum : ∀ (s : State) (f : Core → Core), (s.upd f).moduleNum = s.moduleNum := fun _ _ => rfl
@[simp] theorem State.upd_chan : ∀ (s : State) (f : Core → Core), (s.upd f).chan = s.chan := fun _ _ => rfl
@[simp] theorem State.upd_contexts : ∀ (s : State) (f : Core → Core), (s.upd f).contexts = s.contexts := fun _ _ => rfl
@[simp] theorem State.upd_dev : ∀ (s : State) (f : Core → Core), (s.upd f).dev = s.dev := fun _ _ => rfl
@[simp] theorem State.upd_host : ∀ (s : State) (f : Core → Core), (s.upd f).host = s.host := fun _ _ => rfl
@[simp] theorem State.upd_peer : ∀ (s : State) (f : Core → Core), (s.upd f).peer = s.peer := fun _ _ => rfl
@[simp] theorem State.upd_hash : ∀ (s : State) (f : Core → Core), (s.upd f).hash = s.hash := fun _ _ => rfl
@[simp] theorem State.upd_faults : ∀ (s : State) (f : Core → Core), (s.upd f).faults = s.faults := fun _ _ => rfl
@[simp] theorem State.upd_invs : ∀ (s : State) (f : Core → Core), (s.upd f).invs = s.invs := fun _ _ => rfl
@[simp] theorem State.upd_migrations : ∀ (s : State) (f : Core → Core), (s.upd f).migrations = s.migrations := fun _ _ => rfl
@[simp] theorem State.upd_monitors : ∀ (s : State) (f : Core → Core), (s.upd f).monitors = s.monitors := fun _ _ => rfl
@[simp] theorem State.upd_nextOp : ∀ (s : State) (f : Core → Core), (s.upd f).nextOp = s.nextOp := fun _ _ => rfl
@[simp] theorem State.upd_cxlUp : ∀ (s : State) (f : Core → Core), (s.upd f).cxlUp = s.cxlUp := fun _ _ => rfl
@[simp] theorem State.upd_cxlSecure : ∀ (s : State) (f : Core → Core), (s.upd f).cxlSecure = s.cxlSecure := fun _ _ => rfl
@[simp] theorem State.upd_cxlSince : ∀ (s : State) (f : Core → Core), (s.upd f).cxlSince = s.cxlSince := fun _ _ => rfl
@[simp] theorem State.upd_lostPeers : ∀ (s : State) (f : Core → Core), (s.upd f).lostPeers = s.lostPeers := fun _ _ => rfl
@[simp] theorem State.upd_teams : ∀ (s : State) (f : Core → Core), (s.upd f).teams = s.teams := fun _ _ => rfl
@[simp] theorem State.upd_insts : ∀ (s : State) (f : Core → Core), (s.upd f).insts = s.insts := fun _ _ => rfl
@[simp] theorem State.upd_units : ∀ (s : State) (f : Core → Core), (s.upd f).units = s.units := fun _ _ => rfl
@[simp] theorem State.upd_reservations : ∀ (s : State) (f : Core → Core), (s.upd f).reservations = s.reservations := fun _ _ => rfl
@[simp] theorem State.upd_queues : ∀ (s : State) (f : Core → Core), (s.upd f).queues = s.queues := fun _ _ => rfl
@[simp] theorem State.upd_recWrites : ∀ (s : State) (f : Core → Core), (s.upd f).recWrites = s.recWrites := fun _ _ => rfl
@[simp] theorem State.upd_replies : ∀ (s : State) (f : Core → Core), (s.upd f).replies = s.replies := fun _ _ => rfl
@[simp] theorem State.upd_mbWait : ∀ (s : State) (f : Core → Core), (s.upd f).mbWait = s.mbWait := fun _ _ => rfl
@[simp] theorem State.upd_keys : ∀ (s : State) (f : Core → Core), (s.upd f).keys = s.keys := fun _ _ => rfl
@[simp] theorem State.upd_measure : ∀ (s : State) (f : Core → Core), (s.upd f).measure = s.measure := fun _ _ => rfl
@[simp] theorem State.upd_idSigs : ∀ (s : State) (f : Core → Core), (s.upd f).idSigs = s.idSigs := fun _ _ => rfl
@[simp] theorem State.upd_fenced : ∀ (s : State) (f : Core → Core), (s.upd f).fenced = s.fenced := fun _ _ => rfl
@[simp] theorem State.upd_wsets : ∀ (s : State) (f : Core → Core), (s.upd f).wsets = s.wsets := fun _ _ => rfl
@[simp] theorem State.upd_modLimit : ∀ (s : State) (f : Core → Core), (s.upd f).modLimit = s.modLimit := fun _ _ => rfl
@[simp] theorem State.upd_windows : ∀ (s : State) (f : Core → Core), (s.upd f).windows = s.windows := fun _ _ => rfl
@[simp] theorem State.upd_ports : ∀ (s : State) (f : Core → Core), (s.upd f).ports = s.ports := fun _ _ => rfl
@[simp] theorem State.upd_beats : ∀ (s : State) (f : Core → Core), (s.upd f).beats = s.beats := fun _ _ => rfl
@[simp] theorem State.upd_buckets : ∀ (s : State) (f : Core → Core), (s.upd f).buckets = s.buckets := fun _ _ => rfl
@[simp] theorem State.upd_katDue : ∀ (s : State) (f : Core → Core), (s.upd f).katDue = s.katDue := fun _ _ => rfl
@[simp] theorem State.upd_retireDue : ∀ (s : State) (f : Core → Core), (s.upd f).retireDue = s.retireDue := fun _ _ => rfl
@[simp] theorem State.upd_unitDue : ∀ (s : State) (f : Core → Core), (s.upd f).unitDue = s.unitDue := fun _ _ => rfl
@[simp] theorem State.upd_hold : ∀ (s : State) (f : Core → Core), (s.upd f).hold = s.hold := fun _ _ => rfl
@[simp] theorem State.upd_ckpt : ∀ (s : State) (f : Core → Core), (s.upd f).ckpt = s.ckpt := fun _ _ => rfl
@[simp] theorem State.upd_restoring : ∀ (s : State) (f : Core → Core), (s.upd f).restoring = s.restoring := fun _ _ => rfl
@[simp] theorem State.upd_late : ∀ (s : State) (f : Core → Core), (s.upd f).late = s.late := fun _ _ => rfl
@[simp] theorem State.upd_nodes : ∀ (s : State) (f : Core → Core), (s.upd f).nodes = s.nodes := fun _ _ => rfl
@[simp] theorem State.upd_snoop : ∀ (s : State) (f : Core → Core), (s.upd f).snoop = s.snoop := fun _ _ => rfl
@[simp] theorem State.upd_hostLines : ∀ (s : State) (f : Core → Core), (s.upd f).hostLines = s.hostLines := fun _ _ => rfl
@[simp] theorem State.upd_fetchLast : ∀ (s : State) (f : Core → Core), (s.upd f).fetchLast = s.fetchLast := fun _ _ => rfl
@[simp] theorem State.upd_energy : ∀ (s : State) (f : Core → Core), (s.upd f).energy = s.energy := fun _ _ => rfl
@[simp] theorem State.upd_power1ms : ∀ (s : State) (f : Core → Core), (s.upd f).power1ms = s.power1ms := fun _ _ => rfl
@[simp] theorem State.upd_energyMark : ∀ (s : State) (f : Core → Core), (s.upd f).energyMark = s.energyMark := fun _ _ => rfl
@[simp] theorem State.upd_marks : ∀ (s : State) (f : Core → Core), (s.upd f).marks = s.marks := fun _ _ => rfl
@[simp] theorem State.upd_spared : ∀ (s : State) (f : Core → Core), (s.upd f).spared = s.spared := fun _ _ => rfl
@[simp] theorem State.upd_endings : ∀ (s : State) (f : Core → Core), (s.upd f).endings = s.endings := fun _ _ => rfl
@[simp] theorem State.upd_past : ∀ (s : State) (f : Core → Core), (s.upd f).past = s.past := fun _ _ => rfl
@[simp] theorem State.upd_kats : ∀ (s : State) (f : Core → Core), (s.upd f).kats = s.kats := fun _ _ => rfl
@[simp] theorem State.upd_answered : ∀ (s : State) (f : Core → Core), (s.upd f).answered = s.answered := fun _ _ => rfl
@[simp] theorem State.setCluster_tick : ∀ (s : State) (k : Nat) (c : Cluster), (s.setCluster k c).tick = s.tick := fun _ _ _ => rfl
@[simp] theorem State.setCluster_rtick : ∀ (s : State) (k : Nat) (c : Cluster), (s.setCluster k c).rtick = s.rtick := fun _ _ _ => rfl
@[simp] theorem State.setCluster_instant : ∀ (s : State) (k : Nat) (c : Cluster), (s.setCluster k c).instant = s.instant := fun _ _ _ => rfl
@[simp] theorem State.setCluster_rsub : ∀ (s : State) (k : Nat) (c : Cluster), (s.setCluster k c).rsub = s.rsub := fun _ _ _ => rfl
@[simp] theorem State.setCluster_power : ∀ (s : State) (k : Nat) (c : Cluster), (s.setCluster k c).power = s.power := fun _ _ _ => rfl
@[simp] theorem State.setCluster_agenda : ∀ (s : State) (k : Nat) (c : Cluster), (s.setCluster k c).agenda = s.agenda := fun _ _ _ => rfl
@[simp] theorem State.setCluster_inputs : ∀ (s : State) (k : Nat) (c : Cluster), (s.setCluster k c).inputs = s.inputs := fun _ _ _ => rfl
@[simp] theorem State.setCluster_issue : ∀ (s : State) (k : Nat) (c : Cluster), (s.setCluster k c).issue = s.issue := fun _ _ _ => rfl
@[simp] theorem State.setCluster_freeCtr : ∀ (s : State) (k : Nat) (c : Cluster), (s.setCluster k c).freeCtr = s.freeCtr := fun _ _ _ => rfl
@[simp] theorem State.setCluster_cores : ∀ (s : State) (k : Nat) (c : Cluster), (s.setCluster k c).cores = s.cores := fun _ _ _ => rfl
@[simp] theorem State.setCluster_log : ∀ (s : State) (k : Nat) (c : Cluster), (s.setCluster k c).log = s.log := fun _ _ _ => rfl
@[simp] theorem State.setCluster_pres : ∀ (s : State) (k : Nat) (c : Cluster), (s.setCluster k c).pres = s.pres := fun _ _ _ => rfl
@[simp] theorem State.setCluster_stepping : ∀ (s : State) (k : Nat) (c : Cluster), (s.setCluster k c).stepping = s.stepping := fun _ _ _ => rfl
@[simp] theorem State.setCluster_moduleNum : ∀ (s : State) (k : Nat) (c : Cluster), (s.setCluster k c).moduleNum = s.moduleNum := fun _ _ _ => rfl
@[simp] theorem State.setCluster_chan : ∀ (s : State) (k : Nat) (c : Cluster), (s.setCluster k c).chan = s.chan := fun _ _ _ => rfl
@[simp] theorem State.setCluster_contexts : ∀ (s : State) (k : Nat) (c : Cluster), (s.setCluster k c).contexts = s.contexts := fun _ _ _ => rfl
@[simp] theorem State.setCluster_dev : ∀ (s : State) (k : Nat) (c : Cluster), (s.setCluster k c).dev = s.dev := fun _ _ _ => rfl
@[simp] theorem State.setCluster_host : ∀ (s : State) (k : Nat) (c : Cluster), (s.setCluster k c).host = s.host := fun _ _ _ => rfl
@[simp] theorem State.setCluster_peer : ∀ (s : State) (k : Nat) (c : Cluster), (s.setCluster k c).peer = s.peer := fun _ _ _ => rfl
@[simp] theorem State.setCluster_hash : ∀ (s : State) (k : Nat) (c : Cluster), (s.setCluster k c).hash = s.hash := fun _ _ _ => rfl
@[simp] theorem State.setCluster_faults : ∀ (s : State) (k : Nat) (c : Cluster), (s.setCluster k c).faults = s.faults := fun _ _ _ => rfl
@[simp] theorem State.setCluster_invs : ∀ (s : State) (k : Nat) (c : Cluster), (s.setCluster k c).invs = s.invs := fun _ _ _ => rfl
@[simp] theorem State.setCluster_migrations : ∀ (s : State) (k : Nat) (c : Cluster), (s.setCluster k c).migrations = s.migrations := fun _ _ _ => rfl
@[simp] theorem State.setCluster_monitors : ∀ (s : State) (k : Nat) (c : Cluster), (s.setCluster k c).monitors = s.monitors := fun _ _ _ => rfl
@[simp] theorem State.setCluster_nextOp : ∀ (s : State) (k : Nat) (c : Cluster), (s.setCluster k c).nextOp = s.nextOp := fun _ _ _ => rfl
@[simp] theorem State.setCluster_cxlUp : ∀ (s : State) (k : Nat) (c : Cluster), (s.setCluster k c).cxlUp = s.cxlUp := fun _ _ _ => rfl
@[simp] theorem State.setCluster_cxlSecure : ∀ (s : State) (k : Nat) (c : Cluster), (s.setCluster k c).cxlSecure = s.cxlSecure := fun _ _ _ => rfl
@[simp] theorem State.setCluster_cxlSince : ∀ (s : State) (k : Nat) (c : Cluster), (s.setCluster k c).cxlSince = s.cxlSince := fun _ _ _ => rfl
@[simp] theorem State.setCluster_lostPeers : ∀ (s : State) (k : Nat) (c : Cluster), (s.setCluster k c).lostPeers = s.lostPeers := fun _ _ _ => rfl
@[simp] theorem State.setCluster_teams : ∀ (s : State) (k : Nat) (c : Cluster), (s.setCluster k c).teams = s.teams := fun _ _ _ => rfl
@[simp] theorem State.setCluster_insts : ∀ (s : State) (k : Nat) (c : Cluster), (s.setCluster k c).insts = s.insts := fun _ _ _ => rfl
@[simp] theorem State.setCluster_units : ∀ (s : State) (k : Nat) (c : Cluster), (s.setCluster k c).units = s.units := fun _ _ _ => rfl
@[simp] theorem State.setCluster_reservations : ∀ (s : State) (k : Nat) (c : Cluster), (s.setCluster k c).reservations = s.reservations := fun _ _ _ => rfl
@[simp] theorem State.setCluster_queues : ∀ (s : State) (k : Nat) (c : Cluster), (s.setCluster k c).queues = s.queues := fun _ _ _ => rfl
@[simp] theorem State.setCluster_recWrites : ∀ (s : State) (k : Nat) (c : Cluster), (s.setCluster k c).recWrites = s.recWrites := fun _ _ _ => rfl
@[simp] theorem State.setCluster_replies : ∀ (s : State) (k : Nat) (c : Cluster), (s.setCluster k c).replies = s.replies := fun _ _ _ => rfl
@[simp] theorem State.setCluster_mbWait : ∀ (s : State) (k : Nat) (c : Cluster), (s.setCluster k c).mbWait = s.mbWait := fun _ _ _ => rfl
@[simp] theorem State.setCluster_keys : ∀ (s : State) (k : Nat) (c : Cluster), (s.setCluster k c).keys = s.keys := fun _ _ _ => rfl
@[simp] theorem State.setCluster_measure : ∀ (s : State) (k : Nat) (c : Cluster), (s.setCluster k c).measure = s.measure := fun _ _ _ => rfl
@[simp] theorem State.setCluster_idSigs : ∀ (s : State) (k : Nat) (c : Cluster), (s.setCluster k c).idSigs = s.idSigs := fun _ _ _ => rfl
@[simp] theorem State.setCluster_fenced : ∀ (s : State) (k : Nat) (c : Cluster), (s.setCluster k c).fenced = s.fenced := fun _ _ _ => rfl
@[simp] theorem State.setCluster_wsets : ∀ (s : State) (k : Nat) (c : Cluster), (s.setCluster k c).wsets = s.wsets := fun _ _ _ => rfl
@[simp] theorem State.setCluster_modLimit : ∀ (s : State) (k : Nat) (c : Cluster), (s.setCluster k c).modLimit = s.modLimit := fun _ _ _ => rfl
@[simp] theorem State.setCluster_windows : ∀ (s : State) (k : Nat) (c : Cluster), (s.setCluster k c).windows = s.windows := fun _ _ _ => rfl
@[simp] theorem State.setCluster_ports : ∀ (s : State) (k : Nat) (c : Cluster), (s.setCluster k c).ports = s.ports := fun _ _ _ => rfl
@[simp] theorem State.setCluster_beats : ∀ (s : State) (k : Nat) (c : Cluster), (s.setCluster k c).beats = s.beats := fun _ _ _ => rfl
@[simp] theorem State.setCluster_buckets : ∀ (s : State) (k : Nat) (c : Cluster), (s.setCluster k c).buckets = s.buckets := fun _ _ _ => rfl
@[simp] theorem State.setCluster_katDue : ∀ (s : State) (k : Nat) (c : Cluster), (s.setCluster k c).katDue = s.katDue := fun _ _ _ => rfl
@[simp] theorem State.setCluster_retireDue : ∀ (s : State) (k : Nat) (c : Cluster), (s.setCluster k c).retireDue = s.retireDue := fun _ _ _ => rfl
@[simp] theorem State.setCluster_unitDue : ∀ (s : State) (k : Nat) (c : Cluster), (s.setCluster k c).unitDue = s.unitDue := fun _ _ _ => rfl
@[simp] theorem State.setCluster_hold : ∀ (s : State) (k : Nat) (c : Cluster), (s.setCluster k c).hold = s.hold := fun _ _ _ => rfl
@[simp] theorem State.setCluster_ckpt : ∀ (s : State) (k : Nat) (c : Cluster), (s.setCluster k c).ckpt = s.ckpt := fun _ _ _ => rfl
@[simp] theorem State.setCluster_restoring : ∀ (s : State) (k : Nat) (c : Cluster), (s.setCluster k c).restoring = s.restoring := fun _ _ _ => rfl
@[simp] theorem State.setCluster_late : ∀ (s : State) (k : Nat) (c : Cluster), (s.setCluster k c).late = s.late := fun _ _ _ => rfl
@[simp] theorem State.setCluster_nodes : ∀ (s : State) (k : Nat) (c : Cluster), (s.setCluster k c).nodes = s.nodes := fun _ _ _ => rfl
@[simp] theorem State.setCluster_snoop : ∀ (s : State) (k : Nat) (c : Cluster), (s.setCluster k c).snoop = s.snoop := fun _ _ _ => rfl
@[simp] theorem State.setCluster_hostLines : ∀ (s : State) (k : Nat) (c : Cluster), (s.setCluster k c).hostLines = s.hostLines := fun _ _ _ => rfl
@[simp] theorem State.setCluster_fetchLast : ∀ (s : State) (k : Nat) (c : Cluster), (s.setCluster k c).fetchLast = s.fetchLast := fun _ _ _ => rfl
@[simp] theorem State.setCluster_energy : ∀ (s : State) (k : Nat) (c : Cluster), (s.setCluster k c).energy = s.energy := fun _ _ _ => rfl
@[simp] theorem State.setCluster_power1ms : ∀ (s : State) (k : Nat) (c : Cluster), (s.setCluster k c).power1ms = s.power1ms := fun _ _ _ => rfl
@[simp] theorem State.setCluster_energyMark : ∀ (s : State) (k : Nat) (c : Cluster), (s.setCluster k c).energyMark = s.energyMark := fun _ _ _ => rfl
@[simp] theorem State.setCluster_marks : ∀ (s : State) (k : Nat) (c : Cluster), (s.setCluster k c).marks = s.marks := fun _ _ _ => rfl
@[simp] theorem State.setCluster_spared : ∀ (s : State) (k : Nat) (c : Cluster), (s.setCluster k c).spared = s.spared := fun _ _ _ => rfl
@[simp] theorem State.setCluster_endings : ∀ (s : State) (k : Nat) (c : Cluster), (s.setCluster k c).endings = s.endings := fun _ _ _ => rfl
@[simp] theorem State.setCluster_past : ∀ (s : State) (k : Nat) (c : Cluster), (s.setCluster k c).past = s.past := fun _ _ _ => rfl
@[simp] theorem State.setCluster_kats : ∀ (s : State) (k : Nat) (c : Cluster), (s.setCluster k c).kats = s.kats := fun _ _ _ => rfl
@[simp] theorem State.setCluster_answered : ∀ (s : State) (k : Nat) (c : Cluster), (s.setCluster k c).answered = s.answered := fun _ _ _ => rfl
@[simp] theorem State.updCluster_tick : ∀ (s : State) (k : Nat) (f : Cluster → Cluster), (s.updCluster k f).tick = s.tick := fun _ _ _ => rfl
@[simp] theorem State.updCluster_rtick : ∀ (s : State) (k : Nat) (f : Cluster → Cluster), (s.updCluster k f).rtick = s.rtick := fun _ _ _ => rfl
@[simp] theorem State.updCluster_instant : ∀ (s : State) (k : Nat) (f : Cluster → Cluster), (s.updCluster k f).instant = s.instant := fun _ _ _ => rfl
@[simp] theorem State.updCluster_rsub : ∀ (s : State) (k : Nat) (f : Cluster → Cluster), (s.updCluster k f).rsub = s.rsub := fun _ _ _ => rfl
@[simp] theorem State.updCluster_power : ∀ (s : State) (k : Nat) (f : Cluster → Cluster), (s.updCluster k f).power = s.power := fun _ _ _ => rfl
@[simp] theorem State.updCluster_agenda : ∀ (s : State) (k : Nat) (f : Cluster → Cluster), (s.updCluster k f).agenda = s.agenda := fun _ _ _ => rfl
@[simp] theorem State.updCluster_inputs : ∀ (s : State) (k : Nat) (f : Cluster → Cluster), (s.updCluster k f).inputs = s.inputs := fun _ _ _ => rfl
@[simp] theorem State.updCluster_issue : ∀ (s : State) (k : Nat) (f : Cluster → Cluster), (s.updCluster k f).issue = s.issue := fun _ _ _ => rfl
@[simp] theorem State.updCluster_freeCtr : ∀ (s : State) (k : Nat) (f : Cluster → Cluster), (s.updCluster k f).freeCtr = s.freeCtr := fun _ _ _ => rfl
@[simp] theorem State.updCluster_cores : ∀ (s : State) (k : Nat) (f : Cluster → Cluster), (s.updCluster k f).cores = s.cores := fun _ _ _ => rfl
@[simp] theorem State.updCluster_log : ∀ (s : State) (k : Nat) (f : Cluster → Cluster), (s.updCluster k f).log = s.log := fun _ _ _ => rfl
@[simp] theorem State.updCluster_pres : ∀ (s : State) (k : Nat) (f : Cluster → Cluster), (s.updCluster k f).pres = s.pres := fun _ _ _ => rfl
@[simp] theorem State.updCluster_stepping : ∀ (s : State) (k : Nat) (f : Cluster → Cluster), (s.updCluster k f).stepping = s.stepping := fun _ _ _ => rfl
@[simp] theorem State.updCluster_moduleNum : ∀ (s : State) (k : Nat) (f : Cluster → Cluster), (s.updCluster k f).moduleNum = s.moduleNum := fun _ _ _ => rfl
@[simp] theorem State.updCluster_chan : ∀ (s : State) (k : Nat) (f : Cluster → Cluster), (s.updCluster k f).chan = s.chan := fun _ _ _ => rfl
@[simp] theorem State.updCluster_contexts : ∀ (s : State) (k : Nat) (f : Cluster → Cluster), (s.updCluster k f).contexts = s.contexts := fun _ _ _ => rfl
@[simp] theorem State.updCluster_dev : ∀ (s : State) (k : Nat) (f : Cluster → Cluster), (s.updCluster k f).dev = s.dev := fun _ _ _ => rfl
@[simp] theorem State.updCluster_host : ∀ (s : State) (k : Nat) (f : Cluster → Cluster), (s.updCluster k f).host = s.host := fun _ _ _ => rfl
@[simp] theorem State.updCluster_peer : ∀ (s : State) (k : Nat) (f : Cluster → Cluster), (s.updCluster k f).peer = s.peer := fun _ _ _ => rfl
@[simp] theorem State.updCluster_hash : ∀ (s : State) (k : Nat) (f : Cluster → Cluster), (s.updCluster k f).hash = s.hash := fun _ _ _ => rfl
@[simp] theorem State.updCluster_faults : ∀ (s : State) (k : Nat) (f : Cluster → Cluster), (s.updCluster k f).faults = s.faults := fun _ _ _ => rfl
@[simp] theorem State.updCluster_invs : ∀ (s : State) (k : Nat) (f : Cluster → Cluster), (s.updCluster k f).invs = s.invs := fun _ _ _ => rfl
@[simp] theorem State.updCluster_migrations : ∀ (s : State) (k : Nat) (f : Cluster → Cluster), (s.updCluster k f).migrations = s.migrations := fun _ _ _ => rfl
@[simp] theorem State.updCluster_monitors : ∀ (s : State) (k : Nat) (f : Cluster → Cluster), (s.updCluster k f).monitors = s.monitors := fun _ _ _ => rfl
@[simp] theorem State.updCluster_nextOp : ∀ (s : State) (k : Nat) (f : Cluster → Cluster), (s.updCluster k f).nextOp = s.nextOp := fun _ _ _ => rfl
@[simp] theorem State.updCluster_cxlUp : ∀ (s : State) (k : Nat) (f : Cluster → Cluster), (s.updCluster k f).cxlUp = s.cxlUp := fun _ _ _ => rfl
@[simp] theorem State.updCluster_cxlSecure : ∀ (s : State) (k : Nat) (f : Cluster → Cluster), (s.updCluster k f).cxlSecure = s.cxlSecure := fun _ _ _ => rfl
@[simp] theorem State.updCluster_cxlSince : ∀ (s : State) (k : Nat) (f : Cluster → Cluster), (s.updCluster k f).cxlSince = s.cxlSince := fun _ _ _ => rfl
@[simp] theorem State.updCluster_lostPeers : ∀ (s : State) (k : Nat) (f : Cluster → Cluster), (s.updCluster k f).lostPeers = s.lostPeers := fun _ _ _ => rfl
@[simp] theorem State.updCluster_teams : ∀ (s : State) (k : Nat) (f : Cluster → Cluster), (s.updCluster k f).teams = s.teams := fun _ _ _ => rfl
@[simp] theorem State.updCluster_insts : ∀ (s : State) (k : Nat) (f : Cluster → Cluster), (s.updCluster k f).insts = s.insts := fun _ _ _ => rfl
@[simp] theorem State.updCluster_units : ∀ (s : State) (k : Nat) (f : Cluster → Cluster), (s.updCluster k f).units = s.units := fun _ _ _ => rfl
@[simp] theorem State.updCluster_reservations : ∀ (s : State) (k : Nat) (f : Cluster → Cluster), (s.updCluster k f).reservations = s.reservations := fun _ _ _ => rfl
@[simp] theorem State.updCluster_queues : ∀ (s : State) (k : Nat) (f : Cluster → Cluster), (s.updCluster k f).queues = s.queues := fun _ _ _ => rfl
@[simp] theorem State.updCluster_recWrites : ∀ (s : State) (k : Nat) (f : Cluster → Cluster), (s.updCluster k f).recWrites = s.recWrites := fun _ _ _ => rfl
@[simp] theorem State.updCluster_replies : ∀ (s : State) (k : Nat) (f : Cluster → Cluster), (s.updCluster k f).replies = s.replies := fun _ _ _ => rfl
@[simp] theorem State.updCluster_mbWait : ∀ (s : State) (k : Nat) (f : Cluster → Cluster), (s.updCluster k f).mbWait = s.mbWait := fun _ _ _ => rfl
@[simp] theorem State.updCluster_keys : ∀ (s : State) (k : Nat) (f : Cluster → Cluster), (s.updCluster k f).keys = s.keys := fun _ _ _ => rfl
@[simp] theorem State.updCluster_measure : ∀ (s : State) (k : Nat) (f : Cluster → Cluster), (s.updCluster k f).measure = s.measure := fun _ _ _ => rfl
@[simp] theorem State.updCluster_idSigs : ∀ (s : State) (k : Nat) (f : Cluster → Cluster), (s.updCluster k f).idSigs = s.idSigs := fun _ _ _ => rfl
@[simp] theorem State.updCluster_fenced : ∀ (s : State) (k : Nat) (f : Cluster → Cluster), (s.updCluster k f).fenced = s.fenced := fun _ _ _ => rfl
@[simp] theorem State.updCluster_wsets : ∀ (s : State) (k : Nat) (f : Cluster → Cluster), (s.updCluster k f).wsets = s.wsets := fun _ _ _ => rfl
@[simp] theorem State.updCluster_modLimit : ∀ (s : State) (k : Nat) (f : Cluster → Cluster), (s.updCluster k f).modLimit = s.modLimit := fun _ _ _ => rfl
@[simp] theorem State.updCluster_windows : ∀ (s : State) (k : Nat) (f : Cluster → Cluster), (s.updCluster k f).windows = s.windows := fun _ _ _ => rfl
@[simp] theorem State.updCluster_ports : ∀ (s : State) (k : Nat) (f : Cluster → Cluster), (s.updCluster k f).ports = s.ports := fun _ _ _ => rfl
@[simp] theorem State.updCluster_beats : ∀ (s : State) (k : Nat) (f : Cluster → Cluster), (s.updCluster k f).beats = s.beats := fun _ _ _ => rfl
@[simp] theorem State.updCluster_buckets : ∀ (s : State) (k : Nat) (f : Cluster → Cluster), (s.updCluster k f).buckets = s.buckets := fun _ _ _ => rfl
@[simp] theorem State.updCluster_katDue : ∀ (s : State) (k : Nat) (f : Cluster → Cluster), (s.updCluster k f).katDue = s.katDue := fun _ _ _ => rfl
@[simp] theorem State.updCluster_retireDue : ∀ (s : State) (k : Nat) (f : Cluster → Cluster), (s.updCluster k f).retireDue = s.retireDue := fun _ _ _ => rfl
@[simp] theorem State.updCluster_unitDue : ∀ (s : State) (k : Nat) (f : Cluster → Cluster), (s.updCluster k f).unitDue = s.unitDue := fun _ _ _ => rfl
@[simp] theorem State.updCluster_hold : ∀ (s : State) (k : Nat) (f : Cluster → Cluster), (s.updCluster k f).hold = s.hold := fun _ _ _ => rfl
@[simp] theorem State.updCluster_ckpt : ∀ (s : State) (k : Nat) (f : Cluster → Cluster), (s.updCluster k f).ckpt = s.ckpt := fun _ _ _ => rfl
@[simp] theorem State.updCluster_restoring : ∀ (s : State) (k : Nat) (f : Cluster → Cluster), (s.updCluster k f).restoring = s.restoring := fun _ _ _ => rfl
@[simp] theorem State.updCluster_late : ∀ (s : State) (k : Nat) (f : Cluster → Cluster), (s.updCluster k f).late = s.late := fun _ _ _ => rfl
@[simp] theorem State.updCluster_nodes : ∀ (s : State) (k : Nat) (f : Cluster → Cluster), (s.updCluster k f).nodes = s.nodes := fun _ _ _ => rfl
@[simp] theorem State.updCluster_snoop : ∀ (s : State) (k : Nat) (f : Cluster → Cluster), (s.updCluster k f).snoop = s.snoop := fun _ _ _ => rfl
@[simp] theorem State.updCluster_hostLines : ∀ (s : State) (k : Nat) (f : Cluster → Cluster), (s.updCluster k f).hostLines = s.hostLines := fun _ _ _ => rfl
@[simp] theorem State.updCluster_fetchLast : ∀ (s : State) (k : Nat) (f : Cluster → Cluster), (s.updCluster k f).fetchLast = s.fetchLast := fun _ _ _ => rfl
@[simp] theorem State.updCluster_energy : ∀ (s : State) (k : Nat) (f : Cluster → Cluster), (s.updCluster k f).energy = s.energy := fun _ _ _ => rfl
@[simp] theorem State.updCluster_power1ms : ∀ (s : State) (k : Nat) (f : Cluster → Cluster), (s.updCluster k f).power1ms = s.power1ms := fun _ _ _ => rfl
@[simp] theorem State.updCluster_energyMark : ∀ (s : State) (k : Nat) (f : Cluster → Cluster), (s.updCluster k f).energyMark = s.energyMark := fun _ _ _ => rfl
@[simp] theorem State.updCluster_marks : ∀ (s : State) (k : Nat) (f : Cluster → Cluster), (s.updCluster k f).marks = s.marks := fun _ _ _ => rfl
@[simp] theorem State.updCluster_spared : ∀ (s : State) (k : Nat) (f : Cluster → Cluster), (s.updCluster k f).spared = s.spared := fun _ _ _ => rfl
@[simp] theorem State.updCluster_endings : ∀ (s : State) (k : Nat) (f : Cluster → Cluster), (s.updCluster k f).endings = s.endings := fun _ _ _ => rfl
@[simp] theorem State.updCluster_past : ∀ (s : State) (k : Nat) (f : Cluster → Cluster), (s.updCluster k f).past = s.past := fun _ _ _ => rfl
@[simp] theorem State.updCluster_kats : ∀ (s : State) (k : Nat) (f : Cluster → Cluster), (s.updCluster k f).kats = s.kats := fun _ _ _ => rfl
@[simp] theorem State.updCluster_answered : ∀ (s : State) (k : Nat) (f : Cluster → Cluster), (s.updCluster k f).answered = s.answered := fun _ _ _ => rfl
@[simp] theorem State.push_tick : ∀ (s : State) (i : Instr), (s.push i).tick = s.tick := fun _ _ => rfl
@[simp] theorem State.push_rtick : ∀ (s : State) (i : Instr), (s.push i).rtick = s.rtick := fun _ _ => rfl
@[simp] theorem State.push_instant : ∀ (s : State) (i : Instr), (s.push i).instant = s.instant := fun _ _ => rfl
@[simp] theorem State.push_rsub : ∀ (s : State) (i : Instr), (s.push i).rsub = s.rsub := fun _ _ => rfl
@[simp] theorem State.push_power : ∀ (s : State) (i : Instr), (s.push i).power = s.power := fun _ _ => rfl
@[simp] theorem State.push_inputs : ∀ (s : State) (i : Instr), (s.push i).inputs = s.inputs := fun _ _ => rfl
@[simp] theorem State.push_issue : ∀ (s : State) (i : Instr), (s.push i).issue = s.issue := fun _ _ => rfl
@[simp] theorem State.push_freeCtr : ∀ (s : State) (i : Instr), (s.push i).freeCtr = s.freeCtr := fun _ _ => rfl
@[simp] theorem State.push_cores : ∀ (s : State) (i : Instr), (s.push i).cores = s.cores := fun _ _ => rfl
@[simp] theorem State.push_clusters : ∀ (s : State) (i : Instr), (s.push i).clusters = s.clusters := fun _ _ => rfl
@[simp] theorem State.push_log : ∀ (s : State) (i : Instr), (s.push i).log = s.log := fun _ _ => rfl
@[simp] theorem State.push_pres : ∀ (s : State) (i : Instr), (s.push i).pres = s.pres := fun _ _ => rfl
@[simp] theorem State.push_stepping : ∀ (s : State) (i : Instr), (s.push i).stepping = s.stepping := fun _ _ => rfl
@[simp] theorem State.push_moduleNum : ∀ (s : State) (i : Instr), (s.push i).moduleNum = s.moduleNum := fun _ _ => rfl
@[simp] theorem State.push_chan : ∀ (s : State) (i : Instr), (s.push i).chan = s.chan := fun _ _ => rfl
@[simp] theorem State.push_contexts : ∀ (s : State) (i : Instr), (s.push i).contexts = s.contexts := fun _ _ => rfl
@[simp] theorem State.push_dev : ∀ (s : State) (i : Instr), (s.push i).dev = s.dev := fun _ _ => rfl
@[simp] theorem State.push_host : ∀ (s : State) (i : Instr), (s.push i).host = s.host := fun _ _ => rfl
@[simp] theorem State.push_peer : ∀ (s : State) (i : Instr), (s.push i).peer = s.peer := fun _ _ => rfl
@[simp] theorem State.push_hash : ∀ (s : State) (i : Instr), (s.push i).hash = s.hash := fun _ _ => rfl
@[simp] theorem State.push_faults : ∀ (s : State) (i : Instr), (s.push i).faults = s.faults := fun _ _ => rfl
@[simp] theorem State.push_invs : ∀ (s : State) (i : Instr), (s.push i).invs = s.invs := fun _ _ => rfl
@[simp] theorem State.push_migrations : ∀ (s : State) (i : Instr), (s.push i).migrations = s.migrations := fun _ _ => rfl
@[simp] theorem State.push_monitors : ∀ (s : State) (i : Instr), (s.push i).monitors = s.monitors := fun _ _ => rfl
@[simp] theorem State.push_nextOp : ∀ (s : State) (i : Instr), (s.push i).nextOp = s.nextOp := fun _ _ => rfl
@[simp] theorem State.push_cxlUp : ∀ (s : State) (i : Instr), (s.push i).cxlUp = s.cxlUp := fun _ _ => rfl
@[simp] theorem State.push_cxlSecure : ∀ (s : State) (i : Instr), (s.push i).cxlSecure = s.cxlSecure := fun _ _ => rfl
@[simp] theorem State.push_cxlSince : ∀ (s : State) (i : Instr), (s.push i).cxlSince = s.cxlSince := fun _ _ => rfl
@[simp] theorem State.push_lostPeers : ∀ (s : State) (i : Instr), (s.push i).lostPeers = s.lostPeers := fun _ _ => rfl
@[simp] theorem State.push_teams : ∀ (s : State) (i : Instr), (s.push i).teams = s.teams := fun _ _ => rfl
@[simp] theorem State.push_insts : ∀ (s : State) (i : Instr), (s.push i).insts = s.insts := fun _ _ => rfl
@[simp] theorem State.push_units : ∀ (s : State) (i : Instr), (s.push i).units = s.units := fun _ _ => rfl
@[simp] theorem State.push_reservations : ∀ (s : State) (i : Instr), (s.push i).reservations = s.reservations := fun _ _ => rfl
@[simp] theorem State.push_queues : ∀ (s : State) (i : Instr), (s.push i).queues = s.queues := fun _ _ => rfl
@[simp] theorem State.push_recWrites : ∀ (s : State) (i : Instr), (s.push i).recWrites = s.recWrites := fun _ _ => rfl
@[simp] theorem State.push_replies : ∀ (s : State) (i : Instr), (s.push i).replies = s.replies := fun _ _ => rfl
@[simp] theorem State.push_mbWait : ∀ (s : State) (i : Instr), (s.push i).mbWait = s.mbWait := fun _ _ => rfl
@[simp] theorem State.push_keys : ∀ (s : State) (i : Instr), (s.push i).keys = s.keys := fun _ _ => rfl
@[simp] theorem State.push_measure : ∀ (s : State) (i : Instr), (s.push i).measure = s.measure := fun _ _ => rfl
@[simp] theorem State.push_idSigs : ∀ (s : State) (i : Instr), (s.push i).idSigs = s.idSigs := fun _ _ => rfl
@[simp] theorem State.push_fenced : ∀ (s : State) (i : Instr), (s.push i).fenced = s.fenced := fun _ _ => rfl
@[simp] theorem State.push_wsets : ∀ (s : State) (i : Instr), (s.push i).wsets = s.wsets := fun _ _ => rfl
@[simp] theorem State.push_modLimit : ∀ (s : State) (i : Instr), (s.push i).modLimit = s.modLimit := fun _ _ => rfl
@[simp] theorem State.push_windows : ∀ (s : State) (i : Instr), (s.push i).windows = s.windows := fun _ _ => rfl
@[simp] theorem State.push_ports : ∀ (s : State) (i : Instr), (s.push i).ports = s.ports := fun _ _ => rfl
@[simp] theorem State.push_beats : ∀ (s : State) (i : Instr), (s.push i).beats = s.beats := fun _ _ => rfl
@[simp] theorem State.push_buckets : ∀ (s : State) (i : Instr), (s.push i).buckets = s.buckets := fun _ _ => rfl
@[simp] theorem State.push_katDue : ∀ (s : State) (i : Instr), (s.push i).katDue = s.katDue := fun _ _ => rfl
@[simp] theorem State.push_retireDue : ∀ (s : State) (i : Instr), (s.push i).retireDue = s.retireDue := fun _ _ => rfl
@[simp] theorem State.push_unitDue : ∀ (s : State) (i : Instr), (s.push i).unitDue = s.unitDue := fun _ _ => rfl
@[simp] theorem State.push_hold : ∀ (s : State) (i : Instr), (s.push i).hold = s.hold := fun _ _ => rfl
@[simp] theorem State.push_ckpt : ∀ (s : State) (i : Instr), (s.push i).ckpt = s.ckpt := fun _ _ => rfl
@[simp] theorem State.push_restoring : ∀ (s : State) (i : Instr), (s.push i).restoring = s.restoring := fun _ _ => rfl
@[simp] theorem State.push_late : ∀ (s : State) (i : Instr), (s.push i).late = s.late := fun _ _ => rfl
@[simp] theorem State.push_nodes : ∀ (s : State) (i : Instr), (s.push i).nodes = s.nodes := fun _ _ => rfl
@[simp] theorem State.push_snoop : ∀ (s : State) (i : Instr), (s.push i).snoop = s.snoop := fun _ _ => rfl
@[simp] theorem State.push_hostLines : ∀ (s : State) (i : Instr), (s.push i).hostLines = s.hostLines := fun _ _ => rfl
@[simp] theorem State.push_fetchLast : ∀ (s : State) (i : Instr), (s.push i).fetchLast = s.fetchLast := fun _ _ => rfl
@[simp] theorem State.push_energy : ∀ (s : State) (i : Instr), (s.push i).energy = s.energy := fun _ _ => rfl
@[simp] theorem State.push_power1ms : ∀ (s : State) (i : Instr), (s.push i).power1ms = s.power1ms := fun _ _ => rfl
@[simp] theorem State.push_energyMark : ∀ (s : State) (i : Instr), (s.push i).energyMark = s.energyMark := fun _ _ => rfl
@[simp] theorem State.push_marks : ∀ (s : State) (i : Instr), (s.push i).marks = s.marks := fun _ _ => rfl
@[simp] theorem State.push_spared : ∀ (s : State) (i : Instr), (s.push i).spared = s.spared := fun _ _ => rfl
@[simp] theorem State.push_endings : ∀ (s : State) (i : Instr), (s.push i).endings = s.endings := fun _ _ => rfl
@[simp] theorem State.push_past : ∀ (s : State) (i : Instr), (s.push i).past = s.past := fun _ _ => rfl
@[simp] theorem State.push_kats : ∀ (s : State) (i : Instr), (s.push i).kats = s.kats := fun _ _ => rfl
@[simp] theorem State.push_answered : ∀ (s : State) (i : Instr), (s.push i).answered = s.answered := fun _ _ => rfl
@[simp] theorem State.setQueue_tick : ∀ (s : State) (q : Nat) (x : Queue), (s.setQueue q x).tick = s.tick := fun _ _ _ => rfl
@[simp] theorem State.setQueue_rtick : ∀ (s : State) (q : Nat) (x : Queue), (s.setQueue q x).rtick = s.rtick := fun _ _ _ => rfl
@[simp] theorem State.setQueue_instant : ∀ (s : State) (q : Nat) (x : Queue), (s.setQueue q x).instant = s.instant := fun _ _ _ => rfl
@[simp] theorem State.setQueue_rsub : ∀ (s : State) (q : Nat) (x : Queue), (s.setQueue q x).rsub = s.rsub := fun _ _ _ => rfl
@[simp] theorem State.setQueue_power : ∀ (s : State) (q : Nat) (x : Queue), (s.setQueue q x).power = s.power := fun _ _ _ => rfl
@[simp] theorem State.setQueue_agenda : ∀ (s : State) (q : Nat) (x : Queue), (s.setQueue q x).agenda = s.agenda := fun _ _ _ => rfl
@[simp] theorem State.setQueue_inputs : ∀ (s : State) (q : Nat) (x : Queue), (s.setQueue q x).inputs = s.inputs := fun _ _ _ => rfl
@[simp] theorem State.setQueue_issue : ∀ (s : State) (q : Nat) (x : Queue), (s.setQueue q x).issue = s.issue := fun _ _ _ => rfl
@[simp] theorem State.setQueue_freeCtr : ∀ (s : State) (q : Nat) (x : Queue), (s.setQueue q x).freeCtr = s.freeCtr := fun _ _ _ => rfl
@[simp] theorem State.setQueue_cores : ∀ (s : State) (q : Nat) (x : Queue), (s.setQueue q x).cores = s.cores := fun _ _ _ => rfl
@[simp] theorem State.setQueue_clusters : ∀ (s : State) (q : Nat) (x : Queue), (s.setQueue q x).clusters = s.clusters := fun _ _ _ => rfl
@[simp] theorem State.setQueue_log : ∀ (s : State) (q : Nat) (x : Queue), (s.setQueue q x).log = s.log := fun _ _ _ => rfl
@[simp] theorem State.setQueue_pres : ∀ (s : State) (q : Nat) (x : Queue), (s.setQueue q x).pres = s.pres := fun _ _ _ => rfl
@[simp] theorem State.setQueue_stepping : ∀ (s : State) (q : Nat) (x : Queue), (s.setQueue q x).stepping = s.stepping := fun _ _ _ => rfl
@[simp] theorem State.setQueue_moduleNum : ∀ (s : State) (q : Nat) (x : Queue), (s.setQueue q x).moduleNum = s.moduleNum := fun _ _ _ => rfl
@[simp] theorem State.setQueue_chan : ∀ (s : State) (q : Nat) (x : Queue), (s.setQueue q x).chan = s.chan := fun _ _ _ => rfl
@[simp] theorem State.setQueue_contexts : ∀ (s : State) (q : Nat) (x : Queue), (s.setQueue q x).contexts = s.contexts := fun _ _ _ => rfl
@[simp] theorem State.setQueue_dev : ∀ (s : State) (q : Nat) (x : Queue), (s.setQueue q x).dev = s.dev := fun _ _ _ => rfl
@[simp] theorem State.setQueue_host : ∀ (s : State) (q : Nat) (x : Queue), (s.setQueue q x).host = s.host := fun _ _ _ => rfl
@[simp] theorem State.setQueue_peer : ∀ (s : State) (q : Nat) (x : Queue), (s.setQueue q x).peer = s.peer := fun _ _ _ => rfl
@[simp] theorem State.setQueue_hash : ∀ (s : State) (q : Nat) (x : Queue), (s.setQueue q x).hash = s.hash := fun _ _ _ => rfl
@[simp] theorem State.setQueue_faults : ∀ (s : State) (q : Nat) (x : Queue), (s.setQueue q x).faults = s.faults := fun _ _ _ => rfl
@[simp] theorem State.setQueue_invs : ∀ (s : State) (q : Nat) (x : Queue), (s.setQueue q x).invs = s.invs := fun _ _ _ => rfl
@[simp] theorem State.setQueue_migrations : ∀ (s : State) (q : Nat) (x : Queue), (s.setQueue q x).migrations = s.migrations := fun _ _ _ => rfl
@[simp] theorem State.setQueue_monitors : ∀ (s : State) (q : Nat) (x : Queue), (s.setQueue q x).monitors = s.monitors := fun _ _ _ => rfl
@[simp] theorem State.setQueue_nextOp : ∀ (s : State) (q : Nat) (x : Queue), (s.setQueue q x).nextOp = s.nextOp := fun _ _ _ => rfl
@[simp] theorem State.setQueue_cxlUp : ∀ (s : State) (q : Nat) (x : Queue), (s.setQueue q x).cxlUp = s.cxlUp := fun _ _ _ => rfl
@[simp] theorem State.setQueue_cxlSecure : ∀ (s : State) (q : Nat) (x : Queue), (s.setQueue q x).cxlSecure = s.cxlSecure := fun _ _ _ => rfl
@[simp] theorem State.setQueue_cxlSince : ∀ (s : State) (q : Nat) (x : Queue), (s.setQueue q x).cxlSince = s.cxlSince := fun _ _ _ => rfl
@[simp] theorem State.setQueue_lostPeers : ∀ (s : State) (q : Nat) (x : Queue), (s.setQueue q x).lostPeers = s.lostPeers := fun _ _ _ => rfl
@[simp] theorem State.setQueue_teams : ∀ (s : State) (q : Nat) (x : Queue), (s.setQueue q x).teams = s.teams := fun _ _ _ => rfl
@[simp] theorem State.setQueue_insts : ∀ (s : State) (q : Nat) (x : Queue), (s.setQueue q x).insts = s.insts := fun _ _ _ => rfl
@[simp] theorem State.setQueue_units : ∀ (s : State) (q : Nat) (x : Queue), (s.setQueue q x).units = s.units := fun _ _ _ => rfl
@[simp] theorem State.setQueue_reservations : ∀ (s : State) (q : Nat) (x : Queue), (s.setQueue q x).reservations = s.reservations := fun _ _ _ => rfl
@[simp] theorem State.setQueue_recWrites : ∀ (s : State) (q : Nat) (x : Queue), (s.setQueue q x).recWrites = s.recWrites := fun _ _ _ => rfl
@[simp] theorem State.setQueue_replies : ∀ (s : State) (q : Nat) (x : Queue), (s.setQueue q x).replies = s.replies := fun _ _ _ => rfl
@[simp] theorem State.setQueue_mbWait : ∀ (s : State) (q : Nat) (x : Queue), (s.setQueue q x).mbWait = s.mbWait := fun _ _ _ => rfl
@[simp] theorem State.setQueue_keys : ∀ (s : State) (q : Nat) (x : Queue), (s.setQueue q x).keys = s.keys := fun _ _ _ => rfl
@[simp] theorem State.setQueue_measure : ∀ (s : State) (q : Nat) (x : Queue), (s.setQueue q x).measure = s.measure := fun _ _ _ => rfl
@[simp] theorem State.setQueue_idSigs : ∀ (s : State) (q : Nat) (x : Queue), (s.setQueue q x).idSigs = s.idSigs := fun _ _ _ => rfl
@[simp] theorem State.setQueue_fenced : ∀ (s : State) (q : Nat) (x : Queue), (s.setQueue q x).fenced = s.fenced := fun _ _ _ => rfl
@[simp] theorem State.setQueue_wsets : ∀ (s : State) (q : Nat) (x : Queue), (s.setQueue q x).wsets = s.wsets := fun _ _ _ => rfl
@[simp] theorem State.setQueue_modLimit : ∀ (s : State) (q : Nat) (x : Queue), (s.setQueue q x).modLimit = s.modLimit := fun _ _ _ => rfl
@[simp] theorem State.setQueue_windows : ∀ (s : State) (q : Nat) (x : Queue), (s.setQueue q x).windows = s.windows := fun _ _ _ => rfl
@[simp] theorem State.setQueue_ports : ∀ (s : State) (q : Nat) (x : Queue), (s.setQueue q x).ports = s.ports := fun _ _ _ => rfl
@[simp] theorem State.setQueue_beats : ∀ (s : State) (q : Nat) (x : Queue), (s.setQueue q x).beats = s.beats := fun _ _ _ => rfl
@[simp] theorem State.setQueue_buckets : ∀ (s : State) (q : Nat) (x : Queue), (s.setQueue q x).buckets = s.buckets := fun _ _ _ => rfl
@[simp] theorem State.setQueue_katDue : ∀ (s : State) (q : Nat) (x : Queue), (s.setQueue q x).katDue = s.katDue := fun _ _ _ => rfl
@[simp] theorem State.setQueue_retireDue : ∀ (s : State) (q : Nat) (x : Queue), (s.setQueue q x).retireDue = s.retireDue := fun _ _ _ => rfl
@[simp] theorem State.setQueue_unitDue : ∀ (s : State) (q : Nat) (x : Queue), (s.setQueue q x).unitDue = s.unitDue := fun _ _ _ => rfl
@[simp] theorem State.setQueue_hold : ∀ (s : State) (q : Nat) (x : Queue), (s.setQueue q x).hold = s.hold := fun _ _ _ => rfl
@[simp] theorem State.setQueue_ckpt : ∀ (s : State) (q : Nat) (x : Queue), (s.setQueue q x).ckpt = s.ckpt := fun _ _ _ => rfl
@[simp] theorem State.setQueue_restoring : ∀ (s : State) (q : Nat) (x : Queue), (s.setQueue q x).restoring = s.restoring := fun _ _ _ => rfl
@[simp] theorem State.setQueue_late : ∀ (s : State) (q : Nat) (x : Queue), (s.setQueue q x).late = s.late := fun _ _ _ => rfl
@[simp] theorem State.setQueue_nodes : ∀ (s : State) (q : Nat) (x : Queue), (s.setQueue q x).nodes = s.nodes := fun _ _ _ => rfl
@[simp] theorem State.setQueue_snoop : ∀ (s : State) (q : Nat) (x : Queue), (s.setQueue q x).snoop = s.snoop := fun _ _ _ => rfl
@[simp] theorem State.setQueue_hostLines : ∀ (s : State) (q : Nat) (x : Queue), (s.setQueue q x).hostLines = s.hostLines := fun _ _ _ => rfl
@[simp] theorem State.setQueue_fetchLast : ∀ (s : State) (q : Nat) (x : Queue), (s.setQueue q x).fetchLast = s.fetchLast := fun _ _ _ => rfl
@[simp] theorem State.setQueue_energy : ∀ (s : State) (q : Nat) (x : Queue), (s.setQueue q x).energy = s.energy := fun _ _ _ => rfl
@[simp] theorem State.setQueue_power1ms : ∀ (s : State) (q : Nat) (x : Queue), (s.setQueue q x).power1ms = s.power1ms := fun _ _ _ => rfl
@[simp] theorem State.setQueue_energyMark : ∀ (s : State) (q : Nat) (x : Queue), (s.setQueue q x).energyMark = s.energyMark := fun _ _ _ => rfl
@[simp] theorem State.setQueue_marks : ∀ (s : State) (q : Nat) (x : Queue), (s.setQueue q x).marks = s.marks := fun _ _ _ => rfl
@[simp] theorem State.setQueue_spared : ∀ (s : State) (q : Nat) (x : Queue), (s.setQueue q x).spared = s.spared := fun _ _ _ => rfl
@[simp] theorem State.setQueue_endings : ∀ (s : State) (q : Nat) (x : Queue), (s.setQueue q x).endings = s.endings := fun _ _ _ => rfl
@[simp] theorem State.setQueue_past : ∀ (s : State) (q : Nat) (x : Queue), (s.setQueue q x).past = s.past := fun _ _ _ => rfl
@[simp] theorem State.setQueue_kats : ∀ (s : State) (q : Nat) (x : Queue), (s.setQueue q x).kats = s.kats := fun _ _ _ => rfl
@[simp] theorem State.setQueue_answered : ∀ (s : State) (q : Nat) (x : Queue), (s.setQueue q x).answered = s.answered := fun _ _ _ => rfl
@[simp] theorem State.updQueue_tick : ∀ (s : State) (q : Nat) (f : Queue → Queue), (s.updQueue q f).tick = s.tick := fun _ _ _ => rfl
@[simp] theorem State.updQueue_rtick : ∀ (s : State) (q : Nat) (f : Queue → Queue), (s.updQueue q f).rtick = s.rtick := fun _ _ _ => rfl
@[simp] theorem State.updQueue_instant : ∀ (s : State) (q : Nat) (f : Queue → Queue), (s.updQueue q f).instant = s.instant := fun _ _ _ => rfl
@[simp] theorem State.updQueue_rsub : ∀ (s : State) (q : Nat) (f : Queue → Queue), (s.updQueue q f).rsub = s.rsub := fun _ _ _ => rfl
@[simp] theorem State.updQueue_power : ∀ (s : State) (q : Nat) (f : Queue → Queue), (s.updQueue q f).power = s.power := fun _ _ _ => rfl
@[simp] theorem State.updQueue_agenda : ∀ (s : State) (q : Nat) (f : Queue → Queue), (s.updQueue q f).agenda = s.agenda := fun _ _ _ => rfl
@[simp] theorem State.updQueue_inputs : ∀ (s : State) (q : Nat) (f : Queue → Queue), (s.updQueue q f).inputs = s.inputs := fun _ _ _ => rfl
@[simp] theorem State.updQueue_issue : ∀ (s : State) (q : Nat) (f : Queue → Queue), (s.updQueue q f).issue = s.issue := fun _ _ _ => rfl
@[simp] theorem State.updQueue_freeCtr : ∀ (s : State) (q : Nat) (f : Queue → Queue), (s.updQueue q f).freeCtr = s.freeCtr := fun _ _ _ => rfl
@[simp] theorem State.updQueue_cores : ∀ (s : State) (q : Nat) (f : Queue → Queue), (s.updQueue q f).cores = s.cores := fun _ _ _ => rfl
@[simp] theorem State.updQueue_clusters : ∀ (s : State) (q : Nat) (f : Queue → Queue), (s.updQueue q f).clusters = s.clusters := fun _ _ _ => rfl
@[simp] theorem State.updQueue_log : ∀ (s : State) (q : Nat) (f : Queue → Queue), (s.updQueue q f).log = s.log := fun _ _ _ => rfl
@[simp] theorem State.updQueue_pres : ∀ (s : State) (q : Nat) (f : Queue → Queue), (s.updQueue q f).pres = s.pres := fun _ _ _ => rfl
@[simp] theorem State.updQueue_stepping : ∀ (s : State) (q : Nat) (f : Queue → Queue), (s.updQueue q f).stepping = s.stepping := fun _ _ _ => rfl
@[simp] theorem State.updQueue_moduleNum : ∀ (s : State) (q : Nat) (f : Queue → Queue), (s.updQueue q f).moduleNum = s.moduleNum := fun _ _ _ => rfl
@[simp] theorem State.updQueue_chan : ∀ (s : State) (q : Nat) (f : Queue → Queue), (s.updQueue q f).chan = s.chan := fun _ _ _ => rfl
@[simp] theorem State.updQueue_contexts : ∀ (s : State) (q : Nat) (f : Queue → Queue), (s.updQueue q f).contexts = s.contexts := fun _ _ _ => rfl
@[simp] theorem State.updQueue_dev : ∀ (s : State) (q : Nat) (f : Queue → Queue), (s.updQueue q f).dev = s.dev := fun _ _ _ => rfl
@[simp] theorem State.updQueue_host : ∀ (s : State) (q : Nat) (f : Queue → Queue), (s.updQueue q f).host = s.host := fun _ _ _ => rfl
@[simp] theorem State.updQueue_peer : ∀ (s : State) (q : Nat) (f : Queue → Queue), (s.updQueue q f).peer = s.peer := fun _ _ _ => rfl
@[simp] theorem State.updQueue_hash : ∀ (s : State) (q : Nat) (f : Queue → Queue), (s.updQueue q f).hash = s.hash := fun _ _ _ => rfl
@[simp] theorem State.updQueue_faults : ∀ (s : State) (q : Nat) (f : Queue → Queue), (s.updQueue q f).faults = s.faults := fun _ _ _ => rfl
@[simp] theorem State.updQueue_invs : ∀ (s : State) (q : Nat) (f : Queue → Queue), (s.updQueue q f).invs = s.invs := fun _ _ _ => rfl
@[simp] theorem State.updQueue_migrations : ∀ (s : State) (q : Nat) (f : Queue → Queue), (s.updQueue q f).migrations = s.migrations := fun _ _ _ => rfl
@[simp] theorem State.updQueue_monitors : ∀ (s : State) (q : Nat) (f : Queue → Queue), (s.updQueue q f).monitors = s.monitors := fun _ _ _ => rfl
@[simp] theorem State.updQueue_nextOp : ∀ (s : State) (q : Nat) (f : Queue → Queue), (s.updQueue q f).nextOp = s.nextOp := fun _ _ _ => rfl
@[simp] theorem State.updQueue_cxlUp : ∀ (s : State) (q : Nat) (f : Queue → Queue), (s.updQueue q f).cxlUp = s.cxlUp := fun _ _ _ => rfl
@[simp] theorem State.updQueue_cxlSecure : ∀ (s : State) (q : Nat) (f : Queue → Queue), (s.updQueue q f).cxlSecure = s.cxlSecure := fun _ _ _ => rfl
@[simp] theorem State.updQueue_cxlSince : ∀ (s : State) (q : Nat) (f : Queue → Queue), (s.updQueue q f).cxlSince = s.cxlSince := fun _ _ _ => rfl
@[simp] theorem State.updQueue_lostPeers : ∀ (s : State) (q : Nat) (f : Queue → Queue), (s.updQueue q f).lostPeers = s.lostPeers := fun _ _ _ => rfl
@[simp] theorem State.updQueue_teams : ∀ (s : State) (q : Nat) (f : Queue → Queue), (s.updQueue q f).teams = s.teams := fun _ _ _ => rfl
@[simp] theorem State.updQueue_insts : ∀ (s : State) (q : Nat) (f : Queue → Queue), (s.updQueue q f).insts = s.insts := fun _ _ _ => rfl
@[simp] theorem State.updQueue_units : ∀ (s : State) (q : Nat) (f : Queue → Queue), (s.updQueue q f).units = s.units := fun _ _ _ => rfl
@[simp] theorem State.updQueue_reservations : ∀ (s : State) (q : Nat) (f : Queue → Queue), (s.updQueue q f).reservations = s.reservations := fun _ _ _ => rfl
@[simp] theorem State.updQueue_recWrites : ∀ (s : State) (q : Nat) (f : Queue → Queue), (s.updQueue q f).recWrites = s.recWrites := fun _ _ _ => rfl
@[simp] theorem State.updQueue_replies : ∀ (s : State) (q : Nat) (f : Queue → Queue), (s.updQueue q f).replies = s.replies := fun _ _ _ => rfl
@[simp] theorem State.updQueue_mbWait : ∀ (s : State) (q : Nat) (f : Queue → Queue), (s.updQueue q f).mbWait = s.mbWait := fun _ _ _ => rfl
@[simp] theorem State.updQueue_keys : ∀ (s : State) (q : Nat) (f : Queue → Queue), (s.updQueue q f).keys = s.keys := fun _ _ _ => rfl
@[simp] theorem State.updQueue_measure : ∀ (s : State) (q : Nat) (f : Queue → Queue), (s.updQueue q f).measure = s.measure := fun _ _ _ => rfl
@[simp] theorem State.updQueue_idSigs : ∀ (s : State) (q : Nat) (f : Queue → Queue), (s.updQueue q f).idSigs = s.idSigs := fun _ _ _ => rfl
@[simp] theorem State.updQueue_fenced : ∀ (s : State) (q : Nat) (f : Queue → Queue), (s.updQueue q f).fenced = s.fenced := fun _ _ _ => rfl
@[simp] theorem State.updQueue_wsets : ∀ (s : State) (q : Nat) (f : Queue → Queue), (s.updQueue q f).wsets = s.wsets := fun _ _ _ => rfl
@[simp] theorem State.updQueue_modLimit : ∀ (s : State) (q : Nat) (f : Queue → Queue), (s.updQueue q f).modLimit = s.modLimit := fun _ _ _ => rfl
@[simp] theorem State.updQueue_windows : ∀ (s : State) (q : Nat) (f : Queue → Queue), (s.updQueue q f).windows = s.windows := fun _ _ _ => rfl
@[simp] theorem State.updQueue_ports : ∀ (s : State) (q : Nat) (f : Queue → Queue), (s.updQueue q f).ports = s.ports := fun _ _ _ => rfl
@[simp] theorem State.updQueue_beats : ∀ (s : State) (q : Nat) (f : Queue → Queue), (s.updQueue q f).beats = s.beats := fun _ _ _ => rfl
@[simp] theorem State.updQueue_buckets : ∀ (s : State) (q : Nat) (f : Queue → Queue), (s.updQueue q f).buckets = s.buckets := fun _ _ _ => rfl
@[simp] theorem State.updQueue_katDue : ∀ (s : State) (q : Nat) (f : Queue → Queue), (s.updQueue q f).katDue = s.katDue := fun _ _ _ => rfl
@[simp] theorem State.updQueue_retireDue : ∀ (s : State) (q : Nat) (f : Queue → Queue), (s.updQueue q f).retireDue = s.retireDue := fun _ _ _ => rfl
@[simp] theorem State.updQueue_unitDue : ∀ (s : State) (q : Nat) (f : Queue → Queue), (s.updQueue q f).unitDue = s.unitDue := fun _ _ _ => rfl
@[simp] theorem State.updQueue_hold : ∀ (s : State) (q : Nat) (f : Queue → Queue), (s.updQueue q f).hold = s.hold := fun _ _ _ => rfl
@[simp] theorem State.updQueue_ckpt : ∀ (s : State) (q : Nat) (f : Queue → Queue), (s.updQueue q f).ckpt = s.ckpt := fun _ _ _ => rfl
@[simp] theorem State.updQueue_restoring : ∀ (s : State) (q : Nat) (f : Queue → Queue), (s.updQueue q f).restoring = s.restoring := fun _ _ _ => rfl
@[simp] theorem State.updQueue_late : ∀ (s : State) (q : Nat) (f : Queue → Queue), (s.updQueue q f).late = s.late := fun _ _ _ => rfl
@[simp] theorem State.updQueue_nodes : ∀ (s : State) (q : Nat) (f : Queue → Queue), (s.updQueue q f).nodes = s.nodes := fun _ _ _ => rfl
@[simp] theorem State.updQueue_snoop : ∀ (s : State) (q : Nat) (f : Queue → Queue), (s.updQueue q f).snoop = s.snoop := fun _ _ _ => rfl
@[simp] theorem State.updQueue_hostLines : ∀ (s : State) (q : Nat) (f : Queue → Queue), (s.updQueue q f).hostLines = s.hostLines := fun _ _ _ => rfl
@[simp] theorem State.updQueue_fetchLast : ∀ (s : State) (q : Nat) (f : Queue → Queue), (s.updQueue q f).fetchLast = s.fetchLast := fun _ _ _ => rfl
@[simp] theorem State.updQueue_energy : ∀ (s : State) (q : Nat) (f : Queue → Queue), (s.updQueue q f).energy = s.energy := fun _ _ _ => rfl
@[simp] theorem State.updQueue_power1ms : ∀ (s : State) (q : Nat) (f : Queue → Queue), (s.updQueue q f).power1ms = s.power1ms := fun _ _ _ => rfl
@[simp] theorem State.updQueue_energyMark : ∀ (s : State) (q : Nat) (f : Queue → Queue), (s.updQueue q f).energyMark = s.energyMark := fun _ _ _ => rfl
@[simp] theorem State.updQueue_marks : ∀ (s : State) (q : Nat) (f : Queue → Queue), (s.updQueue q f).marks = s.marks := fun _ _ _ => rfl
@[simp] theorem State.updQueue_spared : ∀ (s : State) (q : Nat) (f : Queue → Queue), (s.updQueue q f).spared = s.spared := fun _ _ _ => rfl
@[simp] theorem State.updQueue_endings : ∀ (s : State) (q : Nat) (f : Queue → Queue), (s.updQueue q f).endings = s.endings := fun _ _ _ => rfl
@[simp] theorem State.updQueue_past : ∀ (s : State) (q : Nat) (f : Queue → Queue), (s.updQueue q f).past = s.past := fun _ _ _ => rfl
@[simp] theorem State.updQueue_kats : ∀ (s : State) (q : Nat) (f : Queue → Queue), (s.updQueue q f).kats = s.kats := fun _ _ _ => rfl
@[simp] theorem State.updQueue_answered : ∀ (s : State) (q : Nat) (f : Queue → Queue), (s.updQueue q f).answered = s.answered := fun _ _ _ => rfl
@[simp] theorem State.jumpTo_tick : ∀ (s : State) (t : Nat), (s.jumpTo t).tick = s.tick := fun _ _ => rfl
@[simp] theorem State.jumpTo_rtick : ∀ (s : State) (t : Nat), (s.jumpTo t).rtick = s.rtick := fun _ _ => rfl
@[simp] theorem State.jumpTo_instant : ∀ (s : State) (t : Nat), (s.jumpTo t).instant = s.instant := fun _ _ => rfl
@[simp] theorem State.jumpTo_rsub : ∀ (s : State) (t : Nat), (s.jumpTo t).rsub = s.rsub := fun _ _ => rfl
@[simp] theorem State.jumpTo_power : ∀ (s : State) (t : Nat), (s.jumpTo t).power = s.power := fun _ _ => rfl
@[simp] theorem State.jumpTo_agenda : ∀ (s : State) (t : Nat), (s.jumpTo t).agenda = s.agenda := fun _ _ => rfl
@[simp] theorem State.jumpTo_inputs : ∀ (s : State) (t : Nat), (s.jumpTo t).inputs = s.inputs := fun _ _ => rfl
@[simp] theorem State.jumpTo_freeCtr : ∀ (s : State) (t : Nat), (s.jumpTo t).freeCtr = s.freeCtr := fun _ _ => rfl
@[simp] theorem State.jumpTo_cores : ∀ (s : State) (t : Nat), (s.jumpTo t).cores = s.cores := fun _ _ => rfl
@[simp] theorem State.jumpTo_clusters : ∀ (s : State) (t : Nat), (s.jumpTo t).clusters = s.clusters := fun _ _ => rfl
@[simp] theorem State.jumpTo_log : ∀ (s : State) (t : Nat), (s.jumpTo t).log = s.log := fun _ _ => rfl
@[simp] theorem State.jumpTo_pres : ∀ (s : State) (t : Nat), (s.jumpTo t).pres = s.pres := fun _ _ => rfl
@[simp] theorem State.jumpTo_stepping : ∀ (s : State) (t : Nat), (s.jumpTo t).stepping = s.stepping := fun _ _ => rfl
@[simp] theorem State.jumpTo_moduleNum : ∀ (s : State) (t : Nat), (s.jumpTo t).moduleNum = s.moduleNum := fun _ _ => rfl
@[simp] theorem State.jumpTo_chan : ∀ (s : State) (t : Nat), (s.jumpTo t).chan = s.chan := fun _ _ => rfl
@[simp] theorem State.jumpTo_contexts : ∀ (s : State) (t : Nat), (s.jumpTo t).contexts = s.contexts := fun _ _ => rfl
@[simp] theorem State.jumpTo_dev : ∀ (s : State) (t : Nat), (s.jumpTo t).dev = s.dev := fun _ _ => rfl
@[simp] theorem State.jumpTo_host : ∀ (s : State) (t : Nat), (s.jumpTo t).host = s.host := fun _ _ => rfl
@[simp] theorem State.jumpTo_peer : ∀ (s : State) (t : Nat), (s.jumpTo t).peer = s.peer := fun _ _ => rfl
@[simp] theorem State.jumpTo_hash : ∀ (s : State) (t : Nat), (s.jumpTo t).hash = s.hash := fun _ _ => rfl
@[simp] theorem State.jumpTo_faults : ∀ (s : State) (t : Nat), (s.jumpTo t).faults = s.faults := fun _ _ => rfl
@[simp] theorem State.jumpTo_invs : ∀ (s : State) (t : Nat), (s.jumpTo t).invs = s.invs := fun _ _ => rfl
@[simp] theorem State.jumpTo_migrations : ∀ (s : State) (t : Nat), (s.jumpTo t).migrations = s.migrations := fun _ _ => rfl
@[simp] theorem State.jumpTo_monitors : ∀ (s : State) (t : Nat), (s.jumpTo t).monitors = s.monitors := fun _ _ => rfl
@[simp] theorem State.jumpTo_nextOp : ∀ (s : State) (t : Nat), (s.jumpTo t).nextOp = s.nextOp := fun _ _ => rfl
@[simp] theorem State.jumpTo_cxlUp : ∀ (s : State) (t : Nat), (s.jumpTo t).cxlUp = s.cxlUp := fun _ _ => rfl
@[simp] theorem State.jumpTo_cxlSecure : ∀ (s : State) (t : Nat), (s.jumpTo t).cxlSecure = s.cxlSecure := fun _ _ => rfl
@[simp] theorem State.jumpTo_cxlSince : ∀ (s : State) (t : Nat), (s.jumpTo t).cxlSince = s.cxlSince := fun _ _ => rfl
@[simp] theorem State.jumpTo_lostPeers : ∀ (s : State) (t : Nat), (s.jumpTo t).lostPeers = s.lostPeers := fun _ _ => rfl
@[simp] theorem State.jumpTo_teams : ∀ (s : State) (t : Nat), (s.jumpTo t).teams = s.teams := fun _ _ => rfl
@[simp] theorem State.jumpTo_insts : ∀ (s : State) (t : Nat), (s.jumpTo t).insts = s.insts := fun _ _ => rfl
@[simp] theorem State.jumpTo_units : ∀ (s : State) (t : Nat), (s.jumpTo t).units = s.units := fun _ _ => rfl
@[simp] theorem State.jumpTo_reservations : ∀ (s : State) (t : Nat), (s.jumpTo t).reservations = s.reservations := fun _ _ => rfl
@[simp] theorem State.jumpTo_queues : ∀ (s : State) (t : Nat), (s.jumpTo t).queues = s.queues := fun _ _ => rfl
@[simp] theorem State.jumpTo_recWrites : ∀ (s : State) (t : Nat), (s.jumpTo t).recWrites = s.recWrites := fun _ _ => rfl
@[simp] theorem State.jumpTo_replies : ∀ (s : State) (t : Nat), (s.jumpTo t).replies = s.replies := fun _ _ => rfl
@[simp] theorem State.jumpTo_mbWait : ∀ (s : State) (t : Nat), (s.jumpTo t).mbWait = s.mbWait := fun _ _ => rfl
@[simp] theorem State.jumpTo_keys : ∀ (s : State) (t : Nat), (s.jumpTo t).keys = s.keys := fun _ _ => rfl
@[simp] theorem State.jumpTo_measure : ∀ (s : State) (t : Nat), (s.jumpTo t).measure = s.measure := fun _ _ => rfl
@[simp] theorem State.jumpTo_idSigs : ∀ (s : State) (t : Nat), (s.jumpTo t).idSigs = s.idSigs := fun _ _ => rfl
@[simp] theorem State.jumpTo_fenced : ∀ (s : State) (t : Nat), (s.jumpTo t).fenced = s.fenced := fun _ _ => rfl
@[simp] theorem State.jumpTo_wsets : ∀ (s : State) (t : Nat), (s.jumpTo t).wsets = s.wsets := fun _ _ => rfl
@[simp] theorem State.jumpTo_modLimit : ∀ (s : State) (t : Nat), (s.jumpTo t).modLimit = s.modLimit := fun _ _ => rfl
@[simp] theorem State.jumpTo_windows : ∀ (s : State) (t : Nat), (s.jumpTo t).windows = s.windows := fun _ _ => rfl
@[simp] theorem State.jumpTo_ports : ∀ (s : State) (t : Nat), (s.jumpTo t).ports = s.ports := fun _ _ => rfl
@[simp] theorem State.jumpTo_beats : ∀ (s : State) (t : Nat), (s.jumpTo t).beats = s.beats := fun _ _ => rfl
@[simp] theorem State.jumpTo_buckets : ∀ (s : State) (t : Nat), (s.jumpTo t).buckets = s.buckets := fun _ _ => rfl
@[simp] theorem State.jumpTo_katDue : ∀ (s : State) (t : Nat), (s.jumpTo t).katDue = s.katDue := fun _ _ => rfl
@[simp] theorem State.jumpTo_retireDue : ∀ (s : State) (t : Nat), (s.jumpTo t).retireDue = s.retireDue := fun _ _ => rfl
@[simp] theorem State.jumpTo_unitDue : ∀ (s : State) (t : Nat), (s.jumpTo t).unitDue = s.unitDue := fun _ _ => rfl
@[simp] theorem State.jumpTo_hold : ∀ (s : State) (t : Nat), (s.jumpTo t).hold = s.hold := fun _ _ => rfl
@[simp] theorem State.jumpTo_ckpt : ∀ (s : State) (t : Nat), (s.jumpTo t).ckpt = s.ckpt := fun _ _ => rfl
@[simp] theorem State.jumpTo_restoring : ∀ (s : State) (t : Nat), (s.jumpTo t).restoring = s.restoring := fun _ _ => rfl
@[simp] theorem State.jumpTo_late : ∀ (s : State) (t : Nat), (s.jumpTo t).late = s.late := fun _ _ => rfl
@[simp] theorem State.jumpTo_nodes : ∀ (s : State) (t : Nat), (s.jumpTo t).nodes = s.nodes := fun _ _ => rfl
@[simp] theorem State.jumpTo_snoop : ∀ (s : State) (t : Nat), (s.jumpTo t).snoop = s.snoop := fun _ _ => rfl
@[simp] theorem State.jumpTo_hostLines : ∀ (s : State) (t : Nat), (s.jumpTo t).hostLines = s.hostLines := fun _ _ => rfl
@[simp] theorem State.jumpTo_fetchLast : ∀ (s : State) (t : Nat), (s.jumpTo t).fetchLast = s.fetchLast := fun _ _ => rfl
@[simp] theorem State.jumpTo_energy : ∀ (s : State) (t : Nat), (s.jumpTo t).energy = s.energy := fun _ _ => rfl
@[simp] theorem State.jumpTo_power1ms : ∀ (s : State) (t : Nat), (s.jumpTo t).power1ms = s.power1ms := fun _ _ => rfl
@[simp] theorem State.jumpTo_energyMark : ∀ (s : State) (t : Nat), (s.jumpTo t).energyMark = s.energyMark := fun _ _ => rfl
@[simp] theorem State.jumpTo_marks : ∀ (s : State) (t : Nat), (s.jumpTo t).marks = s.marks := fun _ _ => rfl
@[simp] theorem State.jumpTo_spared : ∀ (s : State) (t : Nat), (s.jumpTo t).spared = s.spared := fun _ _ => rfl
@[simp] theorem State.jumpTo_endings : ∀ (s : State) (t : Nat), (s.jumpTo t).endings = s.endings := fun _ _ => rfl
@[simp] theorem State.jumpTo_past : ∀ (s : State) (t : Nat), (s.jumpTo t).past = s.past := fun _ _ => rfl
@[simp] theorem State.jumpTo_kats : ∀ (s : State) (t : Nat), (s.jumpTo t).kats = s.kats := fun _ _ => rfl
@[simp] theorem State.jumpTo_answered : ∀ (s : State) (t : Nat), (s.jumpTo t).answered = s.answered := fun _ _ => rfl
@[simp] theorem State.addLoad_tick : ∀ (s : State) (l : Landing) (p : List (Nat × Nat × Nat)), (s.addLoad l p).tick = s.tick := fun _ _ _ => rfl
@[simp] theorem State.addLoad_rtick : ∀ (s : State) (l : Landing) (p : List (Nat × Nat × Nat)), (s.addLoad l p).rtick = s.rtick := fun _ _ _ => rfl
@[simp] theorem State.addLoad_instant : ∀ (s : State) (l : Landing) (p : List (Nat × Nat × Nat)), (s.addLoad l p).instant = s.instant := fun _ _ _ => rfl
@[simp] theorem State.addLoad_rsub : ∀ (s : State) (l : Landing) (p : List (Nat × Nat × Nat)), (s.addLoad l p).rsub = s.rsub := fun _ _ _ => rfl
@[simp] theorem State.addLoad_power : ∀ (s : State) (l : Landing) (p : List (Nat × Nat × Nat)), (s.addLoad l p).power = s.power := fun _ _ _ => rfl
@[simp] theorem State.addLoad_agenda : ∀ (s : State) (l : Landing) (p : List (Nat × Nat × Nat)), (s.addLoad l p).agenda = s.agenda := fun _ _ _ => rfl
@[simp] theorem State.addLoad_inputs : ∀ (s : State) (l : Landing) (p : List (Nat × Nat × Nat)), (s.addLoad l p).inputs = s.inputs := fun _ _ _ => rfl
@[simp] theorem State.addLoad_freeCtr : ∀ (s : State) (l : Landing) (p : List (Nat × Nat × Nat)), (s.addLoad l p).freeCtr = s.freeCtr := fun _ _ _ => rfl
@[simp] theorem State.addLoad_cores : ∀ (s : State) (l : Landing) (p : List (Nat × Nat × Nat)), (s.addLoad l p).cores = s.cores := fun _ _ _ => rfl
@[simp] theorem State.addLoad_clusters : ∀ (s : State) (l : Landing) (p : List (Nat × Nat × Nat)), (s.addLoad l p).clusters = s.clusters := fun _ _ _ => rfl
@[simp] theorem State.addLoad_log : ∀ (s : State) (l : Landing) (p : List (Nat × Nat × Nat)), (s.addLoad l p).log = s.log := fun _ _ _ => rfl
@[simp] theorem State.addLoad_pres : ∀ (s : State) (l : Landing) (p : List (Nat × Nat × Nat)), (s.addLoad l p).pres = s.pres := fun _ _ _ => rfl
@[simp] theorem State.addLoad_stepping : ∀ (s : State) (l : Landing) (p : List (Nat × Nat × Nat)), (s.addLoad l p).stepping = s.stepping := fun _ _ _ => rfl
@[simp] theorem State.addLoad_moduleNum : ∀ (s : State) (l : Landing) (p : List (Nat × Nat × Nat)), (s.addLoad l p).moduleNum = s.moduleNum := fun _ _ _ => rfl
@[simp] theorem State.addLoad_chan : ∀ (s : State) (l : Landing) (p : List (Nat × Nat × Nat)), (s.addLoad l p).chan = s.chan := fun _ _ _ => rfl
@[simp] theorem State.addLoad_contexts : ∀ (s : State) (l : Landing) (p : List (Nat × Nat × Nat)), (s.addLoad l p).contexts = s.contexts := fun _ _ _ => rfl
@[simp] theorem State.addLoad_dev : ∀ (s : State) (l : Landing) (p : List (Nat × Nat × Nat)), (s.addLoad l p).dev = s.dev := fun _ _ _ => rfl
@[simp] theorem State.addLoad_host : ∀ (s : State) (l : Landing) (p : List (Nat × Nat × Nat)), (s.addLoad l p).host = s.host := fun _ _ _ => rfl
@[simp] theorem State.addLoad_peer : ∀ (s : State) (l : Landing) (p : List (Nat × Nat × Nat)), (s.addLoad l p).peer = s.peer := fun _ _ _ => rfl
@[simp] theorem State.addLoad_hash : ∀ (s : State) (l : Landing) (p : List (Nat × Nat × Nat)), (s.addLoad l p).hash = s.hash := fun _ _ _ => rfl
@[simp] theorem State.addLoad_faults : ∀ (s : State) (l : Landing) (p : List (Nat × Nat × Nat)), (s.addLoad l p).faults = s.faults := fun _ _ _ => rfl
@[simp] theorem State.addLoad_invs : ∀ (s : State) (l : Landing) (p : List (Nat × Nat × Nat)), (s.addLoad l p).invs = s.invs := fun _ _ _ => rfl
@[simp] theorem State.addLoad_migrations : ∀ (s : State) (l : Landing) (p : List (Nat × Nat × Nat)), (s.addLoad l p).migrations = s.migrations := fun _ _ _ => rfl
@[simp] theorem State.addLoad_monitors : ∀ (s : State) (l : Landing) (p : List (Nat × Nat × Nat)), (s.addLoad l p).monitors = s.monitors := fun _ _ _ => rfl
@[simp] theorem State.addLoad_nextOp : ∀ (s : State) (l : Landing) (p : List (Nat × Nat × Nat)), (s.addLoad l p).nextOp = s.nextOp := fun _ _ _ => rfl
@[simp] theorem State.addLoad_cxlUp : ∀ (s : State) (l : Landing) (p : List (Nat × Nat × Nat)), (s.addLoad l p).cxlUp = s.cxlUp := fun _ _ _ => rfl
@[simp] theorem State.addLoad_cxlSecure : ∀ (s : State) (l : Landing) (p : List (Nat × Nat × Nat)), (s.addLoad l p).cxlSecure = s.cxlSecure := fun _ _ _ => rfl
@[simp] theorem State.addLoad_cxlSince : ∀ (s : State) (l : Landing) (p : List (Nat × Nat × Nat)), (s.addLoad l p).cxlSince = s.cxlSince := fun _ _ _ => rfl
@[simp] theorem State.addLoad_lostPeers : ∀ (s : State) (l : Landing) (p : List (Nat × Nat × Nat)), (s.addLoad l p).lostPeers = s.lostPeers := fun _ _ _ => rfl
@[simp] theorem State.addLoad_teams : ∀ (s : State) (l : Landing) (p : List (Nat × Nat × Nat)), (s.addLoad l p).teams = s.teams := fun _ _ _ => rfl
@[simp] theorem State.addLoad_insts : ∀ (s : State) (l : Landing) (p : List (Nat × Nat × Nat)), (s.addLoad l p).insts = s.insts := fun _ _ _ => rfl
@[simp] theorem State.addLoad_units : ∀ (s : State) (l : Landing) (p : List (Nat × Nat × Nat)), (s.addLoad l p).units = s.units := fun _ _ _ => rfl
@[simp] theorem State.addLoad_reservations : ∀ (s : State) (l : Landing) (p : List (Nat × Nat × Nat)), (s.addLoad l p).reservations = s.reservations := fun _ _ _ => rfl
@[simp] theorem State.addLoad_queues : ∀ (s : State) (l : Landing) (p : List (Nat × Nat × Nat)), (s.addLoad l p).queues = s.queues := fun _ _ _ => rfl
@[simp] theorem State.addLoad_recWrites : ∀ (s : State) (l : Landing) (p : List (Nat × Nat × Nat)), (s.addLoad l p).recWrites = s.recWrites := fun _ _ _ => rfl
@[simp] theorem State.addLoad_replies : ∀ (s : State) (l : Landing) (p : List (Nat × Nat × Nat)), (s.addLoad l p).replies = s.replies := fun _ _ _ => rfl
@[simp] theorem State.addLoad_mbWait : ∀ (s : State) (l : Landing) (p : List (Nat × Nat × Nat)), (s.addLoad l p).mbWait = s.mbWait := fun _ _ _ => rfl
@[simp] theorem State.addLoad_keys : ∀ (s : State) (l : Landing) (p : List (Nat × Nat × Nat)), (s.addLoad l p).keys = s.keys := fun _ _ _ => rfl
@[simp] theorem State.addLoad_measure : ∀ (s : State) (l : Landing) (p : List (Nat × Nat × Nat)), (s.addLoad l p).measure = s.measure := fun _ _ _ => rfl
@[simp] theorem State.addLoad_idSigs : ∀ (s : State) (l : Landing) (p : List (Nat × Nat × Nat)), (s.addLoad l p).idSigs = s.idSigs := fun _ _ _ => rfl
@[simp] theorem State.addLoad_fenced : ∀ (s : State) (l : Landing) (p : List (Nat × Nat × Nat)), (s.addLoad l p).fenced = s.fenced := fun _ _ _ => rfl
@[simp] theorem State.addLoad_wsets : ∀ (s : State) (l : Landing) (p : List (Nat × Nat × Nat)), (s.addLoad l p).wsets = s.wsets := fun _ _ _ => rfl
@[simp] theorem State.addLoad_modLimit : ∀ (s : State) (l : Landing) (p : List (Nat × Nat × Nat)), (s.addLoad l p).modLimit = s.modLimit := fun _ _ _ => rfl
@[simp] theorem State.addLoad_windows : ∀ (s : State) (l : Landing) (p : List (Nat × Nat × Nat)), (s.addLoad l p).windows = s.windows := fun _ _ _ => rfl
@[simp] theorem State.addLoad_ports : ∀ (s : State) (l : Landing) (p : List (Nat × Nat × Nat)), (s.addLoad l p).ports = s.ports := fun _ _ _ => rfl
@[simp] theorem State.addLoad_beats : ∀ (s : State) (l : Landing) (p : List (Nat × Nat × Nat)), (s.addLoad l p).beats = s.beats := fun _ _ _ => rfl
@[simp] theorem State.addLoad_buckets : ∀ (s : State) (l : Landing) (p : List (Nat × Nat × Nat)), (s.addLoad l p).buckets = s.buckets := fun _ _ _ => rfl
@[simp] theorem State.addLoad_katDue : ∀ (s : State) (l : Landing) (p : List (Nat × Nat × Nat)), (s.addLoad l p).katDue = s.katDue := fun _ _ _ => rfl
@[simp] theorem State.addLoad_retireDue : ∀ (s : State) (l : Landing) (p : List (Nat × Nat × Nat)), (s.addLoad l p).retireDue = s.retireDue := fun _ _ _ => rfl
@[simp] theorem State.addLoad_unitDue : ∀ (s : State) (l : Landing) (p : List (Nat × Nat × Nat)), (s.addLoad l p).unitDue = s.unitDue := fun _ _ _ => rfl
@[simp] theorem State.addLoad_hold : ∀ (s : State) (l : Landing) (p : List (Nat × Nat × Nat)), (s.addLoad l p).hold = s.hold := fun _ _ _ => rfl
@[simp] theorem State.addLoad_ckpt : ∀ (s : State) (l : Landing) (p : List (Nat × Nat × Nat)), (s.addLoad l p).ckpt = s.ckpt := fun _ _ _ => rfl
@[simp] theorem State.addLoad_restoring : ∀ (s : State) (l : Landing) (p : List (Nat × Nat × Nat)), (s.addLoad l p).restoring = s.restoring := fun _ _ _ => rfl
@[simp] theorem State.addLoad_late : ∀ (s : State) (l : Landing) (p : List (Nat × Nat × Nat)), (s.addLoad l p).late = s.late := fun _ _ _ => rfl
@[simp] theorem State.addLoad_nodes : ∀ (s : State) (l : Landing) (p : List (Nat × Nat × Nat)), (s.addLoad l p).nodes = s.nodes := fun _ _ _ => rfl
@[simp] theorem State.addLoad_snoop : ∀ (s : State) (l : Landing) (p : List (Nat × Nat × Nat)), (s.addLoad l p).snoop = s.snoop := fun _ _ _ => rfl
@[simp] theorem State.addLoad_hostLines : ∀ (s : State) (l : Landing) (p : List (Nat × Nat × Nat)), (s.addLoad l p).hostLines = s.hostLines := fun _ _ _ => rfl
@[simp] theorem State.addLoad_fetchLast : ∀ (s : State) (l : Landing) (p : List (Nat × Nat × Nat)), (s.addLoad l p).fetchLast = s.fetchLast := fun _ _ _ => rfl
@[simp] theorem State.addLoad_energy : ∀ (s : State) (l : Landing) (p : List (Nat × Nat × Nat)), (s.addLoad l p).energy = s.energy := fun _ _ _ => rfl
@[simp] theorem State.addLoad_power1ms : ∀ (s : State) (l : Landing) (p : List (Nat × Nat × Nat)), (s.addLoad l p).power1ms = s.power1ms := fun _ _ _ => rfl
@[simp] theorem State.addLoad_energyMark : ∀ (s : State) (l : Landing) (p : List (Nat × Nat × Nat)), (s.addLoad l p).energyMark = s.energyMark := fun _ _ _ => rfl
@[simp] theorem State.addLoad_marks : ∀ (s : State) (l : Landing) (p : List (Nat × Nat × Nat)), (s.addLoad l p).marks = s.marks := fun _ _ _ => rfl
@[simp] theorem State.addLoad_spared : ∀ (s : State) (l : Landing) (p : List (Nat × Nat × Nat)), (s.addLoad l p).spared = s.spared := fun _ _ _ => rfl
@[simp] theorem State.addLoad_endings : ∀ (s : State) (l : Landing) (p : List (Nat × Nat × Nat)), (s.addLoad l p).endings = s.endings := fun _ _ _ => rfl
@[simp] theorem State.addLoad_past : ∀ (s : State) (l : Landing) (p : List (Nat × Nat × Nat)), (s.addLoad l p).past = s.past := fun _ _ _ => rfl
@[simp] theorem State.addLoad_kats : ∀ (s : State) (l : Landing) (p : List (Nat × Nat × Nat)), (s.addLoad l p).kats = s.kats := fun _ _ _ => rfl
@[simp] theorem State.addLoad_answered : ∀ (s : State) (l : Landing) (p : List (Nat × Nat × Nat)), (s.addLoad l p).answered = s.answered := fun _ _ _ => rfl
@[simp] theorem State.addStore_tick : ∀ (s : State) (p : List (Nat × List Byte × Nat)), (s.addStore p).tick = s.tick := fun _ _ => rfl
@[simp] theorem State.addStore_rtick : ∀ (s : State) (p : List (Nat × List Byte × Nat)), (s.addStore p).rtick = s.rtick := fun _ _ => rfl
@[simp] theorem State.addStore_instant : ∀ (s : State) (p : List (Nat × List Byte × Nat)), (s.addStore p).instant = s.instant := fun _ _ => rfl
@[simp] theorem State.addStore_rsub : ∀ (s : State) (p : List (Nat × List Byte × Nat)), (s.addStore p).rsub = s.rsub := fun _ _ => rfl
@[simp] theorem State.addStore_power : ∀ (s : State) (p : List (Nat × List Byte × Nat)), (s.addStore p).power = s.power := fun _ _ => rfl
@[simp] theorem State.addStore_agenda : ∀ (s : State) (p : List (Nat × List Byte × Nat)), (s.addStore p).agenda = s.agenda := fun _ _ => rfl
@[simp] theorem State.addStore_inputs : ∀ (s : State) (p : List (Nat × List Byte × Nat)), (s.addStore p).inputs = s.inputs := fun _ _ => rfl
@[simp] theorem State.addStore_freeCtr : ∀ (s : State) (p : List (Nat × List Byte × Nat)), (s.addStore p).freeCtr = s.freeCtr := fun _ _ => rfl
@[simp] theorem State.addStore_cores : ∀ (s : State) (p : List (Nat × List Byte × Nat)), (s.addStore p).cores = s.cores := fun _ _ => rfl
@[simp] theorem State.addStore_clusters : ∀ (s : State) (p : List (Nat × List Byte × Nat)), (s.addStore p).clusters = s.clusters := fun _ _ => rfl
@[simp] theorem State.addStore_log : ∀ (s : State) (p : List (Nat × List Byte × Nat)), (s.addStore p).log = s.log := fun _ _ => rfl
@[simp] theorem State.addStore_pres : ∀ (s : State) (p : List (Nat × List Byte × Nat)), (s.addStore p).pres = s.pres := fun _ _ => rfl
@[simp] theorem State.addStore_stepping : ∀ (s : State) (p : List (Nat × List Byte × Nat)), (s.addStore p).stepping = s.stepping := fun _ _ => rfl
@[simp] theorem State.addStore_moduleNum : ∀ (s : State) (p : List (Nat × List Byte × Nat)), (s.addStore p).moduleNum = s.moduleNum := fun _ _ => rfl
@[simp] theorem State.addStore_chan : ∀ (s : State) (p : List (Nat × List Byte × Nat)), (s.addStore p).chan = s.chan := fun _ _ => rfl
@[simp] theorem State.addStore_contexts : ∀ (s : State) (p : List (Nat × List Byte × Nat)), (s.addStore p).contexts = s.contexts := fun _ _ => rfl
@[simp] theorem State.addStore_dev : ∀ (s : State) (p : List (Nat × List Byte × Nat)), (s.addStore p).dev = s.dev := fun _ _ => rfl
@[simp] theorem State.addStore_host : ∀ (s : State) (p : List (Nat × List Byte × Nat)), (s.addStore p).host = s.host := fun _ _ => rfl
@[simp] theorem State.addStore_peer : ∀ (s : State) (p : List (Nat × List Byte × Nat)), (s.addStore p).peer = s.peer := fun _ _ => rfl
@[simp] theorem State.addStore_hash : ∀ (s : State) (p : List (Nat × List Byte × Nat)), (s.addStore p).hash = s.hash := fun _ _ => rfl
@[simp] theorem State.addStore_faults : ∀ (s : State) (p : List (Nat × List Byte × Nat)), (s.addStore p).faults = s.faults := fun _ _ => rfl
@[simp] theorem State.addStore_invs : ∀ (s : State) (p : List (Nat × List Byte × Nat)), (s.addStore p).invs = s.invs := fun _ _ => rfl
@[simp] theorem State.addStore_migrations : ∀ (s : State) (p : List (Nat × List Byte × Nat)), (s.addStore p).migrations = s.migrations := fun _ _ => rfl
@[simp] theorem State.addStore_monitors : ∀ (s : State) (p : List (Nat × List Byte × Nat)), (s.addStore p).monitors = s.monitors := fun _ _ => rfl
@[simp] theorem State.addStore_nextOp : ∀ (s : State) (p : List (Nat × List Byte × Nat)), (s.addStore p).nextOp = s.nextOp := fun _ _ => rfl
@[simp] theorem State.addStore_cxlUp : ∀ (s : State) (p : List (Nat × List Byte × Nat)), (s.addStore p).cxlUp = s.cxlUp := fun _ _ => rfl
@[simp] theorem State.addStore_cxlSecure : ∀ (s : State) (p : List (Nat × List Byte × Nat)), (s.addStore p).cxlSecure = s.cxlSecure := fun _ _ => rfl
@[simp] theorem State.addStore_cxlSince : ∀ (s : State) (p : List (Nat × List Byte × Nat)), (s.addStore p).cxlSince = s.cxlSince := fun _ _ => rfl
@[simp] theorem State.addStore_lostPeers : ∀ (s : State) (p : List (Nat × List Byte × Nat)), (s.addStore p).lostPeers = s.lostPeers := fun _ _ => rfl
@[simp] theorem State.addStore_teams : ∀ (s : State) (p : List (Nat × List Byte × Nat)), (s.addStore p).teams = s.teams := fun _ _ => rfl
@[simp] theorem State.addStore_insts : ∀ (s : State) (p : List (Nat × List Byte × Nat)), (s.addStore p).insts = s.insts := fun _ _ => rfl
@[simp] theorem State.addStore_units : ∀ (s : State) (p : List (Nat × List Byte × Nat)), (s.addStore p).units = s.units := fun _ _ => rfl
@[simp] theorem State.addStore_reservations : ∀ (s : State) (p : List (Nat × List Byte × Nat)), (s.addStore p).reservations = s.reservations := fun _ _ => rfl
@[simp] theorem State.addStore_queues : ∀ (s : State) (p : List (Nat × List Byte × Nat)), (s.addStore p).queues = s.queues := fun _ _ => rfl
@[simp] theorem State.addStore_recWrites : ∀ (s : State) (p : List (Nat × List Byte × Nat)), (s.addStore p).recWrites = s.recWrites := fun _ _ => rfl
@[simp] theorem State.addStore_replies : ∀ (s : State) (p : List (Nat × List Byte × Nat)), (s.addStore p).replies = s.replies := fun _ _ => rfl
@[simp] theorem State.addStore_mbWait : ∀ (s : State) (p : List (Nat × List Byte × Nat)), (s.addStore p).mbWait = s.mbWait := fun _ _ => rfl
@[simp] theorem State.addStore_keys : ∀ (s : State) (p : List (Nat × List Byte × Nat)), (s.addStore p).keys = s.keys := fun _ _ => rfl
@[simp] theorem State.addStore_measure : ∀ (s : State) (p : List (Nat × List Byte × Nat)), (s.addStore p).measure = s.measure := fun _ _ => rfl
@[simp] theorem State.addStore_idSigs : ∀ (s : State) (p : List (Nat × List Byte × Nat)), (s.addStore p).idSigs = s.idSigs := fun _ _ => rfl
@[simp] theorem State.addStore_fenced : ∀ (s : State) (p : List (Nat × List Byte × Nat)), (s.addStore p).fenced = s.fenced := fun _ _ => rfl
@[simp] theorem State.addStore_wsets : ∀ (s : State) (p : List (Nat × List Byte × Nat)), (s.addStore p).wsets = s.wsets := fun _ _ => rfl
@[simp] theorem State.addStore_modLimit : ∀ (s : State) (p : List (Nat × List Byte × Nat)), (s.addStore p).modLimit = s.modLimit := fun _ _ => rfl
@[simp] theorem State.addStore_windows : ∀ (s : State) (p : List (Nat × List Byte × Nat)), (s.addStore p).windows = s.windows := fun _ _ => rfl
@[simp] theorem State.addStore_ports : ∀ (s : State) (p : List (Nat × List Byte × Nat)), (s.addStore p).ports = s.ports := fun _ _ => rfl
@[simp] theorem State.addStore_beats : ∀ (s : State) (p : List (Nat × List Byte × Nat)), (s.addStore p).beats = s.beats := fun _ _ => rfl
@[simp] theorem State.addStore_buckets : ∀ (s : State) (p : List (Nat × List Byte × Nat)), (s.addStore p).buckets = s.buckets := fun _ _ => rfl
@[simp] theorem State.addStore_katDue : ∀ (s : State) (p : List (Nat × List Byte × Nat)), (s.addStore p).katDue = s.katDue := fun _ _ => rfl
@[simp] theorem State.addStore_retireDue : ∀ (s : State) (p : List (Nat × List Byte × Nat)), (s.addStore p).retireDue = s.retireDue := fun _ _ => rfl
@[simp] theorem State.addStore_unitDue : ∀ (s : State) (p : List (Nat × List Byte × Nat)), (s.addStore p).unitDue = s.unitDue := fun _ _ => rfl
@[simp] theorem State.addStore_hold : ∀ (s : State) (p : List (Nat × List Byte × Nat)), (s.addStore p).hold = s.hold := fun _ _ => rfl
@[simp] theorem State.addStore_ckpt : ∀ (s : State) (p : List (Nat × List Byte × Nat)), (s.addStore p).ckpt = s.ckpt := fun _ _ => rfl
@[simp] theorem State.addStore_restoring : ∀ (s : State) (p : List (Nat × List Byte × Nat)), (s.addStore p).restoring = s.restoring := fun _ _ => rfl
@[simp] theorem State.addStore_late : ∀ (s : State) (p : List (Nat × List Byte × Nat)), (s.addStore p).late = s.late := fun _ _ => rfl
@[simp] theorem State.addStore_nodes : ∀ (s : State) (p : List (Nat × List Byte × Nat)), (s.addStore p).nodes = s.nodes := fun _ _ => rfl
@[simp] theorem State.addStore_snoop : ∀ (s : State) (p : List (Nat × List Byte × Nat)), (s.addStore p).snoop = s.snoop := fun _ _ => rfl
@[simp] theorem State.addStore_hostLines : ∀ (s : State) (p : List (Nat × List Byte × Nat)), (s.addStore p).hostLines = s.hostLines := fun _ _ => rfl
@[simp] theorem State.addStore_fetchLast : ∀ (s : State) (p : List (Nat × List Byte × Nat)), (s.addStore p).fetchLast = s.fetchLast := fun _ _ => rfl
@[simp] theorem State.addStore_energy : ∀ (s : State) (p : List (Nat × List Byte × Nat)), (s.addStore p).energy = s.energy := fun _ _ => rfl
@[simp] theorem State.addStore_power1ms : ∀ (s : State) (p : List (Nat × List Byte × Nat)), (s.addStore p).power1ms = s.power1ms := fun _ _ => rfl
@[simp] theorem State.addStore_energyMark : ∀ (s : State) (p : List (Nat × List Byte × Nat)), (s.addStore p).energyMark = s.energyMark := fun _ _ => rfl
@[simp] theorem State.addStore_marks : ∀ (s : State) (p : List (Nat × List Byte × Nat)), (s.addStore p).marks = s.marks := fun _ _ => rfl
@[simp] theorem State.addStore_spared : ∀ (s : State) (p : List (Nat × List Byte × Nat)), (s.addStore p).spared = s.spared := fun _ _ => rfl
@[simp] theorem State.addStore_endings : ∀ (s : State) (p : List (Nat × List Byte × Nat)), (s.addStore p).endings = s.endings := fun _ _ => rfl
@[simp] theorem State.addStore_past : ∀ (s : State) (p : List (Nat × List Byte × Nat)), (s.addStore p).past = s.past := fun _ _ => rfl
@[simp] theorem State.addStore_kats : ∀ (s : State) (p : List (Nat × List Byte × Nat)), (s.addStore p).kats = s.kats := fun _ _ => rfl
@[simp] theorem State.addStore_answered : ∀ (s : State) (p : List (Nat × List Byte × Nat)), (s.addStore p).answered = s.answered := fun _ _ => rfl
@[simp] theorem State.free_tick : ∀ (s : State), (s.free).2.tick = s.tick := fun _ => rfl
@[simp] theorem State.free_rtick : ∀ (s : State), (s.free).2.rtick = s.rtick := fun _ => rfl
@[simp] theorem State.free_instant : ∀ (s : State), (s.free).2.instant = s.instant := fun _ => rfl
@[simp] theorem State.free_rsub : ∀ (s : State), (s.free).2.rsub = s.rsub := fun _ => rfl
@[simp] theorem State.free_power : ∀ (s : State), (s.free).2.power = s.power := fun _ => rfl
@[simp] theorem State.free_agenda : ∀ (s : State), (s.free).2.agenda = s.agenda := fun _ => rfl
@[simp] theorem State.free_inputs : ∀ (s : State), (s.free).2.inputs = s.inputs := fun _ => rfl
@[simp] theorem State.free_issue : ∀ (s : State), (s.free).2.issue = s.issue := fun _ => rfl
@[simp] theorem State.free_cores : ∀ (s : State), (s.free).2.cores = s.cores := fun _ => rfl
@[simp] theorem State.free_clusters : ∀ (s : State), (s.free).2.clusters = s.clusters := fun _ => rfl
@[simp] theorem State.free_log : ∀ (s : State), (s.free).2.log = s.log := fun _ => rfl
@[simp] theorem State.free_pres : ∀ (s : State), (s.free).2.pres = s.pres := fun _ => rfl
@[simp] theorem State.free_stepping : ∀ (s : State), (s.free).2.stepping = s.stepping := fun _ => rfl
@[simp] theorem State.free_moduleNum : ∀ (s : State), (s.free).2.moduleNum = s.moduleNum := fun _ => rfl
@[simp] theorem State.free_chan : ∀ (s : State), (s.free).2.chan = s.chan := fun _ => rfl
@[simp] theorem State.free_contexts : ∀ (s : State), (s.free).2.contexts = s.contexts := fun _ => rfl
@[simp] theorem State.free_dev : ∀ (s : State), (s.free).2.dev = s.dev := fun _ => rfl
@[simp] theorem State.free_host : ∀ (s : State), (s.free).2.host = s.host := fun _ => rfl
@[simp] theorem State.free_peer : ∀ (s : State), (s.free).2.peer = s.peer := fun _ => rfl
@[simp] theorem State.free_hash : ∀ (s : State), (s.free).2.hash = s.hash := fun _ => rfl
@[simp] theorem State.free_faults : ∀ (s : State), (s.free).2.faults = s.faults := fun _ => rfl
@[simp] theorem State.free_invs : ∀ (s : State), (s.free).2.invs = s.invs := fun _ => rfl
@[simp] theorem State.free_migrations : ∀ (s : State), (s.free).2.migrations = s.migrations := fun _ => rfl
@[simp] theorem State.free_monitors : ∀ (s : State), (s.free).2.monitors = s.monitors := fun _ => rfl
@[simp] theorem State.free_nextOp : ∀ (s : State), (s.free).2.nextOp = s.nextOp := fun _ => rfl
@[simp] theorem State.free_cxlUp : ∀ (s : State), (s.free).2.cxlUp = s.cxlUp := fun _ => rfl
@[simp] theorem State.free_cxlSecure : ∀ (s : State), (s.free).2.cxlSecure = s.cxlSecure := fun _ => rfl
@[simp] theorem State.free_cxlSince : ∀ (s : State), (s.free).2.cxlSince = s.cxlSince := fun _ => rfl
@[simp] theorem State.free_lostPeers : ∀ (s : State), (s.free).2.lostPeers = s.lostPeers := fun _ => rfl
@[simp] theorem State.free_teams : ∀ (s : State), (s.free).2.teams = s.teams := fun _ => rfl
@[simp] theorem State.free_insts : ∀ (s : State), (s.free).2.insts = s.insts := fun _ => rfl
@[simp] theorem State.free_units : ∀ (s : State), (s.free).2.units = s.units := fun _ => rfl
@[simp] theorem State.free_reservations : ∀ (s : State), (s.free).2.reservations = s.reservations := fun _ => rfl
@[simp] theorem State.free_queues : ∀ (s : State), (s.free).2.queues = s.queues := fun _ => rfl
@[simp] theorem State.free_recWrites : ∀ (s : State), (s.free).2.recWrites = s.recWrites := fun _ => rfl
@[simp] theorem State.free_replies : ∀ (s : State), (s.free).2.replies = s.replies := fun _ => rfl
@[simp] theorem State.free_mbWait : ∀ (s : State), (s.free).2.mbWait = s.mbWait := fun _ => rfl
@[simp] theorem State.free_keys : ∀ (s : State), (s.free).2.keys = s.keys := fun _ => rfl
@[simp] theorem State.free_measure : ∀ (s : State), (s.free).2.measure = s.measure := fun _ => rfl
@[simp] theorem State.free_idSigs : ∀ (s : State), (s.free).2.idSigs = s.idSigs := fun _ => rfl
@[simp] theorem State.free_fenced : ∀ (s : State), (s.free).2.fenced = s.fenced := fun _ => rfl
@[simp] theorem State.free_wsets : ∀ (s : State), (s.free).2.wsets = s.wsets := fun _ => rfl
@[simp] theorem State.free_modLimit : ∀ (s : State), (s.free).2.modLimit = s.modLimit := fun _ => rfl
@[simp] theorem State.free_windows : ∀ (s : State), (s.free).2.windows = s.windows := fun _ => rfl
@[simp] theorem State.free_ports : ∀ (s : State), (s.free).2.ports = s.ports := fun _ => rfl
@[simp] theorem State.free_beats : ∀ (s : State), (s.free).2.beats = s.beats := fun _ => rfl
@[simp] theorem State.free_buckets : ∀ (s : State), (s.free).2.buckets = s.buckets := fun _ => rfl
@[simp] theorem State.free_katDue : ∀ (s : State), (s.free).2.katDue = s.katDue := fun _ => rfl
@[simp] theorem State.free_retireDue : ∀ (s : State), (s.free).2.retireDue = s.retireDue := fun _ => rfl
@[simp] theorem State.free_unitDue : ∀ (s : State), (s.free).2.unitDue = s.unitDue := fun _ => rfl
@[simp] theorem State.free_hold : ∀ (s : State), (s.free).2.hold = s.hold := fun _ => rfl
@[simp] theorem State.free_ckpt : ∀ (s : State), (s.free).2.ckpt = s.ckpt := fun _ => rfl
@[simp] theorem State.free_restoring : ∀ (s : State), (s.free).2.restoring = s.restoring := fun _ => rfl
@[simp] theorem State.free_late : ∀ (s : State), (s.free).2.late = s.late := fun _ => rfl
@[simp] theorem State.free_nodes : ∀ (s : State), (s.free).2.nodes = s.nodes := fun _ => rfl
@[simp] theorem State.free_freeCtr : ∀ (s : State), (s.free).2.freeCtr = s.freeCtr + 1 := fun _ => rfl
@[simp] theorem State.free_snoop : ∀ (s : State), (s.free).2.snoop = s.snoop := fun _ => rfl
@[simp] theorem State.free_hostLines : ∀ (s : State), (s.free).2.hostLines = s.hostLines := fun _ => rfl
@[simp] theorem State.free_fetchLast : ∀ (s : State), (s.free).2.fetchLast = s.fetchLast := fun _ => rfl
@[simp] theorem State.free_energy : ∀ (s : State), (s.free).2.energy = s.energy := fun _ => rfl
@[simp] theorem State.free_power1ms : ∀ (s : State), (s.free).2.power1ms = s.power1ms := fun _ => rfl
@[simp] theorem State.free_energyMark : ∀ (s : State), (s.free).2.energyMark = s.energyMark := fun _ => rfl
@[simp] theorem State.free_marks : ∀ (s : State), (s.free).2.marks = s.marks := fun _ => rfl
@[simp] theorem State.free_spared : ∀ (s : State), (s.free).2.spared = s.spared := fun _ => rfl
@[simp] theorem State.free_endings : ∀ (s : State), (s.free).2.endings = s.endings := fun _ => rfl
@[simp] theorem State.free_past : ∀ (s : State), (s.free).2.past = s.past := fun _ => rfl
@[simp] theorem State.free_kats : ∀ (s : State), (s.free).2.kats = s.kats := fun _ => rfl
@[simp] theorem State.free_answered : ∀ (s : State), (s.free).2.answered = s.answered := fun _ => rfl

/-! ### Updates of a core -/

@[simp] theorem Core.raise_seq (c : Core) (f : Flags) : (c.raise f).seq = c.seq := rfl
@[simp] theorem Core.raise_x (c : Core) (f : Flags) : (c.raise f).x = c.x := rfl
@[simp] theorem Core.raise_vec (c : Core) (f : Flags) : (c.raise f).vec = c.vec := rfl
@[simp] theorem Core.raise_rings (c : Core) (f : Flags) : (c.raise f).rings = c.rings := rfl
@[simp] theorem Core.raise_bars (c : Core) (f : Flags) : (c.raise f).bars = c.bars := rfl
@[simp] theorem Core.raise_desc (c : Core) (f : Flags) : (c.raise f).desc = c.desc := rfl
@[simp] theorem Core.raise_mat (c : Core) (f : Flags) : (c.raise f).mat = c.mat := rfl
@[simp] theorem Core.raise_rgn (c : Core) (f : Flags) : (c.raise f).rgn = c.rgn := rfl
@[simp] theorem Core.raise_field (c : Core) (f : Flags) : (c.raise f).field = c.field := rfl
@[simp] theorem Core.raise_flight (c : Core) (f : Flags) : (c.raise f).flight = c.flight := rfl
@[simp] theorem Core.raise_unserved (c : Core) (f : Flags) : (c.raise f).unserved = c.unserved := rfl
@[simp] theorem Core.raise_loads (c : Core) (f : Flags) : (c.raise f).loads = c.loads := rfl
@[simp] theorem Core.raise_queue0 (c : Core) (f : Flags) : (c.raise f).queue0 = c.queue0 := rfl
@[simp] theorem Core.raise_queue1 (c : Core) (f : Flags) : (c.raise f).queue1 = c.queue1 := rfl
@[simp] theorem Core.raise_nextCmd (c : Core) (f : Flags) : (c.raise f).nextCmd = c.nextCmd := rfl
@[simp] theorem Core.raise_handles (c : Core) (f : Flags) : (c.raise f).handles = c.handles := rfl
@[simp] theorem Core.raise_turn (c : Core) (f : Flags) : (c.raise f).turn = c.turn := rfl
@[simp] theorem Core.raise_rollback (c : Core) (f : Flags) : (c.raise f).rollback = c.rollback := rfl
@[simp] theorem Core.raise_image (c : Core) (f : Flags) : (c.raise f).image = c.image := rfl
@[simp] theorem Core.raise_shImage (c : Core) (f : Flags) : (c.raise f).shImage = c.shImage := rfl
@[simp] theorem Core.raise_team (c : Core) (f : Flags) : (c.raise f).team = c.team := rfl
@[simp] theorem Core.raise_tlb (c : Core) (f : Flags) : (c.raise f).tlb = c.tlb := rfl
@[simp] theorem Core.raise_closed (c : Core) (f : Flags) : (c.raise f).closed = c.closed := rfl
@[simp] theorem Core.raise_copied (c : Core) (f : Flags) : (c.raise f).copied = c.copied := rfl
@[simp] theorem Core.raise_lapsed (c : Core) (f : Flags) : (c.raise f).lapsed = c.lapsed := rfl
@[simp] theorem Core.raise_flaws (c : Core) (f : Flags) : (c.raise f).flaws = c.flaws := rfl
@[simp] theorem Core.raise_portHold (c : Core) (f : Flags) : (c.raise f).portHold = c.portHold := rfl
@[simp] theorem Core.raise_sentLoads (c : Core) (f : Flags) : (c.raise f).sentLoads = c.sentLoads := rfl
@[simp] theorem Core.launch_seq (c : Core) (k : Nat) (d : Dest) (v m : Vec) : (c.launch k d v m).seq = c.seq := rfl
@[simp] theorem Core.launch_x (c : Core) (k : Nat) (d : Dest) (v m : Vec) : (c.launch k d v m).x = c.x := rfl
@[simp] theorem Core.launch_vec (c : Core) (k : Nat) (d : Dest) (v m : Vec) : (c.launch k d v m).vec = c.vec := rfl
@[simp] theorem Core.launch_rings (c : Core) (k : Nat) (d : Dest) (v m : Vec) : (c.launch k d v m).rings = c.rings := rfl
@[simp] theorem Core.launch_bars (c : Core) (k : Nat) (d : Dest) (v m : Vec) : (c.launch k d v m).bars = c.bars := rfl
@[simp] theorem Core.launch_desc (c : Core) (k : Nat) (d : Dest) (v m : Vec) : (c.launch k d v m).desc = c.desc := rfl
@[simp] theorem Core.launch_mat (c : Core) (k : Nat) (d : Dest) (v m : Vec) : (c.launch k d v m).mat = c.mat := rfl
@[simp] theorem Core.launch_csr (c : Core) (k : Nat) (d : Dest) (v m : Vec) : (c.launch k d v m).csr = c.csr := rfl
@[simp] theorem Core.launch_rgn (c : Core) (k : Nat) (d : Dest) (v m : Vec) : (c.launch k d v m).rgn = c.rgn := rfl
@[simp] theorem Core.launch_field (c : Core) (k : Nat) (d : Dest) (v m : Vec) : (c.launch k d v m).field = c.field := rfl
@[simp] theorem Core.launch_unserved (c : Core) (k : Nat) (d : Dest) (v m : Vec) : (c.launch k d v m).unserved = c.unserved := rfl
@[simp] theorem Core.launch_loads (c : Core) (k : Nat) (d : Dest) (v m : Vec) : (c.launch k d v m).loads = c.loads := rfl
@[simp] theorem Core.launch_queue0 (c : Core) (k : Nat) (d : Dest) (v m : Vec) : (c.launch k d v m).queue0 = c.queue0 := rfl
@[simp] theorem Core.launch_queue1 (c : Core) (k : Nat) (d : Dest) (v m : Vec) : (c.launch k d v m).queue1 = c.queue1 := rfl
@[simp] theorem Core.launch_nextCmd (c : Core) (k : Nat) (d : Dest) (v m : Vec) : (c.launch k d v m).nextCmd = c.nextCmd := rfl
@[simp] theorem Core.launch_handles (c : Core) (k : Nat) (d : Dest) (v m : Vec) : (c.launch k d v m).handles = c.handles := rfl
@[simp] theorem Core.launch_turn (c : Core) (k : Nat) (d : Dest) (v m : Vec) : (c.launch k d v m).turn = c.turn := rfl
@[simp] theorem Core.launch_rollback (c : Core) (k : Nat) (d : Dest) (v m : Vec) : (c.launch k d v m).rollback = c.rollback := rfl
@[simp] theorem Core.launch_image (c : Core) (k : Nat) (d : Dest) (v m : Vec) : (c.launch k d v m).image = c.image := rfl
@[simp] theorem Core.launch_shImage (c : Core) (k : Nat) (d : Dest) (v m : Vec) : (c.launch k d v m).shImage = c.shImage := rfl
@[simp] theorem Core.launch_team (c : Core) (k : Nat) (d : Dest) (v m : Vec) : (c.launch k d v m).team = c.team := rfl
@[simp] theorem Core.launch_tlb (c : Core) (k : Nat) (d : Dest) (v m : Vec) : (c.launch k d v m).tlb = c.tlb := rfl
@[simp] theorem Core.launch_closed (c : Core) (k : Nat) (d : Dest) (v m : Vec) : (c.launch k d v m).closed = c.closed := rfl
@[simp] theorem Core.launch_copied (c : Core) (k : Nat) (d : Dest) (v m : Vec) : (c.launch k d v m).copied = c.copied := rfl
@[simp] theorem Core.launch_lapsed (c : Core) (k : Nat) (d : Dest) (v m : Vec) : (c.launch k d v m).lapsed = c.lapsed := rfl
@[simp] theorem Core.launch_flaws (c : Core) (k : Nat) (d : Dest) (v m : Vec) : (c.launch k d v m).flaws = c.flaws := rfl
@[simp] theorem Core.launch_portHold (c : Core) (k : Nat) (d : Dest) (v m : Vec) : (c.launch k d v m).portHold = c.portHold := rfl
@[simp] theorem Core.launch_sentLoads (c : Core) (k : Nat) (d : Dest) (v m : Vec) : (c.launch k d v m).sentLoads = c.sentLoads := rfl
@[simp] theorem Core.setRing_seq (c : Core) (q : Fin 16) (r : Ring) : (c.setRing q r).seq = c.seq := rfl
@[simp] theorem Core.setRing_x (c : Core) (q : Fin 16) (r : Ring) : (c.setRing q r).x = c.x := rfl
@[simp] theorem Core.setRing_vec (c : Core) (q : Fin 16) (r : Ring) : (c.setRing q r).vec = c.vec := rfl
@[simp] theorem Core.setRing_bars (c : Core) (q : Fin 16) (r : Ring) : (c.setRing q r).bars = c.bars := rfl
@[simp] theorem Core.setRing_desc (c : Core) (q : Fin 16) (r : Ring) : (c.setRing q r).desc = c.desc := rfl
@[simp] theorem Core.setRing_mat (c : Core) (q : Fin 16) (r : Ring) : (c.setRing q r).mat = c.mat := rfl
@[simp] theorem Core.setRing_csr (c : Core) (q : Fin 16) (r : Ring) : (c.setRing q r).csr = c.csr := rfl
@[simp] theorem Core.setRing_rgn (c : Core) (q : Fin 16) (r : Ring) : (c.setRing q r).rgn = c.rgn := rfl
@[simp] theorem Core.setRing_field (c : Core) (q : Fin 16) (r : Ring) : (c.setRing q r).field = c.field := rfl
@[simp] theorem Core.setRing_flight (c : Core) (q : Fin 16) (r : Ring) : (c.setRing q r).flight = c.flight := rfl
@[simp] theorem Core.setRing_unserved (c : Core) (q : Fin 16) (r : Ring) : (c.setRing q r).unserved = c.unserved := rfl
@[simp] theorem Core.setRing_loads (c : Core) (q : Fin 16) (r : Ring) : (c.setRing q r).loads = c.loads := rfl
@[simp] theorem Core.setRing_queue0 (c : Core) (q : Fin 16) (r : Ring) : (c.setRing q r).queue0 = c.queue0 := rfl
@[simp] theorem Core.setRing_queue1 (c : Core) (q : Fin 16) (r : Ring) : (c.setRing q r).queue1 = c.queue1 := rfl
@[simp] theorem Core.setRing_nextCmd (c : Core) (q : Fin 16) (r : Ring) : (c.setRing q r).nextCmd = c.nextCmd := rfl
@[simp] theorem Core.setRing_handles (c : Core) (q : Fin 16) (r : Ring) : (c.setRing q r).handles = c.handles := rfl
@[simp] theorem Core.setRing_turn (c : Core) (q : Fin 16) (r : Ring) : (c.setRing q r).turn = c.turn := rfl
@[simp] theorem Core.setRing_rollback (c : Core) (q : Fin 16) (r : Ring) : (c.setRing q r).rollback = c.rollback := rfl
@[simp] theorem Core.setRing_image (c : Core) (q : Fin 16) (r : Ring) : (c.setRing q r).image = c.image := rfl
@[simp] theorem Core.setRing_shImage (c : Core) (q : Fin 16) (r : Ring) : (c.setRing q r).shImage = c.shImage := rfl
@[simp] theorem Core.setRing_team (c : Core) (q : Fin 16) (r : Ring) : (c.setRing q r).team = c.team := rfl
@[simp] theorem Core.setRing_tlb (c : Core) (q : Fin 16) (r : Ring) : (c.setRing q r).tlb = c.tlb := rfl
@[simp] theorem Core.setRing_closed (c : Core) (q : Fin 16) (r : Ring) : (c.setRing q r).closed = c.closed := rfl
@[simp] theorem Core.setRing_copied (c : Core) (q : Fin 16) (r : Ring) : (c.setRing q r).copied = c.copied := rfl
@[simp] theorem Core.setRing_lapsed (c : Core) (q : Fin 16) (r : Ring) : (c.setRing q r).lapsed = c.lapsed := rfl
@[simp] theorem Core.setRing_flaws (c : Core) (q : Fin 16) (r : Ring) : (c.setRing q r).flaws = c.flaws := rfl
@[simp] theorem Core.setRing_portHold (c : Core) (q : Fin 16) (r : Ring) : (c.setRing q r).portHold = c.portHold := rfl
@[simp] theorem Core.setRing_sentLoads (c : Core) (q : Fin 16) (r : Ring) : (c.setRing q r).sentLoads = c.sentLoads := rfl
@[simp] theorem Core.toRing_seq (c : Core) (k : Nat) (q : Fin 16) (p : Nat) (v : Vec) : (c.toRing k q p v).seq = c.seq := rfl
@[simp] theorem Core.toRing_x (c : Core) (k : Nat) (q : Fin 16) (p : Nat) (v : Vec) : (c.toRing k q p v).x = c.x := rfl
@[simp] theorem Core.toRing_vec (c : Core) (k : Nat) (q : Fin 16) (p : Nat) (v : Vec) : (c.toRing k q p v).vec = c.vec := rfl
@[simp] theorem Core.toRing_bars (c : Core) (k : Nat) (q : Fin 16) (p : Nat) (v : Vec) : (c.toRing k q p v).bars = c.bars := rfl
@[simp] theorem Core.toRing_desc (c : Core) (k : Nat) (q : Fin 16) (p : Nat) (v : Vec) : (c.toRing k q p v).desc = c.desc := rfl
@[simp] theorem Core.toRing_mat (c : Core) (k : Nat) (q : Fin 16) (p : Nat) (v : Vec) : (c.toRing k q p v).mat = c.mat := rfl
@[simp] theorem Core.toRing_csr (c : Core) (k : Nat) (q : Fin 16) (p : Nat) (v : Vec) : (c.toRing k q p v).csr = c.csr := rfl
@[simp] theorem Core.toRing_rgn (c : Core) (k : Nat) (q : Fin 16) (p : Nat) (v : Vec) : (c.toRing k q p v).rgn = c.rgn := rfl
@[simp] theorem Core.toRing_field (c : Core) (k : Nat) (q : Fin 16) (p : Nat) (v : Vec) : (c.toRing k q p v).field = c.field := rfl
@[simp] theorem Core.toRing_unserved (c : Core) (k : Nat) (q : Fin 16) (p : Nat) (v : Vec) : (c.toRing k q p v).unserved = c.unserved := rfl
@[simp] theorem Core.toRing_loads (c : Core) (k : Nat) (q : Fin 16) (p : Nat) (v : Vec) : (c.toRing k q p v).loads = c.loads := rfl
@[simp] theorem Core.toRing_queue0 (c : Core) (k : Nat) (q : Fin 16) (p : Nat) (v : Vec) : (c.toRing k q p v).queue0 = c.queue0 := rfl
@[simp] theorem Core.toRing_queue1 (c : Core) (k : Nat) (q : Fin 16) (p : Nat) (v : Vec) : (c.toRing k q p v).queue1 = c.queue1 := rfl
@[simp] theorem Core.toRing_nextCmd (c : Core) (k : Nat) (q : Fin 16) (p : Nat) (v : Vec) : (c.toRing k q p v).nextCmd = c.nextCmd := rfl
@[simp] theorem Core.toRing_handles (c : Core) (k : Nat) (q : Fin 16) (p : Nat) (v : Vec) : (c.toRing k q p v).handles = c.handles := rfl
@[simp] theorem Core.toRing_turn (c : Core) (k : Nat) (q : Fin 16) (p : Nat) (v : Vec) : (c.toRing k q p v).turn = c.turn := rfl
@[simp] theorem Core.toRing_rollback (c : Core) (k : Nat) (q : Fin 16) (p : Nat) (v : Vec) : (c.toRing k q p v).rollback = c.rollback := rfl
@[simp] theorem Core.toRing_image (c : Core) (k : Nat) (q : Fin 16) (p : Nat) (v : Vec) : (c.toRing k q p v).image = c.image := rfl
@[simp] theorem Core.toRing_shImage (c : Core) (k : Nat) (q : Fin 16) (p : Nat) (v : Vec) : (c.toRing k q p v).shImage = c.shImage := rfl
@[simp] theorem Core.toRing_team (c : Core) (k : Nat) (q : Fin 16) (p : Nat) (v : Vec) : (c.toRing k q p v).team = c.team := rfl
@[simp] theorem Core.toRing_tlb (c : Core) (k : Nat) (q : Fin 16) (p : Nat) (v : Vec) : (c.toRing k q p v).tlb = c.tlb := rfl
@[simp] theorem Core.toRing_closed (c : Core) (k : Nat) (q : Fin 16) (p : Nat) (v : Vec) : (c.toRing k q p v).closed = c.closed := rfl
@[simp] theorem Core.toRing_copied (c : Core) (k : Nat) (q : Fin 16) (p : Nat) (v : Vec) : (c.toRing k q p v).copied = c.copied := rfl
@[simp] theorem Core.toRing_lapsed (c : Core) (k : Nat) (q : Fin 16) (p : Nat) (v : Vec) : (c.toRing k q p v).lapsed = c.lapsed := rfl
@[simp] theorem Core.toRing_flaws (c : Core) (k : Nat) (q : Fin 16) (p : Nat) (v : Vec) : (c.toRing k q p v).flaws = c.flaws := rfl
@[simp] theorem Core.toRing_portHold (c : Core) (k : Nat) (q : Fin 16) (p : Nat) (v : Vec) : (c.toRing k q p v).portHold = c.portHold := rfl
@[simp] theorem Core.toRing_sentLoads (c : Core) (k : Nat) (q : Fin 16) (p : Nat) (v : Vec) : (c.toRing k q p v).sentLoads = c.sentLoads := rfl
@[simp] theorem Core.flyTile_seq (c : Core) (a : Fin 8) (k : Nat) (op : TileOp) : (c.flyTile a k op).seq = c.seq := rfl
@[simp] theorem Core.flyTile_x (c : Core) (a : Fin 8) (k : Nat) (op : TileOp) : (c.flyTile a k op).x = c.x := rfl
@[simp] theorem Core.flyTile_vec (c : Core) (a : Fin 8) (k : Nat) (op : TileOp) : (c.flyTile a k op).vec = c.vec := rfl
@[simp] theorem Core.flyTile_rings (c : Core) (a : Fin 8) (k : Nat) (op : TileOp) : (c.flyTile a k op).rings = c.rings := rfl
@[simp] theorem Core.flyTile_bars (c : Core) (a : Fin 8) (k : Nat) (op : TileOp) : (c.flyTile a k op).bars = c.bars := rfl
@[simp] theorem Core.flyTile_desc (c : Core) (a : Fin 8) (k : Nat) (op : TileOp) : (c.flyTile a k op).desc = c.desc := rfl
@[simp] theorem Core.flyTile_csr (c : Core) (a : Fin 8) (k : Nat) (op : TileOp) : (c.flyTile a k op).csr = c.csr := rfl
@[simp] theorem Core.flyTile_rgn (c : Core) (a : Fin 8) (k : Nat) (op : TileOp) : (c.flyTile a k op).rgn = c.rgn := rfl
@[simp] theorem Core.flyTile_field (c : Core) (a : Fin 8) (k : Nat) (op : TileOp) : (c.flyTile a k op).field = c.field := rfl
@[simp] theorem Core.flyTile_flight (c : Core) (a : Fin 8) (k : Nat) (op : TileOp) : (c.flyTile a k op).flight = c.flight := rfl
@[simp] theorem Core.flyTile_unserved (c : Core) (a : Fin 8) (k : Nat) (op : TileOp) : (c.flyTile a k op).unserved = c.unserved := rfl
@[simp] theorem Core.flyTile_loads (c : Core) (a : Fin 8) (k : Nat) (op : TileOp) : (c.flyTile a k op).loads = c.loads := rfl
@[simp] theorem Core.flyTile_queue0 (c : Core) (a : Fin 8) (k : Nat) (op : TileOp) : (c.flyTile a k op).queue0 = c.queue0 := rfl
@[simp] theorem Core.flyTile_queue1 (c : Core) (a : Fin 8) (k : Nat) (op : TileOp) : (c.flyTile a k op).queue1 = c.queue1 := rfl
@[simp] theorem Core.flyTile_nextCmd (c : Core) (a : Fin 8) (k : Nat) (op : TileOp) : (c.flyTile a k op).nextCmd = c.nextCmd := rfl
@[simp] theorem Core.flyTile_handles (c : Core) (a : Fin 8) (k : Nat) (op : TileOp) : (c.flyTile a k op).handles = c.handles := rfl
@[simp] theorem Core.flyTile_turn (c : Core) (a : Fin 8) (k : Nat) (op : TileOp) : (c.flyTile a k op).turn = c.turn := rfl
@[simp] theorem Core.flyTile_rollback (c : Core) (a : Fin 8) (k : Nat) (op : TileOp) : (c.flyTile a k op).rollback = c.rollback := rfl
@[simp] theorem Core.flyTile_image (c : Core) (a : Fin 8) (k : Nat) (op : TileOp) : (c.flyTile a k op).image = c.image := rfl
@[simp] theorem Core.flyTile_shImage (c : Core) (a : Fin 8) (k : Nat) (op : TileOp) : (c.flyTile a k op).shImage = c.shImage := rfl
@[simp] theorem Core.flyTile_team (c : Core) (a : Fin 8) (k : Nat) (op : TileOp) : (c.flyTile a k op).team = c.team := rfl
@[simp] theorem Core.flyTile_tlb (c : Core) (a : Fin 8) (k : Nat) (op : TileOp) : (c.flyTile a k op).tlb = c.tlb := rfl
@[simp] theorem Core.flyTile_closed (c : Core) (a : Fin 8) (k : Nat) (op : TileOp) : (c.flyTile a k op).closed = c.closed := rfl
@[simp] theorem Core.flyTile_copied (c : Core) (a : Fin 8) (k : Nat) (op : TileOp) : (c.flyTile a k op).copied = c.copied := rfl
@[simp] theorem Core.flyTile_lapsed (c : Core) (a : Fin 8) (k : Nat) (op : TileOp) : (c.flyTile a k op).lapsed = c.lapsed := rfl
@[simp] theorem Core.flyTile_flaws (c : Core) (a : Fin 8) (k : Nat) (op : TileOp) : (c.flyTile a k op).flaws = c.flaws := rfl
@[simp] theorem Core.flyTile_portHold (c : Core) (a : Fin 8) (k : Nat) (op : TileOp) : (c.flyTile a k op).portHold = c.portHold := rfl
@[simp] theorem Core.flyTile_sentLoads (c : Core) (a : Fin 8) (k : Nat) (op : TileOp) : (c.flyTile a k op).sentLoads = c.sentLoads := rfl
@[simp] theorem Core.ws_seq (c : Core) (n : Fin 64) (v : Double) : (c.ws n v).seq = c.seq := by unfold Core.ws; split <;> rfl
@[simp] theorem Core.ws_vec (c : Core) (n : Fin 64) (v : Double) : (c.ws n v).vec = c.vec := by unfold Core.ws; split <;> rfl
@[simp] theorem Core.ws_rings (c : Core) (n : Fin 64) (v : Double) : (c.ws n v).rings = c.rings := by unfold Core.ws; split <;> rfl
@[simp] theorem Core.ws_bars (c : Core) (n : Fin 64) (v : Double) : (c.ws n v).bars = c.bars := by unfold Core.ws; split <;> rfl
@[simp] theorem Core.ws_desc (c : Core) (n : Fin 64) (v : Double) : (c.ws n v).desc = c.desc := by unfold Core.ws; split <;> rfl
@[simp] theorem Core.ws_mat (c : Core) (n : Fin 64) (v : Double) : (c.ws n v).mat = c.mat := by unfold Core.ws; split <;> rfl
@[simp] theorem Core.ws_csr (c : Core) (n : Fin 64) (v : Double) : (c.ws n v).csr = c.csr := by unfold Core.ws; split <;> rfl
@[simp] theorem Core.ws_rgn (c : Core) (n : Fin 64) (v : Double) : (c.ws n v).rgn = c.rgn := by unfold Core.ws; split <;> rfl
@[simp] theorem Core.ws_field (c : Core) (n : Fin 64) (v : Double) : (c.ws n v).field = c.field := by unfold Core.ws; split <;> rfl
@[simp] theorem Core.ws_unserved (c : Core) (n : Fin 64) (v : Double) : (c.ws n v).unserved = c.unserved := by unfold Core.ws; split <;> rfl
@[simp] theorem Core.ws_loads (c : Core) (n : Fin 64) (v : Double) : (c.ws n v).loads = c.loads := by unfold Core.ws; split <;> rfl
@[simp] theorem Core.ws_queue0 (c : Core) (n : Fin 64) (v : Double) : (c.ws n v).queue0 = c.queue0 := by unfold Core.ws; split <;> rfl
@[simp] theorem Core.ws_queue1 (c : Core) (n : Fin 64) (v : Double) : (c.ws n v).queue1 = c.queue1 := by unfold Core.ws; split <;> rfl
@[simp] theorem Core.ws_nextCmd (c : Core) (n : Fin 64) (v : Double) : (c.ws n v).nextCmd = c.nextCmd := by unfold Core.ws; split <;> rfl
@[simp] theorem Core.ws_handles (c : Core) (n : Fin 64) (v : Double) : (c.ws n v).handles = c.handles := by unfold Core.ws; split <;> rfl
@[simp] theorem Core.ws_turn (c : Core) (n : Fin 64) (v : Double) : (c.ws n v).turn = c.turn := by unfold Core.ws; split <;> rfl
@[simp] theorem Core.ws_rollback (c : Core) (n : Fin 64) (v : Double) : (c.ws n v).rollback = c.rollback := by unfold Core.ws; split <;> rfl
@[simp] theorem Core.ws_image (c : Core) (n : Fin 64) (v : Double) : (c.ws n v).image = c.image := by unfold Core.ws; split <;> rfl
@[simp] theorem Core.ws_shImage (c : Core) (n : Fin 64) (v : Double) : (c.ws n v).shImage = c.shImage := by unfold Core.ws; split <;> rfl
@[simp] theorem Core.ws_team (c : Core) (n : Fin 64) (v : Double) : (c.ws n v).team = c.team := by unfold Core.ws; split <;> rfl
@[simp] theorem Core.ws_tlb (c : Core) (n : Fin 64) (v : Double) : (c.ws n v).tlb = c.tlb := by unfold Core.ws; split <;> rfl
@[simp] theorem Core.ws_closed (c : Core) (n : Fin 64) (v : Double) : (c.ws n v).closed = c.closed := by unfold Core.ws; split <;> rfl
@[simp] theorem Core.ws_copied (c : Core) (n : Fin 64) (v : Double) : (c.ws n v).copied = c.copied := by unfold Core.ws; split <;> rfl
@[simp] theorem Core.ws_lapsed (c : Core) (n : Fin 64) (v : Double) : (c.ws n v).lapsed = c.lapsed := by unfold Core.ws; split <;> rfl
@[simp] theorem Core.ws_flaws (c : Core) (n : Fin 64) (v : Double) : (c.ws n v).flaws = c.flaws := by unfold Core.ws; split <;> rfl
@[simp] theorem Core.ws_portHold (c : Core) (n : Fin 64) (v : Double) : (c.ws n v).portHold = c.portHold := by unfold Core.ws; split <;> rfl
@[simp] theorem Core.ws_sentLoads (c : Core) (n : Fin 64) (v : Double) : (c.ws n v).sentLoads = c.sentLoads := by unfold Core.ws; split <;> rfl
@[simp] theorem Core.wp_seq (c : Core) (n : Fin 16) (b : Bool) : (c.wp n b).seq = c.seq := by unfold Core.wp; split <;> rfl
@[simp] theorem Core.wp_vec (c : Core) (n : Fin 16) (b : Bool) : (c.wp n b).vec = c.vec := by unfold Core.wp; split <;> rfl
@[simp] theorem Core.wp_rings (c : Core) (n : Fin 16) (b : Bool) : (c.wp n b).rings = c.rings := by unfold Core.wp; split <;> rfl
@[simp] theorem Core.wp_bars (c : Core) (n : Fin 16) (b : Bool) : (c.wp n b).bars = c.bars := by unfold Core.wp; split <;> rfl
@[simp] theorem Core.wp_desc (c : Core) (n : Fin 16) (b : Bool) : (c.wp n b).desc = c.desc := by unfold Core.wp; split <;> rfl
@[simp] theorem Core.wp_mat (c : Core) (n : Fin 16) (b : Bool) : (c.wp n b).mat = c.mat := by unfold Core.wp; split <;> rfl
@[simp] theorem Core.wp_csr (c : Core) (n : Fin 16) (b : Bool) : (c.wp n b).csr = c.csr := by unfold Core.wp; split <;> rfl
@[simp] theorem Core.wp_rgn (c : Core) (n : Fin 16) (b : Bool) : (c.wp n b).rgn = c.rgn := by unfold Core.wp; split <;> rfl
@[simp] theorem Core.wp_field (c : Core) (n : Fin 16) (b : Bool) : (c.wp n b).field = c.field := by unfold Core.wp; split <;> rfl
@[simp] theorem Core.wp_flight (c : Core) (n : Fin 16) (b : Bool) : (c.wp n b).flight = c.flight := by unfold Core.wp; split <;> rfl
@[simp] theorem Core.wp_unserved (c : Core) (n : Fin 16) (b : Bool) : (c.wp n b).unserved = c.unserved := by unfold Core.wp; split <;> rfl
@[simp] theorem Core.wp_loads (c : Core) (n : Fin 16) (b : Bool) : (c.wp n b).loads = c.loads := by unfold Core.wp; split <;> rfl
@[simp] theorem Core.wp_queue0 (c : Core) (n : Fin 16) (b : Bool) : (c.wp n b).queue0 = c.queue0 := by unfold Core.wp; split <;> rfl
@[simp] theorem Core.wp_queue1 (c : Core) (n : Fin 16) (b : Bool) : (c.wp n b).queue1 = c.queue1 := by unfold Core.wp; split <;> rfl
@[simp] theorem Core.wp_nextCmd (c : Core) (n : Fin 16) (b : Bool) : (c.wp n b).nextCmd = c.nextCmd := by unfold Core.wp; split <;> rfl
@[simp] theorem Core.wp_handles (c : Core) (n : Fin 16) (b : Bool) : (c.wp n b).handles = c.handles := by unfold Core.wp; split <;> rfl
@[simp] theorem Core.wp_turn (c : Core) (n : Fin 16) (b : Bool) : (c.wp n b).turn = c.turn := by unfold Core.wp; split <;> rfl
@[simp] theorem Core.wp_rollback (c : Core) (n : Fin 16) (b : Bool) : (c.wp n b).rollback = c.rollback := by unfold Core.wp; split <;> rfl
@[simp] theorem Core.wp_image (c : Core) (n : Fin 16) (b : Bool) : (c.wp n b).image = c.image := by unfold Core.wp; split <;> rfl
@[simp] theorem Core.wp_shImage (c : Core) (n : Fin 16) (b : Bool) : (c.wp n b).shImage = c.shImage := by unfold Core.wp; split <;> rfl
@[simp] theorem Core.wp_team (c : Core) (n : Fin 16) (b : Bool) : (c.wp n b).team = c.team := by unfold Core.wp; split <;> rfl
@[simp] theorem Core.wp_tlb (c : Core) (n : Fin 16) (b : Bool) : (c.wp n b).tlb = c.tlb := by unfold Core.wp; split <;> rfl
@[simp] theorem Core.wp_closed (c : Core) (n : Fin 16) (b : Bool) : (c.wp n b).closed = c.closed := by unfold Core.wp; split <;> rfl
@[simp] theorem Core.wp_copied (c : Core) (n : Fin 16) (b : Bool) : (c.wp n b).copied = c.copied := by unfold Core.wp; split <;> rfl
@[simp] theorem Core.wp_lapsed (c : Core) (n : Fin 16) (b : Bool) : (c.wp n b).lapsed = c.lapsed := by unfold Core.wp; split <;> rfl
@[simp] theorem Core.wp_flaws (c : Core) (n : Fin 16) (b : Bool) : (c.wp n b).flaws = c.flaws := by unfold Core.wp; split <;> rfl
@[simp] theorem Core.wp_portHold (c : Core) (n : Fin 16) (b : Bool) : (c.wp n b).portHold = c.portHold := by unfold Core.wp; split <;> rfl
@[simp] theorem Core.wp_sentLoads (c : Core) (n : Fin 16) (b : Bool) : (c.wp n b).sentLoads = c.sentLoads := by unfold Core.wp; split <;> rfl
@[simp] theorem Core.wsLate_seq (c : Core) (k : Nat) (n : Fin 64) (v : Double) : (c.wsLate k n v).seq = c.seq := by unfold Core.wsLate; split <;> rfl
@[simp] theorem Core.wsLate_x (c : Core) (k : Nat) (n : Fin 64) (v : Double) : (c.wsLate k n v).x = c.x := by unfold Core.wsLate; split <;> rfl
@[simp] theorem Core.wsLate_vec (c : Core) (k : Nat) (n : Fin 64) (v : Double) : (c.wsLate k n v).vec = c.vec := by unfold Core.wsLate; split <;> rfl
@[simp] theorem Core.wsLate_rings (c : Core) (k : Nat) (n : Fin 64) (v : Double) : (c.wsLate k n v).rings = c.rings := by unfold Core.wsLate; split <;> rfl
@[simp] theorem Core.wsLate_bars (c : Core) (k : Nat) (n : Fin 64) (v : Double) : (c.wsLate k n v).bars = c.bars := by unfold Core.wsLate; split <;> rfl
@[simp] theorem Core.wsLate_desc (c : Core) (k : Nat) (n : Fin 64) (v : Double) : (c.wsLate k n v).desc = c.desc := by unfold Core.wsLate; split <;> rfl
@[simp] theorem Core.wsLate_mat (c : Core) (k : Nat) (n : Fin 64) (v : Double) : (c.wsLate k n v).mat = c.mat := by unfold Core.wsLate; split <;> rfl
@[simp] theorem Core.wsLate_csr (c : Core) (k : Nat) (n : Fin 64) (v : Double) : (c.wsLate k n v).csr = c.csr := by unfold Core.wsLate; split <;> rfl
@[simp] theorem Core.wsLate_rgn (c : Core) (k : Nat) (n : Fin 64) (v : Double) : (c.wsLate k n v).rgn = c.rgn := by unfold Core.wsLate; split <;> rfl
@[simp] theorem Core.wsLate_field (c : Core) (k : Nat) (n : Fin 64) (v : Double) : (c.wsLate k n v).field = c.field := by unfold Core.wsLate; split <;> rfl
@[simp] theorem Core.wsLate_unserved (c : Core) (k : Nat) (n : Fin 64) (v : Double) : (c.wsLate k n v).unserved = c.unserved := by unfold Core.wsLate; split <;> rfl
@[simp] theorem Core.wsLate_loads (c : Core) (k : Nat) (n : Fin 64) (v : Double) : (c.wsLate k n v).loads = c.loads := by unfold Core.wsLate; split <;> rfl
@[simp] theorem Core.wsLate_queue0 (c : Core) (k : Nat) (n : Fin 64) (v : Double) : (c.wsLate k n v).queue0 = c.queue0 := by unfold Core.wsLate; split <;> rfl
@[simp] theorem Core.wsLate_queue1 (c : Core) (k : Nat) (n : Fin 64) (v : Double) : (c.wsLate k n v).queue1 = c.queue1 := by unfold Core.wsLate; split <;> rfl
@[simp] theorem Core.wsLate_nextCmd (c : Core) (k : Nat) (n : Fin 64) (v : Double) : (c.wsLate k n v).nextCmd = c.nextCmd := by unfold Core.wsLate; split <;> rfl
@[simp] theorem Core.wsLate_handles (c : Core) (k : Nat) (n : Fin 64) (v : Double) : (c.wsLate k n v).handles = c.handles := by unfold Core.wsLate; split <;> rfl
@[simp] theorem Core.wsLate_turn (c : Core) (k : Nat) (n : Fin 64) (v : Double) : (c.wsLate k n v).turn = c.turn := by unfold Core.wsLate; split <;> rfl
@[simp] theorem Core.wsLate_rollback (c : Core) (k : Nat) (n : Fin 64) (v : Double) : (c.wsLate k n v).rollback = c.rollback := by unfold Core.wsLate; split <;> rfl
@[simp] theorem Core.wsLate_image (c : Core) (k : Nat) (n : Fin 64) (v : Double) : (c.wsLate k n v).image = c.image := by unfold Core.wsLate; split <;> rfl
@[simp] theorem Core.wsLate_shImage (c : Core) (k : Nat) (n : Fin 64) (v : Double) : (c.wsLate k n v).shImage = c.shImage := by unfold Core.wsLate; split <;> rfl
@[simp] theorem Core.wsLate_team (c : Core) (k : Nat) (n : Fin 64) (v : Double) : (c.wsLate k n v).team = c.team := by unfold Core.wsLate; split <;> rfl
@[simp] theorem Core.wsLate_tlb (c : Core) (k : Nat) (n : Fin 64) (v : Double) : (c.wsLate k n v).tlb = c.tlb := by unfold Core.wsLate; split <;> rfl
@[simp] theorem Core.wsLate_closed (c : Core) (k : Nat) (n : Fin 64) (v : Double) : (c.wsLate k n v).closed = c.closed := by unfold Core.wsLate; split <;> rfl
@[simp] theorem Core.wsLate_copied (c : Core) (k : Nat) (n : Fin 64) (v : Double) : (c.wsLate k n v).copied = c.copied := by unfold Core.wsLate; split <;> rfl
@[simp] theorem Core.wsLate_lapsed (c : Core) (k : Nat) (n : Fin 64) (v : Double) : (c.wsLate k n v).lapsed = c.lapsed := by unfold Core.wsLate; split <;> rfl
@[simp] theorem Core.wsLate_flaws (c : Core) (k : Nat) (n : Fin 64) (v : Double) : (c.wsLate k n v).flaws = c.flaws := by unfold Core.wsLate; split <;> rfl
@[simp] theorem Core.wsLate_portHold (c : Core) (k : Nat) (n : Fin 64) (v : Double) : (c.wsLate k n v).portHold = c.portHold := by unfold Core.wsLate; split <;> rfl
@[simp] theorem Core.wsLate_sentLoads (c : Core) (k : Nat) (n : Fin 64) (v : Double) : (c.wsLate k n v).sentLoads = c.sentLoads := by unfold Core.wsLate; split <;> rfl
@[simp] theorem Core.setStages_seq (c : Core) : (c.setStages).seq = c.seq := rfl
@[simp] theorem Core.setStages_vec (c : Core) : (c.setStages).vec = c.vec := rfl
@[simp] theorem Core.setStages_rings (c : Core) : (c.setStages).rings = c.rings := rfl
@[simp] theorem Core.setStages_bars (c : Core) : (c.setStages).bars = c.bars := rfl
@[simp] theorem Core.setStages_desc (c : Core) : (c.setStages).desc = c.desc := rfl
@[simp] theorem Core.setStages_mat (c : Core) : (c.setStages).mat = c.mat := rfl
@[simp] theorem Core.setStages_csr (c : Core) : (c.setStages).csr = c.csr := rfl
@[simp] theorem Core.setStages_rgn (c : Core) : (c.setStages).rgn = c.rgn := rfl
@[simp] theorem Core.setStages_field (c : Core) : (c.setStages).field = c.field := rfl
@[simp] theorem Core.setStages_flight (c : Core) : (c.setStages).flight = c.flight := rfl
@[simp] theorem Core.setStages_unserved (c : Core) : (c.setStages).unserved = c.unserved := rfl
@[simp] theorem Core.setStages_loads (c : Core) : (c.setStages).loads = c.loads := rfl
@[simp] theorem Core.setStages_queue0 (c : Core) : (c.setStages).queue0 = c.queue0 := rfl
@[simp] theorem Core.setStages_queue1 (c : Core) : (c.setStages).queue1 = c.queue1 := rfl
@[simp] theorem Core.setStages_nextCmd (c : Core) : (c.setStages).nextCmd = c.nextCmd := rfl
@[simp] theorem Core.setStages_handles (c : Core) : (c.setStages).handles = c.handles := rfl
@[simp] theorem Core.setStages_turn (c : Core) : (c.setStages).turn = c.turn := rfl
@[simp] theorem Core.setStages_rollback (c : Core) : (c.setStages).rollback = c.rollback := rfl
@[simp] theorem Core.setStages_image (c : Core) : (c.setStages).image = c.image := rfl
@[simp] theorem Core.setStages_shImage (c : Core) : (c.setStages).shImage = c.shImage := rfl
@[simp] theorem Core.setStages_team (c : Core) : (c.setStages).team = c.team := rfl
@[simp] theorem Core.setStages_tlb (c : Core) : (c.setStages).tlb = c.tlb := rfl
@[simp] theorem Core.setStages_closed (c : Core) : (c.setStages).closed = c.closed := rfl
@[simp] theorem Core.setStages_copied (c : Core) : (c.setStages).copied = c.copied := rfl
@[simp] theorem Core.setStages_lapsed (c : Core) : (c.setStages).lapsed = c.lapsed := rfl
@[simp] theorem Core.setStages_flaws (c : Core) : (c.setStages).flaws = c.flaws := rfl
@[simp] theorem Core.setStages_portHold (c : Core) : (c.setStages).portHold = c.portHold := rfl
@[simp] theorem Core.setStages_sentLoads (c : Core) : (c.setStages).sentLoads = c.sentLoads := rfl

end Sys2Proof.Machine
end

