-- ==== Sys2Proof/Laws/Slot.lean ====
section
/-! SUPPORT. What a slot operation can do: wait, trap, pass as a null issue, or have its effect and finish (R217, R221, R446). -/

namespace Sys2Proof.Machine

/-- A ready operation whose action succeeds has its effect. -/
theorem slotOp_ok {i : Instr} {s t : State} {act : State → Except Trap State} (h : Ready i s) (ha : act s = .ok t) :
    slotOp i act s = .next (t.finish i) := by
  unfold slotOp
  simp only [h.rings, h.checks, h.guard, h.depth, ha]
  simp

/-- A ready operation whose action traps takes that trap. -/
theorem slotOp_trap {i : Instr} {s : State} {t : Trap} {act : State → Except Trap State} (h : Ready i s) (ha : act s = .error t) :
    slotOp i act s = .next (s.slotTrap i t) := by
  unfold slotOp
  simp only [h.rings, h.checks, h.guard, h.depth, ha]
  simp [State.slotTrap]

/-- Everything that a slot operation can do. -/
theorem slotOp_cases (i : Instr) (act : State → Except Trap State) (s : State) :
    slotOp i act s = .next s.stall ∨ (∃ t, slotOp i act s = .next (s.slotTrap i t)) ∨ slotOp i act s = .next (s.finish i)
      ∨ ∃ t, act s = .ok t ∧ slotOp i act s = .next (t.finish i) := by
  unfold slotOp State.slotTrap
  simp only
  split
  · exact .inl rfl
  · split
    · exact .inr (.inl ⟨_, rfl⟩)
    · split
      · exact .inr (.inr (.inl rfl))
      · split
        · exact .inr (.inl ⟨_, rfl⟩)
        · split
          · exact .inr (.inl ⟨_, rfl⟩)
          · split
            · exact .inr (.inl ⟨_, rfl⟩)
            · next s' h => exact .inr (.inr (.inr ⟨s', h, rfl⟩))

/-- A slot operation never faults and is never refused. -/
theorem slotOp_next (i : Instr) (act : State → Except Trap State) (s : State) : ∃ t, slotOp i act s = .next t := by
  rcases slotOp_cases i act s with h | ⟨t, h⟩ | h | ⟨t, _, h⟩ <;> exact ⟨_, h⟩

/-- An operation whose encoding has a reserved field, a reserved operand, a reserved format or a class that is not declared or is
fenced traps before its effect (R446 steps 3 to 7). -/
theorem slotOp_check {i : Instr} {s : State} {t : Trap} {act : State → Except Trap State} (h : s.view.checkTrap i = some t)
    (hr : s.view.ringState i ≠ .later) : slotOp i act s = .next (s.slotTrap i t) := by
  unfold slotOp State.slotTrap
  simp [h, hr]

/-- A null issue: the guard is off, and nothing happens but the passing of the slot (R221). -/
theorem slotOp_null {i : Instr} {s : State} {act : State → Except Trap State} (hc : s.view.checkTrap i = none)
    (hg : (i.guard.map s.view.guardOff).getD false = true) : slotOp i act s = .next (s.finish i) := by
  have hr : s.view.ringState i = .met := by unfold Core.ringState; simp [hg]
  unfold slotOp
  simp [hr, hc, hg]

/-- Outside a bundle of several slots, a slot reads the core as it stands. -/
theorem State.view_single {s : State} (h : s.issue.pre = none) : s.view = s.core s.here := by unfold State.view State.cur; rw [h]; rfl

end Sys2Proof.Machine
end

