-- ==== Sys2Proof/Laws/Commit.lean ====
section
/-! SUPPORT. What the commit of a bundle does to the state (R217, R253), once for every operation. -/

namespace Sys2Proof.Machine

theorem tset_tset {α : Type} (t : Tbl α) (k : Nat) (v w : α) : tset (tset t k v) k w = tset t k w := by
  induction t with
  | nil => simp [tset]
  | cons p rest ih =>
    obtain ⟨j, x⟩ := p
    simp only [tset]
    split
    · simp [tset]
    · split
      · simp [tset]
      · next h1 h2 => simp [tset, h1, h2, ih]

theorem State.updCore_updCore (s : State) (n : Nat) (f g : Core → Core) : (s.updCore n f).updCore n g = s.updCore n (fun c => g (f c)) := by
  unfold State.updCore State.setCore State.core
  simp only [tset_tset, tget_tset]

@[simp] theorem State.upd_upd (s : State) (f g : Core → Core) : (s.upd f).upd g = s.upd (fun c => g (f c)) :=
  State.updCore_updCore s s.here f g

theorem State.core_upd (s : State) (f : Core → Core) : (s.upd f).core s.here = f s.cur := State.core_updCore _ _ _

theorem State.cur_upd (s : State) (f : Core → Core) : (s.upd f).cur = f s.cur := State.core_updCore _ _ _

/-- The change that a commit makes to the core in hand: the latch of the slot, and the sequencer. -/
def commitOf (i : Instr) (u : State) (c : Core) : Core :=
  Core.commitSeq { c with seq := { c.seq with latch := c.seq.latch.setIfInBounds (u.slotOf i).index (some (bodyOf i)) } }
    { u.issue with dests := u.issue.dests ++ i.dests } (u.tick * 64 + u.instant)

/-- The commit of a bundle that leaves nothing behind and names no destination twice. -/
theorem retire_plain {v : State} (once : firstTwice v.issue.dests = none) (leave : v.issue.leave = .stay)
    (reseed : v.issue.reseed = false) (post : v.issue.post = none) (moncap : v.issue.moncap = none) :
    v.retire = { v.upd (fun c => c.commitSeq v.issue (v.tick * 64 + v.instant)) with issue := { Issue.init with core := v.here } } := by
  unfold State.retire
  simp only [once, State.reseed, reseed, post, moncap, leave, State.commitLeave, Bool.false_eq_true, if_false]
  rfl

/-- The slot's own part of its end: its latch, and its destinations. -/
theorem fillLatch_eq (i : Instr) (u : State) :
    u.fillLatch i = { u.upd (fun c => { c with seq := { c.seq with latch := c.seq.latch.setIfInBounds (u.slotOf i).index (some (bodyOf i)) } })
      with issue := { u.issue with dests := u.issue.dests ++ i.dests } } := rfl

/-- The last slot of a bundle: everything that its commit changes. -/
theorem finish_last {i : Instr} {u : State} (h : Last i u) :
    u.finish i = { u.upd (commitOf i u) with issue := { Issue.init with core := u.here } } := by
  have hm : (u.fillLatch i).issue.more = false := h.more
  unfold State.finish
  simp only [hm, Bool.false_eq_true, if_false]
  rw [retire_plain (v := u.fillLatch i) h.once h.leave h.reseed h.post h.moncap]
  show State.mk .. = State.mk ..
  have := State.updCore_updCore u u.here (fun c => { c with seq := { c.seq with latch := c.seq.latch.setIfInBounds (u.slotOf i).index (some (bodyOf i)) } })
    (fun c => c.commitSeq { u.issue with dests := u.issue.dests ++ i.dests } (u.tick * 64 + u.instant))
  exact congrArg (fun x : State => { x with issue := { Issue.init with core := u.here } }) this

/-- A slot that others follow: its latch is filled and its destinations join the bundle's. -/
theorem finish_more {i : Instr} {u : State} (h : u.issue.more = true) : u.finish i = u.fillLatch i := by
  have hm : (u.fillLatch i).issue.more = true := h
  unfold State.finish
  simp only [hm, if_true]

theorem setStages_eq (c : Core) : c.setStages = { c with x := { c.x with ps := c.setStages.x.ps } } := by
  unfold Core.setStages; rfl

theorem loopBack_eq (next : Nat) (l : List Loop) : ∀ c : Core, (c.loopBack next l).1 =
    { c with x := { c.x with lc := (c.loopBack next l).1.x.lc, ps := (c.loopBack next l).1.x.ps, loops := (c.loopBack next l).1.x.loops } } := by
  induction l with
  | nil => intro c; rfl
  | cons a rest ih =>
    intro c
    unfold Core.loopBack
    split
    · rfl
    · simp only
      split
      · exact setStages_eq _
      · rw [ih]; rw [setStages_eq]

theorem commitSeq_commits (c : Core) (iss : Issue) (now : Nat) : Commits c (c.commitSeq iss now) := by
  unfold Commits Core.commitSeq
  cases iss.jump with
  | some t => rfl
  | none =>
    simp only
    rw [loopBack_eq]

theorem commitOf_commits (i : Instr) (u : State) (c : Core) : Commits c (commitOf i u c) := by
  have := commitSeq_commits { c with seq := { c.seq with latch := c.seq.latch.setIfInBounds (u.slotOf i).index (some (bodyOf i)) } }
    { u.issue with dests := u.issue.dests ++ i.dests } (u.tick * 64 + u.instant)
  unfold Commits at *
  exact this

theorem onlyHere_upd (s : State) (g : Core → Core) (I : Issue) : OnlyHere s { s.upd g with issue := I } := by
  have e : ({ s.upd g with issue := I } : State).core s.here = g s.cur := State.core_upd s g
  unfold OnlyHere
  rw [e]
  rfl

theorem Last.upd {i : Instr} {s : State} (h : Last i s) (f : Core → Core) : Last i (s.upd f) :=
  ⟨h.more, h.once, h.leave, h.reseed, h.post, h.moncap⟩

/-- An operation whose effect is a change of the core in hand leaves everything else alone. -/
theorem leaves_of_effects {i : Instr} {s : State} {f : Core → Core} (h : Effects i s (s.upd f)) (hl : Last i s) : Leaves i s f := by
  refine ⟨_, h, ?_, ?_⟩
  · rw [finish_last (hl.upd f), State.upd_upd]
    exact onlyHere_upd s _ _
  · rw [finish_last (hl.upd f), State.upd_upd]
    have e : ({ s.upd (fun c => commitOf i (s.upd f) (f c)) with issue := { Issue.init with core := (s.upd f).here } } : State).core s.here
        = commitOf i (s.upd f) (f s.cur) := State.core_upd s (fun c => commitOf i (s.upd f) (f c))
    rw [e]
    exact commitOf_commits _ _ _

end Sys2Proof.Machine
end

