-- ==== Sys2Proof/Laws/PerInstr.lean ====
section
/-! SUPPORT. Decoding an encoded slot body gives the operation back, one lemma per constructor of `Instr` (R219,
R223-R225). `take` reads a field of a packed body off its parts; `take_pack` is the one arithmetic fact behind every
lemma. -/

namespace Sys2Proof.Laws

/-- The body of a well-formed operation decodes, in the first slot of its unit, to the operation. -/
def Encoding.Statement (i : Instr) : Prop :=
  i.wf = true → ∀ u w, i.unit = some u → encodeBody i = some w → decodeBody u.slot w = .ok i

/-- The parts of a body stand in descending places, each below the one before it; `ns` are their widths. -/
def Fits : List (Nat × Nat) → List Nat → Nat → Prop
  | [], _, _ => True
  | (v, k) :: r, n :: ns, m => v < 2 ^ n ∧ k + n ≤ m ∧ Fits r ns k
  | _ :: _, [], _ => False

/-- What the parts of a body put into the `len` bits from `lo`: a part, or zero where none stands. -/
def take (lo len : Nat) : List (Nat × Nat) → List Nat → Option Nat
  | (v, k) :: r, n :: ns =>
    if lo + len ≤ k then take lo len r ns
    else if k = lo ∧ n ≤ len then some v
    else if k + n ≤ lo then some 0 else none
  | _, _ => some 0

theorem pack_lt {l : List (Nat × Nat)} {ns : List Nat} {m : Nat} (h : Fits l ns m) : pack l < 2 ^ m := by
  induction l, ns, m using Fits.induct with
  | case1 ns m => exact Nat.two_pow_pos m
  | case2 v k r n ns m ih =>
    obtain ⟨hv, hk, hr⟩ := h
    calc v * 2 ^ k + pack r < v * 2 ^ k + 2 ^ k := Nat.add_lt_add_left (ih hr) _
      _ = (v + 1) * 2 ^ k := (Nat.succ_mul v _).symm
      _ ≤ 2 ^ n * 2 ^ k := Nat.mul_le_mul_right _ hv
      _ = 2 ^ (k + n) := by rw [← pow_add, Nat.add_comm]
      _ ≤ 2 ^ m := Nat.pow_le_pow_right (by decide) hk
  | case3 => exact h.elim

theorem take_pack {l : List (Nat × Nat)} {ns : List Nat} {m lo len x : Nat} (h : Fits l ns m)
    (hx : take lo len l ns = some x) : pack l / 2 ^ lo % 2 ^ len = x := by
  induction l, ns, m using Fits.induct with
  | case1 ns m =>
    cases ns <;> cases hx <;> simp [pack]
  | case2 v k r n ns m ih =>
    obtain ⟨hv, hk, hr⟩ := h
    have hlt := pack_lt hr
    simp only [take] at hx
    split at hx
    · next hle =>
      obtain ⟨c, rfl⟩ := Nat.exists_eq_add_of_le hle
      rw [← ih hr hx, pack, show v * 2 ^ (lo + len + c) = 2 ^ lo * (2 ^ len * (v * 2 ^ c)) by rw [pow_add, pow_add]; ring,
        Nat.mul_add_div (Nat.two_pow_pos lo), Nat.mul_add_mod]
    · split at hx
      · next hkn =>
        obtain ⟨rfl, hn⟩ := hkn
        cases hx
        rw [pack, Nat.mul_comm, Nat.mul_add_div (Nat.two_pow_pos k), Nat.div_eq_of_lt hlt, Nat.add_zero,
          Nat.mod_eq_of_lt (hv.trans_le (Nat.pow_le_pow_right (by decide) hn))]
      · split at hx
        · next hle =>
          cases hx
          have hall : pack ((v, k) :: r) < 2 ^ lo :=
            pack_lt (l := (v, k) :: r) (ns := n :: ns) (m := lo) ⟨hv, hle, hr⟩
          rw [Nat.div_eq_of_lt hall, Nat.zero_mod]
        · cases hx
  | case3 => exact h.elim

theorem pack_top {v k : Nat} {r : List (Nat × Nat)} {ns : List Nat} (h : Fits r ns k) :
    pack ((v, k) :: r) / 2 ^ k = v := by
  rw [pack, Nat.mul_comm, Nat.mul_add_div (Nat.two_pow_pos k), Nat.div_eq_of_lt (pack_lt h), Nat.add_zero]

theorem field_of {n len : Nat} [NeZero n] {w lo : Nat} {x : Fin n} (hn : n = 2 ^ len)
    (h : w / 2 ^ lo % 2 ^ len = x.val) : field n w lo = x :=
  Fin.ext (by subst hn; exact h)

theorem checked_of {w : Nat} {z : List (Nat × Nat)} {want : List (Nat × Nat × Nat × Nat)} {i : Instr}
    (hi : i.wf = true) (hz : zeroFault w z = none) (hw : wantFault w want = none) : checked w z want i = .ok i := by
  simp only [Instr.wf, Bool.and_eq_true, Option.isNone_iff_eq_none] at hi
  simp only [checked, hz, hw, hi.1, hi.2, minFault]

theorem zero_cons {w lo len : Nat} {r : List (Nat × Nat)} (h : w / 2 ^ lo % 2 ^ len = 0)
    (hr : zeroFault w r = none) : zeroFault w ((lo, len) :: r) = none := by
  simp only [zeroFault, h, hr]; rfl

theorem want_cons {w lo len v b : Nat} {r : List (Nat × Nat × Nat × Nat)} (h : w / 2 ^ lo % 2 ^ len = v)
    (hr : wantFault w r = none) : wantFault w ((lo, len, v, b) :: r) = none := by
  simp only [wantFault, h, hr, beq_self_eq_true, if_true]

theorem Encoding.add (d : Fin 64) (a : Fin 64) (b : Fin 64) : Encoding.Statement (.add d a b) := by
  intro hwf u w hunit henc
  cases hunit
  have e : pack ((0x01, 25) :: [(d.val, 19), (a.val, 13), (b.val, 7)]) = w := Option.some.inj henc
  have fit : Fits [(d.val, 19), (a.val, 13), (b.val, 7)] [6, 6, 6] 25 := ⟨d.isLt, by decide, ⟨a.isLt, by decide, ⟨b.isLt, by decide, trivial⟩⟩⟩
  have g0 : Fits ((0x01, 25) :: [(d.val, 19), (a.val, 13), (b.val, 7)]) (7 :: [6, 6, 6]) 32 := ⟨by decide, by decide, fit⟩
  have dcd : decodeS w = checked w [(0, 7)] [] (.add (field 64 w 19) (field 64 w 13) (field 64 w 7)) := by
    unfold decodeS
    rw [show w / 2 ^ 25 = 0x01 from e ▸ pack_top fit]
    rfl
  show decodeS w = _
  rw [dcd, field_of (x := d) (len := 6) rfl ((e ▸ take_pack (lo := 19) (len := 6) g0 rfl : w / 2 ^ 19 % 2 ^ 6 = _)), field_of (x := a) (len := 6) rfl ((e ▸ take_pack (lo := 13) (len := 6) g0 rfl : w / 2 ^ 13 % 2 ^ 6 = _)), field_of (x := b) (len := 6) rfl ((e ▸ take_pack (lo := 7) (len := 6) g0 rfl : w / 2 ^ 7 % 2 ^ 6 = _))]
  exact checked_of hwf (zero_cons ((e ▸ take_pack (lo := 0) (len := 7) g0 rfl : w / 2 ^ 0 % 2 ^ 7 = _)) rfl) rfl

theorem Encoding.sub (d : Fin 64) (a : Fin 64) (b : Fin 64) : Encoding.Statement (.sub d a b) := by
  intro hwf u w hunit henc
  cases hunit
  have e : pack ((0x02, 25) :: [(d.val, 19), (a.val, 13), (b.val, 7)]) = w := Option.some.inj henc
  have fit : Fits [(d.val, 19), (a.val, 13), (b.val, 7)] [6, 6, 6] 25 := ⟨d.isLt, by decide, ⟨a.isLt, by decide, ⟨b.isLt, by decide, trivial⟩⟩⟩
  have g0 : Fits ((0x02, 25) :: [(d.val, 19), (a.val, 13), (b.val, 7)]) (7 :: [6, 6, 6]) 32 := ⟨by decide, by decide, fit⟩
  have dcd : decodeS w = checked w [(0, 7)] [] (.sub (field 64 w 19) (field 64 w 13) (field 64 w 7)) := by
    unfold decodeS
    rw [show w / 2 ^ 25 = 0x02 from e ▸ pack_top fit]
    rfl
  show decodeS w = _
  rw [dcd, field_of (x := d) (len := 6) rfl ((e ▸ take_pack (lo := 19) (len := 6) g0 rfl : w / 2 ^ 19 % 2 ^ 6 = _)), field_of (x := a) (len := 6) rfl ((e ▸ take_pack (lo := 13) (len := 6) g0 rfl : w / 2 ^ 13 % 2 ^ 6 = _)), field_of (x := b) (len := 6) rfl ((e ▸ take_pack (lo := 7) (len := 6) g0 rfl : w / 2 ^ 7 % 2 ^ 6 = _))]
  exact checked_of hwf (zero_cons ((e ▸ take_pack (lo := 0) (len := 7) g0 rfl : w / 2 ^ 0 % 2 ^ 7 = _)) rfl) rfl

theorem Encoding.mul (d : Fin 64) (a : Fin 64) (b : Fin 64) : Encoding.Statement (.mul d a b) := by
  intro hwf u w hunit henc
  cases hunit
  have e : pack ((0x03, 25) :: [(d.val, 19), (a.val, 13), (b.val, 7)]) = w := Option.some.inj henc
  have fit : Fits [(d.val, 19), (a.val, 13), (b.val, 7)] [6, 6, 6] 25 := ⟨d.isLt, by decide, ⟨a.isLt, by decide, ⟨b.isLt, by decide, trivial⟩⟩⟩
  have g0 : Fits ((0x03, 25) :: [(d.val, 19), (a.val, 13), (b.val, 7)]) (7 :: [6, 6, 6]) 32 := ⟨by decide, by decide, fit⟩
  have dcd : decodeS w = checked w [(0, 7)] [] (.mul (field 64 w 19) (field 64 w 13) (field 64 w 7)) := by
    unfold decodeS
    rw [show w / 2 ^ 25 = 0x03 from e ▸ pack_top fit]
    rfl
  show decodeS w = _
  rw [dcd, field_of (x := d) (len := 6) rfl ((e ▸ take_pack (lo := 19) (len := 6) g0 rfl : w / 2 ^ 19 % 2 ^ 6 = _)), field_of (x := a) (len := 6) rfl ((e ▸ take_pack (lo := 13) (len := 6) g0 rfl : w / 2 ^ 13 % 2 ^ 6 = _)), field_of (x := b) (len := 6) rfl ((e ▸ take_pack (lo := 7) (len := 6) g0 rfl : w / 2 ^ 7 % 2 ^ 6 = _))]
  exact checked_of hwf (zero_cons ((e ▸ take_pack (lo := 0) (len := 7) g0 rfl : w / 2 ^ 0 % 2 ^ 7 = _)) rfl) rfl

theorem Encoding.mulh (d : Fin 64) (a : Fin 64) (b : Fin 64) : Encoding.Statement (.mulh d a b) := by
  intro hwf u w hunit henc
  cases hunit
  have e : pack ((0x04, 25) :: [(d.val, 19), (a.val, 13), (b.val, 7)]) = w := Option.some.inj henc
  have fit : Fits [(d.val, 19), (a.val, 13), (b.val, 7)] [6, 6, 6] 25 := ⟨d.isLt, by decide, ⟨a.isLt, by decide, ⟨b.isLt, by decide, trivial⟩⟩⟩
  have g0 : Fits ((0x04, 25) :: [(d.val, 19), (a.val, 13), (b.val, 7)]) (7 :: [6, 6, 6]) 32 := ⟨by decide, by decide, fit⟩
  have dcd : decodeS w = checked w [(0, 7)] [] (.mulh (field 64 w 19) (field 64 w 13) (field 64 w 7)) := by
    unfold decodeS
    rw [show w / 2 ^ 25 = 0x04 from e ▸ pack_top fit]
    rfl
  show decodeS w = _
  rw [dcd, field_of (x := d) (len := 6) rfl ((e ▸ take_pack (lo := 19) (len := 6) g0 rfl : w / 2 ^ 19 % 2 ^ 6 = _)), field_of (x := a) (len := 6) rfl ((e ▸ take_pack (lo := 13) (len := 6) g0 rfl : w / 2 ^ 13 % 2 ^ 6 = _)), field_of (x := b) (len := 6) rfl ((e ▸ take_pack (lo := 7) (len := 6) g0 rfl : w / 2 ^ 7 % 2 ^ 6 = _))]
  exact checked_of hwf (zero_cons ((e ▸ take_pack (lo := 0) (len := 7) g0 rfl : w / 2 ^ 0 % 2 ^ 7 = _)) rfl) rfl

theorem Encoding.mulhn (d : Fin 64) (a : Fin 64) (b : Fin 64) : Encoding.Statement (.mulhn d a b) := by
  intro hwf u w hunit henc
  cases hunit
  have e : pack ((0x05, 25) :: [(d.val, 19), (a.val, 13), (b.val, 7)]) = w := Option.some.inj henc
  have fit : Fits [(d.val, 19), (a.val, 13), (b.val, 7)] [6, 6, 6] 25 := ⟨d.isLt, by decide, ⟨a.isLt, by decide, ⟨b.isLt, by decide, trivial⟩⟩⟩
  have g0 : Fits ((0x05, 25) :: [(d.val, 19), (a.val, 13), (b.val, 7)]) (7 :: [6, 6, 6]) 32 := ⟨by decide, by decide, fit⟩
  have dcd : decodeS w = checked w [(0, 7)] [] (.mulhn (field 64 w 19) (field 64 w 13) (field 64 w 7)) := by
    unfold decodeS
    rw [show w / 2 ^ 25 = 0x05 from e ▸ pack_top fit]
    rfl
  show decodeS w = _
  rw [dcd, field_of (x := d) (len := 6) rfl ((e ▸ take_pack (lo := 19) (len := 6) g0 rfl : w / 2 ^ 19 % 2 ^ 6 = _)), field_of (x := a) (len := 6) rfl ((e ▸ take_pack (lo := 13) (len := 6) g0 rfl : w / 2 ^ 13 % 2 ^ 6 = _)), field_of (x := b) (len := 6) rfl ((e ▸ take_pack (lo := 7) (len := 6) g0 rfl : w / 2 ^ 7 % 2 ^ 6 = _))]
  exact checked_of hwf (zero_cons ((e ▸ take_pack (lo := 0) (len := 7) g0 rfl : w / 2 ^ 0 % 2 ^ 7 = _)) rfl) rfl

theorem Encoding.div (d : Fin 64) (a : Fin 64) (b : Fin 64) : Encoding.Statement (.div d a b) := by
  intro hwf u w hunit henc
  cases hunit
  have e : pack ((0x06, 25) :: [(d.val, 19), (a.val, 13), (b.val, 7)]) = w := Option.some.inj henc
  have fit : Fits [(d.val, 19), (a.val, 13), (b.val, 7)] [6, 6, 6] 25 := ⟨d.isLt, by decide, ⟨a.isLt, by decide, ⟨b.isLt, by decide, trivial⟩⟩⟩
  have g0 : Fits ((0x06, 25) :: [(d.val, 19), (a.val, 13), (b.val, 7)]) (7 :: [6, 6, 6]) 32 := ⟨by decide, by decide, fit⟩
  have dcd : decodeS w = checked w [(0, 7)] [] (.div (field 64 w 19) (field 64 w 13) (field 64 w 7)) := by
    unfold decodeS
    rw [show w / 2 ^ 25 = 0x06 from e ▸ pack_top fit]
    rfl
  show decodeS w = _
  rw [dcd, field_of (x := d) (len := 6) rfl ((e ▸ take_pack (lo := 19) (len := 6) g0 rfl : w / 2 ^ 19 % 2 ^ 6 = _)), field_of (x := a) (len := 6) rfl ((e ▸ take_pack (lo := 13) (len := 6) g0 rfl : w / 2 ^ 13 % 2 ^ 6 = _)), field_of (x := b) (len := 6) rfl ((e ▸ take_pack (lo := 7) (len := 6) g0 rfl : w / 2 ^ 7 % 2 ^ 6 = _))]
  exact checked_of hwf (zero_cons ((e ▸ take_pack (lo := 0) (len := 7) g0 rfl : w / 2 ^ 0 % 2 ^ 7 = _)) rfl) rfl

theorem Encoding.divn (d : Fin 64) (a : Fin 64) (b : Fin 64) : Encoding.Statement (.divn d a b) := by
  intro hwf u w hunit henc
  cases hunit
  have e : pack ((0x07, 25) :: [(d.val, 19), (a.val, 13), (b.val, 7)]) = w := Option.some.inj henc
  have fit : Fits [(d.val, 19), (a.val, 13), (b.val, 7)] [6, 6, 6] 25 := ⟨d.isLt, by decide, ⟨a.isLt, by decide, ⟨b.isLt, by decide, trivial⟩⟩⟩
  have g0 : Fits ((0x07, 25) :: [(d.val, 19), (a.val, 13), (b.val, 7)]) (7 :: [6, 6, 6]) 32 := ⟨by decide, by decide, fit⟩
  have dcd : decodeS w = checked w [(0, 7)] [] (.divn (field 64 w 19) (field 64 w 13) (field 64 w 7)) := by
    unfold decodeS
    rw [show w / 2 ^ 25 = 0x07 from e ▸ pack_top fit]
    rfl
  show decodeS w = _
  rw [dcd, field_of (x := d) (len := 6) rfl ((e ▸ take_pack (lo := 19) (len := 6) g0 rfl : w / 2 ^ 19 % 2 ^ 6 = _)), field_of (x := a) (len := 6) rfl ((e ▸ take_pack (lo := 13) (len := 6) g0 rfl : w / 2 ^ 13 % 2 ^ 6 = _)), field_of (x := b) (len := 6) rfl ((e ▸ take_pack (lo := 7) (len := 6) g0 rfl : w / 2 ^ 7 % 2 ^ 6 = _))]
  exact checked_of hwf (zero_cons ((e ▸ take_pack (lo := 0) (len := 7) g0 rfl : w / 2 ^ 0 % 2 ^ 7 = _)) rfl) rfl

theorem Encoding.rem (d : Fin 64) (a : Fin 64) (b : Fin 64) : Encoding.Statement (.rem d a b) := by
  intro hwf u w hunit henc
  cases hunit
  have e : pack ((0x08, 25) :: [(d.val, 19), (a.val, 13), (b.val, 7)]) = w := Option.some.inj henc
  have fit : Fits [(d.val, 19), (a.val, 13), (b.val, 7)] [6, 6, 6] 25 := ⟨d.isLt, by decide, ⟨a.isLt, by decide, ⟨b.isLt, by decide, trivial⟩⟩⟩
  have g0 : Fits ((0x08, 25) :: [(d.val, 19), (a.val, 13), (b.val, 7)]) (7 :: [6, 6, 6]) 32 := ⟨by decide, by decide, fit⟩
  have dcd : decodeS w = checked w [(0, 7)] [] (.rem (field 64 w 19) (field 64 w 13) (field 64 w 7)) := by
    unfold decodeS
    rw [show w / 2 ^ 25 = 0x08 from e ▸ pack_top fit]
    rfl
  show decodeS w = _
  rw [dcd, field_of (x := d) (len := 6) rfl ((e ▸ take_pack (lo := 19) (len := 6) g0 rfl : w / 2 ^ 19 % 2 ^ 6 = _)), field_of (x := a) (len := 6) rfl ((e ▸ take_pack (lo := 13) (len := 6) g0 rfl : w / 2 ^ 13 % 2 ^ 6 = _)), field_of (x := b) (len := 6) rfl ((e ▸ take_pack (lo := 7) (len := 6) g0 rfl : w / 2 ^ 7 % 2 ^ 6 = _))]
  exact checked_of hwf (zero_cons ((e ▸ take_pack (lo := 0) (len := 7) g0 rfl : w / 2 ^ 0 % 2 ^ 7 = _)) rfl) rfl

theorem Encoding.remn (d : Fin 64) (a : Fin 64) (b : Fin 64) : Encoding.Statement (.remn d a b) := by
  intro hwf u w hunit henc
  cases hunit
  have e : pack ((0x09, 25) :: [(d.val, 19), (a.val, 13), (b.val, 7)]) = w := Option.some.inj henc
  have fit : Fits [(d.val, 19), (a.val, 13), (b.val, 7)] [6, 6, 6] 25 := ⟨d.isLt, by decide, ⟨a.isLt, by decide, ⟨b.isLt, by decide, trivial⟩⟩⟩
  have g0 : Fits ((0x09, 25) :: [(d.val, 19), (a.val, 13), (b.val, 7)]) (7 :: [6, 6, 6]) 32 := ⟨by decide, by decide, fit⟩
  have dcd : decodeS w = checked w [(0, 7)] [] (.remn (field 64 w 19) (field 64 w 13) (field 64 w 7)) := by
    unfold decodeS
    rw [show w / 2 ^ 25 = 0x09 from e ▸ pack_top fit]
    rfl
  show decodeS w = _
  rw [dcd, field_of (x := d) (len := 6) rfl ((e ▸ take_pack (lo := 19) (len := 6) g0 rfl : w / 2 ^ 19 % 2 ^ 6 = _)), field_of (x := a) (len := 6) rfl ((e ▸ take_pack (lo := 13) (len := 6) g0 rfl : w / 2 ^ 13 % 2 ^ 6 = _)), field_of (x := b) (len := 6) rfl ((e ▸ take_pack (lo := 7) (len := 6) g0 rfl : w / 2 ^ 7 % 2 ^ 6 = _))]
  exact checked_of hwf (zero_cons ((e ▸ take_pack (lo := 0) (len := 7) g0 rfl : w / 2 ^ 0 % 2 ^ 7 = _)) rfl) rfl

theorem Encoding.and (d : Fin 64) (a : Fin 64) (b : Fin 64) : Encoding.Statement (.and d a b) := by
  intro hwf u w hunit henc
  cases hunit
  have e : pack ((0x0A, 25) :: [(d.val, 19), (a.val, 13), (b.val, 7)]) = w := Option.some.inj henc
  have fit : Fits [(d.val, 19), (a.val, 13), (b.val, 7)] [6, 6, 6] 25 := ⟨d.isLt, by decide, ⟨a.isLt, by decide, ⟨b.isLt, by decide, trivial⟩⟩⟩
  have g0 : Fits ((0x0A, 25) :: [(d.val, 19), (a.val, 13), (b.val, 7)]) (7 :: [6, 6, 6]) 32 := ⟨by decide, by decide, fit⟩
  have dcd : decodeS w = checked w [(0, 7)] [] (.and (field 64 w 19) (field 64 w 13) (field 64 w 7)) := by
    unfold decodeS
    rw [show w / 2 ^ 25 = 0x0A from e ▸ pack_top fit]
    rfl
  show decodeS w = _
  rw [dcd, field_of (x := d) (len := 6) rfl ((e ▸ take_pack (lo := 19) (len := 6) g0 rfl : w / 2 ^ 19 % 2 ^ 6 = _)), field_of (x := a) (len := 6) rfl ((e ▸ take_pack (lo := 13) (len := 6) g0 rfl : w / 2 ^ 13 % 2 ^ 6 = _)), field_of (x := b) (len := 6) rfl ((e ▸ take_pack (lo := 7) (len := 6) g0 rfl : w / 2 ^ 7 % 2 ^ 6 = _))]
  exact checked_of hwf (zero_cons ((e ▸ take_pack (lo := 0) (len := 7) g0 rfl : w / 2 ^ 0 % 2 ^ 7 = _)) rfl) rfl

theorem Encoding.or (d : Fin 64) (a : Fin 64) (b : Fin 64) : Encoding.Statement (.or d a b) := by
  intro hwf u w hunit henc
  cases hunit
  have e : pack ((0x0B, 25) :: [(d.val, 19), (a.val, 13), (b.val, 7)]) = w := Option.some.inj henc
  have fit : Fits [(d.val, 19), (a.val, 13), (b.val, 7)] [6, 6, 6] 25 := ⟨d.isLt, by decide, ⟨a.isLt, by decide, ⟨b.isLt, by decide, trivial⟩⟩⟩
  have g0 : Fits ((0x0B, 25) :: [(d.val, 19), (a.val, 13), (b.val, 7)]) (7 :: [6, 6, 6]) 32 := ⟨by decide, by decide, fit⟩
  have dcd : decodeS w = checked w [(0, 7)] [] (.or (field 64 w 19) (field 64 w 13) (field 64 w 7)) := by
    unfold decodeS
    rw [show w / 2 ^ 25 = 0x0B from e ▸ pack_top fit]
    rfl
  show decodeS w = _
  rw [dcd, field_of (x := d) (len := 6) rfl ((e ▸ take_pack (lo := 19) (len := 6) g0 rfl : w / 2 ^ 19 % 2 ^ 6 = _)), field_of (x := a) (len := 6) rfl ((e ▸ take_pack (lo := 13) (len := 6) g0 rfl : w / 2 ^ 13 % 2 ^ 6 = _)), field_of (x := b) (len := 6) rfl ((e ▸ take_pack (lo := 7) (len := 6) g0 rfl : w / 2 ^ 7 % 2 ^ 6 = _))]
  exact checked_of hwf (zero_cons ((e ▸ take_pack (lo := 0) (len := 7) g0 rfl : w / 2 ^ 0 % 2 ^ 7 = _)) rfl) rfl

theorem Encoding.xor (d : Fin 64) (a : Fin 64) (b : Fin 64) : Encoding.Statement (.xor d a b) := by
  intro hwf u w hunit henc
  cases hunit
  have e : pack ((0x0C, 25) :: [(d.val, 19), (a.val, 13), (b.val, 7)]) = w := Option.some.inj henc
  have fit : Fits [(d.val, 19), (a.val, 13), (b.val, 7)] [6, 6, 6] 25 := ⟨d.isLt, by decide, ⟨a.isLt, by decide, ⟨b.isLt, by decide, trivial⟩⟩⟩
  have g0 : Fits ((0x0C, 25) :: [(d.val, 19), (a.val, 13), (b.val, 7)]) (7 :: [6, 6, 6]) 32 := ⟨by decide, by decide, fit⟩
  have dcd : decodeS w = checked w [(0, 7)] [] (.xor (field 64 w 19) (field 64 w 13) (field 64 w 7)) := by
    unfold decodeS
    rw [show w / 2 ^ 25 = 0x0C from e ▸ pack_top fit]
    rfl
  show decodeS w = _
  rw [dcd, field_of (x := d) (len := 6) rfl ((e ▸ take_pack (lo := 19) (len := 6) g0 rfl : w / 2 ^ 19 % 2 ^ 6 = _)), field_of (x := a) (len := 6) rfl ((e ▸ take_pack (lo := 13) (len := 6) g0 rfl : w / 2 ^ 13 % 2 ^ 6 = _)), field_of (x := b) (len := 6) rfl ((e ▸ take_pack (lo := 7) (len := 6) g0 rfl : w / 2 ^ 7 % 2 ^ 6 = _))]
  exact checked_of hwf (zero_cons ((e ▸ take_pack (lo := 0) (len := 7) g0 rfl : w / 2 ^ 0 % 2 ^ 7 = _)) rfl) rfl

theorem Encoding.shl (d : Fin 64) (a : Fin 64) (b : Fin 64) : Encoding.Statement (.shl d a b) := by
  intro hwf u w hunit henc
  cases hunit
  have e : pack ((0x0D, 25) :: [(d.val, 19), (a.val, 13), (b.val, 7)]) = w := Option.some.inj henc
  have fit : Fits [(d.val, 19), (a.val, 13), (b.val, 7)] [6, 6, 6] 25 := ⟨d.isLt, by decide, ⟨a.isLt, by decide, ⟨b.isLt, by decide, trivial⟩⟩⟩
  have g0 : Fits ((0x0D, 25) :: [(d.val, 19), (a.val, 13), (b.val, 7)]) (7 :: [6, 6, 6]) 32 := ⟨by decide, by decide, fit⟩
  have dcd : decodeS w = checked w [(0, 7)] [] (.shl (field 64 w 19) (field 64 w 13) (field 64 w 7)) := by
    unfold decodeS
    rw [show w / 2 ^ 25 = 0x0D from e ▸ pack_top fit]
    rfl
  show decodeS w = _
  rw [dcd, field_of (x := d) (len := 6) rfl ((e ▸ take_pack (lo := 19) (len := 6) g0 rfl : w / 2 ^ 19 % 2 ^ 6 = _)), field_of (x := a) (len := 6) rfl ((e ▸ take_pack (lo := 13) (len := 6) g0 rfl : w / 2 ^ 13 % 2 ^ 6 = _)), field_of (x := b) (len := 6) rfl ((e ▸ take_pack (lo := 7) (len := 6) g0 rfl : w / 2 ^ 7 % 2 ^ 6 = _))]
  exact checked_of hwf (zero_cons ((e ▸ take_pack (lo := 0) (len := 7) g0 rfl : w / 2 ^ 0 % 2 ^ 7 = _)) rfl) rfl

theorem Encoding.shr (d : Fin 64) (a : Fin 64) (b : Fin 64) : Encoding.Statement (.shr d a b) := by
  intro hwf u w hunit henc
  cases hunit
  have e : pack ((0x0E, 25) :: [(d.val, 19), (a.val, 13), (b.val, 7)]) = w := Option.some.inj henc
  have fit : Fits [(d.val, 19), (a.val, 13), (b.val, 7)] [6, 6, 6] 25 := ⟨d.isLt, by decide, ⟨a.isLt, by decide, ⟨b.isLt, by decide, trivial⟩⟩⟩
  have g0 : Fits ((0x0E, 25) :: [(d.val, 19), (a.val, 13), (b.val, 7)]) (7 :: [6, 6, 6]) 32 := ⟨by decide, by decide, fit⟩
  have dcd : decodeS w = checked w [(0, 7)] [] (.shr (field 64 w 19) (field 64 w 13) (field 64 w 7)) := by
    unfold decodeS
    rw [show w / 2 ^ 25 = 0x0E from e ▸ pack_top fit]
    rfl
  show decodeS w = _
  rw [dcd, field_of (x := d) (len := 6) rfl ((e ▸ take_pack (lo := 19) (len := 6) g0 rfl : w / 2 ^ 19 % 2 ^ 6 = _)), field_of (x := a) (len := 6) rfl ((e ▸ take_pack (lo := 13) (len := 6) g0 rfl : w / 2 ^ 13 % 2 ^ 6 = _)), field_of (x := b) (len := 6) rfl ((e ▸ take_pack (lo := 7) (len := 6) g0 rfl : w / 2 ^ 7 % 2 ^ 6 = _))]
  exact checked_of hwf (zero_cons ((e ▸ take_pack (lo := 0) (len := 7) g0 rfl : w / 2 ^ 0 % 2 ^ 7 = _)) rfl) rfl

theorem Encoding.sra (d : Fin 64) (a : Fin 64) (b : Fin 64) : Encoding.Statement (.sra d a b) := by
  intro hwf u w hunit henc
  cases hunit
  have e : pack ((0x0F, 25) :: [(d.val, 19), (a.val, 13), (b.val, 7)]) = w := Option.some.inj henc
  have fit : Fits [(d.val, 19), (a.val, 13), (b.val, 7)] [6, 6, 6] 25 := ⟨d.isLt, by decide, ⟨a.isLt, by decide, ⟨b.isLt, by decide, trivial⟩⟩⟩
  have g0 : Fits ((0x0F, 25) :: [(d.val, 19), (a.val, 13), (b.val, 7)]) (7 :: [6, 6, 6]) 32 := ⟨by decide, by decide, fit⟩
  have dcd : decodeS w = checked w [(0, 7)] [] (.sra (field 64 w 19) (field 64 w 13) (field 64 w 7)) := by
    unfold decodeS
    rw [show w / 2 ^ 25 = 0x0F from e ▸ pack_top fit]
    rfl
  show decodeS w = _
  rw [dcd, field_of (x := d) (len := 6) rfl ((e ▸ take_pack (lo := 19) (len := 6) g0 rfl : w / 2 ^ 19 % 2 ^ 6 = _)), field_of (x := a) (len := 6) rfl ((e ▸ take_pack (lo := 13) (len := 6) g0 rfl : w / 2 ^ 13 % 2 ^ 6 = _)), field_of (x := b) (len := 6) rfl ((e ▸ take_pack (lo := 7) (len := 6) g0 rfl : w / 2 ^ 7 % 2 ^ 6 = _))]
  exact checked_of hwf (zero_cons ((e ▸ take_pack (lo := 0) (len := 7) g0 rfl : w / 2 ^ 0 % 2 ^ 7 = _)) rfl) rfl

theorem Encoding.min (d : Fin 64) (a : Fin 64) (b : Fin 64) : Encoding.Statement (.min d a b) := by
  intro hwf u w hunit henc
  cases hunit
  have e : pack ((0x10, 25) :: [(d.val, 19), (a.val, 13), (b.val, 7)]) = w := Option.some.inj henc
  have fit : Fits [(d.val, 19), (a.val, 13), (b.val, 7)] [6, 6, 6] 25 := ⟨d.isLt, by decide, ⟨a.isLt, by decide, ⟨b.isLt, by decide, trivial⟩⟩⟩
  have g0 : Fits ((0x10, 25) :: [(d.val, 19), (a.val, 13), (b.val, 7)]) (7 :: [6, 6, 6]) 32 := ⟨by decide, by decide, fit⟩
  have dcd : decodeS w = checked w [(0, 7)] [] (.min (field 64 w 19) (field 64 w 13) (field 64 w 7)) := by
    unfold decodeS
    rw [show w / 2 ^ 25 = 0x10 from e ▸ pack_top fit]
    rfl
  show decodeS w = _
  rw [dcd, field_of (x := d) (len := 6) rfl ((e ▸ take_pack (lo := 19) (len := 6) g0 rfl : w / 2 ^ 19 % 2 ^ 6 = _)), field_of (x := a) (len := 6) rfl ((e ▸ take_pack (lo := 13) (len := 6) g0 rfl : w / 2 ^ 13 % 2 ^ 6 = _)), field_of (x := b) (len := 6) rfl ((e ▸ take_pack (lo := 7) (len := 6) g0 rfl : w / 2 ^ 7 % 2 ^ 6 = _))]
  exact checked_of hwf (zero_cons ((e ▸ take_pack (lo := 0) (len := 7) g0 rfl : w / 2 ^ 0 % 2 ^ 7 = _)) rfl) rfl

theorem Encoding.max (d : Fin 64) (a : Fin 64) (b : Fin 64) : Encoding.Statement (.max d a b) := by
  intro hwf u w hunit henc
  cases hunit
  have e : pack ((0x11, 25) :: [(d.val, 19), (a.val, 13), (b.val, 7)]) = w := Option.some.inj henc
  have fit : Fits [(d.val, 19), (a.val, 13), (b.val, 7)] [6, 6, 6] 25 := ⟨d.isLt, by decide, ⟨a.isLt, by decide, ⟨b.isLt, by decide, trivial⟩⟩⟩
  have g0 : Fits ((0x11, 25) :: [(d.val, 19), (a.val, 13), (b.val, 7)]) (7 :: [6, 6, 6]) 32 := ⟨by decide, by decide, fit⟩
  have dcd : decodeS w = checked w [(0, 7)] [] (.max (field 64 w 19) (field 64 w 13) (field 64 w 7)) := by
    unfold decodeS
    rw [show w / 2 ^ 25 = 0x11 from e ▸ pack_top fit]
    rfl
  show decodeS w = _
  rw [dcd, field_of (x := d) (len := 6) rfl ((e ▸ take_pack (lo := 19) (len := 6) g0 rfl : w / 2 ^ 19 % 2 ^ 6 = _)), field_of (x := a) (len := 6) rfl ((e ▸ take_pack (lo := 13) (len := 6) g0 rfl : w / 2 ^ 13 % 2 ^ 6 = _)), field_of (x := b) (len := 6) rfl ((e ▸ take_pack (lo := 7) (len := 6) g0 rfl : w / 2 ^ 7 % 2 ^ 6 = _))]
  exact checked_of hwf (zero_cons ((e ▸ take_pack (lo := 0) (len := 7) g0 rfl : w / 2 ^ 0 % 2 ^ 7 = _)) rfl) rfl

theorem Encoding.minn (d : Fin 64) (a : Fin 64) (b : Fin 64) : Encoding.Statement (.minn d a b) := by
  intro hwf u w hunit henc
  cases hunit
  have e : pack ((0x12, 25) :: [(d.val, 19), (a.val, 13), (b.val, 7)]) = w := Option.some.inj henc
  have fit : Fits [(d.val, 19), (a.val, 13), (b.val, 7)] [6, 6, 6] 25 := ⟨d.isLt, by decide, ⟨a.isLt, by decide, ⟨b.isLt, by decide, trivial⟩⟩⟩
  have g0 : Fits ((0x12, 25) :: [(d.val, 19), (a.val, 13), (b.val, 7)]) (7 :: [6, 6, 6]) 32 := ⟨by decide, by decide, fit⟩
  have dcd : decodeS w = checked w [(0, 7)] [] (.minn (field 64 w 19) (field 64 w 13) (field 64 w 7)) := by
    unfold decodeS
    rw [show w / 2 ^ 25 = 0x12 from e ▸ pack_top fit]
    rfl
  show decodeS w = _
  rw [dcd, field_of (x := d) (len := 6) rfl ((e ▸ take_pack (lo := 19) (len := 6) g0 rfl : w / 2 ^ 19 % 2 ^ 6 = _)), field_of (x := a) (len := 6) rfl ((e ▸ take_pack (lo := 13) (len := 6) g0 rfl : w / 2 ^ 13 % 2 ^ 6 = _)), field_of (x := b) (len := 6) rfl ((e ▸ take_pack (lo := 7) (len := 6) g0 rfl : w / 2 ^ 7 % 2 ^ 6 = _))]
  exact checked_of hwf (zero_cons ((e ▸ take_pack (lo := 0) (len := 7) g0 rfl : w / 2 ^ 0 % 2 ^ 7 = _)) rfl) rfl

theorem Encoding.maxn (d : Fin 64) (a : Fin 64) (b : Fin 64) : Encoding.Statement (.maxn d a b) := by
  intro hwf u w hunit henc
  cases hunit
  have e : pack ((0x13, 25) :: [(d.val, 19), (a.val, 13), (b.val, 7)]) = w := Option.some.inj henc
  have fit : Fits [(d.val, 19), (a.val, 13), (b.val, 7)] [6, 6, 6] 25 := ⟨d.isLt, by decide, ⟨a.isLt, by decide, ⟨b.isLt, by decide, trivial⟩⟩⟩
  have g0 : Fits ((0x13, 25) :: [(d.val, 19), (a.val, 13), (b.val, 7)]) (7 :: [6, 6, 6]) 32 := ⟨by decide, by decide, fit⟩
  have dcd : decodeS w = checked w [(0, 7)] [] (.maxn (field 64 w 19) (field 64 w 13) (field 64 w 7)) := by
    unfold decodeS
    rw [show w / 2 ^ 25 = 0x13 from e ▸ pack_top fit]
    rfl
  show decodeS w = _
  rw [dcd, field_of (x := d) (len := 6) rfl ((e ▸ take_pack (lo := 19) (len := 6) g0 rfl : w / 2 ^ 19 % 2 ^ 6 = _)), field_of (x := a) (len := 6) rfl ((e ▸ take_pack (lo := 13) (len := 6) g0 rfl : w / 2 ^ 13 % 2 ^ 6 = _)), field_of (x := b) (len := 6) rfl ((e ▸ take_pack (lo := 7) (len := 6) g0 rfl : w / 2 ^ 7 % 2 ^ 6 = _))]
  exact checked_of hwf (zero_cons ((e ▸ take_pack (lo := 0) (len := 7) g0 rfl : w / 2 ^ 0 % 2 ^ 7 = _)) rfl) rfl

theorem Encoding.clz (d : Fin 64) (a : Fin 64) : Encoding.Statement (.clz d a) := by
  intro hwf u w hunit henc
  cases hunit
  have e : pack ((0x14, 25) :: [(d.val, 19), (a.val, 13)]) = w := Option.some.inj henc
  have fit : Fits [(d.val, 19), (a.val, 13)] [6, 6] 25 := ⟨d.isLt, by decide, ⟨a.isLt, by decide, trivial⟩⟩
  have g0 : Fits ((0x14, 25) :: [(d.val, 19), (a.val, 13)]) (7 :: [6, 6]) 32 := ⟨by decide, by decide, fit⟩
  have dcd : decodeS w = checked w [(0, 13)] [] (.clz (field 64 w 19) (field 64 w 13)) := by
    unfold decodeS
    rw [show w / 2 ^ 25 = 0x14 from e ▸ pack_top fit]
    rfl
  show decodeS w = _
  rw [dcd, field_of (x := d) (len := 6) rfl ((e ▸ take_pack (lo := 19) (len := 6) g0 rfl : w / 2 ^ 19 % 2 ^ 6 = _)), field_of (x := a) (len := 6) rfl ((e ▸ take_pack (lo := 13) (len := 6) g0 rfl : w / 2 ^ 13 % 2 ^ 6 = _))]
  exact checked_of hwf (zero_cons ((e ▸ take_pack (lo := 0) (len := 13) g0 rfl : w / 2 ^ 0 % 2 ^ 13 = _)) rfl) rfl

theorem Encoding.popc (d : Fin 64) (a : Fin 64) : Encoding.Statement (.popc d a) := by
  intro hwf u w hunit henc
  cases hunit
  have e : pack ((0x15, 25) :: [(d.val, 19), (a.val, 13)]) = w := Option.some.inj henc
  have fit : Fits [(d.val, 19), (a.val, 13)] [6, 6] 25 := ⟨d.isLt, by decide, ⟨a.isLt, by decide, trivial⟩⟩
  have g0 : Fits ((0x15, 25) :: [(d.val, 19), (a.val, 13)]) (7 :: [6, 6]) 32 := ⟨by decide, by decide, fit⟩
  have dcd : decodeS w = checked w [(0, 13)] [] (.popc (field 64 w 19) (field 64 w 13)) := by
    unfold decodeS
    rw [show w / 2 ^ 25 = 0x15 from e ▸ pack_top fit]
    rfl
  show decodeS w = _
  rw [dcd, field_of (x := d) (len := 6) rfl ((e ▸ take_pack (lo := 19) (len := 6) g0 rfl : w / 2 ^ 19 % 2 ^ 6 = _)), field_of (x := a) (len := 6) rfl ((e ▸ take_pack (lo := 13) (len := 6) g0 rfl : w / 2 ^ 13 % 2 ^ 6 = _))]
  exact checked_of hwf (zero_cons ((e ▸ take_pack (lo := 0) (len := 13) g0 rfl : w / 2 ^ 0 % 2 ^ 13 = _)) rfl) rfl

theorem Encoding.sel (d : Fin 64) (a : Fin 64) (b : Fin 64) (p : Fin 16) : Encoding.Statement (.sel d a b p) := by
  intro hwf u w hunit henc
  cases hunit
  have e : pack ((0x16, 25) :: [(d.val, 19), (a.val, 13), (b.val, 7), (p.val, 0)]) = w := Option.some.inj henc
  have fit : Fits [(d.val, 19), (a.val, 13), (b.val, 7), (p.val, 0)] [6, 6, 6, 4] 25 := ⟨d.isLt, by decide, ⟨a.isLt, by decide, ⟨b.isLt, by decide, ⟨p.isLt, by decide, trivial⟩⟩⟩⟩
  have g0 : Fits ((0x16, 25) :: [(d.val, 19), (a.val, 13), (b.val, 7), (p.val, 0)]) (7 :: [6, 6, 6, 4]) 32 := ⟨by decide, by decide, fit⟩
  have dcd : decodeS w = checked w [(4, 3)] [] (.sel (field 64 w 19) (field 64 w 13) (field 64 w 7) (field 16 w 0)) := by
    unfold decodeS
    rw [show w / 2 ^ 25 = 0x16 from e ▸ pack_top fit]
    rfl
  show decodeS w = _
  rw [dcd, field_of (x := d) (len := 6) rfl ((e ▸ take_pack (lo := 19) (len := 6) g0 rfl : w / 2 ^ 19 % 2 ^ 6 = _)), field_of (x := a) (len := 6) rfl ((e ▸ take_pack (lo := 13) (len := 6) g0 rfl : w / 2 ^ 13 % 2 ^ 6 = _)), field_of (x := b) (len := 6) rfl ((e ▸ take_pack (lo := 7) (len := 6) g0 rfl : w / 2 ^ 7 % 2 ^ 6 = _)), field_of (x := p) (len := 4) rfl ((e ▸ take_pack (lo := 0) (len := 4) g0 rfl : w / 2 ^ 0 % 2 ^ 4 = _))]
  exact checked_of hwf (zero_cons ((e ▸ take_pack (lo := 4) (len := 3) g0 rfl : w / 2 ^ 4 % 2 ^ 3 = _)) rfl) rfl

theorem Encoding.cmp (p : Fin 16) (a : Fin 64) (b : Fin 64) (c : Fin 8) : Encoding.Statement (.cmp p a b c) := by
  intro hwf u w hunit henc
  cases hunit
  have e : pack ((0x17, 25) :: [(p.val, 19), (a.val, 13), (b.val, 7), (c.val, 0)]) = w := Option.some.inj henc
  have fit : Fits [(p.val, 19), (a.val, 13), (b.val, 7), (c.val, 0)] [4, 6, 6, 3] 25 := ⟨p.isLt, by decide, ⟨a.isLt, by decide, ⟨b.isLt, by decide, ⟨c.isLt, by decide, trivial⟩⟩⟩⟩
  have g0 : Fits ((0x17, 25) :: [(p.val, 19), (a.val, 13), (b.val, 7), (c.val, 0)]) (7 :: [4, 6, 6, 3]) 32 := ⟨by decide, by decide, fit⟩
  have dcd : decodeS w = checked w [(3, 4), (23, 2)] [] (.cmp (field 16 w 19) (field 64 w 13) (field 64 w 7) (field 8 w 0)) := by
    unfold decodeS
    rw [show w / 2 ^ 25 = 0x17 from e ▸ pack_top fit]
    rfl
  show decodeS w = _
  rw [dcd, field_of (x := p) (len := 4) rfl ((e ▸ take_pack (lo := 19) (len := 4) g0 rfl : w / 2 ^ 19 % 2 ^ 4 = _)), field_of (x := a) (len := 6) rfl ((e ▸ take_pack (lo := 13) (len := 6) g0 rfl : w / 2 ^ 13 % 2 ^ 6 = _)), field_of (x := b) (len := 6) rfl ((e ▸ take_pack (lo := 7) (len := 6) g0 rfl : w / 2 ^ 7 % 2 ^ 6 = _)), field_of (x := c) (len := 3) rfl ((e ▸ take_pack (lo := 0) (len := 3) g0 rfl : w / 2 ^ 0 % 2 ^ 3 = _))]
  exact checked_of hwf (zero_cons ((e ▸ take_pack (lo := 3) (len := 4) g0 rfl : w / 2 ^ 3 % 2 ^ 4 = _)) (zero_cons ((e ▸ take_pack (lo := 23) (len := 2) g0 rfl : w / 2 ^ 23 % 2 ^ 2 = _)) rfl)) rfl

theorem Encoding.pand (d : Fin 16) (a : Fin 16) (b : Fin 16) : Encoding.Statement (.pand d a b) := by
  intro hwf u w hunit henc
  cases hunit
  have e : pack ((0x18, 25) :: [(d.val, 19), (a.val, 13), (b.val, 7)]) = w := Option.some.inj henc
  have fit : Fits [(d.val, 19), (a.val, 13), (b.val, 7)] [4, 4, 4] 25 := ⟨d.isLt, by decide, ⟨a.isLt, by decide, ⟨b.isLt, by decide, trivial⟩⟩⟩
  have g0 : Fits ((0x18, 25) :: [(d.val, 19), (a.val, 13), (b.val, 7)]) (7 :: [4, 4, 4]) 32 := ⟨by decide, by decide, fit⟩
  have dcd : decodeS w = checked w [(0, 7), (11, 2), (17, 2), (23, 2)] [] (.pand (field 16 w 19) (field 16 w 13) (field 16 w 7)) := by
    unfold decodeS
    rw [show w / 2 ^ 25 = 0x18 from e ▸ pack_top fit]
    rfl
  show decodeS w = _
  rw [dcd, field_of (x := d) (len := 4) rfl ((e ▸ take_pack (lo := 19) (len := 4) g0 rfl : w / 2 ^ 19 % 2 ^ 4 = _)), field_of (x := a) (len := 4) rfl ((e ▸ take_pack (lo := 13) (len := 4) g0 rfl : w / 2 ^ 13 % 2 ^ 4 = _)), field_of (x := b) (len := 4) rfl ((e ▸ take_pack (lo := 7) (len := 4) g0 rfl : w / 2 ^ 7 % 2 ^ 4 = _))]
  exact checked_of hwf (zero_cons ((e ▸ take_pack (lo := 0) (len := 7) g0 rfl : w / 2 ^ 0 % 2 ^ 7 = _)) (zero_cons ((e ▸ take_pack (lo := 11) (len := 2) g0 rfl : w / 2 ^ 11 % 2 ^ 2 = _)) (zero_cons ((e ▸ take_pack (lo := 17) (len := 2) g0 rfl : w / 2 ^ 17 % 2 ^ 2 = _)) (zero_cons ((e ▸ take_pack (lo := 23) (len := 2) g0 rfl : w / 2 ^ 23 % 2 ^ 2 = _)) rfl)))) rfl

theorem Encoding.por (d : Fin 16) (a : Fin 16) (b : Fin 16) : Encoding.Statement (.por d a b) := by
  intro hwf u w hunit henc
  cases hunit
  have e : pack ((0x19, 25) :: [(d.val, 19), (a.val, 13), (b.val, 7)]) = w := Option.some.inj henc
  have fit : Fits [(d.val, 19), (a.val, 13), (b.val, 7)] [4, 4, 4] 25 := ⟨d.isLt, by decide, ⟨a.isLt, by decide, ⟨b.isLt, by decide, trivial⟩⟩⟩
  have g0 : Fits ((0x19, 25) :: [(d.val, 19), (a.val, 13), (b.val, 7)]) (7 :: [4, 4, 4]) 32 := ⟨by decide, by decide, fit⟩
  have dcd : decodeS w = checked w [(0, 7), (11, 2), (17, 2), (23, 2)] [] (.por (field 16 w 19) (field 16 w 13) (field 16 w 7)) := by
    unfold decodeS
    rw [show w / 2 ^ 25 = 0x19 from e ▸ pack_top fit]
    rfl
  show decodeS w = _
  rw [dcd, field_of (x := d) (len := 4) rfl ((e ▸ take_pack (lo := 19) (len := 4) g0 rfl : w / 2 ^ 19 % 2 ^ 4 = _)), field_of (x := a) (len := 4) rfl ((e ▸ take_pack (lo := 13) (len := 4) g0 rfl : w / 2 ^ 13 % 2 ^ 4 = _)), field_of (x := b) (len := 4) rfl ((e ▸ take_pack (lo := 7) (len := 4) g0 rfl : w / 2 ^ 7 % 2 ^ 4 = _))]
  exact checked_of hwf (zero_cons ((e ▸ take_pack (lo := 0) (len := 7) g0 rfl : w / 2 ^ 0 % 2 ^ 7 = _)) (zero_cons ((e ▸ take_pack (lo := 11) (len := 2) g0 rfl : w / 2 ^ 11 % 2 ^ 2 = _)) (zero_cons ((e ▸ take_pack (lo := 17) (len := 2) g0 rfl : w / 2 ^ 17 % 2 ^ 2 = _)) (zero_cons ((e ▸ take_pack (lo := 23) (len := 2) g0 rfl : w / 2 ^ 23 % 2 ^ 2 = _)) rfl)))) rfl

theorem Encoding.pxor (d : Fin 16) (a : Fin 16) (b : Fin 16) : Encoding.Statement (.pxor d a b) := by
  intro hwf u w hunit henc
  cases hunit
  have e : pack ((0x1A, 25) :: [(d.val, 19), (a.val, 13), (b.val, 7)]) = w := Option.some.inj henc
  have fit : Fits [(d.val, 19), (a.val, 13), (b.val, 7)] [4, 4, 4] 25 := ⟨d.isLt, by decide, ⟨a.isLt, by decide, ⟨b.isLt, by decide, trivial⟩⟩⟩
  have g0 : Fits ((0x1A, 25) :: [(d.val, 19), (a.val, 13), (b.val, 7)]) (7 :: [4, 4, 4]) 32 := ⟨by decide, by decide, fit⟩
  have dcd : decodeS w = checked w [(0, 7), (11, 2), (17, 2), (23, 2)] [] (.pxor (field 16 w 19) (field 16 w 13) (field 16 w 7)) := by
    unfold decodeS
    rw [show w / 2 ^ 25 = 0x1A from e ▸ pack_top fit]
    rfl
  show decodeS w = _
  rw [dcd, field_of (x := d) (len := 4) rfl ((e ▸ take_pack (lo := 19) (len := 4) g0 rfl : w / 2 ^ 19 % 2 ^ 4 = _)), field_of (x := a) (len := 4) rfl ((e ▸ take_pack (lo := 13) (len := 4) g0 rfl : w / 2 ^ 13 % 2 ^ 4 = _)), field_of (x := b) (len := 4) rfl ((e ▸ take_pack (lo := 7) (len := 4) g0 rfl : w / 2 ^ 7 % 2 ^ 4 = _))]
  exact checked_of hwf (zero_cons ((e ▸ take_pack (lo := 0) (len := 7) g0 rfl : w / 2 ^ 0 % 2 ^ 7 = _)) (zero_cons ((e ▸ take_pack (lo := 11) (len := 2) g0 rfl : w / 2 ^ 11 % 2 ^ 2 = _)) (zero_cons ((e ▸ take_pack (lo := 17) (len := 2) g0 rfl : w / 2 ^ 17 % 2 ^ 2 = _)) (zero_cons ((e ▸ take_pack (lo := 23) (len := 2) g0 rfl : w / 2 ^ 23 % 2 ^ 2 = _)) rfl)))) rfl

theorem Encoding.pnot (d : Fin 16) (a : Fin 16) : Encoding.Statement (.pnot d a) := by
  intro hwf u w hunit henc
  cases hunit
  have e : pack ((0x1B, 25) :: [(d.val, 19), (a.val, 13)]) = w := Option.some.inj henc
  have fit : Fits [(d.val, 19), (a.val, 13)] [4, 4] 25 := ⟨d.isLt, by decide, ⟨a.isLt, by decide, trivial⟩⟩
  have g0 : Fits ((0x1B, 25) :: [(d.val, 19), (a.val, 13)]) (7 :: [4, 4]) 32 := ⟨by decide, by decide, fit⟩
  have dcd : decodeS w = checked w [(0, 13), (17, 2), (23, 2)] [] (.pnot (field 16 w 19) (field 16 w 13)) := by
    unfold decodeS
    rw [show w / 2 ^ 25 = 0x1B from e ▸ pack_top fit]
    rfl
  show decodeS w = _
  rw [dcd, field_of (x := d) (len := 4) rfl ((e ▸ take_pack (lo := 19) (len := 4) g0 rfl : w / 2 ^ 19 % 2 ^ 4 = _)), field_of (x := a) (len := 4) rfl ((e ▸ take_pack (lo := 13) (len := 4) g0 rfl : w / 2 ^ 13 % 2 ^ 4 = _))]
  exact checked_of hwf (zero_cons ((e ▸ take_pack (lo := 0) (len := 13) g0 rfl : w / 2 ^ 0 % 2 ^ 13 = _)) (zero_cons ((e ▸ take_pack (lo := 17) (len := 2) g0 rfl : w / 2 ^ 17 % 2 ^ 2 = _)) (zero_cons ((e ▸ take_pack (lo := 23) (len := 2) g0 rfl : w / 2 ^ 23 % 2 ^ 2 = _)) rfl))) rfl

theorem Encoding.jr (d : Fin 64) (a : Fin 64) : Encoding.Statement (.jr d a) := by
  intro hwf u w hunit henc
  cases hunit
  have e : pack ((0x1C, 25) :: [(d.val, 19), (a.val, 13)]) = w := Option.some.inj henc
  have fit : Fits [(d.val, 19), (a.val, 13)] [6, 6] 25 := ⟨d.isLt, by decide, ⟨a.isLt, by decide, trivial⟩⟩
  have g0 : Fits ((0x1C, 25) :: [(d.val, 19), (a.val, 13)]) (7 :: [6, 6]) 32 := ⟨by decide, by decide, fit⟩
  have dcd : decodeS w = checked w [(0, 13)] [] (.jr (field 64 w 19) (field 64 w 13)) := by
    unfold decodeS
    rw [show w / 2 ^ 25 = 0x1C from e ▸ pack_top fit]
    rfl
  show decodeS w = _
  rw [dcd, field_of (x := d) (len := 6) rfl ((e ▸ take_pack (lo := 19) (len := 6) g0 rfl : w / 2 ^ 19 % 2 ^ 6 = _)), field_of (x := a) (len := 6) rfl ((e ▸ take_pack (lo := 13) (len := 6) g0 rfl : w / 2 ^ 13 % 2 ^ 6 = _))]
  exact checked_of hwf (zero_cons ((e ▸ take_pack (lo := 0) (len := 13) g0 rfl : w / 2 ^ 0 % 2 ^ 13 = _)) rfl) rfl

theorem Encoding.ret (a : Fin 64) : Encoding.Statement (.ret a) := by
  intro hwf u w hunit henc
  cases hunit
  have e : pack ((0x1D, 25) :: [(a.val, 13)]) = w := Option.some.inj henc
  have fit : Fits [(a.val, 13)] [6] 25 := ⟨a.isLt, by decide, trivial⟩
  have g0 : Fits ((0x1D, 25) :: [(a.val, 13)]) (7 :: [6]) 32 := ⟨by decide, by decide, fit⟩
  have dcd : decodeS w = checked w [(0, 13), (19, 6)] [] (.ret (field 64 w 13)) := by
    unfold decodeS
    rw [show w / 2 ^ 25 = 0x1D from e ▸ pack_top fit]
    rfl
  show decodeS w = _
  rw [dcd, field_of (x := a) (len := 6) rfl ((e ▸ take_pack (lo := 13) (len := 6) g0 rfl : w / 2 ^ 13 % 2 ^ 6 = _))]
  exact checked_of hwf (zero_cons ((e ▸ take_pack (lo := 0) (len := 13) g0 rfl : w / 2 ^ 0 % 2 ^ 13 = _)) (zero_cons ((e ▸ take_pack (lo := 19) (len := 6) g0 rfl : w / 2 ^ 19 % 2 ^ 6 = _)) rfl)) rfl

theorem Encoding.addi (d : Fin 64) (a : Fin 64) (i : Fin 8192) : Encoding.Statement (.addi d a i) := by
  intro hwf u w hunit henc
  cases hunit
  have e : pack ((0x20, 25) :: [(d.val, 19), (a.val, 13), (i.val, 0)]) = w := Option.some.inj henc
  have fit : Fits [(d.val, 19), (a.val, 13), (i.val, 0)] [6, 6, 13] 25 := ⟨d.isLt, by decide, ⟨a.isLt, by decide, ⟨i.isLt, by decide, trivial⟩⟩⟩
  have g0 : Fits ((0x20, 25) :: [(d.val, 19), (a.val, 13), (i.val, 0)]) (7 :: [6, 6, 13]) 32 := ⟨by decide, by decide, fit⟩
  have dcd : decodeS w = checked w [] [] (.addi (field 64 w 19) (field 64 w 13) (field 8192 w 0)) := by
    unfold decodeS
    rw [show w / 2 ^ 25 = 0x20 from e ▸ pack_top fit]
    rfl
  show decodeS w = _
  rw [dcd, field_of (x := d) (len := 6) rfl ((e ▸ take_pack (lo := 19) (len := 6) g0 rfl : w / 2 ^ 19 % 2 ^ 6 = _)), field_of (x := a) (len := 6) rfl ((e ▸ take_pack (lo := 13) (len := 6) g0 rfl : w / 2 ^ 13 % 2 ^ 6 = _)), field_of (x := i) (len := 13) rfl ((e ▸ take_pack (lo := 0) (len := 13) g0 rfl : w / 2 ^ 0 % 2 ^ 13 = _))]
  exact checked_of hwf rfl rfl

theorem Encoding.andi (d : Fin 64) (a : Fin 64) (i : Fin 8192) : Encoding.Statement (.andi d a i) := by
  intro hwf u w hunit henc
  cases hunit
  have e : pack ((0x21, 25) :: [(d.val, 19), (a.val, 13), (i.val, 0)]) = w := Option.some.inj henc
  have fit : Fits [(d.val, 19), (a.val, 13), (i.val, 0)] [6, 6, 13] 25 := ⟨d.isLt, by decide, ⟨a.isLt, by decide, ⟨i.isLt, by decide, trivial⟩⟩⟩
  have g0 : Fits ((0x21, 25) :: [(d.val, 19), (a.val, 13), (i.val, 0)]) (7 :: [6, 6, 13]) 32 := ⟨by decide, by decide, fit⟩
  have dcd : decodeS w = checked w [] [] (.andi (field 64 w 19) (field 64 w 13) (field 8192 w 0)) := by
    unfold decodeS
    rw [show w / 2 ^ 25 = 0x21 from e ▸ pack_top fit]
    rfl
  show decodeS w = _
  rw [dcd, field_of (x := d) (len := 6) rfl ((e ▸ take_pack (lo := 19) (len := 6) g0 rfl : w / 2 ^ 19 % 2 ^ 6 = _)), field_of (x := a) (len := 6) rfl ((e ▸ take_pack (lo := 13) (len := 6) g0 rfl : w / 2 ^ 13 % 2 ^ 6 = _)), field_of (x := i) (len := 13) rfl ((e ▸ take_pack (lo := 0) (len := 13) g0 rfl : w / 2 ^ 0 % 2 ^ 13 = _))]
  exact checked_of hwf rfl rfl

theorem Encoding.ori (d : Fin 64) (a : Fin 64) (i : Fin 8192) : Encoding.Statement (.ori d a i) := by
  intro hwf u w hunit henc
  cases hunit
  have e : pack ((0x22, 25) :: [(d.val, 19), (a.val, 13), (i.val, 0)]) = w := Option.some.inj henc
  have fit : Fits [(d.val, 19), (a.val, 13), (i.val, 0)] [6, 6, 13] 25 := ⟨d.isLt, by decide, ⟨a.isLt, by decide, ⟨i.isLt, by decide, trivial⟩⟩⟩
  have g0 : Fits ((0x22, 25) :: [(d.val, 19), (a.val, 13), (i.val, 0)]) (7 :: [6, 6, 13]) 32 := ⟨by decide, by decide, fit⟩
  have dcd : decodeS w = checked w [] [] (.ori (field 64 w 19) (field 64 w 13) (field 8192 w 0)) := by
    unfold decodeS
    rw [show w / 2 ^ 25 = 0x22 from e ▸ pack_top fit]
    rfl
  show decodeS w = _
  rw [dcd, field_of (x := d) (len := 6) rfl ((e ▸ take_pack (lo := 19) (len := 6) g0 rfl : w / 2 ^ 19 % 2 ^ 6 = _)), field_of (x := a) (len := 6) rfl ((e ▸ take_pack (lo := 13) (len := 6) g0 rfl : w / 2 ^ 13 % 2 ^ 6 = _)), field_of (x := i) (len := 13) rfl ((e ▸ take_pack (lo := 0) (len := 13) g0 rfl : w / 2 ^ 0 % 2 ^ 13 = _))]
  exact checked_of hwf rfl rfl

theorem Encoding.xori (d : Fin 64) (a : Fin 64) (i : Fin 8192) : Encoding.Statement (.xori d a i) := by
  intro hwf u w hunit henc
  cases hunit
  have e : pack ((0x23, 25) :: [(d.val, 19), (a.val, 13), (i.val, 0)]) = w := Option.some.inj henc
  have fit : Fits [(d.val, 19), (a.val, 13), (i.val, 0)] [6, 6, 13] 25 := ⟨d.isLt, by decide, ⟨a.isLt, by decide, ⟨i.isLt, by decide, trivial⟩⟩⟩
  have g0 : Fits ((0x23, 25) :: [(d.val, 19), (a.val, 13), (i.val, 0)]) (7 :: [6, 6, 13]) 32 := ⟨by decide, by decide, fit⟩
  have dcd : decodeS w = checked w [] [] (.xori (field 64 w 19) (field 64 w 13) (field 8192 w 0)) := by
    unfold decodeS
    rw [show w / 2 ^ 25 = 0x23 from e ▸ pack_top fit]
    rfl
  show decodeS w = _
  rw [dcd, field_of (x := d) (len := 6) rfl ((e ▸ take_pack (lo := 19) (len := 6) g0 rfl : w / 2 ^ 19 % 2 ^ 6 = _)), field_of (x := a) (len := 6) rfl ((e ▸ take_pack (lo := 13) (len := 6) g0 rfl : w / 2 ^ 13 % 2 ^ 6 = _)), field_of (x := i) (len := 13) rfl ((e ▸ take_pack (lo := 0) (len := 13) g0 rfl : w / 2 ^ 0 % 2 ^ 13 = _))]
  exact checked_of hwf rfl rfl

theorem Encoding.shli (d : Fin 64) (a : Fin 64) (i : Fin 64) : Encoding.Statement (.shli d a i) := by
  intro hwf u w hunit henc
  cases hunit
  have e : pack ((0x24, 25) :: [(d.val, 19), (a.val, 13), (i.val, 0)]) = w := Option.some.inj henc
  have fit : Fits [(d.val, 19), (a.val, 13), (i.val, 0)] [6, 6, 6] 25 := ⟨d.isLt, by decide, ⟨a.isLt, by decide, ⟨i.isLt, by decide, trivial⟩⟩⟩
  have g0 : Fits ((0x24, 25) :: [(d.val, 19), (a.val, 13), (i.val, 0)]) (7 :: [6, 6, 6]) 32 := ⟨by decide, by decide, fit⟩
  have dcd : decodeS w = checked w [(6, 7)] [] (.shli (field 64 w 19) (field 64 w 13) (field 64 w 0)) := by
    unfold decodeS
    rw [show w / 2 ^ 25 = 0x24 from e ▸ pack_top fit]
    rfl
  show decodeS w = _
  rw [dcd, field_of (x := d) (len := 6) rfl ((e ▸ take_pack (lo := 19) (len := 6) g0 rfl : w / 2 ^ 19 % 2 ^ 6 = _)), field_of (x := a) (len := 6) rfl ((e ▸ take_pack (lo := 13) (len := 6) g0 rfl : w / 2 ^ 13 % 2 ^ 6 = _)), field_of (x := i) (len := 6) rfl ((e ▸ take_pack (lo := 0) (len := 6) g0 rfl : w / 2 ^ 0 % 2 ^ 6 = _))]
  exact checked_of hwf (zero_cons ((e ▸ take_pack (lo := 6) (len := 7) g0 rfl : w / 2 ^ 6 % 2 ^ 7 = _)) rfl) rfl

theorem Encoding.shri (d : Fin 64) (a : Fin 64) (i : Fin 64) : Encoding.Statement (.shri d a i) := by
  intro hwf u w hunit henc
  cases hunit
  have e : pack ((0x25, 25) :: [(d.val, 19), (a.val, 13), (i.val, 0)]) = w := Option.some.inj henc
  have fit : Fits [(d.val, 19), (a.val, 13), (i.val, 0)] [6, 6, 6] 25 := ⟨d.isLt, by decide, ⟨a.isLt, by decide, ⟨i.isLt, by decide, trivial⟩⟩⟩
  have g0 : Fits ((0x25, 25) :: [(d.val, 19), (a.val, 13), (i.val, 0)]) (7 :: [6, 6, 6]) 32 := ⟨by decide, by decide, fit⟩
  have dcd : decodeS w = checked w [(6, 7)] [] (.shri (field 64 w 19) (field 64 w 13) (field 64 w 0)) := by
    unfold decodeS
    rw [show w / 2 ^ 25 = 0x25 from e ▸ pack_top fit]
    rfl
  show decodeS w = _
  rw [dcd, field_of (x := d) (len := 6) rfl ((e ▸ take_pack (lo := 19) (len := 6) g0 rfl : w / 2 ^ 19 % 2 ^ 6 = _)), field_of (x := a) (len := 6) rfl ((e ▸ take_pack (lo := 13) (len := 6) g0 rfl : w / 2 ^ 13 % 2 ^ 6 = _)), field_of (x := i) (len := 6) rfl ((e ▸ take_pack (lo := 0) (len := 6) g0 rfl : w / 2 ^ 0 % 2 ^ 6 = _))]
  exact checked_of hwf (zero_cons ((e ▸ take_pack (lo := 6) (len := 7) g0 rfl : w / 2 ^ 6 % 2 ^ 7 = _)) rfl) rfl

theorem Encoding.srai (d : Fin 64) (a : Fin 64) (i : Fin 64) : Encoding.Statement (.srai d a i) := by
  intro hwf u w hunit henc
  cases hunit
  have e : pack ((0x26, 25) :: [(d.val, 19), (a.val, 13), (i.val, 0)]) = w := Option.some.inj henc
  have fit : Fits [(d.val, 19), (a.val, 13), (i.val, 0)] [6, 6, 6] 25 := ⟨d.isLt, by decide, ⟨a.isLt, by decide, ⟨i.isLt, by decide, trivial⟩⟩⟩
  have g0 : Fits ((0x26, 25) :: [(d.val, 19), (a.val, 13), (i.val, 0)]) (7 :: [6, 6, 6]) 32 := ⟨by decide, by decide, fit⟩
  have dcd : decodeS w = checked w [(6, 7)] [] (.srai (field 64 w 19) (field 64 w 13) (field 64 w 0)) := by
    unfold decodeS
    rw [show w / 2 ^ 25 = 0x26 from e ▸ pack_top fit]
    rfl
  show decodeS w = _
  rw [dcd, field_of (x := d) (len := 6) rfl ((e ▸ take_pack (lo := 19) (len := 6) g0 rfl : w / 2 ^ 19 % 2 ^ 6 = _)), field_of (x := a) (len := 6) rfl ((e ▸ take_pack (lo := 13) (len := 6) g0 rfl : w / 2 ^ 13 % 2 ^ 6 = _)), field_of (x := i) (len := 6) rfl ((e ▸ take_pack (lo := 0) (len := 6) g0 rfl : w / 2 ^ 0 % 2 ^ 6 = _))]
  exact checked_of hwf (zero_cons ((e ▸ take_pack (lo := 6) (len := 7) g0 rfl : w / 2 ^ 6 % 2 ^ 7 = _)) rfl) rfl

theorem Encoding.cmpi (c : Fin 4) (p : Fin 16) (a : Fin 64) (i : Fin 8192) : Encoding.Statement (.cmpi c p a i) := by
  intro hwf u w hunit henc
  cases hunit
  have e : pack ((0x27, 25) :: [(c.val, 23), (p.val, 19), (a.val, 13), (i.val, 0)]) = w := Option.some.inj henc
  have fit : Fits [(c.val, 23), (p.val, 19), (a.val, 13), (i.val, 0)] [2, 4, 6, 13] 25 := ⟨c.isLt, by decide, ⟨p.isLt, by decide, ⟨a.isLt, by decide, ⟨i.isLt, by decide, trivial⟩⟩⟩⟩
  have g0 : Fits ((0x27, 25) :: [(c.val, 23), (p.val, 19), (a.val, 13), (i.val, 0)]) (7 :: [2, 4, 6, 13]) 32 := ⟨by decide, by decide, fit⟩
  have dcd : decodeS w = checked w [] [] (.cmpi (field 4 w 23) (field 16 w 19) (field 64 w 13) (field 8192 w 0)) := by
    unfold decodeS
    rw [show w / 2 ^ 25 = 0x27 from e ▸ pack_top fit]
    rfl
  show decodeS w = _
  rw [dcd, field_of (x := c) (len := 2) rfl ((e ▸ take_pack (lo := 23) (len := 2) g0 rfl : w / 2 ^ 23 % 2 ^ 2 = _)), field_of (x := p) (len := 4) rfl ((e ▸ take_pack (lo := 19) (len := 4) g0 rfl : w / 2 ^ 19 % 2 ^ 4 = _)), field_of (x := a) (len := 6) rfl ((e ▸ take_pack (lo := 13) (len := 6) g0 rfl : w / 2 ^ 13 % 2 ^ 6 = _)), field_of (x := i) (len := 13) rfl ((e ▸ take_pack (lo := 0) (len := 13) g0 rfl : w / 2 ^ 0 % 2 ^ 13 = _))]
  exact checked_of hwf rfl rfl

theorem Encoding.lih (d : Fin 64) (i : Fin 524288) : Encoding.Statement (.lih d i) := by
  intro hwf u w hunit henc
  cases hunit
  have e : pack ((0x28, 25) :: [(d.val, 19), (i.val, 0)]) = w := Option.some.inj henc
  have fit : Fits [(d.val, 19), (i.val, 0)] [6, 19] 25 := ⟨d.isLt, by decide, ⟨i.isLt, by decide, trivial⟩⟩
  have g0 : Fits ((0x28, 25) :: [(d.val, 19), (i.val, 0)]) (7 :: [6, 19]) 32 := ⟨by decide, by decide, fit⟩
  have dcd : decodeS w = checked w [] [] (.lih (field 64 w 19) (field 524288 w 0)) := by
    unfold decodeS
    rw [show w / 2 ^ 25 = 0x28 from e ▸ pack_top fit]
    rfl
  show decodeS w = _
  rw [dcd, field_of (x := d) (len := 6) rfl ((e ▸ take_pack (lo := 19) (len := 6) g0 rfl : w / 2 ^ 19 % 2 ^ 6 = _)), field_of (x := i) (len := 19) rfl ((e ▸ take_pack (lo := 0) (len := 19) g0 rfl : w / 2 ^ 0 % 2 ^ 19 = _))]
  exact checked_of hwf rfl rfl

theorem Encoding.br (o : Fin 1048576) : Encoding.Statement (.br o) := by
  intro hwf u w hunit henc
  cases hunit
  have e : pack ((0x30, 25) :: [(o.val, 0)]) = w := Option.some.inj henc
  have fit : Fits [(o.val, 0)] [20] 25 := ⟨o.isLt, by decide, trivial⟩
  have g0 : Fits ((0x30, 25) :: [(o.val, 0)]) (7 :: [20]) 32 := ⟨by decide, by decide, fit⟩
  have dcd : decodeS w = checked w [(20, 5)] [] (.br (field 1048576 w 0)) := by
    unfold decodeS
    rw [show w / 2 ^ 25 = 0x30 from e ▸ pack_top fit]
    rfl
  show decodeS w = _
  rw [dcd, field_of (x := o) (len := 20) rfl ((e ▸ take_pack (lo := 0) (len := 20) g0 rfl : w / 2 ^ 0 % 2 ^ 20 = _))]
  exact checked_of hwf (zero_cons ((e ▸ take_pack (lo := 20) (len := 5) g0 rfl : w / 2 ^ 20 % 2 ^ 5 = _)) rfl) rfl

theorem Encoding.brc (p : Fin 16) (n : Fin 2) (o : Fin 1048576) : Encoding.Statement (.brc p n o) := by
  intro hwf u w hunit henc
  cases hunit
  have e : pack ((0x31, 25) :: [(p.val, 21), (n.val, 20), (o.val, 0)]) = w := Option.some.inj henc
  have fit : Fits [(p.val, 21), (n.val, 20), (o.val, 0)] [4, 1, 20] 25 := ⟨p.isLt, by decide, ⟨n.isLt, by decide, ⟨o.isLt, by decide, trivial⟩⟩⟩
  have g0 : Fits ((0x31, 25) :: [(p.val, 21), (n.val, 20), (o.val, 0)]) (7 :: [4, 1, 20]) 32 := ⟨by decide, by decide, fit⟩
  have dcd : decodeS w = checked w [] [] (.brc (field 16 w 21) (field 2 w 20) (field 1048576 w 0)) := by
    unfold decodeS
    rw [show w / 2 ^ 25 = 0x31 from e ▸ pack_top fit]
    rfl
  show decodeS w = _
  rw [dcd, field_of (x := p) (len := 4) rfl ((e ▸ take_pack (lo := 21) (len := 4) g0 rfl : w / 2 ^ 21 % 2 ^ 4 = _)), field_of (x := n) (len := 1) rfl ((e ▸ take_pack (lo := 20) (len := 1) g0 rfl : w / 2 ^ 20 % 2 ^ 1 = _)), field_of (x := o) (len := 20) rfl ((e ▸ take_pack (lo := 0) (len := 20) g0 rfl : w / 2 ^ 0 % 2 ^ 20 = _))]
  exact checked_of hwf rfl rfl

theorem Encoding.call (o : Fin 1048576) : Encoding.Statement (.call o) := by
  intro hwf u w hunit henc
  cases hunit
  have e : pack ((0x32, 25) :: [(o.val, 0)]) = w := Option.some.inj henc
  have fit : Fits [(o.val, 0)] [20] 25 := ⟨o.isLt, by decide, trivial⟩
  have g0 : Fits ((0x32, 25) :: [(o.val, 0)]) (7 :: [20]) 32 := ⟨by decide, by decide, fit⟩
  have dcd : decodeS w = checked w [(20, 5)] [] (.call (field 1048576 w 0)) := by
    unfold decodeS
    rw [show w / 2 ^ 25 = 0x32 from e ▸ pack_top fit]
    rfl
  show decodeS w = _
  rw [dcd, field_of (x := o) (len := 20) rfl ((e ▸ take_pack (lo := 0) (len := 20) g0 rfl : w / 2 ^ 0 % 2 ^ 20 = _))]
  exact checked_of hwf (zero_cons ((e ▸ take_pack (lo := 20) (len := 5) g0 rfl : w / 2 ^ 20 % 2 ^ 5 = _)) rfl) rfl

theorem Encoding.loop (l : Fin 4) (s : Fin 8) (b : Fin 4096) (c : Fin 64) : Encoding.Statement (.loop l s b c) := by
  intro hwf u w hunit henc
  cases hunit
  have e : pack ((0x38, 25) :: [(l.val, 23), (s.val, 20), (b.val, 8), (c.val, 0)]) = w := Option.some.inj henc
  have fit : Fits [(l.val, 23), (s.val, 20), (b.val, 8), (c.val, 0)] [2, 3, 12, 6] 25 := ⟨l.isLt, by decide, ⟨s.isLt, by decide, ⟨b.isLt, by decide, ⟨c.isLt, by decide, trivial⟩⟩⟩⟩
  have g0 : Fits ((0x38, 25) :: [(l.val, 23), (s.val, 20), (b.val, 8), (c.val, 0)]) (7 :: [2, 3, 12, 6]) 32 := ⟨by decide, by decide, fit⟩
  have dcd : decodeS w = checked w [(6, 2)] [] (.loop (field 4 w 23) (field 8 w 20) (field 4096 w 8) (field 64 w 0)) := by
    unfold decodeS
    rw [show w / 2 ^ 25 = 0x38 from e ▸ pack_top fit]
    rfl
  show decodeS w = _
  rw [dcd, field_of (x := l) (len := 2) rfl ((e ▸ take_pack (lo := 23) (len := 2) g0 rfl : w / 2 ^ 23 % 2 ^ 2 = _)), field_of (x := s) (len := 3) rfl ((e ▸ take_pack (lo := 20) (len := 3) g0 rfl : w / 2 ^ 20 % 2 ^ 3 = _)), field_of (x := b) (len := 12) rfl ((e ▸ take_pack (lo := 8) (len := 12) g0 rfl : w / 2 ^ 8 % 2 ^ 12 = _)), field_of (x := c) (len := 6) rfl ((e ▸ take_pack (lo := 0) (len := 6) g0 rfl : w / 2 ^ 0 % 2 ^ 6 = _))]
  exact checked_of hwf (zero_cons ((e ▸ take_pack (lo := 6) (len := 2) g0 rfl : w / 2 ^ 6 % 2 ^ 2 = _)) rfl) rfl

theorem Encoding.loopi (l : Fin 4) (s : Fin 8) (b : Fin 4096) (c : Fin 256) : Encoding.Statement (.loopi l s b c) := by
  intro hwf u w hunit henc
  cases hunit
  have e : pack ((0x39, 25) :: [(l.val, 23), (s.val, 20), (b.val, 8), (c.val, 0)]) = w := Option.some.inj henc
  have fit : Fits [(l.val, 23), (s.val, 20), (b.val, 8), (c.val, 0)] [2, 3, 12, 8] 25 := ⟨l.isLt, by decide, ⟨s.isLt, by decide, ⟨b.isLt, by decide, ⟨c.isLt, by decide, trivial⟩⟩⟩⟩
  have g0 : Fits ((0x39, 25) :: [(l.val, 23), (s.val, 20), (b.val, 8), (c.val, 0)]) (7 :: [2, 3, 12, 8]) 32 := ⟨by decide, by decide, fit⟩
  have dcd : decodeS w = checked w [] [] (.loopi (field 4 w 23) (field 8 w 20) (field 4096 w 8) (field 256 w 0)) := by
    unfold decodeS
    rw [show w / 2 ^ 25 = 0x39 from e ▸ pack_top fit]
    rfl
  show decodeS w = _
  rw [dcd, field_of (x := l) (len := 2) rfl ((e ▸ take_pack (lo := 23) (len := 2) g0 rfl : w / 2 ^ 23 % 2 ^ 2 = _)), field_of (x := s) (len := 3) rfl ((e ▸ take_pack (lo := 20) (len := 3) g0 rfl : w / 2 ^ 20 % 2 ^ 3 = _)), field_of (x := b) (len := 12) rfl ((e ▸ take_pack (lo := 8) (len := 12) g0 rfl : w / 2 ^ 8 % 2 ^ 12 = _)), field_of (x := c) (len := 8) rfl ((e ▸ take_pack (lo := 0) (len := 8) g0 rfl : w / 2 ^ 0 % 2 ^ 8 = _))]
  exact checked_of hwf rfl rfl

theorem Encoding.lexit (l : Fin 4) : Encoding.Statement (.lexit l) := by
  intro hwf u w hunit henc
  cases hunit
  have e : pack ((0x3A, 25) :: [(l.val, 23)]) = w := Option.some.inj henc
  have fit : Fits [(l.val, 23)] [2] 25 := ⟨l.isLt, by decide, trivial⟩
  have g0 : Fits ((0x3A, 25) :: [(l.val, 23)]) (7 :: [2]) 32 := ⟨by decide, by decide, fit⟩
  have dcd : decodeS w = checked w [(0, 23)] [] (.lexit (field 4 w 23)) := by
    unfold decodeS
    rw [show w / 2 ^ 25 = 0x3A from e ▸ pack_top fit]
    rfl
  show decodeS w = _
  rw [dcd, field_of (x := l) (len := 2) rfl ((e ▸ take_pack (lo := 23) (len := 2) g0 rfl : w / 2 ^ 23 % 2 ^ 2 = _))]
  exact checked_of hwf (zero_cons ((e ▸ take_pack (lo := 0) (len := 23) g0 rfl : w / 2 ^ 0 % 2 ^ 23 = _)) rfl) rfl

theorem Encoding.ld (d : Fin 64) (a : Fin 64) (z : Fin 4) (o : Fin 2048) : Encoding.Statement (.ld d a z o) := by
  intro hwf u w hunit henc
  cases hunit
  have e : pack ((0x40, 25) :: [(d.val, 19), (a.val, 13), (z.val, 11), (o.val, 0)]) = w := Option.some.inj henc
  have fit : Fits [(d.val, 19), (a.val, 13), (z.val, 11), (o.val, 0)] [6, 6, 2, 11] 25 := ⟨d.isLt, by decide, ⟨a.isLt, by decide, ⟨z.isLt, by decide, ⟨o.isLt, by decide, trivial⟩⟩⟩⟩
  have g0 : Fits ((0x40, 25) :: [(d.val, 19), (a.val, 13), (z.val, 11), (o.val, 0)]) (7 :: [6, 6, 2, 11]) 32 := ⟨by decide, by decide, fit⟩
  have dcd : decodeS w = checked w [] [] (.ld (field 64 w 19) (field 64 w 13) (field 4 w 11) (field 2048 w 0)) := by
    unfold decodeS
    rw [show w / 2 ^ 25 = 0x40 from e ▸ pack_top fit]
    rfl
  show decodeS w = _
  rw [dcd, field_of (x := d) (len := 6) rfl ((e ▸ take_pack (lo := 19) (len := 6) g0 rfl : w / 2 ^ 19 % 2 ^ 6 = _)), field_of (x := a) (len := 6) rfl ((e ▸ take_pack (lo := 13) (len := 6) g0 rfl : w / 2 ^ 13 % 2 ^ 6 = _)), field_of (x := z) (len := 2) rfl ((e ▸ take_pack (lo := 11) (len := 2) g0 rfl : w / 2 ^ 11 % 2 ^ 2 = _)), field_of (x := o) (len := 11) rfl ((e ▸ take_pack (lo := 0) (len := 11) g0 rfl : w / 2 ^ 0 % 2 ^ 11 = _))]
  exact checked_of hwf rfl rfl

theorem Encoding.st (d : Fin 64) (a : Fin 64) (z : Fin 4) (o : Fin 2048) : Encoding.Statement (.st d a z o) := by
  intro hwf u w hunit henc
  cases hunit
  have e : pack ((0x41, 25) :: [(d.val, 19), (a.val, 13), (z.val, 11), (o.val, 0)]) = w := Option.some.inj henc
  have fit : Fits [(d.val, 19), (a.val, 13), (z.val, 11), (o.val, 0)] [6, 6, 2, 11] 25 := ⟨d.isLt, by decide, ⟨a.isLt, by decide, ⟨z.isLt, by decide, ⟨o.isLt, by decide, trivial⟩⟩⟩⟩
  have g0 : Fits ((0x41, 25) :: [(d.val, 19), (a.val, 13), (z.val, 11), (o.val, 0)]) (7 :: [6, 6, 2, 11]) 32 := ⟨by decide, by decide, fit⟩
  have dcd : decodeS w = checked w [] [] (.st (field 64 w 19) (field 64 w 13) (field 4 w 11) (field 2048 w 0)) := by
    unfold decodeS
    rw [show w / 2 ^ 25 = 0x41 from e ▸ pack_top fit]
    rfl
  show decodeS w = _
  rw [dcd, field_of (x := d) (len := 6) rfl ((e ▸ take_pack (lo := 19) (len := 6) g0 rfl : w / 2 ^ 19 % 2 ^ 6 = _)), field_of (x := a) (len := 6) rfl ((e ▸ take_pack (lo := 13) (len := 6) g0 rfl : w / 2 ^ 13 % 2 ^ 6 = _)), field_of (x := z) (len := 2) rfl ((e ▸ take_pack (lo := 11) (len := 2) g0 rfl : w / 2 ^ 11 % 2 ^ 2 = _)), field_of (x := o) (len := 11) rfl ((e ▸ take_pack (lo := 0) (len := 11) g0 rfl : w / 2 ^ 0 % 2 ^ 11 = _))]
  exact checked_of hwf rfl rfl

theorem Encoding.ldc (d : Fin 64) (a : Fin 64) (z : Fin 4) (o : Fin 2048) : Encoding.Statement (.ldc d a z o) := by
  intro hwf u w hunit henc
  cases hunit
  have e : pack ((0x42, 25) :: [(d.val, 19), (a.val, 13), (z.val, 11), (o.val, 0)]) = w := Option.some.inj henc
  have fit : Fits [(d.val, 19), (a.val, 13), (z.val, 11), (o.val, 0)] [6, 6, 2, 11] 25 := ⟨d.isLt, by decide, ⟨a.isLt, by decide, ⟨z.isLt, by decide, ⟨o.isLt, by decide, trivial⟩⟩⟩⟩
  have g0 : Fits ((0x42, 25) :: [(d.val, 19), (a.val, 13), (z.val, 11), (o.val, 0)]) (7 :: [6, 6, 2, 11]) 32 := ⟨by decide, by decide, fit⟩
  have dcd : decodeS w = checked w [] [] (.ldc (field 64 w 19) (field 64 w 13) (field 4 w 11) (field 2048 w 0)) := by
    unfold decodeS
    rw [show w / 2 ^ 25 = 0x42 from e ▸ pack_top fit]
    rfl
  show decodeS w = _
  rw [dcd, field_of (x := d) (len := 6) rfl ((e ▸ take_pack (lo := 19) (len := 6) g0 rfl : w / 2 ^ 19 % 2 ^ 6 = _)), field_of (x := a) (len := 6) rfl ((e ▸ take_pack (lo := 13) (len := 6) g0 rfl : w / 2 ^ 13 % 2 ^ 6 = _)), field_of (x := z) (len := 2) rfl ((e ▸ take_pack (lo := 11) (len := 2) g0 rfl : w / 2 ^ 11 % 2 ^ 2 = _)), field_of (x := o) (len := 11) rfl ((e ▸ take_pack (lo := 0) (len := 11) g0 rfl : w / 2 ^ 0 % 2 ^ 11 = _))]
  exact checked_of hwf rfl rfl

theorem Encoding.stc (d : Fin 64) (a : Fin 64) (z : Fin 4) (o : Fin 2048) : Encoding.Statement (.stc d a z o) := by
  intro hwf u w hunit henc
  cases hunit
  have e : pack ((0x43, 25) :: [(d.val, 19), (a.val, 13), (z.val, 11), (o.val, 0)]) = w := Option.some.inj henc
  have fit : Fits [(d.val, 19), (a.val, 13), (z.val, 11), (o.val, 0)] [6, 6, 2, 11] 25 := ⟨d.isLt, by decide, ⟨a.isLt, by decide, ⟨z.isLt, by decide, ⟨o.isLt, by decide, trivial⟩⟩⟩⟩
  have g0 : Fits ((0x43, 25) :: [(d.val, 19), (a.val, 13), (z.val, 11), (o.val, 0)]) (7 :: [6, 6, 2, 11]) 32 := ⟨by decide, by decide, fit⟩
  have dcd : decodeS w = checked w [] [] (.stc (field 64 w 19) (field 64 w 13) (field 4 w 11) (field 2048 w 0)) := by
    unfold decodeS
    rw [show w / 2 ^ 25 = 0x43 from e ▸ pack_top fit]
    rfl
  show decodeS w = _
  rw [dcd, field_of (x := d) (len := 6) rfl ((e ▸ take_pack (lo := 19) (len := 6) g0 rfl : w / 2 ^ 19 % 2 ^ 6 = _)), field_of (x := a) (len := 6) rfl ((e ▸ take_pack (lo := 13) (len := 6) g0 rfl : w / 2 ^ 13 % 2 ^ 6 = _)), field_of (x := z) (len := 2) rfl ((e ▸ take_pack (lo := 11) (len := 2) g0 rfl : w / 2 ^ 11 % 2 ^ 2 = _)), field_of (x := o) (len := 11) rfl ((e ▸ take_pack (lo := 0) (len := 11) g0 rfl : w / 2 ^ 0 % 2 ^ 11 = _))]
  exact checked_of hwf rfl rfl

theorem Encoding.csrr (d : Fin 64) (c : Fin 4096) : Encoding.Statement (.csrr d c) := by
  intro hwf u w hunit henc
  cases hunit
  have e : pack ((0x48, 25) :: [(d.val, 19), (c.val, 1)]) = w := Option.some.inj henc
  have fit : Fits [(d.val, 19), (c.val, 1)] [6, 12] 25 := ⟨d.isLt, by decide, ⟨c.isLt, by decide, trivial⟩⟩
  have g0 : Fits ((0x48, 25) :: [(d.val, 19), (c.val, 1)]) (7 :: [6, 12]) 32 := ⟨by decide, by decide, fit⟩
  have dcd : decodeS w = checked w [(0, 1), (13, 6)] [] (.csrr (field 64 w 19) (field 4096 w 1)) := by
    unfold decodeS
    rw [show w / 2 ^ 25 = 0x48 from e ▸ pack_top fit]
    rfl
  show decodeS w = _
  rw [dcd, field_of (x := d) (len := 6) rfl ((e ▸ take_pack (lo := 19) (len := 6) g0 rfl : w / 2 ^ 19 % 2 ^ 6 = _)), field_of (x := c) (len := 12) rfl ((e ▸ take_pack (lo := 1) (len := 12) g0 rfl : w / 2 ^ 1 % 2 ^ 12 = _))]
  exact checked_of hwf (zero_cons ((e ▸ take_pack (lo := 0) (len := 1) g0 rfl : w / 2 ^ 0 % 2 ^ 1 = _)) (zero_cons ((e ▸ take_pack (lo := 13) (len := 6) g0 rfl : w / 2 ^ 13 % 2 ^ 6 = _)) rfl)) rfl

theorem Encoding.csrw (d : Fin 64) (a : Fin 64) (c : Fin 4096) (x : Fin 2) : Encoding.Statement (.csrw d a c x) := by
  intro hwf u w hunit henc
  cases hunit
  have e : pack ((0x49, 25) :: [(d.val, 19), (a.val, 13), (c.val, 1), (x.val, 0)]) = w := Option.some.inj henc
  have fit : Fits [(d.val, 19), (a.val, 13), (c.val, 1), (x.val, 0)] [6, 6, 12, 1] 25 := ⟨d.isLt, by decide, ⟨a.isLt, by decide, ⟨c.isLt, by decide, ⟨x.isLt, by decide, trivial⟩⟩⟩⟩
  have g0 : Fits ((0x49, 25) :: [(d.val, 19), (a.val, 13), (c.val, 1), (x.val, 0)]) (7 :: [6, 6, 12, 1]) 32 := ⟨by decide, by decide, fit⟩
  have dcd : decodeS w = checked w [] [] (.csrw (field 64 w 19) (field 64 w 13) (field 4096 w 1) (field 2 w 0)) := by
    unfold decodeS
    rw [show w / 2 ^ 25 = 0x49 from e ▸ pack_top fit]
    rfl
  show decodeS w = _
  rw [dcd, field_of (x := d) (len := 6) rfl ((e ▸ take_pack (lo := 19) (len := 6) g0 rfl : w / 2 ^ 19 % 2 ^ 6 = _)), field_of (x := a) (len := 6) rfl ((e ▸ take_pack (lo := 13) (len := 6) g0 rfl : w / 2 ^ 13 % 2 ^ 6 = _)), field_of (x := c) (len := 12) rfl ((e ▸ take_pack (lo := 1) (len := 12) g0 rfl : w / 2 ^ 1 % 2 ^ 12 = _)), field_of (x := x) (len := 1) rfl ((e ▸ take_pack (lo := 0) (len := 1) g0 rfl : w / 2 ^ 0 % 2 ^ 1 = _))]
  exact checked_of hwf rfl rfl

theorem Encoding.csrs (d : Fin 64) (a : Fin 64) (c : Fin 4096) (x : Fin 2) : Encoding.Statement (.csrs d a c x) := by
  intro hwf u w hunit henc
  cases hunit
  have e : pack ((0x4A, 25) :: [(d.val, 19), (a.val, 13), (c.val, 1), (x.val, 0)]) = w := Option.some.inj henc
  have fit : Fits [(d.val, 19), (a.val, 13), (c.val, 1), (x.val, 0)] [6, 6, 12, 1] 25 := ⟨d.isLt, by decide, ⟨a.isLt, by decide, ⟨c.isLt, by decide, ⟨x.isLt, by decide, trivial⟩⟩⟩⟩
  have g0 : Fits ((0x4A, 25) :: [(d.val, 19), (a.val, 13), (c.val, 1), (x.val, 0)]) (7 :: [6, 6, 12, 1]) 32 := ⟨by decide, by decide, fit⟩
  have dcd : decodeS w = checked w [] [] (.csrs (field 64 w 19) (field 64 w 13) (field 4096 w 1) (field 2 w 0)) := by
    unfold decodeS
    rw [show w / 2 ^ 25 = 0x4A from e ▸ pack_top fit]
    rfl
  show decodeS w = _
  rw [dcd, field_of (x := d) (len := 6) rfl ((e ▸ take_pack (lo := 19) (len := 6) g0 rfl : w / 2 ^ 19 % 2 ^ 6 = _)), field_of (x := a) (len := 6) rfl ((e ▸ take_pack (lo := 13) (len := 6) g0 rfl : w / 2 ^ 13 % 2 ^ 6 = _)), field_of (x := c) (len := 12) rfl ((e ▸ take_pack (lo := 1) (len := 12) g0 rfl : w / 2 ^ 1 % 2 ^ 12 = _)), field_of (x := x) (len := 1) rfl ((e ▸ take_pack (lo := 0) (len := 1) g0 rfl : w / 2 ^ 0 % 2 ^ 1 = _))]
  exact checked_of hwf rfl rfl

theorem Encoding.csrc (d : Fin 64) (a : Fin 64) (c : Fin 4096) (x : Fin 2) : Encoding.Statement (.csrc d a c x) := by
  intro hwf u w hunit henc
  cases hunit
  have e : pack ((0x4B, 25) :: [(d.val, 19), (a.val, 13), (c.val, 1), (x.val, 0)]) = w := Option.some.inj henc
  have fit : Fits [(d.val, 19), (a.val, 13), (c.val, 1), (x.val, 0)] [6, 6, 12, 1] 25 := ⟨d.isLt, by decide, ⟨a.isLt, by decide, ⟨c.isLt, by decide, ⟨x.isLt, by decide, trivial⟩⟩⟩⟩
  have g0 : Fits ((0x4B, 25) :: [(d.val, 19), (a.val, 13), (c.val, 1), (x.val, 0)]) (7 :: [6, 6, 12, 1]) 32 := ⟨by decide, by decide, fit⟩
  have dcd : decodeS w = checked w [] [] (.csrc (field 64 w 19) (field 64 w 13) (field 4096 w 1) (field 2 w 0)) := by
    unfold decodeS
    rw [show w / 2 ^ 25 = 0x4B from e ▸ pack_top fit]
    rfl
  show decodeS w = _
  rw [dcd, field_of (x := d) (len := 6) rfl ((e ▸ take_pack (lo := 19) (len := 6) g0 rfl : w / 2 ^ 19 % 2 ^ 6 = _)), field_of (x := a) (len := 6) rfl ((e ▸ take_pack (lo := 13) (len := 6) g0 rfl : w / 2 ^ 13 % 2 ^ 6 = _)), field_of (x := c) (len := 12) rfl ((e ▸ take_pack (lo := 1) (len := 12) g0 rfl : w / 2 ^ 1 % 2 ^ 12 = _)), field_of (x := x) (len := 1) rfl ((e ▸ take_pack (lo := 0) (len := 1) g0 rfl : w / 2 ^ 0 % 2 ^ 1 = _))]
  exact checked_of hwf rfl rfl

theorem Encoding.radv (q : Fin 16) (wid : Fin 2) (n : Fin 8) (g : Fin 16) : Encoding.Statement (.radv q wid n g) := by
  intro hwf u w hunit henc
  cases hunit
  have e : pack ((0x50, 25) :: [(q.val, 21), (wid.val, 20), (n.val, 17), (g.val, 0)]) = w := Option.some.inj henc
  have fit : Fits [(q.val, 21), (wid.val, 20), (n.val, 17), (g.val, 0)] [4, 1, 3, 4] 25 := ⟨q.isLt, by decide, ⟨wid.isLt, by decide, ⟨n.isLt, by decide, ⟨g.isLt, by decide, trivial⟩⟩⟩⟩
  have g0 : Fits ((0x50, 25) :: [(q.val, 21), (wid.val, 20), (n.val, 17), (g.val, 0)]) (7 :: [4, 1, 3, 4]) 32 := ⟨by decide, by decide, fit⟩
  have dcd : decodeS w = checked w [(4, 13)] [] (.radv (field 16 w 21) (field 2 w 20) (field 8 w 17) (field 16 w 0)) := by
    unfold decodeS
    rw [show w / 2 ^ 25 = 0x50 from e ▸ pack_top fit]
    rfl
  show decodeS w = _
  rw [dcd, field_of (x := q) (len := 4) rfl ((e ▸ take_pack (lo := 21) (len := 4) g0 rfl : w / 2 ^ 21 % 2 ^ 4 = _)), field_of (x := wid) (len := 1) rfl ((e ▸ take_pack (lo := 20) (len := 1) g0 rfl : w / 2 ^ 20 % 2 ^ 1 = _)), field_of (x := n) (len := 3) rfl ((e ▸ take_pack (lo := 17) (len := 3) g0 rfl : w / 2 ^ 17 % 2 ^ 3 = _)), field_of (x := g) (len := 4) rfl ((e ▸ take_pack (lo := 0) (len := 4) g0 rfl : w / 2 ^ 0 % 2 ^ 4 = _))]
  exact checked_of hwf (zero_cons ((e ▸ take_pack (lo := 4) (len := 13) g0 rfl : w / 2 ^ 4 % 2 ^ 13 = _)) rfl) rfl

theorem Encoding.rcfg (q : Fin 16) (d : Fin 8) (r : Fin 8) (wid : Fin 8) : Encoding.Statement (.rcfg q d r wid) := by
  intro hwf u w hunit henc
  cases hunit
  have e : pack ((0x51, 25) :: [(q.val, 21), (d.val, 18), (r.val, 15), (wid.val, 12)]) = w := Option.some.inj henc
  have fit : Fits [(q.val, 21), (d.val, 18), (r.val, 15), (wid.val, 12)] [4, 3, 3, 3] 25 := ⟨q.isLt, by decide, ⟨d.isLt, by decide, ⟨r.isLt, by decide, ⟨wid.isLt, by decide, trivial⟩⟩⟩⟩
  have g0 : Fits ((0x51, 25) :: [(q.val, 21), (d.val, 18), (r.val, 15), (wid.val, 12)]) (7 :: [4, 3, 3, 3]) 32 := ⟨by decide, by decide, fit⟩
  have dcd : decodeS w = checked w [(0, 12)] [] (.rcfg (field 16 w 21) (field 8 w 18) (field 8 w 15) (field 8 w 12)) := by
    unfold decodeS
    rw [show w / 2 ^ 25 = 0x51 from e ▸ pack_top fit]
    rfl
  show decodeS w = _
  rw [dcd, field_of (x := q) (len := 4) rfl ((e ▸ take_pack (lo := 21) (len := 4) g0 rfl : w / 2 ^ 21 % 2 ^ 4 = _)), field_of (x := d) (len := 3) rfl ((e ▸ take_pack (lo := 18) (len := 3) g0 rfl : w / 2 ^ 18 % 2 ^ 3 = _)), field_of (x := r) (len := 3) rfl ((e ▸ take_pack (lo := 15) (len := 3) g0 rfl : w / 2 ^ 15 % 2 ^ 3 = _)), field_of (x := wid) (len := 3) rfl ((e ▸ take_pack (lo := 12) (len := 3) g0 rfl : w / 2 ^ 12 % 2 ^ 3 = _))]
  exact checked_of hwf (zero_cons ((e ▸ take_pack (lo := 0) (len := 12) g0 rfl : w / 2 ^ 0 % 2 ^ 12 = _)) rfl) rfl

theorem Encoding.rfill (q : Fin 16) (n : Fin 16) : Encoding.Statement (.rfill q n) := by
  intro hwf u w hunit henc
  cases hunit
  have e : pack ((0x52, 25) :: [(q.val, 21), (n.val, 17)]) = w := Option.some.inj henc
  have fit : Fits [(q.val, 21), (n.val, 17)] [4, 4] 25 := ⟨q.isLt, by decide, ⟨n.isLt, by decide, trivial⟩⟩
  have g0 : Fits ((0x52, 25) :: [(q.val, 21), (n.val, 17)]) (7 :: [4, 4]) 32 := ⟨by decide, by decide, fit⟩
  have dcd : decodeS w = checked w [(0, 17)] [] (.rfill (field 16 w 21) (field 16 w 17)) := by
    unfold decodeS
    rw [show w / 2 ^ 25 = 0x52 from e ▸ pack_top fit]
    rfl
  show decodeS w = _
  rw [dcd, field_of (x := q) (len := 4) rfl ((e ▸ take_pack (lo := 21) (len := 4) g0 rfl : w / 2 ^ 21 % 2 ^ 4 = _)), field_of (x := n) (len := 4) rfl ((e ▸ take_pack (lo := 17) (len := 4) g0 rfl : w / 2 ^ 17 % 2 ^ 4 = _))]
  exact checked_of hwf (zero_cons ((e ▸ take_pack (lo := 0) (len := 17) g0 rfl : w / 2 ^ 0 % 2 ^ 17 = _)) rfl) rfl

theorem Encoding.fence (m : Fin 4) (s : Fin 8) (k : Fin 2) : Encoding.Statement (.fence m s k) := by
  intro hwf u w hunit henc
  cases hunit
  have e : pack ((0x58, 25) :: [(m.val, 23), (s.val, 20), (k.val, 19)]) = w := Option.some.inj henc
  have fit : Fits [(m.val, 23), (s.val, 20), (k.val, 19)] [2, 3, 1] 25 := ⟨m.isLt, by decide, ⟨s.isLt, by decide, ⟨k.isLt, by decide, trivial⟩⟩⟩
  have g0 : Fits ((0x58, 25) :: [(m.val, 23), (s.val, 20), (k.val, 19)]) (7 :: [2, 3, 1]) 32 := ⟨by decide, by decide, fit⟩
  have dcd : decodeS w = checked w [(0, 19)] [] (.fence (field 4 w 23) (field 8 w 20) (field 2 w 19)) := by
    unfold decodeS
    rw [show w / 2 ^ 25 = 0x58 from e ▸ pack_top fit]
    rfl
  show decodeS w = _
  rw [dcd, field_of (x := m) (len := 2) rfl ((e ▸ take_pack (lo := 23) (len := 2) g0 rfl : w / 2 ^ 23 % 2 ^ 2 = _)), field_of (x := s) (len := 3) rfl ((e ▸ take_pack (lo := 20) (len := 3) g0 rfl : w / 2 ^ 20 % 2 ^ 3 = _)), field_of (x := k) (len := 1) rfl ((e ▸ take_pack (lo := 19) (len := 1) g0 rfl : w / 2 ^ 19 % 2 ^ 1 = _))]
  exact checked_of hwf (zero_cons ((e ▸ take_pack (lo := 0) (len := 19) g0 rfl : w / 2 ^ 0 % 2 ^ 19 = _)) rfl) rfl

theorem Encoding.waitb (b : Fin 16) : Encoding.Statement (.waitb b) := by
  intro hwf u w hunit henc
  cases hunit
  have e : pack ((0x59, 25) :: [(b.val, 21)]) = w := Option.some.inj henc
  have fit : Fits [(b.val, 21)] [4] 25 := ⟨b.isLt, by decide, trivial⟩
  have g0 : Fits ((0x59, 25) :: [(b.val, 21)]) (7 :: [4]) 32 := ⟨by decide, by decide, fit⟩
  have dcd : decodeS w = checked w [(0, 21)] [] (.waitb (field 16 w 21)) := by
    unfold decodeS
    rw [show w / 2 ^ 25 = 0x59 from e ▸ pack_top fit]
    rfl
  show decodeS w = _
  rw [dcd, field_of (x := b) (len := 4) rfl ((e ▸ take_pack (lo := 21) (len := 4) g0 rfl : w / 2 ^ 21 % 2 ^ 4 = _))]
  exact checked_of hwf (zero_cons ((e ▸ take_pack (lo := 0) (len := 21) g0 rfl : w / 2 ^ 0 % 2 ^ 21 = _)) rfl) rfl

theorem Encoding.waitt (a : Fin 64) : Encoding.Statement (.waitt a) := by
  intro hwf u w hunit henc
  cases hunit
  have e : pack ((0x5A, 25) :: [(a.val, 13)]) = w := Option.some.inj henc
  have fit : Fits [(a.val, 13)] [6] 25 := ⟨a.isLt, by decide, trivial⟩
  have g0 : Fits ((0x5A, 25) :: [(a.val, 13)]) (7 :: [6]) 32 := ⟨by decide, by decide, fit⟩
  have dcd : decodeS w = checked w [(0, 13), (19, 6)] [] (.waitt (field 64 w 13)) := by
    unfold decodeS
    rw [show w / 2 ^ 25 = 0x5A from e ▸ pack_top fit]
    rfl
  show decodeS w = _
  rw [dcd, field_of (x := a) (len := 6) rfl ((e ▸ take_pack (lo := 13) (len := 6) g0 rfl : w / 2 ^ 13 % 2 ^ 6 = _))]
  exact checked_of hwf (zero_cons ((e ▸ take_pack (lo := 0) (len := 13) g0 rfl : w / 2 ^ 0 % 2 ^ 13 = _)) (zero_cons ((e ▸ take_pack (lo := 19) (len := 6) g0 rfl : w / 2 ^ 19 % 2 ^ 6 = _)) rfl)) rfl

theorem Encoding.trap (i : Fin 524288) : Encoding.Statement (.trap i) := by
  intro hwf u w hunit henc
  cases hunit
  have e : pack ((0x5B, 25) :: [(i.val, 0)]) = w := Option.some.inj henc
  have fit : Fits [(i.val, 0)] [19] 25 := ⟨i.isLt, by decide, trivial⟩
  have g0 : Fits ((0x5B, 25) :: [(i.val, 0)]) (7 :: [19]) 32 := ⟨by decide, by decide, fit⟩
  have dcd : decodeS w = checked w [(19, 6)] [] (.trap (field 524288 w 0)) := by
    unfold decodeS
    rw [show w / 2 ^ 25 = 0x5B from e ▸ pack_top fit]
    rfl
  show decodeS w = _
  rw [dcd, field_of (x := i) (len := 19) rfl ((e ▸ take_pack (lo := 0) (len := 19) g0 rfl : w / 2 ^ 0 % 2 ^ 19 = _))]
  exact checked_of hwf (zero_cons ((e ▸ take_pack (lo := 19) (len := 6) g0 rfl : w / 2 ^ 19 % 2 ^ 6 = _)) rfl) rfl

theorem Encoding.brkpt (i : Fin 524288) : Encoding.Statement (.brkpt i) := by
  intro hwf u w hunit henc
  cases hunit
  have e : pack ((0x5C, 25) :: [(i.val, 0)]) = w := Option.some.inj henc
  have fit : Fits [(i.val, 0)] [19] 25 := ⟨i.isLt, by decide, trivial⟩
  have g0 : Fits ((0x5C, 25) :: [(i.val, 0)]) (7 :: [19]) 32 := ⟨by decide, by decide, fit⟩
  have dcd : decodeS w = checked w [(19, 6)] [] (.brkpt (field 524288 w 0)) := by
    unfold decodeS
    rw [show w / 2 ^ 25 = 0x5C from e ▸ pack_top fit]
    rfl
  show decodeS w = _
  rw [dcd, field_of (x := i) (len := 19) rfl ((e ▸ take_pack (lo := 0) (len := 19) g0 rfl : w / 2 ^ 0 % 2 ^ 19 = _))]
  exact checked_of hwf (zero_cons ((e ▸ take_pack (lo := 19) (len := 6) g0 rfl : w / 2 ^ 19 % 2 ^ 6 = _)) rfl) rfl

theorem Encoding.exit : Encoding.Statement (.exit) := by
  intro hwf u w hunit henc
  cases hunit
  have e : pack ((0x5D, 25) :: []) = w := Option.some.inj henc
  have fit : Fits [] [] 25 := trivial
  have g0 : Fits ((0x5D, 25) :: []) (7 :: []) 32 := ⟨by decide, by decide, fit⟩
  have dcd : decodeS w = checked w [(0, 25)] [] .exit := by
    unfold decodeS
    rw [show w / 2 ^ 25 = 0x5D from e ▸ pack_top fit]
    rfl
  show decodeS w = _
  rw [dcd]
  exact checked_of hwf (zero_cons ((e ▸ take_pack (lo := 0) (len := 25) g0 rfl : w / 2 ^ 0 % 2 ^ 25 = _)) rfl) rfl

theorem Encoding.turn (a : Fin 64) (b : Fin 64) : Encoding.Statement (.turn a b) := by
  intro hwf u w hunit henc
  cases hunit
  have e : pack ((0x5E, 25) :: [(a.val, 13), (b.val, 7)]) = w := Option.some.inj henc
  have fit : Fits [(a.val, 13), (b.val, 7)] [6, 6] 25 := ⟨a.isLt, by decide, ⟨b.isLt, by decide, trivial⟩⟩
  have g0 : Fits ((0x5E, 25) :: [(a.val, 13), (b.val, 7)]) (7 :: [6, 6]) 32 := ⟨by decide, by decide, fit⟩
  have dcd : decodeS w = checked w [(0, 7), (19, 6)] [] (.turn (field 64 w 13) (field 64 w 7)) := by
    unfold decodeS
    rw [show w / 2 ^ 25 = 0x5E from e ▸ pack_top fit]
    rfl
  show decodeS w = _
  rw [dcd, field_of (x := a) (len := 6) rfl ((e ▸ take_pack (lo := 13) (len := 6) g0 rfl : w / 2 ^ 13 % 2 ^ 6 = _)), field_of (x := b) (len := 6) rfl ((e ▸ take_pack (lo := 7) (len := 6) g0 rfl : w / 2 ^ 7 % 2 ^ 6 = _))]
  exact checked_of hwf (zero_cons ((e ▸ take_pack (lo := 0) (len := 7) g0 rfl : w / 2 ^ 0 % 2 ^ 7 = _)) (zero_cons ((e ▸ take_pack (lo := 19) (len := 6) g0 rfl : w / 2 ^ 19 % 2 ^ 6 = _)) rfl)) rfl

theorem Encoding.yield : Encoding.Statement (.yield) := by
  intro hwf u w hunit henc
  cases hunit
  have e : pack ((0x5F, 25) :: []) = w := Option.some.inj henc
  have fit : Fits [] [] 25 := trivial
  have g0 : Fits ((0x5F, 25) :: []) (7 :: []) 32 := ⟨by decide, by decide, fit⟩
  have dcd : decodeS w = checked w [(0, 25)] [] .yield := by
    unfold decodeS
    rw [show w / 2 ^ 25 = 0x5F from e ▸ pack_top fit]
    rfl
  show decodeS w = _
  rw [dcd]
  exact checked_of hwf (zero_cons ((e ▸ take_pack (lo := 0) (len := 25) g0 rfl : w / 2 ^ 0 % 2 ^ 25 = _)) rfl) rfl

theorem Encoding.book (d : Fin 64) (a : Fin 64) (b : Fin 64) : Encoding.Statement (.book d a b) := by
  intro hwf u w hunit henc
  cases hunit
  have e : pack ((0x60, 25) :: [(d.val, 19), (a.val, 13), (b.val, 7)]) = w := Option.some.inj henc
  have fit : Fits [(d.val, 19), (a.val, 13), (b.val, 7)] [6, 6, 6] 25 := ⟨d.isLt, by decide, ⟨a.isLt, by decide, ⟨b.isLt, by decide, trivial⟩⟩⟩
  have g0 : Fits ((0x60, 25) :: [(d.val, 19), (a.val, 13), (b.val, 7)]) (7 :: [6, 6, 6]) 32 := ⟨by decide, by decide, fit⟩
  have dcd : decodeS w = checked w [(0, 7)] [] (.book (field 64 w 19) (field 64 w 13) (field 64 w 7)) := by
    unfold decodeS
    rw [show w / 2 ^ 25 = 0x60 from e ▸ pack_top fit]
    rfl
  show decodeS w = _
  rw [dcd, field_of (x := d) (len := 6) rfl ((e ▸ take_pack (lo := 19) (len := 6) g0 rfl : w / 2 ^ 19 % 2 ^ 6 = _)), field_of (x := a) (len := 6) rfl ((e ▸ take_pack (lo := 13) (len := 6) g0 rfl : w / 2 ^ 13 % 2 ^ 6 = _)), field_of (x := b) (len := 6) rfl ((e ▸ take_pack (lo := 7) (len := 6) g0 rfl : w / 2 ^ 7 % 2 ^ 6 = _))]
  exact checked_of hwf (zero_cons ((e ▸ take_pack (lo := 0) (len := 7) g0 rfl : w / 2 ^ 0 % 2 ^ 7 = _)) rfl) rfl

theorem Encoding.unbook (d : Fin 64) (a : Fin 64) (b : Fin 64) : Encoding.Statement (.unbook d a b) := by
  intro hwf u w hunit henc
  cases hunit
  have e : pack ((0x61, 25) :: [(d.val, 19), (a.val, 13), (b.val, 7)]) = w := Option.some.inj henc
  have fit : Fits [(d.val, 19), (a.val, 13), (b.val, 7)] [6, 6, 6] 25 := ⟨d.isLt, by decide, ⟨a.isLt, by decide, ⟨b.isLt, by decide, trivial⟩⟩⟩
  have g0 : Fits ((0x61, 25) :: [(d.val, 19), (a.val, 13), (b.val, 7)]) (7 :: [6, 6, 6]) 32 := ⟨by decide, by decide, fit⟩
  have dcd : decodeS w = checked w [(0, 7)] [] (.unbook (field 64 w 19) (field 64 w 13) (field 64 w 7)) := by
    unfold decodeS
    rw [show w / 2 ^ 25 = 0x61 from e ▸ pack_top fit]
    rfl
  show decodeS w = _
  rw [dcd, field_of (x := d) (len := 6) rfl ((e ▸ take_pack (lo := 19) (len := 6) g0 rfl : w / 2 ^ 19 % 2 ^ 6 = _)), field_of (x := a) (len := 6) rfl ((e ▸ take_pack (lo := 13) (len := 6) g0 rfl : w / 2 ^ 13 % 2 ^ 6 = _)), field_of (x := b) (len := 6) rfl ((e ▸ take_pack (lo := 7) (len := 6) g0 rfl : w / 2 ^ 7 % 2 ^ 6 = _))]
  exact checked_of hwf (zero_cons ((e ▸ take_pack (lo := 0) (len := 7) g0 rfl : w / 2 ^ 0 % 2 ^ 7 = _)) rfl) rfl

theorem Encoding.bqry (d : Fin 64) (a : Fin 64) (b : Fin 64) : Encoding.Statement (.bqry d a b) := by
  intro hwf u w hunit henc
  cases hunit
  have e : pack ((0x62, 25) :: [(d.val, 19), (a.val, 13), (b.val, 7)]) = w := Option.some.inj henc
  have fit : Fits [(d.val, 19), (a.val, 13), (b.val, 7)] [6, 6, 6] 25 := ⟨d.isLt, by decide, ⟨a.isLt, by decide, ⟨b.isLt, by decide, trivial⟩⟩⟩
  have g0 : Fits ((0x62, 25) :: [(d.val, 19), (a.val, 13), (b.val, 7)]) (7 :: [6, 6, 6]) 32 := ⟨by decide, by decide, fit⟩
  have dcd : decodeS w = checked w [(0, 7)] [] (.bqry (field 64 w 19) (field 64 w 13) (field 64 w 7)) := by
    unfold decodeS
    rw [show w / 2 ^ 25 = 0x62 from e ▸ pack_top fit]
    rfl
  show decodeS w = _
  rw [dcd, field_of (x := d) (len := 6) rfl ((e ▸ take_pack (lo := 19) (len := 6) g0 rfl : w / 2 ^ 19 % 2 ^ 6 = _)), field_of (x := a) (len := 6) rfl ((e ▸ take_pack (lo := 13) (len := 6) g0 rfl : w / 2 ^ 13 % 2 ^ 6 = _)), field_of (x := b) (len := 6) rfl ((e ▸ take_pack (lo := 7) (len := 6) g0 rfl : w / 2 ^ 7 % 2 ^ 6 = _))]
  exact checked_of hwf (zero_cons ((e ▸ take_pack (lo := 0) (len := 7) g0 rfl : w / 2 ^ 0 % 2 ^ 7 = _)) rfl) rfl

theorem Encoding.spawn (d : Fin 64) (a : Fin 64) (b : Fin 64) : Encoding.Statement (.spawn d a b) := by
  intro hwf u w hunit henc
  cases hunit
  have e : pack ((0x63, 25) :: [(d.val, 19), (a.val, 13), (b.val, 7)]) = w := Option.some.inj henc
  have fit : Fits [(d.val, 19), (a.val, 13), (b.val, 7)] [6, 6, 6] 25 := ⟨d.isLt, by decide, ⟨a.isLt, by decide, ⟨b.isLt, by decide, trivial⟩⟩⟩
  have g0 : Fits ((0x63, 25) :: [(d.val, 19), (a.val, 13), (b.val, 7)]) (7 :: [6, 6, 6]) 32 := ⟨by decide, by decide, fit⟩
  have dcd : decodeS w = checked w [(0, 7)] [] (.spawn (field 64 w 19) (field 64 w 13) (field 64 w 7)) := by
    unfold decodeS
    rw [show w / 2 ^ 25 = 0x63 from e ▸ pack_top fit]
    rfl
  show decodeS w = _
  rw [dcd, field_of (x := d) (len := 6) rfl ((e ▸ take_pack (lo := 19) (len := 6) g0 rfl : w / 2 ^ 19 % 2 ^ 6 = _)), field_of (x := a) (len := 6) rfl ((e ▸ take_pack (lo := 13) (len := 6) g0 rfl : w / 2 ^ 13 % 2 ^ 6 = _)), field_of (x := b) (len := 6) rfl ((e ▸ take_pack (lo := 7) (len := 6) g0 rfl : w / 2 ^ 7 % 2 ^ 6 = _))]
  exact checked_of hwf (zero_cons ((e ▸ take_pack (lo := 0) (len := 7) g0 rfl : w / 2 ^ 0 % 2 ^ 7 = _)) rfl) rfl

theorem Encoding.cancel (d : Fin 64) (a : Fin 64) (b : Fin 64) : Encoding.Statement (.cancel d a b) := by
  intro hwf u w hunit henc
  cases hunit
  have e : pack ((0x64, 25) :: [(d.val, 19), (a.val, 13), (b.val, 7)]) = w := Option.some.inj henc
  have fit : Fits [(d.val, 19), (a.val, 13), (b.val, 7)] [6, 6, 6] 25 := ⟨d.isLt, by decide, ⟨a.isLt, by decide, ⟨b.isLt, by decide, trivial⟩⟩⟩
  have g0 : Fits ((0x64, 25) :: [(d.val, 19), (a.val, 13), (b.val, 7)]) (7 :: [6, 6, 6]) 32 := ⟨by decide, by decide, fit⟩
  have dcd : decodeS w = checked w [(0, 7)] [] (.cancel (field 64 w 19) (field 64 w 13) (field 64 w 7)) := by
    unfold decodeS
    rw [show w / 2 ^ 25 = 0x64 from e ▸ pack_top fit]
    rfl
  show decodeS w = _
  rw [dcd, field_of (x := d) (len := 6) rfl ((e ▸ take_pack (lo := 19) (len := 6) g0 rfl : w / 2 ^ 19 % 2 ^ 6 = _)), field_of (x := a) (len := 6) rfl ((e ▸ take_pack (lo := 13) (len := 6) g0 rfl : w / 2 ^ 13 % 2 ^ 6 = _)), field_of (x := b) (len := 6) rfl ((e ▸ take_pack (lo := 7) (len := 6) g0 rfl : w / 2 ^ 7 % 2 ^ 6 = _))]
  exact checked_of hwf (zero_cons ((e ▸ take_pack (lo := 0) (len := 7) g0 rfl : w / 2 ^ 0 % 2 ^ 7 = _)) rfl) rfl

theorem Encoding.vadd (d : Fin 64) (a : Fin 64) (b : Fin 64) (f : Fin 8) (g : Fin 16) : Encoding.Statement (.vadd d a b f g) := by
  intro hwf u w hunit henc
  cases hunit
  have e : pack ((0x01, 25) :: [(d.val, 19), (a.val, 13), (b.val, 7), (f.val, 4), (g.val, 0)]) = w := Option.some.inj henc
  have fit : Fits [(d.val, 19), (a.val, 13), (b.val, 7), (f.val, 4), (g.val, 0)] [6, 6, 6, 3, 4] 25 := ⟨d.isLt, by decide, ⟨a.isLt, by decide, ⟨b.isLt, by decide, ⟨f.isLt, by decide, ⟨g.isLt, by decide, trivial⟩⟩⟩⟩⟩
  have g0 : Fits ((0x01, 25) :: [(d.val, 19), (a.val, 13), (b.val, 7), (f.val, 4), (g.val, 0)]) (7 :: [6, 6, 6, 3, 4]) 32 := ⟨by decide, by decide, fit⟩
  have dcd : decodeV w = checked w [] [] (.vadd (field 64 w 19) (field 64 w 13) (field 64 w 7) (field 8 w 4) (field 16 w 0)) := by
    unfold decodeV
    rw [show w / 2 ^ 25 = 0x01 from e ▸ pack_top fit]
    rfl
  show decodeV w = _
  rw [dcd, field_of (x := d) (len := 6) rfl ((e ▸ take_pack (lo := 19) (len := 6) g0 rfl : w / 2 ^ 19 % 2 ^ 6 = _)), field_of (x := a) (len := 6) rfl ((e ▸ take_pack (lo := 13) (len := 6) g0 rfl : w / 2 ^ 13 % 2 ^ 6 = _)), field_of (x := b) (len := 6) rfl ((e ▸ take_pack (lo := 7) (len := 6) g0 rfl : w / 2 ^ 7 % 2 ^ 6 = _)), field_of (x := f) (len := 3) rfl ((e ▸ take_pack (lo := 4) (len := 3) g0 rfl : w / 2 ^ 4 % 2 ^ 3 = _)), field_of (x := g) (len := 4) rfl ((e ▸ take_pack (lo := 0) (len := 4) g0 rfl : w / 2 ^ 0 % 2 ^ 4 = _))]
  exact checked_of hwf rfl rfl

theorem Encoding.vsub (d : Fin 64) (a : Fin 64) (b : Fin 64) (f : Fin 8) (g : Fin 16) : Encoding.Statement (.vsub d a b f g) := by
  intro hwf u w hunit henc
  cases hunit
  have e : pack ((0x02, 25) :: [(d.val, 19), (a.val, 13), (b.val, 7), (f.val, 4), (g.val, 0)]) = w := Option.some.inj henc
  have fit : Fits [(d.val, 19), (a.val, 13), (b.val, 7), (f.val, 4), (g.val, 0)] [6, 6, 6, 3, 4] 25 := ⟨d.isLt, by decide, ⟨a.isLt, by decide, ⟨b.isLt, by decide, ⟨f.isLt, by decide, ⟨g.isLt, by decide, trivial⟩⟩⟩⟩⟩
  have g0 : Fits ((0x02, 25) :: [(d.val, 19), (a.val, 13), (b.val, 7), (f.val, 4), (g.val, 0)]) (7 :: [6, 6, 6, 3, 4]) 32 := ⟨by decide, by decide, fit⟩
  have dcd : decodeV w = checked w [] [] (.vsub (field 64 w 19) (field 64 w 13) (field 64 w 7) (field 8 w 4) (field 16 w 0)) := by
    unfold decodeV
    rw [show w / 2 ^ 25 = 0x02 from e ▸ pack_top fit]
    rfl
  show decodeV w = _
  rw [dcd, field_of (x := d) (len := 6) rfl ((e ▸ take_pack (lo := 19) (len := 6) g0 rfl : w / 2 ^ 19 % 2 ^ 6 = _)), field_of (x := a) (len := 6) rfl ((e ▸ take_pack (lo := 13) (len := 6) g0 rfl : w / 2 ^ 13 % 2 ^ 6 = _)), field_of (x := b) (len := 6) rfl ((e ▸ take_pack (lo := 7) (len := 6) g0 rfl : w / 2 ^ 7 % 2 ^ 6 = _)), field_of (x := f) (len := 3) rfl ((e ▸ take_pack (lo := 4) (len := 3) g0 rfl : w / 2 ^ 4 % 2 ^ 3 = _)), field_of (x := g) (len := 4) rfl ((e ▸ take_pack (lo := 0) (len := 4) g0 rfl : w / 2 ^ 0 % 2 ^ 4 = _))]
  exact checked_of hwf rfl rfl

theorem Encoding.vmul (d : Fin 64) (a : Fin 64) (b : Fin 64) (f : Fin 8) (g : Fin 16) : Encoding.Statement (.vmul d a b f g) := by
  intro hwf u w hunit henc
  cases hunit
  have e : pack ((0x03, 25) :: [(d.val, 19), (a.val, 13), (b.val, 7), (f.val, 4), (g.val, 0)]) = w := Option.some.inj henc
  have fit : Fits [(d.val, 19), (a.val, 13), (b.val, 7), (f.val, 4), (g.val, 0)] [6, 6, 6, 3, 4] 25 := ⟨d.isLt, by decide, ⟨a.isLt, by decide, ⟨b.isLt, by decide, ⟨f.isLt, by decide, ⟨g.isLt, by decide, trivial⟩⟩⟩⟩⟩
  have g0 : Fits ((0x03, 25) :: [(d.val, 19), (a.val, 13), (b.val, 7), (f.val, 4), (g.val, 0)]) (7 :: [6, 6, 6, 3, 4]) 32 := ⟨by decide, by decide, fit⟩
  have dcd : decodeV w = checked w [] [] (.vmul (field 64 w 19) (field 64 w 13) (field 64 w 7) (field 8 w 4) (field 16 w 0)) := by
    unfold decodeV
    rw [show w / 2 ^ 25 = 0x03 from e ▸ pack_top fit]
    rfl
  show decodeV w = _
  rw [dcd, field_of (x := d) (len := 6) rfl ((e ▸ take_pack (lo := 19) (len := 6) g0 rfl : w / 2 ^ 19 % 2 ^ 6 = _)), field_of (x := a) (len := 6) rfl ((e ▸ take_pack (lo := 13) (len := 6) g0 rfl : w / 2 ^ 13 % 2 ^ 6 = _)), field_of (x := b) (len := 6) rfl ((e ▸ take_pack (lo := 7) (len := 6) g0 rfl : w / 2 ^ 7 % 2 ^ 6 = _)), field_of (x := f) (len := 3) rfl ((e ▸ take_pack (lo := 4) (len := 3) g0 rfl : w / 2 ^ 4 % 2 ^ 3 = _)), field_of (x := g) (len := 4) rfl ((e ▸ take_pack (lo := 0) (len := 4) g0 rfl : w / 2 ^ 0 % 2 ^ 4 = _))]
  exact checked_of hwf rfl rfl

theorem Encoding.vfma (d : Fin 32) (a : Fin 64) (b : Fin 64) (f : Fin 8) (g : Fin 16) : Encoding.Statement (.vfma d a b f g) := by
  intro hwf u w hunit henc
  cases hunit
  have e : pack ((0x04, 25) :: [(d.val, 19), (a.val, 13), (b.val, 7), (f.val, 4), (g.val, 0)]) = w := Option.some.inj henc
  have fit : Fits [(d.val, 19), (a.val, 13), (b.val, 7), (f.val, 4), (g.val, 0)] [5, 6, 6, 3, 4] 25 := ⟨d.isLt, by decide, ⟨a.isLt, by decide, ⟨b.isLt, by decide, ⟨f.isLt, by decide, ⟨g.isLt, by decide, trivial⟩⟩⟩⟩⟩
  have g0 : Fits ((0x04, 25) :: [(d.val, 19), (a.val, 13), (b.val, 7), (f.val, 4), (g.val, 0)]) (7 :: [5, 6, 6, 3, 4]) 32 := ⟨by decide, by decide, fit⟩
  have dcd : decodeV w = checked w [] [(24, 1, 0, 19)] (.vfma (field 32 w 19) (field 64 w 13) (field 64 w 7) (field 8 w 4) (field 16 w 0)) := by
    unfold decodeV
    rw [show w / 2 ^ 25 = 0x04 from e ▸ pack_top fit]
    rfl
  show decodeV w = _
  rw [dcd, field_of (x := d) (len := 5) rfl ((e ▸ take_pack (lo := 19) (len := 5) g0 rfl : w / 2 ^ 19 % 2 ^ 5 = _)), field_of (x := a) (len := 6) rfl ((e ▸ take_pack (lo := 13) (len := 6) g0 rfl : w / 2 ^ 13 % 2 ^ 6 = _)), field_of (x := b) (len := 6) rfl ((e ▸ take_pack (lo := 7) (len := 6) g0 rfl : w / 2 ^ 7 % 2 ^ 6 = _)), field_of (x := f) (len := 3) rfl ((e ▸ take_pack (lo := 4) (len := 3) g0 rfl : w / 2 ^ 4 % 2 ^ 3 = _)), field_of (x := g) (len := 4) rfl ((e ▸ take_pack (lo := 0) (len := 4) g0 rfl : w / 2 ^ 0 % 2 ^ 4 = _))]
  exact checked_of hwf rfl (want_cons ((e ▸ take_pack (lo := 24) (len := 1) g0 rfl : w / 2 ^ 24 % 2 ^ 1 = _)) rfl)

theorem Encoding.vfms (d : Fin 32) (a : Fin 64) (b : Fin 64) (f : Fin 8) (g : Fin 16) : Encoding.Statement (.vfms d a b f g) := by
  intro hwf u w hunit henc
  cases hunit
  have e : pack ((0x05, 25) :: [(d.val, 19), (a.val, 13), (b.val, 7), (f.val, 4), (g.val, 0)]) = w := Option.some.inj henc
  have fit : Fits [(d.val, 19), (a.val, 13), (b.val, 7), (f.val, 4), (g.val, 0)] [5, 6, 6, 3, 4] 25 := ⟨d.isLt, by decide, ⟨a.isLt, by decide, ⟨b.isLt, by decide, ⟨f.isLt, by decide, ⟨g.isLt, by decide, trivial⟩⟩⟩⟩⟩
  have g0 : Fits ((0x05, 25) :: [(d.val, 19), (a.val, 13), (b.val, 7), (f.val, 4), (g.val, 0)]) (7 :: [5, 6, 6, 3, 4]) 32 := ⟨by decide, by decide, fit⟩
  have dcd : decodeV w = checked w [] [(24, 1, 0, 19)] (.vfms (field 32 w 19) (field 64 w 13) (field 64 w 7) (field 8 w 4) (field 16 w 0)) := by
    unfold decodeV
    rw [show w / 2 ^ 25 = 0x05 from e ▸ pack_top fit]
    rfl
  show decodeV w = _
  rw [dcd, field_of (x := d) (len := 5) rfl ((e ▸ take_pack (lo := 19) (len := 5) g0 rfl : w / 2 ^ 19 % 2 ^ 5 = _)), field_of (x := a) (len := 6) rfl ((e ▸ take_pack (lo := 13) (len := 6) g0 rfl : w / 2 ^ 13 % 2 ^ 6 = _)), field_of (x := b) (len := 6) rfl ((e ▸ take_pack (lo := 7) (len := 6) g0 rfl : w / 2 ^ 7 % 2 ^ 6 = _)), field_of (x := f) (len := 3) rfl ((e ▸ take_pack (lo := 4) (len := 3) g0 rfl : w / 2 ^ 4 % 2 ^ 3 = _)), field_of (x := g) (len := 4) rfl ((e ▸ take_pack (lo := 0) (len := 4) g0 rfl : w / 2 ^ 0 % 2 ^ 4 = _))]
  exact checked_of hwf rfl (want_cons ((e ▸ take_pack (lo := 24) (len := 1) g0 rfl : w / 2 ^ 24 % 2 ^ 1 = _)) rfl)

theorem Encoding.vfnma (d : Fin 32) (a : Fin 64) (b : Fin 64) (f : Fin 8) (g : Fin 16) : Encoding.Statement (.vfnma d a b f g) := by
  intro hwf u w hunit henc
  cases hunit
  have e : pack ((0x06, 25) :: [(d.val, 19), (a.val, 13), (b.val, 7), (f.val, 4), (g.val, 0)]) = w := Option.some.inj henc
  have fit : Fits [(d.val, 19), (a.val, 13), (b.val, 7), (f.val, 4), (g.val, 0)] [5, 6, 6, 3, 4] 25 := ⟨d.isLt, by decide, ⟨a.isLt, by decide, ⟨b.isLt, by decide, ⟨f.isLt, by decide, ⟨g.isLt, by decide, trivial⟩⟩⟩⟩⟩
  have g0 : Fits ((0x06, 25) :: [(d.val, 19), (a.val, 13), (b.val, 7), (f.val, 4), (g.val, 0)]) (7 :: [5, 6, 6, 3, 4]) 32 := ⟨by decide, by decide, fit⟩
  have dcd : decodeV w = checked w [] [(24, 1, 0, 19)] (.vfnma (field 32 w 19) (field 64 w 13) (field 64 w 7) (field 8 w 4) (field 16 w 0)) := by
    unfold decodeV
    rw [show w / 2 ^ 25 = 0x06 from e ▸ pack_top fit]
    rfl
  show decodeV w = _
  rw [dcd, field_of (x := d) (len := 5) rfl ((e ▸ take_pack (lo := 19) (len := 5) g0 rfl : w / 2 ^ 19 % 2 ^ 5 = _)), field_of (x := a) (len := 6) rfl ((e ▸ take_pack (lo := 13) (len := 6) g0 rfl : w / 2 ^ 13 % 2 ^ 6 = _)), field_of (x := b) (len := 6) rfl ((e ▸ take_pack (lo := 7) (len := 6) g0 rfl : w / 2 ^ 7 % 2 ^ 6 = _)), field_of (x := f) (len := 3) rfl ((e ▸ take_pack (lo := 4) (len := 3) g0 rfl : w / 2 ^ 4 % 2 ^ 3 = _)), field_of (x := g) (len := 4) rfl ((e ▸ take_pack (lo := 0) (len := 4) g0 rfl : w / 2 ^ 0 % 2 ^ 4 = _))]
  exact checked_of hwf rfl (want_cons ((e ▸ take_pack (lo := 24) (len := 1) g0 rfl : w / 2 ^ 24 % 2 ^ 1 = _)) rfl)

theorem Encoding.vmin (d : Fin 64) (a : Fin 64) (b : Fin 64) (f : Fin 8) (g : Fin 16) : Encoding.Statement (.vmin d a b f g) := by
  intro hwf u w hunit henc
  cases hunit
  have e : pack ((0x07, 25) :: [(d.val, 19), (a.val, 13), (b.val, 7), (f.val, 4), (g.val, 0)]) = w := Option.some.inj henc
  have fit : Fits [(d.val, 19), (a.val, 13), (b.val, 7), (f.val, 4), (g.val, 0)] [6, 6, 6, 3, 4] 25 := ⟨d.isLt, by decide, ⟨a.isLt, by decide, ⟨b.isLt, by decide, ⟨f.isLt, by decide, ⟨g.isLt, by decide, trivial⟩⟩⟩⟩⟩
  have g0 : Fits ((0x07, 25) :: [(d.val, 19), (a.val, 13), (b.val, 7), (f.val, 4), (g.val, 0)]) (7 :: [6, 6, 6, 3, 4]) 32 := ⟨by decide, by decide, fit⟩
  have dcd : decodeV w = checked w [] [] (.vmin (field 64 w 19) (field 64 w 13) (field 64 w 7) (field 8 w 4) (field 16 w 0)) := by
    unfold decodeV
    rw [show w / 2 ^ 25 = 0x07 from e ▸ pack_top fit]
    rfl
  show decodeV w = _
  rw [dcd, field_of (x := d) (len := 6) rfl ((e ▸ take_pack (lo := 19) (len := 6) g0 rfl : w / 2 ^ 19 % 2 ^ 6 = _)), field_of (x := a) (len := 6) rfl ((e ▸ take_pack (lo := 13) (len := 6) g0 rfl : w / 2 ^ 13 % 2 ^ 6 = _)), field_of (x := b) (len := 6) rfl ((e ▸ take_pack (lo := 7) (len := 6) g0 rfl : w / 2 ^ 7 % 2 ^ 6 = _)), field_of (x := f) (len := 3) rfl ((e ▸ take_pack (lo := 4) (len := 3) g0 rfl : w / 2 ^ 4 % 2 ^ 3 = _)), field_of (x := g) (len := 4) rfl ((e ▸ take_pack (lo := 0) (len := 4) g0 rfl : w / 2 ^ 0 % 2 ^ 4 = _))]
  exact checked_of hwf rfl rfl

theorem Encoding.vmax (d : Fin 64) (a : Fin 64) (b : Fin 64) (f : Fin 8) (g : Fin 16) : Encoding.Statement (.vmax d a b f g) := by
  intro hwf u w hunit henc
  cases hunit
  have e : pack ((0x08, 25) :: [(d.val, 19), (a.val, 13), (b.val, 7), (f.val, 4), (g.val, 0)]) = w := Option.some.inj henc
  have fit : Fits [(d.val, 19), (a.val, 13), (b.val, 7), (f.val, 4), (g.val, 0)] [6, 6, 6, 3, 4] 25 := ⟨d.isLt, by decide, ⟨a.isLt, by decide, ⟨b.isLt, by decide, ⟨f.isLt, by decide, ⟨g.isLt, by decide, trivial⟩⟩⟩⟩⟩
  have g0 : Fits ((0x08, 25) :: [(d.val, 19), (a.val, 13), (b.val, 7), (f.val, 4), (g.val, 0)]) (7 :: [6, 6, 6, 3, 4]) 32 := ⟨by decide, by decide, fit⟩
  have dcd : decodeV w = checked w [] [] (.vmax (field 64 w 19) (field 64 w 13) (field 64 w 7) (field 8 w 4) (field 16 w 0)) := by
    unfold decodeV
    rw [show w / 2 ^ 25 = 0x08 from e ▸ pack_top fit]
    rfl
  show decodeV w = _
  rw [dcd, field_of (x := d) (len := 6) rfl ((e ▸ take_pack (lo := 19) (len := 6) g0 rfl : w / 2 ^ 19 % 2 ^ 6 = _)), field_of (x := a) (len := 6) rfl ((e ▸ take_pack (lo := 13) (len := 6) g0 rfl : w / 2 ^ 13 % 2 ^ 6 = _)), field_of (x := b) (len := 6) rfl ((e ▸ take_pack (lo := 7) (len := 6) g0 rfl : w / 2 ^ 7 % 2 ^ 6 = _)), field_of (x := f) (len := 3) rfl ((e ▸ take_pack (lo := 4) (len := 3) g0 rfl : w / 2 ^ 4 % 2 ^ 3 = _)), field_of (x := g) (len := 4) rfl ((e ▸ take_pack (lo := 0) (len := 4) g0 rfl : w / 2 ^ 0 % 2 ^ 4 = _))]
  exact checked_of hwf rfl rfl

theorem Encoding.vabs (d : Fin 64) (a : Fin 64) (f : Fin 8) (g : Fin 16) : Encoding.Statement (.vabs d a f g) := by
  intro hwf u w hunit henc
  cases hunit
  have e : pack ((0x09, 25) :: [(d.val, 19), (a.val, 13), (f.val, 4), (g.val, 0)]) = w := Option.some.inj henc
  have fit : Fits [(d.val, 19), (a.val, 13), (f.val, 4), (g.val, 0)] [6, 6, 3, 4] 25 := ⟨d.isLt, by decide, ⟨a.isLt, by decide, ⟨f.isLt, by decide, ⟨g.isLt, by decide, trivial⟩⟩⟩⟩
  have g0 : Fits ((0x09, 25) :: [(d.val, 19), (a.val, 13), (f.val, 4), (g.val, 0)]) (7 :: [6, 6, 3, 4]) 32 := ⟨by decide, by decide, fit⟩
  have dcd : decodeV w = checked w [(7, 6)] [] (.vabs (field 64 w 19) (field 64 w 13) (field 8 w 4) (field 16 w 0)) := by
    unfold decodeV
    rw [show w / 2 ^ 25 = 0x09 from e ▸ pack_top fit]
    rfl
  show decodeV w = _
  rw [dcd, field_of (x := d) (len := 6) rfl ((e ▸ take_pack (lo := 19) (len := 6) g0 rfl : w / 2 ^ 19 % 2 ^ 6 = _)), field_of (x := a) (len := 6) rfl ((e ▸ take_pack (lo := 13) (len := 6) g0 rfl : w / 2 ^ 13 % 2 ^ 6 = _)), field_of (x := f) (len := 3) rfl ((e ▸ take_pack (lo := 4) (len := 3) g0 rfl : w / 2 ^ 4 % 2 ^ 3 = _)), field_of (x := g) (len := 4) rfl ((e ▸ take_pack (lo := 0) (len := 4) g0 rfl : w / 2 ^ 0 % 2 ^ 4 = _))]
  exact checked_of hwf (zero_cons ((e ▸ take_pack (lo := 7) (len := 6) g0 rfl : w / 2 ^ 7 % 2 ^ 6 = _)) rfl) rfl

theorem Encoding.vneg (d : Fin 64) (a : Fin 64) (f : Fin 8) (g : Fin 16) : Encoding.Statement (.vneg d a f g) := by
  intro hwf u w hunit henc
  cases hunit
  have e : pack ((0x0A, 25) :: [(d.val, 19), (a.val, 13), (f.val, 4), (g.val, 0)]) = w := Option.some.inj henc
  have fit : Fits [(d.val, 19), (a.val, 13), (f.val, 4), (g.val, 0)] [6, 6, 3, 4] 25 := ⟨d.isLt, by decide, ⟨a.isLt, by decide, ⟨f.isLt, by decide, ⟨g.isLt, by decide, trivial⟩⟩⟩⟩
  have g0 : Fits ((0x0A, 25) :: [(d.val, 19), (a.val, 13), (f.val, 4), (g.val, 0)]) (7 :: [6, 6, 3, 4]) 32 := ⟨by decide, by decide, fit⟩
  have dcd : decodeV w = checked w [(7, 6)] [] (.vneg (field 64 w 19) (field 64 w 13) (field 8 w 4) (field 16 w 0)) := by
    unfold decodeV
    rw [show w / 2 ^ 25 = 0x0A from e ▸ pack_top fit]
    rfl
  show decodeV w = _
  rw [dcd, field_of (x := d) (len := 6) rfl ((e ▸ take_pack (lo := 19) (len := 6) g0 rfl : w / 2 ^ 19 % 2 ^ 6 = _)), field_of (x := a) (len := 6) rfl ((e ▸ take_pack (lo := 13) (len := 6) g0 rfl : w / 2 ^ 13 % 2 ^ 6 = _)), field_of (x := f) (len := 3) rfl ((e ▸ take_pack (lo := 4) (len := 3) g0 rfl : w / 2 ^ 4 % 2 ^ 3 = _)), field_of (x := g) (len := 4) rfl ((e ▸ take_pack (lo := 0) (len := 4) g0 rfl : w / 2 ^ 0 % 2 ^ 4 = _))]
  exact checked_of hwf (zero_cons ((e ▸ take_pack (lo := 7) (len := 6) g0 rfl : w / 2 ^ 7 % 2 ^ 6 = _)) rfl) rfl

theorem Encoding.vrcp (d : Fin 64) (a : Fin 64) (f : Fin 8) (g : Fin 16) : Encoding.Statement (.vrcp d a f g) := by
  intro hwf u w hunit henc
  cases hunit
  have e : pack ((0x10, 25) :: [(d.val, 19), (a.val, 13), (f.val, 4), (g.val, 0)]) = w := Option.some.inj henc
  have fit : Fits [(d.val, 19), (a.val, 13), (f.val, 4), (g.val, 0)] [6, 6, 3, 4] 25 := ⟨d.isLt, by decide, ⟨a.isLt, by decide, ⟨f.isLt, by decide, ⟨g.isLt, by decide, trivial⟩⟩⟩⟩
  have g0 : Fits ((0x10, 25) :: [(d.val, 19), (a.val, 13), (f.val, 4), (g.val, 0)]) (7 :: [6, 6, 3, 4]) 32 := ⟨by decide, by decide, fit⟩
  have dcd : decodeV w = checked w [(7, 6)] [] (.vrcp (field 64 w 19) (field 64 w 13) (field 8 w 4) (field 16 w 0)) := by
    unfold decodeV
    rw [show w / 2 ^ 25 = 0x10 from e ▸ pack_top fit]
    rfl
  show decodeV w = _
  rw [dcd, field_of (x := d) (len := 6) rfl ((e ▸ take_pack (lo := 19) (len := 6) g0 rfl : w / 2 ^ 19 % 2 ^ 6 = _)), field_of (x := a) (len := 6) rfl ((e ▸ take_pack (lo := 13) (len := 6) g0 rfl : w / 2 ^ 13 % 2 ^ 6 = _)), field_of (x := f) (len := 3) rfl ((e ▸ take_pack (lo := 4) (len := 3) g0 rfl : w / 2 ^ 4 % 2 ^ 3 = _)), field_of (x := g) (len := 4) rfl ((e ▸ take_pack (lo := 0) (len := 4) g0 rfl : w / 2 ^ 0 % 2 ^ 4 = _))]
  exact checked_of hwf (zero_cons ((e ▸ take_pack (lo := 7) (len := 6) g0 rfl : w / 2 ^ 7 % 2 ^ 6 = _)) rfl) rfl

theorem Encoding.vrsq (d : Fin 64) (a : Fin 64) (f : Fin 8) (g : Fin 16) : Encoding.Statement (.vrsq d a f g) := by
  intro hwf u w hunit henc
  cases hunit
  have e : pack ((0x11, 25) :: [(d.val, 19), (a.val, 13), (f.val, 4), (g.val, 0)]) = w := Option.some.inj henc
  have fit : Fits [(d.val, 19), (a.val, 13), (f.val, 4), (g.val, 0)] [6, 6, 3, 4] 25 := ⟨d.isLt, by decide, ⟨a.isLt, by decide, ⟨f.isLt, by decide, ⟨g.isLt, by decide, trivial⟩⟩⟩⟩
  have g0 : Fits ((0x11, 25) :: [(d.val, 19), (a.val, 13), (f.val, 4), (g.val, 0)]) (7 :: [6, 6, 3, 4]) 32 := ⟨by decide, by decide, fit⟩
  have dcd : decodeV w = checked w [(7, 6)] [] (.vrsq (field 64 w 19) (field 64 w 13) (field 8 w 4) (field 16 w 0)) := by
    unfold decodeV
    rw [show w / 2 ^ 25 = 0x11 from e ▸ pack_top fit]
    rfl
  show decodeV w = _
  rw [dcd, field_of (x := d) (len := 6) rfl ((e ▸ take_pack (lo := 19) (len := 6) g0 rfl : w / 2 ^ 19 % 2 ^ 6 = _)), field_of (x := a) (len := 6) rfl ((e ▸ take_pack (lo := 13) (len := 6) g0 rfl : w / 2 ^ 13 % 2 ^ 6 = _)), field_of (x := f) (len := 3) rfl ((e ▸ take_pack (lo := 4) (len := 3) g0 rfl : w / 2 ^ 4 % 2 ^ 3 = _)), field_of (x := g) (len := 4) rfl ((e ▸ take_pack (lo := 0) (len := 4) g0 rfl : w / 2 ^ 0 % 2 ^ 4 = _))]
  exact checked_of hwf (zero_cons ((e ▸ take_pack (lo := 7) (len := 6) g0 rfl : w / 2 ^ 7 % 2 ^ 6 = _)) rfl) rfl

theorem Encoding.vsqrt (d : Fin 64) (a : Fin 64) (f : Fin 8) (g : Fin 16) : Encoding.Statement (.vsqrt d a f g) := by
  intro hwf u w hunit henc
  cases hunit
  have e : pack ((0x12, 25) :: [(d.val, 19), (a.val, 13), (f.val, 4), (g.val, 0)]) = w := Option.some.inj henc
  have fit : Fits [(d.val, 19), (a.val, 13), (f.val, 4), (g.val, 0)] [6, 6, 3, 4] 25 := ⟨d.isLt, by decide, ⟨a.isLt, by decide, ⟨f.isLt, by decide, ⟨g.isLt, by decide, trivial⟩⟩⟩⟩
  have g0 : Fits ((0x12, 25) :: [(d.val, 19), (a.val, 13), (f.val, 4), (g.val, 0)]) (7 :: [6, 6, 3, 4]) 32 := ⟨by decide, by decide, fit⟩
  have dcd : decodeV w = checked w [(7, 6)] [] (.vsqrt (field 64 w 19) (field 64 w 13) (field 8 w 4) (field 16 w 0)) := by
    unfold decodeV
    rw [show w / 2 ^ 25 = 0x12 from e ▸ pack_top fit]
    rfl
  show decodeV w = _
  rw [dcd, field_of (x := d) (len := 6) rfl ((e ▸ take_pack (lo := 19) (len := 6) g0 rfl : w / 2 ^ 19 % 2 ^ 6 = _)), field_of (x := a) (len := 6) rfl ((e ▸ take_pack (lo := 13) (len := 6) g0 rfl : w / 2 ^ 13 % 2 ^ 6 = _)), field_of (x := f) (len := 3) rfl ((e ▸ take_pack (lo := 4) (len := 3) g0 rfl : w / 2 ^ 4 % 2 ^ 3 = _)), field_of (x := g) (len := 4) rfl ((e ▸ take_pack (lo := 0) (len := 4) g0 rfl : w / 2 ^ 0 % 2 ^ 4 = _))]
  exact checked_of hwf (zero_cons ((e ▸ take_pack (lo := 7) (len := 6) g0 rfl : w / 2 ^ 7 % 2 ^ 6 = _)) rfl) rfl

theorem Encoding.vexp2 (d : Fin 64) (a : Fin 64) (f : Fin 8) (g : Fin 16) : Encoding.Statement (.vexp2 d a f g) := by
  intro hwf u w hunit henc
  cases hunit
  have e : pack ((0x13, 25) :: [(d.val, 19), (a.val, 13), (f.val, 4), (g.val, 0)]) = w := Option.some.inj henc
  have fit : Fits [(d.val, 19), (a.val, 13), (f.val, 4), (g.val, 0)] [6, 6, 3, 4] 25 := ⟨d.isLt, by decide, ⟨a.isLt, by decide, ⟨f.isLt, by decide, ⟨g.isLt, by decide, trivial⟩⟩⟩⟩
  have g0 : Fits ((0x13, 25) :: [(d.val, 19), (a.val, 13), (f.val, 4), (g.val, 0)]) (7 :: [6, 6, 3, 4]) 32 := ⟨by decide, by decide, fit⟩
  have dcd : decodeV w = checked w [(7, 6)] [] (.vexp2 (field 64 w 19) (field 64 w 13) (field 8 w 4) (field 16 w 0)) := by
    unfold decodeV
    rw [show w / 2 ^ 25 = 0x13 from e ▸ pack_top fit]
    rfl
  show decodeV w = _
  rw [dcd, field_of (x := d) (len := 6) rfl ((e ▸ take_pack (lo := 19) (len := 6) g0 rfl : w / 2 ^ 19 % 2 ^ 6 = _)), field_of (x := a) (len := 6) rfl ((e ▸ take_pack (lo := 13) (len := 6) g0 rfl : w / 2 ^ 13 % 2 ^ 6 = _)), field_of (x := f) (len := 3) rfl ((e ▸ take_pack (lo := 4) (len := 3) g0 rfl : w / 2 ^ 4 % 2 ^ 3 = _)), field_of (x := g) (len := 4) rfl ((e ▸ take_pack (lo := 0) (len := 4) g0 rfl : w / 2 ^ 0 % 2 ^ 4 = _))]
  exact checked_of hwf (zero_cons ((e ▸ take_pack (lo := 7) (len := 6) g0 rfl : w / 2 ^ 7 % 2 ^ 6 = _)) rfl) rfl

theorem Encoding.vlog2 (d : Fin 64) (a : Fin 64) (f : Fin 8) (g : Fin 16) : Encoding.Statement (.vlog2 d a f g) := by
  intro hwf u w hunit henc
  cases hunit
  have e : pack ((0x14, 25) :: [(d.val, 19), (a.val, 13), (f.val, 4), (g.val, 0)]) = w := Option.some.inj henc
  have fit : Fits [(d.val, 19), (a.val, 13), (f.val, 4), (g.val, 0)] [6, 6, 3, 4] 25 := ⟨d.isLt, by decide, ⟨a.isLt, by decide, ⟨f.isLt, by decide, ⟨g.isLt, by decide, trivial⟩⟩⟩⟩
  have g0 : Fits ((0x14, 25) :: [(d.val, 19), (a.val, 13), (f.val, 4), (g.val, 0)]) (7 :: [6, 6, 3, 4]) 32 := ⟨by decide, by decide, fit⟩
  have dcd : decodeV w = checked w [(7, 6)] [] (.vlog2 (field 64 w 19) (field 64 w 13) (field 8 w 4) (field 16 w 0)) := by
    unfold decodeV
    rw [show w / 2 ^ 25 = 0x14 from e ▸ pack_top fit]
    rfl
  show decodeV w = _
  rw [dcd, field_of (x := d) (len := 6) rfl ((e ▸ take_pack (lo := 19) (len := 6) g0 rfl : w / 2 ^ 19 % 2 ^ 6 = _)), field_of (x := a) (len := 6) rfl ((e ▸ take_pack (lo := 13) (len := 6) g0 rfl : w / 2 ^ 13 % 2 ^ 6 = _)), field_of (x := f) (len := 3) rfl ((e ▸ take_pack (lo := 4) (len := 3) g0 rfl : w / 2 ^ 4 % 2 ^ 3 = _)), field_of (x := g) (len := 4) rfl ((e ▸ take_pack (lo := 0) (len := 4) g0 rfl : w / 2 ^ 0 % 2 ^ 4 = _))]
  exact checked_of hwf (zero_cons ((e ▸ take_pack (lo := 7) (len := 6) g0 rfl : w / 2 ^ 7 % 2 ^ 6 = _)) rfl) rfl

theorem Encoding.vtanh (d : Fin 64) (a : Fin 64) (f : Fin 8) (g : Fin 16) : Encoding.Statement (.vtanh d a f g) := by
  intro hwf u w hunit henc
  cases hunit
  have e : pack ((0x15, 25) :: [(d.val, 19), (a.val, 13), (f.val, 4), (g.val, 0)]) = w := Option.some.inj henc
  have fit : Fits [(d.val, 19), (a.val, 13), (f.val, 4), (g.val, 0)] [6, 6, 3, 4] 25 := ⟨d.isLt, by decide, ⟨a.isLt, by decide, ⟨f.isLt, by decide, ⟨g.isLt, by decide, trivial⟩⟩⟩⟩
  have g0 : Fits ((0x15, 25) :: [(d.val, 19), (a.val, 13), (f.val, 4), (g.val, 0)]) (7 :: [6, 6, 3, 4]) 32 := ⟨by decide, by decide, fit⟩
  have dcd : decodeV w = checked w [(7, 6)] [] (.vtanh (field 64 w 19) (field 64 w 13) (field 8 w 4) (field 16 w 0)) := by
    unfold decodeV
    rw [show w / 2 ^ 25 = 0x15 from e ▸ pack_top fit]
    rfl
  show decodeV w = _
  rw [dcd, field_of (x := d) (len := 6) rfl ((e ▸ take_pack (lo := 19) (len := 6) g0 rfl : w / 2 ^ 19 % 2 ^ 6 = _)), field_of (x := a) (len := 6) rfl ((e ▸ take_pack (lo := 13) (len := 6) g0 rfl : w / 2 ^ 13 % 2 ^ 6 = _)), field_of (x := f) (len := 3) rfl ((e ▸ take_pack (lo := 4) (len := 3) g0 rfl : w / 2 ^ 4 % 2 ^ 3 = _)), field_of (x := g) (len := 4) rfl ((e ▸ take_pack (lo := 0) (len := 4) g0 rfl : w / 2 ^ 0 % 2 ^ 4 = _))]
  exact checked_of hwf (zero_cons ((e ▸ take_pack (lo := 7) (len := 6) g0 rfl : w / 2 ^ 7 % 2 ^ 6 = _)) rfl) rfl

theorem Encoding.viadd (d : Fin 64) (a : Fin 64) (b : Fin 64) (f : Fin 8) (g : Fin 16) : Encoding.Statement (.viadd d a b f g) := by
  intro hwf u w hunit henc
  cases hunit
  have e : pack ((0x18, 25) :: [(d.val, 19), (a.val, 13), (b.val, 7), (f.val, 4), (g.val, 0)]) = w := Option.some.inj henc
  have fit : Fits [(d.val, 19), (a.val, 13), (b.val, 7), (f.val, 4), (g.val, 0)] [6, 6, 6, 3, 4] 25 := ⟨d.isLt, by decide, ⟨a.isLt, by decide, ⟨b.isLt, by decide, ⟨f.isLt, by decide, ⟨g.isLt, by decide, trivial⟩⟩⟩⟩⟩
  have g0 : Fits ((0x18, 25) :: [(d.val, 19), (a.val, 13), (b.val, 7), (f.val, 4), (g.val, 0)]) (7 :: [6, 6, 6, 3, 4]) 32 := ⟨by decide, by decide, fit⟩
  have dcd : decodeV w = checked w [] [] (.viadd (field 64 w 19) (field 64 w 13) (field 64 w 7) (field 8 w 4) (field 16 w 0)) := by
    unfold decodeV
    rw [show w / 2 ^ 25 = 0x18 from e ▸ pack_top fit]
    rfl
  show decodeV w = _
  rw [dcd, field_of (x := d) (len := 6) rfl ((e ▸ take_pack (lo := 19) (len := 6) g0 rfl : w / 2 ^ 19 % 2 ^ 6 = _)), field_of (x := a) (len := 6) rfl ((e ▸ take_pack (lo := 13) (len := 6) g0 rfl : w / 2 ^ 13 % 2 ^ 6 = _)), field_of (x := b) (len := 6) rfl ((e ▸ take_pack (lo := 7) (len := 6) g0 rfl : w / 2 ^ 7 % 2 ^ 6 = _)), field_of (x := f) (len := 3) rfl ((e ▸ take_pack (lo := 4) (len := 3) g0 rfl : w / 2 ^ 4 % 2 ^ 3 = _)), field_of (x := g) (len := 4) rfl ((e ▸ take_pack (lo := 0) (len := 4) g0 rfl : w / 2 ^ 0 % 2 ^ 4 = _))]
  exact checked_of hwf rfl rfl

theorem Encoding.visub (d : Fin 64) (a : Fin 64) (b : Fin 64) (f : Fin 8) (g : Fin 16) : Encoding.Statement (.visub d a b f g) := by
  intro hwf u w hunit henc
  cases hunit
  have e : pack ((0x19, 25) :: [(d.val, 19), (a.val, 13), (b.val, 7), (f.val, 4), (g.val, 0)]) = w := Option.some.inj henc
  have fit : Fits [(d.val, 19), (a.val, 13), (b.val, 7), (f.val, 4), (g.val, 0)] [6, 6, 6, 3, 4] 25 := ⟨d.isLt, by decide, ⟨a.isLt, by decide, ⟨b.isLt, by decide, ⟨f.isLt, by decide, ⟨g.isLt, by decide, trivial⟩⟩⟩⟩⟩
  have g0 : Fits ((0x19, 25) :: [(d.val, 19), (a.val, 13), (b.val, 7), (f.val, 4), (g.val, 0)]) (7 :: [6, 6, 6, 3, 4]) 32 := ⟨by decide, by decide, fit⟩
  have dcd : decodeV w = checked w [] [] (.visub (field 64 w 19) (field 64 w 13) (field 64 w 7) (field 8 w 4) (field 16 w 0)) := by
    unfold decodeV
    rw [show w / 2 ^ 25 = 0x19 from e ▸ pack_top fit]
    rfl
  show decodeV w = _
  rw [dcd, field_of (x := d) (len := 6) rfl ((e ▸ take_pack (lo := 19) (len := 6) g0 rfl : w / 2 ^ 19 % 2 ^ 6 = _)), field_of (x := a) (len := 6) rfl ((e ▸ take_pack (lo := 13) (len := 6) g0 rfl : w / 2 ^ 13 % 2 ^ 6 = _)), field_of (x := b) (len := 6) rfl ((e ▸ take_pack (lo := 7) (len := 6) g0 rfl : w / 2 ^ 7 % 2 ^ 6 = _)), field_of (x := f) (len := 3) rfl ((e ▸ take_pack (lo := 4) (len := 3) g0 rfl : w / 2 ^ 4 % 2 ^ 3 = _)), field_of (x := g) (len := 4) rfl ((e ▸ take_pack (lo := 0) (len := 4) g0 rfl : w / 2 ^ 0 % 2 ^ 4 = _))]
  exact checked_of hwf rfl rfl

theorem Encoding.vimul (d : Fin 64) (a : Fin 64) (b : Fin 64) (f : Fin 8) (g : Fin 16) : Encoding.Statement (.vimul d a b f g) := by
  intro hwf u w hunit henc
  cases hunit
  have e : pack ((0x1A, 25) :: [(d.val, 19), (a.val, 13), (b.val, 7), (f.val, 4), (g.val, 0)]) = w := Option.some.inj henc
  have fit : Fits [(d.val, 19), (a.val, 13), (b.val, 7), (f.val, 4), (g.val, 0)] [6, 6, 6, 3, 4] 25 := ⟨d.isLt, by decide, ⟨a.isLt, by decide, ⟨b.isLt, by decide, ⟨f.isLt, by decide, ⟨g.isLt, by decide, trivial⟩⟩⟩⟩⟩
  have g0 : Fits ((0x1A, 25) :: [(d.val, 19), (a.val, 13), (b.val, 7), (f.val, 4), (g.val, 0)]) (7 :: [6, 6, 6, 3, 4]) 32 := ⟨by decide, by decide, fit⟩
  have dcd : decodeV w = checked w [] [] (.vimul (field 64 w 19) (field 64 w 13) (field 64 w 7) (field 8 w 4) (field 16 w 0)) := by
    unfold decodeV
    rw [show w / 2 ^ 25 = 0x1A from e ▸ pack_top fit]
    rfl
  show decodeV w = _
  rw [dcd, field_of (x := d) (len := 6) rfl ((e ▸ take_pack (lo := 19) (len := 6) g0 rfl : w / 2 ^ 19 % 2 ^ 6 = _)), field_of (x := a) (len := 6) rfl ((e ▸ take_pack (lo := 13) (len := 6) g0 rfl : w / 2 ^ 13 % 2 ^ 6 = _)), field_of (x := b) (len := 6) rfl ((e ▸ take_pack (lo := 7) (len := 6) g0 rfl : w / 2 ^ 7 % 2 ^ 6 = _)), field_of (x := f) (len := 3) rfl ((e ▸ take_pack (lo := 4) (len := 3) g0 rfl : w / 2 ^ 4 % 2 ^ 3 = _)), field_of (x := g) (len := 4) rfl ((e ▸ take_pack (lo := 0) (len := 4) g0 rfl : w / 2 ^ 0 % 2 ^ 4 = _))]
  exact checked_of hwf rfl rfl

theorem Encoding.vimulh (d : Fin 64) (a : Fin 64) (b : Fin 64) (f : Fin 8) (g : Fin 16) : Encoding.Statement (.vimulh d a b f g) := by
  intro hwf u w hunit henc
  cases hunit
  have e : pack ((0x1B, 25) :: [(d.val, 19), (a.val, 13), (b.val, 7), (f.val, 4), (g.val, 0)]) = w := Option.some.inj henc
  have fit : Fits [(d.val, 19), (a.val, 13), (b.val, 7), (f.val, 4), (g.val, 0)] [6, 6, 6, 3, 4] 25 := ⟨d.isLt, by decide, ⟨a.isLt, by decide, ⟨b.isLt, by decide, ⟨f.isLt, by decide, ⟨g.isLt, by decide, trivial⟩⟩⟩⟩⟩
  have g0 : Fits ((0x1B, 25) :: [(d.val, 19), (a.val, 13), (b.val, 7), (f.val, 4), (g.val, 0)]) (7 :: [6, 6, 6, 3, 4]) 32 := ⟨by decide, by decide, fit⟩
  have dcd : decodeV w = checked w [] [] (.vimulh (field 64 w 19) (field 64 w 13) (field 64 w 7) (field 8 w 4) (field 16 w 0)) := by
    unfold decodeV
    rw [show w / 2 ^ 25 = 0x1B from e ▸ pack_top fit]
    rfl
  show decodeV w = _
  rw [dcd, field_of (x := d) (len := 6) rfl ((e ▸ take_pack (lo := 19) (len := 6) g0 rfl : w / 2 ^ 19 % 2 ^ 6 = _)), field_of (x := a) (len := 6) rfl ((e ▸ take_pack (lo := 13) (len := 6) g0 rfl : w / 2 ^ 13 % 2 ^ 6 = _)), field_of (x := b) (len := 6) rfl ((e ▸ take_pack (lo := 7) (len := 6) g0 rfl : w / 2 ^ 7 % 2 ^ 6 = _)), field_of (x := f) (len := 3) rfl ((e ▸ take_pack (lo := 4) (len := 3) g0 rfl : w / 2 ^ 4 % 2 ^ 3 = _)), field_of (x := g) (len := 4) rfl ((e ▸ take_pack (lo := 0) (len := 4) g0 rfl : w / 2 ^ 0 % 2 ^ 4 = _))]
  exact checked_of hwf rfl rfl

theorem Encoding.viadds (d : Fin 64) (a : Fin 64) (b : Fin 64) (f : Fin 8) (g : Fin 16) : Encoding.Statement (.viadds d a b f g) := by
  intro hwf u w hunit henc
  cases hunit
  have e : pack ((0x1C, 25) :: [(d.val, 19), (a.val, 13), (b.val, 7), (f.val, 4), (g.val, 0)]) = w := Option.some.inj henc
  have fit : Fits [(d.val, 19), (a.val, 13), (b.val, 7), (f.val, 4), (g.val, 0)] [6, 6, 6, 3, 4] 25 := ⟨d.isLt, by decide, ⟨a.isLt, by decide, ⟨b.isLt, by decide, ⟨f.isLt, by decide, ⟨g.isLt, by decide, trivial⟩⟩⟩⟩⟩
  have g0 : Fits ((0x1C, 25) :: [(d.val, 19), (a.val, 13), (b.val, 7), (f.val, 4), (g.val, 0)]) (7 :: [6, 6, 6, 3, 4]) 32 := ⟨by decide, by decide, fit⟩
  have dcd : decodeV w = checked w [] [] (.viadds (field 64 w 19) (field 64 w 13) (field 64 w 7) (field 8 w 4) (field 16 w 0)) := by
    unfold decodeV
    rw [show w / 2 ^ 25 = 0x1C from e ▸ pack_top fit]
    rfl
  show decodeV w = _
  rw [dcd, field_of (x := d) (len := 6) rfl ((e ▸ take_pack (lo := 19) (len := 6) g0 rfl : w / 2 ^ 19 % 2 ^ 6 = _)), field_of (x := a) (len := 6) rfl ((e ▸ take_pack (lo := 13) (len := 6) g0 rfl : w / 2 ^ 13 % 2 ^ 6 = _)), field_of (x := b) (len := 6) rfl ((e ▸ take_pack (lo := 7) (len := 6) g0 rfl : w / 2 ^ 7 % 2 ^ 6 = _)), field_of (x := f) (len := 3) rfl ((e ▸ take_pack (lo := 4) (len := 3) g0 rfl : w / 2 ^ 4 % 2 ^ 3 = _)), field_of (x := g) (len := 4) rfl ((e ▸ take_pack (lo := 0) (len := 4) g0 rfl : w / 2 ^ 0 % 2 ^ 4 = _))]
  exact checked_of hwf rfl rfl

theorem Encoding.visubs (d : Fin 64) (a : Fin 64) (b : Fin 64) (f : Fin 8) (g : Fin 16) : Encoding.Statement (.visubs d a b f g) := by
  intro hwf u w hunit henc
  cases hunit
  have e : pack ((0x1D, 25) :: [(d.val, 19), (a.val, 13), (b.val, 7), (f.val, 4), (g.val, 0)]) = w := Option.some.inj henc
  have fit : Fits [(d.val, 19), (a.val, 13), (b.val, 7), (f.val, 4), (g.val, 0)] [6, 6, 6, 3, 4] 25 := ⟨d.isLt, by decide, ⟨a.isLt, by decide, ⟨b.isLt, by decide, ⟨f.isLt, by decide, ⟨g.isLt, by decide, trivial⟩⟩⟩⟩⟩
  have g0 : Fits ((0x1D, 25) :: [(d.val, 19), (a.val, 13), (b.val, 7), (f.val, 4), (g.val, 0)]) (7 :: [6, 6, 6, 3, 4]) 32 := ⟨by decide, by decide, fit⟩
  have dcd : decodeV w = checked w [] [] (.visubs (field 64 w 19) (field 64 w 13) (field 64 w 7) (field 8 w 4) (field 16 w 0)) := by
    unfold decodeV
    rw [show w / 2 ^ 25 = 0x1D from e ▸ pack_top fit]
    rfl
  show decodeV w = _
  rw [dcd, field_of (x := d) (len := 6) rfl ((e ▸ take_pack (lo := 19) (len := 6) g0 rfl : w / 2 ^ 19 % 2 ^ 6 = _)), field_of (x := a) (len := 6) rfl ((e ▸ take_pack (lo := 13) (len := 6) g0 rfl : w / 2 ^ 13 % 2 ^ 6 = _)), field_of (x := b) (len := 6) rfl ((e ▸ take_pack (lo := 7) (len := 6) g0 rfl : w / 2 ^ 7 % 2 ^ 6 = _)), field_of (x := f) (len := 3) rfl ((e ▸ take_pack (lo := 4) (len := 3) g0 rfl : w / 2 ^ 4 % 2 ^ 3 = _)), field_of (x := g) (len := 4) rfl ((e ▸ take_pack (lo := 0) (len := 4) g0 rfl : w / 2 ^ 0 % 2 ^ 4 = _))]
  exact checked_of hwf rfl rfl

theorem Encoding.vimin (d : Fin 64) (a : Fin 64) (b : Fin 64) (f : Fin 8) (g : Fin 16) : Encoding.Statement (.vimin d a b f g) := by
  intro hwf u w hunit henc
  cases hunit
  have e : pack ((0x1E, 25) :: [(d.val, 19), (a.val, 13), (b.val, 7), (f.val, 4), (g.val, 0)]) = w := Option.some.inj henc
  have fit : Fits [(d.val, 19), (a.val, 13), (b.val, 7), (f.val, 4), (g.val, 0)] [6, 6, 6, 3, 4] 25 := ⟨d.isLt, by decide, ⟨a.isLt, by decide, ⟨b.isLt, by decide, ⟨f.isLt, by decide, ⟨g.isLt, by decide, trivial⟩⟩⟩⟩⟩
  have g0 : Fits ((0x1E, 25) :: [(d.val, 19), (a.val, 13), (b.val, 7), (f.val, 4), (g.val, 0)]) (7 :: [6, 6, 6, 3, 4]) 32 := ⟨by decide, by decide, fit⟩
  have dcd : decodeV w = checked w [] [] (.vimin (field 64 w 19) (field 64 w 13) (field 64 w 7) (field 8 w 4) (field 16 w 0)) := by
    unfold decodeV
    rw [show w / 2 ^ 25 = 0x1E from e ▸ pack_top fit]
    rfl
  show decodeV w = _
  rw [dcd, field_of (x := d) (len := 6) rfl ((e ▸ take_pack (lo := 19) (len := 6) g0 rfl : w / 2 ^ 19 % 2 ^ 6 = _)), field_of (x := a) (len := 6) rfl ((e ▸ take_pack (lo := 13) (len := 6) g0 rfl : w / 2 ^ 13 % 2 ^ 6 = _)), field_of (x := b) (len := 6) rfl ((e ▸ take_pack (lo := 7) (len := 6) g0 rfl : w / 2 ^ 7 % 2 ^ 6 = _)), field_of (x := f) (len := 3) rfl ((e ▸ take_pack (lo := 4) (len := 3) g0 rfl : w / 2 ^ 4 % 2 ^ 3 = _)), field_of (x := g) (len := 4) rfl ((e ▸ take_pack (lo := 0) (len := 4) g0 rfl : w / 2 ^ 0 % 2 ^ 4 = _))]
  exact checked_of hwf rfl rfl

theorem Encoding.vimax (d : Fin 64) (a : Fin 64) (b : Fin 64) (f : Fin 8) (g : Fin 16) : Encoding.Statement (.vimax d a b f g) := by
  intro hwf u w hunit henc
  cases hunit
  have e : pack ((0x1F, 25) :: [(d.val, 19), (a.val, 13), (b.val, 7), (f.val, 4), (g.val, 0)]) = w := Option.some.inj henc
  have fit : Fits [(d.val, 19), (a.val, 13), (b.val, 7), (f.val, 4), (g.val, 0)] [6, 6, 6, 3, 4] 25 := ⟨d.isLt, by decide, ⟨a.isLt, by decide, ⟨b.isLt, by decide, ⟨f.isLt, by decide, ⟨g.isLt, by decide, trivial⟩⟩⟩⟩⟩
  have g0 : Fits ((0x1F, 25) :: [(d.val, 19), (a.val, 13), (b.val, 7), (f.val, 4), (g.val, 0)]) (7 :: [6, 6, 6, 3, 4]) 32 := ⟨by decide, by decide, fit⟩
  have dcd : decodeV w = checked w [] [] (.vimax (field 64 w 19) (field 64 w 13) (field 64 w 7) (field 8 w 4) (field 16 w 0)) := by
    unfold decodeV
    rw [show w / 2 ^ 25 = 0x1F from e ▸ pack_top fit]
    rfl
  show decodeV w = _
  rw [dcd, field_of (x := d) (len := 6) rfl ((e ▸ take_pack (lo := 19) (len := 6) g0 rfl : w / 2 ^ 19 % 2 ^ 6 = _)), field_of (x := a) (len := 6) rfl ((e ▸ take_pack (lo := 13) (len := 6) g0 rfl : w / 2 ^ 13 % 2 ^ 6 = _)), field_of (x := b) (len := 6) rfl ((e ▸ take_pack (lo := 7) (len := 6) g0 rfl : w / 2 ^ 7 % 2 ^ 6 = _)), field_of (x := f) (len := 3) rfl ((e ▸ take_pack (lo := 4) (len := 3) g0 rfl : w / 2 ^ 4 % 2 ^ 3 = _)), field_of (x := g) (len := 4) rfl ((e ▸ take_pack (lo := 0) (len := 4) g0 rfl : w / 2 ^ 0 % 2 ^ 4 = _))]
  exact checked_of hwf rfl rfl

theorem Encoding.viminn (d : Fin 64) (a : Fin 64) (b : Fin 64) (f : Fin 8) (g : Fin 16) : Encoding.Statement (.viminn d a b f g) := by
  intro hwf u w hunit henc
  cases hunit
  have e : pack ((0x20, 25) :: [(d.val, 19), (a.val, 13), (b.val, 7), (f.val, 4), (g.val, 0)]) = w := Option.some.inj henc
  have fit : Fits [(d.val, 19), (a.val, 13), (b.val, 7), (f.val, 4), (g.val, 0)] [6, 6, 6, 3, 4] 25 := ⟨d.isLt, by decide, ⟨a.isLt, by decide, ⟨b.isLt, by decide, ⟨f.isLt, by decide, ⟨g.isLt, by decide, trivial⟩⟩⟩⟩⟩
  have g0 : Fits ((0x20, 25) :: [(d.val, 19), (a.val, 13), (b.val, 7), (f.val, 4), (g.val, 0)]) (7 :: [6, 6, 6, 3, 4]) 32 := ⟨by decide, by decide, fit⟩
  have dcd : decodeV w = checked w [] [] (.viminn (field 64 w 19) (field 64 w 13) (field 64 w 7) (field 8 w 4) (field 16 w 0)) := by
    unfold decodeV
    rw [show w / 2 ^ 25 = 0x20 from e ▸ pack_top fit]
    rfl
  show decodeV w = _
  rw [dcd, field_of (x := d) (len := 6) rfl ((e ▸ take_pack (lo := 19) (len := 6) g0 rfl : w / 2 ^ 19 % 2 ^ 6 = _)), field_of (x := a) (len := 6) rfl ((e ▸ take_pack (lo := 13) (len := 6) g0 rfl : w / 2 ^ 13 % 2 ^ 6 = _)), field_of (x := b) (len := 6) rfl ((e ▸ take_pack (lo := 7) (len := 6) g0 rfl : w / 2 ^ 7 % 2 ^ 6 = _)), field_of (x := f) (len := 3) rfl ((e ▸ take_pack (lo := 4) (len := 3) g0 rfl : w / 2 ^ 4 % 2 ^ 3 = _)), field_of (x := g) (len := 4) rfl ((e ▸ take_pack (lo := 0) (len := 4) g0 rfl : w / 2 ^ 0 % 2 ^ 4 = _))]
  exact checked_of hwf rfl rfl

theorem Encoding.vimaxn (d : Fin 64) (a : Fin 64) (b : Fin 64) (f : Fin 8) (g : Fin 16) : Encoding.Statement (.vimaxn d a b f g) := by
  intro hwf u w hunit henc
  cases hunit
  have e : pack ((0x21, 25) :: [(d.val, 19), (a.val, 13), (b.val, 7), (f.val, 4), (g.val, 0)]) = w := Option.some.inj henc
  have fit : Fits [(d.val, 19), (a.val, 13), (b.val, 7), (f.val, 4), (g.val, 0)] [6, 6, 6, 3, 4] 25 := ⟨d.isLt, by decide, ⟨a.isLt, by decide, ⟨b.isLt, by decide, ⟨f.isLt, by decide, ⟨g.isLt, by decide, trivial⟩⟩⟩⟩⟩
  have g0 : Fits ((0x21, 25) :: [(d.val, 19), (a.val, 13), (b.val, 7), (f.val, 4), (g.val, 0)]) (7 :: [6, 6, 6, 3, 4]) 32 := ⟨by decide, by decide, fit⟩
  have dcd : decodeV w = checked w [] [] (.vimaxn (field 64 w 19) (field 64 w 13) (field 64 w 7) (field 8 w 4) (field 16 w 0)) := by
    unfold decodeV
    rw [show w / 2 ^ 25 = 0x21 from e ▸ pack_top fit]
    rfl
  show decodeV w = _
  rw [dcd, field_of (x := d) (len := 6) rfl ((e ▸ take_pack (lo := 19) (len := 6) g0 rfl : w / 2 ^ 19 % 2 ^ 6 = _)), field_of (x := a) (len := 6) rfl ((e ▸ take_pack (lo := 13) (len := 6) g0 rfl : w / 2 ^ 13 % 2 ^ 6 = _)), field_of (x := b) (len := 6) rfl ((e ▸ take_pack (lo := 7) (len := 6) g0 rfl : w / 2 ^ 7 % 2 ^ 6 = _)), field_of (x := f) (len := 3) rfl ((e ▸ take_pack (lo := 4) (len := 3) g0 rfl : w / 2 ^ 4 % 2 ^ 3 = _)), field_of (x := g) (len := 4) rfl ((e ▸ take_pack (lo := 0) (len := 4) g0 rfl : w / 2 ^ 0 % 2 ^ 4 = _))]
  exact checked_of hwf rfl rfl

theorem Encoding.vand (d : Fin 64) (a : Fin 64) (b : Fin 64) (f : Fin 8) (g : Fin 16) : Encoding.Statement (.vand d a b f g) := by
  intro hwf u w hunit henc
  cases hunit
  have e : pack ((0x22, 25) :: [(d.val, 19), (a.val, 13), (b.val, 7), (f.val, 4), (g.val, 0)]) = w := Option.some.inj henc
  have fit : Fits [(d.val, 19), (a.val, 13), (b.val, 7), (f.val, 4), (g.val, 0)] [6, 6, 6, 3, 4] 25 := ⟨d.isLt, by decide, ⟨a.isLt, by decide, ⟨b.isLt, by decide, ⟨f.isLt, by decide, ⟨g.isLt, by decide, trivial⟩⟩⟩⟩⟩
  have g0 : Fits ((0x22, 25) :: [(d.val, 19), (a.val, 13), (b.val, 7), (f.val, 4), (g.val, 0)]) (7 :: [6, 6, 6, 3, 4]) 32 := ⟨by decide, by decide, fit⟩
  have dcd : decodeV w = checked w [] [] (.vand (field 64 w 19) (field 64 w 13) (field 64 w 7) (field 8 w 4) (field 16 w 0)) := by
    unfold decodeV
    rw [show w / 2 ^ 25 = 0x22 from e ▸ pack_top fit]
    rfl
  show decodeV w = _
  rw [dcd, field_of (x := d) (len := 6) rfl ((e ▸ take_pack (lo := 19) (len := 6) g0 rfl : w / 2 ^ 19 % 2 ^ 6 = _)), field_of (x := a) (len := 6) rfl ((e ▸ take_pack (lo := 13) (len := 6) g0 rfl : w / 2 ^ 13 % 2 ^ 6 = _)), field_of (x := b) (len := 6) rfl ((e ▸ take_pack (lo := 7) (len := 6) g0 rfl : w / 2 ^ 7 % 2 ^ 6 = _)), field_of (x := f) (len := 3) rfl ((e ▸ take_pack (lo := 4) (len := 3) g0 rfl : w / 2 ^ 4 % 2 ^ 3 = _)), field_of (x := g) (len := 4) rfl ((e ▸ take_pack (lo := 0) (len := 4) g0 rfl : w / 2 ^ 0 % 2 ^ 4 = _))]
  exact checked_of hwf rfl rfl

theorem Encoding.vor (d : Fin 64) (a : Fin 64) (b : Fin 64) (f : Fin 8) (g : Fin 16) : Encoding.Statement (.vor d a b f g) := by
  intro hwf u w hunit henc
  cases hunit
  have e : pack ((0x23, 25) :: [(d.val, 19), (a.val, 13), (b.val, 7), (f.val, 4), (g.val, 0)]) = w := Option.some.inj henc
  have fit : Fits [(d.val, 19), (a.val, 13), (b.val, 7), (f.val, 4), (g.val, 0)] [6, 6, 6, 3, 4] 25 := ⟨d.isLt, by decide, ⟨a.isLt, by decide, ⟨b.isLt, by decide, ⟨f.isLt, by decide, ⟨g.isLt, by decide, trivial⟩⟩⟩⟩⟩
  have g0 : Fits ((0x23, 25) :: [(d.val, 19), (a.val, 13), (b.val, 7), (f.val, 4), (g.val, 0)]) (7 :: [6, 6, 6, 3, 4]) 32 := ⟨by decide, by decide, fit⟩
  have dcd : decodeV w = checked w [] [] (.vor (field 64 w 19) (field 64 w 13) (field 64 w 7) (field 8 w 4) (field 16 w 0)) := by
    unfold decodeV
    rw [show w / 2 ^ 25 = 0x23 from e ▸ pack_top fit]
    rfl
  show decodeV w = _
  rw [dcd, field_of (x := d) (len := 6) rfl ((e ▸ take_pack (lo := 19) (len := 6) g0 rfl : w / 2 ^ 19 % 2 ^ 6 = _)), field_of (x := a) (len := 6) rfl ((e ▸ take_pack (lo := 13) (len := 6) g0 rfl : w / 2 ^ 13 % 2 ^ 6 = _)), field_of (x := b) (len := 6) rfl ((e ▸ take_pack (lo := 7) (len := 6) g0 rfl : w / 2 ^ 7 % 2 ^ 6 = _)), field_of (x := f) (len := 3) rfl ((e ▸ take_pack (lo := 4) (len := 3) g0 rfl : w / 2 ^ 4 % 2 ^ 3 = _)), field_of (x := g) (len := 4) rfl ((e ▸ take_pack (lo := 0) (len := 4) g0 rfl : w / 2 ^ 0 % 2 ^ 4 = _))]
  exact checked_of hwf rfl rfl

theorem Encoding.vxor (d : Fin 64) (a : Fin 64) (b : Fin 64) (f : Fin 8) (g : Fin 16) : Encoding.Statement (.vxor d a b f g) := by
  intro hwf u w hunit henc
  cases hunit
  have e : pack ((0x24, 25) :: [(d.val, 19), (a.val, 13), (b.val, 7), (f.val, 4), (g.val, 0)]) = w := Option.some.inj henc
  have fit : Fits [(d.val, 19), (a.val, 13), (b.val, 7), (f.val, 4), (g.val, 0)] [6, 6, 6, 3, 4] 25 := ⟨d.isLt, by decide, ⟨a.isLt, by decide, ⟨b.isLt, by decide, ⟨f.isLt, by decide, ⟨g.isLt, by decide, trivial⟩⟩⟩⟩⟩
  have g0 : Fits ((0x24, 25) :: [(d.val, 19), (a.val, 13), (b.val, 7), (f.val, 4), (g.val, 0)]) (7 :: [6, 6, 6, 3, 4]) 32 := ⟨by decide, by decide, fit⟩
  have dcd : decodeV w = checked w [] [] (.vxor (field 64 w 19) (field 64 w 13) (field 64 w 7) (field 8 w 4) (field 16 w 0)) := by
    unfold decodeV
    rw [show w / 2 ^ 25 = 0x24 from e ▸ pack_top fit]
    rfl
  show decodeV w = _
  rw [dcd, field_of (x := d) (len := 6) rfl ((e ▸ take_pack (lo := 19) (len := 6) g0 rfl : w / 2 ^ 19 % 2 ^ 6 = _)), field_of (x := a) (len := 6) rfl ((e ▸ take_pack (lo := 13) (len := 6) g0 rfl : w / 2 ^ 13 % 2 ^ 6 = _)), field_of (x := b) (len := 6) rfl ((e ▸ take_pack (lo := 7) (len := 6) g0 rfl : w / 2 ^ 7 % 2 ^ 6 = _)), field_of (x := f) (len := 3) rfl ((e ▸ take_pack (lo := 4) (len := 3) g0 rfl : w / 2 ^ 4 % 2 ^ 3 = _)), field_of (x := g) (len := 4) rfl ((e ▸ take_pack (lo := 0) (len := 4) g0 rfl : w / 2 ^ 0 % 2 ^ 4 = _))]
  exact checked_of hwf rfl rfl

theorem Encoding.vshl (d : Fin 64) (a : Fin 64) (b : Fin 64) (f : Fin 8) (g : Fin 16) : Encoding.Statement (.vshl d a b f g) := by
  intro hwf u w hunit henc
  cases hunit
  have e : pack ((0x25, 25) :: [(d.val, 19), (a.val, 13), (b.val, 7), (f.val, 4), (g.val, 0)]) = w := Option.some.inj henc
  have fit : Fits [(d.val, 19), (a.val, 13), (b.val, 7), (f.val, 4), (g.val, 0)] [6, 6, 6, 3, 4] 25 := ⟨d.isLt, by decide, ⟨a.isLt, by decide, ⟨b.isLt, by decide, ⟨f.isLt, by decide, ⟨g.isLt, by decide, trivial⟩⟩⟩⟩⟩
  have g0 : Fits ((0x25, 25) :: [(d.val, 19), (a.val, 13), (b.val, 7), (f.val, 4), (g.val, 0)]) (7 :: [6, 6, 6, 3, 4]) 32 := ⟨by decide, by decide, fit⟩
  have dcd : decodeV w = checked w [] [] (.vshl (field 64 w 19) (field 64 w 13) (field 64 w 7) (field 8 w 4) (field 16 w 0)) := by
    unfold decodeV
    rw [show w / 2 ^ 25 = 0x25 from e ▸ pack_top fit]
    rfl
  show decodeV w = _
  rw [dcd, field_of (x := d) (len := 6) rfl ((e ▸ take_pack (lo := 19) (len := 6) g0 rfl : w / 2 ^ 19 % 2 ^ 6 = _)), field_of (x := a) (len := 6) rfl ((e ▸ take_pack (lo := 13) (len := 6) g0 rfl : w / 2 ^ 13 % 2 ^ 6 = _)), field_of (x := b) (len := 6) rfl ((e ▸ take_pack (lo := 7) (len := 6) g0 rfl : w / 2 ^ 7 % 2 ^ 6 = _)), field_of (x := f) (len := 3) rfl ((e ▸ take_pack (lo := 4) (len := 3) g0 rfl : w / 2 ^ 4 % 2 ^ 3 = _)), field_of (x := g) (len := 4) rfl ((e ▸ take_pack (lo := 0) (len := 4) g0 rfl : w / 2 ^ 0 % 2 ^ 4 = _))]
  exact checked_of hwf rfl rfl

theorem Encoding.vshr (d : Fin 64) (a : Fin 64) (b : Fin 64) (f : Fin 8) (g : Fin 16) : Encoding.Statement (.vshr d a b f g) := by
  intro hwf u w hunit henc
  cases hunit
  have e : pack ((0x26, 25) :: [(d.val, 19), (a.val, 13), (b.val, 7), (f.val, 4), (g.val, 0)]) = w := Option.some.inj henc
  have fit : Fits [(d.val, 19), (a.val, 13), (b.val, 7), (f.val, 4), (g.val, 0)] [6, 6, 6, 3, 4] 25 := ⟨d.isLt, by decide, ⟨a.isLt, by decide, ⟨b.isLt, by decide, ⟨f.isLt, by decide, ⟨g.isLt, by decide, trivial⟩⟩⟩⟩⟩
  have g0 : Fits ((0x26, 25) :: [(d.val, 19), (a.val, 13), (b.val, 7), (f.val, 4), (g.val, 0)]) (7 :: [6, 6, 6, 3, 4]) 32 := ⟨by decide, by decide, fit⟩
  have dcd : decodeV w = checked w [] [] (.vshr (field 64 w 19) (field 64 w 13) (field 64 w 7) (field 8 w 4) (field 16 w 0)) := by
    unfold decodeV
    rw [show w / 2 ^ 25 = 0x26 from e ▸ pack_top fit]
    rfl
  show decodeV w = _
  rw [dcd, field_of (x := d) (len := 6) rfl ((e ▸ take_pack (lo := 19) (len := 6) g0 rfl : w / 2 ^ 19 % 2 ^ 6 = _)), field_of (x := a) (len := 6) rfl ((e ▸ take_pack (lo := 13) (len := 6) g0 rfl : w / 2 ^ 13 % 2 ^ 6 = _)), field_of (x := b) (len := 6) rfl ((e ▸ take_pack (lo := 7) (len := 6) g0 rfl : w / 2 ^ 7 % 2 ^ 6 = _)), field_of (x := f) (len := 3) rfl ((e ▸ take_pack (lo := 4) (len := 3) g0 rfl : w / 2 ^ 4 % 2 ^ 3 = _)), field_of (x := g) (len := 4) rfl ((e ▸ take_pack (lo := 0) (len := 4) g0 rfl : w / 2 ^ 0 % 2 ^ 4 = _))]
  exact checked_of hwf rfl rfl

theorem Encoding.vsra (d : Fin 64) (a : Fin 64) (b : Fin 64) (f : Fin 8) (g : Fin 16) : Encoding.Statement (.vsra d a b f g) := by
  intro hwf u w hunit henc
  cases hunit
  have e : pack ((0x27, 25) :: [(d.val, 19), (a.val, 13), (b.val, 7), (f.val, 4), (g.val, 0)]) = w := Option.some.inj henc
  have fit : Fits [(d.val, 19), (a.val, 13), (b.val, 7), (f.val, 4), (g.val, 0)] [6, 6, 6, 3, 4] 25 := ⟨d.isLt, by decide, ⟨a.isLt, by decide, ⟨b.isLt, by decide, ⟨f.isLt, by decide, ⟨g.isLt, by decide, trivial⟩⟩⟩⟩⟩
  have g0 : Fits ((0x27, 25) :: [(d.val, 19), (a.val, 13), (b.val, 7), (f.val, 4), (g.val, 0)]) (7 :: [6, 6, 6, 3, 4]) 32 := ⟨by decide, by decide, fit⟩
  have dcd : decodeV w = checked w [] [] (.vsra (field 64 w 19) (field 64 w 13) (field 64 w 7) (field 8 w 4) (field 16 w 0)) := by
    unfold decodeV
    rw [show w / 2 ^ 25 = 0x27 from e ▸ pack_top fit]
    rfl
  show decodeV w = _
  rw [dcd, field_of (x := d) (len := 6) rfl ((e ▸ take_pack (lo := 19) (len := 6) g0 rfl : w / 2 ^ 19 % 2 ^ 6 = _)), field_of (x := a) (len := 6) rfl ((e ▸ take_pack (lo := 13) (len := 6) g0 rfl : w / 2 ^ 13 % 2 ^ 6 = _)), field_of (x := b) (len := 6) rfl ((e ▸ take_pack (lo := 7) (len := 6) g0 rfl : w / 2 ^ 7 % 2 ^ 6 = _)), field_of (x := f) (len := 3) rfl ((e ▸ take_pack (lo := 4) (len := 3) g0 rfl : w / 2 ^ 4 % 2 ^ 3 = _)), field_of (x := g) (len := 4) rfl ((e ▸ take_pack (lo := 0) (len := 4) g0 rfl : w / 2 ^ 0 % 2 ^ 4 = _))]
  exact checked_of hwf rfl rfl

theorem Encoding.vcmp (c : Fin 8) (m : Fin 8) (a : Fin 64) (b : Fin 64) (f : Fin 8) (g : Fin 16) : Encoding.Statement (.vcmp c m a b f g) := by
  intro hwf u w hunit henc
  cases hunit
  have e : pack ((0x28, 25) :: [(c.val, 22), (m.val, 19), (a.val, 13), (b.val, 7), (f.val, 4), (g.val, 0)]) = w := Option.some.inj henc
  have fit : Fits [(c.val, 22), (m.val, 19), (a.val, 13), (b.val, 7), (f.val, 4), (g.val, 0)] [3, 3, 6, 6, 3, 4] 25 := ⟨c.isLt, by decide, ⟨m.isLt, by decide, ⟨a.isLt, by decide, ⟨b.isLt, by decide, ⟨f.isLt, by decide, ⟨g.isLt, by decide, trivial⟩⟩⟩⟩⟩⟩
  have g0 : Fits ((0x28, 25) :: [(c.val, 22), (m.val, 19), (a.val, 13), (b.val, 7), (f.val, 4), (g.val, 0)]) (7 :: [3, 3, 6, 6, 3, 4]) 32 := ⟨by decide, by decide, fit⟩
  have dcd : decodeV w = checked w [] [] (.vcmp (field 8 w 22) (field 8 w 19) (field 64 w 13) (field 64 w 7) (field 8 w 4) (field 16 w 0)) := by
    unfold decodeV
    rw [show w / 2 ^ 25 = 0x28 from e ▸ pack_top fit]
    rfl
  show decodeV w = _
  rw [dcd, field_of (x := c) (len := 3) rfl ((e ▸ take_pack (lo := 22) (len := 3) g0 rfl : w / 2 ^ 22 % 2 ^ 3 = _)), field_of (x := m) (len := 3) rfl ((e ▸ take_pack (lo := 19) (len := 3) g0 rfl : w / 2 ^ 19 % 2 ^ 3 = _)), field_of (x := a) (len := 6) rfl ((e ▸ take_pack (lo := 13) (len := 6) g0 rfl : w / 2 ^ 13 % 2 ^ 6 = _)), field_of (x := b) (len := 6) rfl ((e ▸ take_pack (lo := 7) (len := 6) g0 rfl : w / 2 ^ 7 % 2 ^ 6 = _)), field_of (x := f) (len := 3) rfl ((e ▸ take_pack (lo := 4) (len := 3) g0 rfl : w / 2 ^ 4 % 2 ^ 3 = _)), field_of (x := g) (len := 4) rfl ((e ▸ take_pack (lo := 0) (len := 4) g0 rfl : w / 2 ^ 0 % 2 ^ 4 = _))]
  exact checked_of hwf rfl rfl

theorem Encoding.vsel (d : Fin 64) (a : Fin 64) (b : Fin 64) (f : Fin 8) (g : Fin 16) : Encoding.Statement (.vsel d a b f g) := by
  intro hwf u w hunit henc
  cases hunit
  have e : pack ((0x29, 25) :: [(d.val, 19), (a.val, 13), (b.val, 7), (f.val, 4), (g.val, 0)]) = w := Option.some.inj henc
  have fit : Fits [(d.val, 19), (a.val, 13), (b.val, 7), (f.val, 4), (g.val, 0)] [6, 6, 6, 3, 4] 25 := ⟨d.isLt, by decide, ⟨a.isLt, by decide, ⟨b.isLt, by decide, ⟨f.isLt, by decide, ⟨g.isLt, by decide, trivial⟩⟩⟩⟩⟩
  have g0 : Fits ((0x29, 25) :: [(d.val, 19), (a.val, 13), (b.val, 7), (f.val, 4), (g.val, 0)]) (7 :: [6, 6, 6, 3, 4]) 32 := ⟨by decide, by decide, fit⟩
  have dcd : decodeV w = checked w [] [] (.vsel (field 64 w 19) (field 64 w 13) (field 64 w 7) (field 8 w 4) (field 16 w 0)) := by
    unfold decodeV
    rw [show w / 2 ^ 25 = 0x29 from e ▸ pack_top fit]
    rfl
  show decodeV w = _
  rw [dcd, field_of (x := d) (len := 6) rfl ((e ▸ take_pack (lo := 19) (len := 6) g0 rfl : w / 2 ^ 19 % 2 ^ 6 = _)), field_of (x := a) (len := 6) rfl ((e ▸ take_pack (lo := 13) (len := 6) g0 rfl : w / 2 ^ 13 % 2 ^ 6 = _)), field_of (x := b) (len := 6) rfl ((e ▸ take_pack (lo := 7) (len := 6) g0 rfl : w / 2 ^ 7 % 2 ^ 6 = _)), field_of (x := f) (len := 3) rfl ((e ▸ take_pack (lo := 4) (len := 3) g0 rfl : w / 2 ^ 4 % 2 ^ 3 = _)), field_of (x := g) (len := 4) rfl ((e ▸ take_pack (lo := 0) (len := 4) g0 rfl : w / 2 ^ 0 % 2 ^ 4 = _))]
  exact checked_of hwf rfl rfl

theorem Encoding.vmand (d : Fin 8) (a : Fin 8) (b : Fin 8) : Encoding.Statement (.vmand d a b) := by
  intro hwf u w hunit henc
  cases hunit
  have e : pack ((0x2A, 25) :: [(d.val, 19), (a.val, 13), (b.val, 7)]) = w := Option.some.inj henc
  have fit : Fits [(d.val, 19), (a.val, 13), (b.val, 7)] [3, 3, 3] 25 := ⟨d.isLt, by decide, ⟨a.isLt, by decide, ⟨b.isLt, by decide, trivial⟩⟩⟩
  have g0 : Fits ((0x2A, 25) :: [(d.val, 19), (a.val, 13), (b.val, 7)]) (7 :: [3, 3, 3]) 32 := ⟨by decide, by decide, fit⟩
  have dcd : decodeV w = checked w [(0, 7), (10, 3), (16, 3), (22, 3)] [] (.vmand (field 8 w 19) (field 8 w 13) (field 8 w 7)) := by
    unfold decodeV
    rw [show w / 2 ^ 25 = 0x2A from e ▸ pack_top fit]
    rfl
  show decodeV w = _
  rw [dcd, field_of (x := d) (len := 3) rfl ((e ▸ take_pack (lo := 19) (len := 3) g0 rfl : w / 2 ^ 19 % 2 ^ 3 = _)), field_of (x := a) (len := 3) rfl ((e ▸ take_pack (lo := 13) (len := 3) g0 rfl : w / 2 ^ 13 % 2 ^ 3 = _)), field_of (x := b) (len := 3) rfl ((e ▸ take_pack (lo := 7) (len := 3) g0 rfl : w / 2 ^ 7 % 2 ^ 3 = _))]
  exact checked_of hwf (zero_cons ((e ▸ take_pack (lo := 0) (len := 7) g0 rfl : w / 2 ^ 0 % 2 ^ 7 = _)) (zero_cons ((e ▸ take_pack (lo := 10) (len := 3) g0 rfl : w / 2 ^ 10 % 2 ^ 3 = _)) (zero_cons ((e ▸ take_pack (lo := 16) (len := 3) g0 rfl : w / 2 ^ 16 % 2 ^ 3 = _)) (zero_cons ((e ▸ take_pack (lo := 22) (len := 3) g0 rfl : w / 2 ^ 22 % 2 ^ 3 = _)) rfl)))) rfl

theorem Encoding.vmor (d : Fin 8) (a : Fin 8) (b : Fin 8) : Encoding.Statement (.vmor d a b) := by
  intro hwf u w hunit henc
  cases hunit
  have e : pack ((0x2B, 25) :: [(d.val, 19), (a.val, 13), (b.val, 7)]) = w := Option.some.inj henc
  have fit : Fits [(d.val, 19), (a.val, 13), (b.val, 7)] [3, 3, 3] 25 := ⟨d.isLt, by decide, ⟨a.isLt, by decide, ⟨b.isLt, by decide, trivial⟩⟩⟩
  have g0 : Fits ((0x2B, 25) :: [(d.val, 19), (a.val, 13), (b.val, 7)]) (7 :: [3, 3, 3]) 32 := ⟨by decide, by decide, fit⟩
  have dcd : decodeV w = checked w [(0, 7), (10, 3), (16, 3), (22, 3)] [] (.vmor (field 8 w 19) (field 8 w 13) (field 8 w 7)) := by
    unfold decodeV
    rw [show w / 2 ^ 25 = 0x2B from e ▸ pack_top fit]
    rfl
  show decodeV w = _
  rw [dcd, field_of (x := d) (len := 3) rfl ((e ▸ take_pack (lo := 19) (len := 3) g0 rfl : w / 2 ^ 19 % 2 ^ 3 = _)), field_of (x := a) (len := 3) rfl ((e ▸ take_pack (lo := 13) (len := 3) g0 rfl : w / 2 ^ 13 % 2 ^ 3 = _)), field_of (x := b) (len := 3) rfl ((e ▸ take_pack (lo := 7) (len := 3) g0 rfl : w / 2 ^ 7 % 2 ^ 3 = _))]
  exact checked_of hwf (zero_cons ((e ▸ take_pack (lo := 0) (len := 7) g0 rfl : w / 2 ^ 0 % 2 ^ 7 = _)) (zero_cons ((e ▸ take_pack (lo := 10) (len := 3) g0 rfl : w / 2 ^ 10 % 2 ^ 3 = _)) (zero_cons ((e ▸ take_pack (lo := 16) (len := 3) g0 rfl : w / 2 ^ 16 % 2 ^ 3 = _)) (zero_cons ((e ▸ take_pack (lo := 22) (len := 3) g0 rfl : w / 2 ^ 22 % 2 ^ 3 = _)) rfl)))) rfl

theorem Encoding.vmxor (d : Fin 8) (a : Fin 8) (b : Fin 8) : Encoding.Statement (.vmxor d a b) := by
  intro hwf u w hunit henc
  cases hunit
  have e : pack ((0x2C, 25) :: [(d.val, 19), (a.val, 13), (b.val, 7)]) = w := Option.some.inj henc
  have fit : Fits [(d.val, 19), (a.val, 13), (b.val, 7)] [3, 3, 3] 25 := ⟨d.isLt, by decide, ⟨a.isLt, by decide, ⟨b.isLt, by decide, trivial⟩⟩⟩
  have g0 : Fits ((0x2C, 25) :: [(d.val, 19), (a.val, 13), (b.val, 7)]) (7 :: [3, 3, 3]) 32 := ⟨by decide, by decide, fit⟩
  have dcd : decodeV w = checked w [(0, 7), (10, 3), (16, 3), (22, 3)] [] (.vmxor (field 8 w 19) (field 8 w 13) (field 8 w 7)) := by
    unfold decodeV
    rw [show w / 2 ^ 25 = 0x2C from e ▸ pack_top fit]
    rfl
  show decodeV w = _
  rw [dcd, field_of (x := d) (len := 3) rfl ((e ▸ take_pack (lo := 19) (len := 3) g0 rfl : w / 2 ^ 19 % 2 ^ 3 = _)), field_of (x := a) (len := 3) rfl ((e ▸ take_pack (lo := 13) (len := 3) g0 rfl : w / 2 ^ 13 % 2 ^ 3 = _)), field_of (x := b) (len := 3) rfl ((e ▸ take_pack (lo := 7) (len := 3) g0 rfl : w / 2 ^ 7 % 2 ^ 3 = _))]
  exact checked_of hwf (zero_cons ((e ▸ take_pack (lo := 0) (len := 7) g0 rfl : w / 2 ^ 0 % 2 ^ 7 = _)) (zero_cons ((e ▸ take_pack (lo := 10) (len := 3) g0 rfl : w / 2 ^ 10 % 2 ^ 3 = _)) (zero_cons ((e ▸ take_pack (lo := 16) (len := 3) g0 rfl : w / 2 ^ 16 % 2 ^ 3 = _)) (zero_cons ((e ▸ take_pack (lo := 22) (len := 3) g0 rfl : w / 2 ^ 22 % 2 ^ 3 = _)) rfl)))) rfl

theorem Encoding.vmnot (d : Fin 8) (a : Fin 8) : Encoding.Statement (.vmnot d a) := by
  intro hwf u w hunit henc
  cases hunit
  have e : pack ((0x2D, 25) :: [(d.val, 19), (a.val, 13)]) = w := Option.some.inj henc
  have fit : Fits [(d.val, 19), (a.val, 13)] [3, 3] 25 := ⟨d.isLt, by decide, ⟨a.isLt, by decide, trivial⟩⟩
  have g0 : Fits ((0x2D, 25) :: [(d.val, 19), (a.val, 13)]) (7 :: [3, 3]) 32 := ⟨by decide, by decide, fit⟩
  have dcd : decodeV w = checked w [(0, 13), (16, 3), (22, 3)] [] (.vmnot (field 8 w 19) (field 8 w 13)) := by
    unfold decodeV
    rw [show w / 2 ^ 25 = 0x2D from e ▸ pack_top fit]
    rfl
  show decodeV w = _
  rw [dcd, field_of (x := d) (len := 3) rfl ((e ▸ take_pack (lo := 19) (len := 3) g0 rfl : w / 2 ^ 19 % 2 ^ 3 = _)), field_of (x := a) (len := 3) rfl ((e ▸ take_pack (lo := 13) (len := 3) g0 rfl : w / 2 ^ 13 % 2 ^ 3 = _))]
  exact checked_of hwf (zero_cons ((e ▸ take_pack (lo := 0) (len := 13) g0 rfl : w / 2 ^ 0 % 2 ^ 13 = _)) (zero_cons ((e ▸ take_pack (lo := 16) (len := 3) g0 rfl : w / 2 ^ 16 % 2 ^ 3 = _)) (zero_cons ((e ▸ take_pack (lo := 22) (len := 3) g0 rfl : w / 2 ^ 22 % 2 ^ 3 = _)) rfl))) rfl

theorem Encoding.vmpop (d : Fin 64) (a : Fin 8) : Encoding.Statement (.vmpop d a) := by
  intro hwf u w hunit henc
  cases hunit
  have e : pack ((0x2E, 25) :: [(d.val, 19), (a.val, 13)]) = w := Option.some.inj henc
  have fit : Fits [(d.val, 19), (a.val, 13)] [6, 3] 25 := ⟨d.isLt, by decide, ⟨a.isLt, by decide, trivial⟩⟩
  have g0 : Fits ((0x2E, 25) :: [(d.val, 19), (a.val, 13)]) (7 :: [6, 3]) 32 := ⟨by decide, by decide, fit⟩
  have dcd : decodeV w = checked w [(0, 13), (16, 3)] [] (.vmpop (field 64 w 19) (field 8 w 13)) := by
    unfold decodeV
    rw [show w / 2 ^ 25 = 0x2E from e ▸ pack_top fit]
    rfl
  show decodeV w = _
  rw [dcd, field_of (x := d) (len := 6) rfl ((e ▸ take_pack (lo := 19) (len := 6) g0 rfl : w / 2 ^ 19 % 2 ^ 6 = _)), field_of (x := a) (len := 3) rfl ((e ▸ take_pack (lo := 13) (len := 3) g0 rfl : w / 2 ^ 13 % 2 ^ 3 = _))]
  exact checked_of hwf (zero_cons ((e ▸ take_pack (lo := 0) (len := 13) g0 rfl : w / 2 ^ 0 % 2 ^ 13 = _)) (zero_cons ((e ▸ take_pack (lo := 16) (len := 3) g0 rfl : w / 2 ^ 16 % 2 ^ 3 = _)) rfl)) rfl

theorem Encoding.vcvt (d : Fin 64) (a : Fin 64) (f : Fin 8) (s : Fin 8) (g : Fin 8) : Encoding.Statement (.vcvt d a f s g) := by
  intro hwf u w hunit henc
  cases hunit
  have e : pack ((0x30, 25) :: [(d.val, 19), (a.val, 13), (f.val, 10), (s.val, 7), (g.val, 0)]) = w := Option.some.inj henc
  have fit : Fits [(d.val, 19), (a.val, 13), (f.val, 10), (s.val, 7), (g.val, 0)] [6, 6, 3, 3, 3] 25 := ⟨d.isLt, by decide, ⟨a.isLt, by decide, ⟨f.isLt, by decide, ⟨s.isLt, by decide, ⟨g.isLt, by decide, trivial⟩⟩⟩⟩⟩
  have g0 : Fits ((0x30, 25) :: [(d.val, 19), (a.val, 13), (f.val, 10), (s.val, 7), (g.val, 0)]) (7 :: [6, 6, 3, 3, 3]) 32 := ⟨by decide, by decide, fit⟩
  have dcd : decodeV w = checked w [(3, 4)] [] (.vcvt (field 64 w 19) (field 64 w 13) (field 8 w 10) (field 8 w 7) (field 8 w 0)) := by
    unfold decodeV
    rw [show w / 2 ^ 25 = 0x30 from e ▸ pack_top fit]
    rfl
  show decodeV w = _
  rw [dcd, field_of (x := d) (len := 6) rfl ((e ▸ take_pack (lo := 19) (len := 6) g0 rfl : w / 2 ^ 19 % 2 ^ 6 = _)), field_of (x := a) (len := 6) rfl ((e ▸ take_pack (lo := 13) (len := 6) g0 rfl : w / 2 ^ 13 % 2 ^ 6 = _)), field_of (x := f) (len := 3) rfl ((e ▸ take_pack (lo := 10) (len := 3) g0 rfl : w / 2 ^ 10 % 2 ^ 3 = _)), field_of (x := s) (len := 3) rfl ((e ▸ take_pack (lo := 7) (len := 3) g0 rfl : w / 2 ^ 7 % 2 ^ 3 = _)), field_of (x := g) (len := 3) rfl ((e ▸ take_pack (lo := 0) (len := 3) g0 rfl : w / 2 ^ 0 % 2 ^ 3 = _))]
  exact checked_of hwf (zero_cons ((e ▸ take_pack (lo := 3) (len := 4) g0 rfl : w / 2 ^ 3 % 2 ^ 4 = _)) rfl) rfl

theorem Encoding.vqnt (d : Fin 64) (a : Fin 64) (f : Fin 8) (t : Fin 4) (q : Fin 16) (g : Fin 8) : Encoding.Statement (.vqnt d a f t q g) := by
  intro hwf u w hunit henc
  cases hunit
  have e : pack ((0x31, 25) :: [(d.val, 19), (a.val, 13), (f.val, 10), (t.val, 8), (q.val, 4), (g.val, 0)]) = w := Option.some.inj henc
  have fit : Fits [(d.val, 19), (a.val, 13), (f.val, 10), (t.val, 8), (q.val, 4), (g.val, 0)] [6, 6, 3, 2, 4, 3] 25 := ⟨d.isLt, by decide, ⟨a.isLt, by decide, ⟨f.isLt, by decide, ⟨t.isLt, by decide, ⟨q.isLt, by decide, ⟨g.isLt, by decide, trivial⟩⟩⟩⟩⟩⟩
  have g0 : Fits ((0x31, 25) :: [(d.val, 19), (a.val, 13), (f.val, 10), (t.val, 8), (q.val, 4), (g.val, 0)]) (7 :: [6, 6, 3, 2, 4, 3]) 32 := ⟨by decide, by decide, fit⟩
  have dcd : decodeV w = checked w [(3, 1)] [] (.vqnt (field 64 w 19) (field 64 w 13) (field 8 w 10) (field 4 w 8) (field 16 w 4) (field 8 w 0)) := by
    unfold decodeV
    rw [show w / 2 ^ 25 = 0x31 from e ▸ pack_top fit]
    rfl
  show decodeV w = _
  rw [dcd, field_of (x := d) (len := 6) rfl ((e ▸ take_pack (lo := 19) (len := 6) g0 rfl : w / 2 ^ 19 % 2 ^ 6 = _)), field_of (x := a) (len := 6) rfl ((e ▸ take_pack (lo := 13) (len := 6) g0 rfl : w / 2 ^ 13 % 2 ^ 6 = _)), field_of (x := f) (len := 3) rfl ((e ▸ take_pack (lo := 10) (len := 3) g0 rfl : w / 2 ^ 10 % 2 ^ 3 = _)), field_of (x := t) (len := 2) rfl ((e ▸ take_pack (lo := 8) (len := 2) g0 rfl : w / 2 ^ 8 % 2 ^ 2 = _)), field_of (x := q) (len := 4) rfl ((e ▸ take_pack (lo := 4) (len := 4) g0 rfl : w / 2 ^ 4 % 2 ^ 4 = _)), field_of (x := g) (len := 3) rfl ((e ▸ take_pack (lo := 0) (len := 3) g0 rfl : w / 2 ^ 0 % 2 ^ 3 = _))]
  exact checked_of hwf (zero_cons ((e ▸ take_pack (lo := 3) (len := 1) g0 rfl : w / 2 ^ 3 % 2 ^ 1 = _)) rfl) rfl

theorem Encoding.vdqnt (d : Fin 64) (a : Fin 64) (f : Fin 8) (t : Fin 4) (q : Fin 16) (g : Fin 8) : Encoding.Statement (.vdqnt d a f t q g) := by
  intro hwf u w hunit henc
  cases hunit
  have e : pack ((0x32, 25) :: [(d.val, 19), (a.val, 13), (f.val, 10), (t.val, 8), (q.val, 4), (g.val, 0)]) = w := Option.some.inj henc
  have fit : Fits [(d.val, 19), (a.val, 13), (f.val, 10), (t.val, 8), (q.val, 4), (g.val, 0)] [6, 6, 3, 2, 4, 3] 25 := ⟨d.isLt, by decide, ⟨a.isLt, by decide, ⟨f.isLt, by decide, ⟨t.isLt, by decide, ⟨q.isLt, by decide, ⟨g.isLt, by decide, trivial⟩⟩⟩⟩⟩⟩
  have g0 : Fits ((0x32, 25) :: [(d.val, 19), (a.val, 13), (f.val, 10), (t.val, 8), (q.val, 4), (g.val, 0)]) (7 :: [6, 6, 3, 2, 4, 3]) 32 := ⟨by decide, by decide, fit⟩
  have dcd : decodeV w = checked w [(3, 1)] [] (.vdqnt (field 64 w 19) (field 64 w 13) (field 8 w 10) (field 4 w 8) (field 16 w 4) (field 8 w 0)) := by
    unfold decodeV
    rw [show w / 2 ^ 25 = 0x32 from e ▸ pack_top fit]
    rfl
  show decodeV w = _
  rw [dcd, field_of (x := d) (len := 6) rfl ((e ▸ take_pack (lo := 19) (len := 6) g0 rfl : w / 2 ^ 19 % 2 ^ 6 = _)), field_of (x := a) (len := 6) rfl ((e ▸ take_pack (lo := 13) (len := 6) g0 rfl : w / 2 ^ 13 % 2 ^ 6 = _)), field_of (x := f) (len := 3) rfl ((e ▸ take_pack (lo := 10) (len := 3) g0 rfl : w / 2 ^ 10 % 2 ^ 3 = _)), field_of (x := t) (len := 2) rfl ((e ▸ take_pack (lo := 8) (len := 2) g0 rfl : w / 2 ^ 8 % 2 ^ 2 = _)), field_of (x := q) (len := 4) rfl ((e ▸ take_pack (lo := 4) (len := 4) g0 rfl : w / 2 ^ 4 % 2 ^ 4 = _)), field_of (x := g) (len := 3) rfl ((e ▸ take_pack (lo := 0) (len := 3) g0 rfl : w / 2 ^ 0 % 2 ^ 3 = _))]
  exact checked_of hwf (zero_cons ((e ▸ take_pack (lo := 3) (len := 1) g0 rfl : w / 2 ^ 3 % 2 ^ 1 = _)) rfl) rfl

theorem Encoding.vpack (d : Fin 64) (a : Fin 64) (b : Fin 64) (f : Fin 8) (g : Fin 16) : Encoding.Statement (.vpack d a b f g) := by
  intro hwf u w hunit henc
  cases hunit
  have e : pack ((0x33, 25) :: [(d.val, 19), (a.val, 13), (b.val, 7), (f.val, 4), (g.val, 0)]) = w := Option.some.inj henc
  have fit : Fits [(d.val, 19), (a.val, 13), (b.val, 7), (f.val, 4), (g.val, 0)] [6, 6, 6, 3, 4] 25 := ⟨d.isLt, by decide, ⟨a.isLt, by decide, ⟨b.isLt, by decide, ⟨f.isLt, by decide, ⟨g.isLt, by decide, trivial⟩⟩⟩⟩⟩
  have g0 : Fits ((0x33, 25) :: [(d.val, 19), (a.val, 13), (b.val, 7), (f.val, 4), (g.val, 0)]) (7 :: [6, 6, 6, 3, 4]) 32 := ⟨by decide, by decide, fit⟩
  have dcd : decodeV w = checked w [] [] (.vpack (field 64 w 19) (field 64 w 13) (field 64 w 7) (field 8 w 4) (field 16 w 0)) := by
    unfold decodeV
    rw [show w / 2 ^ 25 = 0x33 from e ▸ pack_top fit]
    rfl
  show decodeV w = _
  rw [dcd, field_of (x := d) (len := 6) rfl ((e ▸ take_pack (lo := 19) (len := 6) g0 rfl : w / 2 ^ 19 % 2 ^ 6 = _)), field_of (x := a) (len := 6) rfl ((e ▸ take_pack (lo := 13) (len := 6) g0 rfl : w / 2 ^ 13 % 2 ^ 6 = _)), field_of (x := b) (len := 6) rfl ((e ▸ take_pack (lo := 7) (len := 6) g0 rfl : w / 2 ^ 7 % 2 ^ 6 = _)), field_of (x := f) (len := 3) rfl ((e ▸ take_pack (lo := 4) (len := 3) g0 rfl : w / 2 ^ 4 % 2 ^ 3 = _)), field_of (x := g) (len := 4) rfl ((e ▸ take_pack (lo := 0) (len := 4) g0 rfl : w / 2 ^ 0 % 2 ^ 4 = _))]
  exact checked_of hwf rfl rfl

theorem Encoding.vunpk (d : Fin 64) (a : Fin 64) (f : Fin 8) (g : Fin 16) : Encoding.Statement (.vunpk d a f g) := by
  intro hwf u w hunit henc
  cases hunit
  have e : pack ((0x34, 25) :: [(d.val, 19), (a.val, 13), (f.val, 4), (g.val, 0)]) = w := Option.some.inj henc
  have fit : Fits [(d.val, 19), (a.val, 13), (f.val, 4), (g.val, 0)] [6, 6, 3, 4] 25 := ⟨d.isLt, by decide, ⟨a.isLt, by decide, ⟨f.isLt, by decide, ⟨g.isLt, by decide, trivial⟩⟩⟩⟩
  have g0 : Fits ((0x34, 25) :: [(d.val, 19), (a.val, 13), (f.val, 4), (g.val, 0)]) (7 :: [6, 6, 3, 4]) 32 := ⟨by decide, by decide, fit⟩
  have dcd : decodeV w = checked w [(7, 6)] [] (.vunpk (field 64 w 19) (field 64 w 13) (field 8 w 4) (field 16 w 0)) := by
    unfold decodeV
    rw [show w / 2 ^ 25 = 0x34 from e ▸ pack_top fit]
    rfl
  show decodeV w = _
  rw [dcd, field_of (x := d) (len := 6) rfl ((e ▸ take_pack (lo := 19) (len := 6) g0 rfl : w / 2 ^ 19 % 2 ^ 6 = _)), field_of (x := a) (len := 6) rfl ((e ▸ take_pack (lo := 13) (len := 6) g0 rfl : w / 2 ^ 13 % 2 ^ 6 = _)), field_of (x := f) (len := 3) rfl ((e ▸ take_pack (lo := 4) (len := 3) g0 rfl : w / 2 ^ 4 % 2 ^ 3 = _)), field_of (x := g) (len := 4) rfl ((e ▸ take_pack (lo := 0) (len := 4) g0 rfl : w / 2 ^ 0 % 2 ^ 4 = _))]
  exact checked_of hwf (zero_cons ((e ▸ take_pack (lo := 7) (len := 6) g0 rfl : w / 2 ^ 7 % 2 ^ 6 = _)) rfl) rfl

theorem Encoding.vmov (d : Fin 64) (a : Fin 64) (f : Fin 8) (g : Fin 16) : Encoding.Statement (.vmov d a f g) := by
  intro hwf u w hunit henc
  cases hunit
  have e : pack ((0x38, 25) :: [(d.val, 19), (a.val, 13), (f.val, 4), (g.val, 0)]) = w := Option.some.inj henc
  have fit : Fits [(d.val, 19), (a.val, 13), (f.val, 4), (g.val, 0)] [6, 6, 3, 4] 25 := ⟨d.isLt, by decide, ⟨a.isLt, by decide, ⟨f.isLt, by decide, ⟨g.isLt, by decide, trivial⟩⟩⟩⟩
  have g0 : Fits ((0x38, 25) :: [(d.val, 19), (a.val, 13), (f.val, 4), (g.val, 0)]) (7 :: [6, 6, 3, 4]) 32 := ⟨by decide, by decide, fit⟩
  have dcd : decodeV w = checked w [(7, 6)] [] (.vmov (field 64 w 19) (field 64 w 13) (field 8 w 4) (field 16 w 0)) := by
    unfold decodeV
    rw [show w / 2 ^ 25 = 0x38 from e ▸ pack_top fit]
    rfl
  show decodeV w = _
  rw [dcd, field_of (x := d) (len := 6) rfl ((e ▸ take_pack (lo := 19) (len := 6) g0 rfl : w / 2 ^ 19 % 2 ^ 6 = _)), field_of (x := a) (len := 6) rfl ((e ▸ take_pack (lo := 13) (len := 6) g0 rfl : w / 2 ^ 13 % 2 ^ 6 = _)), field_of (x := f) (len := 3) rfl ((e ▸ take_pack (lo := 4) (len := 3) g0 rfl : w / 2 ^ 4 % 2 ^ 3 = _)), field_of (x := g) (len := 4) rfl ((e ▸ take_pack (lo := 0) (len := 4) g0 rfl : w / 2 ^ 0 % 2 ^ 4 = _))]
  exact checked_of hwf (zero_cons ((e ▸ take_pack (lo := 7) (len := 6) g0 rfl : w / 2 ^ 7 % 2 ^ 6 = _)) rfl) rfl

theorem Encoding.vmovi (d : Fin 64) (f : Fin 8) (i : Fin 128) (g : Fin 8) : Encoding.Statement (.vmovi d f i g) := by
  intro hwf u w hunit henc
  cases hunit
  have e : pack ((0x39, 25) :: [(d.val, 19), (f.val, 10), (i.val, 3), (g.val, 0)]) = w := Option.some.inj henc
  have fit : Fits [(d.val, 19), (f.val, 10), (i.val, 3), (g.val, 0)] [6, 3, 7, 3] 25 := ⟨d.isLt, by decide, ⟨f.isLt, by decide, ⟨i.isLt, by decide, ⟨g.isLt, by decide, trivial⟩⟩⟩⟩
  have g0 : Fits ((0x39, 25) :: [(d.val, 19), (f.val, 10), (i.val, 3), (g.val, 0)]) (7 :: [6, 3, 7, 3]) 32 := ⟨by decide, by decide, fit⟩
  have dcd : decodeV w = checked w [(13, 6)] [] (.vmovi (field 64 w 19) (field 8 w 10) (field 128 w 3) (field 8 w 0)) := by
    unfold decodeV
    rw [show w / 2 ^ 25 = 0x39 from e ▸ pack_top fit]
    rfl
  show decodeV w = _
  rw [dcd, field_of (x := d) (len := 6) rfl ((e ▸ take_pack (lo := 19) (len := 6) g0 rfl : w / 2 ^ 19 % 2 ^ 6 = _)), field_of (x := f) (len := 3) rfl ((e ▸ take_pack (lo := 10) (len := 3) g0 rfl : w / 2 ^ 10 % 2 ^ 3 = _)), field_of (x := i) (len := 7) rfl ((e ▸ take_pack (lo := 3) (len := 7) g0 rfl : w / 2 ^ 3 % 2 ^ 7 = _)), field_of (x := g) (len := 3) rfl ((e ▸ take_pack (lo := 0) (len := 3) g0 rfl : w / 2 ^ 0 % 2 ^ 3 = _))]
  exact checked_of hwf (zero_cons ((e ▸ take_pack (lo := 13) (len := 6) g0 rfl : w / 2 ^ 13 % 2 ^ 6 = _)) rfl) rfl

theorem Encoding.vperm (d : Fin 64) (a : Fin 64) (b : Fin 64) (f : Fin 8) (g : Fin 16) : Encoding.Statement (.vperm d a b f g) := by
  intro hwf u w hunit henc
  cases hunit
  have e : pack ((0x3A, 25) :: [(d.val, 19), (a.val, 13), (b.val, 7), (f.val, 4), (g.val, 0)]) = w := Option.some.inj henc
  have fit : Fits [(d.val, 19), (a.val, 13), (b.val, 7), (f.val, 4), (g.val, 0)] [6, 6, 6, 3, 4] 25 := ⟨d.isLt, by decide, ⟨a.isLt, by decide, ⟨b.isLt, by decide, ⟨f.isLt, by decide, ⟨g.isLt, by decide, trivial⟩⟩⟩⟩⟩
  have g0 : Fits ((0x3A, 25) :: [(d.val, 19), (a.val, 13), (b.val, 7), (f.val, 4), (g.val, 0)]) (7 :: [6, 6, 6, 3, 4]) 32 := ⟨by decide, by decide, fit⟩
  have dcd : decodeV w = checked w [] [] (.vperm (field 64 w 19) (field 64 w 13) (field 64 w 7) (field 8 w 4) (field 16 w 0)) := by
    unfold decodeV
    rw [show w / 2 ^ 25 = 0x3A from e ▸ pack_top fit]
    rfl
  show decodeV w = _
  rw [dcd, field_of (x := d) (len := 6) rfl ((e ▸ take_pack (lo := 19) (len := 6) g0 rfl : w / 2 ^ 19 % 2 ^ 6 = _)), field_of (x := a) (len := 6) rfl ((e ▸ take_pack (lo := 13) (len := 6) g0 rfl : w / 2 ^ 13 % 2 ^ 6 = _)), field_of (x := b) (len := 6) rfl ((e ▸ take_pack (lo := 7) (len := 6) g0 rfl : w / 2 ^ 7 % 2 ^ 6 = _)), field_of (x := f) (len := 3) rfl ((e ▸ take_pack (lo := 4) (len := 3) g0 rfl : w / 2 ^ 4 % 2 ^ 3 = _)), field_of (x := g) (len := 4) rfl ((e ▸ take_pack (lo := 0) (len := 4) g0 rfl : w / 2 ^ 0 % 2 ^ 4 = _))]
  exact checked_of hwf rfl rfl

theorem Encoding.vshuf (d : Fin 64) (a : Fin 64) (f : Fin 8) (k : Fin 128) (g : Fin 8) : Encoding.Statement (.vshuf d a f k g) := by
  intro hwf u w hunit henc
  cases hunit
  have e : pack ((0x3B, 25) :: [(d.val, 19), (a.val, 13), (f.val, 10), (k.val, 3), (g.val, 0)]) = w := Option.some.inj henc
  have fit : Fits [(d.val, 19), (a.val, 13), (f.val, 10), (k.val, 3), (g.val, 0)] [6, 6, 3, 7, 3] 25 := ⟨d.isLt, by decide, ⟨a.isLt, by decide, ⟨f.isLt, by decide, ⟨k.isLt, by decide, ⟨g.isLt, by decide, trivial⟩⟩⟩⟩⟩
  have g0 : Fits ((0x3B, 25) :: [(d.val, 19), (a.val, 13), (f.val, 10), (k.val, 3), (g.val, 0)]) (7 :: [6, 6, 3, 7, 3]) 32 := ⟨by decide, by decide, fit⟩
  have dcd : decodeV w = checked w [] [] (.vshuf (field 64 w 19) (field 64 w 13) (field 8 w 10) (field 128 w 3) (field 8 w 0)) := by
    unfold decodeV
    rw [show w / 2 ^ 25 = 0x3B from e ▸ pack_top fit]
    rfl
  show decodeV w = _
  rw [dcd, field_of (x := d) (len := 6) rfl ((e ▸ take_pack (lo := 19) (len := 6) g0 rfl : w / 2 ^ 19 % 2 ^ 6 = _)), field_of (x := a) (len := 6) rfl ((e ▸ take_pack (lo := 13) (len := 6) g0 rfl : w / 2 ^ 13 % 2 ^ 6 = _)), field_of (x := f) (len := 3) rfl ((e ▸ take_pack (lo := 10) (len := 3) g0 rfl : w / 2 ^ 10 % 2 ^ 3 = _)), field_of (x := k) (len := 7) rfl ((e ▸ take_pack (lo := 3) (len := 7) g0 rfl : w / 2 ^ 3 % 2 ^ 7 = _)), field_of (x := g) (len := 3) rfl ((e ▸ take_pack (lo := 0) (len := 3) g0 rfl : w / 2 ^ 0 % 2 ^ 3 = _))]
  exact checked_of hwf rfl rfl

theorem Encoding.vrot (d : Fin 64) (a : Fin 64) (f : Fin 8) (r : Fin 128) (g : Fin 8) : Encoding.Statement (.vrot d a f r g) := by
  intro hwf u w hunit henc
  cases hunit
  have e : pack ((0x3C, 25) :: [(d.val, 19), (a.val, 13), (f.val, 10), (r.val, 3), (g.val, 0)]) = w := Option.some.inj henc
  have fit : Fits [(d.val, 19), (a.val, 13), (f.val, 10), (r.val, 3), (g.val, 0)] [6, 6, 3, 7, 3] 25 := ⟨d.isLt, by decide, ⟨a.isLt, by decide, ⟨f.isLt, by decide, ⟨r.isLt, by decide, ⟨g.isLt, by decide, trivial⟩⟩⟩⟩⟩
  have g0 : Fits ((0x3C, 25) :: [(d.val, 19), (a.val, 13), (f.val, 10), (r.val, 3), (g.val, 0)]) (7 :: [6, 6, 3, 7, 3]) 32 := ⟨by decide, by decide, fit⟩
  have dcd : decodeV w = checked w [] [] (.vrot (field 64 w 19) (field 64 w 13) (field 8 w 10) (field 128 w 3) (field 8 w 0)) := by
    unfold decodeV
    rw [show w / 2 ^ 25 = 0x3C from e ▸ pack_top fit]
    rfl
  show decodeV w = _
  rw [dcd, field_of (x := d) (len := 6) rfl ((e ▸ take_pack (lo := 19) (len := 6) g0 rfl : w / 2 ^ 19 % 2 ^ 6 = _)), field_of (x := a) (len := 6) rfl ((e ▸ take_pack (lo := 13) (len := 6) g0 rfl : w / 2 ^ 13 % 2 ^ 6 = _)), field_of (x := f) (len := 3) rfl ((e ▸ take_pack (lo := 10) (len := 3) g0 rfl : w / 2 ^ 10 % 2 ^ 3 = _)), field_of (x := r) (len := 7) rfl ((e ▸ take_pack (lo := 3) (len := 7) g0 rfl : w / 2 ^ 3 % 2 ^ 7 = _)), field_of (x := g) (len := 3) rfl ((e ▸ take_pack (lo := 0) (len := 3) g0 rfl : w / 2 ^ 0 % 2 ^ 3 = _))]
  exact checked_of hwf rfl rfl

theorem Encoding.vbcst (d : Fin 64) (s : Fin 64) (wid : Fin 8) (g : Fin 16) : Encoding.Statement (.vbcst d s wid g) := by
  intro hwf u w hunit henc
  cases hunit
  have e : pack ((0x3D, 25) :: [(d.val, 19), (s.val, 13), (wid.val, 4), (g.val, 0)]) = w := Option.some.inj henc
  have fit : Fits [(d.val, 19), (s.val, 13), (wid.val, 4), (g.val, 0)] [6, 6, 3, 4] 25 := ⟨d.isLt, by decide, ⟨s.isLt, by decide, ⟨wid.isLt, by decide, ⟨g.isLt, by decide, trivial⟩⟩⟩⟩
  have g0 : Fits ((0x3D, 25) :: [(d.val, 19), (s.val, 13), (wid.val, 4), (g.val, 0)]) (7 :: [6, 6, 3, 4]) 32 := ⟨by decide, by decide, fit⟩
  have dcd : decodeV w = checked w [(7, 6)] [] (.vbcst (field 64 w 19) (field 64 w 13) (field 8 w 4) (field 16 w 0)) := by
    unfold decodeV
    rw [show w / 2 ^ 25 = 0x3D from e ▸ pack_top fit]
    rfl
  show decodeV w = _
  rw [dcd, field_of (x := d) (len := 6) rfl ((e ▸ take_pack (lo := 19) (len := 6) g0 rfl : w / 2 ^ 19 % 2 ^ 6 = _)), field_of (x := s) (len := 6) rfl ((e ▸ take_pack (lo := 13) (len := 6) g0 rfl : w / 2 ^ 13 % 2 ^ 6 = _)), field_of (x := wid) (len := 3) rfl ((e ▸ take_pack (lo := 4) (len := 3) g0 rfl : w / 2 ^ 4 % 2 ^ 3 = _)), field_of (x := g) (len := 4) rfl ((e ▸ take_pack (lo := 0) (len := 4) g0 rfl : w / 2 ^ 0 % 2 ^ 4 = _))]
  exact checked_of hwf (zero_cons ((e ▸ take_pack (lo := 7) (len := 6) g0 rfl : w / 2 ^ 7 % 2 ^ 6 = _)) rfl) rfl

theorem Encoding.vidx (d : Fin 64) (s : Fin 64) (t : Fin 64) (wid : Fin 8) (g : Fin 16) : Encoding.Statement (.vidx d s t wid g) := by
  intro hwf u w hunit henc
  cases hunit
  have e : pack ((0x3E, 25) :: [(d.val, 19), (s.val, 13), (t.val, 7), (wid.val, 4), (g.val, 0)]) = w := Option.some.inj henc
  have fit : Fits [(d.val, 19), (s.val, 13), (t.val, 7), (wid.val, 4), (g.val, 0)] [6, 6, 6, 3, 4] 25 := ⟨d.isLt, by decide, ⟨s.isLt, by decide, ⟨t.isLt, by decide, ⟨wid.isLt, by decide, ⟨g.isLt, by decide, trivial⟩⟩⟩⟩⟩
  have g0 : Fits ((0x3E, 25) :: [(d.val, 19), (s.val, 13), (t.val, 7), (wid.val, 4), (g.val, 0)]) (7 :: [6, 6, 6, 3, 4]) 32 := ⟨by decide, by decide, fit⟩
  have dcd : decodeV w = checked w [] [] (.vidx (field 64 w 19) (field 64 w 13) (field 64 w 7) (field 8 w 4) (field 16 w 0)) := by
    unfold decodeV
    rw [show w / 2 ^ 25 = 0x3E from e ▸ pack_top fit]
    rfl
  show decodeV w = _
  rw [dcd, field_of (x := d) (len := 6) rfl ((e ▸ take_pack (lo := 19) (len := 6) g0 rfl : w / 2 ^ 19 % 2 ^ 6 = _)), field_of (x := s) (len := 6) rfl ((e ▸ take_pack (lo := 13) (len := 6) g0 rfl : w / 2 ^ 13 % 2 ^ 6 = _)), field_of (x := t) (len := 6) rfl ((e ▸ take_pack (lo := 7) (len := 6) g0 rfl : w / 2 ^ 7 % 2 ^ 6 = _)), field_of (x := wid) (len := 3) rfl ((e ▸ take_pack (lo := 4) (len := 3) g0 rfl : w / 2 ^ 4 % 2 ^ 3 = _)), field_of (x := g) (len := 4) rfl ((e ▸ take_pack (lo := 0) (len := 4) g0 rfl : w / 2 ^ 0 % 2 ^ 4 = _))]
  exact checked_of hwf rfl rfl

theorem Encoding.vins (d : Fin 32) (s : Fin 64) (t : Fin 64) (wid : Fin 8) (g : Fin 16) : Encoding.Statement (.vins d s t wid g) := by
  intro hwf u w hunit henc
  cases hunit
  have e : pack ((0x3F, 25) :: [(d.val, 19), (s.val, 13), (t.val, 7), (wid.val, 4), (g.val, 0)]) = w := Option.some.inj henc
  have fit : Fits [(d.val, 19), (s.val, 13), (t.val, 7), (wid.val, 4), (g.val, 0)] [5, 6, 6, 3, 4] 25 := ⟨d.isLt, by decide, ⟨s.isLt, by decide, ⟨t.isLt, by decide, ⟨wid.isLt, by decide, ⟨g.isLt, by decide, trivial⟩⟩⟩⟩⟩
  have g0 : Fits ((0x3F, 25) :: [(d.val, 19), (s.val, 13), (t.val, 7), (wid.val, 4), (g.val, 0)]) (7 :: [5, 6, 6, 3, 4]) 32 := ⟨by decide, by decide, fit⟩
  have dcd : decodeV w = checked w [] [(24, 1, 0, 19)] (.vins (field 32 w 19) (field 64 w 13) (field 64 w 7) (field 8 w 4) (field 16 w 0)) := by
    unfold decodeV
    rw [show w / 2 ^ 25 = 0x3F from e ▸ pack_top fit]
    rfl
  show decodeV w = _
  rw [dcd, field_of (x := d) (len := 5) rfl ((e ▸ take_pack (lo := 19) (len := 5) g0 rfl : w / 2 ^ 19 % 2 ^ 5 = _)), field_of (x := s) (len := 6) rfl ((e ▸ take_pack (lo := 13) (len := 6) g0 rfl : w / 2 ^ 13 % 2 ^ 6 = _)), field_of (x := t) (len := 6) rfl ((e ▸ take_pack (lo := 7) (len := 6) g0 rfl : w / 2 ^ 7 % 2 ^ 6 = _)), field_of (x := wid) (len := 3) rfl ((e ▸ take_pack (lo := 4) (len := 3) g0 rfl : w / 2 ^ 4 % 2 ^ 3 = _)), field_of (x := g) (len := 4) rfl ((e ▸ take_pack (lo := 0) (len := 4) g0 rfl : w / 2 ^ 0 % 2 ^ 4 = _))]
  exact checked_of hwf rfl (want_cons ((e ▸ take_pack (lo := 24) (len := 1) g0 rfl : w / 2 ^ 24 % 2 ^ 1 = _)) rfl)

theorem Encoding.vext (v : Fin 64) (s : Fin 64) (t : Fin 64) (wid : Fin 8) : Encoding.Statement (.vext v s t wid) := by
  intro hwf u w hunit henc
  cases hunit
  have e : pack ((0x40, 25) :: [(v.val, 19), (s.val, 13), (t.val, 7), (wid.val, 4)]) = w := Option.some.inj henc
  have fit : Fits [(v.val, 19), (s.val, 13), (t.val, 7), (wid.val, 4)] [6, 6, 6, 3] 25 := ⟨v.isLt, by decide, ⟨s.isLt, by decide, ⟨t.isLt, by decide, ⟨wid.isLt, by decide, trivial⟩⟩⟩⟩
  have g0 : Fits ((0x40, 25) :: [(v.val, 19), (s.val, 13), (t.val, 7), (wid.val, 4)]) (7 :: [6, 6, 6, 3]) 32 := ⟨by decide, by decide, fit⟩
  have dcd : decodeV w = checked w [(0, 4)] [] (.vext (field 64 w 19) (field 64 w 13) (field 64 w 7) (field 8 w 4)) := by
    unfold decodeV
    rw [show w / 2 ^ 25 = 0x40 from e ▸ pack_top fit]
    rfl
  show decodeV w = _
  rw [dcd, field_of (x := v) (len := 6) rfl ((e ▸ take_pack (lo := 19) (len := 6) g0 rfl : w / 2 ^ 19 % 2 ^ 6 = _)), field_of (x := s) (len := 6) rfl ((e ▸ take_pack (lo := 13) (len := 6) g0 rfl : w / 2 ^ 13 % 2 ^ 6 = _)), field_of (x := t) (len := 6) rfl ((e ▸ take_pack (lo := 7) (len := 6) g0 rfl : w / 2 ^ 7 % 2 ^ 6 = _)), field_of (x := wid) (len := 3) rfl ((e ▸ take_pack (lo := 4) (len := 3) g0 rfl : w / 2 ^ 4 % 2 ^ 3 = _))]
  exact checked_of hwf (zero_cons ((e ▸ take_pack (lo := 0) (len := 4) g0 rfl : w / 2 ^ 0 % 2 ^ 4 = _)) rfl) rfl

theorem Encoding.vrsum (d : Fin 64) (a : Fin 64) (f : Fin 8) (g : Fin 16) : Encoding.Statement (.vrsum d a f g) := by
  intro hwf u w hunit henc
  cases hunit
  have e : pack ((0x48, 25) :: [(d.val, 19), (a.val, 13), (f.val, 4), (g.val, 0)]) = w := Option.some.inj henc
  have fit : Fits [(d.val, 19), (a.val, 13), (f.val, 4), (g.val, 0)] [6, 6, 3, 4] 25 := ⟨d.isLt, by decide, ⟨a.isLt, by decide, ⟨f.isLt, by decide, ⟨g.isLt, by decide, trivial⟩⟩⟩⟩
  have g0 : Fits ((0x48, 25) :: [(d.val, 19), (a.val, 13), (f.val, 4), (g.val, 0)]) (7 :: [6, 6, 3, 4]) 32 := ⟨by decide, by decide, fit⟩
  have dcd : decodeV w = checked w [(7, 6)] [] (.vrsum (field 64 w 19) (field 64 w 13) (field 8 w 4) (field 16 w 0)) := by
    unfold decodeV
    rw [show w / 2 ^ 25 = 0x48 from e ▸ pack_top fit]
    rfl
  show decodeV w = _
  rw [dcd, field_of (x := d) (len := 6) rfl ((e ▸ take_pack (lo := 19) (len := 6) g0 rfl : w / 2 ^ 19 % 2 ^ 6 = _)), field_of (x := a) (len := 6) rfl ((e ▸ take_pack (lo := 13) (len := 6) g0 rfl : w / 2 ^ 13 % 2 ^ 6 = _)), field_of (x := f) (len := 3) rfl ((e ▸ take_pack (lo := 4) (len := 3) g0 rfl : w / 2 ^ 4 % 2 ^ 3 = _)), field_of (x := g) (len := 4) rfl ((e ▸ take_pack (lo := 0) (len := 4) g0 rfl : w / 2 ^ 0 % 2 ^ 4 = _))]
  exact checked_of hwf (zero_cons ((e ▸ take_pack (lo := 7) (len := 6) g0 rfl : w / 2 ^ 7 % 2 ^ 6 = _)) rfl) rfl

theorem Encoding.vrmax (d : Fin 64) (a : Fin 64) (f : Fin 8) (g : Fin 16) : Encoding.Statement (.vrmax d a f g) := by
  intro hwf u w hunit henc
  cases hunit
  have e : pack ((0x49, 25) :: [(d.val, 19), (a.val, 13), (f.val, 4), (g.val, 0)]) = w := Option.some.inj henc
  have fit : Fits [(d.val, 19), (a.val, 13), (f.val, 4), (g.val, 0)] [6, 6, 3, 4] 25 := ⟨d.isLt, by decide, ⟨a.isLt, by decide, ⟨f.isLt, by decide, ⟨g.isLt, by decide, trivial⟩⟩⟩⟩
  have g0 : Fits ((0x49, 25) :: [(d.val, 19), (a.val, 13), (f.val, 4), (g.val, 0)]) (7 :: [6, 6, 3, 4]) 32 := ⟨by decide, by decide, fit⟩
  have dcd : decodeV w = checked w [(7, 6)] [] (.vrmax (field 64 w 19) (field 64 w 13) (field 8 w 4) (field 16 w 0)) := by
    unfold decodeV
    rw [show w / 2 ^ 25 = 0x49 from e ▸ pack_top fit]
    rfl
  show decodeV w = _
  rw [dcd, field_of (x := d) (len := 6) rfl ((e ▸ take_pack (lo := 19) (len := 6) g0 rfl : w / 2 ^ 19 % 2 ^ 6 = _)), field_of (x := a) (len := 6) rfl ((e ▸ take_pack (lo := 13) (len := 6) g0 rfl : w / 2 ^ 13 % 2 ^ 6 = _)), field_of (x := f) (len := 3) rfl ((e ▸ take_pack (lo := 4) (len := 3) g0 rfl : w / 2 ^ 4 % 2 ^ 3 = _)), field_of (x := g) (len := 4) rfl ((e ▸ take_pack (lo := 0) (len := 4) g0 rfl : w / 2 ^ 0 % 2 ^ 4 = _))]
  exact checked_of hwf (zero_cons ((e ▸ take_pack (lo := 7) (len := 6) g0 rfl : w / 2 ^ 7 % 2 ^ 6 = _)) rfl) rfl

theorem Encoding.vrmin (d : Fin 64) (a : Fin 64) (f : Fin 8) (g : Fin 16) : Encoding.Statement (.vrmin d a f g) := by
  intro hwf u w hunit henc
  cases hunit
  have e : pack ((0x4A, 25) :: [(d.val, 19), (a.val, 13), (f.val, 4), (g.val, 0)]) = w := Option.some.inj henc
  have fit : Fits [(d.val, 19), (a.val, 13), (f.val, 4), (g.val, 0)] [6, 6, 3, 4] 25 := ⟨d.isLt, by decide, ⟨a.isLt, by decide, ⟨f.isLt, by decide, ⟨g.isLt, by decide, trivial⟩⟩⟩⟩
  have g0 : Fits ((0x4A, 25) :: [(d.val, 19), (a.val, 13), (f.val, 4), (g.val, 0)]) (7 :: [6, 6, 3, 4]) 32 := ⟨by decide, by decide, fit⟩
  have dcd : decodeV w = checked w [(7, 6)] [] (.vrmin (field 64 w 19) (field 64 w 13) (field 8 w 4) (field 16 w 0)) := by
    unfold decodeV
    rw [show w / 2 ^ 25 = 0x4A from e ▸ pack_top fit]
    rfl
  show decodeV w = _
  rw [dcd, field_of (x := d) (len := 6) rfl ((e ▸ take_pack (lo := 19) (len := 6) g0 rfl : w / 2 ^ 19 % 2 ^ 6 = _)), field_of (x := a) (len := 6) rfl ((e ▸ take_pack (lo := 13) (len := 6) g0 rfl : w / 2 ^ 13 % 2 ^ 6 = _)), field_of (x := f) (len := 3) rfl ((e ▸ take_pack (lo := 4) (len := 3) g0 rfl : w / 2 ^ 4 % 2 ^ 3 = _)), field_of (x := g) (len := 4) rfl ((e ▸ take_pack (lo := 0) (len := 4) g0 rfl : w / 2 ^ 0 % 2 ^ 4 = _))]
  exact checked_of hwf (zero_cons ((e ▸ take_pack (lo := 7) (len := 6) g0 rfl : w / 2 ^ 7 % 2 ^ 6 = _)) rfl) rfl

theorem Encoding.vscan (d : Fin 64) (a : Fin 64) (f : Fin 8) (g : Fin 16) : Encoding.Statement (.vscan d a f g) := by
  intro hwf u w hunit henc
  cases hunit
  have e : pack ((0x4B, 25) :: [(d.val, 19), (a.val, 13), (f.val, 4), (g.val, 0)]) = w := Option.some.inj henc
  have fit : Fits [(d.val, 19), (a.val, 13), (f.val, 4), (g.val, 0)] [6, 6, 3, 4] 25 := ⟨d.isLt, by decide, ⟨a.isLt, by decide, ⟨f.isLt, by decide, ⟨g.isLt, by decide, trivial⟩⟩⟩⟩
  have g0 : Fits ((0x4B, 25) :: [(d.val, 19), (a.val, 13), (f.val, 4), (g.val, 0)]) (7 :: [6, 6, 3, 4]) 32 := ⟨by decide, by decide, fit⟩
  have dcd : decodeV w = checked w [(7, 6)] [] (.vscan (field 64 w 19) (field 64 w 13) (field 8 w 4) (field 16 w 0)) := by
    unfold decodeV
    rw [show w / 2 ^ 25 = 0x4B from e ▸ pack_top fit]
    rfl
  show decodeV w = _
  rw [dcd, field_of (x := d) (len := 6) rfl ((e ▸ take_pack (lo := 19) (len := 6) g0 rfl : w / 2 ^ 19 % 2 ^ 6 = _)), field_of (x := a) (len := 6) rfl ((e ▸ take_pack (lo := 13) (len := 6) g0 rfl : w / 2 ^ 13 % 2 ^ 6 = _)), field_of (x := f) (len := 3) rfl ((e ▸ take_pack (lo := 4) (len := 3) g0 rfl : w / 2 ^ 4 % 2 ^ 3 = _)), field_of (x := g) (len := 4) rfl ((e ▸ take_pack (lo := 0) (len := 4) g0 rfl : w / 2 ^ 0 % 2 ^ 4 = _))]
  exact checked_of hwf (zero_cons ((e ▸ take_pack (lo := 7) (len := 6) g0 rfl : w / 2 ^ 7 % 2 ^ 6 = _)) rfl) rfl

theorem Encoding.vsort (d : Fin 64) (a : Fin 64) (f : Fin 8) (g : Fin 16) : Encoding.Statement (.vsort d a f g) := by
  intro hwf u w hunit henc
  cases hunit
  have e : pack ((0x4C, 25) :: [(d.val, 19), (a.val, 13), (f.val, 4), (g.val, 0)]) = w := Option.some.inj henc
  have fit : Fits [(d.val, 19), (a.val, 13), (f.val, 4), (g.val, 0)] [6, 6, 3, 4] 25 := ⟨d.isLt, by decide, ⟨a.isLt, by decide, ⟨f.isLt, by decide, ⟨g.isLt, by decide, trivial⟩⟩⟩⟩
  have g0 : Fits ((0x4C, 25) :: [(d.val, 19), (a.val, 13), (f.val, 4), (g.val, 0)]) (7 :: [6, 6, 3, 4]) 32 := ⟨by decide, by decide, fit⟩
  have dcd : decodeV w = checked w [(7, 6)] [] (.vsort (field 64 w 19) (field 64 w 13) (field 8 w 4) (field 16 w 0)) := by
    unfold decodeV
    rw [show w / 2 ^ 25 = 0x4C from e ▸ pack_top fit]
    rfl
  show decodeV w = _
  rw [dcd, field_of (x := d) (len := 6) rfl ((e ▸ take_pack (lo := 19) (len := 6) g0 rfl : w / 2 ^ 19 % 2 ^ 6 = _)), field_of (x := a) (len := 6) rfl ((e ▸ take_pack (lo := 13) (len := 6) g0 rfl : w / 2 ^ 13 % 2 ^ 6 = _)), field_of (x := f) (len := 3) rfl ((e ▸ take_pack (lo := 4) (len := 3) g0 rfl : w / 2 ^ 4 % 2 ^ 3 = _)), field_of (x := g) (len := 4) rfl ((e ▸ take_pack (lo := 0) (len := 4) g0 rfl : w / 2 ^ 0 % 2 ^ 4 = _))]
  exact checked_of hwf (zero_cons ((e ▸ take_pack (lo := 7) (len := 6) g0 rfl : w / 2 ^ 7 % 2 ^ 6 = _)) rfl) rfl

theorem Encoding.vld (d : Fin 64) (s : Fin 64) (o : Fin 512) (g : Fin 16) : Encoding.Statement (.vld d s o g) := by
  intro hwf u w hunit henc
  cases hunit
  have e : pack ((0x50, 25) :: [(d.val, 19), (s.val, 13), (o.val, 4), (g.val, 0)]) = w := Option.some.inj henc
  have fit : Fits [(d.val, 19), (s.val, 13), (o.val, 4), (g.val, 0)] [6, 6, 9, 4] 25 := ⟨d.isLt, by decide, ⟨s.isLt, by decide, ⟨o.isLt, by decide, ⟨g.isLt, by decide, trivial⟩⟩⟩⟩
  have g0 : Fits ((0x50, 25) :: [(d.val, 19), (s.val, 13), (o.val, 4), (g.val, 0)]) (7 :: [6, 6, 9, 4]) 32 := ⟨by decide, by decide, fit⟩
  have dcd : decodeV w = checked w [] [] (.vld (field 64 w 19) (field 64 w 13) (field 512 w 4) (field 16 w 0)) := by
    unfold decodeV
    rw [show w / 2 ^ 25 = 0x50 from e ▸ pack_top fit]
    rfl
  show decodeV w = _
  rw [dcd, field_of (x := d) (len := 6) rfl ((e ▸ take_pack (lo := 19) (len := 6) g0 rfl : w / 2 ^ 19 % 2 ^ 6 = _)), field_of (x := s) (len := 6) rfl ((e ▸ take_pack (lo := 13) (len := 6) g0 rfl : w / 2 ^ 13 % 2 ^ 6 = _)), field_of (x := o) (len := 9) rfl ((e ▸ take_pack (lo := 4) (len := 9) g0 rfl : w / 2 ^ 4 % 2 ^ 9 = _)), field_of (x := g) (len := 4) rfl ((e ▸ take_pack (lo := 0) (len := 4) g0 rfl : w / 2 ^ 0 % 2 ^ 4 = _))]
  exact checked_of hwf rfl rfl

theorem Encoding.vst (d : Fin 64) (s : Fin 64) (o : Fin 512) (g : Fin 16) : Encoding.Statement (.vst d s o g) := by
  intro hwf u w hunit henc
  cases hunit
  have e : pack ((0x51, 25) :: [(d.val, 19), (s.val, 13), (o.val, 4), (g.val, 0)]) = w := Option.some.inj henc
  have fit : Fits [(d.val, 19), (s.val, 13), (o.val, 4), (g.val, 0)] [6, 6, 9, 4] 25 := ⟨d.isLt, by decide, ⟨s.isLt, by decide, ⟨o.isLt, by decide, ⟨g.isLt, by decide, trivial⟩⟩⟩⟩
  have g0 : Fits ((0x51, 25) :: [(d.val, 19), (s.val, 13), (o.val, 4), (g.val, 0)]) (7 :: [6, 6, 9, 4]) 32 := ⟨by decide, by decide, fit⟩
  have dcd : decodeV w = checked w [] [] (.vst (field 64 w 19) (field 64 w 13) (field 512 w 4) (field 16 w 0)) := by
    unfold decodeV
    rw [show w / 2 ^ 25 = 0x51 from e ▸ pack_top fit]
    rfl
  show decodeV w = _
  rw [dcd, field_of (x := d) (len := 6) rfl ((e ▸ take_pack (lo := 19) (len := 6) g0 rfl : w / 2 ^ 19 % 2 ^ 6 = _)), field_of (x := s) (len := 6) rfl ((e ▸ take_pack (lo := 13) (len := 6) g0 rfl : w / 2 ^ 13 % 2 ^ 6 = _)), field_of (x := o) (len := 9) rfl ((e ▸ take_pack (lo := 4) (len := 9) g0 rfl : w / 2 ^ 4 % 2 ^ 9 = _)), field_of (x := g) (len := 4) rfl ((e ▸ take_pack (lo := 0) (len := 4) g0 rfl : w / 2 ^ 0 % 2 ^ 4 = _))]
  exact checked_of hwf rfl rfl

theorem Encoding.vlds (d : Fin 64) (s : Fin 64) (t : Fin 64) (wid : Fin 8) (g : Fin 16) : Encoding.Statement (.vlds d s t wid g) := by
  intro hwf u w hunit henc
  cases hunit
  have e : pack ((0x52, 25) :: [(d.val, 19), (s.val, 13), (t.val, 7), (wid.val, 4), (g.val, 0)]) = w := Option.some.inj henc
  have fit : Fits [(d.val, 19), (s.val, 13), (t.val, 7), (wid.val, 4), (g.val, 0)] [6, 6, 6, 3, 4] 25 := ⟨d.isLt, by decide, ⟨s.isLt, by decide, ⟨t.isLt, by decide, ⟨wid.isLt, by decide, ⟨g.isLt, by decide, trivial⟩⟩⟩⟩⟩
  have g0 : Fits ((0x52, 25) :: [(d.val, 19), (s.val, 13), (t.val, 7), (wid.val, 4), (g.val, 0)]) (7 :: [6, 6, 6, 3, 4]) 32 := ⟨by decide, by decide, fit⟩
  have dcd : decodeV w = checked w [] [] (.vlds (field 64 w 19) (field 64 w 13) (field 64 w 7) (field 8 w 4) (field 16 w 0)) := by
    unfold decodeV
    rw [show w / 2 ^ 25 = 0x52 from e ▸ pack_top fit]
    rfl
  show decodeV w = _
  rw [dcd, field_of (x := d) (len := 6) rfl ((e ▸ take_pack (lo := 19) (len := 6) g0 rfl : w / 2 ^ 19 % 2 ^ 6 = _)), field_of (x := s) (len := 6) rfl ((e ▸ take_pack (lo := 13) (len := 6) g0 rfl : w / 2 ^ 13 % 2 ^ 6 = _)), field_of (x := t) (len := 6) rfl ((e ▸ take_pack (lo := 7) (len := 6) g0 rfl : w / 2 ^ 7 % 2 ^ 6 = _)), field_of (x := wid) (len := 3) rfl ((e ▸ take_pack (lo := 4) (len := 3) g0 rfl : w / 2 ^ 4 % 2 ^ 3 = _)), field_of (x := g) (len := 4) rfl ((e ▸ take_pack (lo := 0) (len := 4) g0 rfl : w / 2 ^ 0 % 2 ^ 4 = _))]
  exact checked_of hwf rfl rfl

theorem Encoding.vsts (d : Fin 64) (s : Fin 64) (t : Fin 64) (wid : Fin 8) (g : Fin 16) : Encoding.Statement (.vsts d s t wid g) := by
  intro hwf u w hunit henc
  cases hunit
  have e : pack ((0x53, 25) :: [(d.val, 19), (s.val, 13), (t.val, 7), (wid.val, 4), (g.val, 0)]) = w := Option.some.inj henc
  have fit : Fits [(d.val, 19), (s.val, 13), (t.val, 7), (wid.val, 4), (g.val, 0)] [6, 6, 6, 3, 4] 25 := ⟨d.isLt, by decide, ⟨s.isLt, by decide, ⟨t.isLt, by decide, ⟨wid.isLt, by decide, ⟨g.isLt, by decide, trivial⟩⟩⟩⟩⟩
  have g0 : Fits ((0x53, 25) :: [(d.val, 19), (s.val, 13), (t.val, 7), (wid.val, 4), (g.val, 0)]) (7 :: [6, 6, 6, 3, 4]) 32 := ⟨by decide, by decide, fit⟩
  have dcd : decodeV w = checked w [] [] (.vsts (field 64 w 19) (field 64 w 13) (field 64 w 7) (field 8 w 4) (field 16 w 0)) := by
    unfold decodeV
    rw [show w / 2 ^ 25 = 0x53 from e ▸ pack_top fit]
    rfl
  show decodeV w = _
  rw [dcd, field_of (x := d) (len := 6) rfl ((e ▸ take_pack (lo := 19) (len := 6) g0 rfl : w / 2 ^ 19 % 2 ^ 6 = _)), field_of (x := s) (len := 6) rfl ((e ▸ take_pack (lo := 13) (len := 6) g0 rfl : w / 2 ^ 13 % 2 ^ 6 = _)), field_of (x := t) (len := 6) rfl ((e ▸ take_pack (lo := 7) (len := 6) g0 rfl : w / 2 ^ 7 % 2 ^ 6 = _)), field_of (x := wid) (len := 3) rfl ((e ▸ take_pack (lo := 4) (len := 3) g0 rfl : w / 2 ^ 4 % 2 ^ 3 = _)), field_of (x := g) (len := 4) rfl ((e ▸ take_pack (lo := 0) (len := 4) g0 rfl : w / 2 ^ 0 % 2 ^ 4 = _))]
  exact checked_of hwf rfl rfl

theorem Encoding.vgth (d : Fin 64) (a : Fin 64) (b : Fin 64) (f : Fin 8) (g : Fin 16) : Encoding.Statement (.vgth d a b f g) := by
  intro hwf u w hunit henc
  cases hunit
  have e : pack ((0x54, 25) :: [(d.val, 19), (a.val, 13), (b.val, 7), (f.val, 4), (g.val, 0)]) = w := Option.some.inj henc
  have fit : Fits [(d.val, 19), (a.val, 13), (b.val, 7), (f.val, 4), (g.val, 0)] [6, 6, 6, 3, 4] 25 := ⟨d.isLt, by decide, ⟨a.isLt, by decide, ⟨b.isLt, by decide, ⟨f.isLt, by decide, ⟨g.isLt, by decide, trivial⟩⟩⟩⟩⟩
  have g0 : Fits ((0x54, 25) :: [(d.val, 19), (a.val, 13), (b.val, 7), (f.val, 4), (g.val, 0)]) (7 :: [6, 6, 6, 3, 4]) 32 := ⟨by decide, by decide, fit⟩
  have dcd : decodeV w = checked w [] [] (.vgth (field 64 w 19) (field 64 w 13) (field 64 w 7) (field 8 w 4) (field 16 w 0)) := by
    unfold decodeV
    rw [show w / 2 ^ 25 = 0x54 from e ▸ pack_top fit]
    rfl
  show decodeV w = _
  rw [dcd, field_of (x := d) (len := 6) rfl ((e ▸ take_pack (lo := 19) (len := 6) g0 rfl : w / 2 ^ 19 % 2 ^ 6 = _)), field_of (x := a) (len := 6) rfl ((e ▸ take_pack (lo := 13) (len := 6) g0 rfl : w / 2 ^ 13 % 2 ^ 6 = _)), field_of (x := b) (len := 6) rfl ((e ▸ take_pack (lo := 7) (len := 6) g0 rfl : w / 2 ^ 7 % 2 ^ 6 = _)), field_of (x := f) (len := 3) rfl ((e ▸ take_pack (lo := 4) (len := 3) g0 rfl : w / 2 ^ 4 % 2 ^ 3 = _)), field_of (x := g) (len := 4) rfl ((e ▸ take_pack (lo := 0) (len := 4) g0 rfl : w / 2 ^ 0 % 2 ^ 4 = _))]
  exact checked_of hwf rfl rfl

theorem Encoding.vsct (d : Fin 64) (a : Fin 64) (b : Fin 64) (f : Fin 8) (g : Fin 16) : Encoding.Statement (.vsct d a b f g) := by
  intro hwf u w hunit henc
  cases hunit
  have e : pack ((0x55, 25) :: [(d.val, 19), (a.val, 13), (b.val, 7), (f.val, 4), (g.val, 0)]) = w := Option.some.inj henc
  have fit : Fits [(d.val, 19), (a.val, 13), (b.val, 7), (f.val, 4), (g.val, 0)] [6, 6, 6, 3, 4] 25 := ⟨d.isLt, by decide, ⟨a.isLt, by decide, ⟨b.isLt, by decide, ⟨f.isLt, by decide, ⟨g.isLt, by decide, trivial⟩⟩⟩⟩⟩
  have g0 : Fits ((0x55, 25) :: [(d.val, 19), (a.val, 13), (b.val, 7), (f.val, 4), (g.val, 0)]) (7 :: [6, 6, 6, 3, 4]) 32 := ⟨by decide, by decide, fit⟩
  have dcd : decodeV w = checked w [] [] (.vsct (field 64 w 19) (field 64 w 13) (field 64 w 7) (field 8 w 4) (field 16 w 0)) := by
    unfold decodeV
    rw [show w / 2 ^ 25 = 0x55 from e ▸ pack_top fit]
    rfl
  show decodeV w = _
  rw [dcd, field_of (x := d) (len := 6) rfl ((e ▸ take_pack (lo := 19) (len := 6) g0 rfl : w / 2 ^ 19 % 2 ^ 6 = _)), field_of (x := a) (len := 6) rfl ((e ▸ take_pack (lo := 13) (len := 6) g0 rfl : w / 2 ^ 13 % 2 ^ 6 = _)), field_of (x := b) (len := 6) rfl ((e ▸ take_pack (lo := 7) (len := 6) g0 rfl : w / 2 ^ 7 % 2 ^ 6 = _)), field_of (x := f) (len := 3) rfl ((e ▸ take_pack (lo := 4) (len := 3) g0 rfl : w / 2 ^ 4 % 2 ^ 3 = _)), field_of (x := g) (len := 4) rfl ((e ▸ take_pack (lo := 0) (len := 4) g0 rfl : w / 2 ^ 0 % 2 ^ 4 = _))]
  exact checked_of hwf rfl rfl

theorem Encoding.vldc (d : Fin 64) (s : Fin 64) (o : Fin 512) (g : Fin 16) : Encoding.Statement (.vldc d s o g) := by
  intro hwf u w hunit henc
  cases hunit
  have e : pack ((0x56, 25) :: [(d.val, 19), (s.val, 13), (o.val, 4), (g.val, 0)]) = w := Option.some.inj henc
  have fit : Fits [(d.val, 19), (s.val, 13), (o.val, 4), (g.val, 0)] [6, 6, 9, 4] 25 := ⟨d.isLt, by decide, ⟨s.isLt, by decide, ⟨o.isLt, by decide, ⟨g.isLt, by decide, trivial⟩⟩⟩⟩
  have g0 : Fits ((0x56, 25) :: [(d.val, 19), (s.val, 13), (o.val, 4), (g.val, 0)]) (7 :: [6, 6, 9, 4]) 32 := ⟨by decide, by decide, fit⟩
  have dcd : decodeV w = checked w [] [] (.vldc (field 64 w 19) (field 64 w 13) (field 512 w 4) (field 16 w 0)) := by
    unfold decodeV
    rw [show w / 2 ^ 25 = 0x56 from e ▸ pack_top fit]
    rfl
  show decodeV w = _
  rw [dcd, field_of (x := d) (len := 6) rfl ((e ▸ take_pack (lo := 19) (len := 6) g0 rfl : w / 2 ^ 19 % 2 ^ 6 = _)), field_of (x := s) (len := 6) rfl ((e ▸ take_pack (lo := 13) (len := 6) g0 rfl : w / 2 ^ 13 % 2 ^ 6 = _)), field_of (x := o) (len := 9) rfl ((e ▸ take_pack (lo := 4) (len := 9) g0 rfl : w / 2 ^ 4 % 2 ^ 9 = _)), field_of (x := g) (len := 4) rfl ((e ▸ take_pack (lo := 0) (len := 4) g0 rfl : w / 2 ^ 0 % 2 ^ 4 = _))]
  exact checked_of hwf rfl rfl

theorem Encoding.vstc (d : Fin 64) (s : Fin 64) (o : Fin 512) (g : Fin 16) : Encoding.Statement (.vstc d s o g) := by
  intro hwf u w hunit henc
  cases hunit
  have e : pack ((0x57, 25) :: [(d.val, 19), (s.val, 13), (o.val, 4), (g.val, 0)]) = w := Option.some.inj henc
  have fit : Fits [(d.val, 19), (s.val, 13), (o.val, 4), (g.val, 0)] [6, 6, 9, 4] 25 := ⟨d.isLt, by decide, ⟨s.isLt, by decide, ⟨o.isLt, by decide, ⟨g.isLt, by decide, trivial⟩⟩⟩⟩
  have g0 : Fits ((0x57, 25) :: [(d.val, 19), (s.val, 13), (o.val, 4), (g.val, 0)]) (7 :: [6, 6, 9, 4]) 32 := ⟨by decide, by decide, fit⟩
  have dcd : decodeV w = checked w [] [] (.vstc (field 64 w 19) (field 64 w 13) (field 512 w 4) (field 16 w 0)) := by
    unfold decodeV
    rw [show w / 2 ^ 25 = 0x57 from e ▸ pack_top fit]
    rfl
  show decodeV w = _
  rw [dcd, field_of (x := d) (len := 6) rfl ((e ▸ take_pack (lo := 19) (len := 6) g0 rfl : w / 2 ^ 19 % 2 ^ 6 = _)), field_of (x := s) (len := 6) rfl ((e ▸ take_pack (lo := 13) (len := 6) g0 rfl : w / 2 ^ 13 % 2 ^ 6 = _)), field_of (x := o) (len := 9) rfl ((e ▸ take_pack (lo := 4) (len := 9) g0 rfl : w / 2 ^ 4 % 2 ^ 9 = _)), field_of (x := g) (len := 4) rfl ((e ▸ take_pack (lo := 0) (len := 4) g0 rfl : w / 2 ^ 0 % 2 ^ 4 = _))]
  exact checked_of hwf rfl rfl

theorem Encoding.vcmpr (q : Fin 16) (a : Fin 64) (f : Fin 8) (g : Fin 16) : Encoding.Statement (.vcmpr q a f g) := by
  intro hwf u w hunit henc
  cases hunit
  have e : pack ((0x58, 25) :: [(2, 23), (q.val, 19), (a.val, 13), (f.val, 4), (g.val, 0)]) = w := Option.some.inj henc
  have fit : Fits [(2, 23), (q.val, 19), (a.val, 13), (f.val, 4), (g.val, 0)] [2, 4, 6, 3, 4] 25 := ⟨(by decide), by decide, ⟨q.isLt, by decide, ⟨a.isLt, by decide, ⟨f.isLt, by decide, ⟨g.isLt, by decide, trivial⟩⟩⟩⟩⟩
  have g0 : Fits ((0x58, 25) :: [(2, 23), (q.val, 19), (a.val, 13), (f.val, 4), (g.val, 0)]) (7 :: [2, 4, 6, 3, 4]) 32 := ⟨by decide, by decide, fit⟩
  have dcd : decodeV w = checked w [(7, 6)] [(23, 2, 2, 19)] (.vcmpr (field 16 w 19) (field 64 w 13) (field 8 w 4) (field 16 w 0)) := by
    unfold decodeV
    rw [show w / 2 ^ 25 = 0x58 from e ▸ pack_top fit]
    have h48 : w / 2 ^ 13 % 2 ^ 6 = a.val := ((e ▸ take_pack (lo := 13) (len := 6) g0 rfl : w / 2 ^ 13 % 2 ^ 6 = _))
    exact if_neg (by rw [show (64 : Nat) = 2 ^ 6 from rfl, h48]; simp only [Instr.wf, Instr.fieldFault, Instr.operandFault, firstFault] at hwf; simp at hwf; simp; omega)
  show decodeV w = _
  rw [dcd, field_of (x := q) (len := 4) rfl ((e ▸ take_pack (lo := 19) (len := 4) g0 rfl : w / 2 ^ 19 % 2 ^ 4 = _)), field_of (x := a) (len := 6) rfl ((e ▸ take_pack (lo := 13) (len := 6) g0 rfl : w / 2 ^ 13 % 2 ^ 6 = _)), field_of (x := f) (len := 3) rfl ((e ▸ take_pack (lo := 4) (len := 3) g0 rfl : w / 2 ^ 4 % 2 ^ 3 = _)), field_of (x := g) (len := 4) rfl ((e ▸ take_pack (lo := 0) (len := 4) g0 rfl : w / 2 ^ 0 % 2 ^ 4 = _))]
  exact checked_of hwf (zero_cons ((e ▸ take_pack (lo := 7) (len := 6) g0 rfl : w / 2 ^ 7 % 2 ^ 6 = _)) rfl) (want_cons ((e ▸ take_pack (lo := 23) (len := 2) g0 rfl : w / 2 ^ 23 % 2 ^ 2 = _)) rfl)

theorem Encoding.vcmprFlush (q : Fin 16) (f : Fin 8) : Encoding.Statement (.vcmprFlush q f) := by
  intro hwf u w hunit henc
  cases hunit
  have e : pack ((0x58, 25) :: [(2, 23), (q.val, 19), (48, 13), (f.val, 4)]) = w := Option.some.inj henc
  have fit : Fits [(2, 23), (q.val, 19), (48, 13), (f.val, 4)] [2, 4, 6, 3] 25 := ⟨(by decide), by decide, ⟨q.isLt, by decide, ⟨(by decide), by decide, ⟨f.isLt, by decide, trivial⟩⟩⟩⟩
  have g0 : Fits ((0x58, 25) :: [(2, 23), (q.val, 19), (48, 13), (f.val, 4)]) (7 :: [2, 4, 6, 3]) 32 := ⟨by decide, by decide, fit⟩
  have dcd : decodeV w = checked w [(0, 4), (7, 6)] [(23, 2, 2, 19)] (.vcmprFlush (field 16 w 19) (field 8 w 4)) := by
    unfold decodeV
    rw [show w / 2 ^ 25 = 0x58 from e ▸ pack_top fit]
    have h48 : w / 2 ^ 13 % 2 ^ 6 = 48 := ((e ▸ take_pack (lo := 13) (len := 6) g0 rfl : w / 2 ^ 13 % 2 ^ 6 = _))
    exact if_pos (by rw [show (64 : Nat) = 2 ^ 6 from rfl, h48]; rfl)
  show decodeV w = _
  rw [dcd, field_of (x := q) (len := 4) rfl ((e ▸ take_pack (lo := 19) (len := 4) g0 rfl : w / 2 ^ 19 % 2 ^ 4 = _)), field_of (x := f) (len := 3) rfl ((e ▸ take_pack (lo := 4) (len := 3) g0 rfl : w / 2 ^ 4 % 2 ^ 3 = _))]
  exact checked_of hwf (zero_cons ((e ▸ take_pack (lo := 0) (len := 4) g0 rfl : w / 2 ^ 0 % 2 ^ 4 = _)) (zero_cons ((e ▸ take_pack (lo := 7) (len := 6) g0 rfl : w / 2 ^ 7 % 2 ^ 6 = _)) rfl)) (want_cons ((e ▸ take_pack (lo := 23) (len := 2) g0 rfl : w / 2 ^ 23 % 2 ^ 2 = _)) rfl)

theorem Encoding.vxpnd (d : Fin 32) (q : Fin 16) (f : Fin 8) (g : Fin 16) : Encoding.Statement (.vxpnd d q f g) := by
  intro hwf u w hunit henc
  cases hunit
  have e : pack ((0x59, 25) :: [(d.val, 19), (2, 17), (q.val, 13), (f.val, 4), (g.val, 0)]) = w := Option.some.inj henc
  have fit : Fits [(d.val, 19), (2, 17), (q.val, 13), (f.val, 4), (g.val, 0)] [5, 2, 4, 3, 4] 25 := ⟨d.isLt, by decide, ⟨(by decide), by decide, ⟨q.isLt, by decide, ⟨f.isLt, by decide, ⟨g.isLt, by decide, trivial⟩⟩⟩⟩⟩
  have g0 : Fits ((0x59, 25) :: [(d.val, 19), (2, 17), (q.val, 13), (f.val, 4), (g.val, 0)]) (7 :: [5, 2, 4, 3, 4]) 32 := ⟨by decide, by decide, fit⟩
  have dcd : decodeV w = checked w [(7, 6)] [(24, 1, 0, 19), (17, 2, 2, 13)] (.vxpnd (field 32 w 19) (field 16 w 13) (field 8 w 4) (field 16 w 0)) := by
    unfold decodeV
    rw [show w / 2 ^ 25 = 0x59 from e ▸ pack_top fit]
    have h48 : w / 2 ^ 19 % 2 ^ 6 = d.val := ((e ▸ take_pack (lo := 19) (len := 6) g0 rfl : w / 2 ^ 19 % 2 ^ 6 = _))
    exact if_neg (by have := d.isLt; rw [show (64 : Nat) = 2 ^ 6 from rfl, h48]; simp; omega)
  show decodeV w = _
  rw [dcd, field_of (x := d) (len := 5) rfl ((e ▸ take_pack (lo := 19) (len := 5) g0 rfl : w / 2 ^ 19 % 2 ^ 5 = _)), field_of (x := q) (len := 4) rfl ((e ▸ take_pack (lo := 13) (len := 4) g0 rfl : w / 2 ^ 13 % 2 ^ 4 = _)), field_of (x := f) (len := 3) rfl ((e ▸ take_pack (lo := 4) (len := 3) g0 rfl : w / 2 ^ 4 % 2 ^ 3 = _)), field_of (x := g) (len := 4) rfl ((e ▸ take_pack (lo := 0) (len := 4) g0 rfl : w / 2 ^ 0 % 2 ^ 4 = _))]
  exact checked_of hwf (zero_cons ((e ▸ take_pack (lo := 7) (len := 6) g0 rfl : w / 2 ^ 7 % 2 ^ 6 = _)) rfl) (want_cons ((e ▸ take_pack (lo := 24) (len := 1) g0 rfl : w / 2 ^ 24 % 2 ^ 1 = _)) (want_cons ((e ▸ take_pack (lo := 17) (len := 2) g0 rfl : w / 2 ^ 17 % 2 ^ 2 = _)) rfl))

theorem Encoding.vxpndDrop (q : Fin 16) (f : Fin 8) : Encoding.Statement (.vxpndDrop q f) := by
  intro hwf u w hunit henc
  cases hunit
  have e : pack ((0x59, 25) :: [(48, 19), (2, 17), (q.val, 13), (f.val, 4)]) = w := Option.some.inj henc
  have fit : Fits [(48, 19), (2, 17), (q.val, 13), (f.val, 4)] [6, 2, 4, 3] 25 := ⟨(by decide), by decide, ⟨(by decide), by decide, ⟨q.isLt, by decide, ⟨f.isLt, by decide, trivial⟩⟩⟩⟩
  have g0 : Fits ((0x59, 25) :: [(48, 19), (2, 17), (q.val, 13), (f.val, 4)]) (7 :: [6, 2, 4, 3]) 32 := ⟨by decide, by decide, fit⟩
  have dcd : decodeV w = checked w [(0, 4), (7, 6)] [(17, 2, 2, 13)] (.vxpndDrop (field 16 w 13) (field 8 w 4)) := by
    unfold decodeV
    rw [show w / 2 ^ 25 = 0x59 from e ▸ pack_top fit]
    have h48 : w / 2 ^ 19 % 2 ^ 6 = 48 := ((e ▸ take_pack (lo := 19) (len := 6) g0 rfl : w / 2 ^ 19 % 2 ^ 6 = _))
    exact if_pos (by rw [show (64 : Nat) = 2 ^ 6 from rfl, h48]; rfl)
  show decodeV w = _
  rw [dcd, field_of (x := q) (len := 4) rfl ((e ▸ take_pack (lo := 13) (len := 4) g0 rfl : w / 2 ^ 13 % 2 ^ 4 = _)), field_of (x := f) (len := 3) rfl ((e ▸ take_pack (lo := 4) (len := 3) g0 rfl : w / 2 ^ 4 % 2 ^ 3 = _))]
  exact checked_of hwf (zero_cons ((e ▸ take_pack (lo := 0) (len := 4) g0 rfl : w / 2 ^ 0 % 2 ^ 4 = _)) (zero_cons ((e ▸ take_pack (lo := 7) (len := 6) g0 rfl : w / 2 ^ 7 % 2 ^ 6 = _)) rfl)) (want_cons ((e ▸ take_pack (lo := 17) (len := 2) g0 rfl : w / 2 ^ 17 % 2 ^ 2 = _)) rfl)

theorem Encoding.mldb (qa : Fin 16) (fs : Fin 8) (ft : Fin 16) (rb : Fin 16) (qs : Fin 16) (g : Fin 16) : Encoding.Statement (.mldb qa fs ft rb qs g) := by
  intro hwf u w hunit henc
  cases hunit
  have e : pack ((0x01, 58) :: [(qa.val, 51), (fs.val, 48), (ft.val, 44), (rb.val, 40), (qs.val, 36), (g.val, 32)]) = w := Option.some.inj henc
  have fit : Fits [(qa.val, 51), (fs.val, 48), (ft.val, 44), (rb.val, 40), (qs.val, 36), (g.val, 32)] [4, 3, 4, 4, 4, 4] 58 := ⟨qa.isLt, by decide, ⟨fs.isLt, by decide, ⟨ft.isLt, by decide, ⟨rb.isLt, by decide, ⟨qs.isLt, by decide, ⟨g.isLt, by decide, trivial⟩⟩⟩⟩⟩⟩
  have g0 : Fits ((0x01, 58) :: [(qa.val, 51), (fs.val, 48), (ft.val, 44), (rb.val, 40), (qs.val, 36), (g.val, 32)]) (6 :: [4, 3, 4, 4, 4, 4]) 64 := ⟨by decide, by decide, fit⟩
  have dcd : decodeM w = checked w [(0, 32), (55, 3)] [] (.mldb (field 16 w 51) (field 8 w 48) (field 16 w 44) (field 16 w 40) (field 16 w 36) (field 16 w 32)) := by
    unfold decodeM
    rw [show w / 2 ^ 58 = 0x01 from e ▸ pack_top fit]
    rfl
  show decodeM w = _
  rw [dcd, field_of (x := qa) (len := 4) rfl ((e ▸ take_pack (lo := 51) (len := 4) g0 rfl : w / 2 ^ 51 % 2 ^ 4 = _)), field_of (x := fs) (len := 3) rfl ((e ▸ take_pack (lo := 48) (len := 3) g0 rfl : w / 2 ^ 48 % 2 ^ 3 = _)), field_of (x := ft) (len := 4) rfl ((e ▸ take_pack (lo := 44) (len := 4) g0 rfl : w / 2 ^ 44 % 2 ^ 4 = _)), field_of (x := rb) (len := 4) rfl ((e ▸ take_pack (lo := 40) (len := 4) g0 rfl : w / 2 ^ 40 % 2 ^ 4 = _)), field_of (x := qs) (len := 4) rfl ((e ▸ take_pack (lo := 36) (len := 4) g0 rfl : w / 2 ^ 36 % 2 ^ 4 = _)), field_of (x := g) (len := 4) rfl ((e ▸ take_pack (lo := 32) (len := 4) g0 rfl : w / 2 ^ 32 % 2 ^ 4 = _))]
  exact checked_of hwf (zero_cons ((e ▸ take_pack (lo := 0) (len := 32) g0 rfl : w / 2 ^ 0 % 2 ^ 32 = _)) (zero_cons ((e ▸ take_pack (lo := 55) (len := 3) g0 rfl : w / 2 ^ 55 % 2 ^ 3 = _)) rfl)) rfl

theorem Encoding.mstep (acc : Fin 8) (qa : Fin 16) (fs : Fin 8) (ft : Fin 16) (rb : Fin 16) (qs : Fin 16) (g : Fin 16) (bsw : Fin 2) : Encoding.Statement (.mstep acc qa fs ft rb qs g bsw) := by
  intro hwf u w hunit henc
  cases hunit
  have e : pack ((0x02, 58) :: [(acc.val, 55), (qa.val, 51), (fs.val, 48), (ft.val, 44), (rb.val, 40), (qs.val, 36), (g.val, 32), (bsw.val, 0)]) = w := Option.some.inj henc
  have fit : Fits [(acc.val, 55), (qa.val, 51), (fs.val, 48), (ft.val, 44), (rb.val, 40), (qs.val, 36), (g.val, 32), (bsw.val, 0)] [3, 4, 3, 4, 4, 4, 4, 1] 58 := ⟨acc.isLt, by decide, ⟨qa.isLt, by decide, ⟨fs.isLt, by decide, ⟨ft.isLt, by decide, ⟨rb.isLt, by decide, ⟨qs.isLt, by decide, ⟨g.isLt, by decide, ⟨bsw.isLt, by decide, trivial⟩⟩⟩⟩⟩⟩⟩⟩
  have g0 : Fits ((0x02, 58) :: [(acc.val, 55), (qa.val, 51), (fs.val, 48), (ft.val, 44), (rb.val, 40), (qs.val, 36), (g.val, 32), (bsw.val, 0)]) (6 :: [3, 4, 3, 4, 4, 4, 4, 1]) 64 := ⟨by decide, by decide, fit⟩
  have dcd : decodeM w = checked w [(1, 31)] [] (.mstep (field 8 w 55) (field 16 w 51) (field 8 w 48) (field 16 w 44) (field 16 w 40) (field 16 w 36) (field 16 w 32) (field 2 w 0)) := by
    unfold decodeM
    rw [show w / 2 ^ 58 = 0x02 from e ▸ pack_top fit]
    rfl
  show decodeM w = _
  rw [dcd, field_of (x := acc) (len := 3) rfl ((e ▸ take_pack (lo := 55) (len := 3) g0 rfl : w / 2 ^ 55 % 2 ^ 3 = _)), field_of (x := qa) (len := 4) rfl ((e ▸ take_pack (lo := 51) (len := 4) g0 rfl : w / 2 ^ 51 % 2 ^ 4 = _)), field_of (x := fs) (len := 3) rfl ((e ▸ take_pack (lo := 48) (len := 3) g0 rfl : w / 2 ^ 48 % 2 ^ 3 = _)), field_of (x := ft) (len := 4) rfl ((e ▸ take_pack (lo := 44) (len := 4) g0 rfl : w / 2 ^ 44 % 2 ^ 4 = _)), field_of (x := rb) (len := 4) rfl ((e ▸ take_pack (lo := 40) (len := 4) g0 rfl : w / 2 ^ 40 % 2 ^ 4 = _)), field_of (x := qs) (len := 4) rfl ((e ▸ take_pack (lo := 36) (len := 4) g0 rfl : w / 2 ^ 36 % 2 ^ 4 = _)), field_of (x := g) (len := 4) rfl ((e ▸ take_pack (lo := 32) (len := 4) g0 rfl : w / 2 ^ 32 % 2 ^ 4 = _)), field_of (x := bsw) (len := 1) rfl ((e ▸ take_pack (lo := 0) (len := 1) g0 rfl : w / 2 ^ 0 % 2 ^ 1 = _))]
  exact checked_of hwf (zero_cons ((e ▸ take_pack (lo := 1) (len := 31) g0 rfl : w / 2 ^ 1 % 2 ^ 31 = _)) rfl) rfl

theorem Encoding.mzero (acc : Fin 8) (g : Fin 16) : Encoding.Statement (.mzero acc g) := by
  intro hwf u w hunit henc
  cases hunit
  have e : pack ((0x03, 58) :: [(acc.val, 55), (g.val, 32)]) = w := Option.some.inj henc
  have fit : Fits [(acc.val, 55), (g.val, 32)] [3, 4] 58 := ⟨acc.isLt, by decide, ⟨g.isLt, by decide, trivial⟩⟩
  have g0 : Fits ((0x03, 58) :: [(acc.val, 55), (g.val, 32)]) (6 :: [3, 4]) 64 := ⟨by decide, by decide, fit⟩
  have dcd : decodeM w = checked w [(0, 32), (36, 19)] [] (.mzero (field 8 w 55) (field 16 w 32)) := by
    unfold decodeM
    rw [show w / 2 ^ 58 = 0x03 from e ▸ pack_top fit]
    rfl
  show decodeM w = _
  rw [dcd, field_of (x := acc) (len := 3) rfl ((e ▸ take_pack (lo := 55) (len := 3) g0 rfl : w / 2 ^ 55 % 2 ^ 3 = _)), field_of (x := g) (len := 4) rfl ((e ▸ take_pack (lo := 32) (len := 4) g0 rfl : w / 2 ^ 32 % 2 ^ 4 = _))]
  exact checked_of hwf (zero_cons ((e ▸ take_pack (lo := 0) (len := 32) g0 rfl : w / 2 ^ 0 % 2 ^ 32 = _)) (zero_cons ((e ▸ take_pack (lo := 36) (len := 19) g0 rfl : w / 2 ^ 36 % 2 ^ 19 = _)) rfl)) rfl

theorem Encoding.mrd (acc : Fin 8) (qa : Fin 16) (fs : Fin 8) (ft : Fin 16) (rb : Fin 16) (g : Fin 16) (f : Fin 8) (band : Fin 64) : Encoding.Statement (.mrd acc qa fs ft rb g f band) := by
  intro hwf u w hunit henc
  cases hunit
  have e : pack ((0x04, 58) :: [(acc.val, 55), (qa.val, 51), (fs.val, 48), (ft.val, 44), (rb.val, 40), (g.val, 32), (f.val, 29), (band.val, 23)]) = w := Option.some.inj henc
  have fit : Fits [(acc.val, 55), (qa.val, 51), (fs.val, 48), (ft.val, 44), (rb.val, 40), (g.val, 32), (f.val, 29), (band.val, 23)] [3, 4, 3, 4, 4, 4, 3, 6] 58 := ⟨acc.isLt, by decide, ⟨qa.isLt, by decide, ⟨fs.isLt, by decide, ⟨ft.isLt, by decide, ⟨rb.isLt, by decide, ⟨g.isLt, by decide, ⟨f.isLt, by decide, ⟨band.isLt, by decide, trivial⟩⟩⟩⟩⟩⟩⟩⟩
  have g0 : Fits ((0x04, 58) :: [(acc.val, 55), (qa.val, 51), (fs.val, 48), (ft.val, 44), (rb.val, 40), (g.val, 32), (f.val, 29), (band.val, 23)]) (6 :: [3, 4, 3, 4, 4, 4, 3, 6]) 64 := ⟨by decide, by decide, fit⟩
  have dcd : decodeM w = checked w [(0, 23), (36, 4)] [] (.mrd (field 8 w 55) (field 16 w 51) (field 8 w 48) (field 16 w 44) (field 16 w 40) (field 16 w 32) (field 8 w 29) (field 64 w 23)) := by
    unfold decodeM
    rw [show w / 2 ^ 58 = 0x04 from e ▸ pack_top fit]
    rfl
  show decodeM w = _
  rw [dcd, field_of (x := acc) (len := 3) rfl ((e ▸ take_pack (lo := 55) (len := 3) g0 rfl : w / 2 ^ 55 % 2 ^ 3 = _)), field_of (x := qa) (len := 4) rfl ((e ▸ take_pack (lo := 51) (len := 4) g0 rfl : w / 2 ^ 51 % 2 ^ 4 = _)), field_of (x := fs) (len := 3) rfl ((e ▸ take_pack (lo := 48) (len := 3) g0 rfl : w / 2 ^ 48 % 2 ^ 3 = _)), field_of (x := ft) (len := 4) rfl ((e ▸ take_pack (lo := 44) (len := 4) g0 rfl : w / 2 ^ 44 % 2 ^ 4 = _)), field_of (x := rb) (len := 4) rfl ((e ▸ take_pack (lo := 40) (len := 4) g0 rfl : w / 2 ^ 40 % 2 ^ 4 = _)), field_of (x := g) (len := 4) rfl ((e ▸ take_pack (lo := 32) (len := 4) g0 rfl : w / 2 ^ 32 % 2 ^ 4 = _)), field_of (x := f) (len := 3) rfl ((e ▸ take_pack (lo := 29) (len := 3) g0 rfl : w / 2 ^ 29 % 2 ^ 3 = _)), field_of (x := band) (len := 6) rfl ((e ▸ take_pack (lo := 23) (len := 6) g0 rfl : w / 2 ^ 23 % 2 ^ 6 = _))]
  exact checked_of hwf (zero_cons ((e ▸ take_pack (lo := 0) (len := 23) g0 rfl : w / 2 ^ 0 % 2 ^ 23 = _)) (zero_cons ((e ▸ take_pack (lo := 36) (len := 4) g0 rfl : w / 2 ^ 36 % 2 ^ 4 = _)) rfl)) rfl

theorem Encoding.mwr (acc : Fin 8) (qa : Fin 16) (rb : Fin 16) (g : Fin 16) (f : Fin 8) : Encoding.Statement (.mwr acc qa rb g f) := by
  intro hwf u w hunit henc
  cases hunit
  have e : pack ((0x05, 58) :: [(acc.val, 55), (qa.val, 51), (rb.val, 40), (g.val, 32), (f.val, 29)]) = w := Option.some.inj henc
  have fit : Fits [(acc.val, 55), (qa.val, 51), (rb.val, 40), (g.val, 32), (f.val, 29)] [3, 4, 4, 4, 3] 58 := ⟨acc.isLt, by decide, ⟨qa.isLt, by decide, ⟨rb.isLt, by decide, ⟨g.isLt, by decide, ⟨f.isLt, by decide, trivial⟩⟩⟩⟩⟩
  have g0 : Fits ((0x05, 58) :: [(acc.val, 55), (qa.val, 51), (rb.val, 40), (g.val, 32), (f.val, 29)]) (6 :: [3, 4, 4, 4, 3]) 64 := ⟨by decide, by decide, fit⟩
  have dcd : decodeM w = checked w [(0, 29), (36, 4), (44, 7)] [] (.mwr (field 8 w 55) (field 16 w 51) (field 16 w 40) (field 16 w 32) (field 8 w 29)) := by
    unfold decodeM
    rw [show w / 2 ^ 58 = 0x05 from e ▸ pack_top fit]
    rfl
  show decodeM w = _
  rw [dcd, field_of (x := acc) (len := 3) rfl ((e ▸ take_pack (lo := 55) (len := 3) g0 rfl : w / 2 ^ 55 % 2 ^ 3 = _)), field_of (x := qa) (len := 4) rfl ((e ▸ take_pack (lo := 51) (len := 4) g0 rfl : w / 2 ^ 51 % 2 ^ 4 = _)), field_of (x := rb) (len := 4) rfl ((e ▸ take_pack (lo := 40) (len := 4) g0 rfl : w / 2 ^ 40 % 2 ^ 4 = _)), field_of (x := g) (len := 4) rfl ((e ▸ take_pack (lo := 32) (len := 4) g0 rfl : w / 2 ^ 32 % 2 ^ 4 = _)), field_of (x := f) (len := 3) rfl ((e ▸ take_pack (lo := 29) (len := 3) g0 rfl : w / 2 ^ 29 % 2 ^ 3 = _))]
  exact checked_of hwf (zero_cons ((e ▸ take_pack (lo := 0) (len := 29) g0 rfl : w / 2 ^ 0 % 2 ^ 29 = _)) (zero_cons ((e ▸ take_pack (lo := 36) (len := 4) g0 rfl : w / 2 ^ 36 % 2 ^ 4 = _)) (zero_cons ((e ▸ take_pack (lo := 44) (len := 7) g0 rfl : w / 2 ^ 44 % 2 ^ 7 = _)) rfl))) rfl

theorem Encoding.mbias (acc : Fin 8) (qa : Fin 16) (rb : Fin 16) (g : Fin 16) (f : Fin 8) : Encoding.Statement (.mbias acc qa rb g f) := by
  intro hwf u w hunit henc
  cases hunit
  have e : pack ((0x06, 58) :: [(acc.val, 55), (qa.val, 51), (rb.val, 40), (g.val, 32), (f.val, 29)]) = w := Option.some.inj henc
  have fit : Fits [(acc.val, 55), (qa.val, 51), (rb.val, 40), (g.val, 32), (f.val, 29)] [3, 4, 4, 4, 3] 58 := ⟨acc.isLt, by decide, ⟨qa.isLt, by decide, ⟨rb.isLt, by decide, ⟨g.isLt, by decide, ⟨f.isLt, by decide, trivial⟩⟩⟩⟩⟩
  have g0 : Fits ((0x06, 58) :: [(acc.val, 55), (qa.val, 51), (rb.val, 40), (g.val, 32), (f.val, 29)]) (6 :: [3, 4, 4, 4, 3]) 64 := ⟨by decide, by decide, fit⟩
  have dcd : decodeM w = checked w [(0, 29), (36, 4), (44, 7)] [] (.mbias (field 8 w 55) (field 16 w 51) (field 16 w 40) (field 16 w 32) (field 8 w 29)) := by
    unfold decodeM
    rw [show w / 2 ^ 58 = 0x06 from e ▸ pack_top fit]
    rfl
  show decodeM w = _
  rw [dcd, field_of (x := acc) (len := 3) rfl ((e ▸ take_pack (lo := 55) (len := 3) g0 rfl : w / 2 ^ 55 % 2 ^ 3 = _)), field_of (x := qa) (len := 4) rfl ((e ▸ take_pack (lo := 51) (len := 4) g0 rfl : w / 2 ^ 51 % 2 ^ 4 = _)), field_of (x := rb) (len := 4) rfl ((e ▸ take_pack (lo := 40) (len := 4) g0 rfl : w / 2 ^ 40 % 2 ^ 4 = _)), field_of (x := g) (len := 4) rfl ((e ▸ take_pack (lo := 32) (len := 4) g0 rfl : w / 2 ^ 32 % 2 ^ 4 = _)), field_of (x := f) (len := 3) rfl ((e ▸ take_pack (lo := 29) (len := 3) g0 rfl : w / 2 ^ 29 % 2 ^ 3 = _))]
  exact checked_of hwf (zero_cons ((e ▸ take_pack (lo := 0) (len := 29) g0 rfl : w / 2 ^ 0 % 2 ^ 29 = _)) (zero_cons ((e ▸ take_pack (lo := 36) (len := 4) g0 rfl : w / 2 ^ 36 % 2 ^ 4 = _)) (zero_cons ((e ▸ take_pack (lo := 44) (len := 7) g0 rfl : w / 2 ^ 44 % 2 ^ 7 = _)) rfl))) rfl

theorem Encoding.xput (s : Fin 64) (i : Fin 128) (wid : Fin 8) (g : Fin 16) : Encoding.Statement (.xput s i wid g) := by
  intro hwf u w hunit henc
  cases hunit
  have e : pack ((0x01, 28) :: [(s.val, 22), (i.val, 15), (wid.val, 12), (g.val, 0)]) = w := Option.some.inj henc
  have fit : Fits [(s.val, 22), (i.val, 15), (wid.val, 12), (g.val, 0)] [6, 7, 3, 4] 28 := ⟨s.isLt, by decide, ⟨i.isLt, by decide, ⟨wid.isLt, by decide, ⟨g.isLt, by decide, trivial⟩⟩⟩⟩
  have g0 : Fits ((0x01, 28) :: [(s.val, 22), (i.val, 15), (wid.val, 12), (g.val, 0)]) (4 :: [6, 7, 3, 4]) 32 := ⟨by decide, by decide, fit⟩
  have dcd : decodeX w = checked w [(4, 8)] [] (.xput (field 64 w 22) (field 128 w 15) (field 8 w 12) (field 16 w 0)) := by
    unfold decodeX
    rw [show w / 2 ^ 28 = 0x01 from e ▸ pack_top fit]
    rfl
  show decodeX w = _
  rw [dcd, field_of (x := s) (len := 6) rfl ((e ▸ take_pack (lo := 22) (len := 6) g0 rfl : w / 2 ^ 22 % 2 ^ 6 = _)), field_of (x := i) (len := 7) rfl ((e ▸ take_pack (lo := 15) (len := 7) g0 rfl : w / 2 ^ 15 % 2 ^ 7 = _)), field_of (x := wid) (len := 3) rfl ((e ▸ take_pack (lo := 12) (len := 3) g0 rfl : w / 2 ^ 12 % 2 ^ 3 = _)), field_of (x := g) (len := 4) rfl ((e ▸ take_pack (lo := 0) (len := 4) g0 rfl : w / 2 ^ 0 % 2 ^ 4 = _))]
  exact checked_of hwf (zero_cons ((e ▸ take_pack (lo := 4) (len := 8) g0 rfl : w / 2 ^ 4 % 2 ^ 8 = _)) rfl) rfl

theorem Encoding.xget (s : Fin 64) (i : Fin 128) (wid : Fin 8) (g : Fin 16) : Encoding.Statement (.xget s i wid g) := by
  intro hwf u w hunit henc
  cases hunit
  have e : pack ((0x02, 28) :: [(s.val, 22), (i.val, 15), (wid.val, 12), (g.val, 0)]) = w := Option.some.inj henc
  have fit : Fits [(s.val, 22), (i.val, 15), (wid.val, 12), (g.val, 0)] [6, 7, 3, 4] 28 := ⟨s.isLt, by decide, ⟨i.isLt, by decide, ⟨wid.isLt, by decide, ⟨g.isLt, by decide, trivial⟩⟩⟩⟩
  have g0 : Fits ((0x02, 28) :: [(s.val, 22), (i.val, 15), (wid.val, 12), (g.val, 0)]) (4 :: [6, 7, 3, 4]) 32 := ⟨by decide, by decide, fit⟩
  have dcd : decodeX w = checked w [(4, 8)] [] (.xget (field 64 w 22) (field 128 w 15) (field 8 w 12) (field 16 w 0)) := by
    unfold decodeX
    rw [show w / 2 ^ 28 = 0x02 from e ▸ pack_top fit]
    rfl
  show decodeX w = _
  rw [dcd, field_of (x := s) (len := 6) rfl ((e ▸ take_pack (lo := 22) (len := 6) g0 rfl : w / 2 ^ 22 % 2 ^ 6 = _)), field_of (x := i) (len := 7) rfl ((e ▸ take_pack (lo := 15) (len := 7) g0 rfl : w / 2 ^ 15 % 2 ^ 7 = _)), field_of (x := wid) (len := 3) rfl ((e ▸ take_pack (lo := 12) (len := 3) g0 rfl : w / 2 ^ 12 % 2 ^ 3 = _)), field_of (x := g) (len := 4) rfl ((e ▸ take_pack (lo := 0) (len := 4) g0 rfl : w / 2 ^ 0 % 2 ^ 4 = _))]
  exact checked_of hwf (zero_cons ((e ▸ take_pack (lo := 4) (len := 8) g0 rfl : w / 2 ^ 4 % 2 ^ 8 = _)) rfl) rfl

theorem Encoding.xclr (g : Fin 16) : Encoding.Statement (.xclr g) := by
  intro hwf u w hunit henc
  cases hunit
  have e : pack ((0x03, 28) :: [(g.val, 0)]) = w := Option.some.inj henc
  have fit : Fits [(g.val, 0)] [4] 28 := ⟨g.isLt, by decide, trivial⟩
  have g0 : Fits ((0x03, 28) :: [(g.val, 0)]) (4 :: [4]) 32 := ⟨by decide, by decide, fit⟩
  have dcd : decodeX w = checked w [(4, 24)] [] (.xclr (field 16 w 0)) := by
    unfold decodeX
    rw [show w / 2 ^ 28 = 0x03 from e ▸ pack_top fit]
    rfl
  show decodeX w = _
  rw [dcd, field_of (x := g) (len := 4) rfl ((e ▸ take_pack (lo := 0) (len := 4) g0 rfl : w / 2 ^ 0 % 2 ^ 4 = _))]
  exact checked_of hwf (zero_cons ((e ▸ take_pack (lo := 4) (len := 24) g0 rfl : w / 2 ^ 4 % 2 ^ 24 = _)) rfl) rfl

theorem Encoding.cdset (g : Fin 16) (d : Fin 16) (sa : Fin 64) (wid : Fin 8) : Encoding.Statement (.cdset g d sa wid) := by
  intro hwf u w hunit henc
  cases hunit
  have e : pack ((0x01, 57) :: [(g.val, 53), (d.val, 40), (sa.val, 30), (wid.val, 15)]) = w := Option.some.inj henc
  have fit : Fits [(g.val, 53), (d.val, 40), (sa.val, 30), (wid.val, 15)] [4, 4, 6, 3] 57 := ⟨g.isLt, by decide, ⟨d.isLt, by decide, ⟨sa.isLt, by decide, ⟨wid.isLt, by decide, trivial⟩⟩⟩⟩
  have g0 : Fits ((0x01, 57) :: [(g.val, 53), (d.val, 40), (sa.val, 30), (wid.val, 15)]) (7 :: [4, 4, 6, 3]) 64 := ⟨by decide, by decide, fit⟩
  have dcd : decodeC w = checked w [(0, 15), (18, 12), (36, 4), (44, 9)] [] (.cdset (field 16 w 53) (field 16 w 40) (field 64 w 30) (field 8 w 15)) := by
    unfold decodeC
    rw [show w / 2 ^ 57 = 0x01 from e ▸ pack_top fit]
    rfl
  show decodeC w = _
  rw [dcd, field_of (x := g) (len := 4) rfl ((e ▸ take_pack (lo := 53) (len := 4) g0 rfl : w / 2 ^ 53 % 2 ^ 4 = _)), field_of (x := d) (len := 4) rfl ((e ▸ take_pack (lo := 40) (len := 4) g0 rfl : w / 2 ^ 40 % 2 ^ 4 = _)), field_of (x := sa) (len := 6) rfl ((e ▸ take_pack (lo := 30) (len := 6) g0 rfl : w / 2 ^ 30 % 2 ^ 6 = _)), field_of (x := wid) (len := 3) rfl ((e ▸ take_pack (lo := 15) (len := 3) g0 rfl : w / 2 ^ 15 % 2 ^ 3 = _))]
  exact checked_of hwf (zero_cons ((e ▸ take_pack (lo := 0) (len := 15) g0 rfl : w / 2 ^ 0 % 2 ^ 15 = _)) (zero_cons ((e ▸ take_pack (lo := 18) (len := 12) g0 rfl : w / 2 ^ 18 % 2 ^ 12 = _)) (zero_cons ((e ▸ take_pack (lo := 36) (len := 4) g0 rfl : w / 2 ^ 36 % 2 ^ 4 = _)) (zero_cons ((e ▸ take_pack (lo := 44) (len := 9) g0 rfl : w / 2 ^ 44 % 2 ^ 9 = _)) rfl)))) rfl

theorem Encoding.cget (g : Fin 16) (b : Fin 16) (o : Fin 4) (c : Fin 8) (d : Fin 16) (x : Fin 16) (sa : Fin 64) (sb : Fin 64) (sc : Fin 64) (wid : Fin 8) (i : Fin 32768) : Encoding.Statement (.cget g b o c d x sa sb sc wid i) := by
  intro hwf u w hunit henc
  cases hunit
  have e : pack ((0x02, 57) :: [(g.val, 53), (b.val, 49), (o.val, 47), (c.val, 44), (d.val, 40), (x.val, 36), (sa.val, 30), (sb.val, 24), (sc.val, 18), (wid.val, 15), (i.val, 0)]) = w := Option.some.inj henc
  have fit : Fits [(g.val, 53), (b.val, 49), (o.val, 47), (c.val, 44), (d.val, 40), (x.val, 36), (sa.val, 30), (sb.val, 24), (sc.val, 18), (wid.val, 15), (i.val, 0)] [4, 4, 2, 3, 4, 4, 6, 6, 6, 3, 15] 57 := ⟨g.isLt, by decide, ⟨b.isLt, by decide, ⟨o.isLt, by decide, ⟨c.isLt, by decide, ⟨d.isLt, by decide, ⟨x.isLt, by decide, ⟨sa.isLt, by decide, ⟨sb.isLt, by decide, ⟨sc.isLt, by decide, ⟨wid.isLt, by decide, ⟨i.isLt, by decide, trivial⟩⟩⟩⟩⟩⟩⟩⟩⟩⟩⟩
  have g0 : Fits ((0x02, 57) :: [(g.val, 53), (b.val, 49), (o.val, 47), (c.val, 44), (d.val, 40), (x.val, 36), (sa.val, 30), (sb.val, 24), (sc.val, 18), (wid.val, 15), (i.val, 0)]) (7 :: [4, 4, 2, 3, 4, 4, 6, 6, 6, 3, 15]) 64 := ⟨by decide, by decide, fit⟩
  have dcd : decodeC w = checked w [] [] (.cget (field 16 w 53) (field 16 w 49) (field 4 w 47) (field 8 w 44) (field 16 w 40) (field 16 w 36) (field 64 w 30) (field 64 w 24) (field 64 w 18) (field 8 w 15) (field 32768 w 0)) := by
    unfold decodeC
    rw [show w / 2 ^ 57 = 0x02 from e ▸ pack_top fit]
    rfl
  show decodeC w = _
  rw [dcd, field_of (x := g) (len := 4) rfl ((e ▸ take_pack (lo := 53) (len := 4) g0 rfl : w / 2 ^ 53 % 2 ^ 4 = _)), field_of (x := b) (len := 4) rfl ((e ▸ take_pack (lo := 49) (len := 4) g0 rfl : w / 2 ^ 49 % 2 ^ 4 = _)), field_of (x := o) (len := 2) rfl ((e ▸ take_pack (lo := 47) (len := 2) g0 rfl : w / 2 ^ 47 % 2 ^ 2 = _)), field_of (x := c) (len := 3) rfl ((e ▸ take_pack (lo := 44) (len := 3) g0 rfl : w / 2 ^ 44 % 2 ^ 3 = _)), field_of (x := d) (len := 4) rfl ((e ▸ take_pack (lo := 40) (len := 4) g0 rfl : w / 2 ^ 40 % 2 ^ 4 = _)), field_of (x := x) (len := 4) rfl ((e ▸ take_pack (lo := 36) (len := 4) g0 rfl : w / 2 ^ 36 % 2 ^ 4 = _)), field_of (x := sa) (len := 6) rfl ((e ▸ take_pack (lo := 30) (len := 6) g0 rfl : w / 2 ^ 30 % 2 ^ 6 = _)), field_of (x := sb) (len := 6) rfl ((e ▸ take_pack (lo := 24) (len := 6) g0 rfl : w / 2 ^ 24 % 2 ^ 6 = _)), field_of (x := sc) (len := 6) rfl ((e ▸ take_pack (lo := 18) (len := 6) g0 rfl : w / 2 ^ 18 % 2 ^ 6 = _)), field_of (x := wid) (len := 3) rfl ((e ▸ take_pack (lo := 15) (len := 3) g0 rfl : w / 2 ^ 15 % 2 ^ 3 = _)), field_of (x := i) (len := 15) rfl ((e ▸ take_pack (lo := 0) (len := 15) g0 rfl : w / 2 ^ 0 % 2 ^ 15 = _))]
  exact checked_of hwf rfl rfl

theorem Encoding.cput (g : Fin 16) (b : Fin 16) (o : Fin 4) (c : Fin 8) (d : Fin 16) (x : Fin 16) (sa : Fin 64) (sb : Fin 64) (sc : Fin 64) (wid : Fin 8) (i : Fin 32768) : Encoding.Statement (.cput g b o c d x sa sb sc wid i) := by
  intro hwf u w hunit henc
  cases hunit
  have e : pack ((0x03, 57) :: [(g.val, 53), (b.val, 49), (o.val, 47), (c.val, 44), (d.val, 40), (x.val, 36), (sa.val, 30), (sb.val, 24), (sc.val, 18), (wid.val, 15), (i.val, 0)]) = w := Option.some.inj henc
  have fit : Fits [(g.val, 53), (b.val, 49), (o.val, 47), (c.val, 44), (d.val, 40), (x.val, 36), (sa.val, 30), (sb.val, 24), (sc.val, 18), (wid.val, 15), (i.val, 0)] [4, 4, 2, 3, 4, 4, 6, 6, 6, 3, 15] 57 := ⟨g.isLt, by decide, ⟨b.isLt, by decide, ⟨o.isLt, by decide, ⟨c.isLt, by decide, ⟨d.isLt, by decide, ⟨x.isLt, by decide, ⟨sa.isLt, by decide, ⟨sb.isLt, by decide, ⟨sc.isLt, by decide, ⟨wid.isLt, by decide, ⟨i.isLt, by decide, trivial⟩⟩⟩⟩⟩⟩⟩⟩⟩⟩⟩
  have g0 : Fits ((0x03, 57) :: [(g.val, 53), (b.val, 49), (o.val, 47), (c.val, 44), (d.val, 40), (x.val, 36), (sa.val, 30), (sb.val, 24), (sc.val, 18), (wid.val, 15), (i.val, 0)]) (7 :: [4, 4, 2, 3, 4, 4, 6, 6, 6, 3, 15]) 64 := ⟨by decide, by decide, fit⟩
  have dcd : decodeC w = checked w [] [] (.cput (field 16 w 53) (field 16 w 49) (field 4 w 47) (field 8 w 44) (field 16 w 40) (field 16 w 36) (field 64 w 30) (field 64 w 24) (field 64 w 18) (field 8 w 15) (field 32768 w 0)) := by
    unfold decodeC
    rw [show w / 2 ^ 57 = 0x03 from e ▸ pack_top fit]
    rfl
  show decodeC w = _
  rw [dcd, field_of (x := g) (len := 4) rfl ((e ▸ take_pack (lo := 53) (len := 4) g0 rfl : w / 2 ^ 53 % 2 ^ 4 = _)), field_of (x := b) (len := 4) rfl ((e ▸ take_pack (lo := 49) (len := 4) g0 rfl : w / 2 ^ 49 % 2 ^ 4 = _)), field_of (x := o) (len := 2) rfl ((e ▸ take_pack (lo := 47) (len := 2) g0 rfl : w / 2 ^ 47 % 2 ^ 2 = _)), field_of (x := c) (len := 3) rfl ((e ▸ take_pack (lo := 44) (len := 3) g0 rfl : w / 2 ^ 44 % 2 ^ 3 = _)), field_of (x := d) (len := 4) rfl ((e ▸ take_pack (lo := 40) (len := 4) g0 rfl : w / 2 ^ 40 % 2 ^ 4 = _)), field_of (x := x) (len := 4) rfl ((e ▸ take_pack (lo := 36) (len := 4) g0 rfl : w / 2 ^ 36 % 2 ^ 4 = _)), field_of (x := sa) (len := 6) rfl ((e ▸ take_pack (lo := 30) (len := 6) g0 rfl : w / 2 ^ 30 % 2 ^ 6 = _)), field_of (x := sb) (len := 6) rfl ((e ▸ take_pack (lo := 24) (len := 6) g0 rfl : w / 2 ^ 24 % 2 ^ 6 = _)), field_of (x := sc) (len := 6) rfl ((e ▸ take_pack (lo := 18) (len := 6) g0 rfl : w / 2 ^ 18 % 2 ^ 6 = _)), field_of (x := wid) (len := 3) rfl ((e ▸ take_pack (lo := 15) (len := 3) g0 rfl : w / 2 ^ 15 % 2 ^ 3 = _)), field_of (x := i) (len := 15) rfl ((e ▸ take_pack (lo := 0) (len := 15) g0 rfl : w / 2 ^ 0 % 2 ^ 15 = _))]
  exact checked_of hwf rfl rfl

theorem Encoding.cxfer (g : Fin 16) (b : Fin 16) (o : Fin 4) (c : Fin 8) (d : Fin 16) (sa : Fin 64) (sb : Fin 64) (sc : Fin 64) (i : Fin 32768) : Encoding.Statement (.cxfer g b o c d sa sb sc i) := by
  intro hwf u w hunit henc
  cases hunit
  have e : pack ((0x04, 57) :: [(g.val, 53), (b.val, 49), (o.val, 47), (c.val, 44), (d.val, 40), (sa.val, 30), (sb.val, 24), (sc.val, 18), (i.val, 0)]) = w := Option.some.inj henc
  have fit : Fits [(g.val, 53), (b.val, 49), (o.val, 47), (c.val, 44), (d.val, 40), (sa.val, 30), (sb.val, 24), (sc.val, 18), (i.val, 0)] [4, 4, 2, 3, 4, 6, 6, 6, 15] 57 := ⟨g.isLt, by decide, ⟨b.isLt, by decide, ⟨o.isLt, by decide, ⟨c.isLt, by decide, ⟨d.isLt, by decide, ⟨sa.isLt, by decide, ⟨sb.isLt, by decide, ⟨sc.isLt, by decide, ⟨i.isLt, by decide, trivial⟩⟩⟩⟩⟩⟩⟩⟩⟩
  have g0 : Fits ((0x04, 57) :: [(g.val, 53), (b.val, 49), (o.val, 47), (c.val, 44), (d.val, 40), (sa.val, 30), (sb.val, 24), (sc.val, 18), (i.val, 0)]) (7 :: [4, 4, 2, 3, 4, 6, 6, 6, 15]) 64 := ⟨by decide, by decide, fit⟩
  have dcd : decodeC w = checked w [(15, 3), (36, 4)] [] (.cxfer (field 16 w 53) (field 16 w 49) (field 4 w 47) (field 8 w 44) (field 16 w 40) (field 64 w 30) (field 64 w 24) (field 64 w 18) (field 32768 w 0)) := by
    unfold decodeC
    rw [show w / 2 ^ 57 = 0x04 from e ▸ pack_top fit]
    rfl
  show decodeC w = _
  rw [dcd, field_of (x := g) (len := 4) rfl ((e ▸ take_pack (lo := 53) (len := 4) g0 rfl : w / 2 ^ 53 % 2 ^ 4 = _)), field_of (x := b) (len := 4) rfl ((e ▸ take_pack (lo := 49) (len := 4) g0 rfl : w / 2 ^ 49 % 2 ^ 4 = _)), field_of (x := o) (len := 2) rfl ((e ▸ take_pack (lo := 47) (len := 2) g0 rfl : w / 2 ^ 47 % 2 ^ 2 = _)), field_of (x := c) (len := 3) rfl ((e ▸ take_pack (lo := 44) (len := 3) g0 rfl : w / 2 ^ 44 % 2 ^ 3 = _)), field_of (x := d) (len := 4) rfl ((e ▸ take_pack (lo := 40) (len := 4) g0 rfl : w / 2 ^ 40 % 2 ^ 4 = _)), field_of (x := sa) (len := 6) rfl ((e ▸ take_pack (lo := 30) (len := 6) g0 rfl : w / 2 ^ 30 % 2 ^ 6 = _)), field_of (x := sb) (len := 6) rfl ((e ▸ take_pack (lo := 24) (len := 6) g0 rfl : w / 2 ^ 24 % 2 ^ 6 = _)), field_of (x := sc) (len := 6) rfl ((e ▸ take_pack (lo := 18) (len := 6) g0 rfl : w / 2 ^ 18 % 2 ^ 6 = _)), field_of (x := i) (len := 15) rfl ((e ▸ take_pack (lo := 0) (len := 15) g0 rfl : w / 2 ^ 0 % 2 ^ 15 = _))]
  exact checked_of hwf (zero_cons ((e ▸ take_pack (lo := 15) (len := 3) g0 rfl : w / 2 ^ 15 % 2 ^ 3 = _)) (zero_cons ((e ▸ take_pack (lo := 36) (len := 4) g0 rfl : w / 2 ^ 36 % 2 ^ 4 = _)) rfl)) rfl

theorem Encoding.cfill (g : Fin 16) (b : Fin 16) (o : Fin 4) (c : Fin 8) (d : Fin 16) (sa : Fin 64) (sb : Fin 64) (sc : Fin 64) (wid : Fin 2) (i : Fin 32768) : Encoding.Statement (.cfill g b o c d sa sb sc wid i) := by
  intro hwf u w hunit henc
  cases hunit
  have e : pack ((0x05, 57) :: [(g.val, 53), (b.val, 49), (o.val, 47), (c.val, 44), (d.val, 40), (sa.val, 30), (sb.val, 24), (sc.val, 18), (wid.val, 15), (i.val, 0)]) = w := Option.some.inj henc
  have fit : Fits [(g.val, 53), (b.val, 49), (o.val, 47), (c.val, 44), (d.val, 40), (sa.val, 30), (sb.val, 24), (sc.val, 18), (wid.val, 15), (i.val, 0)] [4, 4, 2, 3, 4, 6, 6, 6, 1, 15] 57 := ⟨g.isLt, by decide, ⟨b.isLt, by decide, ⟨o.isLt, by decide, ⟨c.isLt, by decide, ⟨d.isLt, by decide, ⟨sa.isLt, by decide, ⟨sb.isLt, by decide, ⟨sc.isLt, by decide, ⟨wid.isLt, by decide, ⟨i.isLt, by decide, trivial⟩⟩⟩⟩⟩⟩⟩⟩⟩⟩
  have g0 : Fits ((0x05, 57) :: [(g.val, 53), (b.val, 49), (o.val, 47), (c.val, 44), (d.val, 40), (sa.val, 30), (sb.val, 24), (sc.val, 18), (wid.val, 15), (i.val, 0)]) (7 :: [4, 4, 2, 3, 4, 6, 6, 6, 1, 15]) 64 := ⟨by decide, by decide, fit⟩
  have dcd : decodeC w = checked w [(16, 2), (36, 4)] [] (.cfill (field 16 w 53) (field 16 w 49) (field 4 w 47) (field 8 w 44) (field 16 w 40) (field 64 w 30) (field 64 w 24) (field 64 w 18) (field 2 w 15) (field 32768 w 0)) := by
    unfold decodeC
    rw [show w / 2 ^ 57 = 0x05 from e ▸ pack_top fit]
    rfl
  show decodeC w = _
  rw [dcd, field_of (x := g) (len := 4) rfl ((e ▸ take_pack (lo := 53) (len := 4) g0 rfl : w / 2 ^ 53 % 2 ^ 4 = _)), field_of (x := b) (len := 4) rfl ((e ▸ take_pack (lo := 49) (len := 4) g0 rfl : w / 2 ^ 49 % 2 ^ 4 = _)), field_of (x := o) (len := 2) rfl ((e ▸ take_pack (lo := 47) (len := 2) g0 rfl : w / 2 ^ 47 % 2 ^ 2 = _)), field_of (x := c) (len := 3) rfl ((e ▸ take_pack (lo := 44) (len := 3) g0 rfl : w / 2 ^ 44 % 2 ^ 3 = _)), field_of (x := d) (len := 4) rfl ((e ▸ take_pack (lo := 40) (len := 4) g0 rfl : w / 2 ^ 40 % 2 ^ 4 = _)), field_of (x := sa) (len := 6) rfl ((e ▸ take_pack (lo := 30) (len := 6) g0 rfl : w / 2 ^ 30 % 2 ^ 6 = _)), field_of (x := sb) (len := 6) rfl ((e ▸ take_pack (lo := 24) (len := 6) g0 rfl : w / 2 ^ 24 % 2 ^ 6 = _)), field_of (x := sc) (len := 6) rfl ((e ▸ take_pack (lo := 18) (len := 6) g0 rfl : w / 2 ^ 18 % 2 ^ 6 = _)), field_of (x := wid) (len := 1) rfl ((e ▸ take_pack (lo := 15) (len := 1) g0 rfl : w / 2 ^ 15 % 2 ^ 1 = _)), field_of (x := i) (len := 15) rfl ((e ▸ take_pack (lo := 0) (len := 15) g0 rfl : w / 2 ^ 0 % 2 ^ 15 = _))]
  exact checked_of hwf (zero_cons ((e ▸ take_pack (lo := 16) (len := 2) g0 rfl : w / 2 ^ 16 % 2 ^ 2 = _)) (zero_cons ((e ▸ take_pack (lo := 36) (len := 4) g0 rfl : w / 2 ^ 36 % 2 ^ 4 = _)) rfl)) rfl

theorem Encoding.ctouch (g : Fin 16) (b : Fin 16) (o : Fin 4) (c : Fin 8) (sa : Fin 64) (sb : Fin 64) (i : Fin 32768) : Encoding.Statement (.ctouch g b o c sa sb i) := by
  intro hwf u w hunit henc
  cases hunit
  have e : pack ((0x06, 57) :: [(g.val, 53), (b.val, 49), (o.val, 47), (c.val, 44), (sa.val, 30), (sb.val, 24), (i.val, 0)]) = w := Option.some.inj henc
  have fit : Fits [(g.val, 53), (b.val, 49), (o.val, 47), (c.val, 44), (sa.val, 30), (sb.val, 24), (i.val, 0)] [4, 4, 2, 3, 6, 6, 15] 57 := ⟨g.isLt, by decide, ⟨b.isLt, by decide, ⟨o.isLt, by decide, ⟨c.isLt, by decide, ⟨sa.isLt, by decide, ⟨sb.isLt, by decide, ⟨i.isLt, by decide, trivial⟩⟩⟩⟩⟩⟩⟩
  have g0 : Fits ((0x06, 57) :: [(g.val, 53), (b.val, 49), (o.val, 47), (c.val, 44), (sa.val, 30), (sb.val, 24), (i.val, 0)]) (7 :: [4, 4, 2, 3, 6, 6, 15]) 64 := ⟨by decide, by decide, fit⟩
  have dcd : decodeC w = checked w [(15, 9), (36, 8)] [] (.ctouch (field 16 w 53) (field 16 w 49) (field 4 w 47) (field 8 w 44) (field 64 w 30) (field 64 w 24) (field 32768 w 0)) := by
    unfold decodeC
    rw [show w / 2 ^ 57 = 0x06 from e ▸ pack_top fit]
    rfl
  show decodeC w = _
  rw [dcd, field_of (x := g) (len := 4) rfl ((e ▸ take_pack (lo := 53) (len := 4) g0 rfl : w / 2 ^ 53 % 2 ^ 4 = _)), field_of (x := b) (len := 4) rfl ((e ▸ take_pack (lo := 49) (len := 4) g0 rfl : w / 2 ^ 49 % 2 ^ 4 = _)), field_of (x := o) (len := 2) rfl ((e ▸ take_pack (lo := 47) (len := 2) g0 rfl : w / 2 ^ 47 % 2 ^ 2 = _)), field_of (x := c) (len := 3) rfl ((e ▸ take_pack (lo := 44) (len := 3) g0 rfl : w / 2 ^ 44 % 2 ^ 3 = _)), field_of (x := sa) (len := 6) rfl ((e ▸ take_pack (lo := 30) (len := 6) g0 rfl : w / 2 ^ 30 % 2 ^ 6 = _)), field_of (x := sb) (len := 6) rfl ((e ▸ take_pack (lo := 24) (len := 6) g0 rfl : w / 2 ^ 24 % 2 ^ 6 = _)), field_of (x := i) (len := 15) rfl ((e ▸ take_pack (lo := 0) (len := 15) g0 rfl : w / 2 ^ 0 % 2 ^ 15 = _))]
  exact checked_of hwf (zero_cons ((e ▸ take_pack (lo := 15) (len := 9) g0 rfl : w / 2 ^ 15 % 2 ^ 9 = _)) (zero_cons ((e ▸ take_pack (lo := 36) (len := 8) g0 rfl : w / 2 ^ 36 % 2 ^ 8 = _)) rfl)) rfl

theorem Encoding.cflush (g : Fin 16) (b : Fin 16) (o : Fin 4) (c : Fin 8) (sa : Fin 64) (sb : Fin 64) (i : Fin 32768) : Encoding.Statement (.cflush g b o c sa sb i) := by
  intro hwf u w hunit henc
  cases hunit
  have e : pack ((0x07, 57) :: [(g.val, 53), (b.val, 49), (o.val, 47), (c.val, 44), (sa.val, 30), (sb.val, 24), (i.val, 0)]) = w := Option.some.inj henc
  have fit : Fits [(g.val, 53), (b.val, 49), (o.val, 47), (c.val, 44), (sa.val, 30), (sb.val, 24), (i.val, 0)] [4, 4, 2, 3, 6, 6, 15] 57 := ⟨g.isLt, by decide, ⟨b.isLt, by decide, ⟨o.isLt, by decide, ⟨c.isLt, by decide, ⟨sa.isLt, by decide, ⟨sb.isLt, by decide, ⟨i.isLt, by decide, trivial⟩⟩⟩⟩⟩⟩⟩
  have g0 : Fits ((0x07, 57) :: [(g.val, 53), (b.val, 49), (o.val, 47), (c.val, 44), (sa.val, 30), (sb.val, 24), (i.val, 0)]) (7 :: [4, 4, 2, 3, 6, 6, 15]) 64 := ⟨by decide, by decide, fit⟩
  have dcd : decodeC w = checked w [(15, 9), (36, 8)] [] (.cflush (field 16 w 53) (field 16 w 49) (field 4 w 47) (field 8 w 44) (field 64 w 30) (field 64 w 24) (field 32768 w 0)) := by
    unfold decodeC
    rw [show w / 2 ^ 57 = 0x07 from e ▸ pack_top fit]
    rfl
  show decodeC w = _
  rw [dcd, field_of (x := g) (len := 4) rfl ((e ▸ take_pack (lo := 53) (len := 4) g0 rfl : w / 2 ^ 53 % 2 ^ 4 = _)), field_of (x := b) (len := 4) rfl ((e ▸ take_pack (lo := 49) (len := 4) g0 rfl : w / 2 ^ 49 % 2 ^ 4 = _)), field_of (x := o) (len := 2) rfl ((e ▸ take_pack (lo := 47) (len := 2) g0 rfl : w / 2 ^ 47 % 2 ^ 2 = _)), field_of (x := c) (len := 3) rfl ((e ▸ take_pack (lo := 44) (len := 3) g0 rfl : w / 2 ^ 44 % 2 ^ 3 = _)), field_of (x := sa) (len := 6) rfl ((e ▸ take_pack (lo := 30) (len := 6) g0 rfl : w / 2 ^ 30 % 2 ^ 6 = _)), field_of (x := sb) (len := 6) rfl ((e ▸ take_pack (lo := 24) (len := 6) g0 rfl : w / 2 ^ 24 % 2 ^ 6 = _)), field_of (x := i) (len := 15) rfl ((e ▸ take_pack (lo := 0) (len := 15) g0 rfl : w / 2 ^ 0 % 2 ^ 15 = _))]
  exact checked_of hwf (zero_cons ((e ▸ take_pack (lo := 15) (len := 9) g0 rfl : w / 2 ^ 15 % 2 ^ 9 = _)) (zero_cons ((e ▸ take_pack (lo := 36) (len := 8) g0 rfl : w / 2 ^ 36 % 2 ^ 8 = _)) rfl)) rfl

theorem Encoding.cmap (g : Fin 16) (b : Fin 16) (o : Fin 4) (c : Fin 8) (sa : Fin 64) (i : Fin 16) : Encoding.Statement (.cmap g b o c sa i) := by
  intro hwf u w hunit henc
  cases hunit
  have e : pack ((0x08, 57) :: [(g.val, 53), (b.val, 49), (o.val, 47), (c.val, 44), (sa.val, 30), (i.val, 0)]) = w := Option.some.inj henc
  have fit : Fits [(g.val, 53), (b.val, 49), (o.val, 47), (c.val, 44), (sa.val, 30), (i.val, 0)] [4, 4, 2, 3, 6, 4] 57 := ⟨g.isLt, by decide, ⟨b.isLt, by decide, ⟨o.isLt, by decide, ⟨c.isLt, by decide, ⟨sa.isLt, by decide, ⟨i.isLt, by decide, trivial⟩⟩⟩⟩⟩⟩
  have g0 : Fits ((0x08, 57) :: [(g.val, 53), (b.val, 49), (o.val, 47), (c.val, 44), (sa.val, 30), (i.val, 0)]) (7 :: [4, 4, 2, 3, 6, 4]) 64 := ⟨by decide, by decide, fit⟩
  have dcd : decodeC w = checked w [(4, 26), (36, 8)] [] (.cmap (field 16 w 53) (field 16 w 49) (field 4 w 47) (field 8 w 44) (field 64 w 30) (field 16 w 0)) := by
    unfold decodeC
    rw [show w / 2 ^ 57 = 0x08 from e ▸ pack_top fit]
    rfl
  show decodeC w = _
  rw [dcd, field_of (x := g) (len := 4) rfl ((e ▸ take_pack (lo := 53) (len := 4) g0 rfl : w / 2 ^ 53 % 2 ^ 4 = _)), field_of (x := b) (len := 4) rfl ((e ▸ take_pack (lo := 49) (len := 4) g0 rfl : w / 2 ^ 49 % 2 ^ 4 = _)), field_of (x := o) (len := 2) rfl ((e ▸ take_pack (lo := 47) (len := 2) g0 rfl : w / 2 ^ 47 % 2 ^ 2 = _)), field_of (x := c) (len := 3) rfl ((e ▸ take_pack (lo := 44) (len := 3) g0 rfl : w / 2 ^ 44 % 2 ^ 3 = _)), field_of (x := sa) (len := 6) rfl ((e ▸ take_pack (lo := 30) (len := 6) g0 rfl : w / 2 ^ 30 % 2 ^ 6 = _)), field_of (x := i) (len := 4) rfl ((e ▸ take_pack (lo := 0) (len := 4) g0 rfl : w / 2 ^ 0 % 2 ^ 4 = _))]
  exact checked_of hwf (zero_cons ((e ▸ take_pack (lo := 4) (len := 26) g0 rfl : w / 2 ^ 4 % 2 ^ 26 = _)) (zero_cons ((e ▸ take_pack (lo := 36) (len := 8) g0 rfl : w / 2 ^ 36 % 2 ^ 8 = _)) rfl)) rfl

theorem Encoding.cmigr (g : Fin 16) (b : Fin 16) (o : Fin 4) (c : Fin 8) (sa : Fin 64) (sb : Fin 64) (sc : Fin 64) (wid : Fin 8) : Encoding.Statement (.cmigr g b o c sa sb sc wid) := by
  intro hwf u w hunit henc
  cases hunit
  have e : pack ((0x09, 57) :: [(g.val, 53), (b.val, 49), (o.val, 47), (c.val, 44), (sa.val, 30), (sb.val, 24), (sc.val, 18), (wid.val, 15)]) = w := Option.some.inj henc
  have fit : Fits [(g.val, 53), (b.val, 49), (o.val, 47), (c.val, 44), (sa.val, 30), (sb.val, 24), (sc.val, 18), (wid.val, 15)] [4, 4, 2, 3, 6, 6, 6, 3] 57 := ⟨g.isLt, by decide, ⟨b.isLt, by decide, ⟨o.isLt, by decide, ⟨c.isLt, by decide, ⟨sa.isLt, by decide, ⟨sb.isLt, by decide, ⟨sc.isLt, by decide, ⟨wid.isLt, by decide, trivial⟩⟩⟩⟩⟩⟩⟩⟩
  have g0 : Fits ((0x09, 57) :: [(g.val, 53), (b.val, 49), (o.val, 47), (c.val, 44), (sa.val, 30), (sb.val, 24), (sc.val, 18), (wid.val, 15)]) (7 :: [4, 4, 2, 3, 6, 6, 6, 3]) 64 := ⟨by decide, by decide, fit⟩
  have dcd : decodeC w = checked w [(0, 15), (36, 8)] [] (.cmigr (field 16 w 53) (field 16 w 49) (field 4 w 47) (field 8 w 44) (field 64 w 30) (field 64 w 24) (field 64 w 18) (field 8 w 15)) := by
    unfold decodeC
    rw [show w / 2 ^ 57 = 0x09 from e ▸ pack_top fit]
    rfl
  show decodeC w = _
  rw [dcd, field_of (x := g) (len := 4) rfl ((e ▸ take_pack (lo := 53) (len := 4) g0 rfl : w / 2 ^ 53 % 2 ^ 4 = _)), field_of (x := b) (len := 4) rfl ((e ▸ take_pack (lo := 49) (len := 4) g0 rfl : w / 2 ^ 49 % 2 ^ 4 = _)), field_of (x := o) (len := 2) rfl ((e ▸ take_pack (lo := 47) (len := 2) g0 rfl : w / 2 ^ 47 % 2 ^ 2 = _)), field_of (x := c) (len := 3) rfl ((e ▸ take_pack (lo := 44) (len := 3) g0 rfl : w / 2 ^ 44 % 2 ^ 3 = _)), field_of (x := sa) (len := 6) rfl ((e ▸ take_pack (lo := 30) (len := 6) g0 rfl : w / 2 ^ 30 % 2 ^ 6 = _)), field_of (x := sb) (len := 6) rfl ((e ▸ take_pack (lo := 24) (len := 6) g0 rfl : w / 2 ^ 24 % 2 ^ 6 = _)), field_of (x := sc) (len := 6) rfl ((e ▸ take_pack (lo := 18) (len := 6) g0 rfl : w / 2 ^ 18 % 2 ^ 6 = _)), field_of (x := wid) (len := 3) rfl ((e ▸ take_pack (lo := 15) (len := 3) g0 rfl : w / 2 ^ 15 % 2 ^ 3 = _))]
  exact checked_of hwf (zero_cons ((e ▸ take_pack (lo := 0) (len := 15) g0 rfl : w / 2 ^ 0 % 2 ^ 15 = _)) (zero_cons ((e ▸ take_pack (lo := 36) (len := 8) g0 rfl : w / 2 ^ 36 % 2 ^ 8 = _)) rfl)) rfl

theorem Encoding.cpfx (g : Fin 16) (b : Fin 16) (sa : Fin 64) (sb : Fin 64) : Encoding.Statement (.cpfx g b sa sb) := by
  intro hwf u w hunit henc
  cases hunit
  have e : pack ((0x0A, 57) :: [(g.val, 53), (b.val, 49), (sa.val, 30), (sb.val, 24)]) = w := Option.some.inj henc
  have fit : Fits [(g.val, 53), (b.val, 49), (sa.val, 30), (sb.val, 24)] [4, 4, 6, 6] 57 := ⟨g.isLt, by decide, ⟨b.isLt, by decide, ⟨sa.isLt, by decide, ⟨sb.isLt, by decide, trivial⟩⟩⟩⟩
  have g0 : Fits ((0x0A, 57) :: [(g.val, 53), (b.val, 49), (sa.val, 30), (sb.val, 24)]) (7 :: [4, 4, 6, 6]) 64 := ⟨by decide, by decide, fit⟩
  have dcd : decodeC w = checked w [(0, 24), (36, 13)] [] (.cpfx (field 16 w 53) (field 16 w 49) (field 64 w 30) (field 64 w 24)) := by
    unfold decodeC
    rw [show w / 2 ^ 57 = 0x0A from e ▸ pack_top fit]
    rfl
  show decodeC w = _
  rw [dcd, field_of (x := g) (len := 4) rfl ((e ▸ take_pack (lo := 53) (len := 4) g0 rfl : w / 2 ^ 53 % 2 ^ 4 = _)), field_of (x := b) (len := 4) rfl ((e ▸ take_pack (lo := 49) (len := 4) g0 rfl : w / 2 ^ 49 % 2 ^ 4 = _)), field_of (x := sa) (len := 6) rfl ((e ▸ take_pack (lo := 30) (len := 6) g0 rfl : w / 2 ^ 30 % 2 ^ 6 = _)), field_of (x := sb) (len := 6) rfl ((e ▸ take_pack (lo := 24) (len := 6) g0 rfl : w / 2 ^ 24 % 2 ^ 6 = _))]
  exact checked_of hwf (zero_cons ((e ▸ take_pack (lo := 0) (len := 24) g0 rfl : w / 2 ^ 0 % 2 ^ 24 = _)) (zero_cons ((e ▸ take_pack (lo := 36) (len := 13) g0 rfl : w / 2 ^ 36 % 2 ^ 13 = _)) rfl)) rfl

theorem Encoding.aadd (g : Fin 16) (b : Fin 16) (o : Fin 4) (c : Fin 8) (sa : Fin 64) (sb : Fin 64) (sc : Fin 64) (wid : Fin 8) (i : Fin 32768) : Encoding.Statement (.aadd g b o c sa sb sc wid i) := by
  intro hwf u w hunit henc
  cases hunit
  have e : pack ((0x10, 57) :: [(g.val, 53), (b.val, 49), (o.val, 47), (c.val, 44), (sa.val, 30), (sb.val, 24), (sc.val, 18), (wid.val, 15), (i.val, 0)]) = w := Option.some.inj henc
  have fit : Fits [(g.val, 53), (b.val, 49), (o.val, 47), (c.val, 44), (sa.val, 30), (sb.val, 24), (sc.val, 18), (wid.val, 15), (i.val, 0)] [4, 4, 2, 3, 6, 6, 6, 3, 15] 57 := ⟨g.isLt, by decide, ⟨b.isLt, by decide, ⟨o.isLt, by decide, ⟨c.isLt, by decide, ⟨sa.isLt, by decide, ⟨sb.isLt, by decide, ⟨sc.isLt, by decide, ⟨wid.isLt, by decide, ⟨i.isLt, by decide, trivial⟩⟩⟩⟩⟩⟩⟩⟩⟩
  have g0 : Fits ((0x10, 57) :: [(g.val, 53), (b.val, 49), (o.val, 47), (c.val, 44), (sa.val, 30), (sb.val, 24), (sc.val, 18), (wid.val, 15), (i.val, 0)]) (7 :: [4, 4, 2, 3, 6, 6, 6, 3, 15]) 64 := ⟨by decide, by decide, fit⟩
  have dcd : decodeC w = checked w [(36, 8)] [] (.aadd (field 16 w 53) (field 16 w 49) (field 4 w 47) (field 8 w 44) (field 64 w 30) (field 64 w 24) (field 64 w 18) (field 8 w 15) (field 32768 w 0)) := by
    unfold decodeC
    rw [show w / 2 ^ 57 = 0x10 from e ▸ pack_top fit]
    rfl
  show decodeC w = _
  rw [dcd, field_of (x := g) (len := 4) rfl ((e ▸ take_pack (lo := 53) (len := 4) g0 rfl : w / 2 ^ 53 % 2 ^ 4 = _)), field_of (x := b) (len := 4) rfl ((e ▸ take_pack (lo := 49) (len := 4) g0 rfl : w / 2 ^ 49 % 2 ^ 4 = _)), field_of (x := o) (len := 2) rfl ((e ▸ take_pack (lo := 47) (len := 2) g0 rfl : w / 2 ^ 47 % 2 ^ 2 = _)), field_of (x := c) (len := 3) rfl ((e ▸ take_pack (lo := 44) (len := 3) g0 rfl : w / 2 ^ 44 % 2 ^ 3 = _)), field_of (x := sa) (len := 6) rfl ((e ▸ take_pack (lo := 30) (len := 6) g0 rfl : w / 2 ^ 30 % 2 ^ 6 = _)), field_of (x := sb) (len := 6) rfl ((e ▸ take_pack (lo := 24) (len := 6) g0 rfl : w / 2 ^ 24 % 2 ^ 6 = _)), field_of (x := sc) (len := 6) rfl ((e ▸ take_pack (lo := 18) (len := 6) g0 rfl : w / 2 ^ 18 % 2 ^ 6 = _)), field_of (x := wid) (len := 3) rfl ((e ▸ take_pack (lo := 15) (len := 3) g0 rfl : w / 2 ^ 15 % 2 ^ 3 = _)), field_of (x := i) (len := 15) rfl ((e ▸ take_pack (lo := 0) (len := 15) g0 rfl : w / 2 ^ 0 % 2 ^ 15 = _))]
  exact checked_of hwf (zero_cons ((e ▸ take_pack (lo := 36) (len := 8) g0 rfl : w / 2 ^ 36 % 2 ^ 8 = _)) rfl) rfl

theorem Encoding.afadd (g : Fin 16) (b : Fin 16) (o : Fin 4) (c : Fin 8) (sa : Fin 64) (sb : Fin 64) (sc : Fin 64) (wid : Fin 8) (i : Fin 32768) : Encoding.Statement (.afadd g b o c sa sb sc wid i) := by
  intro hwf u w hunit henc
  cases hunit
  have e : pack ((0x11, 57) :: [(g.val, 53), (b.val, 49), (o.val, 47), (c.val, 44), (sa.val, 30), (sb.val, 24), (sc.val, 18), (wid.val, 15), (i.val, 0)]) = w := Option.some.inj henc
  have fit : Fits [(g.val, 53), (b.val, 49), (o.val, 47), (c.val, 44), (sa.val, 30), (sb.val, 24), (sc.val, 18), (wid.val, 15), (i.val, 0)] [4, 4, 2, 3, 6, 6, 6, 3, 15] 57 := ⟨g.isLt, by decide, ⟨b.isLt, by decide, ⟨o.isLt, by decide, ⟨c.isLt, by decide, ⟨sa.isLt, by decide, ⟨sb.isLt, by decide, ⟨sc.isLt, by decide, ⟨wid.isLt, by decide, ⟨i.isLt, by decide, trivial⟩⟩⟩⟩⟩⟩⟩⟩⟩
  have g0 : Fits ((0x11, 57) :: [(g.val, 53), (b.val, 49), (o.val, 47), (c.val, 44), (sa.val, 30), (sb.val, 24), (sc.val, 18), (wid.val, 15), (i.val, 0)]) (7 :: [4, 4, 2, 3, 6, 6, 6, 3, 15]) 64 := ⟨by decide, by decide, fit⟩
  have dcd : decodeC w = checked w [(36, 8)] [] (.afadd (field 16 w 53) (field 16 w 49) (field 4 w 47) (field 8 w 44) (field 64 w 30) (field 64 w 24) (field 64 w 18) (field 8 w 15) (field 32768 w 0)) := by
    unfold decodeC
    rw [show w / 2 ^ 57 = 0x11 from e ▸ pack_top fit]
    rfl
  show decodeC w = _
  rw [dcd, field_of (x := g) (len := 4) rfl ((e ▸ take_pack (lo := 53) (len := 4) g0 rfl : w / 2 ^ 53 % 2 ^ 4 = _)), field_of (x := b) (len := 4) rfl ((e ▸ take_pack (lo := 49) (len := 4) g0 rfl : w / 2 ^ 49 % 2 ^ 4 = _)), field_of (x := o) (len := 2) rfl ((e ▸ take_pack (lo := 47) (len := 2) g0 rfl : w / 2 ^ 47 % 2 ^ 2 = _)), field_of (x := c) (len := 3) rfl ((e ▸ take_pack (lo := 44) (len := 3) g0 rfl : w / 2 ^ 44 % 2 ^ 3 = _)), field_of (x := sa) (len := 6) rfl ((e ▸ take_pack (lo := 30) (len := 6) g0 rfl : w / 2 ^ 30 % 2 ^ 6 = _)), field_of (x := sb) (len := 6) rfl ((e ▸ take_pack (lo := 24) (len := 6) g0 rfl : w / 2 ^ 24 % 2 ^ 6 = _)), field_of (x := sc) (len := 6) rfl ((e ▸ take_pack (lo := 18) (len := 6) g0 rfl : w / 2 ^ 18 % 2 ^ 6 = _)), field_of (x := wid) (len := 3) rfl ((e ▸ take_pack (lo := 15) (len := 3) g0 rfl : w / 2 ^ 15 % 2 ^ 3 = _)), field_of (x := i) (len := 15) rfl ((e ▸ take_pack (lo := 0) (len := 15) g0 rfl : w / 2 ^ 0 % 2 ^ 15 = _))]
  exact checked_of hwf (zero_cons ((e ▸ take_pack (lo := 36) (len := 8) g0 rfl : w / 2 ^ 36 % 2 ^ 8 = _)) rfl) rfl

theorem Encoding.aand (g : Fin 16) (b : Fin 16) (o : Fin 4) (c : Fin 8) (sa : Fin 64) (sb : Fin 64) (sc : Fin 64) (wid : Fin 8) (i : Fin 32768) : Encoding.Statement (.aand g b o c sa sb sc wid i) := by
  intro hwf u w hunit henc
  cases hunit
  have e : pack ((0x12, 57) :: [(g.val, 53), (b.val, 49), (o.val, 47), (c.val, 44), (sa.val, 30), (sb.val, 24), (sc.val, 18), (wid.val, 15), (i.val, 0)]) = w := Option.some.inj henc
  have fit : Fits [(g.val, 53), (b.val, 49), (o.val, 47), (c.val, 44), (sa.val, 30), (sb.val, 24), (sc.val, 18), (wid.val, 15), (i.val, 0)] [4, 4, 2, 3, 6, 6, 6, 3, 15] 57 := ⟨g.isLt, by decide, ⟨b.isLt, by decide, ⟨o.isLt, by decide, ⟨c.isLt, by decide, ⟨sa.isLt, by decide, ⟨sb.isLt, by decide, ⟨sc.isLt, by decide, ⟨wid.isLt, by decide, ⟨i.isLt, by decide, trivial⟩⟩⟩⟩⟩⟩⟩⟩⟩
  have g0 : Fits ((0x12, 57) :: [(g.val, 53), (b.val, 49), (o.val, 47), (c.val, 44), (sa.val, 30), (sb.val, 24), (sc.val, 18), (wid.val, 15), (i.val, 0)]) (7 :: [4, 4, 2, 3, 6, 6, 6, 3, 15]) 64 := ⟨by decide, by decide, fit⟩
  have dcd : decodeC w = checked w [(36, 8)] [] (.aand (field 16 w 53) (field 16 w 49) (field 4 w 47) (field 8 w 44) (field 64 w 30) (field 64 w 24) (field 64 w 18) (field 8 w 15) (field 32768 w 0)) := by
    unfold decodeC
    rw [show w / 2 ^ 57 = 0x12 from e ▸ pack_top fit]
    rfl
  show decodeC w = _
  rw [dcd, field_of (x := g) (len := 4) rfl ((e ▸ take_pack (lo := 53) (len := 4) g0 rfl : w / 2 ^ 53 % 2 ^ 4 = _)), field_of (x := b) (len := 4) rfl ((e ▸ take_pack (lo := 49) (len := 4) g0 rfl : w / 2 ^ 49 % 2 ^ 4 = _)), field_of (x := o) (len := 2) rfl ((e ▸ take_pack (lo := 47) (len := 2) g0 rfl : w / 2 ^ 47 % 2 ^ 2 = _)), field_of (x := c) (len := 3) rfl ((e ▸ take_pack (lo := 44) (len := 3) g0 rfl : w / 2 ^ 44 % 2 ^ 3 = _)), field_of (x := sa) (len := 6) rfl ((e ▸ take_pack (lo := 30) (len := 6) g0 rfl : w / 2 ^ 30 % 2 ^ 6 = _)), field_of (x := sb) (len := 6) rfl ((e ▸ take_pack (lo := 24) (len := 6) g0 rfl : w / 2 ^ 24 % 2 ^ 6 = _)), field_of (x := sc) (len := 6) rfl ((e ▸ take_pack (lo := 18) (len := 6) g0 rfl : w / 2 ^ 18 % 2 ^ 6 = _)), field_of (x := wid) (len := 3) rfl ((e ▸ take_pack (lo := 15) (len := 3) g0 rfl : w / 2 ^ 15 % 2 ^ 3 = _)), field_of (x := i) (len := 15) rfl ((e ▸ take_pack (lo := 0) (len := 15) g0 rfl : w / 2 ^ 0 % 2 ^ 15 = _))]
  exact checked_of hwf (zero_cons ((e ▸ take_pack (lo := 36) (len := 8) g0 rfl : w / 2 ^ 36 % 2 ^ 8 = _)) rfl) rfl

theorem Encoding.aor (g : Fin 16) (b : Fin 16) (o : Fin 4) (c : Fin 8) (sa : Fin 64) (sb : Fin 64) (sc : Fin 64) (wid : Fin 8) (i : Fin 32768) : Encoding.Statement (.aor g b o c sa sb sc wid i) := by
  intro hwf u w hunit henc
  cases hunit
  have e : pack ((0x13, 57) :: [(g.val, 53), (b.val, 49), (o.val, 47), (c.val, 44), (sa.val, 30), (sb.val, 24), (sc.val, 18), (wid.val, 15), (i.val, 0)]) = w := Option.some.inj henc
  have fit : Fits [(g.val, 53), (b.val, 49), (o.val, 47), (c.val, 44), (sa.val, 30), (sb.val, 24), (sc.val, 18), (wid.val, 15), (i.val, 0)] [4, 4, 2, 3, 6, 6, 6, 3, 15] 57 := ⟨g.isLt, by decide, ⟨b.isLt, by decide, ⟨o.isLt, by decide, ⟨c.isLt, by decide, ⟨sa.isLt, by decide, ⟨sb.isLt, by decide, ⟨sc.isLt, by decide, ⟨wid.isLt, by decide, ⟨i.isLt, by decide, trivial⟩⟩⟩⟩⟩⟩⟩⟩⟩
  have g0 : Fits ((0x13, 57) :: [(g.val, 53), (b.val, 49), (o.val, 47), (c.val, 44), (sa.val, 30), (sb.val, 24), (sc.val, 18), (wid.val, 15), (i.val, 0)]) (7 :: [4, 4, 2, 3, 6, 6, 6, 3, 15]) 64 := ⟨by decide, by decide, fit⟩
  have dcd : decodeC w = checked w [(36, 8)] [] (.aor (field 16 w 53) (field 16 w 49) (field 4 w 47) (field 8 w 44) (field 64 w 30) (field 64 w 24) (field 64 w 18) (field 8 w 15) (field 32768 w 0)) := by
    unfold decodeC
    rw [show w / 2 ^ 57 = 0x13 from e ▸ pack_top fit]
    rfl
  show decodeC w = _
  rw [dcd, field_of (x := g) (len := 4) rfl ((e ▸ take_pack (lo := 53) (len := 4) g0 rfl : w / 2 ^ 53 % 2 ^ 4 = _)), field_of (x := b) (len := 4) rfl ((e ▸ take_pack (lo := 49) (len := 4) g0 rfl : w / 2 ^ 49 % 2 ^ 4 = _)), field_of (x := o) (len := 2) rfl ((e ▸ take_pack (lo := 47) (len := 2) g0 rfl : w / 2 ^ 47 % 2 ^ 2 = _)), field_of (x := c) (len := 3) rfl ((e ▸ take_pack (lo := 44) (len := 3) g0 rfl : w / 2 ^ 44 % 2 ^ 3 = _)), field_of (x := sa) (len := 6) rfl ((e ▸ take_pack (lo := 30) (len := 6) g0 rfl : w / 2 ^ 30 % 2 ^ 6 = _)), field_of (x := sb) (len := 6) rfl ((e ▸ take_pack (lo := 24) (len := 6) g0 rfl : w / 2 ^ 24 % 2 ^ 6 = _)), field_of (x := sc) (len := 6) rfl ((e ▸ take_pack (lo := 18) (len := 6) g0 rfl : w / 2 ^ 18 % 2 ^ 6 = _)), field_of (x := wid) (len := 3) rfl ((e ▸ take_pack (lo := 15) (len := 3) g0 rfl : w / 2 ^ 15 % 2 ^ 3 = _)), field_of (x := i) (len := 15) rfl ((e ▸ take_pack (lo := 0) (len := 15) g0 rfl : w / 2 ^ 0 % 2 ^ 15 = _))]
  exact checked_of hwf (zero_cons ((e ▸ take_pack (lo := 36) (len := 8) g0 rfl : w / 2 ^ 36 % 2 ^ 8 = _)) rfl) rfl

theorem Encoding.axor (g : Fin 16) (b : Fin 16) (o : Fin 4) (c : Fin 8) (sa : Fin 64) (sb : Fin 64) (sc : Fin 64) (wid : Fin 8) (i : Fin 32768) : Encoding.Statement (.axor g b o c sa sb sc wid i) := by
  intro hwf u w hunit henc
  cases hunit
  have e : pack ((0x14, 57) :: [(g.val, 53), (b.val, 49), (o.val, 47), (c.val, 44), (sa.val, 30), (sb.val, 24), (sc.val, 18), (wid.val, 15), (i.val, 0)]) = w := Option.some.inj henc
  have fit : Fits [(g.val, 53), (b.val, 49), (o.val, 47), (c.val, 44), (sa.val, 30), (sb.val, 24), (sc.val, 18), (wid.val, 15), (i.val, 0)] [4, 4, 2, 3, 6, 6, 6, 3, 15] 57 := ⟨g.isLt, by decide, ⟨b.isLt, by decide, ⟨o.isLt, by decide, ⟨c.isLt, by decide, ⟨sa.isLt, by decide, ⟨sb.isLt, by decide, ⟨sc.isLt, by decide, ⟨wid.isLt, by decide, ⟨i.isLt, by decide, trivial⟩⟩⟩⟩⟩⟩⟩⟩⟩
  have g0 : Fits ((0x14, 57) :: [(g.val, 53), (b.val, 49), (o.val, 47), (c.val, 44), (sa.val, 30), (sb.val, 24), (sc.val, 18), (wid.val, 15), (i.val, 0)]) (7 :: [4, 4, 2, 3, 6, 6, 6, 3, 15]) 64 := ⟨by decide, by decide, fit⟩
  have dcd : decodeC w = checked w [(36, 8)] [] (.axor (field 16 w 53) (field 16 w 49) (field 4 w 47) (field 8 w 44) (field 64 w 30) (field 64 w 24) (field 64 w 18) (field 8 w 15) (field 32768 w 0)) := by
    unfold decodeC
    rw [show w / 2 ^ 57 = 0x14 from e ▸ pack_top fit]
    rfl
  show decodeC w = _
  rw [dcd, field_of (x := g) (len := 4) rfl ((e ▸ take_pack (lo := 53) (len := 4) g0 rfl : w / 2 ^ 53 % 2 ^ 4 = _)), field_of (x := b) (len := 4) rfl ((e ▸ take_pack (lo := 49) (len := 4) g0 rfl : w / 2 ^ 49 % 2 ^ 4 = _)), field_of (x := o) (len := 2) rfl ((e ▸ take_pack (lo := 47) (len := 2) g0 rfl : w / 2 ^ 47 % 2 ^ 2 = _)), field_of (x := c) (len := 3) rfl ((e ▸ take_pack (lo := 44) (len := 3) g0 rfl : w / 2 ^ 44 % 2 ^ 3 = _)), field_of (x := sa) (len := 6) rfl ((e ▸ take_pack (lo := 30) (len := 6) g0 rfl : w / 2 ^ 30 % 2 ^ 6 = _)), field_of (x := sb) (len := 6) rfl ((e ▸ take_pack (lo := 24) (len := 6) g0 rfl : w / 2 ^ 24 % 2 ^ 6 = _)), field_of (x := sc) (len := 6) rfl ((e ▸ take_pack (lo := 18) (len := 6) g0 rfl : w / 2 ^ 18 % 2 ^ 6 = _)), field_of (x := wid) (len := 3) rfl ((e ▸ take_pack (lo := 15) (len := 3) g0 rfl : w / 2 ^ 15 % 2 ^ 3 = _)), field_of (x := i) (len := 15) rfl ((e ▸ take_pack (lo := 0) (len := 15) g0 rfl : w / 2 ^ 0 % 2 ^ 15 = _))]
  exact checked_of hwf (zero_cons ((e ▸ take_pack (lo := 36) (len := 8) g0 rfl : w / 2 ^ 36 % 2 ^ 8 = _)) rfl) rfl

theorem Encoding.amin (g : Fin 16) (b : Fin 16) (o : Fin 4) (c : Fin 8) (sa : Fin 64) (sb : Fin 64) (sc : Fin 64) (wid : Fin 8) (i : Fin 32768) : Encoding.Statement (.amin g b o c sa sb sc wid i) := by
  intro hwf u w hunit henc
  cases hunit
  have e : pack ((0x15, 57) :: [(g.val, 53), (b.val, 49), (o.val, 47), (c.val, 44), (sa.val, 30), (sb.val, 24), (sc.val, 18), (wid.val, 15), (i.val, 0)]) = w := Option.some.inj henc
  have fit : Fits [(g.val, 53), (b.val, 49), (o.val, 47), (c.val, 44), (sa.val, 30), (sb.val, 24), (sc.val, 18), (wid.val, 15), (i.val, 0)] [4, 4, 2, 3, 6, 6, 6, 3, 15] 57 := ⟨g.isLt, by decide, ⟨b.isLt, by decide, ⟨o.isLt, by decide, ⟨c.isLt, by decide, ⟨sa.isLt, by decide, ⟨sb.isLt, by decide, ⟨sc.isLt, by decide, ⟨wid.isLt, by decide, ⟨i.isLt, by decide, trivial⟩⟩⟩⟩⟩⟩⟩⟩⟩
  have g0 : Fits ((0x15, 57) :: [(g.val, 53), (b.val, 49), (o.val, 47), (c.val, 44), (sa.val, 30), (sb.val, 24), (sc.val, 18), (wid.val, 15), (i.val, 0)]) (7 :: [4, 4, 2, 3, 6, 6, 6, 3, 15]) 64 := ⟨by decide, by decide, fit⟩
  have dcd : decodeC w = checked w [(36, 8)] [] (.amin (field 16 w 53) (field 16 w 49) (field 4 w 47) (field 8 w 44) (field 64 w 30) (field 64 w 24) (field 64 w 18) (field 8 w 15) (field 32768 w 0)) := by
    unfold decodeC
    rw [show w / 2 ^ 57 = 0x15 from e ▸ pack_top fit]
    rfl
  show decodeC w = _
  rw [dcd, field_of (x := g) (len := 4) rfl ((e ▸ take_pack (lo := 53) (len := 4) g0 rfl : w / 2 ^ 53 % 2 ^ 4 = _)), field_of (x := b) (len := 4) rfl ((e ▸ take_pack (lo := 49) (len := 4) g0 rfl : w / 2 ^ 49 % 2 ^ 4 = _)), field_of (x := o) (len := 2) rfl ((e ▸ take_pack (lo := 47) (len := 2) g0 rfl : w / 2 ^ 47 % 2 ^ 2 = _)), field_of (x := c) (len := 3) rfl ((e ▸ take_pack (lo := 44) (len := 3) g0 rfl : w / 2 ^ 44 % 2 ^ 3 = _)), field_of (x := sa) (len := 6) rfl ((e ▸ take_pack (lo := 30) (len := 6) g0 rfl : w / 2 ^ 30 % 2 ^ 6 = _)), field_of (x := sb) (len := 6) rfl ((e ▸ take_pack (lo := 24) (len := 6) g0 rfl : w / 2 ^ 24 % 2 ^ 6 = _)), field_of (x := sc) (len := 6) rfl ((e ▸ take_pack (lo := 18) (len := 6) g0 rfl : w / 2 ^ 18 % 2 ^ 6 = _)), field_of (x := wid) (len := 3) rfl ((e ▸ take_pack (lo := 15) (len := 3) g0 rfl : w / 2 ^ 15 % 2 ^ 3 = _)), field_of (x := i) (len := 15) rfl ((e ▸ take_pack (lo := 0) (len := 15) g0 rfl : w / 2 ^ 0 % 2 ^ 15 = _))]
  exact checked_of hwf (zero_cons ((e ▸ take_pack (lo := 36) (len := 8) g0 rfl : w / 2 ^ 36 % 2 ^ 8 = _)) rfl) rfl

theorem Encoding.amax (g : Fin 16) (b : Fin 16) (o : Fin 4) (c : Fin 8) (sa : Fin 64) (sb : Fin 64) (sc : Fin 64) (wid : Fin 8) (i : Fin 32768) : Encoding.Statement (.amax g b o c sa sb sc wid i) := by
  intro hwf u w hunit henc
  cases hunit
  have e : pack ((0x16, 57) :: [(g.val, 53), (b.val, 49), (o.val, 47), (c.val, 44), (sa.val, 30), (sb.val, 24), (sc.val, 18), (wid.val, 15), (i.val, 0)]) = w := Option.some.inj henc
  have fit : Fits [(g.val, 53), (b.val, 49), (o.val, 47), (c.val, 44), (sa.val, 30), (sb.val, 24), (sc.val, 18), (wid.val, 15), (i.val, 0)] [4, 4, 2, 3, 6, 6, 6, 3, 15] 57 := ⟨g.isLt, by decide, ⟨b.isLt, by decide, ⟨o.isLt, by decide, ⟨c.isLt, by decide, ⟨sa.isLt, by decide, ⟨sb.isLt, by decide, ⟨sc.isLt, by decide, ⟨wid.isLt, by decide, ⟨i.isLt, by decide, trivial⟩⟩⟩⟩⟩⟩⟩⟩⟩
  have g0 : Fits ((0x16, 57) :: [(g.val, 53), (b.val, 49), (o.val, 47), (c.val, 44), (sa.val, 30), (sb.val, 24), (sc.val, 18), (wid.val, 15), (i.val, 0)]) (7 :: [4, 4, 2, 3, 6, 6, 6, 3, 15]) 64 := ⟨by decide, by decide, fit⟩
  have dcd : decodeC w = checked w [(36, 8)] [] (.amax (field 16 w 53) (field 16 w 49) (field 4 w 47) (field 8 w 44) (field 64 w 30) (field 64 w 24) (field 64 w 18) (field 8 w 15) (field 32768 w 0)) := by
    unfold decodeC
    rw [show w / 2 ^ 57 = 0x16 from e ▸ pack_top fit]
    rfl
  show decodeC w = _
  rw [dcd, field_of (x := g) (len := 4) rfl ((e ▸ take_pack (lo := 53) (len := 4) g0 rfl : w / 2 ^ 53 % 2 ^ 4 = _)), field_of (x := b) (len := 4) rfl ((e ▸ take_pack (lo := 49) (len := 4) g0 rfl : w / 2 ^ 49 % 2 ^ 4 = _)), field_of (x := o) (len := 2) rfl ((e ▸ take_pack (lo := 47) (len := 2) g0 rfl : w / 2 ^ 47 % 2 ^ 2 = _)), field_of (x := c) (len := 3) rfl ((e ▸ take_pack (lo := 44) (len := 3) g0 rfl : w / 2 ^ 44 % 2 ^ 3 = _)), field_of (x := sa) (len := 6) rfl ((e ▸ take_pack (lo := 30) (len := 6) g0 rfl : w / 2 ^ 30 % 2 ^ 6 = _)), field_of (x := sb) (len := 6) rfl ((e ▸ take_pack (lo := 24) (len := 6) g0 rfl : w / 2 ^ 24 % 2 ^ 6 = _)), field_of (x := sc) (len := 6) rfl ((e ▸ take_pack (lo := 18) (len := 6) g0 rfl : w / 2 ^ 18 % 2 ^ 6 = _)), field_of (x := wid) (len := 3) rfl ((e ▸ take_pack (lo := 15) (len := 3) g0 rfl : w / 2 ^ 15 % 2 ^ 3 = _)), field_of (x := i) (len := 15) rfl ((e ▸ take_pack (lo := 0) (len := 15) g0 rfl : w / 2 ^ 0 % 2 ^ 15 = _))]
  exact checked_of hwf (zero_cons ((e ▸ take_pack (lo := 36) (len := 8) g0 rfl : w / 2 ^ 36 % 2 ^ 8 = _)) rfl) rfl

theorem Encoding.aminn (g : Fin 16) (b : Fin 16) (o : Fin 4) (c : Fin 8) (sa : Fin 64) (sb : Fin 64) (sc : Fin 64) (wid : Fin 8) (i : Fin 32768) : Encoding.Statement (.aminn g b o c sa sb sc wid i) := by
  intro hwf u w hunit henc
  cases hunit
  have e : pack ((0x17, 57) :: [(g.val, 53), (b.val, 49), (o.val, 47), (c.val, 44), (sa.val, 30), (sb.val, 24), (sc.val, 18), (wid.val, 15), (i.val, 0)]) = w := Option.some.inj henc
  have fit : Fits [(g.val, 53), (b.val, 49), (o.val, 47), (c.val, 44), (sa.val, 30), (sb.val, 24), (sc.val, 18), (wid.val, 15), (i.val, 0)] [4, 4, 2, 3, 6, 6, 6, 3, 15] 57 := ⟨g.isLt, by decide, ⟨b.isLt, by decide, ⟨o.isLt, by decide, ⟨c.isLt, by decide, ⟨sa.isLt, by decide, ⟨sb.isLt, by decide, ⟨sc.isLt, by decide, ⟨wid.isLt, by decide, ⟨i.isLt, by decide, trivial⟩⟩⟩⟩⟩⟩⟩⟩⟩
  have g0 : Fits ((0x17, 57) :: [(g.val, 53), (b.val, 49), (o.val, 47), (c.val, 44), (sa.val, 30), (sb.val, 24), (sc.val, 18), (wid.val, 15), (i.val, 0)]) (7 :: [4, 4, 2, 3, 6, 6, 6, 3, 15]) 64 := ⟨by decide, by decide, fit⟩
  have dcd : decodeC w = checked w [(36, 8)] [] (.aminn (field 16 w 53) (field 16 w 49) (field 4 w 47) (field 8 w 44) (field 64 w 30) (field 64 w 24) (field 64 w 18) (field 8 w 15) (field 32768 w 0)) := by
    unfold decodeC
    rw [show w / 2 ^ 57 = 0x17 from e ▸ pack_top fit]
    rfl
  show decodeC w = _
  rw [dcd, field_of (x := g) (len := 4) rfl ((e ▸ take_pack (lo := 53) (len := 4) g0 rfl : w / 2 ^ 53 % 2 ^ 4 = _)), field_of (x := b) (len := 4) rfl ((e ▸ take_pack (lo := 49) (len := 4) g0 rfl : w / 2 ^ 49 % 2 ^ 4 = _)), field_of (x := o) (len := 2) rfl ((e ▸ take_pack (lo := 47) (len := 2) g0 rfl : w / 2 ^ 47 % 2 ^ 2 = _)), field_of (x := c) (len := 3) rfl ((e ▸ take_pack (lo := 44) (len := 3) g0 rfl : w / 2 ^ 44 % 2 ^ 3 = _)), field_of (x := sa) (len := 6) rfl ((e ▸ take_pack (lo := 30) (len := 6) g0 rfl : w / 2 ^ 30 % 2 ^ 6 = _)), field_of (x := sb) (len := 6) rfl ((e ▸ take_pack (lo := 24) (len := 6) g0 rfl : w / 2 ^ 24 % 2 ^ 6 = _)), field_of (x := sc) (len := 6) rfl ((e ▸ take_pack (lo := 18) (len := 6) g0 rfl : w / 2 ^ 18 % 2 ^ 6 = _)), field_of (x := wid) (len := 3) rfl ((e ▸ take_pack (lo := 15) (len := 3) g0 rfl : w / 2 ^ 15 % 2 ^ 3 = _)), field_of (x := i) (len := 15) rfl ((e ▸ take_pack (lo := 0) (len := 15) g0 rfl : w / 2 ^ 0 % 2 ^ 15 = _))]
  exact checked_of hwf (zero_cons ((e ▸ take_pack (lo := 36) (len := 8) g0 rfl : w / 2 ^ 36 % 2 ^ 8 = _)) rfl) rfl

theorem Encoding.amaxn (g : Fin 16) (b : Fin 16) (o : Fin 4) (c : Fin 8) (sa : Fin 64) (sb : Fin 64) (sc : Fin 64) (wid : Fin 8) (i : Fin 32768) : Encoding.Statement (.amaxn g b o c sa sb sc wid i) := by
  intro hwf u w hunit henc
  cases hunit
  have e : pack ((0x18, 57) :: [(g.val, 53), (b.val, 49), (o.val, 47), (c.val, 44), (sa.val, 30), (sb.val, 24), (sc.val, 18), (wid.val, 15), (i.val, 0)]) = w := Option.some.inj henc
  have fit : Fits [(g.val, 53), (b.val, 49), (o.val, 47), (c.val, 44), (sa.val, 30), (sb.val, 24), (sc.val, 18), (wid.val, 15), (i.val, 0)] [4, 4, 2, 3, 6, 6, 6, 3, 15] 57 := ⟨g.isLt, by decide, ⟨b.isLt, by decide, ⟨o.isLt, by decide, ⟨c.isLt, by decide, ⟨sa.isLt, by decide, ⟨sb.isLt, by decide, ⟨sc.isLt, by decide, ⟨wid.isLt, by decide, ⟨i.isLt, by decide, trivial⟩⟩⟩⟩⟩⟩⟩⟩⟩
  have g0 : Fits ((0x18, 57) :: [(g.val, 53), (b.val, 49), (o.val, 47), (c.val, 44), (sa.val, 30), (sb.val, 24), (sc.val, 18), (wid.val, 15), (i.val, 0)]) (7 :: [4, 4, 2, 3, 6, 6, 6, 3, 15]) 64 := ⟨by decide, by decide, fit⟩
  have dcd : decodeC w = checked w [(36, 8)] [] (.amaxn (field 16 w 53) (field 16 w 49) (field 4 w 47) (field 8 w 44) (field 64 w 30) (field 64 w 24) (field 64 w 18) (field 8 w 15) (field 32768 w 0)) := by
    unfold decodeC
    rw [show w / 2 ^ 57 = 0x18 from e ▸ pack_top fit]
    rfl
  show decodeC w = _
  rw [dcd, field_of (x := g) (len := 4) rfl ((e ▸ take_pack (lo := 53) (len := 4) g0 rfl : w / 2 ^ 53 % 2 ^ 4 = _)), field_of (x := b) (len := 4) rfl ((e ▸ take_pack (lo := 49) (len := 4) g0 rfl : w / 2 ^ 49 % 2 ^ 4 = _)), field_of (x := o) (len := 2) rfl ((e ▸ take_pack (lo := 47) (len := 2) g0 rfl : w / 2 ^ 47 % 2 ^ 2 = _)), field_of (x := c) (len := 3) rfl ((e ▸ take_pack (lo := 44) (len := 3) g0 rfl : w / 2 ^ 44 % 2 ^ 3 = _)), field_of (x := sa) (len := 6) rfl ((e ▸ take_pack (lo := 30) (len := 6) g0 rfl : w / 2 ^ 30 % 2 ^ 6 = _)), field_of (x := sb) (len := 6) rfl ((e ▸ take_pack (lo := 24) (len := 6) g0 rfl : w / 2 ^ 24 % 2 ^ 6 = _)), field_of (x := sc) (len := 6) rfl ((e ▸ take_pack (lo := 18) (len := 6) g0 rfl : w / 2 ^ 18 % 2 ^ 6 = _)), field_of (x := wid) (len := 3) rfl ((e ▸ take_pack (lo := 15) (len := 3) g0 rfl : w / 2 ^ 15 % 2 ^ 3 = _)), field_of (x := i) (len := 15) rfl ((e ▸ take_pack (lo := 0) (len := 15) g0 rfl : w / 2 ^ 0 % 2 ^ 15 = _))]
  exact checked_of hwf (zero_cons ((e ▸ take_pack (lo := 36) (len := 8) g0 rfl : w / 2 ^ 36 % 2 ^ 8 = _)) rfl) rfl

theorem Encoding.axchg (g : Fin 16) (b : Fin 16) (o : Fin 4) (c : Fin 8) (sa : Fin 64) (sb : Fin 64) (sc : Fin 64) (wid : Fin 8) (i : Fin 32768) : Encoding.Statement (.axchg g b o c sa sb sc wid i) := by
  intro hwf u w hunit henc
  cases hunit
  have e : pack ((0x19, 57) :: [(g.val, 53), (b.val, 49), (o.val, 47), (c.val, 44), (sa.val, 30), (sb.val, 24), (sc.val, 18), (wid.val, 15), (i.val, 0)]) = w := Option.some.inj henc
  have fit : Fits [(g.val, 53), (b.val, 49), (o.val, 47), (c.val, 44), (sa.val, 30), (sb.val, 24), (sc.val, 18), (wid.val, 15), (i.val, 0)] [4, 4, 2, 3, 6, 6, 6, 3, 15] 57 := ⟨g.isLt, by decide, ⟨b.isLt, by decide, ⟨o.isLt, by decide, ⟨c.isLt, by decide, ⟨sa.isLt, by decide, ⟨sb.isLt, by decide, ⟨sc.isLt, by decide, ⟨wid.isLt, by decide, ⟨i.isLt, by decide, trivial⟩⟩⟩⟩⟩⟩⟩⟩⟩
  have g0 : Fits ((0x19, 57) :: [(g.val, 53), (b.val, 49), (o.val, 47), (c.val, 44), (sa.val, 30), (sb.val, 24), (sc.val, 18), (wid.val, 15), (i.val, 0)]) (7 :: [4, 4, 2, 3, 6, 6, 6, 3, 15]) 64 := ⟨by decide, by decide, fit⟩
  have dcd : decodeC w = checked w [(36, 8)] [] (.axchg (field 16 w 53) (field 16 w 49) (field 4 w 47) (field 8 w 44) (field 64 w 30) (field 64 w 24) (field 64 w 18) (field 8 w 15) (field 32768 w 0)) := by
    unfold decodeC
    rw [show w / 2 ^ 57 = 0x19 from e ▸ pack_top fit]
    rfl
  show decodeC w = _
  rw [dcd, field_of (x := g) (len := 4) rfl ((e ▸ take_pack (lo := 53) (len := 4) g0 rfl : w / 2 ^ 53 % 2 ^ 4 = _)), field_of (x := b) (len := 4) rfl ((e ▸ take_pack (lo := 49) (len := 4) g0 rfl : w / 2 ^ 49 % 2 ^ 4 = _)), field_of (x := o) (len := 2) rfl ((e ▸ take_pack (lo := 47) (len := 2) g0 rfl : w / 2 ^ 47 % 2 ^ 2 = _)), field_of (x := c) (len := 3) rfl ((e ▸ take_pack (lo := 44) (len := 3) g0 rfl : w / 2 ^ 44 % 2 ^ 3 = _)), field_of (x := sa) (len := 6) rfl ((e ▸ take_pack (lo := 30) (len := 6) g0 rfl : w / 2 ^ 30 % 2 ^ 6 = _)), field_of (x := sb) (len := 6) rfl ((e ▸ take_pack (lo := 24) (len := 6) g0 rfl : w / 2 ^ 24 % 2 ^ 6 = _)), field_of (x := sc) (len := 6) rfl ((e ▸ take_pack (lo := 18) (len := 6) g0 rfl : w / 2 ^ 18 % 2 ^ 6 = _)), field_of (x := wid) (len := 3) rfl ((e ▸ take_pack (lo := 15) (len := 3) g0 rfl : w / 2 ^ 15 % 2 ^ 3 = _)), field_of (x := i) (len := 15) rfl ((e ▸ take_pack (lo := 0) (len := 15) g0 rfl : w / 2 ^ 0 % 2 ^ 15 = _))]
  exact checked_of hwf (zero_cons ((e ▸ take_pack (lo := 36) (len := 8) g0 rfl : w / 2 ^ 36 % 2 ^ 8 = _)) rfl) rfl

theorem Encoding.acas (g : Fin 16) (b : Fin 16) (o : Fin 4) (c : Fin 8) (sa : Fin 64) (sb : Fin 64) (sc : Fin 64) (wid : Fin 8) (i : Fin 32768) : Encoding.Statement (.acas g b o c sa sb sc wid i) := by
  intro hwf u w hunit henc
  cases hunit
  have e : pack ((0x1A, 57) :: [(g.val, 53), (b.val, 49), (o.val, 47), (c.val, 44), (sa.val, 30), (sb.val, 24), (sc.val, 18), (wid.val, 15), (i.val, 0)]) = w := Option.some.inj henc
  have fit : Fits [(g.val, 53), (b.val, 49), (o.val, 47), (c.val, 44), (sa.val, 30), (sb.val, 24), (sc.val, 18), (wid.val, 15), (i.val, 0)] [4, 4, 2, 3, 6, 6, 6, 3, 15] 57 := ⟨g.isLt, by decide, ⟨b.isLt, by decide, ⟨o.isLt, by decide, ⟨c.isLt, by decide, ⟨sa.isLt, by decide, ⟨sb.isLt, by decide, ⟨sc.isLt, by decide, ⟨wid.isLt, by decide, ⟨i.isLt, by decide, trivial⟩⟩⟩⟩⟩⟩⟩⟩⟩
  have g0 : Fits ((0x1A, 57) :: [(g.val, 53), (b.val, 49), (o.val, 47), (c.val, 44), (sa.val, 30), (sb.val, 24), (sc.val, 18), (wid.val, 15), (i.val, 0)]) (7 :: [4, 4, 2, 3, 6, 6, 6, 3, 15]) 64 := ⟨by decide, by decide, fit⟩
  have dcd : decodeC w = checked w [(36, 8)] [] (.acas (field 16 w 53) (field 16 w 49) (field 4 w 47) (field 8 w 44) (field 64 w 30) (field 64 w 24) (field 64 w 18) (field 8 w 15) (field 32768 w 0)) := by
    unfold decodeC
    rw [show w / 2 ^ 57 = 0x1A from e ▸ pack_top fit]
    rfl
  show decodeC w = _
  rw [dcd, field_of (x := g) (len := 4) rfl ((e ▸ take_pack (lo := 53) (len := 4) g0 rfl : w / 2 ^ 53 % 2 ^ 4 = _)), field_of (x := b) (len := 4) rfl ((e ▸ take_pack (lo := 49) (len := 4) g0 rfl : w / 2 ^ 49 % 2 ^ 4 = _)), field_of (x := o) (len := 2) rfl ((e ▸ take_pack (lo := 47) (len := 2) g0 rfl : w / 2 ^ 47 % 2 ^ 2 = _)), field_of (x := c) (len := 3) rfl ((e ▸ take_pack (lo := 44) (len := 3) g0 rfl : w / 2 ^ 44 % 2 ^ 3 = _)), field_of (x := sa) (len := 6) rfl ((e ▸ take_pack (lo := 30) (len := 6) g0 rfl : w / 2 ^ 30 % 2 ^ 6 = _)), field_of (x := sb) (len := 6) rfl ((e ▸ take_pack (lo := 24) (len := 6) g0 rfl : w / 2 ^ 24 % 2 ^ 6 = _)), field_of (x := sc) (len := 6) rfl ((e ▸ take_pack (lo := 18) (len := 6) g0 rfl : w / 2 ^ 18 % 2 ^ 6 = _)), field_of (x := wid) (len := 3) rfl ((e ▸ take_pack (lo := 15) (len := 3) g0 rfl : w / 2 ^ 15 % 2 ^ 3 = _)), field_of (x := i) (len := 15) rfl ((e ▸ take_pack (lo := 0) (len := 15) g0 rfl : w / 2 ^ 0 % 2 ^ 15 = _))]
  exact checked_of hwf (zero_cons ((e ▸ take_pack (lo := 36) (len := 8) g0 rfl : w / 2 ^ 36 % 2 ^ 8 = _)) rfl) rfl

theorem Encoding.adecp (g : Fin 16) (b : Fin 16) (o : Fin 4) (c : Fin 8) (sa : Fin 64) (sb : Fin 64) (sc : Fin 64) (wid : Fin 8) (i : Fin 32768) : Encoding.Statement (.adecp g b o c sa sb sc wid i) := by
  intro hwf u w hunit henc
  cases hunit
  have e : pack ((0x1B, 57) :: [(g.val, 53), (b.val, 49), (o.val, 47), (c.val, 44), (sa.val, 30), (sb.val, 24), (sc.val, 18), (wid.val, 15), (i.val, 0)]) = w := Option.some.inj henc
  have fit : Fits [(g.val, 53), (b.val, 49), (o.val, 47), (c.val, 44), (sa.val, 30), (sb.val, 24), (sc.val, 18), (wid.val, 15), (i.val, 0)] [4, 4, 2, 3, 6, 6, 6, 3, 15] 57 := ⟨g.isLt, by decide, ⟨b.isLt, by decide, ⟨o.isLt, by decide, ⟨c.isLt, by decide, ⟨sa.isLt, by decide, ⟨sb.isLt, by decide, ⟨sc.isLt, by decide, ⟨wid.isLt, by decide, ⟨i.isLt, by decide, trivial⟩⟩⟩⟩⟩⟩⟩⟩⟩
  have g0 : Fits ((0x1B, 57) :: [(g.val, 53), (b.val, 49), (o.val, 47), (c.val, 44), (sa.val, 30), (sb.val, 24), (sc.val, 18), (wid.val, 15), (i.val, 0)]) (7 :: [4, 4, 2, 3, 6, 6, 6, 3, 15]) 64 := ⟨by decide, by decide, fit⟩
  have dcd : decodeC w = checked w [(36, 8)] [] (.adecp (field 16 w 53) (field 16 w 49) (field 4 w 47) (field 8 w 44) (field 64 w 30) (field 64 w 24) (field 64 w 18) (field 8 w 15) (field 32768 w 0)) := by
    unfold decodeC
    rw [show w / 2 ^ 57 = 0x1B from e ▸ pack_top fit]
    rfl
  show decodeC w = _
  rw [dcd, field_of (x := g) (len := 4) rfl ((e ▸ take_pack (lo := 53) (len := 4) g0 rfl : w / 2 ^ 53 % 2 ^ 4 = _)), field_of (x := b) (len := 4) rfl ((e ▸ take_pack (lo := 49) (len := 4) g0 rfl : w / 2 ^ 49 % 2 ^ 4 = _)), field_of (x := o) (len := 2) rfl ((e ▸ take_pack (lo := 47) (len := 2) g0 rfl : w / 2 ^ 47 % 2 ^ 2 = _)), field_of (x := c) (len := 3) rfl ((e ▸ take_pack (lo := 44) (len := 3) g0 rfl : w / 2 ^ 44 % 2 ^ 3 = _)), field_of (x := sa) (len := 6) rfl ((e ▸ take_pack (lo := 30) (len := 6) g0 rfl : w / 2 ^ 30 % 2 ^ 6 = _)), field_of (x := sb) (len := 6) rfl ((e ▸ take_pack (lo := 24) (len := 6) g0 rfl : w / 2 ^ 24 % 2 ^ 6 = _)), field_of (x := sc) (len := 6) rfl ((e ▸ take_pack (lo := 18) (len := 6) g0 rfl : w / 2 ^ 18 % 2 ^ 6 = _)), field_of (x := wid) (len := 3) rfl ((e ▸ take_pack (lo := 15) (len := 3) g0 rfl : w / 2 ^ 15 % 2 ^ 3 = _)), field_of (x := i) (len := 15) rfl ((e ▸ take_pack (lo := 0) (len := 15) g0 rfl : w / 2 ^ 0 % 2 ^ 15 = _))]
  exact checked_of hwf (zero_cons ((e ▸ take_pack (lo := 36) (len := 8) g0 rfl : w / 2 ^ 36 % 2 ^ 8 = _)) rfl) rfl

theorem Encoding.adcas (g : Fin 16) (b : Fin 16) (o : Fin 4) (c : Fin 8) (sa : Fin 64) (sb : Fin 64) (sc : Fin 64) (wid : Fin 8) (i : Fin 32768) : Encoding.Statement (.adcas g b o c sa sb sc wid i) := by
  intro hwf u w hunit henc
  cases hunit
  have e : pack ((0x1C, 57) :: [(g.val, 53), (b.val, 49), (o.val, 47), (c.val, 44), (sa.val, 30), (sb.val, 24), (sc.val, 18), (wid.val, 15), (i.val, 0)]) = w := Option.some.inj henc
  have fit : Fits [(g.val, 53), (b.val, 49), (o.val, 47), (c.val, 44), (sa.val, 30), (sb.val, 24), (sc.val, 18), (wid.val, 15), (i.val, 0)] [4, 4, 2, 3, 6, 6, 6, 3, 15] 57 := ⟨g.isLt, by decide, ⟨b.isLt, by decide, ⟨o.isLt, by decide, ⟨c.isLt, by decide, ⟨sa.isLt, by decide, ⟨sb.isLt, by decide, ⟨sc.isLt, by decide, ⟨wid.isLt, by decide, ⟨i.isLt, by decide, trivial⟩⟩⟩⟩⟩⟩⟩⟩⟩
  have g0 : Fits ((0x1C, 57) :: [(g.val, 53), (b.val, 49), (o.val, 47), (c.val, 44), (sa.val, 30), (sb.val, 24), (sc.val, 18), (wid.val, 15), (i.val, 0)]) (7 :: [4, 4, 2, 3, 6, 6, 6, 3, 15]) 64 := ⟨by decide, by decide, fit⟩
  have dcd : decodeC w = checked w [(36, 8)] [] (.adcas (field 16 w 53) (field 16 w 49) (field 4 w 47) (field 8 w 44) (field 64 w 30) (field 64 w 24) (field 64 w 18) (field 8 w 15) (field 32768 w 0)) := by
    unfold decodeC
    rw [show w / 2 ^ 57 = 0x1C from e ▸ pack_top fit]
    rfl
  show decodeC w = _
  rw [dcd, field_of (x := g) (len := 4) rfl ((e ▸ take_pack (lo := 53) (len := 4) g0 rfl : w / 2 ^ 53 % 2 ^ 4 = _)), field_of (x := b) (len := 4) rfl ((e ▸ take_pack (lo := 49) (len := 4) g0 rfl : w / 2 ^ 49 % 2 ^ 4 = _)), field_of (x := o) (len := 2) rfl ((e ▸ take_pack (lo := 47) (len := 2) g0 rfl : w / 2 ^ 47 % 2 ^ 2 = _)), field_of (x := c) (len := 3) rfl ((e ▸ take_pack (lo := 44) (len := 3) g0 rfl : w / 2 ^ 44 % 2 ^ 3 = _)), field_of (x := sa) (len := 6) rfl ((e ▸ take_pack (lo := 30) (len := 6) g0 rfl : w / 2 ^ 30 % 2 ^ 6 = _)), field_of (x := sb) (len := 6) rfl ((e ▸ take_pack (lo := 24) (len := 6) g0 rfl : w / 2 ^ 24 % 2 ^ 6 = _)), field_of (x := sc) (len := 6) rfl ((e ▸ take_pack (lo := 18) (len := 6) g0 rfl : w / 2 ^ 18 % 2 ^ 6 = _)), field_of (x := wid) (len := 3) rfl ((e ▸ take_pack (lo := 15) (len := 3) g0 rfl : w / 2 ^ 15 % 2 ^ 3 = _)), field_of (x := i) (len := 15) rfl ((e ▸ take_pack (lo := 0) (len := 15) g0 rfl : w / 2 ^ 0 % 2 ^ 15 = _))]
  exact checked_of hwf (zero_cons ((e ▸ take_pack (lo := 36) (len := 8) g0 rfl : w / 2 ^ 36 % 2 ^ 8 = _)) rfl) rfl

theorem Encoding.amove (g : Fin 16) (b : Fin 16) (o : Fin 4) (c : Fin 8) (sa : Fin 64) (sb : Fin 64) (sc : Fin 64) (wid : Fin 8) (i : Fin 32768) : Encoding.Statement (.amove g b o c sa sb sc wid i) := by
  intro hwf u w hunit henc
  cases hunit
  have e : pack ((0x1D, 57) :: [(g.val, 53), (b.val, 49), (o.val, 47), (c.val, 44), (sa.val, 30), (sb.val, 24), (sc.val, 18), (wid.val, 15), (i.val, 0)]) = w := Option.some.inj henc
  have fit : Fits [(g.val, 53), (b.val, 49), (o.val, 47), (c.val, 44), (sa.val, 30), (sb.val, 24), (sc.val, 18), (wid.val, 15), (i.val, 0)] [4, 4, 2, 3, 6, 6, 6, 3, 15] 57 := ⟨g.isLt, by decide, ⟨b.isLt, by decide, ⟨o.isLt, by decide, ⟨c.isLt, by decide, ⟨sa.isLt, by decide, ⟨sb.isLt, by decide, ⟨sc.isLt, by decide, ⟨wid.isLt, by decide, ⟨i.isLt, by decide, trivial⟩⟩⟩⟩⟩⟩⟩⟩⟩
  have g0 : Fits ((0x1D, 57) :: [(g.val, 53), (b.val, 49), (o.val, 47), (c.val, 44), (sa.val, 30), (sb.val, 24), (sc.val, 18), (wid.val, 15), (i.val, 0)]) (7 :: [4, 4, 2, 3, 6, 6, 6, 3, 15]) 64 := ⟨by decide, by decide, fit⟩
  have dcd : decodeC w = checked w [(36, 8)] [] (.amove (field 16 w 53) (field 16 w 49) (field 4 w 47) (field 8 w 44) (field 64 w 30) (field 64 w 24) (field 64 w 18) (field 8 w 15) (field 32768 w 0)) := by
    unfold decodeC
    rw [show w / 2 ^ 57 = 0x1D from e ▸ pack_top fit]
    rfl
  show decodeC w = _
  rw [dcd, field_of (x := g) (len := 4) rfl ((e ▸ take_pack (lo := 53) (len := 4) g0 rfl : w / 2 ^ 53 % 2 ^ 4 = _)), field_of (x := b) (len := 4) rfl ((e ▸ take_pack (lo := 49) (len := 4) g0 rfl : w / 2 ^ 49 % 2 ^ 4 = _)), field_of (x := o) (len := 2) rfl ((e ▸ take_pack (lo := 47) (len := 2) g0 rfl : w / 2 ^ 47 % 2 ^ 2 = _)), field_of (x := c) (len := 3) rfl ((e ▸ take_pack (lo := 44) (len := 3) g0 rfl : w / 2 ^ 44 % 2 ^ 3 = _)), field_of (x := sa) (len := 6) rfl ((e ▸ take_pack (lo := 30) (len := 6) g0 rfl : w / 2 ^ 30 % 2 ^ 6 = _)), field_of (x := sb) (len := 6) rfl ((e ▸ take_pack (lo := 24) (len := 6) g0 rfl : w / 2 ^ 24 % 2 ^ 6 = _)), field_of (x := sc) (len := 6) rfl ((e ▸ take_pack (lo := 18) (len := 6) g0 rfl : w / 2 ^ 18 % 2 ^ 6 = _)), field_of (x := wid) (len := 3) rfl ((e ▸ take_pack (lo := 15) (len := 3) g0 rfl : w / 2 ^ 15 % 2 ^ 3 = _)), field_of (x := i) (len := 15) rfl ((e ▸ take_pack (lo := 0) (len := 15) g0 rfl : w / 2 ^ 0 % 2 ^ 15 = _))]
  exact checked_of hwf (zero_cons ((e ▸ take_pack (lo := 36) (len := 8) g0 rfl : w / 2 ^ 36 % 2 ^ 8 = _)) rfl) rfl

theorem Encoding.ared (g : Fin 16) (b : Fin 16) (o : Fin 4) (c : Fin 8) (sa : Fin 64) (sb : Fin 64) (wid : Fin 8) : Encoding.Statement (.ared g b o c sa sb wid) := by
  intro hwf u w hunit henc
  cases hunit
  have e : pack ((0x1E, 57) :: [(g.val, 53), (b.val, 49), (o.val, 47), (c.val, 44), (sa.val, 30), (sb.val, 24), (wid.val, 15)]) = w := Option.some.inj henc
  have fit : Fits [(g.val, 53), (b.val, 49), (o.val, 47), (c.val, 44), (sa.val, 30), (sb.val, 24), (wid.val, 15)] [4, 4, 2, 3, 6, 6, 3] 57 := ⟨g.isLt, by decide, ⟨b.isLt, by decide, ⟨o.isLt, by decide, ⟨c.isLt, by decide, ⟨sa.isLt, by decide, ⟨sb.isLt, by decide, ⟨wid.isLt, by decide, trivial⟩⟩⟩⟩⟩⟩⟩
  have g0 : Fits ((0x1E, 57) :: [(g.val, 53), (b.val, 49), (o.val, 47), (c.val, 44), (sa.val, 30), (sb.val, 24), (wid.val, 15)]) (7 :: [4, 4, 2, 3, 6, 6, 3]) 64 := ⟨by decide, by decide, fit⟩
  have dcd : decodeC w = checked w [(0, 15), (18, 6), (36, 8)] [] (.ared (field 16 w 53) (field 16 w 49) (field 4 w 47) (field 8 w 44) (field 64 w 30) (field 64 w 24) (field 8 w 15)) := by
    unfold decodeC
    rw [show w / 2 ^ 57 = 0x1E from e ▸ pack_top fit]
    rfl
  show decodeC w = _
  rw [dcd, field_of (x := g) (len := 4) rfl ((e ▸ take_pack (lo := 53) (len := 4) g0 rfl : w / 2 ^ 53 % 2 ^ 4 = _)), field_of (x := b) (len := 4) rfl ((e ▸ take_pack (lo := 49) (len := 4) g0 rfl : w / 2 ^ 49 % 2 ^ 4 = _)), field_of (x := o) (len := 2) rfl ((e ▸ take_pack (lo := 47) (len := 2) g0 rfl : w / 2 ^ 47 % 2 ^ 2 = _)), field_of (x := c) (len := 3) rfl ((e ▸ take_pack (lo := 44) (len := 3) g0 rfl : w / 2 ^ 44 % 2 ^ 3 = _)), field_of (x := sa) (len := 6) rfl ((e ▸ take_pack (lo := 30) (len := 6) g0 rfl : w / 2 ^ 30 % 2 ^ 6 = _)), field_of (x := sb) (len := 6) rfl ((e ▸ take_pack (lo := 24) (len := 6) g0 rfl : w / 2 ^ 24 % 2 ^ 6 = _)), field_of (x := wid) (len := 3) rfl ((e ▸ take_pack (lo := 15) (len := 3) g0 rfl : w / 2 ^ 15 % 2 ^ 3 = _))]
  exact checked_of hwf (zero_cons ((e ▸ take_pack (lo := 0) (len := 15) g0 rfl : w / 2 ^ 0 % 2 ^ 15 = _)) (zero_cons ((e ▸ take_pack (lo := 18) (len := 6) g0 rfl : w / 2 ^ 18 % 2 ^ 6 = _)) (zero_cons ((e ▸ take_pack (lo := 36) (len := 8) g0 rfl : w / 2 ^ 36 % 2 ^ 8 = _)) rfl))) rfl

theorem Encoding.waita (g : Fin 16) (b : Fin 16) (o : Fin 4) (c : Fin 8) (sa : Fin 64) (sb : Fin 64) (sc : Fin 64) (wid : Fin 8) (i : Fin 32768) : Encoding.Statement (.waita g b o c sa sb sc wid i) := by
  intro hwf u w hunit henc
  cases hunit
  have e : pack ((0x20, 57) :: [(g.val, 53), (b.val, 49), (o.val, 47), (c.val, 44), (sa.val, 30), (sb.val, 24), (sc.val, 18), (wid.val, 15), (i.val, 0)]) = w := Option.some.inj henc
  have fit : Fits [(g.val, 53), (b.val, 49), (o.val, 47), (c.val, 44), (sa.val, 30), (sb.val, 24), (sc.val, 18), (wid.val, 15), (i.val, 0)] [4, 4, 2, 3, 6, 6, 6, 3, 15] 57 := ⟨g.isLt, by decide, ⟨b.isLt, by decide, ⟨o.isLt, by decide, ⟨c.isLt, by decide, ⟨sa.isLt, by decide, ⟨sb.isLt, by decide, ⟨sc.isLt, by decide, ⟨wid.isLt, by decide, ⟨i.isLt, by decide, trivial⟩⟩⟩⟩⟩⟩⟩⟩⟩
  have g0 : Fits ((0x20, 57) :: [(g.val, 53), (b.val, 49), (o.val, 47), (c.val, 44), (sa.val, 30), (sb.val, 24), (sc.val, 18), (wid.val, 15), (i.val, 0)]) (7 :: [4, 4, 2, 3, 6, 6, 6, 3, 15]) 64 := ⟨by decide, by decide, fit⟩
  have dcd : decodeC w = checked w [(36, 8)] [] (.waita (field 16 w 53) (field 16 w 49) (field 4 w 47) (field 8 w 44) (field 64 w 30) (field 64 w 24) (field 64 w 18) (field 8 w 15) (field 32768 w 0)) := by
    unfold decodeC
    rw [show w / 2 ^ 57 = 0x20 from e ▸ pack_top fit]
    rfl
  show decodeC w = _
  rw [dcd, field_of (x := g) (len := 4) rfl ((e ▸ take_pack (lo := 53) (len := 4) g0 rfl : w / 2 ^ 53 % 2 ^ 4 = _)), field_of (x := b) (len := 4) rfl ((e ▸ take_pack (lo := 49) (len := 4) g0 rfl : w / 2 ^ 49 % 2 ^ 4 = _)), field_of (x := o) (len := 2) rfl ((e ▸ take_pack (lo := 47) (len := 2) g0 rfl : w / 2 ^ 47 % 2 ^ 2 = _)), field_of (x := c) (len := 3) rfl ((e ▸ take_pack (lo := 44) (len := 3) g0 rfl : w / 2 ^ 44 % 2 ^ 3 = _)), field_of (x := sa) (len := 6) rfl ((e ▸ take_pack (lo := 30) (len := 6) g0 rfl : w / 2 ^ 30 % 2 ^ 6 = _)), field_of (x := sb) (len := 6) rfl ((e ▸ take_pack (lo := 24) (len := 6) g0 rfl : w / 2 ^ 24 % 2 ^ 6 = _)), field_of (x := sc) (len := 6) rfl ((e ▸ take_pack (lo := 18) (len := 6) g0 rfl : w / 2 ^ 18 % 2 ^ 6 = _)), field_of (x := wid) (len := 3) rfl ((e ▸ take_pack (lo := 15) (len := 3) g0 rfl : w / 2 ^ 15 % 2 ^ 3 = _)), field_of (x := i) (len := 15) rfl ((e ▸ take_pack (lo := 0) (len := 15) g0 rfl : w / 2 ^ 0 % 2 ^ 15 = _))]
  exact checked_of hwf (zero_cons ((e ▸ take_pack (lo := 36) (len := 8) g0 rfl : w / 2 ^ 36 % 2 ^ 8 = _)) rfl) rfl

theorem Encoding.wake (g : Fin 16) (b : Fin 16) (o : Fin 4) (c : Fin 8) (sa : Fin 64) (sb : Fin 64) (sc : Fin 64) (i : Fin 32768) : Encoding.Statement (.wake g b o c sa sb sc i) := by
  intro hwf u w hunit henc
  cases hunit
  have e : pack ((0x21, 57) :: [(g.val, 53), (b.val, 49), (o.val, 47), (c.val, 44), (sa.val, 30), (sb.val, 24), (sc.val, 18), (i.val, 0)]) = w := Option.some.inj henc
  have fit : Fits [(g.val, 53), (b.val, 49), (o.val, 47), (c.val, 44), (sa.val, 30), (sb.val, 24), (sc.val, 18), (i.val, 0)] [4, 4, 2, 3, 6, 6, 6, 15] 57 := ⟨g.isLt, by decide, ⟨b.isLt, by decide, ⟨o.isLt, by decide, ⟨c.isLt, by decide, ⟨sa.isLt, by decide, ⟨sb.isLt, by decide, ⟨sc.isLt, by decide, ⟨i.isLt, by decide, trivial⟩⟩⟩⟩⟩⟩⟩⟩
  have g0 : Fits ((0x21, 57) :: [(g.val, 53), (b.val, 49), (o.val, 47), (c.val, 44), (sa.val, 30), (sb.val, 24), (sc.val, 18), (i.val, 0)]) (7 :: [4, 4, 2, 3, 6, 6, 6, 15]) 64 := ⟨by decide, by decide, fit⟩
  have dcd : decodeC w = checked w [(15, 3), (36, 8)] [] (.wake (field 16 w 53) (field 16 w 49) (field 4 w 47) (field 8 w 44) (field 64 w 30) (field 64 w 24) (field 64 w 18) (field 32768 w 0)) := by
    unfold decodeC
    rw [show w / 2 ^ 57 = 0x21 from e ▸ pack_top fit]
    rfl
  show decodeC w = _
  rw [dcd, field_of (x := g) (len := 4) rfl ((e ▸ take_pack (lo := 53) (len := 4) g0 rfl : w / 2 ^ 53 % 2 ^ 4 = _)), field_of (x := b) (len := 4) rfl ((e ▸ take_pack (lo := 49) (len := 4) g0 rfl : w / 2 ^ 49 % 2 ^ 4 = _)), field_of (x := o) (len := 2) rfl ((e ▸ take_pack (lo := 47) (len := 2) g0 rfl : w / 2 ^ 47 % 2 ^ 2 = _)), field_of (x := c) (len := 3) rfl ((e ▸ take_pack (lo := 44) (len := 3) g0 rfl : w / 2 ^ 44 % 2 ^ 3 = _)), field_of (x := sa) (len := 6) rfl ((e ▸ take_pack (lo := 30) (len := 6) g0 rfl : w / 2 ^ 30 % 2 ^ 6 = _)), field_of (x := sb) (len := 6) rfl ((e ▸ take_pack (lo := 24) (len := 6) g0 rfl : w / 2 ^ 24 % 2 ^ 6 = _)), field_of (x := sc) (len := 6) rfl ((e ▸ take_pack (lo := 18) (len := 6) g0 rfl : w / 2 ^ 18 % 2 ^ 6 = _)), field_of (x := i) (len := 15) rfl ((e ▸ take_pack (lo := 0) (len := 15) g0 rfl : w / 2 ^ 0 % 2 ^ 15 = _))]
  exact checked_of hwf (zero_cons ((e ▸ take_pack (lo := 15) (len := 3) g0 rfl : w / 2 ^ 15 % 2 ^ 3 = _)) (zero_cons ((e ▸ take_pack (lo := 36) (len := 8) g0 rfl : w / 2 ^ 36 % 2 ^ 8 = _)) rfl)) rfl

theorem Encoding.psend (g : Fin 16) (b : Fin 16) (o : Fin 4) (c : Fin 8) (d : Fin 16) (sa : Fin 64) (sb : Fin 64) (i : Fin 32768) : Encoding.Statement (.psend g b o c d sa sb i) := by
  intro hwf u w hunit henc
  cases hunit
  have e : pack ((0x28, 57) :: [(g.val, 53), (b.val, 49), (o.val, 47), (c.val, 44), (d.val, 40), (sa.val, 30), (sb.val, 24), (i.val, 0)]) = w := Option.some.inj henc
  have fit : Fits [(g.val, 53), (b.val, 49), (o.val, 47), (c.val, 44), (d.val, 40), (sa.val, 30), (sb.val, 24), (i.val, 0)] [4, 4, 2, 3, 4, 6, 6, 15] 57 := ⟨g.isLt, by decide, ⟨b.isLt, by decide, ⟨o.isLt, by decide, ⟨c.isLt, by decide, ⟨d.isLt, by decide, ⟨sa.isLt, by decide, ⟨sb.isLt, by decide, ⟨i.isLt, by decide, trivial⟩⟩⟩⟩⟩⟩⟩⟩
  have g0 : Fits ((0x28, 57) :: [(g.val, 53), (b.val, 49), (o.val, 47), (c.val, 44), (d.val, 40), (sa.val, 30), (sb.val, 24), (i.val, 0)]) (7 :: [4, 4, 2, 3, 4, 6, 6, 15]) 64 := ⟨by decide, by decide, fit⟩
  have dcd : decodeC w = checked w [(15, 9), (36, 4)] [] (.psend (field 16 w 53) (field 16 w 49) (field 4 w 47) (field 8 w 44) (field 16 w 40) (field 64 w 30) (field 64 w 24) (field 32768 w 0)) := by
    unfold decodeC
    rw [show w / 2 ^ 57 = 0x28 from e ▸ pack_top fit]
    rfl
  show decodeC w = _
  rw [dcd, field_of (x := g) (len := 4) rfl ((e ▸ take_pack (lo := 53) (len := 4) g0 rfl : w / 2 ^ 53 % 2 ^ 4 = _)), field_of (x := b) (len := 4) rfl ((e ▸ take_pack (lo := 49) (len := 4) g0 rfl : w / 2 ^ 49 % 2 ^ 4 = _)), field_of (x := o) (len := 2) rfl ((e ▸ take_pack (lo := 47) (len := 2) g0 rfl : w / 2 ^ 47 % 2 ^ 2 = _)), field_of (x := c) (len := 3) rfl ((e ▸ take_pack (lo := 44) (len := 3) g0 rfl : w / 2 ^ 44 % 2 ^ 3 = _)), field_of (x := d) (len := 4) rfl ((e ▸ take_pack (lo := 40) (len := 4) g0 rfl : w / 2 ^ 40 % 2 ^ 4 = _)), field_of (x := sa) (len := 6) rfl ((e ▸ take_pack (lo := 30) (len := 6) g0 rfl : w / 2 ^ 30 % 2 ^ 6 = _)), field_of (x := sb) (len := 6) rfl ((e ▸ take_pack (lo := 24) (len := 6) g0 rfl : w / 2 ^ 24 % 2 ^ 6 = _)), field_of (x := i) (len := 15) rfl ((e ▸ take_pack (lo := 0) (len := 15) g0 rfl : w / 2 ^ 0 % 2 ^ 15 = _))]
  exact checked_of hwf (zero_cons ((e ▸ take_pack (lo := 15) (len := 9) g0 rfl : w / 2 ^ 15 % 2 ^ 9 = _)) (zero_cons ((e ▸ take_pack (lo := 36) (len := 4) g0 rfl : w / 2 ^ 36 % 2 ^ 4 = _)) rfl)) rfl

theorem Encoding.precv (g : Fin 16) (b : Fin 16) (o : Fin 4) (c : Fin 8) (d : Fin 16) (sa : Fin 64) (sc : Fin 64) (i : Fin 32768) : Encoding.Statement (.precv g b o c d sa sc i) := by
  intro hwf u w hunit henc
  cases hunit
  have e : pack ((0x29, 57) :: [(g.val, 53), (b.val, 49), (o.val, 47), (c.val, 44), (d.val, 40), (sa.val, 30), (sc.val, 18), (i.val, 0)]) = w := Option.some.inj henc
  have fit : Fits [(g.val, 53), (b.val, 49), (o.val, 47), (c.val, 44), (d.val, 40), (sa.val, 30), (sc.val, 18), (i.val, 0)] [4, 4, 2, 3, 4, 6, 6, 15] 57 := ⟨g.isLt, by decide, ⟨b.isLt, by decide, ⟨o.isLt, by decide, ⟨c.isLt, by decide, ⟨d.isLt, by decide, ⟨sa.isLt, by decide, ⟨sc.isLt, by decide, ⟨i.isLt, by decide, trivial⟩⟩⟩⟩⟩⟩⟩⟩
  have g0 : Fits ((0x29, 57) :: [(g.val, 53), (b.val, 49), (o.val, 47), (c.val, 44), (d.val, 40), (sa.val, 30), (sc.val, 18), (i.val, 0)]) (7 :: [4, 4, 2, 3, 4, 6, 6, 15]) 64 := ⟨by decide, by decide, fit⟩
  have dcd : decodeC w = checked w [(15, 3), (24, 6), (36, 4)] [] (.precv (field 16 w 53) (field 16 w 49) (field 4 w 47) (field 8 w 44) (field 16 w 40) (field 64 w 30) (field 64 w 18) (field 32768 w 0)) := by
    unfold decodeC
    rw [show w / 2 ^ 57 = 0x29 from e ▸ pack_top fit]
    rfl
  show decodeC w = _
  rw [dcd, field_of (x := g) (len := 4) rfl ((e ▸ take_pack (lo := 53) (len := 4) g0 rfl : w / 2 ^ 53 % 2 ^ 4 = _)), field_of (x := b) (len := 4) rfl ((e ▸ take_pack (lo := 49) (len := 4) g0 rfl : w / 2 ^ 49 % 2 ^ 4 = _)), field_of (x := o) (len := 2) rfl ((e ▸ take_pack (lo := 47) (len := 2) g0 rfl : w / 2 ^ 47 % 2 ^ 2 = _)), field_of (x := c) (len := 3) rfl ((e ▸ take_pack (lo := 44) (len := 3) g0 rfl : w / 2 ^ 44 % 2 ^ 3 = _)), field_of (x := d) (len := 4) rfl ((e ▸ take_pack (lo := 40) (len := 4) g0 rfl : w / 2 ^ 40 % 2 ^ 4 = _)), field_of (x := sa) (len := 6) rfl ((e ▸ take_pack (lo := 30) (len := 6) g0 rfl : w / 2 ^ 30 % 2 ^ 6 = _)), field_of (x := sc) (len := 6) rfl ((e ▸ take_pack (lo := 18) (len := 6) g0 rfl : w / 2 ^ 18 % 2 ^ 6 = _)), field_of (x := i) (len := 15) rfl ((e ▸ take_pack (lo := 0) (len := 15) g0 rfl : w / 2 ^ 0 % 2 ^ 15 = _))]
  exact checked_of hwf (zero_cons ((e ▸ take_pack (lo := 15) (len := 3) g0 rfl : w / 2 ^ 15 % 2 ^ 3 = _)) (zero_cons ((e ▸ take_pack (lo := 24) (len := 6) g0 rfl : w / 2 ^ 24 % 2 ^ 6 = _)) (zero_cons ((e ▸ take_pack (lo := 36) (len := 4) g0 rfl : w / 2 ^ 36 % 2 ^ 4 = _)) rfl))) rfl

theorem Encoding.pclose (g : Fin 16) (b : Fin 16) (d : Fin 16) : Encoding.Statement (.pclose g b d) := by
  intro hwf u w hunit henc
  cases hunit
  have e : pack ((0x2A, 57) :: [(g.val, 53), (b.val, 49), (d.val, 40)]) = w := Option.some.inj henc
  have fit : Fits [(g.val, 53), (b.val, 49), (d.val, 40)] [4, 4, 4] 57 := ⟨g.isLt, by decide, ⟨b.isLt, by decide, ⟨d.isLt, by decide, trivial⟩⟩⟩
  have g0 : Fits ((0x2A, 57) :: [(g.val, 53), (b.val, 49), (d.val, 40)]) (7 :: [4, 4, 4]) 64 := ⟨by decide, by decide, fit⟩
  have dcd : decodeC w = checked w [(0, 40), (44, 5)] [] (.pclose (field 16 w 53) (field 16 w 49) (field 16 w 40)) := by
    unfold decodeC
    rw [show w / 2 ^ 57 = 0x2A from e ▸ pack_top fit]
    rfl
  show decodeC w = _
  rw [dcd, field_of (x := g) (len := 4) rfl ((e ▸ take_pack (lo := 53) (len := 4) g0 rfl : w / 2 ^ 53 % 2 ^ 4 = _)), field_of (x := b) (len := 4) rfl ((e ▸ take_pack (lo := 49) (len := 4) g0 rfl : w / 2 ^ 49 % 2 ^ 4 = _)), field_of (x := d) (len := 4) rfl ((e ▸ take_pack (lo := 40) (len := 4) g0 rfl : w / 2 ^ 40 % 2 ^ 4 = _))]
  exact checked_of hwf (zero_cons ((e ▸ take_pack (lo := 0) (len := 40) g0 rfl : w / 2 ^ 0 % 2 ^ 40 = _)) (zero_cons ((e ▸ take_pack (lo := 44) (len := 5) g0 rfl : w / 2 ^ 44 % 2 ^ 5 = _)) rfl)) rfl

theorem Encoding.tbar (g : Fin 16) (b : Fin 16) (o : Fin 4) (c : Fin 8) (d : Fin 16) : Encoding.Statement (.tbar g b o c d) := by
  intro hwf u w hunit henc
  cases hunit
  have e : pack ((0x2B, 57) :: [(g.val, 53), (b.val, 49), (o.val, 47), (c.val, 44), (d.val, 40)]) = w := Option.some.inj henc
  have fit : Fits [(g.val, 53), (b.val, 49), (o.val, 47), (c.val, 44), (d.val, 40)] [4, 4, 2, 3, 4] 57 := ⟨g.isLt, by decide, ⟨b.isLt, by decide, ⟨o.isLt, by decide, ⟨c.isLt, by decide, ⟨d.isLt, by decide, trivial⟩⟩⟩⟩⟩
  have g0 : Fits ((0x2B, 57) :: [(g.val, 53), (b.val, 49), (o.val, 47), (c.val, 44), (d.val, 40)]) (7 :: [4, 4, 2, 3, 4]) 64 := ⟨by decide, by decide, fit⟩
  have dcd : decodeC w = checked w [(0, 40)] [] (.tbar (field 16 w 53) (field 16 w 49) (field 4 w 47) (field 8 w 44) (field 16 w 40)) := by
    unfold decodeC
    rw [show w / 2 ^ 57 = 0x2B from e ▸ pack_top fit]
    rfl
  show decodeC w = _
  rw [dcd, field_of (x := g) (len := 4) rfl ((e ▸ take_pack (lo := 53) (len := 4) g0 rfl : w / 2 ^ 53 % 2 ^ 4 = _)), field_of (x := b) (len := 4) rfl ((e ▸ take_pack (lo := 49) (len := 4) g0 rfl : w / 2 ^ 49 % 2 ^ 4 = _)), field_of (x := o) (len := 2) rfl ((e ▸ take_pack (lo := 47) (len := 2) g0 rfl : w / 2 ^ 47 % 2 ^ 2 = _)), field_of (x := c) (len := 3) rfl ((e ▸ take_pack (lo := 44) (len := 3) g0 rfl : w / 2 ^ 44 % 2 ^ 3 = _)), field_of (x := d) (len := 4) rfl ((e ▸ take_pack (lo := 40) (len := 4) g0 rfl : w / 2 ^ 40 % 2 ^ 4 = _))]
  exact checked_of hwf (zero_cons ((e ▸ take_pack (lo := 0) (len := 40) g0 rfl : w / 2 ^ 0 % 2 ^ 40 = _)) rfl) rfl

theorem Encoding.barsig (g : Fin 16) (o : Fin 4) (c : Fin 8) (d : Fin 16) : Encoding.Statement (.barsig g o c d) := by
  intro hwf u w hunit henc
  cases hunit
  have e : pack ((0x2C, 57) :: [(g.val, 53), (o.val, 47), (c.val, 44), (d.val, 40)]) = w := Option.some.inj henc
  have fit : Fits [(g.val, 53), (o.val, 47), (c.val, 44), (d.val, 40)] [4, 2, 3, 4] 57 := ⟨g.isLt, by decide, ⟨o.isLt, by decide, ⟨c.isLt, by decide, ⟨d.isLt, by decide, trivial⟩⟩⟩⟩
  have g0 : Fits ((0x2C, 57) :: [(g.val, 53), (o.val, 47), (c.val, 44), (d.val, 40)]) (7 :: [4, 2, 3, 4]) 64 := ⟨by decide, by decide, fit⟩
  have dcd : decodeC w = checked w [(0, 40), (49, 4)] [] (.barsig (field 16 w 53) (field 4 w 47) (field 8 w 44) (field 16 w 40)) := by
    unfold decodeC
    rw [show w / 2 ^ 57 = 0x2C from e ▸ pack_top fit]
    rfl
  show decodeC w = _
  rw [dcd, field_of (x := g) (len := 4) rfl ((e ▸ take_pack (lo := 53) (len := 4) g0 rfl : w / 2 ^ 53 % 2 ^ 4 = _)), field_of (x := o) (len := 2) rfl ((e ▸ take_pack (lo := 47) (len := 2) g0 rfl : w / 2 ^ 47 % 2 ^ 2 = _)), field_of (x := c) (len := 3) rfl ((e ▸ take_pack (lo := 44) (len := 3) g0 rfl : w / 2 ^ 44 % 2 ^ 3 = _)), field_of (x := d) (len := 4) rfl ((e ▸ take_pack (lo := 40) (len := 4) g0 rfl : w / 2 ^ 40 % 2 ^ 4 = _))]
  exact checked_of hwf (zero_cons ((e ▸ take_pack (lo := 0) (len := 40) g0 rfl : w / 2 ^ 0 % 2 ^ 40 = _)) (zero_cons ((e ▸ take_pack (lo := 49) (len := 4) g0 rfl : w / 2 ^ 49 % 2 ^ 4 = _)) rfl)) rfl

theorem Encoding.barset (g : Fin 16) (b : Fin 16) (sb : Fin 64) : Encoding.Statement (.barset g b sb) := by
  intro hwf u w hunit henc
  cases hunit
  have e : pack ((0x2D, 57) :: [(g.val, 53), (b.val, 49), (sb.val, 24)]) = w := Option.some.inj henc
  have fit : Fits [(g.val, 53), (b.val, 49), (sb.val, 24)] [4, 4, 6] 57 := ⟨g.isLt, by decide, ⟨b.isLt, by decide, ⟨sb.isLt, by decide, trivial⟩⟩⟩
  have g0 : Fits ((0x2D, 57) :: [(g.val, 53), (b.val, 49), (sb.val, 24)]) (7 :: [4, 4, 6]) 64 := ⟨by decide, by decide, fit⟩
  have dcd : decodeC w = checked w [(0, 24), (30, 19)] [] (.barset (field 16 w 53) (field 16 w 49) (field 64 w 24)) := by
    unfold decodeC
    rw [show w / 2 ^ 57 = 0x2D from e ▸ pack_top fit]
    rfl
  show decodeC w = _
  rw [dcd, field_of (x := g) (len := 4) rfl ((e ▸ take_pack (lo := 53) (len := 4) g0 rfl : w / 2 ^ 53 % 2 ^ 4 = _)), field_of (x := b) (len := 4) rfl ((e ▸ take_pack (lo := 49) (len := 4) g0 rfl : w / 2 ^ 49 % 2 ^ 4 = _)), field_of (x := sb) (len := 6) rfl ((e ▸ take_pack (lo := 24) (len := 6) g0 rfl : w / 2 ^ 24 % 2 ^ 6 = _))]
  exact checked_of hwf (zero_cons ((e ▸ take_pack (lo := 0) (len := 24) g0 rfl : w / 2 ^ 0 % 2 ^ 24 = _)) (zero_cons ((e ▸ take_pack (lo := 30) (len := 19) g0 rfl : w / 2 ^ 30 % 2 ^ 19 = _)) rfl)) rfl

theorem Encoding.ixopen (g : Fin 16) (b : Fin 16) (d : Fin 16) (sa : Fin 64) (sb : Fin 64) : Encoding.Statement (.ixopen g b d sa sb) := by
  intro hwf u w hunit henc
  cases hunit
  have e : pack ((0x30, 57) :: [(g.val, 53), (b.val, 49), (d.val, 40), (sa.val, 30), (sb.val, 24)]) = w := Option.some.inj henc
  have fit : Fits [(g.val, 53), (b.val, 49), (d.val, 40), (sa.val, 30), (sb.val, 24)] [4, 4, 4, 6, 6] 57 := ⟨g.isLt, by decide, ⟨b.isLt, by decide, ⟨d.isLt, by decide, ⟨sa.isLt, by decide, ⟨sb.isLt, by decide, trivial⟩⟩⟩⟩⟩
  have g0 : Fits ((0x30, 57) :: [(g.val, 53), (b.val, 49), (d.val, 40), (sa.val, 30), (sb.val, 24)]) (7 :: [4, 4, 4, 6, 6]) 64 := ⟨by decide, by decide, fit⟩
  have dcd : decodeC w = checked w [(0, 24), (36, 4), (44, 5)] [] (.ixopen (field 16 w 53) (field 16 w 49) (field 16 w 40) (field 64 w 30) (field 64 w 24)) := by
    unfold decodeC
    rw [show w / 2 ^ 57 = 0x30 from e ▸ pack_top fit]
    rfl
  show decodeC w = _
  rw [dcd, field_of (x := g) (len := 4) rfl ((e ▸ take_pack (lo := 53) (len := 4) g0 rfl : w / 2 ^ 53 % 2 ^ 4 = _)), field_of (x := b) (len := 4) rfl ((e ▸ take_pack (lo := 49) (len := 4) g0 rfl : w / 2 ^ 49 % 2 ^ 4 = _)), field_of (x := d) (len := 4) rfl ((e ▸ take_pack (lo := 40) (len := 4) g0 rfl : w / 2 ^ 40 % 2 ^ 4 = _)), field_of (x := sa) (len := 6) rfl ((e ▸ take_pack (lo := 30) (len := 6) g0 rfl : w / 2 ^ 30 % 2 ^ 6 = _)), field_of (x := sb) (len := 6) rfl ((e ▸ take_pack (lo := 24) (len := 6) g0 rfl : w / 2 ^ 24 % 2 ^ 6 = _))]
  exact checked_of hwf (zero_cons ((e ▸ take_pack (lo := 0) (len := 24) g0 rfl : w / 2 ^ 0 % 2 ^ 24 = _)) (zero_cons ((e ▸ take_pack (lo := 36) (len := 4) g0 rfl : w / 2 ^ 36 % 2 ^ 4 = _)) (zero_cons ((e ▸ take_pack (lo := 44) (len := 5) g0 rfl : w / 2 ^ 44 % 2 ^ 5 = _)) rfl))) rfl

theorem Encoding.ixlist (g : Fin 16) (b : Fin 16) (o : Fin 4) (c : Fin 8) (d : Fin 16) (sa : Fin 64) (sb : Fin 64) (i : Fin 32) : Encoding.Statement (.ixlist g b o c d sa sb i) := by
  intro hwf u w hunit henc
  cases hunit
  have e : pack ((0x31, 57) :: [(g.val, 53), (b.val, 49), (o.val, 47), (c.val, 44), (d.val, 40), (sa.val, 30), (sb.val, 24), (i.val, 0)]) = w := Option.some.inj henc
  have fit : Fits [(g.val, 53), (b.val, 49), (o.val, 47), (c.val, 44), (d.val, 40), (sa.val, 30), (sb.val, 24), (i.val, 0)] [4, 4, 2, 3, 4, 6, 6, 5] 57 := ⟨g.isLt, by decide, ⟨b.isLt, by decide, ⟨o.isLt, by decide, ⟨c.isLt, by decide, ⟨d.isLt, by decide, ⟨sa.isLt, by decide, ⟨sb.isLt, by decide, ⟨i.isLt, by decide, trivial⟩⟩⟩⟩⟩⟩⟩⟩
  have g0 : Fits ((0x31, 57) :: [(g.val, 53), (b.val, 49), (o.val, 47), (c.val, 44), (d.val, 40), (sa.val, 30), (sb.val, 24), (i.val, 0)]) (7 :: [4, 4, 2, 3, 4, 6, 6, 5]) 64 := ⟨by decide, by decide, fit⟩
  have dcd : decodeC w = checked w [(5, 19), (36, 4)] [] (.ixlist (field 16 w 53) (field 16 w 49) (field 4 w 47) (field 8 w 44) (field 16 w 40) (field 64 w 30) (field 64 w 24) (field 32 w 0)) := by
    unfold decodeC
    rw [show w / 2 ^ 57 = 0x31 from e ▸ pack_top fit]
    rfl
  show decodeC w = _
  rw [dcd, field_of (x := g) (len := 4) rfl ((e ▸ take_pack (lo := 53) (len := 4) g0 rfl : w / 2 ^ 53 % 2 ^ 4 = _)), field_of (x := b) (len := 4) rfl ((e ▸ take_pack (lo := 49) (len := 4) g0 rfl : w / 2 ^ 49 % 2 ^ 4 = _)), field_of (x := o) (len := 2) rfl ((e ▸ take_pack (lo := 47) (len := 2) g0 rfl : w / 2 ^ 47 % 2 ^ 2 = _)), field_of (x := c) (len := 3) rfl ((e ▸ take_pack (lo := 44) (len := 3) g0 rfl : w / 2 ^ 44 % 2 ^ 3 = _)), field_of (x := d) (len := 4) rfl ((e ▸ take_pack (lo := 40) (len := 4) g0 rfl : w / 2 ^ 40 % 2 ^ 4 = _)), field_of (x := sa) (len := 6) rfl ((e ▸ take_pack (lo := 30) (len := 6) g0 rfl : w / 2 ^ 30 % 2 ^ 6 = _)), field_of (x := sb) (len := 6) rfl ((e ▸ take_pack (lo := 24) (len := 6) g0 rfl : w / 2 ^ 24 % 2 ^ 6 = _)), field_of (x := i) (len := 5) rfl ((e ▸ take_pack (lo := 0) (len := 5) g0 rfl : w / 2 ^ 0 % 2 ^ 5 = _))]
  exact checked_of hwf (zero_cons ((e ▸ take_pack (lo := 5) (len := 19) g0 rfl : w / 2 ^ 5 % 2 ^ 19 = _)) (zero_cons ((e ▸ take_pack (lo := 36) (len := 4) g0 rfl : w / 2 ^ 36 % 2 ^ 4 = _)) rfl)) rfl

theorem Encoding.ixand (g : Fin 16) (b : Fin 16) (d : Fin 16) (sa : Fin 64) : Encoding.Statement (.ixand g b d sa) := by
  intro hwf u w hunit henc
  cases hunit
  have e : pack ((0x32, 57) :: [(g.val, 53), (b.val, 49), (d.val, 40), (sa.val, 30)]) = w := Option.some.inj henc
  have fit : Fits [(g.val, 53), (b.val, 49), (d.val, 40), (sa.val, 30)] [4, 4, 4, 6] 57 := ⟨g.isLt, by decide, ⟨b.isLt, by decide, ⟨d.isLt, by decide, ⟨sa.isLt, by decide, trivial⟩⟩⟩⟩
  have g0 : Fits ((0x32, 57) :: [(g.val, 53), (b.val, 49), (d.val, 40), (sa.val, 30)]) (7 :: [4, 4, 4, 6]) 64 := ⟨by decide, by decide, fit⟩
  have dcd : decodeC w = checked w [(0, 30), (36, 4), (44, 5)] [] (.ixand (field 16 w 53) (field 16 w 49) (field 16 w 40) (field 64 w 30)) := by
    unfold decodeC
    rw [show w / 2 ^ 57 = 0x32 from e ▸ pack_top fit]
    rfl
  show decodeC w = _
  rw [dcd, field_of (x := g) (len := 4) rfl ((e ▸ take_pack (lo := 53) (len := 4) g0 rfl : w / 2 ^ 53 % 2 ^ 4 = _)), field_of (x := b) (len := 4) rfl ((e ▸ take_pack (lo := 49) (len := 4) g0 rfl : w / 2 ^ 49 % 2 ^ 4 = _)), field_of (x := d) (len := 4) rfl ((e ▸ take_pack (lo := 40) (len := 4) g0 rfl : w / 2 ^ 40 % 2 ^ 4 = _)), field_of (x := sa) (len := 6) rfl ((e ▸ take_pack (lo := 30) (len := 6) g0 rfl : w / 2 ^ 30 % 2 ^ 6 = _))]
  exact checked_of hwf (zero_cons ((e ▸ take_pack (lo := 0) (len := 30) g0 rfl : w / 2 ^ 0 % 2 ^ 30 = _)) (zero_cons ((e ▸ take_pack (lo := 36) (len := 4) g0 rfl : w / 2 ^ 36 % 2 ^ 4 = _)) (zero_cons ((e ▸ take_pack (lo := 44) (len := 5) g0 rfl : w / 2 ^ 44 % 2 ^ 5 = _)) rfl))) rfl

theorem Encoding.ixor (g : Fin 16) (b : Fin 16) (d : Fin 16) (sa : Fin 64) : Encoding.Statement (.ixor g b d sa) := by
  intro hwf u w hunit henc
  cases hunit
  have e : pack ((0x33, 57) :: [(g.val, 53), (b.val, 49), (d.val, 40), (sa.val, 30)]) = w := Option.some.inj henc
  have fit : Fits [(g.val, 53), (b.val, 49), (d.val, 40), (sa.val, 30)] [4, 4, 4, 6] 57 := ⟨g.isLt, by decide, ⟨b.isLt, by decide, ⟨d.isLt, by decide, ⟨sa.isLt, by decide, trivial⟩⟩⟩⟩
  have g0 : Fits ((0x33, 57) :: [(g.val, 53), (b.val, 49), (d.val, 40), (sa.val, 30)]) (7 :: [4, 4, 4, 6]) 64 := ⟨by decide, by decide, fit⟩
  have dcd : decodeC w = checked w [(0, 30), (36, 4), (44, 5)] [] (.ixor (field 16 w 53) (field 16 w 49) (field 16 w 40) (field 64 w 30)) := by
    unfold decodeC
    rw [show w / 2 ^ 57 = 0x33 from e ▸ pack_top fit]
    rfl
  show decodeC w = _
  rw [dcd, field_of (x := g) (len := 4) rfl ((e ▸ take_pack (lo := 53) (len := 4) g0 rfl : w / 2 ^ 53 % 2 ^ 4 = _)), field_of (x := b) (len := 4) rfl ((e ▸ take_pack (lo := 49) (len := 4) g0 rfl : w / 2 ^ 49 % 2 ^ 4 = _)), field_of (x := d) (len := 4) rfl ((e ▸ take_pack (lo := 40) (len := 4) g0 rfl : w / 2 ^ 40 % 2 ^ 4 = _)), field_of (x := sa) (len := 6) rfl ((e ▸ take_pack (lo := 30) (len := 6) g0 rfl : w / 2 ^ 30 % 2 ^ 6 = _))]
  exact checked_of hwf (zero_cons ((e ▸ take_pack (lo := 0) (len := 30) g0 rfl : w / 2 ^ 0 % 2 ^ 30 = _)) (zero_cons ((e ▸ take_pack (lo := 36) (len := 4) g0 rfl : w / 2 ^ 36 % 2 ^ 4 = _)) (zero_cons ((e ▸ take_pack (lo := 44) (len := 5) g0 rfl : w / 2 ^ 44 % 2 ^ 5 = _)) rfl))) rfl

theorem Encoding.ixscore (g : Fin 16) (b : Fin 16) (d : Fin 16) (sa : Fin 64) : Encoding.Statement (.ixscore g b d sa) := by
  intro hwf u w hunit henc
  cases hunit
  have e : pack ((0x34, 57) :: [(g.val, 53), (b.val, 49), (d.val, 40), (sa.val, 30)]) = w := Option.some.inj henc
  have fit : Fits [(g.val, 53), (b.val, 49), (d.val, 40), (sa.val, 30)] [4, 4, 4, 6] 57 := ⟨g.isLt, by decide, ⟨b.isLt, by decide, ⟨d.isLt, by decide, ⟨sa.isLt, by decide, trivial⟩⟩⟩⟩
  have g0 : Fits ((0x34, 57) :: [(g.val, 53), (b.val, 49), (d.val, 40), (sa.val, 30)]) (7 :: [4, 4, 4, 6]) 64 := ⟨by decide, by decide, fit⟩
  have dcd : decodeC w = checked w [(0, 30), (36, 4), (44, 5)] [] (.ixscore (field 16 w 53) (field 16 w 49) (field 16 w 40) (field 64 w 30)) := by
    unfold decodeC
    rw [show w / 2 ^ 57 = 0x34 from e ▸ pack_top fit]
    rfl
  show decodeC w = _
  rw [dcd, field_of (x := g) (len := 4) rfl ((e ▸ take_pack (lo := 53) (len := 4) g0 rfl : w / 2 ^ 53 % 2 ^ 4 = _)), field_of (x := b) (len := 4) rfl ((e ▸ take_pack (lo := 49) (len := 4) g0 rfl : w / 2 ^ 49 % 2 ^ 4 = _)), field_of (x := d) (len := 4) rfl ((e ▸ take_pack (lo := 40) (len := 4) g0 rfl : w / 2 ^ 40 % 2 ^ 4 = _)), field_of (x := sa) (len := 6) rfl ((e ▸ take_pack (lo := 30) (len := 6) g0 rfl : w / 2 ^ 30 % 2 ^ 6 = _))]
  exact checked_of hwf (zero_cons ((e ▸ take_pack (lo := 0) (len := 30) g0 rfl : w / 2 ^ 0 % 2 ^ 30 = _)) (zero_cons ((e ▸ take_pack (lo := 36) (len := 4) g0 rfl : w / 2 ^ 36 % 2 ^ 4 = _)) (zero_cons ((e ▸ take_pack (lo := 44) (len := 5) g0 rfl : w / 2 ^ 44 % 2 ^ 5 = _)) rfl))) rfl

theorem Encoding.ixvec (g : Fin 16) (b : Fin 16) (o : Fin 4) (c : Fin 8) (d : Fin 16) (sa : Fin 64) (sb : Fin 64) : Encoding.Statement (.ixvec g b o c d sa sb) := by
  intro hwf u w hunit henc
  cases hunit
  have e : pack ((0x35, 57) :: [(g.val, 53), (b.val, 49), (o.val, 47), (c.val, 44), (d.val, 40), (sa.val, 30), (sb.val, 24)]) = w := Option.some.inj henc
  have fit : Fits [(g.val, 53), (b.val, 49), (o.val, 47), (c.val, 44), (d.val, 40), (sa.val, 30), (sb.val, 24)] [4, 4, 2, 3, 4, 6, 6] 57 := ⟨g.isLt, by decide, ⟨b.isLt, by decide, ⟨o.isLt, by decide, ⟨c.isLt, by decide, ⟨d.isLt, by decide, ⟨sa.isLt, by decide, ⟨sb.isLt, by decide, trivial⟩⟩⟩⟩⟩⟩⟩
  have g0 : Fits ((0x35, 57) :: [(g.val, 53), (b.val, 49), (o.val, 47), (c.val, 44), (d.val, 40), (sa.val, 30), (sb.val, 24)]) (7 :: [4, 4, 2, 3, 4, 6, 6]) 64 := ⟨by decide, by decide, fit⟩
  have dcd : decodeC w = checked w [(0, 24), (36, 4)] [] (.ixvec (field 16 w 53) (field 16 w 49) (field 4 w 47) (field 8 w 44) (field 16 w 40) (field 64 w 30) (field 64 w 24)) := by
    unfold decodeC
    rw [show w / 2 ^ 57 = 0x35 from e ▸ pack_top fit]
    rfl
  show decodeC w = _
  rw [dcd, field_of (x := g) (len := 4) rfl ((e ▸ take_pack (lo := 53) (len := 4) g0 rfl : w / 2 ^ 53 % 2 ^ 4 = _)), field_of (x := b) (len := 4) rfl ((e ▸ take_pack (lo := 49) (len := 4) g0 rfl : w / 2 ^ 49 % 2 ^ 4 = _)), field_of (x := o) (len := 2) rfl ((e ▸ take_pack (lo := 47) (len := 2) g0 rfl : w / 2 ^ 47 % 2 ^ 2 = _)), field_of (x := c) (len := 3) rfl ((e ▸ take_pack (lo := 44) (len := 3) g0 rfl : w / 2 ^ 44 % 2 ^ 3 = _)), field_of (x := d) (len := 4) rfl ((e ▸ take_pack (lo := 40) (len := 4) g0 rfl : w / 2 ^ 40 % 2 ^ 4 = _)), field_of (x := sa) (len := 6) rfl ((e ▸ take_pack (lo := 30) (len := 6) g0 rfl : w / 2 ^ 30 % 2 ^ 6 = _)), field_of (x := sb) (len := 6) rfl ((e ▸ take_pack (lo := 24) (len := 6) g0 rfl : w / 2 ^ 24 % 2 ^ 6 = _))]
  exact checked_of hwf (zero_cons ((e ▸ take_pack (lo := 0) (len := 24) g0 rfl : w / 2 ^ 0 % 2 ^ 24 = _)) (zero_cons ((e ▸ take_pack (lo := 36) (len := 4) g0 rfl : w / 2 ^ 36 % 2 ^ 4 = _)) rfl)) rfl

theorem Encoding.ixtopk (g : Fin 16) (b : Fin 16) (d : Fin 16) : Encoding.Statement (.ixtopk g b d) := by
  intro hwf u w hunit henc
  cases hunit
  have e : pack ((0x36, 57) :: [(g.val, 53), (b.val, 49), (d.val, 40)]) = w := Option.some.inj henc
  have fit : Fits [(g.val, 53), (b.val, 49), (d.val, 40)] [4, 4, 4] 57 := ⟨g.isLt, by decide, ⟨b.isLt, by decide, ⟨d.isLt, by decide, trivial⟩⟩⟩
  have g0 : Fits ((0x36, 57) :: [(g.val, 53), (b.val, 49), (d.val, 40)]) (7 :: [4, 4, 4]) 64 := ⟨by decide, by decide, fit⟩
  have dcd : decodeC w = checked w [(0, 40), (44, 5)] [] (.ixtopk (field 16 w 53) (field 16 w 49) (field 16 w 40)) := by
    unfold decodeC
    rw [show w / 2 ^ 57 = 0x36 from e ▸ pack_top fit]
    rfl
  show decodeC w = _
  rw [dcd, field_of (x := g) (len := 4) rfl ((e ▸ take_pack (lo := 53) (len := 4) g0 rfl : w / 2 ^ 53 % 2 ^ 4 = _)), field_of (x := b) (len := 4) rfl ((e ▸ take_pack (lo := 49) (len := 4) g0 rfl : w / 2 ^ 49 % 2 ^ 4 = _)), field_of (x := d) (len := 4) rfl ((e ▸ take_pack (lo := 40) (len := 4) g0 rfl : w / 2 ^ 40 % 2 ^ 4 = _))]
  exact checked_of hwf (zero_cons ((e ▸ take_pack (lo := 0) (len := 40) g0 rfl : w / 2 ^ 0 % 2 ^ 40 = _)) (zero_cons ((e ▸ take_pack (lo := 44) (len := 5) g0 rfl : w / 2 ^ 44 % 2 ^ 5 = _)) rfl)) rfl

theorem Encoding.ixdrain (g : Fin 16) (b : Fin 16) (o : Fin 4) (c : Fin 8) (d : Fin 16) (sa : Fin 64) (sc : Fin 64) : Encoding.Statement (.ixdrain g b o c d sa sc) := by
  intro hwf u w hunit henc
  cases hunit
  have e : pack ((0x37, 57) :: [(g.val, 53), (b.val, 49), (o.val, 47), (c.val, 44), (d.val, 40), (sa.val, 30), (sc.val, 18)]) = w := Option.some.inj henc
  have fit : Fits [(g.val, 53), (b.val, 49), (o.val, 47), (c.val, 44), (d.val, 40), (sa.val, 30), (sc.val, 18)] [4, 4, 2, 3, 4, 6, 6] 57 := ⟨g.isLt, by decide, ⟨b.isLt, by decide, ⟨o.isLt, by decide, ⟨c.isLt, by decide, ⟨d.isLt, by decide, ⟨sa.isLt, by decide, ⟨sc.isLt, by decide, trivial⟩⟩⟩⟩⟩⟩⟩
  have g0 : Fits ((0x37, 57) :: [(g.val, 53), (b.val, 49), (o.val, 47), (c.val, 44), (d.val, 40), (sa.val, 30), (sc.val, 18)]) (7 :: [4, 4, 2, 3, 4, 6, 6]) 64 := ⟨by decide, by decide, fit⟩
  have dcd : decodeC w = checked w [(0, 18), (24, 6), (36, 4)] [] (.ixdrain (field 16 w 53) (field 16 w 49) (field 4 w 47) (field 8 w 44) (field 16 w 40) (field 64 w 30) (field 64 w 18)) := by
    unfold decodeC
    rw [show w / 2 ^ 57 = 0x37 from e ▸ pack_top fit]
    rfl
  show decodeC w = _
  rw [dcd, field_of (x := g) (len := 4) rfl ((e ▸ take_pack (lo := 53) (len := 4) g0 rfl : w / 2 ^ 53 % 2 ^ 4 = _)), field_of (x := b) (len := 4) rfl ((e ▸ take_pack (lo := 49) (len := 4) g0 rfl : w / 2 ^ 49 % 2 ^ 4 = _)), field_of (x := o) (len := 2) rfl ((e ▸ take_pack (lo := 47) (len := 2) g0 rfl : w / 2 ^ 47 % 2 ^ 2 = _)), field_of (x := c) (len := 3) rfl ((e ▸ take_pack (lo := 44) (len := 3) g0 rfl : w / 2 ^ 44 % 2 ^ 3 = _)), field_of (x := d) (len := 4) rfl ((e ▸ take_pack (lo := 40) (len := 4) g0 rfl : w / 2 ^ 40 % 2 ^ 4 = _)), field_of (x := sa) (len := 6) rfl ((e ▸ take_pack (lo := 30) (len := 6) g0 rfl : w / 2 ^ 30 % 2 ^ 6 = _)), field_of (x := sc) (len := 6) rfl ((e ▸ take_pack (lo := 18) (len := 6) g0 rfl : w / 2 ^ 18 % 2 ^ 6 = _))]
  exact checked_of hwf (zero_cons ((e ▸ take_pack (lo := 0) (len := 18) g0 rfl : w / 2 ^ 0 % 2 ^ 18 = _)) (zero_cons ((e ▸ take_pack (lo := 24) (len := 6) g0 rfl : w / 2 ^ 24 % 2 ^ 6 = _)) (zero_cons ((e ▸ take_pack (lo := 36) (len := 4) g0 rfl : w / 2 ^ 36 % 2 ^ 4 = _)) rfl))) rfl

theorem Encoding.ixclose (g : Fin 16) (b : Fin 16) (d : Fin 16) : Encoding.Statement (.ixclose g b d) := by
  intro hwf u w hunit henc
  cases hunit
  have e : pack ((0x38, 57) :: [(g.val, 53), (b.val, 49), (d.val, 40)]) = w := Option.some.inj henc
  have fit : Fits [(g.val, 53), (b.val, 49), (d.val, 40)] [4, 4, 4] 57 := ⟨g.isLt, by decide, ⟨b.isLt, by decide, ⟨d.isLt, by decide, trivial⟩⟩⟩
  have g0 : Fits ((0x38, 57) :: [(g.val, 53), (b.val, 49), (d.val, 40)]) (7 :: [4, 4, 4]) 64 := ⟨by decide, by decide, fit⟩
  have dcd : decodeC w = checked w [(0, 40), (44, 5)] [] (.ixclose (field 16 w 53) (field 16 w 49) (field 16 w 40)) := by
    unfold decodeC
    rw [show w / 2 ^ 57 = 0x38 from e ▸ pack_top fit]
    rfl
  show decodeC w = _
  rw [dcd, field_of (x := g) (len := 4) rfl ((e ▸ take_pack (lo := 53) (len := 4) g0 rfl : w / 2 ^ 53 % 2 ^ 4 = _)), field_of (x := b) (len := 4) rfl ((e ▸ take_pack (lo := 49) (len := 4) g0 rfl : w / 2 ^ 49 % 2 ^ 4 = _)), field_of (x := d) (len := 4) rfl ((e ▸ take_pack (lo := 40) (len := 4) g0 rfl : w / 2 ^ 40 % 2 ^ 4 = _))]
  exact checked_of hwf (zero_cons ((e ▸ take_pack (lo := 0) (len := 40) g0 rfl : w / 2 ^ 0 % 2 ^ 40 = _)) (zero_cons ((e ▸ take_pack (lo := 44) (len := 5) g0 rfl : w / 2 ^ 44 % 2 ^ 5 = _)) rfl)) rfl

theorem Encoding.waittResume (a0 : Nat) : Encoding.Statement (.waittResume a0) :=
  fun _ _ _ h => nomatch h

theorem Encoding.ccRequestServe (a0 : Nat) : Encoding.Statement (.ccRequestServe a0) :=
  fun _ _ _ h => nomatch h

theorem Encoding.bookingLapse (a0 : Nat) (a1 : Nat) : Encoding.Statement (.bookingLapse a0 a1) :=
  fun _ _ _ h => nomatch h

theorem Encoding.mstepComplete (a0 : Nat) : Encoding.Statement (.mstepComplete a0) :=
  fun _ _ _ h => nomatch h

theorem Encoding.resultLand (a0 : Nat) : Encoding.Statement (.resultLand a0) :=
  fun _ _ _ h => nomatch h

theorem Encoding.cxferTargetSignal (a0 : Nat) (a1 : Nat) : Encoding.Statement (.cxferTargetSignal a0 a1) :=
  fun _ _ _ h => nomatch h

theorem Encoding.psendStore (a0 : Nat) (a1 : Nat) : Encoding.Statement (.psendStore a0 a1) :=
  fun _ _ _ h => nomatch h

theorem Encoding.precvReceive (a0 : Nat) (a1 : Nat) : Encoding.Statement (.precvReceive a0 a1) :=
  fun _ _ _ h => nomatch h

theorem Encoding.ixCommandStart (a0 : Nat) (a1 : Nat) : Encoding.Statement (.ixCommandStart a0 a1) :=
  fun _ _ _ h => nomatch h

theorem Encoding.commandAccept (a0 : Nat) (a1 : Fin 2) : Encoding.Statement (.commandAccept a0 a1) :=
  fun _ _ _ h => nomatch h

theorem Encoding.commandComplete (a0 : Nat) (a1 : Nat) : Encoding.Statement (.commandComplete a0 a1) :=
  fun _ _ _ h => nomatch h

theorem Encoding.pageFaultResolved (a0 : Nat) (a1 : Nat) : Encoding.Statement (.pageFaultResolved a0 a1) :=
  fun _ _ _ h => nomatch h

theorem Encoding.pageFaultUnresolvable (a0 : Nat) (a1 : Nat) : Encoding.Statement (.pageFaultUnresolvable a0 a1) :=
  fun _ _ _ h => nomatch h

theorem Encoding.invtlb (a0 : Fin 3) (a1 : Nat) (a2 : Nat) (a3 : Nat) : Encoding.Statement (.invtlb a0 a1 a2 a3) :=
  fun _ _ _ h => nomatch h

theorem Encoding.invtlbComplete (a0 : Nat) : Encoding.Statement (.invtlbComplete a0) :=
  fun _ _ _ h => nomatch h

theorem Encoding.migrationPage (a0 : Nat) : Encoding.Statement (.migrationPage a0) :=
  fun _ _ _ h => nomatch h

theorem Encoding.calendarTick (a0 : Nat) : Encoding.Statement (.calendarTick a0) :=
  fun _ _ _ h => nomatch h

theorem Encoding.headlandResolve (a0 : Nat) : Encoding.Statement (.headlandResolve a0) :=
  fun _ _ _ h => nomatch h

theorem Encoding.graceExpiry (a0 : Nat) : Encoding.Statement (.graceExpiry a0) :=
  fun _ _ _ h => nomatch h

theorem Encoding.overrun (a0 : Nat) : Encoding.Statement (.overrun a0) :=
  fun _ _ _ h => nomatch h

theorem Encoding.stakePlace (a0 : Nat) : Encoding.Statement (.stakePlace a0) :=
  fun _ _ _ h => nomatch h

theorem Encoding.stakeLapse (a0 : Nat) : Encoding.Statement (.stakeLapse a0) :=
  fun _ _ _ h => nomatch h

theorem Encoding.stageTeam (a0 : Nat) : Encoding.Statement (.stageTeam a0) :=
  fun _ _ _ h => nomatch h

theorem Encoding.taskRelease (a0 : Nat) : Encoding.Statement (.taskRelease a0) :=
  fun _ _ _ h => nomatch h

theorem Encoding.teamPlace (a0 : Nat) : Encoding.Statement (.teamPlace a0) :=
  fun _ _ _ h => nomatch h

theorem Encoding.quantumExpiry (a0 : Nat) : Encoding.Statement (.quantumExpiry a0) :=
  fun _ _ _ h => nomatch h

theorem Encoding.preempt (a0 : Nat) : Encoding.Statement (.preempt a0) :=
  fun _ _ _ h => nomatch h

theorem Encoding.drainEnd (a0 : Nat) : Encoding.Statement (.drainEnd a0) :=
  fun _ _ _ h => nomatch h

theorem Encoding.swapOutComplete (a0 : Nat) : Encoding.Statement (.swapOutComplete a0) :=
  fun _ _ _ h => nomatch h

theorem Encoding.swapInComplete (a0 : Nat) : Encoding.Statement (.swapInComplete a0) :=
  fun _ _ _ h => nomatch h

theorem Encoding.instanceComplete (a0 : Nat) : Encoding.Statement (.instanceComplete a0) :=
  fun _ _ _ h => nomatch h

theorem Encoding.siblingStop (a0 : Nat) (a1 : Nat) : Encoding.Statement (.siblingStop a0 a1) :=
  fun _ _ _ h => nomatch h

theorem Encoding.reservedCycle (a0 : Nat) : Encoding.Statement (.reservedCycle a0) :=
  fun _ _ _ h => nomatch h

theorem Encoding.refreshUrgent (a0 : Nat) : Encoding.Statement (.refreshUrgent a0) :=
  fun _ _ _ h => nomatch h

theorem Encoding.expiryWritebackComplete (a0 : Nat) (a1 : Nat) (a2 : Nat) : Encoding.Statement (.expiryWritebackComplete a0 a1 a2) :=
  fun _ _ _ h => nomatch h

theorem Encoding.turnRollback (a0 : Nat) (a1 : BitVec 64) : Encoding.Statement (.turnRollback a0 a1) :=
  fun _ _ _ h => nomatch h

theorem Encoding.rollbackRestart (a0 : Nat) : Encoding.Statement (.rollbackRestart a0) :=
  fun _ _ _ h => nomatch h

theorem Encoding.contextEnd (a0 : Nat) (a1 : Nat) (a2 : Nat) : Encoding.Statement (.contextEnd a0 a1 a2) :=
  fun _ _ _ h => nomatch h

theorem Encoding.bucketLeak (a0 : Fin 6) : Encoding.Statement (.bucketLeak a0) :=
  fun _ _ _ h => nomatch h

theorem Encoding.launchAdmit (a0 : Nat) : Encoding.Statement (.launchAdmit a0) :=
  fun _ _ _ h => nomatch h

theorem Encoding.waitReevaluate (a0 : Nat) : Encoding.Statement (.waitReevaluate a0) :=
  fun _ _ _ h => nomatch h

theorem Encoding.deferredWritePerform (a0 : Nat) : Encoding.Statement (.deferredWritePerform a0) :=
  fun _ _ _ h => nomatch h

theorem Encoding.queueUnpark (a0 : Nat) : Encoding.Statement (.queueUnpark a0) :=
  fun _ _ _ h => nomatch h

theorem Encoding.doorbellNotify (a0 : Nat) : Encoding.Statement (.doorbellNotify a0) :=
  fun _ _ _ h => nomatch h

theorem Encoding.permitReturn (a0 : Nat) (a1 : Bool) : Encoding.Statement (.permitReturn a0 a1) :=
  fun _ _ _ h => nomatch h

theorem Encoding.reductionContribution (a0 : Nat) (a1 : Nat) (a2 : Fin 8) (a3 : BitVec 64) : Encoding.Statement (.reductionContribution a0 a1 a2 a3) :=
  fun _ _ _ h => nomatch h

theorem Encoding.roundTimeout (a0 : Nat) (a1 : Nat) : Encoding.Statement (.roundTimeout a0 a1) :=
  fun _ _ _ h => nomatch h

theorem Encoding.peerTimeout (a0 : Nat) (a1 : Nat) : Encoding.Statement (.peerTimeout a0 a1) :=
  fun _ _ _ h => nomatch h

theorem Encoding.weightSetVerified (a0 : Nat) : Encoding.Statement (.weightSetVerified a0) :=
  fun _ _ _ h => nomatch h

theorem Encoding.cxlLinkTimeout (a0 : Nat) (a1 : Nat) : Encoding.Statement (.cxlLinkTimeout a0 a1) :=
  fun _ _ _ h => nomatch h

theorem Encoding.csrWrite (a0 : Nat) (a1 : Fin 3) (a2 : BitVec 64) : Encoding.Statement (.csrWrite a0 a1 a2) :=
  fun _ _ _ h => nomatch h

theorem Encoding.vctlWrite (a0 : Fin 3) (a1 : BitVec 64) : Encoding.Statement (.vctlWrite a0 a1) :=
  fun _ _ _ h => nomatch h

theorem Encoding.vseedWrite (a0 : Fin 3) (a1 : BitVec 64) : Encoding.Statement (.vseedWrite a0 a1) :=
  fun _ _ _ h => nomatch h

theorem Encoding.bstatWrite (a0 : Fin 16) (a1 : Fin 3) (a2 : BitVec 64) : Encoding.Statement (.bstatWrite a0 a1 a2) :=
  fun _ _ _ h => nomatch h

theorem Encoding.moncapWrite (a0 : Fin 3) (a1 : BitVec 64) : Encoding.Statement (.moncapWrite a0 a1) :=
  fun _ _ _ h => nomatch h

theorem Encoding.fallowBundle : Encoding.Statement (.fallowBundle) :=
  fun _ _ _ h => nomatch h

theorem Encoding.tickBoundary : Encoding.Statement (.tickBoundary) :=
  fun _ _ _ h => nomatch h

theorem Encoding.retentionTick : Encoding.Statement (.retentionTick) :=
  fun _ _ _ h => nomatch h

theorem Encoding.shadowLatchReplay (a0 : Fin 4) (a1 : Nat) (a2 : Nat) (a3 : Bool) : Encoding.Statement (.shadowLatchReplay a0 a1 a2 a3) :=
  fun _ _ _ h => nomatch h

theorem Encoding.katRun (a0 : Nat) (a1 : List (Nat × Nat)) : Encoding.Statement (.katRun a0 a1) :=
  fun _ _ _ h => nomatch h

theorem Encoding.globalScrub (a0 : Nat) (a1 : Fin 3) : Encoding.Statement (.globalScrub a0 a1) :=
  fun _ _ _ h => nomatch h

theorem Encoding.nop (a0 : Nat) : Encoding.Statement (.nop a0) :=
  fun _ _ _ h => nomatch h

theorem Encoding.launch (a0 : Nat) : Encoding.Statement (.launch a0) :=
  fun _ _ _ h => nomatch h

theorem Encoding.wait (a0 : Nat) : Encoding.Statement (.wait a0) :=
  fun _ _ _ h => nomatch h

theorem Encoding.signal (a0 : Nat) : Encoding.Statement (.signal a0) :=
  fun _ _ _ h => nomatch h

theorem Encoding.ibCall (a0 : Nat) : Encoding.Statement (.ibCall a0) :=
  fun _ _ _ h => nomatch h

theorem Encoding.pktFence (a0 : Nat) : Encoding.Statement (.pktFence a0) :=
  fun _ _ _ h => nomatch h

theorem Encoding.pktBook (a0 : Nat) : Encoding.Statement (.pktBook a0) :=
  fun _ _ _ h => nomatch h

theorem Encoding.pktCancel (a0 : Nat) : Encoding.Statement (.pktCancel a0) :=
  fun _ _ _ h => nomatch h

theorem Encoding.counter (a0 : Nat) : Encoding.Statement (.counter a0) :=
  fun _ _ _ h => nomatch h

theorem Encoding.timestamp (a0 : Nat) : Encoding.Statement (.timestamp a0) :=
  fun _ _ _ h => nomatch h

theorem Encoding.queueEnable (a0 : Nat) : Encoding.Statement (.queueEnable a0) :=
  fun _ _ _ h => nomatch h

theorem Encoding.queueDisable (a0 : Nat) : Encoding.Statement (.queueDisable a0) :=
  fun _ _ _ h => nomatch h

theorem Encoding.queueDescriptorWrite (a0 : Nat) (a1 : Fin 4) (a2 : BitVec 64) : Encoding.Statement (.queueDescriptorWrite a0 a1 a2) :=
  fun _ _ _ h => nomatch h

theorem Encoding.kickqWrite (a0 : Nat) (a1 : BitVec 64) : Encoding.Statement (.kickqWrite a0 a1) :=
  fun _ _ _ h => nomatch h

theorem Encoding.msgPlace (a0 : Nat) (a1 : Nat) : Encoding.Statement (.msgPlace a0 a1) :=
  fun _ _ _ h => nomatch h

theorem Encoding.msgBook (a0 : Nat) (a1 : Nat) : Encoding.Statement (.msgBook a0 a1) :=
  fun _ _ _ h => nomatch h

theorem Encoding.msgStage (a0 : Nat) (a1 : Nat) : Encoding.Statement (.msgStage a0 a1) :=
  fun _ _ _ h => nomatch h

theorem Encoding.msgRelease (a0 : Nat) (a1 : Nat) : Encoding.Statement (.msgRelease a0 a1) :=
  fun _ _ _ h => nomatch h

theorem Encoding.msgInvtlb (a0 : Nat) (a1 : Nat) : Encoding.Statement (.msgInvtlb a0 a1) :=
  fun _ _ _ h => nomatch h

theorem Encoding.msgRetire (a0 : Nat) (a1 : Nat) : Encoding.Statement (.msgRetire a0 a1) :=
  fun _ _ _ h => nomatch h

theorem Encoding.msgQuantum (a0 : Nat) (a1 : Nat) : Encoding.Statement (.msgQuantum a0 a1) :=
  fun _ _ _ h => nomatch h

theorem Encoding.msgPreempt (a0 : Nat) (a1 : Nat) : Encoding.Statement (.msgPreempt a0 a1) :=
  fun _ _ _ h => nomatch h

theorem Encoding.msgCancel (a0 : Nat) (a1 : Nat) : Encoding.Statement (.msgCancel a0 a1) :=
  fun _ _ _ h => nomatch h

theorem Encoding.msgBooked (a0 : Nat) (a1 : Nat) : Encoding.Statement (.msgBooked a0 a1) :=
  fun _ _ _ h => nomatch h

theorem Encoding.msgNofit (a0 : Nat) (a1 : Nat) : Encoding.Statement (.msgNofit a0 a1) :=
  fun _ _ _ h => nomatch h

theorem Encoding.msgStaged (a0 : Nat) (a1 : Nat) : Encoding.Statement (.msgStaged a0 a1) :=
  fun _ _ _ h => nomatch h

theorem Encoding.msgHalted (a0 : Nat) (a1 : Nat) : Encoding.Statement (.msgHalted a0 a1) :=
  fun _ _ _ h => nomatch h

theorem Encoding.msgSwapped (a0 : Nat) (a1 : Nat) : Encoding.Statement (.msgSwapped a0 a1) :=
  fun _ _ _ h => nomatch h

theorem Encoding.msgSlip (a0 : Nat) (a1 : Nat) : Encoding.Statement (.msgSlip a0 a1) :=
  fun _ _ _ h => nomatch h

theorem Encoding.msgEvent (a0 : Nat) (a1 : Nat) : Encoding.Statement (.msgEvent a0 a1) :=
  fun _ _ _ h => nomatch h

theorem Encoding.msgComplete (a0 : Nat) (a1 : Nat) : Encoding.Statement (.msgComplete a0 a1) :=
  fun _ _ _ h => nomatch h

theorem Encoding.msgFault (a0 : Nat) (a1 : Nat) : Encoding.Statement (.msgFault a0 a1) :=
  fun _ _ _ h => nomatch h

theorem Encoding.ccFailure (a0 : Nat) (a1 : Bool) : Encoding.Statement (.ccFailure a0 a1) :=
  fun _ _ _ h => nomatch h

theorem Encoding.moduleStop (a0 : Bool) : Encoding.Statement (.moduleStop a0) :=
  fun _ _ _ h => nomatch h

theorem Encoding.ctxCreate (a0 : List (BitVec 64)) : Encoding.Statement (.ctxCreate a0) :=
  fun _ _ _ h => nomatch h

theorem Encoding.ctxDestroy (a0 : List (BitVec 64)) : Encoding.Statement (.ctxDestroy a0) :=
  fun _ _ _ h => nomatch h

theorem Encoding.mbInvtlb (a0 : List (BitVec 64)) : Encoding.Statement (.mbInvtlb a0) :=
  fun _ _ _ h => nomatch h

theorem Encoding.migrate (a0 : List (BitVec 64)) : Encoding.Statement (.migrate a0) :=
  fun _ _ _ h => nomatch h

theorem Encoding.hashSet (a0 : List (BitVec 64)) : Encoding.Statement (.hashSet a0) :=
  fun _ _ _ h => nomatch h

theorem Encoding.powerSet (a0 : List (BitVec 64)) : Encoding.Statement (.powerSet a0) :=
  fun _ _ _ h => nomatch h

theorem Encoding.ckpt (a0 : List (BitVec 64)) : Encoding.Statement (.ckpt a0) :=
  fun _ _ _ h => nomatch h

theorem Encoding.restore (a0 : List (BitVec 64)) : Encoding.Statement (.restore a0) :=
  fun _ _ _ h => nomatch h

theorem Encoding.keyInstall (a0 : List (BitVec 64)) : Encoding.Statement (.keyInstall a0) :=
  fun _ _ _ h => nomatch h

theorem Encoding.wsetRegister (a0 : List (BitVec 64)) : Encoding.Statement (.wsetRegister a0) :=
  fun _ _ _ h => nomatch h

theorem Encoding.attest (a0 : List (BitVec 64)) : Encoding.Statement (.attest a0) :=
  fun _ _ _ h => nomatch h

theorem Encoding.windowOpen (a0 : List (BitVec 64)) : Encoding.Statement (.windowOpen a0) :=
  fun _ _ _ h => nomatch h

theorem Encoding.windowClose (a0 : List (BitVec 64)) : Encoding.Statement (.windowClose a0) :=
  fun _ _ _ h => nomatch h

theorem Encoding.mbRetire (a0 : List (BitVec 64)) : Encoding.Statement (.mbRetire a0) :=
  fun _ _ _ h => nomatch h

theorem Encoding.eventRead (a0 : List (BitVec 64)) : Encoding.Statement (.eventRead a0) :=
  fun _ _ _ h => nomatch h

theorem Encoding.hostCxlMemAccess (a0 : Nat) (a1 : Nat) (a2 : List (BitVec 8)) : Encoding.Statement (.hostCxlMemAccess a0 a1 a2) :=
  fun _ _ _ h => nomatch h

theorem Encoding.powerGood (a0 : Nat) (a1 : Nat) (a2 : Nat) (a3 : Nat) (a4 : Bool) : Encoding.Statement (.powerGood a0 a1 a2 a3 a4) :=
  fun _ _ _ h => nomatch h

theorem Encoding.moduleReset : Encoding.Statement (.moduleReset) :=
  fun _ _ _ h => nomatch h

theorem Encoding.thermalTrip (a0 : Nat) : Encoding.Statement (.thermalTrip a0) :=
  fun _ _ _ h => nomatch h

theorem Encoding.heartbeat : Encoding.Statement (.heartbeat) :=
  fun _ _ _ h => nomatch h

theorem Encoding.phiokReplay (a0 : Nat) : Encoding.Statement (.phiokReplay a0) :=
  fun _ _ _ h => nomatch h

theorem Encoding.portRetrain (a0 : Nat) (a1 : Bool) : Encoding.Statement (.portRetrain a0 a1) :=
  fun _ _ _ h => nomatch h

theorem Encoding.cxlLinkDown : Encoding.Statement (.cxlLinkDown) :=
  fun _ _ _ h => nomatch h

theorem Encoding.cxlLinkUp : Encoding.Statement (.cxlLinkUp) :=
  fun _ _ _ h => nomatch h

theorem Encoding.ideFailure : Encoding.Statement (.ideFailure) :=
  fun _ _ _ h => nomatch h

theorem Encoding.phiokInboundRequest (a0 : Fin 8) (a1 : Nat) (a2 : Nat) (a3 : List (BitVec 8)) : Encoding.Statement (.phiokInboundRequest a0 a1 a2 a3) :=
  fun _ _ _ h => nomatch h

theorem Encoding.checkpointComplete : Encoding.Statement (.checkpointComplete) :=
  fun _ _ _ h => nomatch h

theorem Encoding.restoreComplete : Encoding.Statement (.restoreComplete) :=
  fun _ _ _ h => nomatch h

theorem Encoding.ideKeyProgramming : Encoding.Statement (.ideKeyProgramming) :=
  fun _ _ _ h => nomatch h

end Sys2Proof.Laws
end

