-- ==== Sys2Proof/Tests/Slice0.lean ====
section
/-! SUPPORT. Tests: words of the spec decoded, ill-formed terms refused, results that the spec states, and for every statement with
hypotheses a state that meets them. -/

open Sys2Proof Sys2Proof.Machine

set_option Elab.async false

namespace Sys2Proof.Tests

/-! ### Decoding: bodies written out from the encodings of 08_encoding.md and the spec's own example words -/

/-- S slot: opcode in bits 31-25, rd in 24-19, ra in 18-13, rb in 12-7 or imm13 in 12-0 (R223). -/
theorem test_decode_scalar : decodeBody .s (0x01 * 2 ^ 25 + 10 * 2 ^ 19 + 9 * 2 ^ 13 + 5 * 2 ^ 7) = .ok (.add 10 9 5) ∧
    decodeBody .s (0x20 * 2 ^ 25 + 2 * 2 ^ 19 + 3 * 2 ^ 13 + 8) = .ok (.addi 2 3 8) := by decide
theorem test_decode_compare : decodeBody .s (0x17 * 2 ^ 25 + 9 * 2 ^ 19 + 8 * 2 ^ 13 + 7 * 2 ^ 7 + 4) = .ok (.cmp 9 8 7 4) := by decide
theorem test_decode_loop : decodeBody .s 0x72001204 = .ok (.loopi 0 0 18 4) := by decide
theorem test_decode_branch : decodeBody .s 0x60000045 = .ok (.br 0x45) := by decide
theorem test_decode_load : decodeBody .s 0x80285802 = .ok (.ld 5 2 3 2) := by decide
theorem test_decode_csr : decodeBody .s 0x90381000 = .ok (.csrr 7 0x800) ∧ decodeBody .s 0x92008041 = .ok (.csrw 0 4 0x020 1) := by decide
theorem test_decode_system : decodeBody .s 0xB2600000 = .ok (.waitb 3) ∧ decodeBody .s 0xB6000077 = .ok (.trap 119) ∧
    decodeBody .s 0xB1380000 = .ok (.fence 2 3 1) := by decide
theorem test_decode_task : decodeBody .s 0xC0414580 = .ok (.book 8 10 11) := by decide
theorem test_decode_vector : decodeBody .v0 0x02182111 = .ok (.vadd 3 1 2 1 1) ∧ decodeBody .v1 0x60490C80 = .ok (.vcvt 9 8 3 1 0) := by decide
theorem test_decode_permute : decodeBody .v0 0x78AC5500 = .ok (.vrot 21 34 5 32 0) ∧ decodeBody .v0 0x76BAD418 = .ok (.vshuf 23 22 5 3 0) := by decide
theorem test_decode_vector_memory : decodeBody .v0 0xA0386020 = .ok (.vld 7 3 2 0) := by decide
theorem test_decode_matrix : decodeBody .m 0x0804000900000001 = .ok (.mstep 0 0 4 0 0 0 9 1) ∧
    decodeBody .m 0x040C000800000000 = .ok (.mldb 1 4 0 0 0 8) ∧ decodeBody .m 0x1014000020000000 = .ok (.mrd 0 2 4 0 0 0 1 0) := by decide
theorem test_decode_transpose : decodeBody .x 0x28401000 = .ok (.xget 33 0 1 0) := by decide
theorem test_decode_copy : decodeBody .c0 0x0407320000000000 = .ok (.cget 0 3 2 3 2 0 0 0 0 0 0) ∧
    decodeBody .c1 0x0806030000240000 = .ok (.cxfer 0 3 0 0 3 0 0 9 0) := by decide
theorem test_decode_atomic : decodeBody .c0 0x360130008B288000 = .ok (.adecp 0 0 2 3 2 11 10 1 0) ∧
    decodeBody .c0 0x3208B0079F0C8000 = .ok (.axchg 0 4 1 3 30 31 3 1 0) := by decide
theorem test_decode_wait : decodeBody .c0 0x4003300780148080 = .ok (.waita 0 1 2 3 30 0 5 1 128) ∧
    decodeBody .c0 0x4200000106280004 = .ok (.wake 0 0 0 0 4 6 10 4) := by decide
theorem test_decode_index : decodeBody .c0 0x68040101C0000000 = .ok (.ixscore 0 2 1 7) ∧
    decodeBody .c0 0x6205310146000000 = .ok (.ixlist 0 2 2 3 1 5 6 0) ∧ decodeBody .c0 0x600200028C000000 = .ok (.ixopen 0 1 0 10 12) := by decide

/-- The bundle of the store and loop example: three slots after a header of one byte, 17 bytes (R212). -/
theorem test_decode_bundle :
    parseBundle 0 (fun _ => none) [0x23, 0x01, 0x58, 0x28, 0x80, 0xB0, 0x40, 0x24, 0x02, 0, 0, 0, 0, 0, 0, 0, 0x04] =
      .bundle ⟨0x23, 0, none, [⟨.s, false, some 0x80285801⟩, ⟨.v0, false, some 0x022440B0⟩, ⟨.c0, false, some 0x0400000000000000⟩], 17⟩ := by decide
theorem test_decode_fallow : decode [0x80, 0x00] = some (.fallowBundle, []) := by decide
/-- A repeat bit without its slot bit is malformed with reason 1; an increment that no slot takes, with reason 2 (R213). -/
theorem test_decode_malformed : parseBundle 0 (fun _ => none) [0x81, 0x02, 0, 0, 0, 0] = .malformed 1 0x81 0x02 0 ∧
    parseBundle 0 (fun _ => none) [0x81, 0x80, 0x08, 0x00, 0, 0, 0, 0] = .malformed 2 0x81 0x80 8 := by decide

/-! ### Ill-formed terms, one for each check -/

/-- Condition codes, ring records, ring counts, fence modes and scopes (R453). -/
theorem test_ill_formed_scalar : (Instr.cmp 1 0 0 6).wf = false ∧ (Instr.rcfg 0 3 4 0).wf = false ∧ (Instr.rcfg 0 3 0 4).wf = false ∧
    (Instr.rfill 0 9).wf = false ∧ (Instr.fence 0 1 0).wf = false ∧ (Instr.fence 1 5 0).wf = false := by decide
/-- Formats that an operation does not take (R269). -/
theorem test_ill_formed_formats : (Instr.vadd 3 1 2 3 0).wf = false ∧ (Instr.vabs 3 1 5 0).wf = false ∧ (Instr.vrcp 3 1 3 0).wf = false ∧
    (Instr.viadd 3 1 2 4 0).wf = false ∧ (Instr.vrsum 3 1 3 0).wf = false ∧ (Instr.vqnt 3 1 3 0 0 0).wf = false ∧
    (Instr.vqnt 3 1 0 3 0 0).wf = false ∧ (Instr.vdqnt 3 1 0 3 0 0).wf = false := by decide
/-- Widths and patterns. -/
theorem test_ill_formed_widths : (Instr.vbcst 3 1 3 0).wf = false ∧ (Instr.vidx 3 1 2 3 0).wf = false ∧ (Instr.vins 3 1 2 3 0).wf = false ∧
    (Instr.vext 3 1 2 3).wf = false ∧ (Instr.vlds 3 1 2 4 0).wf = false ∧ (Instr.vsts 3 1 2 4 0).wf = false ∧
    (Instr.vshuf 3 1 0 4 0).wf = false ∧ (Instr.xput 3 0 3 0).wf = false ∧ (Instr.xget 3 0 3 0).wf = false := by decide
/-- Specifiers: reserved sources, special destinations, a mask destination m0, and the address operands of a gather (R220). -/
theorem test_ill_formed_operands : (Instr.vadd 3 60 2 0 0).wf = false ∧ (Instr.vadd 3 1 60 0 0).wf = false ∧ (Instr.vadd 48 1 2 0 0).wf = false ∧
    (Instr.vmand 0 1 2).wf = false ∧ (Instr.vcmp 0 0 1 2 0 0).wf = false ∧ (Instr.vgth 3 1 2 0 0).wf = false ∧ (Instr.vst 60 1 0 0).wf = false ∧
    (Instr.vmpop 48 1).wf = false ∧ (Instr.vext 60 1 2 0).wf = false ∧ (Instr.vcmpr 0 60 0 0).wf = false ∧ (Instr.vcmpr 0 48 0 0).wf = false := by decide
/-- Guards 1 to 7 name nothing on the M, X and C slots (R221). -/
theorem test_ill_formed_guards : (Instr.mzero 0 1).wf = false ∧ (Instr.xclr 7).wf = false ∧ (Instr.xput 3 0 0 1).wf = false ∧ (Instr.xput 60 0 0 0).wf = false ∧
    (Instr.xget 48 0 0 0).wf = false ∧ (Instr.barset 7 0 0).wf = false := by decide
/-- Matrix formats and ring pairs (R295, R304). -/
theorem test_ill_formed_matrix : (Instr.mldb 0 5 0 0 0 0).wf = false ∧ (Instr.mldb 0 3 1 0 0 0).wf = false ∧ (Instr.mwr 0 1 0 0 0).wf = false := by decide
/-- Orders, scopes and widths of commands (R318, R324, R351). -/
theorem test_ill_formed_commands : (Instr.cget 0 0 0 1 0 0 0 0 0 0 0).wf = false ∧ (Instr.cget 0 0 1 5 0 0 0 0 0 0 0).wf = false ∧
    (Instr.cget 0 0 1 1 0 10 0 0 0 0 0).wf = false ∧ (Instr.cget 0 0 1 1 0 2 0 0 0 3 0).wf = false ∧ (Instr.cget 0 0 1 1 0 1 0 0 0 1 0).wf = false ∧
    (Instr.cdset 0 0 0 4).wf = false ∧ (Instr.aadd 0 0 1 1 0 0 0 2 0).wf = false ∧ (Instr.ared 0 0 1 1 0 0 5).wf = false ∧
    (Instr.psend 0 0 2 1 0 0 0 0).wf = false ∧ (Instr.precv 0 0 1 1 0 0 0 0).wf = false ∧ (Instr.psend 0 0 1 5 0 0 0 0).wf = false ∧
    (Instr.precv 0 0 2 5 0 0 0 0).wf = false ∧ (Instr.tbar 0 0 0 1 0).wf = false ∧ (Instr.tbar 0 0 3 1 4).wf = false ∧
    (Instr.barsig 0 1 1 4).wf = false ∧ (Instr.cmigr 0 0 1 1 0 0 0 3).wf = false := by decide

/-! ### Small states -/

/-- What `g` says of the state that `i` leaves. -/
def after {α : Type} (i : Instr) (s : State) (g : State → α) : Option α :=
  match exec i s with
  | .next t => some (g t)
  | _ => none

/-- Core 0 with a program loaded, 64 KiB of its field and of the commons declared as regions, and four groups of each valid. -/
def base : Core :=
  { (State.reset.core 0).loaded [] with
    rgn := ((Vector.replicate 16 Region.init).set 0 ⟨true, false, 0, 0x10000, 0, 0, 0, false, 0⟩).set 1 ⟨true, true, 0x2000000, 0x10000, 0, 0, 0, false, 0⟩,
    field := { Local.init with groups := [(0, { Group.init with valid := true }), (1, { Group.init with valid := true })] } }

/-- The machine with that core, changed by `f`, and its bundle in hand. -/
def machine (f : Core → Core) : State :=
  { State.reset with
    power := .up, cores := [(0, f base)],
    clusters := [(0, { Cluster.init with
      commons := { Local.init with groups := [(0, { Group.init with valid := true }), (1, { Group.init with valid := true })] } })] }

/-- A core with `s_n` set, with `v_n` set, and with a ring set. -/
def sreg (n : Fin 64) (v : Nat) (c : Core) : Core := { c with x := { c.x with s := c.x.s.set n (.ofNat 64 v) } }
def vreg (n : Fin 32) (v : Vec) (c : Core) : Core := { c with vec := { c.vec with v := c.vec.v.set n v } }
def withRing (q : Fin 16) (r : Ring) (c : Core) : Core := c.setRing q r
/-- A ring of 8 full entries that holds `v` in each, and one of read threshold `r`. -/
def fullRing (r : Nat) (v : Vec) : Ring := { Ring.init with rt := r, h := 8, st := Vector.replicate 8 .full, data := Vector.replicate 8 v }

/-- A booking of core 0 for team 3. -/
def furrow1 : Furrow := ⟨4, 0, 1, 63, 8, true, 0, 0, 255, 255, 0, 0, 0⟩
def bookingOf (kind : BookKind) (index first dur grace : Nat) : Booking :=
  { core := 0, team := 3, kind := kind, index := index, vec := furrow1, first := first, dur := dur, slack := 0, grace := grace, fallow := [], last := first + dur - 1,
    left := 0, expired := false, long := false }

/-! ### Results that the spec states -/

theorem test_add_wraps : after (.add 3 1 2) (machine (sreg 1 (2 ^ 64 - 1) ∘ sreg 2 3)) (fun t => (t.core 0).rs 3) = some 2 := by decide
theorem test_sub_borrows : after (.sub 1 1 2) (machine (sreg 1 2 ∘ sreg 2 3)) (fun t => (t.core 0).rs 1) = some (BitVec.allOnes 64) := by decide
theorem test_srai_sign : after (.srai 1 1 4) (machine (sreg 1 (2 ^ 63))) (fun t => (t.core 0).rs 1) = some 0xF800000000000000 := by decide
theorem test_lih_places : after (.lih 1 0x40001) (machine id) (fun t => (t.core 0).rs 1) = some 0xFFFFFFFF80002000 := by decide
theorem test_s0_discards : after (.addi 0 0 5) (machine id) (fun t => (t.core 0).x.s) = some (Vector.replicate 64 0) := by decide
/-- DIV truncates toward zero, and a division by zero gives −1 (R241); the result is due 18 cycles later (R239). -/
theorem test_div_truncates : after (.div 3 1 2) (machine (sreg 1 (2 ^ 64 - 7) ∘ sreg 2 2)) (fun t => (t.core 0).flight.map (fun l => (l.due, l.value.toNat))) =
    some [(18, 2 ^ 64 - 3)] := by decide
theorem test_div_by_zero : after (.div 3 1 2) (machine (sreg 1 7)) (fun t => (t.core 0).flight.map (fun l => (l.due, l.value.toNat))) =
    some [(18, 2 ^ 64 - 1)] := by decide
theorem test_cmp_signs : after (.cmp 1 1 2 2) (machine (sreg 1 (2 ^ 64 - 1))) (fun t => (t.core 0).rp 1) = some true ∧
    after (.cmp 1 1 2 4) (machine (sreg 1 (2 ^ 64 - 1))) (fun t => (t.core 0).rp 1) = some false := by decide
/-- LOOPI pushes the loop whose body starts after the bundle; with a count of 0 the body is skipped (R252). -/
theorem test_loopi_pushes : after (.loopi 0 0 18 4) (machine id) (fun t => ((t.core 0).x.loops.map (fun l => (l.start, l.stop, l.total)), (t.core 0).seq.pc)) =
    some ([(0, 19, 4)], 0) := by decide
theorem test_loopi_skips : after (.loopi 0 0 18 0) (machine id) (fun t => ((t.core 0).x.loops, (t.core 0).seq.pc)) = some ([], 19) := by decide
/-- The trap of the spec's store example: `LD.d s5, [s2 + 8]` with s2 = 0x1004 traps at 0x100C with CAUSE 0x8_0000_0011 (R456). -/
theorem test_misaligned_load : after (.ld 5 2 3 1) (machine (sreg 2 0x1004))
      (fun t => ((t.core 0).csr.trapCause, (t.core 0).csr.trapAddr, (t.core 0).csr.trapSrc, (t.core 0).seq.mode)) =
    some (0x800000011, 0x100C, 0x80285801, Mode.halted) := by decide
/-- A store waits for its port; in the port's cycle its bytes are there, lowest first. -/
theorem test_store_bytes : after (.st 5 2 1 0) (machine (sreg 2 0x100 ∘ sreg 5 0x12345))
      (fun t => ((t.core 0).field.cells, (((t.core 0).unserved.foldl (fun s p => s.serveSlot 0 p) t).core 0).field.cells)) =
    some ([], [(0x100, 0x45), (0x101, 0x23)]) := by decide +kernel
theorem test_csrw_vctl : after (.csrw 5 4 0x020 1) (machine id) (fun t => (t.core 0).csr.vctl) = some 4 ∧
    after (.csrw 5 6 0x020 1) (machine id) (fun t => (t.core 0).csr.trapCause) = some 0x4000000004 := by decide
/-- TRAP 119 (24_fabric_faults_recovery.md): CAUSE 0x0000_0077_0000_0030, SRC 0xB600_0077. -/
theorem test_trap_record : after (.trap 119) (machine id) (fun t => ((t.core 0).csr.trapCause, (t.core 0).csr.trapSrc)) =
    some (0x0000007700000030, 0xB6000077) := by decide
/-- Row 11 of R263's table: RADV.w moves wp and grows h. -/
theorem test_radv_w : after (.radv 4 1 0 0) (machine (withRing 4 { Ring.init with depth := 2 })) (fun t => ((t.core 0).ring 4).wp) = some 1 ∧
    after (.radv 4 1 0 0) (machine (withRing 4 { Ring.init with depth := 2 })) (fun t => ((t.core 0).ring 4).h) = some 1 := by decide
/-- 1.0 + 1.0 in BF16 is 2.0, and 1.0 − 1.0 is +0; lane 0 of v3, due after 4 cycles (R268). -/
theorem test_vadd_bf16 : after (.vadd 3 1 2 1 0) (machine (vreg 1 0x3F80 ∘ vreg 2 0x3F80)) (fun t => (t.core 0).flight.map (fun l => (l.due, l.value.toNat % 65536))) =
    some [(4, 0x4000)] := by decide +kernel
/-- R207's example: lane 0 holds 2^24, lanes 1 to 3 hold 1.0; VRSUM.fp32 gives 16,777,218 and sets NX. -/
theorem test_vrsum_tree : after (.vrsum 3 1 0 0) (machine (vreg 1 (vecOf 32 [0x4B800000, 0x3F800000, 0x3F800000, 0x3F800000])))
    (fun t => ((t.core 0).flight.map (fun l => l.value.toNat), (t.core 0).csr.vstat)) = some ([0x4B800001], 0x10) := by decide +kernel
/-- Step 1 of R291's table: 40 enabled elements of 4 bytes are staged in entry 0. -/
theorem test_vcmpr_stages : after (.vcmpr 6 2 5 3) (machine ((fun c => { c with vec := { c.vec with m := c.vec.m.set 3 (BitVec.ofNat 256 (2 ^ 40 - 1)) } }) ∘
      withRing 6 { Ring.init with depth := 4 })) (fun t => (((t.core 0).ring 6).sw, ((t.core 0).ring 6).wp)) = some (160, 0) := by decide
/-- BARSET clamps EXP to 65,535, and CDSET writes the double it names (R315, R319). -/
theorem test_barset_clamps : after (.barset 0 3 1) (machine (sreg 1 70000)) (fun t => ((t.core 0).bars[3]).exp) = some 65535 := by decide
theorem test_cdset_writes : after (.cdset 0 2 1 3) (machine (sreg 1 77)) (fun t => ((t.core 0).desc[2])[3]) = some 77 := by decide
/-- A CGET enters its queue, and its weight, ROWS × RBYTES, enters PEND (R316). -/
theorem test_cget_weight : after (.cget 0 3 2 3 2 0 0 0 0 0 0) (machine (fun c => { c with desc := c.desc.set 2 #v[0, 0, 0, BitVec.ofNat 64 (3 * 2 ^ 24 + 64)] }))
    (fun t => ((t.core 0).queue0.length, ((t.core 0).bars[3]).pend)) = some (1, 256) := by decide
theorem test_exit_halts : after .exit (machine id) (fun t => (t.core 0).seq.mode) = some Mode.halted := by decide
theorem test_mstep_gap : after (.mstep 0 0 1 0 0 0 0 0) (machine (withRing 0 (fullRing 8 0) ∘ fun c => { c with mat := { c.mat with lastStep := some 0 }, seq := { c.seq with wc := 7 } }))
    (fun t => (t.core 0).csr.trapCause) = some 0x70003001B := by decide
/-- INVTLB of a context drops its translations at once (R139). -/
theorem test_invtlb_drops : after (.invtlb 1 5 0 0) (machine (fun c => { c with tlb := [⟨5, 0, 65536, 1, false⟩, ⟨6, 0, 65536, 1, false⟩] })) (fun t => (t.core 0).tlb.map Xlat.ctx) =
    some [6] := by decide
/-- A heartbeat leaves by each of the 18 ports (R506). -/
theorem test_heartbeat : after .heartbeat (machine id) (fun t => t.beats) = some 18 := by decide
/-- POWER_SET of the spec's example: 3,000 W over equal weights gives every island 33 EQ (R413). -/
theorem test_power_share : ((machine id).newLimits (3000 :: [0x0101010101010101, 0x0101010101010101, 0x0101010101010101, 0x0101010101010101])).map (fun l => l.map Prod.snd) =
    some (List.replicate 32 33) := by decide

/-! ### Witnesses: states and operands that meet the hypotheses of the statements -/

def ready (i : Instr) (s : State) : Bool :=
  decide (s.view.ringState i = .met) && (s.view.checkTrap i).isNone && !(i.guard.map s.view.guardOff).getD false && (s.view.depthTrap i).isNone

theorem ready_of {i : Instr} {s : State} (h : ready i s = true) : Ready i s := by
  simp only [ready, Bool.and_eq_true, decide_eq_true_eq, Option.isNone_iff_eq_none, Bool.not_eq_true'] at h
  exact ⟨h.1.1.1, h.1.1.2, h.1.2, h.2⟩

def last (i : Instr) (s : State) : Bool :=
  !s.issue.more && (firstTwice (s.issue.dests ++ i.dests)).isNone && decide (s.issue.leave = .stay) && !s.issue.reseed && s.issue.post.isNone && s.issue.moncap.isNone

theorem last_of {i : Instr} {s : State} (h : last i s = true) : Last i s := by
  simp only [last, Bool.and_eq_true, decide_eq_true_eq, Option.isNone_iff_eq_none, Bool.not_eq_true'] at h
  exact ⟨h.1.1.1.1.1, h.1.1.1.1.2, h.1.1.1.2, h.1.1.2, h.1.2, h.2⟩

/-- The machine with every ring empty, and with every ring full. -/
def idle : State := machine id
def fed : State := machine (fun c => { c with rings := Vector.replicate 16 (fullRing 1 0) })

/-- One operation of each scalar constructor that is ready where the rings are empty. -/
def computeOps : List Instr :=
  [.add 1 2 3, .sub 1 2 3, .mul 1 2 3, .mulh 1 2 3, .mulhn 1 2 3, .div 1 2 3, .divn 1 2 3, .rem 1 2 3, .remn 1 2 3, .and 1 2 3, .or 1 2 3,
   .xor 1 2 3, .shl 1 2 3, .shr 1 2 3, .sra 1 2 3, .min 1 2 3, .max 1 2 3, .minn 1 2 3, .maxn 1 2 3, .clz 1 2, .popc 1 2, .sel 1 2 3 4,
   .cmp 1 2 3 5, .pand 1 2 3, .por 1 2 3, .pxor 1 2 3, .pnot 1 2, .jr 1 2, .ret 55, .addi 1 2 8191, .andi 1 2 3, .ori 1 2 3, .xori 1 2 3,
   .shli 1 2 63, .shri 1 2 3, .srai 1 2 3, .cmpi 3 1 2 4, .lih 1 2, .br 1048575, .brc 1 0 4, .call 4, .loop 0 7 4095 1, .loopi 3 0 0 255]
def controlOps : List Instr :=
  [.lexit 0, .ld 1 2 3 0, .st 1 2 3 0, .ldc 1 2 3 0, .stc 1 2 3 0, .csrr 1 0x800, .csrw 1 2 0x020 0, .csrs 1 2 0x008 1, .csrc 1 2 0x021 0,
   .radv 4 1 7 0, .rcfg 4 7 7 7, .rfill 4 8, .fence 3 4 1, .waitb 15, .waitt 1, .trap 119, .brkpt 0, .exit, .turn 1 2, .yield, .book 1 2 3,
   .unbook 1 2 3, .bqry 1 2 3, .spawn 1 2 3, .cancel 1 2 3]

/-- The same of the vector constructors. -/
def vectorOps : List Instr :=
  [.vadd 3 1 2 0 0, .vsub 3 1 2 1 7, .vmul 3 1 2 2 0, .vfma 3 1 2 0 0, .vfms 3 1 2 0 0, .vfnma 3 1 2 0 0, .vmin 3 1 2 0 0, .vmax 3 1 2 0 0,
   .vabs 3 1 4 0, .vneg 3 1 4 0, .vrcp 3 1 0 0, .vrsq 3 1 0 0, .vsqrt 3 1 0 0, .vexp2 3 1 0 0, .vlog2 3 1 0 0, .vtanh 3 1 0 0,
   .viadd 3 1 2 5 0, .visub 3 1 2 6 0, .vimul 3 1 2 7 0, .vimulh 3 1 2 5 0, .viadds 3 1 2 5 0, .visubs 3 1 2 5 0, .vimin 3 1 2 5 0,
   .vimax 3 1 2 5 0, .viminn 3 1 2 5 0, .vimaxn 3 1 2 5 0, .vand 3 1 2 5 0, .vor 3 1 2 5 0, .vxor 3 1 2 5 0, .vshl 3 1 2 5 0,
   .vshr 3 1 2 5 0, .vsra 3 1 2 5 0, .vcmp 7 1 2 3 0 0, .vsel 3 1 2 0 1, .vmand 1 2 3, .vmor 1 2 3, .vmxor 1 2 3, .vmnot 1 2, .vmpop 3 1]
def moveOps : List Instr :=
  [.vcvt 3 1 0 5 0, .vqnt 3 1 0 2 4 0, .vpack 3 1 2 7 0, .vunpk 3 1 7 0, .vmov 40 1 0 0, .vmovi 3 7 127 0, .vperm 3 1 2 5 0, .vshuf 3 1 0 3 0,
   .vrot 3 1 0 127 0, .vbcst 3 1 2 0, .vidx 3 1 2 2 0, .vins 3 1 2 2 0, .vext 3 1 2 2, .vrsum 3 1 2 0, .vrmax 3 1 7 0, .vrmin 3 1 5 0, .vscan 3 1 0 0,
   .vsort 3 1 7 0, .vld 3 1 511 0, .vst 3 1 256 0, .vlds 3 1 2 3 0, .vsts 3 1 2 3 0, .vgth 3 1 52 7 0, .vsct 3 1 59 0 0, .vldc 40 1 0 0, .vstc 3 1 0 0,
   .vcmpr 4 1 5 0, .vcmprFlush 4 5]

/-- The same of the matrix unit, the transposer and the commands. -/
def unitOps : List Instr :=
  [.mzero 7 0, .mrd 0 2 4 0 0 0 0 0, .xput 3 127 2 0, .xget 3 127 2 0, .xclr 0,
   .cdset 0 15 1 3, .cget 0 3 2 3 2 0 0 0 0 0 0, .cput 0 3 1 3 2 0 0 0 0 0 0, .cxfer 0 3 0 0 3 0 0 9 0, .cfill 0 3 1 4 2 1 2 3 1 0,
   .ctouch 0 3 1 4 1 2 0, .cflush 0 3 1 4 1 2 0, .cmap 0 3 1 4 1 0, .cmigr 0 3 1 4 1 2 3 1, .cpfx 0 3 1 2,
   .aadd 0 3 1 4 1 2 3 1 0, .afadd 0 3 1 4 1 2 3 0 0, .aand 0 3 1 4 1 2 3 1 0, .aor 0 3 1 4 1 2 3 1 0, .axor 0 3 1 4 1 2 3 1 0,
   .amin 0 3 1 4 1 2 3 1 0, .amax 0 3 1 4 1 2 3 1 0, .aminn 0 3 1 4 1 2 3 1 0, .amaxn 0 3 1 4 1 2 3 1 0, .axchg 0 4 1 3 30 31 3 1 0,
   .acas 0 3 1 4 1 2 3 1 0, .adecp 0 0 2 3 2 11 10 1 0, .adcas 0 3 1 4 1 2 3 1 0, .amove 0 3 1 4 1 2 3 1 0, .ared 0 3 1 4 1 2 4,
   .waita 0 1 2 3 30 0 5 1 128, .wake 0 0 0 0 4 6 10 4, .psend 0 3 1 4 1 1 2 0, .precv 0 3 2 4 1 1 2 0, .pclose 0 3 1, .tbar 0 3 3 4 3,
   .barsig 0 1 4 3, .barset 0 15 1, .ixopen 0 1 0 10 12, .ixlist 0 2 2 3 1 5 6 0, .ixand 0 3 1 1, .ixor 0 3 1 1, .ixscore 0 2 1 7,
   .ixvec 0 3 2 4 1 1 2, .ixtopk 0 3 1, .ixdrain 0 3 1 4 1 1 2, .ixclose 0 3 1]

/-- The same of those that read rings. -/
def ringOps : List Instr :=
  [.radv 4 0 7 0, .vdqnt 3 1 0 2 4 0, .vxpnd 3 4 5 0, .vxpndDrop 4 5, .vadd 3 36 2 0 0, .mldb 0 4 0 15 1 0, .mldb 0 0 0 15 0 0, .mstep 0 0 4 0 0 1 0 0,
   .mstep 7 0 0 0 15 0 0 1, .mwr 0 2 15 0 5, .mbias 0 2 0 0 0]

theorem witness_ready_compute : computeOps.all (fun i => ready i idle && last i idle) = true := by decide +kernel
theorem witness_ready_control : controlOps.all (fun i => ready i idle && last i idle) = true := by decide +kernel
theorem witness_ready_vector : vectorOps.all (fun i => ready i idle && last i idle) = true := by decide +kernel
theorem witness_ready_moves : moveOps.all (fun i => ready i idle && last i idle) = true := by decide +kernel
theorem witness_ready_units : unitOps.all (fun i => ready i idle && last i idle) = true := by decide +kernel
theorem witness_ready_rings : ringOps.all (fun i => ready i fed && last i fed) = true := by decide +kernel

theorem canonical_machine (f : Core → Core) (h : memWf (f base).field.cells = true) : MemoryCanonical (machine f) := by
  refine ⟨fun n => ?_, fun k => ?_, by rfl, by rfl, by rfl⟩
  · simp only [State.core, machine, tget]
    split
    · exact h
    · rfl
  · simp only [State.cluster, machine, tget]
    split <;> rfl

/-! The statements of 08_encoding.md and of the step. -/

theorem witness_round_trip : (Instr.loopi 3 7 4095 255).wf = true ∧ encode (.loopi 3 7 4095 255) ≠ [] ∧
    (Instr.cget 15 15 3 4 15 7 63 63 63 2 32767).wf = true ∧ encode (.cget 15 15 3 4 15 7 63 63 63 2 32767) ≠ [] := by decide +kernel
theorem witness_body : decodeBody .s 0xBA000000 = .ok .exit ∧ decodeBody .c1 0x0806030000240000 = .ok (.cxfer 0 3 0 0 3 0 0 9 0) := by decide
theorem witness_reserved_opcodes : 0x7F * 2 ^ 25 < 2 ^ (8 * Slot.s.width) ∧ reservedOpcode .s 0x7F = true ∧ reservedOpcode .v0 0x0B = true ∧
    reservedOpcode .v1 0x0A = false ∧ reservedOpcode .m 0x3F = true ∧ reservedOpcode .m 6 = false ∧ reservedOpcode .x 0xF = true ∧
    reservedOpcode .c0 0 = true ∧ reservedOpcode .c1 0x39 = true ∧ reservedOpcode .c1 0x38 = false := by decide +kernel

theorem witness_illegal_opcode :
    let s : State := { machine (fun c => { c with seq := { c.seq with code := [1, 0, 0, 0, 0], codeLen := 5 } }) with agenda := [.issue 0] }
    s.power ≠ .stopped ∧ s.power ≠ .tripped ∧ s.agenda = [.issue 0] ∧ (s.core 0).seq.starts = false ∧ (s.core 0).mayIssue = true ∧
    (s.core 0).fetch = (0, .ok (.bundle ⟨1, 0, none, [⟨.s, false, some 0⟩], 5⟩)) ∧
    (s.core 0).unreadable 0 ⟨1, 0, none, [⟨.s, false, some 0⟩], 5⟩ = false ∧ reservedOpcode .s (0 / 2 ^ opcodePlace .s) = true ∧
    leNat 1 [0, 7] = 0 ∧ 62 % 64 + 2 ≤ 64 := by decide +kernel
theorem witness_step_slot :
    let s := State.reset.withFetchWord 32 0x40104008
    s.power ≠ .stopped ∧ s.power ≠ .tripped ∧ s.agenda = [.issue 0] ∧ (s.core 0).seq.starts = false ∧ (s.core 0).mayIssue = true ∧
    (s.core 0).fetch = (0, .ok (.bundle ⟨1, 0, none, [⟨.s, false, some 0x40104008⟩], 5⟩)) ∧
    (s.core 0).unreadable 0 ⟨1, 0, none, [⟨.s, false, some 0x40104008⟩], 5⟩ = false ∧ decodeBody .s 0x40104008 = .ok (.addi 2 2 8) := by
  decide +kernel
theorem witness_step_fallow :
    let s := State.reset.withFetchWord 16 0x0080
    s.power ≠ .stopped ∧ s.power ≠ .tripped ∧ s.agenda = [.issue 0] ∧ (s.core 0).seq.starts = false ∧ (s.core 0).mayIssue = true ∧
    (s.core 0).fetch = (0, .ok (.bundle ⟨0x80, 0, none, [], 2⟩)) ∧ (s.core 0).unreadable 0 ⟨0x80, 0, none, [], 2⟩ = false := by decide +kernel
/-- Word 0 of the active bank is uncorrectable. -/
theorem witness_step_unreadable :
    let s : State := { machine (fun c => { c with seq := { c.seq with code := [0x80, 0], codeLen := 2 }, flaws := [⟨.bank, 0, true⟩] }) with
      agenda := [.issue 0] }
    s.power ≠ .stopped ∧ s.power ≠ .tripped ∧ s.agenda = [.issue 0] ∧ (s.core 0).seq.starts = false ∧ (s.core 0).mayIssue = true ∧
    (s.core 0).fetch = (0, .ok (.bundle ⟨0x80, 0, none, [], 2⟩)) ∧ (s.core 0).unreadable 0 ⟨0x80, 0, none, [], 2⟩ = true := by decide +kernel
theorem witness_step_event :
    let s : State := { idle with agenda := [.event .heartbeat, .issue 0] }
    s.power ≠ .stopped ∧ s.power ≠ .tripped ∧ s.agenda = .event .heartbeat :: [.issue 0] := by decide +kernel
/-- A core that has been released, and one that is HALTED. -/
theorem witness_step_others :
    let s : State := { machine (fun c => { c with seq := { c.seq with mode := .staged, starts := true } }) with agenda := [.issue 0] }
    let h : State := { machine (fun c => { c with seq := { c.seq with mode := .halted } }) with agenda := [.issue 0] }
    (s.core 0).seq.starts = true ∧ (h.core 0).seq.starts = false ∧ (h.core 0).mayIssue = false ∧ s.power = .up := by decide +kernel
theorem witness_fetch_word : tableSlot 32 0x40104008 = some .s ∧ tableSlot 64 0x0804000000000001 = some .m ∧
    tableSlot 64 0x0407320000000000 = some .c0 ∧ tableSlot 32 0x28401000 = some .x ∧ tableSlot 32 0x02182111 = some .v0 ∧
    decodeBody .s 0x40104008 = .ok (.addi 2 2 8) ∧ 0x40104008 < 2 ^ (8 * Slot.s.width) := by decide +kernel
theorem witness_dead_module :
    let s : State := { idle with power := .stopped }
    let u : State := { idle with power := .tripped, inputs := [.heartbeat] }
    let v : State := { idle with power := .stopped, inputs := [.moduleReset, .heartbeat] }
    s.power = .stopped ∧ s.inputs = [] ∧ u.power = .tripped ∧ u.inputs = [.heartbeat] ∧ v.inputs = .moduleReset :: [.heartbeat] ∧
      Instr.heartbeat ≠ .moduleReset := by decide +kernel
theorem witness_dead_module_power : ∀ a b c d e, Instr.heartbeat ≠ .powerGood a b c d e := by intros; simp
theorem witness_alive : ¬((idle.power = .stopped ∨ idle.power = .tripped) ∧ idle.inputs = []) := by decide +kernel

/-! The commit and the checks. -/

theorem witness_commit : Last (.addi 1 1 1) idle ∧ idle.issue.jump = none ∧ idle.cur.x.loops = [] ∧
    Last (.addi 1 1 1) { idle with issue := { idle.issue with jump := some 64 } } ∧
    ({ idle with issue := { idle.issue with more := true } } : State).issue.more = true :=
  ⟨last_of (by decide +kernel), by decide +kernel, by decide +kernel, last_of (by decide +kernel), by decide +kernel⟩

/-- A core in the last pass of a loop of 19 bytes and one pass before it, its bundle ending at the loop's end. -/
def looping (count lc : Nat) : Core := { base with seq := { base.seq with pc := 14 }, x := { base.x with loops := [⟨0, 0, 19, count, 1, count⟩], lc := base.x.lc.set 0 (.ofNat 32 lc) } }
theorem witness_loop_back :
    let iss : Issue := { Issue.init with len := 5 }
    iss.jump = none ∧ (looping 4 2).x.loops = [⟨0, 0, 19, 4, 1, 4⟩] ∧ iss.skip.getD ((looping 4 2).seq.pc + iss.len) = 19 ∧
    ((looping 4 2).x.lc[0] + 1).toNat < 4 ∧ 4 ≤ ((looping 4 3).x.lc[0] + 1).toNat := by decide +kernel
theorem witness_loop_elsewhere : (looping 4 2).seq.pc + ({ Issue.init with len := 4 } : Issue).len ≠ 19 := by decide +kernel
/-- A staged loop inside a plain one. -/
theorem witness_stages :
    let c : Core := { base with x := { base.x with loops := [⟨1, 0, 8, 4, 1, 4⟩, ⟨0, 0, 19, 4, 3, 6⟩] } }
    c.x.loops = [⟨1, 0, 8, 4, 1, 4⟩] ++ ⟨0, 0, 19, 4, 3, 6⟩ :: [] ∧ (1 : Nat) < 3 ∧ (∀ l ∈ base.x.loops, l.stages ≤ 1) := by decide +kernel

theorem witness_write_conflict :
    let u : State := { idle with issue := { idle.issue with pre := some base, dests := Instr.dests (.add 3 1 2) } }
    u.issue.more = false ∧ u.issue.pre = some base ∧ ∃ d ∈ u.issue.dests, d ∈ Instr.dests (.sub 3 4 5) := by decide +kernel
theorem witness_trap_entry : (0x30 : Nat) < 65536 ∧ (119 : Nat) < 2 ^ 32 ∧ idle.view.seq.pc < 2 ^ 64 ∧ bodyOf (.trap 119) < 2 ^ 64 := by decide +kernel
theorem witness_check_trap : (Instr.cmp 1 2 3 6).unit ≠ none ∧ idle.view.checkTrap (.cmp 1 2 3 6) = some ⟨4, 0, 0⟩ ∧
    idle.view.ringState (.cmp 1 2 3 6) ≠ .later := by decide +kernel
theorem witness_undeclared :
    let s := machine (fun c => { c with csr := { c.csr with usem := 0 } })
    s.view.formatTrap (.add 1 2 3) = none ∧ s.view.ringState (.add 1 2 3) ≠ .later ∧
    (∃ k ∈ s.view.classesOf (.add 1 2 3), s.view.csr.usem.getLsbD k = false ∧
      ∀ j ∈ s.view.classesOf (.add 1 2 3), s.view.csr.usem.getLsbD j = false → k ≤ j) := by decide +kernel
theorem witness_fenced :
    let s := machine (fun c => { c with csr := { c.csr with capm := 0 } })
    s.view.formatTrap (.add 1 2 3) = none ∧ (∀ j ∈ s.view.classesOf (.add 1 2 3), s.view.csr.usem.getLsbD j = true) ∧
    (∃ k ∈ s.view.classesOf (.add 1 2 3), s.view.csr.capm.getLsbD k = false ∧
      ∀ j ∈ s.view.classesOf (.add 1 2 3), s.view.csr.capm.getLsbD j = false → k ≤ j) := by decide +kernel
theorem witness_guard_off :
    let s := machine (fun c => { c with x := { c.x with ps := c.x.ps.set 0 false } })
    (Instr.mzero 0 8).guard = some 8 ∧ s.view.guardOff 8 = true ∧ s.view.checkTrap (.mzero 0 8) = none := by decide +kernel
theorem canonical_loaded (w : Nat) : MemoryCanonical (State.reset.withFetchWord 32 w) := by
  refine ⟨fun n => ?_, fun k => by rfl, by rfl, by rfl, by rfl⟩
  simp only [State.core, State.withFetchWord, State.updCore, State.setCore, State.reset, tset, tget]
  split <;> rfl
theorem witness_bundle_canonical :
    let s := State.reset.withFetchWord 32 0x80285802
    s.power = .up ∧ s.agenda = [.issue 0] ∧ (match step s with | .next _ => true | _ => false) = true := by decide +kernel

/-! Scalar operations. -/

theorem witness_scalar_results : scalarResult idle.view (.add 10 10 5) = some (10, 0) ∧ Ready (.add 10 10 5) idle ∧ Last (.add 10 10 5) idle :=
  ⟨by decide +kernel, ready_of (by decide +kernel), last_of (by decide +kernel)⟩
theorem witness_shift_field : (0x24 * 2 ^ 25 + 2 ^ 6) / 2 ^ 25 ∈ [0x24, 0x25, 0x26] ∧ (0x24 * 2 ^ 25 + 2 ^ 6) / 2 ^ 6 % 2 ^ 7 ≠ 0 := by decide
theorem witness_late_results : lateResult idle.view (.div 0 1 2) = some (0, 18, .ofInt 64 (-1)) ∧ Ready (.div 0 1 2) idle ∧ Last (.div 0 1 2) idle :=
  ⟨by decide +kernel, ready_of (by decide +kernel), last_of (by decide +kernel)⟩
theorem witness_latency : base.flight = [] ∧ base.mat.tiles = [] ∧ (1 : Fin 64) ≠ 0 := by decide +kernel
theorem witness_predicates : predResult idle.view (.cmp 1 2 3 5) = some (1, true) ∧ Ready (.cmp 1 2 3 5) idle ∧ 6 ≤ (6 : Fin 8).val :=
  ⟨by decide +kernel, ready_of (by decide +kernel), by decide⟩
theorem witness_transfers : transferOf idle (.jr 1 2) = some (0, 1) ∧ Ready (.jr 1 2) idle ∧ Last (.jr 1 2) idle ∧
    transferOf idle (.brc 1 0 4) = none ∧ Ready (.brc 1 0 4) idle ∧ Last (.brc 1 0 4) idle :=
  ⟨by decide +kernel, ready_of (by decide +kernel), last_of (by decide +kernel), by decide +kernel, ready_of (by decide +kernel), last_of (by decide +kernel)⟩
theorem witness_loops : loopOf idle (.loopi 0 0 18 4) = some (0, 1, 19, 4) ∧ loopOf idle (.loop 0 7 4095 1) = some (0, 8, 4096, 0) ∧
    loopFits idle.view.x.loops 0 1 19 ∧ Ready (.loop 0 7 4095 1) idle := by
  refine ⟨by decide +kernel, by decide +kernel, ?_, ready_of (by decide +kernel)⟩
  rw [show idle.view.x.loops = [] from rfl]; simp [loopFits]
theorem witness_lexit :
    let s := machine (fun c => { c with x := { c.x with loops := [⟨1, 0, 8, 4, 1, 4⟩, ⟨0, 0, 19, 4, 3, 6⟩] } })
    Ready (.lexit 0) s ∧ s.view.x.loops = [⟨1, 0, 8, 4, 1, 4⟩] ++ ⟨0, 0, 19, 4, 3, 6⟩ :: [] ∧ (∀ x ∈ idle.view.x.loops, x.n ≠ (0 : Fin 4)) :=
  ⟨ready_of (by decide +kernel), by decide +kernel, by decide +kernel⟩
/-- A count of 2^32, a fifth loop, a second staged loop, a counter in use, and an end beyond the innermost loop's. -/
theorem witness_loop_traps :
    loopOf (machine (sreg 1 (2 ^ 32))) (.loop 0 0 0 1) = some (0, 1, 1, 2 ^ 32) ∧
    ¬loopFits [⟨0, 0, 9, 1, 1, 1⟩, ⟨1, 0, 9, 1, 1, 1⟩, ⟨2, 0, 9, 1, 1, 1⟩, ⟨3, 0, 9, 1, 1, 1⟩] 0 1 4 ∧ ¬loopFits [⟨0, 0, 9, 1, 2, 1⟩] 1 2 9 ∧
    ¬loopFits [⟨0, 0, 9, 1, 1, 1⟩] 0 1 9 ∧ ¬loopFits [⟨0, 0, 9, 1, 1, 1⟩] 1 1 10 ∧ loopFits [⟨0, 0, 9, 1, 1, 1⟩] 1 1 9 := by
  refine ⟨by decide +kernel, ?_, ?_, ?_, ?_, ?_⟩ <;> simp [loopFits]

/-! Local memory. -/

theorem clean_idle : CleanAt idle 0 := ⟨rfl, rfl, rfl, rfl⟩

/-- The last double of the region in the field, and the first byte of the commons. -/
theorem witness_scalar_loads :
    let s := machine (sreg 2 0xFF8)
    let t := machine (sreg 2 0x2000000)
    scalarLoad (.ld 5 2 3 0) = some (5, 2, 3, 0) ∧ accessTrap s (memAddr s 2 3 0) 8 true = none ∧ scalarLoad (.ldc 0 2 0 0) = some (0, 2, 0, 0) ∧
      accessTrap t (memAddr t 2 0 0) 1 true = none := by decide +kernel
theorem witness_scalar_loads_ready : Ready (.ld 5 2 3 0) (machine (sreg 2 0xFF8)) ∧ Last (.ld 5 2 3 0) (machine (sreg 2 0xFF8)) ∧ CleanAt (machine (sreg 2 0xFF8)) 0 :=
  ⟨ready_of (by decide +kernel), last_of (by decide +kernel), ⟨rfl, rfl, rfl, rfl⟩⟩
/-- The access of that load as it waits for its port, with the load's result before it. -/
theorem witness_served :
    let l : Landing := ⟨4, .sreg 5, 0, .ofNat 2048 (2 ^ 64 - 1), 0⟩
    let v := machine (fun c => { c with loads := [l] })
    idle.issue.loads.length = 0 ∧ (v.core idle.here).loads[0]? = some l ∧ CleanAt v idle.here ∧ MemoryCanonical v :=
  ⟨rfl, by decide +kernel, ⟨rfl, rfl, rfl, rfl⟩, canonical_machine _ (by decide +kernel)⟩
/-- A core of which one access waits and which is alone in its cluster; ports in a list; and an access of a core that books the group of its
commons bank, beside one of a core that does not. -/
theorem witness_ports_served :
    let w : PortWait := ⟨true, 3, 0, 0, 0, .store []⟩
    let s := machine (fun c => { c with team := some 3, unserved := [w] })
    let b := s.updCluster 0 (fun k => { k with bookings := [{ bookingOf .anchored 0 0 6 0 with vec := { furrow1 with cwr := 255 } }] })
    (s.core 0).unserved = [w] ∧ (∀ p ∈ s.cores, p.2.queue0 = [] ∧ p.2.queue1 = []) ∧ bit s.pres.cores 0 = true ∧ (s.core 1).unserved = [] ∧
    (∀ g ∈ (s.core 0).field.groups, g.2.pending = false) ∧ (∀ g ∈ (s.cluster 0).commons.groups, g.2.pending = false) ∧ w.commons = true ∧
    b.booksPort 0 3 true = true ∧ b.booksPort 1 3 true = false := by decide +kernel
theorem witness_scalar_stores :
    scalarStore (.stc 5 2 3 0) = some (5, 2, 3, 0) ∧ Ready (.stc 5 2 3 0) (machine (sreg 2 0x2000FF8)) ∧ Last (.stc 5 2 3 0) (machine (sreg 2 0x2000FF8)) ∧
      MemoryCanonical (machine (sreg 2 0x2000FF8)) ∧ accessTrap (machine (sreg 2 0x2000FF8)) 0x2000FF8 8 false = none ∧
      memAddr (machine (sreg 2 0x2000FF8)) 2 3 0 = 0x2000FF8 :=
  ⟨rfl, ready_of (by decide +kernel), last_of (by decide +kernel), canonical_machine _ (by decide +kernel), by decide +kernel, by decide +kernel⟩
/-- The end above 2^32; misaligned; in no region; another owner; an expired group, whose group 2 was never written. -/
theorem witness_access_traps :
    let own : Core → Core := fun c => { c with field := { c.field with groups := [(0, { Group.init with valid := true, owner := 7 })] } }
    2 ^ 32 < memAddr (machine (sreg 2 (2 ^ 32 - 4))) 2 3 0 + 8 ∧ (memAddr (machine (sreg 2 4)) 2 3 0) % 8 ≠ 0 ∧
    (∀ k : Fin 16, (idle.view.rgn[k]).holds 0x10000 = false) ∧ idle.view.outside 0xFFF8 8 = none ∧
    (groupAt (machine own).field (machine own).viewCommons 0).owner ≠ (machine own).view.csr.ctxId.toNat ∧
    (groupAt idle.field idle.viewCommons 0x1000).owner = idle.view.csr.ctxId.toNat ∧ (scalarLoad (.ld 5 2 3 0)).isSome ∧
    (groupAt idle.field idle.viewCommons 0x1000).valid = false := by decide +kernel
theorem witness_vector_loads :
    vecLoads idle (.vld 7 3 0 0) = some (rowAccess idle true 7 3 0 0) ∧ (rowAccess idle true 7 3 0 0).trap = none ∧ Ready (.vld 7 3 0 0) idle ∧
      (rowAccess idle true 7 3 255 0).trap ≠ none ∧ Ready (.vlds 40 1 2 3 0) idle ∧ (granuleAccess idle true 40 1 2 3 0).trap = none ∧ (3 : Fin 8).val < 4 :=
  ⟨rfl, by decide +kernel, ready_of (by decide +kernel), by decide +kernel, ready_of (by decide +kernel), by decide +kernel, by decide⟩
theorem witness_vector_stores :
    (vecStores idle (.vsct 3 1 52 7 0)).isSome = true ∧ (gatherAccess idle false 3 1 52 7 0).trap = none ∧ Ready (.vsct 3 1 52 7 0) idle ∧
      Last (.vsct 3 1 52 7 0) idle ∧ MemoryCanonical idle ∧ Ready (.vst 3 1 0 0) idle ∧ (rowAccess idle false 3 1 0 0).trap = none :=
  ⟨rfl, by decide +kernel, ready_of (by decide +kernel), last_of (by decide +kernel), canonical_machine _ (by decide +kernel), ready_of (by decide +kernel),
    by decide +kernel⟩

/-! Control registers, rings, system and task operations. -/

theorem witness_csr : Ready (.csrr 1 0x800) idle ∧ idle.csr idle.here idle.view 0x800 = some 0 ∧ idle.csr idle.here idle.view 0xFFF = none ∧ Ready (.csrr 1 0xFFF) idle :=
  ⟨ready_of (by decide +kernel), by decide +kernel, by decide +kernel, ready_of (by decide +kernel)⟩
/-- CSRS with an immediate, CSRW with a register, and each kind of register: VCTL with RM 4 and RM 5, FMT, VSTAT, VSEED, CHSEL, TICK. -/
theorem witness_csr_writes :
    idle.csr 0 idle.view 0x008 = some 0 ∧ idle.csr 0 idle.view 0x020 = some 0 ∧ idle.csr 0 idle.view 0x021 = some 0 ∧ idle.csr 0 idle.view 0x022 = some 1 ∧
    idle.csr 0 idle.view 0x035 = some 0 ∧ idle.csr 0 idle.view 0x800 = some 0 ∧ (4 : Double).toNat % 8 < 5 ∧ 5 ≤ (5 : Double).toNat % 8 := by decide +kernel
theorem witness_csr_forms : csrForms 0 3 (.csrs 1 3 0x008 1) = some (1, 3, 0x008, 1, 3) ∧ csrForms 0 4 (.csrw 1 4 0x020 1) = some (1, 4, 0x020, 1, 4) :=
  ⟨rfl, rfl⟩
theorem witness_csr_writes_ready : Ready (.csrw 1 4 0x020 1) idle ∧ Ready (.csrs 1 3 0x008 1) idle ∧ Ready (.csrc 1 3 0x800 0) idle :=
  ⟨ready_of (by decide +kernel), ready_of (by decide +kernel), ready_of (by decide +kernel)⟩
theorem witness_bstat : Ready (.csrw 1 2 0x20F 0) idle ∧ (0x20F : Fin 4096).val = 0x200 + (15 : Fin 16).val ∧ (idle.csr idle.here idle.view 0x20F).isSome = true :=
  ⟨ready_of (by decide +kernel), by decide, by decide +kernel⟩
theorem witness_rings :
    Ready (.radv 4 0 7 0) fed ∧ Ready (.radv 4 1 7 0) idle ∧ 8 ≤ (idle.view.ring 4).depth - (idle.view.ring 4).h ∧
    (fed.view.ring 4).depth - (fed.view.ring 4).h < 1 ∧ Ready (.rcfg 4 7 7 7) idle ∧ ¬(idle.view.ring 4).st.toList.contains .pending ∧
    ¬(idle.issue.bundle.any (idle.view.namesRing 4)) ∧ Ready (.rfill 4 8) idle ∧ 8 ≤ (idle.view.ring 4).free ∧ (fed.view.ring 4).free < 1 :=
  ⟨ready_of (by decide +kernel), ready_of (by decide +kernel), by decide +kernel, by decide +kernel, ready_of (by decide +kernel), by decide +kernel,
    by decide +kernel, ready_of (by decide +kernel), by decide +kernel, by decide +kernel⟩
/-- The traps of RADV.w, RCFG and RFILL. -/
theorem witness_ring_traps :
    let full := machine (withRing 4 { Ring.init with h := 8, st := Vector.replicate 8 .pending })
    Ready (.rcfg 4 7 7 7) full ∧ (full.view.ring 4).st.toList.contains .pending ∧ Ready (.rfill 4 1) full ∧ (full.view.ring 4).free < 1 ∧
    Ready (.radv 4 1 0 0) full ∧ (full.view.ring 4).depth - (full.view.ring 4).h < 1 :=
  ⟨ready_of (by decide +kernel), by decide +kernel, ready_of (by decide +kernel), by decide +kernel, ready_of (by decide +kernel), by decide +kernel⟩
theorem witness_system : Ready (.fence 2 3 1) idle ∧ Ready (.trap 119) idle ∧ Ready (.brkpt 3) idle ∧ idle.view.csr.dbgBe = false ∧
    Ready (.brkpt 3) (machine (fun c => { c with csr := { c.csr with dbgBe := true } })) :=
  ⟨ready_of (by decide +kernel), ready_of (by decide +kernel), ready_of (by decide +kernel), by decide +kernel, ready_of (by decide +kernel)⟩
/-- The first furrow and the last one of a profile of 65,536. -/
theorem witness_headlands :
    let s := machine (fun c => { c with seq := { c.seq with furrow := 65535 } })
    let n := (idle.view.image.map Image.furrowCount).getD 0
    Ready (.waitb 15) idle ∧ idle.view.seq.furrow + 1 < n ∧ Ready (.waitb 15) s ∧ n ≤ s.view.seq.furrow + 1 ∧
    Ready (.waitt 1) idle ∧ (idle.view.rs 1).toNat ≤ idle.tick ∧ idle.tick < ((machine (sreg 1 1)).view.rs 1).toNat :=
  ⟨ready_of (by decide +kernel), by decide +kernel, ready_of (by decide +kernel), by decide +kernel, ready_of (by decide +kernel), by decide +kernel,
    by decide +kernel⟩
/-- Team 3 of one member on core 0, in a state, its member having left its task or not; its launch has an instance still to make. -/
def teamAs (st : TeamState) (exited : Bool) (f : Core → Core) : State :=
  { machine (fun c => f { c with team := some 3 }) with
    teams := [(3, { inst := 5, role := 0, ctx := 0, imageVa := 0, image := loadedImage [], state := st, members := [⟨0, 0, exited, false, none, none⟩],
                    bars := [], release := 0, first := none, since := 0, waited := 0, turn := 0, used := 0, resumed := false, area := [], digest := sha256 [], booked := none, asked := false, areaBad := false })],
    insts := [(5, ⟨9, 0, [3], false, false⟩)],
    units := [(9, { kind := 0, ctx := 0, parent := none, queue := none, count := 0, expected := 2, closed := true, status := 1, faulted := false,
                    cancelled := false, start := 0, finish := 0, record := 0, images := [0], total := 2, reads := [], writes := [], presets := [], order := 0,
                    prio := 0, admitted := true, made := 1, ready := none, parsed := [(0, loadedImage [])], unsigned := [], interrupt := false, booking := none, refusal := none })] }
def teamed : State := teamAs .running false id
theorem witness_exit_yield :
    let busy := machine (fun c => { c with queue0 := [joinOf c (.fence 2 3 1)] })
    Ready .exit idle ∧ Last .exit idle ∧ idle.cur.outstanding = false ∧ Ready .exit busy ∧ busy.cur.outstanding = true ∧
    Ready .yield teamed ∧ Last .yield teamed ∧ teamed.queueWaits ((teamed.cur.team).getD 0) = true ∧ Ready .yield idle ∧
    idle.queueWaits ((idle.cur.team).getD 0) = false :=
  ⟨ready_of (by decide +kernel), last_of (by decide +kernel), by decide +kernel, ready_of (by decide +kernel), by decide +kernel,
    ready_of (by decide +kernel), last_of (by decide +kernel), by decide +kernel, ready_of (by decide +kernel), by decide +kernel⟩
/-- A buffer of 2 KiB at 0x800 passes; one at 0x400 does not; a length of 0 needs no alignment. -/
theorem witness_turn :
    let s := machine (sreg 1 (2048 * 2 ^ 32 + 0x800))
    let h := machine (withRing 4 { Ring.init with h := 1 } ∘ sreg 1 (2048 * 2 ^ 32 + 0x800))
    Ready (.turn 1 2) s ∧ Last (.turn 1 2) s ∧ turnBuffer s.view 0x800 2048 ∧ turnBuffer s.view 0x400 0 ∧ ¬turnBuffer s.view 0x400 2048 ∧
    (∀ q : Fin 16, ringRests s.view q) ∧ ¬ringRests h.view 4 ∧ (∀ q : Fin 16, q < 4 → ringRests h.view q) ∧ Ready (.turn 1 2) h :=
  ⟨ready_of (by decide +kernel), last_of (by decide +kernel), by unfold turnBuffer; decide +kernel, by unfold turnBuffer; decide +kernel,
    by unfold turnBuffer; decide +kernel, by unfold ringRests; decide +kernel, by unfold ringRests; decide +kernel, by unfold ringRests; decide +kernel,
    ready_of (by decide +kernel)⟩
theorem witness_tasks :
    let plain := machine (fun c => { c with image := none })
    let odd := machine (sreg 2 32)
    let full := idle.updCluster 0 (fun k => { k with reqQ := List.replicate 8 ⟨0, 0, 0, 0, none, []⟩ })
    taskFields (.cancel 1 2 3) = some (4, 1, 2, 3) ∧ Ready (.cancel 1 2 3) idle ∧ plain.view.booker = false ∧ Ready (.cancel 1 2 3) plain ∧
    idle.view.booker = true ∧ (odd.view.rs 2).toNat % 2 ^ 32 % 64 ≠ 0 ∧ (idle.view.rs 2).toNat % 2 ^ 32 % 64 = 0 ∧ idle.view.outside 0 64 = none ∧
    (groupAt idle.field idle.viewCommons 0).owner = idle.view.csr.ctxId.toNat ∧ 8 ≤ full.requestsOf full.here ∧ idle.requestsOf idle.here < 8 :=
  ⟨rfl, ready_of (by decide +kernel), by decide +kernel, ready_of (by decide +kernel), by decide +kernel, by decide +kernel, by decide +kernel,
    by decide +kernel, by decide +kernel, by decide +kernel, by decide +kernel⟩

/-! Vectors, the matrix unit, the transposer and commands. -/

theorem witness_elements : (elementwise idle (.vfma 3 1 2 0 0)).isSome = true ∧ Ready (.vfma 3 1 2 0 0) idle ∧ (elementwise idle (.vsra 3 1 2 5 0)).isSome = true ∧
    Ready (.vsra 3 1 2 5 0) idle ∧ (elementwise idle (.vtanh 3 1 0 0)).isSome = true ∧ Ready (.vtanh 3 1 0 0) idle :=
  ⟨rfl, ready_of (by decide +kernel), rfl, ready_of (by decide +kernel), rfl, ready_of (by decide +kernel)⟩
theorem witness_moves : (moved idle (.vshuf 3 1 0 3 0)).isSome = true ∧ (3 : Fin 128).val < 4 ∧ Ready (.vshuf 3 1 0 3 0) idle ∧ Ready (.vins 3 1 2 2 0) idle ∧
    Ready (.vext 3 1 2 2) idle ∧ Ready (.vunpk 3 1 7 0) idle :=
  ⟨rfl, by decide, ready_of (by decide +kernel), ready_of (by decide +kernel), ready_of (by decide +kernel), ready_of (by decide +kernel)⟩
theorem witness_masks : Ready (.vcmp 7 1 2 3 0 0) idle ∧ Ready (.vsel 3 1 2 0 1) idle ∧ Ready (.vmand 1 2 3) idle ∧ Ready (.vmor 1 2 3) idle ∧
    Ready (.vmxor 1 2 3) idle ∧ Ready (.vmnot 1 2) idle ∧ Ready (.vmpop 3 1) idle :=
  ⟨ready_of (by decide +kernel), ready_of (by decide +kernel), ready_of (by decide +kernel), ready_of (by decide +kernel), ready_of (by decide +kernel),
    ready_of (by decide +kernel), ready_of (by decide +kernel)⟩
theorem witness_conversions : Ready (.vcvt 3 1 0 5 0) idle ∧ Ready (.vqnt 3 1 2 2 4 0) idle ∧ (2 : Fin 4).val < 3 ∧ (2 : Fin 8).val < 3 ∧ Ready (.vdqnt 3 1 0 2 4 0) fed :=
  ⟨ready_of (by decide +kernel), ready_of (by decide +kernel), by decide, by decide, ready_of (by decide +kernel)⟩
theorem witness_reductions : Ready (.vrsum 3 1 5 0) idle ∧ (Fmt.ofCode 5).isInt = true ∧ Ready (.vscan 3 1 0 0) idle ∧ (Fmt.ofCode 0).isInt = false ∧
    Ready (.vrmax 3 1 7 0) idle ∧ Ready (.vrmin 3 1 2 0) idle ∧ Ready (.vsort 3 1 7 0) idle :=
  ⟨ready_of (by decide +kernel), by decide, ready_of (by decide +kernel), by decide, ready_of (by decide +kernel), ready_of (by decide +kernel),
    ready_of (by decide +kernel)⟩
/-- The largest code of FP32 that rounds to itself; formats with and without infinities, and integers. -/
theorem witness_rounding : (Fmt.ofCode 0).maxCode % 2 ^ ((Fmt.ofCode 0).bits - 1) ≤ (Fmt.ofCode 0).maxCode ∧ (Fmt.ofCode 0).hasInf = true ∧
    (Fmt.ofCode 7).isInt = true := by decide +kernel
theorem witness_streams :
    Ready (.vcmpr 4 1 5 0) idle ∧ idle.issue.bundle = [] ∧ (idle.cur.ring 4).sw < 256 ∧ 2 ≤ (idle.cur.ring 4).depth ∧ (idle.cur.ring 4).depth ≤ 8 ∧
    (idle.cur.ring 4).wp < (idle.cur.ring 4).depth ∧ Ready (.vcmprFlush 4 5) (machine (withRing 4 { Ring.init with sw := 4 })) ∧ Ready (.vcmprFlush 4 5) idle ∧
    Ready (.vxpnd 3 4 5 0) fed ∧ xpndClash 4 fed.issue.bundle = false ∧ Ready (.vxpndDrop 4 5) fed :=
  ⟨ready_of (by decide +kernel), by decide +kernel, by decide +kernel, by decide +kernel, by decide +kernel, by decide +kernel, ready_of (by decide +kernel),
    ready_of (by decide +kernel), ready_of (by decide +kernel), by decide +kernel, ready_of (by decide +kernel)⟩
/-- Operations that move the write end of ring 4, beside a VCMPR and its flush form. -/
theorem witness_stream_write_clash :
    let s : State := { idle with issue := { idle.issue with bundle := [.rfill 4 1] } }
    Ready (.vcmpr 4 1 5 0) s ∧ Ready (.vcmprFlush 4 5) s ∧ (∃ i ∈ s.issue.bundle, movesWrite 4 i) ∧ (∀ i ∈ idle.issue.bundle, ¬movesWrite 4 i) ∧
    (∀ i ∈ fed.issue.bundle, ¬movesRead 4 i) :=
  ⟨ready_of (by decide +kernel), ready_of (by decide +kernel), ⟨.rfill 4 1, List.mem_singleton.2 rfl, rfl⟩, (fun _ h => by cases h), (fun _ h => by cases h)⟩
theorem witness_stream_view : idle.view = idle.cur := rfl
theorem witness_stream_clash :
    let s : State := { fed with issue := { fed.issue with bundle := [.radv 4 0 0 0] } }
    Ready (.vxpnd 3 4 5 0) s ∧ xpndClash 4 s.issue.bundle = true := ⟨ready_of (by decide +kernel), by decide +kernel⟩
theorem witness_matrix :
    let late := machine (fun c => { c with rings := Vector.replicate 16 (fullRing 1 0), mat := { c.mat with lastStep := some 0 }, seq := { c.seq with wc := 8 } })
    Ready (.mldb 0 4 0 15 1 0) fed ∧ Ready (.mldb 0 0 0 15 0 0) fed ∧ fed.view.selected 4 0 = 0 ∧ Ready (.mstep 7 0 0 0 15 0 0 1) fed ∧
    fed.view.mat.lastStep = none ∧ Ready (.mstep 7 0 0 0 15 0 0 1) late ∧ (0 + 8 ≤ late.view.seq.wc) ∧ Ready (.mzero 7 0) idle ∧ Ready (.mwr 0 2 15 0 5) fed ∧
    Ready (.mbias 0 2 0 0 0) fed ∧ Ready (.mrd 0 2 4 0 0 0 0 0) idle ∧ idle.view.isSR = false ∧ idle.cur.mat.tiles = [] :=
  ⟨ready_of (by decide +kernel), ready_of (by decide +kernel), by decide +kernel, ready_of (by decide +kernel), by decide +kernel, ready_of (by decide +kernel),
    by decide +kernel, ready_of (by decide +kernel), ready_of (by decide +kernel), ready_of (by decide +kernel), ready_of (by decide +kernel), by decide +kernel,
    by decide +kernel⟩
/-- A scaled format with one ring for data and scales; a step 7 cycles after the last; a tile whose last operation has not ended. -/
theorem witness_matrix_traps :
    let soon := machine (fun c => { c with rings := Vector.replicate 16 (fullRing 1 0), mat := { c.mat with lastStep := some 0 }, seq := { c.seq with wc := 7 } })
    let flying := machine (fun c => c.flyTile 0 2 .zero)
    Ready (.mldb 0 2 0 15 1 0) fed ∧ soon.view.seq.wc < 0 + 8 ∧ Ready (.mrd 0 2 4 0 0 0 0 0) flying ∧ flying.cur.joinTile 0 0 ≠ flying.cur.seq.wc :=
  ⟨ready_of (by decide +kernel), by decide +kernel, ready_of (by decide +kernel), by decide +kernel⟩
theorem witness_tiles : base.flight = [] ∧ base.mat.tiles = [] ∧ (List.replicate 8 (0 : BitVec 4096)).length = 8 := by decide +kernel
/-- A step that is due, two that are, and none. -/
theorem witness_steps_due :
    let x : TileFlight := ⟨1, 0, .step 0 0 0 [] [] [] [] 7 0⟩
    let due := fun (c : Core) => c.mat.tiles.filter (fun x => x.isStep && decide (x.due ≤ c.seq.wc + 1))
    due base = [] ∧ due { base with mat := { base.mat with tiles := [x] } } = [x] ∧
      due { base with mat := { base.mat with tiles := [x, { x with acc := 1 }] } } = [x, { x with acc := 1 }] := by decide +kernel
theorem witness_transposer : Ready (.xput 59 127 2 0) idle ∧ (2 : Fin 8).val < 3 ∧ (59 : Fin 64).val < 60 ∧ Ready (.xget 3 127 2 0) idle ∧ Ready (.xclr 0) idle :=
  ⟨ready_of (by decide +kernel), by decide, by decide, ready_of (by decide +kernel), ready_of (by decide +kernel)⟩
theorem witness_commands :
    let full := machine (fun c => { c with queue0 := List.replicate 64 { joinOf c (.fence 2 3 1) with op := .wake 0 0 0 0 4 6 10 4 } })
    unitOps.all (fun i => isCommand i || i.unit != some .c || (match i with | .cdset .. => true | .barset .. => true | _ => false)) = true ∧
    idle.view.queueLen idle.engine < 64 ∧ 64 ≤ full.view.queueLen full.engine ∧ Ready (.wake 0 0 0 0 4 6 10 4) full ∧ Ready (.cdset 0 15 1 3) idle ∧
    (3 : Fin 8).val = (3 : Fin 4).val ∧ Ready (.barset 0 15 1) idle :=
  ⟨by decide +kernel, by decide +kernel, by decide +kernel, ready_of (by decide +kernel), ready_of (by decide +kernel), by decide, ready_of (by decide +kernel)⟩

/-! Events of a core. -/

def seqWith (f : Seq → Seq) (c : Core) : Core := { c with seq := f c.seq }

theorem witness_waitt_resume :
    let s := machine (seqWith (fun q => { q with waitt := some 5 }))
    (s.core 0).seq.waitt = some 5 ∧ s.tick < 5 ∧ 5 < ({ s with tick := 6 } : State).tick ∧ (s.cluster 0).island = .inService := by decide +kernel
theorem witness_fallow : idle.issue.dests = [] ∧ idle.issue.leave = .stay ∧ idle.issue.reseed = false ∧ idle.issue.post = none ∧ idle.issue.moncap = none ∧
    idle.issue.jump = none ∧ idle.issue.skip = none := by decide +kernel
theorem witness_csr_events : (idle.csr idle.here idle.view 0x020).isSome ∧ (idle.csr idle.here idle.view 0x022).isSome ∧ (idle.csr idle.here idle.view 0x008).isSome ∧
    (idle.csr idle.here idle.view (0x200 + (15 : Fin 16).val)).isSome ∧ (idle.csr idle.here idle.view 0x408).isSome ∧
    (idle.cur.image.map (fun i => bit i.flags 1)).getD false = true ∧ (4 : Double).toNat % 8 < 5 ∧ 5 ≤ (7 : Double).toNat % 8 := by decide +kernel
theorem witness_drain :
    let e := machine (seqWith (fun q => { q with stop := some .exit }))
    let p := machine (seqWith (fun q => { q with stop := some .preempt }))
    let b := machine (seqWith (fun q => { q with stop := some (.sibling 3) }))
    let u := machine (fun c => { seqWith (fun q => { q with stop := some .exit }) c with unserved := [⟨true, 3, 0, 0, 0, .store []⟩] })
    (e.core 0).seq.stop = some .exit ∧ (e.core 0).team = none ∧ e.drained 0 = true ∧ (p.core 0).seq.stop = some .preempt ∧ p.drained 0 = true ∧
    (p.cluster 0).reqQ.any (fun r => r.core == 0) = false ∧ (p.core 0).rollback = none ∧ (u.core 0).seq.stop = some .exit ∧ u.drained 0 = false ∧ (b.core 0).seq.stop = some (.sibling 3) ∧ b.drained 0 = true ∧ b.teamOf 0 = none := by decide +kernel
theorem witness_sibling : (teamed.teamOf 0).isSome = true ∧ (0 : Nat) ≠ 1 ∧ (teamed.core 0).seq.mode ≠ .swapped ∧ (teamed.core 0).busy = true ∧
    (teamed.core 0).seq.stop = none ∧ (teamed.teamOf 0).any (fun t => decide (t.2.state ≠ .stopping)) = true := by decide +kernel
theorem witness_rollback :
    let k : Turn := { pc := 0, s := base.x.s, p := base.x.p, loops := [], lc := base.x.lc, ps := base.x.ps, latch := base.seq.latch, inc := none, vctl := 0, vseed := 1,
                      lfsr := base.vec.lfsr, desc := base.desc, exps := [], refill := base.desc[0], base := 0, len := 0, bar := 0, engine := 0, rolled := 0 }
    let s := machine (fun c => { c with turn := some k })
    let r := machine (fun c => { c with rollback := some (0, false) })
    (s.core 0).busy = true ∧ (s.core 0).turn.isSome = true ∧ (s.core 0).seq.stop = none ∧ (s.core 0).rollback = none ∧
    let d := machine (fun c => { seqWith (fun q => { q with stop := some .rollback }) c with turn := some k })
    (d.core 0).seq.stop = some .rollback ∧ d.drained 0 = true ∧ (d.cluster 0).reqQ.any (fun r => r.core == 0) = false ∧ d.teamOf 0 = none ∧
    (r.core 0).busy = true ∧ (r.core 0).rollback = some (0, false) ∧ ((r.core 0).bars[(0 : Fin 16)]).satisfied = true := by decide +kernel

/-! The calendar, teams and launches. -/


theorem witness_calendar :
    let bad := idle.updCluster 0 (fun k => { k with calBad := some 7 })
    (idle.cluster 0).calBad = none ∧ (idle.cluster 0).calStep = 0 ∧ idle.successor 0 = none ∧
    ((idle.updCluster 0 (fun k => { k with calStep := 3 })).cluster 0).calStep = 3 ∧ (bad.cluster 0).calBad = some 7 := by decide +kernel
/-- A headland whose barrier is satisfied, one whose barrier expects a signal, and one whose furrow starts now. -/
theorem witness_headland :
    let s := (machine (seqWith (fun q => { q with mode := .atHeadland, wait := some 2 }))).retryHold 0
    let l := (machine (seqWith (fun q => { q with mode := .atHeadland, slipped := some 3 }))).retryHold 0
    let u := machine (fun c => seqWith (fun q => { q with mode := .atHeadland, wait := some 2 }) { c with bars := c.bars.set 2 { Barrier.init with exp := 1 } })
    let v : State := { machine (seqWith (fun q => { q with mode := .atHeadland, anchor := some 4 })) with tick := 5 }
    (s.core 0).seq.mode = .atHeadland ∧ (s.core 0).seq.stop = none ∧ (s.core 0).rollback = none ∧ (s.core 0).seq.anchor = none ∧ (s.core 0).seq.slipped = none ∧
    (s.core 0).seq.wait = some 2 ∧ ((s.core 0).bars[(2 : Fin 16)].pend = 0 ∧ (s.core 0).bars[(2 : Fin 16)].exp ≤ (s.core 0).bars[(2 : Fin 16)].cnt) ∧
    ¬((u.core 0).bars[(2 : Fin 16)].pend = 0 ∧ (u.core 0).bars[(2 : Fin 16)].exp ≤ (u.core 0).bars[(2 : Fin 16)].cnt) ∧ (u.core 0).seq.wait = some 2 ∧
    (l.core 0).seq.slipped = some 3 ∧ (l.core 0).seq.anchor = none ∧ (l.core 0).seq.mode = .atHeadland ∧
    ((v.retryHold 0).core 0).seq.anchor = some 4 ∧ 4 < v.tick ∧ (v.core 0).seq.mode = .atHeadland := by decide +kernel
theorem witness_grace :
    let s := ({ teamed with tick := 10 } : State).updCluster 0 (fun k => { k with bookings := [bookingOf .floating 1 6 4 9] })
    (s.cluster (clusterOf 0)).bookings.find? (fun b => b.core == 0 && decide (b.kind = .floating) && decide (b.grace < s.tick)) = some (bookingOf .floating 1 6 4 9) ∧
    clusterOf (bookingOf .floating 1 6 4 9).core = clusterOf 0 := by
  decide +kernel
theorem witness_overrun :
    let s := ({ teamAs .running false (seqWith (fun q => { q with overruns := 1 })) with tick := 10 } : State).updCluster 0 (fun k => { k with bookings := [bookingOf .anchored 0 6 4 9] })
    let u := fun k => ({ teamAs .running false (fun c => { c with image := some { loadedImage [] with flags := k } }) with tick := 10 } : State).updCluster 0
      (fun k => { k with bookings := [bookingOf .anchored 0 6 4 9] })
    (u 0).present 0 = some (bookingOf .anchored 0 6 4 9) ∧ ((u 0).core 0).seq.overruns = 0 ∧ (((u 0).core 0).image.map (fun i => i.flags % 2)).getD 0 = 0 ∧
    (((u 1).core 0).image.map (fun i => i.flags % 2)).getD 0 = 1 ∧
    s.present 0 = some (bookingOf .anchored 0 6 4 9) ∧ (bookingOf .anchored 0 6 4 9).last < s.tick ∧ (bookingOf .anchored 0 6 4 9).left = 0 ∧
    (s.core 0).seq.mode = .running ∧ (s.core 0).seq.stop = none ∧ (s.core 0).seq.ext = 0 ∧ 0 < (s.core 0).seq.overruns := by decide +kernel
theorem witness_stake :
    let s := ({ teamAs .running false (seqWith (fun q => { q with mode := .atHeadland, slipped := some 0 })) with tick := 5000 } : State).updCluster 0
      (fun k => { k with bookings := [bookingOf .unbooked 1 6 4 9] })
    let f := s.updCluster 0 (fun k => { k with stakes := [⟨0, 3, 0, 1, furrow1, 5, 8⟩] })
    let l := ({ idle with tick := 5 } : State).updCluster 0 (fun k => { k with stakes := [⟨0, 3, 0, 1, furrow1, 5, 8⟩] })
    let x : Want := ⟨0, 3, 1, furrow1, 4, 0, false⟩
    idle.starving 0 = [] ∧ s.teams.filter (s.starvingOn 0) = [] ∧ s.waiting 0 = [x] ∧ (s.core 0).seq.mode = .atHeadland ∧ (s.core 0).seq.anchor = none ∧
    (s.core 0).seq.slipped = some 0 ∧ 0 + s.starveLim (s.core 0).csr.ctxId.toNat < s.tick ∧ s.stakeFits x s.tick = true ∧
    (s.cluster (clusterOf x.core)).stakes.any (fun q => q.team == x.team && q.core == x.core) = false ∧
    f.waiting 0 = [x] ∧ (∃ q ∈ (f.cluster (clusterOf x.core)).stakes, q.team = x.team ∧ q.core = x.core) ∧
    (l.cluster (clusterOf 0)).stakes.any (fun q => q.core == 0 && decide (q.first ≤ l.tick)) = true ∧
    (idle.cluster (clusterOf 0)).stakes.any (fun q => q.core == 0 && decide (q.first ≤ idle.tick)) = false := by decide +kernel
/-- Four stakes leave no room for a fifth. -/
theorem witness_no_stake (j : Nat) :
    let s := ({ teamAs .running false (seqWith (fun q => { q with mode := .atHeadland, slipped := some 0 })) with tick := 5000 } : State).updCluster 0 (fun k => { k with
      bookings := [bookingOf .unbooked 1 6 4 9], stakes := [4, 5, 6, 7].map (fun t => ⟨t, t, t, 1, furrow1, 5, 8⟩) })
    s.stakeFits ⟨0, 3, 1, furrow1, 4, 0, false⟩ (s.tick + j) = false := by
  intro s
  simp only [State.stakeFits, Bool.and_eq_false_iff]
  exact Or.inl (by decide +kernel)
theorem witness_lapse :
    let v : Reservation := ⟨1, some 0, none, 0, 0, [0, 1], 4, 9⟩
    let s : State := { idle with tick := 4, reservations := [v] }
    s.reservations.find? (fun v => v.handle == 1 && v.cores.any (fun n => clusterOf n == 0) && decide (v.tick ≤ s.tick)) = some v := by decide +kernel
/-- The booking of a member that is swapped out: rank 0 of team 3. -/
theorem witness_lapse_absent :
    let v : Reservation := ⟨1, some (absentKey 3 0), none, 0, 0, [0, 1], 4, 9⟩
    let w : Saved := teamed.saveOf 0 3
    let s : State := { teamed with tick := 4, reservations := [v], teams := tmap (fun _ (t : Team) => { t with members := [⟨0, 0, false, true, some w, none⟩] }) teamed.teams }
    v.core = some (absentKey 3 0) ∧ (0 : Nat) < 64 ∧ (s.team 3).map Team.members = some [⟨0, 0, false, true, some w, none⟩] ∧
    s.reservations.find? (fun v => v.handle == 1 && v.cores.any (fun n => clusterOf n == 0) && decide (v.tick ≤ s.tick)) = some v := by
  refine ⟨rfl, by decide, rfl, by decide +kernel⟩
/-- An UNBOOK of no booking is done, and a BOOK of an image that no page holds waits. -/
theorem witness_requests :
    let s := idle.updCluster 0 (fun k => { k with reqQ := [⟨0, 1, 0, 0, none, []⟩] })
    let u := idle.updCluster 0 (fun k => { k with reqQ := [⟨0, 0, 0, 0, none, []⟩] })
    (idle.cluster 0).reqQ = [] ∧ (match s.serve ⟨0, 1, 0, 0, none, []⟩ with | (v, .done _ _) => decide ((v.cluster 0).reqQ = [⟨0, 1, 0, 0, none, []⟩]) | _ => false) = true ∧
    (match u.serve ⟨0, 0, 0, 0, none, []⟩ with | (_, .page _ _) => true | _ => false) = true := by decide +kernel

theorem witness_release :
    let r := teamAs .staged false (seqWith (fun q => { q with mode := .staged }))
    let h := teamAs .staged false id
    let ok := fun (s : State) => (s.teamsOf 5).all (fun p => decide (p.2.state = .staged) && p.2.members.all (s.coreWaits p))
    (r.team 3).any (fun t => decide (t.state = .staged) && decide (t.release ≤ r.tick) && !r.paused t.ctx) = true ∧ ok r = true ∧ ok h = false := by decide +kernel
theorem witness_stage :
    let s := teamAs .held true id
    let u : State := { teamAs .held false (seqWith (fun q => { q with mode := .staged })) with
      teams := tmap (fun _ (t : Team) => { t with image := { t.image with furrows := [furrow1] } }) (teamAs .held false id).teams }
    let h := teamAs .held false id
    (s.team 3).any (fun t => decide (t.state = .held) && !s.paused t.ctx) = true ∧
    (s.teamsOf 5).all (fun p => p.2.members.all (s.coreWaits p)) = true ∧ (h.teamsOf 5).all (fun p => p.2.members.all (h.coreWaits p)) = false ∧
    s.groupWants (s.teamsOf 5) = [] ∧ (u.teamsOf 5).all (fun p => p.2.members.all (u.coreWaits p)) = true ∧
    (u.groupWants (u.teamsOf 5)).map Prod.fst = [⟨0, 3, 0, furrow1, 4, 0, false⟩] ∧ (u.bookTeam (u.groupWants (u.teamsOf 5)) (u.tick + 1) 8191).isSome = true := by
  decide +kernel
theorem witness_quantum :
    let s : State := { teamed with teams := tmap (fun _ (t : Team) => { t with used := 65536 }) teamed.teams }
    (s.team 3).any (fun t => decide (t.state = .running) && decide (((tfind s.contexts t.ctx).map Context.quantum).getD 65536 ≤ t.used)) = true ∧ s.queueWaits 3 = true ∧
    (teamed.team 3).any (fun t => decide (t.used < ((tfind teamed.contexts t.ctx).map Context.quantum).getD 65536)) = true := by decide +kernel
theorem witness_preempt :
    let c : State := { teamed with insts := [(5, ⟨9, 0, [3], false, true⟩)] }
    (teamed.team 3).isSome = true ∧ (teamed.inst 5).any (fun i => i.faulted || i.cancelled) = false ∧ (c.inst 5).any (fun i => i.faulted || i.cancelled) = true := by
  decide +kernel
theorem witness_place :
    let s : State := { teamAs .ready false id with cores := [], teams := tmap (fun _ (t : Team) => { t with image := { t.image with usem := 0, furrows := [furrow1] } }) teamed.teams }
    let s : State := { s with teams := tmap (fun _ (t : Team) => { t with state := .ready, members := [] }) s.teams }
    (s.team 3).any (fun t => decide (t.state = .ready)) = true ∧ ((s.placeTeam 3).team 3).map Team.state = some .placed := by decide +kernel
/-- A member that has drained; one with a word that cannot be read in its field. -/
theorem witness_swap_out :
    let s := teamAs .stopping false (seqWith (fun q => { q with mode := .swapped }))
    let b := teamAs .stopping false (fun c => { seqWith (fun q => { q with mode := .swapped }) c with field := { c.field with bad := [4] } })
    (s.teamOf 0).any (fun t => (t.2.members.find? (fun m => m.core == 0 && !m.exited && !m.done)).isSome && decide (t.2.state = .stopping)) = true ∧
    let m := (teamAs .stopping false (fun c => { seqWith (fun q => { q with mode := .swapped }) c with
      rgn := c.rgn.set 0 ⟨true, false, 0, 0x10000, 0, 2, 0, true, 0⟩,
      field := { c.field with groups := [(0, { Group.init with valid := true })], bad := [4] } })).updCluster 0 (fun k => { k with tlb2 := [⟨0, 0, 65536, 0x1807, false⟩] })
    (m.flushAll 0).2 = true ∧ (m.flushAll 0).1.badLive 0 = none ∧ ((m.flushAll 0).1.core 0).badSaved = none ∧ (m.flushAll 0).1.badMapped 0 = true ∧
    s.reservedNow (clusterOf 0) = false ∧ ({ s with instant := 63 } : State).reservedNow (clusterOf 0) = true ∧ s.badMapped 0 = false ∧
    (s.core 0).seq.mode = .swapped ∧ s.badLive 0 = none ∧ (s.core 0).badSaved = none ∧ (s.flushAll 0).2 = true ∧ b.badLive 0 = some (false, 4) ∧
    ((teamAs .stopping false (fun c => { c with flaws := [⟨.bank, 0, true⟩, ⟨.vreg, 7, true⟩] })).core 0).badSaved = some ⟨.vreg, 7, true⟩ := by decide +kernel
theorem witness_swap_in :
    let s := teamAs .restoring true id
    let d : State := { s with teams := tmap (fun _ (t : Team) => { t with area := [1] }) s.teams }
    (s.teamsOf 5).all (fun p => decide (p.2.state = .restoring)) = true ∧ (s.teamsOf 5).all (fun p => p.2.area == [] && p.2.digest == sha256 []) = true ∧
    let a : State := { s with teams := tmap (fun _ (t : Team) => { t with areaBad := true }) s.teams }
    let z := s.updCluster frontCluster (fun k => { k with tlb2 := [⟨0, 0, 65536, 0x1807, false⟩] })
    let late := fun (s : State) => (s.teamsOf 5).any (fun p => p.2.members.any (fun m => s.reservedNow (clusterOf m.core)))
    late s = false ∧ late { s with instant := 63 } = true ∧ (s.teamsOf 5).any (fun p => p.2.areaBad) = false ∧ (a.teamsOf 5).any (fun p => p.2.areaBad) = true ∧
    (match z.reloadImages (z.teamsOf 5) with | (_, .error (some _)) => true | _ => false) = true ∧ (s.inst 5).isSome = true ∧
    (s.restoreAll (s.teamsOf 5)).2 = true ∧ (d.teamsOf 5).all (fun p => sha256 p.2.area == p.2.digest) = false ∧
    (match s.reloadImages (s.teamsOf 5) with | (_, .error none) => true | _ => false) = true := by decide +kernel
theorem witness_instance : ({ idle with insts := [(5, ⟨9, 0, [], false, false⟩)] } : State).inst 5 = some ⟨9, 0, [], false, false⟩ := by decide +kernel
theorem witness_context_end :
    let q : State := { idle with queues := [(5, { Queue.init 5 with en := true })], cores := [] }
    let e : State := { idle with endings := [⟨7, idle.tick, []⟩] }
    e.isEnding 7 = true ∧ q.isEnding 0 = false ∧ (q.queue 5).en = true ∧ (q.queue 5).ctx = 0 ∧ q.insts = [] ∧ q.units = [] ∧ q.reservations = [] ∧
    (∀ p ∈ q.cores, ¬(p.2.busy = true ∧ p.2.csr.ctxId.toNat = 0 ∧ p.2.team = none)) := by decide +kernel
/-- A launch of one instance that may be admitted, and one whose image was found faulty. -/
theorem witness_admit :
    let s : State := { teamed with units := tmap (fun _ (u : UnitRec) => { u with admitted := false, made := 0 }) teamed.units }
    let r : State := { teamed with units := tmap (fun _ (u : UnitRec) => { u with admitted := false, made := 0, parsed := [], refusal := some (0x503, 3, 64) }) teamed.units }
    (s.unit 9).any (fun x => decide (x.kind = 0) && !x.admitted && x.open') = true ∧ (s.unit 9).map s.refusalOf = some none ∧
    (r.unit 9).map r.refusalOf = some (some (0x503, 3, 64)) := by decide +kernel

/-! Commands in progress and page faults. -/

def cmd (id : Nat) (op : Instr) (st : CmdState) : Command :=
  { id := id, op := op, ctx := 0, a := 0, b := 0, c := 0, desc := Vector.replicate 4 0, bar := none, weight := 1, state := st, slot := [], index := [], done := 0,
    started := false, refill := false, killed := false, buf := [], tried := none, born := 0, hidden := [] }
def queued (l : List Command) : State := machine (fun c => { c with queue0 := l })

/-- A CXFER of one row of 64 bytes with a signal to barrier 2 of core 1; core 1 runs the context, or is idle. -/
theorem witness_target_signal :
    let x : Command := { cmd 4 (.cxfer 0 3 0 0 3 0 0 9 0) (.accepted 0) with c := 18, a := 0x08800000, desc := #v[0, 0, 0, 64] }
    let s := (queued [x]).setCore 1 base
    (s.core 0).command 4 = some x ∧ x.signal = some 2 ∧ x.targetCore 0 = 1 ∧ (s.core (x.targetCore 0)).runs x.ctx = true ∧
    ((queued [x]).core (x.targetCore 0)).runs x.ctx = false := by decide +kernel
theorem witness_waiting :
    let x := cmd 4 (.precv 0 3 1 4 1 1 2 0) .waiting
    let s := queued [x]
    (s.core 0).command 4 = some x ∧ x.state = .waiting ∧ s.stopped 0 = false ∧ (s.stepsLeft 0 x).length = 1 ∧
    (cmd 4 (.precv 0 3 1 4 1 1 2 0) .queued).state ≠ .waiting := by decide +kernel
/-- An IXTOPK on a handle with no context ends; an IXOPEN of 16 terms and K = 10 starts. -/
theorem witness_index :
    let x := cmd 4 (.ixtopk 0 3 1) (.accepted 9)
    let y : Command := { cmd 5 (.ixopen 0 1 0 10 12) (.accepted 9) with b := 10 + 65536 }
    let s := queued [x]
    let u := queued [y]
    isIx x.op = true ∧ x.started = false ∧ (s.core 0).ixBehind x = false ∧ (s.ixStatus 0 x).isSome = true ∧ isIx y.op = true ∧ u.ixStatus 0 y = none ∧
    (u.core 0).ixBehind y = false := by decide +kernel
theorem witness_accept :
    let x := cmd 4 (.cget 0 3 2 3 2 0 0 0 0 0 0) .queued
    let held := fun (u : State) => u.holds x.ctx || ((u.core 0).earlier x).any (fun e => (u.firstAccesses 0 x).any (u.holdsBack 0 x e)) ||
      (u.reservedNow (clusterOf 0) && (decide (x.slotReads ≠ 0) || x.gathers))
    let u := (queued [x]).updCore 0 Core.dropJoins
    let h : State := { queued [x] with hold := some (0, [0]) }
    ((idle.updCore 0 Core.dropJoins).core 0).nextQueued 0 = none ∧ (u.core 0).nextQueued 0 = some x ∧ held u = false ∧ held h = true := by decide +kernel
/-- A CMAP behind a command that has not ended is held back. -/
theorem witness_held_back :
    let x := cmd 5 (.cmap 0 3 1 4 1 0) .queued
    let u := (queued [cmd 4 (.cget 0 3 2 3 2 0 0 0 0 0 0) (.accepted 9), x]).updCore 0 Core.dropJoins
    (u.core 0).nextQueued 0 = some x ∧ ((u.core 0).earlier x).any (fun e => (u.firstAccesses 0 x).any (u.holdsBack 0 x e)) = true := by decide +kernel
theorem witness_ready_command :
    let x := cmd 4 (.cget 0 3 2 3 2 0 0 0 0 0 0) (.accepted 9)
    ((queued [x]).core 0).command 4 = some x ∧ x.ready 9 = true ∧ x.ready 8 = false ∧ (queued [x]).now < 9 := by decide +kernel
/-- A PRECV with a step left, alone and behind a FENCE's join; one with none left; a CGET that reads global memory; a pipe that waits. -/
theorem witness_steps :
    let x := cmd 4 (.precv 0 3 1 4 1 1 2 0) (.accepted 0)
    let p := cmd 4 (.psend 0 3 1 4 1 1 2 0) (.accepted 0)
    let s := queued [x]
    let waits := fun (s : State) (x : Command) (st : CStep) =>
      st.act.isLocal || (x.withdrawn && s.stopped 0) || ((s.core 0).earlier x).any (fun e => s.holdsBack 0 x e (s.accessOf 0 x st))
    let g : Command := { cmd 4 (.cget 0 3 2 3 2 0 0 0 0 0 0) (.accepted 0) with desc := #v[0, 0, 0, 64] }
    x.ready s.now = true ∧ (s.stepsLeft 0 x).map (waits s x) = [false] ∧ (s.stepsLeft 0 { x with done := 9 }) = [] ∧ x.signal = none ∧ isMap x.op = false ∧
    ((queued [p]).stepsLeft 0 p).map (waits (queued [p]) p) = [false] ∧
    ((queued [p]).stepsLeft 0 p).map (fun st => decide (((queued [p]).runStep 0 p st).2.1 = .fail stRank)) = [true] ∧
    ((queued [g]).stepsLeft 0 g).head?.map (fun st => ((queued [g]).runStep 0 g st).2.1) = some (.wait (.fault 0)) := by decide +kernel
theorem witness_link_wait :
    let p := cmd 4 (.cget 0 3 2 3 2 0 0 0 0 0 0) (.link 3 true)
    let h := cmd 4 (.cget 0 3 2 3 2 0 0 0 0 0 0) (.link 3 false)
    let s : State := { queued [p] with tick := 3 + 2 ^ 20 }
    (s.core 0).command 4 = some p ∧ p.state = .link 3 true ∧ h.state = .link 3 false ∧ 3 + 2 ^ 20 ≤ s.tick ∧ (queued [p]).tick < 3 + 2 ^ 20 := by decide +kernel
theorem witness_end :
    let x : Command := { cmd 4 (.cget 0 3 2 3 2 0 0 0 0 0 0) (.accepted 9) with bar := some 3, weight := 64 }
    let s := machine (fun c => { c with queue0 := [x], bars := (c.bars.set 3 { Barrier.init with pend := 64 }) })
    (s.core 0).command 4 = some x ∧ x.bar = some 3 ∧ x.weight < 2 ^ 64 ∧ stData ≠ 0 ∧ (s.core 0).bars[(3 : Fin 16)].pend < 2 ^ 64 ∧
    x.weight ≤ (s.core 0).bars[(3 : Fin 16)].pend ∧ (s.core 0).bars[(3 : Fin 16)].err = 0 := by decide +kernel
theorem witness_invalidation :
    let v : Inv := ⟨7, 0, 0, 0, 0, true⟩
    let s : State := { idle with invs := [v], cxlUp := true }
    s.invs.find? (fun v => v.id == 7) = some v ∧ v.mailbox = true ∧ s.cxlUp = true := by decide +kernel
/-- A migration with nothing left, one whose INVTLB is out, and one whose INVTLB has ended; one with a page left, whose CMIGR is killed or not. -/
theorem witness_migration :
    let m : Migration := ⟨4, 0, [], 0, none, 100, 0, none, none, none⟩
    let w : Migration := ⟨5, 0, [], 0, none, 100, 0, some (0, 3, 7, 0), none, none⟩
    let s : State := { idle with migrations := [m, w], invs := [⟨7, 0, 0, 0, 0, false⟩] }
    s.migrations.find? (fun m => m.id == 4) = some m ∧ m.page = none ∧ m.pages = [] ∧ s.migrations.find? (fun m => m.id == 5) = some w ∧
    w.page = some (0, 3, 7, 0) ∧ s.invs.any (fun v => v.id == 7) = true ∧ s.invs.any (fun v => v.id == 8) = false ∧
    (let gone := fun (m : Migration) (s : State) => m.owner.any (fun o => ((s.core o.1).command o.2).all Command.killed)
     let o : Migration := { m with owner := some (0, 4), pages := [65536] }
     gone o (queued []) = true ∧ gone o (queued [cmd 4 (.cmigr 0 3 1 4 1 1 1 0) (.accepted 9)]) = false) := by decide +kernel
/-- Context 0 with four levels of tables in tier 0 that map virtual page 0 to the first page of tier 0. -/
def mapped : State :=
  let put := fun (s : State) (pa e : Nat) => { s with dev := { s.dev with cells := writeNat s.dev.cells (128 * s.blockOf 0 pa + pa % 128) 8 e } }
  let s : State := { idle with contexts := [(0, ⟨0x10000, 256, 65536, 0⟩)] }
  put (put (put (put s 0x10000 0x20001) 0x20000 0x30001) 0x30000 0x40001) 0x40000 0x1A07
theorem witness_page : mapped.arrived 0 0 = true ∧ mapped.arrived 0 65536 = false ∧ idle.arrived 0 0 = false := by decide +kernel
/-- A fault on page 1 for 2^24 ticks, and one tick less. -/
theorem witness_unresolvable :
    let s : State := { idle with faults := [⟨0, 1, 0, 65536⟩], tick := 2 ^ 24 }
    let u : State := { s with tick := 2 ^ 24 - 1 }
    s.arrived 0 65536 = false ∧ u.arrived 0 65536 = false ∧ s.queues = [] ∧ s.faults.any (fun f => f.ctx == 0 && f.page == 65536 / 65536 && decide (f.since + 2 ^ 24 ≤ s.tick)) = true ∧
    u.faults.any (fun f => f.ctx == 0 && f.page == 65536 / 65536 && decide (f.since + 2 ^ 24 ≤ u.tick)) = false := by decide +kernel

/-! The front end and the links. -/

/-- Queue 5 enabled with words to parse, its page in the front end's translations; memory is all zeros, so its packets are NOPs. -/
def parsing (f : Queue → Queue) (l : List Host.Cell) : State :=
  { idle with
    queues := [(5, f { Queue.init 5 with base := 0x1000, en := true, state := 1, wp := 16 })],
    clusters := tset idle.clusters frontCluster { Cluster.init with tlb2 := [⟨0, 0, 65536, 0x1827, false⟩] },
    cxlUp := true, host := { GMem.init with cells := l } }

theorem witness_packet :
    packetOf (.nop 5) = some (5, 0, none, fun s _ _ => (s, .accept true)) := rfl
theorem witness_packet_words :
    let s := parsing id []
    (s.queue 5).ready = true ∧ (match s.readWords 5 0 1 with | (_, .ok [w]) => decide (w = 0) | _ => false) = true ∧ 1 + 0 ≤ (s.queue 5).avail := by decide +kernel
/-- A FENCE with one payload word too many, and a SIGNAL with flags that are reserved. -/
theorem witness_bad_packets :
    let s := parsing id [(0x1001, 1), (0x1003, 5)]
    let u := parsing id [(0x1000, 2), (0x1001, 5), (0x1003, 3)]
    (match s.readWords 5 0 1 with | (_, .ok [w]) => decide (w / 2 ^ 24 = 5 ∧ w / 2 ^ 8 % 2 ^ 16 ≠ 0) | _ => false) = true ∧
    (match u.readWords 5 0 1 with | (_, .ok [w]) => decide (w / 2 ^ 24 = 3 ∧ w / 2 ^ 8 % 2 ^ 16 = 5 ∧ 2 ≤ w % 256) | _ => false) = true := by decide +kernel
/-- Effects of the four outcomes: a FENCE behind a deferred write holds, a CANCEL of kind 9 is an error, a CALL opens a level. -/
theorem witness_packet_effects :
    let s := parsing (fun x => { x with deferred := [⟨0, 0, [0], false, none, false, 0, none⟩] }) []
    (s.takeFence 5).2 = .hold none ∧ ((parsing id []).takeFence 5).2 = .accept true ∧ ((parsing id []).takeCall 5 [64, 0, 3] false).2 = .call ⟨64, 3, 0, false⟩ ∧
    ((parsing (fun x => { x with levels := List.replicate 4 ⟨0, 1, 0, false⟩ }) []).takeCall 5 [64, 0, 3] false).2 = .error 4 := by decide +kernel
theorem witness_packet_fields : nth [0, 0, 1, 7, 0] 2 < 2 ∧ dw [0, 0, 1, 7, 0] 0 % 8 = 0 ∧ dw [64, 0, 3] 0 % 4 = 0 ∧ nth [64, 0, 3] 2 ≠ 0 ∧ nth [64, 0, 16777216] 2 ≤ 16777216 ∧
    nth [3, 0] 0 < 4 ∧ idle.inFlight (idle.queue 5).ctx 3 0 = false ∧ (idle.queue 5).levels = [] := by decide +kernel
theorem witness_queue_registers : ((parsing id []).queue 5).en = true ∧ (idle.queue 1023).en = false ∧ (1023 : Nat) < 1024 ∧ (9 : Double).toNat % 32 < 10 := by decide +kernel
theorem witness_kickq :
    let s := parsing (fun x => { x with kick := 0x2000 }) []
    (match s.frontWrite (s.queue 5).ctx (s.queue 5).kick (bytesOfNat 8 7) with | (_, none) => true | _ => false) = true := by decide +kernel
/-- A kick word of 0 below WP, one of 2,000 past the ring, and one of 20 in order. -/
theorem witness_doorbell :
    let low := parsing (fun x => { x with kickAt := some (2, 0x2000) }) []
    let high := parsing (fun x => { x with kickAt := some (2, 0x2000) }) [(0x2000, 0xD0), (0x2001, 7)]
    let good := parsing (fun x => { x with kickAt := some (2, 0x2000) }) [(0x2000, 20)]
    let read := fun (s : State) => (s.readHome 2 0x2000 8).2.map natOfBytes
    (low.queue 5).kickAt = some (2, 0x2000) ∧ read low = some 0 ∧ 0 < (low.queue 5).wp ∧ read high = some 2000 ∧ (high.queue 5).rp + 2 ^ (high.queue 5).log2 < 2000 ∧
    read good = some 20 ∧ (good.queue 5).wp ≤ 20 ∧ 20 ≤ (good.queue 5).rp + 2 ^ (good.queue 5).log2 := by decide +kernel
theorem witness_held_queues :
    let w := parsing (fun x => { x with state := 3 }) []
    let p := parsing (fun x => { x with state := 4 }) []
    (w.queue 5).state = 3 ∧ (p.queue 5).state = 4 ∧ p.parkOver (p.queue 5) = true ∧ (p.queue 5).unread = false ∧ (w.queue 5).state ≠ 4 ∧ (p.queue 5).deferred = [] ∧
    (p.queue 5).rpWrites = [] := by decide +kernel
/-- Deferred writes: one behind a launch of its queue, one that is made, one whose page is not mapped, and one to a page that is read only. -/
theorem witness_deferred :
    let w : FrontWrite := ⟨0, 0x2000, bytesOfNat 8 7, false, none, false, 1, some 5⟩
    let s := parsing (fun x => { x with deferred := [w] }) []
    let h : State := { s with units := tmap (fun _ (u : UnitRec) => { u with queue := some 5 }) teamed.units }
    let ro := s.updCluster frontCluster (fun k => { k with tlb2 := [⟨0, 0, 65536, 0x1823, false⟩] })
    (s.queue 5).rpWrites = [] ∧ (s.queue 5).deferred = [w] ∧ s.launchesBefore 5 1 = false ∧ h.launchesBefore 5 1 = true ∧ (s.makeWrite w).2.isNone = true ∧
    (match (s.makeWrite { w with va := 65536 }).2 with | some (.page _) => true | _ => false) = true ∧
    (match (ro.makeWrite w).2 with | some (.fail _) => true | _ => false) = true := by decide +kernel
/-- A link with no permit in use, with the last general one free, with 12 in use, and with all 16 in use; and a full inbox. -/
theorem witness_links :
    let m : MsgKind × Nat := (.place, 1)
    let at' := fun (g r : Nat) => idle.updCluster 0 (fun k => { k with toCC := ⟨[m], [], g, r, [0], [false]⟩ })
    messageOf (.msgPreempt 0 7) = some (.preempt, 0, 7, true, true) ∧ bit idle.pres.clusters 0 = true ∧ bit idle.pres.clusters 32 = false ∧
    (idle.cluster 0).toCC.held = [] ∧ (idle.cluster 0).toCC.inbox = [] ∧ ((at' 11 0).cluster 0).toCC.general < 12 ∧ 12 ≤ ((at' 12 3).cluster 0).toCC.general ∧
    ((at' 12 3).cluster 0).toCC.reserved < 4 ∧ 4 ≤ ((at' 12 4).cluster 0).toCC.reserved ∧ ((at' 1 0).cluster 0).toCC.inbox = m :: [] ∧ m.1.urgent = false ∧
    (let l : Link := { ((at' 12 0).cluster 0).toCC with held := [(.release, 2)] }
     l.inbox = [m] ∧ l.held = [(.release, 2)] ∧ (∀ x ∈ l.held, x.1.urgent = false) ∧ 1 ≤ l.general ∧ l.general ≤ 12) := by decide +kernel

/-! The mailbox. -/

def linked : State := { idle with cxlUp := true }
def doc : State := { linked with contexts := [(3, ⟨0, 256, 65536, 0⟩)] }

/-- A CTX_CREATE of a context that exists breaks its layout. -/
theorem witness_mailbox : mailboxOf doc (.ctxCreate [3, 0, 0x100000100, 0]) = some (0xC000, false) ∧ doc.mailboxUp = true ∧ idle.mailboxUp = false := by decide +kernel
theorem witness_contexts : doc.inUse (nth (doubles [3]) 0) = true ∧ 1 ≤ [(3 : Double)].length ∧ mailboxOf doc (.mbInvtlb [0x3001, 0, 0]) = some (0xC002, true) ∧
    mailboxOf doc (.migrate [3, 0, 65536, 1, 0]) = some (0xC003, true) ∧ doc.createOk (doubles [4095, 64, 0x04000100, 15]) = true := by decide +kernel
theorem witness_checkpoint_command : doc.ckptOk (doubles [4096, 0, 1, 3]) = true ∧ nth (doubles [4096, 0, 1, 3]) 1 = 0 ∧ doc.hold = none := by decide +kernel
/-- A checkpoint whose bytes are what the next read of a checkpoint's pages gives, whatever that is. -/
def snap : Snapshot := doc.snapshot [3] (Config.saveArea (Config.freeNat doc.freeCtr / 2))
theorem witness_restore :
    let s : State := { doc with nodes := [(4096, snap)] }
    let r : State := { s with restoring := some 8192 }
    (∃ v, tfind (s.readNode 4096).nodes 4096 = some v) ∧ (s.readNode 4096).restorable 4096 = true ∧ (r.readNode 4096).restorable 4096 = false ∧ doc.mailboxUp = true := by
  have e : sha256 snap.bytes = snap.digest := rfl
  have b : snap.bytes = Config.saveArea (Config.freeNat doc.freeCtr / 2) := rfl
  have r : ∀ (s : State), s.nodes = [(4096, snap)] → s.freeCtr = doc.freeCtr → s.pres = snap.pres → s.ckpt = none →
      (∃ v, tfind (s.readNode 4096).nodes 4096 = some v) ∧ (s.readNode 4096).restorable 4096 = s.restoring.isNone := by
    intro s hn hf hp hc
    have m : s.meetNode 4096 = s := by simp [State.meetNode, hn, tfind]
    by_cases p : Config.freeNat doc.freeCtr % 2 = 1 <;>
      simp [State.readNode, m, State.free, State.restorable, p, hn, hf, tfind, tset, ← b, e, hp, hc]
  have h := r { doc with nodes := [(4096, snap)] } rfl rfl rfl rfl
  exact ⟨h.1, h.2, (r { doc with nodes := [(4096, snap)], restoring := some 8192 } rfl rfl rfl rfl).2, by decide +kernel⟩
theorem witness_restore_ends :
    let r : State := { doc with nodes := [(4096, { snap with bytes := [] })], restoring := some 4096 }
    r.restoring = some 4096 ∧ (tfind r.nodes 4096).any (fun v => v.ctxs.all r.idleContext) = true := by decide +kernel
theorem witness_restore_waits :
    let r : State := { teamed with nodes := [(4096, { snap with ctxs := [0] })], restoring := some 4096 }
    (tfind r.nodes 4096).any (fun v => v.ctxs.all r.idleContext) = false := by decide +kernel
theorem witness_checkpoint :
    let s : State := { doc with ckpt := some (4096, [3], false) }
    let b : State := { teamed with ckpt := some (4096, [0], false) }
    s.ckpt = some (4096, [3], false) ∧ s.atRest [3] = true ∧ s.cxlUp = true ∧ b.atRest [0] = false := by decide +kernel
theorem witness_attest : doc.idSigs < 2 ^ 40 ∧ 4 ≤ [(0 : Double), 0, 0, 0].length ∧ 2 ^ 40 ≤ ({ doc with idSigs := 2 ^ 40 } : State).idSigs := by decide +kernel
theorem witness_windows :
    let w : Window := ⟨2, 4096, 4096, 100, 0, [0, 1], []⟩
    linked.windowOk (doubles [0, 4096, 100, 0x100000, 4, 0x0003000200010000]) = true ∧ tfind linked.windows 15 = none ∧
    tfind ({ linked with windows := [(2, w)] } : State).windows (nth (doubles [2]) 0) = some w ∧ w.segments = [] := by decide +kernel
theorem witness_events : 1 ≤ nth (doubles [4096]) 0 ∧ nth (doubles [4096]) 0 ≤ 4096 := by decide
theorem witness_hash : (1 : Nat) < 2 ∧ (2 ^ 14 - 1 : Nat) < 2 ^ 14 ∧ (511 : Nat) < 512 ∧ (3 : Nat) < 4 := by decide
theorem witness_power : nth (doubles [3200, 0, 0, 0, 0]) 0 ≤ 3200 ∧ (linked.newLimits (doubles [3200, 0, 0, 0, 0])).isSome = true ∧ linked.newLimits (doubles [724, 0, 0, 0, 0]) = none := by
  decide +kernel
/-- A key of 60 bytes whose types are 1, 5 and 1, most significant byte first. -/
theorem witness_key :
    let d : List Double := [15, 60, 0x0500000001000000, 0x0000000001000000, 0, 0, 0, 0, 0, 0]
    let key := (outBytes ((doubles d).drop 2)).take 60
    nth (doubles d) 0 < 16 ∧ nth (doubles d) 1 < 65536 ∧ nth (doubles d) 1 ≤ 8 * (d.length - 2) ∧ hssKeyOk key = true ∧ (∀ b ∈ ((outBytes ((doubles d).drop 2)).drop 60).take ((8 - 60 % 8) % 8), b = 0) ∧ tfind linked.keys 15 = none ∧
    (tfind ({ linked with keys := [(15, key)] } : State).keys 15).isSome := by decide +kernel
/-- A weight set whose signature is in a page that is not mapped waits; one without a key in its slot is answered. -/
theorem witness_weight_set :
    let d : List Double := [0, 65536, 1, 15, 0, 0, 0, 0, 0, 8, 0]
    let s : State := { parsing id [] with contexts := [(0, ⟨0, 256, 65536, 0⟩)] }
    let u : State := { doc with contexts := [(0, ⟨0, 256, 65536, 0⟩)] }
    s.mailboxUp = true ∧ 11 ≤ d.length ∧ s.inUse (nth (doubles d) 0) = true ∧ nth (doubles d) 1 % 65536 = 0 ∧ 1 ≤ nth (doubles d) 2 ∧ nth (doubles d) 2 ≤ 16777216 ∧
    nth (doubles d) 3 < 16 ∧ (s.registerSet (doubles d)).2 = false ∧ (u.registerSet (doubles d)).2 = true := by decide +kernel
theorem witness_verified :
    let w : WeightSet := ⟨6, 0, 65536, [], []⟩
    let x : WeightSet := ⟨6, 0, 65536, [1], []⟩
    let s : State := { linked with wsets := [w] }
    let u : State := { linked with wsets := [x] }
    s.wsets.find? (fun w => w.id == 6) = some w ∧ (({ s with wsets := [] } : State).firstMismatch w).2 = none ∧ u.wsets.find? (fun w => w.id == 6) = some x ∧
    (({ u with wsets := [] } : State).firstMismatch x).2 = some 0 := by decide +kernel
theorem witness_retire : linked.unitPresent 0 255 = true ∧ linked.unitPresent 7 17 = true ∧ linked.unitPresent 7 18 = false ∧ (7 : Nat) < 16 ∧ (255 : Nat) < 65536 := by decide +kernel

/-! Retention, health and the outside. -/

/-- Group 0 of core 0 expired, its write-back queued, its region mapped to a page that its cluster has in its translations. -/
theorem witness_writeback :
    let s := ({ machine (fun c => { c with
        rgn := c.rgn.set 0 ⟨true, false, 0, 0x10000, 0, 2, 0, true, 0⟩,
        field := { c.field with groups := [(0, { Group.init with valid := true, pending := true, writeback := true })] } }) with cxlUp := true } : State).updCluster 0 (fun k => { k with tlb2 := [⟨0, 0, 65536, 0x1807, false⟩] })
    let g := (s.localOf 0 false).group 0
    (s.ownerRegion 0 false 0).any (fun p => p.2.2.mapped) = true ∧ g.valid = true ∧ g.pending = true ∧ g.writeback = true ∧
    (match s.flushGroup 0 g.owner 0 false false 0 with | (_, .ok) => true | _ => false) = true := by decide +kernel
theorem witness_kat :
    let s := machine (seqWith (fun q => { q with mode := .idle }))
    (63 : Nat) < 64 ∧ (s.core 0).seq.mode = .idle ∧ (s.core 0).seq.shadow = false ∧ (s.core 0).team = none ∧ bit s.pres.cores 0 = true := by decide +kernel
theorem witness_tiers : idle.tierOf (2 ^ 39 - 1) = some 0 ∧ idle.tierOf (2 ^ 41) = some 1 ∧ idle.tierHolds 0 0 128 = true ∧ bit idle.pres.clusters 31 = true ∧
    (255 : Nat) < 256 ∧ (143 : Nat) < 144 := by decide +kernel
/-- Address 4096 + 8 of a window of modules 0 and 1, whose segment has no round open; a module that is not in the group; no window. -/
theorem witness_contribution :
    let w : Window := ⟨2, 4096, 4096, 100, 0, [0, 1], []⟩
    let s : State := { idle with windows := [(2, w)] }
    idle.windowAt 4104 = none ∧ s.windowAt 4104 = some w ∧ w.group.findIdx? (fun x => x == 9) = none ∧ w.group.findIdx? (fun x => x == 1) = some 1 ∧
    (w.segment ((4104 - w.base) / 4096)).current = none ∧ 1 < w.group.length * (4096 / unitBytes 4) ∧ tfind s.windows w.handle = some w := by decide +kernel
theorem witness_round :
    let r : Round' := ⟨0, 50, false, false, []⟩
    let w : Window := ⟨2, 4096, 4096, 100, 0, [0, 1], [(0, ⟨0, some r⟩)]⟩
    let s : State := { idle with windows := [(2, w)], rtick := 150 }
    tfind s.windows 2 = some w ∧ (w.segment 0).current = some r ∧ r.opened + w.timeout ≤ s.rtick ∧ idle.rtick < r.opened + w.timeout := by decide +kernel
theorem witness_outside :
    let down : State := { linked with cxlSecure := false }
    linked.cxlUp = true ∧ linked.cxlSecure = true ∧ idle.cxlUp = false ∧ down.cxlSecure = false ∧ linked.tierOf 0 = some 0 ∧ linked.tierHolds 0 0 (max 128 2) = true ∧
    linked.power ≠ .inReset ∧ State.reset.power = .inReset ∧ idle.power = .up := by decide +kernel
theorem witness_ports :
    let s : State := { idle with ports := [(3, { Port.init with fails := 1, replays := List.replicate 16 0 })] }
    let now := fun (p : Nat) => (tget Port.init s.ports p).replays.filter (fun x => decide (s.rtick < x + 1000)) ++ [s.rtick]
    s.portUp 3 = true ∧ 16 < (now 3).length ∧ s.portUp 4 = true ∧ (now 4).length ≤ 16 ∧ bit s.pres.phiok 17 = true ∧
    (tget Port.init s.ports 3).down = false ∧ (tget Port.init s.ports 3).fails = 1 ∧ (tget Port.init s.ports 4).fails = 0 := by decide +kernel

/-! The data of global memory and of commands. -/

/-- `mapped` with its page in the translations of core 0 and of its cluster. -/
def cached : State :=
  let x : Xlat := ⟨0, 0, 65536, 0x1A07, false⟩
  (mapped.updCore 0 (fun c => { c with tlb := [x] })).updCluster 0 (fun k => { k with tlb2 := [x] })

theorem witness_interleaving : idle.tierHolds 0 0 1 = true ∧ idle.tierHolds 0 128 1 = true ∧ idle.tierHolds 1 (2 ^ 41) 1 = true ∧ idle.tierHolds 1 (2 ^ 41 + 127) 1 = true := by
  decide +kernel
theorem witness_blocks : (List.replicate 128 (0 : Byte)).length = 128 ∧ codeFits (List.replicate 128 0) 15 = true := by decide +kernel
/-- A readable block of `mapped`, a poisoned one, and a whole one. -/
theorem witness_global :
    let bad : State := { mapped with dev := { mapped.dev with bad := [mapped.blockOf 0 0] } }
    (mapped.gmem 0).ordered ∧ (bad.gmem 0).ordered ∧ 8 % 128 + [(1 : Byte), 2].length ≤ 128 ∧ (mapped.placeHome 0 8 false [1, 2]).2 = true ∧
    (mapped.writeHome 0 8 true [1, 2]).2 = true ∧ (mapped.writePlain 0 8 [1, 2]).2 = true ∧ mapped.unreadable 0 8 = false ∧ bad.unreadable 0 8 = true ∧
    (bad.writeHome 0 8 true [1, 2]).2 = false ∧ (bad.writeHome 0 0 true (List.replicate 128 7)).2 = true := by
  unfold GMem.ordered; decide +kernel
theorem witness_apart : mapped.apart 0 128 0 0 ∧ mapped.apart 2 0 0 0 ∧ (mapped.gmem 2).ordered := by unfold State.apart GMem.ordered; decide +kernel

/-- Two rows of 64 bytes, 128 apart, from a local row at 64. -/
def rows (op : Instr) : Command := { cmd 4 op (.accepted 0) with b := 64, desc := #v[0, 0x8000000000, 128, 0x1000040] }
theorem witness_pieces :
    let x := rows (.cget 0 3 2 3 2 0 0 0 0 0 0)
    x.scaled = false ∧ 1 ∈ x.rowNums ∧ x.rlen = 64 ∧ isTransfer x.op = true ∧ x.f.xf ∈ [0, 8, 9] ∧ (1 : Nat) ≤ 64 ∧ isFill x.op = false ∧
    isFill (rows (.cfill 0 3 2 3 2 0 0 0 1 0)).op = true ∧ (rows (.cget 0 3 2 3 2 3 0 0 0 0 0)).quantises = true ∧
    (rows (.cget 0 3 2 3 2 6 0 0 0 0 0)).dequantises = true := by decide +kernel
/-- Steps at a page of tier 0, plain and as the block is stored. -/
theorem witness_global_steps :
    let x := rows (.cget 0 3 2 3 2 0 0 0 0 0 0)
    let y := rows (.cput 0 3 2 3 2 0 0 0 0 0 0)
    let st := fun (a : CAct) => (⟨a, ⟨0, 0, 64⟩, true, true⟩ : CStep)
    let page := fun (x : Command) (w : Bool) => (cached.stepPage 0 x 0 w).2.toOption
    let after := fun (x : Command) (w : Bool) => (cached.stepPage 0 x 0 w).1
    (st (.readGlobal 0 64 false)).act = .readGlobal 0 64 false ∧ page x false = some ⟨0, 0, 0, false, 0⟩ ∧ page y true = some ⟨0, 0, 0, false, 0⟩ ∧
    (after x false).unreadable 0 0 = false ∧ (after y true).unreadable 0 0 = false ∧ ((after y true).gmem 0).ordered ∧ 0 % 128 + 64 ≤ 128 ∧
    0 + 64 ≤ (({ y with buf := List.replicate 64 5 } : Command).output (st (.writeGlobal 0 64 0 false)).piece 0).length := by
  unfold GMem.ordered; decide +kernel
theorem witness_raw : (mapped.gmem (⟨0, 0, 0, true, 0⟩ : Page).tier).ordered ∧ reservedCode 10 = true ∧ reservedCode 9 = false ∧ reservedCode 15 = false ∧ (15 : Nat) < 16 := by
  unfold GMem.ordered; decide +kernel
/-- A local read of a valid group, of one that is not valid, and of an uncorrectable word. -/
theorem witness_local_reads :
    let bad := machine (fun c => { c with field := { c.field with bad := [8] } })
    let expired := fun (s : State) (a len : Nat) => (firstGroup (s.core 0).field (s.commonsOf 0) (fun g => !g.valid) a len).isSome
    let worn := fun (s : State) (a len : Nat) => localBad (s.core 0).field (s.commonsOf 0) a len
    expired idle 64 64 = false ∧ worn idle 64 64 = false ∧ expired idle 4096 64 = true ∧ expired bad 64 64 = false ∧ worn bad 64 64 = true ∧
    (rows (.cput 0 3 2 3 2 0 0 0 0 0 0)).hidden = [] ∧ isFlush (rows (.cput 0 3 2 3 2 0 0 0 0 0 0)).op = false := by decide +kernel
/-- A row written to the own field, and one to a core that runs the context and to one that does not. -/
theorem witness_local_writes :
    let x := { rows (.cxfer 0 3 0 0 3 0 0 9 0) with buf := List.replicate 64 5 }
    locate 64 = some (false, 64) ∧ locate 0x2000040 = some (true, 64) ∧ memWf (idle.localOf 0 false).cells = true ∧ 0 + 64 ≤ (x.output ⟨0, 0, 64⟩ 0).length ∧
    isCxfer (rows (.cget 0 3 2 3 2 0 0 0 0 0 0)).op = false ∧ idle.targetOk 0 x.ctx 64 x.rlen = true ∧ isCxfer x.op = true ∧ idle.targetOk 1 x.ctx 64 x.rlen = false := by
  decide +kernel
/-- A mapped region of one group. -/
def region0 : Region := ⟨true, false, 0, 0x10000, 0, 2, 0, true, 0⟩
theorem witness_mapped :
    let x : Command := { cmd 4 (.ctouch 0 3 2 3 0 0 0) (.accepted 9) with b := 2048 }
    (machine (fun c => { c with rgn := c.rgn.set 0 region0, queue0 := [x] })).mappedRegion 0 x = some region0 ∧ x.b ≠ 0 ∧ isMap x.op = true ∧ idle.mappedRegion 0 x = none ∧
    isMap (rows (.cget 0 3 2 3 2 0 0 0 0 0 0)).op = false := by decide +kernel

/-- Atomics on one operand and on two, of one block and of two blocks, and on one that overlaps. -/
theorem witness_atomics :
    let x : Command := { cmd 4 (.aadd 0 0 1 1 0 0 0 1 0) (.accepted 0) with a := 8 }
    let y : Command := { cmd 4 (.adcas 0 0 1 1 0 0 0 1 0) (.accepted 0) with a := 8, b := 136 }
    let z : Command := { y with b := 8 }
    let near : Command := { y with b := 16 }
    let page := fun (x : Command) => (cached.accessBoth 0 x.ctx x.a.toNat).2.toOption
    let other := fun (x : Command) => ((cached.accessBoth 0 x.ctx x.a.toNat).1.accessBoth 0 x.ctx x.b.toNat).2.toOption
    isSingle x.op = true ∧ isPair y.op = true ∧ page x = some ⟨0, 8, 0, false, 8⟩ ∧ 8 % 128 + x.size ≤ 128 ∧ page y = some ⟨0, 8, 0, false, 8⟩ ∧
    other y = some ⟨0, 136, 0, false, 136⟩ ∧ other z = some ⟨0, 8, 0, false, 8⟩ ∧ overlap 8 8 z.size = true ∧ overlap 8 136 y.size = false ∧ overlap 8 16 near.size = false ∧
    mapped.apart 0 8 0 136 ∧ isAdcas y.op = true ∧ isAdcas (.amove 0 0 1 1 0 0 0 1 0) = false ∧
    ((cached.accessBoth 0 0 8).1.accessBoth 0 0 136).1.unreadable 0 136 = false ∧ (((cached.accessBoth 0 0 8).1.accessBoth 0 0 136).1.gmem 0).ordered := by
  unfold State.apart GMem.ordered; decide +kernel
/-- A contribution to a window of this module, to one whose group it is not in, and to tier 2. -/
theorem witness_ared :
    let x : Command := { cmd 4 (.ared 0 0 1 1 0 0 0) (.accepted 0) with a := 8 }
    let w : Window := ⟨2, 0, 4096, 100, 0, [0, 1], []⟩
    let s : State := { cached with windows := [(2, w)] }
    let far := (parsing id []).updCore 0 (fun c => { c with tlb := [⟨0, 0, 65536, 0x1827, false⟩] })
    let o : State := { cached with windows := [(2, { w with group := [1, 2] })] }
    (s.access 0 x.ctx x.a.toNat true).2.toOption = some ⟨0, 8, 0, false, 8⟩ ∧ s.moduleNum.toNat = 0 ∧ s.windowAt 8 = some w ∧ 0 ∈ w.group ∧
    (o.windowAt 8).all (fun w => !w.group.contains 0) = true ∧ (s.access 0 x.ctx x.a.toNat true).1.windowAt 8 = some w ∧
    ((far.access 0 x.ctx x.a.toNat true).1.access 0 x.ctx x.a.toNat true).2.toOption.map Page.tier = some 2 := by
  decide +kernel
/-- A WAITA that arms, that meets another value, and that finds the monitors full or its member stopped; a WAKE of one waiter and of all. -/
theorem witness_waits :
    let x : Command := { cmd 4 (.waita 0 0 1 1 0 0 0 1 0) (.accepted 0) with a := 8 }
    let y : Command := { x with b := 7 }
    let full := cached.updCluster 0 (fun k => { k with csr := { k.csr with moncap := 0 } })
    let v := fun (s : State) => natOfBytes ((s.access 0 0 8 false).1.peek 0 8 x.size)
    (cached.access 0 x.ctx x.a.toNat false).2.toOption = some ⟨0, 8, 0, false, 8⟩ ∧ x.slot = [] ∧ (cached.access 0 0 8 false).1.unreadable 0 8 = false ∧
    v cached = x.operand ∧ v cached ≠ y.operand ∧ cached.stopped 0 = false ∧ (cached.access 0 0 8 false).1.armed 0 < 64 ∧
    ((cached.access 0 0 8 false).1.cluster 0).csr.moncap.toNat = 64 ∧ ((full.access 0 0 8 false).1.cluster 0).csr.moncap.toNat ≤ (full.access 0 0 8 false).1.armed 0 ∧
    (machine (fun c => seqWith (fun q => { q with stop := some .preempt }) c)).stopped 0 = true ∧ ({ x with slot := [1, 5] } : Command).slot = [1, 5] ∧
    ({ x with slot := [0, 0] } : Command).slot = [0, 0] ∧ x.b = 0 ∧ y.b ≠ 0 := by decide +kernel

/-- A team whose member of rank 0 sends pipe 1 to itself, with room for one record; its endpoint full, closed and empty. -/
def piped (f : Endpoint → Endpoint) : State :=
  let pipes : List PipeRec := [⟨1, false, 0, 64, 1, 1⟩, ⟨1, true, 0, 64, 1, 1⟩]
  let s := teamAs .running false (fun c => { c with image := some { loadedImage [] with pipes := pipes } })
  let s : State := { s with teams := tmap (fun _ (t : Team) => { t with image := { t.image with pipes := pipes } }) s.teams }
  s.updCluster 0 (fun k => { k with endpoints := [f ⟨3, 0, 1, 64, 1, [], false, []⟩] })
theorem witness_pipes :
    let x : Command := cmd 4 (.psend 0 3 1 4 1 1 2 0) (.accepted 0)
    let far : Command := { x with b := 5 }
    let full := piped (fun e => { e with records := [(0, [1])] })
    let shut := piped (fun e => { e with closed := true })
    x.f.d.val = 1 ∧ (piped id).receiver 0 1 x.b.toNat = some 0 ∧ (piped id).receiver 0 1 far.b.toNat = none ∧
    (((piped id).endpoint 0 1).map (fun e => decide (e.records.length < e.depth))) = some true ∧ ((full.endpoint 0 1).map (fun e => decide (e.records.length < e.depth))) = some false ∧
    ((shut.endpoint 0 1).map Endpoint.closed) = some true ∧ teamed.endpoint 0 1 = none ∧ 1 ∉ ((piped id).core 0).closed ∧
    ((piped id).updCluster 0 (fun k => { k with endpoints := [] })).receiver 0 1 x.b.toNat = some 0 ∧
    (piped id).pipeClosed 0 1 = false ∧ shut.pipeClosed 0 1 = false ∧ ((full.endpoint 0 1).map Endpoint.records) = some [(0, [1])] ∧
    (((piped id).core 0).pipe 1 false).isSome = true ∧ ({ x with done := 1 } : Command).done ≠ 0 ∧
    (((piped id).updCore 0 (fun c => { c with image := some { loadedImage [] with pipes := [⟨1, true, 0, 64, 1, 1⟩] } })).core 0).pipe 1 false = none ∧
    ((piped id).updCore 0 (fun c => { c with image := some { loadedImage [] with pipes := [⟨1, true, 0, 64, 1, 1⟩] } })).endpoint 0 1 = some ⟨3, 0, 1, 64, 1, [], false, []⟩ ∧
    ((piped id).updCore 0 (fun c => { c with closed := [1] })).pipeClosed 0 1 = true := by decide +kernel
theorem witness_cmap :
    let x : Command := cmd 5 (.cmap 0 3 1 4 1 0) (.accepted 0)
    (idle.core 0).rgn[x.region].valid = true ∧ x.a = 0 ∧ ({ x with a := 65536 } : Command).a ≠ 0 := by decide +kernel

/-- A query context on handle 2 with one list, a candidate and a scored ID. -/
def query0 : Query :=
  { core := 0, handle := 2, ranked := false, alpha := 0x3F800000, beta := 0, k := 10, capacity := 1024, terms := [(0, ⟨0x8000, 0x3F800000, 1, 1⟩)],
    lex := some [(7, 0x3F800000)], vec := [], list := [] }
def indexed (q : Query) (l : List Host.Cell) : State :=
  let s := cached.setQuery 0 3 q
  { s with dev := { s.dev with cells := l.foldl (fun m c => writeNat m (128 * s.blockOf 0 c.1 + c.1 % 128) 1 c.2.toNat) s.dev.cells } }
theorem witness_index_open :
    let x : Command := { cmd 5 (.ixopen 0 1 0 10 12) (.accepted 9) with b := 10 + 65536 }
    mapped.ixStatus 0 x = none ∧ (mapped.cluster (clusterOf 0)).freeQuery = some 0 := by decide +kernel
/-- A list whose header is malformed, and one of one block of one posting at 0x8000. -/
theorem witness_index_list :
    let h : List Host.Cell := [(0x8000, 0x4B), (0x8001, 0x42), (0x8002, 0x50), (0x8003, 0x01), (0x8004, 1), (0x8008, 1), (0x8010, 7), (0x8014, 2)]
    let x : Command := { cmd 5 (.ixlist 0 2 2 3 2 5 6 0) (.accepted 9) with a := 0x8000 }
    let read := fun (s : State) (a n : Nat) => (s.ixRead (clusterOf 0) x.ctx a n).2.toOption
    (read (indexed query0 []) 0x8000 16).map headerOk = some false ∧ (read (indexed query0 h) 0x8000 16).map headerOk = some true ∧
    rangeOk x.a.toNat (16 + 8 * 1) = true ∧ (read (indexed query0 h) 0x8010 8).map (fun t => skipOk (skipEntries 1 t)) = some true ∧
    skipOk (skipEntries 2 (List.replicate 16 0)) = false := by decide +kernel
theorem witness_index_sets :
    let x : Command := { cmd 5 (.ixdrain 0 1 0 0 2 0 0) (.accepted 9) with b := 1, buf := List.replicate 16 0 }
    query0.lexical ≠ [] ∧ ({ query0 with lex := none } : Query).lexical = [] ∧ (cached.setQuery 0 3 query0).query 0 2 = some (3, query0) ∧ x.done = 0 ∧
    ({ x with done := 1 } : Command).done ≠ 0 ∧ ((cached.setQuery 0 3 { query0 with ranked := true }).ixStatus 0 x).isNone = true := by decide +kernel

/-! More events of a core, of the calendar and of teams. -/

/-- A member that has executed EXIT, drained and not; its bookings; and cores that do not drain yet. -/
theorem witness_member_drain :
    let exits := fun (f : Core → Core) => teamAs .running false (fun c => f (seqWith (fun q => { q with stop := some .exit }) c))
    let s := (exits id).updCluster 0 (fun k => { k with bookings := [bookingOf .anchored 0 6 4 9] })
    let w := exits (fun c => { c with unserved := [⟨true, 3, 0, 0, 0, .store []⟩] })
    let late := fun (r : Stop) => machine (fun c => { seqWith (fun q => { q with stop := some r }) c with unserved := [⟨true, 3, 0, 0, 0, .store []⟩] })
    (s.core 0).seq.stop = some .exit ∧ (s.teamOf 0).isSome = true ∧ (s.core 0).busy = true ∧ (s.releaseMember 0 3 s.tick).drained 0 = true ∧
    (s.releaseMember 0 3 s.tick).leftOver 0 = false ∧ (s.teamOf 0).any (fun t => t.2.members.any (fun m => m.core == 0 && !m.exited)) = true ∧
    (w.releaseMember 0 3 w.tick).drained 0 = false ∧ (w.teamOf 0).isSome = true ∧ ((late .preempt).core 0).seq.stop = some .preempt ∧ (late .preempt).drained 0 = false ∧
    (late .rollback).drained 0 = false ∧ ((late .rollback).core 0).turn = none ∧ ((late (.sibling 3)).core 0).seq.stop = some (.sibling 3) := by decide +kernel
/-- A pre-emption with a request to the CC still out, and one of a core whose rollback waits for its refill, satisfied or not. -/
theorem witness_preempt_drain :
    let p := machine (seqWith (fun q => { q with stop := some .preempt }))
    let q := p.updCluster 0 (fun k => { k with reqQ := [⟨0, 0, 0, 0, none, []⟩] })
    let r := p.updCore 0 (fun c => { c with rollback := some (0, false) })
    let u := r.updCore 0 (fun c => { c with bars := c.bars.set 0 { Barrier.init with exp := 1 } })
    (q.core 0).seq.stop = some .preempt ∧ q.drained 0 = true ∧ (q.cluster (clusterOf 0)).reqQ.any (fun r => r.core == 0) = true ∧ r.drained 0 = true ∧
    (r.core 0).rollback = some (0, false) ∧ (r.cluster (clusterOf 0)).reqQ.any (fun r => r.core == 0) = false ∧ ((r.core 0).bars[(0 : Fin 16)]).pend = 0 ∧
    ((r.core 0).bars[(0 : Fin 16)]).exp ≤ ((r.core 0).bars[(0 : Fin 16)]).cnt ∧ ¬(((u.core 0).bars[(0 : Fin 16)]).exp ≤ ((u.core 0).bars[(0 : Fin 16)]).cnt) := by
  decide +kernel
theorem witness_cancel_drain :
    let s := fun (r : Stop) => teamAs .running false (seqWith (fun q => { q with stop := some r }))
    ((s .cancel).core 0).seq.stop = some .cancel ∧ (s .cancel).drained 0 = true ∧ ((s .contextEnd).core 0).seq.stop = some .contextEnd ∧ (s .contextEnd).drained 0 = true ∧
    ((s .contextEnd).teamOf 0).isSome = true ∧ (s (.sibling 2)).drained 0 = true ∧ ((s (.sibling 2)).teamOf 0).isSome = true := by decide +kernel
/-- A bundle at 0, and padding from 5 to the end of its line. -/
theorem witness_next_pc :
    let c := seqWith (fun q => { q with code := List.replicate 5 1 ++ List.replicate 59 0 ++ [1], codeLen := 65, pc := 5 }) base
    c.seq.pc < c.seq.codeLen ∧ c.seq.code.getD c.seq.pc 0 = 0 ∧ c.seq.code.getD ((c.seq.pc / 64 + 1) * 64) 0 ≠ 0 ∧
    (seqWith (fun q => { q with pc := 0 }) c).seq.code.getD 0 0 ≠ 0 ∧ (seqWith (fun q => { q with pc := 65 }) c).seq.codeLen ≤ 65 := by decide +kernel
/-- A turn that fails while its member is stopped by a pre-emption, and the drain of that rollback. -/
theorem witness_rollback_yields :
    let k : Turn := { pc := 0, s := base.x.s, p := base.x.p, loops := [], lc := base.x.lc, ps := base.x.ps, latch := base.seq.latch, inc := none, vctl := 0, vseed := 1,
                      lfsr := base.vec.lfsr, desc := base.desc, exps := [], refill := base.desc[0], base := 0, len := 0, bar := 0, engine := 0, rolled := 0 }
    let s := teamAs .stopping false (fun c => { seqWith (fun q => { q with stop := some .preempt }) c with turn := some k })
    let d := teamAs .stopping false (fun c => { seqWith (fun q => { q with stop := some .rollback }) c with turn := some k })
    (s.core 0).busy = true ∧ (s.core 0).turn.isSome = true ∧ (s.core 0).seq.stop = some .preempt ∧ (s.core 0).rollback = none ∧ (d.core 0).seq.stop = some .rollback ∧
    (d.core 0).turn = some k ∧ d.drained 0 = true ∧ (d.cluster (clusterOf 0)).reqQ.any (fun r => r.core == 0) = false ∧
    (d.teamOf 0).any (fun p => decide (p.2.state = .stopping)) = true := by decide +kernel

/-- The first overrun of a member that a rollback has stopped. -/
theorem witness_overrun_rollback :
    let s := ({ teamAs .running false (seqWith (fun q => { q with stop := some .rollback })) with tick := 10 } : State).updCluster 0
      (fun k => { k with bookings := [bookingOf .anchored 0 6 4 9] })
    s.present 0 = some (bookingOf .anchored 0 6 4 9) ∧ (s.core 0).seq.stop = some .rollback ∧ s.yields 0 = false ∧ (s.core 0).seq.ext = 0 ∧ (s.core 0).seq.overruns = 0 ∧
    teamed.yields 0 = false := by decide +kernel
/-- The steps of a cluster, bookings that stand and that end, and what is behind the last step of another cluster. -/
theorem witness_calendar_steps :
    let at' := fun (j : Nat) => idle.updCluster 0 (fun k => { k with calStep := j })
    let s := ({ teamed with tick := 8 } : State).updCluster 0 (fun k => { k with bookings := [bookingOf .anchored 0 6 4 9, bookingOf .floating 1 12 4 5] })
    ((at' 1).cluster 0).calStep = 1 ∧ ((at' 2).cluster 0).calStep = 2 ∧ ((at' 4).cluster 0).calStep = 4 ∧ 5 ≤ ((at' 5).cluster 0).calStep ∧
    bookingOf .anchored 0 6 4 9 ∈ (s.cluster 0).bookings ∧ s.furrowOver (bookingOf .anchored 0 6 4 9) = false ∧ s.stale (bookingOf .anchored 0 6 4 9) = false ∧
    bookingOf .floating 1 12 4 5 ∈ ((s.calendarFirst 0).cluster 0).bookings ∧ (bookingOf .floating 1 12 4 5).core ∈ s.coresOf 0 ∧
    (bookingOf .floating 1 12 4 5).grace < s.tick ∧ 0 ∈ s.coresOf 0 ∧ (s.core 0).seq.mode = .running ∧
    bookingOf .unbooked 2 12 4 5 ∈ (s.updCluster 0 (fun k => { k with bookings := [bookingOf .anchored 0 6 4 9, bookingOf .unbooked 2 12 4 5] })).heldUnbooked 0 := by
  decide +kernel
theorem witness_anchor : (idle.core 0).seq.anchor = none ∧ (idle.anchorNext 0 4).tick = 0 := by decide +kernel
/-- Requests that wait for a link, within its 2^20 ticks and after them, and one whose block is in the field. -/
theorem witness_requests_wait :
    let r : Request := ⟨0, 1, 0, 0, none, []⟩
    let s := machine (fun c => { c with bars := c.bars.set 0 { Barrier.init with pend := 1 } })
    memWf (s.core r.core).field.cells = true ∧ r.blk % 64 = 0 ∧ r.blk < 0x800000 ∧ (∀ p ∈ [(1, 7)], 0 < p.1 ∧ p.1 < 8) ∧ 1 ≤ ((s.core r.core).bars[r.bar]).pend ∧
    ((s.core r.core).bars[r.bar]).pend < 2 ^ 64 ∧ (idle.updCluster 0 (fun k => { k with reqQ := [r] })).cluster 0 = { idle.cluster 0 with reqQ := r :: [] } := by
  decide +kernel

/-! More of commands, of the front end and of the links. -/

/-- Acceptances: behind a CMAP, refused by a check, now, and later. -/
theorem witness_acceptance :
    let x := cmd 5 (.cget 0 3 2 3 2 0 0 0 0 0 0) .queued
    let g : Command := { x with desc := #v[0, 0, 0, 64] }
    let l : Command := { g with op := .cget 0 3 2 3 2 8 0 0 0 0 0 }
    let m := cmd 4 (.cmap 0 3 1 4 1 0) (.accepted 9)
    let behind := (queued [m, x]).updCore 0 Core.dropJoins
    (behind.core 0).nextQueued 0 = some x ∧ (behind.core 0).behindCmap x = true ∧ (idle.acceptCheck 0 x).isSome = true ∧ idle.acceptCheck 0 g = none ∧
    g.unlisted = false ∧ l.unlisted = true ∧ idle.acceptCheck 0 l = none := by decide +kernel
/-- A CTOUCH of no bytes, a CXFER with its signal left, and a step that succeeds. -/
theorem witness_completions :
    let t : Command := cmd 4 (.ctouch 0 3 2 3 0 0 0) (.accepted 9)
    let x : Command := { cmd 4 (.cxfer 0 3 0 0 3 0 0 9 0) (.accepted 0) with c := 18, a := 0x08800000, desc := #v[0, 0, 0, 64] }
    let g : Command := { cmd 4 (.cget 0 3 2 3 2 0 0 0 0 0 0) (.accepted 0) with desc := #v[0, 0, 0, 64] }
    let y : Command := { cmd 4 (.cget 0 3 2 3 2 0 0 0 0 0 0) (.accepted 0) with tried := some 2 }
    t.b = 0 ∧ isMap t.op = true ∧ isMap x.op = false ∧ x.signal.isSome = true ∧ g.signal = none ∧ g.tried = none ∧ y.tried = some 2 ∧ isFlush g.op = false ∧
    (cached.stepsLeft 0 g).head?.map (fun st => ((cached.runStep 0 g st).2.1, st.act.isList)) = some (.ok, false) := by decide +kernel
/-- A page that is mapped, one whose entry has V = 0, and one that lies in its tier already; whether a frame is found is a free value. -/
theorem witness_begin_page :
    let m : Migration := ⟨4, 0, [0], 1, none, 100, 0, none, none, none⟩
    let off : State := { mapped with dev := { mapped.dev with cells := writeNat mapped.dev.cells (128 * mapped.blockOf 0 0x40000) 1 0x06 } }
    mapped.entryAt m.ctx 0 = some (0x40000, 0x1A07) ∧ bit 0x1A07 0 = true ∧ leafTier 0x1A07 ≠ m.tier ∧ off.entryAt m.ctx 0 = some (0x40000, 0x1A06) ∧ bit 0x1A06 0 = false ∧
    leafTier 0x1A07 = ({ m with tier := 0 } : Migration).tier ∧ m.channel = none := by decide +kernel
theorem witness_frame :
    let m : Migration := ⟨4, 0, [0], 1, none, 100, 0, none, none, none⟩
    ∃ u, mapped.takeFrame m 0x1A07 = (u, none) ∨ ∃ oa, mapped.takeFrame m 0x1A07 = (u, some oa) := by
  intro m
  refine ⟨(mapped.takeFrame m 0x1A07).1, ?_⟩
  cases h : (mapped.takeFrame m 0x1A07).2 with
  | none => exact Or.inl (Prod.ext rfl h)
  | some oa => exact Or.inr ⟨oa, Prod.ext rfl h⟩
/-- Migrations of a CMIGR whose last byte was late, and was in time; one of the mailbox; a page whose entry stands. -/
theorem witness_migration_ends :
    let m : Migration := ⟨4, 0, [], 0, some (3, 4), 100, 1, none, some 101, none⟩
    let k : Migration := { m with lastByte := some 100 }
    let b : Migration := { m with owner := none }
    m.owner = some (3, 4) ∧ m.lastByte = some 101 ∧ m.deadline < 101 ∧ m.pages = [] ∧ ¬(k.deadline < 100) ∧ b.owner = none ∧ b.channel = none ∧
    ({ mapped with cxlUp := true } : State).cxlUp = true ∧ (mapped.entryAt b.ctx 0).isSome = true := by decide +kernel
theorem witness_resolved :
    let f : Faulting := ⟨0, 1, 0, 65536⟩
    mapped.arrived 0 8 = true ∧ mapped.arrived 0 65536 = false ∧ ({ mapped with faults := [f] } : State).arrived 0 8 = true := by decide +kernel
/-- A command that waits for a page, one that waits for another, and a queue parked on a page of its image for 2^24 ticks. -/
theorem witness_given_up :
    let x := cmd 4 (.cget 0 3 2 3 2 0 0 0 0 0 0) (.fault 65540)
    let s := queued [x]
    let q : Queue := { Queue.init 5 with park := some (.page 0 65536), onImage := true }
    (s.core 0).queue0 = [x] ∧ (s.core 0).queue1 = [] ∧ x.state = .fault 65540 ∧ x.ctx = 0 ∧ 65540 / 65536 = 1 ∧ isCpfx x.op = false ∧ (65536 : Nat) ≤ 65540 ∧
    (65540 : Nat) < 65536 + 65536 ∧ q.park = some (.page 0 65536) ∧ q.parkSince + 2 ^ 24 ≤ ({ idle with tick := 2 ^ 24 } : State).tick ∧ q.onImage = true ∧
    ({ q with onImage := false } : Queue).onImage = false := by decide +kernel

/-- Packets: a FENCE with none of its words missing, a LAUNCH of 9 words, one with some of its words there, and words at the end of a level. -/
theorem witness_packet_counts :
    let s := parsing id [(0x1001, 9), (0x1003, 1)]
    let part := parsing (fun x => { x with wp := 3 }) [(0x1001, 8), (0x1003, 1)]
    let five := parsing (fun x => { x with wp := 5 }) [(0x1001, 10), (0x1003, 1)]
    let level := parsing (fun x => { x with levels := [⟨0x1000, 1, 0, false⟩] }) [(0x1001, 8), (0x1003, 1)]
    let word := fun (s : State) => (s.readWords 5 0 1).2.toOption
    (s.queue 5).ready = true ∧ word s = some [0x1000900] ∧ word part = some [0x1000800] ∧ (part.queue 5).levels = [] ∧ (part.queue 5).avail < 5 ∧
    5 ≤ (five.queue 5).avail ∧ (five.queue 5).avail < 1 + 10 ∧ word five = some [0x1000A00] ∧ launchWords 0 = 8 ∧ (five.readWords 5 4 1).2.toOption = some [0] ∧ launchWords 0 ≠ 10 ∧ (level.queue 5).levels ≠ [] ∧
    (level.queue 5).ready = true ∧ (level.queue 5).avail < 1 + 8 ∧ word level = some [0x1000800] := by decide +kernel
/-- Effects that leave the queue as it is. -/
theorem witness_packet_outcomes :
    let s := parsing id []
    let far : State := { s with cxlUp := false }
    (match (s.takeWait 5 [65536, 0, 0, 0, 0]).2 with | .park (.page 0 65536) _ _ _ => true | _ => false) = true ∧
    (match (far.takeWait 5 [0, 0, 0, 0, 0]).2 with | .park .link _ _ _ => true | _ => false) = true := by decide +kernel
/-- Conditions of a WAIT and of a COUNTER that hold, and that do not; a counter copied. -/
theorem witness_waits_met :
    let s := parsing id []
    let read := fun (n : Nat) => (s.packetRead (s.queue 5).ctx 0 n).2.toOption
    (read 8).map (fun r => natOfBytes r.1) = some 0 ∧ (read 32).map (fun r => (num r.1 8 1, num r.1 0 4)) = some (0, 0) ∧ dw [0, 0, 1, 7, 0] 0 % 32 = 0 ∧
    nth [0, 0, 1, 7, 0] 2 < 6 ∧ nth [0, 0, 2, 64, 0] 2 = 2 ∧ dw [0, 0, 2, 64, 0] 3 = 64 ∧
    (match s.packetRead (s.queue 5).ctx 0 32 with | (u, .ok (bs, _)) => (u.frontWriteAll (s.queue 5).ctx 64 bs).2.isNone | _ => false) = true := by decide +kernel
theorem witness_timestamp : dw [16, 0, 1] 0 % 16 = 0 ∧ nth [16, 0, 1] 2 = 1 ∧ nth [16, 0, 0] 2 = 0 := by decide
/-- A BOOK of an image that is none; one of an image that fits a core of cluster 0, of one that finds no core, and of a team of 9. -/
theorem witness_book :
    let s := parsing id []
    let i : Image := { loadedImage [] with usem := 0, furrows := [furrow1] }
    let v : State := { s with clusters := tset s.clusters 0 (idle.cluster 0) }
    let book := fun (mask : Nat) => v.bookImage none (some 5) (v.queue 5).ctx 0 i (coresOfMask mask) 0 8191
    (match s.readImages (s.queue 5).ctx (s.queue 5).given 0 [0] with | (_, .ok f) => f.refusal.isSome | _ => false) = true ∧ v.admission [0] [(0, i)] = none ∧ i.teamSize ≤ 8 ∧
    (book 1).isSome = true ∧ (book 0).isNone = true ∧ 8 < ({ i with teamSize := 9 } : Image).teamSize := by decide +kernel
/-- A LAUNCH that finds the table full, one whose image is not resident, one whose counter block is not, and payloads that break their layout. -/
theorem witness_launch :
    let s := parsing id []
    let full : State := { s with units := (List.range 1024).flatMap (fun k => tmap (fun _ u => u) (teamed.units.map (fun p => (k, p.2)))) }
    s.tableFull = false ∧ full.tableFull = true ∧ (match s.readImages 0 [] 0 [65536] with | (_, .error (.page _)) => true | _ => false) = true ∧
    (match s.readImages 0 [] 0 [0] with
      | (u, .ok _) => (match u.frontPage 0 65536 false true with | (_, .error (.page _)) => true | _ => false)
      | _ => false) = true ∧ [(0 : Nat)].length < 8 ∧ (match parseLaunch [0] with | .error d => d == 2 | _ => false) = true := by decide +kernel
/-- QD1 with LOG2SIZE 12, and with 25; QD0 of an enabled queue. -/
theorem witness_descriptor : 10 ≤ (12 : Double).toNat % 32 ∧ (12 : Double).toNat % 32 ≤ 24 ∧ (12 : Double).getLsbD 24 = false ∧ 24 < (25 : Double).toNat % 32 ∧
    (0 : Fin 4) ≠ 1 ∧ ((parsing id []).queue 5).en = true := by decide
/-- Kick words that can be read, and that are not resident; the ends of parking. -/
theorem witness_kick :
    let s := parsing id []
    let far := parsing (fun x => { x with kick := 65536 }) []
    (match s.frontPage (s.queue 5).ctx (s.queue 5).kick true false with | (u, .ok p) => (u.readHome p.tier p.pa 8).2.isSome | _ => false) = true ∧
    (match far.frontPage (far.queue 5).ctx (far.queue 5).kick true false with | (_, .error (.page _)) => true | _ => false) = true ∧
    (match far.frontWrite (far.queue 5).ctx (far.queue 5).kick (bytesOfNat 8 7) with | (_, some (.page _)) => true | _ => false) = true ∧
    (Queue.init 5).park = none ∧ ({ Queue.init 5 with park := some .table } : Queue).park = some .table := by decide +kernel
/-- A message that holds a reserved permit leaves while a general one waits, and one with a general permit. -/
theorem witness_permits :
    let l : Link := ⟨[(.cancel, 1)], [(.release, 2)], 12, 1, [0], [true]⟩
    let g : Link := ⟨[(.place, 1)], [(.release, 2)], 12, 0, [0], [false]⟩
    l.inbox = [(.cancel, 1)] ∧ l.held = (.release, 2) :: [] ∧ (∀ x ∈ l.held, x.1.urgent = false) ∧ l.taken.headD false = true ∧ 12 ≤ l.general ∧
    (∀ x ∈ g.held, x.1.urgent = MsgKind.urgent (.release)) ∧ g.taken.headD false = false ∧ 1 ≤ g.general ∧ g.general ≤ 12 ∧
    ({ l with held := [] } : Link).held = [] := by decide +kernel
theorem firstFit_none {s : State} {l : List Want} {f : State → Nat → Option State} (h : ∀ t, s.anchorAt l none t = none) : ∀ n t, s.firstFit l f n t = none
  | 0, _ => rfl
  | n + 1, t => by simp [State.firstFit, h, firstFit_none h n]
/-- A held team whose furrow has no tick to stand on. -/
theorem witness_no_room :
    let h := teamAs .held false (seqWith (fun q => { q with mode := .staged }))
    let u : State := { h with teams := tmap (fun _ (t : Team) => { t with image := { t.image with furrows := [{ furrow1 with dur := 0 }] } }) h.teams }
    (u.teamsOf 5).all (fun p => p.2.members.all (u.coreWaits p)) = true ∧ (u.groupWants (u.teamsOf 5)).map Prod.fst = [⟨0, 3, 0, { furrow1 with dur := 0 }, 0, 0, false⟩] ∧
    u.bookTeam (u.groupWants (u.teamsOf 5)) (u.tick + 1) 8191 = none := by
  intro h u
  have g : (u.groupWants (u.teamsOf 5)).map Prod.fst = [⟨0, 3, 0, { furrow1 with dur := 0 }, 0, 0, false⟩] := by decide +kernel
  refine ⟨by decide +kernel, g, ?_⟩
  rw [State.bookTeam, g]
  exact firstFit_none (fun t => by simp [State.anchorAt, State.lay, State.layFrom, Want.work]) _ _
/-- A BOOK that waits for the link. -/
theorem witness_link_request :
    let s : State := { (parsing id []).updCluster 0 (fun k => { k with reqQ := [⟨0, 0, 0, 0, none, []⟩] }) with cxlUp := false }
    (match s.serve ⟨0, 0, 0, 0, none, []⟩ with
      | (v, .link) => decide (v.tick < v.cxlSince + 2 ^ 20) && (v.cluster 0).reqQ.contains ⟨0, 0, 0, 0, none, []⟩
      | _ => false) = true := by decide +kernel

/-! Power, ports, the mailbox, health and the outside. -/

/-- Modules that are powered and that are not, and what reaches them. -/
theorem witness_powered :
    let off := fun (p : Power) (l : List Instr) => ({ idle with power := p, inputs := l } : State)
    idle.Powered ∧ ¬(off .stopped []).Powered ∧ ¬(off .tripped [.moduleReset]).Powered ∧ ¬(off .bootFailed [.thermalTrip 3]).Powered ∧
    (off .tripped [.moduleReset]).inputs = .moduleReset :: [] ∧ (off .bootFailed [.thermalTrip 3]).inputs = .thermalTrip 3 :: [] ∧
    (off .stopped [.powerGood 1 1 1 1 true]).inputs = .powerGood 1 1 1 1 true :: [] ∧ (∀ k, Instr.heartbeat ≠ .thermalTrip k) := by
  refine ⟨by unfold State.Powered; decide +kernel, by unfold State.Powered; decide +kernel, by unfold State.Powered; decide +kernel,
    by unfold State.Powered; decide +kernel, rfl, rfl, rfl, by intros; simp⟩
theorem test_reset_registers :
    let r := fun k => State.reset.csr 255 (State.reset.core 255) k
    r 0x000 = some 255 ∧ r 0x003 = some 1 ∧ r 0x022 = some 1 ∧ r 0x20F = some 0x20000000000 ∧ r 0x21F = some 0 ∧ r 0x11F = some 0 ∧ r 0x408 = some 64 ∧ r 0x40D = some 0 ∧
    r 0x820 = some 4096 ∧ r 0x821 = some 65536 := by decide +kernel
/-- One load waits, and stores that meet no other access, or only a load of the bundle. -/
theorem witness_waiting_ports :
    let p : PortWait := ⟨true, 3, 0, 0, 0, .load 0 [(0x2000000, 8)]⟩
    let q : PortWait := ⟨true, 3, 0, 0, 1, .store [(0x2000000, [1], 0)]⟩
    let one := machine (fun c => { c with unserved := [p] })
    let two := machine (fun c => { c with unserved := [p, q] })
    (one.core 0).Awaits [p] ∧ (one.core 0).LoadsOf 0 [p] ∧ one.RowsFree 0 [p] [0x2000000] ∧ two.RowsFree 0 [q] [0x2000000] := by
  intro p q one two
  have h1 : (one.core 0).unserved = [p] := by decide +kernel
  have h2 : (two.core 0).unserved = [p, q] := by decide +kernel
  have s1 : p.same p = true := by decide
  refine ⟨⟨?_, ?_⟩, ?_, Or.inl ?_, Or.inr ⟨⟨rfl, rfl, rfl, rfl⟩, ?_⟩⟩
  · rw [h1]; simp
  · rw [h1]; simp
  · intro x hx ps _; rw [h1] at hx; exact ⟨p, by simp, by rw [List.mem_singleton.1 hx]; exact s1⟩
  · rintro x ⟨hx, hn, -⟩
    rw [h1] at hx
    have := hn p (by simp)
    rw [List.mem_singleton.1 hx, s1] at this
    exact absurd this (by simp)
  · rintro x ⟨hx, hn, -⟩
    rw [h2] at hx
    have := hn q (by simp)
    rcases List.mem_cons.1 hx with rfl | h
    · exact ⟨0, [(0x2000000, 8)], rfl⟩
    · rw [List.mem_singleton.1 h] at this
      exact absurd this (by decide)
theorem witness_reserved_mode : (4 : Fin 8).val = 4 ∧ (Instr.csrw 5 6 0x020 1).fieldFault = none := by decide

/-- A range that is none, pages that may not move, and a page that may. -/
theorem witness_migrate :
    rangeOk (2 ^ 56 - 8) 65536 = false ∧ rangeOk 0 65536 = true ∧ (mapped.rangePages 0 0 65536).all (mapped.mayMigrate 0) = true ∧
    (mapped.rangePages 0 65536 65536).all (mapped.mayMigrate 0) = false := by decide +kernel
theorem witness_checkpoint_late : ({ doc with ckpt := some (4096, [3], false), late := [] } : State).late = [] ∧ (0 : Nat) < 2 ∧
    tfind ({ doc with nodes := [(4096, snap)] } : State).nodes 4096 = some snap ∧ ([(0, 33), (1, 33)] : List (Nat × Nat)).map Prod.fst = [0, 1] := by
  exact ⟨rfl, by decide, rfl, rfl⟩

/-- A memory with one request for refresh, of rows in banks of their own and of two rows in one bank. -/
theorem witness_refresh :
    let s := machine (fun c => { c with field := { c.field with groups := [(0, { Group.init with valid := true, pending := true })] } })
    let left := fun (s : State) => (s.rowsOf 0 false 0).filter (fun r => !((s.localOf 0 false).group 0).served.contains (rowKey r))
    (idle.localOf 0 false).bad = [] ∧ (idle.localOf 0 false).weak = [] ∧ (idle.cluster (clusterOf 0)).redo.all (fun p => p.1 != 0 % 8) = true ∧
    let two := (idle.updCore 0 (fun c => { c with rgn := c.rgn.set 1 ⟨true, true, 0x2000000, 0x10000, 0, 0, 3, false, 0⟩ })).updCluster 0
      (fun k => { k with commons := { k.commons with groups := [(0, { Group.init with valid := true, pending := true })] } })
    idle.requestsIn 0 false = [] ∧ s.requestsIn 0 false = [0] ∧ ((left s).map Prod.fst).Nodup ∧ 0 ∈ idle.coresOf 0 ∧ two.requestsIn 0 true = [0] ∧
    ¬(((two.rowsOf 0 true 0).map Prod.fst).Nodup) := by decide +kernel
/-- A write-back that waits for a link in its 2^20 ticks and after them, and one that fails. -/
theorem witness_held_writeback :
    let s := ({ machine (fun c => { c with
        rgn := c.rgn.set 0 region0,
        field := { c.field with groups := [(0, { Group.init with valid := true, pending := true, writeback := true })] } }) with tick := 2 ^ 20 } : State).updCluster 0
      (fun k => { k with tlb2 := [⟨0, 0, 65536, 0x1827, false⟩] })
    let ro := s.updCluster 0 (fun k => { k with tlb2 := [⟨0, 0, 65536, 0x1803, false⟩] })
    let g := (s.localOf 0 false).group 0
    s.reservedNow 0 = false ∧ ({ s with instant := 63 } : State).reservedNow 0 = true ∧ (s.ownerRegion 0 false 0).map (fun p => p.2.2.mapped) = some true ∧
    (match s.flushGroup 0 g.owner 0 false false 0 with | (u, .wait (.link t _)) => decide (u.tick < g.held.getD t + 2 ^ 20) | _ => false) = true ∧
    (match (s.updLocal 0 false (fun l => l.updGroup 0 (fun g => { g with held := some 0 }))).flushGroup 0 g.owner 0 false false 0 with
      | (u, .wait (.link _ _)) => decide (0 + 2 ^ 20 ≤ u.tick) | _ => false) = true ∧
    (match ro.flushGroup 0 g.owner 0 false false 0 with | (_, .fail _) => true | _ => false) = true := by decide +kernel
/-- A contribution that completes its round: two modules, 512 units of 8 bytes each. -/
theorem witness_completing :
    let r : Round' := ⟨0, 50, false, false, List.replicate 1023 (0, 5, 7)⟩
    let w : Window := ⟨2, 4096, 4096, 100, 0, [0, 1], [(0, ⟨0, some r⟩)]⟩
    let s : State := { idle with windows := [(2, w)] }
    s.windowAt 4104 = some w ∧ w.group.findIdx? (fun x => x == 1) = some 1 ∧ tfind s.windows w.handle = some w ∧
    (w.segment ((4104 - w.base) / 4096)).current = some r ∧ r.op = (0 : Fin 8).val ∧ unitBytes 0 = 8 ∧
    r.parts.any (fun p => p.1 == 1 && p.2.1 == (4104 - w.base) % 4096 / unitBytes 0) = false ∧ r.parts.length + 1 = w.group.length * (4096 / unitBytes 0) := by decide +kernel
/-- A request of a peer under a tag that is new, and one under a tag that has its answer; a range read. -/
theorem witness_inbound :
    let s : State := { linked with answered := [(7, [])] }
    s.answered.find? (fun x => x.1 == 8) = none ∧ s.answered.find? (fun x => x.1 == (7 * 2 ^ 56 + 64) / 2 ^ 56) = some (7, []) ∧ linked.tierOf 64 = some 0 ∧
    linked.tierHolds 0 64 (max 128 ([] : List Byte).length) = true ∧ (64 : Nat) < 2 ^ 56 ∧ (linked.readRangeAt 0 64 128).2.toOption.isSome = true ∧
    linked.ckpt = none ∧ linked.hold = none ∧ (∀ x ∈ [3, 4], x < 2 ^ 64) := by decide +kernel
theorem witness_boot : State.reset.power = .inReset ∧ linked.power = .up ∧ linked.power ≠ .inReset ∧ ({ linked with power := .bootFailed } : State).power ≠ .inReset := by decide

end Sys2Proof.Tests
end

section
/-! PROOF. Control registers (R10, R365-R367, R425): what a read and a write of one does, as a slot operation and as an event of its own. -/

namespace Sys2Proof.Machine

/-! ### The bundle in hand put in place of another -/

/-- The state with another bundle in hand: what a slot leaves for the commit of its bundle (R217). -/
def State.withIssue (s : State) (I : Issue) : State := { s with issue := I }

theorem State.withIssue_self (s : State) : s.withIssue s.issue = s := rfl

theorem State.withIssue_withIssue (s : State) (I J : Issue) : (s.withIssue I).withIssue J = s.withIssue J := rfl

@[simp] theorem State.withIssue_core (s : State) (I : Issue) (n : Nat) : (s.withIssue I).core n = s.core n := rfl

theorem State.withIssue_upd {s : State} {I : Issue} (h : I.core = s.here) (f : Core → Core) :
    (s.withIssue I).upd f = (s.upd f).withIssue I := by
  have e : (s.withIssue I).upd f = (s.updCore I.core f).withIssue I := rfl
  rw [e, h, State.upd]

/-- States with a write of VSEED to apply set every LFSR (R195). -/
theorem State.reseed_set {s : State} (h : s.issue.reseed = true) :
    s.reseed = s.upd (fun c => { c with vec := { c.vec with lfsr := lfsrAll c.csr.vseed } }) := if_pos h

theorem State.reseed_unset {s : State} (h : s.issue.reseed = false) : s.reseed = s := if_neg (by simp [h])

/-! ### The write part, register by register -/

theorem csrStore_fmt (s : State) (m : Nat) (new v : Double) :
    s.csrStore m 0x008 new v = s.updCore m (fun c => { c with csr := { c.csr with fmt := new } }) := rfl

theorem csrStore_vctl (s : State) (m : Nat) (new v : Double) :
    s.csrStore m 0x020 new v = s.updCore m (fun c => { c with csr := { c.csr with vctl := new.setWidth 4 } }) := rfl

theorem csrStore_vstat (s : State) (m : Nat) (new v : Double) :
    s.csrStore m 0x021 new v = s.updCore m (fun c => { c with csr := { c.csr with vstat := new.setWidth 6 } }) := rfl

theorem csrStore_vseed (s : State) (m : Nat) (new v : Double) :
    s.csrStore m 0x022 new v =
      (s.updCore m (fun c => { c with csr := { c.csr with vseed := new.setWidth 32 } })).withIssue { s.issue with reseed := true } := rfl

theorem csrStore_chsel (s : State) (m : Nat) (new v : Double) :
    s.csrStore m 0x035 new v = s.updCore m (fun c => { c with csr := { c.csr with chsel := new.setWidth 9 } }) := rfl

theorem csrStore_moncap (s : State) (m : Nat) (new v : Double) :
    s.csrStore m 0x408 new v =
      s.withIssue (if (s.core m).booker = true then { s.issue with moncap := some (BitVec.ofNat 7 (min (new.toNat % 128) 64)) } else s.issue) := by
  show (if (s.core m).booker = true then _ else s) = _
  split <;> rfl

theorem csrStore_bstat {n : Nat} {b : Fin 16} (hn : n = 0x200 + b.val) (s : State) (m : Nat) (new v : Double) :
    s.csrStore m n new v = s.updCore m (fun c => { c with bars := c.bars.set b (writeBstat c.bars[b] new v) }) := by
  have hk : Fin.ofNat 16 (n - 0x200) = b := by ext; simp [hn]
  unfold State.csrStore
  rw [if_pos (by omega)]
  simp only [hk]

/-- A register that is read-only in every field keeps its value (R365). -/
theorem csrStore_readOnly (s : State) (m n : Nat) (new v : Double) (hb : ¬(0x200 ≤ n ∧ n < 0x210))
    (hn : n ∉ [0x008, 0x020, 0x021, 0x022, 0x035, 0x408]) : s.csrStore m n new v = s := by
  simp only [List.mem_cons, List.not_mem_nil, or_false, not_or] at hn
  obtain ⟨hfmt, hvctl, hvstat, hvseed, hchsel, hmoncap⟩ := hn
  unfold State.csrStore
  rw [if_neg hb]
  split
  · exact absurd rfl hfmt
  · exact absurd rfl hvctl
  · exact absurd rfl hvstat
  · exact absurd rfl hvseed
  · exact absurd rfl hchsel
  · exact absurd rfl hmoncap
  · rfl

/-! ### BSTATn (R10, R367) -/

/-- The model's bit of a number, for a number that is a register's. -/
theorem bit_toNat (v : Double) (k : Nat) : bit v.toNat k = v.getLsbD k := by
  rw [BitVec.getLsbD, Nat.testBit_eq_decide_div_mod_eq]; rfl

/-- What a write of BSTATn leaves in a barrier: EXP is RW, ERR is write-one-to-clear as a code, OVF as a bit, the rest is read-only. -/
structure BstatWritten (b x : Barrier) (new v : Double) : Prop where
  exp : x.exp = new.toNat % 65536
  cnt : x.cnt = b.cnt
  pend : x.pend = b.pend
  err : x.err = if v.toNat / 2 ^ 32 % 256 &&& b.err = b.err then 0 else b.err
  ovf : x.ovf = (b.ovf && !v.getLsbD 40)

theorem bstatWritten_writeBstat (b : Barrier) (new v : Double) : BstatWritten b (writeBstat b new v) new v :=
  ⟨rfl, rfl, rfl, rfl, congrArg (fun x => b.ovf && !x) (bit_toNat v 40)⟩

/-! ### Checks of a write -/

theorem csr_vctl (s : State) (m : Nat) (c : Core) : s.csr m c 0x020 = some (c.csr.vctl.setWidth 64) :=
  congrArg some (BitVec.ofNat_toNat 64 c.csr.vctl)

theorem csrReserved_eq_none {n : Nat} {new : Double} (h : n = 0x020 → new.toNat % 8 < 5) : csrReserved n new = none :=
  if_neg fun ⟨hn, hr⟩ => absurd (h hn) (by omega)

theorem csrReserved_vctl {new : Double} (h : 5 ≤ new.toNat % 8) : csrReserved 0x020 new = some 64 := if_pos ⟨rfl, h⟩

theorem csrWriteOp_unlisted {s : State} {n : Nat} (k : Fin 3) (v : Double) (hc : s.csr s.here s.view n = none) :
    csrWriteOp n k v s = .error ⟨0x20, n, 0⟩ := by unfold csrWriteOp; simp only [hc]

theorem csrWriteOp_reserved {s : State} {n b : Nat} {k : Fin 3} {v old : Double} (hc : s.csr s.here s.view n = some old)
    (hr : csrReserved n (csrNew k old v) = some b) : csrWriteOp n k v s = .error (.reservedField b) := by
  unfold csrWriteOp; simp only [hc, hr]

theorem csrWriteOp_ok {s : State} {n : Nat} {k : Fin 3} {v old : Double} (hc : s.csr s.here s.view n = some old)
    (hr : csrReserved n (csrNew k old v) = none) : csrWriteOp n k v s = .ok (s.csrStore s.here n (csrNew k old v) v, old) := by
  unfold csrWriteOp; simp only [hc, hr]

/-! ### CSRR, and CSRW, CSRS and CSRC as one operation -/

theorem changes_of_effects {i : Instr} {s : State} {f : Core → Core} (h : Effects i s (s.upd f)) : Changes i s f := ⟨h, leaves_of_effects h⟩

theorem upd_onlyHere (s : State) (f : Core → Core) : OnlyHere s (s.upd f) := onlyHere_upd s f s.issue

theorem effects_csrr {s : State} {d : Fin 64} {n : Fin 4096} {v : Double} (hr : Ready (.csrr d n) s)
    (hc : s.csr s.here s.view n.val = some v) : Effects (.csrr d n) s (s.upd (fun c => c.ws d v)) := by
  show execCsrr d n s = _
  exact slotOp_ok hr (by simp only [hc])

theorem traps_csrr {s : State} {d : Fin 64} {n : Fin 4096} (hr : Ready (.csrr d n) s) (hc : s.csr s.here s.view n.val = none) :
    Traps (.csrr d n) s ⟨0x20, n.val, 0⟩ := by
  show execCsrr d n s = _
  exact slotOp_trap hr (by simp only [hc])

/-- The write operation of kind `k`: 0 writes, 1 sets, 2 clears (R365). -/
def csrInstr (k : Fin 3) (d a : Fin 64) (n : Fin 4096) (x : Fin 2) : Instr :=
  if k = 0 then .csrw d a n x else if k = 1 then .csrs d a n x else .csrc d a n x

theorem csrForms_eq_some {i : Instr} {old v new : Double} {d a : Fin 64} {n : Fin 4096} {x : Fin 2}
    (h : csrForms old v i = some (d, a, n, x, new)) : ∃ k, i = csrInstr k d a n x ∧ new = csrNew k old v := by
  unfold csrForms at h
  split at h
  · cases h; exact ⟨0, rfl, rfl⟩
  · cases h; exact ⟨1, rfl, rfl⟩
  · cases h; exact ⟨2, rfl, rfl⟩
  · cases h

section
variable {k : Fin 3} {d a : Fin 64} {n : Fin 4096} {x : Fin 2} {s : State} {old : Double}

theorem exec_csrInstr : exec (csrInstr k d a n x) s = slotOp (csrInstr k d a n x) (csrOp k d a n x) s := by
  fin_cases k <;> rfl

/-- A CSR write names no ring, so it has no wait. -/
theorem ringState_csrInstr (c : Core) : c.ringState (csrInstr k d a n x) = .met := by
  have hd : (scalarDest d.val).filterMap (fun p =>
      if p.1 = 5 then some (RingWait.write (Fin.ofNat 16 p.2) (c.ring (Fin.ofNat 16 p.2)).wt) else none) = [] := by
    unfold scalarDest; split <;> rfl
  have hw : c.waits (csrInstr k d a n x) = [] := by fin_cases k <;> exact hd
  have hg : (csrInstr k d a n x).guard = none := by fin_cases k <;> rfl
  unfold Core.ringState
  rw [hw, hg]
  rfl

theorem traps_csrInstr_unlisted (hr : Ready (csrInstr k d a n x) s) (hc : s.csr s.here s.view n.val = none) :
    Traps (csrInstr k d a n x) s ⟨0x20, n.val, 0⟩ :=
  exec_csrInstr.trans (slotOp_trap hr (by unfold csrOp; rw [csrWriteOp_unlisted _ _ hc]))

theorem effects_csrInstr (hr : Ready (csrInstr k d a n x) s) (hc : s.csr s.here s.view n.val = some old)
    (hok : csrReserved n.val (csrNew k old (csrOperand s a x)) = none) :
    Effects (csrInstr k d a n x) s
      ((s.csrStore s.here n.val (csrNew k old (csrOperand s a x)) (csrOperand s a x)).upd (fun c => c.ws d old)) :=
  exec_csrInstr.trans (slotOp_ok hr (by unfold csrOp; rw [csrWriteOp_ok hc hok]))

/-- A write that changes the core in hand by `f` changes it by `f` and by the old value in sd. -/
theorem changes_csrInstr (hr : Ready (csrInstr k d a n x) s) (hc : s.csr s.here s.view n.val = some old)
    (hok : csrReserved n.val (csrNew k old (csrOperand s a x)) = none) {f : Core → Core}
    (hf : s.csrStore s.here n.val (csrNew k old (csrOperand s a x)) (csrOperand s a x) = s.upd f) :
    Changes (csrInstr k d a n x) s (fun c => (f c).ws d old) := by
  have h := effects_csrInstr hr hc hok
  rw [hf, State.upd_upd] at h
  exact changes_of_effects h

/-- A reserved rounding mode written to VCTL is found with the reserved fields of the encoding (R446 step 3). -/
theorem fieldTrap_csrInstr {new : Double} (hn : n.val = 0x020) (hnew : new = csrNew k (s.view.csr.vctl.setWidth 64) (csrOperand s a x))
    (hres : 5 ≤ new.toNat % 8) (hf : (csrInstr k d a n x).fieldFault = none) : s.view.fieldTrap (csrInstr k d a n x) = some 64 := by
  obtain rfl : n = 0x020 := Fin.ext hn
  have hv : s.view.vctlAfter (csrInstr k d a 0x020 x) = some new := by rw [hnew]; fin_cases k <;> rfl
  have hu : s.view.fieldTrap (csrInstr k d a 0x020 x) =
      minFault ((s.view.vctlAfter (csrInstr k d a 0x020 x)).bind (csrReserved 0x020)) (csrInstr k d a 0x020 x).fieldFault := by
    fin_cases k <;> rfl
  rw [hu, hv, hf, Option.bind_some, csrReserved_vctl hres]
  rfl

theorem traps_csrInstr_reserved (hn : n.val = 0x020) (hc : s.csr s.here s.view n.val = some old)
    (hres : 5 ≤ (csrNew k old (csrOperand s a x)).toNat % 8) (hf : (csrInstr k d a n x).fieldFault = none) :
    Traps (csrInstr k d a n x) s ⟨4, 64, 0⟩ := by
  rw [hn, csr_vctl] at hc
  cases hc
  have ht : s.view.checkTrap (csrInstr k d a n x) = some ⟨4, 64, 0⟩ := by
    unfold Core.checkTrap Core.formatTrap
    rw [fieldTrap_csrInstr hn rfl hres hf]
    rfl
  exact exec_csrInstr.trans (slotOp_check ht (by rw [ringState_csrInstr]; exact WaitState.noConfusion))
end

/-! ### Writes as events of their own -/

section
variable {s : State} {n : Nat} {k : Fin 3} {v old : Double}

theorem csrEvent_trap {t : Trap} (h : csrWriteOp n k v s = .error t) : csrEvent n k v s = .next (s.takeTrap 0 t 0) := by
  unfold csrEvent; rw [h]

/-- A write that leaves no MONCAP ends in the state that it makes, with what it leaves for the LFSRs applied. -/
theorem csrEvent_ok {t : State} (hc : s.csr s.here s.view n = some old) (hok : csrReserved n (csrNew k old v) = none)
    (hs : s.csrStore s.here n (csrNew k old v) v = t) (hm : t.issue.moncap = none) :
    csrEvent n k v s = .next (t.reseed.withIssue s.issue) := by
  unfold csrEvent
  rw [csrWriteOp_ok hc hok, hs]
  simp only [hm]
  rfl

/-- A write that leaves nothing for a commit ends in the state that it makes. -/
theorem csrEvent_now {t : State} (hreseed : s.issue.reseed = false) (hmoncap : s.issue.moncap = none)
    (hc : s.csr s.here s.view n = some old) (hok : csrReserved n (csrNew k old v) = none)
    (hs : s.csrStore s.here n (csrNew k old v) v = t) (hi : t.issue = s.issue) : csrEvent n k v s = .next t := by
  rw [csrEvent_ok hc hok hs (hi ▸ hmoncap), State.reseed_unset (hi ▸ hreseed), ← hi, State.withIssue_self]

/-- VSEED_WRITE sets VSEED and every LFSR (R195). -/
theorem csrEvent_vseed (hmoncap : s.issue.moncap = none) (hc : s.csr s.here s.view 0x022 = some old) :
    csrEvent 0x022 k v s = .next (s.upd (fun c => { c with
      csr := { c.csr with vseed := (csrNew k old v).setWidth 32 }, vec := { c.vec with lfsr := lfsrAll ((csrNew k old v).setWidth 32) } })) := by
  rw [csrEvent_ok hc (csrReserved_eq_none (by simp)) (csrStore_vseed ..) hmoncap, State.reseed_set rfl, ← State.upd, State.withIssue_upd,
    State.withIssue_withIssue, State.upd_upd]
  · rfl
  · rfl

/-- MONCAP_WRITE sets the cluster's bound with the booker privilege, and does nothing without it (R425). -/
theorem csrEvent_moncap (hreseed : s.issue.reseed = false) (hmoncap : s.issue.moncap = none) (hc : s.csr s.here s.view 0x408 = some old) :
    csrEvent 0x408 k v s = .next (if s.cur.booker = true then
      s.updCluster (clusterOf s.here) (fun c => { c with csr := { c.csr with moncap := BitVec.ofNat 7 (min ((csrNew k old v).toNat % 128) 64) } })
      else s) := by
  have hok : csrReserved 0x408 (csrNew k old v) = none := csrReserved_eq_none (by simp)
  by_cases hb : (s.core s.here).booker = true
  · rw [if_pos (show s.cur.booker = true from hb)]
    unfold csrEvent
    rw [csrWriteOp_ok hc hok, csrStore_moncap, if_pos hb]
    simp only [State.reseed, hreseed]
    rfl
  · rw [if_neg (show ¬s.cur.booker = true from hb)]
    exact csrEvent_now hreseed hmoncap hc hok (by rw [csrStore_moncap, if_neg hb, State.withIssue_self]) rfl
end

/-- Settles O26: each form is one slot operation or event over `csrWriteOp`, and what it leaves is read off the write part of its register. -/
theorem csrOps : Obligations.CsrOps := by
  unfold Obligations.CsrOps
  refine ⟨fun s d n hr => ⟨fun v hc => changes_of_effects (effects_csrr hr hc), traps_csrr hr⟩,
    ?slotWrite, ?reservedMode, ?event, ?bstat, ?bstatEvent⟩
  case slotWrite =>
    rintro i s old v new d a n x hr rfl hf
    obtain ⟨k, rfl, rfl⟩ := csrForms_eq_some hf
    refine ⟨traps_csrInstr_unlisted hr, fun hc => ⟨?fmt, ?vctl, ?vstat, ?vseed, ?chsel, ?moncap, ?readOnly⟩⟩
    case fmt =>
      intro hn
      exact changes_csrInstr hr hc (csrReserved_eq_none (by omega)) (by rw [hn]; exact csrStore_fmt ..)
    case vctl =>
      intro hn hrm
      exact changes_csrInstr hr hc (csrReserved_eq_none fun _ => hrm) (by rw [hn]; exact csrStore_vctl ..)
    case vstat =>
      intro hn
      exact changes_csrInstr hr hc (csrReserved_eq_none (by omega)) (by rw [hn]; exact csrStore_vstat ..)
    case vseed =>
      intro hn
      refine ⟨_, effects_csrInstr hr hc (csrReserved_eq_none (by omega)), ?_⟩
      rw [hn, csrStore_vseed, ← State.upd, State.withIssue_upd, State.upd_upd]
      · exact ⟨(State.withIssue_core ..).trans (State.core_upd ..), rfl⟩
      · rfl
    case chsel =>
      intro hn
      exact changes_csrInstr hr hc (csrReserved_eq_none (by omega)) (by rw [hn]; exact csrStore_chsel ..)
    case moncap =>
      intro hn
      refine ⟨_, effects_csrInstr hr hc (csrReserved_eq_none (by omega)), ?_⟩
      rw [hn, csrStore_moncap, State.withIssue_upd]
      · exact ⟨rfl, rfl, rfl⟩
      · split <;> rfl
    case readOnly =>
      intro hb hn
      have h := effects_csrInstr hr hc (csrReserved_eq_none fun e => absurd (e ▸ hn) (by decide))
      rw [csrStore_readOnly _ _ _ _ _ hb hn] at h
      exact changes_of_effects h
  case reservedMode =>
    rintro i s old v new d a n x rfl hf hc hn hres hff
    obtain ⟨k, rfl, rfl⟩ := csrForms_eq_some hf
    exact traps_csrInstr_reserved hn hc hres hff
  case event =>
    intro s k v old n hreseed hmoncap
    refine ⟨fun hc => csrEvent_trap (csrWriteOp_unlisted _ _ hc), fun hc =>
      ⟨?fmt, ?vstat, ?chsel, ?vctl, ?reserved, ?vseed, ?moncap, ?noBooker, ?readOnly⟩⟩
    case fmt =>
      rintro rfl
      exact csrEvent_now hreseed hmoncap hc (csrReserved_eq_none (by omega)) (csrStore_fmt ..) rfl
    case vstat =>
      rintro rfl
      exact csrEvent_now hreseed hmoncap hc (csrReserved_eq_none (by omega)) (csrStore_vstat ..) rfl
    case chsel =>
      rintro rfl
      exact csrEvent_now hreseed hmoncap hc (csrReserved_eq_none (by omega)) (csrStore_chsel ..) rfl
    case vctl =>
      rintro rfl hrm
      exact csrEvent_now hreseed hmoncap hc (csrReserved_eq_none fun _ => hrm) (csrStore_vctl ..) rfl
    case reserved =>
      rintro rfl hrm
      exact csrEvent_trap (csrWriteOp_reserved hc (csrReserved_vctl hrm))
    case vseed =>
      rintro rfl
      exact csrEvent_vseed hmoncap hc
    case moncap =>
      rintro rfl hb
      exact (csrEvent_moncap hreseed hmoncap hc).trans (by rw [if_pos hb]; rfl)
    case noBooker =>
      rintro rfl hb
      exact (csrEvent_moncap hreseed hmoncap hc).trans (by rw [if_neg (by simp [hb])])
    case readOnly =>
      intro hb hn
      exact csrEvent_now hreseed hmoncap hc (csrReserved_eq_none fun e => absurd (e ▸ hn) (by decide)) (csrStore_readOnly _ _ _ _ _ hb hn) rfl
  case bstat =>
    rintro i s old v new d a n x b hr rfl hf hn hc
    obtain ⟨k, rfl, rfl⟩ := csrForms_eq_some hf
    have he := effects_csrInstr hr hc (csrReserved_eq_none (by omega))
    rw [csrStore_bstat hn, ← State.upd, State.upd_upd] at he
    refine ⟨_, he, upd_onlyHere .., ?_⟩
    obtain ⟨hexp, hcnt, hpend, herr, hovf⟩ := bstatWritten_writeBstat s.cur.bars[b] (csrNew k old (csrOperand s a x)) (csrOperand s a x)
    simp only [State.core_upd, Core.ws_bars, Fin.getElem_fin, Vector.getElem_set_self, true_and]
    exact ⟨hexp, hcnt, hpend, herr, hovf, fun j hj => Vector.getElem_set_ne _ _ (fun e => hj (Fin.ext e.symm))⟩
  case bstatEvent =>
    intro s b k v old hreseed hmoncap hc
    obtain ⟨hexp, hcnt, hpend, herr, hovf⟩ := bstatWritten_writeBstat s.cur.bars[b] (csrNew k old v) v
    exact ⟨_, csrEvent_now hreseed hmoncap hc (csrReserved_eq_none (by omega)) (csrStore_bstat rfl ..) rfl, hexp, hcnt, hpend, herr, hovf⟩

end Sys2Proof.Machine
end

section
/-! PROOF. The ports of a cluster's banks in a working cycle (R30, R31, R119, R247): which accesses are served, what a core is left with, and
the cycle of an access that nothing contends with. -/

namespace Sys2Proof.Machine

/-! ### Ports served in order (R30) -/

/-- None of the ports that an access asks for is taken. -/
def PortUse.Free (u : PortUse) (used : List Nat) : Prop := ∀ k ∈ u.keys, k ∉ used

theorem servePorts_free {u : PortUse} {used : List Nat} (rest : List PortUse) (h : u.Free used) :
    servePorts (u :: rest) used = u :: servePorts rest (u.keys ++ used) :=
  if_neg (by simpa [PortUse.Free] using h)

theorem servePorts_taken {u : PortUse} {used : List Nat} (rest : List PortUse) (h : ¬u.Free used) :
    servePorts (u :: rest) used = servePorts rest used :=
  if_pos (by simpa [PortUse.Free] using h)

theorem servePorts_sublist (l : List PortUse) (used : List Nat) : (servePorts l used).Sublist l := by
  induction l generalizing used with
  | nil => exact .slnil
  | cons u rest ih =>
    by_cases h : u.Free used
    · rw [servePorts_free rest h]; exact (ih _).cons_cons u
    · rw [servePorts_taken rest h]; exact (ih _).cons u

/-- What is served asks for no port that was taken before. -/
theorem free_of_mem_servePorts {l : List PortUse} {used : List Nat} {u : PortUse} (hu : u ∈ servePorts l used) : u.Free used := by
  induction l generalizing used with
  | nil => cases hu
  | cons v rest ih =>
    by_cases h : v.Free used
    · rw [servePorts_free rest h, List.mem_cons] at hu
      obtain rfl | hu := hu
      · exact h
      · exact fun k hk hused => ih hu k hk (List.mem_append_right _ hused)
    · rw [servePorts_taken rest h] at hu
      exact ih hu

/-- The ports of different banks are different. -/
theorem PortUse.keys_nodup {u : PortUse} (h : u.banks.Nodup) : u.keys.Nodup :=
  h.map fun a b hab => by unfold portKey at hab; omega

/-- No port serves two accesses. -/
theorem servePorts_keys_nodup {l : List PortUse} (hl : ∀ u ∈ l, u.banks.Nodup) (used : List Nat) :
    ((servePorts l used).flatMap PortUse.keys).Nodup := by
  induction l generalizing used with
  | nil => exact List.nodup_nil
  | cons u rest ih =>
    have ih := ih fun v hv => hl v (List.mem_cons_of_mem u hv)
    by_cases h : u.Free used
    · rw [servePorts_free rest h, List.flatMap_cons]
      refine (PortUse.keys_nodup (hl u List.mem_cons_self)).append (ih _) fun k hk hlater => ?_
      obtain ⟨v, hv, hkv⟩ := List.mem_flatMap.1 hlater
      exact free_of_mem_servePorts hv k hkv (List.mem_append_left _ hk)
    · rw [servePorts_taken rest h]
      exact ih used

/-- An access is served when its ports are taken neither at first nor by what is served before it. -/
theorem servePorts_maximal {pre : List PortUse} {u : PortUse} {used : List Nat} (post : List PortUse)
    (hu : ∀ k ∈ u.keys, k ∉ used ∧ ∀ v ∈ servePorts pre used, k ∉ v.keys) :
    ∃ rest, servePorts (pre ++ u :: post) used = servePorts pre used ++ u :: rest := by
  induction pre generalizing used with
  | nil => exact ⟨_, servePorts_free post fun k hk => (hu k hk).1⟩
  | cons p pre ih =>
    rw [List.cons_append]
    by_cases h : p.Free used
    · rw [servePorts_free _ h] at hu ⊢
      rw [servePorts_free _ h]
      obtain ⟨rest, hrest⟩ := ih (used := p.keys ++ used) fun k hk =>
        have ⟨hused, hserved⟩ := hu k hk
        ⟨by simpa [hused] using hserved p List.mem_cons_self, fun v hv => hserved v (List.mem_cons_of_mem p hv)⟩
      exact ⟨rest, by rw [hrest, List.cons_append]⟩
    · rw [servePorts_taken _ h] at hu ⊢
      rw [servePorts_taken _ h]
      exact ih hu

/-! ### The order of service (R30, R75) -/

section
variable {s : State} {u : PortUse}

theorem portRank_booking {w : PortWait} (hslot : u.slot = some w) (hw : w.commons = true) (hb : s.booksPort u.core w.bank w.write = true) :
    s.portRank u < 8 := by
  unfold State.portRank
  simp only [hslot, hw, hb, Bool.and_self, if_true]
  omega

/-- Every access but that of a slot which books its group comes after the eight places of those that do. -/
theorem portRank_other (h : ∀ w, u.slot = some w → w.commons = true → s.booksPort u.core w.bank w.write = false) : 8 ≤ s.portRank u := by
  unfold State.portRank
  split
  · next w hslot =>
    rw [if_neg fun hbooks => by
      obtain ⟨hcommons, hbooks⟩ := Bool.and_eq_true_iff.1 hbooks
      exact absurd hbooks (by simp [h w hslot hcommons])]
    omega
  · dsimp only
    omega
end

/-! ### A core after the cycle (R30, R247) -/

theorem afterPorts_waiting {c : Core} (h : c.unserved ≠ []) : c.afterPorts = { c with
    seq := { c.seq with complete := c.seq.complete + (c.seq.wc + 1 - c.seq.complete), busy := c.seq.busy + (c.seq.wc + 1 - c.seq.complete) },
    csr := { c.csr with slackCnt := c.csr.slackCnt + .ofNat 64 (c.seq.wc + 1 - c.seq.complete) } } :=
  if_neg (by simpa using h)

theorem afterPorts_served {c : Core} (h : c.unserved = []) : c.afterPorts = { c with
    loads := [], flight := c.flight ++ c.loads.map (fun x => x.sent c.seq.complete), sentLoads := c.loads.map (fun x => x.sent c.seq.complete) } := by
  have hsend : c.afterPorts = c.sendLoads := if_pos (by simp [h])
  rw [hsend, Core.sendLoads, ← h]

theorem Landing.sent_due (x : Landing) (t : Nat) : (x.sent t).due = t + x.due := by unfold Landing.sent; split <;> rfl

theorem Landing.sent_dest (x : Landing) (t : Nat) : (x.sent t).dest = x.dest := by unfold Landing.sent; split <;> rfl

/-- The bits that a result writes are the same once it is on its way (R266). -/
theorem Landing.sent_bits (x : Landing) (t : Nat) : (x.sent t).value &&& (x.sent t).mask = x.value &&& x.mask := by
  unfold Landing.sent
  split
  · exact BitVec.and_allOnes
  · rfl

/-! ### Cores of a cluster -/

theorem mem_coresOf {s : State} {cl n : Nat} : n ∈ s.coresOf cl ↔ n / 8 = cl ∧ bit s.pres.cores n = true := by
  simp only [State.coresOf, List.mem_filter, List.mem_map, List.mem_range]
  refine and_congr_left fun _ => ⟨?_, fun h => ⟨n % 8, by omega, by omega⟩⟩
  rintro ⟨j, hj, rfl⟩
  omega

theorem coresOf_nodup (s : State) (cl : Nat) : (s.coresOf cl).Nodup :=
  (List.nodup_range.map fun a b (hab : 8 * cl + a = 8 * cl + b) => by omega).filter _

/-- The cores of a cluster with a property that only one of them has. -/
theorem coresOf_filter_eq_singleton {s : State} {cl n : Nat} {p : Nat → Bool} (hn : n ∈ s.coresOf cl) (hp : p n = true)
    (ho : ∀ m, m / 8 = cl → m ≠ n → p m = false) : (s.coresOf cl).filter p = [n] := by
  have hiff : ∀ m ∈ s.coresOf cl, p m = (m == n) := fun m hm => by
    by_cases hmn : m = n
    · simp [hmn, hp]
    · simp [hmn, ho m (mem_coresOf.1 hm).1 hmn]
  rw [List.filter_congr hiff, List.filter_beq, List.count_eq_one_of_mem (coresOf_nodup s cl) hn, List.replicate_one]

/-! ### No urgent refresh (R119) -/

theorem requestsIn_eq_nil {s : State} {n : Nat} {isCommons : Bool} (h : ∀ g ∈ (s.localOf n isCommons).groups, g.2.pending = false) :
    s.requestsIn n isCommons = [] := by
  have hnone : (s.localOf n isCommons).groups.filter (fun p => p.2.wants (s.cluster (clusterOf n)).csr.tempBand.toNat) = [] :=
    List.filter_eq_nil_iff.2 fun g hg => by simp [Group.wants, h g hg]
  unfold State.requestsIn
  simp only [hnone]
  rfl

/-- A memory in which no group waits for a refresh takes no ports. -/
theorem urgentMem_idle {s : State} {n : Nat} {isCommons : Bool} (h : ∀ g ∈ (s.localOf n isCommons).groups, g.2.pending = false) :
    s.urgentMem n isCommons = (s, []) := by
  unfold State.urgentMem State.urgentIn
  rw [requestsIn_eq_nil h]
  rfl

theorem urgentAll_idle {s : State} {cl : Nat} (hf : ∀ m, m / 8 = cl → ∀ g ∈ (s.core m).field.groups, g.2.pending = false)
    (hc : ∀ g ∈ (s.cluster cl).commons.groups, g.2.pending = false) : s.urgentAll cl = (s, []) := by
  have hfields : (s.coresOf cl).foldl
      (fun (q : State × List Nat) n => ((q.1.urgentMem n false).1, q.2 ++ (q.1.urgentMem n false).2)) (s, []) = (s, []) :=
    List.foldlRecOn (motive := (· = (s, []))) _ _ rfl fun q hq m hm => by
      have hm : s.urgentMem m false = (s, []) := urgentMem_idle (hf m (mem_coresOf.1 hm).1)
      simp only [hq, hm, List.append_nil]
  have hcommons : s.urgentMem (8 * cl) true = (s, []) :=
    urgentMem_idle (by rwa [show s.localOf (8 * cl) true = (s.cluster cl).commons by
      simp [State.localOf, State.commonsOf, clusterOf]])
  unfold State.urgentAll
  simp only [hfields, hcommons, List.append_nil]

/-! ### No commands -/

/-- What holds of the default and of every entry of a table holds of what is read from it. -/
theorem tget_of_forall {α : Type} {P : α → Prop} {d : α} {t : Tbl α} (hd : P d) (ht : ∀ p ∈ t, P p.2) (k : Nat) : P (tget d t k) := by
  induction t with
  | nil => exact hd
  | cons e t ih =>
    obtain ⟨he, ht⟩ := List.forall_mem_cons.1 ht
    unfold tget
    split
    · exact he
    · exact ih ht

/-- No core has a command in its queues. -/
def State.QueuesEmpty (s : State) : Prop := ∀ p ∈ s.cores, p.2.queue0 = [] ∧ p.2.queue1 = []

theorem State.QueuesEmpty.core {s : State} (h : s.QueuesEmpty) (n : Nat) : (s.core n).queue0 = [] ∧ (s.core n).queue1 = [] :=
  tget_of_forall (P := fun c : Core => c.queue0 = [] ∧ c.queue1 = []) ⟨rfl, rfl⟩ h n

theorem ixNext_eq_none {s : State} (h : s.QueuesEmpty) (cl : Nat) : s.ixNext cl = none := by
  have hnone (l : List Nat) : l.flatMap (fun _ => ([] : List (Nat × Command))) = [] := List.flatMap_eq_nil_iff.2 fun _ _ => rfl
  have hq := h.core
  simp only [State.ixNext, hq, List.append_nil, List.filter_nil, List.map_nil, hnone]
  rfl

theorem commandUses_eq_nil {s : State} (h : s.QueuesEmpty) (cl : Nat) : s.commandUses cl = [] := by
  unfold State.commandUses
  simp only [ixNext_eq_none h, List.append_nil]
  rw [List.flatMap_eq_nil_iff.2, List.filter_nil]
  intro p hp
  obtain ⟨h0, h1⟩ := h p hp
  rw [h0, h1]
  rfl

/-! ### A cycle with one access -/

/-- What the access of a slot of core `n` asks for. -/
def PortWait.use (n : Nat) (w : PortWait) : PortUse := ⟨n, n, w.commons, [w.bank], w.write, some w, none⟩

theorem slotUses_single {s : State} {n : Nat} {w : PortWait} (hw : (s.core n).unserved = [w])
    (hh : w.commons = true ∨ (s.core n).portHold ≤ (s.core n).seq.wc) : s.slotUses n = [w.use n] := by
  unfold State.slotUses
  rw [hw, List.filter_cons_of_pos (by simpa using hh)]
  rfl

/-- Accesses of slots are no copies of an engine (R86). -/
theorem countCopies_slot (s : State) (n : Nat) (w : PortWait) : s.countCopies [w.use n] = s := by
  simp [State.countCopies, PortWait.use]

/-- A port that one access asks for takes no turn (R30). -/
theorem countTurns_slot (s : State) (cl n : Nat) (w : PortWait) : s.countTurns cl [w.use n] = s.setCluster cl (s.cluster cl) := by
  have hbusy : (w.use n).keys.eraseDups.filter (fun k => decide (2 ≤ (w.use n).keys.count k)) = [] :=
    List.filter_eq_nil_iff.2 fun k _ => by
      have hcount : (w.use n).keys.count k ≤ 1 := List.count_le_length
      simpa using Nat.lt_succ_of_le hcount
  unfold State.countTurns
  simp only [List.flatMap_singleton, hbusy]
  rfl

theorem serveUse_slot (s : State) (n : Nat) (w : PortWait) : s.serveUse (w.use n) = s.serveSlot n w := rfl

/-- An access that nothing contends with is served in its cycle. -/
theorem usePorts_single {s : State} {cl n : Nat} {w : PortWait} (hn : n ∈ s.coresOf cl) (hw : (s.core n).unserved = [w])
    (hh : w.commons = true ∨ (s.core n).portHold ≤ (s.core n).seq.wc)
    (ho : ∀ m, m / 8 = cl → m ≠ n → (s.core m).unserved = [] ∧ (s.core m).loads = []) (hq : s.QueuesEmpty) :
    s.usePorts cl [] = ((s.setCluster cl (s.cluster cl)).serveSlot n w).updCore n Core.afterPorts := by
  have hcores : (s.coresOf cl).filter (fun m => !((s.core m).unserved.isEmpty && (s.core m).loads.isEmpty)) = [n] :=
    coresOf_filter_eq_singleton hn (by simp [hw]) fun m hm hmn => by
      obtain ⟨hunserved, hloads⟩ := ho m hm hmn
      simp [hunserved, hloads]
  have hall : [n].flatMap s.slotUses ++ s.commandUses cl = [w.use n] := by
    rw [List.flatMap_singleton, slotUses_single hw hh, commandUses_eq_nil hq, List.append_nil]
  have hwon : servePorts (sortKey s.portRank [w.use n]) [] = [w.use n] := servePorts_free [] fun _ _ => List.not_mem_nil
  have horder : [w.use n].filter (fun u => !u.write) ++ [w.use n].filter PortUse.write = [w.use n] := by
    by_cases h : (w.use n).write = true <;> simp [h]
  unfold State.usePorts
  simp only [hcores, hall, hwon, horder, countCopies_slot, countTurns_slot, List.foldl_cons, List.foldl_nil, serveUse_slot]

theorem exec_refreshUrgent (s : State) (cl : Nat) :
    exec (.refreshUrgent cl) s = .next ((s.urgentAll cl).1.usePorts cl (s.urgentAll cl).2) := rfl

/-- Settles O24: the service in order is an induction on the accesses with the ports taken so far, and a cycle with one access runs through
`usePorts_single`. -/
theorem portService : Obligations.PortService := by
  unfold Obligations.PortService
  refine ⟨exec_refreshUrgent, ?served, ?booked, ?after, ?alone⟩
  case served =>
    refine fun l used => ⟨servePorts_sublist l used, fun hl => servePorts_keys_nodup hl used, fun _ => free_of_mem_servePorts, ?_⟩
    rintro pre post u rfl hu
    exact servePorts_maximal post hu
  case booked =>
    intro s u v w hslot hw hb
    have hrank := portRank_booking hslot hw hb
    exact ⟨hrank, fun hv => hrank.trans_le (portRank_other hv)⟩
  case after =>
    refine fun c => ⟨afterPorts_waiting, fun h => ⟨_, afterPorts_served h, List.length_map _, ?_⟩⟩
    intro k x y hx hy
    obtain rfl : x.sent c.seq.complete = y := by simpa [hx] using hy
    exact ⟨x.sent_due _, x.sent_dest _, x.sent_bits _⟩
  case alone =>
    intro s cl n w hn hpres hw hh ho hq hf hc
    rw [exec_refreshUrgent, urgentAll_idle hf hc, usePorts_single (mem_coresOf.2 ⟨hn, hpres⟩) hw hh ho hq]

end Sys2Proof.Machine
end

section
/-! PROOF. Headlands, timed waits, EXIT and YIELD (R56, R61, R369, R370, R372, R373): a slot that leaves the core's next place to the commit of
its bundle. -/

namespace Sys2Proof.Machine

/-! ### A commit that leaves something behind (R217, R368-R373) -/

/-- The state with what the bundle in hand leaves for its commit. -/
def State.withLeave (s : State) (lv : Leave) : State := s.withIssue { s.issue with leave := lv }

/-- The state with other work to come in the present cycle. -/
def State.withAgenda (s : State) (l : List Work) : State := { s with agenda := l }

@[simp] theorem State.withAgenda_core (s : State) (l : List Work) (n : Nat) : (s.withAgenda l).core n = s.core n := rfl

/-- The state once operation `i`, the last of its bundle, has committed, before what the bundle leaves behind. -/
def State.committed (i : Instr) (s : State) : State := (s.upd (commitOf i s)).withIssue { Issue.init with core := s.here }

section
variable {i : Instr} {s : State}

/-- The commit of a bundle that names no destination twice, and what it leaves behind. -/
theorem retire_commitLeave {v : State} (once : firstTwice v.issue.dests = none) (reseed : v.issue.reseed = false) (post : v.issue.post = none)
    (moncap : v.issue.moncap = none) :
    v.retire = ((v.upd (fun c => c.commitSeq v.issue (v.tick * 64 + v.instant))).withIssue { Issue.init with core := v.here }).commitLeave
      v.here v.issue.leave := by
  unfold State.retire
  simp only [once, State.reseed, reseed, post, moncap, Bool.false_eq_true, if_false]
  rfl

theorem finish_withLeave (h : Last i s) (lv : Leave) : (s.withLeave lv).finish i = (s.committed i).commitLeave s.here lv := by
  have hmore : ((s.withLeave lv).fillLatch i).issue.more = false := h.more
  unfold State.finish
  simp only [hmore, Bool.false_eq_true, if_false]
  rw [retire_commitLeave (v := (s.withLeave lv).fillLatch i) h.once h.reseed h.post h.moncap]
  have hcores := State.updCore_updCore (s.withLeave lv) s.here
    (fun c => { c with seq := { c.seq with latch := c.seq.latch.setIfInBounds (s.slotOf i).index (some (bodyOf i)) } })
    (fun c => c.commitSeq ((s.withLeave lv).fillLatch i).issue (s.tick * 64 + s.instant))
  have h := congrArg (fun x : State => (x.withIssue { Issue.init with core := s.here }).commitLeave s.here lv) hcores
  exact h

theorem finish_committed (h : Last i s) : s.finish i = s.committed i := finish_last h

theorem committed_core_here : (s.committed i).core s.here = commitOf i s s.cur := State.core_upd s _

theorem committed_core_other {n : Nat} (h : n ≠ s.here) : (s.committed i).core n = s.core n := State.core_updCore_other s _ h

theorem committed_commits : Commits s.cur ((s.committed i).core s.here) := by
  rw [committed_core_here]; exact commitOf_commits i s s.cur

theorem committed_onlyHere : OnlyHere s (s.committed i) := onlyHere_upd s _ _

/-- A change of the core in hand behind the commit. -/
theorem committed_updCore (f : Core → Core) : (s.committed i).updCore s.here f =
    (s.upd (fun c => f (commitOf i s c))).withIssue { Issue.init with core := s.here } :=
  congrArg (fun x : State => x.withIssue { Issue.init with core := s.here }) (State.updCore_updCore s s.here _ f)

theorem committed_updCore_onlyHere (f : Core → Core) : OnlyHere s ((s.committed i).updCore s.here f) := by
  rw [committed_updCore]; exact onlyHere_upd s _ _

theorem Commits.keeps {c c' : Core} (h : Commits c c') : c'.x.s = c.x.s ∧ c'.field = c.field ∧ c'.vec = c.vec ∧ c'.rings = c.rings ∧
    c'.bars = c.bars ∧ c'.csr = c.csr ∧ c'.seq.mode = c.seq.mode := by
  rw [h]; exact ⟨rfl, rfl, rfl, rfl, rfl, rfl, rfl⟩

/-- The accesses of the bundle wait for their ports once it has committed (R30). -/
theorem commitSeq_unserved (c : Core) (iss : Issue) (now : Nat) :
    (c.commitSeq iss now).unserved = iss.ports.map (fun p => { p with since := now }) := by
  unfold Core.commitSeq
  cases iss.jump with
  | some t => rfl
  | none => simp only; rw [loopBack_eq]
end

/-! ### WAITB and WAITT (R56, R369, R370) -/

/-- A core at the headland of barrier `b` (R369). -/
def Core.atBarrier (b : Fin 16) (c : Core) : Core := { c with seq := { c.seq with mode := .atHeadland, wait := some b } }

/-- A core that waits for tick `w` (R370). -/
def Core.untilTick (w : Nat) (c : Core) : Core := { c with seq := { c.seq with waitt := some w } }

theorem finish_headland {i : Instr} {s : State} (h : Last i s) (b : Fin 16) :
    (s.withLeave (.headland b)).finish i = (s.committed i).updCore s.here (Core.atBarrier b) := finish_withLeave h _

theorem finish_waitt {i : Instr} {s : State} (h : Last i s) (w : Nat) :
    (s.withLeave (.waitt w)).finish i = (s.committed i).updCore s.here (Core.untilTick w) := finish_withLeave h _

section
variable {s : State}

theorem traps_waitb {b : Fin 16} (hr : Ready (.waitb b) s)
    (h : (s.view.image.map Image.furrowCount).getD 0 ≤ s.view.seq.furrow + 1) : Traps (.waitb b) s ⟨0x22, b.val, 0⟩ := by
  show execWaitb b s = _
  exact slotOp_trap hr (if_pos h)

theorem effects_waitb {b : Fin 16} (hr : Ready (.waitb b) s)
    (h : s.view.seq.furrow + 1 < (s.view.image.map Image.furrowCount).getD 0) : Effects (.waitb b) s (s.withLeave (.headland b)) := by
  show execWaitb b s = _
  exact slotOp_ok hr (if_neg (Nat.not_le.2 h))

theorem effects_waitt_past {a : Fin 64} (hr : Ready (.waitt a) s) (h : (s.view.rs a).toNat ≤ s.tick) : Effects (.waitt a) s s := by
  show execWaitt a s = _
  exact slotOp_ok hr (if_pos h)

theorem effects_waitt_future {a : Fin 64} (hr : Ready (.waitt a) s) (h : s.tick < (s.view.rs a).toNat) :
    Effects (.waitt a) s (s.withLeave (.waitt (s.view.rs a).toNat)) := by
  show execWaitt a s = _
  exact slotOp_ok hr (if_neg (Nat.not_le.2 h))

theorem cycleOne_iff (isl : Island) (k : Nat) : cycleOne isl k = true ↔ (if isl = .fallback then 2 else 1) ≤ k := by
  unfold cycleOne
  split <;> exact decide_eq_true_iff

theorem exec_waittResume {n w : Nat} (hw : (s.core n).seq.waitt = some w) : exec (.waittResume n) s =
    if w < s.tick ∨ (w = s.tick ∧ cycleOne (s.cluster (clusterOf n)).island s.instant = true) then
      .next (s.updCore n (fun c => { c with seq := { c.seq with waitt := none } }))
    else .next s := by
  show execWaittResume n s = _
  unfold execWaittResume
  rw [hw]
end

/-- Settles O29: WAITB and WAITT leave the headland or the tick to the commit, which `finish_withLeave` follows. -/
theorem headlandsAndTimedWaits : Obligations.HeadlandsAndTimedWaits := by
  unfold Obligations.HeadlandsAndTimedWaits
  refine ⟨fun s b hr => ⟨traps_waitb hr, fun h => ⟨effects_waitb hr h, fun hl => ?headland⟩⟩,
    fun s a hr => ⟨fun h => ⟨effects_waitt_past hr h, ?past⟩, fun h => ⟨effects_waitt_future hr h, fun hl => ?future⟩⟩, ?resume⟩
  case headland =>
    refine ⟨_, (effects_waitb hr h).trans (congrArg _ (finish_headland hl b)), committed_updCore_onlyHere _, ?_⟩
    rw [State.core_updCore]
    exact ⟨rfl, rfl, congrArg (Core.atBarrier b) committed_commits⟩
  case past =>
    exact fun hl => ⟨_, (effects_waitt_past hr h).trans (congrArg _ (finish_committed hl)), committed_onlyHere, committed_commits⟩
  case future =>
    refine ⟨_, (effects_waitt_future hr h).trans (congrArg _ (finish_waitt hl _)), committed_updCore_onlyHere _, ?_⟩
    rw [State.core_updCore]
    exact congrArg (Core.untilTick _) committed_commits
  case resume =>
    intro s n w hw one
    simp only [exec_waittResume hw, cycleOne_iff]
    exact ⟨fun h => if_pos h, fun h => if_neg (by omega)⟩

/-! ### EXIT and YIELD (R61, R372, R373) -/

section
variable {s : State}

theorem effects_exit (hr : Ready .exit s) : Effects .exit s (s.withLeave .exit) := by
  show execExit s = _
  exact slotOp_ok hr rfl

theorem effects_yield (hr : Ready .yield s) : Effects .yield s (s.withLeave .yield) := by
  show execYield s = _
  exact slotOp_ok hr rfl

theorem commitOf_unserved (i : Instr) (u : State) (c : Core) : (commitOf i u c).unserved = [] ↔ u.issue.ports = [] := by
  unfold commitOf
  rw [commitSeq_unserved, List.map_eq_nil_iff]

/-- The accesses and commands that keep an EXIT waiting (R61). -/
theorem committed_waits (i : Instr) : (((s.committed i).core s.here).outstanding || !((s.committed i).core s.here).unserved.isEmpty) = true ↔
    s.cur.outstanding = true ∨ s.issue.ports ≠ [] := by
  have hq : ((s.committed i).core s.here).outstanding = s.cur.outstanding := by rw [committed_commits (i := i)]; rfl
  rw [hq, committed_core_here, Bool.or_eq_true, Bool.not_eq_true', ← Bool.not_eq_true, List.isEmpty_iff, Ne, commitOf_unserved]

/-- A core whose task ends: HALTED at once, or stopping where a command or an access of its own is outstanding (R61, R372). -/
def Core.exits (c : Core) : Core :=
  { c with x := { c.x with loops := [] }, turn := none,
           seq := (if c.outstanding || !c.unserved.isEmpty then { c.seq with stop := some .exit } else { c.seq with mode := .halted }) }

theorem exits_waiting {c : Core} (h : (c.outstanding || !c.unserved.isEmpty) = true) : c.exits.seq = { c.seq with stop := some .exit } := if_pos h

theorem exits_idle {c : Core} (h : ¬(c.outstanding || !c.unserved.isEmpty) = true) : c.exits.seq = { c.seq with mode := .halted } := if_neg h

theorem finish_exit {i : Instr} (h : Last i s) : (s.withLeave .exit).finish i =
    ((s.committed i).updCore s.here Core.exits).withAgenda (.event (.drainEnd s.here) :: s.agenda) := finish_withLeave h _

theorem finish_yield {i : Instr} (h : Last i s) : (s.withLeave .yield).finish i =
    if s.queueWaits ((s.cur.team).getD 0) = true then
      (s.committed i).withAgenda (.event (.preempt ((s.cur.team).getD 0)) :: s.agenda)
    else s.committed i := by
  have hteam : ((s.committed i).core s.here).team = s.cur.team := by rw [committed_commits (i := i)]
  have hqueue (t : Nat) : (s.committed i).queueWaits t = s.queueWaits t := rfl
  rw [finish_withLeave h]
  unfold State.commitLeave
  simp only [hteam, hqueue]
  rfl
end

/-- Settles O30: EXIT and YIELD act behind the commit, which `finish_withLeave` follows. -/
theorem exitAndYield : Obligations.ExitAndYield := by
  unfold Obligations.ExitAndYield
  refine ⟨fun s hr hl => ?exit, fun s hr hl hq => ?yields, fun s hr hl hq => ?stays⟩
  case exit =>
    refine ⟨_, (effects_exit hr).trans (congrArg _ (finish_exit hl)), rfl, ?_⟩
    have hwaits := committed_waits (s := s) .exit
    obtain ⟨hs, hfield, hvec, hrings, hbars, hcsr, hmode⟩ := Commits.keeps (committed_commits (i := .exit) (s := s))
    simp only [State.withAgenda_core, State.core_updCore]
    refine ⟨rfl, rfl, hs, hfield, hvec, hrings, hbars, hcsr, fun h => ?_, fun h => ?_,
      fun n hn => (State.core_updCore_other _ _ hn).trans (committed_core_other hn), rfl⟩
    · rw [exits_idle (hwaits.not.2 (by simp [h.1, h.2]))]
    · rw [exits_waiting (hwaits.2 h)]; exact ⟨hmode, rfl⟩
  case yields =>
    rw [show exec .yield s = _ from (effects_yield hr).trans (congrArg _ (finish_yield hl)), if_pos hq]
    exact ⟨_, rfl, rfl, committed_commits, fun n => committed_core_other, rfl⟩
  case stays =>
    refine ⟨s.committed .yield, ?_, committed_onlyHere, committed_commits⟩
    rw [show exec .yield s = _ from (effects_yield hr).trans (congrArg _ (finish_yield hl)), if_neg (by simp [hq])]

end Sys2Proof.Machine
end

section
/-! PROOF. Tables, teams and the command links (R40, R392): what an update of one leaves of the others. -/

namespace Sys2Proof.Machine

/-! ### Tables -/

section
variable {α : Type}

theorem tfind_tset (t : Tbl α) (k : Nat) (v : α) : tfind (tset t k v) k = some v := by
  induction t with
  | nil => simp [tset, tfind]
  | cons p t ih =>
    unfold tset
    split
    · simp [tfind]
    · split
      · simp [tfind]
      · next hne _ => simpa [tfind, hne] using ih

theorem tfind_tset_other (t : Tbl α) {k i : Nat} (v : α) (h : i ≠ k) : tfind (tset t k v) i = tfind t i := by
  induction t with
  | nil => simp [tset, tfind, h.symm]
  | cons p t ih =>
    unfold tset
    split
    · next he => simp [tfind, he, h.symm]
    · split
      · simp [tfind, h.symm]
      · simp only [tfind, ih]

theorem tfind_tmap {β : Type} (f : Nat → α → β) (t : Tbl α) (k : Nat) : tfind (tmap f t) k = (tfind t k).map (f k) := by
  induction t with
  | nil => rfl
  | cons p t ih =>
    unfold tmap tfind
    split
    · next h => rw [h]; rfl
    · exact ih

/-- What a table reads as, from what it lists. -/
theorem tget_eq (d : α) (t : Tbl α) (k : Nat) : tget d t k = (tfind t k).getD d := by
  induction t with
  | nil => rfl
  | cons p t ih =>
    unfold tget tfind
    split
    · rfl
    · exact ih

theorem mem_of_tfind {t : Tbl α} {k : Nat} {v : α} (h : tfind t k = some v) : (k, v) ∈ t := by
  induction t with
  | nil => cases h
  | cons p t ih =>
    unfold tfind at h
    split at h
    · next he => cases h; exact he ▸ List.mem_cons_self
    · exact List.mem_cons_of_mem _ (ih h)
end

/-! ### Teams -/

section
variable {s : State} {tn : Nat} {t : Team}

theorem updTeam_eq (h : s.team tn = some t) (f : Team → Team) : s.updTeam tn f = { s with teams := tset s.teams tn (f t) } := by
  unfold State.team at h
  unfold State.updTeam
  rw [h]

theorem team_updTeam (h : s.team tn = some t) (f : Team → Team) : (s.updTeam tn f).team tn = some (f t) := by
  rw [updTeam_eq h]; exact tfind_tset _ _ _

/-- Team `k` after a change of team `tn`. -/
theorem team_updTeam_cases (s : State) (tn k : Nat) (f : Team → Team) :
    (s.updTeam tn f).team k = if k = tn then (s.team k).map f else s.team k := by
  cases h : s.team tn with
  | none =>
    have hsame : s.updTeam tn f = s := by unfold State.team at h; unfold State.updTeam; rw [h]
    rw [hsame]
    split
    · next hk => rw [hk, h]; rfl
    · rfl
  | some t =>
    by_cases hk : k = tn
    · rw [if_pos hk, hk, team_updTeam h, h]; rfl
    · rw [if_neg hk, updTeam_eq h]; exact tfind_tset_other _ _ hk

/-- A change of a team changes the table of teams only. -/
theorem updTeam_frame (s : State) (tn : Nat) (f : Team → Team) : ∃ l, s.updTeam tn f = { s with teams := l } := by
  unfold State.updTeam
  split <;> exact ⟨_, rfl⟩

theorem teamOf_eq_some {n : Nat} : s.teamOf n = some (tn, t) ↔ (s.core n).team = some tn ∧ s.team tn = some t := by
  unfold State.teamOf
  cases (s.core n).team with
  | none => simp
  | some k =>
    simp only [Option.map_eq_some_iff, Prod.mk.injEq, Option.some.injEq]
    constructor
    · rintro ⟨x, hx, rfl, rfl⟩; exact ⟨rfl, hx⟩
    · rintro ⟨rfl, hx⟩; exact ⟨t, hx, rfl, rfl⟩

theorem teamOf_none {n : Nat} (h : (s.core n).team = none) : s.teamOf n = none := by unfold State.teamOf; rw [h]
end

/-! ### Links (R392) -/

/-- A message is on a link: in its receiver's inbox, or held. -/
def Link.Has (l : Link) (m : MsgKind × Nat) : Prop := m ∈ l.inbox ∨ m ∈ l.held

theorem Link.send_cases (l : Link) (k : MsgKind) (arg now : Nat) :
    ((l.send k arg now).inbox = l.inbox ∧ (l.send k arg now).held = l.held ++ [(k, arg)]) ∨
      ((l.send k arg now).inbox = l.inbox ++ [(k, arg)] ∧ (l.send k arg now).held = l.held) := by
  unfold Link.send
  dsimp only
  split
  · exact .inl ⟨rfl, rfl⟩
  · unfold Link.post
    dsimp only
    split
    · exact .inr ⟨rfl, rfl⟩
    · split
      · exact .inr ⟨rfl, rfl⟩
      · exact .inl ⟨rfl, rfl⟩

theorem Link.has_send_self (l : Link) (k : MsgKind) (arg now : Nat) : (l.send k arg now).Has (k, arg) := by
  obtain ⟨hi, hh⟩ | ⟨hi, hh⟩ := l.send_cases k arg now <;> simp [Link.Has, hi, hh]

theorem Link.Has.send {l : Link} {m : MsgKind × Nat} (h : l.Has m) (k : MsgKind) (arg now : Nat) : (l.send k arg now).Has m := by
  unfold Link.Has at h ⊢
  obtain ⟨hi, hh⟩ | ⟨hi, hh⟩ := l.send_cases k arg now
  · rw [hi, hh]; exact h.imp_right (List.mem_append_left _)
  · rw [hi, hh]; exact h.imp_left (List.mem_append_left _)

/-- A cluster as messages on its command link leave it: every message that was on the way to the GS still is. -/
structure Cluster.LinkMoves (c c' : Cluster) : Prop where
  same : c' = { c with toCC := c'.toCC, toGS := c'.toGS }
  keeps : ∀ m, c.toGS.Has m → c'.toGS.Has m

theorem Cluster.LinkMoves.refl (c : Cluster) : c.LinkMoves c := ⟨rfl, fun _ h => h⟩

theorem Cluster.LinkMoves.trans {a b c : Cluster} (h : a.LinkMoves b) (h' : b.LinkMoves c) : a.LinkMoves c :=
  ⟨by rw [h'.same, h.same], fun m hm => h'.keeps m (h.keeps m hm)⟩

theorem send_clusters_only (s : State) (k : MsgKind) (cl arg : Nat) : s.send k cl arg = { s with clusters := (s.send k cl arg).clusters } := rfl

theorem send_linkMoves (s : State) (k : MsgKind) (cl arg j : Nat) : (s.cluster j).LinkMoves ((s.send k cl arg).cluster j) := by
  unfold State.send
  by_cases hj : j = cl
  · rw [hj, State.cluster_updCluster]
    split
    · exact ⟨rfl, fun _ h => h⟩
    · exact ⟨rfl, fun m h => h.send k arg s.tick⟩
  · rw [State.cluster_updCluster_other _ _ hj]; exact .refl _

theorem send_toGS (s : State) {k : MsgKind} (hk : k.toCC = false) (cl arg : Nat) : ((s.send k cl arg).cluster cl).toGS.Has (k, arg) := by
  unfold State.send
  rw [State.cluster_updCluster, hk]
  exact Link.has_send_self _ _ _ _

/-- A message about a team moves links only. -/
structure State.LinksMove (s t : State) : Prop where
  same : t = { s with clusters := t.clusters }
  cluster : ∀ j, (s.cluster j).LinkMoves (t.cluster j)

theorem State.LinksMove.refl (s : State) : s.LinksMove s := ⟨rfl, fun _ => .refl _⟩

theorem State.LinksMove.trans {a b c : State} (h : a.LinksMove b) (h' : b.LinksMove c) : a.LinksMove c :=
  ⟨by rw [h'.same, h.same], fun j => (h.cluster j).trans (h'.cluster j)⟩

theorem send_linksMove (s : State) (k : MsgKind) (cl arg : Nat) : s.LinksMove (s.send k cl arg) :=
  ⟨send_clusters_only s k cl arg, send_linkMoves s k cl arg⟩

theorem sendTeam_linksMove (s : State) (k : MsgKind) (tn : Nat) : s.LinksMove (s.sendTeam k tn) := by
  unfold State.sendTeam
  split
  · exact List.foldlRecOn (motive := s.LinksMove) _ _ (.refl s) fun _ h cl _ => h.trans (send_linksMove _ k cl tn)
  · exact .refl s

end Sys2Proof.Machine
end

section
/-! PROOF. Results in flight that land when a core halts or is saved (R63, R444): what they leave alone. -/

namespace Sys2Proof.Machine

/-- `c'` differs from `c` in what a landing result, a tile operation or a passing working cycle moves only. -/
def Core.Settles (c c' : Core) : Prop :=
  c' = { c with
    seq := { c.seq with wc := c'.seq.wc }, x := { c.x with s := c'.x.s }, vec := { c.vec with v := c'.vec.v, m := c'.vec.m },
    csr := { c.csr with vstat := c'.csr.vstat }, rings := c'.rings, mat := c'.mat, flight := c'.flight, unserved := c'.unserved, loads := c'.loads,
    sentLoads := c'.sentLoads, flaws := c'.flaws }

theorem Core.Settles.refl (c : Core) : c.Settles c := rfl

theorem Core.Settles.trans {a b c : Core} (h : a.Settles b) (h' : b.Settles c) : a.Settles c := by
  unfold Core.Settles at *
  rw [h', h]

theorem foldl_settles {α : Type} {f : Core → α → Core} (hf : ∀ (c : Core) (x : α), c.Settles (f c x)) (l : List α) (c : Core) : c.Settles (l.foldl f c) :=
  List.foldlRecOn (motive := c.Settles) _ _ (.refl c) fun _ h x _ => h.trans (hf _ x)

theorem raise_settles (c : Core) (f : Flags) : c.Settles (c.raise f) := rfl

theorem land_settles (c : Core) (l : Landing) : c.Settles (c.land l) := by
  unfold Core.land
  dsimp only
  split <;> rfl

theorem landDue_settles (c : Core) (t : Nat) : c.Settles (c.landDue t) :=
  Core.Settles.trans (b := { c with flight := c.flight.filter (fun l => !decide (l.due ≤ t)) }) rfl (foldl_settles land_settles _ _)

theorem setTileRows_settles (a : Fin 8) (l : List (BitVec 4096)) : ∀ (c : Core) (i : Nat), c.Settles (c.setTileRows a i l) := by
  induction l with
  | nil => exact fun c _ => .refl c
  | cons v l ih => exact fun c i => Core.Settles.trans (b := c.setTileRow a i v) rfl (ih _ _)

theorem sendRows_settles (due : Nat) (q : Fin 16) (depth : Nat) (flags : Flags) (l : List Vec) :
    ∀ (c : Core) (wp : Nat), c.Settles (c.sendRows due q wp depth flags l) := by
  induction l with
  | nil => exact fun c _ => .refl c
  | cons v l ih =>
    exact fun c wp => Core.Settles.trans
      (b := { c with flight := c.flight ++ [⟨due, .entry q (Fin.ofNat 8 (wp % depth)), v, allBits, flags⟩] }) rfl (ih _ _)

theorem applyTile_settles (c : Core) (t : TileFlight) : c.Settles (c.applyTile t) := by
  unfold Core.applyTile
  dsimp only
  split
  · exact (setTileRows_settles _ _ _ _).trans (raise_settles _ _)
  · rfl
  · exact setTileRows_settles _ _ _ _
  · exact setTileRows_settles _ _ _ _
  · split
    · exact (sendRows_settles _ _ _ _ _ _ _).trans (sendRows_settles _ _ _ _ _ _ _)
    · exact sendRows_settles _ _ _ _ _ _ _

theorem tilesDue_settles (c : Core) (p : TileFlight → Bool) (t : Nat) : c.Settles (c.tilesDue p t) :=
  Core.Settles.trans (b := { c with mat := { c.mat with tiles := c.mat.tiles.filter (fun x => !(p x && decide (x.due ≤ t))) } }) rfl
    (foldl_settles applyTile_settles _ _)

theorem advance_settles (c : Core) : c.Settles c.advance := by
  have hwc : c.Settles { c with seq := { c.seq with wc := c.seq.wc + 1 } } := rfl
  have hrows (c : Core) : c.Settles c.captureRows := rfl
  exact ((hwc.trans (landDue_settles _ _)).trans (hrows _)).trans (tilesDue_settles _ _ _)

theorem settleFor_settles (k : Nat) : ∀ c : Core, c.Settles (c.settleFor k) := by
  induction k with
  | zero => exact .refl
  | succ k ih =>
    intro c
    unfold Core.settleFor
    split
    · exact .refl c
    · exact (advance_settles c).trans (ih _)

/-- What every result in flight leaves alone. -/
theorem settle_settles (c : Core) : c.Settles c.settle := by
  unfold Core.settle
  split
  · exact Core.Settles.trans (b := c.sendLoads) rfl (settleFor_settles _ _)
  · exact settleFor_settles _ _

end Sys2Proof.Machine
end

section
/-! PROOF. The end of a member by EXIT (R61, R341, R342): what closes with it, and what the rest of the machine sees of it. -/

namespace Sys2Proof.Machine

/-! ### Commands that end, messages, and teams whose members stay -/

/-- `c'` differs from `c` in its commands and their barriers only. -/
def Core.CommandsMove (c c' : Core) : Prop := c' = { c with bars := c'.bars, queue0 := c'.queue0, queue1 := c'.queue1 }

/-- What the end of commands, team barriers and messages leave of a state: the cores but for their commands, the clusters but for their links,
and the members of every team. -/
structure State.TasksStay (s t : State) : Prop where
  core : ∀ n, (s.core n).CommandsMove (t.core n)
  cluster : ∀ j, (s.cluster j).LinkMoves (t.cluster j)
  team : ∀ k x, s.team k = some x → ∃ y, t.team k = some y ∧ y.members = x.members

theorem State.TasksStay.of_eq {s t : State} (hcores : t.cores = s.cores) (hclusters : t.clusters = s.clusters) (hteams : t.teams = s.teams) :
    s.TasksStay t where
  core n := by rw [show t.core n = s.core n by unfold State.core; rw [hcores]]; rfl
  cluster j := by rw [show t.cluster j = s.cluster j by unfold State.cluster; rw [hclusters]]; exact .refl _
  team k x h := ⟨x, by unfold State.team at *; rw [hteams, h], rfl⟩

theorem State.TasksStay.refl (s : State) : s.TasksStay s := .of_eq rfl rfl rfl

theorem State.TasksStay.trans {a b c : State} (h : a.TasksStay b) (h' : b.TasksStay c) : a.TasksStay c where
  core n := by
    have h₁ := h.core n
    have h₂ := h'.core n
    unfold Core.CommandsMove at *
    rw [h₂, h₁]
  cluster j := (h.cluster j).trans (h'.cluster j)
  team k x hx := by
    obtain ⟨y, hy, hym⟩ := h.team k x hx
    obtain ⟨z, hz, hzm⟩ := h'.team k y hy
    exact ⟨z, hz, hzm.trans hym⟩

theorem State.LinksMove.tasksStay {s t : State} (h : s.LinksMove t) : s.TasksStay t where
  core n := by rw [h.same]; rfl
  cluster := h.cluster
  team k x hx := ⟨x, by rw [h.same]; exact hx, rfl⟩

theorem updTeam_tasksStay (s : State) (tn : Nat) {f : Team → Team} (hf : ∀ t, (f t).members = t.members) : s.TasksStay (s.updTeam tn f) where
  core n := by obtain ⟨l, hl⟩ := updTeam_frame s tn f; rw [hl]; rfl
  cluster j := by obtain ⟨l, hl⟩ := updTeam_frame s tn f; rw [hl]; exact .refl _
  team k x hx := by
    rw [team_updTeam_cases, hx]
    split
    · exact ⟨f x, rfl, hf x⟩
    · exact ⟨x, rfl, rfl⟩

theorem updCore_tasksStay (s : State) (n : Nat) {f : Core → Core} (hf : (s.core n).CommandsMove (f (s.core n))) : s.TasksStay (s.updCore n f) where
  core m := by
    by_cases hm : m = n
    · rw [hm, State.core_updCore]; exact hf
    · rw [State.core_updCore_other _ _ hm]; rfl
  cluster j := .refl _
  team k x hx := ⟨x, hx, rfl⟩

theorem foldl_tasksStay {α : Type} {f : State → α → State} (hf : ∀ (s : State) (x : α), s.TasksStay (f s x)) (l : List α) (s : State) :
    s.TasksStay (l.foldl f s) :=
  List.foldlRecOn (motive := s.TasksStay) _ _ (.refl s) fun _ h x _ => h.trans (hf _ x)

theorem endAt_commandsMove (c : Core) (b : Option (Fin 16)) (w st id : Nat) : c.CommandsMove ((c.endAt b w st).dropCommand id) := by
  cases b <;> rfl

theorem afterEnd_tasksStay (s : State) (n : Nat) : s.TasksStay (s.afterEnd n) := by
  unfold State.afterEnd
  dsimp only
  split
  · exact .of_eq rfl rfl rfl
  · exact .refl s

theorem endCommand_tasksStay (s : State) (n id st : Nat) : s.TasksStay (s.endCommand n id st) := by
  unfold State.endCommand
  split
  · exact .refl s
  · next x _ =>
    have hends : s.TasksStay ((s.updCore n (fun c => (c.endAt x.bar x.weight st).dropCommand id)).freeHost n) :=
      (updCore_tasksStay s n (f := fun c => (c.endAt x.bar x.weight st).dropCommand id) (endAt_commandsMove _ _ _ _ _)).trans (.of_eq rfl rfl rfl)
    have hrecord (u : State) : u.TasksStay (if st ≠ 0 ∧ x.bar = none then u.record 0x0101 1 0 (some x.ctx) 0 n 0 0 st 0 else u) := by
      split
      · exact .of_eq rfl rfl rfl
      · exact .refl u
    have hall := (hends.trans (hrecord _)).trans (afterEnd_tasksStay _ n)
    dsimp only
    split
    · exact hall.trans (.of_eq rfl rfl rfl)
    · exact hall

theorem endTbars_tasksStay (s : State) (tn : Nat) (t : Team) (k gen : Nat) : s.TasksStay (s.endTbars tn t k gen) :=
  foldl_tasksStay (fun s (m : Member) => foldl_tasksStay (fun s (x : Command) => endCommand_tasksStay s m.core x.id 0) _ s) _ s

theorem settleBar_tasksStay (s : State) (tn k : Nat) : s.TasksStay (s.settleBar tn k) := by
  unfold State.settleBar
  split
  · exact .refl s
  · next t _ =>
    dsimp only
    split
    · refine (updTeam_tasksStay s tn ?_).trans (endTbars_tasksStay _ _ _ _ _)
      exact fun _ => rfl
    · exact .refl s

/-- The accesses to a save area are counted at channels that are free values (R149). -/
theorem countArea_frame (s : State) (w : Bool) : ∃ c k, s.countArea w = { s with chan := c, freeCtr := k } := by
  unfold State.countArea
  refine List.foldlRecOn (motive := fun t : State => ∃ c k, t = { s with chan := c, freeCtr := k }) _ _ ⟨s.chan, s.freeCtr, rfl⟩ ?_
  rintro _ ⟨c, k, rfl⟩ ch _
  exact ⟨_, _, rfl⟩

/-- The team that `swapTeam` makes of a team, before its message. -/
def Team.swappedAs (t : Team) (now op : Nat) (area : List Byte) : Team :=
  { (t.rewait now) with state := .swapped, turn := 2 ^ 24 + op, first := none, area := area, digest := sha256 area }

theorem swapTeam_eq (s : State) (tn : Nat) : ∃ c k area, s.swapTeam tn =
    (({ s with chan := c, freeCtr := k, nextOp := s.nextOp + 1 } : State).updTeam tn (fun t => t.swappedAs s.tick s.nextOp area)).sendTeam .swapped tn := by
  obtain ⟨c, k, h⟩ := countArea_frame s true
  refine ⟨c, k + 1, Config.saveArea (s.countArea true).free.1, ?_⟩
  unfold State.swapTeam
  rw [h]
  rfl

theorem swapTeam_tasksStay (s : State) (tn : Nat) : s.TasksStay (s.swapTeam tn) := by
  obtain ⟨c, k, area, h⟩ := swapTeam_eq s tn
  rw [h]
  exact (State.TasksStay.trans (a := s) (b := { s with chan := c, freeCtr := k, nextOp := s.nextOp + 1 }) (.of_eq rfl rfl rfl)
    (updTeam_tasksStay _ tn (f := fun t => t.swappedAs s.tick s.nextOp area) fun _ => rfl)).trans (sendTeam_linksMove _ _ _).tasksStay

theorem swapDone_tasksStay (s : State) (inst : Nat) : s.TasksStay (s.swapDone inst) := by
  unfold State.swapDone
  dsimp only
  split
  · exact foldl_tasksStay swapTeam_tasksStay _ s
  · exact .refl s

/-! ### Bookings of a member (R61, R88) -/

theorem cut_eq_some {b x : Booking} {upto : Nat} :
    b.cut upto = some x ↔ b.kind = .anchored ∧ b.first ≤ upto ∧ x = { b with last := min b.last upto, left := 0 } := by
  unfold Booking.cut
  split
  · next h => simp [h, eq_comm]
  · next h => rw [not_and] at h; simp; intro hk hf; exact absurd hf (h hk)

/-- A release of cells is a filter of the bookings with a cut of those selected (R88). -/
theorem release_bookings (k : Cluster) (upto : Nat) (p : Booking → Bool) :
    (k.release upto p).bookings = k.bookings.filterMap (fun b => if p b then b.cut upto else some b) := by
  unfold Cluster.release
  split
  · rfl
  · next h =>
    rw [List.filterMap_congr (g := some), List.filterMap_some]
    intro b hb
    rw [if_neg fun hp => h (List.any_eq_true.2 ⟨b, hb, hp⟩)]

theorem mem_release {k : Cluster} {upto : Nat} {p : Booking → Bool} {b : Booking} : b ∈ (k.release upto p).bookings ↔
    ∃ b' ∈ k.bookings, if p b' = true then b'.kind = .anchored ∧ b'.first ≤ upto ∧ b = { b' with last := min b'.last upto, left := 0 } else b = b' := by
  rw [release_bookings, List.mem_filterMap]
  refine exists_congr fun b' => and_congr_right fun _ => ?_
  split
  · exact cut_eq_some
  · simp [eq_comm]

/-- A second release at the same tick finds nothing more to cut. -/
theorem release_release_bookings (k : Cluster) (upto : Nat) (p : Booking → Bool) :
    ((k.release upto p).release upto p).bookings = (k.release upto p).bookings := by
  rw [release_bookings, release_bookings, List.filterMap_filterMap]
  refine List.filterMap_congr fun b _ => ?_
  by_cases h : p b = true
  · rw [if_pos h]
    unfold Booking.cut
    split
    · next hb => simp [hb]
    · rfl
  · rw [if_neg h, Option.bind_some, if_neg h]

/-! ### Pipes of a member that close (R341) -/

/-- Every endpoint of core `n` for pipe `p` is closed, and its records are discarded. -/
def State.PipeShut (s : State) (n p : Nat) : Prop :=
  ∀ e ∈ (s.cluster (clusterOf n)).endpoints, s.endpointIs n p e = true → e.closed = true ∧ e.records = []

/-- What the closing of pipes of core `n` leaves alone: of the core all but its closed send sides, of the cluster all but its endpoints, the
teams, and what is closed. -/
structure State.PipesClose (n : Nat) (s t : State) : Prop where
  core : t.core n = { s.core n with closed := (t.core n).closed }
  cluster : t.cluster (clusterOf n) = { s.cluster (clusterOf n) with endpoints := (t.cluster (clusterOf n)).endpoints }
  teams : t.teams = s.teams
  tick : t.tick = s.tick
  closed : ∀ p ∈ (s.core n).closed, p ∈ (t.core n).closed
  shut : ∀ p, s.PipeShut n p → t.PipeShut n p

theorem State.PipesClose.refl (n : Nat) (s : State) : State.PipesClose n s s := ⟨rfl, rfl, rfl, rfl, fun _ h => h, fun _ h => h⟩

theorem State.PipesClose.trans {n : Nat} {a b c : State} (h : State.PipesClose n a b) (h' : State.PipesClose n b c) : State.PipesClose n a c :=
  ⟨by rw [h'.core, h.core], by rw [h'.cluster, h.cluster], h'.teams.trans h.teams, h'.tick.trans h.tick, fun p hp => h'.closed p (h.closed p hp),
    fun p hp => h'.shut p (h.shut p hp)⟩

theorem tellReceiver_agenda (s : State) (n p : Nat) : ∃ l, s.tellReceiver n p = s.withAgenda l := by
  unfold State.tellReceiver
  split
  · exact ⟨_, rfl⟩
  · exact ⟨s.agenda, rfl⟩

theorem tellSenders_agenda (s : State) (n p : Nat) : ∃ l, s.tellSenders n p = s.withAgenda l := by
  unfold State.tellSenders
  split
  · exact ⟨_, rfl⟩
  · exact ⟨s.agenda, rfl⟩

theorem tellClosed_agenda (s : State) (n p : Nat) : ∃ l, s.tellClosed n p = s.withAgenda l := by
  unfold State.tellClosed
  split
  · exact ⟨s.agenda, rfl⟩
  · split
    · exact ⟨s.agenda, rfl⟩
    · refine List.foldlRecOn (motive := fun u => ∃ l, u = s.withAgenda l) _ _ ⟨s.agenda, rfl⟩ ?_
      rintro _ ⟨l, rfl⟩ m _
      obtain ⟨l', h⟩ := tellReceiver_agenda (s.withAgenda l) m.core p
      exact ⟨l', h⟩

/-- The send side of pipe `p` on a core closed. -/
def Core.closing (p : Nat) (c : Core) : Core := { c with closed := if c.closed.contains p then c.closed else c.closed ++ [p] }

theorem closeSend_pipesClose (s : State) (n p : Nat) : State.PipesClose n s (s.closeSend n p) ∧ p ∈ ((s.closeSend n p).core n).closed := by
  obtain ⟨l, hl⟩ := tellClosed_agenda (s.updCore n (Core.closing p)) n p
  have hcore : ((s.updCore n (Core.closing p)).withAgenda l).core n = (s.core n).closing p := State.core_updCore _ _ _
  have hin (q : Nat) (hq : q ∈ (s.core n).closed ∨ q = p) : q ∈ ((s.core n).closing p).closed := by
    unfold Core.closing
    dsimp only
    split
    · next hc => exact hq.elim id fun h => h ▸ List.contains_iff_mem.1 hc
    · simpa using hq
  rw [show s.closeSend n p = (s.updCore n (Core.closing p)).withAgenda l from hl]
  refine ⟨⟨?core, rfl, rfl, rfl, fun q hq => ?closed, fun q hq e he hi => hq e he ?shut⟩, ?self⟩
  case core => rw [hcore]; rfl
  case closed => rw [hcore]; exact hin q (.inl hq)
  case shut =>
    unfold State.endpointIs at hi ⊢
    rw [hcore] at hi
    exact hi
  case self => rw [hcore]; exact hin p (.inr rfl)

/-- An endpoint whose receiver has closed it. -/
def Endpoint.shut (e : Endpoint) : Endpoint := { e with records := [], closed := true }

theorem closeRecv_pipesClose (s : State) (n p : Nat) : State.PipesClose n s (s.closeRecv n p) ∧ (s.closeRecv n p).PipeShut n p := by
  obtain ⟨l, hl⟩ := tellSenders_agenda (s.updEndpoint n p Endpoint.shut) n p
  have hcl : ((s.updEndpoint n p Endpoint.shut).withAgenda l).cluster (clusterOf n) = { s.cluster (clusterOf n) with
      endpoints := (s.cluster (clusterOf n)).endpoints.map (fun e => if s.endpointIs n p e then e.shut else e) } :=
    State.cluster_updCluster s (clusterOf n)
      (fun k => { k with endpoints := k.endpoints.map (fun e => if s.endpointIs n p e then e.shut else e) })
  have his (q : Nat) (e : Endpoint) : ((s.updEndpoint n p Endpoint.shut).withAgenda l).endpointIs n q e = s.endpointIs n q e := rfl
  have hshut (q : Nat) (e : Endpoint) : s.endpointIs n q e.shut = s.endpointIs n q e := rfl
  rw [show s.closeRecv n p = (s.updEndpoint n p Endpoint.shut).withAgenda l from hl]
  refine ⟨⟨rfl, by rw [hcl], rfl, rfl, fun _ h => h, fun q hq e he hi => ?_⟩, fun e he hi => ?_⟩
  all_goals
    rw [hcl] at he
    obtain ⟨e₀, he₀, rfl⟩ := List.mem_map.1 he
    rw [his] at hi
    split at hi
  · rw [if_pos ‹_›]; exact ⟨rfl, rfl⟩
  · rw [if_neg ‹_›]; exact hq e₀ he₀ hi
  · rw [if_pos ‹_›]; exact ⟨rfl, rfl⟩
  · exact absurd hi ‹_›

theorem closePipe_pipesClose (s : State) (n : Nat) (p : PipeRec) : State.PipesClose n s (if p.recv then s.closeRecv n p.num else s.closeSend n p.num) := by
  split
  · exact (closeRecv_pipesClose s n p.num).1
  · exact (closeSend_pipesClose s n p.num).1

/-- Every pipe of a list is closed, on the side that it stands for. -/
theorem closeAll_pipesClose (n : Nat) (l : List PipeRec) : ∀ s : State,
    let t := l.foldl (fun s p => if p.recv then s.closeRecv n p.num else s.closeSend n p.num) s
    State.PipesClose n s t ∧ (∀ p ∈ l, p.recv = false → p.num ∈ (t.core n).closed) ∧ (∀ p ∈ l, p.recv = true → t.PipeShut n p.num) := by
  induction l with
  | nil => exact fun s => ⟨.refl n s, by simp, by simp⟩
  | cons q l ih =>
    intro s
    obtain ⟨hrest, hsend, hrecv⟩ := ih (if q.recv then s.closeRecv n q.num else s.closeSend n q.num)
    refine ⟨(closePipe_pipesClose s n q).trans hrest, fun p hp hf => ?_, fun p hp ht => ?_⟩
    · obtain rfl | hp := List.mem_cons.1 hp
      · exact hrest.closed _ (by rw [hf]; exact (closeSend_pipesClose s n p.num).2)
      · exact hsend p hp hf
    · obtain rfl | hp := List.mem_cons.1 hp
      · exact hrest.shut _ (by rw [ht]; exact (closeRecv_pipesClose s n p.num).2)
      · exact hrecv p hp ht

end Sys2Proof.Machine
end

section
/-! PROOF. The end of a drain (R61-R63, R341, R342, R372, R449): what follows it for each reason of a stop. -/

namespace Sys2Proof.Machine

section
variable {s : State} {n tn : Nat} {t : Team}

/-! ### EXIT (R61, R372) -/

theorem exec_drainEnd_exit (hstop : (s.core n).seq.stop = some .exit) (hteam : (s.core n).team = some tn) (hbusy : (s.core n).busy = true) :
    let u := s.releaseMember n tn s.tick
    exec (.drainEnd n) s = if u.drained n = true then .next (if u.leftOver n then u.leaveDrain n else u.exitDone n) else .next u := by
  show execDrainEnd n s = _
  unfold execDrainEnd
  simp only [hstop, hteam, hbusy, Bool.not_true, Bool.false_eq_true, if_false]

theorem exec_drainEnd_exit_bare (hstop : (s.core n).seq.stop = some .exit) (hteam : (s.core n).team = none) (hbusy : (s.core n).busy = true) :
    exec (.drainEnd n) s = if s.drained n = true then .next (s.exitDone n) else .next s := by
  have hleft : s.leftOver n = false := by unfold State.leftOver; rw [teamOf_none hteam]; exact Bool.and_false _
  show execDrainEnd n s = _
  unfold execDrainEnd
  simp only [hstop, hteam, hbusy, hleft, Bool.not_true, Bool.false_eq_true, if_false]

theorem exec_drainEnd_exit_idle (hstop : (s.core n).seq.stop = some .exit) (hbusy : (s.core n).busy = false) : exec (.drainEnd n) s = .next s := by
  show execDrainEnd n s = _
  unfold execDrainEnd
  simp only [hstop, hbusy, Bool.not_false, if_true]

/-- A core whose drain after EXIT has ended. -/
def Core.exited (c : Core) : Core := { c with seq := { c.seq with mode := .halted, stop := none } }

/-- A team whose member on core `n` has executed EXIT. -/
def Team.memberExits (n : Nat) (t : Team) : Team := t.updMember n (fun m => { m with exited := true, done := true })

theorem exitDone_bare (hteam : (s.core n).team = none) : s.exitDone n = (s.updCore n Core.exited).closeQueries n := by
  have h : (s.updCore n (fun c => { c with seq := { c.seq with mode := .halted, stop := none } })).teamOf n = none :=
    teamOf_none (by rw [State.core_updCore]; exact hteam)
  unfold State.exitDone
  simp only [h]
  rfl

theorem memberExits_exited (n : Nat) (t : Team) : ∀ m ∈ (t.memberExits n).members, m.core = n → m.exited = true := by
  intro m hm hn
  obtain ⟨m₀, _, rfl⟩ := List.mem_map.1 hm
  by_cases h : m₀.core = n ∧ m₀.exited = false
  · rw [if_pos h]
  · rw [if_neg h] at hn ⊢
    exact Bool.of_not_eq_false fun he => h ⟨hn, he⟩

/-- The member's state as its pipes and query contexts close and it counts at team barriers, before its end is told. -/
def State.exitOf (s : State) (n tn : Nat) : State :=
  ((((s.updCore n Core.exited).releaseMember n tn s.tick).closePipes n).closeQueries n).updTeam tn (Team.memberExits n)

theorem exitDone_eq (hteam : s.teamOf n = some (tn, t)) (hlive : ∃ m ∈ t.members, m.core = n ∧ m.exited = false) : s.exitDone n =
    ((((List.range 16).foldl (fun s k => s.settleBar tn k) (s.exitOf n tn)).send .halted (clusterOf n) n).swapDone t.inst).push
      (.instanceComplete t.inst) := by
  obtain ⟨hcore, hfind⟩ := teamOf_eq_some.1 hteam
  have h : (s.updCore n (fun c => { c with seq := { c.seq with mode := .halted, stop := none } })).teamOf n = some (tn, t) :=
    teamOf_eq_some.2 ⟨by rw [State.core_updCore]; exact hcore, hfind⟩
  have hany : t.members.any (fun m => m.core == n && !m.exited) = true := by
    obtain ⟨m, hm, hn, he⟩ := hlive
    exact List.any_eq_true.2 ⟨m, hm, by simp [hn, he]⟩
  unfold State.exitDone
  simp only [h, hany, Bool.not_true, Bool.false_eq_true, if_false]
  rfl

theorem exitDone_tasksStay (hteam : s.teamOf n = some (tn, t)) (hlive : ∃ m ∈ t.members, m.core = n ∧ m.exited = false) :
    (s.exitOf n tn).TasksStay (s.exitDone n) ∧ ((s.exitDone n).cluster (clusterOf n)).toGS.Has (.halted, n) := by
  rw [exitDone_eq hteam hlive]
  have hbars := foldl_tasksStay (fun s k => settleBar_tasksStay s tn k) (List.range 16) (s.exitOf n tn)
  have hsend := send_linksMove ((List.range 16).foldl (fun s k => s.settleBar tn k) (s.exitOf n tn)) .halted (clusterOf n) n
  have hswap := swapDone_tasksStay (((List.range 16).foldl (fun s k => s.settleBar tn k) (s.exitOf n tn)).send .halted (clusterOf n) n) t.inst
  have hpush (u : State) (i : Instr) : u.TasksStay (u.push i) := .of_eq rfl rfl rfl
  refine ⟨((hbars.trans hsend.tasksStay).trans hswap).trans (hpush _ _), ?_⟩
  exact (hpush _ _).cluster _ |>.keeps _ ((hswap.cluster _).keeps _ (send_toGS _ rfl _ _))

/-- What the member leaves behind before its end is told (R61, R341). -/
structure ExitLeaves (s : State) (n tn : Nat) (u : State) : Prop where
  core : u.core n = { (s.core n).exited with closed := (u.core n).closed }
  bookings : (u.cluster (clusterOf n)).bookings =
    ((s.cluster (clusterOf n)).release s.tick (fun b => b.core == n && b.team == tn)).bookings
  queries : ∀ q ∈ (u.cluster (clusterOf n)).queries, q.2.core ≠ n
  closed : ∀ p ∈ ((s.core n).image.map Image.pipes).getD [], p.recv = false → p.num ∈ (u.core n).closed
  shut : ∀ p ∈ ((s.core n).image.map Image.pipes).getD [], p.recv = true → u.PipeShut n p.num

/-- The pipes that a core's image declares (R230). -/
def Core.pipes (c : Core) : List PipeRec := (c.image.map Image.pipes).getD []

theorem closePipes_pipesClose (s : State) (n : Nat) : State.PipesClose n s (s.closePipes n) ∧
    (∀ p ∈ (s.core n).pipes, p.recv = false → p.num ∈ ((s.closePipes n).core n).closed) ∧
    (∀ p ∈ (s.core n).pipes, p.recv = true → (s.closePipes n).PipeShut n p.num) := closeAll_pipesClose n _ s

theorem closeQueries_cluster (s : State) (n : Nat) : (s.closeQueries n).cluster (clusterOf n) =
    { s.cluster (clusterOf n) with queries := (s.cluster (clusterOf n)).queries.filter (fun p => p.2.core ≠ n) } := State.cluster_updCluster _ _ _

theorem releaseMember_cluster (s : State) (n tn upto : Nat) : (s.releaseMember n tn upto).cluster (clusterOf n) =
    (s.cluster (clusterOf n)).release upto (fun b => b.core == n && b.team == tn) := State.cluster_updCluster _ _ _

theorem exitOf_leaves (s : State) (n tn : Nat) : ExitLeaves s n tn (s.exitOf n tn) := by
  have hcore : ((s.updCore n Core.exited).releaseMember n tn s.tick).core n = (s.core n).exited := State.core_updCore _ _ _
  have hcluster := releaseMember_cluster (s.updCore n Core.exited) n tn s.tick
  obtain ⟨hpipes, hsend, hrecv⟩ := closePipes_pipesClose ((s.updCore n Core.exited).releaseMember n tn s.tick) n
  unfold State.exitOf
  generalize ((s.updCore n Core.exited).releaseMember n tn s.tick).closePipes n = b at *
  obtain ⟨l, hl⟩ := updTeam_frame (b.closeQueries n) tn (Team.memberExits n)
  have hb : ((b.closeQueries n).updTeam tn (Team.memberExits n)).core n = b.core n := by rw [hl]; rfl
  have hbcl : ((b.closeQueries n).updTeam tn (Team.memberExits n)).cluster (clusterOf n) =
      { b.cluster (clusterOf n) with queries := (b.cluster (clusterOf n)).queries.filter (fun p => p.2.core ≠ n) } := by
    rw [hl]; exact closeQueries_cluster b n
  rw [hcore] at hsend hrecv
  refine ⟨?core, ?bookings, fun q hq => ?queries, fun p hp hf => ?closed, fun p hp ht e he hi => ?shut⟩
  case core => rw [hb, hpipes.core, hcore]
  case bookings => rw [hbcl, hpipes.cluster, hcluster]; rfl
  case queries =>
    rw [hbcl] at hq
    exact by simpa using (List.mem_filter.1 hq).2
  case closed => rw [hb]; exact hsend p hp hf
  case shut =>
    rw [hbcl] at he
    exact hrecv p hp ht e he (by unfold State.endpointIs at hi ⊢; rwa [hb] at hi)

/-- An EXIT of a team's member whose drain has ended (R61, R341, R372). -/
theorem exitDone_leaves (hteam : s.teamOf n = some (tn, t)) (hlive : ∃ m ∈ t.members, m.core = n ∧ m.exited = false) :
    ∃ u : State, ExitLeaves s n tn u ∧ u.TasksStay (s.exitDone n) ∧ ((s.exitDone n).cluster (clusterOf n)).toGS.Has (.halted, n) ∧
      (∃ t', (s.exitDone n).team tn = some t' ∧ ∀ m ∈ t'.members, m.core = n → m.exited = true) ∧
      .event (.instanceComplete t.inst) ∈ (s.exitDone n).agenda := by
  obtain ⟨hstay, hhalted⟩ := exitDone_tasksStay hteam hlive
  refine ⟨_, exitOf_leaves s n tn, hstay, hhalted, ?_, ?_⟩
  · have hof : (s.exitOf n tn).team tn = some (t.memberExits n) := by
      refine team_updTeam (t := t) ?_ _
      have hteams := (closePipes_pipesClose ((s.updCore n Core.exited).releaseMember n tn s.tick) n).1.teams
      show tfind (((s.updCore n Core.exited).releaseMember n tn s.tick).closePipes n).teams tn = _
      rw [hteams]
      exact (teamOf_eq_some.1 hteam).2
    obtain ⟨y, hy, hm⟩ := hstay.team tn _ hof
    exact ⟨y, hy, hm ▸ memberExits_exited n t⟩
  · rw [exitDone_eq hteam hlive]
    exact List.mem_append_right _ (List.mem_singleton_self _)

/-! ### A pre-emption (R62, R63, R378) -/

theorem updCore_congr {f g : Core → Core} (h : f (s.core n) = g (s.core n)) : s.updCore n f = s.updCore n g := congrArg (s.setCore n) h

theorem exec_drainEnd_preempt (hstop : (s.core n).seq.stop = some .preempt) :
    exec (.drainEnd n) s = if s.drained n && !s.asks n then .next (s.leaveDrain n) else .next s := by
  show execDrainEnd n s = _
  unfold execDrainEnd
  simp only [hstop]

/-- A core that has left its drain for its swap-out. -/
def Core.swappedOut (c : Core) : Core := { c with seq := { c.seq with mode := .swapped, starts := false, stop := none } }

theorem restartTurn_none (h : (s.core n).rollback = none) : s.restartTurn n = s := by unfold State.restartTurn; rw [h]

theorem satisfied_iff (b : Barrier) : b.satisfied = true ↔ b.pend = 0 ∧ b.exp ≤ b.cnt := by simp [Barrier.satisfied]

/-- A core whose refill barrier is satisfied issues again (R375). -/
def Core.restarted (b : Fin 16) (c : Core) : Core :=
  { c with bars := c.bars.set b { c.bars[b] with cnt := c.bars[b].cnt - c.bars[b].exp }, rollback := none, seq := { c.seq with busy := c.seq.wc },
           csr := { c.csr with turnRb := c.csr.turnRb + 1, slackCnt := c.csr.slackCnt + .ofNat 64 (c.seq.wc - c.seq.busy) } }

theorem restartTurn_some {b : Fin 16} {h : Bool} (hr : (s.core n).rollback = some (b, h)) :
    s.restartTurn n = if ((s.core n).bars[b]).pend = 0 ∧ ((s.core n).bars[b]).exp ≤ ((s.core n).bars[b]).cnt then s.updCore n (Core.restarted b) else s := by
  unfold State.restartTurn
  simp only [hr, satisfied_iff]
  rfl

theorem leaveDrain_preempt {f : Core → Core} (hr : s.restartTurn n = s.updCore n f) (hs : (f (s.core n)).seq.stop ≠ some .exit) :
    s.leaveDrain n = s.updCore n (fun c => (f c).swappedOut) := by
  unfold State.leaveDrain
  rw [hr, State.updCore_updCore]
  refine updCore_congr ?_
  simp only [if_neg hs]
  rfl

/-! ### A sibling's trap (R449) -/

theorem exec_drainEnd_sibling {m : Nat} (hstop : (s.core n).seq.stop = some (.sibling m)) (hd : s.drained n = true) :
    exec (.drainEnd n) s = .next (s.siblingHalt n m) := by
  show execDrainEnd n s = _
  unfold execDrainEnd
  simp only [hstop, hd, if_true]

/-- What a trap record leaves: the results in flight have landed, and the cause stands in the record (R444, R445). -/
theorem halt_keeps (c : Core) (cause : Double) (pc addr src : Nat) :
    (c.halt cause pc addr src).x = c.settle.x ∧ (c.halt cause pc addr src).field = c.field := by
  refine ⟨rfl, ?_⟩
  show c.settle.field = c.field
  rw [settle_settles c]

theorem siblingCause {m : Nat} (hm : m < 2 ^ 32) :
    (causeWord ⟨0x39, m, 0⟩ 7 false false).toNat % 65536 = 0x39 ∧ (causeWord ⟨0x39, m, 0⟩ 7 false false).toNat / 2 ^ 32 = m := by
  unfold causeWord
  simp only [BitVec.toNat_ofNat, Bool.false_eq_true, if_false]
  omega

/-! ### A cancel and the end of a context (R50, R439) -/

/-- State `u` asks whether the gang of core `n`'s team is complete. -/
def State.asksComplete (s : State) (n : Nat) (u : State) : State :=
  match s.teamOf n with
  | some (_, t) => u.push (.instanceComplete t.inst)
  | none => u

theorem asksComplete_cores (s : State) (n : Nat) (u : State) : (s.asksComplete n u).cores = u.cores := by
  unfold State.asksComplete
  split <;> rfl

theorem instanceComplete_mem_asksComplete (h : s.teamOf n = some (tn, t)) (u : State) :
    .event (.instanceComplete t.inst) ∈ (s.asksComplete n u).agenda := by
  unfold State.asksComplete
  rw [h]
  exact List.mem_append_right _ (List.mem_singleton_self _)

theorem exec_drainEnd_cancel (hstop : (s.core n).seq.stop = some .cancel) (hd : s.drained n = true) :
    exec (.drainEnd n) s = .next (s.asksComplete n (s.leaveCore n)) := by
  show execDrainEnd n s = _
  unfold execDrainEnd State.asksComplete
  simp only [hstop, hd, if_true]
  cases s.teamOf n <;> rfl

theorem exec_drainEnd_contextEnd (hstop : (s.core n).seq.stop = some .contextEnd) (hd : s.drained n = true) :
    exec (.drainEnd n) s = .next (s.asksComplete n ((s.leaveCore n).updCore n Core.discard)) := by
  show execDrainEnd n s = _
  unfold execDrainEnd State.asksComplete
  simp only [hstop, hd, if_true]
  cases s.teamOf n <;> rfl

/-! ### A rollback (R375) -/

theorem exec_drainEnd_rollback {k : Turn} (hstop : (s.core n).seq.stop = some .rollback) (hturn : (s.core n).turn = some k) :
    exec (.drainEnd n) s = if s.drained n && !s.asks n then .next (s.refillTurn n k) else .next s := by
  show execDrainEnd n s = _
  unfold execDrainEnd
  simp only [hstop, hturn]

/-- A drain that has not ended changes nothing (R63). -/
theorem exec_drainEnd_open {r : Stop} (hstop : (s.core n).seq.stop = some r) (hd : s.drained n = false) (hr : r ≠ .exit)
    (hturn : r = .rollback → (s.core n).turn ≠ none) : exec (.drainEnd n) s = .next s := by
  cases r with
  | exit => exact absurd rfl hr
  | preempt => rw [exec_drainEnd_preempt hstop, hd]; rfl
  | rollback =>
    obtain ⟨k, hk⟩ := Option.ne_none_iff_exists'.1 (hturn rfl)
    rw [exec_drainEnd_rollback hstop hk, hd]; rfl
  | sibling m => show execDrainEnd n s = _; unfold execDrainEnd; simp only [hstop, hd, Bool.false_eq_true, if_false]
  | cancel => show execDrainEnd n s = _; unfold execDrainEnd; simp only [hstop, hd, Bool.false_eq_true, if_false]
  | contextEnd => show execDrainEnd n s = _; unfold execDrainEnd; simp only [hstop, hd, Bool.false_eq_true, if_false]
end

end Sys2Proof.Machine
end

section
/-! PROOF. A member leaves its core (R52, R110, R376, R377): what goes with it, and what stands as it was. -/

namespace Sys2Proof.Machine

/-! ### What stands while tasks are taken off the machine -/

/-- The clock, the instances, the ends of contexts, and where every queue stands. -/
structure State.Stands (s t : State) : Prop where
  tick : t.tick = s.tick
  insts : t.insts = s.insts
  endings : t.endings = s.endings
  queue : ∀ q, (t.queue q).state = (s.queue q).state

theorem State.Stands.refl (s : State) : s.Stands s := ⟨rfl, rfl, rfl, fun _ => rfl⟩

theorem State.Stands.trans {a b c : State} (h : a.Stands b) (h' : b.Stands c) : a.Stands c :=
  ⟨h'.tick.trans h.tick, h'.insts.trans h.insts, h'.endings.trans h.endings, fun q => (h'.queue q).trans (h.queue q)⟩

theorem foldl_stands {α : Type} {f : State → α → State} (hf : ∀ (s : State) (x : α), s.Stands (f s x)) (l : List α) (s : State) :
    s.Stands (l.foldl f s) :=
  List.foldlRecOn (motive := s.Stands) _ _ (.refl s) fun _ h x _ => h.trans (hf _ x)

theorem State.LinksMove.stands {s t : State} (h : s.LinksMove t) : s.Stands t := by
  rw [h.same]; exact ⟨rfl, rfl, rfl, fun _ => rfl⟩

theorem updCore_stands (s : State) (n : Nat) (f : Core → Core) : s.Stands (s.updCore n f) := ⟨rfl, rfl, rfl, fun _ => rfl⟩

theorem updCluster_stands (s : State) (k : Nat) (f : Cluster → Cluster) : s.Stands (s.updCluster k f) := ⟨rfl, rfl, rfl, fun _ => rfl⟩

theorem updTeam_stands (s : State) (tn : Nat) (f : Team → Team) : s.Stands (s.updTeam tn f) := by
  obtain ⟨l, hl⟩ := updTeam_frame s tn f
  rw [hl]; exact ⟨rfl, rfl, rfl, fun _ => rfl⟩

theorem push_stands (s : State) (i : Instr) : s.Stands (s.push i) := ⟨rfl, rfl, rfl, fun _ => rfl⟩

theorem event_stands (s : State) (code sev : Nat) (ctx : Option Nat) (u n sub a d d2 : Nat) : s.Stands (s.event code sev ctx u n sub a d d2) :=
  ⟨rfl, rfl, rfl, fun _ => rfl⟩

theorem releaseTeam_stands (s : State) (tn upto : Nat) : s.Stands (s.releaseTeam tn upto) := ⟨rfl, rfl, rfl, fun _ => rfl⟩

theorem dropStakes_stands (s : State) (tn : Nat) : s.Stands (s.dropStakes tn) := ⟨rfl, rfl, rfl, fun _ => rfl⟩

theorem updHolder_stands (s : State) (n : Nat) (f : Core → Core) : s.Stands (s.updHolder n f) := by
  unfold State.updHolder
  split
  · exact updCore_stands s n f
  · exact updTeam_stands s _ _

/-- A change of every queue that leaves each where it stands. -/
theorem queue_tmap_state {f : Nat → Queue → Queue} (hf : ∀ k x, (f k x).state = x.state) (l : Tbl Queue) (q : Nat) :
    (tget (Queue.init q) (tmap f l) q).state = (tget (Queue.init q) l q).state := by
  rw [tget_eq, tget_eq, tfind_tmap]
  cases tfind l q with
  | none => rfl
  | some x => exact hf q x

theorem dropReservation_stands (s : State) (r : Reservation) : s.Stands (s.dropReservation r) := by
  have hholder (u : State) : u.Stands (match r.core with
      | some n => u.updHolder n (fun c => { c with handles := c.handles.filter (fun h => h ≠ r.handle) })
      | none => u) := by
    split
    · exact updHolder_stands u _ _
    · exact .refl u
  refine ((releaseTeam_stands s r.team s.tick).trans (hholder _)).trans ⟨rfl, rfl, rfl, fun q => ?_⟩
  exact queue_tmap_state (fun _ x => by split <;> rfl) _ q

theorem dropReservations_stands (s : State) (p : Reservation → Bool) : s.Stands (s.dropReservations p) :=
  foldl_stands dropReservation_stands _ s

theorem dropRequests_stands (s : State) (n : Nat) : s.Stands (s.dropRequests n) :=
  (updCluster_stands s _ _).trans (dropReservations_stands _ _)

theorem updLocal_stands (s : State) (n : Nat) (m : Bool) (f : Local → Local) : s.Stands (s.updLocal n m f) := by
  unfold State.updLocal
  split
  · exact updCluster_stands s _ _
  · exact updCore_stands s _ _

theorem dropRegion_stands (s : State) (n : Nat) (r : Region) : s.Stands (s.dropRegion n r) := by
  unfold State.dropRegion
  split
  · exact .refl s
  · dsimp only
    split
    · exact updLocal_stands _ _ _ _
    · exact (event_stands ..).trans (updLocal_stands _ _ _ _)

/-! ### The core that a member leaves -/

/-- `c'` differs from `c` in its bookings by BOOK and its field only. -/
def Core.HoldsMove (c c' : Core) : Prop := c' = { c with handles := c'.handles, field := c'.field }

theorem Core.HoldsMove.refl (c : Core) : c.HoldsMove c := rfl

theorem Core.HoldsMove.trans {a b c : Core} (h : a.HoldsMove b) (h' : b.HoldsMove c) : a.HoldsMove c := by
  unfold Core.HoldsMove at *
  rw [h', h]

section
variable (n : Nat)

theorem foldl_holdsMove {α : Type} {f : State → α → State} (hf : ∀ (s : State) (x : α), (s.core n).HoldsMove ((f s x).core n)) (l : List α)
    (s : State) : (s.core n).HoldsMove ((l.foldl f s).core n) :=
  List.foldlRecOn (motive := fun t : State => (s.core n).HoldsMove (t.core n)) _ _ (.refl _) fun _ h x _ => h.trans (hf _ x)

theorem updCore_holdsMove (s : State) (m : Nat) {f : Core → Core} (hf : ∀ c : Core, c.HoldsMove (f c)) :
    (s.core n).HoldsMove ((s.updCore m f).core n) := by
  by_cases h : n = m
  · rw [h, State.core_updCore]; exact hf _
  · rw [State.core_updCore_other _ _ h]; exact .refl _

theorem dropReservation_holdsMove (s : State) (r : Reservation) : (s.core n).HoldsMove ((s.dropReservation r).core n) := by
  have hholder (u : State) : (u.core n).HoldsMove ((match r.core with
      | some m => u.updHolder m (fun c => { c with handles := c.handles.filter (fun h => h ≠ r.handle) })
      | none => u : State).core n) := by
    split
    · next m _ =>
      unfold State.updHolder
      split
      · exact updCore_holdsMove n u m fun _ => rfl
      · obtain ⟨l, hl⟩ := updTeam_frame u ((m - 2 ^ 20) / 64) (fun t => { t with members := t.members.map (fun x =>
          if x.rank = (m - 2 ^ 20) % 64 then { x with saved := x.saved.map (fun v => { v with core :=
            { v.core with handles := v.core.handles.filter (fun h => h ≠ r.handle) } }) } else x) })
        rw [hl]; exact .refl _
    · exact .refl _
  exact hholder (s.releaseTeam r.team s.tick)

theorem dropRequests_holdsMove (s : State) (m : Nat) : (s.core n).HoldsMove ((s.dropRequests m).core n) :=
  foldl_holdsMove n (dropReservation_holdsMove n) _ (s.updCluster _ _)

theorem dropRegion_holdsMove (s : State) (m : Nat) (r : Region) : (s.core n).HoldsMove ((s.dropRegion m r).core n) := by
  have hlocal (u : State) (b : Bool) (f : Local → Local) : (u.core n).HoldsMove ((u.updLocal m b f).core n) := by
    unfold State.updLocal
    split
    · exact .refl _
    · exact updCore_holdsMove n u m fun _ => rfl
  unfold State.dropRegion
  split
  · exact .refl _
  · dsimp only
    split
    · exact hlocal _ _ _
    · exact Core.HoldsMove.trans (b := s.core n) rfl (hlocal (s.event ..) _ _)
end

/-- A core that holds no regions. -/
def Core.noRegions (c : Core) : Core := { c with rgn := Vector.replicate 16 Region.init }

/-- What lay in the regions of core `n`, but for those that another core holds, is no more (R110). -/
def State.dropRegions (s : State) (n : Nat) : State :=
  ((s.core n).rgn.toList.filter (fun r => r.valid)).foldl (fun s r => if r.commons && s.sharedBy n r then s else s.dropRegion n r) s

theorem releaseRegions_eq (s : State) (n : Nat) : s.releaseRegions n = (s.dropRegions n).updCore n Core.noRegions := rfl

theorem dropRegions_holdsMove (s : State) (n : Nat) : (s.core n).HoldsMove ((s.dropRegions n).core n) := by
  refine foldl_holdsMove n (fun u r => ?_) _ s
  split
  · exact .refl _
  · exact dropRegion_holdsMove n u n r

theorem dropRegions_stands (s : State) (n : Nat) : s.Stands (s.dropRegions n) := by
  refine foldl_stands (fun u r => ?_) _ s
  split
  · exact .refl _
  · exact dropRegion_stands u n r

/-- The bookings of the member that a core's task is. -/
def State.releaseTask (s : State) (n : Nat) : State :=
  match (s.core n).team with
  | some t => s.releaseMember n t s.tick
  | none => s

theorem releaseTask_clusters (s : State) (n : Nat) : ∃ k, s.releaseTask n = { s with clusters := k } := by
  unfold State.releaseTask
  split
  · exact ⟨_, rfl⟩
  · exact ⟨s.clusters, rfl⟩

/-- A state before a core is vacated: what the member held there is gone. -/
def State.cleared (s : State) (n : Nat) : State := (((s.releaseTask n).closeQueries n).dropRequests n).releaseRegions n

theorem cleared_stands (s : State) (n : Nat) : s.Stands (s.cleared n) := by
  obtain ⟨k, hk⟩ := releaseTask_clusters s n
  have h : s.Stands (s.releaseTask n) := by rw [hk]; exact ⟨rfl, rfl, rfl, fun _ => rfl⟩
  exact ((h.trans (updCluster_stands _ _ _)).trans (dropRequests_stands _ n)).trans ((dropRegions_stands _ n).trans (updCore_stands _ n Core.noRegions))

theorem cleared_core (s : State) (n : Nat) : ∃ c : Core, (s.core n).HoldsMove c ∧ (s.cleared n).core n = c.noRegions := by
  obtain ⟨k, hk⟩ := releaseTask_clusters s n
  have h : ((s.releaseTask n).closeQueries n).core n = s.core n := by rw [hk]; rfl
  exact ⟨_, (h ▸ dropRequests_holdsMove n ((s.releaseTask n).closeQueries n) n).trans (dropRegions_holdsMove _ n), State.core_updCore _ _ _⟩

theorem leaveCore_eq (s : State) (n : Nat) :
    ∃ k m, s.leaveCore n = ({ s.cleared n with clusters := k, monitors := m } : State).updCore n Core.vacate := ⟨_, _, rfl⟩

theorem leaveCore_core (s : State) (n : Nat) : ∃ c : Core, (s.core n).HoldsMove c ∧ (s.leaveCore n).core n = c.noRegions.vacate := by
  obtain ⟨c, hc, h⟩ := cleared_core s n
  obtain ⟨k, m, he⟩ := leaveCore_eq s n
  refine ⟨c, hc, ?_⟩
  rw [he, State.core_updCore]
  exact congrArg Core.vacate h

theorem leaveCore_stands (s : State) (n : Nat) : s.Stands (s.leaveCore n) := by
  obtain ⟨k, m, he⟩ := leaveCore_eq s n
  have h := cleared_stands s n
  rw [he]
  generalize s.cleared n = u at h
  exact h.trans ⟨rfl, rfl, rfl, fun _ => rfl⟩

/-- A core that a member has left (R51, R52, R55). -/
theorem vacate_leaves (c : Core) : c.vacate.seq.mode = (if c.seq.shadow then .staged else .idle) ∧ c.vacate.team = none ∧ c.vacate.seq.stop = none ∧
    c.vacate.queue0 = [] ∧ c.vacate.queue1 = [] ∧ c.vacate.rgn = c.rgn := by
  have h := settle_settles c
  have hshadow : c.settle.seq.shadow = c.seq.shadow := by rw [h]
  have hrgn : c.settle.rgn = c.rgn := by rw [h]
  exact ⟨congrArg (fun b => if b = true then Mode.staged else Mode.idle) hshadow, rfl, rfl, rfl, rfl, hrgn⟩

/-- A core whose member has left it with its task taken off. -/
theorem leaveCore_leaves (s : State) (n : Nat) : ((s.leaveCore n).core n).seq.mode = (if (s.core n).seq.shadow then .staged else .idle) ∧
    ((s.leaveCore n).core n).team = none ∧ ((s.leaveCore n).core n).seq.stop = none ∧ ((s.leaveCore n).core n).queue0 = [] ∧
    ((s.leaveCore n).core n).queue1 = [] ∧ ∀ k : Fin 16, ((s.leaveCore n).core n).rgn[k] = Region.init := by
  obtain ⟨c, hc, h⟩ := leaveCore_core s n
  obtain ⟨hmode, hteam, hstop, hq0, hq1, hrgn⟩ := vacate_leaves c.noRegions
  have hshadow : c.noRegions.seq.shadow = (s.core n).seq.shadow := by rw [hc]; rfl
  rw [h]
  refine ⟨hmode.trans (by rw [hshadow]), hteam, hstop, hq0, hq1, fun k => ?_⟩
  exact (congrArg (fun v : Vector Region 16 => v[k]) hrgn).trans (Vector.getElem_replicate _)

end Sys2Proof.Machine
end

section
/-! PROOF. Events of a core (R61-R63, R341, R342, R372, R375, R378, R439, R449): the clauses on a stop, a drain and a rollback, put together. -/

namespace Sys2Proof.Machine

section
variable {s : State} {n : Nat}

/-! ### The address of the next bundle (R213, R448) -/

theorem paddedTo_at {code : List Byte} {len pc : Nat} (h : code.getD pc 0 ≠ 0 ∨ len ≤ pc) (k : Nat) : paddedTo code len k pc = pc := by
  cases k with
  | zero => rfl
  | succ k => exact if_neg fun ⟨hlt, h0⟩ => h.elim (· h0) (Nat.not_le.2 hlt)

theorem nextPc_padding {c : Core} (hpc : c.seq.pc < c.seq.codeLen) (h0 : c.seq.code.getD c.seq.pc 0 = 0)
    (h : c.seq.code.getD ((c.seq.pc / 64 + 1) * 64) 0 ≠ 0) : c.nextPc = (c.seq.pc / 64 + 1) * 64 :=
  (if_pos ⟨hpc, h0⟩).trans (paddedTo_at (.inl h) 4096)

/-! ### A stop (R50, R449) -/

/-- A core that stops issuing for a reason. -/
def Core.stopping (r : Stop) (c : Core) : Core :=
  { c with seq := { c.seq with stop := some r, waitt := (if r = .preempt then c.seq.waitt else none) },
           rollback := (match r with | .preempt => c.rollback | .rollback => c.rollback | _ => none) }

/-- A core with a task under way that drains for nothing yet stops. -/
theorem stopCore_free (hstop : (s.core n).seq.stop = none) (hbusy : (s.core n).busy = true) (r : Stop) :
    ∃ m, s.stopCore n r = (({ s with monitors := m } : State).updCore n (Core.stopping r)).push (.drainEnd n) := by
  unfold State.stopCore
  simp only [hstop, hbusy, Bool.false_eq_true, if_false, Bool.and_true]
  split
  · exact ⟨_, if_pos hbusy⟩
  · exact ⟨s.monitors, rfl⟩

theorem stopCore_free_core (hstop : (s.core n).seq.stop = none) (hbusy : (s.core n).busy = true) (r : Stop) :
    (∀ k, k ≠ n → (s.stopCore n r).core k = s.core k) ∧ (s.stopCore n r).agenda = s.agenda ++ [.event (.drainEnd n)] ∧
      (s.stopCore n r).core n = (s.core n).stopping r := by
  obtain ⟨m, h⟩ := stopCore_free hstop hbusy r
  rw [h]
  exact ⟨fun k hk => State.core_updCore_other _ _ hk, rfl, State.core_updCore _ _ _⟩

theorem exec_siblingStop {m tn : Nat} {t : Team} (hteam : s.teamOf n = some (tn, t)) (hm : n ≠ m) (hmode : (s.core n).seq.mode ≠ .swapped) :
    ∃ l, exec (.siblingStop n m) s = .next (({ s with teams := l } : State).stopCore n (.sibling m)) := by
  obtain ⟨l, hl⟩ := updTeam_frame s tn (fun t => if t.state = .stopping then { t with state := .running } else t)
  refine ⟨l, ?_⟩
  show execSiblingStop n m s = _
  unfold execSiblingStop
  simp only [hteam, if_neg hm, hl]
  exact congrArg _ (if_neg hmode)

/-! ### Rollback of a turn (R375, R378, R438) -/

theorem exec_turnRollback {y : Double} (hbusy : (s.core n).busy = true) (hturn : (s.core n).turn.isSome = true)
    (hstop : (s.core n).seq.stop = none ∨ (s.core n).seq.stop = some .preempt) (hroll : (s.core n).rollback = none) :
    exec (.turnRollback n y) s = .next
      ((s.updCore n (fun c => { c with seq := { c.seq with busy := c.seq.wc, waitt := none, stop := none } })).stopCore n .rollback) := by
  have h : ((s.core n).busy && (s.core n).turn.isSome && ((s.core n).seq.stop.isNone || decide ((s.core n).seq.stop = some .preempt)) &&
      (s.core n).rollback.isNone) = true := by
    rw [hbusy, hturn, hroll]
    obtain h | h := hstop <;> rw [h] <;> rfl
  exact if_pos h

/-- The team of core `n` is being pre-empted (R378). -/
def State.stopsTeam (s : State) (n : Nat) : Bool := (s.teamOf n).any (fun p => decide (p.2.state = .stopping))

/-- A core that its turn has been restored on, and whose refill stands in the queue (R375). -/
def Core.refilling (k : Turn) (yields : Bool) (c : Core) : Core :=
  let r := c.restoreTurn k
  let x := refillCommand r k
  { (r.addPend x.bar x.weight).enqueue k.engine x with
    seq := { r.seq with stop := if yields then some .preempt else none }, turn := some { k with rolled := k.rolled + 1 },
    rollback := some (k.bar, decide (r.seq.mode = .atHeadland)) }

theorem enqueue_seq (c : Core) (e : Fin 2) (x : Command) : (c.enqueue e x).seq = c.seq := by unfold Core.enqueue; dsimp only; split <;> rfl

theorem refillTurn_eq (k : Turn) : s.refillTurn n k =
    (s.updCore n (Core.refilling k (s.stopsTeam n))).withAgenda (s.agenda ++ if s.stopsTeam n then [.event (.drainEnd n)] else []) := by
  have hcore : (s.updCore n (fun c =>
      let c := c.restoreTurn k
      let x := refillCommand c k
      let c := (c.addPend x.bar x.weight).enqueue k.engine x
      { c with seq := { c.seq with stop := if s.stopsTeam n then some .preempt else none }, turn := some { k with rolled := k.rolled + 1 },
               rollback := some (k.bar, decide (c.seq.mode = .atHeadland)) })) = s.updCore n (Core.refilling k (s.stopsTeam n)) := by
    refine updCore_congr ?_
    dsimp only
    rw [enqueue_seq]
    rfl
  refine (congrArg (fun u : State => if s.stopsTeam n = true then u.push (.drainEnd n) else u) hcore).trans ?_
  split
  · rfl
  · rw [List.append_nil]; rfl

end
end Sys2Proof.Machine
end

section
/-! PROOF. Events of a core (R61-R63, R341, R342, R372, R375, R378, R439, R449): each clause, and O51. -/

namespace Sys2Proof.Machine

section
variable {s : State} {n : Nat}

/-! ### The end of an EXIT (R61, R341, R342) -/

theorem exec_drainEnd_exit_open (hstop : (s.core n).seq.stop = some .exit) (hteam : (s.core n).team = none) (hd : s.drained n = false) :
    exec (.drainEnd n) s = .next s := by
  cases hbusy : (s.core n).busy with
  | false => exact exec_drainEnd_exit_idle hstop hbusy
  | true => rw [exec_drainEnd_exit_bare hstop hteam hbusy, hd]; rfl

theorem mem_releaseMember (s : State) (n tn : Nat) (b : Booking) : b ∈ ((s.releaseMember n tn s.tick).cluster (clusterOf n)).bookings ↔
    ∃ b' ∈ (s.cluster (clusterOf n)).bookings,
      if b'.core = n ∧ b'.team = tn then b'.kind = .anchored ∧ b'.first ≤ s.tick ∧ b = { b' with last := min b'.last s.tick, left := 0 }
      else b = b' := by
  rw [releaseMember_cluster, mem_release]
  simp only [Bool.and_eq_true, beq_iff_eq]

/-- The endpoints of the pipes that a member has closed on its side as a receiver, as `State.endpoint` finds them. -/
theorem State.PipeShut.endpoint {p : Nat} {e : Endpoint} (h : s.PipeShut n p) (he : s.endpoint n p = some e) : e.closed = true ∧ e.records = [] :=
  h e (List.mem_of_find?_eq_some he) (List.find?_some he)

theorem State.TasksStay.pipeShut {v w : State} (h : v.TasksStay w) {p : Nat} (hs : v.PipeShut n p) : w.PipeShut n p := by
  intro e he hi
  have hteam : (w.core n).team = (v.core n).team := by rw [h.core n]
  rw [(h.cluster (clusterOf n)).same] at he
  refine hs e he ?_
  unfold State.endpointIs at hi ⊢
  rwa [hteam] at hi

theorem exec_drainEnd_exit_member {tn : Nat} {t : Team} (hstop : (s.core n).seq.stop = some .exit) (hteam : s.teamOf n = some (tn, t))
    (hbusy : (s.core n).busy = true) :
    let u := s.releaseMember n tn s.tick
    u.drained n = true → u.leftOver n = false → (∃ m ∈ t.members, m.core = n ∧ m.exited = false) →
      ∃ w, exec (.drainEnd n) s = .next w ∧ (w.core n).seq.mode = .halted ∧ (w.core n).seq.stop = none ∧ (w.core n).x = (s.core n).x ∧
        (w.core n).csr = (s.core n).csr ∧ (w.core n).field = (s.core n).field ∧
        (w.cluster (clusterOf n)).bookings = (u.cluster (clusterOf n)).bookings ∧
        (∀ p ∈ ((s.core n).image.map Image.pipes).getD [], p.recv = false → p.num ∈ (w.core n).closed) ∧
        (∀ p ∈ ((s.core n).image.map Image.pipes).getD [], p.recv = true → ∀ e, w.endpoint n p.num = some e → e.closed = true ∧ e.records = []) ∧
        (∀ q ∈ (w.cluster (clusterOf n)).queries, q.2.core ≠ n) ∧
        (∃ t', w.team tn = some t' ∧ ∀ m ∈ t'.members, m.core = n → m.exited = true) ∧
        ((MsgKind.halted, n) ∈ (w.cluster (clusterOf n)).toGS.inbox ∨ (MsgKind.halted, n) ∈ (w.cluster (clusterOf n)).toGS.held) ∧
        .event (.instanceComplete t.inst) ∈ w.agenda := by
  intro u hd hl hlive
  obtain ⟨v, hv, hstay, hhalted, hexited, hcomplete⟩ := exitDone_leaves (s := u) hteam hlive
  have hexec : exec (.drainEnd n) s = .next (u.exitDone n) := by
    refine (exec_drainEnd_exit hstop (teamOf_eq_some.1 hteam).1 hbusy).trans ?_
    rw [if_pos hd, hl]; rfl
  have hcore : (u.exitDone n).core n = { (s.core n).exited with
      closed := ((u.exitDone n).core n).closed, bars := ((u.exitDone n).core n).bars, queue0 := ((u.exitDone n).core n).queue0,
      queue1 := ((u.exitDone n).core n).queue1 } := by
    rw [hstay.core n, hv.core]; rfl
  have hclosed : ((u.exitDone n).core n).closed = (v.core n).closed := by rw [hstay.core n]
  have hcluster := (hstay.cluster (clusterOf n)).same
  refine ⟨_, hexec, by rw [hcore]; rfl, by rw [hcore]; rfl, by rw [hcore]; rfl, by rw [hcore]; rfl, by rw [hcore]; rfl, ?bookings,
    fun p hp hf => hclosed ▸ hv.closed p hp hf, fun p hp ht e he => (hstay.pipeShut (hv.shut p hp ht)).endpoint he, ?queries, hexited, hhalted, hcomplete⟩
  case bookings =>
    rw [hcluster]
    show (v.cluster (clusterOf n)).bookings = _
    rw [hv.bookings, releaseMember_cluster]
    exact release_release_bookings _ _ _
  case queries => rw [hcluster]; exact hv.queries

theorem exec_drainEnd_exit_bareHalts (hstop : (s.core n).seq.stop = some .exit) (hteam : (s.core n).team = none) (hbusy : (s.core n).busy = true)
    (hd : s.drained n = true) : ∃ t, exec (.drainEnd n) s = .next t ∧ (∀ m, m ≠ n → t.core m = s.core m) ∧ t.core n = (s.core n).exited := by
  refine ⟨_, (exec_drainEnd_exit_bare hstop hteam hbusy).trans (if_pos hd), fun m hm => ?_, ?_⟩
  all_goals rw [exitDone_bare hteam]
  · exact State.core_updCore_other _ _ hm
  · exact State.core_updCore _ _ _

/-! ### A pre-emption (R62, R378) -/

theorem leaveDrain_stays (hr : s.restartTurn n = s) (hs : (s.core n).seq.stop ≠ some .exit) : s.leaveDrain n = s.updCore n Core.swappedOut := by
  unfold State.leaveDrain
  rw [hr]
  refine updCore_congr ?_
  simp only [if_neg hs]
  rfl

theorem exec_drainEnd_preempted (hstop : (s.core n).seq.stop = some .preempt) (hd : s.drained n = true) (hq : s.asks n = false) :
    exec (.drainEnd n) s = .next (s.leaveDrain n) := by
  rw [exec_drainEnd_preempt hstop, hd, hq]; rfl

theorem exec_drainEnd_preempt_rolled {b : Fin 16} {h : Bool} (hstop : (s.core n).seq.stop = some .preempt) (hd : s.drained n = true)
    (hq : s.asks n = false) (hr : (s.core n).rollback = some (b, h)) :
    ∃ u, exec (.drainEnd n) s = .next u ∧ (∀ m, m ≠ n → u.core m = s.core m) ∧ (u.core n).seq.mode = .swapped ∧ (u.core n).seq.stop = none ∧
      (u.core n).x = (s.core n).x ∧ (u.core n).field = (s.core n).field ∧
      ((u.core n).rollback = none ↔ ((s.core n).bars[b]).pend = 0 ∧ ((s.core n).bars[b]).exp ≤ ((s.core n).bars[b]).cnt) := by
  have hexit : (s.core n).seq.stop ≠ some .exit := by rw [hstop]; simp
  refine ⟨_, exec_drainEnd_preempted hstop hd hq, ?_⟩
  have hrestart := restartTurn_some hr
  split at hrestart
  · next hsat =>
    rw [leaveDrain_preempt hrestart hexit, State.core_updCore]
    exact ⟨fun m hm => State.core_updCore_other _ _ hm, rfl, rfl, rfl, rfl, iff_of_true rfl hsat⟩
  · next hsat =>
    rw [leaveDrain_stays hrestart hexit, State.core_updCore]
    refine ⟨fun m hm => State.core_updCore_other _ _ hm, rfl, rfl, rfl, rfl, iff_of_false ?_ hsat⟩
    show (s.core n).rollback ≠ none
    rw [hr]; simp

/-! ### A cancel and the end of a context (R50, R439) -/

theorem core_of_cores {t : State} (h : t.cores = s.cores) (n : Nat) : t.core n = s.core n := congrArg (fun l => tget Core.init l n) h

theorem exec_drainEnd_discharge (hstop : (s.core n).seq.stop = some .cancel ∨ (s.core n).seq.stop = some .contextEnd) (hd : s.drained n = true) :
    ∃ u, exec (.drainEnd n) s = .next u ∧ (u.core n).seq.mode = (if (s.core n).seq.shadow then .staged else .idle) ∧ (u.core n).team = none ∧
      (u.core n).seq.stop = none ∧ (u.core n).queue0 = [] ∧ (u.core n).queue1 = [] ∧ (∀ k : Fin 16, (u.core n).rgn[k] = Region.init) ∧
      (∀ tn t, s.teamOf n = some (tn, t) → .event (.instanceComplete t.inst) ∈ u.agenda) ∧
      ((s.core n).seq.stop = some .contextEnd → (u.core n).x = Scalar.init ∧ (u.core n).vec = VecUnit.init ∧ (u.core n).mat = Matrix.init ∧
        ∀ k : Fin 16, (u.core n).ring k = Ring.init ∧ (u.core n).bars[k] = Barrier.init) := by
  obtain ⟨hmode, hteam, hst, hq0, hq1, hrgn⟩ := leaveCore_leaves s n
  obtain hc | hc := hstop
  · have hcore := core_of_cores (asksComplete_cores s n (s.leaveCore n)) n
    refine ⟨_, exec_drainEnd_cancel hc hd, ?_⟩
    rw [hcore]
    refine ⟨hmode, hteam, hst, hq0, hq1, hrgn, fun tn t h => instanceComplete_mem_asksComplete h _, fun h => ?_⟩
    rw [hc] at h; cases h
  · have hcore := (core_of_cores (asksComplete_cores s n ((s.leaveCore n).updCore n Core.discard)) n).trans (State.core_updCore _ _ _)
    refine ⟨_, exec_drainEnd_contextEnd hc hd, ?_⟩
    rw [hcore]
    generalize (s.leaveCore n).core n = c at *
    exact ⟨hmode, hteam, hst, hq0, hq1, hrgn, fun tn t h => instanceComplete_mem_asksComplete h _,
      fun _ => ⟨rfl, rfl, rfl, fun k => ⟨Vector.getElem_replicate _, Vector.getElem_replicate _⟩⟩⟩

/-! ### A sibling's trap (R449) -/

/-- A core that halts for the trap of member `m` of its team. -/
def Core.haltedBy (m pc : Nat) (c : Core) : Core := c.halt (causeWord ⟨0x39, m, 0⟩ 7 false false) pc 0 0

/-- The state in which a core has halted for a sibling's trap, with its record in the log. -/
def State.siblingTrap (s : State) (n m : Nat) : State :=
  (s.updCore n (Core.haltedBy m (s.core n).nextPc)).record 0x39 0 3
    (some ((s.updCore n (Core.haltedBy m (s.core n).nextPc)).core n).csr.ctxId.toNat) 0 n 7 0 (s.core n).nextPc 0

theorem siblingHalt_eq (s : State) (n m : Nat) : s.siblingHalt n m = match s.teamOf n with
    | some (_, t) => ((s.siblingTrap n m).send .halted (clusterOf n) n).push (.instanceComplete t.inst)
    | none => s.siblingTrap n m := by
  have hteam : (s.siblingTrap n m).teamOf n = s.teamOf n := by
    have h : ((s.siblingTrap n m).core n).team = (s.core n).team := by
      show ((s.updCore n (Core.haltedBy m (s.core n).nextPc)).core n).team = _
      rw [State.core_updCore]
      show (s.core n).settle.team = _
      rw [settle_settles (s.core n)]
    unfold State.teamOf
    rw [h]; rfl
  unfold State.siblingHalt
  show (match (s.siblingTrap n m).teamOf n with
    | some (_, t) => ((s.siblingTrap n m).send .halted (clusterOf n) n).push (.instanceComplete t.inst)
    | none => s.siblingTrap n m) = _
  rw [hteam]

theorem siblingHalt_cores (s : State) (n m : Nat) : (∀ k, k ≠ n → (s.siblingHalt n m).core k = s.core k) ∧
    (s.siblingHalt n m).core n = (s.core n).haltedBy m (s.core n).nextPc := by
  have hcores : (s.siblingHalt n m).cores = (s.updCore n (Core.haltedBy m (s.core n).nextPc)).cores := by
    rw [siblingHalt_eq]; split <;> rfl
  have hcore (k : Nat) : (s.siblingHalt n m).core k = (s.updCore n (Core.haltedBy m (s.core n).nextPc)).core k :=
    core_of_cores hcores k
  exact ⟨fun k hk => (hcore k).trans (State.core_updCore_other _ _ hk), (hcore n).trans (State.core_updCore _ _ _)⟩

theorem exec_drainEnd_siblingHalts {m : Nat} (hstop : (s.core n).seq.stop = some (.sibling m)) (hd : s.drained n = true) (hm : m < 2 ^ 32) :
    ∃ t, exec (.drainEnd n) s = .next t ∧ (∀ k, k ≠ n → t.core k = s.core k) ∧ (t.core n).seq.mode = .halted ∧
      (t.core n).csr.trapCause.toNat % 65536 = 0x39 ∧ (t.core n).csr.trapCause.toNat / 2 ^ 32 = m ∧
      (t.core n).csr.trapPc = .ofNat 64 (s.core n).nextPc ∧ (t.core n).x = (s.core n).settle.x ∧ (t.core n).field = (s.core n).field ∧
      (∀ tn x, s.teamOf n = some (tn, x) →
        ((MsgKind.halted, n) ∈ (t.cluster (clusterOf n)).toGS.inbox ∨ (MsgKind.halted, n) ∈ (t.cluster (clusterOf n)).toGS.held) ∧
          .event (.instanceComplete x.inst) ∈ t.agenda) := by
  obtain ⟨hother, hcore⟩ := siblingHalt_cores s n m
  obtain ⟨hcode, hinfo⟩ := siblingCause hm
  obtain ⟨hx, hfield⟩ := halt_keeps (s.core n) (causeWord ⟨0x39, m, 0⟩ 7 false false) (s.core n).nextPc 0 0
  refine ⟨_, exec_drainEnd_sibling hstop hd, hother, ?_⟩
  rw [hcore]
  refine ⟨rfl, hcode, hinfo, rfl, hx, hfield, fun tn x h => ?_⟩
  rw [siblingHalt_eq, h]
  exact ⟨send_toGS (s.siblingTrap n m) rfl (clusterOf n) n, List.mem_append_right _ (List.mem_singleton_self _)⟩

/-! ### The refill of a rolled turn (R375) -/

theorem enqueue_eq (c : Core) (e : Fin 2) (x : Command) :
    ∃ q0 q1, c.enqueue e x = { c with nextCmd := c.nextCmd + 1, queue0 := q0, queue1 := q1 } := by
  unfold Core.enqueue
  dsimp only
  split <;> exact ⟨_, _, rfl⟩

theorem queue_enqueue (c : Core) (e : Fin 2) (x : Command) : (c.enqueue e x).queue e = c.queue e ++ [x] := by
  unfold Core.enqueue Core.queue
  dsimp only
  split <;> rfl

/-- Weight that is added to a barrier leaves its count and what it expects. -/
theorem addPend_bar (c : Core) (b i : Fin 16) (w : Nat) :
    ((c.addPend (some b) w).bars[i]).exp = (c.bars[i]).exp ∧ ((c.addPend (some b) w).bars[i]).cnt = (c.bars[i]).cnt := by
  show ((c.bars.set b { c.bars[b] with pend := (c.bars[b].pend + w) % 2 ^ 64 })[i]).exp = _ ∧ _
  by_cases h : i = b
  · subst h
    simp [Core.addPend]
  · have hne : b.val ≠ i.val := fun he => h (Fin.ext he.symm)
    simp [Core.addPend, Vector.getElem_set_ne _ _ hne]

theorem refillCommand_restoreTurn (c : Core) (k : Turn) : refillCommand (c.restoreTurn k) k = refillCommand c k := by
  have h := settle_settles c
  have hcmd : c.settle.nextCmd = c.nextCmd := by rw [h]
  have hctx : c.settle.csr.ctxId = c.csr.ctxId := by rw [h]
  show refillCommand { c.settle with nextCmd := c.settle.nextCmd } k = _
  unfold refillCommand
  rw [hcmd, hctx]

/-- What a refilling core is, its rings and barriers apart: its turn's registers, and its refill at the end of the queue. -/
theorem refilling_eq (k : Turn) (yields : Bool) (c : Core) : ∃ q0 q1,
    c.refilling k yields = { (c.restoreTurn k).addPend (some k.bar) (descRows k.refill * descRlen k.refill) with
      nextCmd := c.settle.nextCmd + 1, queue0 := q0, queue1 := q1,
      seq := { (c.restoreTurn k).seq with stop := if yields then some .preempt else none }, turn := some { k with rolled := k.rolled + 1 },
      rollback := some (k.bar, decide (c.settle.seq.mode = .atHeadland)) } ∧
    (c.refilling k yields).queue k.engine = c.queue k.engine ++ [refillCommand c k] := by
  obtain ⟨q0, q1, h⟩ := enqueue_eq (((c.restoreTurn k).addPend (some k.bar) (descRows k.refill * descRlen k.refill))) k.engine
    (refillCommand (c.restoreTurn k) k)
  refine ⟨q0, q1, ?_, ?_⟩
  · unfold Core.refilling
    dsimp only
    rw [show (refillCommand (c.restoreTurn k) k).bar = some k.bar from rfl,
      show (refillCommand (c.restoreTurn k) k).weight = descRows k.refill * descRlen k.refill from rfl, h]
    rfl
  · have hset : ((c.restoreTurn k).addPend (some k.bar) (descRows k.refill * descRlen k.refill)).queue k.engine = c.queue k.engine := by
      show c.settle.queue k.engine = _
      rw [settle_settles c]; rfl
    exact (queue_enqueue ((c.restoreTurn k).addPend (some k.bar) (descRows k.refill * descRlen k.refill)) k.engine
      (refillCommand (c.restoreTurn k) k)).trans (by rw [hset, refillCommand_restoreTurn])

/-- A rolled turn's barriers: what they expect is as at the turn, and what they count stands (R375). -/
theorem restoreTurn_bars (c : Core) (k : Turn) (w : Nat) (b : Fin 16) :
    ((((c.restoreTurn k).addPend (some k.bar) w).bars[b]).exp = nth k.exps b.val) ∧
      (((c.restoreTurn k).addPend (some k.bar) w).bars[b]).cnt = (c.bars[b]).cnt := by
  obtain ⟨hexp, hcnt⟩ := addPend_bar (c.restoreTurn k) k.bar b w
  have hbar : (c.restoreTurn k).bars[b] = { c.settle.bars[b] with exp := nth k.exps b.val } := Vector.getElem_ofFn _
  have hsettle : c.settle.bars = c.bars := by rw [settle_settles c]
  rw [hexp, hcnt, hbar, hsettle]
  exact ⟨rfl, rfl⟩

/-- A rolled turn's rings are empty (R375). -/
theorem restoreTurn_ring (c : Core) (k : Turn) (q : Fin 16) : ((c.restoreTurn k).ring q).h = 0 ∧ ((c.restoreTurn k).ring q).sw = 0 ∧
    ((c.restoreTurn k).ring q).sr = 0 ∧ ∀ e : Fin 8, ((c.restoreTurn k).ring q).st[e] = .empty := by
  have hring : (c.restoreTurn k).ring q =
      { c.settle.rings[q] with rp := 0, wp := 0, h := 0, st := Vector.replicate 8 .empty, sw := 0, sr := 0 } := Vector.getElem_map _ _
  rw [hring]
  exact ⟨rfl, rfl, rfl, fun e => Vector.getElem_replicate _⟩

theorem exec_drainEnd_refills {k : Turn} (hstop : (s.core n).seq.stop = some .rollback) (hturn : (s.core n).turn = some k)
    (hd : s.drained n = true) (hq : s.asks n = false) :
    ∃ u, exec (.drainEnd n) s = .next u ∧ (∀ j, j ≠ n → u.core j = s.core j) ∧
      u.agenda = s.agenda ++ (if s.stopsTeam n then [.event (.drainEnd n)] else []) ∧ u.core n = (s.core n).refilling k (s.stopsTeam n) := by
  refine ⟨s.refillTurn n k, ?_, ?_⟩
  · rw [exec_drainEnd_rollback hstop hturn, hd, hq]; rfl
  · rw [refillTurn_eq]
    exact ⟨fun j hj => State.core_updCore_other _ _ hj, rfl, State.core_updCore _ _ _⟩

theorem refilling_restores {c r : Core} {k : Turn} {yields : Bool} (hr : r = c.refilling k yields) :
    r.x = { s := k.s, p := k.p, lc := k.lc, ps := k.ps, loops := k.loops } ∧ r.desc = k.desc ∧ r.vec.lfsr = k.lfsr ∧ r.csr.vctl = k.vctl ∧
      r.csr.vseed = k.vseed ∧ r.seq.pc = k.pc ∧ r.seq.latch = k.latch ∧ r.seq.inc = k.inc ∧ r.seq.stop = (if yields then some .preempt else none) ∧
      (∀ q : Fin 16, (r.ring q).h = 0 ∧ (r.ring q).sw = 0 ∧ (r.ring q).sr = 0 ∧ ∀ e : Fin 8, (r.ring q).st[e] = .empty) ∧
      (∀ b : Fin 16, (r.bars[b]).exp = nth k.exps b.val ∧ (r.bars[b]).cnt = (c.bars[b]).cnt) ∧
      r.turn = some { k with rolled := k.rolled + 1 } ∧ r.rollback = some (k.bar, decide (c.seq.mode = .atHeadland)) ∧
      r.queue k.engine = c.queue k.engine ++ [refillCommand c k] := by
  obtain ⟨q0, q1, h, hqueue⟩ := refilling_eq k yields c
  have hmode : c.settle.seq.mode = c.seq.mode := by rw [settle_settles c]
  rw [← hr] at h hqueue
  clear hr
  subst h
  refine ⟨rfl, rfl, rfl, rfl, rfl, rfl, rfl, rfl, rfl, fun q => restoreTurn_ring c k q, fun b => restoreTurn_bars c k _ b, rfl, ?_, hqueue⟩
  rw [hmode]

/-! ### Restart (R375) -/

theorem exec_rollbackRestart {b : Fin 16} {h : Bool} (hbusy : (s.core n).busy = true) (hstop : (s.core n).seq.stop = none)
    (hr : (s.core n).rollback = some (b, h)) : exec (.rollbackRestart n) s =
      .next (if ((s.core n).bars[b]).pend = 0 ∧ ((s.core n).bars[b]).exp ≤ ((s.core n).bars[b]).cnt then s.updCore n (Core.restarted b) else s) := by
  rw [← restartTurn_some hr]
  show execRollbackRestart n s = _
  unfold execRollbackRestart
  simp only [hbusy, hstop, Option.isNone_none, Bool.and_self, if_true]

end

/-- Settles O51: each reason of a stop has its end, and the clauses follow the reasons. -/
theorem coreEvents : Obligations.CoreEvents := by
  refine ⟨fun s n r hstop hd => ⟨fun hr hturn => exec_drainEnd_open hstop hd hr hturn, fun hr hteam => ?early⟩,
    fun s n tn t hstop hteam hbusy => ⟨mem_releaseMember s n tn, fun hd => ?draining, exec_drainEnd_exit_member hstop hteam hbusy⟩,
    fun s n hstop hteam hbusy hd => exec_drainEnd_exit_bareHalts hstop hteam hbusy hd,
    fun s n hstop hd => ⟨fun hq => ?asks, fun hq hr => ?preempt⟩,
    fun s n b h hstop hd hq hr => exec_drainEnd_preempt_rolled hstop hd hq hr,
    fun s n hstop hd => exec_drainEnd_discharge hstop hd,
    fun s n m hstop hd hm => exec_drainEnd_siblingHalts hstop hd hm,
    fun c k => ⟨fun h => paddedTo_at h 4097, fun hpc h0 hk h => ?padding⟩,
    fun s n m tn t hteam hm hmode hbusy hstop _ => ?sibling,
    fun s n y hbusy hturn hstop hr => ?rollback,
    fun s n k hstop hturn hd hq => ?refill,
    fun s n b h hbusy hstop hr => ⟨fun hsat => ?restart, fun hsat => ?waits⟩⟩
  case early => subst hr; exact exec_drainEnd_exit_open hstop hteam hd
  case draining => exact (exec_drainEnd_exit hstop (teamOf_eq_some.1 hteam).1 hbusy).trans (by rw [if_neg (by rw [hd]; simp)])
  case asks => rw [exec_drainEnd_preempt hstop, show s.asks n = true from hq, hd]; rfl
  case preempt =>
    rw [exec_drainEnd_preempted hstop hd hq, leaveDrain_stays (restartTurn_none hr) (by rw [hstop]; simp)]
    rfl
  case padding => subst hk; exact nextPc_padding hpc h0 h
  case sibling =>
    obtain ⟨l, hl⟩ := exec_siblingStop hteam hm hmode
    exact ⟨_, hl, stopCore_free_core (s := { s with teams := l }) hstop hbusy _⟩
  case rollback =>
    obtain ⟨hother, hagenda, hcore⟩ := stopCore_free_core
      (s := s.updCore n (fun c => { c with seq := { c.seq with busy := c.seq.wc, waitt := none, stop := none } })) (n := n)
      (by rw [State.core_updCore]) (by rw [State.core_updCore]; exact hbusy) .rollback
    refine ⟨_, exec_turnRollback hbusy hturn hstop hr, fun k hk => (hother k hk).trans (State.core_updCore_other _ _ hk), hagenda, ?_⟩
    rw [hcore, State.core_updCore]
    rfl
  case refill =>
    intro yields
    obtain ⟨u, hu, hother, hagenda, hcore⟩ := exec_drainEnd_refills hstop hturn hd hq
    refine ⟨u, hu, hother, hagenda, ?_⟩
    exact refilling_restores hcore
  case restart => exact (exec_rollbackRestart hbusy hstop hr).trans (by rw [if_pos hsat]; rfl)
  case waits => exact (exec_rollbackRestart hbusy hstop hr).trans (by rw [if_neg hsat])

end Sys2Proof.Machine
end

section
/-! PROOF. Teams and launches (R42, R43, R48, R54, R62, R65, R68, R71, R481, R482, R488, R489): what each event does in each of its cases. -/

namespace Sys2Proof.Machine

section
variable {s : State} {tn : Nat} {t : Team}

/-! ### Release and staging (R54, R481, R482) -/

/-- Every team of some is staged, and every member of theirs has its core to itself (R54). -/
def State.groupReady (s : State) (g : List (Nat × Team)) : Bool := g.all (fun p => decide (p.2.state = .staged) && p.2.members.all (s.coreWaits p))

theorem exec_taskRelease (h : s.team tn = some t) (hstate : t.state = .staged) (hdue : t.release ≤ s.tick) (hrun : s.paused t.ctx = false) :
    exec (.taskRelease tn) s = .next (if s.groupReady (s.teamsOf t.inst) then (s.teamsOf t.inst).foldl (fun s p => s.releaseOne p.1 p.2) s
      else (s.teamsOf t.inst).foldl (fun s p => (s.releaseTeam p.1 (s.tick - 1)).updTeam p.1 (fun t => { t with state := .held })) s) := by
  have hgo : ¬(t.state ≠ .staged ∨ s.tick < t.release ∨ s.paused t.ctx = true) := by simp [hstate, hrun, hdue]
  show execTaskRelease tn s = _
  unfold execTaskRelease
  simp only [h, if_neg hgo]
  rw [apply_ite Host.Outcome.next]
  rfl

theorem exec_stageTeam_held (h : s.team tn = some t) (hstate : t.state = .held) (hrun : s.paused t.ctx = false) :
    exec (.stageTeam tn) s = .next (if (s.teamsOf t.inst).all (fun p => p.2.members.all (s.coreWaits p)) then
      (s.bookHeld (s.teamsOf t.inst)).getD (s.sendTeam .nofit tn) else s) := by
  show execStageTeam tn s = _
  unfold execStageTeam
  simp only [h, hrun, hstate, Bool.false_eq_true, if_false, if_true]
  exact (apply_ite Host.Outcome.next _ _ _).symm

/-- A held group in which every member stopped at a headland is staged with no furrow booked (R482). -/
theorem bookHeld_nil {g : List (Nat × Team)} (h : s.groupWants g = []) : s.bookHeld g = some (s.markStaged g (s.tick + 1)) := by
  unfold State.bookHeld
  rw [h]; rfl

theorem bookHeld_cons {g : List (Nat × Team)} {x : Want × Image} {l : List (Want × Image)} (h : s.groupWants g = x :: l) :
    s.bookHeld g = (s.bookTeam (x :: l) (s.tick + 1) 8191).map (fun r => r.1.markStaged g r.2) := by
  unfold State.bookHeld
  rw [h]; rfl

/-! ### Placement, quantum and pre-emption (R42, R43, R70-R72) -/

theorem exec_teamPlace_placed (h : s.team tn = some t) (hstate : t.state = .ready)
    (hplaced : ((s.placeTeam tn).team tn).map Team.state = some .placed) : exec (.teamPlace tn) s = .next ((s.placeTeam tn).placeMore t.inst) := by
  show execTeamPlace tn s = _
  unfold execTeamPlace
  simp only [h]
  exact if_pos ⟨hstate, hplaced⟩

theorem exec_quantumExpiry (h : s.team tn = some t) (hstate : t.state = .running) (hwaits : s.queueWaits tn = true) :
    exec (.quantumExpiry tn) s = if ((tfind s.contexts t.ctx).map Context.quantum).getD 65536 ≤ t.used then
      .next ((s.sendTeam .quantum tn).push (.preempt tn)) else .next s := by
  show execQuantumExpiry tn s = _
  unfold execQuantumExpiry
  simp only [h, hstate, hwaits, and_true, true_and]

theorem sendTeam_push (s : State) (k : MsgKind) (tn : Nat) (i : Instr) : ((s.sendTeam k tn).push i).agenda = s.agenda ++ [.event i] ∧
    ((s.sendTeam k tn).push i).cores = s.cores ∧ ((s.sendTeam k tn).push i).teams = s.teams := by
  rw [(sendTeam_linksMove s k tn).same]
  exact ⟨rfl, rfl, rfl⟩

theorem exec_preempt (h : s.team tn = some t) : exec (.preempt tn) s =
    if (s.inst t.inst).any (fun i => i.faulted || i.cancelled) then .next s else .next ((s.teamsOf t.inst).foldl State.preemptOne s) := by
  show execPreempt tn s = _
  unfold execPreempt
  simp only [h]

/-! ### Swap-out (R28, R65, R126, R443, R476) -/

/-- What a save keeps of the members of a team: the saved member is done, and members of its cluster share its commons (R126). -/
def saveMembers (n rank : Nat) (v : Saved) (l : List Member) : List Member :=
  l.map (fun x =>
    if x.rank = rank then { x with done := true, saved := some v }
    else if clusterOf x.core = clusterOf n then { x with saved := x.saved.map (fun y => { y with commons := y.commons.overlay (v.core.spans true) v.commons }) }
    else x)

theorem mem_saveMembers {n rank : Nat} {v : Saved} {l : List Member} {x : Member} (hx : x ∈ l) (hr : x.rank = rank) :
    ∃ y ∈ saveMembers n rank v l, y.rank = rank ∧ y.done = true ∧ y.saved = some v :=
  ⟨_, List.mem_map_of_mem hx, by rw [if_pos hr]; exact ⟨hr, rfl, rfl⟩⟩

/-- A swap-out after its write-backs: an uncorrectable word that the save reads, or the write-backs found, comes before the save. -/
def State.saveMember (s : State) (n tn : Nat) (inst : Nat) (rank : Nat) : State :=
  match s.badLive n, (s.core n).badSaved with
  | some (b, w), _ => s.wordError n b w
  | none, some f => s.flawFound n f
  | none, none =>
    if s.badMapped n then s else
    (((s.updTeam tn (fun t => { t with members := saveMembers n rank (s.saveOf n tn) t.members })).moveHolder n (absentKey tn rank)).leaveCore n).swapDone inst

theorem exec_swapOutComplete {n : Nat} {m : Member} (h : s.teamOf n = some (tn, t))
    (hm : t.members.find? (fun m => m.core == n && !m.exited && !m.done) = some m) (hmode : (s.core n).seq.mode = .swapped) (hstate : t.state = .stopping) :
    exec (.swapOutComplete n) s = if s.reservedNow (clusterOf n) = true then .next s else
      .next (if (s.flushAll n).2 then (s.flushAll n).1.saveMember n tn t.inst m.rank else (s.flushAll n).1) := by
  show execSwapOutComplete n s = _
  unfold execSwapOutComplete State.saveMember
  simp only [h, hm, hmode, hstate, ne_eq, not_true_eq_false, false_or]
  split
  · rfl
  · rcases hf : s.flushAll n with ⟨u, _ | _⟩
    · rfl
    · dsimp only
      rcases u.badLive n with _ | ⟨b, w⟩
      · rcases (u.core n).badSaved with _ | f
        · exact (apply_ite Host.Outcome.next _ _ _).symm
        · rfl
      · rfl

theorem saveMember_badLive {n inst rank w : Nat} {b : Bool} (h : s.badLive n = some (b, w)) : s.saveMember n tn inst rank = s.wordError n b w := by
  unfold State.saveMember
  simp only [h]

theorem saveMember_badSaved {n inst rank : Nat} {f : Flaw} (h : s.badLive n = none) (hf : (s.core n).badSaved = some f) :
    s.saveMember n tn inst rank = s.flawFound n f := by
  unfold State.saveMember
  simp only [h, hf]

theorem saveMember_clean {n inst rank : Nat} (h : s.badLive n = none) (hf : (s.core n).badSaved = none) :
    s.saveMember n tn inst rank = if s.badMapped n then s else
      (((s.updTeam tn (fun t => { t with members := saveMembers n rank (s.saveOf n tn) t.members })).moveHolder n (absentKey tn rank)).leaveCore n).swapDone
        inst := by
  unfold State.saveMember
  simp only [h, hf]

theorem saveOf_cells {n : Nat} {a : Nat} (hin : inSpans ((s.core n).settle.spans false) a = true) (hv : ((s.core n).settle.field.group a).valid = true)
    (hm : inSpans ((s.core n).settle.spansOf false true) a = false) {x : Nat × Byte} (hx : x ∈ (s.core n).settle.field.cells) (ha : x.1 = a) :
    x ∈ (s.saveOf n tn).core.field.cells := by
  subst ha
  exact List.mem_filter.2 ⟨hx, by dsimp only; rw [hin, hv, hm]; rfl⟩

/-! ### The end of a swap-out (R66, R72) -/

/-- A team of `inst` still runs, or a member of one is neither saved nor over. -/
theorem swapDone_waits {inst : Nat}
    (h : (s.teamsOf inst).any (fun p => decide (p.2.state ≠ .stopping) || p.2.members.any (fun m => !m.done && !m.exited)) = true) : s.swapDone inst = s := by
  obtain ⟨p, hp, hbad⟩ := List.any_eq_true.1 h
  refine if_neg fun hall => ?_
  simp only [Bool.and_eq_true] at hall
  obtain ⟨⟨-, hall⟩, -⟩ := hall
  have hp := List.all_eq_true.1 hall p hp
  rw [Bool.and_eq_true, decide_eq_true_eq, List.all_eq_true] at hp
  obtain ⟨hstate, hdone⟩ := hp
  simp only [hstate, ne_eq, not_true_eq_false, decide_false, Bool.false_or, List.any_eq_true] at hbad
  obtain ⟨m, hm, hopen⟩ := hbad
  have := hdone m hm
  revert hopen this
  cases m.done <;> cases m.exited <;> simp

theorem swapTeam_leaves (h : s.team tn = some t) : ∃ u, (s.swapTeam tn).team tn = some u ∧ u.state = .swapped ∧ u.digest = sha256 u.area ∧
    u.members = t.members ∧ u.since = s.tick ∧ (s.swapTeam tn).cores = s.cores := by
  obtain ⟨c, k, area, he⟩ := swapTeam_eq s tn
  obtain ⟨l, hl⟩ := updTeam_frame ({ s with chan := c, freeCtr := k, nextOp := s.nextOp + 1 }) tn (fun t => t.swappedAs s.tick s.nextOp area)
  refine ⟨t.swappedAs s.tick s.nextOp area, ?_, rfl, rfl, rfl, rfl, ?_⟩
  all_goals rw [he, (sendTeam_linksMove _ .swapped tn).same]
  · exact team_updTeam (s := { s with chan := c, freeCtr := k, nextOp := s.nextOp + 1 }) h (fun t => t.swappedAs s.tick s.nextOp area)
  · rw [hl]

end
end Sys2Proof.Machine
end

section
/-! PROOF. Swap-in, release and admission (R44, R48, R55, R66, R68, R437, R488, R489): what each event does in each of its cases. -/

namespace Sys2Proof.Machine

section
variable {s : State} {tn : Nat} {t : Team}

/-! ### Swap-in (R28, R66, R68, R437) -/

/-- The swap-in of some teams after the checks of their save areas: the images again, and then every member (R65, R68). -/
def State.resume (s : State) (tn : Nat) (t : Team) (g : List (Nat × Team)) : State :=
  match s.reloadImages g with
  | (r, .error none) => { s with faults := r.faults, snoop := r.snoop }
  | (r, .error (some w)) => (r.refusalEvents t.ctx w.1 w.2).resumeFault t.inst g
  | (r, .ok ()) =>
    match r.restoreAll (r.teamsOf t.inst) with
    | (r, false) => { s with faults := r.faults, snoop := r.snoop }
    | (r, true) => r.resumeStaged tn t.inst (g.any (fun p => p.2.asked))

section
variable {g : List (Nat × Team)} {r u : State}

theorem resume_waits (h : s.reloadImages g = (r, .error none)) : s.resume tn t g = { s with faults := r.faults, snoop := r.snoop } := by
  unfold State.resume
  rw [h]

theorem resume_refused {w : (Nat × Nat × Nat) × List Nat} (h : s.reloadImages g = (r, .error (some w))) :
    s.resume tn t g = (r.refusalEvents t.ctx w.1 w.2).resumeFault t.inst g := by
  unfold State.resume
  rw [h]

theorem resume_fills (h : s.reloadImages g = (r, .ok ())) (hu : r.restoreAll (r.teamsOf t.inst) = (u, false)) :
    s.resume tn t g = { s with faults := u.faults, snoop := u.snoop } := by
  unfold State.resume
  rw [h]
  dsimp only
  rw [hu]

theorem resume_restored (h : s.reloadImages g = (r, .ok ())) (hu : r.restoreAll (r.teamsOf t.inst) = (u, true)) :
    s.resume tn t g = u.resumeStaged tn t.inst (g.any (fun p => p.2.asked)) := by
  unfold State.resume
  rw [h]
  dsimp only
  rw [hu]
end

theorem exec_swapInComplete (h : s.team tn = some t) (hall : (s.teamsOf t.inst).all (fun p => decide (p.2.state = .restoring)) = true) :
    exec (.swapInComplete tn) s = .next (
      if (s.teamsOf t.inst).any (fun p => p.2.members.any (fun m => s.reservedNow (clusterOf m.core))) then s
      else if (s.teamsOf t.inst).any (fun p => p.2.areaBad) then s.areaError t.ctx (s.teamsOf t.inst)
      else if !(s.teamsOf t.inst).all (fun p => sha256 p.2.area == p.2.digest) then
        (s.digestEvent t.ctx (s.teamsOf t.inst)).resumeFault t.inst (s.teamsOf t.inst)
      else s.resume tn t (s.teamsOf t.inst)) := by
  show execSwapInComplete tn s = _
  unfold execSwapInComplete State.resume
  simp only [h, hall, Bool.not_true, Bool.false_or]
  split
  · rfl
  · split
    · rfl
    · split
      · rfl
      · rcases hl : s.reloadImages (s.teamsOf t.inst) with ⟨r, e | -⟩
        · cases e <;> rfl
        · dsimp only
          rcases hr : r.restoreAll (r.teamsOf t.inst) with ⟨u, _ | _⟩ <;> rfl

theorem areaError_leaves (s : State) (ctx : Nat) (g : List (Nat × Team)) : ∃ syndrome, let t := s.areaError ctx g
    t.agenda = s.agenda ++ [.event (.contextEnd ctx 0x302 0)] ∧ t.cores = s.cores ∧ t.teams = s.teams ∧
    t.log = s.log.add { code := 0x302, cls := 3, sev := 3, ctx := some ctx, tick := s.tick, rtick := s.rtick, unit := 3, unitNo := headCluster g, sub := 0,
                        addr := 0, detail := syndrome, detail2 := 0, seq := 0, lost := 0 } := by
  obtain ⟨c, k, h⟩ := countArea_frame s false
  refine ⟨(s.countArea false).free.1 % 2 ^ 64, ?_⟩
  unfold State.areaError
  rw [h]
  exact ⟨rfl, rfl, rfl, rfl⟩

/-! ### Restore and release of a member (R22, R55, R68, R445) -/

theorem restored_leaves (c v : Core) (tn : Nat) : let t := c.restored v tn
    t.x = v.x ∧ t.vec = v.vec ∧ t.rings = v.rings ∧ t.bars = v.bars ∧ t.desc = v.desc ∧ t.rgn = v.rgn ∧ t.turn = v.turn ∧ t.mat.acc = v.mat.acc ∧
    t.seq.mode = .swapped ∧ t.seq.pc = v.seq.pc ∧ t.seq.furrow = v.seq.furrow ∧ t.csr.ctxId = v.csr.ctxId ∧ t.csr.vctl = v.csr.vctl ∧
    t.csr.capm = c.csr.capm ∧ t.csr.refcnt = c.csr.refcnt ∧ t.csr.trapCause = c.csr.trapCause ∧ t.csr.trapPc = c.csr.trapPc ∧ t.team = some tn ∧
    t.seq.code = c.seq.code ∧ t.seq.shCode = c.seq.shCode :=
  ⟨rfl, rfl, rfl, rfl, rfl, rfl, rfl, rfl, rfl, rfl, rfl, rfl, rfl, rfl, rfl, rfl, rfl, rfl, rfl, rfl⟩

/-- Barriers with what an image's barrier table expects of them (R55, R230). -/
def barrierTable (l : List (Nat × Nat)) (v : Vector Barrier 16) : Vector Barrier 16 :=
  l.foldl (fun (v : Vector Barrier 16) b => v.setIfInBounds b.1 { Barrier.init with exp := b.2 }) v

/-- A barrier that a table does not list stands. -/
theorem barrierTable_other (k : Fin 16) (l : List (Nat × Nat)) : ∀ v : Vector Barrier 16, l.filter (fun b => b.1 == k.val) = [] →
    (barrierTable l v)[k] = v[k] := by
  induction l with
  | nil => exact fun v _ => rfl
  | cons b l ih =>
    intro v h
    have hb : b.1 ≠ k.val := fun he => by simp [he] at h
    have hl : l.filter (fun b => b.1 == k.val) = [] := by simpa [hb] using h
    exact (ih _ hl).trans (Vector.getElem_setIfInBounds_ne _ hb)

/-- A barrier table sets no count and no weight. -/
theorem barrierTable_counts (k : Fin 16) (l : List (Nat × Nat)) : ∀ v : Vector Barrier 16, (v[k]).cnt = 0 → (v[k]).pend = 0 →
    ((barrierTable l v)[k]).cnt = 0 ∧ ((barrierTable l v)[k]).pend = 0 := by
  induction l with
  | nil => exact fun v hc hp => ⟨hc, hp⟩
  | cons b l ih =>
    intro v hc hp
    have hset : (v.setIfInBounds b.1 { Barrier.init with exp := b.2 })[k] = if b.1 = k.val then { Barrier.init with exp := b.2 } else v[k] :=
      Vector.getElem_setIfInBounds _
    refine ih _ ?_ ?_
    all_goals
      rw [hset]
      split
      · rfl
    · exact hc
    · exact hp

section
variable (c : Core) (i : Image) (tn ctx rank size index : Nat) (presets : List (Nat × Option Nat × Nat))

theorem released_ring (k : Fin 16) : (c.released i tn ctx rank size index presets).ring k = ringOf (i.rings.getD k.val (8, 1, 1)) := by
  show (Vector.mk ((List.range 16).map (fun q => ringOf (i.rings.getD q (8, 1, 1)))).toArray (by simp))[k] = _
  simp

theorem released_bars (k : Fin 16) : let t := c.released i tn ctx rank size index presets
    (i.barriers.filter (fun b => b.1 == k.val) = [] → t.bars[k] = Barrier.init) ∧ (t.bars[k]).cnt = 0 ∧ (t.bars[k]).pend = 0 := by
  have hinit : (Vector.replicate 16 Barrier.init)[k] = Barrier.init := Vector.getElem_replicate _
  exact ⟨fun h => (barrierTable_other k i.barriers _ h).trans hinit,
    barrierTable_counts k i.barriers (Vector.replicate 16 Barrier.init) (by rw [hinit]; rfl) (by rw [hinit]; rfl)⟩

theorem released_rs (r : Fin 64) : (c.released i tn ctx rank size index []).rs r = 0 := by
  unfold Core.rs
  split
  · rfl
  · exact Vector.getElem_replicate _
end

/-! ### Staging of a fresh team (R53, R54) -/

/-- A team that is staged for a tick. -/
def Team.stagedAt (t : Team) (now a : Nat) : Team :=
  { (if t.state = .held then t else t.rewait now) with state := .staged, release := a, first := t.first.orElse (fun _ => some a) }

theorem markStaged_fresh (h : s.team tn = some t) (hr : t.resumed = false) (a : Nat) :
    (s.markStaged [(tn, t)] a).team tn = some (t.stagedAt s.tick a) ∧ (s.markStaged [(tn, t)] a).cores = s.cores := by
  have he : s.markStaged [(tn, t)] a = (s.updTeam tn (fun t => t.stagedAt s.tick a)).sendTeam .staged tn := by
    unfold State.markStaged
    simp only [List.foldl_cons, List.foldl_nil, hr, Bool.false_eq_true, if_false]
    rfl
  obtain ⟨l, hl⟩ := updTeam_frame s tn (fun t => t.stagedAt s.tick a)
  rw [he, (sendTeam_linksMove _ .staged tn).same]
  exact ⟨team_updTeam h (fun t => t.stagedAt s.tick a), by rw [hl]⟩

theorem stagedAt_leaves (t : Team) (now a : Nat) : (t.stagedAt now a).state = .staged ∧ (t.stagedAt now a).release = a ∧
    (t.stagedAt now a).members = t.members := by
  unfold Team.stagedAt
  refine ⟨rfl, rfl, ?_⟩
  dsimp only
  split <;> rfl

/-! ### Instances and launches (R48, R488, R489) -/

theorem unit_updUnit {u : Nat} {x : UnitRec} (h : s.unit u = some x) (f : UnitRec → UnitRec) : (s.updUnit u f).unit u = some (f x) := by
  unfold State.unit at h
  unfold State.updUnit
  rw [h]
  exact tfind_tset _ _ _

/-- A change of a unit changes the table of units only. -/
theorem updUnit_frame (s : State) (u : Nat) (f : UnitRec → UnitRec) : ∃ l, s.updUnit u f = { s with units := l } := by
  unfold State.updUnit
  split <;> exact ⟨_, rfl⟩

theorem exec_instanceComplete_empty {i : Nat} {x : Instance} (h : s.inst i = some x) (hx : x.teams = []) :
    exec (.instanceComplete i) s = .next (((({ s with insts := tdel s.insts i } : State).updUnit x.launch
      (fun u => { u with count := u.count + 1, faulted := u.faulted || x.faulted, cancelled := u.cancelled || x.cancelled })).writeRecord x.launch).settleUnits) := by
  show execInstanceComplete i s = _
  unfold execInstanceComplete
  simp only [h, hx, List.all_nil, List.foldl_nil, Bool.not_true, Bool.false_eq_true, if_false]

section
variable {u : Nat} {x : UnitRec} (h : s.unit u = some x) (hkind : x.kind = 0) (hnew : x.admitted = false) (hopen : x.open' = true)
include h hkind hnew hopen

theorem exec_launchAdmit_admits (hr : s.refusalOf x = none) :
    exec (.launchAdmit u) s = .next (s.updUnit u (fun x => { x with admitted := true, refusal := none })) := by
  have hgo : ¬(x.kind ≠ 0 ∨ x.admitted = true ∨ x.open' = false) := by simp [hkind, hnew, hopen]
  show execLaunchAdmit u s = _
  unfold execLaunchAdmit
  simp only [h, if_neg hgo, hr]

theorem exec_launchAdmit_refuses {r : Nat × Nat × Nat} (hr : s.refusalOf x = some r) :
    exec (.launchAdmit u) s = .next (((s.refusalEvents x.ctx r x.unsigned).updUnit u
      (fun x => { x with count := x.total, made := x.total, faulted := true, refusal := none })).settleUnits) := by
  have hgo : ¬(x.kind ≠ 0 ∨ x.admitted = true ∨ x.open' = false) := by simp [hkind, hnew, hopen]
  show execLaunchAdmit u s = _
  unfold execLaunchAdmit
  simp only [h, if_neg hgo, hr]
end

theorem worse_eq_none {a b : Option (Nat × Nat × Nat)} : worse a b = none ↔ a = none ∧ b = none := by
  unfold worse
  cases a with
  | none => simp
  | some x =>
    cases b with
    | none => simp
    | some y => dsimp only; split <;> simp

end
end Sys2Proof.Machine
end

section
/-! PROOF. What an access of the front end leaves (R131-R140, R149, R154, R180, R386, R435): the clock, the instances and the queues stand. -/

namespace Sys2Proof.Machine

/-! ### Counters and buckets (R149, R433) -/

theorem State.Stands.of_eq {s t : State} (htick : t.tick = s.tick) (hinsts : t.insts = s.insts) (hendings : t.endings = s.endings)
    (hqueues : t.queues = s.queues) : s.Stands t :=
  ⟨htick, hinsts, hendings, fun q => congrArg (fun l => (tget (Queue.init q) l q).state) hqueues⟩

/-- A step that is taken in one case only. -/
theorem ite_stands {s t u : State} {p : Prop} [Decidable p] (ht : s.Stands t) (hu : s.Stands u) : s.Stands (if p then t else u) := by
  split
  · exact ht
  · exact hu

/-- The same of a step that returns a value. -/
theorem ite_stands_fst {α : Type} {s : State} {t u : State × α} {p : Prop} [Decidable p] (ht : s.Stands t.1) (hu : s.Stands u.1) :
    s.Stands (if p then t else u).1 := by
  split
  · exact ht
  · exact hu

theorem free_stands (s : State) : s.Stands s.free.2 := .of_eq rfl rfl rfl rfl

theorem countAccess_stands (s : State) (tier pa code : Nat) (write : Bool) : s.Stands (s.countAccess tier pa code write) :=
  ite_stands (.refl s) (.of_eq rfl rfl rfl rfl)

theorem setGmem_stands (s : State) (tier : Nat) (g : GMem) : s.Stands (s.setGmem tier g) :=
  ite_stands (.of_eq rfl rfl rfl rfl) (ite_stands (.of_eq rfl rfl rfl rfl) (.of_eq rfl rfl rfl rfl))

theorem bucketAct_stands (s : State) (kind u : Nat) : s.Stands (s.bucketAct kind u) :=
  ite_stands (.of_eq rfl rfl rfl rfl) (ite_stands (.of_eq rfl rfl rfl rfl) (ite_stands (.of_eq rfl rfl rfl rfl)
    (ite_stands (.of_eq rfl rfl rfl rfl) (.refl s))))

theorem bucketAdd_stands (s : State) (kind u w : Nat) : s.Stands (s.bucketAdd kind u w) := by
  have hcount (b : Tbl Bucket) : s.Stands { s with buckets := b } := .of_eq rfl rfl rfl rfl
  have hevent (t : State) (p : Prop) [Decidable p] (code unit no sub addr d d2 : Nat) :
      t.Stands (if p then t.event code 1 none unit no sub addr d d2 else t) :=
    ite_stands (event_stands ..) (.refl t)
  have hact (t : State) (p : Prop) [Decidable p] : t.Stands (if p then t.bucketAct kind u else t) := ite_stands (bucketAct_stands t kind u) (.refl t)
  exact (((hcount _).trans (hevent _ _ _ _ _ _ _ _ _)).trans (hevent _ _ _ _ _ _ _ _ _)).trans (hact _ _)

theorem corrected_stands (s : State) (kind u unit unitNo sub addr : Nat) : s.Stands (s.corrected kind u unit unitNo sub addr) := by
  refine (bucketAdd_stands s kind u 1).trans ?_
  unfold State.corrected
  generalize s.bucketAdd kind u 1 = t
  exact ite_stands (.refl t) (.of_eq rfl rfl rfl rfl)

/-! ### Blocks at their home (R153-R155, R435, R472) -/

theorem poison_stands (s : State) (tier pa : Nat) : s.Stands (s.poison tier pa) := ite_stands (.refl s) (setGmem_stands s _ _)

theorem correctSectors_stands (s : State) (tier pa : Nat) : s.Stands (s.correctSectors tier pa) :=
  ite_stands (.refl s) (foldl_stands (fun t _ => (free_stands t).trans (corrected_stands _ _ _ _ _ _ _)) _ s)

theorem blockError_stands (s : State) (ctx : Option Nat) (tier pa va : Nat) : s.Stands (s.blockError ctx tier pa va) := by
  have hfree : s.Stands s.free.2.free.2 := .of_eq rfl rfl rfl rfl
  have hend (t : State) : t.Stands (match ctx with | some c => { t with agenda := .event (.contextEnd c 0x302 0) :: t.agenda } | none => t) := by
    split
    · exact .of_eq rfl rfl rfl rfl
    · exact .refl t
  have hbucket (t : State) (ch : Nat) : t.Stands (if tier < 2 then t.bucketAdd (4 + tier) ch 16 else t) := ite_stands (bucketAdd_stands ..) (.refl t)
  have htag (t : State) (p : Prop) [Decidable p] (g : GMem) : t.Stands (if p then t.setGmem tier g else t) := ite_stands (setGmem_stands ..) (.refl t)
  unfold State.blockError
  exact (((hfree.trans (hbucket _ _)).trans (htag _ _ _)).trans (event_stands ..)).trans (hend _)

theorem readBlock_stands (s : State) (tier pa : Nat) : s.Stands (s.readBlock tier pa).1 := by
  unfold State.readBlock
  dsimp only
  have hcount := countAccess_stands s tier pa ((s.gmem tier).block (s.blockOf tier pa)).1 false
  split
  · exact hcount.trans (setGmem_stands _ _ _)
  · split
    · exact hcount
    · split
      · exact hcount.trans (poison_stands _ _ _)
      · exact hcount.trans (correctSectors_stands _ _ _)

theorem readHome_stands (s : State) (tier pa n : Nat) : s.Stands (s.readHome tier pa n).1 := readBlock_stands s tier pa

theorem placeBlock_stands (s : State) (tier pa code : Nat) (l : List Byte) : s.Stands (s.placeBlock tier pa code l) := by
  have hsnoop : s.Stands (s.backInvalidate tier pa) := ite_stands (.of_eq rfl rfl rfl rfl) (.refl s)
  have htag (t : State) (p : Prop) [Decidable p] : t.Stands (if p then (t.poisonTag tier (t.blockOf tier pa / 16)).blockError none tier pa 0 else t) :=
    ite_stands ((setGmem_stands t _ _).trans (blockError_stands ..)) (.refl t)
  exact ((hsnoop.trans (countAccess_stands _ _ _ _ _)).trans (htag _ _)).trans (setGmem_stands _ _ _)

theorem placeHome_stands (s : State) (tier pa : Nat) (cmp : Bool) (bs : List Byte) : s.Stands (s.placeHome tier pa cmp bs).1 := by
  have hread := readBlock_stands s tier pa
  unfold State.placeHome
  dsimp only
  split
  · exact placeBlock_stands _ _ _ _ _
  · split
    · next h => rw [h] at hread; exact hread
    · next h => rw [h] at hread; exact hread.trans (placeBlock_stands _ _ _ _ _)

/-! ### Waiters of a line (R180, R381) -/

theorem wake_stands (s : State) (m : Monitor) : s.Stands (s.wake m) := by
  have hdrop : s.Stands { s with monitors := s.monitors.filter (fun x => x ≠ m) } := .of_eq rfl rfl rfl rfl
  have hbad (t : State) (p : Prop) [Decidable p] (ctx : Option Nat) (va : Nat) :
      t.Stands (if p then (t.readBlock m.tier m.pa).1.blockError ctx m.tier m.pa va else t) :=
    ite_stands ((readBlock_stands t _ _).trans (blockError_stands ..)) (.refl t)
  have hreply (t : State) (l : List Reply) : t.Stands { t with replies := l } := .of_eq rfl rfl rfl rfl
  unfold State.wake
  dsimp only
  split
  · exact (hdrop.trans (hbad _ _ _ _)).trans (hreply _ _)
  · exact (hdrop.trans (hbad _ _ _ _)).trans (updCore_stands _ _ _)

theorem wakeLine_stands (s : State) (tier pa : Nat) : s.Stands (s.wakeLine tier pa) :=
  (foldl_stands wake_stands _ s).trans (.of_eq rfl rfl rfl rfl)

theorem writeHome_stands (s : State) (tier pa : Nat) (cmp : Bool) (bs : List Byte) : s.Stands (s.writeHome tier pa cmp bs).1 := by
  have hplace := placeHome_stands s tier pa cmp bs
  unfold State.writeHome
  split
  · next h => rw [h] at hplace; exact hplace.trans (wakeLine_stands _ _ _)
  · exact hplace

/-! ### Walks and translations (R131-R138) -/

/-- A cached table entry whose parity fails is dropped (R434). -/
def State.dropWalk (s : State) (cl ctx level tag : Nat) : State :=
  let mine := fun (w : WalkItem) => w.ctx == ctx && w.level == level && w.tag == tag
  if (s.cluster cl).walks.any (fun w => w.bad && mine w) then
    s.updCluster cl (fun k => { k with walks := k.walks.filter (fun w => !(w.bad && mine w)) }) else s

theorem dropWalk_stands (s : State) (cl ctx level tag : Nat) : s.Stands (s.dropWalk cl ctx level tag) := by
  unfold State.dropWalk
  dsimp only
  split
  · exact updCluster_stands ..
  · exact .refl s

/-- A table entry read from the walk cache, or else from memory (R137, R138). -/
def State.readFrom (s : State) (cl ctx level tag pa : Nat) : State × Option Nat :=
  match (s.cluster cl).walks.find? (fun w => w.ctx == ctx && w.level == level && w.tag == tag) with
  | some w => (s, some w.entry)
  | none =>
    match s.tierOf pa with
    | none => (s, none)
    | some t =>
      let r := s.readHome t pa 8
      (r.1, r.2.map natOfBytes)

theorem readFrom_stands (s : State) (cl ctx level tag pa : Nat) : s.Stands (s.readFrom cl ctx level tag pa).1 := by
  unfold State.readFrom
  cases (s.cluster cl).walks.find? (fun w => w.ctx == ctx && w.level == level && w.tag == tag) with
  | some w => exact .refl s
  | none =>
    cases s.tierOf pa with
    | none => exact .refl s
    | some t => exact readHome_stands s t pa 8

theorem readEntry_stands (s : State) (cl ctx level tag pa : Nat) : s.Stands (s.readEntry cl ctx level tag pa).1 := by
  unfold State.readEntry
  extract_lets mine u
  have hdrop : s.Stands u := dropWalk_stands s cl ctx level tag
  clear_value u
  exact hdrop.trans (readFrom_stands u cl ctx level tag pa)

theorem keepEntry_stands (s : State) (cl ctx level tag e : Nat) : s.Stands (s.keepEntry cl ctx level tag e) := by
  unfold State.keepEntry
  dsimp only
  split
  · exact (free_stands s).trans (updCluster_stands ..)
  · exact free_stands s

/-- A step that returns a value, as `Stands` says it of its state. -/
def State.StandsTo {α : Type} (s : State) (r : State × α) : Prop := s.Stands r.1

theorem State.Stands.to {α : Type} {s t : State} (h : s.Stands t) (a : α) : s.StandsTo (t, a) := h

theorem walkFrom_stands (cl ctx va : Nat) (l : List (Nat × Nat × Nat)) : ∀ (base : Nat) (s : State), s.Stands (walkFrom cl ctx va l base s).1 := by
  induction l with
  | nil => exact fun _ s => .refl s
  | cons p l ih =>
    obtain ⟨level, sh, w⟩ := p
    intro base s
    have hread := readEntry_stands s cl ctx level (va / 2 ^ sh) (base + 8 * (va / 2 ^ sh % 2 ^ w))
    rw [walkFrom]
    generalize base + 8 * (va / 2 ^ sh % 2 ^ w) = pa at hread ⊢
    generalize s.readEntry cl ctx level (va / 2 ^ sh) pa = r at hread ⊢
    obtain ⟨u, e⟩ := r
    refine State.Stands.trans (b := u) hread ?_
    cases e with
    | none =>
      change u.StandsTo _
      dsimp only
      refine State.Stands.to ?_ _
      cases u.tierOf pa with
      | none => exact .refl u
      | some t => exact blockError_stands ..
    | some e =>
      exact ite_stands_fst (.refl u) (ite_stands_fst (.refl u) (ite_stands_fst (.refl u) ((keepEntry_stands u _ _ _ _ _).trans (ih _ _))))

theorem writePlain_stands (s : State) (tier pa : Nat) (bs : List Byte) : s.Stands (s.writePlain tier pa bs).1 :=
  (free_stands s).trans (writeHome_stands _ _ _ _ _)

theorem walk_stands (s : State) (cl ctx va : Nat) (read write priv : Bool) : s.Stands (s.walk cl ctx va read write priv).1 := by
  unfold State.walk
  split
  · exact .refl s
  · next base _ =>
    have hwalk := walkFrom_stands cl ctx va walkLevels base s
    split
    · next u pa e h =>
      rw [h] at hwalk
      split
      · exact hwalk
      · dsimp only
        split
        · exact hwalk
        · split
          · exact hwalk
          · next t _ =>
            have hwrite := writePlain_stands u t pa (bytesOfNat 8 (withAD e read write))
            split
            · next v hv => rw [hv] at hwrite; exact hwalk.trans hwrite
            · next v hv => rw [hv] at hwrite; have herror := blockError_stands v (some ctx) t pa va; exact (hwalk.trans hwrite).trans herror
    · exact hwalk

theorem fill_stands (s : State) (cl : Nat) (n : Option Nat) (x : Xlat) : s.Stands (s.fill cl n x) := by
  unfold State.fill
  dsimp only
  split
  · exact .of_eq rfl rfl rfl rfl
  · exact .of_eq rfl rfl rfl rfl

/-- Entries of a core's TLB whose parity fails are dropped (R434). -/
def State.dropXlatsOf (s : State) (n : Option Nat) (ctx va : Nat) : State :=
  match n with
  | some n => if (s.core n).tlb.any Xlat.bad then s.updCore n (fun c => { c with tlb := dropParity ctx va c.tlb }) else s
  | none => s

/-- Entries of the TLBs whose parity fails are dropped (R434). -/
def State.dropXlats (s : State) (cl : Nat) (n : Option Nat) (ctx va : Nat) : State :=
  let u := s.dropXlatsOf n ctx va
  if (u.cluster cl).tlb2.any Xlat.bad then u.updCluster cl (fun k => { k with tlb2 := dropParity ctx va k.tlb2 }) else u

theorem dropXlats_stands (s : State) (cl : Nat) (n : Option Nat) (ctx va : Nat) : s.Stands (s.dropXlats cl n ctx va) := by
  have hcore : s.Stands (s.dropXlatsOf n ctx va) := by
    unfold State.dropXlatsOf
    split
    · exact ite_stands (updCore_stands ..) (.refl s)
    · exact .refl s
  exact ite_stands (hcore.trans (updCluster_stands ..)) hcore

/-- A translation by the TLBs, or else by a walk (R138). -/
def State.lookUp (s : State) (cl : Nat) (n : Option Nat) (ctx va : Nat) (read write priv : Bool) : State × Except Fate Page :=
  let hit1 := match n with
    | some n => (s.core n).tlb.find? (fun (x : Xlat) => x.serves ctx va read write)
    | none => none
  let hit := match hit1 with
    | some x => some x
    | none => (s.cluster cl).tlb2.find? (fun (x : Xlat) => x.serves ctx va read write)
  match hit with
  | some x =>
    if forbidden x.leaf write priv then (s, .error .protection)
    else (if hit1.isSome then s else s.fill cl n x, .ok (pageOf x.leaf va))
  | none =>
    match s.walk cl ctx va read write priv with
    | (s, .leaf _ e) => (s.fill cl n (xlatOf ctx va e), .ok (pageOf e va))
    | (s, .pageFault) => (s, .error .pageFault)
    | (s, .format) => (s, .error .format)
    | (s, .protection) => (s, .error .protection)
    | (s, .data) => (s, .error .data)

theorem translate_eq (s : State) (cl : Nat) (n : Option Nat) (ctx va : Nat) (read write priv : Bool) :
    s.translate cl n ctx va read write priv = (s.dropXlats cl n ctx va).lookUp cl n ctx va read write priv := rfl

theorem lookUp_stands (s : State) (cl : Nat) (n : Option Nat) (ctx va : Nat) (read write priv : Bool) :
    s.Stands (s.lookUp cl n ctx va read write priv).1 := by
  have hwalk := walk_stands s cl ctx va read write priv
  unfold State.lookUp
  dsimp only
  split
  · split
    · exact .refl s
    · exact ite_stands (.refl s) (fill_stands ..)
  · split
    · next h => rw [h] at hwalk; exact hwalk.trans (fill_stands ..)
    all_goals next h => rw [h] at hwalk; exact hwalk

theorem translate_stands (s : State) (cl : Nat) (n : Option Nat) (ctx va : Nat) (read write priv : Bool) :
    s.Stands (s.translate cl n ctx va read write priv).1 := by
  rw [translate_eq]
  exact (dropXlats_stands s cl n ctx va).trans (lookUp_stands ..)

/-! ### Writes of the front end (R386, R391) -/

theorem noteFault_stands (s : State) (ctx va : Nat) : s.Stands (s.noteFault ctx va) := ite_stands (.refl s) (.of_eq rfl rfl rfl rfl)

theorem frontPage_stands (s : State) (ctx va : Nat) (read write : Bool) : s.Stands (s.frontPage ctx va read write).1 := by
  have hpage := translate_stands s frontCluster none ctx va read write true
  unfold State.frontPage
  split
  · next h =>
    rw [h] at hpage
    split
    · exact hpage
    · split <;> exact hpage
  · next h => rw [h] at hpage; exact hpage.trans (noteFault_stands _ _ _)
  all_goals next h => rw [h] at hpage; exact hpage

theorem frontWrite_stands (s : State) (ctx va : Nat) (bs : List Byte) : s.Stands (s.frontWrite ctx va bs).1 := by
  have hpage := frontPage_stands s ctx va false true
  unfold State.frontWrite
  split
  · next h => rw [h] at hpage; exact hpage
  · next u q h =>
    rw [h] at hpage
    have hwrite := writeHome_stands u q.tier q.pa q.cmp bs
    split
    · next hv => rw [hv] at hwrite; exact hpage.trans hwrite
    · next v hv => rw [hv] at hwrite; have herror := blockError_stands v (some ctx) q.tier q.pa q.va; exact (hpage.trans hwrite).trans herror

theorem frontWriteAll_stands (s : State) (ctx va : Nat) (bs : List Byte) : s.Stands (s.frontWriteAll ctx va bs).1 := by
  unfold State.frontWriteAll
  refine List.foldlRecOn (motive := fun r : State × Option Stop' => s.Stands r.1) _ _ (.refl s) fun r h p _ => ?_
  split
  · exact h
  · exact h.trans (frontWrite_stands _ _ _ _)

theorem tryRecord_stands (s : State) (w : FrontWrite) : s.Stands (s.tryRecord w) := by
  have hwrite := frontWriteAll_stands s w.ctx w.va w.bytes
  have hinterrupt (t : State) : t.Stands (t.interrupt w.interrupt) := by
    unfold State.interrupt
    split
    · exact .of_eq rfl rfl rfl rfl
    · exact .refl t
  have hend (t : State) : t.Stands (t.endWrite w) := by
    refine (hinterrupt t).trans ?_
    unfold State.endWrite
    dsimp only
    split
    · exact push_stands _ _
    · exact .refl _
  unfold State.tryRecord
  split
  · next h => rw [h] at hwrite; exact hwrite.trans (hend _)
  · next h => rw [h] at hwrite; exact (hwrite.trans (event_stands ..)).trans (hend _)
  · next u _ _ h => rw [h] at hwrite; exact hwrite.trans (.of_eq rfl rfl rfl rfl)

theorem writeRecord_stands (s : State) (u : Nat) : s.Stands (s.writeRecord u) := by
  unfold State.writeRecord
  split
  · exact .refl s
  · dsimp only
    split
    · exact .of_eq rfl rfl rfl rfl
    · exact tryRecord_stands s _

end Sys2Proof.Machine
end

section
/-! PROOF. Teams that are taken off, units that finish, and the end of a context (R47-R50, R66, R386, R439, R443): what stands through them. -/

namespace Sys2Proof.Machine

/-! ### Units (R47, R49, R50) -/

theorem updUnit_stands (s : State) (u : Nat) (f : UnitRec → UnitRec) : s.Stands (s.updUnit u f) := by
  obtain ⟨l, hl⟩ := updUnit_frame s u f
  rw [hl]
  exact .of_eq rfl rfl rfl rfl

theorem interrupt_stands (s : State) (q : Option Nat) : s.Stands (s.interrupt q) := by
  unfold State.interrupt
  split
  · exact .of_eq rfl rfl rfl rfl
  · exact .refl s

theorem dropLaunchBooking_stands (s : State) (u : Nat) : s.Stands (s.dropLaunchBooking u) := by
  unfold State.dropLaunchBooking
  split
  · exact dropReservations_stands _ _
  · exact .refl s

theorem finishUnit_stands (s : State) (u : Nat) : s.Stands (s.finishUnit u) := by
  unfold State.finishUnit
  split
  · exact .refl s
  · next x _ =>
    refine ite_stands ?_ (.refl s)
    have hinterrupt (t : State) : t.Stands (if x.interrupt then t.interrupt x.queue else t) := ite_stands (interrupt_stands _ _) (.refl t)
    have hparent (t : State) : t.Stands (match x.parent with
        | some p => (t.updUnit p (fun y => { y with count := y.count + 1, faulted := y.faulted || x.faulted,
                                                      cancelled := y.cancelled || x.cancelled })).writeRecord p
        | none => t) := by
      split
      · exact (updUnit_stands _ _ _).trans (writeRecord_stands _ _)
      · exact .refl t
    have hqueue (t : State) : t.Stands (match x.queue with
        | some q => if x.kind = 0 then (t.push (.deferredWritePerform q)).push (.waitReevaluate q) else t
        | none => t) := by
      split
      · exact ite_stands ((push_stands _ _).trans (push_stands _ _)) (.refl t)
      · exact .refl t
    exact (((((updUnit_stands s u _).trans (writeRecord_stands _ u)).trans (dropLaunchBooking_stands _ u)).trans (hinterrupt _)).trans (hparent _)).trans
      (hqueue _)

theorem cancelDependent_stands (s : State) (u : Nat) : s.Stands (s.cancelDependent u) := by
  unfold State.cancelDependent
  split
  · exact .refl s
  · exact ite_stands ((updUnit_stands s u _).trans (finishUnit_stands _ u)) (finishUnit_stands s u)

/-- A queue with those of its CANCELs that have not taken effect in `s` (R383). -/
def Queue.openCancels (s : State) (q : Queue) : Queue :=
  { q with cancels := (q.cancels.map (fun l => l.filter (fun u => (s.unit u).any UnitRec.open'))).filter (fun l => !l.isEmpty) }

theorem settleCancels_stands (s : State) : s.Stands s.settleCancels := by
  have hcancels : s.Stands { s with queues := tmap (fun _ q => q.openCancels s) s.queues } :=
    ⟨rfl, rfl, rfl, fun q => queue_tmap_state (f := fun _ x => x.openCancels s) (fun _ _ => rfl) _ q⟩
  exact hcancels.trans (foldl_stands (fun t q => interrupt_stands t (some q)) _ _)

theorem settleUnits_stands (s : State) : s.Stands s.settleUnits := by
  have hprune (t : State) : t.Stands t.pruneUnits := .of_eq rfl rfl rfl rfl
  exact (((((foldl_stands cancelDependent_stands _ s).trans (foldl_stands finishUnit_stands _ _)).trans (foldl_stands finishUnit_stands _ _)).trans
    (foldl_stands finishUnit_stands _ _)).trans (settleCancels_stands _)).trans (hprune _)

/-! ### Teams that are taken off (R50, R376, R377) -/

theorem emptyShadow_stands (s : State) (n : Nat) : s.Stands (s.emptyShadow n) := updCore_stands ..

theorem unstage_stands (s : State) (tn : Nat) (t : Team) : s.Stands (s.unstage tn t) := by
  refine ((releaseTeam_stands s tn s.tick).trans (dropStakes_stands _ tn)).trans (foldl_stands (fun u m => ?_) _ _)
  exact (updCluster_stands u _ _).trans (ite_stands (ite_stands ((emptyShadow_stands _ _).trans (leaveCore_stands _ _)) (.refl _)) (emptyShadow_stands _ _))

theorem stopCore_stands (s : State) (n : Nat) (r : Stop) : s.Stands (s.stopCore n r) := by
  have hmonitors (p : Prop) [Decidable p] : s.Stands (if p then { s with monitors := s.monitors.filter (fun m => m.core ≠ n) } else s) :=
    ite_stands (.of_eq rfl rfl rfl rfl) (.refl s)
  exact (hmonitors _).trans (ite_stands (.refl _) (ite_stands ((updCore_stands ..).trans (push_stands ..)) (.refl _)))

theorem dropTeam_stands (s : State) (tn : Nat) (r : Stop) : s.Stands (s.dropTeam tn r) := by
  unfold State.dropTeam
  split
  · exact .refl s
  · next t _ =>
    refine ((releaseTeam_stands s tn s.tick).trans (dropStakes_stands _ tn)).trans ?_
    generalize (s.releaseTeam tn s.tick).dropStakes tn = u
    dsimp only
    split
    · exact updTeam_stands ..
    · exact updTeam_stands ..
    · exact (unstage_stands ..).trans (updTeam_stands ..)
    · exact (unstage_stands ..).trans (updTeam_stands ..)
    · exact updTeam_stands ..
    · exact .refl u
    · exact (updTeam_stands u tn _).trans (foldl_stands (fun v m => ite_stands
        (ite_stands ((updCore_stands ..).trans (stopCore_stands ..)) (ite_stands (leaveCore_stands ..) (.refl v))) (.refl v)) _ _)

theorem dropInstRequests_stands (s : State) (i : Nat) : s.Stands (s.dropInstRequests i) :=
  foldl_stands (fun u _ => foldl_stands (fun v _ => (ite_stands (dropRequests_stands ..) (.refl v)).trans (dropReservations_stands _ _)) _ u) _ s

/-! ### A swap-in that cannot be done (R66) -/

theorem inst_updInst {s : State} {i : Nat} {x : Instance} (h : s.inst i = some x) (f : Instance → Instance) : (s.updInst i f).inst i = some (f x) := by
  unfold State.inst at h
  unfold State.updInst
  rw [h]
  exact tfind_tset _ _ _

theorem resumeFault_leaves {s : State} {inst : Nat} {x : Instance} (h : s.inst inst = some x) (g : List (Nat × Team)) :
    .event (.instanceComplete inst) ∈ (s.resumeFault inst g).agenda ∧ ∃ y, (s.resumeFault inst g).inst inst = some y ∧ y.faulted = true := by
  obtain ⟨c, k, hc⟩ := countArea_frame s false
  have hinst : (s.countArea false).inst inst = some x := by rw [hc]; exact h
  have hfault := inst_updInst hinst (fun i => { i with faulted := true })
  have hstands := ((dropInstRequests_stands ((s.countArea false).updInst inst (fun i => { i with faulted := true })) inst).trans
    (foldl_stands (fun u (p : Nat × Team) => dropTeam_stands u p.1 .cancel) g _)).trans (push_stands _ (.instanceComplete inst))
  exact ⟨List.mem_append_right _ (List.mem_singleton_self _), _, (congrArg (fun l => tfind l inst) hstands.insts).trans hfault, rfl⟩

/-! ### The end of a context (R439, R443) -/

/-- The clock, the ends of contexts, and where every queue stands. -/
structure State.Abides (s t : State) : Prop where
  tick : t.tick = s.tick
  endings : t.endings = s.endings
  queue : ∀ q, (t.queue q).state = (s.queue q).state

theorem State.Stands.abides {s t : State} (h : s.Stands t) : s.Abides t := ⟨h.tick, h.endings, h.queue⟩

theorem State.Abides.refl (s : State) : s.Abides s := (State.Stands.refl s).abides

theorem State.Abides.trans {a b c : State} (h : a.Abides b) (h' : b.Abides c) : a.Abides c :=
  ⟨h'.tick.trans h.tick, h'.endings.trans h.endings, fun q => (h'.queue q).trans (h.queue q)⟩

theorem foldl_abides {α : Type} {f : State → α → State} (hf : ∀ (s : State) (x : α), s.Abides (f s x)) (l : List α) (s : State) :
    s.Abides (l.foldl f s) :=
  List.foldlRecOn (motive := s.Abides) _ _ (.refl s) fun _ h x _ => h.trans (hf _ x)

theorem updInst_abides (s : State) (i : Nat) (f : Instance → Instance) : s.Abides (s.updInst i f) := by
  unfold State.updInst
  split
  · exact ⟨rfl, rfl, fun _ => rfl⟩
  · exact .refl s

theorem endInst_abides (s : State) (i : Nat) : s.Abides (s.endInst i) := by
  have hmember (tn : Nat) (u : State) (m : Member) : u.Stands (if u.holdsCore tn m && !m.exited then
      { u.updCore m.core Core.discardQueued with monitors := u.monitors.filter (fun x => x.core ≠ m.core) } else u) :=
    ite_stands (.of_eq rfl rfl rfl rfl) (.refl u)
  have hteam (u : State) (p : Nat × Team) := (foldl_stands (hmember p.1) p.2.members u).trans (dropTeam_stands _ p.1 .contextEnd)
  exact (updInst_abides s i _).trans (((dropInstRequests_stands _ i).trans (foldl_stands hteam _ _)).trans (push_stands _ _)).abides

theorem endCore_stands (s : State) (n : Nat) : s.Stands (s.endCore n) := (updCore_stands ..).trans (stopCore_stands ..)

theorem endLaunch_stands (s : State) (u : Nat) : s.Stands (s.endLaunch u) := updUnit_stands ..

/-- A queue that the end of context `ctx` stops (R439). -/
def Queue.stoppedBy (ctx : Nat) (q : Queue) : Queue :=
  if q.ctx = ctx ∧ q.en = true then { q with state := 5, kickAt := none, waitAt := none, park := none, job := none, phase := none, graph := none } else q

/-- The instances of a context that its end takes off. -/
def State.instsIn (s : State) (ctx : Nat) : List Nat := (s.insts.filter (fun p => (s.teamsOf p.1).any (fun t => t.2.ctx == ctx))).map Prod.fst

/-- The queues of a context are stopped. -/
def State.stopQueues (s : State) (ctx : Nat) : State := { s with queues := tmap (fun _ q => Queue.stoppedBy ctx q) s.queues }

/-- The end of a context is under way for the instances of it. -/
def State.endBegun (s : State) (ctx : Nat) : State :=
  { s with endings := s.endings.filter (fun e => decide (e.tick = s.tick) || s.endLeft e) ++ [⟨ctx, s.tick, s.instsIn ctx⟩] }

/-- The bare cores, the units and the bookings of a context that is being ended are taken off. -/
def State.endWork (s : State) (ctx : Nat) : State :=
  let bare := (s.cores.filter (fun p => p.2.busy && p.2.csr.ctxId.toNat == ctx && p.2.team.isNone)).map Prod.fst
  let s := bare.foldl State.endCore s
  let us := (s.units.filter (fun p => p.2.ctx == ctx && p.2.open')).map Prod.fst
  let s := (us.filter (fun u => (s.unit u).any (fun x => x.kind == 0))).foldl State.endLaunch s
  let s := (us.filter (fun u => (s.unit u).any (fun x => x.kind != 0))).foldl
    (fun s u => s.updUnit u (fun x => { x with closed := true, faulted := true })) s
  s.dropReservations (fun r => r.ctx == ctx && r.queue.isSome)

section
variable {s : State} {ctx : Nat}

theorem exec_contextEnd_ending (cause refill : Nat) (h : s.isEnding ctx = true) : exec (.contextEnd ctx cause refill) s = .next s := if_pos h

/-- The state in which all that the end of a context takes off is gone or draining, and what it finishes has finished. -/
def State.contextOver (s : State) (ctx : Nat) : State :=
  let s := s.stopQueues ctx
  (((s.instsIn ctx).foldl State.endInst (s.endBegun ctx)).endWork ctx).settleUnits

theorem exec_contextEnd (cause refill : Nat) (h : s.isEnding ctx = false) : exec (.contextEnd ctx cause refill) s =
    .next ((s.contextOver ctx).event 0xB01 3 (some ctx) 9 0 0 0 (cause % 65536 + refill * 65536) 0) := by
  show execContextEnd ctx cause refill s = _
  unfold execContextEnd
  rw [if_neg (by rw [h]; simp)]
  rfl

end

theorem endWork_stands (s : State) (ctx : Nat) : s.Stands (s.endWork ctx) := by
  have hunit (u : State) (k : Nat) : u.Stands (u.updUnit k (fun x => { x with closed := true, faulted := true })) := updUnit_stands ..
  exact (((foldl_stands endCore_stands _ s).trans (foldl_stands endLaunch_stands _ _)).trans (foldl_stands hunit _ _)).trans (dropReservations_stands _ _)

end Sys2Proof.Machine
end

section
/-! PROOF. The end of a context (R439), and teams that are back in their cores (R68): what every queue and every team is then. -/

namespace Sys2Proof.Machine

/-! ### The end of a context (R439) -/

section
variable {s : State} {ctx : Nat}

theorem queue_stopQueues {q : Nat} (hctx : (s.queue q).ctx = ctx) (hen : (s.queue q).en = true) : ((s.stopQueues ctx).queue q).state = 5 := by
  unfold State.queue at *
  show (tget (Queue.init q) (tmap (fun _ q => Queue.stoppedBy ctx q) s.queues) q).state = 5
  rw [tget_eq] at hctx hen ⊢
  rw [tfind_tmap]
  cases hq : tfind s.queues q with
  | none => rw [hq] at hen; cases hen
  | some x =>
    rw [hq] at hctx hen
    exact congrArg Queue.state (if_pos (show x.ctx = ctx ∧ x.en = true from ⟨hctx, hen⟩))

theorem contextOver_abides (s : State) (ctx : Nat) : ((s.stopQueues ctx).endBegun ctx).Abides (s.contextOver ctx) :=
  (foldl_abides endInst_abides _ _).trans ((endWork_stands _ ctx).trans (settleUnits_stands _)).abides

theorem contextOver_isEnding (s : State) (ctx : Nat) : (s.contextOver ctx).isEnding ctx = true := by
  have h := contextOver_abides s ctx
  refine List.any_eq_true.2 ⟨⟨ctx, s.tick, (s.stopQueues ctx).instsIn ctx⟩, ?_, ?_⟩
  · rw [h.endings]
    exact List.mem_append_right _ (List.mem_singleton_self _)
  · rw [h.tick]
    simp [State.endBegun, State.stopQueues]

theorem contextOver_queue {q : Nat} (hctx : (s.queue q).ctx = ctx) (hen : (s.queue q).en = true) : ((s.contextOver ctx).queue q).state = 5 :=
  ((contextOver_abides s ctx).queue q).trans (queue_stopQueues hctx hen)

/-- The end of a context that has nothing under way: its queues stop, and no more. -/
theorem contextOver_bare (hinsts : ∀ p ∈ s.insts, (s.teamsOf p.1).any (fun t => t.2.ctx == ctx) = false)
    (hcores : ∀ p ∈ s.cores, ¬(p.2.busy = true ∧ p.2.csr.ctxId.toNat = ctx ∧ p.2.team = none))
    (hunits : ∀ p ∈ s.units, p.2.ctx = ctx → p.2.open' = false) (hheld : ∀ r ∈ s.reservations, r.ctx ≠ ctx) :
    s.contextOver ctx = ({ s.stopQueues ctx with
      endings := s.endings.filter (fun e => decide (e.tick = s.tick) || s.endLeft e) ++ [⟨ctx, s.tick, []⟩] } : State).settleUnits := by
  have hnone : (s.stopQueues ctx).instsIn ctx = [] := by
    refine congrArg (List.map Prod.fst) (List.filter_eq_nil_iff.2 fun p hp => ?_)
    exact (Bool.not_eq_true _).mpr (hinsts p hp)
  have hbare : s.cores.filter (fun p => p.2.busy && p.2.csr.ctxId.toNat == ctx && p.2.team.isNone) = [] := by
    refine List.filter_eq_nil_iff.2 fun p hp h => hcores p hp ?_
    simpa [and_assoc] using h
  have hopen : s.units.filter (fun p => p.2.ctx == ctx && p.2.open') = [] := by
    refine List.filter_eq_nil_iff.2 fun p hp h => ?_
    obtain ⟨hctx, ho⟩ := by simpa using h
    rw [hunits p hp hctx] at ho
    cases ho
  have hrest : s.reservations.filter (fun r => r.ctx == ctx && r.queue.isSome) = [] := by
    refine List.filter_eq_nil_iff.2 fun r hr h => hheld r hr ?_
    simp only [Bool.and_eq_true, beq_iff_eq] at h
    exact h.1
  have hwork (l : List Ending) : ({ s.stopQueues ctx with endings := l } : State).endWork ctx = { s.stopQueues ctx with endings := l } := by
    unfold State.endWork State.dropReservations
    simp only [State.stopQueues, hbare, hopen, hrest, List.map_nil, List.filter_nil, List.foldl_nil]
  unfold State.contextOver State.endBegun
  dsimp only
  rw [hnone, List.foldl_nil, hwork]
  rfl
end

/-! ### Bookings change the clusters only (R84, R97) -/

theorem anchorAt_teams {s u : State} {l : List Want} {kept : Option Booking} {t a : Nat} (h : s.anchorAt l kept t = some (u, a)) : u.teams = s.teams := by
  unfold State.anchorAt at h
  dsimp only at h
  split at h
  · cases h
  · obtain ⟨v, hv, he⟩ := Option.map_eq_some_iff.1 h
    cases he
    refine List.foldlRecOn (motive := fun r : Option State => ∀ v, r = some v → v.teams = s.teams) _ _ (fun v hv => ?_) (fun r hr x _ v hv => ?_) _ hv
    · cases hv; rfl
    · split at hv
      · cases hv
      · next w =>
        split at hv
        · cases hv; exact hr w rfl
        · cases hv

theorem holdAll_teams {s u : State} {l : List (Want × Image)} (h : s.holdAll l = some u) : u.teams = s.teams := by
  refine List.foldlRecOn (motive := fun r : Option State => ∀ v, r = some v → v.teams = s.teams) _ _ (fun v hv => ?_) (fun r hr x _ v hv => ?_) _ h
  · cases hv; rfl
  · split at hv
    · cases hv
    · next w =>
      dsimp only at hv
      split at hv
      · cases hv; exact hr _ rfl
      · split at hv
        · cases hv; exact hr w rfl
        · cases hv

theorem firstFit_teams {s u : State} {l : List Want} {f : State → Nat → Option State} (hf : ∀ v w a, f v a = some w → w.teams = v.teams) {a : Nat} (n : Nat) :
    ∀ t, s.firstFit l f n t = some (u, a) → u.teams = s.teams := by
  induction n with
  | zero => exact fun t h => nomatch h
  | succ n ih =>
    intro t h
    unfold State.firstFit at h
    split at h
    · next v b hv =>
      split at h
      · next w hw =>
        cases h
        exact (hf v _ _ hw).trans (anchorAt_teams hv)
      · exact ih _ h
    · exact ih _ h

theorem bookTeam_teams {s u : State} {l : List (Want × Image)} {t n a : Nat} (h : s.bookTeam l t n = some (u, a)) : u.teams = s.teams :=
  firstFit_teams (fun _ _ _ h => holdAll_teams h) n t h

/-! ### Teams that are back in their cores (R68) -/

/-- A team that is back in its cores, held or staged for its release. -/
def Team.back (t : Team) : Prop := t.resumed = true ∧ t.asked = false ∧ (t.state = .held ∨ t.state = .staged) ∧ ∀ m ∈ t.members, m.saved = none

/-- Every team of `inst` is back in its cores. -/
def State.instBack (s : State) (inst : Nat) : Prop := ∀ k x, s.team k = some x → x.inst = inst → x.back

theorem State.instBack.of_teams {s t : State} {inst : Nat} (h : s.instBack inst) (ht : t.teams = s.teams) : t.instBack inst :=
  fun k x hx => h k x ((congrArg (fun l => tfind l k) ht).symm.trans hx)

/-- A team whose member states have been read back. -/
def Team.readBack (t : Team) (now : Nat) : Team :=
  { (t.rewait now) with resumed := true, asked := false, state := .held, release := now, members := t.members.map (fun m => { m with saved := none }) }

theorem readBack_back (t : Team) (now : Nat) : (t.readBack now).back := by
  refine ⟨rfl, rfl, .inl rfl, fun m hm => ?_⟩
  obtain ⟨m', -, rfl⟩ := List.mem_map.1 hm
  rfl

theorem stagedAt_back {t : Team} (h : t.back) (now a : Nat) : (t.stagedAt now a).back := by
  obtain ⟨hr, ha, -, hm⟩ := h
  have hmembers := (stagedAt_leaves t now a).2.2
  refine ⟨?_, ?_, .inr rfl, hmembers ▸ hm⟩
  · rw [← hr]; unfold Team.stagedAt; dsimp only; split <;> rfl
  · rw [← ha]; unfold Team.stagedAt; dsimp only; split <;> rfl

theorem stagedAt_inst (t : Team) (now a : Nat) : (t.stagedAt now a).inst = t.inst := by
  unfold Team.stagedAt
  dsimp only
  split <;> rfl

/-- Each of some teams is read back, in order. -/
theorem foldl_readBack {inst : Nat} (l : List (Nat × Team)) : ∀ s : State,
    (∀ k x, s.team k = some x → x.inst = inst → x.back ∨ k ∈ l.map Prod.fst) →
    (l.foldl (fun r p => r.updTeam p.1 (fun t => t.readBack r.tick)) s).instBack inst := by
  induction l with
  | nil => exact fun s h k x hx hi => (h k x hx hi).resolve_right (by simp)
  | cons p l ih =>
    intro s h
    refine ih _ fun k x hx hi => ?_
    rw [team_updTeam_cases] at hx
    split at hx
    · obtain ⟨y, -, rfl⟩ := Option.map_eq_some_iff.1 hx
      exact .inl (readBack_back y _)
    · next hk => exact (h k x hx hi).imp_right fun hm => (List.mem_cons.1 hm).resolve_left hk

theorem updCore_instBack {s : State} {inst : Nat} (h : s.instBack inst) (n : Nat) (f : Core → Core) : (s.updCore n f).instBack inst := h.of_teams rfl

/-- The members of one team of a group wait for their release tick. -/
def State.stageOne (s : State) (a : Nat) (p : Nat × Team) : State :=
  let s := if p.2.resumed then (liveOf [p]).foldl (fun s x => s.updCore x.2.core Core.restaged) s else s
  (s.updTeam p.1 (fun t => t.stagedAt s.tick a)).sendTeam .staged p.1

theorem markStaged_eq (s : State) (g : List (Nat × Team)) (a : Nat) : s.markStaged g a = g.foldl (fun s p => s.stageOne a p) s := rfl

theorem sendTeam_teams (s : State) (k : MsgKind) (tn : Nat) : (s.sendTeam k tn).teams = s.teams := by rw [(sendTeam_linksMove s k tn).same]

theorem stageOne_instBack {s : State} {inst : Nat} (h : s.instBack inst) (a : Nat) (p : Nat × Team) : (s.stageOne a p).instBack inst := by
  have hcores : (if p.2.resumed then (liveOf [p]).foldl (fun s x => s.updCore x.2.core Core.restaged) s else s).instBack inst := by
    split
    · exact List.foldlRecOn (motive := fun v : State => v.instBack inst) _ _ h fun v hv x _ => updCore_instBack hv _ _
    · exact h
  unfold State.stageOne
  generalize (if p.2.resumed then (liveOf [p]).foldl (fun s x => s.updCore x.2.core Core.restaged) s else s) = v at hcores ⊢
  refine State.instBack.of_teams (s := v.updTeam p.1 (fun t => t.stagedAt v.tick a)) (fun k x hx hi => ?_) (sendTeam_teams _ _ _)
  rw [team_updTeam_cases] at hx
  split at hx
  · obtain ⟨y, hy, rfl⟩ := Option.map_eq_some_iff.1 hx
    exact stagedAt_back (hcores k y hy ((stagedAt_inst y v.tick a).symm.trans hi)) _ _
  · exact hcores k x hx hi

theorem markStaged_instBack {s : State} {inst : Nat} (h : s.instBack inst) (g : List (Nat × Team)) (a : Nat) : (s.markStaged g a).instBack inst := by
  rw [markStaged_eq]
  exact List.foldlRecOn (motive := fun u : State => u.instBack inst) _ _ h fun u hu p _ => stageOne_instBack hu a p

theorem bookHeld_instBack {s u : State} {inst : Nat} (h : s.instBack inst) {g : List (Nat × Team)} (hu : s.bookHeld g = some u) : u.instBack inst := by
  cases hw : s.groupWants g with
  | nil =>
    rw [bookHeld_nil hw] at hu
    cases hu
    exact markStaged_instBack h _ _
  | cons x l =>
    rw [bookHeld_cons hw] at hu
    obtain ⟨⟨v, a⟩, hv, rfl⟩ := Option.map_eq_some_iff.1 hu
    exact markStaged_instBack (h.of_teams (bookTeam_teams hv)) _ _

/-- Every team of `inst` is read back. -/
def State.readBackAll (s : State) (inst : Nat) : State := (s.teamsOf inst).foldl (fun r p => r.updTeam p.1 (fun t => t.readBack r.tick)) s

theorem readBackAll_instBack (s : State) (inst : Nat) : (s.readBackAll inst).instBack inst :=
  foldl_readBack _ s fun k x hx hi =>
    have hmem : (k, x) ∈ s.teamsOf inst := List.mem_filter.2 ⟨mem_of_tfind hx, beq_iff_eq.2 hi⟩
    .inr (List.mem_map_of_mem (f := Prod.fst) hmem)

/-- The teams of `inst` are staged again where their segments fit, and held where they do not. -/
def State.stageBack (s : State) (tn inst : Nat) : State := (s.bookHeld (s.teamsOf inst)).getD (s.sendTeam .nofit tn)

theorem stageBack_instBack {s : State} {inst : Nat} (h : s.instBack inst) (tn : Nat) : (s.stageBack tn inst).instBack inst := by
  unfold State.stageBack
  cases hb : s.bookHeld (s.teamsOf inst) with
  | none => exact h.of_teams (sendTeam_teams s .nofit tn)
  | some u => exact bookHeld_instBack h hb

theorem resumeStaged_eq (s : State) (tn inst : Nat) (asked : Bool) : s.resumeStaged tn inst asked =
    if asked then (((s.countArea false).readBackAll inst).stageBack tn inst).push (.preempt tn)
    else ((s.countArea false).readBackAll inst).stageBack tn inst := rfl

theorem resumeStaged_leaves (s : State) (tn inst : Nat) (asked : Bool) : (s.resumeStaged tn inst asked).instBack inst ∧
    (asked = true → .event (.preempt tn) ∈ (s.resumeStaged tn inst asked).agenda) := by
  have hback := stageBack_instBack (readBackAll_instBack (s.countArea false) inst) tn
  rw [resumeStaged_eq]
  cases asked with
  | false => exact ⟨hback, nofun⟩
  | true => exact ⟨hback.of_teams rfl, fun _ => List.mem_append_right _ (List.mem_singleton_self _)⟩

end Sys2Proof.Machine
end

section
/-! PROOF. Placement of a fresh team (R41, R42, R395): it stands on as many cores as its image asks for, and every one of them is eligible. -/

namespace Sys2Proof.Machine

/-! ### Lists in the order of a key -/

section
variable {α : Type} (f : α → Nat)

theorem insertKey_perm (x : α) (l : List α) : (insertKey f x l).Perm (x :: l) := by
  induction l with
  | nil => exact .refl _
  | cons y l ih =>
    unfold insertKey
    split
    · exact .refl _
    · exact (ih.cons y).trans (.swap x y l)

theorem foldl_insertKey_perm (l : List α) : ∀ r : List α, (l.foldl (fun r x => insertKey f x r) r).Perm (l ++ r) := by
  induction l with
  | nil => exact fun r => .refl r
  | cons x l ih => exact fun r => (ih _).trans (((insertKey_perm f x r).append_left l).trans List.perm_middle)

theorem sortKey_perm (l : List α) : (sortKey f l).Perm l := by simpa [sortKey] using foldl_insertKey_perm f l []

/-- A list in the order of a key. -/
def Ordered (l : List α) : Prop := l.Pairwise (fun a b => f a ≤ f b)

variable {f}

theorem insertKey_ordered {l : List α} (h : Ordered f l) (x : α) : Ordered f (insertKey f x l) := by
  induction l with
  | nil => exact List.pairwise_singleton _ _
  | cons y l ih =>
    obtain ⟨hy, hl⟩ := List.pairwise_cons.1 h
    unfold insertKey
    split
    · next hlt =>
      refine List.pairwise_cons.2 ⟨fun b hb => ?_, h⟩
      obtain rfl | hb := List.mem_cons.1 hb
      · exact hlt.le
      · exact hlt.le.trans (hy b hb)
    · next hge =>
      refine List.pairwise_cons.2 ⟨fun b hb => ?_, ih hl⟩
      obtain rfl | hb := List.mem_cons.1 ((insertKey_perm f x l).mem_iff.1 hb)
      · exact Nat.not_lt.1 hge
      · exact hy b hb

/-- One list is the other with `c` put in. -/
def PutIn (c : α) (a b : List α) : Prop := ∃ pre post, a = pre ++ c :: post ∧ b = pre ++ post

theorem insertKey_putIn {c : α} {a b : List α} (h : PutIn c a b) (ha : Ordered f a) (x : α) : PutIn c (insertKey f x a) (insertKey f x b) := by
  obtain ⟨pre, post, rfl, rfl⟩ := h
  induction pre with
  | nil =>
    obtain ⟨hc, -⟩ := List.pairwise_cons.1 ha
    simp only [List.nil_append]
    rw [insertKey]
    split
    · next hlt =>
      refine ⟨[x], post, rfl, ?_⟩
      cases post with
      | nil => rfl
      | cons y post => exact if_pos (hlt.trans_le (hc y List.mem_cons_self))
    · exact ⟨[], _, rfl, rfl⟩
  | cons y pre ih =>
    simp only [List.cons_append, insertKey]
    split
    · exact ⟨x :: y :: pre, post, rfl, rfl⟩
    · obtain ⟨pre', post', h, h'⟩ := ih (List.pairwise_cons.1 ha).2
      exact ⟨y :: pre', post', by rw [h]; rfl, by rw [h']; rfl⟩

theorem foldl_insertKey_putIn (l : List α) : ∀ {c : α} {a b : List α}, PutIn c a b → Ordered f a →
    PutIn c (l.foldl (fun r x => insertKey f x r) a) (l.foldl (fun r x => insertKey f x r) b) := by
  induction l with
  | nil => exact fun h _ => h
  | cons x l ih => exact fun h ha => ih (insertKey_putIn h ha x) (insertKey_ordered ha x)

theorem sortKey_cons (c : α) (l : List α) : PutIn c (sortKey f (c :: l)) (sortKey f l) :=
  foldl_insertKey_putIn l (a := [c]) ⟨[], [], rfl, rfl⟩ (List.pairwise_singleton _ _)
end

/-! ### The clusters that a team takes (R395) -/

section
variable (size : Nat → Nat)

theorem mostOf_zero (l : List Nat) : mostOf size 0 l = 0 := rfl

theorem mostOf_nil (k : Nat) : mostOf size k [] = 0 := by simp [mostOf, sortKey]

/-- The best of a cluster and some more is with it, or without it. -/
theorem mostOf_cons (k c : Nat) (l : List Nat) :
    mostOf size (k + 1) (c :: l) = size c + mostOf size k l ∨ mostOf size (k + 1) (c :: l) = mostOf size (k + 1) l := by
  obtain ⟨pre, post, h, h'⟩ := sortKey_cons (f := fun c => 8 - size c) c l
  unfold mostOf
  rw [h, h']
  by_cases hk : pre.length ≤ k
  · left
    obtain ⟨j, rfl⟩ := Nat.exists_eq_add_of_le hk
    rw [Nat.add_assoc, List.take_length_add_append, List.take_length_add_append]
    simp [List.take_succ_cons, Nat.add_left_comm]
  · right
    have hk : k + 1 ≤ pre.length := by omega
    rw [List.take_append_of_le_length hk, List.take_append_of_le_length hk]

/-- The clusters that are picked hold what is asked of them, where the best choice does. -/
theorem pickClusters_holds (l : List Nat) : ∀ k n : Nat, n ≤ mostOf size k l → n ≤ ((pickClusters size k n l).map size).sum := by
  induction l with
  | nil =>
    intro k n h
    rw [mostOf_nil] at h
    omega
  | cons c l ih =>
    intro k n h
    cases k with
    | zero => rw [mostOf_zero] at h; omega
    | succ k =>
      unfold pickClusters
      split
      · next hn =>
        have := ih k (n - size c) (by omega)
        simp only [List.map_cons, List.sum_cons]
        omega
      · next hn =>
        obtain hc | hc := mostOf_cons size k c l
        · omega
        · exact ih (k + 1) n (hc ▸ h)
end

/-! ### The cores that a team takes (R395) -/

section
variable {ok : Nat → Bool} {room : Nat → Nat} {n : Nat}

theorem chooseCores_ok {l : List Nat} (h : chooseCores ok room n = some l) : l.length = n ∧ ∀ c ∈ l, ok c = true := by
  unfold chooseCores at h
  dsimp only at h
  split at h
  · next k hk =>
    cases h
    have hmost := List.find?_some hk
    rw [decide_eq_true_eq] at hmost
    have hholds := pickClusters_holds _ _ k n hmost
    refine ⟨?_, fun c hc => ?_⟩
    · rw [(sortKey_perm _ _).length_eq, List.length_take, List.length_flatMap]
      exact Nat.min_eq_left hholds
    · have hc := List.mem_of_mem_take ((sortKey_perm _ _).mem_iff.1 hc)
      obtain ⟨cl, -, hc⟩ := List.mem_flatMap.1 hc
      exact (List.mem_filter.1 (List.mem_of_mem_take hc)).2
  · cases h

theorem seekCores_ok {α : Type} {k : List Nat → Option α} {r : α} (l : List Nat) : ∀ (n : Nat) (got : List Nat), seekCores room k n l got = some r →
    ∃ more, more.length = n ∧ (∀ c ∈ more, c ∈ l) ∧ k (got ++ more) = some r := by
  induction l with
  | nil =>
    intro n got h
    cases n with
    | zero => exact ⟨[], rfl, by simp, by simpa [seekCores] using h⟩
    | succ n => cases h
  | cons c l ih =>
    intro n got h
    cases n with
    | zero => exact ⟨[], rfl, by simp, by simpa [seekCores] using h⟩
    | succ n =>
      unfold seekCores at h
      split at h
      · cases h
      · split at h
        · next x hx =>
          cases h
          split at hx
          · obtain ⟨more, hlen, hmem, hk⟩ := ih n _ hx
            refine ⟨c :: more, by rw [List.length_cons, hlen], fun b hb => ?_, by simpa using hk⟩
            obtain rfl | hb := List.mem_cons.1 hb
            · exact List.mem_cons_self
            · exact List.mem_cons_of_mem _ (hmem b hb)
          · cases hx
        · obtain ⟨more, hlen, hmem, hk⟩ := ih (n + 1) got h
          exact ⟨more, hlen, fun b hb => List.mem_cons_of_mem _ (hmem b hb), hk⟩

theorem tryCores_ok {α : Type} {k : List Nat → Option α} {r : α} (h : tryCores ok room n k = some r) :
    ∃ l, l.length = n ∧ (∀ c ∈ l, ok c = true) ∧ k l = some r := by
  unfold tryCores at h
  split at h
  · next x hx =>
    cases h
    obtain ⟨l, hl, hk⟩ := Option.bind_eq_some_iff.1 hx
    obtain ⟨hlen, hok⟩ := chooseCores_ok hl
    exact ⟨l, hlen, hok, hk⟩
  · obtain ⟨l, hlen, hmem, hk⟩ := seekCores_ok _ n [] h
    exact ⟨l, hlen, fun c hc => (List.mem_filter.1 (hmem c hc)).2, hk⟩
end

/-! ### A fresh team on its cores (R41, R42) -/

theorem freshMembers_length (l : List Nat) : (freshMembers l).length = l.length := by simp [freshMembers]

theorem nth_mem {l : List Nat} {k : Nat} (h : k < l.length) : nth l k ∈ l := by
  unfold nth
  rw [List.getD_eq_getElem _ _ h]
  exact List.getElem_mem h

theorem freshMembers_core {l : List Nat} {m : Member} (h : m ∈ freshMembers l) : m.core ∈ l ∧ m.exited = false := by
  obtain ⟨k, hk, rfl⟩ := List.mem_map.1 h
  exact ⟨nth_mem (List.mem_range.1 hk), rfl⟩

section
variable {s : State} {tn : Nat} {t : Team}

theorem placeAll_fresh {ok : State → Team → Nat → Bool} {r : State} (hm : t.members = []) (h : State.placeAll ok some [(tn, t)] s = some r) :
    ∃ l, l.length = t.image.teamSize ∧ (∀ c ∈ l, ok s t c = true) ∧ r = s.updTeam tn (fun t => t.onCores l) := by
  unfold State.placeAll at h
  simp only [hm, List.isEmpty_nil, if_true] at h
  split at h
  · obtain ⟨l, hlen, hok, hput⟩ := tryCores_ok h
    exact ⟨l, hlen, hok, (Option.some.inj hput).symm⟩
  · split at h
    · next hpin =>
      obtain ⟨hlen, hall⟩ := hpin
      refine ⟨_, hlen, fun c hc => ?_, (Option.some.inj h).symm⟩
      have hc := List.all_eq_true.1 hall c hc
      exact (Bool.and_eq_true_iff.1 hc).1
    · cases h

theorem placeTeam_fresh (h : s.team tn = some t) (hstate : t.state = .ready) (hm : t.members = []) (hgang : s.teamsOf t.inst = [(tn, t)]) :
    s.placeTeam tn = s ∨ ∃ l, l.length = t.image.teamSize ∧ (∀ c ∈ l, s.eligible t.image.usem c = true) ∧
      s.placeTeam tn = (s.updTeam tn (fun t => t.onCores l)).sendTeam .place tn := by
  have hready : t.state = .ready ∧ (s.teamsOf t.inst).all (fun p => decide (p.2.state = .ready)) = true := by simp [hgang, hstate]
  unfold State.placeTeam
  simp only [h]
  by_cases hp : s.paused t.ctx = true
  · rw [if_pos hp]
    exact .inl rfl
  · rw [if_neg hp, if_pos hready, hgang]
    cases hp : State.placeAll (fun r x n => r.eligible x.image.usem n) some [(tn, t)] s with
    | none => exact .inl rfl
    | some r =>
      obtain ⟨l, hlen, hok, rfl⟩ := placeAll_fresh hm hp
      exact .inr ⟨l, hlen, hok, rfl⟩

theorem placeTeam_leaves {u : Team} (h : s.team tn = some t) (hstate : t.state = .ready) (hm : t.members = []) (hgang : s.teamsOf t.inst = [(tn, t)])
    (hu : (s.placeTeam tn).team tn = some u) : (u = t ∧ s.placeTeam tn = s) ∨ (u.state = .placed ∧ u.members.length = t.image.teamSize ∧
      (s.placeTeam tn).cores = s.cores ∧ ∀ m ∈ u.members, s.eligible t.image.usem m.core = true ∧ m.exited = false) := by
  obtain hp | ⟨l, hlen, hok, hp⟩ := placeTeam_fresh h hstate hm hgang
  · rw [hp, h] at hu
    exact .inl ⟨(Option.some.inj hu).symm, hp⟩
  · have hteam : (s.placeTeam tn).team tn = some (t.onCores l) := by
      rw [hp]
      exact (congrArg (fun x => tfind x tn) (sendTeam_teams _ _ _)).trans (team_updTeam h _)
    have hmembers : (t.onCores l).members = freshMembers l := by unfold Team.onCores; simp only [hm, List.isEmpty_nil, if_true]
    cases (Option.some.inj (hteam.symm.trans hu) : t.onCores l = u)
    refine .inr ⟨rfl, by rw [hmembers, freshMembers_length, hlen], ?_, fun m hm => ?_⟩
    · obtain ⟨x, hx⟩ := updTeam_frame s tn (fun t => t.onCores l)
      rw [hp, (sendTeam_linksMove _ .place tn).same, hx]
    · rw [hmembers] at hm
      obtain ⟨hc, he⟩ := freshMembers_core hm
      exact ⟨hok _ hc, he⟩
end

end Sys2Proof.Machine
end

section
/-! PROOF. Events of teams and launches (R42, R43, R48, R54, R55, R62, R65, R66, R68, R71, R395, R437, R439, R443, R481, R482, R488, R489): O53. -/

namespace Sys2Proof.Machine

section
variable {s : State}

/-! ### Swap-out (R65, R126) -/

theorem exec_swapOutComplete_free {n tn : Nat} {t : Team} {m : Member} (h : s.teamOf n = some (tn, t))
    (hm : t.members.find? (fun m => m.core == n && !m.exited && !m.done) = some m) (hmode : (s.core n).seq.mode = .swapped) (hstate : t.state = .stopping)
    (hfree : s.reservedNow (clusterOf n) = false) {u : State} {b : Bool} (hu : s.flushAll n = (u, b)) :
    exec (.swapOutComplete n) s = .next (if b then u.saveMember n tn t.inst m.rank else u) := by
  rw [exec_swapOutComplete h hm hmode hstate, hfree, hu]
  rfl

theorem saveOf_leaves (s : State) (n tn : Nat) : let w := s.saveOf n tn
    let c := (s.core n).settle
    w.core.x = c.x ∧ w.core.vec = c.vec ∧ w.core.rings = c.rings ∧ w.core.bars = c.bars ∧ w.core.desc = c.desc ∧ w.core.mat = c.mat ∧ w.core.csr = c.csr ∧
    w.core.rgn = c.rgn ∧ w.core.turn = c.turn ∧ w.core.seq.pc = c.seq.pc ∧ w.core.seq.furrow = c.seq.furrow ∧ w.core.seq.latch = c.seq.latch ∧
    w.core.seq.code = [] ∧ w.core.image = none ∧
    (∀ a, inSpans (c.spans false) a = true → (c.field.group a).valid = true → inSpans (c.spansOf false true) a = false →
      ∀ x ∈ c.field.cells, x.1 = a → x ∈ w.core.field.cells) :=
  ⟨rfl, rfl, rfl, rfl, rfl, rfl, rfl, rfl, rfl, rfl, rfl, rfl, rfl, rfl, fun _ hin hv hm _ hx ha => saveOf_cells hin hv hm hx ha⟩

/-! ### Swap-in (R66, R68, R437) -/

section
variable {tn : Nat} {t : Team} (h : s.team tn = some t) (hall : (s.teamsOf t.inst).all (fun p => decide (p.2.state = .restoring)) = true)
include h hall

theorem exec_swapInComplete_late (hlate : (s.teamsOf t.inst).any (fun p => p.2.members.any (fun m => s.reservedNow (clusterOf m.core))) = true) :
    exec (.swapInComplete tn) s = .next s := by
  rw [exec_swapInComplete h hall, if_pos hlate]

theorem exec_swapInComplete_bad (hlate : (s.teamsOf t.inst).any (fun p => p.2.members.any (fun m => s.reservedNow (clusterOf m.core))) = false)
    (hbad : (s.teamsOf t.inst).any (fun p => p.2.areaBad) = true) :
    exec (.swapInComplete tn) s = .next (s.areaError t.ctx (s.teamsOf t.inst)) := by
  rw [exec_swapInComplete h hall, hlate, hbad]
  rfl

theorem exec_swapInComplete_digest (hlate : (s.teamsOf t.inst).any (fun p => p.2.members.any (fun m => s.reservedNow (clusterOf m.core))) = false)
    (hbad : (s.teamsOf t.inst).any (fun p => p.2.areaBad) = false) (hd : (s.teamsOf t.inst).all (fun p => sha256 p.2.area == p.2.digest) = false) :
    exec (.swapInComplete tn) s = .next ((s.digestEvent t.ctx (s.teamsOf t.inst)).resumeFault t.inst (s.teamsOf t.inst)) := by
  rw [exec_swapInComplete h hall, hlate, hbad, hd]
  rfl

theorem exec_swapInComplete_resume (hlate : (s.teamsOf t.inst).any (fun p => p.2.members.any (fun m => s.reservedNow (clusterOf m.core))) = false)
    (hbad : (s.teamsOf t.inst).any (fun p => p.2.areaBad) = false) (hd : (s.teamsOf t.inst).all (fun p => sha256 p.2.area == p.2.digest) = true) :
    exec (.swapInComplete tn) s = .next (s.resume tn t (s.teamsOf t.inst)) := by
  rw [exec_swapInComplete h hall, hlate, hbad, hd]
  rfl
end

/-! ### Admission (R488, R489) -/

theorem launchAdmit_admits {u : Nat} {x : UnitRec} (h : s.unit u = some x) (hkind : x.kind = 0) (hnew : x.admitted = false) (hopen : x.open' = true)
    (hr : s.refusalOf x = none) : ∃ t, exec (.launchAdmit u) s = .next t ∧ t.unit u = some { x with admitted := true, refusal := none } ∧
      t.log = s.log ∧ t.cores = s.cores := by
  obtain ⟨l, hl⟩ := updUnit_frame s u (fun x => { x with admitted := true, refusal := none })
  refine ⟨_, exec_launchAdmit_admits h hkind hnew hopen hr, unit_updUnit h _, ?_, ?_⟩
  all_goals rw [hl]

end

/-- Settles O53: each event of a team or of a launch, by its cases. -/
theorem teamEvents : Obligations.TeamEvents := by
  refine ⟨fun s tn t h hstate hdue hrun => ⟨fun hready => ?release, fun hready => ?held⟩,
    fun s tn t h hstate hrun => ⟨fun hready hw => ?headland, fun hready x l u a hw hb => ?booked, fun hready x l hw hb => ?nofit, fun hready => ?waits⟩,
    fun s tn t h hstate hplaced => exec_teamPlace_placed h hstate hplaced,
    fun s tn t h hstate hw => ⟨fun hused => ⟨_, (exec_quantumExpiry h hstate hw).trans (if_pos hused), sendTeam_push s .quantum tn (.preempt tn)⟩,
      fun hused => (exec_quantumExpiry h hstate hw).trans (if_neg (Nat.not_le.2 hused))⟩,
    fun s tn t h => ⟨fun hover => (exec_preempt h).trans (if_pos hover), fun hover => (exec_preempt h).trans (if_neg (by rw [hover]; simp))⟩,
    fun s n tn t m h hm hmode hstate => ⟨fun hres => (exec_swapOutComplete h hm hmode hstate).trans (if_pos hres), fun hfree => ⟨fun u hu => ?flush,
      fun u b w hu hlive => ?wordBad, fun u f hu hlive hsaved => ?flawBad, fun u hu hlive hsaved hmapped => ?mappedBad,
      fun u hu hlive hsaved hmapped => ?saved⟩⟩,
    saveOf_leaves,
    fun s inst => ⟨swapDone_waits, fun tn t h => swapTeam_leaves h⟩,
    fun s tn t h hall => ⟨exec_swapInComplete_late h hall, exec_swapInComplete_bad h hall, fun hlate hbad => ⟨exec_swapInComplete_digest h hall hlate hbad,
      fun r hd hr => ?page, fun r code d va l hd hr => ?refused, fun r u hd hr hu => ?fill, fun r u hd hr hu => ?resumed⟩⟩,
    areaError_leaves,
    fun s inst x g h => resumeFault_leaves h g,
    resumeStaged_leaves,
    restored_leaves,
    fun c i tn ctx rank size index presets => ?member,
    fun s tn a t h hr => ?staged,
    fun s tn t u h hstate hm hgang hu => placeTeam_leaves h hstate hm hgang hu,
    fun s i x h hx => exec_instanceComplete_empty h hx,
    fun s ctx cause refill => ⟨exec_contextEnd_ending cause refill, fun hnew => ⟨s.contextOver ctx, contextOver_isEnding s ctx,
      fun q _ hctx hen => contextOver_queue hctx hen, exec_contextEnd cause refill hnew⟩, fun hnew hinsts hcores hunits hheld => ?bare⟩,
    fun s u x h hkind hnew hopen => ⟨launchAdmit_admits h hkind hnew hopen, fun r hr => exec_launchAdmit_refuses h hkind hnew hopen hr⟩,
    fun s x => worse_eq_none,
    fun s ctx code d va key hkey => ⟨rfl, fun w => ?unsigned⟩⟩
  case release => exact (exec_taskRelease h hstate hdue hrun).trans (congrArg _ (if_pos hready))
  case held => exact (exec_taskRelease h hstate hdue hrun).trans (congrArg _ (if_neg (Bool.not_eq_true _ |>.mpr hready)))
  case headland => exact (exec_stageTeam_held h hstate hrun).trans (congrArg _ ((if_pos hready).trans (by rw [bookHeld_nil hw]; rfl)))
  case booked => exact (exec_stageTeam_held h hstate hrun).trans (congrArg _ ((if_pos hready).trans (by rw [bookHeld_cons hw, hb]; rfl)))
  case nofit => exact (exec_stageTeam_held h hstate hrun).trans (congrArg _ ((if_pos hready).trans (by rw [bookHeld_cons hw, hb]; rfl)))
  case waits => exact (exec_stageTeam_held h hstate hrun).trans (congrArg _ (if_neg (Bool.not_eq_true _ |>.mpr hready)))
  case flush => exact exec_swapOutComplete_free h hm hmode hstate hfree hu
  case wordBad => exact (exec_swapOutComplete_free h hm hmode hstate hfree hu).trans (congrArg _ (saveMember_badLive hlive))
  case flawBad => exact (exec_swapOutComplete_free h hm hmode hstate hfree hu).trans (congrArg _ (saveMember_badSaved hlive hsaved))
  case mappedBad =>
    exact (exec_swapOutComplete_free h hm hmode hstate hfree hu).trans (congrArg _ ((saveMember_clean hlive hsaved).trans (if_pos hmapped)))
  case saved =>
    refine ⟨saveMembers n m.rank (u.saveOf n tn), u.saveOf n tn, ?_, rfl, fun x hx hr => mem_saveMembers hx hr⟩
    exact (exec_swapOutComplete_free h hm hmode hstate hfree hu).trans
      (congrArg _ ((saveMember_clean hlive hsaved).trans (if_neg (by rw [hmapped]; simp))))
  case page => exact (exec_swapInComplete_resume h hall hlate hbad hd).trans (congrArg _ (resume_waits hr))
  case refused => exact (exec_swapInComplete_resume h hall hlate hbad hd).trans (congrArg _ (resume_refused hr))
  case fill => exact (exec_swapInComplete_resume h hall hlate hbad hd).trans (congrArg _ (resume_fills hr hu))
  case resumed => exact (exec_swapInComplete_resume h hall hlate hbad hd).trans (congrArg _ (resume_restored hr hu))
  case member =>
    refine ⟨rfl, rfl, rfl, rfl, rfl, rfl, rfl, rfl, rfl, fun hp r => ?_, fun r => Vector.getElem_replicate _, rfl, rfl, rfl, rfl, rfl, rfl, rfl, rfl, rfl, rfl,
      rfl, rfl, rfl, rfl, rfl, rfl, rfl, rfl, rfl, rfl, rfl, rfl, fun k => ?_, released_bars c i tn ctx rank size index presets⟩
    · subst hp; exact released_rs c i tn ctx rank size index r
    · rw [released_ring]
      exact ⟨rfl, rfl, rfl, rfl⟩
  case staged =>
    obtain ⟨hteam, hcores⟩ := markStaged_fresh h hr a
    obtain ⟨hst, hrel, hmem⟩ := stagedAt_leaves t s.tick a
    exact ⟨_, hteam, hst, hrel, hmem, hcores⟩
  case bare =>
    refine (exec_contextEnd cause refill hnew).trans ?_
    rw [contextOver_bare hinsts hcores hunits hheld]
    rfl
  case unsigned =>
    show (s.event code 0 (some ctx) 9 0 0 va d 0).event 0xC01 0 (some ctx) 9 0 0 w (((tfind s.contexts ctx).map Context.key).getD 0) 0 = _
    rw [hkey]

end Sys2Proof.Machine
end

section
/-! PROOF. The control registers of a core right after module reset (R55, R366, R425): O9. -/

namespace Sys2Proof.Machine

/-! ### Registers by their bank (R365, R367) -/

section
variable (s : State) (n : Nat) (c : Core) {k : Nat}

/-- LCn (R238, R366). -/
theorem csr_lc (h : k < 4) : s.csr n c (0x010 + k) = some (BitVec.ofNat 64 (c.x.lc.toList.getD k 0).toNat) := by
  unfold State.csr
  rw [if_pos ⟨by omega, by omega⟩, Nat.add_sub_cancel_left]

/-- RGNn (R367). -/
theorem csr_rgn (h : k < 16) : s.csr n c (0x100 + k) = some (BitVec.ofNat 64 (rgnWord (c.rgn.toList.getD k Region.init))) := by
  unfold State.csr
  rw [if_neg (by omega), if_pos ⟨by omega, by omega⟩, Nat.add_sub_cancel_left]

/-- RGNMAPn (R366). -/
theorem csr_mapva (h : k < 16) : s.csr n c (0x110 + k) = some (BitVec.ofNat 64 (c.rgn.toList.getD k Region.init).mapva) := by
  unfold State.csr
  rw [if_neg (by omega), if_neg (by omega), if_pos ⟨by omega, by omega⟩, Nat.add_sub_cancel_left]

/-- BSTATn (R367). -/
theorem csr_bstat (h : k < 16) : s.csr n c (0x200 + k) = some (BitVec.ofNat 64 (bstatWord (c.bars.toList.getD k Barrier.init))) := by
  unfold State.csr
  rw [if_neg (by omega), if_neg (by omega), if_neg (by omega), if_pos ⟨by omega, by omega⟩, Nat.add_sub_cancel_left]

/-- BPENDn (R366). -/
theorem csr_bpend (h : k < 16) : s.csr n c (0x210 + k) = some (BitVec.ofNat 64 (c.bars.toList.getD k Barrier.init).pend) := by
  unfold State.csr
  rw [if_neg (by omega), if_neg (by omega), if_neg (by omega), if_neg (by omega), if_pos ⟨by omega, by omega⟩, Nat.add_sub_cancel_left]
end

/-! ### What stands there after reset (R55, R366) -/

/-- A bank of registers that hold one value reads as that value, listed or not. -/
theorem replicate_getD {α : Type} (m k : Nat) (a : α) : (Vector.replicate m a).toList.getD k a = a := by
  rw [Vector.toList_replicate, List.getD_eq_getElem?_getD, List.getElem?_getD_replicate_default_eq]

/-- No region is described (R366). -/
theorem reset_rgn (n : Nat) {k : Nat} (h : k < 32) : State.reset.csr n (State.reset.core n) (0x100 + k) = some 0 := by
  obtain hlow | ⟨j, hj, rfl⟩ : k < 16 ∨ ∃ j, j < 16 ∧ k = 16 + j := by
    by_cases hk : k < 16
    · exact .inl hk
    · exact .inr ⟨k - 16, by omega, by omega⟩
  · rw [csr_rgn _ _ _ hlow]
    exact congrArg (fun r => some (BitVec.ofNat 64 (rgnWord r))) (replicate_getD 16 k Region.init)
  · rw [show 0x100 + (16 + j) = 0x110 + j by omega, csr_mapva _ _ _ hj]
    exact congrArg (fun r : Region => some (BitVec.ofNat 64 r.mapva)) (replicate_getD 16 j Region.init)

/-- Every barrier has PZ set and nothing else (R366, R367). -/
theorem reset_bars (n : Nat) {k : Nat} (h : k < 16) : State.reset.csr n (State.reset.core n) (0x200 + k) = some (BitVec.ofNat 64 0x20000000000) ∧
    State.reset.csr n (State.reset.core n) (0x210 + k) = some 0 := by
  have hb := replicate_getD 16 k Barrier.init
  rw [csr_bstat _ _ _ h, csr_bpend _ _ _ h]
  exact ⟨congrArg (fun b => some (BitVec.ofNat 64 (bstatWord b))) hb, congrArg (fun b : Barrier => some (BitVec.ofNat 64 b.pend)) hb⟩

/-- An idle core in service (R366). -/
theorem coreStat_init : coreStat Core.init .inService = 0 := by decide

/-- Nothing has counted in any channel (R149, R366). -/
theorem reset_channelReg (c : Core) {f : Channel → Double} (h : f ⟨0, 0, 0, 0⟩ = 0) : State.reset.channelReg c f = 0 := by
  show (if _ then f ⟨0, 0, 0, 0⟩ else 0) = 0
  rw [h, ite_self]

/-- Settles O9: the banks by their lemmas, and every other register by what the reset state holds. -/
theorem resetRegisters : Obligations.ResetRegisters := by
  intro n _ r
  have hstat := congrArg (fun v => some (BitVec.ofNat 64 v)) coreStat_init
  have hchannel (f : Channel → Double) (h : f ⟨0, 0, 0, 0⟩ = 0) := congrArg some (reset_channelReg (State.reset.core n) h)
  refine ⟨rfl, rfl, rfl, rfl, hstat, rfl, rfl, rfl, rfl, rfl, rfl, rfl, rfl, rfl, rfl, rfl, rfl, rfl, rfl, rfl, rfl, rfl, fun k hk => ?_,
    fun k hk => reset_rgn n hk, fun k hk => reset_bars n hk, rfl, rfl, rfl, rfl, rfl, rfl, hchannel _ rfl, hchannel _ rfl, hchannel _ rfl,
    hchannel _ rfl, rfl, rfl, rfl, rfl⟩
  refine (csr_lc _ _ _ hk).trans ?_
  exact congrArg (fun v : BitVec 32 => some (BitVec.ofNat 64 v.toNat)) (replicate_getD 4 k 0)

end Sys2Proof.Machine
end

section
/-! PROOF. Work on the calendars (R74, R82-R92): bookings, releases and stakes change the clusters' records and nothing else, and no anchor lies before
the tick from which it is looked for. -/

namespace Sys2Proof.Machine

/-! ### What work on the calendars leaves alone -/

/-- `t` differs from `s` in the clusters only. -/
def State.OnCalendars (s t : State) : Prop := t = { s with clusters := t.clusters }

section
variable {s t u : State}

theorem State.OnCalendars.refl (s : State) : s.OnCalendars s := rfl

theorem State.OnCalendars.trans (h : s.OnCalendars t) (h' : t.OnCalendars u) : s.OnCalendars u := by
  unfold State.OnCalendars at *
  rw [h', h]

theorem State.OnCalendars.cores (h : s.OnCalendars t) : t.cores = s.cores := by rw [h]

theorem State.OnCalendars.core (h : s.OnCalendars t) (n : Nat) : t.core n = s.core n := core_of_cores h.cores n

theorem State.OnCalendars.tick (h : s.OnCalendars t) : t.tick = s.tick := by rw [h]

theorem State.OnCalendars.agenda (h : s.OnCalendars t) : t.agenda = s.agenda := by rw [h]

theorem State.OnCalendars.pres (h : s.OnCalendars t) : t.pres = s.pres := by rw [h]

theorem State.OnCalendars.coresOf (h : s.OnCalendars t) (cl : Nat) : t.coresOf cl = s.coresOf cl := by
  unfold State.coresOf
  rw [h.pres]
end

theorem foldl_onCalendars {α : Type} {f : State → α → State} (hf : ∀ (s : State) (x : α), s.OnCalendars (f s x)) (l : List α) (s : State) :
    s.OnCalendars (l.foldl f s) :=
  List.foldlRecOn (motive := s.OnCalendars) _ _ (.refl s) fun _ h x _ => h.trans (hf _ x)

/-- A step that is taken in one case only. -/
theorem ite_onCalendars {s t u : State} {p : Prop} [Decidable p] (ht : s.OnCalendars t) (hu : s.OnCalendars u) : s.OnCalendars (if p then t else u) := by
  split
  · exact ht
  · exact hu

section
variable (s : State)

theorem updCluster_onCalendars (k : Nat) (f : Cluster → Cluster) : s.OnCalendars (s.updCluster k f) := rfl

theorem send_onCalendars (k : MsgKind) (cl arg : Nat) : s.OnCalendars (s.send k cl arg) := rfl

theorem book_onCalendars (b : Booking) : s.OnCalendars (s.book b) := rfl

theorem unbook_onCalendars (b : Booking) : s.OnCalendars (s.unbook b) := rfl

/-- A booking replaced by another. -/
theorem unbook_book_onCalendars (b b' : Booking) : s.OnCalendars ((s.unbook b).book b') := rfl

theorem slipOf_onCalendars (n : Nat) : s.OnCalendars (s.slipOf n) := rfl

theorem holdNext_onCalendars (x : Want) (t : Nat) : s.OnCalendars (s.holdNext x t) := ite_onCalendars rfl rfl

theorem holdSuccessor_onCalendars (core team index : Nat) (image : Image) : s.OnCalendars (s.holdSuccessor core team index image) := by
  unfold State.holdSuccessor
  split
  · exact .refl s
  · exact holdNext_onCalendars s _ _
end

/-! ### Anchors (R54, R83, R93) -/

/-- Every working tick of a layout lies at or after the tick from which it is laid. -/
theorem layFrom_work {s : State} {l : List Want} {most t0 : Nat} (k : Nat) : ∀ (t : Nat) (prev : Tbl Nat) (p : Plan), t0 ≤ t →
    (∀ a ∈ p.work, t0 ≤ a) → ∀ a ∈ (s.layFrom l most k t prev p).work, t0 ≤ a := by
  induction k with
  | zero => exact fun t prev p _ hp => hp
  | succ k ih =>
    intro t prev p ht hp
    unfold State.layFrom
    split
    · exact hp
    · refine ih _ _ _ (by omega) fun a ha => ?_
      obtain ha | ha := List.mem_append.1 ha
      · exact hp a ha
      · obtain ⟨j, -, rfl⟩ := List.mem_map.1 ha
        omega

section
variable {s u : State} {l : List Want} {a t : Nat}

theorem lay_work : ∀ a ∈ (s.lay l t).work, t ≤ a := layFrom_work 484 t [] ⟨[], []⟩ (Nat.le_refl t) (by simp)

/-- Furrows that are anchored together change the calendars only, and their anchor is no earlier than the tick from which it is looked for. -/
theorem anchorAt_leaves {kept : Option Booking} (h : s.anchorAt l kept t = some (u, a)) : s.OnCalendars u ∧ t ≤ a := by
  unfold State.anchorAt at h
  dsimp only at h
  split at h
  · cases h
  · next b rest hwork =>
    obtain ⟨v, hv, he⟩ := Option.map_eq_some_iff.1 h
    cases he
    refine ⟨?_, lay_work _ (hwork ▸ List.mem_cons_self)⟩
    refine List.foldlRecOn (motive := fun r : Option State => ∀ v, r = some v → s.OnCalendars v) _ _ (fun v hv => ?_) (fun r hr x _ v hv => ?_) _ hv
    · cases hv; exact .refl s
    · split at hv
      · cases hv
      · next w =>
        split at hv
        · cases hv; exact (hr w rfl).trans (book_onCalendars w _)
        · cases hv

theorem firstFit_leaves (n : Nat) : ∀ {t : Nat}, s.firstFit l (fun v _ => some v) n t = some (u, a) → s.OnCalendars u ∧ t ≤ a := by
  induction n with
  | zero => exact fun h => nomatch h
  | succ n ih =>
    intro t h
    unfold State.firstFit at h
    split at h
    · next v b hv => cases h; exact anchorAt_leaves hv
    · exact (ih h).imp_right Nat.le_of_succ_le
end

end Sys2Proof.Machine
end

section
/-! PROOF. Headlands and what is held unbooked (R59, R82, R83, R314, R511): the anchoring of the next furrow and the events that lead to it. -/

namespace Sys2Proof.Machine

/-! ### The anchoring of the next furrow (R83, R511) -/

/-- A core whose next furrow has its anchor. -/
def Core.anchoredAt (a : Nat) (slipped : Option Nat) (c : Core) : Core := { c with seq := { c.seq with anchor := some a, slipped := slipped } }

/-- A core whose headland has slipped. -/
def Core.slippedAt (h : Nat) (c : Core) : Core := { c with seq := { c.seq with slipped := some h } }

section
variable {s : State} {n : Nat}

theorem anchored_onCalendars (s : State) (n a : Nat) (slipped : Option Nat) :
    (s.updCore n (Core.anchoredAt a slipped)).OnCalendars (s.anchored n a slipped) := by
  unfold State.anchored
  dsimp only
  split
  · exact holdSuccessor_onCalendars _ _ _ _ _
  · exact .refl _

/-- A headland that has resolved at tick `h` is anchored, no earlier than that, or has slipped. -/
theorem anchorNext_cases (s : State) (n h : Nat) :
    (∃ a slipped u, h ≤ a ∧ s.OnCalendars u ∧ s.anchorNext n h = u.anchored n a slipped) ∨ s.anchorNext n h = s.updCore n (Core.slippedAt h) := by
  unfold State.anchorNext
  split
  · exact .inl ⟨max h s.tick, none, s, Nat.le_max_left .., .refl s, rfl⟩
  · next b _ =>
    dsimp only
    have hfrom : h ≤ if decide (b.kind = .floating) = true then max b.first h else max h s.tick := by
      split
      · exact Nat.le_max_right ..
      · exact Nat.le_max_left ..
    split
    · next u a hr =>
      have hfit : (s.unbook b).OnCalendars u ∧ h ≤ a := by
        split at hr
        · next hr' => cases hr; exact (anchorAt_leaves hr').imp_right hfrom.trans
        · split at hr
          · next hr' =>
            cases hr
            exact (anchorAt_leaves (Option.ite_none_right_eq_some.1 hr').2).imp_right hfrom.trans
          · exact (firstFit_leaves _ hr).imp_right hfrom.trans
      have hcal := (unbook_onCalendars s b).trans hfit.1
      refine .inl ⟨a, _, _, hfit.2, ?_, rfl⟩
      exact ite_onCalendars (hcal.trans (slipOf_onCalendars u n)) hcal
    · exact .inr rfl

theorem anchorNext_leaves (h : Nat) (hnew : (s.core n).seq.anchor = none) : let t := s.anchorNext n h
    (∀ m, m ≠ n → t.core m = s.core m) ∧
    t.core n = { s.core n with seq := { (s.core n).seq with anchor := (t.core n).seq.anchor, slipped := (t.core n).seq.slipped } } ∧
    ((t.core n).seq.anchor = none → (t.core n).seq.slipped = some h ∧ t.clusters = s.clusters) ∧
    (∀ a, (t.core n).seq.anchor = some a → h ≤ a) := by
  obtain ⟨a, slipped, u, ha, hu, he⟩ | he := anchorNext_cases s n h
  · have hcore (m : Nat) : (s.anchorNext n h).core m = (u.updCore n (Core.anchoredAt a slipped)).core m := by
      rw [he]; exact (anchored_onCalendars u n a slipped).core m
    have hn : (s.anchorNext n h).core n = (s.core n).anchoredAt a slipped := by rw [hcore, State.core_updCore, hu.core]
    refine ⟨fun m hm => ?_, ?_, fun hnone => ?_, fun b hb => ?_⟩
    · rw [hcore, State.core_updCore_other _ _ hm, hu.core]
    · rw [hn]; rfl
    · rw [hn] at hnone; cases hnone
    · rw [hn] at hb; cases hb; exact ha
  · have hn : (s.anchorNext n h).core n = (s.core n).slippedAt h := by rw [he, State.core_updCore]
    refine ⟨fun m hm => ?_, ?_, fun _ => ⟨?_, ?_⟩, fun b hb => ?_⟩
    · rw [he, State.core_updCore_other _ _ hm]
    · rw [hn]; rfl
    · rw [hn]; rfl
    · rw [he]; rfl
    · rw [hn] at hb; exact absurd (hnew.symm.trans hb) nofun
end

/-! ### What is held unbooked (R511) -/

theorem retryHold_onCalendars (s : State) (n : Nat) : s.OnCalendars (s.retryHold n) :=
  foldl_onCalendars (fun s _ => ite_onCalendars (unbook_book_onCalendars s _ _) (.refl s)) _ s

theorem retryHold_nil {s : State} {n : Nat} (h : s.heldUnbooked n = []) : s.retryHold n = s := by
  unfold State.retryHold
  rw [h, List.foldl_nil]

theorem of_mem_heldUnbooked {s : State} {n : Nat} {b : Booking} (h : b ∈ s.heldUnbooked n) :
    b.core = n ∧ b.kind = .unbooked ∧ b.expired = false ∧ (s.core n).seq.furrow < b.index := by
  obtain ⟨-, hb⟩ := List.mem_filter.1 h
  simp only [Bool.and_eq_true, beq_iff_eq, decide_eq_true_eq, Bool.not_eq_true'] at hb
  obtain ⟨⟨⟨⟨⟨hcore, -⟩, hkind⟩, hexp⟩, hindex⟩, -⟩ := hb
  exact ⟨hcore, hkind, hexp, hindex⟩

/-! ### HEADLAND_RESOLVE (R59, R83, R314) -/

/-- A core whose headland's barrier has been satisfied: EXP is taken from CNT (R314). -/
def Core.resolved (b : Fin 16) (c : Core) : Core := { c with bars := c.bars.set b c.bars[b].spend, seq := { c.seq with wait := none } }

section
variable {s0 s : State} {n : Nat} (hs : s0.retryHold n = s) (hmode : (s.core n).seq.mode = .atHeadland) (hstop : (s.core n).seq.stop = none)
  (hroll : (s.core n).rollback = none)
include hs hmode hstop hroll

theorem exec_headlandResolve_starts {a : Nat} (hanchor : (s.core n).seq.anchor = some a) (hpast : a < s.tick) :
    exec (.headlandResolve n) s0 = .next (s.updCore n Core.startFurrow) := by
  show execHeadlandResolve n s0 = _
  unfold execHeadlandResolve
  simp only [hs, hmode, hstop, hroll, hanchor, hpast, ne_eq, not_true_eq_false, Option.isSome_none, Bool.false_eq_true, or_self, if_false, true_or, if_true]

theorem exec_headlandResolve_slipped {h : Nat} (hanchor : (s.core n).seq.anchor = none) (hslip : (s.core n).seq.slipped = some h) :
    exec (.headlandResolve n) s0 = .next (s.anchorNext n h) := by
  show execHeadlandResolve n s0 = _
  unfold execHeadlandResolve
  simp only [hs, hmode, hstop, hroll, hanchor, hslip, ne_eq, not_true_eq_false, Option.isSome_none, Bool.false_eq_true, or_self, if_false]

theorem exec_headlandResolve_waits {b : Fin 16} (hanchor : (s.core n).seq.anchor = none) (hslip : (s.core n).seq.slipped = none)
    (hwait : (s.core n).seq.wait = some b) : exec (.headlandResolve n) s0 =
      .next (if (s.core n).bars[b].satisfied then (s.updCore n (Core.resolved b)).anchorNext n s.tick else s) := by
  show execHeadlandResolve n s0 = _
  unfold execHeadlandResolve
  simp only [hs, hmode, hstop, hroll, hanchor, hslip, hwait, ne_eq, not_true_eq_false, Option.isSome_none, Bool.false_eq_true, or_self, if_false]
  split <;> rfl
end

end Sys2Proof.Machine
end

section
/-! PROOF. Grace expiry, overruns and their extensions (R83, R92, R98, R99, R477). -/

namespace Sys2Proof.Machine

/-! ### GRACE_EXPIRY (R83) -/

theorem exec_graceExpiry {s : State} {n : Nat} {b : Booking}
    (h : (s.cluster (clusterOf n)).bookings.find? (fun b => b.core == n && decide (b.kind = .floating) && decide (b.grace < s.tick)) = some b) :
    exec (.graceExpiry n) s = .next (s.expire b) := by
  show execGraceExpiry n s = _
  unfold execGraceExpiry
  rw [h]

/-- An expired booking is replaced by one that holds nothing, and counts as a slip of its cluster. -/
theorem expire_leaves (s : State) (b : Booking) : let cl := clusterOf b.core
    ((s.expire b).cluster cl).csr.slipCnt = (s.cluster cl).csr.slipCnt + 1 ∧
    ((s.expire b).cluster cl).bookings = (s.cluster cl).bookings.map (fun x => if x = b then { b with kind := .unbooked, expired := true } else x) := by
  have hlinks := (send_linkMoves (s.rebook b { b with kind := .unbooked, expired := true }) .slip (clusterOf b.core) b.core (clusterOf b.core)).same
  unfold State.expire
  dsimp only
  rw [State.cluster_updCluster, hlinks]
  unfold State.rebook
  rw [State.cluster_updCluster]
  exact ⟨rfl, rfl⟩

/-! ### Extensions (R98, R99) -/

section
variable {s : State} {n : Nat}

/-- What a tick more gives a booking: it stands until that tick, and the cores stand as they were. -/
theorem stretch_leaves {b b' : Booking} {t : Nat} {u : State} (h : s.stretch b t = some (u, b')) :
    s.OnCalendars u ∧ { b with last := t } ∈ (u.cluster (clusterOf b.core)).bookings := by
  unfold State.stretch at h
  cases (Option.ite_none_right_eq_some.1 h).2
  refine ⟨unbook_book_onCalendars s b _, ?_⟩
  unfold State.book
  rw [State.cluster_updCluster]
  exact List.mem_append_right _ (List.mem_singleton_self _)

/-- A core whose team is pre-empted for its overrun: its member carries a renewed slack (R98). -/
def Core.renews (slack : Nat) (c : Core) : Core := { c with seq := { c.seq with ext := 0, renewed := some slack } }

theorem overrunEvent_core (s : State) (n d m : Nat) : (s.overrunEvent n d).core m = s.core m := rfl

theorem overrunPreempt_core (s : State) (n slack m : Nat) : (s.overrunPreempt n slack).core m = (s.updCore n (Core.renews slack)).core m := rfl

theorem overrunPreempt_eq (s : State) (n slack : Nat) :
    s.overrunPreempt n slack = (s.updCore n (Core.renews slack)).push (.preempt (((s.core n).team).getD 0)) := rfl

/-- One more tick, or the pre-emption (R98). -/
theorem extend_leaves (s : State) (n : Nat) (b : Booking) : let t := s.extend n b
    (∀ m, m ≠ n → t.core m = s.core m) ∧ (t.core n).x = (s.core n).x ∧ (t.core n).seq.mode = (s.core n).seq.mode ∧
    (s.stretch b s.tick = none → .event (.preempt (((s.core n).team).getD 0)) ∈ t.agenda ∧ (t.core n).seq.renewed = some (s.core n).seq.ext) ∧
    (s.stretch b s.tick ≠ none → t.agenda = s.agenda ∧ (t.core n).seq.ext = (s.core n).seq.ext - 1 ∧
      { b with last := s.tick } ∈ (t.cluster (clusterOf b.core)).bookings) := by
  cases h : s.stretch b s.tick with
  | some r =>
    obtain ⟨u, b'⟩ := r
    obtain ⟨hu, hb⟩ := stretch_leaves h
    have he : s.extend n b = u.updCore n (fun c => { c with seq := { c.seq with ext := c.seq.ext - 1 } }) := by unfold State.extend; rw [h]
    have hn : (s.extend n b).core n = { s.core n with seq := { (s.core n).seq with ext := (s.core n).seq.ext - 1 } } := by
      rw [he, State.core_updCore, hu.core]
    refine ⟨fun m hm => ?_, ?_, ?_, nofun, fun _ => ⟨?_, ?_, ?_⟩⟩
    · rw [he, State.core_updCore_other _ _ hm, hu.core]
    · rw [hn]
    · rw [hn]
    · rw [he]; exact hu.agenda
    · rw [hn]
    · rw [he]; exact hb
  | none =>
    obtain ⟨d, he⟩ : ∃ d, s.extend n b = (s.overrunEvent n d).overrunPreempt n (s.core n).seq.ext := ⟨_, by unfold State.extend; rw [h]⟩
    have hn : (s.extend n b).core n = (s.core n).renews (s.core n).seq.ext := by
      rw [he, overrunPreempt_core, State.core_updCore, overrunEvent_core]
    refine ⟨fun m hm => ?_, ?_, ?_, fun _ => ⟨?_, ?_⟩, fun hne => absurd rfl hne⟩
    · rw [he, overrunPreempt_core, State.core_updCore_other _ _ hm, overrunEvent_core]
    · rw [hn]; rfl
    · rw [hn]; rfl
    · rw [he]; exact List.mem_append_right _ (List.mem_singleton_self _)
    · rw [hn]; rfl
end

/-! ### OVERRUN (R98, R477) -/

/-- A core whose furrow has overrun once more. -/
def Core.overran (c : Core) : Core :=
  { c with csr := { c.csr with ovrCnt := c.csr.ovrCnt + 1 }, seq := { c.seq with overruns := c.seq.overruns + 1 } }

/-- The image's policy (R229). -/
theorem preempts_eq (c : Core) : c.preempts = decide ((c.image.map (fun i => i.flags % 2)).getD 0 = 1) := by
  unfold Core.preempts
  cases c.image with
  | none => rfl
  | some i => simp [bit, Bool.beq_eq_decide_eq]

/-- The cause of a trap names its code (R445). -/
theorem causeWord_code {t : Trap} (h : t.code < 65536) (slot : Nat) (rep inc : Bool) : (causeWord t slot rep inc).toNat % 65536 = t.code := by
  unfold causeWord
  rw [BitVec.toNat_ofNat]
  split <;> split <;> omega

theorem trapCore_core (s : State) (n : Nat) (t : Trap) (slot : Nat) (rep inc : Bool) (pc src : Nat) :
    (s.trapCore n t slot rep inc pc src).core n = (s.core n).halt (causeWord t slot rep inc) pc t.addr src := by
  show (s.updCore n (fun c => c.halt (causeWord t slot rep inc) pc t.addr src)).core n = _
  rw [State.core_updCore]

/-- A halt counts nothing (R366, R444). -/
theorem halt_ovrCnt (c : Core) (cause : Double) (pc addr src : Nat) : (c.halt cause pc addr src).csr.ovrCnt = c.csr.ovrCnt := by
  show c.settle.csr.ovrCnt = _
  rw [settle_settles c]

/-- An overrun counted and recorded (R98). -/
def State.overran (s : State) (n : Nat) : State := (s.updCore n Core.overran).overrunEvent n (if (s.core n).preempts then 1 else 0)

theorem overran_core (s : State) (n : Nat) : (s.overran n).core n = (s.core n).overran := State.core_updCore s n Core.overran

section
variable {s : State} {n : Nat} {b : Booking} (hb : s.present n = some b) (hover : b.last < s.tick) (hleft : b.left = 0)
  (hmode : (s.core n).seq.mode = .running) (hstop : (s.core n).seq.stop = none ∨ (s.core n).seq.stop = some .rollback)
  (hyield : s.yields n = false) (hext : (s.core n).seq.ext = 0)
include hb hover hleft hmode hstop hyield hext

/-- A furrow overruns: its policy follows, or the trap when it has overrun before. -/
theorem exec_overrun : exec (.overrun n) s =
    .next (if 0 < (s.core n).seq.overruns then (s.overran n).trapCore n ⟨0x38, (s.core n).seq.furrow, 0⟩ 7 false false (s.core n).nextPc 0
      else if (s.core n).preempts then (s.overran n).overrunPreempt n (max b.vec.slack 1)
      else ((s.overran n).updCore n (fun c => { c with seq := { c.seq with ext := max b.vec.slack 1 } })).extend n b) := by
  have hstays : ¬(s.tick ≤ b.last ∨ b.left ≠ 0 ∨ (s.core n).seq.mode ≠ .running ∨
      ((s.core n).seq.stop.isSome = true ∧ (s.core n).seq.stop ≠ some .rollback) ∨ s.yields n = true) := by
    rintro (h | h | h | ⟨h, h'⟩ | h)
    · omega
    · exact h hleft
    · exact h hmode
    · obtain hn | hr := hstop
      · rw [hn] at h; cases h
      · exact h' hr
    · rw [hyield] at h; cases h
  show execOverrun n s = _
  unfold execOverrun
  simp only [hb]
  rw [if_neg hstays, if_neg (by omega), apply_ite Host.Outcome.next, apply_ite Host.Outcome.next]
  rfl

/-- A furrow that has overrun before takes the booking-overrun trap (R477). -/
theorem exec_overrun_traps (hagain : 0 < (s.core n).seq.overruns) :
    ∃ t, exec (.overrun n) s = .next t ∧ (t.core n).seq.mode = .halted ∧ (t.core n).csr.trapCause.toNat % 65536 = 0x38 ∧
      (t.core n).csr.trapPc = .ofNat 64 (s.core n).nextPc ∧ (t.core n).csr.ovrCnt = (s.core n).csr.ovrCnt + 1 := by
  refine ⟨_, (exec_overrun hb hover hleft hmode hstop hyield hext).trans (congrArg _ (if_pos hagain)), ?_⟩
  rw [trapCore_core, overran_core]
  exact ⟨rfl, causeWord_code (show 0x38 < 65536 by decide) 7 false false, rfl, halt_ovrCnt _ _ _ _ _⟩

/-- The first overrun of a furrow counts, and follows the image's policy (R98). -/
theorem exec_overrun_first (hfirst : (s.core n).seq.overruns = 0) :
    let u := s.updCore n (fun c => { c with csr := { c.csr with ovrCnt := c.csr.ovrCnt + 1 }, seq := { c.seq with overruns := 1 } })
    let ev := fun (d : Nat) => u.event 0x501 0 (some (s.core n).csr.ctxId.toNat) 0 n 0 0 (s.core n).seq.furrow d
    (((s.core n).image.map (fun i => i.flags % 2)).getD 0 = 1 → exec (.overrun n) s =
      .next (((ev 1).updCore n (fun c => { c with seq := { c.seq with ext := 0, renewed := some (max b.vec.slack 1) } })).push
        (.preempt (((s.core n).team).getD 0)))) ∧
    (((s.core n).image.map (fun i => i.flags % 2)).getD 0 = 0 → exec (.overrun n) s =
      .next (((ev 0).updCore n (fun c => { c with seq := { c.seq with ext := max b.vec.slack 1 } })).extend n b)) := by
  intro u ev
  have hu : s.updCore n Core.overran = u := updCore_congr (by unfold Core.overran; rw [hfirst])
  have hn : u.core n = (s.core n).overran := hu ▸ State.core_updCore s n _
  have hev (d : Nat) : u.overrunEvent n d = ev d := by unfold State.overrunEvent; rw [hn]; rfl
  have hexec := exec_overrun hb hover hleft hmode hstop hyield hext
  rw [if_neg (show ¬0 < (s.core n).seq.overruns by omega), State.overran, hu, hev, preempts_eq] at hexec
  refine ⟨fun h => ?_, fun h => ?_⟩
  · have hteam : ((ev 1).core n).team = (s.core n).team := by show (u.core n).team = _; rw [hn]; rfl
    simp only [h, decide_true, if_true, overrunPreempt_eq, hteam] at hexec
    exact hexec
  · simp only [h, Nat.zero_ne_one, decide_false, Bool.false_eq_true, if_false] at hexec
    exact hexec
end

end Sys2Proof.Machine
end

section
/-! PROOF. Stakes (R96, R97): where one is placed for a headland that starves, and how it lapses. -/

namespace Sys2Proof.Machine

theorem sortKey_singleton {α : Type} (f : α → Nat) (x : α) : sortKey f [x] = [x] := rfl

section
variable {s : State} {n : Nat}

theorem exec_stakePlace_nil (h : s.starving n = []) : exec (.stakePlace n) s = .next s := by
  show execStakePlace n s = _
  unfold execStakePlace
  rw [h]
  rfl

/-- A headland that has no anchor yet keeps its booking while its stake is placed. -/
theorem unanchor_none (h : (s.core n).seq.anchor = none) : s.unanchor n = s := by unfold State.unanchor; rw [h]

section
variable {h : Nat} {x : Want} (hwait : s.waiting n = [x]) (hmode : (s.core n).seq.mode = .atHeadland) (hanchor : (s.core n).seq.anchor = none)
  (hslip : (s.core n).seq.slipped = some h) (hlim : h + s.starveLim (s.core n).csr.ctxId.toNat < s.tick)
  (hteams : s.teams.filter (s.starvingOn n) = [])
  (hfree : (s.cluster (clusterOf x.core)).stakes.any (fun q => q.team == x.team && q.core == x.core) = false)
include hwait hmode hslip hlim hteams hfree

/-- A slipped headland beyond STARVE_LIM without a stake starves (R96). -/
theorem starving_headland : s.starving n = [(h, none)] := by
  have hhead : s.starvingHeadland n = some h := by
    unfold State.starvingHeadland
    simp only [hslip, hwait, List.any_cons, List.any_nil, Bool.or_false]
    exact if_pos ⟨hmode, hlim, hfree⟩
  unfold State.starving
  rw [hhead, hteams]
  exact sortKey_singleton _ _

include hanchor

/-- The stake of a starving headland: at the first tick at which its window fits, if there is one (R97). -/
theorem exec_stakePlace_headland : exec (.stakePlace n) s =
    .next ((((List.range 8192).find? (fun j => s.stakeFits x (s.tick + j))).map (fun j => s.stakeAt [x] (s.tick + j))).getD s) := by
  show execStakePlace n s = _
  unfold execStakePlace
  rw [starving_headland hwait hmode hslip hlim hteams hfree]
  have hstake : s.stakeFor n (h, none) = ((List.range 8192).find? (fun j => s.stakeFits x (s.tick + j))).map (fun j => s.stakeAt [x] (s.tick + j)) := by
    show s.stakeHeadland n = _
    unfold State.stakeHeadland
    simp only [unanchor_none hanchor, hwait, hanchor, List.all_cons, List.all_nil, Bool.and_true]
    split
    · next hj => rw [hj]; rfl
    · next hj => rw [hj]; rfl
  rw [List.findSome?_cons, hstake]
  cases (List.range 8192).find? (fun j => s.stakeFits x (s.tick + j)) with
  | none => rfl
  | some j => rfl

theorem exec_stakePlace_fits {j : Nat} (hj : j < 8192) (hfit : s.stakeFits x (s.tick + j) = true)
    (hleast : ∀ i, i < j → s.stakeFits x (s.tick + i) = false) : exec (.stakePlace n) s = .next (s.stakeAt [x] (s.tick + j)) := by
  have hfind : (List.range 8192).find? (fun j => s.stakeFits x (s.tick + j)) = some j :=
    List.find?_range_eq_some.2 ⟨hfit, List.mem_range.2 hj, fun i hi => by rw [hleast i hi]; rfl⟩
  rw [exec_stakePlace_headland hwait hmode hanchor hslip hlim hteams hfree, hfind]
  rfl

theorem exec_stakePlace_noFit (hnone : ∀ j, j < 8192 → s.stakeFits x (s.tick + j) = false) : exec (.stakePlace n) s = .next s := by
  have hfind : (List.range 8192).find? (fun j => s.stakeFits x (s.tick + j)) = none :=
    List.find?_range_eq_none.2 fun i hi => by rw [hnone i hi]; rfl
  rw [exec_stakePlace_headland hwait hmode hanchor hslip hlim hteams hfree, hfind]
  rfl
end

/-- One stake more, of the window from its first tick on. -/
theorem stakeAt_stakes (s : State) (x : Want) (t : Nat) : ((s.stakeAt [x] t).cluster (clusterOf x.core)).stakes =
    ((s.clearStake x t).cluster (clusterOf x.core)).stakes ++ [⟨x.core, x.team, x.core, x.index, x.vec, t, t + (x.dur + x.slack) - 1⟩] := by
  have he : s.stakeAt [x] t = (s.clearStake x t).updCluster (clusterOf x.core)
      (fun k => { k with stakes := k.stakes ++ [⟨x.core, x.team, x.core, x.index, x.vec, t, t + (x.dur + x.slack) - 1⟩] }) := rfl
  rw [he, State.cluster_updCluster]

/-- A stake of core `n` whose first tick has come. -/
def Stake.due (n now : Nat) (q : Stake) : Bool := q.core == n && decide (q.first ≤ now)

theorem exec_stakeLapse (s : State) (n : Nat) : exec (.stakeLapse n) s =
    .next (if (s.cluster (clusterOf n)).stakes.any (Stake.due n s.tick) then
      s.updCluster (clusterOf n) (fun k => { k with stakes := k.stakes.filter (fun q => !q.due n s.tick), compact := true })
    else s) := by
  show execStakeLapse n s = _
  unfold execStakeLapse
  dsimp only
  split
  · next h => exact congrArg _ (if_pos h).symm
  · next h => exact congrArg _ (if_neg h).symm

theorem stakeLapse_lapses (s : State) (n : Nat) :
    let due := fun (q : Stake) => q.core == n && decide (q.first ≤ s.tick)
    ((s.cluster (clusterOf n)).stakes.any due = true →
      ∃ t, exec (.stakeLapse n) s = .next t ∧ t.agenda = s.agenda ∧
        (t.cluster (clusterOf n)).stakes = (s.cluster (clusterOf n)).stakes.filter (fun q => !due q) ∧ t.cores = s.cores) ∧
    ((s.cluster (clusterOf n)).stakes.any due = false → exec (.stakeLapse n) s = .next s) := by
  refine ⟨fun h => ⟨_, (exec_stakeLapse s n).trans (congrArg _ (if_pos h)), rfl, ?_, rfl⟩,
    fun h => (exec_stakeLapse s n).trans (congrArg _ (if_neg (Bool.not_eq_true _ |>.mpr h)))⟩
  rw [State.cluster_updCluster]
  rfl
end

end Sys2Proof.Machine
end

section
/-! PROOF. The steps of a tick's booking work (R73, R74, R88, R92-R97, R494): what each asks for, and what it leaves. -/

namespace Sys2Proof.Machine

/-! ### The clock (R73) -/

/-- The time of `t` is that of `s`. -/
structure State.SameTime (s t : State) : Prop where
  tick : t.tick = s.tick
  rtick : t.rtick = s.rtick

theorem State.SameTime.refl (s : State) : s.SameTime s := ⟨rfl, rfl⟩

theorem State.SameTime.trans {a b c : State} (h : a.SameTime b) (h' : b.SameTime c) : a.SameTime c := ⟨h'.tick.trans h.tick, h'.rtick.trans h.rtick⟩

theorem withAgenda_sameTime (s : State) (l : List Work) : s.SameTime (s.withAgenda l) := ⟨rfl, rfl⟩

theorem pickSome_sameTime {α : Type} (l : List α) : ∀ s : State, s.SameTime (pickSome l s).2 := by
  induction l with
  | nil => exact .refl
  | cons x l ih => exact fun s => ⟨(ih s.free.2).tick, (ih s.free.2).rtick⟩

theorem takeSlots_sameTime (s : State) (k : Nat) : s.SameTime (s.takeSlots k) :=
  List.foldlRecOn (motive := s.SameTime) _ _ ⟨rfl, rfl⟩ fun _ h _ _ => h.trans ⟨rfl, rfl⟩

theorem fetcherWork_sameTime (s : State) (k : Nat) : s.SameTime (s.fetcherWork k).2 := by
  have hslots := takeSlots_sameTime s k
  unfold State.fetcherWork
  dsimp only
  split
  · exact hslots
  · exact hslots.trans ⟨rfl, rfl⟩

theorem frontWork_sameTime (s : State) : s.SameTime s.frontWork.2 :=
  List.foldlRecOn (motive := fun r : List Work × State => s.SameTime r.2) _ _ (.refl s) fun _ h k _ => h.trans (fetcherWork_sameTime _ k)

theorem instantWork_sameTime (s : State) : s.SameTime s.instantWork := by
  obtain ⟨l, he⟩ : ∃ l, s.instantWork = (pickSome s.slowWork s).2.frontWork.2.withAgenda l := ⟨_, rfl⟩
  rw [he]
  exact ((pickSome_sameTime s.slowWork s).trans (frontWork_sameTime _)).trans (withAgenda_sameTime _ l)

theorem exec_tickBoundary (s : State) : ∃ t, exec .tickBoundary s = .next t ∧ t.tick = s.nextTick.tick ∧ t.rtick = s.nextTick.rtick := by
  have hexec : exec .tickBoundary s = .next (s.nextTick.withAgenda (s.nextTick.agenda ++ s.nextTick.tickWork)).instantWork := rfl
  obtain ⟨htick, hrtick⟩ := (withAgenda_sameTime s.nextTick (s.nextTick.agenda ++ s.nextTick.tickWork)).trans (instantWork_sameTime _)
  exact ⟨_, hexec, htick, hrtick⟩

/-! ### The order of the steps (R95, R494) -/

/-- A piece of work is a step of some cluster's booking work. -/
def Work.isTick (w : Work) : Bool := match w with | .event (.calendarTick _) => true | _ => false

theorem eq_calendarTick_of_isTick {w : Work} (h : w.isTick = true) : ∃ k, w = .event (.calendarTick k) := by
  unfold Work.isTick at h
  split at h
  · exact ⟨_, rfl⟩
  · cases h

/-- The next step is put right behind the last booking work of the agenda. -/
theorem laterWork_eq (cl : Nat) (l : List Work) : laterWork cl l =
    l.rdropWhile (fun w => !w.isTick) ++ .event (.calendarTick cl) :: l.rtakeWhile (fun w => !w.isTick) := by
  have hsplit := List.rdropWhile_append_rtakeWhile (p := fun w : Work => !w.isTick) (l := l)
  have hcut : laterWork cl l = l.take (l.length - (l.rtakeWhile (fun w => !w.isTick)).length) ++
      .event (.calendarTick cl) :: l.drop (l.length - (l.rtakeWhile (fun w => !w.isTick)).length) := by
    rw [List.rtakeWhile, List.length_reverse]
    rfl
  rw [hcut]
  generalize l.rdropWhile (fun w => !w.isTick) = pre at hsplit ⊢
  generalize l.rtakeWhile (fun w => !w.isTick) = post at hsplit ⊢
  rw [← hsplit, List.length_append, Nat.add_sub_cancel, List.take_left, List.drop_left]

theorem laterWork_splits (cl : Nat) (l : List Work) : ∃ pre post, l = pre ++ post ∧ laterWork cl l = pre ++ .event (.calendarTick cl) :: post ∧
    (∀ k, .event (.calendarTick k) ∉ post) ∧ (pre = [] ∨ ∃ l' k, pre = l' ++ [.event (.calendarTick k)]) := by
  refine ⟨l.rdropWhile (fun w => !w.isTick), l.rtakeWhile (fun w => !w.isTick), (List.rdropWhile_append_rtakeWhile).symm, laterWork_eq cl l,
    fun k hk => absurd (List.mem_rtakeWhile_imp hk) (by simp [Work.isTick]), ?_⟩
  by_cases hnil : l.rdropWhile (fun w => !w.isTick) = []
  · exact .inl hnil
  · have hlast := List.rdropWhile_last_not (fun w : Work => !w.isTick) l hnil
    obtain ⟨k, hk⟩ := eq_calendarTick_of_isTick (w := (l.rdropWhile (fun w => !w.isTick)).getLast hnil) (by simpa using hlast)
    exact .inr ⟨_, k, by rw [← hk, List.dropLast_append_getLast]⟩

section
variable {s : State} {cl : Nat}

theorem exec_calendarTick (h : (s.cluster cl).calBad = none) : exec (.calendarTick cl) s =
    let later := fun (j : Nat) => ({ s with agenda := laterWork cl s.agenda } : State).updCluster cl (fun k => { k with calStep := j })
    if (s.cluster cl).calStep = 0 then .next ((later 1).calendarFirst cl)
    else if (s.cluster cl).calStep = 1 then .next ((later 2).calendarStakes cl)
    else if (s.cluster cl).calStep = 2 then .next ((later 3).calendarWaits cl)
    else if (s.cluster cl).calStep = 3 then .next ((later 4).calendarSecond cl)
    else if (s.cluster cl).calStep = 4 then .next ((later 5).ballastAll cl)
    else .next ((s.updCluster cl (fun k => { k with calStep := 0 })).calendarThird cl) := by
  show execCalendarTick cl s = _
  unfold execCalendarTick
  simp only [h]

theorem event_cluster (s : State) (code sev : Nat) (ctx : Option Nat) (u n sub a d d2 k : Nat) :
    (s.event code sev ctx u n sub a d d2).cluster k = s.cluster k := rfl

/-- A cell of the calendar whose parity fails is recorded (R494). -/
theorem exec_calendarTick_bad {row : Nat} (h : (s.cluster cl).calBad = some row) : exec (.calendarTick cl) s =
    .next ((s.updCluster cl (fun k => { k with calBad := none, calStep := 0 })).event 0x0504 0 none 3 cl 0 0 row 0) := by
  show execCalendarTick cl s = _
  unfold execCalendarTick
  simp only [h]
end

/-! ### Step 1: releases and graces (R83, R88) -/

section
variable (s : State) (cl : Nat)

theorem release_stakes (k : Cluster) (upto : Nat) (p : Booking → Bool) : (k.release upto p).stakes = k.stakes := by
  unfold Cluster.release
  split <;> rfl

theorem calendarRelease_onCalendars : s.OnCalendars (s.calendarRelease cl) := rfl

/-- A booking stands through the releases if its furrow has not ended and it holds something still. -/
theorem mem_calendarRelease {b : Booking} (hb : b ∈ (s.cluster cl).bookings) (hover : s.furrowOver b = false) (hstale : s.stale b = false) :
    b ∈ ((s.calendarRelease cl).cluster cl).bookings := by
  unfold State.calendarRelease
  rw [State.cluster_updCluster, State.cluster_updCluster]
  refine List.mem_filter.2 ⟨mem_release.2 ⟨b, hb, ?_⟩, ?_⟩
  · rw [if_neg (by rw [hover]; simp)]
  · show (!s.stale b) = true
    rw [hstale]; rfl

theorem calendarFirst_leaves : let t := s.calendarFirst cl
    t.cores = s.cores ∧ (∀ k, k ≠ cl → t.cluster k = s.cluster k) ∧ (t.cluster cl).stakes = (s.cluster cl).stakes ∧
    (∀ b ∈ (s.cluster cl).bookings, s.furrowOver b = false → s.stale b = false → b ∈ (t.cluster cl).bookings) ∧
    (∀ b ∈ (t.cluster cl).bookings, b.core ∈ s.coresOf cl → b.kind = .floating → b.grace < s.tick → .event (.graceExpiry b.core) ∈ t.agenda) := by
  refine ⟨rfl, fun k hk => ?_, ?_, fun b hb hover hstale => mem_calendarRelease s cl hb hover hstale, fun b hb hcore hkind hgrace => ?_⟩
  · show (s.calendarRelease cl).cluster k = _
    unfold State.calendarRelease
    rw [State.cluster_updCluster_other _ _ hk, State.cluster_updCluster_other _ _ hk]
  · show ((s.calendarRelease cl).cluster cl).stakes = _
    unfold State.calendarRelease
    rw [State.cluster_updCluster, State.cluster_updCluster]
    exact release_stakes _ _ _
  · refine List.mem_append_left _ (List.mem_map.2 ⟨b.core, List.mem_filter.2 ⟨hcore, List.any_eq_true.2 ⟨b, hb, ?_⟩⟩, rfl⟩)
    simp only [beq_self_eq_true, Bool.true_and, Bool.and_eq_true, decide_eq_true_eq]
    exact ⟨hkind, hgrace⟩

/-! ### Step 2: the new column, and stakes (R74, R97) -/

theorem columnAt_onCalendars (t : Nat) : s.OnCalendars (State.columnAt cl s t) :=
  foldl_onCalendars (fun s _ => ite_onCalendars (.refl s) (ite_onCalendars (unbook_book_onCalendars s _ _) (unbook_book_onCalendars s _ _))) _ s

theorem newColumn_onCalendars : s.OnCalendars (s.newColumn cl) := foldl_onCalendars (columnAt_onCalendars · cl) _ s

theorem calendarStakes_leaves : let t := s.calendarStakes cl
    t.cores = s.cores ∧ (t.cluster cl).stakes = ((s.newColumn cl).cluster cl).stakes ∧
    (∀ q ∈ (t.cluster cl).stakes, q.core ∈ s.coresOf cl → q.first ≤ s.tick → .event (.stakeLapse q.core) ∈ t.agenda) := by
  have hcal := newColumn_onCalendars s cl
  refine ⟨hcal.cores, rfl, fun q hq hcore hfirst => ?_⟩
  refine List.mem_append_left _ (List.mem_map.2 ⟨q.core, List.mem_filter.2 ⟨hcal.coresOf cl ▸ hcore, List.any_eq_true.2 ⟨q, hq, ?_⟩⟩, rfl⟩)
  rw [hcal.tick, beq_self_eq_true, Bool.true_and]
  exact decide_eq_true hfirst

theorem calendarWaits_asks : ∃ l, s.calendarWaits cl = { s with agenda := l ++ s.agenda } ∧
    ∀ w, w ∈ l ↔ ∃ n ∈ s.coresOf cl, s.starving n ≠ [] ∧ w = .event (.stakePlace n) := by
  refine ⟨_, rfl, fun w => ?_⟩
  simp only [List.mem_map, (sortKey_perm _ _).mem_iff, List.mem_flatMap]
  constructor
  · rintro ⟨_, ⟨n, hn, p, hp, rfl⟩, rfl⟩
    exact ⟨n, hn, List.ne_nil_of_mem hp, rfl⟩
  · rintro ⟨n, hn, hne, rfl⟩
    obtain ⟨p, hp⟩ := List.exists_mem_of_ne_nil _ hne
    exact ⟨(p.1, n), ⟨n, hn, p, hp, rfl⟩, rfl⟩

/-! ### Steps 3 to 5: compaction, headlands and overruns (R83, R88, R98) -/

theorem compact_onCalendars : s.OnCalendars (s.compact cl) :=
  ite_onCalendars (State.OnCalendars.trans (t := s.updCluster cl (fun k => { k with compact := false })) rfl
    (foldl_onCalendars (fun s _ => unbook_book_onCalendars s _ _) _ _)) (.refl s)

theorem calendarSecond_asks {n : Nat} (hn : n ∈ s.coresOf cl) : let t := s.calendarSecond cl
    t.cores = s.cores ∧ ((s.core n).seq.mode = .atHeadland → .event (.headlandResolve n) ∈ t.agenda) ∧
    ((s.core n).seq.mode = .running → .event (.overrun n) ∈ t.agenda) := by
  have hcal := compact_onCalendars s cl
  have hin : n ∈ (s.compact cl).coresOf cl := hcal.coresOf cl ▸ hn
  refine ⟨hcal.cores, fun hmode => ?_, fun hmode => ?_⟩
  · refine List.mem_append_left _ (List.mem_append_left _ (List.mem_map.2 ⟨n, List.mem_filter.2 ⟨hin, ?_⟩, rfl⟩))
    unfold State.anchors
    rw [hcal.core, hmode]
    rfl
  · refine List.mem_append_left _ (List.mem_append_right _ (List.mem_map.2 ⟨n, List.mem_filter.2 ⟨hin, ?_⟩, rfl⟩))
    rw [hcal.core, hmode]
    rfl

/-! ### Step 7: teams and requests (R95, R482) -/

theorem calendarThird_asks : ∃ l : List Nat,
    s.calendarThird cl = { s with agenda := l.map (fun tn => .event (.stageTeam tn)) ++ [.event (.ccRequestServe cl)] ++ s.agenda } ∧
    ∀ tn, tn ∈ l ↔ ∃ t, (tn, t) ∈ s.teams ∧ (t.state = .held ∨ t.state = .placed) ∧ ∃ m, t.members.head? = some m ∧ clusterOf m.core = cl := by
  let mine := fun (p : Nat × Team) => ((p.2.members.head?).map (fun m => clusterOf m.core)) == some cl
  let held := sortKey (fun p => p.2.first.getD p.2.release) (s.teams.filter (fun p => decide (p.2.state = .held) && mine p))
  let placed := s.teams.filter (fun p => decide (p.2.state = .placed) && mine p)
  refine ⟨(held ++ placed).map Prod.fst, by rw [List.map_map]; rfl, fun tn => ?_⟩
  have hmine (p : Nat × Team) : mine p = true ↔ ∃ m, p.2.members.head? = some m ∧ clusterOf m.core = cl := by
    simp only [mine, beq_iff_eq, Option.map_eq_some_iff]
  simp only [held, placed, List.mem_map, List.mem_append, (sortKey_perm _ _).mem_iff, List.mem_filter, Bool.and_eq_true, decide_eq_true_eq, hmine]
  constructor
  · rintro ⟨⟨k, t⟩, ⟨ht, hstate, hm⟩ | ⟨ht, hstate, hm⟩, rfl⟩
    · exact ⟨t, ht, .inl hstate, hm⟩
    · exact ⟨t, ht, .inr hstate, hm⟩
  · rintro ⟨t, ht, hstate | hstate, hm⟩
    · exact ⟨(tn, t), .inl ⟨ht, hstate, hm⟩, rfl⟩
    · exact ⟨(tn, t), .inr ⟨ht, hstate, hm⟩, rfl⟩
end

end Sys2Proof.Machine
end

section
/-! PROOF. Ballast (R94): step 6 adds ballast cells to free M rows of the present tick or a later one, and changes nothing else of the bookings. -/

namespace Sys2Proof.Machine

/-- A ballast cell that cluster `cl` of `s` has room for: of its ballast energy, in no past tick, on a present core whose M row is free then. -/
structure State.HasRoomFor (s : State) (cl : Nat) (q : Ballast) : Prop where
  eq : q.eq = (s.cluster cl).csr.ballastEq.toNat
  tick : s.tick ≤ q.tick
  core : q.core ∈ s.coresOf cl
  booked : ∀ h ∈ (s.cluster cl).heldAt q.tick, h.1 = q.core → h.2.2.hasM = false
  ballast : ∀ x ∈ (s.cluster cl).ballast, x.tick = q.tick → x.core ≠ q.core

/-- `t` is `s` with ballast added to cluster `cl` where it has room. -/
structure State.Ballasts (cl : Nat) (s t : State) : Prop where
  onCalendars : s.OnCalendars t
  others : ∀ k, k ≠ cl → t.cluster k = s.cluster k
  adds : ∃ l, t.cluster cl = { s.cluster cl with ballast := (s.cluster cl).ballast ++ l } ∧ ∀ q ∈ l, s.HasRoomFor cl q

section
variable {cl : Nat}

theorem State.Ballasts.refl (s : State) : State.Ballasts cl s s := ⟨.refl s, fun _ _ => rfl, [], by rw [List.append_nil], by simp⟩

/-- Where there is room after ballast has been added, there was room before. -/
theorem State.Ballasts.hasRoomFor {s t : State} (h : State.Ballasts cl s t) {q : Ballast} (hq : t.HasRoomFor cl q) : s.HasRoomFor cl q := by
  obtain ⟨l, hl, -⟩ := h.adds
  obtain ⟨heq, htick, hcore, hbooked, hballast⟩ := hq
  rw [hl] at heq hbooked hballast
  exact ⟨heq, h.onCalendars.tick ▸ htick, h.onCalendars.coresOf cl ▸ hcore, hbooked, fun x hx => hballast x (List.mem_append_left _ hx)⟩

theorem State.Ballasts.trans {a b c : State} (h : State.Ballasts cl a b) (h' : State.Ballasts cl b c) : State.Ballasts cl a c := by
  obtain ⟨l, hl, hroom⟩ := h.adds
  obtain ⟨l', hl', hroom'⟩ := h'.adds
  refine ⟨h.onCalendars.trans h'.onCalendars, fun k hk => (h'.others k hk).trans (h.others k hk), l ++ l', ?_, fun q hq => ?_⟩
  · rw [hl', hl, List.append_assoc]
  · obtain hq | hq := List.mem_append.1 hq
    · exact hroom q hq
    · exact h.hasRoomFor (hroom' q hq)

/-- One cell more. -/
theorem ballasts_one {s : State} {q : Ballast} (h : s.HasRoomFor cl q) :
    State.Ballasts cl s (s.updCluster cl (fun k => { k with ballast := k.ballast ++ [q] })) :=
  ⟨rfl, fun _ hk => State.cluster_updCluster_other _ _ hk, [q], State.cluster_updCluster _ _ _, by simpa using h⟩

theorem ballastTick_ballasts {t : Nat} (cs : List Nat) : ∀ (s : State) (n : Nat), (∀ c ∈ cs, c ∈ s.coresOf cl) → s.tick ≤ t →
    State.Ballasts cl s (s.ballastTick cl t n cs).1 := by
  induction cs with
  | nil => intro s n _ _; cases n <;> exact .refl s
  | cons c cs ih =>
    intro s n hcs ht
    cases n with
    | zero => exact .refl s
    | succ n =>
      unfold State.ballastTick
      dsimp only
      split
      · exact ih s (n + 1) (fun d hd => hcs d (List.mem_cons_of_mem _ hd)) ht
      · next hfree =>
        simp only [Bool.or_eq_true, List.any_append, List.any_eq_true, Bool.and_eq_true, decide_eq_true_eq, beq_iff_eq, not_or, not_exists, not_and] at hfree
        obtain ⟨⟨⟨hbooked, -⟩, hballast⟩, -⟩ := hfree
        have hadd := ballasts_one (s := s) (q := ⟨t, c, (s.cluster cl).csr.ballastEq.toNat⟩)
          ⟨rfl, ht, hcs c List.mem_cons_self, fun h hh hc => Bool.not_eq_true _ |>.mp (hbooked h hh hc), hballast⟩
        exact hadd.trans (ih _ n (fun d hd => hcs d (List.mem_cons_of_mem _ hd)) ht)

theorem ballastWindow_ballasts (s : State) (w : Nat) : State.Ballasts cl s (s.ballastWindow cl w) := by
  unfold State.ballastWindow
  dsimp only
  generalize (if w = 0 then 0 else s.windowCount cl (w - 1)) - s.rampStep cl - s.windowCount cl w = need
  split
  · exact .refl s
  · refine List.foldlRecOn (motive := fun r : State × Nat => State.Ballasts cl s r.1) _ _ (.refl s) fun r h j _ => h.trans ?_
    exact ballastTick_ballasts _ _ _ (fun c hc => hc) (by rw [h.onCalendars.tick]; omega)

theorem ballastStep_ballasts (r : State × Bool) (w : Nat) : State.Ballasts cl r.1 (State.ballastStep cl r w).1 := by
  unfold State.ballastStep
  dsimp only
  split
  · exact ballastWindow_ballasts r.1 w
  · exact .refl r.1

theorem ballastAll_leaves (s : State) (cl : Nat) : let t := s.ballastAll cl
    t.cores = s.cores ∧ (∀ k, k ≠ cl → t.cluster k = s.cluster k) ∧
    ∃ l, t.cluster cl = { s.cluster cl with ballast := (s.cluster cl).ballast ++ l, windowMs := (t.cluster cl).windowMs } ∧
      ∀ q ∈ l, q.eq = (s.cluster cl).csr.ballastEq.toNat ∧ s.tick ≤ q.tick ∧ q.core ∈ s.coresOf cl ∧
        (∀ h ∈ (s.cluster cl).heldAt q.tick, h.1 = q.core → h.2.2.hasM = false) ∧
        (∀ x ∈ (s.cluster cl).ballast, x.tick = q.tick → x.core ≠ q.core) := by
  have hsteps (ws : List Nat) : State.Ballasts cl s (ws.foldl (State.ballastStep cl) (s, false)).1 :=
    List.foldlRecOn (motive := fun r : State × Bool => State.Ballasts cl s r.1) _ _ (.refl s) fun _ h w _ => h.trans (ballastStep_ballasts _ w)
  unfold State.ballastAll
  dsimp only
  generalize (List.range ((s.horizon + 1) / 17 - s.tick / 17)).map (fun j => s.tick / 17 + j) = ws
  obtain ⟨hcal, hothers, l, hl, hroom⟩ := hsteps ws
  refine ⟨hcal.cores, fun k hk => ?_, l, ?_, fun q hq => ?_⟩
  · rw [State.cluster_updCluster_other _ _ hk, hothers k hk]
  · rw [State.cluster_updCluster, hl]
  · obtain ⟨heq, htick, hcore, hbooked, hballast⟩ := hroom q hq
    exact ⟨heq, htick, hcore, hbooked, hballast⟩
end

end Sys2Proof.Machine
end

section
/-! PROOF. Bookings by BOOK that lapse, and the requests to the CC (R376, R377, R501). -/

namespace Sys2Proof.Machine

/-! ### The holder of a booking by BOOK (R377) -/

/-- A member with what a swap saved of it changed. -/
def Member.updSaved (f : Core → Core) (m : Member) : Member := { m with saved := m.saved.map (fun v => { v with core := f v.core }) }

/-- The same of the member of a rank in its team. -/
def Team.updSaved (rank : Nat) (f : Core → Core) (t : Team) : Team :=
  { t with members := t.members.map (fun m => if m.rank = rank then m.updSaved f else m) }

theorem updTeam_reservations (s : State) (tn : Nat) (f : Team → Team) : (s.updTeam tn f).reservations = s.reservations := by
  obtain ⟨l, hl⟩ := updTeam_frame s tn f
  rw [hl]

section
variable (s : State) (f : Core → Core)

theorem updHolder_core {n : Nat} (h : n < 2 ^ 20) : s.updHolder n f = s.updCore n f := if_pos h

theorem updHolder_absent {tn rank : Nat} (h : rank < 64) : s.updHolder (absentKey tn rank) f = s.updTeam tn (Team.updSaved rank f) := by
  have hteam : (absentKey tn rank - 2 ^ 20) / 64 = tn := by unfold absentKey; omega
  have hrank : (absentKey tn rank - 2 ^ 20) % 64 = rank := by unfold absentKey; omega
  unfold State.updHolder
  rw [if_neg (by unfold absentKey; omega), hteam, hrank]
  rfl

theorem updHolder_reservations (n : Nat) : (s.updHolder n f).reservations = s.reservations := by
  unfold State.updHolder
  split
  · rfl
  · exact updTeam_reservations s _ _
end

/-! ### BOOKING_LAPSE (R377) -/

/-- A holder that a handle has left. -/
def Core.dropHandle (h : Nat) (c : Core) : Core := { c with handles := c.handles.filter (fun k => k ≠ h) }

/-- A holder to which a handle has lapsed. -/
def Core.lapseHandle (h : Nat) (c : Core) : Core := { c with lapsed := (h :: c.lapsed).eraseDups }

theorem lapseHandle_dropHandle (h : Nat) (c : Core) :
    h ∈ ((c.dropHandle h).lapseHandle h).lapsed ∧ h ∉ ((c.dropHandle h).lapseHandle h).handles := by
  refine ⟨List.mem_eraseDups.2 List.mem_cons_self, fun hm => ?_⟩
  have hne := (List.mem_filter.1 hm).2
  exact absurd rfl (of_decide_eq_true hne)

section
variable {s : State} {v : Reservation} {n : Nat}

/-- What holds a booking that lapses, before and behind the release of its cells. -/
theorem dropReservation_holder (h : v.core = some n) : s.dropReservation v =
    { (s.releaseTeam v.team s.tick).updHolder n (Core.dropHandle v.handle) with
      reservations := ((s.releaseTeam v.team s.tick).updHolder n (Core.dropHandle v.handle)).reservations.filter (fun x => x.team ≠ v.team),
      queues := (s.dropReservation v).queues } := by
  unfold State.dropReservation
  rw [h]
  rfl

theorem dropReservation_reservations (s : State) (v : Reservation) : (s.dropReservation v).reservations = s.reservations.filter (fun x => x.team ≠ v.team) := by
  cases h : v.core with
  | none => unfold State.dropReservation; rw [h]; rfl
  | some n => rw [dropReservation_holder h, updHolder_reservations]; rfl

theorem lapse_reservations (s : State) (v : Reservation) : (s.lapse v).reservations = s.reservations := by
  unfold State.lapse
  split
  · exact updHolder_reservations _ _ _
  · rfl

theorem lapse_holder (h : v.core = some n) : s.lapse v = s.updHolder n (Core.lapseHandle v.handle) := by
  unfold State.lapse
  rw [h]
  rfl

/-- The handle leaves the core that holds the booking, and lapses there. -/
theorem lapse_core (h : v.core = some n) (hn : n < 2 ^ 20) :
    ((s.dropReservation v).lapse v).core n = ((s.core n).dropHandle v.handle).lapseHandle v.handle := by
  have hdrop : (s.dropReservation v).core n = (s.core n).dropHandle v.handle := by
    rw [dropReservation_holder h, updHolder_core _ _ hn]
    exact State.core_updCore (s.releaseTeam v.team s.tick) n _
  rw [lapse_holder h, updHolder_core _ _ hn, State.core_updCore, hdrop]

/-- So it does where the booking's holder is swapped out (R377). -/
theorem lapse_saved {tn rank : Nat} {x : Team} {m : Member} {w : Saved} (h : v.core = some (absentKey tn rank)) (hrank : rank < 64)
    (hx : ((s.dropReservation v).lapse v).team tn = some x) (hm : m ∈ x.members) (hr : m.rank = rank) (hw : m.saved = some w) :
    v.handle ∈ w.core.lapsed ∧ v.handle ∉ w.core.handles := by
  have hdrop : (s.dropReservation v).team tn = (s.team tn).map (Team.updSaved rank (Core.dropHandle v.handle)) := by
    rw [dropReservation_holder h, updHolder_absent _ _ hrank]
    exact (team_updTeam_cases (s.releaseTeam v.team s.tick) tn tn _).trans (if_pos rfl)
  rw [lapse_holder h, updHolder_absent _ _ hrank, team_updTeam_cases, if_pos rfl, hdrop] at hx
  obtain ⟨y, hy, rfl⟩ := Option.map_eq_some_iff.1 hx
  obtain ⟨t, -, rfl⟩ := Option.map_eq_some_iff.1 hy
  obtain ⟨m1, hm1, rfl⟩ := List.mem_map.1 hm
  obtain ⟨m0, -, rfl⟩ := List.mem_map.1 hm1
  by_cases h0 : m0.rank = rank
  · simp only [h0, if_true, Member.updSaved] at hw
    obtain ⟨w1, hw1, rfl⟩ := Option.map_eq_some_iff.1 hw
    obtain ⟨w0, -, rfl⟩ := Option.map_eq_some_iff.1 hw1
    exact lapseHandle_dropHandle v.handle w0.core
  · rw [if_neg h0, if_neg h0] at hr
    exact absurd hr h0
end

theorem bookingLapse_lapses (s : State) (cl h : Nat) (v : Reservation)
    (hv : s.reservations.find? (fun v => v.handle == h && v.cores.any (fun n => clusterOf n == cl) && decide (v.tick ≤ s.tick)) = some v) :
    ∃ t, exec (.bookingLapse cl h) s = .next t ∧ t.reservations = s.reservations.filter (fun x => x.team ≠ v.team) ∧
      (∀ n, v.core = some n → n < 2 ^ 20 → v.handle ∈ (t.core n).lapsed ∧ v.handle ∉ (t.core n).handles) ∧
      (∀ tn rank x, v.core = some (absentKey tn rank) → rank < 64 → t.team tn = some x → ∀ m ∈ x.members, m.rank = rank →
        ∀ w, m.saved = some w → v.handle ∈ w.core.lapsed ∧ v.handle ∉ w.core.handles) := by
  have hexec : exec (.bookingLapse cl h) s = .next ((s.dropReservation v).lapse v) := by
    show execBookingLapse cl h s = _
    unfold execBookingLapse
    rw [hv]
  refine ⟨_, hexec, ?_, fun n hc hn => ?_, fun tn rank x hc hrank hx m hm hr w hw => lapse_saved hc hrank hx hm hr hw⟩
  · rw [lapse_reservations, dropReservation_reservations]
  · rw [lapse_core hc hn]; exact lapseHandle_dropHandle v.handle (s.core n)

/-! ### CC_REQUEST_SERVE (R95, R376, R501) -/

section
variable {s u : State} {cl : Nat} {r : Request} {l : List Request}

theorem exec_ccRequestServe_nil (h : (s.cluster cl).reqQ = []) : exec (.ccRequestServe cl) s = .next s := by
  show execCcRequestServe cl s = _
  unfold execCcRequestServe
  rw [h]

section
variable (h : (s.cluster cl).reqQ = r :: l)
include h

theorem exec_ccRequestServe_page {va : Nat} {image : Bool} (hs : s.serve r = (u, .page va image)) :
    exec (.ccRequestServe cl) s = .next (u.headWaits cl (some (va, image))) := by
  show execCcRequestServe cl s = _
  unfold execCcRequestServe
  simp only [h, hs]

theorem exec_ccRequestServe_waits (hs : s.serve r = (u, .room) ∨ s.serve r = (u, .link) ∧ u.tick < u.cxlSince + 2 ^ 20) :
    exec (.ccRequestServe cl) s = .next (u.headWaits cl none) := by
  show execCcRequestServe cl s = _
  unfold execCcRequestServe
  obtain hs | ⟨hs, hsince⟩ := hs
  · simp only [h, hs]
  · simp only [h, hs]
    exact if_neg (by omega)

/-- A request that is done leaves the queue, and the next one is served in its turn. -/
theorem exec_ccRequestServe_done {st : Nat} {out : List (Nat × Nat)}
    (hs : s.serve r = (u, .done st out) ∨ s.serve r = (u, .link) ∧ u.cxlSince + 2 ^ 20 ≤ u.tick ∧ st = 2 ∧ out = []) (hr : r ∈ (u.cluster cl).reqQ) :
    exec (.ccRequestServe cl) s = .next (let v := u.takeRequest r st out
      if l = [] then v else { v with agenda := .event (.ccRequestServe cl) :: v.agenda }) := by
  have hin : (u.cluster cl).reqQ.contains r = true := List.contains_iff_mem.2 hr
  show execCcRequestServe cl s = _
  unfold execCcRequestServe
  obtain hs | ⟨hs, hsince, rfl, rfl⟩ := hs
  · simp only [h, hs, hin, if_true, List.isEmpty_iff]
  · simp only [h, hs, hin, hsince, if_true, List.isEmpty_iff]
end

/-- A request that waits stays first in its queue, and nothing else changes. -/
theorem headWaits_leaves (s : State) (cl : Nat) (on : Option (Nat × Bool)) : let t := s.headWaits cl on
    t.cores = s.cores ∧ (∀ k, k ≠ cl → t.cluster k = s.cluster k) ∧
    ∀ r l, (s.cluster cl).reqQ = r :: l → t.cluster cl = { s.cluster cl with reqQ := { r with on := on } :: l } := by
  refine ⟨rfl, fun k hk => State.cluster_updCluster_other _ _ hk, fun r l h => ?_⟩
  unfold State.headWaits
  rw [State.cluster_updCluster, h]
end

/-! ### Request blocks (R376, R377) -/

/-- What a hidden byte that another write replaces leaves of a core (R166). -/
theorem reveal_core (s : State) (n m a len : Nat) :
    ((s.reveal n false a len).core m).field = (s.core m).field ∧ ((s.reveal n false a len).core m).bars = (s.core m).bars := by
  have hget : (s.reveal n false a len).core m = ((tfind s.cores m).map (fun c => if m = n then c.reveal a len else c)).getD Core.init := by
    show tget Core.init (tmap _ s.cores) m = _
    rw [tget_eq, tfind_tmap]
    rfl
  have hcore : s.core m = (tfind s.cores m).getD Core.init := tget_eq _ _ _
  rw [hget, hcore]
  cases tfind s.cores m with
  | none => exact ⟨rfl, rfl⟩
  | some c =>
    show (if m = n then c.reveal a len else c).field = c.field ∧ (if m = n then c.reveal a len else c).bars = c.bars
    split <;> exact ⟨rfl, rfl⟩

theorem readByte_put {l : Local} (h : memWf l.cells = true) (off x : Nat) (bs : List Byte) :
    readByte (l.put off bs).cells x = if off ≤ x ∧ x < off + bs.length then bs.getD (x - off) 0 else readByte l.cells x :=
  readByte_writeBytes bs h off x

/-- The bytes of a number, one by one (R7). -/
theorem bytesOfNat_getD (n k w : Nat) (h : k < n) : (bytesOfNat n w).getD k 0 = BitVec.ofNat 8 (w / 2 ^ (8 * k)) := by
  induction n generalizing k w with
  | zero => omega
  | succ n ih =>
    cases k with
    | zero => simp [bytesOfNat]
    | succ k =>
      have hpow : 2 ^ (8 * (k + 1)) = 256 * 2 ^ (8 * k) := by rw [Nat.mul_succ, Nat.pow_add]; omega
      rw [hpow, ← Nat.div_div_eq_div_mul]
      exact ih k (w / 256) (by omega)

/-- `t` is `s` with bytes of the block of request `r` written, from byte `lo` of it on. -/
structure State.WritesBlock (r : Request) (lo : Nat) (s t : State) : Prop where
  wf : memWf (t.core r.core).field.cells = true
  bytes : ∀ a, a < r.blk + lo ∨ r.blk + 64 ≤ a → t.byteAt r.core a = s.byteAt r.core a
  clusters : t.clusters = s.clusters
  bars : (t.core r.core).bars = (s.core r.core).bars

section
variable {r : Request} {s : State} (hblk : r.blk % 64 = 0) (hfield : r.blk < 0x800000)
include hblk hfield

/-- A double of the block written: its bytes, and every other byte as it was. -/
theorem answerDouble_writes (hwf : memWf (s.core r.core).field.cells = true) {k : Nat} (hk : k < 8) (v : Nat) :
    State.WritesBlock r (8 * k) s (s.answerDouble r k v) ∧
      ∀ j, j < 8 → (s.answerDouble r k v).byteAt r.core (r.blk + 8 * k + j) = .ofNat 8 (v / 2 ^ (8 * j)) := by
  have hin : r.blk + 8 * k < 0x800000 := by omega
  have hstore : s.storeLocal r.core (r.blk + 8 * k) (bytesOfNat 8 v) =
      s.updCore r.core (fun c => { c with field := c.field.put (r.blk + 8 * k) (bytesOfNat 8 v) }) := by
    unfold State.storeLocal locate
    rw [if_pos hin]
    rfl
  have hcore : ((s.answerDouble r k v).core r.core).field = (s.core r.core).field.put (r.blk + 8 * k) (bytesOfNat 8 v) ∧
      ((s.answerDouble r k v).core r.core).bars = (s.core r.core).bars := by
    unfold State.answerDouble
    rw [(reveal_core _ _ _ _ _).1, (reveal_core _ _ _ _ _).2, hstore, State.core_updCore]
    exact ⟨rfl, rfl⟩
  have hclusters : (s.answerDouble r k v).clusters = s.clusters := by unfold State.answerDouble; rw [hstore]; rfl
  have hbyte (a : Nat) (ha : a < 0x800000) : (s.answerDouble r k v).byteAt r.core a =
      if r.blk + 8 * k ≤ a ∧ a < r.blk + 8 * k + 8 then (bytesOfNat 8 v).getD (a - (r.blk + 8 * k)) 0 else s.byteAt r.core a := by
    unfold State.byteAt
    rw [if_pos ha, if_pos ha, hcore.1, readByte_put hwf, bytesOfNat_length]
  refine ⟨⟨?_, fun a ha => ?_, hclusters, hcore.2⟩, fun j hj => ?_⟩
  · rw [hcore.1]; exact Local.put_wf _ _ hwf
  · by_cases hlow : a < 0x800000
    · rw [hbyte a hlow, if_neg (by omega)]
    · unfold State.byteAt
      rw [if_neg hlow, if_neg hlow, State.cluster, hclusters]
      rfl
  · rw [hbyte _ (by omega), if_pos (by omega), Nat.add_sub_cancel_left, bytesOfNat_getD 8 j v hj]

/-- The outputs of a request lie behind the first double of its block. -/
theorem answerAll_writes (hwf : memWf (s.core r.core).field.cells = true) {out : List (Nat × Nat)} (hout : ∀ p ∈ out, 0 < p.1 ∧ p.1 < 8) :
    State.WritesBlock r 8 s (out.foldl (fun (s : State) (p : Nat × Nat) => s.answerDouble r p.1 p.2) s) := by
  refine List.foldlRecOn (motive := State.WritesBlock r 8 s) _ _ ⟨hwf, fun _ _ => rfl, rfl, rfl⟩ fun u h p hp => ?_
  obtain ⟨hpos, hlt⟩ := hout p hp
  obtain ⟨⟨hwf', hbytes, hclusters, hbars⟩, -⟩ := answerDouble_writes hblk hfield h.wf hlt p.2
  exact ⟨hwf', fun a ha => (hbytes a (by omega)).trans (h.bytes a ha), hclusters.trans h.clusters, hbars.trans h.bars⟩
end

/-- A request's block with its answer: the outputs, and then the status (R376). -/
def State.blockAnswered (s : State) (r : Request) (status : Nat) (out : List (Nat × Nat)) : State :=
  (out ++ [(0, status)]).foldl (fun (s : State) (p : Nat × Nat) => s.answerDouble r p.1 p.2) s

theorem finishRequest_leaves (s : State) (r : Request) (status : Nat) (out : List (Nat × Nat)) :
    let u := s.blockAnswered r status out
    (s.finishRequest r status out).clusters = u.clusters ∧
    (s.finishRequest r status out).core r.core = (u.core r.core).endAt (some r.bar) 1 0 := by
  intro u
  have hpush (t : State) (p : Prop) [Decidable p] (i : Instr) : (if p then t.push i else t).clusters = t.clusters ∧
      (if p then t.push i else t).core r.core = t.core r.core := by split <;> exact ⟨rfl, rfl⟩
  obtain ⟨hclusters, hcore⟩ := hpush (u.updCore r.core (fun c => c.endAt (some r.bar) 1 0))
    ((((u.updCore r.core (fun c => c.endAt (some r.bar) 1 0)).core r.core).seq.stop.isSome) = true) (.drainEnd r.core)
  exact ⟨hclusters, hcore.trans (State.core_updCore u r.core _)⟩

/-- One less in PEND of the barrier that ends (R313, R376). -/
theorem endAt_pend (c : Core) (b : Fin 16) (h1 : 1 ≤ c.bars[b].pend) (h2 : c.bars[b].pend < 2 ^ 64) :
    ((c.endAt (some b) 1 0).bars[b]).pend = c.bars[b].pend - 1 := by
  show ((c.bars.set b { c.bars[b] with pend := (c.bars[b].pend + (2 ^ 64 - 1 % 2 ^ 64)) % 2 ^ 64 })[b]).pend = _
  rw [Fin.getElem_fin, Vector.getElem_set_self]
  show (c.bars[b].pend + (2 ^ 64 - 1 % 2 ^ 64)) % 2 ^ 64 = _
  omega

theorem takeRequest_leaves (s : State) (r : Request) (st : Nat) (out : List (Nat × Nat)) (hwf : memWf (s.core r.core).field.cells = true)
    (hblk : r.blk % 64 = 0) (hfield : r.blk < 0x800000) (hout : ∀ p ∈ out, 0 < p.1 ∧ p.1 < 8) :
    let t := s.takeRequest r st out
    (∀ k, k < 8 → t.byteAt r.core (r.blk + k) = .ofNat 8 (st / 2 ^ (8 * k))) ∧
    (t.cluster (clusterOf r.core)).reqQ = (s.cluster (clusterOf r.core)).reqQ.erase r ∧
    (1 ≤ ((s.core r.core).bars[r.bar]).pend → ((s.core r.core).bars[r.bar]).pend < 2 ^ 64 →
      ((t.core r.core).bars[r.bar]).pend = ((s.core r.core).bars[r.bar]).pend - 1) ∧
    (∀ a, (a < r.blk ∨ r.blk + 64 ≤ a) → (a < 0x800000 ∨ 0x2000000 ≤ a) → t.byteAt r.core a = s.byteAt r.core a) := by
  let taken := s.updCluster (clusterOf r.core) (fun k => { k with reqQ := k.reqQ.erase r })
  have htaken (a : Nat) : taken.byteAt r.core a = s.byteAt r.core a := by
    unfold State.byteAt
    rw [State.cluster_updCluster]
    rfl
  have hall := answerAll_writes (s := taken) hblk hfield hwf hout
  obtain ⟨hlast, hstatus⟩ := answerDouble_writes hblk hfield hall.wf (k := 0) (by decide) st
  have hanswered : taken.blockAnswered r st out = (out.foldl (fun (s : State) (p : Nat × Nat) => s.answerDouble r p.1 p.2) taken).answerDouble r 0 st := by
    unfold State.blockAnswered
    rw [List.foldl_append]
    rfl
  rw [← hanswered] at hlast hstatus
  obtain ⟨hclusters, hcore⟩ := finishRequest_leaves taken r st out
  have hbyte (a : Nat) : (s.takeRequest r st out).byteAt r.core a = (taken.blockAnswered r st out).byteAt r.core a := by
    show (taken.finishRequest r st out).byteAt r.core a = _
    unfold State.byteAt State.cluster
    rw [hclusters, hcore]
    rfl
  refine ⟨fun k hk => ?_, ?_, fun h1 h2 => ?_, fun a ha _ => ?_⟩
  · rw [hbyte]; exact hstatus k hk
  · show ((taken.finishRequest r st out).cluster (clusterOf r.core)).reqQ = _
    rw [State.cluster, hclusters, hlast.clusters, hall.clusters]
    show (taken.cluster (clusterOf r.core)).reqQ = _
    rw [State.cluster_updCluster]
  · have hbars : ((taken.blockAnswered r st out).core r.core).bars = (s.core r.core).bars := hlast.bars.trans hall.bars
    show (((taken.finishRequest r st out).core r.core).bars[r.bar]).pend = _
    rw [hcore, endAt_pend _ _ (by rw [hbars]; exact h1) (by rw [hbars]; exact h2), hbars]
  · rw [hbyte, hlast.bytes a (by omega), hall.bytes a (by omega), htaken]

end Sys2Proof.Machine
end

section
/-! PROOF. Events of the calendar and the cluster controller (R73, R83, R95-R98, R314, R376, R377, R477, R494, R511): the clauses put together. -/

namespace Sys2Proof.Machine

/-- Settles O52: each event of the calendar and of the CC, by its cases. -/
theorem calendarEvents : Obligations.CalendarEvents := by
  refine ⟨exec_tickBoundary, fun s cl hgood => ?steps, laterWork_splits, calendarFirst_leaves, calendarStakes_leaves, calendarWaits_asks,
    fun s cl n hn => calendarSecond_asks s cl hn, ballastAll_leaves, calendarThird_asks,
    fun s cl row hbad => ⟨_, exec_calendarTick_bad hbad, ?bad⟩,
    fun s n => ⟨(retryHold_onCalendars s n).cores, retryHold_nil, fun b hb => of_mem_heldUnbooked hb⟩,
    fun s0 n b => ?headland, fun s n h hnew => anchorNext_leaves h hnew,
    fun s0 n h hmode hstop hroll hanchor hslip => exec_headlandResolve_slipped rfl hmode hstop hroll hanchor hslip,
    fun s0 n a hmode hstop hroll hanchor hpast => ⟨_, exec_headlandResolve_starts rfl hmode hstop hroll hanchor hpast, ?starts⟩,
    fun s n b hb hcl => ⟨_, exec_graceExpiry hb, hcl ▸ (expire_leaves s b).1, hcl ▸ (expire_leaves s b).2⟩,
    fun s n b hb hover hleft hmode hstop hyield hext => ⟨exec_overrun_traps hb hover hleft hmode hstop hyield hext,
      exec_overrun_first hb hover hleft hmode hstop hyield hext⟩,
    extend_leaves, fun s n h => exec_stakePlace_nil h,
    fun s n h x hwait hmode hanchor hslip hlim hteams hfree =>
      ⟨fun j hj hfit hleast => exec_stakePlace_fits hwait hmode hanchor hslip hlim hteams hfree hj hfit hleast,
        exec_stakePlace_noFit hwait hmode hanchor hslip hlim hteams hfree⟩,
    stakeAt_stakes, stakeLapse_lapses, bookingLapse_lapses,
    fun s cl => ⟨exec_ccRequestServe_nil, fun r l u va image h hs => exec_ccRequestServe_page h hs, fun r l u h hs => exec_ccRequestServe_waits h hs,
      fun r l u st out h hs hr => exec_ccRequestServe_done h hs hr⟩,
    headWaits_leaves, takeRequest_leaves⟩
  case steps =>
    have hexec := exec_calendarTick hgood
    exact ⟨fun h => hexec.trans (by rw [h]; rfl), fun h => hexec.trans (by rw [h]; rfl), fun h => hexec.trans (by rw [h]; rfl),
      fun h => hexec.trans (by rw [h]; rfl), fun h => hexec.trans (by rw [h]; rfl),
      fun h => hexec.trans (by rw [if_neg (by omega), if_neg (by omega), if_neg (by omega), if_neg (by omega), if_neg (by omega)])⟩
  case bad =>
    rw [event_cluster, State.cluster_updCluster]
    exact ⟨rfl, rfl, rfl, rfl⟩
  case headland =>
    intro s hmode hstop hroll hanchor hslip hwait
    have hexec := exec_headlandResolve_waits (s := s) rfl hmode hstop hroll hanchor hslip hwait
    refine ⟨fun h => ?_, fun h => ?_⟩
    · rw [if_pos ((satisfied_iff _).2 h)] at hexec; exact hexec
    · rw [if_neg fun hs => h ((satisfied_iff _).1 hs)] at hexec; exact hexec
  case starts =>
    rw [State.core_updCore]
    exact ⟨rfl, rfl, rfl, rfl, rfl, rfl⟩

end Sys2Proof.Machine
end

section
/-! PROOF. What the counting and the recording of errors leaves alone (R149, R428, R432-R434). -/

namespace Sys2Proof.Machine

/-- `t` differs from `s` in its log, its agenda, its free values, its buckets, its channel counters and the units that are due for a test or for
retirement. -/
def State.OnRecords (s t : State) : Prop :=
  t = { s with log := t.log, agenda := t.agenda, freeCtr := t.freeCtr, buckets := t.buckets, chan := t.chan, retireDue := t.retireDue,
               katDue := t.katDue, unitDue := t.unitDue }

section
variable {s t u : State}

theorem State.OnRecords.refl (s : State) : s.OnRecords s := rfl

theorem State.OnRecords.trans (h : s.OnRecords t) (h' : t.OnRecords u) : s.OnRecords u := by
  unfold State.OnRecords at *
  rw [h', h]

theorem State.OnRecords.cores (h : s.OnRecords t) : t.cores = s.cores := by rw [h]

theorem State.OnRecords.clusters (h : s.OnRecords t) : t.clusters = s.clusters := by rw [h]

theorem State.OnRecords.core (h : s.OnRecords t) (n : Nat) : t.core n = s.core n := core_of_cores h.cores n

theorem State.OnRecords.cluster (h : s.OnRecords t) (k : Nat) : t.cluster k = s.cluster k := by unfold State.cluster; rw [h.clusters]

theorem State.OnRecords.sameData (h : s.OnRecords t) : sameData s t := by rw [h]; exact ⟨rfl, rfl, rfl, rfl, rfl⟩

theorem foldl_onRecords {α : Type} {f : State → α → State} (hf : ∀ (s : State) (x : α), s.OnRecords (f s x)) (l : List α) (s : State) :
    s.OnRecords (l.foldl f s) :=
  List.foldlRecOn (motive := s.OnRecords) _ _ (.refl s) fun _ h x _ => h.trans (hf _ x)

theorem ite_onRecords {p : Prop} [Decidable p] (ht : s.OnRecords t) (hu : s.OnRecords u) : s.OnRecords (if p then t else u) := by
  split
  · exact ht
  · exact hu
end

section
variable (s : State)

theorem free_onRecords : s.OnRecords s.free.2 := rfl

theorem event_onRecords (code sev : Nat) (ctx : Option Nat) (u n sub a d d2 : Nat) : s.OnRecords (s.event code sev ctx u n sub a d d2) := rfl

/-- A bucket that reaches ACT makes a unit due; only that of a cluster's replays acts at once (R433). -/
theorem bucketAct_onRecords {kind : Nat} (hk : kind ≠ 3) (u : Nat) : s.OnRecords (s.bucketAct kind u) := by
  unfold State.bucketAct
  rw [if_neg hk]
  exact ite_onRecords rfl (ite_onRecords rfl (ite_onRecords rfl rfl))

theorem bucketAdd_onRecords {kind : Nat} (hk : kind ≠ 3) (u w : Nat) : s.OnRecords (s.bucketAdd kind u w) := by
  have hcount (b : Tbl Bucket) : s.OnRecords { s with buckets := b } := rfl
  have hevent (t : State) (p : Prop) [Decidable p] (code unit no sub addr d d2 : Nat) :
      t.OnRecords (if p then t.event code 1 none unit no sub addr d d2 else t) :=
    ite_onRecords (event_onRecords ..) (.refl t)
  have hact (t : State) (p : Prop) [Decidable p] : t.OnRecords (if p then t.bucketAct kind u else t) :=
    ite_onRecords (bucketAct_onRecords t hk u) (.refl t)
  exact (((hcount _).trans (hevent _ _ _ _ _ _ _ _ _)).trans (hevent _ _ _ _ _ _ _ _ _)).trans (hact _ _)

theorem corrected_onRecords {kind : Nat} (hk : kind ≠ 3) (u unit unitNo sub addr : Nat) : s.OnRecords (s.corrected kind u unit unitNo sub addr) := by
  refine (bucketAdd_onRecords s hk u 1).trans ?_
  unfold State.corrected
  generalize s.bucketAdd kind u 1 = t
  exact ite_onRecords (.refl t) rfl

theorem countAccess_onRecords (tier pa code : Nat) (write : Bool) : s.OnRecords (s.countAccess tier pa code write) :=
  ite_onRecords (.refl s) rfl

theorem correctSectors_onRecords (tier pa : Nat) : s.OnRecords (s.correctSectors tier pa) := by
  unfold State.correctSectors
  split
  · exact .refl s
  · exact foldl_onRecords (fun t _ => (free_onRecords t).trans (corrected_onRecords _ (by omega) _ _ _ _ _)) _ s

/-- The kind of a bank's bucket is that of a field or of the commons. -/
theorem bankKind_ne (isCommons : Bool) : (if isCommons then 1 else 0) ≠ 3 := by cases isCommons <;> decide

theorem correctWords_onRecords (n : Nat) (isCommons : Bool) (off len : Nat) : s.OnRecords (s.correctWords n isCommons off len) :=
  foldl_onRecords (fun t _ => corrected_onRecords t (bankKind_ne isCommons) _ _ _ _ _) _ s

theorem readCorrects_onRecords (n a len : Nat) : s.OnRecords (s.readCorrects n a len) := by
  unfold State.readCorrects
  split
  · exact correctWords_onRecords s _ _ _ _
  · exact .refl s

theorem wordError_onRecords (n : Nat) (isCommons : Bool) (w : Nat) : s.OnRecords (s.wordError n isCommons w) := by
  have hbucket (u : Nat) : s.OnRecords (s.free.2.bucketAdd (if isCommons then 1 else 0) u 16) :=
    (free_onRecords s).trans (bucketAdd_onRecords _ (bankKind_ne isCommons) u 16)
  unfold State.wordError
  dsimp only
  exact ite_onRecords ((hbucket _).trans rfl) (ite_onRecords ((hbucket _).trans rfl) ((hbucket _).trans rfl))

theorem wordErrors_onRecords (n : Nat) (isCommons : Bool) (off len : Nat) : s.OnRecords (s.wordErrors n isCommons off len) :=
  foldl_onRecords (fun t w => wordError_onRecords t n isCommons w) _ s
end

end Sys2Proof.Machine
end

section
/-! PROOF. Blocks and the codes that they are stored in (R152-R154): a block that is stored in a code that fits it decodes to its own bytes. -/

namespace Sys2Proof.Machine

/-! ### Bytes and numbers (R7) -/

theorem natOfBytes_lt (l : List Byte) : natOfBytes l < 256 ^ l.length := by
  induction l with
  | nil => decide
  | cons b l ih =>
    have hb : b.toNat < 256 := b.isLt
    rw [natOfBytes, List.length_cons, Nat.pow_succ]
    omega

theorem bytesOfNat_natOfBytes (l : List Byte) : bytesOfNat l.length (natOfBytes l) = l := by
  induction l with
  | nil => rfl
  | cons b l ih =>
    have hb : b.toNat < 256 := b.isLt
    have hlow : BitVec.ofNat 8 (b.toNat + 256 * natOfBytes l) = b := by
      apply BitVec.eq_of_toNat_eq
      rw [BitVec.toNat_ofNat]
      omega
    have hhigh : (b.toNat + 256 * natOfBytes l) / 256 = natOfBytes l := by omega
    rw [List.length_cons, natOfBytes, bytesOfNat, hlow, hhigh, ih]

theorem bytesOfNat_natOfBytes_take {w : Nat} {bs : List Byte} (h : w ≤ bs.length) : bytesOfNat w (natOfBytes (bs.take w)) = bs.take w := by
  have hback := bytesOfNat_natOfBytes (bs.take w)
  rwa [List.length_take, Nat.min_eq_left h] at hback

theorem readBytes_eq_map (m : List Host.Cell) (a n : Nat) : readBytes m a n = (List.range n).map (fun k => readByte m (a + k)) := by
  induction n generalizing a with
  | zero => rfl
  | succ n ih =>
    rw [readBytes, ih, List.range_succ_eq_map, List.map_cons, List.map_map]
    exact congrArg _ (List.map_congr_left fun k _ => by simp [Nat.add_comm k 1, Nat.add_assoc])

theorem readBytes_congr {m m' : List Host.Cell} {a n : Nat} (h : ∀ x, a ≤ x → x < a + n → readByte m x = readByte m' x) :
    readBytes m a n = readBytes m' a n := by
  rw [readBytes_eq_map, readBytes_eq_map]
  exact List.map_congr_left fun k hk => h _ (by omega) (by have := List.mem_range.1 hk; omega)

theorem readBytes_writeBytes_self {m : List Host.Cell} (w : memWf m = true) (a : Nat) (bs : List Byte) :
    readBytes (writeBytes m a bs) a bs.length = bs := by
  rw [readBytes_eq_map]
  refine List.ext_getElem (by simp) fun k _ hk => ?_
  rw [List.getElem_map, List.getElem_range, readByte_writeBytes bs w, if_pos ⟨by omega, by omega⟩, Nat.add_sub_cancel_left,
    List.getD_eq_getElem bs 0 hk]

/-! ### Elements and deltas (R153) -/

theorem elements_length (w : Nat) (bs : List Byte) (e : Nat) : (elements w bs e).length = e := by
  induction e generalizing bs with
  | zero => rfl
  | succ e ih => rw [elements, List.length_cons, ih]

theorem elements_lt (w : Nat) {bs : List Byte} {e x : Nat} (h : x ∈ elements w bs e) : x < 256 ^ w := by
  induction e generalizing bs with
  | zero => cases h
  | succ e ih =>
    obtain rfl | h := List.mem_cons.1 h
    · exact (natOfBytes_lt _).trans_le (Nat.pow_le_pow_right (by decide) (by rw [List.length_take]; omega))
    · exact ih h

/-- A block is the bytes of its elements. -/
theorem flatMap_elements (w : Nat) (bs : List Byte) (e : Nat) (h : w * e ≤ bs.length) :
    (elements w bs e).flatMap (bytesOfNat w) = bs.take (w * e) := by
  induction e generalizing bs with
  | zero => simp [elements]
  | succ e ih =>
    rw [Nat.mul_succ] at h
    rw [elements, List.flatMap_cons, bytesOfNat_natOfBytes_take (by omega), ih _ (by rw [List.length_drop]; omega), Nat.mul_succ, Nat.add_comm, List.take_add]

/-- The elements of bytes made of numbers are those numbers. -/
theorem elements_flatMap (d : Nat) (l : List Nat) (rest : List Byte) (h : ∀ x ∈ l, x < 256 ^ d) :
    elements d (l.flatMap (bytesOfNat d) ++ rest) l.length = l := by
  induction l with
  | nil => rfl
  | cons x l ih =>
    have hx : natOfBytes (bytesOfNat d x) = x := by
      rw [natOfBytes_bytesOfNat, Nat.mod_eq_of_lt (h x List.mem_cons_self)]
    rw [List.flatMap_cons, List.length_cons, elements, List.append_assoc, List.take_left' (bytesOfNat_length d x), hx,
      List.drop_left' (bytesOfNat_length d x), ih fun y hy => h y (List.mem_cons_of_mem _ hy)]

/-- A signed value within its width comes back from its residue. -/
theorem signedBytes_mod {d : Nat} (hd : 0 < d) {x : Int} (hlo : -(2 ^ (8 * d - 1) : Int) ≤ x) (hhi : x < 2 ^ (8 * d - 1)) :
    signedBytes d ((x % (2 ^ (8 * d) : Int)).toNat) = x := by
  have hpow : (2 ^ (8 * d) : Int) = 2 * 2 ^ (8 * d - 1) := by rw [← Int.pow_succ']; congr 1; omega
  have hpos : (0 : Int) < 2 ^ (8 * d - 1) := Int.pow_pos (by decide)
  unfold signedBytes
  rw [hpow]
  generalize hP : (2 ^ (8 * d - 1) : Int) = P at *
  have hN : ((2 ^ (8 * d - 1) : Nat) : Int) = P := by rw [← hP]; norm_cast
  generalize (2 ^ (8 * d - 1) : Nat) = N at *
  by_cases hx : 0 ≤ x
  · have hm : x % (2 * P) = x := Int.emod_eq_of_lt hx (by omega)
    rw [hm, if_pos (by omega)]
    omega
  · have hm : x % (2 * P) = x + 2 * P := by
      rw [← Int.add_emod_right, Int.emod_eq_of_lt (by omega) (by omega)]
    rw [hm, if_neg (by omega)]
    omega

/-- A base and the delta of an element give the element. -/
theorem base_add_delta (w b x : Nat) (hx : x < 256 ^ w) :
    (((b : Int) + signedBytes w (((Int.ofNat x - Int.ofNat b) % (2 ^ (8 * w) : Int)).toNat)) % (2 ^ (8 * w) : Int)).toNat = x := by
  have hpow : (256 ^ w : Nat) = 2 ^ (8 * w) := by rw [show 256 = 2 ^ 8 from rfl, ← Nat.pow_mul]
  have hpos : (0 : Int) < 2 ^ (8 * w) := Int.pow_pos (by decide)
  have hsign (m : Nat) : signedBytes w m % (2 ^ (8 * w) : Int) = (m : Int) % 2 ^ (8 * w) := by
    unfold signedBytes
    split
    · rfl
    · exact Int.sub_emod_right _ _
  have hx' : (x : Int) < 2 ^ (8 * w) := by rw [hpow] at hx; exact_mod_cast hx
  rw [Int.add_emod, hsign, Int.toNat_of_nonneg (Int.emod_nonneg _ hpos.ne'), Int.emod_emod, ← Int.add_emod]
  have hsum : (b : Int) + (Int.ofNat x - Int.ofNat b) = x := by simp
  rw [hsum, Int.emod_eq_of_lt (by omega) hx']
  exact Int.toNat_natCast x

/-! ### Forms of a code (R152) -/

/-- The widths of a code with a base and deltas: the elements fill a block, and base and deltas do not. -/
theorem codeForm_widths {k w d : Nat} (h : codeForm k = some (w, d)) : 0 < d ∧ w * (128 / w) = 128 ∧ w + d * (128 / w) ≤ 128 := by
  unfold codeForm at h
  split at h <;> cases h <;> decide

theorem padBlock_length (bs : List Byte) : (padBlock bs).length = 128 := by simp [padBlock]

theorem padBlock_eq_self {bs : List Byte} (h : bs.length = 128) : padBlock bs = bs := by
  unfold padBlock
  rw [← h]
  exact List.take_left

/-- A short list of bytes stands at the start of its block. -/
theorem padBlock_eq_append {bs : List Byte} (h : bs.length ≤ 128) : padBlock bs = bs ++ List.replicate (128 - bs.length) 0 := by
  unfold padBlock
  rw [List.take_append, List.take_of_length_le h, List.take_replicate]
  congr 2
  omega

theorem storedBytes_length (bs : List Byte) (k : Nat) : (storedBytes bs k).length = 128 := by
  unfold storedBytes
  split
  · simp
  · exact padBlock_length _
  · split <;> exact padBlock_length _

theorem flatMap_length_const {α : Type} {f : α → List Byte} {w : Nat} (l : List α) (h : ∀ x ∈ l, (f x).length = w) : (l.flatMap f).length = w * l.length := by
  induction l with
  | nil => simp
  | cons x l ih =>
    rw [List.flatMap_cons, List.length_append, h x List.mem_cons_self, ih fun y hy => h y (List.mem_cons_of_mem _ hy), List.length_cons,
      Nat.mul_succ, Nat.add_comm]

theorem decodeBlock_length (k : Nat) {stored : List Byte} (h : stored.length = 128) : (decodeBlock k stored).length = 128 := by
  unfold decodeBlock
  split
  · simp
  · rw [flatMap_length_const (w := 8) _ fun _ _ => by rw [List.length_take]; omega, List.length_range]
  · split
    · next hf =>
      rw [flatMap_length_const _ fun _ _ => bytesOfNat_length _ _, elements_length]
      exact (codeForm_widths hf).2.1
    · exact h

/-! ### A block comes back from its code (R153, R154) -/

/-- The base of a block is its first element. -/
theorem headD_elements {w : Nat} (hfill : w * (128 / w) = 128) (bs : List Byte) :
    (elements w bs (128 / w)).headD 0 = natOfBytes (bs.take w) := by
  obtain ⟨e, he⟩ : ∃ e, 128 / w = e + 1 := Nat.exists_eq_succ_of_ne_zero fun h0 => by rw [h0] at hfill; simp at hfill
  rw [he, elements]
  rfl

theorem decode_deltas {w d : Nat} (hd : 0 < d) (hfill : w * (128 / w) = 128) (hroom : w + d * (128 / w) ≤ 128) {bs : List Byte}
    (h : bs.length = 128) (hfits : ∀ x ∈ deltas w bs, -(2 ^ (8 * d - 1) : Int) ≤ x ∧ x < 2 ^ (8 * d - 1)) :
    let stored := padBlock (bs.take w ++ (deltas w bs).flatMap (fun x => bytesOfNat d ((x % (2 ^ (8 * d) : Int)).toNat)))
    (elements d (stored.drop w) (128 / w)).flatMap (fun x =>
      bytesOfNat w ((((natOfBytes (stored.take w) : Int) + signedBytes d x) % (2 ^ (8 * w) : Int)).toNat)) = bs := by
  intro stored
  have hmod : 256 ^ d = 2 ^ (8 * d) := by rw [show 256 = 2 ^ 8 from rfl, ← Nat.pow_mul]
  have hpos : (0 : Int) < 2 ^ (8 * d) := Int.pow_pos (by decide)
  have hdeltas : (deltas w bs).length = 128 / w := by unfold deltas; rw [List.length_map, elements_length]
  have hbase : (bs.take w).length = w := by
    have := Nat.le_mul_of_pos_right w (show 0 < 128 / w from Nat.pos_of_ne_zero fun h0 => by rw [h0] at hfill; simp at hfill)
    rw [List.length_take]; omega
  let residues := (deltas w bs).map (fun x => (x % (2 ^ (8 * d) : Int)).toNat)
  have hbytes : (deltas w bs).flatMap (fun x => bytesOfNat d ((x % (2 ^ (8 * d) : Int)).toNat)) = residues.flatMap (bytesOfNat d) :=
    (List.flatMap_map ..).symm
  have hlen : (bs.take w ++ residues.flatMap (bytesOfNat d)).length ≤ 128 := by
    rw [List.length_append, hbase, flatMap_length_const _ fun _ _ => bytesOfNat_length _ _, List.length_map, hdeltas]
    exact hroom
  have hstored : stored = bs.take w ++ (residues.flatMap (bytesOfNat d) ++ List.replicate (128 - (bs.take w ++ residues.flatMap (bytesOfNat d)).length) 0) := by
    show padBlock _ = _
    rw [hbytes, padBlock_eq_append hlen, List.append_assoc]
  have hres : ∀ x ∈ residues, x < 256 ^ d := fun x hx => by
    obtain ⟨y, -, rfl⟩ := List.mem_map.1 hx
    have := Int.emod_lt_of_pos y hpos
    have := Int.emod_nonneg y hpos.ne'
    have hcast : ((2 ^ (8 * d) : Nat) : Int) = 2 ^ (8 * d) := by norm_cast
    rw [hmod]
    omega
  have helems : elements d (stored.drop w) (128 / w) = residues := by
    rw [hstored, List.drop_left' hbase, ← hdeltas, ← List.length_map (as := deltas w bs) (f := fun x => (x % (2 ^ (8 * d) : Int)).toNat)]
    exact elements_flatMap d residues _ hres
  rw [helems, hstored, List.take_left' hbase, List.flatMap_map]
  have hback : (deltas w bs).flatMap (fun x => bytesOfNat w
        ((((natOfBytes (bs.take w) : Int) + signedBytes d ((x % (2 ^ (8 * d) : Int)).toNat)) % (2 ^ (8 * w) : Int)).toNat)) =
      (elements w bs (128 / w)).flatMap (bytesOfNat w) := by
    rw [List.flatMap_congr fun x hx => by rw [signedBytes_mod hd (hfits x hx).1 (hfits x hx).2]]
    unfold deltas
    rw [List.flatMap_map, headD_elements hfill]
    exact List.flatMap_congr fun x hx => by rw [base_add_delta w _ x (elements_lt w hx)]
  rw [hback, flatMap_elements w bs _ (by omega), hfill, ← h, List.take_length]

theorem decodeBlock_form {k w d : Nat} (h : codeForm k = some (w, d)) (stored : List Byte) :
    decodeBlock k stored = (elements d (stored.drop w) (128 / w)).flatMap (fun x =>
      bytesOfNat w ((((natOfBytes (stored.take w) : Int) + signedBytes d x) % (2 ^ (8 * w) : Int)).toNat)) := by
  unfold decodeBlock
  split
  · cases h
  · cases h
  · rw [h]

theorem storedBytes_form {k w d : Nat} (h : codeForm k = some (w, d)) (bs : List Byte) :
    storedBytes bs k = padBlock (bs.take w ++ (deltas w bs).flatMap (fun x => bytesOfNat d ((x % (2 ^ (8 * d) : Int)).toNat))) := by
  unfold storedBytes
  split
  · cases h
  · cases h
  · rw [h]

/-- A block whose elements are all its first one is that element, sixteen times over. -/
theorem eq_of_deltas_zero {bs : List Byte} (h : bs.length = 128) (hzero : ∀ x ∈ deltas 8 bs, x = 0) :
    (List.range 16).flatMap (fun _ => bs.take 8) = bs := by
  have hsame : ∀ x ∈ elements 8 bs 16, bytesOfNat 8 x = bs.take 8 := fun x hx => by
    have hd : signedBytes 8 (((Int.ofNat x - Int.ofNat ((elements 8 bs 16).headD 0)) % (2 ^ (8 * 8) : Int)).toNat) = 0 :=
      hzero _ (List.mem_map_of_mem hx)
    have hback := base_add_delta 8 ((elements 8 bs 16).headD 0) x (elements_lt 8 hx)
    have hlt : natOfBytes (bs.take 8) < 256 ^ 8 := (natOfBytes_lt _).trans_le (Nat.pow_le_pow_right (by decide) (by rw [List.length_take]; omega))
    rw [hd, headD_elements (w := 8) (by decide)] at hback
    have hx : x = natOfBytes (bs.take 8) := by omega
    rw [hx, bytesOfNat_natOfBytes_take (by omega)]
  have hall := flatMap_elements 8 bs 16 (by omega)
  rw [List.take_of_length_le (by omega), List.flatMap_def, List.map_congr_left hsame, List.map_const', elements_length] at hall
  rwa [List.flatMap_def, List.map_const', List.length_range]

/-- A block that is stored in a code that fits it decodes to its own bytes (R153). -/
theorem decodeBlock_storedBytes {bs : List Byte} (h : bs.length = 128) {k : Nat} (hfits : codeFits bs k = true) :
    decodeBlock k (storedBytes bs k) = bs := by
  unfold codeFits at hfits
  split at hfits
  · have hzero : ∀ b ∈ bs, b = 0 := by simpa using hfits
    exact (List.eq_replicate_iff.2 ⟨h, hzero⟩).symm
  · have hstored : (storedBytes bs 1).take 8 = bs.take 8 := by
      show (padBlock (bs.take 8)).take 8 = _
      rw [padBlock_eq_append (by rw [List.length_take]; omega), List.take_left' (by rw [List.length_take]; omega)]
    show (List.range 16).flatMap (fun _ => (storedBytes bs 1).take 8) = bs
    rw [hstored]
    exact eq_of_deltas_zero h (by simpa using hfits)
  · exact padBlock_eq_self h
  · cases hform : codeForm k with
    | none => rw [hform] at hfits; cases hfits
    | some p =>
      obtain ⟨w, d⟩ := p
      rw [hform] at hfits
      obtain ⟨hd, hfill, hroom⟩ := codeForm_widths hform
      rw [decodeBlock_form hform, storedBytes_form hform]
      exact decode_deltas hd hfill hroom h (by simpa using hfits)

/-- The code that a block is written with fits it (R154). -/
theorem codeFits_chooseCode (cmp : Bool) (bs : List Byte) : codeFits bs (chooseCode cmp bs) = true := by
  unfold chooseCode
  split
  · cases hfind : codeOrder.find? (codeFits bs) with
    | none => rfl
    | some k => exact List.find?_some hfind
  · rfl

end Sys2Proof.Machine
end

section
/-! PROOF. Blocks at their home (R149-R155, R180, R435, R472): what an access leaves of every memory, and what a write puts there. -/

namespace Sys2Proof.Machine

/-! ### Tables of codes -/

section
variable {α : Type}

/-- The keys of a table rise. -/
def KeysRise (t : Tbl α) : Prop := (t.map Prod.fst).Pairwise (· < ·)

theorem keysRise_cons {j : Nat} {w : α} {t : Tbl α} : KeysRise ((j, w) :: t) ↔ (∀ k ∈ t.map Prod.fst, j < k) ∧ KeysRise t := List.pairwise_cons

theorem mem_keys_tset {t : Tbl α} {k i : Nat} {v : α} (h : i ∈ (tset t k v).map Prod.fst) : i = k ∨ i ∈ t.map Prod.fst := by
  induction t with
  | nil => exact .inl (List.mem_singleton.1 h)
  | cons e t ih =>
    obtain ⟨j, w⟩ := e
    unfold tset at h
    split at h
    · next hj => exact .inr (hj ▸ h)
    · split at h
      · exact List.mem_cons.1 h
      · obtain rfl | h := List.mem_cons.1 h
        · exact .inr List.mem_cons_self
        · exact (ih h).imp_right (List.mem_cons_of_mem _)

theorem keysRise_tset {t : Tbl α} (h : KeysRise t) (k : Nat) (v : α) : KeysRise (tset t k v) := by
  induction t with
  | nil => exact List.pairwise_singleton _ _
  | cons e t ih =>
    obtain ⟨j, w⟩ := e
    obtain ⟨hj, ht⟩ := keysRise_cons.1 h
    unfold tset
    split
    · next hjk => exact hjk ▸ h
    · split
      · next hlt => exact keysRise_cons.2 ⟨fun i hi => by obtain rfl | hi := List.mem_cons.1 hi; exacts [hlt, hlt.trans (hj i hi)], h⟩
      · next hne hlt =>
        refine keysRise_cons.2 ⟨fun i hi => ?_, ih ht⟩
        obtain rfl | hi := mem_keys_tset hi
        · omega
        · exact hj i hi

theorem keys_tdel_sublist (t : Tbl α) (k : Nat) : ((tdel t k).map Prod.fst).Sublist (t.map Prod.fst) := by
  induction t with
  | nil => exact .refl _
  | cons e t ih =>
    unfold tdel
    split
    · exact List.sublist_cons_self _ _
    · exact ih.cons_cons _

theorem keysRise_tdel {t : Tbl α} (h : KeysRise t) (k : Nat) : KeysRise (tdel t k) := h.sublist (keys_tdel_sublist t k)

theorem tget_of_not_mem (d : α) {t : Tbl α} {k : Nat} (h : k ∉ t.map Prod.fst) : tget d t k = d := by
  induction t with
  | nil => rfl
  | cons e t ih =>
    obtain ⟨j, w⟩ := e
    rw [List.map_cons, List.mem_cons, not_or] at h
    obtain ⟨hj, ht⟩ := h
    rw [tget, if_neg (Ne.symm hj), ih ht]

theorem tget_tdel (d : α) {t : Tbl α} (h : KeysRise t) (k : Nat) : tget d (tdel t k) k = d := by
  induction t with
  | nil => rfl
  | cons e t ih =>
    obtain ⟨j, w⟩ := e
    obtain ⟨hj, ht⟩ := keysRise_cons.1 h
    unfold tdel
    split
    · next hjk => exact tget_of_not_mem d fun hk => absurd (hj k hk) (by omega)
    · next hjk => rw [tget, if_neg hjk, ih ht]

theorem tget_tdel_other (d : α) (t : Tbl α) {k i : Nat} (h : i ≠ k) : tget d (tdel t k) i = tget d t i := by
  induction t with
  | nil => rfl
  | cons e t ih =>
    obtain ⟨j, w⟩ := e
    unfold tdel
    split
    · next hjk => rw [tget, if_neg (by omega)]
    · rw [tget, tget, ih]
end

/-! ### One block of a memory (R155) -/

section
variable {g : GMem} (h : g.ordered)
include h

theorem putBlock_ordered (b code : Nat) (l : List Byte) : (g.putBlock b code l).ordered := by
  refine ⟨?_, putBlock_wf b code l h.2⟩
  show KeysRise (if code = 15 then tdel g.codes b else tset g.codes b code)
  split
  · exact keysRise_tdel h.1 b
  · exact keysRise_tset h.1 b code

theorem block_putBlock_self (b code : Nat) (l : List Byte) : (g.putBlock b code l).block b = (code, padBlock l) := by
  have hcode : tget 15 (if code = 15 then tdel g.codes b else tset g.codes b code) b = code := by
    split
    · next hc => rw [tget_tdel 15 h.1, hc]
    · exact tget_tset ..
  have hbytes : readBytes (writeBytes g.cells (128 * b) (padBlock l)) (128 * b) 128 = padBlock l := by
    have := readBytes_writeBytes_self h.2 (128 * b) (padBlock l)
    rwa [padBlock_length] at this
  exact Prod.ext hcode hbytes

theorem block_putBlock_other {b b' : Nat} (hb : b' ≠ b) (code : Nat) (l : List Byte) : (g.putBlock b code l).block b' = g.block b' := by
  have hcode : tget 15 (if code = 15 then tdel g.codes b else tset g.codes b code) b' = tget 15 g.codes b' := by
    split
    · exact tget_tdel_other 15 _ hb
    · exact tget_tset_other 15 _ _ _ hb
  have hbytes : readBytes (writeBytes g.cells (128 * b) (padBlock l)) (128 * b') 128 = readBytes g.cells (128 * b') 128 :=
    readBytes_congr fun x hlo hhi => by rw [readByte_writeBytes _ h.2, padBlock_length, if_neg (by omega)]
  exact Prod.ext hcode hbytes
end

/-! ### What accesses leave of the memories -/

/-- The bytes and the codes of every memory, and the places of the blocks, are the same. -/
structure State.SameStore (s t : State) : Prop where
  pres : t.pres = s.pres
  hash : t.hash = s.hash
  cells : ∀ u, (t.gmem u).cells = (s.gmem u).cells
  codes : ∀ u, (t.gmem u).codes = (s.gmem u).codes

section
variable {s t u : State}

theorem State.SameStore.refl (s : State) : s.SameStore s := ⟨rfl, rfl, fun _ => rfl, fun _ => rfl⟩

theorem State.SameStore.trans (h : s.SameStore t) (h' : t.SameStore u) : s.SameStore u :=
  ⟨h'.pres.trans h.pres, h'.hash.trans h.hash, fun k => (h'.cells k).trans (h.cells k), fun k => (h'.codes k).trans (h.codes k)⟩

theorem State.OnRecords.sameStore (h : s.OnRecords t) : s.SameStore t := by rw [h]; exact ⟨rfl, rfl, fun _ => rfl, fun _ => rfl⟩

theorem ite_sameStore {p : Prop} [Decidable p] (ht : s.SameStore t) (hu : s.SameStore u) : s.SameStore (if p then t else u) := by
  split
  · exact ht
  · exact hu

theorem foldl_sameStore {α : Type} {f : State → α → State} (hf : ∀ (s : State) (x : α), s.SameStore (f s x)) (l : List α) (s : State) :
    s.SameStore (l.foldl f s) :=
  List.foldlRecOn (motive := s.SameStore) _ _ (.refl s) fun _ h x _ => h.trans (hf _ x)

theorem State.SameStore.blockOf (h : s.SameStore t) (tier pa : Nat) : t.blockOf tier pa = s.blockOf tier pa := by
  unfold State.blockOf State.storage State.place State.domainBytes State.hashCode State.channels
  rw [h.pres, h.hash]

theorem State.SameStore.block (h : s.SameStore t) (tier b : Nat) : (t.gmem tier).block b = (s.gmem tier).block b := by
  unfold GMem.block
  rw [h.cells, h.codes]

theorem State.SameStore.peekBlock (h : s.SameStore t) (tier pa : Nat) : t.peekBlock tier pa = s.peekBlock tier pa := by
  unfold State.peekBlock
  rw [h.blockOf, h.block]

theorem State.SameStore.ordered (h : s.SameStore t) {tier : Nat} (ho : (s.gmem tier).ordered) : (t.gmem tier).ordered := by
  unfold GMem.ordered
  rw [h.cells, h.codes]
  exact ho

/-- Bytes that are written in a state with the same memories are written, and still so in one that has the same memories after it. -/
theorem Written.of_sameStore {v : State} {tier pa : Nat} {bs : List Byte} (h : s.SameStore t) (hw : Written t u tier pa bs) (h' : u.SameStore v) :
    Written s v tier pa bs := by
  obtain ⟨hin, hout⟩ := hw
  refine ⟨fun o ho => ?_, fun k a hk => ?_⟩
  · rw [h'.peekBlock, hin o ho, h.peekBlock]
  · rw [h'.peekBlock, hout k a (by unfold State.apart at *; rwa [h.blockOf, h.blockOf]), h.peekBlock]
end

section
variable (s : State)

theorem gmem_setGmem_self (tier : Nat) (g : GMem) : (s.setGmem tier g).gmem tier = g := by
  unfold State.setGmem State.gmem
  split
  · rfl
  · split <;> rfl

/-- Tiers of one memory. -/
theorem gmem_eq_of_home {t u : Nat} (h : homeOf t = homeOf u) : s.gmem t = s.gmem u := by
  unfold homeOf at h
  unfold State.gmem
  repeat' split at h
  all_goals simp_all

theorem gmem_setGmem_other {t u : Nat} (h : homeOf u ≠ homeOf t) (g : GMem) : (s.setGmem t g).gmem u = s.gmem u := by
  unfold homeOf at h
  unfold State.setGmem State.gmem
  repeat' split at h
  all_goals simp_all

theorem setGmem_sameStore {tier : Nat} {g : GMem} (hcells : g.cells = (s.gmem tier).cells) (hcodes : g.codes = (s.gmem tier).codes) :
    s.SameStore (s.setGmem tier g) := by
  have hmem (u : Nat) : (s.setGmem tier g).gmem u = if homeOf u = homeOf tier then g else s.gmem u := by
    split
    · next h => rw [gmem_eq_of_home _ h, gmem_setGmem_self]
    · next h => exact gmem_setGmem_other s h g
  have hplace : (s.setGmem tier g).pres = s.pres ∧ (s.setGmem tier g).hash = s.hash := by
    unfold State.setGmem
    split
    · exact ⟨rfl, rfl⟩
    · split <;> exact ⟨rfl, rfl⟩
  refine ⟨hplace.1, hplace.2, fun u => ?_, fun u => ?_⟩ <;> rw [hmem]
  · split
    · next h => rw [hcells, gmem_eq_of_home s h]
    · rfl
  · split
    · next h => rw [hcodes, gmem_eq_of_home s h]
    · rfl

theorem poison_sameStore (tier pa : Nat) : s.SameStore (s.poison tier pa) := ite_sameStore (.refl s) (setGmem_sameStore s rfl rfl)

theorem poisonTag_sameStore (tier tag : Nat) : s.SameStore (s.poisonTag tier tag) := setGmem_sameStore s rfl rfl

theorem blockError_sameStore (ctx : Option Nat) (tier pa va : Nat) : s.SameStore (s.blockError ctx tier pa va) := by
  have hfree : s.OnRecords s.free.2.free.2 := rfl
  have hbucket (t : State) (ch : Nat) : t.OnRecords (if tier < 2 then t.bucketAdd (4 + tier) ch 16 else t) :=
    ite_onRecords (bucketAdd_onRecords t (by omega) ch 16) (.refl t)
  have htag (t : State) (p : Prop) [Decidable p] (f : List Nat) : t.SameStore (if p then t.setGmem tier { t.gmem tier with tagBad := f } else t) :=
    ite_sameStore (setGmem_sameStore t rfl rfl) (.refl t)
  have hend (t : State) : t.OnRecords (match ctx with | some c => { t with agenda := .event (.contextEnd c 0x302 0) :: t.agenda } | none => t) := by
    split
    · rfl
    · exact .refl t
  unfold State.blockError
  exact (((hfree.trans (hbucket _ _)).sameStore.trans (htag _ _ _)).trans (event_onRecords ..).sameStore).trans (hend _).sameStore

/-! ### Reads of a block -/

theorem readBlock_sameStore (tier pa : Nat) : s.SameStore (s.readBlock tier pa).1 := by
  have hcount := (countAccess_onRecords s tier pa ((s.gmem tier).block (s.blockOf tier pa)).1 false).sameStore
  unfold State.readBlock
  dsimp only
  split
  · exact hcount.trans (poisonTag_sameStore _ _ _)
  · split
    · exact hcount
    · split
      · exact hcount.trans (poison_sameStore _ _ _)
      · exact hcount.trans (correctSectors_onRecords _ _ _).sameStore

/-- A block that is read gives its bytes. -/
theorem readBlock_some {tier pa : Nat} {old : List Byte} (h : (s.readBlock tier pa).2 = some old) : old = s.peekBlock tier pa := by
  unfold State.readBlock at h
  dsimp only at h
  split at h
  · cases h
  · split at h
    · cases h
    · split at h
      · cases h
      · exact (Option.some.inj h).symm

/-- A block that can be read is read, and only the counts of corrected errors and of bytes change (R149, R433). -/
theorem readBlock_readable {tier pa : Nat} (h : s.unreadable tier pa = false) :
    ∃ t, s.readBlock tier pa = (t, some (s.peekBlock tier pa)) ∧ s.OnRecords t := by
  have hcount := countAccess_onRecords s tier pa ((s.gmem tier).block (s.blockOf tier pa)).1 false
  unfold State.unreadable at h
  simp only [Bool.or_eq_false_iff] at h
  obtain ⟨⟨⟨htag, hbad⟩, hcode⟩, hfail⟩ := h
  refine ⟨(s.countAccess tier pa ((s.gmem tier).block (s.blockOf tier pa)).1 false).correctSectors tier pa, ?_,
    hcount.trans (correctSectors_onRecords _ _ _)⟩
  unfold State.readBlock
  dsimp only
  generalize s.countAccess tier pa ((s.gmem tier).block (s.blockOf tier pa)).1 false = u at hcount
  have hmem : u.gmem tier = s.gmem tier := by rw [hcount]; rfl
  have htag' : u.tagFails tier pa = s.tagFails tier pa := by unfold State.tagFails; rw [hmem, hcount.sameStore.blockOf]
  rw [htag', htag, hmem, hbad, hcode, hfail]
  rfl

theorem readHome_readable {tier pa : Nat} (h : s.unreadable tier pa = false) (n : Nat) :
    ∃ t, s.readHome tier pa n = (t, some (s.peek tier pa n)) ∧ s.OnRecords t := by
  obtain ⟨t, hread, ht⟩ := readBlock_readable s h
  refine ⟨t, ?_, ht⟩
  unfold State.readHome
  rw [hread]
  rfl

/-! ### Waiters of a line (R180, R381) -/

theorem wake_sameStore (m : Monitor) : s.SameStore (s.wake m) := by
  have hdrop : s.SameStore { s with monitors := s.monitors.filter (fun x => x ≠ m) } := ⟨rfl, rfl, fun _ => rfl, fun _ => rfl⟩
  have hbad (t : State) (p : Prop) [Decidable p] (ctx : Option Nat) (va : Nat) :
      t.SameStore (if p then (t.readBlock m.tier m.pa).1.blockError ctx m.tier m.pa va else t) :=
    ite_sameStore ((readBlock_sameStore t _ _).trans (blockError_sameStore ..)) (.refl t)
  have hreply (t : State) (l : List Reply) : t.SameStore { t with replies := l } := ⟨rfl, rfl, fun _ => rfl, fun _ => rfl⟩
  have hcore (t : State) (n : Nat) (f : Core → Core) : t.SameStore (t.updCore n f) := ⟨rfl, rfl, fun _ => rfl, fun _ => rfl⟩
  unfold State.wake
  dsimp only
  split
  · exact (hdrop.trans (hbad _ _ _ _)).trans (hreply _ _)
  · exact (hdrop.trans (hbad _ _ _ _)).trans (hcore _ _ _)

theorem wakeLine_sameStore (tier pa : Nat) : s.SameStore (s.wakeLine tier pa) :=
  (foldl_sameStore wake_sameStore _ s).trans ⟨rfl, rfl, fun _ => rfl, fun _ => rfl⟩
end

/-! ### A block stored at its home (R154, R155) -/

section
variable {s t : State} {tier pa : Nat}

/-- A block is put into the memory of its tier; of the rest of the memories no byte and no code changes. -/
theorem placeBlock_eq (s : State) (tier pa code : Nat) (l : List Byte) :
    ∃ u, s.SameStore u ∧ s.placeBlock tier pa code l = u.setGmem tier ((u.gmem tier).putBlock (u.blockOf tier pa) code l) := by
  have hsnoop : s.SameStore (s.backInvalidate tier pa) := ite_sameStore ⟨rfl, rfl, fun _ => rfl, fun _ => rfl⟩ (.refl s)
  have htag (v : State) (p : Prop) [Decidable p] :
      v.SameStore (if p then (v.poisonTag tier (v.blockOf tier pa / 16)).blockError none tier pa 0 else v) :=
    ite_sameStore ((poisonTag_sameStore v _ _).trans (blockError_sameStore ..)) (.refl v)
  exact ⟨_, (hsnoop.trans (countAccess_onRecords _ _ _ _ _).sameStore).trans (htag _ _), rfl⟩

theorem placeBlock_leaves (h : (s.gmem tier).ordered) (code : Nat) (l : List Byte) :
    let t := s.placeBlock tier pa code l
    t.peekBlock tier pa = decodeBlock code (padBlock l) ∧ (t.gmem tier).ordered ∧ ∀ u a, s.apart u a tier pa → t.peekBlock u a = s.peekBlock u a := by
  obtain ⟨v, hv, heq⟩ := placeBlock_eq s tier pa code l
  have ho := hv.ordered h
  have hblock (u a : Nat) : (v.setGmem tier ((v.gmem tier).putBlock (v.blockOf tier pa) code l)).blockOf u a = v.blockOf u a := by
    unfold State.setGmem
    split
    · rfl
    · split <;> rfl
  rw [heq]
  refine ⟨?_, ?_, fun u a hu => ?_⟩
  · unfold State.peekBlock
    rw [hblock, gmem_setGmem_self, block_putBlock_self ho]
  · rw [gmem_setGmem_self]
    exact putBlock_ordered ho _ _ _
  · rw [← hv.peekBlock]
    unfold State.peekBlock
    rw [hblock]
    by_cases hhome : homeOf u = homeOf tier
    · have hne : v.blockOf u a ≠ v.blockOf tier pa := by
        rw [hv.blockOf, hv.blockOf]
        exact hu.resolve_left (not_not_intro hhome)
      rw [gmem_eq_of_home _ hhome, gmem_setGmem_self, block_putBlock_other ho hne, gmem_eq_of_home v hhome]
    · rw [gmem_setGmem_other _ hhome]

theorem mergeBytes_length {old bs : List Byte} {o : Nat} (h : old.length = 128) (ho : o + bs.length ≤ 128) : (mergeBytes old o bs).length = 128 := by
  unfold mergeBytes
  rw [List.length_append, List.length_append, List.length_take, List.length_drop]
  omega

theorem mergeBytes_getD {old bs : List Byte} {o : Nat} (h : old.length = 128) (ho : o + bs.length ≤ 128) (k : Nat) :
    (mergeBytes old o bs).getD k 0 = if o ≤ k ∧ k < o + bs.length then bs.getD (k - o) 0 else old.getD k 0 := by
  have htake : (old.take o).length = o := by rw [List.length_take]; omega
  unfold mergeBytes
  rw [List.append_assoc]
  simp only [List.getD_eq_getElem?_getD]
  by_cases hlo : k < o
  · rw [List.getElem?_append_left (by omega), if_neg (by omega), List.getElem?_take_of_lt hlo]
  · rw [List.getElem?_append_right (by omega), htake]
    by_cases hhi : k < o + bs.length
    · rw [List.getElem?_append_left (by omega), if_pos ⟨by omega, hhi⟩]
    · rw [List.getElem?_append_right (by omega), if_neg (by omega), List.getElem?_drop]
      congr 2
      omega

theorem peekBlock_length (s : State) (tier pa : Nat) : (s.peekBlock tier pa).length = 128 := decodeBlock_length _ (readBytes_length _ _ _)

/-- A block stored whole, in the code that is chosen for it. -/
theorem placeBlock_chosen (h : (s.gmem tier).ordered) (cmp : Bool) {bs : List Byte} (hlen : bs.length = 128) :
    let t := s.placeBlock tier pa (chooseCode cmp bs) (storedBytes bs (chooseCode cmp bs))
    t.peekBlock tier pa = bs ∧ (t.gmem tier).ordered ∧ ∀ u a, s.apart u a tier pa → t.peekBlock u a = s.peekBlock u a := by
  intro t
  obtain ⟨hin, hord, hout⟩ := placeBlock_leaves (pa := pa) h (chooseCode cmp bs) (storedBytes bs (chooseCode cmp bs))
  refine ⟨?_, hord, hout⟩
  rw [hin, padBlock_eq_self (storedBytes_length _ _), decodeBlock_storedBytes hlen (codeFits_chooseCode cmp bs)]

/-- Bytes stored inside one block, whole or merged with what stands there (R155). -/
theorem placeHome_written {cmp : Bool} {bs : List Byte} (h : (s.gmem tier).ordered) (hfit : pa % 128 + bs.length ≤ 128)
    (hp : s.placeHome tier pa cmp bs = (t, true)) : Written s t tier pa bs ∧ (t.gmem tier).ordered := by
  unfold State.placeHome at hp
  dsimp only at hp
  split at hp
  · next hlen =>
    obtain ⟨hin, hord, hout⟩ := placeBlock_chosen (pa := pa) h cmp hlen
    cases hp
    refine ⟨⟨fun o ho => ?_, hout⟩, hord⟩
    rw [hin, if_pos ⟨by omega, by omega⟩]
    congr 1
    omega
  · split at hp
    · cases hp
    · next v old hread =>
      have hv := readBlock_sameStore s tier pa
      rw [hread] at hv
      have hold : old = s.peekBlock tier pa := readBlock_some s (congrArg Prod.snd hread)
      have hlen : old.length = 128 := hold ▸ peekBlock_length s tier pa
      obtain ⟨hin, hord, hout⟩ := placeBlock_chosen (pa := pa) (hv.ordered h) cmp (mergeBytes_length hlen hfit)
      cases hp
      refine ⟨Written.of_sameStore hv ⟨fun o ho => ?_, hout⟩ (.refl _), hord⟩
      rw [hin, mergeBytes_getD hlen hfit, hold, hv.peekBlock]

theorem writeHome_written {cmp : Bool} {bs : List Byte} (h : (s.gmem tier).ordered) (hfit : pa % 128 + bs.length ≤ 128)
    (hw : s.writeHome tier pa cmp bs = (t, true)) : Written s t tier pa bs ∧ (t.gmem tier).ordered := by
  unfold State.writeHome at hw
  split at hw
  · next hp =>
    obtain ⟨hwritten, hord⟩ := placeHome_written h hfit hp
    cases hw
    exact ⟨Written.of_sameStore (.refl s) hwritten (wakeLine_sameStore _ _ _), (wakeLine_sameStore _ _ _).ordered hord⟩
  · next hne => exact absurd hw (hne t)

/-- A write is made where it covers its block, or where the block can be read. -/
theorem writeHome_made {cmp : Bool} {bs : List Byte} (h : bs.length = 128 ∨ s.unreadable tier pa = false) :
    ∃ t, s.writeHome tier pa cmp bs = (t, true) := by
  have hp : ∃ t, s.placeHome tier pa cmp bs = (t, true) := by
    unfold State.placeHome
    dsimp only
    split
    · exact ⟨_, rfl⟩
    · next hlen =>
      obtain ⟨t, hread, -⟩ := readBlock_readable s (h.resolve_left hlen)
      rw [hread]
      exact ⟨_, rfl⟩
  obtain ⟨t, hp⟩ := hp
  refine ⟨t.wakeLine tier pa, ?_⟩
  unfold State.writeHome
  rw [hp]
end

end Sys2Proof.Machine
end

section
/-! PROOF. The rows and the pieces of a transfer (R159, R174, R320, R322, R325-R327). -/

namespace Sys2Proof.Machine

/-! ### A range cut at its blocks and rows (R159, R174) -/

theorem blockPieces_within {k a n : Nat} {q : Nat × Nat} (h : q ∈ blockPieces k a n) :
    a ≤ q.1 ∧ 0 < q.2 ∧ q.1 + q.2 ≤ a + n ∧ q.1 / 128 = (q.1 + q.2 - 1) / 128 := by
  induction k generalizing a n with
  | zero => cases h
  | succ k ih =>
    unfold blockPieces at h
    split at h
    · cases h
    · obtain rfl | h := List.mem_cons.1 h
      · dsimp only; omega
      · have := ih h; omega

theorem blockPieces_pairwise (k a n : Nat) : (blockPieces k a n).Pairwise (fun p q => p.1 + p.2 ≤ q.1) := by
  induction k generalizing a n with
  | zero => exact .nil
  | succ k ih =>
    unfold blockPieces
    split
    · exact .nil
    · exact List.pairwise_cons.2 ⟨fun q hq => (blockPieces_within hq).1, ih _ _⟩

theorem blockPieces_covers {k a n : Nat} (hk : a % 128 + n ≤ 128 * k) {x : Nat} (hlo : a ≤ x) (hhi : x < a + n) :
    ∃ q ∈ blockPieces k a n, q.1 ≤ x ∧ x < q.1 + q.2 := by
  induction k generalizing a n with
  | zero => omega
  | succ k ih =>
    unfold blockPieces
    rw [if_neg (by omega)]
    by_cases hx : x < a + min n (128 - a % 128)
    · exact ⟨_, List.mem_cons_self, hlo, hx⟩
    · obtain ⟨q, hq, hin⟩ := ih (a := a + min n (128 - a % 128)) (n := n - min n (128 - a % 128)) (by omega) (by omega) (by omega)
      exact ⟨q, List.mem_cons_of_mem _ hq, hin⟩

theorem piecesOf_covers {a n x : Nat} (hlo : a ≤ x) (hhi : x < a + n) : ∃ q ∈ piecesOf a n, q.1 ≤ x ∧ x < q.1 + q.2 :=
  blockPieces_covers (by omega) hlo hhi

/-- Every byte of a range lies in the part of its 64-byte row. -/
theorem spansOf_covers {a n o : Nat} (h : o < n) :
    ∃ q ∈ spansOf 64 a n, q.1 ≤ a + o ∧ a + o < q.1 + q.2 ∧ q.1 / 64 = (q.1 + q.2 - 1) / 64 ∧ a ≤ q.1 ∧ q.1 + q.2 ≤ a + n := by
  unfold spansOf
  rw [if_neg (by omega)]
  refine ⟨_, List.mem_map_of_mem (a := (a + o) / 64 - a / 64) (List.mem_range.2 (by omega)), ?_⟩
  have hrow : a / 64 + ((a + o) / 64 - a / 64) = (a + o) / 64 := by omega
  rw [hrow]
  dsimp only
  omega

/-! ### Rows (R320, R327) -/

section
variable (x : Command)

theorem mem_rowNums (j : Nat) : j ∈ x.rowNums ↔ x.f.imm ≤ j ∧ j < x.f.imm + ((x.desc[3]).toNat / 2 ^ 24 % 2 ^ 16 + 1) := by
  unfold Command.rowNums
  rw [List.mem_map]
  constructor
  · rintro ⟨k, hk, rfl⟩
    exact ⟨by omega, Nat.add_lt_add_left (List.mem_range.1 hk) _⟩
  · rintro ⟨hlo, hhi⟩
    have hrows : descRows x.desc = (x.desc[3]).toNat / 2 ^ 24 % 2 ^ 16 + 1 := rfl
    exact ⟨j - x.f.imm, List.mem_range.2 (by omega), by omega⟩

theorem rowNums_rise : x.rowNums.Pairwise (· < ·) :=
  List.pairwise_map.2 (List.pairwise_lt_range.imp fun h => Nat.add_lt_add_left h _)

theorem rowAddress_global (j : Nat) : x.g j = ((x.desc[0]).toNat + x.a.toNat + (if x.f.xf = 8 then nth x.index (j - x.f.imm)
    else if x.f.xf = 9 then nth x.index (j - x.f.imm) * (x.desc[2]).toNat else j * (x.desc[2]).toNat)) % 2 ^ 64 := by
  unfold Command.g
  split
  · next h => rw [if_pos h]; rfl
  · next h => rw [if_neg (by omega), if_pos h]; rfl
  · next h8 h9 => rw [if_neg h8, if_neg h9]; rfl

/-! ### Pieces (R174, R320) -/

/-- The address at which row `j` begins on the side whose blocks cut it. -/
def Command.cutAt (j : Nat) : Nat := if x.fillsLocal then x.l j else x.g j

/-- A piece of a row, from the part of its range. -/
def Command.pieceOf (j : Nat) (q : Nat × Nat) : Piece := ⟨j, q.1 - x.cutAt j, q.2⟩

variable {x}

theorem pieces_plain (h : x.scaled = false) :
    x.pieces = x.rowNums.flatMap (fun j => (piecesOf (x.cutAt j) x.rlen).map (x.pieceOf j)) := by
  unfold Command.pieces
  rw [h]
  rfl

theorem mem_pieces (h : x.scaled = false) {p : Piece} :
    p ∈ x.pieces ↔ ∃ j ∈ x.rowNums, ∃ q ∈ piecesOf (x.cutAt j) x.rlen, x.pieceOf j q = p := by
  rw [pieces_plain h, List.mem_flatMap]
  simp only [List.mem_map]

theorem pieces_pairwise (h : x.scaled = false) :
    x.pieces.Pairwise (fun p q => p.row < q.row ∨ (p.row = q.row ∧ p.off + p.len ≤ q.off)) := by
  rw [pieces_plain h, List.pairwise_flatMap]
  refine ⟨fun j _ => List.pairwise_map.2 ?_, (rowNums_rise x).imp fun hlt p hp q hq => ?_⟩
  · refine (blockPieces_pairwise _ _ _).imp_of_mem fun {p q} hp hq hle => .inr ⟨rfl, ?_⟩
    have := (blockPieces_within hp).1
    show p.1 - x.cutAt j + p.2 ≤ q.1 - x.cutAt j
    omega
  · obtain ⟨a, -, rfl⟩ := List.mem_map.1 hp
    obtain ⟨b, -, rfl⟩ := List.mem_map.1 hq
    exact .inl hlt

/-- No byte of a row lies in two pieces. -/
theorem piece_unique (h : x.scaled = false) {p q : Piece} (hp : p ∈ x.pieces) (hq : q ∈ x.pieces) {j o : Nat} (hpo : p.has j o) (hqo : q.has j o) :
    q = p := by
  have hapart (a b : Piece) (hab : a.row < b.row ∨ (a.row = b.row ∧ a.off + a.len ≤ b.off)) (ha : a.has j o) (hb : b.has j o) : False := by
    obtain ⟨harow, halo, hahi⟩ := ha
    obtain ⟨hbrow, hblo, hbhi⟩ := hb
    omega
  exact List.Pairwise.forall_of_forall_of_flip (R := fun a b => a.has j o → b.has j o → b = a) (fun _ _ _ _ => rfl)
    ((pieces_pairwise h).imp fun {a b} hab ha hb => (hapart a b hab ha hb).elim)
    ((pieces_pairwise h).imp fun {a b} hab hb ha => (hapart a b hab ha hb).elim) hp hq hpo hqo

theorem piece_covers (h : x.scaled = false) {j o : Nat} (hj : j ∈ x.rowNums) (ho : o < x.rlen) :
    ∃ p ∈ x.pieces, p.has j o ∧ (∀ q ∈ x.pieces, q.has j o → q = p) ∧ p.off + p.len ≤ x.rlen ∧
      (x.cutAt j + p.off) / 128 = (x.cutAt j + p.off + p.len - 1) / 128 := by
  obtain ⟨q, hq, hlo, hhi⟩ := piecesOf_covers (a := x.cutAt j) (n := x.rlen) (x := x.cutAt j + o) (by omega) (by omega)
  obtain ⟨hfrom, hpos, hto, hblock⟩ := blockPieces_within hq
  have hp : x.pieceOf j q ∈ x.pieces := (mem_pieces h).2 ⟨j, hj, q, hq, rfl⟩
  have hhas : (x.pieceOf j q).has j o := ⟨rfl, by show q.1 - x.cutAt j ≤ o; omega, by show o < q.1 - x.cutAt j + q.2; omega⟩
  refine ⟨_, hp, hhas, fun r hr hro => piece_unique h hp hr hhas hro, ?_, ?_⟩
  · show q.1 - x.cutAt j + q.2 ≤ x.rlen; omega
  · have hoff : x.cutAt j + (x.pieceOf j q).off = q.1 := by show x.cutAt j + (q.1 - x.cutAt j) = q.1; omega
    rw [hoff]
    exact hblock
end

/-! ### The acts of a piece (R322) -/

theorem pieceSteps_acts (p : Piece) (l : List CAct) : (pieceSteps p l).map CStep.act = l := by
  unfold pieceSteps
  exact List.ext_getElem (by simp) fun k _ _ => by simp

/-- The transforms that move bytes as they are. -/
theorem plain_of_xf {x : Command} (h : x.f.xf ∈ [0, 8, 9]) : x.quantises = false ∧ x.dequantises = false ∧ x.f.xf ≠ 1 := by
  unfold Command.quantises Command.dequantises
  simp only [List.mem_cons, List.not_mem_nil, or_false] at h
  obtain h | h | h := h <;> rw [h] <;> decide

theorem transferSteps_plain {x : Command} (n : Nat) (p : Piece) (h : isTransfer x.op = true) (hxf : x.f.xf ∈ [0, 8, 9]) :
    (x.transferSteps n p).map CStep.act = x.plainActs n p := by
  obtain ⟨hquant, hdequant, hraw⟩ := plain_of_xf hxf
  unfold Command.transferSteps
  dsimp only
  rw [pieceSteps_acts]
  unfold isTransfer at h
  unfold Command.plainActs Command.readSpans Command.writeSpans
  split at h
  · next hop => simp [hop, hquant, hdequant, hraw]
  · next hop => simp [hop, hquant, hdequant, hraw]
  · next hop => simp [hop]
  · next hop => cases x.fillsLocal <;> simp [hop, hraw]
  · cases h

theorem written_read_bounds {x : Command} (j o o' : Nat) (ho : o ≤ o') (hr : o' ≤ x.rlen) :
    x.writtenTo j 0 = 0 ∧ x.writtenTo j x.rlen = x.rlen ∧ x.writtenTo j o ≤ o ∧ x.writtenTo j o ≤ x.writtenTo j o' ∧
    x.readTo j 0 = 0 ∧ x.readTo j x.rlen = x.rlen ∧ o ≤ x.readTo j o ∧ x.readTo j o ≤ x.readTo j o' := by
  unfold Command.writtenTo Command.readTo
  dsimp only
  generalize x.l j = l
  generalize x.rlen = r at hr
  refine ⟨?_, ?_, ?_, ?_, if_pos rfl, ?_, ?_, ?_⟩
  · split <;> omega
  · rw [if_neg (by omega)]
  · split <;> omega
  · split <;> split <;> omega
  · split <;> omega
  · split <;> omega
  · split <;> split <;> omega

/-! ### What a piece writes (R322, R326) -/

section
variable {x : Command}

theorem not_scaled (h : x.scaled = false) : x.quantises = false ∧ x.dequantises = false := Bool.or_eq_false_iff.1 h

theorem convert_plain (h : x.scaled = false) (hf : isFill x.op = false) (p : Piece) (bs : List Byte) : x.convert p bs = bs := by
  obtain ⟨hquant, hdequant⟩ := not_scaled h
  unfold Command.convert
  rw [hquant, hdequant, if_neg Bool.false_ne_true, if_neg Bool.false_ne_true]
  split
  · next hop => rw [hop] at hf; cases hf
  · rfl

theorem convert_fill (hf : isFill x.op = true) (p : Piece) (bs : List Byte) : x.convert p bs = fillBytes x.c.toNat p.off p.len := by
  unfold isFill at hf
  split at hf
  · next hop =>
    have hxf : x.f.xf = 0 := by unfold Command.f; rw [hop]; rfl
    obtain ⟨hquant, hdequant, -⟩ := plain_of_xf (x := x) (by rw [hxf]; decide)
    unfold Command.convert
    rw [hquant, hdequant, hop]
    rfl
  · cases hf

theorem fillBytes_length (v off len : Nat) : (fillBytes v off len).length = len := by simp [fillBytes]

theorem fillBytes_getD (v off : Nat) {len i : Nat} (h : i < len) :
    (fillBytes v off len).getD i 0 = BitVec.ofNat 8 (v / 2 ^ (8 * ((off + i) % 8))) := by
  rw [List.getD_eq_getElem _ _ (by rwa [fillBytes_length])]
  simp [fillBytes]

theorem convert_quant (h : x.quantises = true) (p : Piece) (bs : List Byte) : x.convert p bs = (x.quantRow bs).1 ++ (x.quantRow bs).2 := by
  unfold Command.convert
  rw [h]
  rfl

theorem convert_dequant (h : x.dequantises = true) (p : Piece) (bs : List Byte) :
    x.convert p bs = x.dequantRow (bs.take x.codeLen) (bs.drop x.codeLen) := by
  have hquant : x.quantises = false := by
    unfold Command.dequantises at h
    unfold Command.quantises
    simp only [Bool.and_eq_true, decide_eq_true_eq] at h
    simp only [Bool.and_eq_false_iff, decide_eq_false_iff_not]
    omega
  unfold Command.convert
  rw [hquant, h]
  rfl
end

/-! ### CTOUCH and CFLUSH (R124, R329) -/

theorem mapSteps_acts {s : State} {n : Nat} {x : Command} {r : Region} (h : s.mappedRegion n x = some r) (hb : x.b ≠ 0) :
    (s.mapSteps n x).map CStep.act = x.groupsOf.flatMap (fun a =>
      let va := r.mapva + (a - r.base)
      (List.range 16).flatMap (fun k =>
        if isTouch x.op = true then .readGlobal (va + 128 * k) 128 false :: writeLocals n a (128 * k) 128 (128 * k) true
        else readLocals (a + 128 * k) 128 ++ [.writeGlobal (va + 128 * k) 128 (128 * k) false])) := by
  unfold State.mapSteps
  rw [h]
  dsimp only
  rw [if_neg hb, List.map_flatMap]
  exact List.flatMap_congr fun a _ => pieceSteps_acts _ _

end Sys2Proof.Machine
end

section
/-! PROOF. Local memories as they are changed (R31, R115, R116, R166). -/

namespace Sys2Proof.Machine

section
variable (s : State) (n : Nat) (isCommons : Bool)

@[simp] theorem localOf_field : s.localOf n false = (s.core n).field := rfl

@[simp] theorem localOf_commons : s.localOf n true = (s.cluster (clusterOf n)).commons := rfl

theorem updLocal_field (f : Local → Local) : s.updLocal n false f = s.updCore n (fun c => { c with field := f c.field }) := rfl

theorem updLocal_commons (f : Local → Local) : s.updLocal n true f = s.updCluster (clusterOf n) (fun k => { k with commons := f k.commons }) := rfl

@[simp] theorem localOf_updLocal (f : Local → Local) : (s.updLocal n isCommons f).localOf n isCommons = f (s.localOf n isCommons) := by
  cases isCommons
  · rw [updLocal_field, localOf_field, State.core_updCore, localOf_field]
  · rw [updLocal_commons, localOf_commons, State.cluster_updCluster, localOf_commons]

/-- A change of one local memory leaves the field of every other core. -/
theorem field_updLocal {k : Nat} (h : k ≠ n ∨ isCommons = true) (f : Local → Local) : ((s.updLocal n isCommons f).core k).field = (s.core k).field := by
  cases isCommons
  · rw [updLocal_field, State.core_updCore_other _ _ (h.resolve_right Bool.false_ne_true)]
  · rfl

/-- A change of one local memory leaves every other commons. -/
theorem commons_updLocal {k : Nat} (h : k ≠ clusterOf n ∨ isCommons = false) (f : Local → Local) :
    ((s.updLocal n isCommons f).cluster k).commons = (s.cluster k).commons := by
  cases isCommons
  · rfl
  · rw [updLocal_commons, State.cluster_updCluster_other _ _ (h.resolve_right (by decide))]

theorem updLocal_global (f : Local → Local) :
    (s.updLocal n isCommons f).dev = s.dev ∧ (s.updLocal n isCommons f).host = s.host ∧ (s.updLocal n isCommons f).peer = s.peer := by
  cases isCommons <;> exact ⟨rfl, rfl, rfl⟩

/-- What commands see of their own bundle is no byte of a field. -/
theorem reveal_field (a len k : Nat) : ((s.reveal n isCommons a len).core k).field = (s.core k).field := by
  have hfield (p : Prop) [Decidable p] (c : Core) : (if p then c.reveal a len else c).field = c.field := by split <;> rfl
  have hget : (s.reveal n isCommons a len).core k = ((tfind s.cores k).map (fun c =>
      if (if isCommons then clusterOf k = clusterOf n else k = n) then c.reveal a len else c)).getD Core.init := by
    show tget Core.init (tmap _ s.cores) k = _
    rw [tget_eq, tfind_tmap]
  have hcore : s.core k = (tfind s.cores k).getD Core.init := tget_eq _ _ _
  rw [hget, hcore]
  cases tfind s.cores k with
  | none => rfl
  | some c => exact hfield _ c

theorem localOf_reveal (a len : Nat) : (s.reveal n isCommons a len).localOf n isCommons = s.localOf n isCommons := by
  cases isCommons
  · exact reveal_field s n false a len n
  · rfl
end

/-! ### Rows that a transfer covers (R322) -/

theorem foldl_freshRow_cells (l : List Nat) (m : Local) : (l.foldl Local.freshRow m).cells = m.cells :=
  List.foldlRecOn (motive := fun r : Local => r.cells = m.cells) l _ rfl fun _ h _ _ => h

@[simp] theorem freshSpan_cells (l : Local) (o done len : Nat) : (l.freshSpan o done len).cells = l.cells := foldl_freshRow_cells _ _

/-- Bytes written for a command stand in the local memory, and nothing else changes there (R322). -/
theorem putSpan_written {s : State} {t a off : Nat} {m : Bool} (h : locate a = some (m, off)) (hwf : memWf (s.localOf t m).cells = true) (done : Nat)
    (bs : List Byte) (rows : Bool) : WrittenLocal s (s.putSpan t a done bs rows) t m (off + done) bs := by
  let put (l : Local) : Local := if rows then (l.put (off + done) bs).freshSpan off done bs.length else l.put (off + done) bs
  have hput (l : Local) : (put l).cells = (l.put (off + done) bs).cells := by
    show (if _ then _ else _ : Local).cells = _
    split
    · exact freshSpan_cells ..
    · rfl
  have heq : s.putSpan t a done bs rows = (s.updLocal t m put).reveal t m (a + done) bs.length := by
    unfold State.putSpan
    rw [h]
  obtain ⟨hdev, hhost, hpeer⟩ := updLocal_global s t m put
  rw [heq]
  refine ⟨fun b => ?_, fun k hk => ?_, fun k hk => ?_, hdev, hhost, hpeer⟩
  · rw [localOf_reveal, localOf_updLocal, hput, readByte_put hwf]
  · rw [reveal_field, field_updLocal s t m hk]
  · exact commons_updLocal s t m hk put

end Sys2Proof.Machine
end

section
/-! PROOF. The steps of transfers, of CTOUCH and of CFLUSH (R124, R174, R322, R323, R325, R329, R435, R437): O48. -/

namespace Sys2Proof.Machine

section
variable {s u : State} {n : Nat} {x : Command} {st : CStep}

/-! ### Reads of global memory (R322, R325) -/

theorem OnRecords_rawBlock {t : State} (h : s.OnRecords t) (p : Page) : t.rawBlock p = s.rawBlock p := by rw [h]; rfl

/-- A read of a block that can be read gives its bytes, or the block as it is stored and its code. -/
theorem readStep_readable {va : Nat} {p : Page} (hpage : s.stepPage n x va false = (u, .ok p)) (h : u.unreadable p.tier p.pa = false) (len : Nat)
    {raw : Bool} (hraw : raw = true → p.tier ≠ 2) :
    ∃ t, s.readStep n x va len raw = (t, .ok, if raw then u.rawBlock p else u.peek p.tier p.pa len) ∧ u.OnRecords t := by
  obtain ⟨t, hread, ht⟩ := readHome_readable u h len
  have hpass : (raw && p.tier == 2) = false := by
    cases raw
    · rfl
    · exact beq_false_of_ne (hraw rfl)
  refine ⟨t, ?_, ht⟩
  unfold State.readStep
  rw [hpage]
  dsimp only
  rw [hpass, if_neg Bool.false_ne_true]
  unfold State.readPage
  rw [hread]
  dsimp only
  rw [OnRecords_rawBlock ht]

theorem runStep_readGlobal {va len : Nat} {raw : Bool} (hact : st.act = .readGlobal va len raw) : s.runStep n x st =
    ((s.readStep n x va len raw).1, (s.readStep n x va len raw).2.1, x.heldBefore st ++ (s.readStep n x va len raw).2.2) := by
  unfold State.runStep
  rw [hact]
  rfl

theorem runStep_readGlobal_ok {va len : Nat} {raw : Bool} {p : Page} (hact : st.act = .readGlobal va len raw)
    (hpage : s.stepPage n x va false = (u, .ok p)) (h : u.unreadable p.tier p.pa = false) (hraw : raw = true → p.tier ≠ 2) :
    ∃ t, s.runStep n x st = (t, .ok, x.heldBefore st ++ if raw then u.rawBlock p else u.peek p.tier p.pa len) ∧ sameData u t := by
  obtain ⟨t, hread, ht⟩ := readStep_readable hpage h len hraw
  exact ⟨t, by rw [runStep_readGlobal hact, hread], ht.sameData⟩

/-! ### Writes of global memory (R155, R322, R325, R435) -/

theorem writePage_written {p : Page} {bs : List Byte} (ctx : Nat) (hord : (s.gmem p.tier).ordered) (hfit : p.pa % 128 + bs.length ≤ 128)
    (h : bs.length = 128 ∨ s.unreadable p.tier p.pa = false) : ∃ t, s.writePage ctx p bs = (t, .ok) ∧ Written s t p.tier p.pa bs := by
  obtain ⟨t, hwrite⟩ := writeHome_made (cmp := p.cmp) h
  refine ⟨t, ?_, (writeHome_written hord hfit hwrite).1⟩
  unfold State.writePage
  rw [hwrite]

theorem runStep_writeGlobal {va len pos : Nat} (hact : st.act = .writeGlobal va len pos false) : s.runStep n x st =
    ((s.writeStep n x st va pos false (((x.output st.piece pos).drop pos).take len)).1,
      (s.writeStep n x st va pos false (((x.output st.piece pos).drop pos).take len)).2, x.heldAfter st pos (pos + len)) := by
  unfold State.runStep
  rw [hact]
  rfl

/-- A step that writes a block puts the bytes there, and no other byte changes (R155). -/
theorem writeStep_written {va pos : Nat} {p : Page} {bs : List Byte} (hpage : s.stepPage n x va true = (u, .ok p)) (hord : (u.gmem p.tier).ordered)
    (hfit : p.pa % 128 + bs.length ≤ 128) (h : bs.length = 128 ∨ u.unreadable p.tier p.pa = false) :
    ∃ t, s.writeStep n x st va pos false bs = (t, .ok) ∧ Written u t p.tier p.pa bs := by
  obtain ⟨t, hwrite, hwritten⟩ := writePage_written x.ctx hord hfit h
  refine ⟨_, ?_, Written.of_sameStore (.refl u) hwritten
    (ite_sameStore (p := (isFlush x.op && localBad (t.core n).field (t.commonsOf n) (st.piece.row + pos) bs.length) = true)
      (poison_sameStore t p.tier p.pa) (.refl t))⟩
  unfold State.writeStep
  rw [hpage]
  dsimp only
  rw [Bool.false_and, if_neg Bool.false_ne_true, if_neg Bool.false_ne_true, hwrite]

/-- A block stored in the form that it comes in keeps its bytes, and its code where the page is compressed (R325). -/
theorem putRaw_stored {p : Page} {code : Nat} (bs : List Byte) (hord : (s.gmem p.tier).ordered) (h : reservedCode code = false) :
    (s.putRaw p code bs).2 = .ok ∧ (s.putRaw p code bs).1.peekBlock p.tier p.pa =
      if p.cmp = true then decodeBlock code (padBlock (bs.take (codeBytes code))) else padBlock (decodeBlock code bs) := by
  have hstore (k : Nat) (l : List Byte) : (s.storeBlock p.tier p.pa k (padBlock l)).peekBlock p.tier p.pa = decodeBlock k (padBlock l) := by
    unfold State.storeBlock
    rw [(wakeLine_sameStore _ _ _).peekBlock, (placeBlock_leaves hord _ _).1, padBlock_eq_self (padBlock_length l)]
  unfold State.putRaw
  rw [h, if_neg Bool.false_ne_true]
  split
  · exact ⟨rfl, hstore _ _⟩
  · exact ⟨rfl, hstore 15 _⟩

/-! ### Reads and writes of local memory (R159, R323, R437, R476) -/

theorem runStep_readLocal {a len : Nat} (hact : st.act = .readLocal a len ∨ st.act = .readList a len) :
    s.runStep n x st = ((s.takeLocal n x a len).1, (s.takeLocal n x a len).2.1, x.heldBefore st ++ (s.takeLocal n x a len).2.2) := by
  unfold State.runStep
  obtain hact | hact := hact <;> rw [hact] <;> rfl

theorem takeLocal_ok {a len : Nat} (hexpired : (firstGroup (s.core n).field (s.commonsOf n) (fun g => !g.valid) a len).isSome = false)
    (hbad : localBad (s.core n).field (s.commonsOf n) a len = false) :
    s.takeLocal n x a len = (s.readCorrects n a len, .ok, x.sees a (localBytes (s.core n).field (s.commonsOf n) a len)) := by
  unfold State.takeLocal State.getLocal
  dsimp only
  rw [hexpired, hbad, Bool.and_false, Bool.false_and]
  rfl

theorem takeLocal_expired {a len : Nat} (hflush : isFlush x.op = false)
    (hexpired : (firstGroup (s.core n).field (s.commonsOf n) (fun g => !g.valid) a len).isSome = true) : (s.takeLocal n x a len).2.1 = .fail stExpired := by
  unfold State.takeLocal State.getLocal
  dsimp only
  rw [hflush, hexpired]
  rfl

theorem takeLocal_bad {a len : Nat} (hflush : isFlush x.op = false)
    (hexpired : (firstGroup (s.core n).field (s.commonsOf n) (fun g => !g.valid) a len).isSome = false)
    (hbad : localBad (s.core n).field (s.commonsOf n) a len = true) : (s.takeLocal n x a len).2.1 = .fail stData := by
  unfold State.takeLocal State.getLocal
  dsimp only
  rw [hflush, hexpired, hbad]
  rfl

/-- A command sees local bytes as they stand where no store of its own bundle has hidden any (R166). -/
theorem sees_none (h : x.hidden = []) (a : Nat) (bs : List Byte) : x.sees a bs = bs := by
  unfold Command.sees
  rw [h]
  exact List.ext_getElem (by simp) fun k _ _ => by simp

theorem runStep_writeLocal {t a done len pos : Nat} {rows : Bool} (hact : st.act = .writeLocal t a done len pos rows) : s.runStep n x st =
    if isCxfer x.op && !s.targetOk t x.ctx a x.rlen then (s, .fail stOwner, x.output st.piece pos)
    else (s.putSpan t a done (((x.output st.piece pos).drop pos).take len) rows, .ok, x.heldAfter st pos (pos + len)) := by
  unfold State.runStep
  rw [hact]
  rfl
end

/-- Settles O48: rows and pieces by their arithmetic, each act by the memory that it reads or writes. -/
theorem transferData : Obligations.TransferData := by
  refine ⟨fun x j => ⟨mem_rowNums x j, rfl, rfl, rowAddress_global x j⟩, fun x hx => ⟨pieces_pairwise hx, fun j o hj ho => piece_covers hx hj ho⟩,
    fun x n p ht hxf => transferSteps_plain n p ht hxf, fun x j o o' ho hr => written_read_bounds j o o' ho hr, fun a n o ho => spansOf_covers ho,
    fun x p bs => ⟨fun hx hf => convert_plain hx hf p bs, fun hf => ?fill, fun hq => convert_quant hq p bs, fun hd => convert_dequant hd p bs⟩,
    fun s u n va len raw x st p hact hpage hread => ?readGlobal, fun s u n va len pos x st p hact hpage hord hfit hpos hmade => ?writeGlobal,
    fun s p code bs hord _ => ⟨fun hcode => if_pos hcode, putRaw_stored bs hord⟩,
    fun s n a len x st hact => ⟨fun hexpired hbad => ?readLocal, fun hx bs => sees_none hx a bs, fun hflush hexpired => ?expired,
      fun hflush hexpired hbad => ?bad⟩,
    fun s n t a done len pos off rows m x st hact hlocate hwf _ => ⟨fun hok => ?writeLocal, fun hx htarget => ?owner⟩,
    fun s n x r hr hb => mapSteps_acts hr hb⟩
  case fill =>
    rw [convert_fill hf]
    exact ⟨fillBytes_length _ _ _, fun i hi => fillBytes_getD _ _ hi⟩
  case readGlobal =>
    refine ⟨fun hplain => ?_, fun hraw htier => ?_⟩
    · subst hplain
      exact runStep_readGlobal_ok hact hpage hread (fun h => absurd h Bool.false_ne_true)
    · subst hraw
      exact runStep_readGlobal_ok hact hpage hread fun _ => htier
  case writeGlobal =>
    have hlen : (((x.output st.piece pos).drop pos).take len).length = len := by rw [List.length_take, List.length_drop]; omega
    obtain ⟨t, hwrite, hwritten⟩ := writeStep_written (st := st) (pos := pos) hpage hord (hlen.symm ▸ hfit) (hlen.symm ▸ hmade)
    exact ⟨t, by rw [runStep_writeGlobal hact, hwrite], hwritten⟩
  case readLocal =>
    exact ⟨_, by rw [runStep_readLocal hact, takeLocal_ok hexpired hbad], (readCorrects_onRecords s n a len).sameData⟩
  case expired => rw [runStep_readLocal hact]; exact takeLocal_expired hflush hexpired
  case bad => rw [runStep_readLocal hact]; exact takeLocal_bad hflush hexpired hbad
  case writeLocal =>
    refine ⟨_, ?_, putSpan_written hlocate hwf done _ rows⟩
    rw [runStep_writeLocal hact, if_neg]
    obtain hx | htarget := hok
    · rw [hx]; exact Bool.false_ne_true
    · rw [htarget, Bool.not_true, Bool.and_false]; exact Bool.false_ne_true
  case owner => exact ⟨_, by rw [runStep_writeLocal hact, hx, htarget]; rfl⟩

end Sys2Proof.Machine
end

section
/-! PROOF. Groups at a retention tick boundary (R111, R112, R117, R125, R466). -/

namespace Sys2Proof.Machine

/-! ### The band of an island (R99, R112, R466) -/

/-- The cores, the clock of retention, the presence, every commons and every band are the same. -/
structure State.BandsHold (s t : State) : Prop where
  cores : t.cores = s.cores
  rtick : t.rtick = s.rtick
  pres : t.pres = s.pres
  commons : ∀ k, (t.cluster k).commons = (s.cluster k).commons
  band : ∀ k, (t.cluster k).csr.tempBand = (s.cluster k).csr.tempBand

section
variable {s t u : State}

theorem State.BandsHold.refl (s : State) : s.BandsHold s := ⟨rfl, rfl, rfl, fun _ => rfl, fun _ => rfl⟩

theorem State.BandsHold.trans (h : s.BandsHold t) (h' : t.BandsHold u) : s.BandsHold u :=
  ⟨h'.cores.trans h.cores, h'.rtick.trans h.rtick, h'.pres.trans h.pres, fun k => (h'.commons k).trans (h.commons k),
    fun k => (h'.band k).trans (h.band k)⟩

theorem ite_bandsHold {p : Prop} [Decidable p] (ht : s.BandsHold t) (hu : s.BandsHold u) : s.BandsHold (if p then t else u) := by
  split
  · exact ht
  · exact hu

theorem foldl_bandsHold {α : Type} {f : State → α → State} (hf : ∀ (s : State) (x : α), s.BandsHold (f s x)) (l : List α) (s : State) :
    s.BandsHold (l.foldl f s) :=
  List.foldlRecOn (motive := s.BandsHold) _ _ (.refl s) fun _ h x _ => h.trans (hf _ x)

theorem updCluster_bandsHold (s : State) (j : Nat) {f : Cluster → Cluster}
    (hf : ∀ k : Cluster, (f k).commons = k.commons ∧ (f k).csr.tempBand = k.csr.tempBand) : s.BandsHold (s.updCluster j f) := by
  have hcluster (k : Nat) : ((s.updCluster j f).cluster k).commons = (s.cluster k).commons ∧
      ((s.updCluster j f).cluster k).csr.tempBand = (s.cluster k).csr.tempBand := by
    by_cases hk : k = j
    · rw [hk, State.cluster_updCluster]; exact hf _
    · rw [State.cluster_updCluster_other _ _ hk]; exact ⟨rfl, rfl⟩
  exact ⟨rfl, rfl, rfl, fun k => (hcluster k).1, fun k => (hcluster k).2⟩
end

section
variable (s : State)

theorem rebook_bandsHold (b b' : Booking) : s.BandsHold (s.rebook b b') := updCluster_bandsHold s _ fun _ => ⟨rfl, rfl⟩

theorem unbook_bandsHold (b : Booking) : s.BandsHold (s.unbook b) := updCluster_bandsHold s _ fun _ => ⟨rfl, rfl⟩

theorem book_bandsHold (b : Booking) : s.BandsHold (s.book b) := updCluster_bandsHold s _ fun _ => ⟨rfl, rfl⟩

theorem stretch_bandsHold {b b' : Booking} {t : Nat} {u : State} (h : s.stretch b t = some (u, b')) : s.BandsHold u := by
  unfold State.stretch at h
  cases (Option.ite_none_right_eq_some.1 h).2
  exact (unbook_bandsHold s b).trans (book_bandsHold _ _)

theorem stretchBy_bandsHold (k : Nat) {s u : State} {b b' : Booking} (h : State.stretchBy k s b = some (u, b')) : s.BandsHold u := by
  induction k generalizing s b with
  | zero => cases h; exact .refl _
  | succ k ih =>
    unfold State.stretchBy at h
    split at h
    · cases h; exact .refl _
    · split at h
      · next hs => exact (stretch_bandsHold s hs).trans (ih h)
      · cases h

theorem lengthenBooking_bandsHold (b : Booking) : s.BandsHold (s.lengthenBooking b) := by
  unfold State.lengthenBooking
  split
  · dsimp only
    split
    · exact rebook_bandsHold s _ _
    · split
      · next h => exact (stretchBy_bandsHold _ h).trans (rebook_bandsHold _ _ _)
      · exact .refl s
  · exact ite_bandsHold (rebook_bandsHold s _ _) (ite_bandsHold (rebook_bandsHold s _ _) (.refl s))

/-- A cluster whose register names a band. -/
def State.takeBand (cl band : Nat) : State := s.updCluster cl (fun k => { k with csr := { k.csr with tempBand := BitVec.ofNat 4 band } })

theorem setBand_bandsHold (cl band : Nat) : (s.takeBand cl band).BandsHold (s.setBand cl band) := by
  have hisland (u : State) (i : Island) : u.BandsHold (u.updCluster cl (fun k => { k with island := i })) :=
    updCluster_bandsHold u cl fun _ => ⟨rfl, rfl⟩
  have hevent (u : State) (code d : Nat) : u.BandsHold (u.event code 0 none 3 cl 0 0 d 0) := ⟨rfl, rfl, rfl, fun _ => rfl, fun _ => rfl⟩
  unfold State.setBand
  exact ite_bandsHold (((hisland _ _).trans (hevent _ _ _)).trans (foldl_bandsHold lengthenBooking_bandsHold _ _))
    (ite_bandsHold ((hisland _ _).trans (hevent _ _ _)) (.refl _))

theorem evaluateBand_bandsHold (cl : Nat) : (s.takeBand cl (s.cluster cl).band).BandsHold (s.evaluateBand cl) := by
  have hsensors (u : State) (t : Int) (b : Bool) : u.BandsHold (u.updCluster cl (fun k => { k with temp := t, sensorsOk := b })) :=
    updCluster_bandsHold u cl fun _ => ⟨rfl, rfl⟩
  have hfree (u : State) : u.BandsHold u.free.2.free.2 := ⟨rfl, rfl, rfl, fun _ => rfl, fun _ => rfl⟩
  have htrip (p : Prop) [Decidable p] (i : Instr) (b : Nat) : (s.takeBand cl b).BandsHold ((if p then s.push i else s).takeBand cl b) := by
    split
    · exact ⟨rfl, rfl, rfl, fun _ => rfl, fun _ => rfl⟩
    · exact .refl _
  unfold State.evaluateBand
  exact (((htrip _ _ _).trans (setBand_bandsHold _ _ _)).trans (hfree _)).trans (hsensors _ _ _)

theorem bandOf_lt (temp : Int) : bandOf temp < 16 := by
  unfold bandOf
  cases h : (List.range 15).find? (fun (k : Nat) => decide (temp ≤ 40000 + 5000 * Int.ofNat k)) with
  | none => decide
  | some k => have := List.mem_range.1 (List.mem_of_find?_eq_some h); show k < 16; omega

theorem band_lt (k : Cluster) : k.band < 16 := by
  unfold Cluster.band
  split
  · exact bandOf_lt _
  · decide

/-- The band of a cluster from a boundary on: that of its sensors each 100 ticks, else the one that it has (R112). -/
def State.bandAt (cl : Nat) : Nat := if s.rtick % 100 = 0 then (s.cluster cl).band else (s.cluster cl).csr.tempBand.toNat

/-- A cluster at a boundary once it has its band. -/
def State.banded (cl : Nat) : State := if s.rtick % 100 = 0 then s.evaluateBand cl else s

theorem banded_leaves (cl : Nat) : (s.banded cl).cores = s.cores ∧ (s.banded cl).rtick = s.rtick ∧ (s.banded cl).pres = s.pres ∧
    ((s.banded cl).cluster cl).commons = (s.cluster cl).commons ∧ ((s.banded cl).cluster cl).csr.tempBand.toNat = s.bandAt cl := by
  unfold State.banded State.bandAt
  split
  · have h := evaluateBand_bandsHold s cl
    refine ⟨h.cores, h.rtick, h.pres, ?_, ?_⟩
    · rw [h.commons]
      unfold State.takeBand
      rw [State.cluster_updCluster]
    · rw [h.band]
      unfold State.takeBand
      rw [State.cluster_updCluster]
      exact Nat.mod_eq_of_lt (band_lt _)
  · exact ⟨rfl, rfl, rfl, rfl, rfl⟩
end

/-! ### One memory a tick older (R117, R118, R125) -/

section
variable (s : State) (n : Nat) (isCommons : Bool)

/-- The groups of a memory as `State.ageMem` leaves them. -/
def State.agedGroups : Tbl Group :=
  tmap (fun k g => if (if isCommons then s.commonsAges (clusterOf n) (2048 * k) else (s.core n).ages) then
      g.aged (s.cluster (clusterOf n)).csr.tempBand.toNat s.rtick ((s.ownerRegion n isCommons (2048 * k)).any (fun x => x.2.2.mapped))
    else g) (s.localOf n isCommons).groups

/-- The memory with its groups a tick older. -/
def State.aged : State := s.updLocal n isCommons (fun l => { l with groups := s.agedGroups n isCommons })

theorem aged_field : s.aged n false = s.updCore n (fun c => { c with field := { c.field with groups := s.agedGroups n false } }) := rfl

theorem aged_commons :
    s.aged n true = s.updCluster (clusterOf n) (fun k => { k with commons := { k.commons with groups := s.agedGroups n true } }) := rfl

/-- The end of a retention tick boundary for one memory: its expiries, and its write-backs. -/
def State.retained : State := (s.retainMem n isCommons).runWritebacks n isCommons

theorem retainMem_eq : ∃ g, s.retainMem n isCommons = { s.aged n isCommons with log := g } := by
  have hevents (l : List (Nat × Nat)) (offs : List Nat) (u : State) :
      ∃ g, l.foldl (fun s x => s.expiryEvent n isCommons x.1 x.2 offs) u = { u with log := g } := by
    refine List.foldlRecOn (motive := fun t : State => ∃ g, t = { u with log := g }) l _ ⟨_, rfl⟩ fun t ⟨g, ht⟩ x _ => ?_
    subst ht
    unfold State.expiryEvent
    split <;> exact ⟨_, rfl⟩
  exact hevents _ _ _

/-- What one memory's boundary leaves: its groups a tick older, and the write-backs that are due on the agenda. -/
theorem retained_leaves : let t := s.retained n isCommons
    t.cores = (s.aged n isCommons).cores ∧ t.clusters = (s.aged n isCommons).clusters ∧ t.rtick = s.rtick ∧ ∃ l, t.agenda = s.agenda ++ l ∧
    ∀ k g, (k, g) ∈ s.agedGroups n isCommons → g.valid = true → g.pending = true → g.writeback = true → g.failed = false ∨ s.rtick % 256 = 0 →
      Work.event (.expiryWritebackComplete (clusterOf n) (if isCommons then 8 else n % 8) k) ∈ l := by
  obtain ⟨log, hlog⟩ := retainMem_eq s n isCommons
  have hleft : (s.retainMem n isCommons).cores = (s.aged n isCommons).cores ∧ (s.retainMem n isCommons).clusters = (s.aged n isCommons).clusters ∧
      (s.retainMem n isCommons).rtick = s.rtick ∧ (s.retainMem n isCommons).agenda = s.agenda := by
    rw [hlog]
    unfold State.aged
    cases isCommons <;> exact ⟨rfl, rfl, rfl, rfl⟩
  have hgroups : ((s.retainMem n isCommons).localOf n isCommons).groups = s.agedGroups n isCommons := by
    rw [hlog]
    show ((s.aged n isCommons).localOf n isCommons).groups = _
    unfold State.aged
    rw [localOf_updLocal]
  obtain ⟨hcores, hclusters, hrtick, hagenda⟩ := hleft
  refine ⟨hcores, hclusters, hrtick, _, congrArg (· ++ _) hagenda, fun k g hk hvalid hpending hwriteback hdue => ?_⟩
  refine List.mem_map.2 ⟨(k, g), List.mem_filter.2 ⟨hgroups ▸ hk, ?_⟩, rfl⟩
  simpa [hvalid, hpending, hwriteback, hrtick] using hdue
end

/-! ### The memories of a cluster (R117) -/

section
variable {s t : State}

/-- The ageing of a field rests on its own core, its cluster and the clock. -/
theorem agedGroups_field {n : Nat} (hcore : t.core n = s.core n) (hclusters : t.clusters = s.clusters) (hrtick : t.rtick = s.rtick) :
    t.agedGroups n false = s.agedGroups n false := by
  unfold State.agedGroups State.ownerRegion State.localOf State.cluster
  rw [hcore, hclusters, hrtick]
  rfl

/-- The ageing of a commons rests on its cluster, on the tasks and the regions of the cores, and on the clock. -/
theorem agedGroups_commons (n : Nat) (hrgn : ∀ m, (t.core m).rgn = (s.core m).rgn) (hseq : ∀ m, (t.core m).seq = (s.core m).seq)
    (hclusters : t.clusters = s.clusters) (hrtick : t.rtick = s.rtick) : t.agedGroups n true = s.agedGroups n true := by
  have hregion (m a : Nat) : (t.core m).regionAt a = (s.core m).regionAt a := by unfold Core.regionAt; rw [hrgn]
  have hages (m : Nat) : (t.core m).ages = (s.core m).ages := by unfold Core.ages; rw [hseq]
  have howner (o : Nat) : t.ownerRegion n true o = s.ownerRegion n true o := by
    show t.holderOf _ _ = s.holderOf _ _
    unfold State.holderOf
    simp only [hregion, hrgn]
  have hruns (o : Nat) : t.commonsAges (clusterOf n) o = s.commonsAges (clusterOf n) o := by
    unfold State.commonsAges
    simp only [hregion, hages]
  unfold State.agedGroups State.localOf State.commonsOf State.cluster
  simp only [howner, hruns, hclusters, hrtick]
  rfl

/-- What the boundary of the fields of some cores leaves. -/
theorem foldl_retained {l : List Nat} (hl : l.Nodup) : ∀ s : State, let t := l.foldl (fun s n => s.retained n false) s
    t.clusters = s.clusters ∧ t.rtick = s.rtick ∧ (∀ m, (t.core m).rgn = (s.core m).rgn ∧ (t.core m).seq = (s.core m).seq) ∧
    (∀ m, m ∉ l → t.core m = s.core m) ∧ (∀ w ∈ s.agenda, w ∈ t.agenda) ∧
    ∀ n ∈ l, (t.core n).field.groups = s.agedGroups n false ∧ ∀ k g, (k, g) ∈ s.agedGroups n false → g.valid = true → g.pending = true →
      g.writeback = true → g.failed = false ∨ s.rtick % 256 = 0 → Work.event (.expiryWritebackComplete (clusterOf n) (n % 8) k) ∈ t.agenda := by
  induction l with
  | nil => exact fun s => ⟨rfl, rfl, fun _ => ⟨rfl, rfl⟩, fun _ _ => rfl, fun _ h => h, fun _ h => by cases h⟩
  | cons a l ih =>
    intro s
    obtain ⟨ha, hl⟩ := List.nodup_cons.1 hl
    obtain ⟨hcores, hclusters, hrtick, w, hagenda, hdue⟩ := retained_leaves s a false
    obtain ⟨hclusters', hrtick', hsame', hothers', hagenda', hgroups'⟩ := ih hl (s.retained a false)
    have hself : (s.retained a false).core a = { s.core a with field := { (s.core a).field with groups := s.agedGroups a false } } := by
      rw [core_of_cores hcores, aged_field, State.core_updCore]
    have hother (m : Nat) (hm : m ≠ a) : (s.retained a false).core m = s.core m := by
      rw [core_of_cores hcores, aged_field, State.core_updCore_other _ _ hm]
    have hsame (m : Nat) : ((s.retained a false).core m).rgn = (s.core m).rgn ∧ ((s.retained a false).core m).seq = (s.core m).seq := by
      by_cases hm : m = a
      · rw [hm, hself]; exact ⟨rfl, rfl⟩
      · rw [hother m hm]; exact ⟨rfl, rfl⟩
    have hclusters : (s.retained a false).clusters = s.clusters := hclusters
    refine ⟨hclusters'.trans hclusters, hrtick'.trans hrtick, fun m => ⟨(hsame' m).1.trans (hsame m).1, (hsame' m).2.trans (hsame m).2⟩,
      fun m hm => ?_, fun v hv => hagenda' v (hagenda ▸ List.mem_append_left _ hv), fun n hn => ?_⟩
    · obtain ⟨hma, hml⟩ := not_or.1 (List.mem_cons.not.1 hm)
      exact (hothers' m hml).trans (hother m hma)
    · obtain rfl | hn := List.mem_cons.1 hn
      · refine ⟨?_, fun k g hk hv hp hw hf => hagenda' _ (hagenda ▸ List.mem_append_right _ (hdue k g hk hv hp hw hf))⟩
        rw [List.foldl_cons, hothers' n ha, hself]
      · have haged := agedGroups_field (hother n fun h => ha (h ▸ hn)) hclusters hrtick
        rw [List.foldl_cons, ← haged, ← hrtick]
        exact hgroups' n hn

/-- What a cluster's boundary leaves: its band, its groups a tick older, and the write-backs that are due (R117). -/
theorem retainCluster_leaves (s : State) (cl : Nat) : let t := s.retainCluster cl
    (t.cluster cl).csr.tempBand.toNat = s.bandAt cl ∧
    (∀ n ∈ s.coresOf cl, (t.core n).field.groups = (s.banded cl).agedGroups n false ∧ ∀ k g, (k, g) ∈ (s.banded cl).agedGroups n false → g.valid = true →
      g.pending = true → g.writeback = true → g.failed = false ∨ s.rtick % 256 = 0 → Work.event (.expiryWritebackComplete cl (n % 8) k) ∈ t.agenda) ∧
    (t.cluster cl).commons.groups = (s.banded cl).agedGroups (8 * cl) true := by
  intro t
  obtain ⟨hbcores, hbrtick, hbpres, -, hband⟩ := banded_leaves s cl
  have hcores : (s.banded cl).coresOf cl = s.coresOf cl := by unfold State.coresOf; rw [hbpres]
  obtain ⟨hclusters, hrtick, hsame, -, -, hgroups⟩ := foldl_retained (coresOf_nodup (s.banded cl) cl) (s.banded cl)
  let u := ((s.banded cl).coresOf cl).foldl (fun s n => s.retained n false) (s.banded cl)
  have ht : t = u.retained (8 * cl) true := rfl
  obtain ⟨htcores, htclusters, -, w, hagenda, -⟩ := retained_leaves u (8 * cl) true
  have hcl : clusterOf (8 * cl) = cl := by unfold clusterOf; omega
  have hcluster : t.cluster cl = { u.cluster cl with commons := { (u.cluster cl).commons with groups := u.agedGroups (8 * cl) true } } := by
    rw [ht, State.cluster, htclusters, aged_commons, hcl]
    exact State.cluster_updCluster u cl _
  have hucluster : u.cluster cl = (s.banded cl).cluster cl := by unfold State.cluster; rw [hclusters]
  refine ⟨?_, fun n hn => ?_, ?_⟩
  · rw [hcluster, hucluster]
    exact hband
  · obtain ⟨hfield, hdue⟩ := hgroups n (hcores ▸ hn)
    have hn' : clusterOf n = cl := (mem_coresOf.1 hn).1
    rw [hn', hbrtick] at hdue
    refine ⟨?_, fun k g hk hv hp hw hf => ?_⟩
    · rw [ht, core_of_cores htcores]
      exact hfield
    · rw [ht, hagenda]
      exact List.mem_append_left _ (hdue k g hk hv hp hw hf)
  · rw [hcluster]
    exact agedGroups_commons _ (fun m => (hsame m).1) (fun m => (hsame m).2) hclusters hrtick
end

end Sys2Proof.Machine
end

section
/-! PROOF. Refreshes, checks and write-backs of groups (R28, R29, R119, R124, R125, R434, R464). -/

namespace Sys2Proof.Machine

/-! ### Groups at a boundary, from the state before it (R117) -/

section
variable (s : State) (cl : Nat)

theorem banded_core (n : Nat) : (s.banded cl).core n = s.core n := core_of_cores (banded_leaves s cl).1 n

theorem banded_ownerRegion (n : Nat) (isCommons : Bool) (off : Nat) : (s.banded cl).ownerRegion n isCommons off = s.ownerRegion n isCommons off := by
  unfold State.ownerRegion State.holderOf
  simp only [banded_core]

theorem banded_field {n : Nat} (h : clusterOf n = cl) : (s.banded cl).agedGroups n false =
    tmap (fun k g => if (s.core n).ages then g.aged (s.bandAt cl) s.rtick ((s.ownerRegion n false (2048 * k)).any (fun x => x.2.2.mapped)) else g)
      (s.core n).field.groups := by
  obtain ⟨-, hrtick, -, -, hband⟩ := banded_leaves s cl
  unfold State.agedGroups
  rw [h, hband, hrtick]
  simp only [banded_ownerRegion, localOf_field, banded_core, Bool.false_eq_true, if_false]

theorem banded_commons : (s.banded cl).agedGroups (8 * cl) true =
    tmap (fun k g => if s.commonsAges cl (2048 * k) then
        g.aged (s.bandAt cl) s.rtick ((s.ownerRegion (8 * cl) true (2048 * k)).any (fun x => x.2.2.mapped)) else g)
      (s.cluster cl).commons.groups := by
  obtain ⟨-, hrtick, -, hcommons, hband⟩ := banded_leaves s cl
  have hcl : clusterOf (8 * cl) = cl := by unfold clusterOf; omega
  have hages (o : Nat) : (s.banded cl).commonsAges cl o = s.commonsAges cl o := by
    unfold State.commonsAges
    simp only [banded_core]
  unfold State.agedGroups
  rw [hcl, hband, hrtick]
  simp only [banded_ownerRegion, hages, localOf_commons, hcl, hcommons, if_true]
end

/-! ### Rows refreshed in one cycle (R29, R119) -/

theorem pickRows_cons_used {r : Nat × Nat} {used : List Nat} (h : r.1 ∈ used) (l : List (Nat × Nat)) : pickRows (r :: l) used = pickRows l used :=
  if_pos (List.contains_iff_mem.2 h)

theorem pickRows_cons_free {r : Nat × Nat} {used : List Nat} (h : r.1 ∉ used) (l : List (Nat × Nat)) :
    pickRows (r :: l) used = r :: pickRows l (r.1 :: used) := if_neg fun hc => h (List.contains_iff_mem.1 hc)

/-- Rows are picked in order, no bank's twice and none of a bank that is taken. -/
theorem mem_pickRows (l : List (Nat × Nat)) : ∀ (used : List Nat) (r : Nat × Nat), r ∈ pickRows l used → r ∈ l ∧ r.1 ∉ used := by
  induction l with
  | nil => exact fun _ _ h => by cases h
  | cons a l ih =>
    intro used r h
    by_cases ha : a.1 ∈ used
    · rw [pickRows_cons_used ha] at h
      exact ⟨List.mem_cons_of_mem _ (ih _ _ h).1, (ih _ _ h).2⟩
    · rw [pickRows_cons_free ha] at h
      obtain rfl | h := List.mem_cons.1 h
      · exact ⟨List.mem_cons_self, ha⟩
      · obtain ⟨hl, hu⟩ := ih _ _ h
        exact ⟨List.mem_cons_of_mem _ hl, fun hr => hu (List.mem_cons_of_mem _ hr)⟩

theorem pickRows_nodup (l : List (Nat × Nat)) : ∀ used : List Nat, ((pickRows l used).map Prod.fst).Nodup := by
  induction l with
  | nil => exact fun _ => List.nodup_nil
  | cons a l ih =>
    intro used
    by_cases ha : a.1 ∈ used
    · rw [pickRows_cons_used ha]; exact ih _
    · rw [pickRows_cons_free ha]
      refine List.nodup_cons.2 ⟨fun h => ?_, ih _⟩
      obtain ⟨r, hr, hra⟩ := List.mem_map.1 h
      exact (mem_pickRows l _ r hr).2 (hra ▸ List.mem_cons_self)

/-- Each bank that has a row to refresh and is not taken gets one. -/
theorem pickRows_serves (l : List (Nat × Nat)) : ∀ (used : List Nat) (r : Nat × Nat), r ∈ l → r.1 ∉ used → r.1 ∈ (pickRows l used).map Prod.fst := by
  induction l with
  | nil => exact fun _ _ h => by cases h
  | cons a l ih =>
    intro used r h hu
    by_cases ha : a.1 ∈ used
    · rw [pickRows_cons_used ha]
      obtain rfl | h := List.mem_cons.1 h
      · exact absurd ha hu
      · exact ih _ _ h hu
    · rw [pickRows_cons_free ha]
      by_cases hra : r.1 = a.1
      · exact List.mem_map.2 ⟨a, List.mem_cons_self, hra.symm⟩
      · obtain rfl | h := List.mem_cons.1 h
        · exact absurd rfl hra
        · exact List.mem_cons_of_mem _ (ih _ _ h fun hm => (List.mem_cons.1 hm).elim hra hu)

/-- A group's rows are all picked in one cycle exactly where no bank holds two of them. -/
theorem pickRows_all (l : List (Nat × Nat)) : ∀ used : List Nat, (∀ r ∈ l, r.1 ∉ used) →
    (l.length ≤ (pickRows l used).length ↔ (l.map Prod.fst).Nodup) := by
  intro used hfree
  constructor
  · intro h
    have hsub : (pickRows l used).Sublist l := by
      clear h hfree
      induction l generalizing used with
      | nil => exact .refl _
      | cons a l ih =>
        by_cases ha : a.1 ∈ used
        · rw [pickRows_cons_used ha]; exact (ih _).cons _
        · rw [pickRows_cons_free ha]; exact (ih _).cons_cons _
    rw [← hsub.eq_of_length_le h]
    exact pickRows_nodup l used
  · intro h
    have hsub : l.map Prod.fst ⊆ (pickRows l used).map Prod.fst := fun b hb => by
      obtain ⟨r, hr, rfl⟩ := List.mem_map.1 hb
      exact pickRows_serves l used r hr (hfree r hr)
    simpa using (List.subperm_of_subset h hsub).length_le

/-! ### The reserved cycle of a memory without errors (R28, R29, R119) -/

section
variable {s : State} {n : Nat} {isCommons : Bool}

@[simp] theorem group_updGroup (l : Local) (off : Nat) (f : Group → Group) : (l.updGroup off f).group off = f (l.group off) := tget_tset _ _ _ _

theorem group_updGroup_other (l : Local) {off o : Nat} (h : o / 2048 ≠ off / 2048) (f : Group → Group) : (l.updGroup off f).group o = l.group o :=
  tget_tset_other _ _ _ _ h

theorem checkRows_clean (hbad : (s.localOf n isCommons).bad = []) (hweak : (s.localOf n isCommons).weak = []) (off : Nat) (rows : List (Nat × Nat)) :
    s.checkRows n isCommons off rows = s := by
  unfold State.checkRows
  dsimp only
  rw [hbad, hweak]
  rfl

/-- A scrub that has no word with an error to find counts the cycles that the banks have missed. -/
theorem scrub_clean (hbad : (s.localOf n isCommons).bad = []) (hweak : (s.localOf n isCommons).weak = []) (used : List Nat) :
    ∃ m, s.scrub n isCommons used = s.updLocal n isCommons (fun l => { l with missed := m }) ∨ s.scrub n isCommons used = s := by
  unfold State.scrub
  dsimp only
  rw [hbad, hweak]
  split
  · exact ⟨(s.localOf n isCommons).missed, .inr rfl⟩
  · refine ⟨used.eraseDups.foldl (fun t b => tset t b (tget 0 t b + 1)) (s.localOf n isCommons).missed, .inl ?_⟩
    cases isCommons <;> rfl

/-- What a scrub without errors leaves: the bytes, the groups and the registers. -/
theorem scrub_leaves (hbad : (s.localOf n isCommons).bad = []) (hweak : (s.localOf n isCommons).weak = []) (used : List Nat) :
    let t := s.scrub n isCommons used
    (t.localOf n isCommons).cells = (s.localOf n isCommons).cells ∧ (t.localOf n isCommons).groups = (s.localOf n isCommons).groups ∧
    (t.core n).csr = (s.core n).csr ∧ (t.cluster (clusterOf n)).csr = (s.cluster (clusterOf n)).csr := by
  have hupd (f : Local → Local) : ((s.updLocal n isCommons f).core n).csr = (s.core n).csr ∧
      ((s.updLocal n isCommons f).cluster (clusterOf n)).csr = (s.cluster (clusterOf n)).csr := by
    cases isCommons
    · rw [updLocal_field, State.core_updCore]; exact ⟨rfl, rfl⟩
    · rw [updLocal_commons, State.cluster_updCluster]; exact ⟨rfl, rfl⟩
  obtain ⟨m, h | h⟩ := scrub_clean hbad hweak used
  · rw [h]
    exact ⟨by rw [localOf_updLocal], by rw [localOf_updLocal], hupd _⟩
  · rw [h]
    exact ⟨rfl, rfl, rfl, rfl⟩

/-- A cycle's refresh of one group, with `left` its rows that are still to be refreshed and `used` the banks that are taken: the group is refreshed, or
those of its rows that the banks serve are noted (R119). -/
def State.refreshOne (s : State) (n : Nat) (isCommons : Bool) (off : Nat) (left : List (Nat × Nat)) (used : List Nat) : State :=
  if left.length ≤ (pickRows left used).length then s.refreshed n isCommons off
  else s.updLocal n isCommons (fun l => l.updGroup off (fun g => { g with served := g.served ++ (pickRows left used).map rowKey }))

theorem reserveMem_late (hredo : (s.cluster (clusterOf n)).redo.all (fun p => p.1 != if isCommons then 8 else n % 8) = true) :
    s.reserveMem n isCommons =
      (s.serveRefresh n isCommons (s.requestsIn n isCommons) []).1.scrub n isCommons (s.serveRefresh n isCommons (s.requestsIn n isCommons) []).2 := by
  have hnone : (s.cluster (clusterOf n)).redo.filter (fun p => p.1 == if isCommons then 8 else n % 8) = [] := by
    rw [List.filter_eq_nil_iff]
    intro p hp
    have := List.all_eq_true.1 hredo p hp
    simpa using this
  unfold State.reserveMem
  dsimp only
  rw [hnone]
  rfl

theorem serveRefresh_cons (hbad : (s.localOf n isCommons).bad = []) (hweak : (s.localOf n isCommons).weak = []) (off : Nat) (rest used : List Nat) :
    let left := (s.rowsOf n isCommons off).filter (fun r => !((s.localOf n isCommons).group off).served.contains (rowKey r))
    s.serveRefresh n isCommons (off :: rest) used =
      (s.refreshOne n isCommons off left used).serveRefresh n isCommons rest (used ++ left.map Prod.fst) := by
  intro left
  rw [State.serveRefresh]
  rw [checkRows_clean hbad hweak]
  rfl

/-- A group's record once its last row is refreshed. -/
def Group.refreshed (g : Group) : Group := { g with age := 0, fresh := 0, pending := g.writeback, served := [] }

theorem refreshed_field (off : Nat) : s.refreshed n false off =
    (s.updLocal n false (fun l => l.updGroup off Group.refreshed)).updCore n (fun c => { c with csr := { c.csr with refcnt := c.csr.refcnt + 1 } }) := rfl

theorem refreshed_commons (off : Nat) : s.refreshed n true off = (s.updLocal n true (fun l => l.updGroup off Group.refreshed)).updCluster (clusterOf n)
    (fun k => { k with csr := { k.csr with crefcnt := k.csr.crefcnt + 1 } }) := rfl

theorem refreshed_localOf (off : Nat) : (s.refreshed n isCommons off).localOf n isCommons = (s.localOf n isCommons).updGroup off Group.refreshed := by
  cases isCommons
  · rw [refreshed_field, localOf_field, State.core_updCore]
    exact localOf_updLocal s n false _
  · rw [refreshed_commons, localOf_commons, State.cluster_updCluster]
    exact localOf_updLocal s n true _

theorem refreshed_refcnt (off : Nat) : ((s.refreshed n false off).core n).csr.refcnt = (s.core n).csr.refcnt + 1 := by
  rw [refreshed_field, State.core_updCore, updLocal_field, State.core_updCore]

theorem refreshed_crefcnt (off : Nat) :
    ((s.refreshed n true off).cluster (clusterOf n)).csr.crefcnt = (s.cluster (clusterOf n)).csr.crefcnt + 1 := by
  rw [refreshed_commons, State.cluster_updCluster, updLocal_commons, State.cluster_updCluster]

/-- A refresh touches one group's record. -/
theorem refreshOne_localOf (s : State) (off : Nat) (left : List (Nat × Nat)) (used : List Nat) :
    ∃ f, (s.refreshOne n isCommons off left used).localOf n isCommons = (s.localOf n isCommons).updGroup off f := by
  unfold State.refreshOne
  split
  · exact ⟨_, refreshed_localOf off⟩
  · exact ⟨_, localOf_updLocal s n isCommons _⟩

/-- Refreshes, of whatever groups, leave the bytes of a memory in which no word has an error, and no word gets one. -/
theorem serveRefresh_keeps (offs : List Nat) : ∀ (s : State) (used : List Nat), (s.localOf n isCommons).bad = [] → (s.localOf n isCommons).weak = [] →
    let t := (s.serveRefresh n isCommons offs used).1
    (t.localOf n isCommons).cells = (s.localOf n isCommons).cells ∧ (t.localOf n isCommons).bad = [] ∧ (t.localOf n isCommons).weak = [] := by
  induction offs with
  | nil => exact fun s used hbad hweak => ⟨rfl, hbad, hweak⟩
  | cons off rest ih =>
    intro s used hbad hweak
    rw [serveRefresh_cons hbad hweak]
    obtain ⟨f, hf⟩ := refreshOne_localOf s off _ used
    obtain ⟨hcells, hkept⟩ := ih (s.refreshOne n isCommons off _ used) _ (by rw [hf]; exact hbad) (by rw [hf]; exact hweak)
    exact ⟨hcells.trans (by rw [hf]; rfl), hkept⟩

/-- The reserved cycle of a memory in which no word has an error, and no replay holds a row up (R28, R29, R119). -/
theorem reserveMem_leaves (hbad : (s.localOf n isCommons).bad = []) (hweak : (s.localOf n isCommons).weak = [])
    (hredo : (s.cluster (clusterOf n)).redo.all (fun p => p.1 != if isCommons then 8 else n % 8) = true) :
    let t := s.reserveMem n isCommons
    let u := (s.serveRefresh n isCommons (s.requestsIn n isCommons) []).1
    (t.localOf n isCommons).cells = (s.localOf n isCommons).cells ∧ (t.localOf n isCommons).groups = (u.localOf n isCommons).groups ∧
      (t.core n).csr = (u.core n).csr ∧ (t.cluster (clusterOf n)).csr = (u.cluster (clusterOf n)).csr := by
  obtain ⟨hcells, hubad, huweak⟩ := serveRefresh_keeps (s.requestsIn n isCommons) s [] hbad hweak
  obtain ⟨hscrub, hkept⟩ := scrub_leaves hubad huweak (s.serveRefresh n isCommons (s.requestsIn n isCommons) []).2
  rw [reserveMem_late hredo]
  exact ⟨hscrub.trans hcells, hkept⟩

/-- What the refresh of one group leaves of it: its record as refreshed, with the count of its unit, once its last row is refreshed, and else the rows
refreshed so far (R119). -/
theorem refreshOne_leaves (s : State) (n : Nat) (isCommons : Bool) (off : Nat) (left : List (Nat × Nat)) :
    let u := s.refreshOne n isCommons off left []
    let g := (s.localOf n isCommons).group off
    (¬ (left.map Prod.fst).Nodup → (u.localOf n isCommons).group off = { g with served := g.served ++ (pickRows left []).map rowKey }) ∧
    ((left.map Prod.fst).Nodup → (u.localOf n isCommons).group off = g.refreshed ∧
      (isCommons = false → (u.core n).csr.refcnt = (s.core n).csr.refcnt + 1) ∧
      (isCommons = true → (u.cluster (clusterOf n)).csr.crefcnt = (s.cluster (clusterOf n)).csr.crefcnt + 1)) := by
  have hall := pickRows_all left [] fun _ _ => List.not_mem_nil
  refine ⟨fun h => ?_, fun h => ?_⟩ <;> unfold State.refreshOne
  · rw [if_neg (hall.not.2 h), localOf_updLocal, group_updGroup]
  · rw [if_pos (hall.2 h), refreshed_localOf, group_updGroup]
    exact ⟨rfl, fun hc => hc ▸ refreshed_refcnt off, fun hc => hc ▸ refreshed_crefcnt off⟩
end

/-! ### Rows that are checked (R29, R434) -/

theorem OnRecords_localOf {s t : State} (h : s.OnRecords t) (n : Nat) (isCommons : Bool) : t.localOf n isCommons = s.localOf n isCommons := by
  cases isCommons
  · rw [localOf_field, h.core, localOf_field]
  · rw [localOf_commons, h.cluster, localOf_commons]

theorem checkSpan_localOf (s : State) (n off len : Nat) (isCommons : Bool) : (s.checkSpan n isCommons off len).localOf n isCommons =
    { s.localOf n isCommons with
      weak := (s.localOf n isCommons).weak.filter (fun w => !(decide (off < 8 * w + 8) && decide (8 * w < off + len))) } := by
  unfold State.checkSpan
  rw [OnRecords_localOf (wordErrors_onRecords _ n isCommons off len), localOf_updLocal, OnRecords_localOf (correctWords_onRecords s n isCommons off len)]

/-! ### Write-backs of expired groups (R124, R125, R464, R501) -/

section
variable {s u : State} {cl mem grp : Nat}

theorem expiryWriteback_reserved (h : s.reservedNow cl = true) : exec (.expiryWritebackComplete cl mem grp) s = .next s := by
  show execExpiryWritebackComplete cl mem grp s = _
  unfold execExpiryWritebackComplete
  dsimp only
  split
  · rfl
  · rw [h, Bool.or_true, if_pos rfl]

/-- What the end of the write of a group's bytes comes to: done, or a wait for a link, which has lasted since `held`, or for a page, or a failure. -/
def State.endWriteback (n : Nat) (isCommons : Bool) (off : Nat) (held : Option Nat) : State × Prog → State
  | (u, .ok) => u.updLocal n isCommons (fun l => l.updGroup off Group.gone)
  | (u, .wait (.link t _)) =>
    if held.getD t + 2 ^ 20 ≤ u.tick then u.failWriteback n isCommons off stData
    else u.updLocal n isCommons (fun l => l.updGroup off (fun g => { g with held := some (g.held.getD t) }))
  | (u, .wait _) => u
  | (u, .fail st) => u.failWriteback n isCommons off st

theorem endWriteback_wait {n off : Nat} {isCommons : Bool} {held : Option Nat} {w : CmdState} (h : ∀ t p, w ≠ .link t p) :
    State.endWriteback n isCommons off held (u, .wait w) = u := by
  cases w with
  | link t p => exact absurd rfl (h t p)
  | _ => rfl

/-- A write-back that is due, by how the write of the group's bytes ends. -/
theorem expiryWriteback_due {n k x : Nat} {c : Bool} {r : Region} (hc : (mem == 8) = c) (hn : (if c then 8 * cl else 8 * cl + mem % 8) = n)
    (hnow : s.reservedNow cl = false) (howner : s.ownerRegion n c (2048 * grp) = some (k, x, r)) (g : Group) (hg : (s.localOf n c).group (2048 * grp) = g)
    (hvalid : g.valid = true) (hpending : g.pending = true) (hwriteback : g.writeback = true) (hmapped : r.mapped = true) :
    exec (.expiryWritebackComplete cl mem grp) s = .next (State.endWriteback n c (2048 * grp) g.held
      (s.flushGroup n g.owner (r.mapva + ((if c then 0x2000000 else 0) + 2048 * grp - r.base)) c false (2048 * grp))) := by
  have hdue : (!(g.valid && g.pending && g.writeback && r.mapped) || s.reservedNow cl) = false := by
    rw [hvalid, hpending, hwriteback, hmapped, hnow]
    rfl
  show execExpiryWritebackComplete cl mem grp s = _
  unfold execExpiryWritebackComplete
  dsimp only
  rw [hc, hn, howner, hg]
  dsimp only
  rw [hdue, if_neg Bool.false_ne_true]
  obtain ⟨v, e⟩ := s.flushGroup n g.owner (r.mapva + ((if c then 0x2000000 else 0) + 2048 * grp - r.base)) c false (2048 * grp)
  cases e with
  | ok => rfl
  | fail st => rfl
  | wait w =>
    cases w with
    | link t p => dsimp only [State.endWriteback]; split <;> rfl
    | _ => rfl
end

end Sys2Proof.Machine
end

section
/-! PROOF. Tests, scrubs, failures and stops of units (R430-R442, R495, R496). -/

namespace Sys2Proof.Machine

/-! ### Buckets that leak (R432) -/

theorem mem_tmap {α β : Type} {f : Nat → α → β} {l : Tbl α} {k : Nat} {b : β} (h : (k, b) ∈ tmap f l) : ∃ a, (k, a) ∈ l ∧ b = f k a := by
  induction l with
  | nil => cases h
  | cons e l ih =>
    obtain ⟨j, v⟩ := e
    obtain h | h := List.mem_cons.1 h
    · cases h; exact ⟨v, List.mem_cons_self, rfl⟩
    · obtain ⟨a, ha, hb⟩ := ih h
      exact ⟨a, List.mem_cons_of_mem _ ha, hb⟩

theorem bucketLeak_leaves (s : State) (k : Fin 6) : ∃ t, exec (.bucketLeak k) s = .next t ∧ ∀ key b, (key, b) ∈ t.buckets →
    ∃ b0, (key, b0) ∈ s.buckets ∧ b.count = if key / 2 ^ 20 = k.val then b0.count - 1 else b0.count := by
  let m := s.bucketMarks k.val
  let leaked := tmap (fun key (b : Bucket) => if key / 2 ^ 20 == k.val then b.leak m.1 m.2.1 else b) s.buckets
  have hbuckets (u : State) (back : List Nat) (f : Cluster → Cluster) (p : Prop) [Decidable p] :
      (if p then back.foldl (fun s cl => s.updCluster cl f) u else u).buckets = u.buckets := by
    split
    · exact List.foldlRecOn (motive := fun t : State => t.buckets = u.buckets) back _ rfl fun _ h _ _ => h
    · rfl
  refine ⟨_, rfl, fun key b hb => ?_⟩
  rw [hbuckets] at hb
  have hb : (key, b) ∈ leaked := hb
  obtain ⟨b0, hb0, rfl⟩ := mem_tmap hb
  refine ⟨b0, hb0, ?_⟩
  simp only [beq_iff_eq]
  split <;> rfl

/-! ### Replays (R430) -/

theorem exec_replay_datapath (s : State) {n : Nat} (hn : n < 256) (lane : Nat) : exec (.shadowLatchReplay 0 n lane false) s =
    .next (((s.updCore n (fun c => c.freeze 2)).countReplay n).bucketAdd 2 (144 * n + lane % 144) 1) := by
  show execShadowLatchReplay 0 n lane false s = _
  unfold execShadowLatchReplay
  rw [if_neg (by rw [if_neg (by decide)]; omega)]
  rfl

theorem replay_core (s : State) (n u : Nat) : (((s.updCore n (fun c => c.freeze 2)).countReplay n).bucketAdd 2 u 1).core n =
    { (s.core n).freeze 2 with csr := { ((s.core n).freeze 2).csr with replayCnt := (s.core n).csr.replayCnt + 1 } } := by
  rw [(bucketAdd_onRecords _ (by decide) u 1).core]
  unfold State.countReplay
  rw [State.core_updCore, State.core_updCore]
  rfl

/-! ### What a retirement leaves of the registers (R37, R52, R442) -/

/-- The control registers of every core are the same. -/
def State.CsrsHold (s t : State) : Prop := ∀ n, (t.core n).csr = (s.core n).csr

section
variable {s t u : State}

theorem State.CsrsHold.refl (s : State) : s.CsrsHold s := fun _ => rfl

theorem State.CsrsHold.trans (h : s.CsrsHold t) (h' : t.CsrsHold u) : s.CsrsHold u := fun n => (h' n).trans (h n)

theorem State.CsrsHold.of_cores (h : t.cores = s.cores) : s.CsrsHold t := fun n => by rw [core_of_cores h]

theorem ite_csrsHold {p : Prop} [Decidable p] (ht : s.CsrsHold t) (hu : s.CsrsHold u) : s.CsrsHold (if p then t else u) := by
  split
  · exact ht
  · exact hu

theorem foldl_csrsHold {α : Type} {f : State → α → State} (hf : ∀ (s : State) (x : α), s.CsrsHold (f s x)) (l : List α) (s : State) :
    s.CsrsHold (l.foldl f s) :=
  List.foldlRecOn (motive := s.CsrsHold) _ _ (.refl s) fun _ h x _ => h.trans (hf _ x)
end

section
variable (s : State)

theorem updTeam_csrsHold (tn : Nat) (f : Team → Team) : s.CsrsHold (s.updTeam tn f) := by
  obtain ⟨l, hl⟩ := updTeam_frame s tn f
  rw [hl]; exact .refl s

theorem emptyShadow_csrsHold (n : Nat) : s.CsrsHold (s.emptyShadow n) := fun m => by
  unfold State.emptyShadow
  by_cases h : m = n
  · rw [h, State.core_updCore]
  · rw [State.core_updCore_other _ _ h]

/-- A team that has not been resumed leaves only shadow banks. -/
theorem unstage_csrsHold (tn : Nat) {t : Team} (h : t.resumed = false) : s.CsrsHold (s.unstage tn t) := by
  have hmember (u : State) (m : Member) (k : Nat) (f : Cluster → Cluster) :
      u.CsrsHold (if t.resumed then (if ((u.updCluster k f).core m.core).team = some tn then ((u.updCluster k f).emptyShadow m.core).leaveCore m.core
        else u.updCluster k f) else (u.updCluster k f).emptyShadow m.core) := by
    rw [h, if_neg Bool.false_ne_true]
    exact (State.CsrsHold.of_cores rfl).trans (emptyShadow_csrsHold (u.updCluster k f) m.core)
  exact (State.CsrsHold.of_cores rfl).trans (foldl_csrsHold (fun u m => hmember u m _ _) _ ((s.releaseTeam tn s.tick).dropStakes tn))

theorem withdraw_csrsHold (p : Nat × Team) : s.CsrsHold (s.withdraw p) := by
  unfold State.withdraw
  split
  · exact .refl s
  · next h =>
    have hresumed : p.2.resumed = false := by
      cases hr : p.2.resumed
      · rfl
      · rw [hr, Bool.or_true] at h; exact absurd rfl h
    exact (unstage_csrsHold s p.1 hresumed).trans (updTeam_csrsHold _ _ _)

theorem giveUp_csrsHold (p : Nat × Team) : s.CsrsHold (s.giveUp p) := by
  unfold State.giveUp
  split
  · exact .refl s
  · exact ite_csrsHold (foldl_csrsHold withdraw_csrsHold _ s) (.of_cores rfl)

theorem dropBookings_csrsHold (n : Nat) : s.CsrsHold (s.dropBookings n) := by
  have hreservation (u : State) (r : Reservation) : u.CsrsHold (u.dropReservation r) := fun m => by
    have h := dropReservation_holdsMove m u r
    rw [h]
  exact (foldl_csrsHold hreservation _ s).trans (.of_cores rfl)

theorem retireCore_csrsHold (n : Nat) : s.CsrsHold (s.retireCore n) := by
  have hgive : s.CsrsHold (match s.nextOn n with
      | some p => if ((s.core n).seq.mode = .idle ∧ (s.core n).team = none) ∧ p.2.state = .placed then s.giveUp p else s
      | none => s) := by
    split
    · exact ite_csrsHold (giveUp_csrsHold s _) (.refl s)
    · exact .refl s
  unfold State.retireCore
  dsimp only
  refine hgive.trans ?_
  exact ite_csrsHold ((dropBookings_csrsHold _ n).trans (.of_cores rfl)) (.refl _)
end

/-! ### Known-answer tests (R440, R441) -/

/-- A class that is fenced leaves CAPM, whatever happens to the core (R441). -/
theorem fence_capm (s : State) (n : Nat) {k : Nat} (hk : k < 64) : ((s.fence n (2 ^ k)).core n).csr.capm.getLsbD k = false := by
  let v := s.updCore n (fun c => { c with csr := { c.csr with capm := c.csr.capm &&& ~~~(BitVec.ofNat 64 (2 ^ k)) } })
  let w := ({ v with fenced := tset v.fenced n (tget 0 v.fenced n ||| 2 ^ k) } : State).event 0xA01 4 none 0 n 0 0 (2 ^ k) 0
  have hhold : v.CsrsHold (s.fence n (2 ^ k)) := by
    have hnoted : v.CsrsHold w := .of_cores rfl
    have hgive (u : State) : u.CsrsHold (match u.nextOn n with
        | some p => if (u.core n).covers p.2.image.usem then u else u.giveUp p
        | none => u) := by
      split
      · exact ite_csrsHold (.refl u) (giveUp_csrsHold u _)
      · exact .refl u
    have hretire (u : State) (p : Prop) [Decidable p] (l : List Nat) : u.CsrsHold (if p then ({ u with retireDue := l } : State).retireCore n else u) :=
      ite_csrsHold ((State.CsrsHold.of_cores rfl).trans (retireCore_csrsHold _ n)) (.refl u)
    unfold State.fence
    rw [if_neg (Nat.two_pow_pos k).ne']
    exact (hnoted.trans (hgive w)).trans (hretire _ _ _)
  rw [hhold n, State.core_updCore]
  show ((s.core n).csr.capm &&& ~~~(BitVec.ofNat 64 (2 ^ k))).getLsbD k = false
  rw [BitVec.getLsbD_and, BitVec.getLsbD_not, BitVec.getLsbD_ofNat, Nat.testBit_two_pow_self]
  simp [hk]

theorem katRun_idle {s : State} {n : Nat} (hmode : (s.core n).seq.mode = .idle) (hshadow : (s.core n).seq.shadow = false)
    (hteam : (s.core n).team = none) (hpres : bit s.pres.cores n = true) (differ : List (Nat × Nat)) (h : differ.filter (fun p => p.2 == 1) = []) :
    exec (.katRun n differ) s = .next (({ s with katDue := s.katDue.filter (fun x => x ≠ n) } : State).fence n
      (((differ.filter (fun p => decide (2 ≤ p.2) && decide (p.1 < 64))).map Prod.fst).eraseDups.map (fun k => 2 ^ k)).sum) := by
  show execKatRun n differ s = _
  unfold execKatRun
  dsimp only
  rw [if_neg (by rw [hmode, hshadow, hteam, hpres]; decide), h]
  rfl

/-! ### Errors in the arrays of a core (R434, R437) -/

theorem flawFound_leaves (s : State) (n : Nat) (f : Flaw) : ∃ d,
    let e := fun (code sev : Nat) (ctx : Option Nat) => s.free.2.event code sev ctx 0 n (f.word % 65536) 0 d 0
    (f.bad = false → s.flawFound n f = e 0x301 0 none) ∧
    (f.bad = true → (s.core n).team = none → s.flawFound n f = e 0x302 0 none) ∧
    (f.bad = true → (s.core n).team ≠ none → s.flawFound n f =
      { e 0x302 3 (some (s.core n).csr.ctxId.toNat) with agenda := .event (.contextEnd (s.core n).csr.ctxId.toNat 0x302 0) :: s.agenda }) := by
  refine ⟨s.free.1 % 2 ^ 64, fun hgood => ?_, fun hbad hteam => ?_, fun hbad hteam => ?_⟩ <;> unfold State.flawFound State.ctxOn <;> dsimp only
  · rw [hgood]
    rfl
  · rw [hbad, hteam]
    rfl
  · obtain ⟨tn, htn⟩ := Option.ne_none_iff_exists'.1 hteam
    rw [hbad, htn]
    rfl

/-! ### The scrub of global memory (R149, R436) -/

section
variable {s : State} {a t : Nat} (h : s.tierOf a = some t)
include h

/-- The meaning is taken as a function before its arguments are put in: a comparison of its body with its value at `s` would have the kernel work
out the bounds of the tiers, which are powers of two, by counting. -/
theorem exec_globalScrub (err : Fin 3) :
    exec (.globalScrub a err) s = .next (s.scrubSector t (s.place t a).1 (4 * s.blockOf t a + a % 128 / 32) err.val) := by
  have hexec : exec (.globalScrub a err) s = execGlobalScrub a err s := rfl
  rw [hexec]
  generalize hmeaning : execGlobalScrub = meaning
  delta execGlobalScrub at hmeaning
  subst hmeaning
  beta_reduce
  rw [h]

/-- A scrub that finds nothing counts the bytes of its sector. -/
theorem globalScrub_correct : ∃ c, exec (.globalScrub a 0) s = .next { s with chan := c } ∧
    (tget ⟨0, 0, 0, 0⟩ c ((s.place t a).1 + if t = 0 then 0 else 256)).rdBytes =
      (tget ⟨0, 0, 0, 0⟩ s.chan ((s.place t a).1 + if t = 0 then 0 else 256)).rdBytes + 32 := by
  refine ⟨_, exec_globalScrub h 0, ?_⟩
  rw [tget_tset]
  rfl
end

theorem poison_marks (s : State) (tier pa : Nat) : s.blockOf tier pa ∈ ((s.poison tier pa).gmem tier).bad ∧
    ((s.poison tier pa).gmem tier).fails = (s.gmem tier).fails := by
  unfold State.poison
  dsimp only
  split
  · next h => exact ⟨List.contains_iff_mem.1 h, rfl⟩
  · rw [gmem_setGmem_self]
    exact ⟨List.mem_append_right _ (List.mem_singleton_self _), rfl⟩

theorem OnRecords_gmem {s t : State} (h : s.OnRecords t) (tier : Nat) : t.gmem tier = s.gmem tier := by rw [h]; rfl

/-- An uncorrectable sector is noted, and poisons its block (R435, R436). -/
theorem scrubSector_uncorrectable (s : State) {tier : Nat} (ch sector : Nat) : let u := s.scrubSector tier ch sector 2
    sector ∈ (u.gmem tier).fails ∧ s.blockOf tier (s.paOfBlock tier (sector / 4) + 32 * (sector % 4)) ∈ (u.gmem tier).bad := by
  let pa := s.paOfBlock tier (sector / 4) + 32 * (sector % 4)
  let read := (s.countBytes tier ch 32 0).free.2.free.2
  let m := read.gmem tier
  let noted := read.setGmem tier { m with fails := if m.fails.contains sector then m.fails else m.fails ++ [sector] }
  let found := noted.poison tier pa
  intro u
  have hread : s.OnRecords read := rfl
  have hnoted : s.SameStore noted := hread.sameStore.trans (setGmem_sameStore read rfl rfl)
  have hfound : (found.gmem tier).fails = (noted.gmem tier).fails ∧ s.blockOf tier pa ∈ (found.gmem tier).bad := by
    obtain ⟨hbad, hfails⟩ := poison_marks noted tier pa
    exact ⟨hfails, hnoted.blockOf tier pa ▸ hbad⟩
  have hlast : found.OnRecords u := (bucketAdd_onRecords found (by omega) ch 16).trans (event_onRecords ..)
  rw [OnRecords_gmem hlast, hfound.1]
  refine ⟨?_, hfound.2⟩
  show sector ∈ ((read.setGmem tier _).gmem tier).fails
  rw [gmem_setGmem_self]
  dsimp only
  split
  · next hin => exact List.contains_iff_mem.1 hin
  · exact List.mem_append_right _ (List.mem_singleton_self _)

/-! ### A failed CC (R495) -/

section
variable (s : State)

/-- A booking that is released leaves the requests to the CCs. -/
theorem dropReservation_reqQ (r : Reservation) (k : Nat) : ((s.dropReservation r).cluster k).reqQ = (s.cluster k).reqQ := by
  have hrelease (c : Cluster) (upto : Nat) (p : Booking → Bool) : (c.release upto p).reqQ = c.reqQ := by
    unfold Cluster.release
    split <;> rfl
  have hteam : ((s.releaseTeam r.team s.tick).cluster k).reqQ = (s.cluster k).reqQ := by
    show (tget Cluster.init (tmap _ s.clusters) k).reqQ = (tget Cluster.init s.clusters k).reqQ
    rw [tget_eq, tget_eq, tfind_tmap]
    cases tfind s.clusters k with
    | none => rfl
    | some c => exact hrelease c _ _
  have hholder (u : State) (n : Nat) (f : Core → Core) : (u.updHolder n f).clusters = u.clusters := by
    unfold State.updHolder
    split
    · rfl
    · obtain ⟨l, hl⟩ := updTeam_frame u ((n - 2 ^ 20) / 64) (fun t => { t with members := t.members.map (fun m =>
        if m.rank = (n - 2 ^ 20) % 64 then { m with saved := m.saved.map (fun v => { v with core := f v.core }) } else m) })
      rw [hl]
  have hclusters : (s.dropReservation r).clusters = (s.releaseTeam r.team s.tick).clusters := by
    unfold State.dropReservation
    dsimp only
    split
    · exact hholder _ _ _
    · rfl
  unfold State.cluster at *
  rw [hclusters, hteam]

theorem clearCalendar_leaves (cl : Nat) : let t := s.clearCalendar cl
    (t.cluster cl).bookings = [] ∧ (t.cluster cl).stakes = [] ∧ (t.cluster cl).reqQ = (s.cluster cl).reqQ := by
  have hdropped (l : List Reservation) : ((l.foldl State.dropReservation s).cluster cl).reqQ = (s.cluster cl).reqQ :=
    List.foldlRecOn (motive := fun t : State => (t.cluster cl).reqQ = (s.cluster cl).reqQ) l _ rfl fun t h r _ => (dropReservation_reqQ t r cl).trans h
  unfold State.clearCalendar
  dsimp only
  rw [State.cluster_updCluster]
  exact ⟨rfl, rfl, hdropped _⟩

theorem ccFailure_forgets {cl : Nat} (b : Bool) (h : bit s.pres.clusters cl = true) :
    ∃ t, exec (.ccFailure cl b) s = .next t ∧ (t.cluster cl).bookings = [] ∧ (t.cluster cl).stakes = [] ∧ (t.cluster cl).reqQ = [] := by
  have hforgets (u v : State) (hv : v.clusters = ((u.updCluster cl (fun k => { k with reqQ := [] })).clearCalendar cl).clusters) :
      (v.cluster cl).bookings = [] ∧ (v.cluster cl).stakes = [] ∧ (v.cluster cl).reqQ = [] := by
    obtain ⟨hbookings, hstakes, hreqs⟩ := clearCalendar_leaves (u.updCluster cl (fun k => { k with reqQ := [] })) cl
    rw [State.cluster_updCluster] at hreqs
    rw [show v.cluster cl = _ from congrArg (fun l => tget Cluster.init l cl) hv]
    exact ⟨hbookings, hstakes, hreqs⟩
  have hdue (u : State) (p : Prop) [Decidable p] (l : List (Nat × Nat)) : (if p then { u with unitDue := l } else u).clusters = u.clusters := by
    split <;> rfl
  have hexec : exec (.ccFailure cl b) s = execCcFailure cl b s := rfl
  unfold execCcFailure at hexec
  rw [if_neg (by rw [h]; decide)] at hexec
  exact ⟨_, hexec, hforgets _ _ (hdue _ _ _)⟩

/-! ### The stop of the module (R420, R496) -/

/-- A record of a stop enters the trip store, whether the log is full or not (R429). -/
theorem Log.add_trips (l : Log) {r : Record} (h : r.sev = 5) : ∃ x ∈ (l.add r).trips, x.code = r.code ∧ x.sev = r.sev ∧ x.sub = r.sub := by
  unfold Log.add
  rw [h]
  dsimp only
  split
  · exact ⟨_, List.mem_append_right _ (List.mem_singleton_self _), rfl, rfl, rfl⟩
  · rw [if_neg (by decide)]
    exact ⟨_, List.mem_append_right _ (List.mem_singleton_self _), rfl, rfl, rfl⟩

theorem moduleStop_leaves (b : Bool) : ∃ t, exec (.moduleStop b) s = .next t ∧ t.power = .stopped ∧ t.cores = s.cores ∧ t.clusters = s.clusters ∧
    ∃ r ∈ t.log.trips, r.code = 0x302 ∧ r.sev = 5 ∧ r.sub = (if b then 1 else 0) := by
  refine ⟨_, rfl, rfl, rfl, rfl, ?_⟩
  exact Log.add_trips s.log (r := {
    code := 0x302, cls := 0x302 / 256, sev := 5, ctx := none, tick := s.tick, rtick := s.rtick, unit := 9, unitNo := 0,
    sub := (if b then 1 else 0), addr := 0, detail := (if b then 0 else s.free.1 % 2 ^ 64), detail2 := 0, seq := 0, lost := 0 }) rfl
end

end Sys2Proof.Machine
end

section
/-! PROOF. Retention and health events, together (O59). -/

namespace Sys2Proof.Machine

section
variable (s : State) (n cl : Nat)

/-- What one cycle leaves of a memory in which one group asks for its refresh (R29, R119). -/
theorem reserveMem_one {c : Bool} {off : Nat} (hbad : (s.localOf n c).bad = []) (hweak : (s.localOf n c).weak = [])
    (hredo : (s.cluster (clusterOf n)).redo.all (fun p => p.1 != if c then 8 else n % 8) = true) (hone : s.requestsIn n c = [off]) :
    let t := s.reserveMem n c
    let g := (s.localOf n c).group off
    let left := (s.rowsOf n c off).filter (fun r => !g.served.contains (rowKey r))
    (∀ o, o / 2048 ≠ off / 2048 → (t.localOf n c).group o = (s.localOf n c).group o) ∧
    (¬ (left.map Prod.fst).Nodup → (t.localOf n c).group off = { g with served := g.served ++ (pickRows left []).map rowKey }) ∧
    ((left.map Prod.fst).Nodup → (t.localOf n c).group off = g.refreshed ∧
      (c = false → (t.core n).csr.refcnt = (s.core n).csr.refcnt + 1) ∧
      (c = true → (t.cluster (clusterOf n)).csr.crefcnt = (s.cluster (clusterOf n)).csr.crefcnt + 1)) := by
  intro t g left
  obtain ⟨-, hgroups, hcore, hcluster⟩ := reserveMem_leaves hbad hweak hredo
  rw [hone, serveRefresh_cons hbad hweak] at hgroups hcore hcluster
  obtain ⟨f, hf⟩ := refreshOne_localOf (n := n) (isCommons := c) s off left []
  have hgroup (o : Nat) : (t.localOf n c).group o = ((s.refreshOne n c off left []).localOf n c).group o := congrArg (tget Group.init · (o / 2048)) hgroups
  rw [hgroup, hcore, hcluster]
  refine ⟨fun o ho => ?_, refreshOne_leaves s n c off left⟩
  rw [hgroup, hf, group_updGroup_other _ ho]

/-- A boundary's band, groups and write-backs, from the state before it (R111, R112, R117). -/
theorem retainCluster_ages :
    let t := s.retainCluster cl
    let mapped := fun (n : Nat) (c : Bool) (k : Nat) => (s.ownerRegion n c (2048 * k)).any (fun x => x.2.2.mapped)
    (t.cluster cl).csr.tempBand.toNat = s.bandAt cl ∧
    (∀ n ∈ s.coresOf cl, (t.core n).field.groups =
      tmap (fun k g => if (s.core n).ages then g.aged (s.bandAt cl) s.rtick (mapped n false k) else g) (s.core n).field.groups) ∧
    (t.cluster cl).commons.groups =
      tmap (fun k g => if s.commonsAges cl (2048 * k) then g.aged (s.bandAt cl) s.rtick (mapped (8 * cl) true k) else g) (s.cluster cl).commons.groups ∧
    (∀ n ∈ s.coresOf cl, ∀ k g, (k, g) ∈ (t.core n).field.groups → g.valid = true → g.pending = true → g.writeback = true →
      g.failed = false ∨ s.rtick % 256 = 0 → Work.event (.expiryWritebackComplete cl (n % 8) k) ∈ t.agenda) := by
  obtain ⟨hband, hfields, hcommons⟩ := retainCluster_leaves s cl
  refine ⟨hband, fun n hn => ?_, hcommons.trans (banded_commons s cl), fun n hn => ?_⟩
  · exact (hfields n hn).1.trans (banded_field s cl (mem_coresOf.1 hn).1)
  · obtain ⟨hgroups, hdue⟩ := hfields n hn
    rw [hgroups]
    exact hdue

/-- A write-back that is due, by how the write of the group's bytes ends (R124, R464, R501). -/
theorem expiryWriteback_ends (u : State) (mem grp : Nat) :
    let c := mem == 8
    let n := if c then 8 * cl else 8 * cl + mem % 8
    let g := (s.localOf n c).group (2048 * grp)
    s.reservedNow cl = false →
    ∀ (k x : Nat) (r : Region), s.ownerRegion n c (2048 * grp) = some (k, x, r) → g.valid = true → g.pending = true → g.writeback = true → r.mapped = true →
      let a := (if c then 0x2000000 else 0) + 2048 * grp
      (s.flushGroup n g.owner (r.mapva + (a - r.base)) c false (2048 * grp) = (u, .ok) →
        exec (.expiryWritebackComplete cl mem grp) s = .next (u.updLocal n c (fun l => l.updGroup (2048 * grp) Group.gone))) ∧
      (∀ w, s.flushGroup n g.owner (r.mapva + (a - r.base)) c false (2048 * grp) = (u, .wait w) → (∀ t p, w ≠ .link t p) →
        exec (.expiryWritebackComplete cl mem grp) s = .next u) ∧
      (∀ t p, s.flushGroup n g.owner (r.mapva + (a - r.base)) c false (2048 * grp) = (u, .wait (.link t p)) →
        (u.tick < g.held.getD t + 2 ^ 20 → exec (.expiryWritebackComplete cl mem grp) s =
          .next (u.updLocal n c (fun l => l.updGroup (2048 * grp) (fun g => { g with held := some (g.held.getD t) })))) ∧
        (g.held.getD t + 2 ^ 20 ≤ u.tick → exec (.expiryWritebackComplete cl mem grp) s = .next (u.failWriteback n c (2048 * grp) stData))) ∧
      (∀ st, s.flushGroup n g.owner (r.mapva + (a - r.base)) c false (2048 * grp) = (u, .fail st) →
        exec (.expiryWritebackComplete cl mem grp) s = .next (u.failWriteback n c (2048 * grp) st)) := by
  intro c n g hnow k x r howner hvalid hpending hwriteback hmapped a
  have hdue : exec (.expiryWritebackComplete cl mem grp) s = .next (State.endWriteback n c (2048 * grp) g.held
      (s.flushGroup n g.owner (r.mapva + (a - r.base)) c false (2048 * grp))) :=
    expiryWriteback_due rfl rfl hnow howner g rfl hvalid hpending hwriteback hmapped
  refine ⟨fun hend => ?_, fun w hend hw => ?_, fun t p hend => ⟨fun hsoon => ?_, fun hlate => ?_⟩, fun st hend => ?_⟩ <;> rw [hdue, hend]
  · rfl
  · rw [endWriteback_wait hw]
  · exact congrArg Host.Outcome.next (if_neg (Nat.not_le.2 hsoon))
  · exact congrArg Host.Outcome.next (if_pos hlate)
  · rfl

/-- A replay on a lane of the datapath (R430). -/
theorem replay_leaves {n : Nat} (hn : n < 256) (lane : Nat) : ∃ t, exec (.shadowLatchReplay 0 n lane false) s = .next t ∧
    (t.core n).csr.replayCnt = (s.core n).csr.replayCnt + 1 ∧ (t.core n).csr.slackCnt = (s.core n).csr.slackCnt + 2 ∧
    (t.core n).x = (s.core n).x := by
  refine ⟨_, exec_replay_datapath s hn lane, ?_⟩
  rw [replay_core]
  exact ⟨rfl, rfl, rfl⟩

/-- A known-answer test without a difference, and one that fails in one class (R440, R441). -/
theorem katRun_leaves {n k : Nat} (hk : k < 64) (hmode : (s.core n).seq.mode = .idle) (hshadow : (s.core n).seq.shadow = false)
    (hteam : (s.core n).team = none) (hpres : bit s.pres.cores n = true) :
    exec (.katRun n []) s = .next { s with katDue := s.katDue.filter (fun x => x ≠ n) } ∧
    ∃ t, exec (.katRun n [(k, 2)]) s = .next t ∧ (t.core n).csr.capm.getLsbD k = false := by
  have hmask : ((([(k, 2)].filter (fun p => decide (2 ≤ p.2) && decide (p.1 < 64))).map Prod.fst).eraseDups.map (fun k => 2 ^ k)).sum = 2 ^ k := by
    simp [hk, List.eraseDups_cons]
  have hfails := katRun_idle hmode hshadow hteam hpres [(k, 2)] rfl
  rw [hmask] at hfails
  exact ⟨katRun_idle hmode hshadow hteam hpres [] rfl, _, hfails, fence_capm _ n hk⟩

/-- A scrub that finds an uncorrectable sector (R435, R436). -/
theorem globalScrub_uncorrectable {a t : Nat} (h : s.tierOf a = some t) : ∃ u, exec (.globalScrub a 2) s = .next u ∧
    4 * s.blockOf t a + a % 128 / 32 ∈ (u.gmem t).fails ∧
    s.blockOf t (s.paOfBlock t (s.blockOf t a) + 32 * (a % 128 / 32)) ∈ (u.gmem t).bad := by
  refine ⟨_, exec_globalScrub h 2, ?_⟩
  have hblock : (4 * s.blockOf t a + a % 128 / 32) / 4 = s.blockOf t a := by omega
  have hsector : (4 * s.blockOf t a + a % 128 / 32) % 4 = a % 128 / 32 := by omega
  have hscrub := scrubSector_uncorrectable s (tier := t) (s.place t a).1 (4 * s.blockOf t a + a % 128 / 32)
  rw [hblock, hsector] at hscrub
  exact hscrub
end

/-- Settles O59: each event's rule in its turn. -/
theorem healthEvents : Obligations.HealthEvents := by
  unfold Obligations.HealthEvents
  refine ⟨fun _ => rfl, fun _ _ => rfl, retainCluster_ages, fun l used => ⟨pickRows_nodup l used, mem_pickRows l used, pickRows_serves l used⟩,
    fun s n c hbad hweak hredo => ⟨(reserveMem_leaves hbad hweak hredo).1, fun hnone => ?_, fun off => reserveMem_one s n hbad hweak hredo⟩,
    fun s n off len c => ?_, fun _ _ _ _ => expiryWriteback_reserved, fun _ _ _ _ _ => rfl, fun s u cl mem grp => expiryWriteback_ends s cl u mem grp,
    bucketLeak_leaves, fun s n lane hn _ => replay_leaves s hn lane,
    fun s n k hk hmode hshadow hteam hpres => katRun_leaves s hk hmode hshadow hteam hpres, flawFound_leaves,
    fun s a t h => ⟨globalScrub_correct h, globalScrub_uncorrectable s h⟩, fun s cl b => ccFailure_forgets s b, moduleStop_leaves⟩
  · have hgroups := (reserveMem_leaves hbad hweak hredo).2.1
    rw [hnone] at hgroups
    exact hgroups
  · rw [checkSpan_localOf]
    exact ⟨rfl, rfl⟩

end Sys2Proof.Machine
end

section
/-! PROOF. The interleaving of tiers 0 and 1 (R142, R146-R148): a place in a slice gives its offset back, a channel's bytes lie apart from another's,
and the 128 bytes of a block stay together. -/

namespace Sys2Proof.Machine

/-! ### Places in the slices of a domain (R147) -/

theorem foldBits_lt (k row b : Nat) : foldBits k row b < 2 ^ b := by
  induction k generalizing row with
  | zero => exact Nat.two_pow_pos b
  | succ k ih =>
    unfold foldBits
    split
    · exact Nat.two_pow_pos b
    · exact Nat.xor_lt_two_pow (Nat.mod_lt _ (Nat.two_pow_pos b)) (ih _)

/-- The granule of an offset from its row and its number in it. -/
theorem granule_eq (x n : Nat) : (x / 256 / n * n + x / 256 % n) * 256 + x % 256 = x := by
  rw [Nat.div_add_mod', Nat.div_add_mod']

/-- A rotation by the row is undone by the rotation back. -/
theorem rotate_back {n : Nat} (hn : 0 < n) (g row : Nat) : ((g + row) % n + n - row % n) % n = g % n := by
  have hrow : row % n < n := Nat.mod_lt _ hn
  refine Nat.ModEq.add_right_cancel' (row % n) ?_
  show ((g + row) % n + n - row % n + row % n) % n = (g + row % n) % n
  rw [Nat.sub_add_cancel (by omega), Nat.add_mod_right, Nat.mod_mod, Nat.add_mod_mod]

section
variable {n : Nat} (hn : 0 < n)
include hn

/-- The place of an offset gives the offset back (R147). -/
theorem sliceOffset_slicePlace (h x : Nat) : sliceOffset h n (slicePlace h n x).1 (slicePlace h n x).2 = x := by
  have hrow (r : Nat) : (r * 256 + x % 256) / 256 = r ∧ (r * 256 + x % 256) % 256 = x % 256 := by omega
  have hrotated : ((x / 256 / n) * n + ((x / 256 + x / 256 / n) % n + n - x / 256 / n % n) % n) * 256 + x % 256 = x := by
    rw [rotate_back hn, granule_eq]
  unfold slicePlace sliceOffset
  split
  · simp only [hrow, granule_eq]
  · have hpage (r : Nat) : (r * 65536 + x % 65536) / 65536 = r ∧ (r * 65536 + x % 65536) % 65536 = x % 65536 := by omega
    simp only [hpage, Nat.div_add_mod']
  · by_cases hpow : 2 ^ n.log2 = n
    · simp only [beq_iff_eq, hpow, if_true, hrow, Nat.xor_assoc, Nat.xor_self, Nat.xor_zero, granule_eq]
    · simp only [beq_iff_eq, hpow, if_false, hrow, hrotated]
  · simp only [hrow, hrotated]

theorem slicePlace_channel_lt (h x : Nat) : (slicePlace h n x).1 < n := by
  have hfolded : x / 256 % 2 ^ n.log2 ^^^ foldBits 64 (x / 256 / n) n.log2 < 2 ^ n.log2 :=
    Nat.xor_lt_two_pow (Nat.mod_lt _ (Nat.two_pow_pos _)) (foldBits_lt _ _ _)
  unfold slicePlace
  dsimp only
  generalize foldBits 64 _ _ = f at hfolded ⊢
  split
  · exact Nat.mod_lt _ hn
  · exact Nat.mod_lt _ hn
  · split
    · next hpow => exact hfolded.trans_eq (beq_iff_eq.1 hpow)
    · exact Nat.mod_lt _ hn
  · exact Nat.mod_lt _ hn
end

/-- The offset in the slice: rows of 256 bytes, or the pages of hash code 3 (R147). -/
theorem slicePlace_offset (h n x : Nat) :
    (slicePlace h n x).2 = if h = 3 then x / 65536 / n * 65536 + x % 65536 else x / 256 / n * 256 + x % 256 := by
  unfold slicePlace
  dsimp only
  generalize foldBits 64 _ _ = f
  split
  · rfl
  · rfl
  · split <;> rfl
  · next h3 _ => rw [if_neg h3]

theorem slicePlace_offset_lt (h : Nat) {n x : Nat} (hx : x < n * 4194304) : (slicePlace h n x).2 < 4194304 := by
  have hpage : x / 65536 / n < 64 := Nat.div_lt_of_lt_mul (by omega)
  have hrow : x / 256 / n < 16384 := Nat.div_lt_of_lt_mul (by omega)
  rw [slicePlace_offset]
  split <;> omega

/-- The bytes of a block have one channel (R147). -/
theorem slicePlace_channel_add (h n : Nat) {x o : Nat} (hx : x % 128 = 0) (ho : o < 128) :
    (slicePlace h n (x + o)).1 = (slicePlace h n x).1 := by
  have hgranule : (x + o) / 256 = x / 256 := by omega
  have hpage : (x + o) / 65536 = x / 65536 := by omega
  unfold slicePlace
  dsimp only
  rw [hgranule, hpage]
  generalize foldBits 64 _ _ = f
  split
  · rfl
  · rfl
  · split <;> rfl
  · rfl

/-- The bytes of a block follow one another in their channel, from the start of a block of it (R147). -/
theorem slicePlace_offset_add (h n : Nat) {x o : Nat} (hx : x % 128 = 0) (ho : o < 128) :
    (slicePlace h n (x + o)).2 = (slicePlace h n x).2 + o ∧ (slicePlace h n x).2 % 128 = 0 := by
  have hgranule : (x + o) / 256 = x / 256 ∧ (x + o) % 256 = x % 256 + o := by omega
  have hpage : (x + o) / 65536 = x / 65536 ∧ (x + o) % 65536 = x % 65536 + o := by omega
  rw [slicePlace_offset, slicePlace_offset, hgranule.1, hgranule.2, hpage.1, hpage.2]
  split <;> constructor <;> omega

/-! ### Present channels (R37, R147) -/

theorem setBits_nodup (mask n : Nat) : (setBits mask n).Nodup := List.nodup_range.filter _

theorem lt_of_mem_setBits {mask n k : Nat} (h : k ∈ setBits mask n) : k < n := List.mem_range.1 (List.mem_filter.1 h).1

theorem nth_inj {l : List Nat} (hl : l.Nodup) {i j : Nat} (hi : i < l.length) (hj : j < l.length) (h : nth l i = nth l j) : i = j := by
  unfold nth at h
  rw [List.getD_eq_getElem l 0 hi, List.getD_eq_getElem l 0 hj] at h
  exact (hl.getElem_inj_iff).1 h

theorem channels_nodup (s : State) (tier : Nat) : (s.channels tier).Nodup := by
  unfold State.channels
  split <;> exact setBits_nodup _ _

/-! ### Places in a tier (R142, R146) -/

/-- Channels hold whole domains (R32, R146). -/
theorem channelBytes_domains (tier : Nat) : ∃ k, channelBytes tier = k * 4194304 := by
  unfold channelBytes
  split
  · exact ⟨512, rfl⟩
  · exact ⟨16384, rfl⟩

theorem tierBase_mod (tier : Nat) : tierBase tier % 128 = 0 := by unfold tierBase; split <;> rfl

section
variable {s : State} {tier a b : Nat}

theorem tierHolds_one : s.tierHolds tier a 1 = true ↔
    tierBase tier ≤ a ∧ a - tierBase tier < (s.channels tier).length * channelBytes tier := by
  unfold State.tierHolds State.tierBytes
  rw [Bool.and_eq_true, decide_eq_true_eq, decide_eq_true_eq]
  omega

/-- A tier that holds an address has a channel. -/
theorem channels_pos (h : s.tierHolds tier a 1 = true) : 0 < (s.channels tier).length :=
  Nat.pos_of_mul_pos_right (Nat.zero_lt_of_lt (tierHolds_one.1 h).2)

theorem place_channel_mem (h : s.tierHolds tier a 1 = true) : (s.place tier a).1 ∈ s.channels tier :=
  nth_mem (slicePlace_channel_lt (channels_pos h) _ _)

/-- The offset of an address in its slice is less than the slice's 4 MiB (R146). -/
theorem slice_lt (s : State) (tier x : Nat) (hpos : 0 < (s.channels tier).length) (h : Nat) :
    (slicePlace h (s.channels tier).length (x % s.domainBytes tier)).2 < 4194304 :=
  slicePlace_offset_lt h (Nat.mod_lt x (Nat.mul_pos hpos (by decide)))

theorem place_offset_lt (h : s.tierHolds tier a 1 = true) : (s.place tier a).2 < channelBytes tier := by
  obtain ⟨k, hk⟩ := channelBytes_domains tier
  have hslice := slice_lt s tier (a - tierBase tier) (channels_pos h) (s.hashCode tier ((a - tierBase tier) / s.domainBytes tier))
  have hin := (tierHolds_one.1 h).2
  have hdomain : (a - tierBase tier) / s.domainBytes tier < k := by
    refine Nat.div_lt_of_lt_mul ?_
    unfold State.domainBytes
    rwa [Nat.mul_assoc, Nat.mul_comm 4194304, ← hk]
  show (a - tierBase tier) / s.domainBytes tier * 4194304 + _ < _
  omega

/-- Two addresses of a tier with one place are one address (R146, R147). -/
theorem place_inj (ha : s.tierHolds tier a 1 = true) (hb : s.tierHolds tier b 1 = true) (h : s.place tier a = s.place tier b) : a = b := by
  have hpos := channels_pos ha
  obtain ⟨hchannel, hoffset⟩ := Prod.mk.inj h
  have hslice (x : Nat) := slice_lt s tier x hpos (s.hashCode tier (x / s.domainBytes tier))
  have hslicea := hslice (a - tierBase tier)
  have hsliceb := hslice (b - tierBase tier)
  have hdomain : (a - tierBase tier) / s.domainBytes tier = (b - tierBase tier) / s.domainBytes tier := by omega
  rw [hdomain] at hoffset hchannel
  have hindex := nth_inj (channels_nodup s tier) (slicePlace_channel_lt hpos _ _) (slicePlace_channel_lt hpos _ _) hchannel
  have hmod : (a - tierBase tier) % s.domainBytes tier = (b - tierBase tier) % s.domainBytes tier := by
    have hback := sliceOffset_slicePlace hpos (s.hashCode tier ((b - tierBase tier) / s.domainBytes tier))
    rw [← hback ((a - tierBase tier) % s.domainBytes tier), hindex, Nat.add_left_cancel hoffset, hback]
  have hsame : a - tierBase tier = b - tierBase tier := by
    rw [← Nat.div_add_mod (a - tierBase tier) (s.domainBytes tier), hdomain, hmod, Nat.div_add_mod]
  have hloa := (tierHolds_one.1 ha).1
  have hlob := (tierHolds_one.1 hb).1
  omega

/-! ### Blocks (R146, R147) -/

/-- The bytes of a block of a tier are in one domain. -/
theorem domain_add (s : State) (tier : Nat) {x o : Nat} (hpos : 0 < (s.channels tier).length) (hx : x % 128 = 0) (ho : o < 128) :
    (x + o) / s.domainBytes tier = x / s.domainBytes tier ∧ (x + o) % s.domainBytes tier = x % s.domainBytes tier + o ∧
      x % s.domainBytes tier % 128 = 0 := by
  have hdomain : 128 ∣ s.domainBytes tier := ⟨(s.channels tier).length * 32768, by unfold State.domainBytes; omega⟩
  have hmod : x % s.domainBytes tier % 128 = 0 := by rw [Nat.mod_mod_of_dvd x hdomain, hx]
  have hlt : x % s.domainBytes tier + o < s.domainBytes tier := by
    have := Nat.mod_lt x (show 0 < s.domainBytes tier from Nat.mul_pos hpos (by decide))
    omega
  have hdiv : (x + o) / s.domainBytes tier = x / s.domainBytes tier :=
    Nat.div_eq_of_lt_le (by have := Nat.div_mul_le_self x (s.domainBytes tier); omega)
      (by have := Nat.div_add_mod' x (s.domainBytes tier); rw [Nat.succ_mul]; omega)
  refine ⟨hdiv, ?_, hmod⟩
  have := Nat.div_add_mod' (x + o) (s.domainBytes tier)
  have := Nat.div_add_mod' x (s.domainBytes tier)
  rw [hdiv] at *
  omega

/-- The bytes of a block follow one another in the storage of one channel, from the start of a block there. -/
theorem storage_add {o : Nat} (h : s.tierHolds tier a 1 = true) (ha : a % 128 = 0) (ho : o < 128) :
    s.storage tier (a + o) = s.storage tier a + o ∧ s.storage tier a % 128 = 0 := by
  have hbase := tierBase_mod tier
  have hlo := (tierHolds_one.1 h).1
  obtain ⟨k, hk⟩ := channelBytes_domains tier
  obtain ⟨hdiv, hmod, halign⟩ := domain_add s tier (channels_pos h) (x := a - tierBase tier) (by omega) ho
  obtain ⟨hoffset, hstart⟩ := slicePlace_offset_add (s.hashCode tier ((a - tierBase tier) / s.domainBytes tier)) (s.channels tier).length halign ho
  have hchannel := slicePlace_channel_add (s.hashCode tier ((a - tierBase tier) / s.domainBytes tier)) (s.channels tier).length halign ho
  have hmul (c : Nat) : c * channelBytes tier % 128 = 0 := by rw [hk, ← Nat.mul_assoc]; omega
  unfold State.storage State.place
  dsimp only
  rw [Nat.sub_add_comm hlo, hdiv, hmod, hoffset, hchannel]
  have := hmul (nth (s.channels tier) (slicePlace (s.hashCode tier ((a - tierBase tier) / s.domainBytes tier)) (s.channels tier).length
    ((a - tierBase tier) % s.domainBytes tier)).1)
  omega

/-- Storage addresses of a tier are one per address (R142, R146, R147). -/
theorem storage_inj (ha : s.tierHolds tier a 1 = true) (hb : s.tierHolds tier b 1 = true) (h : s.storage tier a = s.storage tier b) : a = b := by
  have hoffa := place_offset_lt ha
  have hoffb := place_offset_lt hb
  have hsum : (s.place tier a).1 * channelBytes tier + (s.place tier a).2 = (s.place tier b).1 * channelBytes tier + (s.place tier b).2 := by
    unfold State.storage at h
    dsimp only at h
    omega
  have hchannel : (s.place tier a).1 = (s.place tier b).1 := by
    have hdiv := congrArg (· / channelBytes tier) hsum
    simpa only [Nat.mul_add_div (Nat.zero_lt_of_lt hoffa), Nat.mul_comm _ (channelBytes tier), Nat.div_eq_of_lt hoffa, Nat.div_eq_of_lt hoffb,
      Nat.add_zero] using hdiv
  rw [hchannel] at hsum
  exact place_inj ha hb (Prod.ext hchannel (Nat.add_left_cancel hsum))

/-- The start of an address's block lies in its tier, and stores the block. -/
theorem blockOf_start (ht : tier < 2) (h : s.tierHolds tier a 1 = true) :
    s.tierHolds tier (a / 128 * 128) 1 = true ∧ s.storage tier (a / 128 * 128) = 128 * s.blockOf tier a := by
  have hbase := tierBase_mod tier
  have hhold : s.tierHolds tier (a / 128 * 128) 1 = true := by
    rw [tierHolds_one] at h ⊢
    omega
  obtain ⟨hadd, hstart⟩ := storage_add hhold (Nat.mul_mod_left _ _) (Nat.mod_lt a (by decide : 128 > 0))
  refine ⟨hhold, ?_⟩
  unfold State.blockOf
  rw [if_pos ht]
  rw [Nat.div_add_mod'] at hadd
  omega

theorem blockOf_eq_iff (ht : tier < 2) (ha : s.tierHolds tier a 1 = true) (hb : s.tierHolds tier b 1 = true) :
    s.blockOf tier a = s.blockOf tier b ↔ a / 128 = b / 128 := by
  obtain ⟨hholda, hstarta⟩ := blockOf_start ht ha
  obtain ⟨hholdb, hstartb⟩ := blockOf_start ht hb
  constructor
  · intro h
    have := storage_inj hholda hholdb (by rw [hstarta, hstartb, h])
    omega
  · intro h
    rw [h, hstartb] at hstarta
    omega

/-- Tier 0 is stored below the first byte of tier 1 (R32, R142). -/
theorem blockOf_tier0_lt (h : s.tierHolds 0 a 1 = true) : s.blockOf 0 a < 2 ^ 41 / 128 := by
  have hchannel : (s.place 0 a).1 < 256 := lt_of_mem_setBits (place_channel_mem h)
  have hoffset := place_offset_lt h
  have hbase : tierBase 0 = 0 := if_pos rfl
  have hbytes : channelBytes 0 = 2 ^ 31 := if_pos rfl
  unfold State.blockOf State.storage
  rw [if_pos (by decide)]
  dsimp only
  rw [hbytes] at hoffset ⊢
  omega

theorem le_blockOf_tier1 (s : State) (b : Nat) : 2 ^ 41 / 128 ≤ s.blockOf 1 b := by
  have hbase : tierBase 1 = 2 ^ 41 := if_neg (by decide)
  unfold State.blockOf State.storage
  rw [if_pos (by decide), hbase]
  dsimp only
  omega
end

/-- Settles O46: an address is found again from its place, and the tiers are stored apart. -/
theorem channelInterleaving : Obligations.ChannelInterleaving :=
  ⟨fun _ _ _ _ ht ha hb => blockOf_eq_iff ht ha hb, fun s _ b ha _ => Nat.ne_of_lt ((blockOf_tier0_lt ha).trans_le (le_blockOf_tier1 s b))⟩

end Sys2Proof.Machine
end

section
/-! PROOF. Global memory at its home (R150, R152-R155, R180, R435, R472): codes in their order, writes that are made and writes that are not, the
monitors of a written line, and copies of blocks. -/

namespace Sys2Proof.Machine

/-! ### The order of codes (R154) -/

theorem codeOrder_sectors : codeOrder.Pairwise (fun j k => codeSectors j ≤ codeSectors k) := by decide

theorem mem_codeOrder {bs : List Byte} {k : Nat} (h : codeFits bs k = true) : k ∈ codeOrder := by
  unfold codeFits at h
  split at h
  · decide
  · decide
  · decide
  · cases hform : codeForm k with
    | none => rw [hform] at h; cases h
    | some p =>
      unfold codeForm at hform
      split at hform <;> cases hform <;> decide

/-- In a page with CMP no other code that fits takes fewer sectors (R154). -/
theorem chooseCode_sectors {bs : List Byte} {k : Nat} (h : codeFits bs k = true) : codeSectors (chooseCode true bs) ≤ codeSectors k := by
  have hk := mem_codeOrder h
  cases hfind : codeOrder.find? (codeFits bs) with
  | none => exact absurd h (List.find?_eq_none.1 hfind k hk)
  | some c =>
    have hchosen : chooseCode true bs = c := by unfold chooseCode; rw [if_pos rfl, hfind]; rfl
    obtain ⟨-, before, after, hsplit, hbefore⟩ := List.find?_eq_some_iff_append.1 hfind
    have horder := codeOrder_sectors
    rw [hsplit] at hk horder
    rw [hchosen]
    obtain hin | hin := List.mem_append.1 hk
    · have := hbefore k hin
      rw [h] at this
      cases this
    · obtain rfl | hin := List.mem_cons.1 hin
      · exact Nat.le_refl _
      · exact (List.pairwise_cons.1 (List.pairwise_append.1 horder).2.1).1 k hin

theorem reservedCode_of_fits {bs : List Byte} {k : Nat} (h : codeFits bs k = true) : reservedCode k = false := by
  have hnone : ∀ c ∈ codeOrder, reservedCode c = false := by decide
  exact hnone k (mem_codeOrder h)

/-! ### One block put into a memory (R155, R435) -/

section
variable {s t : State} {tier pa : Nat}

theorem setGmem_blockOf (s : State) (tier : Nat) (g : GMem) (u a : Nat) : (s.setGmem tier g).blockOf u a = s.blockOf u a := by
  unfold State.setGmem
  split
  · rfl
  · split <;> rfl

theorem setGmem_monitors (s : State) (tier : Nat) (g : GMem) : (s.setGmem tier g).monitors = s.monitors := by
  unfold State.setGmem
  split
  · rfl
  · split <;> rfl

/-- A block that is put into its memory stands there as it is stored, and no other block changes. -/
theorem setGmem_putBlock_leaves (h : (s.gmem tier).ordered) (code : Nat) (l : List Byte) :
    let t := s.setGmem tier ((s.gmem tier).putBlock (s.blockOf tier pa) code l)
    t.peekBlock tier pa = decodeBlock code (padBlock l) ∧ (t.gmem tier).ordered ∧ ∀ u a, s.apart u a tier pa → t.peekBlock u a = s.peekBlock u a := by
  dsimp only
  refine ⟨?_, ?_, fun u a hu => ?_⟩
  · unfold State.peekBlock
    rw [setGmem_blockOf, gmem_setGmem_self, block_putBlock_self h]
  · rw [gmem_setGmem_self]
    exact putBlock_ordered h _ _ _
  · unfold State.peekBlock
    rw [setGmem_blockOf]
    by_cases hhome : homeOf u = homeOf tier
    · rw [gmem_eq_of_home _ hhome, gmem_setGmem_self, block_putBlock_other h (hu.resolve_left (not_not_intro hhome)), gmem_eq_of_home s hhome]
    · rw [gmem_setGmem_other _ hhome]

theorem unreadable_eq (s : State) (tier pa : Nat) : s.unreadable tier pa =
    (s.tagFails tier pa || (s.gmem tier).bad.contains (s.blockOf tier pa) ||
      reservedCode ((s.gmem tier).block (s.blockOf tier pa)).1 || (s.gmem tier).fails.any (fun w => w / 4 == s.blockOf tier pa)) := rfl

/-- A block that is put into its memory can be read again, where its tag word can (R435). -/
theorem setGmem_putBlock_readable (h : (s.gmem tier).ordered) (htag : s.tagFails tier pa = false) {code : Nat} (hcode : reservedCode code = false)
    (l : List Byte) : (s.setGmem tier ((s.gmem tier).putBlock (s.blockOf tier pa) code l)).unreadable tier pa = false := by
  have htag' : (s.setGmem tier ((s.gmem tier).putBlock (s.blockOf tier pa) code l)).tagFails tier pa = s.tagFails tier pa := by
    unfold State.tagFails
    rw [gmem_setGmem_self, setGmem_blockOf]
    rfl
  have hbad : ((s.gmem tier).putBlock (s.blockOf tier pa) code l).bad.contains (s.blockOf tier pa) = false := by simp [GMem.putBlock]
  have hfails : ((s.gmem tier).putBlock (s.blockOf tier pa) code l).fails.any (fun w => w / 4 == s.blockOf tier pa) = false := by
    simp [GMem.putBlock]
  rw [unreadable_eq, htag', htag, setGmem_blockOf, gmem_setGmem_self, block_putBlock_self h, hbad, hfails, hcode]
  rfl

/-! ### Blocks that cannot be read (R435, R472) -/

theorem State.OnRecords.monitors (h : s.OnRecords t) : t.monitors = s.monitors := by rw [h]

theorem State.OnRecords.tagFails (h : s.OnRecords t) (tier pa : Nat) : t.tagFails tier pa = s.tagFails tier pa := by
  unfold State.tagFails
  rw [OnRecords_gmem h, h.sameStore.blockOf]

theorem poison_monitors (s : State) (tier pa : Nat) : (s.poison tier pa).monitors = s.monitors := by
  unfold State.poison
  dsimp only
  split
  · rfl
  · exact setGmem_monitors _ _ _

theorem readBlock_monitors (s : State) (tier pa : Nat) : (s.readBlock tier pa).1.monitors = s.monitors := by
  have hcount := (countAccess_onRecords s tier pa ((s.gmem tier).block (s.blockOf tier pa)).1 false).monitors
  unfold State.readBlock
  dsimp only
  split
  · exact (setGmem_monitors _ _ _).trans hcount
  · split
    · exact hcount
    · split
      · exact (poison_monitors _ _ _).trans hcount
      · exact (correctSectors_onRecords _ _ _).monitors.trans hcount

/-- A block that cannot be read gives nothing. -/
theorem readBlock_unreadable (h : s.unreadable tier pa = true) : (s.readBlock tier pa).2 = none := by
  have hcount := countAccess_onRecords s tier pa ((s.gmem tier).block (s.blockOf tier pa)).1 false
  unfold State.readBlock
  dsimp only
  rw [hcount.tagFails, OnRecords_gmem hcount]
  split
  · rfl
  · next htag =>
    split
    · rfl
    · next hbad =>
      rw [unreadable_eq, Bool.eq_false_of_not_eq_true htag, Bool.eq_false_of_not_eq_true hbad, Bool.false_or, Bool.false_or] at h
      rw [if_pos h]

/-- A tag word that is taken off those that fail does not fail. -/
theorem dropTag_tagFails (s : State) (tier pa : Nat) :
    (if s.tagFails tier pa then s.setGmem tier { s.gmem tier with tagBad := (s.gmem tier).tagBad.filter (fun k => k ≠ s.blockOf tier pa / 16) }
      else s).tagFails tier pa = false := by
  split
  · unfold State.tagFails
    rw [gmem_setGmem_self, setGmem_blockOf]
    simp
  · next h => exact Bool.eq_false_of_not_eq_true h

/-- What meeting an error consists of: records, the tag word taken off those that fail, and records (R428, R472). -/
theorem blockError_steps (s : State) (ctx : Option Nat) (tier pa va : Nat) : ∃ u, s.OnRecords u ∧
    (if u.tagFails tier pa then u.setGmem tier { u.gmem tier with tagBad := (u.gmem tier).tagBad.filter (fun k => k ≠ u.blockOf tier pa / 16) }
      else u).OnRecords (s.blockError ctx tier pa va) := by
  let u := s.free.2.free.2
  let ch := if tier < 2 then (u.place tier pa).1 else 0
  have hbucket : u.OnRecords (if tier < 2 then u.bucketAdd (4 + tier) ch 16 else u) :=
    ite_onRecords (bucketAdd_onRecords u (by omega) ch 16) (.refl u)
  have hend (t : State) : t.OnRecords (match ctx with | some c => { t with agenda := .event (.contextEnd c 0x302 0) :: t.agenda } | none => t) := by
    split
    · rfl
    · exact .refl t
  refine ⟨_, (free_onRecords s).trans ((free_onRecords _).trans hbucket), ?_⟩
  rw [hbucket.tagFails, hbucket.sameStore.blockOf]
  exact (event_onRecords ..).trans (hend _)

theorem blockError_tagFails (s : State) (ctx : Option Nat) (tier pa va : Nat) : (s.blockError ctx tier pa va).tagFails tier pa = false := by
  obtain ⟨u, -, h⟩ := blockError_steps s ctx tier pa va
  rw [h.tagFails, dropTag_tagFails]

theorem blockError_monitors (s : State) (ctx : Option Nat) (tier pa va : Nat) : (s.blockError ctx tier pa va).monitors = s.monitors := by
  obtain ⟨u, hu, h⟩ := blockError_steps s ctx tier pa va
  rw [h.monitors, ← hu.monitors]
  split
  · exact setGmem_monitors _ _ _
  · rfl

/-! ### Stored blocks (R154, R155, R435) -/

theorem backInvalidate_sameStore (s : State) (tier pa : Nat) : s.SameStore (s.backInvalidate tier pa) := by
  unfold State.backInvalidate
  split
  · exact ⟨rfl, rfl, fun _ => rfl, fun _ => rfl⟩
  · exact .refl s

/-- A block is put into its memory once its tag word stands: monitors stay as they were. -/
theorem placeBlock_steps (s : State) (tier pa code : Nat) (l : List Byte) : ∃ u, s.SameStore u ∧ u.monitors = s.monitors ∧ u.tagFails tier pa = false ∧
    s.placeBlock tier pa code l = u.setGmem tier ((u.gmem tier).putBlock (u.blockOf tier pa) code l) := by
  have hsnoopMon : (s.backInvalidate tier pa).monitors = s.monitors := by unfold State.backInvalidate; split <;> rfl
  let v := (s.backInvalidate tier pa).countAccess tier pa code true
  have hv : (s.backInvalidate tier pa).OnRecords v := countAccess_onRecords _ _ _ _ _
  let u := if v.tagFails tier pa then (v.poisonTag tier (v.blockOf tier pa / 16)).blockError none tier pa 0 else v
  have hu : v.SameStore u ∧ u.monitors = v.monitors ∧ u.tagFails tier pa = false := by
    show v.SameStore (if v.tagFails tier pa then _ else v) ∧ (if v.tagFails tier pa then _ else v).monitors = _ ∧
      State.tagFails (if v.tagFails tier pa then _ else v) tier pa = false
    split
    · exact ⟨(poisonTag_sameStore v _ _).trans (blockError_sameStore ..), (blockError_monitors ..).trans (setGmem_monitors ..), blockError_tagFails ..⟩
    · next h => exact ⟨.refl v, rfl, Bool.eq_false_of_not_eq_true h⟩
  exact ⟨u, ((backInvalidate_sameStore s tier pa).trans hv.sameStore).trans hu.1, hu.2.1.trans (hv.monitors.trans hsnoopMon), hu.2.2, rfl⟩

theorem placeBlock_readable (h : (s.gmem tier).ordered) {code : Nat} (hcode : reservedCode code = false) (l : List Byte) :
    (s.placeBlock tier pa code l).unreadable tier pa = false := by
  obtain ⟨u, hu, -, htag, heq⟩ := placeBlock_steps s tier pa code l
  rw [heq]
  exact setGmem_putBlock_readable (hu.ordered h) htag hcode l

theorem placeBlock_monitors (s : State) (tier pa code : Nat) (l : List Byte) : (s.placeBlock tier pa code l).monitors = s.monitors := by
  obtain ⟨u, -, hmon, -, heq⟩ := placeBlock_steps s tier pa code l
  rw [heq, setGmem_monitors, hmon]

/-! ### Waiters of a line (R180) -/

/-- A waiter that is woken has its monitor no more, and every other one keeps its own. -/
theorem wake_monitors (s : State) (m : Monitor) : (s.wake m).monitors = s.monitors.filter (fun x => x ≠ m) := by
  have hbad (t : State) (p : Prop) [Decidable p] (ctx : Option Nat) (va : Nat) :
      (if p then (t.readBlock m.tier m.pa).1.blockError ctx m.tier m.pa va else t).monitors = t.monitors := by
    split
    · rw [blockError_monitors, readBlock_monitors]
    · rfl
  unfold State.wake
  dsimp only
  split
  · exact hbad _ _ _ _
  · exact hbad _ _ _ _

theorem foldl_wake_monitors (l : List Monitor) (s : State) : (l.foldl State.wake s).monitors = s.monitors.filter (fun x => x ∉ l) := by
  induction l generalizing s with
  | nil => simp
  | cons m l ih =>
    rw [List.foldl_cons, ih, wake_monitors, List.filter_filter]
    exact List.filter_congr fun x _ => by simp [Bool.and_comm]

theorem wakeLine_monitors (s : State) (tier pa : Nat) :
    (s.wakeLine tier pa).monitors = s.monitors.filter (fun m => !(m.tier == tier && m.pa / 128 == pa / 128)) := by
  show (List.foldl State.wake s _).monitors = _
  rw [foldl_wake_monitors]
  exact List.filter_congr fun m hm => by rw [Bool.eq_iff_iff]; simp [hm]

/-! ### Writes (R155, R435) -/

/-- The block that a write finds: what it leaves is that block with the bytes put in, where it is made. -/
theorem placeHome_cases (s : State) (tier pa : Nat) (cmp : Bool) (bs : List Byte) :
    (∃ v l, v.monitors = s.monitors ∧ s.SameStore v ∧ (bs.length = 128 ∨ s.unreadable tier pa = false) ∧
      s.placeHome tier pa cmp bs = (v.placeBlock tier pa (chooseCode cmp l) (storedBytes l (chooseCode cmp l)), true)) ∨
    (bs.length ≠ 128 ∧ s.unreadable tier pa = true ∧ s.placeHome tier pa cmp bs = ((s.readBlock tier pa).1, false)) := by
  by_cases hlen : bs.length = 128
  · exact .inl ⟨s, bs, rfl, .refl s, .inl hlen, if_pos hlen⟩
  · cases hread : s.unreadable tier pa with
    | false =>
      obtain ⟨t, hget, ht⟩ := readBlock_readable s hread
      refine .inl ⟨t, mergeBytes (s.peekBlock tier pa) (pa % 128) bs, ht.monitors, ht.sameStore, .inr rfl, ?_⟩
      unfold State.placeHome
      dsimp only
      rw [if_neg hlen, hget]
    | true =>
      refine .inr ⟨hlen, rfl, ?_⟩
      have hnone : s.readBlock tier pa = ((s.readBlock tier pa).1, none) := Prod.ext rfl (readBlock_unreadable hread)
      unfold State.placeHome
      dsimp only
      rw [if_neg hlen, hnone]

/-- A write is made unless it is a partial one that meets a block that cannot be read, and then no byte changes; a block that is written can be read
after it, and the monitors of its line are gone (R155, R180, R435). -/
theorem writeHome_outcome (s : State) (tier pa : Nat) (cmp : Bool) (bs : List Byte) :
    (s.writeHome tier pa cmp bs).2 = (decide (bs.length = 128) || !s.unreadable tier pa) ∧
    ((s.writeHome tier pa cmp bs).2 = false → ∀ u a, (s.writeHome tier pa cmp bs).1.peekBlock u a = s.peekBlock u a) ∧
    ((s.writeHome tier pa cmp bs).2 = true →
      ((s.gmem tier).ordered → (s.placeHome tier pa cmp bs).1.unreadable tier pa = false) ∧
      (s.writeHome tier pa cmp bs).1.monitors = s.monitors.filter (fun m => !(m.tier == tier && m.pa / 128 == pa / 128))) := by
  obtain ⟨v, l, hmon, hstore, hmade, hplace⟩ | ⟨hlen, hread, hplace⟩ := placeHome_cases s tier pa cmp bs
  · have hwrite : s.writeHome tier pa cmp bs =
        ((v.placeBlock tier pa (chooseCode cmp l) (storedBytes l (chooseCode cmp l))).wakeLine tier pa, true) := by
      unfold State.writeHome
      rw [hplace]
    rw [hwrite, hplace]
    refine ⟨?_, nofun, fun _ => ⟨fun ho => ?_, ?_⟩⟩
    · obtain hlen | hread := hmade
      · simp [hlen]
      · simp [hread]
    · exact placeBlock_readable (hstore.ordered ho) (reservedCode_of_fits (codeFits_chooseCode cmp l)) _
    · rw [wakeLine_monitors, placeBlock_monitors, hmon]
  · have hwrite : s.writeHome tier pa cmp bs = ((s.readBlock tier pa).1, false) := by
      unfold State.writeHome
      rw [hplace]
    rw [hwrite]
    exact ⟨by simp [hlen, hread], fun _ u a => (readBlock_sameStore s tier pa).peekBlock u a, nofun⟩

/-- Bytes written by an address that no translation gave (DESIGN CHOICE, log 18). -/
theorem writePlain_written {bs : List Byte} (h : (s.gmem tier).ordered) (hfit : pa % 128 + bs.length ≤ 128)
    (hw : s.writePlain tier pa bs = (t, true)) : Written s t tier pa bs ∧ (t.gmem tier).ordered := by
  have hfree := (free_onRecords s).sameStore
  obtain ⟨hwritten, hord⟩ := writeHome_written (hfree.ordered h) hfit hw
  exact ⟨Written.of_sameStore hfree hwritten (.refl t), hord⟩

/-! ### Reads and copies (R150, R435) -/

theorem readHome_unreadable (h : s.unreadable tier pa = true) (n : Nat) : (s.readHome tier pa n).2 = none := by
  unfold State.readHome
  dsimp only
  rw [readBlock_unreadable h]
  rfl

/-- A block that is copied keeps its bytes, and no other block changes (R150). -/
theorem copyBlock_leaves (s : State) (t a u b : Nat) (h : (s.gmem u).ordered) :
    (s.copyBlock t a u b).peekBlock u b = s.peekBlock t a ∧ ((s.copyBlock t a u b).gmem u).ordered ∧
      ∀ v c, s.apart v c u b → (s.copyBlock t a u b).peekBlock v c = s.peekBlock v c := by
  let x := (s.gmem t).block (s.blockOf t a)
  let w := ((s.backInvalidate u b).countAccess t a x.1 false).countAccess u b x.1 true
  have hw : s.SameStore w :=
    (backInvalidate_sameStore s u b).trans
      ((countAccess_onRecords (s.backInvalidate u b) t a x.1 false).trans (countAccess_onRecords _ u b x.1 true)).sameStore
  have hlen : x.2.length = 128 := readBytes_length _ _ _
  obtain ⟨hin, hord, hout⟩ := setGmem_putBlock_leaves (pa := b) (hw.ordered h) x.1 x.2
  have hlast : (w.setGmem u ((w.gmem u).putBlock (w.blockOf u b) x.1 x.2)).SameStore (s.copyBlock t a u b) :=
    ite_sameStore (poison_sameStore _ _ _) (.refl _)
  refine ⟨?_, hlast.ordered hord, fun v c hv => ?_⟩
  · rw [hlast.peekBlock, hin, padBlock_eq_self hlen]
    rfl
  · rw [hlast.peekBlock, hout v c (by unfold State.apart at *; rwa [hw.blockOf, hw.blockOf]), hw.peekBlock]
end

/-- Settles O47: codes by their order, a write by the block that it finds and puts back, a copy as a block that is put. -/
theorem globalMemory : Obligations.GlobalMemory := by
  refine ⟨fun bs cmp hlen => ⟨decodeBlock_storedBytes hlen (codeFits_chooseCode cmp bs), codeFits_chooseCode cmp bs, ?_, ?_⟩,
    fun s t tier pa cmp bs h hfit hw => ?_, fun s tier pa cmp bs _ => writeHome_outcome s tier pa cmp bs,
    fun s tier pa n => ⟨fun h => ?_, fun h => ⟨readHome_unreadable h n, (readBlock_sameStore s tier pa).peekBlock⟩⟩,
    fun s t a u b => copyBlock_leaves s t a u b, ?_⟩
  · rintro rfl
    rfl
  · rintro rfl k hk
    exact chooseCode_sectors hk
  · obtain hp | hw | hw := hw
    · exact placeHome_written h hfit hp
    · exact writeHome_written h hfit hw
    · exact writePlain_written h hfit hw
  · obtain ⟨t, hread, ht⟩ := readHome_readable s h n
    rw [hread]
    exact ⟨rfl, ht.sameData⟩
  · have hempty (g : GMem) (hcodes : g.codes = []) (hcells : g.cells = []) : g.ordered := by
      unfold GMem.ordered
      rw [hcodes, hcells]
      exact ⟨.nil, rfl⟩
    exact ⟨hempty _ rfl rfl, hempty _ rfl rfl, hempty _ rfl rfl⟩

end Sys2Proof.Machine
end

section
/-! PROOF. Commands after their issue (R313, R317, R322, R343, R352, R500, R501): their end at a barrier, and each event of one that stands in its queue. -/

namespace Sys2Proof.Machine

section
variable {s u : State} {n id : Nat} {x : Command}

/-! ### The end of a command (R313, R343, R471) -/

theorem afterEnd_leaves (s : State) (n : Nat) : (s.afterEnd n).cores = s.cores ∧ (s.afterEnd n).clusters = s.clusters := by
  unfold State.afterEnd
  dsimp only
  split <;> exact ⟨rfl, rfl⟩

/-- A command that ends changes its barrier and its queue; no cluster changes. -/
theorem endCommand_leaves (h : (s.core n).command id = some x) (st : Nat) :
    (s.endCommand n id st).cores = (s.updCore n (fun c => (c.endAt x.bar x.weight st).dropCommand id)).cores ∧
      (s.endCommand n id st).clusters = s.clusters := by
  have hrecord (v : State) (p : Prop) [Decidable p] : (if p then v.record 0x0101 1 0 (some x.ctx) 0 n 0 0 st 0 else v).cores = v.cores ∧
      (if p then v.record 0x0101 1 0 (some x.ctx) 0 n 0 0 st 0 else v).clusters = v.clusters := by
    split <;> exact ⟨rfl, rfl⟩
  unfold State.endCommand
  rw [h]
  dsimp only
  split
  · exact ⟨(afterEnd_leaves _ n).1.trans (hrecord _ _).1, (afterEnd_leaves _ n).2.trans (hrecord _ _).2⟩
  · exact ⟨(afterEnd_leaves _ n).1.trans (hrecord _ _).1, (afterEnd_leaves _ n).2.trans (hrecord _ _).2⟩

theorem endCommand_core (h : (s.core n).command id = some x) (st : Nat) :
    (s.endCommand n id st).core n = ((s.core n).endAt x.bar x.weight st).dropCommand id :=
  (core_of_cores (endCommand_leaves h st).1 n).trans (State.core_updCore s n _)

theorem endCommand_core_other (h : (s.core n).command id = some x) (st : Nat) {m : Nat} (hm : m ≠ n) : (s.endCommand n id st).core m = s.core m :=
  (core_of_cores (endCommand_leaves h st).1 m).trans (State.core_updCore_other s _ hm)

/-- ERR and CNT of a barrier as a command fails there (R343). -/
theorem Barrier.fail_leaves (b : Barrier) (st : Nat) : (b.fail st).pend = b.pend ∧ (b.fail st).cnt = b.cnt ∧
    (b.err = 0 → (b.fail st).err = st) ∧ (b.err ≠ 0 → (b.fail st).err = b.err ∧ (b.fail st).ovf = true) := by
  unfold Barrier.fail
  split
  · next h => exact ⟨rfl, rfl, fun _ => rfl, fun hn => absurd h hn⟩
  · next h => exact ⟨rfl, rfl, fun hz => absurd hz h, fun _ => ⟨rfl, rfl⟩⟩

/-- The barrier of a command that ends (R313). -/
theorem endAt_self (c : Core) (b : Fin 16) (w st : Nat) : (c.endAt (some b) w st).bars[b] =
    { (if st = 0 then c.bars[b] else c.bars[b].fail st) with
      pend := ((if st = 0 then c.bars[b] else c.bars[b].fail st).pend + (2 ^ 64 - w % 2 ^ 64)) % 2 ^ 64 } :=
  Vector.getElem_set_self _

/-- The end of a command leaves CNT of every barrier (R313). -/
theorem endAt_cnt (c : Core) (bar : Option (Fin 16)) (w st : Nat) (b : Fin 16) : ((c.endAt bar w st).bars[b]).cnt = (c.bars[b]).cnt := by
  cases bar with
  | none => rfl
  | some b' =>
    by_cases hb : b' = b
    · subst hb
      rw [endAt_self]
      dsimp only
      split
      · rfl
      · exact (Barrier.fail_leaves _ st).2.1
    · exact congrArg Barrier.cnt (Vector.getElem_set_ne b'.isLt b.isLt (fun hval => hb (Fin.ext hval)))

/-- What a command that fails leaves of its barrier: its weight gone from PEND, and the first error status (R313, R343). -/
theorem endAt_fails (c : Core) (b : Fin 16) {w st : Nat} (hst : st ≠ 0) (hw : w < 2 ^ 64) (hpend : (c.bars[b]).pend < 2 ^ 64) (hle : w ≤ (c.bars[b]).pend) :
    let b' := (c.endAt (some b) w st).bars[b]
    b'.pend = (c.bars[b]).pend - w ∧ b'.cnt = (c.bars[b]).cnt ∧ ((c.bars[b]).err = 0 → b'.err = st) ∧
      ((c.bars[b]).err ≠ 0 → b'.err = (c.bars[b]).err ∧ b'.ovf = true) := by
  obtain ⟨hp, hc, hfirst, hnext⟩ := Barrier.fail_leaves (c.bars[b]) st
  dsimp only
  rw [endAt_self, if_neg hst]
  refine ⟨?_, hc, hfirst, hnext⟩
  dsimp only
  rw [hp]
  omega

/-! ### Target signals (R322) -/

/-- A barrier with one more in CNT, saturating (R322). -/
def Core.signalled (c : Core) (b : Fin 16) : Core := { c with bars := c.bars.set b { c.bars[b] with cnt := min (c.bars[b].cnt + 1) 65535 } }

theorem signalled_bar (c : Core) (b : Fin 16) : (c.signalled b).bars[b] = { c.bars[b] with cnt := min (c.bars[b].cnt + 1) 65535 } :=
  Vector.getElem_set_self _

theorem exec_cxferTargetSignal (h : (s.core n).command id = some x) {b : Fin 16} (hb : x.signal = some b) : exec (.cxferTargetSignal n id) s =
    .next (if (s.core (x.targetCore n)).runs x.ctx then (s.updCore (x.targetCore n) (Core.signalled · b)).endCommand n id 0
      else s.endCommand n id stOwner) := by
  show execCxferTargetSignal n id s = _
  unfold execCxferTargetSignal
  rw [h]
  dsimp only
  rw [hb]
  dsimp only
  split <;> rfl

/-- The target's barrier counts the signal, and no cluster changes. -/
theorem signal_leaves (h : (s.core n).command id = some x) (m : Nat) (b : Fin 16) :
    let t := (s.updCore m (Core.signalled · b)).endCommand n id 0
    ((t.core m).bars[b]).cnt = min (((s.core m).bars[b]).cnt + 1) 65535 ∧ (m ≠ n → ((t.core m).bars[b]).pend = ((s.core m).bars[b]).pend) ∧
      t.clusters = s.clusters := by
  intro t
  have hcommand : ((s.updCore m (Core.signalled · b)).core n).command id = some x := by
    by_cases hm : n = m
    · subst hm
      rw [State.core_updCore]
      exact h
    · rw [State.core_updCore_other _ _ hm, h]
  have hclusters : t.clusters = s.clusters := (endCommand_leaves hcommand 0).2
  by_cases hm : m = n
  · subst hm
    refine ⟨?_, fun hne => absurd rfl hne, hclusters⟩
    rw [endCommand_core hcommand, State.core_updCore]
    exact (endAt_cnt _ _ _ _ _).trans (congrArg Barrier.cnt (signalled_bar _ b))
  · rw [endCommand_core_other hcommand 0 hm, State.core_updCore, signalled_bar]
    exact ⟨rfl, fun _ => rfl, hclusters⟩

/-! ### Pipes (R64, R339-R341) -/

theorem exec_psendStore (s : State) (n id : Nat) : exec (.psendStore n id) s = .next (s.retryPipe n id) := rfl

theorem exec_precvReceive (s : State) (n id : Nat) : exec (.precvReceive n id) s = .next (s.retryPipe n id) := rfl

theorem retryPipe_steps (h : (s.core n).command id = some x) (hwait : x.state = .waiting) (hrun : s.stopped n = false) {st : CStep} {l : List CStep}
    (hl : s.stepsLeft n x = st :: l) : s.retryPipe n id = s.stepCommand n x st := by
  unfold State.retryPipe
  rw [h]
  dsimp only
  rw [if_pos ⟨hwait, hrun⟩, hl]

theorem retryPipe_stays (h : (s.core n).command id = some x) (hstop : x.state ≠ .waiting ∨ s.stopped n = true) : s.retryPipe n id = s := by
  unfold State.retryPipe
  rw [h]
  dsimp only
  rw [if_neg]
  rintro ⟨hwait, hrun⟩
  obtain hstate | hstopped := hstop
  · exact hstate hwait
  · rw [hstopped] at hrun
    cases hrun

/-! ### Starts and acceptance (R317, R352) -/

section
variable {due : Nat} (h : (s.core n).command id = some x) (hstate : x.state = .accepted due) (hix : isIx x.op = true) (hnew : x.started = false)
  (hfree : (s.core n).ixBehind x = false)
include h hstate hix hnew hfree

theorem exec_ixCommandStart_fails {st : Nat} (hst : s.ixStatus n x = some st) : exec (.ixCommandStart n id) s = .next (s.endCommand n id st) := by
  show execIxCommandStart n id s = _
  simp [execIxCommandStart, h, hstate, hix, hnew, hfree, hst]

theorem exec_ixCommandStart_starts (hst : s.ixStatus n x = none) : exec (.ixCommandStart n id) s =
    .next (s.updCore n (fun c => c.updCommand id (fun y => { y with started := true }))) := by
  show execIxCommandStart n id s = _
  simp [execIxCommandStart, h, hstate, hix, hnew, hfree, hst]
end

theorem exec_commandAccept_none {e : Fin 2} (h : ((s.updCore n Core.dropJoins).core n).nextQueued e = none) :
    exec (.commandAccept n e) s = .next (s.updCore n Core.dropJoins) := by
  show execCommandAccept n e s = _
  unfold execCommandAccept
  dsimp only
  rw [h]

/-- The next command of an engine is accepted when nothing holds it back (R317). -/
theorem exec_commandAccept_some {e : Fin 2} (h : ((s.updCore n Core.dropJoins).core n).nextQueued e = some x) :
    exec (.commandAccept n e) s = .next (let u := s.updCore n Core.dropJoins
      if u.holds x.ctx || (u.core n).behindCmap x || u.heldBack n x (u.firstAccesses n x) then u else u.acceptCommand n x) := by
  show execCommandAccept n e s = _
  unfold execCommandAccept
  dsimp only
  rw [h]
  dsimp only
  split <;> rfl

theorem acceptCommand_fails {st : Nat} (h : s.acceptCheck n x = some st) : s.acceptCommand n x = s.endCommand n x.id st := by
  unfold State.acceptCommand
  rw [h]

/-- A command with a slot or a list to read asks for its ports at once; another one is due later (R317). -/
theorem acceptCommand_accepts (h : s.acceptCheck n x = none) : s.acceptCommand n x =
    (if x.unlisted then (s.now, s) else s.dueTime).2.updCore n (fun c => c.updCommand x.id (fun y =>
      { y with state := .accepted (if x.unlisted then (s.now, s) else s.dueTime).1 })) := by
  unfold State.acceptCommand
  rw [h]

/-! ### One step, and the end (R174, R313, R322, R500) -/

section
variable (h : (s.core n).command id = some x)
include h

theorem exec_commandComplete_notReady (hready : x.ready s.now = false) : exec (.commandComplete n id) s = .next s := by
  show execCommandComplete n id s = _
  simp [execCommandComplete, h, hready]

theorem exec_commandComplete_done (hready : x.ready s.now = true) (hl : s.stepsLeft n x = []) :
    exec (.commandComplete n id) s = .next (s.completeCommand n x) := by
  show execCommandComplete n id s = _
  simp [execCommandComplete, h, hready, hl]

/-- A step is taken unless it is at a port of a local memory, its member has stopped, or an earlier command holds it back (R30, R168). -/
theorem exec_commandComplete_step (hready : x.ready s.now = true) {st : CStep} {l : List CStep} (hl : s.stepsLeft n x = st :: l) :
    exec (.commandComplete n id) s = .next (
      if st.act.isLocal || (x.withdrawn && s.stopped n) || ((s.core n).earlier x).any (fun e => s.holdsBack n x e (s.accessOf n x st)) then s
      else (s.performWhole n x).getD (s.stepCommand n x st)) := by
  have hheld : s.heldBack n x [s.accessOf n x st] = ((s.core n).earlier x).any (fun e => s.holdsBack n x e (s.accessOf n x st)) := by
    unfold State.heldBack
    simp only [List.any_cons, List.any_nil, Bool.or_false]
  show execCommandComplete n id s = _
  unfold execCommandComplete
  rw [h]
  dsimp only
  rw [hready, hl]
  dsimp only
  rw [hheld, if_neg (by decide)]
  split
  · rfl
  · cases s.performWhole n x <;> rfl
end

theorem signal_of_isMap (h : isMap x.op = true) : x.signal = none := by
  unfold Command.signal
  split
  · next hop => rw [hop] at h; cases h
  · rfl

/-- What a command comes to when no step of it is left (R322, R328). -/
theorem completeCommand_cases (s : State) (n : Nat) (x : Command) :
    (isMap x.op = true → x.b ≠ 0 → s.mappedRegion n x = none → s.completeCommand n x = s.endCommand n x.id stArg) ∧
    (isMap x.op = true → x.b = 0 ∨ (s.mappedRegion n x).isSome → s.completeCommand n x = s.endCommand n x.id 0) ∧
    (isMap x.op = false → x.signal = none → s.completeCommand n x = s.endCommand n x.id 0) ∧
    (isMap x.op = false → x.signal.isSome → s.completeCommand n x = { s with agenda := .event (.cxferTargetSignal n x.id) :: s.agenda }) := by
  unfold State.completeCommand
  refine ⟨fun hm hb hr => ?_, fun hm hr => ?_, fun hm hs => ?_, fun hm hs => ?_⟩
  · rw [hm, hr, bne_iff_ne.2 hb]
    rfl
  · have hpass : (isMap x.op && x.b != 0 && (s.mappedRegion n x).isNone) = false := by
      obtain hb | hr := hr
      · simp [hb]
      · rw [Option.isNone_eq_false_iff.2 hr, Bool.and_false]
    rw [hpass, if_neg Bool.false_ne_true, signal_of_isMap hm]
    rfl
  · rw [hm, hs]
    rfl
  · rw [hm, if_neg (by simp), if_pos hs]

/-! ### One step (R174, R313, R500) -/

section
variable {st : CStep} {bs : List Byte}

/-- A step that fails ends its command; the local rows of a gather come before its list (R468). -/
theorem stepCommand_fails {e : Nat} (h : s.runStep n x st = (u, .fail e, bs)) : s.stepCommand n x st =
    u.endCommand n x.id (if st.act.isList = true ∧ x.gathers = true then (u.localRows n x).getD e else e) := by
  unfold State.stepCommand
  rw [h]
  dsimp only
  unfold State.listFails
  cases st.act.isList <;> cases x.gathers <;> rfl

theorem stepCommand_waits {w : CmdState} (h : s.runStep n x st = (u, .wait w, bs)) : s.stepCommand n x st =
    u.updCore n (fun c => c.updCommand x.id (fun y =>
      ({ y with done := (s.stepsOf n x).length - (s.stepsLeft n x).length } : Command).waits w)) := by
  unfold State.stepCommand
  rw [h]

/-- A step that succeeds leaves its command due for the next one. -/
theorem stepCommand_ok (h : s.runStep n x st = (u, .ok, bs)) (hlist : st.act.isList = false) (hflush : isFlush x.op = false) :
    let v := (u.freeHost n).freeHost (256 + clusterOf n)
    s.stepCommand n x st = v.free.2.updCore n (fun c => c.updCommand x.id (fun y =>
      { y with done := (s.stepsOf n x).length - (s.stepsLeft n x).length + 1, buf := bs, tried := none, state := .accepted (v.now + 1 + v.free.1) })) := by
  unfold State.stepCommand
  rw [h]
  dsimp only
  rw [hlist, hflush, Bool.and_false]
  rfl
end

theorem waits_link_first {since : Nat} {peer : Bool} (h : x.tried = none) :
    x.waits (.link since peer) = { x with state := .link since peer, tried := some since } := by
  unfold Command.waits
  rw [h]
  rfl

theorem waits_link_again {since first : Nat} {peer : Bool} (h : x.tried = some first) :
    x.waits (.link since peer) = { x with state := .link first peer } := by
  unfold Command.waits
  dsimp only
  rw [h, Option.getD_some, ← h]

/-! ### Timeouts (R500, R501) -/

theorem exec_peerTimeout {since : Nat} (h : (s.core n).command id = some x) (hstate : x.state = .link since true) :
    exec (.peerTimeout n id) s = .next (if since + 2 ^ 20 ≤ s.tick then s.endCommand n id stData else s) := by
  show execPeerTimeout n id s = _
  simp only [execPeerTimeout, h, hstate]

theorem exec_cxlLinkTimeout {since : Nat} (h : (s.core n).command id = some x) (hstate : x.state = .link since false) :
    exec (.cxlLinkTimeout n id) s = .next (if since + 2 ^ 20 ≤ s.tick then s.endCommand n id stData else s) := by
  show execCxlLinkTimeout n id s = _
  simp only [execCxlLinkTimeout, h, hstate]

end
end Sys2Proof.Machine
end

section
/-! PROOF. INVTLBs, migrations and page faults (R139, R140, R150, R469, R474, R491). -/

namespace Sys2Proof.Machine

section
variable {s u : State}

/-! ### INVTLB (R139) -/

/-- What the default and every changed entry of a table have, an entry that is looked up has. -/
theorem tget_tmap_of {α : Type} {P : α → Prop} {d : α} {f : Nat → α → α} (hd : P d) (hf : ∀ k v, P (f k v)) (t : Tbl α) (k : Nat) :
    P (tget d (tmap f t) k) := by
  induction t with
  | nil => exact hd
  | cons e t ih =>
    rw [tmap, tget]
    split
    · exact hf _ _
    · exact ih

/-- No cache holds a translation in the scope of an INVTLB (R139). -/
theorem dropCached_uncovered (s : State) (v : Inv) :
    (∀ n, ∀ x ∈ ((s.dropCached v).core n).tlb, v.covers x.ctx x.base x.size = false) ∧
    (∀ k, ∀ x ∈ ((s.dropCached v).cluster k).tlb2, v.covers x.ctx x.base x.size = false) := by
  have hkept (l : List Xlat) : ∀ x ∈ l.filter (fun x => !v.covers x.ctx x.base x.size), v.covers x.ctx x.base x.size = false := fun x hx => by
    simpa using (List.mem_filter.1 hx).2
  exact ⟨tget_tmap_of (P := fun c : Core => ∀ x ∈ c.tlb, v.covers x.ctx x.base x.size = false) (fun _ hx => absurd hx List.not_mem_nil) (fun _ c => hkept c.tlb) _,
    tget_tmap_of (P := fun c : Cluster => ∀ x ∈ c.tlb2, v.covers x.ctx x.base x.size = false) (fun _ hx => absurd hx List.not_mem_nil) (fun _ c => hkept c.tlb2) _⟩

theorem invtlb_drops (s : State) (scope : Fin 3) (ctx base len : Nat) : ∃ t, exec (.invtlb scope ctx base len) s = .next t ∧
    t.invs = s.invs ++ [⟨s.nextOp, scope.val, ctx, base, len, false⟩] ∧ t.nextOp = s.nextOp + 1 ∧
    (∀ n, ∀ x ∈ (t.core n).tlb, (⟨0, scope.val, ctx, base, len, false⟩ : Inv).covers x.ctx x.base x.size = false) ∧
    (∀ k, ∀ x ∈ (t.cluster k).tlb2, (⟨0, scope.val, ctx, base, len, false⟩ : Inv).covers x.ctx x.base x.size = false) := by
  obtain ⟨hcores, hclusters⟩ := dropCached_uncovered (s.issueInv scope.val ctx base len false) ⟨0, scope.val, ctx, base, len, false⟩
  exact ⟨_, rfl, rfl, rfl, hcores, hclusters⟩

theorem invtlbComplete_leaves {id : Nat} {v : Inv} (h : s.invs.find? (fun v => v.id == id) = some v) :
    ∃ t, exec (.invtlbComplete id) s = .next t ∧ t.invs = s.invs.filter (fun w => w.id ≠ id) ∧
      (v.mailbox = true → s.cxlUp = true → answered s t 0xC002 0 []) := by
  let w : State := { s.dropCached v with invs := s.invs.filter (fun w => w.id ≠ id) }
  have hreply : (w.reply 0xC002 0 []).invs = w.invs ∧ (s.cxlUp = true → answered s (w.reply 0xC002 0 []) 0xC002 0 []) := by
    unfold State.reply
    split
    · exact ⟨rfl, fun _ => rfl⟩
    · next hdown => exact ⟨rfl, fun hup => absurd hup hdown⟩
  refine ⟨if v.mailbox then w.reply 0xC002 0 [] else w, ?_, ?_, fun hm hup => ?_⟩
  · show execInvtlbComplete id s = _
    unfold execInvtlbComplete
    rw [h]
  · split
    · exact hreply.1
    · rfl
  · rw [if_pos hm]
    exact hreply.2 hup

/-! ### Migration (R150, R474) -/

section
variable {id : Nat} {m : Migration} (h : s.migrations.find? (fun m => m.id == id) = some m)
include h

theorem exec_migrationPage_moving {va e inv oa : Nat} (hpage : m.page = some (va, e, inv, oa)) : exec (.migrationPage id) s =
    .next (if s.invs.any (fun v => v.id == inv) then s else s.finishPage m va e oa) := by
  show execMigrationPage id s = _
  simp only [execMigrationPage, h, hpage]
  split <;> rfl

theorem exec_migrationPage_last (hpage : m.page = none) (hpages : m.pages = []) : exec (.migrationPage id) s = .next (s.endMigration m 0) := by
  show execMigrationPage id s = _
  simp only [execMigrationPage, h, hpage, hpages]

/-- A migration whose command is stopped or gone ends; another one begins its next page (R150, R474). -/
theorem exec_migrationPage_next (hpage : m.page = none) {va : Nat} {l : List Nat} (hpages : m.pages = va :: l) : exec (.migrationPage id) s =
    .next (if m.owner.any (fun o => ((s.core o.1).command o.2).all Command.killed) then s.endMigration m 0 else s.beginPage m va) := by
  show execMigrationPage id s = _
  unfold execMigrationPage
  rw [h]
  dsimp only
  rw [hpage, hpages]
  dsimp only
  cases m.owner with
  | none => rfl
  | some o =>
    cases hcommand : (s.core o.1).command o.2 with
    | none => simp only [hcommand, Option.any_some, Option.all_none, if_true]
    | some x =>
      simp only [hcommand, Option.any_some, Option.all_some]
      split <;> rfl
end

section
variable {m : Migration} {va pa e : Nat}

/-- A page whose entry is not valid, or which lies in the target tier already, is passed over. -/
theorem beginPage_passes (h : s.entryAt m.ctx va = some (pa, e)) (hpass : bit e 0 = false ∨ (leafTier e = m.tier ∧ m.channel = none)) :
    s.beginPage m va = s.updMigration m.id (fun m => { m with pages := m.pages.drop 1 }) := by
  have hcond : (bit e 0 = false || (leafTier e == m.tier && m.channel.isNone)) = true := by
    obtain hbit | ⟨htier, hchannel⟩ := hpass
    · simp [hbit]
    · simp [htier, hchannel]
  unfold State.beginPage
  rw [h]
  exact if_pos hcond

/-- A page that is to move. -/
theorem beginPage_moves (hbit : bit e 0 = true) (hmove : leafTier e ≠ m.tier ∨ m.channel ≠ none) :
    ¬(bit e 0 = false || (leafTier e == m.tier && m.channel.isNone)) = true := by
  rw [hbit]
  obtain htier | hchannel := hmove
  · simp [htier]
  · simp [hchannel]

section
variable (h : s.entryAt m.ctx va = some (pa, e)) (hbit : bit e 0 = true) (hmove : leafTier e ≠ m.tier ∨ m.channel ≠ none)
include h hbit hmove

theorem beginPage_noFrame (hframe : s.takeFrame m e = (u, none)) : s.beginPage m va = u.endMigration m stArg := by
  unfold State.beginPage
  rw [h]
  dsimp only
  rw [if_neg (beginPage_moves hbit hmove), hframe]

/-- A page's entries are written with V = 0 behind an INVTLB (R150). -/
theorem beginPage_frame {oa : Nat} (hframe : s.takeFrame m e = (u, some oa)) : s.beginPage m va =
    ((u.writeEntries pa e (e - 1)).issueInv 2 m.ctx va (leafSize e) false).updMigration m.id
      (fun m => { m with page := some (va, e, u.nextOp, oa), pages := m.pages.drop 1 }) := by
  unfold State.beginPage
  rw [h]
  dsimp only
  rw [if_neg (beginPage_moves hbit hmove), hframe]
end
end

/-- A page's bytes are copied and its entries written for the new frame; a fault that waits for it is tried again (R140, R150). -/
theorem finishPage_leaves {m : Migration} {va pa f : Nat} (e oa : Nat) (h : s.entryAt m.ctx va = some (pa, f)) :
    let w := (s.copyPage (leafTier e) (entryOut e) m.tier oa (leafSize e)).writeEntries pa e (withFrame e m.tier oa)
    let u := w.updMigration m.id (fun m => { m with page := none, moved := m.moved + 1, lastByte := some w.tick })
    s.finishPage m va e oa = u ∨ ∃ g ∈ u.faults, g.ctx = m.ctx ∧ s.finishPage m va e oa = { u with agenda := u.agenda ++ [.event (.pageFaultResolved g.ctx g.va)] } := by
  intro w u
  unfold State.finishPage
  rw [h]
  dsimp only
  split
  · next g hg =>
    have hhit := List.find?_some hg
    simp only [Bool.and_eq_true, beq_iff_eq] at hhit
    exact .inr ⟨g, List.mem_of_find?_eq_some hg, hhit.1.1, rfl⟩
  · exact .inl rfl

/-- A migration that ends: its last byte after its deadline counts once (R100, R474). -/
theorem endMigration_owned {m : Migration} {n id : Nat} (h : m.owner = some (n, id)) (st : Nat) :
    let u := { s with migrations := s.migrations.filter (fun w => w.id ≠ m.id) }
    ((∃ t, m.lastByte = some t ∧ m.deadline < t) ∧ m.pages = [] ∧ st = 0 → s.endMigration m st = (u.slip (clusterOf n)).endCommand n id st) ∧
    (¬((∃ t, m.lastByte = some t ∧ m.deadline < t) ∧ m.pages = [] ∧ st = 0) → s.endMigration m st = u.endCommand n id st) := by
  have hlate : (m.lastByte.any (fun t => decide (m.deadline < t)) && m.pages.isEmpty && st == 0) = true ↔
      (∃ t, m.lastByte = some t ∧ m.deadline < t) ∧ m.pages = [] ∧ st = 0 := by
    simp [Option.any_eq_true, and_assoc]
  unfold State.endMigration
  rw [h]
  dsimp only
  exact ⟨fun hl => by rw [if_pos (hlate.2 hl)]; rfl, fun hl => by rw [if_neg (mt hlate.1 hl)]; rfl⟩

theorem endMigration_mailbox {m : Migration} (h : m.owner = none) (hchannel : m.channel = none) (hup : s.cxlUp = true) (st : Nat) :
    answered s (s.endMigration m st) 0xC003 0 (bytesOfNat 8 m.moved ++ bytesOfNat 8 st) := by
  have hlink : (s.dropMigration m.id).cxlUp = true := hup
  unfold State.endMigration
  rw [h]
  dsimp only
  rw [hchannel, if_neg (by decide)]
  unfold State.reply
  rw [if_pos hlink]
  rfl

/-! ### Page faults (R140, R469, R491) -/

section
variable {ctx va : Nat}

theorem exec_pageFaultResolved (h : s.arrived ctx va = true) :
    let size := ((s.peekLeaf ctx va).map leafSize).getD 65536
    let base := va / size * size
    exec (.pageFaultResolved ctx va) s = .next ((({ s with faults := s.faults.filter (fun f =>
      !(f.ctx == ctx && decide (base < (f.page + 1) * 65536) && decide (f.page * 65536 < base + size))) } : State).retryRange ctx base size).retryFront) := by
  show execPageFaultResolved ctx va s = _
  unfold execPageFaultResolved
  rw [h]
  rfl

theorem exec_pageFaultResolved_invalid (h : s.arrived ctx va = false) : exec (.pageFaultResolved ctx va) s = .next s := by
  show execPageFaultResolved ctx va s = _
  unfold execPageFaultResolved
  rw [h]
  rfl

theorem exec_pageFaultUnresolvable_arrived (h : s.arrived ctx va = true) : exec (.pageFaultUnresolvable ctx va) s = .next s := by
  show execPageFaultUnresolvable ctx va s = _
  unfold execPageFaultUnresolvable
  rw [h]
  rfl

/-- A fault that no entry has ended: queues give up their own waits, and, once it has stood long enough, so does everything else (R469, R491). -/
theorem exec_pageFaultUnresolvable {s0 : State} (h : s0.arrived ctx va = false) :
    let page := va / 65536
    let s := s0.queues.foldl (fun s p => s.queueGivesUp p.1 p.2 ctx page) s0
    (s.faults.any (fun f => f.ctx == ctx && f.page == page && decide (f.since + 2 ^ 24 ≤ s.tick)) = true →
      let u := ({ s with faults := s.faults.filter (fun f => !(f.ctx == ctx && f.page == page)) } : State).event 0x401 0 (some ctx) 9 0 0 va stTranslation 0
      let v := u.cores.foldl (fun s p => s.commandsGiveUp p.1 ctx page) u
      let w := v.clusters.foldl (fun s p => p.2.reqQ.foldl (fun s r => s.requestGivesUp ctx page r) s) v
      exec (.pageFaultUnresolvable ctx va) s0 = .next (((w.dropWrites ctx page).dropWritebacks ctx page).retryFront)) ∧
    (s.faults.any (fun f => f.ctx == ctx && f.page == page && decide (f.since + 2 ^ 24 ≤ s.tick)) = false →
      exec (.pageFaultUnresolvable ctx va) s0 = .next s) := by
  intro page s
  have hexec : exec (.pageFaultUnresolvable ctx va) s0 = execPageFaultUnresolvable ctx va s0 := rfl
  rw [hexec]
  unfold execPageFaultUnresolvable
  rw [if_neg (by rw [h]; exact Bool.false_ne_true)]
  exact ⟨fun hlate => if_pos hlate, fun hearly => if_neg (by rw [hearly]; exact Bool.false_ne_true)⟩

/-- A command that waits on a page that has become valid is accepted again (R140). -/
theorem mem_retryRange {c : Core} {x : Command} {base len at' : Nat} (now : Nat) (hx : x ∈ c.queue0) (hstate : x.state = .fault at') (hctx : x.ctx = ctx)
    (hlo : base ≤ at') (hhi : at' < base + len) : { x with state := .accepted now } ∈ (c.retryRange ctx base len now).queue0 := by
  refine List.mem_map.2 ⟨x, hx, ?_⟩
  rw [hstate]
  exact if_pos ⟨hctx, hlo, hhi⟩

/-- The one command of a core that waits on a page ends with TRANSLATION when the page is given up (R469). -/
theorem commandsGiveUp_one {n page at' : Nat} {x : Command} (h0 : (s.core n).queue0 = [x]) (h1 : (s.core n).queue1 = []) (hstate : x.state = .fault at')
    (hctx : x.ctx = ctx) (hpage : at' / 65536 = page) (hop : isCpfx x.op = false) : s.commandsGiveUp n ctx page = s.endCommand n x.id stTranslation := by
  unfold State.commandsGiveUp
  rw [h0, h1]
  simp [hstate, hctx, hpage, hop]

theorem queueGivesUp_late {q page at' : Nat} {x : Queue} (hpark : x.park = some (.page ctx at')) (hpage : at' / 65536 = page)
    (hlate : x.parkSince + 2 ^ 24 ≤ s.tick) : s.queueGivesUp q x ctx page =
      if x.onImage = true then s.updQueue q (fun y => { y with state := 2, park := none, given := page :: y.given }) else s.queueError q 7 := by
  unfold State.queueGivesUp
  rw [hpark]
  exact if_pos ⟨rfl, hpage, hlate⟩
end
end

/-- Settles O54: each event by what it does in each of its cases. -/
theorem commandEvents : Obligations.CommandEvents := by
  refine ⟨fun s n id x b h hb => ?signal, fun s n id x h hwait hrun st l hl => ?pipe, fun s n id x h hstop => ?pipeStays,
    fun s n id due x h hstate hix hnew hfree =>
      ⟨fun st hst => exec_ixCommandStart_fails h hstate hix hnew hfree hst, exec_ixCommandStart_starts h hstate hix hnew hfree⟩,
    fun s n e x => ⟨exec_commandAccept_none, fun h => ?accept⟩, fun s n x => ⟨fun st h => acceptCommand_fails h, fun h hlist => ?now, fun h hlist => ?due⟩,
    fun s n id x h => ⟨exec_commandComplete_notReady h, exec_commandComplete_done h, fun st l hready hl => ?step⟩,
    fun s n id x _ hid => hid ▸ completeCommand_cases s n x,
    fun s u n x st bs => ⟨fun e h => stepCommand_fails h, fun w h => stepCommand_waits h, stepCommand_ok⟩,
    fun x since peer => ⟨waits_link_first, fun first h => waits_link_again h⟩, fun s n id since x h => ?timeouts,
    fun s n id st x b h hbar hw hst hpend hle => ?ends, invtlb_drops, fun s id v h => invtlbComplete_leaves h,
    fun s id m h => ⟨exec_migrationPage_last h, fun va l hpage hpages => ?nextPage, fun va e inv oa hpage hinv => ?behind, fun va e inv oa hpage hinv => ?moves⟩,
    fun s u m va pa e h => ⟨beginPage_passes h, fun hbit hmove => ⟨beginPage_noFrame h hbit hmove, fun oa hf => beginPage_frame h hbit hmove hf⟩⟩,
    fun s m va pa e f oa h => finishPage_leaves e oa h,
    fun s m st => ⟨fun n id h => endMigration_owned h st, fun h hchannel hup => endMigration_mailbox h hchannel hup st⟩,
    fun s ctx va h => ⟨exec_pageFaultResolved h, exec_pageFaultUnresolvable_arrived h⟩,
    fun c x ctx base len now va hx hstate hctx hlo hhi => mem_retryRange now hx hstate hctx hlo hhi,
    fun s ctx va h => exec_pageFaultResolved_invalid h, fun s0 ctx va h => exec_pageFaultUnresolvable h,
    fun s n ctx page va x h0 h1 hstate hctx hpage hop => commandsGiveUp_one h0 h1 hstate hctx hpage hop,
    fun s q ctx page va x hpark hpage hlate => queueGivesUp_late hpark hpage hlate⟩
  case signal =>
    rw [exec_cxferTargetSignal h hb]
    exact ⟨fun hruns => ⟨_, by rw [if_pos hruns], signal_leaves h _ b⟩, fun hruns => by rw [hruns]; rfl⟩
  case pipe => rw [exec_psendStore, exec_precvReceive, retryPipe_steps h hwait hrun hl]; exact ⟨rfl, rfl⟩
  case pipeStays => rw [exec_psendStore, exec_precvReceive, retryPipe_stays h hstop]; exact ⟨rfl, rfl⟩
  case accept =>
    rw [exec_commandAccept_some h]
    exact ⟨fun hheld => congrArg _ (if_neg (ne_true_of_eq_false hheld)), fun hheld => congrArg _ (if_pos hheld)⟩
  case now => rw [acceptCommand_accepts h, if_pos hlist]
  case due => rw [acceptCommand_accepts h, hlist]; rfl
  case step =>
    rw [exec_commandComplete_step h hready hl]
    exact ⟨fun hwaits => congrArg _ (if_pos hwaits), fun hwaits => congrArg _ (if_neg (ne_true_of_eq_false hwaits))⟩
  case timeouts =>
    refine ⟨fun hstate hdue => ?_, fun hstate hdue => ?_, fun hstate hearly => ?_, fun hstate hearly => ?_⟩
    · rw [exec_peerTimeout h hstate, if_pos hdue]
    · rw [exec_cxlLinkTimeout h hstate, if_pos hdue]
    · rw [exec_peerTimeout h hstate, if_neg (Nat.not_le.2 hearly)]
    · rw [exec_cxlLinkTimeout h hstate, if_neg (Nat.not_le.2 hearly)]
  case ends =>
    rw [endCommand_core h, hbar]
    exact endAt_fails _ b hst hw hpend hle
  case nextPage =>
    rw [exec_migrationPage_next h hpage hpages]
    exact ⟨fun hgone => congrArg _ (if_pos hgone), fun hgone => congrArg _ (if_neg (ne_true_of_eq_false hgone))⟩
  case behind => rw [exec_migrationPage_moving h hpage, if_pos hinv]
  case moves => rw [exec_migrationPage_moving h hpage, if_neg (ne_true_of_eq_false hinv)]

end Sys2Proof.Machine
end

section
/-! PROOF. FENCE, TRAP and BRKPT (R173, R368, R371): O28. -/

namespace Sys2Proof.Machine

section
variable {s : State}

/-- An operation without an effect leaves the core as it is, but for what the commit moves. -/
theorem leaves_id_of_effects {i : Instr} (h : Effects i s s) (hl : Last i s) : Leaves i s id :=
  ⟨_, h.trans (congrArg _ (finish_committed hl)), committed_onlyHere, committed_commits⟩

/-- A core with the join of a FENCE in both queues (R173, R368). -/
def Core.joining (i : Instr) (c : Core) : Core :=
  { c with queue0 := c.queue0 ++ [joinOf c i], queue1 := c.queue1 ++ [joinOf c i], nextCmd := c.nextCmd + 1 }

theorem effects_fence {m : Fin 4} {sc : Fin 8} {k : Fin 2} (hr : Ready (.fence m sc k) s) :
    Effects (.fence m sc k) s (s.upd (Core.joining (.fence m sc k))) := by
  show execFence m sc k s = _
  exact slotOp_ok hr rfl

/-- A join takes no entry of a queue (R368). -/
theorem queueLen_joining {i : Instr} (hi : isJoin i = true) (c : Core) (e : Fin 2) : (c.joining i).queueLen e = c.queueLen e := by
  have hqueue : (c.joining i).queue e = c.queue e ++ [joinOf c i] := by
    unfold Core.queue
    split <;> rfl
  have hop : (joinOf c i).op = i := rfl
  unfold Core.queueLen
  rw [hqueue, List.filter_append, List.filter_singleton, hop, hi]
  simp

theorem traps_trap {k : Fin 524288} (hr : Ready (.trap k) s) : Traps (.trap k) s ⟨0x30, k.val, 0⟩ := by
  show execTrap k s = _
  exact slotOp_trap hr rfl

theorem traps_brkpt {k : Fin 524288} (hr : Ready (.brkpt k) s) (hbe : s.view.csr.dbgBe = true) : Traps (.brkpt k) s ⟨0x31, k.val, 0⟩ := by
  show execBrkpt k s = _
  exact slotOp_trap hr (if_pos hbe)

theorem effects_brkpt {k : Fin 524288} (hr : Ready (.brkpt k) s) (hbe : s.view.csr.dbgBe = false) : Effects (.brkpt k) s s := by
  show execBrkpt k s = _
  exact slotOp_ok hr (if_neg (by rw [hbe]; exact Bool.false_ne_true))
end

/-- Settles O28: each is its action behind the checks of a slot, and a join is not counted in its queue. -/
theorem fencesAndSoftwareTraps : Obligations.FencesAndSoftwareTraps := by
  unfold Obligations.FencesAndSoftwareTraps
  exact ⟨fun s m sc k hr => ⟨changes_of_effects (effects_fence hr), queueLen_joining rfl s.cur⟩,
    fun s k => ⟨traps_trap, traps_brkpt, fun hr hbe => ⟨effects_brkpt hr hbe, leaves_id_of_effects (effects_brkpt hr hbe)⟩⟩⟩

end Sys2Proof.Machine
end

section
/-! PROOF. Operands inside one block (R155, R178, R179): what a read finds, what a partial write puts there, and what it leaves of other bytes. -/

namespace Sys2Proof.Machine

/-! ### Blocks that addresses share (R146, R147) -/

section
variable (s : State) (tier : Nat)

/-- The bytes of a block are in one domain, also where the tier has no channel. -/
theorem domain_add_any {x o : Nat} (hx : x % 128 = 0) (ho : o < 128) :
    (x + o) / s.domainBytes tier = x / s.domainBytes tier ∧ (x + o) % s.domainBytes tier = x % s.domainBytes tier + o ∧
      x % s.domainBytes tier % 128 = 0 := by
  by_cases hpos : 0 < (s.channels tier).length
  · exact domain_add s tier hpos hx ho
  · have hzero : s.domainBytes tier = 0 := by unfold State.domainBytes; omega
    simp only [hzero, Nat.div_zero, Nat.mod_zero, hx, and_self]

/-- An address is stored in the block of its first byte. -/
theorem blockOf_blockStart (a : Nat) : s.blockOf tier (a / 128 * 128) = s.blockOf tier a := by
  unfold State.blockOf
  split
  · obtain ⟨o, ho, hsum⟩ : ∃ o < 128, a - tierBase tier = (a / 128 * 128 - tierBase tier) + o :=
      ⟨a - tierBase tier - (a / 128 * 128 - tierBase tier), by have := tierBase_mod tier; omega⟩
    have halign : (a / 128 * 128 - tierBase tier) % 128 = 0 := by have := tierBase_mod tier; omega
    unfold State.storage State.place
    dsimp only
    rw [hsum]
    generalize a / 128 * 128 - tierBase tier = x at halign
    obtain ⟨hdiv, hmod, hstart⟩ := domain_add_any s tier halign ho
    rw [hdiv, hmod]
    have hchannel := slicePlace_channel_add (s.hashCode tier (x / s.domainBytes tier)) (s.channels tier).length hstart ho
    obtain ⟨hoffset, hrow⟩ := slicePlace_offset_add (s.hashCode tier (x / s.domainBytes tier)) (s.channels tier).length hstart ho
    rw [hchannel, hoffset]
    obtain ⟨k, hk⟩ := channelBytes_domains tier
    have hmul (c : Nat) : c * channelBytes tier % 128 = 0 := by rw [hk, ← Nat.mul_assoc]; omega
    have := hmul (nth (s.channels tier) (slicePlace (s.hashCode tier (x / s.domainBytes tier)) (s.channels tier).length (x % s.domainBytes tier)).1)
    have := tierBase_mod tier
    omega
  · omega

theorem blockOf_congr {a b : Nat} (h : a / 128 = b / 128) : s.blockOf tier a = s.blockOf tier b := by
  rw [← blockOf_blockStart s tier a, ← blockOf_blockStart s tier b, h]

theorem peekBlock_congr {a b : Nat} (h : a / 128 = b / 128) : s.peekBlock tier a = s.peekBlock tier b := by
  unfold State.peekBlock
  rw [blockOf_congr s tier h]

theorem unreadable_congr {a b : Nat} (h : a / 128 = b / 128) : s.unreadable tier a = s.unreadable tier b := by
  unfold State.unreadable State.tagFails
  rw [blockOf_congr s tier h]
end

theorem State.apart.symm {s : State} {t a u b : Nat} (h : s.apart t a u b) : s.apart u b t a := h.imp Ne.symm Ne.symm

/-! ### Bytes inside a block -/

section
variable {s t : State} {tier pa n : Nat}

theorem peek_length (h : pa % 128 + n ≤ 128) : (s.peek tier pa n).length = n := by
  unfold State.peek
  rw [List.length_take, List.length_drop, peekBlock_length]
  omega

theorem peek_getD {k : Nat} (hk : k < n) : (s.peek tier pa n).getD k 0 = (s.peekBlock tier pa).getD (pa % 128 + k) 0 := by
  unfold State.peek
  simp only [List.getD_eq_getElem?_getD]
  rw [List.getElem?_take_of_lt hk, List.getElem?_drop]

/-- Bytes that lie in a block at the place of an address are what a look at the address gives. -/
theorem peek_eq {bs : List Byte} (h : pa % 128 + bs.length ≤ 128)
    (hbs : ∀ k < bs.length, (s.peekBlock tier pa).getD (pa % 128 + k) 0 = bs.getD k 0) :
    s.peek tier pa bs.length = bs := by
  refine List.ext_getElem (peek_length h) fun k hk hk' => ?_
  have hbyte := (peek_getD (s := s) (tier := tier) (pa := pa) hk').trans (hbs k hk')
  rwa [List.getD_eq_getElem _ _ hk, List.getD_eq_getElem _ _ hk'] at hbyte

/-- Bytes that have been written are there. -/
theorem Written.peek_self {bs : List Byte} (hw : Written s t tier pa bs) (h : pa % 128 + bs.length ≤ 128) : t.peek tier pa bs.length = bs :=
  peek_eq h fun k hk => by rw [hw.1 _ (by omega), if_pos ⟨by omega, by omega⟩, Nat.add_sub_cancel_left]

/-- Bytes that a write does not reach stand: in another block, or beside it in its own. -/
theorem Written.peek_other {u a : Nat} {bs : List Byte} (hw : Written s t tier pa bs) (hfit : a % 128 + n ≤ 128)
    (hother : s.apart u a tier pa ∨ (u = tier ∧ a / 128 = pa / 128 ∧ (a + n ≤ pa ∨ pa + bs.length ≤ a))) : t.peek u a n = s.peek u a n := by
  have hlen := peek_length (s := s) (tier := u) hfit
  have hbytes (k : Nat) (hk : k < n) : (t.peekBlock u a).getD (a % 128 + k) 0 = (s.peekBlock u a).getD (a % 128 + k) 0 := by
    obtain hapart | ⟨rfl, hblock, hbeside⟩ := hother
    · rw [hw.2 u a hapart]
    · rw [peekBlock_congr t u hblock, peekBlock_congr s u hblock, hw.1 _ (by omega), if_neg (by omega)]
  have := peek_eq (s := t) (tier := u) (pa := a) (bs := s.peek u a n) (by rw [hlen]; exact hfit) fun k hk => by
    rw [hlen] at hk
    rw [hbytes k hk, peek_getD hk]
  rwa [hlen] at this

theorem State.SameStore.peek (h : s.SameStore t) (tier pa n : Nat) : t.peek tier pa n = s.peek tier pa n := by
  unfold State.peek
  rw [h.peekBlock]

/-- The low bytes of a number do not see what is above them. -/
theorem bytesOfNat_mod (n k : Nat) : bytesOfNat n (k % 2 ^ (8 * n)) = bytesOfNat n k := by
  have hback := bytesOfNat_natOfBytes (bytesOfNat n k)
  rwa [bytesOfNat_length, natOfBytes_bytesOfNat, show 256 ^ n = 2 ^ (8 * n) from (Nat.pow_mul 2 8 n).symm] at hback

theorem natOfBytes_peek_lt (h : pa % 128 + n ≤ 128) : natOfBytes (s.peek tier pa n) < 2 ^ (8 * n) := by
  have hlt := natOfBytes_lt (s.peek tier pa n)
  rwa [peek_length h, show 256 ^ n = 2 ^ (8 * n) from (Nat.pow_mul 2 8 n).symm] at hlt
end

/-! ### Reads (R435) -/

section
variable {s t : State} {tier pa : Nat}

theorem State.OnRecords.unreadable (h : s.OnRecords t) (tier pa : Nat) : t.unreadable tier pa = s.unreadable tier pa := by
  rw [unreadable_eq, unreadable_eq, h.tagFails, OnRecords_gmem h, h.sameStore.blockOf]

theorem readPage_readable {p : Page} (h : s.unreadable p.tier p.pa = false) (ctx n : Nat) :
    ∃ t, s.readPage ctx p n = (t, .ok (s.peek p.tier p.pa n)) ∧ s.OnRecords t := by
  obtain ⟨t, hread, ht⟩ := readHome_readable s h n
  refine ⟨t, ?_, ht⟩
  unfold State.readPage
  rw [hread]

/-! ### Partial writes (R155, R435) -/

/-- A block put into its memory leaves what is wrong with every other one. -/
theorem setGmem_putBlock_unreadable_other {u a : Nat} (h : (s.gmem tier).ordered) (hu : s.apart u a tier pa) (code : Nat) (l : List Byte) :
    (s.setGmem tier ((s.gmem tier).putBlock (s.blockOf tier pa) code l)).unreadable u a = s.unreadable u a := by
  rw [unreadable_eq, unreadable_eq]
  unfold State.tagFails
  rw [setGmem_blockOf]
  by_cases hhome : homeOf u = homeOf tier
  · have hne := hu.resolve_left (not_not_intro hhome)
    rw [gmem_eq_of_home _ hhome, gmem_setGmem_self, gmem_eq_of_home s hhome, block_putBlock_other h hne]
    have hbad : ((s.gmem tier).putBlock (s.blockOf tier pa) code l).bad.contains (s.blockOf u a) = (s.gmem tier).bad.contains (s.blockOf u a) := by
      simp [GMem.putBlock, hne]
    have hfails : ((s.gmem tier).putBlock (s.blockOf tier pa) code l).fails.any (fun w => w / 4 == s.blockOf u a) =
        (s.gmem tier).fails.any (fun w => w / 4 == s.blockOf u a) := by
      rw [Bool.eq_iff_iff, List.any_eq_true, List.any_eq_true]
      refine exists_congr fun w => ?_
      simp only [GMem.putBlock, List.mem_filter, decide_eq_true_eq, beq_iff_eq]
      exact ⟨fun ⟨⟨hw, _⟩, hb⟩ => ⟨hw, hb⟩, fun ⟨hw, hb⟩ => ⟨⟨hw, hb ▸ hne⟩, hb⟩⟩
    rw [hbad, hfails]
    rfl
  · rw [gmem_setGmem_other s hhome]

/-- `t` is `s` with bytes merged into one block that could be read: every other block can be read where it could, and every memory is in order
where it was. -/
structure State.Merges (s t : State) (tier pa : Nat) (bs : List Byte) : Prop where
  written : Written s t tier pa bs
  ordered : ∀ u, (s.gmem u).ordered → (t.gmem u).ordered
  blockOf : ∀ u a, t.blockOf u a = s.blockOf u a
  readable : t.unreadable tier pa = false
  others : ∀ u a, s.apart u a tier pa → t.unreadable u a = s.unreadable u a

theorem backInvalidate_leaves (s : State) (tier pa u a : Nat) : (s.backInvalidate tier pa).tagFails u a = s.tagFails u a ∧
    (s.backInvalidate tier pa).unreadable u a = s.unreadable u a := by
  unfold State.backInvalidate
  split <;> exact ⟨rfl, rfl⟩

/-- A block whose tag word can be read is put into its memory, and nothing else changes there. -/
theorem placeBlock_tagged (h : s.tagFails tier pa = false) (code : Nat) (l : List Byte) : ∃ v, s.SameStore v ∧
    (∀ u a, v.unreadable u a = s.unreadable u a) ∧ v.tagFails tier pa = false ∧
    s.placeBlock tier pa code l = v.setGmem tier ((v.gmem tier).putBlock (v.blockOf tier pa) code l) := by
  have hcount := countAccess_onRecords (s.backInvalidate tier pa) tier pa code true
  have htag : ((s.backInvalidate tier pa).countAccess tier pa code true).tagFails tier pa = false := by
    rw [hcount.tagFails, (backInvalidate_leaves s tier pa tier pa).1, h]
  refine ⟨_, (backInvalidate_sameStore s tier pa).trans hcount.sameStore, fun u a => ?_, htag, ?_⟩
  · rw [hcount.unreadable, (backInvalidate_leaves s tier pa u a).2]
  · unfold State.placeBlock
    dsimp only
    rw [htag, if_neg Bool.false_ne_true]

theorem tagFails_of_readable (h : s.unreadable tier pa = false) : s.tagFails tier pa = false := by
  rw [unreadable_eq] at h
  simp only [Bool.or_eq_false_iff] at h
  exact h.1.1.1

/-- The bytes of a block with some of them replaced, stored in the code that is chosen for them. -/
theorem placeBlock_merges {bs : List Byte} (hord : (s.gmem tier).ordered) (hfit : pa % 128 + bs.length ≤ 128) (hread : s.unreadable tier pa = false)
    (cmp : Bool) : let l := mergeBytes (s.peekBlock tier pa) (pa % 128) bs
    s.Merges (s.placeBlock tier pa (chooseCode cmp l) (storedBytes l (chooseCode cmp l))) tier pa bs := by
  intro l
  have hold := peekBlock_length s tier pa
  have hlen : l.length = 128 := mergeBytes_length hold hfit
  have hfits := codeFits_chooseCode cmp l
  obtain ⟨hin, -, hout⟩ := placeBlock_chosen (pa := pa) hord cmp hlen
  obtain ⟨v, hv, hbad, htag, heq⟩ := placeBlock_tagged (tagFails_of_readable hread) (chooseCode cmp l) (storedBytes l (chooseCode cmp l))
  refine ⟨⟨fun o ho => by rw [hin, mergeBytes_getD hold hfit], hout⟩, fun u hu => ?_, fun u a => ?_,
    placeBlock_readable hord (reservedCode_of_fits hfits) _, fun u a hu => ?_⟩
  · rw [heq]
    by_cases hhome : homeOf u = homeOf tier
    · rw [gmem_eq_of_home _ hhome, gmem_setGmem_self]
      exact putBlock_ordered (hv.ordered hord) _ _ _
    · rw [gmem_setGmem_other _ hhome]
      exact hv.ordered hu
  · rw [heq, setGmem_blockOf, hv.blockOf]
  · rw [heq, setGmem_putBlock_unreadable_other (hv.ordered hord) (by unfold State.apart at *; rwa [hv.blockOf, hv.blockOf]), hbad]

theorem State.Merges.of_onRecords {u : State} {bs : List Byte} (h : s.OnRecords t) (hm : t.Merges u tier pa bs) : s.Merges u tier pa bs := by
  have hstore := h.sameStore
  refine ⟨Written.of_sameStore hstore hm.written (.refl u), fun k hk => hm.ordered k (hstore.ordered hk), fun k a => ?_, hm.readable, fun k a hk => ?_⟩
  · rw [hm.blockOf, hstore.blockOf]
  · rw [hm.others k a (by unfold State.apart at *; rwa [hstore.blockOf, hstore.blockOf]), h.unreadable]

/-- A partial write of a block that can be read merges its bytes there (R155). -/
theorem placeHome_merges {bs : List Byte} (hord : (s.gmem tier).ordered) (hfit : pa % 128 + bs.length ≤ 128) (hpart : bs.length ≠ 128)
    (hread : s.unreadable tier pa = false) (cmp : Bool) : s.Merges (s.placeHome tier pa cmp bs).1 tier pa bs := by
  obtain ⟨t, hget, ht⟩ := readBlock_readable s hread
  have hm := placeBlock_merges (ht.sameStore.ordered hord) hfit ((ht.unreadable tier pa).trans hread) cmp
  rw [ht.sameStore.peekBlock] at hm
  unfold State.placeHome
  dsimp only
  rw [if_neg hpart, hget]
  exact .of_onRecords ht hm

/-- An operand read at its home, and its new value merged there as one act (R178). -/
theorem atomicHome_writes {n w : Nat} {cmp : Bool} {f : Nat → Option Nat} (hord : (s.gmem tier).ordered) (hfit : pa % 128 + n ≤ 128)
    (hread : s.unreadable tier pa = false) (hf : f (natOfBytes (s.peek tier pa n)) = some w) :
    ∃ t, s.atomicHome tier pa n cmp f = (t, some (natOfBytes (s.peek tier pa n))) ∧ Written s t tier pa (bytesOfNat n w) := by
  obtain ⟨t, hget, ht⟩ := readBlock_readable s hread
  have hm := placeBlock_merges (bs := bytesOfNat n w) (ht.sameStore.ordered hord) (by rwa [bytesOfNat_length])
    ((ht.unreadable tier pa).trans hread) cmp
  rw [ht.sameStore.peekBlock] at hm
  refine ⟨_, ?_, Written.of_sameStore ht.sameStore hm.written (wakeLine_sameStore _ tier pa)⟩
  unfold State.atomicHome
  rw [hget]
  dsimp only
  rw [show natOfBytes (((s.peekBlock tier pa).drop (pa % 128)).take n) = natOfBytes (s.peek tier pa n) from rfl, hf]
  rfl

/-- An operand read at its home for which nothing new is written (R332). -/
theorem atomicHome_keeps {n : Nat} {cmp : Bool} {f : Nat → Option Nat} (hread : s.unreadable tier pa = false)
    (hf : f (natOfBytes (s.peek tier pa n)) = none) :
    ∃ t, s.atomicHome tier pa n cmp f = (t, some (natOfBytes (s.peek tier pa n))) ∧ s.OnRecords t := by
  obtain ⟨t, hget, ht⟩ := readBlock_readable s hread
  refine ⟨t, ?_, ht⟩
  unfold State.atomicHome
  rw [hget]
  dsimp only
  rw [show natOfBytes (((s.peekBlock tier pa).drop (pa % 128)).take n) = natOfBytes (s.peek tier pa n) from rfl, hf]
end

/-! ### Two operands (R179) -/

/-- Two operands of one length that do not meet are in different blocks, or side by side in one. -/
def State.Beside (s : State) (p q : Page) (n : Nat) : Prop :=
  s.apart p.tier p.pa q.tier q.pa ∨ (p.tier = q.tier ∧ p.pa / 128 = q.pa / 128 ∧ (p.pa + n ≤ q.pa ∨ q.pa + n ≤ p.pa))

/-- Two writes performed as one leave both operands new (R179). -/
theorem writeBoth_peeks {s : State} {p q : Page} {n a b : Nat} (hbeside : s.Beside p q n) (hn : n < 128) (hp : p.pa % 128 + n ≤ 128)
    (hq : q.pa % 128 + n ≤ 128) (hpread : s.unreadable p.tier p.pa = false) (hqread : s.unreadable q.tier q.pa = false)
    (hpord : (s.gmem p.tier).ordered) (hqord : (s.gmem q.tier).ordered) :
    (s.writeBoth p q (bytesOfNat n a) (bytesOfNat n b)).peek p.tier p.pa n = bytesOfNat n a ∧
      (s.writeBoth p q (bytesOfNat n a) (bytesOfNat n b)).peek q.tier q.pa n = bytesOfNat n b := by
  have hlen (k : Nat) : (bytesOfNat n k).length = n := bytesOfNat_length n k
  have hfirst := placeHome_merges hpord (by rwa [hlen]) (by rw [hlen]; omega) hpread p.cmp (bs := bytesOfNat n a)
  generalize hu : (s.placeHome p.tier p.pa p.cmp (bytesOfNat n a)).1 = u at hfirst
  have huread : u.unreadable q.tier q.pa = false := by
    obtain hapart | ⟨htier, hblock, -⟩ := hbeside
    · rw [hfirst.others _ _ hapart.symm, hqread]
    · rw [← htier, ← unreadable_congr u p.tier hblock, hfirst.readable]
  have hsecond := placeHome_merges (hfirst.ordered _ hqord) (by rwa [hlen]) (by rw [hlen]; omega) huread q.cmp (bs := bytesOfNat n b)
  generalize hv : (u.placeHome q.tier q.pa q.cmp (bytesOfNat n b)).1 = v at hsecond
  have hwake : v.SameStore (s.writeBoth p q (bytesOfNat n a) (bytesOfNat n b)) := by
    unfold State.writeBoth
    dsimp only
    rw [hu, hv]
    exact (wakeLine_sameStore v _ _).trans (ite_sameStore (.refl _) (wakeLine_sameStore _ _ _))
  have hself := hfirst.written.peek_self (by rwa [hlen])
  have hself' := hsecond.written.peek_self (by rwa [hlen])
  rw [hlen] at hself hself'
  rw [hwake.peek, hwake.peek, hself', hsecond.written.peek_other hp ?_, hself]
  · exact ⟨rfl, rfl⟩
  · rw [hlen]
    refine hbeside.imp (fun hapart => ?_) id
    unfold State.apart at *
    rwa [hfirst.blockOf, hfirst.blockOf]

end Sys2Proof.Machine
end

section
/-! PROOF. Atomics, contributions, waits and wakes at their homes (R178-R181, R332-R337). -/

namespace Sys2Proof.Machine

/-! ### New values (R332, R333) -/

/-- The signed reading of a code is that of the word that holds it (R6, R186). -/
theorem signedOf_eq_toInt {w : Nat} (hw : 0 < w) (c : Nat) : signedOf w c = (BitVec.ofNat w c).toInt := by
  have hpow : 2 ^ w = 2 * 2 ^ (w - 1) := by rw [← Nat.pow_succ']; congr 1; omega
  unfold signedOf
  rw [BitVec.toInt_eq_toNat_cond, BitVec.toNat_ofNat]
  dsimp only
  rw [hpow]
  split
  · rw [if_pos (by omega)]
  · rw [if_neg (by omega)]

/-- The signed readings of codes of `w` bits differ. -/
theorem eq_of_toInt_eq {w o v : Nat} (ho : o < 2 ^ w) (hv : v < 2 ^ w) (h : (BitVec.ofNat w o).toInt = (BitVec.ofNat w v).toInt) : o = v := by
  have hnat := congrArg BitVec.toNat (BitVec.toInt_inj.1 h)
  rwa [BitVec.toNat_ofNat, BitVec.toNat_ofNat, Nat.mod_eq_of_lt ho, Nat.mod_eq_of_lt hv] at hnat

section
variable {w o v : Nat} (hw : 0 < w) (ho : o < 2 ^ w) (hv : v < 2 ^ w)
include hw ho hv

theorem pickInt_min_signed : pickInt w false true o v = if (BitVec.ofNat w o).toInt ≤ (BitVec.ofNat w v).toInt then o else v := by
  unfold pickInt intMinMax
  simp only [Bool.false_eq_true, if_true, if_false, signedOf_eq_toInt hw, decide_eq_true_eq]
  split
  · rw [if_pos (by omega)]
  · split
    · exact (eq_of_toInt_eq ho hv (by omega)).symm
    · rfl

omit ho hv in
theorem pickInt_max_signed : pickInt w true true o v = if (BitVec.ofNat w v).toInt ≤ (BitVec.ofNat w o).toInt then o else v := by
  unfold pickInt intMinMax
  simp only [if_true, signedOf_eq_toInt hw, decide_eq_true_eq]
  split
  · rw [if_neg (by omega)]
  · rw [if_pos (by omega)]

omit hw in
theorem pickInt_unsigned : pickInt w false false o v = min o v ∧ pickInt w true false o v = max o v := by
  unfold pickInt intMinMax
  simp only [Bool.false_eq_true, if_true, if_false, decide_eq_true_eq, Nat.mod_eq_of_lt ho, Nat.mod_eq_of_lt hv]
  constructor <;> split <;> omega

/-- The new value of a single-operand atomic is that of the tables of R332 and R333. -/
theorem newValue_eq_atomicValue {i : Instr} (hi : isSingle i = true) (fmt cmp : Nat) : newValue i w fmt o v cmp = atomicValue w fmt o v cmp i := by
  unfold isSingle at hi
  split at hi
  case h_6 => exact congrArg some (pickInt_min_signed hw ho hv)
  case h_7 => exact congrArg some (pickInt_max_signed hw)
  case h_8 => exact congrArg some (pickInt_unsigned ho hv).1
  case h_9 => exact congrArg some (pickInt_unsigned ho hv).2
  case h_12 =>
    unfold newValue atomicValue
    simp only [signedOf_eq_toInt hw]
  case h_13 => cases hi
  all_goals rfl
end

/-! ### A single operand (R178, R332) -/

theorem size_pos (x : Command) : 0 < x.size := by
  unfold Command.size
  split
  · unfold afaddFmt
    repeat' split
    all_goals decide
  · repeat' split
    all_goals decide

theorem atomicHomeStep_single {x : Command} (h : isSingle x.op = true) (s : State) (n : Nat) : s.atomicHomeStep n x = s.atomicStep n x := by
  unfold State.atomicHomeStep
  split
  case h_6 => rfl
  all_goals
    rename_i hop
    rw [hop] at h
    cases h

section
variable {s u v : State} {n : Nat} {x : Command} {p q : Page}

/-- What a single-operand atomic writes over old value `o` (R332, R333). -/
def Command.newOf (x : Command) (o : Nat) : Option Nat :=
  newValue x.op (8 * x.size) x.f.w o x.operand (nth x.slot 0 % 2 ^ (8 * x.size))

theorem atomicStep_page (hpage : s.accessBoth n x.ctx x.a.toNat = (u, .ok p)) : s.atomicStep n x =
    match u.atomicHome p.tier p.pa x.size p.cmp x.newOf with
    | (s, none) => (s.blockError (some x.ctx) p.tier p.pa p.va, .fail stData, [])
    | (s, some o) => (s, .ok, bytesOfNat 8 o) := by
  unfold State.atomicStep
  rw [hpage]
  rfl

/-- A single-operand atomic gives the old value, and leaves the new one where there is one (R178, R332). -/
theorem atomicStep_leaves (hop : isSingle x.op = true) (hpage : s.accessBoth n x.ctx x.a.toNat = (u, .ok p))
    (hread : u.unreadable p.tier p.pa = false) (hfit : p.pa % 128 + x.size ≤ 128) (hord : (u.gmem p.tier).ordered) :
    let o := natOfBytes (u.peek p.tier p.pa x.size)
    ∃ t, s.atomicHomeStep n x = (t, .ok, bytesOfNat 8 o) ∧
      match atomicValue (8 * x.size) x.f.w o (x.b.toNat % 2 ^ (8 * x.size)) (nth x.slot 0 % 2 ^ (8 * x.size)) x.op with
      | some v => Written u t p.tier p.pa (bytesOfNat x.size v)
      | none => sameData u t := by
  intro o
  have hvalue : x.newOf o = atomicValue (8 * x.size) x.f.w o (x.b.toNat % 2 ^ (8 * x.size)) (nth x.slot 0 % 2 ^ (8 * x.size)) x.op :=
    newValue_eq_atomicValue (by have := size_pos x; omega) (natOfBytes_peek_lt hfit) (Nat.mod_lt _ (Nat.two_pow_pos _)) hop _ _
  rw [atomicHomeStep_single hop, atomicStep_page hpage, ← hvalue]
  cases hnew : x.newOf o with
  | none =>
    obtain ⟨t, hhome, ht⟩ := atomicHome_keeps (cmp := p.cmp) hread hnew
    exact ⟨t, by rw [hhome], ht.sameData⟩
  | some w =>
    obtain ⟨t, hhome, ht⟩ := atomicHome_writes (cmp := p.cmp) hord hfit hread hnew
    exact ⟨t, by rw [hhome], ht⟩

/-! ### Two operands (R179, R334) -/

theorem atomicHomeStep_pair (h : isPair x.op = true) (s : State) (n : Nat) : s.atomicHomeStep n x = s.pairStep n x := by
  unfold isPair at h
  unfold State.atomicHomeStep
  split at h
  · next hop => rw [hop]
  · next hop => rw [hop]
  · cases h

theorem size_pair (h : isPair x.op = true) : x.size < 128 := by
  have hsize : x.size = if x.f.w = 0 then 4 else 8 := by
    unfold isPair at h
    unfold Command.size
    split at h
    · next hop => rw [hop]; rfl
    · next hop => rw [hop]; rfl
    · cases h
  rw [hsize]
  split <;> decide

/-- What ADCAS and AMOVE put into their operands, of old values `o` and `o'` (R334). -/
def Command.pairValue (x : Command) (o o' : Nat) : Option (Nat × Nat) :=
  let m := 2 ^ (8 * x.size)
  if isAdcas x.op = true then
    if o = nth x.slot 0 % m ∧ o' = nth x.slot 1 % m then some (nth x.slot 2 % m, nth x.slot 3 % m) else none
  else some (nth x.slot 0 % m, o)

theorem pairStep_overlap (hp : s.accessBoth n x.ctx x.a.toNat = (u, .ok p)) (hq : u.accessBoth n x.ctx x.b.toNat = (v, .ok q))
    (h : p.tier = q.tier ∧ overlap p.pa q.pa x.size = true) : s.pairStep n x = (v, .fail stOverlap, []) := by
  unfold State.pairStep
  rw [hp]
  dsimp only
  rw [hq]
  exact if_pos h

theorem pairStep_apart (hop : isPair x.op = true) (hp : s.accessBoth n x.ctx x.a.toNat = (u, .ok p))
    (hq : u.accessBoth n x.ctx x.b.toNat = (v, .ok q)) (h : ¬(p.tier = q.tier ∧ overlap p.pa q.pa x.size = true))
    (hpread : v.unreadable p.tier p.pa = false) (hqread : v.unreadable q.tier q.pa = false) :
    let o := natOfBytes (v.peek p.tier p.pa x.size)
    let o' := natOfBytes (v.peek q.tier q.pa x.size)
    ∃ t, v.OnRecords t ∧ s.pairStep n x =
      ((match x.pairValue o o' with
        | some k => t.writeBoth p q (bytesOfNat x.size k.1) (bytesOfNat x.size k.2)
        | none => t), .ok, bytesOfNat 8 o ++ bytesOfNat 8 o') := by
  obtain ⟨t, hget, ht⟩ := readPage_readable hpread x.ctx x.size
  obtain ⟨t', hget', ht'⟩ := readPage_readable ((ht.unreadable _ _).trans hqread) x.ctx x.size
  rw [ht.sameStore.peek] at hget'
  refine ⟨t', ht.trans ht', ?_⟩
  unfold State.pairStep
  rw [hp]
  dsimp only
  rw [hq]
  dsimp only
  rw [if_neg h, hget]
  dsimp only
  rw [hget']
  unfold isPair at hop
  unfold Command.pairValue
  split at hop
  · next hx => rw [hx]; rfl
  · next hx => rw [hx]; rfl
  · cases hop

/-- ADCAS and AMOVE change both operands or neither, and give both old values (R179, R334). -/
theorem pairStep_leaves (hop : isPair x.op = true) (hp : s.accessBoth n x.ctx x.a.toNat = (u, .ok p))
    (hq : u.accessBoth n x.ctx x.b.toNat = (v, .ok q)) (h : ¬(p.tier = q.tier ∧ overlap p.pa q.pa x.size = true))
    (hpread : v.unreadable p.tier p.pa = false) (hqread : v.unreadable q.tier q.pa = false) (hpfit : p.pa % 128 + x.size ≤ 128)
    (hqfit : q.pa % 128 + x.size ≤ 128) (hpord : (v.gmem p.tier).ordered) (hqord : (v.gmem q.tier).ordered)
    (hplace : v.apart p.tier p.pa q.tier q.pa ∨ (p.tier = q.tier ∧ p.pa / 128 = q.pa / 128)) :
    let o := natOfBytes (v.peek p.tier p.pa x.size)
    let o' := natOfBytes (v.peek q.tier q.pa x.size)
    let m := 2 ^ (8 * x.size)
    let swaps := isAdcas x.op = false ∨ (o = nth x.slot 0 % m ∧ o' = nth x.slot 1 % m)
    ∃ t, s.atomicHomeStep n x = (t, .ok, bytesOfNat 8 o ++ bytesOfNat 8 o') ∧
      (swaps → t.peek p.tier p.pa x.size = bytesOfNat x.size (if isAdcas x.op = true then nth x.slot 2 else nth x.slot 0) ∧
        t.peek q.tier q.pa x.size = bytesOfNat x.size (if isAdcas x.op = true then nth x.slot 3 else o)) ∧
      (¬swaps → sameData v t) := by
  intro o o' m swaps
  obtain ⟨t, ht, hstep⟩ := pairStep_apart hop hp hq h hpread hqread
  rw [atomicHomeStep_pair hop, hstep]
  refine ⟨_, rfl, fun hswaps => ?_, fun hkeeps => ?_⟩
  · have hvalue : x.pairValue o o' = some ((if isAdcas x.op = true then nth x.slot 2 % m else nth x.slot 0 % m),
        (if isAdcas x.op = true then nth x.slot 3 % m else o)) := by
      unfold Command.pairValue
      dsimp only
      by_cases hadcas : isAdcas x.op = true
      · rw [if_pos hadcas, if_pos hadcas, if_pos hadcas, if_pos (hswaps.resolve_left (by rw [hadcas]; decide))]
      · rw [if_neg hadcas, if_neg hadcas, if_neg hadcas]
    have hbeside : t.Beside p q x.size := by
      obtain hapart | ⟨htier, hblock⟩ := hplace
      · refine .inl ?_
        unfold State.apart at *
        rwa [ht.sameStore.blockOf, ht.sameStore.blockOf]
      · have hmeet : ¬(p.pa < q.pa + x.size ∧ q.pa < p.pa + x.size) := fun hlt => h ⟨htier, by simpa [overlap] using hlt⟩
        exact .inr ⟨htier, hblock, by omega⟩
    have hboth := writeBoth_peeks hbeside (size_pair hop) hpfit hqfit ((ht.unreadable _ _).trans hpread) ((ht.unreadable _ _).trans hqread)
      (ht.sameStore.ordered hpord) (ht.sameStore.ordered hqord) (a := if isAdcas x.op = true then nth x.slot 2 % m else nth x.slot 0 % m)
      (b := if isAdcas x.op = true then nth x.slot 3 % m else o)
    rw [hvalue]
    refine ⟨hboth.1.trans ?_, hboth.2.trans ?_⟩
    · split <;> exact bytesOfNat_mod _ _
    · split
      · exact bytesOfNat_mod _ _
      · rfl
  · obtain ⟨hadcas, hother⟩ := not_or.1 hkeeps
    have hvalue : x.pairValue o o' = none := by
      unfold Command.pairValue
      dsimp only
      rw [if_pos (Bool.eq_true_of_not_eq_false hadcas), if_neg hother]
    rw [hvalue]
    exact ht.sameData

/-! ### Contributions (R335, R405) -/

theorem aredStep_noFabric (hpage : s.access n x.ctx x.a.toNat true = (u, .ok p)) (htier : p.tier = 2) : s.aredStep n x = (u, .fail stWindow) := by
  have hfabric : u.fabricOf p = none := by simp only [State.fabricOf, htier]
  unfold State.aredStep
  rw [hpage]
  dsimp only
  rw [hfabric]

/-- A fabric address of this module is looked up in its windows (R335). -/
theorem aredStep_home {a : Nat} (hpage : s.access n x.ctx x.a.toNat true = (u, .ok p)) (htier : p.tier ≠ 2)
    (ha : a = if p.tier = 3 then p.pa else u.moduleNum.toNat * 2 ^ 42 + p.pa) (hhome : a / 2 ^ 42 = u.moduleNum.toNat) : s.aredStep n x =
      match u.windowAt a with
      | some w =>
        if u.moduleNum.toNat ∈ w.group then
          ({ u with agenda := u.agenda ++ [.event (.reductionContribution u.moduleNum.toNat a (Fin.ofNat 8 x.f.w) x.b)] }, .ok)
        else (u, .fail stWindow)
      | none => (u, .fail stWindow) := by
  have hfabric : u.fabricOf p = some a := by
    unfold State.fabricOf
    split
    · next h => exact absurd h htier
    · next h => rw [ha, if_pos h]
    · next h => rw [ha, if_neg h]
  unfold State.aredStep
  rw [hpage]
  dsimp only
  rw [hfabric]
  dsimp only
  rw [if_pos hhome]
  cases u.windowAt a with
  | none => rfl
  | some w => simp only [List.contains_iff_mem]

/-! ### WAITA and WAKE (R180, R181, R336, R337) -/

theorem State.OnRecords.armed {t : State} (h : s.OnRecords t) (cl : Nat) : t.armed cl = s.armed cl := by
  unfold State.armed
  rw [h.monitors, h.cores]

theorem waitaStep_read {t : State} {bs : List Byte} (hslot : x.slot = []) (hpage : s.access n x.ctx x.a.toNat false = (u, .ok p))
    (hread : u.readPage x.ctx p x.size = (t, .ok bs)) : s.waitaStep n x =
      let v := natOfBytes bs
      if v ≠ x.operand then (t, .ok, waitaResult 2 v)
      else if t.stopped n then (t, .wait .armed, [])
      else if (t.cluster (clusterOf n)).csr.moncap.toNat ≤ t.armed (clusterOf n) then (t, .ok, waitaResult 3 v)
      else ({ t with monitors := t.monitors ++ [⟨p.tier, p.pa, x.size, n, x.id⟩] }, .wait .armed, []) := by
  unfold State.waitaStep
  rw [hslot]
  dsimp only
  rw [hpage]
  dsimp only
  rw [hread]

/-- A WAITA that is not woken: MISMATCH, armed, or NOT_ARMED (R336). -/
theorem waitaStep_compares (hslot : x.slot = []) (hpage : s.access n x.ctx x.a.toNat false = (u, .ok p)) (hread : u.unreadable p.tier p.pa = false) :
    let v := natOfBytes (u.peek p.tier p.pa x.size)
    ∃ t, sameData u t ∧ t.monitors = u.monitors ∧
      (v ≠ x.operand → s.waitaStep n x = (t, .ok, bytesOfNat 8 2 ++ bytesOfNat 8 v)) ∧
      (v = x.operand → t.stopped n = true → s.waitaStep n x = (t, .wait .armed, [])) ∧
      (v = x.operand → t.stopped n = false → (u.cluster (clusterOf n)).csr.moncap.toNat ≤ u.armed (clusterOf n) →
        s.waitaStep n x = (t, .ok, bytesOfNat 8 3 ++ bytesOfNat 8 v)) ∧
      (v = x.operand → t.stopped n = false → u.armed (clusterOf n) < (u.cluster (clusterOf n)).csr.moncap.toNat →
        s.waitaStep n x = ({ t with monitors := t.monitors ++ [⟨p.tier, p.pa, x.size, n, x.id⟩] }, .wait .armed, [])) := by
  intro v
  obtain ⟨t, hget, ht⟩ := readPage_readable hread x.ctx x.size
  rw [waitaStep_read hslot hpage hget, ht.cluster, ht.armed]
  refine ⟨t, ht.sameData, ht.monitors, fun hne => if_pos hne, fun heq hstop => ?_, fun heq hstop hfull => ?_, fun heq hstop hfree => ?_⟩
  · exact (if_neg (not_not_intro heq)).trans (if_pos hstop)
  · exact (if_neg (not_not_intro heq)).trans ((if_neg (by rw [hstop]; exact Bool.false_ne_true)).trans (if_pos hfull))
  · exact (if_neg (not_not_intro heq)).trans ((if_neg (by rw [hstop]; exact Bool.false_ne_true)).trans (if_neg (Nat.not_le.2 hfree)))

/-- A WAITA that is woken gives its status and value, or DATA (R336, R435). -/
theorem waitaStep_woken {st k : Nat} (hslot : x.slot = [st, k]) :
    s.waitaStep n x = if st = 0 then (s, .fail stData, []) else (s, .ok, bytesOfNat 8 st ++ bytesOfNat 8 k) := by
  unfold State.waitaStep
  rw [hslot]
  cases st with
  | zero => rfl
  | succ st => rfl

/-- WAKE wakes the waiters of its line, and gives their number (R337). -/
theorem wakeStep_wakes (hpage : s.access n x.ctx x.a.toNat false = (u, .ok p)) :
    let l := u.monitors.filter (fun m => m.tier == p.tier && m.pa / 128 == p.pa / 128)
    let woken := if x.b = 0 then l else l.take x.b.toNat
    ∃ t, s.wakeStep n x = (t, .ok, bytesOfNat 8 woken.length) ∧ t.monitors = u.monitors.filter (fun m => !woken.contains m) := by
  intro l woken
  refine ⟨woken.foldl State.wake u, ?_, ?_⟩
  · unfold State.wakeStep
    rw [hpage]
  · rw [foldl_wake_monitors]
    exact List.filter_congr fun m _ => by rw [Bool.eq_iff_iff]; simp
end

end Sys2Proof.Machine
end

section
/-! PROOF. Pipes at their endpoints, and maps of regions (R328, R338-R341); what atomics, contributions, waits, wakes and pipes do at their homes:
O49. -/

namespace Sys2Proof.Machine

/-! ### Endpoints (R338) -/

section
variable {s t : State} {n p : Nat}

/-- An endpoint that is changed is found where it was, changed. -/
theorem endpoint_updEndpoint (s : State) (n p : Nat) {f : Endpoint → Endpoint} (hf : ∀ e, s.endpointIs n p (f e) = s.endpointIs n p e) :
    (s.updEndpoint n p f).endpoint n p = (s.endpoint n p).map f := by
  have hcl : ((s.updEndpoint n p f).cluster (clusterOf n)).endpoints =
      (s.cluster (clusterOf n)).endpoints.map (fun e => if s.endpointIs n p e then f e else e) := by
    unfold State.updEndpoint
    rw [State.cluster_updCluster]
  have his : (s.updEndpoint n p f).endpointIs n p = s.endpointIs n p := rfl
  have hsame : (s.endpointIs n p ∘ fun e => if s.endpointIs n p e then f e else e) = s.endpointIs n p := by
    funext e
    dsimp only [Function.comp]
    split
    · exact hf e
    · rfl
  unfold State.endpoint
  rw [hcl, his, List.find?_map, hsame]
  cases hfind : (s.cluster (clusterOf n)).endpoints.find? (s.endpointIs n p) with
  | none => rfl
  | some e => exact congrArg some (if_pos (List.find?_some hfind))

/-- The end of a command leaves every endpoint. -/
theorem State.TasksStay.endpoint (h : s.TasksStay t) (n p : Nat) : t.endpoint n p = s.endpoint n p := by
  have hteam : (t.core n).team = (s.core n).team := by rw [h.core n]
  have hcl : (t.cluster (clusterOf n)).endpoints = (s.cluster (clusterOf n)).endpoints := by rw [(h.cluster (clusterOf n)).same]
  have his : t.endpointIs n p = s.endpointIs n p := by
    funext e
    unfold State.endpointIs
    rw [hteam]
  unfold State.endpoint
  rw [hcl, his]

theorem tellReceiver_endpoint (s : State) (m q n p : Nat) : (s.tellReceiver m q).endpoint n p = s.endpoint n p := by
  obtain ⟨l, hl⟩ := tellReceiver_agenda s m q
  rw [hl]
  rfl

theorem tellSenders_endpoint (s : State) (m q n p : Nat) : (s.tellSenders m q).endpoint n p = s.endpoint n p := by
  obtain ⟨l, hl⟩ := tellSenders_agenda s m q
  rw [hl]
  rfl

/-! ### PSEND (R339) -/

/-- An endpoint at which command `id` of core `n` no longer waits to send. -/
def Endpoint.sent (n id : Nat) (e : Endpoint) : Endpoint := { e with senders := e.senders.filter (fun w => w ≠ (n, id)) }

/-- An endpoint with one more record (R339). -/
def Endpoint.store (rank : Nat) (bs : List Byte) (e : Endpoint) : Endpoint := { e with records := e.records ++ [(rank, bs)] }

/-- The PSENDs that wait at an endpoint, command `id` of core `n` among them, in the order in which they came. -/
def Endpoint.sendersWith (n id : Nat) (e : Endpoint) : List (Nat × Nat) := if e.senders.contains (n, id) then e.senders else e.senders ++ [(n, id)]

theorem mem_sendersWith (n id : Nat) (e : Endpoint) : (n, id) ∈ e.sendersWith n id := by
  unfold Endpoint.sendersWith
  split
  · next h => exact List.contains_iff_mem.1 h
  · simp

variable {x : Command} {r : Nat} {e : Endpoint}

theorem psendStep_noReceiver (h : s.receiver n x.f.d.val x.b.toNat = none) : s.psendStep n x = (s, .fail stRank) := by
  unfold State.psendStep
  dsimp only
  rw [h]

theorem psendStep_noEndpoint (h : s.receiver n x.f.d.val x.b.toNat = some r) (he : s.endpoint r x.f.d.val = none) :
    s.psendStep n x = (s, .fail stClosed) := by
  unfold State.psendStep
  dsimp only
  rw [h]
  dsimp only
  rw [he]

theorem psendStep_endpoint (h : s.receiver n x.f.d.val x.b.toNat = some r) (he : s.endpoint r x.f.d.val = some e) : s.psendStep n x =
    let p := x.f.d.val
    let u := s.updEndpoint r p (Endpoint.sent n x.id)
    if e.closed || (s.core n).closed.contains p then (u, .fail stClosed)
    else if e.records.length < e.depth ∧ (e.senders.head? = none ∨ e.senders.head? = some (n, x.id)) then
      (((u.updEndpoint r p (Endpoint.store (s.core n).csr.teamRank.toNat x.buf)).tellReceiver r p).tellSenders r p, .ok)
    else (u.updEndpoint r p (fun f => { f with senders := e.sendersWith n x.id }), .wait .waiting) := by
  unfold State.psendStep
  dsimp only
  rw [h]
  dsimp only
  rw [he]
  rfl

/-- A PSEND to an endpoint that is closed, or on a pipe that its member has closed, ends CLOSED (R339, R341). -/
theorem psendStep_closed (h : s.receiver n x.f.d.val x.b.toNat = some r) (he : s.endpoint r x.f.d.val = some e)
    (hclosed : e.closed = true ∨ x.f.d.val ∈ (s.core n).closed) : (s.psendStep n x).2 = .fail stClosed := by
  rw [psendStep_endpoint h he]
  dsimp only
  rw [if_pos (by simpa using hclosed)]

section
variable (h : s.receiver n x.f.d.val x.b.toNat = some r) (he : s.endpoint r x.f.d.val = some e) (hopen : e.closed = false)
  (hside : x.f.d.val ∉ (s.core n).closed)
include h he hopen hside

/-- A PSEND with room before it and no other that waits stores its record (R339). -/
theorem psendStep_stores (hroom : e.records.length < e.depth ∧ (e.senders.head? = none ∨ e.senders.head? = some (n, x.id))) :
    ∃ t, s.psendStep n x = (t, .ok) ∧
      (t.endpoint r x.f.d.val).map Endpoint.records = some (e.records ++ [((s.core n).csr.teamRank.toNat, x.buf)]) := by
  have hstep := psendStep_endpoint h he
  dsimp only at hstep
  rw [if_neg (by simpa using ⟨hopen, hside⟩), if_pos hroom] at hstep
  refine ⟨_, hstep, ?_⟩
  rw [tellSenders_endpoint, tellReceiver_endpoint, endpoint_updEndpoint, endpoint_updEndpoint, he]
  · rfl
  all_goals exact fun _ => rfl

/-- Another PSEND waits in its turn (R339). -/
theorem psendStep_waits (hroom : ¬(e.records.length < e.depth ∧ (e.senders.head? = none ∨ e.senders.head? = some (n, x.id)))) :
    ∃ t f, s.psendStep n x = (t, .wait .waiting) ∧ t.endpoint r x.f.d.val = some f ∧ f.records = e.records ∧ (n, x.id) ∈ f.senders := by
  have hstep := psendStep_endpoint h he
  dsimp only at hstep
  rw [if_neg (by simpa using ⟨hopen, hside⟩), if_neg hroom] at hstep
  refine ⟨_, { e with senders := e.sendersWith n x.id }, hstep, ?_, rfl, mem_sendersWith n x.id e⟩
  rw [endpoint_updEndpoint, endpoint_updEndpoint, he]
  · rfl
  all_goals exact fun _ => rfl
end

/-! ### PRECV (R340) -/

theorem precvStep_noEndpoint (he : s.endpoint n x.f.d.val = none) : s.precvStep n x = (s, .ok, bytesOfNat 8 2) := by
  unfold State.precvStep
  dsimp only
  rw [he]

/-- PRECV takes the oldest record, with its status (R340). -/
theorem precvStep_takes {rank : Nat} {bs : List Byte} {rest : List (Nat × List Byte)} (he : s.endpoint n x.f.d.val = some e)
    (hrec : e.records = (rank, bs) :: rest) : ∃ t, s.precvStep n x = (t, .ok, bs ++ bytesOfNat 8 (1 + rank * 2 ^ 16 + bs.length * 2 ^ 32)) ∧
      (t.endpoint n x.f.d.val).map Endpoint.records = some rest := by
  refine ⟨(s.updEndpoint n x.f.d.val (fun e => { e with records := rest })).tellSenders n x.f.d.val, ?_, ?_⟩
  · unfold State.precvStep
    dsimp only
    rw [he]
    dsimp only
    rw [hrec]
  · rw [tellSenders_endpoint, endpoint_updEndpoint, he]
    · rfl
    · exact fun _ => rfl

theorem precvStep_empty (he : s.endpoint n x.f.d.val = some e) (hrec : e.records = []) :
    s.precvStep n x = if s.pipeClosed n x.f.d.val = true then (s, .ok, bytesOfNat 8 2) else (s, .wait .waiting, []) := by
  unfold State.precvStep
  dsimp only
  rw [he]
  dsimp only
  rw [hrec]

/-! ### Steps (R332, R339, R340) -/

theorem atomicSteps_acts (x : Command) (n : Nat) : (x.atomicSteps n).map CStep.act =
    .home :: writeLocals n (x.c.toNat + 8 * x.f.imm) 0 x.slotWrites 0 false := pieceSteps_acts _ _

theorem psendSteps_acts (s : State) (n : Nat) (x : Command) :
    (s.psendSteps n x).map CStep.act = readLocals (x.a.toNat + 64 * x.f.imm) (s.recordSize n x false) ++ [.home] := pieceSteps_acts _ _

theorem precvSteps_acts (hdone : x.done ≠ 0) (n : Nat) : (x.precvSteps n).map CStep.act =
    .home :: (writeLocals n (x.a.toNat + 64 * x.f.imm) 0 (x.buf.length - 8) 0 true ++ writeLocals n x.c.toNat 0 8 (x.buf.length - 8) false) := by
  unfold Command.precvSteps
  dsimp only
  rw [pieceSteps_acts, if_neg hdone]
  rfl

/-! ### PCLOSE (R341) -/

theorem performPclose_sends (h : ((s.core n).pipe x.f.d.val false).isSome = true) : x.f.d.val ∈ ((s.performPclose n x).core n).closed := by
  unfold State.performPclose
  dsimp only
  rw [if_pos h, (endCommand_tasksStay _ n x.id 0).core n]
  exact (closeSend_pipesClose s n x.f.d.val).2

theorem closeRecv_endpoint (s : State) (n p : Nat) : (s.closeRecv n p).endpoint n p = (s.endpoint n p).map Endpoint.shut := by
  show ((s.updEndpoint n p Endpoint.shut).tellSenders n p).endpoint n p = _
  exact (tellSenders_endpoint _ _ _ _ _).trans (endpoint_updEndpoint _ _ _ fun _ => rfl)

theorem performPclose_receives (h : ((s.core n).pipe x.f.d.val false).isSome = false) (he : s.endpoint n x.f.d.val = some e) :
    (s.performPclose n x).endpoint n x.f.d.val = some e.shut := by
  unfold State.performPclose
  dsimp only
  rw [h, if_neg Bool.false_ne_true, (endCommand_tasksStay _ n x.id 0).endpoint, closeRecv_endpoint, he]
  rfl

/-! ### CMAP (R328) -/

/-- Region `k` of a core is mapped at `v`, or unmapped where `v` is 0 (R328). -/
def Core.MapsAt (c : Core) (k : Fin 16) (v : Nat) : Prop :=
  (v = 0 → c.rgn[k].mapped = false) ∧ (v ≠ 0 → c.rgn[k].mapped = true ∧ c.rgn[k].mapva = v)

theorem mapRegion_mapsAt (c : Core) (k : Fin 16) (v : Nat) : (c.mapRegion k v).MapsAt k v := by
  have hrgn : (c.mapRegion k v).rgn[k] =
      if v = 0 then { c.rgn[k] with mapped := false, mapva := 0 } else { c.rgn[k] with mapped := true, mapva := v } :=
    Vector.getElem_set_self _
  unfold Core.MapsAt
  rw [hrgn]
  exact ⟨fun hv => by rw [if_pos hv], fun hv => by rw [if_neg hv]; exact ⟨rfl, rfl⟩⟩

/-- Every core of a list maps the region. -/
theorem foldl_mapRegion_mapsAt (k : Fin 16) (v : Nat) (l : List Nat) : ∀ s : State, n ∈ l ∨ (s.core n).MapsAt k v →
    ((l.foldl (fun s m => s.updCore m (fun c => c.mapRegion k v)) s).core n).MapsAt k v := by
  induction l with
  | nil => exact fun s h => h.resolve_left List.not_mem_nil
  | cons m l ih =>
    intro s h
    refine ih _ ?_
    by_cases hm : n = m
    · subst hm
      rw [State.core_updCore]
      exact .inr (mapRegion_mapsAt _ k v)
    · rw [State.core_updCore_other _ _ hm]
      exact h.imp_left fun hn => (List.mem_cons.1 hn).resolve_left hm

/-- A core that holds a region is among those that share it (R107). -/
theorem mem_sharers {k : Fin 16} (h : (s.core n).rgn[k].valid = true) : n ∈ s.sharers n k := by
  unfold State.sharers
  dsimp only
  split
  · next hcommons =>
    have hn : clusterOf n * 8 + n % 8 = n := Nat.div_add_mod' n 8
    refine List.mem_filterMap.2 ⟨n % 8, List.mem_range.2 (Nat.mod_lt _ (by decide)), ?_⟩
    rw [hn, h, hcommons]
    simp
  · exact List.mem_singleton_self n

theorem updLocal_rgn (s : State) (m : Nat) (isCommons : Bool) (f : Local → Local) (n : Nat) :
    ((s.updLocal m isCommons f).core n).rgn = (s.core n).rgn := by
  cases isCommons
  · rw [updLocal_field]
    by_cases hn : n = m
    · rw [hn, State.core_updCore]
    · rw [State.core_updCore_other _ _ hn]
  · rfl

theorem performCmap_mapsAt (h : (s.core n).rgn[x.region].valid = true) : ((s.performCmap n x).core n).MapsAt x.region x.a.toNat := by
  have hmapped := foldl_mapRegion_mapsAt x.region x.a.toNat (s.sharers n x.region) s (.inl (mem_sharers h))
  unfold State.performCmap
  dsimp only
  unfold Core.MapsAt at *
  rw [(endCommand_tasksStay _ n x.id 0).core n]
  split
  · rw [updLocal_rgn]; exact hmapped
  · exact hmapped
end

/-- Settles O49: each operation by what it reads at its home, and what it leaves there. -/
theorem homeData : Obligations.HomeData := by
  refine ⟨fun s u n x p hop hpage hread hfit hord => atomicStep_leaves hop hpage hread hfit hord,
    fun s u v n x p q hop hp hq => ⟨fun h => (atomicHomeStep_pair hop s n).trans (pairStep_overlap hp hq h),
      fun h hpread hqread hpfit hqfit hpord hqord hplace => pairStep_leaves hop hp hq h hpread hqread hpfit hqfit hpord hqord hplace⟩,
    atomicSteps_acts, fun s u n a x p hpage => ⟨aredStep_noFabric hpage, fun htier ha hhome => ⟨fun w hw hin => ?window, fun hout => ?noWindow⟩⟩,
    fun s u n x p hslot hpage hread => waitaStep_compares hslot hpage hread, fun s n st v x hslot => waitaStep_woken hslot,
    fun s u n x p hpage => wakeStep_wakes hpage, fun s n x => ⟨psendStep_noReceiver, fun r hr => ⟨psendStep_noEndpoint hr, fun e he =>
      ⟨psendStep_closed hr he, fun hopen hside => ⟨psendStep_stores hr he hopen hside, psendStep_waits hr he hopen hside⟩⟩⟩⟩,
    fun s n x => ⟨precvStep_noEndpoint, fun e he => ⟨fun rank bs rest hrec => precvStep_takes he hrec, precvStep_empty he⟩⟩,
    fun s n x => ⟨psendSteps_acts s n x, fun hdone => precvSteps_acts hdone n⟩,
    fun s n x => ⟨performPclose_sends, fun h e he => ⟨e.shut, performPclose_receives h he, rfl, rfl⟩⟩, fun s n x h => ?cmap⟩
  case window => rw [aredStep_home hpage htier ha hhome, hw]; exact if_pos hin
  case noWindow =>
    rw [aredStep_home hpage htier ha hhome]
    cases hw : u.windowAt a with
    | none => rfl
    | some w => exact if_neg (hout w hw)
  case cmap =>
    obtain ⟨hunmaps, hmaps⟩ := performCmap_mapsAt h
    exact ⟨fun hz => hunmaps (by rw [hz]; rfl), fun hnz => hmaps fun hz => hnz (BitVec.eq_of_toNat_eq hz)⟩

end Sys2Proof.Machine
end

section
/-! PROOF. Elements and their places (R184, R186, R266): vectors made of elements, masks of whole elements, and flags gathered over elements. -/

namespace Sys2Proof.Machine

/-! ### Elements of a number -/

theorem el_lt (x w e : Nat) : el x w e < 2 ^ w := Nat.mod_lt _ (Nat.two_pow_pos w)

theorem unel_lt (w : Nat) (l : List Nat) : unel w l < 2 ^ (w * l.length) := by
  induction l with
  | nil => exact Nat.two_pow_pos _
  | cons x xs ih =>
    have hx : x % 2 ^ w < 2 ^ w := Nat.mod_lt _ (Nat.two_pow_pos w)
    calc x % 2 ^ w + 2 ^ w * unel w xs < 2 ^ w + 2 ^ w * unel w xs := by omega
      _ = 2 ^ w * (unel w xs + 1) := by ring
      _ ≤ 2 ^ w * 2 ^ (w * xs.length) := Nat.mul_le_mul_left _ ih
      _ = 2 ^ (w * (x :: xs).length) := by rw [← pow_add, List.length_cons]; ring_nf

theorem el_unel (w : Nat) (l : List Nat) (e : Nat) : el (unel w l) w e = l.getD e 0 % 2 ^ w := by
  unfold el
  induction l generalizing e with
  | nil => simp [unel]
  | cons x xs ih =>
    cases e with
    | zero => simp [unel]
    | succ e =>
      have hdiv : unel w (x :: xs) / 2 ^ w = unel w xs := by
        rw [unel, Nat.add_mul_div_left _ _ (Nat.two_pow_pos w), Nat.div_eq_of_lt (Nat.mod_lt _ (Nat.two_pow_pos w)), Nat.zero_add]
      rw [Nat.mul_succ, Nat.add_comm, pow_add, ← Nat.div_div_eq_div_mul, hdiv, ih, List.getD_cons_succ]

theorem el_ofNat_unel {m w : Nat} {l : List Nat} (h : w * l.length ≤ m) (e : Nat) : el (BitVec.ofNat m (unel w l)).toNat w e = l.getD e 0 % 2 ^ w := by
  rw [BitVec.toNat_ofNat, Nat.mod_eq_of_lt ((unel_lt w l).trans_le (Nat.pow_le_pow_right (by decide) h)), el_unel]

theorem el_vecOf {w : Nat} {l : List Nat} (h : w * l.length ≤ 2048) (e : Nat) : el (vecOf w l).toNat w e = l.getD e 0 % 2 ^ w := el_ofNat_unel h e

/-- A bit of a number stands in the element that its place falls in. -/
theorem testBit_el {w : Nat} (hw : 0 < w) (x k : Nat) : x.testBit k = (el x w (k / w)).testBit (k % w) := by
  rw [el, Nat.testBit_mod_two_pow, Nat.testBit_div_two_pow, Nat.mod_add_div, decide_eq_true (Nat.mod_lt k hw), Bool.true_and]

theorem getD_map_range {α : Type} (n : Nat) (f : Nat → α) (e : Nat) (d : α) : ((List.range n).map f).getD e d = if e < n then f e else d := by
  split
  · next h => rw [List.getD_eq_getElem _ _ (by simpa using h)]; simp
  · next h => exact List.getD_eq_default _ _ (by simpa using h)

/-! ### Formats -/

theorem Fmt.bits_pos (f : Fmt) : 0 < f.bits := by cases f <;> decide

/-- The elements of a format fill a vector. -/
theorem Fmt.bits_mul_lanes (f : Fmt) : f.bits * f.lanes = 2048 := by cases f <;> rfl

/-- No format of the vector unit is the four-bit one (R221). -/
theorem Fmt.ofCode_cases (c : Nat) : (Fmt.ofCode c).bits = 32 ∨ (Fmt.ofCode c).bits = 16 ∨ (Fmt.ofCode c).bits = 8 := by
  unfold Fmt.ofCode
  split <;> decide

theorem holdsElems_vecOf {f : Fmt} {l : List Nat} (h : l.length ≤ f.lanes) : holdsElems (vecOf f.bits l) f.bits f.lanes (fun e => l.getD e 0) :=
  fun e _ => el_vecOf ((Nat.mul_le_mul_left _ h).trans_eq f.bits_mul_lanes) e

theorem holdsElems_congr {v : Vec} {w n : Nat} {x y : Nat → Nat} (h : holdsElems v w n x) (hxy : ∀ e, e < n → x e % 2 ^ w = y e % 2 ^ w) : holdsElems v w n y :=
  fun e he => (h e he).trans (hxy e he)

/-- The bits of the elements that `on` selects. -/
theorem getLsbD_bitsOf (f : Fmt) (on : Nat → Bool) {k : Nat} (hk : k < 2048) : (bitsOf f.bits f.lanes on).getLsbD k = on (k / f.bits) := by
  have hlane : k / f.bits < f.lanes := Nat.div_lt_of_lt_mul (by rw [f.bits_mul_lanes]; exact hk)
  have hlen : f.bits * ((List.range f.lanes).map (fun e => if on e then 2 ^ f.bits - 1 else 0)).length ≤ 2048 := by
    rw [List.length_map, List.length_range, f.bits_mul_lanes]
  rw [BitVec.getLsbD, testBit_el f.bits_pos, bitsOf, el_vecOf hlen, getD_map_range, if_pos hlane]
  have hlt : 2 ^ f.bits - 1 < 2 ^ f.bits := Nat.sub_lt (Nat.two_pow_pos _) Nat.one_pos
  cases on (k / f.bits)
  · simp
  · simp [Nat.mod_eq_of_lt hlt, Nat.mod_lt k f.bits_pos]

/-! ### Flags -/

theorem getLsbD_foldl_or {α : Type} (p : α → Flags) (l : List α) (z : Flags) (k : Nat) :
    (l.foldl (fun a x => a ||| p x) z).getLsbD k = true ↔ z.getLsbD k = true ∨ ∃ x ∈ l, (p x).getLsbD k = true := by
  induction l generalizing z with
  | nil => simp
  | cons x xs ih => rw [List.foldl_cons, ih]; simp [or_assoc]

theorem foldl_or_zero {α : Type} (p : α → Flags) {l : List α} (h : ∀ x ∈ l, p x = 0) : l.foldl (fun a x => a ||| p x) 0 = 0 := by
  refine List.foldlRecOn (motive := fun a => a = 0) _ _ rfl fun a ha x hx => ?_
  rw [ha, h x hx]
  rfl

theorem flagsOf_range {α : Type} (p : α → Flags) (n : Nat) (x : Nat → α) :
    flagsOf (((List.range n).map x).foldl (fun a y => a ||| p y) 0) n (fun _ => true) (fun e => p (x e)) := by
  intro k
  rw [getLsbD_foldl_or p]
  simp

/-- The flags of the elements that `on` selects, of those formed and zeros elsewhere. -/
theorem flagsOf_foldl (n : Nat) (on : Nat → Bool) (x : Nat → Nat × Flags) :
    flagsOf (((List.range n).map (fun e => if on e then x e else (0, 0))).foldl (fun a y => a ||| y.2) 0) n on (fun e => (x e).2) := by
  intro k
  rw [getLsbD_foldl_or Prod.snd]
  constructor
  · rintro (h | ⟨y, hy, hk⟩)
    · simp at h
    · obtain ⟨e, he, rfl⟩ := List.mem_map.1 hy
      cases hon : on e with
      | false => simp [hon] at hk
      | true => exact ⟨e, List.mem_range.1 he, hon, by simpa [hon] using hk⟩
  · rintro ⟨e, he, hon, hk⟩
    exact .inr ⟨x e, List.mem_map.2 ⟨e, List.mem_range.2 he, if_pos hon⟩, hk⟩

end Sys2Proof.Machine
end

section
/-! PROOF. What a vector slot leaves (R196, R266, R268): a result for a destination, the lanes of a unit stepped, and an operation that forms each
element by itself. -/

namespace Sys2Proof.Machine

/-! ### Where a result goes -/

theorem Core.setRing_wp {c : Core} {q : Fin 16} {r : Ring} (h : r.wp = (c.ring q).wp) (p : Fin 16) : ((c.setRing q r).ring p).wp = (c.ring p).wp := by
  unfold Core.ring Core.setRing at *
  by_cases hp : p = q
  · subst hp; simpa using h
  · have hval : q.val ≠ p.val := fun hq => hp (Fin.ext hq.symm)
    simp [Vector.getElem_set_ne, hval]

theorem Core.toRing_wp (c : Core) (lat : Nat) (q : Fin 16) (p : Nat) (v : Vec) (r : Fin 16) : ((c.toRing lat q p v).ring r).wp = (c.ring r).wp :=
  Core.setRing_wp (c := c) (r := (c.ring q).mark .pending p 1) rfl r

/-- A vector result moves no write pointer. -/
theorem vecTo_wp (v : Core) (lat d : Nat) (x m : Vec) (c : Core) (q : Fin 16) : ((vecTo v lat d x m c).ring q).wp = (c.ring q).wp := by
  unfold vecTo
  split
  · rfl
  · exact Core.toRing_wp ..

theorem putVec_eq (s : State) (lat d : Nat) (x m : Vec) : s.putVec lat d x m = s.upd (vecTo s.view lat d x m) := by
  unfold State.putVec vecTo
  split <;> rfl

/-- A slot reads the core as it stood before the bundle, or, where no copy of it is kept, as a change has left it (R218). -/
theorem view_upd_cases (s : State) (f : Core → Core) : (s.upd f).view = s.view ∨ s.view = s.cur ∧ (s.upd f).view = f s.cur := by
  unfold State.view
  rw [State.cur_upd]
  show s.issue.pre.getD _ = _ ∨ _ ∧ s.issue.pre.getD _ = _
  cases s.issue.pre with
  | none => exact .inr ⟨rfl, rfl⟩
  | some c => exact .inl rfl

theorem view_upd_wp {s : State} {f : Core → Core} (hf : ∀ c q, ((f c).ring q).wp = (c.ring q).wp) (q : Fin 16) : ((s.upd f).view.ring q).wp = (s.view.ring q).wp := by
  rcases view_upd_cases s f with h | ⟨h, h'⟩
  · rw [h]
  · rw [h', h, hf]

/-- No flag raised leaves a core as it is. -/
theorem raise_none (c : Core) : c.raise 0 = c := by simp [Core.raise]

/-! ### The lanes of a unit -/

/-- The lanes that have an enabled element are the same, whether one looks past the last element or not. -/
theorem laneOn_below {f : Fmt} {w : Nat} (hw : w = 32 ∨ w = 16 ∨ w = 8) (hf : f.bits = w) (on : Nat → Bool) {l : Nat} (hl : l < 64) :
    laneOn w (fun e => decide (e < f.lanes) && on e) l = laneOn w on l := by
  have hn : f.lanes = 64 * (32 / w) := by rw [Fmt.lanes, hf]; rcases hw with rfl | rfl | rfl <;> rfl
  refine Bool.eq_iff_iff.2 ?_
  simp only [laneOn, List.any_eq_true, List.mem_range, Bool.and_eq_true, decide_eq_true_eq]
  refine exists_congr fun j => and_congr_right fun hj => and_iff_right ?_
  calc l * (32 / w) + j < (l + 1) * (32 / w) := by rw [Nat.succ_mul]; omega
    _ ≤ f.lanes := hn ▸ Nat.mul_le_mul_right _ hl

theorem stepLanes_congr {lf : Vector (BitVec 32) 128} {u : Nat} {on on' : Nat → Bool} (h : ∀ l < 64, on l = on' l) : stepLanes lf u on = stepLanes lf u on' :=
  List.foldl_ext _ _ _ fun a l hl => by rw [h l (List.mem_range.1 hl)]

/-- The lanes that an operation steps, by the elements that it selects (R196). -/
theorem stepLfsr_upd (s : State) (w n g : Nat) (F : Core → Core) :
    (s.stepLfsr w (fun e => decide (e < n) && s.view.enabled g e)).upd F = s.upd (fun c => F (stepsLanes s w n g c)) := by
  by_cases h : 4 ≤ s.view.rmode
  · simp only [State.stepLfsr, stepsLanes, Core.isSR, h, decide_true, if_true, State.upd_upd]
  · simp only [State.stepLfsr, stepsLanes, Core.isSR, h, decide_false, Bool.false_eq_true, if_false]

theorem stepLfsr_whole (s : State) (code g : Nat) :
    let f := Fmt.ofCode code
    s.stepLfsr f.bits (s.view.enabled g) = s.stepLfsr f.bits (fun e => decide (e < f.lanes) && s.view.enabled g e) := by
  intro f
  have hlanes (lf : Vector (BitVec 32) 128) : stepLanes lf s.vunit (laneOn f.bits (s.view.enabled g)) =
      stepLanes lf s.vunit (laneOn f.bits (fun e => decide (e < f.lanes) && s.view.enabled g e)) :=
    stepLanes_congr fun l hl => (laneOn_below (Fmt.ofCode_cases code) rfl _ hl).symm
  unfold State.stepLfsr
  simp only [hlanes]

/-- The step of the lanes changes nothing that a slot reads but the lanes' states. -/
theorem view_stepLfsr (s : State) (w : Nat) (on : Nat → Bool) : ∃ l, (s.stepLfsr w on).view = { s.view with vec := { s.view.vec with lfsr := l } } := by
  unfold State.stepLfsr
  split
  · rcases view_upd_cases s (fun c => { c with vec := { c.vec with lfsr := stepLanes c.vec.lfsr s.vunit (laneOn w on) } }) with h | ⟨h, h'⟩
    · exact ⟨_, h⟩
    · exact ⟨_, h'.trans (by rw [h])⟩
  · exact ⟨_, rfl⟩

theorem putVec_stepLfsr (s : State) (w n g lat d : Nat) (x m : Vec) :
    (s.stepLfsr w (fun e => decide (e < n) && s.view.enabled g e)).putVec lat d x m = s.upd (fun c => vecTo s.view lat d x m (stepsLanes s w n g c)) := by
  obtain ⟨l, hview⟩ := view_stepLfsr s w (fun e => decide (e < n) && s.view.enabled g e)
  rw [putVec_eq, hview, stepLfsr_upd]
  rfl

theorem onBits_stepLfsr (s : State) (w : Nat) (on : Nat → Bool) (f : Fmt) (g : Nat) : (s.stepLfsr w on).view.onBits f g = s.view.onBits f g := by
  obtain ⟨l, hview⟩ := view_stepLfsr s w on
  rw [hview]
  rfl

/-! ### Operations that form each element by itself -/

theorem elems_holds (c : Core) (f : Fmt) (g : Nat) (op : Nat → Nat × Flags) :
    holdsElems (c.elems f g op).1 f.bits f.lanes (fun e => if c.enabled g e then (op e).1 else 0) := by
  refine holdsElems_congr (holdsElems_vecOf (by simp)) fun e he => ?_
  rw [List.map_map, getD_map_range, if_pos he]
  cases h : c.enabled g e <;> simp [h]

theorem elems_flags (c : Core) (f : Fmt) (g : Nat) (op : Nat → Nat × Flags) : flagsOf (c.elems f g op).2 f.lanes (c.enabled g) (fun e => (op e).2) :=
  flagsOf_foldl f.lanes (c.enabled g) op

/-- The state that an elementwise operation leaves, `rounds` saying whether the lanes step first. -/
def State.formElems (s : State) (lat d : Nat) (f : Fmt) (g : Nat) (rounds : Bool) (op : Nat → Nat × Flags) : State :=
  (if rounds then s.stepLfsr f.bits (s.view.enabled g) else s).putElems lat d f g (s.view.elems f g op)

theorem formElems_eq (s : State) (lat d code g : Nat) (rounds : Bool) (op : Nat → Nat × Flags) :
    let f := Fmt.ofCode code
    s.formElems lat d f g rounds op = s.upd (fun c =>
      (vecTo s.view lat d (s.view.elems f g op).1 (s.view.onBits f g) (if rounds then stepsLanes s f.bits f.lanes g c else c)).raise (s.view.elems f g op).2) := by
  intro f
  unfold State.formElems State.putElems
  cases rounds with
  | false => simp only [Bool.false_eq_true, if_false, putVec_eq, State.upd_upd]
  | true => simp only [if_true, f, stepLfsr_whole, onBits_stepLfsr, putVec_stepLfsr, State.upd_upd]

/-- A ready operation that leaves elements formed by `op`, which are those of a description of it (R266). -/
theorem formsElements_of_slotOp {i : Instr} {s : State} {act : State → Except Trap State} {lat d code g : Nat} {rounds : Bool} {op elem : Nat → Nat × Flags}
    (hr : Ready i s) (hexec : exec i s = slotOp i act s) (hact : act s = .ok (s.formElems lat d (Fmt.ofCode code) g rounds op))
    (hcode : ∀ e, e < (Fmt.ofCode code).lanes → (op e).1 % 2 ^ (Fmt.ofCode code).bits = (elem e).1 % 2 ^ (Fmt.ofCode code).bits)
    (hflags : ∀ e, (op e).2 = (elem e).2) : FormsElements i s ⟨lat, d, Fmt.ofCode code, g, rounds, elem⟩ := by
  refine ⟨(s.view.elems (Fmt.ofCode code) g op).1, s.view.onBits (Fmt.ofCode code) g, (s.view.elems (Fmt.ofCode code) g op).2, changes_of_effects ?_, ?_, ?_, ?_⟩
  · have heff : Effects i s (s.formElems lat d (Fmt.ofCode code) g rounds op) := hexec.trans (slotOp_ok hr hact)
    rwa [formElems_eq] at heff
  · refine holdsElems_congr (x := fun e => if s.view.enabled g e then (op e).1 else 0) (elems_holds _ _ _ _) fun e he => ?_
    dsimp only
    split
    · exact hcode e he
    · rfl
  · exact fun k hk => getLsbD_bitsOf _ _ hk
  · have h := elems_flags s.view (Fmt.ofCode code) g op
    simpa only [hflags] using h

end Sys2Proof.Machine
end

section
/-! PROOF. Elementwise vector arithmetic (R193, R194, R197, R270, R271, R273): the integer operations and the functions as tables, and O33. -/

namespace Sys2Proof.Machine

/-! ### Integers of `w` bits (R273) -/

theorem toNat_natCast_emod (n w : Nat) : ((n : Int) % 2 ^ w).toNat = n % 2 ^ w := by
  have h : (n : Int) % 2 ^ w = ((n % 2 ^ w : Nat) : Int) := by push_cast; rfl
  rw [h, Int.toNat_natCast]

theorem wrapTo_eq (w : Nat) (z : Int) : wrapTo w z = (z % 2 ^ w).toNat := by unfold wrapTo; push_cast; rfl

theorem toNat_emod_lt (w : Nat) (z : Int) : (z % 2 ^ w).toNat < 2 ^ w := by
  have h := Int.emod_lt_of_pos z (by positivity : (0 : Int) < 2 ^ w)
  have h0 := Int.emod_nonneg z (by positivity : (2 : Int) ^ w ≠ 0)
  zify
  rwa [Int.toNat_of_nonneg h0]

/-- The signed reading of a code, written modulo 2^w, is the code. -/
theorem toInt_emod_of_lt {w x : Nat} (hx : x < 2 ^ w) : ((BitVec.ofNat w x).toInt % 2 ^ w).toNat = x := by
  have h := congrArg BitVec.toNat (BitVec.ofInt_toInt (x := BitVec.ofNat w x))
  rw [BitVec.toNat_ofInt, BitVec.toNat_ofNat, Nat.mod_eq_of_lt hx] at h
  exact_mod_cast h

section
variable {w : Nat} (hw : 0 < w)
include hw

/-- The least integer of `w` bits, written modulo 2^w. -/
theorem least_emod : (-(2 ^ (w - 1)) % 2 ^ w : Int).toNat = 2 ^ (w - 1) := by
  have hpow : (2 : Int) ^ w = 2 * 2 ^ (w - 1) := by rw [← pow_succ', Nat.sub_add_cancel hw]
  have hadd : (-(2 ^ (w - 1)) : Int) + 2 ^ w = ((2 ^ (w - 1) : Nat) : Int) := by rw [hpow]; push_cast; ring
  rw [← Int.add_emod_right, hadd, toNat_natCast_emod, Nat.mod_eq_of_lt (Nat.pow_lt_pow_right (by decide) (by omega))]

/-- The greatest. -/
theorem greatest_emod : ((2 ^ (w - 1) - 1) % 2 ^ w : Int).toNat = 2 ^ (w - 1) - 1 := by
  have hcast : (2 ^ (w - 1) - 1 : Int) = ((2 ^ (w - 1) - 1 : Nat) : Int) := by rw [Nat.cast_sub Nat.one_le_two_pow]; push_cast; rfl
  have hlt : 2 ^ (w - 1) < 2 ^ w := Nat.pow_lt_pow_right (by decide) (by omega)
  rw [hcast, toNat_natCast_emod, Nat.mod_eq_of_lt ((Nat.sub_le _ _).trans_lt hlt)]

theorem satTo_eq (z : Int) : satTo w z = (clampTo w z % 2 ^ w).toNat := by
  have hpos : (0 : Int) < 2 ^ (w - 1) := by positivity
  unfold satTo clampTo
  push_cast
  split
  · have hlow : max (-2 ^ (w - 1)) (min z (2 ^ (w - 1) - 1)) = -(2 ^ (w - 1)) := by omega
    rw [hlow, least_emod hw]
  · split
    · have hhigh : max (-2 ^ (w - 1)) (min z (2 ^ (w - 1) - 1)) = 2 ^ (w - 1) - 1 := by omega
      rw [hhigh, greatest_emod hw]
    · have hin : max (-2 ^ (w - 1)) (min z (2 ^ (w - 1) - 1)) = z := by omega
      rw [hin, wrapTo_eq]
end

theorem wrapTo_mod (w : Nat) (z : Int) : wrapTo w z % 2 ^ w = (z % 2 ^ w).toNat := by
  rw [wrapTo_eq, Nat.mod_eq_of_lt (toNat_emod_lt ..)]

theorem satTo_mod {w : Nat} (hw : 0 < w) (z : Int) : satTo w z % 2 ^ w = (clampTo w z % 2 ^ w).toNat := by
  rw [satTo_eq hw, Nat.mod_eq_of_lt (toNat_emod_lt ..)]

section
variable {w x y : Nat} (hw : 0 < w) (hx : x < 2 ^ w) (hy : y < 2 ^ w)
include hw hx hy

theorem intMinMax_min_signed : intMinMax w false true x y % 2 ^ w = (min (BitVec.ofNat w x).toInt (BitVec.ofNat w y).toInt % 2 ^ w).toNat := by
  refine (congrArg (· % 2 ^ w) (pickInt_min_signed hw hx hy)).trans ?_
  split
  · next h => rw [min_eq_left h, toInt_emod_of_lt hx, Nat.mod_eq_of_lt hx]
  · next h => rw [min_eq_right (not_le.1 h).le, toInt_emod_of_lt hy, Nat.mod_eq_of_lt hy]

theorem intMinMax_max_signed : intMinMax w true true x y % 2 ^ w = (max (BitVec.ofNat w x).toInt (BitVec.ofNat w y).toInt % 2 ^ w).toNat := by
  refine (congrArg (· % 2 ^ w) (pickInt_max_signed hw)).trans ?_
  split
  · next h => rw [max_eq_left h, toInt_emod_of_lt hx, Nat.mod_eq_of_lt hx]
  · next h => rw [max_eq_right (not_le.1 h).le, toInt_emod_of_lt hy, Nat.mod_eq_of_lt hy]
end

/-- An integer operation is one slot operation, whose element result is that of the table, modulo 2^w. -/
theorem intOp_slot {i : Instr} {d a b : Fin 64} {f : Fin 8} {g : Fin 16} {op : Nat → Nat → Nat → Int} (h : intOp i = some (d, a, b, f, g, op)) :
    ∃ m : Nat → Nat → Nat → Nat, (∀ s, exec i s = slotOp i (vecInt d a b f g m) s) ∧
      ∀ w x y, 0 < w → x < 2 ^ w → y < 2 ^ w → m w x y % 2 ^ w = (op w x y % 2 ^ w).toNat := by
  have hsum (w x y : Nat) : (x + y) % 2 ^ w % 2 ^ w = (((x : Int) + y) % 2 ^ w).toNat := by
    rw [Nat.mod_mod, ← toNat_natCast_emod]; push_cast; rfl
  have hprod (w x y : Nat) : x * y % 2 ^ w % 2 ^ w = (((x : Int) * y) % 2 ^ w).toNat := by
    rw [Nat.mod_mod, ← toNat_natCast_emod]; push_cast; rfl
  unfold intOp at h
  split at h
  case h_17 => cases h
  all_goals cases h
  case h_1 => exact ⟨_, fun s => (rfl : execViadd _ _ _ _ _ s = _), fun w x y _ _ _ => hsum w x y⟩
  case h_2 => exact ⟨_, fun s => (rfl : execVisub _ _ _ _ _ s = _), fun w _ _ _ _ _ => wrapTo_mod w _⟩
  case h_3 => exact ⟨_, fun s => (rfl : execVimul _ _ _ _ _ s = _), fun w x y _ _ _ => hprod w x y⟩
  case h_4 =>
    refine ⟨_, fun s => (rfl : execVimulh _ _ _ _ _ s = _), fun w x y hw _ _ => ?_⟩
    rw [wrapTo_mod, signedOf_eq_toInt hw, signedOf_eq_toInt hw]
    push_cast
    rfl
  case h_5 =>
    refine ⟨_, fun s => (rfl : execViadds _ _ _ _ _ s = _), fun w x y hw _ _ => ?_⟩
    rw [satTo_mod hw, signedOf_eq_toInt hw, signedOf_eq_toInt hw]
  case h_6 =>
    refine ⟨_, fun s => (rfl : execVisubs _ _ _ _ _ s = _), fun w x y hw _ _ => ?_⟩
    rw [satTo_mod hw, signedOf_eq_toInt hw, signedOf_eq_toInt hw]
  case h_7 => exact ⟨_, fun s => (rfl : execVimin _ _ _ _ _ s = _), fun w x y hw hx hy => intMinMax_min_signed hw hx hy⟩
  case h_8 => exact ⟨_, fun s => (rfl : execVimax _ _ _ _ _ s = _), fun w x y hw hx hy => intMinMax_max_signed hw hx hy⟩
  case h_9 =>
    exact ⟨_, fun s => (rfl : execViminn _ _ _ _ _ s = _),
      fun w _ _ _ hx hy => (congrArg (· % 2 ^ w) (pickInt_unsigned hx hy).1).trans (toNat_natCast_emod _ w).symm⟩
  case h_10 =>
    exact ⟨_, fun s => (rfl : execVimaxn _ _ _ _ _ s = _),
      fun w _ _ _ hx hy => (congrArg (· % 2 ^ w) (pickInt_unsigned hx hy).2).trans (toNat_natCast_emod _ w).symm⟩
  case h_11 => exact ⟨_, fun s => (rfl : execVand _ _ _ _ _ s = _), fun w _ _ _ _ _ => (toNat_natCast_emod _ w).symm⟩
  case h_12 => exact ⟨_, fun s => (rfl : execVor _ _ _ _ _ s = _), fun w _ _ _ _ _ => (toNat_natCast_emod _ w).symm⟩
  case h_13 => exact ⟨_, fun s => (rfl : execVxor _ _ _ _ _ s = _), fun w _ _ _ _ _ => (toNat_natCast_emod _ w).symm⟩
  case h_14 =>
    exact ⟨_, fun s => (rfl : execVshl _ _ _ _ _ s = _), fun w _ _ _ _ _ => (Nat.mod_mod ..).trans (toNat_natCast_emod _ w).symm⟩
  case h_15 => exact ⟨_, fun s => (rfl : execVshr _ _ _ _ _ s = _), fun w _ _ _ _ _ => (toNat_natCast_emod _ w).symm⟩
  case h_16 =>
    refine ⟨_, fun s => (rfl : execVsra _ _ _ _ _ s = _), fun w x y hw _ _ => ?_⟩
    rw [wrapTo_mod, signedOf_eq_toInt hw]
    push_cast
    rfl

theorem funOp_slot {i : Instr} {d a : Fin 64} {f : Fin 8} {g : Fin 16} {k : VFun} (h : funOp i = some (d, a, f, g, k)) (s : State) :
    exec i s = slotOp i (vecFun k d.val a.val f g) s := by
  unfold funOp at h
  split at h
  case h_7 => cases h
  all_goals
    cases h
    rfl

/-! ### Operations by the shape of their slot (R270, R271) -/

theorem xor_two_pow {n x : Nat} (hx : x < 2 ^ (n + 1)) : x ^^^ 2 ^ n = (x + 2 ^ n) % 2 ^ (n + 1) := by
  refine Nat.eq_of_testBit_eq fun j => ?_
  rw [Nat.testBit_xor, Nat.testBit_two_pow, Nat.testBit_mod_two_pow, Nat.add_comm x]
  rcases lt_trichotomy j n with hj | rfl | hj
  · rw [Nat.testBit_two_pow_add_gt hj]
    simp [hj.ne', Nat.lt_succ_of_lt hj]
  · rw [Nat.testBit_two_pow_add_eq]
    simp
  · have hhigh : x.testBit j = false := Nat.testBit_lt_two_pow (hx.trans_le (Nat.pow_le_pow_right (by decide) hj))
    simp [hhigh, hj.ne, Nat.not_lt.2 hj]

/-- The sign bit inverted is the sign bit added. -/
theorem xor_signBit {f : Fmt} {x : Nat} (hx : x < 2 ^ f.bits) : x ^^^ f.signBit = (x + 2 ^ (f.bits - 1)) % 2 ^ f.bits := by
  have hbits : f.bits - 1 + 1 = f.bits := Nat.sub_add_cancel f.bits_pos
  rw [← hbits] at hx
  rw [Fmt.signBit, xor_two_pow hx, hbits]

section
variable {i : Instr} {s : State} {f : Fin 8} {g : Fin 16} (hr : Ready i s)
include hr

theorem vecRound_forms {d a b : Nat} {op : Fmt → Bool → Round → Nat → Nat → Nat × Flags} (hexec : exec i s = slotOp i (vecRound d a b f g op) s) :
    let fm := Fmt.ofCode f.val
    FormsElements i s ⟨4, d, fm, g.val, true, fun e => op fm s.view.ftz (s.view.roundFor s.vunit fm.bits e) (s.src fm a e) (s.src fm b e)⟩ :=
  formsElements_of_slotOp hr hexec rfl (fun _ _ => rfl) (fun _ => rfl)

theorem vecFma_forms {d : Fin 32} {a b : Fin 64} {negProd negAdd : Bool} (hexec : exec i s = slotOp i (vecFma d a.val b.val f g negProd negAdd) s) :
    FormsElements i s (s.fused d a b f g negProd negAdd) :=
  formsElements_of_slotOp hr hexec rfl (fun _ _ => rfl) (fun _ => (BitVec.or_assoc ..).trans (congrArg _ (BitVec.or_comm ..)))

/-- An operation that rounds nothing; its elements count modulo 2^w. -/
theorem vecPlain_forms {lat d a b : Nat} {act : State → Except Trap State} {op : Fmt → Nat → Nat → Nat} {elem : Nat → Nat} (hexec : exec i s = slotOp i act s)
    (hact : act s = vecPlain lat d a b f.val g op s)
    (helem : let fm := Fmt.ofCode f.val; ∀ e, op fm (s.src fm a e) (s.src fm b e) % 2 ^ fm.bits = elem e % 2 ^ fm.bits) :
    FormsElements i s ⟨lat, d, Fmt.ofCode f.val, g.val, false, fun e => (elem e, 0)⟩ :=
  formsElements_of_slotOp (rounds := false) hr hexec hact (fun e _ => helem e) (fun _ => rfl)

theorem vecFun_forms {d a : Nat} {k : VFun} (hexec : exec i s = slotOp i (vecFun k d a f g) s) :
    let fm := Fmt.ofCode f.val
    FormsElements i s ⟨10, d, fm, g.val, true, fun e =>
      ftzOut fm s.view.ftz (k.result fm (s.view.roundFor s.vunit fm.bits e)
        (Config.functionCode k.code f.val s.view.rmode (if s.view.ftz then 1 else 0) (s.src fm a e)) (s.val fm a e))⟩ :=
  formsElements_of_slotOp hr hexec rfl (fun _ _ => rfl) (fun _ => rfl)

theorem vecMinMax_forms {max : Bool} {d a b : Fin 64} (hexec : exec i s = slotOp i (vecMinMax max d a b f g) s) :
    let fm := Fmt.ofCode f.val
    FormsElements i s ⟨4, d.val, fm, g.val, false, fun e => (minMaxElem fm s.view.ftz max (s.src fm a.val e) (s.src fm b.val e), 0)⟩ :=
  vecPlain_forms (op := fun fm x y => minMaxElem fm s.view.ftz max x y) hr hexec rfl (fun _ => rfl)

omit hr in
theorem vabs_forms {d a : Fin 64} (hr : Ready (.vabs d a f g) s) :
    let fm := Fmt.ofCode f.val
    FormsElements (.vabs d a f g) s ⟨4, d.val, fm, g.val, false, fun e => (s.src fm a.val e % 2 ^ (fm.bits - 1), 0)⟩ :=
  vecPlain_forms hr (rfl : execVabs d a f g s = _) rfl (fun _ => rfl)

omit hr in
theorem vneg_forms {d a : Fin 64} (hr : Ready (.vneg d a f g) s) :
    let fm := Fmt.ofCode f.val
    FormsElements (.vneg d a f g) s ⟨4, d.val, fm, g.val, false, fun e => ((s.src fm a.val e + 2 ^ (fm.bits - 1)) % 2 ^ fm.bits, 0)⟩ :=
  vecPlain_forms hr (rfl : execVneg d a f g s = _) rfl (fun _ => congrArg (· % _) (xor_signBit (el_lt ..)))
end

theorem elementwise_forms {i : Instr} {s : State} {x : Elementwise} (h : elementwise s i = some x) (hr : Ready i s) : FormsElements i s x := by
  unfold elementwise at h
  split at h
  case h_1 d a b f g => cases h; exact vecRound_forms (op := FOp.add.elem) hr (rfl : execVadd d a b f g s = _)
  case h_2 d a b f g => cases h; exact vecRound_forms (op := FOp.sub.elem) hr (rfl : execVsub d a b f g s = _)
  case h_3 d a b f g => cases h; exact vecRound_forms (op := FOp.mul.elem) hr (rfl : execVmul d a b f g s = _)
  case h_4 d a b f g => cases h; exact vecFma_forms hr (rfl : execVfma d a b f g s = _)
  case h_5 d a b f g => cases h; exact vecFma_forms hr (rfl : execVfms d a b f g s = _)
  case h_6 d a b f g => cases h; exact vecFma_forms hr (rfl : execVfnma d a b f g s = _)
  case h_7 d a b f g => cases h; exact vecMinMax_forms hr (rfl : execVmin d a b f g s = _)
  case h_8 d a b f g => cases h; exact vecMinMax_forms hr (rfl : execVmax d a b f g s = _)
  case h_9 => cases h; exact vabs_forms hr
  case h_10 => cases h; exact vneg_forms hr
  case h_11 =>
    split at h
    · next hi =>
      cases h
      obtain ⟨m, hexec, hm⟩ := intOp_slot hi
      refine vecPlain_forms hr (hexec s) rfl fun e => ?_
      exact (hm _ _ _ (Fmt.bits_pos _) (el_lt ..) (el_lt ..)).trans (Nat.mod_eq_of_lt (toNat_emod_lt ..)).symm
    · next hf => cases h; exact vecFun_forms hr (funOp_slot hf s)
    · cases h

/-- Settles O33: each operation leaves elements formed one by one, and the integer operations and the functions are tables. -/
theorem vectorElements : Obligations.VectorElements := by
  unfold Obligations.VectorElements
  exact fun _ _ _ => elementwise_forms

end Sys2Proof.Machine
end

section
/-! PROOF. Conversion and block quantisation (R208-R210, R277, R279, R280): lists cut into blocks, and O36. -/

namespace Sys2Proof.Machine

/-! ### Blocks -/

theorem chunks_map_range {α : Type} (b k : Nat) (f : Nat → α) :
    chunks b k ((List.range (b * k)).map f) = (List.range k).map (fun j => (List.range b).map (fun i => f (b * j + i))) := by
  induction k generalizing f with
  | zero => rfl
  | succ k ih =>
    have hsplit : (List.range (b * (k + 1))).map f = (List.range b).map f ++ (List.range (b * k)).map (fun i => f (b + i)) := by
      rw [Nat.mul_succ, Nat.add_comm, List.range_add, List.map_append, List.map_map]
      rfl
    have hlen : ((List.range b).map f).length = b := by simp
    rw [chunks, hsplit, List.take_left' hlen, List.drop_left' hlen, ih, List.range_succ_eq_map, List.map_cons, List.map_map]
    simp [Function.comp_def, Nat.mul_succ, Nat.add_comm, Nat.add_left_comm]

/-- An element of blocks of `b` put end to end stands in its block at its place there. -/
theorem getD_flatMap_range {b : Nat} (hb : 0 < b) {g : Nat → List Nat} (hg : ∀ j, (g j).length = b) (k e : Nat) :
    ((List.range k).flatMap g).getD e 0 = if e < b * k then (g (e / b)).getD (e % b) 0 else 0 := by
  induction k with
  | zero => simp
  | succ k ih =>
    have hlen : ((List.range k).flatMap g).length = b * k := by simp [List.length_flatMap, hg, Nat.mul_comm]
    rw [List.range_succ, List.flatMap_append, List.flatMap_singleton]
    by_cases h : e < b * k
    · rw [List.getD_append _ _ _ _ (hlen ▸ h), ih, if_pos h, if_pos (h.trans (Nat.mul_lt_mul_of_pos_left (Nat.lt_succ_self k) hb))]
    · rw [List.getD_append_right _ _ _ _ (hlen ▸ Nat.le_of_not_lt h), hlen]
      obtain ⟨i, rfl⟩ := Nat.exists_eq_add_of_le (Nat.le_of_not_lt h)
      rw [Nat.add_sub_cancel_left, Nat.mul_succ]
      by_cases hi : i < b
      · rw [if_pos (by omega), Nat.mul_add_div hb, Nat.div_eq_of_lt hi, Nat.add_zero, Nat.mul_add_mod, Nat.mod_eq_of_lt hi]
      · rw [if_neg (by omega), List.getD_eq_default _ _ (by rw [hg]; exact Nat.le_of_not_lt hi)]

theorem length_quantBlockOf (t : Nat) (xs : List (Option Exact)) : (quantBlockOf t xs).2.1.length = xs.length := by simp [quantBlockOf]

theorem quantBlock_pos (t : Nat) : 0 < quantBlock t := by
  unfold quantBlock
  split <;> decide

/-- Whole blocks fill a vector of any format of the vector unit. -/
theorem quantBlock_mul (t code : Nat) : quantBlock t * ((Fmt.ofCode code).lanes / quantBlock t) = (Fmt.ofCode code).lanes := by
  refine Nat.mul_div_cancel' ?_
  unfold quantBlock Fmt.lanes
  rcases Fmt.ofCode_cases code with h | h | h <;> rw [h] <;> split <;> decide

/-- A vector of a wider format holds no more elements than the codes of a target fill. -/
theorem lanes_le_quantFmt (t code : Nat) : (Fmt.ofCode code).lanes ≤ (quantFmt t).lanes := by
  have hq : 256 ≤ (quantFmt t).lanes := by
    unfold quantFmt
    split <;> decide
  refine le_trans ?_ hq
  unfold Fmt.lanes
  rcases Fmt.ofCode_cases code with h | h | h <;> rw [h] <;> decide

/-! ### VCVT (R277) -/

/-- What a conversion rounds: the value of the element, an integer as it stands and a float as FTZ reads it (R197, R277). -/
def State.cvtValue (s : State) (fm : Fmt) (a e : Nat) : Exact :=
  if fm.isInt then .ofInt (BitVec.ofNat fm.bits (s.src fm a e)).toInt else s.val fm a e

theorem valueOf_eq_cvtValue (s : State) (fm : Fmt) (a e : Nat) :
    valueOf fm (if fm.isInt then s.src fm a e else ftzIn fm s.view.ftz (s.src fm a e)) = s.cvtValue fm a e := by
  unfold valueOf State.cvtValue
  split
  · rw [signedOf_eq_toInt fm.bits_pos]
  · rfl

/-- The wider of two formats. -/
theorem bits_wider (df fm : Fmt) : (if df.bits < fm.bits then fm else df).bits = max df.bits fm.bits := by
  split <;> omega

/-- Element `e` of a conversion to `df` from `fm`, rounded once, with the random bits of its place (R196, R277). -/
def State.cvtElem (s : State) (df fm : Fmt) (a e : Nat) : Nat × Flags :=
  ftzOut df s.view.ftz (roundTo df (s.cvtValue fm a e) (s.view.roundFor s.vunit (max df.bits fm.bits) e))

/-- The elements that a conversion forms, 0 where the guard disables one. -/
def State.cvtElems (s : State) (df fm : Fmt) (a g : Nat) : List (Nat × Flags) :=
  (List.range (2048 / max df.bits fm.bits)).map (fun e => if s.view.enabled g e then s.cvtElem df fm a e else (0, 0))

theorem map_range_cvtElem (s : State) (df fm : Fmt) (a g : Nat) :
    (List.range (2048 / max df.bits fm.bits)).map (fun e => if s.view.enabled g e then
      ftzOut df s.view.ftz (roundTo df (valueOf fm (if fm.isInt then el (s.view.source fm a) fm.bits e else ftzIn fm s.view.ftz (el (s.view.source fm a) fm.bits e)))
        (s.view.roundFor s.vunit (max df.bits fm.bits) e)) else (0, 0)) = s.cvtElems df fm a g :=
  List.map_congr_left fun e _ => by rw [State.cvtElem, ← valueOf_eq_cvtValue]; rfl

theorem cvtElems_holds (s : State) (df fm : Fmt) (a g : Nat) : holdsElems (vecOf df.bits ((s.cvtElems df fm a g).map Prod.fst)) df.bits df.lanes
    (fun e => if e < 2048 / max df.bits fm.bits ∧ s.view.enabled g e = true then (s.cvtElem df fm a e).1 else 0) := by
  have hlen : ((s.cvtElems df fm a g).map Prod.fst).length ≤ df.lanes := by
    rw [List.length_map, State.cvtElems, List.length_map, List.length_range]
    exact Nat.div_le_div_left (le_max_left _ _) df.bits_pos
  refine holdsElems_congr (holdsElems_vecOf hlen) fun e _ => ?_
  rw [State.cvtElems, List.map_map, getD_map_range, ite_and]
  cases h : s.view.enabled g e <;> simp [h]

/-- What a conversion leaves: its elements below, zeros above, and the lanes stepped where it rounds (R277). -/
theorem vecCvt_eq (s : State) (d a : Fin 64) {f sf : Fin 8} (g : Fin 8) {df fm : Fmt} (hdf : Fmt.ofCode f.val = df) (hfm : Fmt.ofCode sf.val = fm) :
    vecCvt d a f sf g s = .ok (s.upd (fun c =>
      (vecTo s.view 6 d.val (vecOf df.bits ((s.cvtElems df fm a.val g.val).map Prod.fst))
        (bitsOf df.bits df.lanes (fun e => decide (2048 / max df.bits fm.bits ≤ e) || s.view.enabled g.val e))
        (if fm.isInt && df.isInt then c else stepsLanes s (max df.bits fm.bits) (2048 / max df.bits fm.bits) g.val c)).raise
          ((s.cvtElems df fm a.val g.val).foldl (fun a x => a ||| x.2) 0))) := by
  unfold vecCvt
  rw [hdf, hfm]
  have hw := bits_wider df fm
  have hn : (if df.bits < fm.bits then fm else df).lanes = 2048 / max df.bits fm.bits := congrArg (2048 / ·) hw
  simp only [hw, hn, map_range_cvtElem]
  split
  · rw [putVec_eq, State.upd_upd]
  · rw [putVec_stepLfsr, State.upd_upd]

theorem vcvt_converts {s : State} {d a : Fin 64} {f sf g : Fin 8} (hr : Ready (.vcvt d a f sf g) s) :
    let df := Fmt.ofCode f.val
    let fm := Fmt.ofCode sf.val
    let w := max df.bits fm.bits
    let n := 2048 / w
    ∃ (value mask : Vec) (fl : Flags),
      Changes (.vcvt d a f sf g) s (fun c =>
        (vecTo s.view 6 d.val value mask (if fm.isInt && df.isInt then c else stepsLanes s w n g.val c)).raise fl) ∧
      holdsElems value df.bits df.lanes (fun e => if e < n ∧ s.view.enabled g.val e = true then (s.cvtElem df fm a.val e).1 else 0) ∧
      (∀ k, k < 2048 → mask.getLsbD k = (decide (n ≤ k / df.bits) || s.view.enabled g.val (k / df.bits))) ∧
      flagsOf fl n (s.view.enabled g.val) (fun e => (s.cvtElem df fm a.val e).2) :=
  ⟨_, _, _, changes_of_effects ((rfl : _ = execVcvt d a f sf g s).trans (slotOp_ok hr (vecCvt_eq s d a g rfl rfl))), cvtElems_holds _ _ _ _ _,
    fun _ hk => getLsbD_bitsOf _ _ hk, flagsOf_foldl _ _ _⟩

/-! ### VQNT and VDQNT (R279, R280) -/

/-- Element `e` of the source of a VQNT, none where it is disabled (R208). -/
def State.quantSource (s : State) (fm : Fmt) (a g e : Nat) : Option Exact := if s.view.enabled g e then some (s.val fm a e) else none

/-- Block `k` of a VQNT: its scale, its codes and its flags (R209). -/
def State.quantised (s : State) (t : Nat) (fm : Fmt) (a g k : Nat) : Nat × List Nat × Flags :=
  quantBlockOf t ((List.range (quantBlock t)).map (fun j => s.quantSource fm a g (quantBlock t * k + j)))

theorem quantBlocks_eq (s : State) (t code a g : Nat) :
    let fm := Fmt.ofCode code
    (chunks (quantBlock t) (fm.lanes / quantBlock t) ((List.range fm.lanes).map (s.quantSource fm a g))).map (quantBlockOf t) =
      (List.range (fm.lanes / quantBlock t)).map (s.quantised t fm a g) := by
  intro fm
  have h := chunks_map_range (quantBlock t) (fm.lanes / quantBlock t) (s.quantSource fm a g)
  rw [quantBlock_mul] at h
  rw [h, List.map_map]
  rfl

/-- The codes of a VQNT, block after block. -/
def State.quantCodes (s : State) (t : Nat) (fm : Fmt) (a g : Nat) : List Nat :=
  (List.range (fm.lanes / quantBlock t)).flatMap (fun k => (s.quantised t fm a g k).2.1)

theorem length_quantised (s : State) (t : Nat) (fm : Fmt) (a g k : Nat) : (s.quantised t fm a g k).2.1.length = quantBlock t := by
  rw [State.quantised, length_quantBlockOf, List.length_map, List.length_range]

/-- The vector of codes and the vector of scales that a VQNT leaves (R209, R279). -/
def State.quantCodeVec (s : State) (t : Nat) (fm : Fmt) (a g : Nat) : Vec := vecOf (quantFmt t).bits (s.quantCodes t fm a g)
def State.quantScaleVec (s : State) (t : Nat) (fm : Fmt) (a g : Nat) : Vec :=
  vecOf 16 ((List.range (fm.lanes / quantBlock t)).map (fun k => (s.quantised t fm a g k).1))

theorem quantCodeVec_holds (s : State) (t code a g : Nat) :
    let fm := Fmt.ofCode code
    holdsElems (s.quantCodeVec t fm a g) (quantFmt t).bits (quantFmt t).lanes
      (fun e => if e < fm.lanes then (s.quantised t fm a g (e / quantBlock t)).2.1.getD (e % quantBlock t) 0 else 0) := by
  intro fm
  have hlen : (s.quantCodes t fm a g).length ≤ (quantFmt t).lanes := by
    simp only [State.quantCodes, List.length_flatMap, length_quantised, List.map_const', List.length_range, List.sum_replicate, smul_eq_mul]
    rw [Nat.mul_comm, quantBlock_mul]
    exact lanes_le_quantFmt t code
  refine holdsElems_congr (holdsElems_vecOf hlen) fun e _ => ?_
  rw [State.quantCodes, getD_flatMap_range (quantBlock_pos t) (length_quantised s t fm a g), quantBlock_mul]

theorem quantScaleVec_holds (s : State) (t code a g : Nat) :
    let fm := Fmt.ofCode code
    holdsElems (s.quantScaleVec t fm a g) 16 128 (fun k => if k < fm.lanes / quantBlock t then (s.quantised t fm a g k).1 else 0) := by
  intro fm e _
  have hn : fm.lanes / quantBlock t ≤ 128 := by
    have h8 : 8 ≤ quantBlock t := by unfold quantBlock; split <;> decide
    refine (Nat.div_le_div_left h8 (by decide)).trans ?_
    unfold fm Fmt.lanes
    rcases Fmt.ofCode_cases code with h | h | h <;> rw [h] <;> decide
  rw [State.quantScaleVec, el_vecOf (by rw [List.length_map, List.length_range]; omega), getD_map_range]

/-- A vector result and then a ring entry: the entry is the one at wp before either (R279). -/
theorem putVec_toRing (s : State) (lat d : Nat) (x m y : Vec) (q : Fin 16) :
    (s.putVec lat d x m).upd (fun c => c.toRing lat q ((s.putVec lat d x m).view.ring q).wp y) =
      s.upd (fun c => (vecTo s.view lat d x m c).toRing lat q (s.view.ring q).wp y) := by
  have hwp := view_upd_wp (s := s) (vecTo_wp s.view lat d x m) q
  rw [putVec_eq, State.upd_upd, hwp]

theorem vecQnt_eq (s : State) (d a : Fin 64) (f : Fin 8) (t : Fin 4) (q : Fin 16) (g : Fin 8) :
    let fm := Fmt.ofCode f.val
    vecQnt d a f t q g s = .ok (s.upd (fun c =>
      ((vecTo s.view 6 d.val (s.quantCodeVec t.val fm a.val g.val) (BitVec.allOnes 2048) c).toRing 6 q (s.view.ring q).wp (s.quantScaleVec t.val fm a.val g.val)).raise
        (((List.range (fm.lanes / quantBlock t.val)).map (s.quantised t.val fm a.val g.val)).foldl (fun a r => a ||| r.2.2) 0))) := by
  have hblocks := quantBlocks_eq s t.val f.val a.val g.val
  unfold State.quantSource State.val State.src at hblocks
  unfold vecQnt
  simp only [hblocks, List.flatMap_map, List.map_map, putVec_toRing, State.upd_upd]
  rfl

theorem vqnt_quantises {s : State} {d a : Fin 64} {f : Fin 8} {t : Fin 4} {q : Fin 16} {g : Fin 8} (hr : Ready (.vqnt d a f t q g) s) :
    let fm := Fmt.ofCode f.val
    let b := quantBlock t.val
    let block := s.quantised t.val fm a.val g.val
    ∃ (codes scales : Vec) (fl : Flags),
      Changes (.vqnt d a f t q g) s (fun c =>
        ((vecTo s.view 6 d.val codes (BitVec.allOnes 2048) c).toRing 6 q (s.view.ring q).wp scales).raise fl) ∧
      holdsElems codes (quantFmt t.val).bits (2048 / (quantFmt t.val).bits) (fun e => if e < fm.lanes then (block (e / b)).2.1.getD (e % b) 0 else 0) ∧
      holdsElems scales 16 128 (fun k => if k < fm.lanes / b then (block k).1 else 0) ∧
      flagsOf fl (fm.lanes / b) (fun _ => true) (fun k => (block k).2.2) :=
  ⟨_, _, _, changes_of_effects ((rfl : _ = execVqnt d a f t q g s).trans (slotOp_ok hr (vecQnt_eq s d a f t q g))), quantCodeVec_holds _ _ _ _ _,
    quantScaleVec_holds _ _ _ _ _, flagsOf_range (fun r : Nat × List Nat × Flags => r.2.2) _ _⟩

theorem vdqnt_forms {s : State} {d a : Fin 64} {f : Fin 8} {t : Fin 4} {q : Fin 16} {g : Fin 8} (hr : Ready (.vdqnt d a f t q g) s) :
    let fm := Fmt.ofCode f.val
    FormsElements (.vdqnt d a f t q g) s ⟨6, d.val, fm, g.val, false, fun e =>
      ftzOut fm s.view.ftz (roundTo fm (Exact.mul (floatValue (quantFmt t.val) (el (s.view.source fm a.val) (quantFmt t.val).bits e))
        (quantScale t.val (el (s.view.ring q).head.toNat 16 (e / quantBlock t.val)))).1 .rne)⟩ :=
  formsElements_of_slotOp (rounds := false) hr (rfl : execVdqnt d a f t q g s = _) rfl (fun _ _ => rfl) (fun _ => rfl)

/-- Settles O36: a conversion by its elements, quantisation by its blocks. -/
theorem vectorConversions : Obligations.VectorConversions := by
  unfold Obligations.VectorConversions
  exact ⟨fun _ _ _ _ _ _ => vcvt_converts, fun _ _ _ _ _ _ _ _ _ => vqnt_quantises, fun _ _ _ _ _ _ _ => vdqnt_forms⟩

end Sys2Proof.Machine
end

section
/-! PROOF. Reductions and scans (R205-R207, R282, R283): what the elements of a tree and of a scan stand for, round by round. -/

namespace Sys2Proof.Machine

/-! ### What an element stands for -/

/-- An element of a reduction stands for a list of values: none for the empty list, and a code for one that it sums up (R205). -/
def StandsFor (S : Nat → List Nat → Prop) : Option Nat → List Nat → Prop
  | none, l => l = []
  | some v, l => S v l

/-- The value at a place, if it is present. -/
def presentAt (on : Nat → Bool) (v : Nat → Nat) (e : Nat) : List Nat := if on e then [v e] else []

theorem flatMap_presentAt (on : Nat → Bool) (v : Nat → Nat) (l : List Nat) : l.flatMap (presentAt on v) = (l.filter on).map v := by
  induction l with
  | nil => rfl
  | cons x xs ih =>
    rw [List.flatMap_cons, ih, List.filter_cons]
    cases h : on x <;> simp [presentAt, h]

section
variable {S : Nat → List Nat → Prop} {op : Nat → Nat → Nat → Nat × Flags}
  (hop : ∀ e x y l m, S x l → S y m → S (op e x y).1 (l ++ m))
include hop

theorem combine_standsFor {e : Nat} {p q : Option Nat} {l m : List Nat} (hp : StandsFor S p l) (hq : StandsFor S q m) :
    StandsFor S (combine (op e) p q).1 (l ++ m) := by
  match p, q with
  | some x, some y => exact hop e x y l m hp hq
  | some x, none =>
    cases hq
    rw [List.append_nil]
    exact hp
  | none, q =>
    cases hp
    exact hq

/-- A level of the tree stands for the same values in the same order. -/
theorem treeLevel_standsFor {e : Nat} {l : List (Option Nat)} {ls : List (List Nat)} (h : List.Forall₂ (StandsFor S) l ls) :
    ∃ ls', List.Forall₂ (StandsFor S) (treeLevel op e l).1 ls' ∧ ls'.flatten = ls.flatten := by
  induction e, l using treeLevel.induct op generalizing ls with
  | case1 e p q rest ih =>
    obtain ⟨a, as, hp, has, rfl⟩ := List.forall₂_cons_left_iff.1 h
    obtain ⟨b, bs, hq, hbs, rfl⟩ := List.forall₂_cons_left_iff.1 has
    obtain ⟨ls', hrest, hflat⟩ := ih hbs
    exact ⟨(a ++ b) :: ls', .cons (combine_standsFor hop hp hq) hrest, by simp [hflat]⟩
  | case2 e l hl =>
    rw [treeLevel.eq_2 _ _ _ hl]
    exact ⟨ls, h, rfl⟩

omit hop in
theorem length_treeLevel (e : Nat) (l : List (Option Nat)) : (treeLevel op e l).1.length = (l.length + 1) / 2 := by
  induction e, l using treeLevel.induct op with
  | case1 e p q rest ih =>
    rw [treeLevel, List.length_cons, ih, List.length_cons, List.length_cons]
    omega
  | case2 e l hl =>
    rw [treeLevel.eq_2 _ _ _ hl]
    match l with
    | [] => rfl
    | [_] => simp
    | p :: q :: rest => exact (hl p q rest rfl).elim

theorem tree_standsFor {k : Nat} {l : List (Option Nat)} {ls : List (List Nat)} (h : List.Forall₂ (StandsFor S) l ls) (hlen : l.length = 2 ^ k) :
    StandsFor S (tree op k l).1 ls.flatten := by
  induction k generalizing l ls with
  | zero =>
    obtain ⟨p, rfl⟩ := List.length_eq_one_iff.1 hlen
    obtain ⟨a, as, hp, has, rfl⟩ := List.forall₂_cons_left_iff.1 h
    cases has
    simpa [tree] using hp
  | succ k ih =>
    obtain ⟨ls', hlevel, hflat⟩ := treeLevel_standsFor hop (e := 0) h
    rw [← hflat]
    exact ih hlevel (by rw [length_treeLevel, hlen, pow_succ]; omega)

/-- A round of a scan: each element then stands for twice as many values up to its place (R206). -/
theorem scanRound_standsFor {L : Nat → List Nat} {step : Nat} (hstep : 0 < step) {l : List (Option Nat)}
    (h : ∀ e, e < l.length → StandsFor S (l.getD e none) (((List.range (e + 1)).drop (e + 1 - step)).flatMap L)) (e : Nat) (he : e < l.length) :
    StandsFor S (((scanRound op step l).map Prod.fst).getD e none) (((List.range (e + 1)).drop (e + 1 - 2 * step)).flatMap L) := by
  have hget : ((scanRound op step l).map Prod.fst).getD e none =
      (if step ≤ e then combine (op e) (l.getD (e - step) none) (l.getD e none) else (l.getD e none, 0)).1 := by
    rw [List.getD_eq_getElem _ _ (by simpa [scanRound] using he)]
    simp [scanRound]
  rw [hget]
  split
  · next hle =>
    obtain ⟨m, rfl⟩ := Nat.exists_eq_add_of_le' hle
    have hsplit : (List.range (m + step + 1)).drop (m + step + 1 - 2 * step) =
        (List.range (m + 1)).drop (m + 1 - step) ++ (List.range (m + step + 1)).drop (m + step + 1 - step) := by
      have hrange : List.range (m + step + 1) = List.range (m + 1) ++ (List.range step).map (m + 1 + ·) := by
        rw [← List.range_add]; congr 1; omega
      rw [hrange, List.drop_append_of_le_length (by rw [List.length_range]; omega), List.drop_left' (by rw [List.length_range]; omega)]
      congr 2
      omega
    rw [hsplit, List.flatMap_append, Nat.add_sub_cancel]
    have hlow := h m (by omega)
    exact combine_standsFor hop hlow (h (m + step) he)
  · next hlt =>
    have hall (n : Nat) (hn : step ≤ n) : e + 1 - n = 0 := by omega
    have hsame := h e he
    rw [hall step le_rfl] at hsame
    rw [hall (2 * step) (by omega)]
    exact hsame

theorem scanRounds_standsFor {L : Nat → List Nat} {k step : Nat} (hstep : 0 < step) {l : List (Option Nat)}
    (h : ∀ e, e < l.length → StandsFor S (l.getD e none) (((List.range (e + 1)).drop (e + 1 - step)).flatMap L)) (e : Nat) (he : e < l.length) :
    StandsFor S ((scanRounds op k step l).1.getD e none) (((List.range (e + 1)).drop (e + 1 - 2 ^ k * step)).flatMap L) := by
  induction k generalizing step l with
  | zero => simpa [scanRounds] using h e he
  | succ k ih =>
    have hlen : ((scanRound op step l).map Prod.fst).length = l.length := by simp [scanRound]
    rw [pow_succ, Nat.mul_assoc]
    exact ih (Nat.mul_pos Nat.two_pos hstep) (fun j hj => scanRound_standsFor hop hstep h j (hlen ▸ hj)) (hlen.symm ▸ he)
end

theorem length_scanRounds (op : Nat → Nat → Nat → Nat × Flags) (k step : Nat) (l : List (Option Nat)) : (scanRounds op k step l).1.length = l.length := by
  induction k generalizing step l with
  | zero => rfl
  | succ k ih => rw [scanRounds, ih, List.length_map, scanRound, List.length_map, List.length_range]

/-! ### Operations that raise nothing -/

section
variable {op : Nat → Nat → Nat → Nat × Flags} (hop : ∀ e x y, (op e x y).2 = 0)
include hop

theorem combine_noFlags (e : Nat) (p q : Option Nat) : (combine (op e) p q).2 = 0 := by
  match p, q with
  | some x, some y => exact hop e x y
  | some _, none => rfl
  | none, _ => rfl

theorem treeLevel_noFlags (e : Nat) (l : List (Option Nat)) : (treeLevel op e l).2 = 0 := by
  induction e, l using treeLevel.induct op with
  | case1 e p q rest ih => rw [treeLevel, combine_noFlags hop, ih]; rfl
  | case2 e l hl => rw [treeLevel.eq_2 _ _ _ hl]

theorem tree_noFlags (k : Nat) (l : List (Option Nat)) : (tree op k l).2 = 0 := by
  induction k generalizing l with
  | zero => rfl
  | succ k ih => rw [tree, treeLevel_noFlags hop, ih]; rfl

theorem scanRounds_noFlags (k step : Nat) (l : List (Option Nat)) : (scanRounds op k step l).2 = 0 := by
  induction k generalizing step l with
  | zero => rfl
  | succ k ih =>
    have hround : (scanRound op step l).foldl (fun a x => a ||| x.2) 0 = 0 := by
      refine foldl_or_zero Prod.snd fun x hx => ?_
      obtain ⟨e, _, rfl⟩ := List.mem_map.1 hx
      split
      · exact combine_noFlags hop ..
      · rfl
    rw [scanRounds, hround, ih]
    rfl
end

end Sys2Proof.Machine
end

section
/-! PROOF. VRSUM, VRMAX, VRMIN and VSCAN (R205-R207, R282, R283): the values of the enabled elements summed, and their extremes. -/

namespace Sys2Proof.Machine

/-! ### Results that are written whole -/

theorem Fmt.two_pow_log2_lanes (code : Nat) : 2 ^ (Fmt.ofCode code).lanes.log2 = (Fmt.ofCode code).lanes := by
  unfold Fmt.lanes
  rcases Fmt.ofCode_cases code with h | h | h <;> rw [h] <;> decide

theorem putAll_eq (s : State) (lat d : Nat) (f : Fmt) (l : List Nat) : s.putAll lat d f l = s.upd (vecTo s.view lat d (vecOf f.bits l) (BitVec.allOnes 2048)) :=
  putVec_eq ..

/-- A whole vector after the lanes have stepped, and flags. -/
theorem putAll_stepLfsr (s : State) (lat d code g : Nat) (l : List Nat) :
    let f := Fmt.ofCode code
    (s.stepLfsr f.bits (s.view.enabled g)).putAll lat d f l =
      s.upd (fun c => vecTo s.view lat d (vecOf f.bits l) (BitVec.allOnes 2048) (stepsLanes s f.bits f.lanes g c)) := by
  intro f
  unfold State.putAll
  rw [stepLfsr_whole, putVec_stepLfsr]
  rfl

theorem writesAll_of_slotOp {i : Instr} {s : State} {act : State → Except Trap State} {lat d : Nat} {f : Fmt} {l : List Nat} {x : Nat → Nat} (hr : Ready i s)
    (hexec : exec i s = slotOp i act s) (hact : act s = .ok (s.upd (vecTo s.view lat d (vecOf f.bits l) (BitVec.allOnes 2048)))) (hlen : l.length ≤ f.lanes)
    (hx : ∀ e, e < f.lanes → l.getD e 0 % 2 ^ f.bits = x e % 2 ^ f.bits) : WritesAll i s lat d f.bits f.lanes x :=
  ⟨_, changes_of_effects (hexec.trans (slotOp_ok hr hact)), holdsElems_congr (holdsElems_vecOf hlen) hx⟩

/-! ### The elements that the guard enables (R205) -/

theorem length_present (c : Core) (f : Fmt) (x g : Nat) : (c.present f x g).length = f.lanes := by simp [Core.present]

/-- The integer elements that a reduction takes up. -/
def State.presentInts (s : State) (fm : Fmt) (a g : Nat) : List Nat := ((List.range fm.lanes).filter (s.view.enabled g)).map (s.src fm a)

section
variable {s : State} {code a g : Nat} {S : Nat → List Nat → Prop} {fm : Fmt} (hint : fm.isInt = true) (hS : ∀ v, S v [v])
include hint hS

theorem present_standsFor {e : Nat} (he : e < fm.lanes) :
    StandsFor S ((s.view.present fm (s.view.source fm a) g).getD e none) (presentAt (s.view.enabled g) (s.src fm a) e) := by
  have hget : (s.view.present fm (s.view.source fm a) g).getD e none = if s.view.enabled g e then some (s.src fm a e) else none := by
    rw [List.getD_eq_getElem _ _ (by rw [length_present]; exact he)]
    simp [Core.present, hint, State.src]
  rw [hget, presentAt]
  split
  · exact hS _
  · rfl

theorem present_forall₂ : List.Forall₂ (StandsFor S) (s.view.present fm (s.view.source fm a) g)
    ((List.range fm.lanes).map (presentAt (s.view.enabled g) (s.src fm a))) := by
  refine List.forall₂_iff_get.2 ⟨by rw [length_present, List.length_map, List.length_range], fun e he he' => ?_⟩
  have h := present_standsFor (s := s) (a := a) (g := g) hint hS (by rwa [length_present] at he)
  rw [List.getD_eq_getElem _ _ he] at h
  simpa using h

variable {op : Nat → Nat → Nat → Nat × Flags} (hop : ∀ e x y l m, S x l → S y m → S (op e x y).1 (l ++ m)) (hcode : fm = Fmt.ofCode code)
include hop hcode

theorem tree_present : StandsFor S (tree op fm.lanes.log2 (s.view.present fm (s.view.source fm a) g)).1 (s.presentInts fm a g) := by
  have h := tree_standsFor (k := fm.lanes.log2) hop (present_forall₂ (s := s) (a := a) (g := g) hint hS)
    (by rw [length_present, hcode]; exact (Fmt.two_pow_log2_lanes code).symm)
  rwa [← List.flatMap_def, flatMap_presentAt] at h

theorem scan_present {e : Nat} (he : e < fm.lanes) :
    StandsFor S ((scanRounds op fm.lanes.log2 1 (s.view.present fm (s.view.source fm a) g)).1.getD e none)
      (((List.range (e + 1)).filter (s.view.enabled g)).map (s.src fm a)) := by
  have h := scanRounds_standsFor (k := fm.lanes.log2) (step := 1) (L := presentAt (s.view.enabled g) (s.src fm a)) hop Nat.one_pos
    (l := s.view.present fm (s.view.source fm a) g) (fun j hj => ?_) e (by rwa [length_present])
  · have hall : e + 1 - 2 ^ fm.lanes.log2 * 1 = 0 := by rw [hcode, Fmt.two_pow_log2_lanes, ← hcode]; omega
    rwa [hall, List.drop_zero, flatMap_presentAt] at h
  · have hone : (List.range (j + 1)).drop (j + 1 - 1) = [j] := by
      rw [Nat.add_sub_cancel, List.range_succ, List.drop_left' List.length_range]
    rw [hone, List.flatMap_singleton]
    exact present_standsFor hint hS (by rwa [length_present] at hj)
end

/-! ### Sums (R205, R206) -/

/-- An element stands for the sum of some values modulo 2^w. -/
def SumsTo (w v : Nat) (l : List Nat) : Prop := v % 2 ^ w = l.sum % 2 ^ w

theorem sumOp_sumsTo {c : Core} {on : Nat → Bool} {u : Nat} {f : Fmt} (hint : f.isInt = true) (e x y : Nat) (l m : List Nat) (hx : SumsTo f.bits x l)
    (hy : SumsTo f.bits y m) : SumsTo f.bits (sumOp c on u f e x y).1 (l ++ m) := by
  unfold SumsTo at *
  rw [sumOp, if_pos hint, List.sum_append, Nat.mod_mod, Nat.add_mod, hx, hy, ← Nat.add_mod]

theorem sumOp_noFlags {c : Core} {on : Nat → Bool} {u : Nat} {f : Fmt} (hint : f.isInt = true) (e x y : Nat) : (sumOp c on u f e x y).2 = 0 := by
  rw [sumOp, if_pos hint]

theorem standsFor_sumsTo {w : Nat} {p : Option Nat} {l : List Nat} (h : StandsFor (SumsTo w) p l) : p.getD 0 % 2 ^ w = l.sum % 2 ^ w := by
  match p with
  | none => cases h; rfl
  | some _ => exact h

/-! ### Extremes (R207) -/

/-- The integer that an element holds. -/
def keyOf (w x : Nat) : Int := (BitVec.ofNat w x).toInt

/-- An element stands for the largest or the smallest of some values. -/
def Extreme (max : Bool) (w v : Nat) (l : List Nat) : Prop := v ∈ l ∧ ∀ x ∈ l, if max then keyOf w x ≤ keyOf w v else keyOf w v ≤ keyOf w x

theorem intMinMax_picks {w : Nat} (hw : 0 < w) (max : Bool) (x y : Nat) :
    intMinMax w max true x y = x ∧ (if max then keyOf w y ≤ keyOf w x else keyOf w x ≤ keyOf w y) ∨
      intMinMax w max true x y = y ∧ (if max then keyOf w x ≤ keyOf w y else keyOf w y ≤ keyOf w x) := by
  unfold intMinMax keyOf
  simp only [if_true, signedOf_eq_toInt hw, decide_eq_true_eq]
  cases max
  all_goals
    simp only [Bool.false_eq_true, if_true, if_false]
    split
    · simp; omega
    · simp; omega

theorem extreme_append {max : Bool} {w x y : Nat} {l m : List Nat} (hx : Extreme max w x l) (hxy : if max then keyOf w y ≤ keyOf w x else keyOf w x ≤ keyOf w y)
    (hy : Extreme max w y m) : Extreme max w x (l ++ m) ∧ Extreme max w x (m ++ l) := by
  obtain ⟨hmem, hbound⟩ := hx
  obtain ⟨-, hbound'⟩ := hy
  have h : ∀ z, z ∈ l ∨ z ∈ m → if max then keyOf w z ≤ keyOf w x else keyOf w x ≤ keyOf w z := by
    rintro z (hz | hz)
    · exact hbound z hz
    · have := hbound' z hz
      cases max
      · exact hxy.trans this
      · exact this.trans hxy
  exact ⟨⟨List.mem_append_left _ hmem, fun z hz => h z (List.mem_append.1 hz)⟩,
    ⟨List.mem_append_right _ hmem, fun z hz => h z (List.mem_append.1 hz).symm⟩⟩

theorem extremeOp_extreme {max : Bool} {c : Core} {on : Nat → Bool} {u : Nat} {f : Fmt} (hint : f.isInt = true) (e x y : Nat) (l m : List Nat)
    (hx : Extreme max f.bits x l) (hy : Extreme max f.bits y m) : Extreme max f.bits (extremeOp max c on u f e x y).1 (l ++ m) := by
  unfold extremeOp
  rw [if_pos hint]
  rcases intMinMax_picks f.bits_pos max x y with ⟨h, hxy⟩ | ⟨h, hxy⟩
  · exact h.symm ▸ (extreme_append hx hxy hy).1
  · exact h.symm ▸ (extreme_append hy hxy hx).2

theorem extreme_singleton (max : Bool) (w v : Nat) : Extreme max w v [v] := by
  refine ⟨List.mem_singleton_self v, fun x hx => ?_⟩
  cases List.mem_singleton.1 hx
  cases max
  · exact le_rfl
  · exact le_rfl

/-! ### The slots -/

section
variable {i : Instr} {s : State} {d a : Fin 64} {f : Fin 8} {g : Fin 16} {rounds : Bool}
  {op : Core → (Nat → Bool) → Nat → Fmt → Nat → Nat → Nat → Nat × Flags} {absent : Fmt → Nat} (hr : Ready i s)
  (hexec : exec i s = slotOp i (vecReduce d a f g rounds op absent) s)

/-- The tree of a reduction of the source (R205). -/
def State.reduced (s : State) (op : Core → (Nat → Bool) → Nat → Fmt → Nat → Nat → Nat → Nat × Flags) (fm : Fmt) (a g : Nat) : Option Nat × Flags :=
  tree (op s.view (s.view.enabled g) s.vunit fm) fm.lanes.log2 (s.view.present fm (s.view.source fm a) g)

theorem vecReduce_eq (s : State) : let fm := Fmt.ofCode f.val
    vecReduce d a f g rounds op absent s = .ok (s.upd (fun c =>
      (vecTo s.view 8 d.val (vecOf fm.bits [(s.reduced op fm a.val g.val).1.getD (absent fm)]) (BitVec.allOnes 2048)
        (if rounds && !fm.isInt then stepsLanes s fm.bits fm.lanes g.val c else c)).raise (s.reduced op fm a.val g.val).2)) := by
  intro fm
  unfold vecReduce
  dsimp only
  cases rounds && !fm.isInt with
  | false => rw [if_neg Bool.false_ne_true, putAll_eq, State.upd_upd]; rfl
  | true => rw [if_pos rfl, putAll_stepLfsr, State.upd_upd]; rfl

include hr hexec

/-- A reduction: the value of the tree in element 0 and 0 above, and the flags of its combines (R282). -/
theorem vecReduce_changes : let fm := Fmt.ofCode f.val
    ∃ value : Vec, Changes i s (fun c => (vecTo s.view 8 d.val value (BitVec.allOnes 2048)
        (if rounds && !fm.isInt then stepsLanes s fm.bits fm.lanes g.val c else c)).raise (s.reduced op fm a.val g.val).2) ∧
      holdsElems value fm.bits fm.lanes (fun e => if e = 0 then (s.reduced op fm a.val g.val).1.getD (absent fm) else 0) := by
  intro fm
  have hone : 0 < fm.lanes := Nat.pos_of_mul_pos_left (fm.bits_mul_lanes.symm ▸ (by decide : 0 < 2048))
  refine ⟨_, changes_of_effects (hexec.trans (slotOp_ok hr (vecReduce_eq s))), holdsElems_congr (holdsElems_vecOf hone) fun e _ => ?_⟩
  cases e <;> rfl

/-- A reduction that raises nothing and steps no lane. -/
theorem vecReduce_writes {x : Nat} (hsteps : (rounds && !(Fmt.ofCode f.val).isInt) = false) (hflags : (s.reduced op (Fmt.ofCode f.val) a.val g.val).2 = 0)
    (hx : (s.reduced op (Fmt.ofCode f.val) a.val g.val).1.getD (absent (Fmt.ofCode f.val)) % 2 ^ (Fmt.ofCode f.val).bits = x % 2 ^ (Fmt.ofCode f.val).bits) :
    WritesAll i s 8 d.val (Fmt.ofCode f.val).bits (Fmt.ofCode f.val).lanes (fun e => if e = 0 then x else 0) := by
  obtain ⟨value, hchanges, hholds⟩ := vecReduce_changes hr hexec
  simp only [hsteps, hflags, raise_none, Bool.false_eq_true, if_false] at hchanges
  refine ⟨value, hchanges, holdsElems_congr hholds fun e _ => ?_⟩
  split
  · exact hx
  · rfl
end

section
variable {s : State} {d a : Fin 64} {f : Fin 8} {g : Fin 16} (hint : (Fmt.ofCode f.val).isInt = true)
include hint

theorem vrsum_int (hr : Ready (.vrsum d a f g) s) : let fm := Fmt.ofCode f.val
    WritesAll (.vrsum d a f g) s 8 d.val fm.bits fm.lanes (fun e => if e = 0 then (s.presentInts fm a.val g.val).sum else 0) :=
  vecReduce_writes hr (rfl : execVrsum d a f g s = _) (by rw [hint]; rfl) (tree_noFlags (sumOp_noFlags hint) ..)
    (standsFor_sumsTo (tree_present hint (fun v => by simp [SumsTo]) (sumOp_sumsTo hint) rfl))

/-- The largest or the smallest of the enabled integers, as the tree finds it; where none is enabled, `edge` (R205). -/
theorem reduced_extreme (max : Bool) {edge : Int} {absent : Nat} (hedge : absent = (edge % 2 ^ (Fmt.ofCode f.val).bits).toNat) : let fm := Fmt.ofCode f.val
    let on := (List.range fm.lanes).filter (s.view.enabled g.val)
    let key := fun e => (BitVec.ofNat fm.bits (s.src fm a.val e)).toInt
    ∃ m : Int, (on = [] → m = edge) ∧ (∀ e ∈ on, if max then key e ≤ m else m ≤ key e) ∧ (on ≠ [] → ∃ e ∈ on, key e = m) ∧
      (s.reduced (extremeOp max) fm a.val g.val).1.getD absent = (m % 2 ^ fm.bits).toNat := by
  intro fm on key
  have h := tree_present (s := s) (a := a.val) (g := g.val) hint (extreme_singleton max fm.bits)
    (extremeOp_extreme (c := s.view) (on := s.view.enabled g.val) (u := s.vunit) hint) rfl
  change StandsFor _ (s.reduced (extremeOp max) fm a.val g.val).1 (on.map (s.src fm a.val)) at h
  cases hv : (s.reduced (extremeOp max) fm a.val g.val).1 with
  | none =>
    rw [hv] at h
    have hnil : on = [] := List.map_eq_nil_iff.1 h
    exact ⟨edge, fun _ => rfl, fun e he => absurd (hnil ▸ he) List.not_mem_nil, fun hne => absurd hnil hne, hedge⟩
  | some v =>
    rw [hv] at h
    obtain ⟨hmem, hbound⟩ := h
    obtain ⟨e, he, rfl⟩ := List.mem_map.1 hmem
    exact ⟨key e, fun hnil => absurd (hnil ▸ he) List.not_mem_nil, fun j hj => hbound _ (List.mem_map_of_mem hj), fun _ => ⟨e, he, rfl⟩,
      (toInt_emod_of_lt (el_lt ..)).symm⟩

theorem vrmax_int (hr : Ready (.vrmax d a f g) s) : let fm := Fmt.ofCode f.val
    let on := (List.range fm.lanes).filter (s.view.enabled g.val)
    let key := fun e => (BitVec.ofNat fm.bits (s.src fm a.val e)).toInt
    ∃ m : Int, (on = [] → m = -(2 ^ (fm.bits - 1))) ∧ (∀ e ∈ on, key e ≤ m) ∧ (on ≠ [] → ∃ e ∈ on, key e = m) ∧
      WritesAll (.vrmax d a f g) s 8 d.val fm.bits fm.lanes (fun e => if e = 0 then (m % 2 ^ fm.bits).toNat else 0) := by
  obtain ⟨m, hnil, hbound, hmem, hm⟩ := reduced_extreme (s := s) (a := a) (g := g) hint true (least_emod (Fmt.bits_pos _)).symm
  refine ⟨m, hnil, hbound, hmem, vecReduce_writes hr (rfl : execVrmax d a f g s = _) rfl (tree_noFlags (fun _ _ _ => rfl) ..) ?_⟩
  rw [if_pos hint, hm]

theorem vrmin_int (hr : Ready (.vrmin d a f g) s) : let fm := Fmt.ofCode f.val
    let on := (List.range fm.lanes).filter (s.view.enabled g.val)
    let key := fun e => (BitVec.ofNat fm.bits (s.src fm a.val e)).toInt
    ∃ m : Int, (on = [] → m = 2 ^ (fm.bits - 1) - 1) ∧ (∀ e ∈ on, m ≤ key e) ∧ (on ≠ [] → ∃ e ∈ on, key e = m) ∧
      WritesAll (.vrmin d a f g) s 8 d.val fm.bits fm.lanes (fun e => if e = 0 then (m % 2 ^ fm.bits).toNat else 0) := by
  obtain ⟨m, hnil, hbound, hmem, hm⟩ := reduced_extreme (s := s) (a := a) (g := g) hint false (greatest_emod (Fmt.bits_pos _)).symm
  refine ⟨m, hnil, fun e he => hbound e he, hmem, vecReduce_writes hr (rfl : execVrmin d a f g s = _) rfl (tree_noFlags (fun _ _ _ => rfl) ..) ?_⟩
  rw [if_pos hint, hm]
end

/-! ### Scans (R283) -/

section
variable {s : State} {d a : Fin 64} {f : Fin 8} {g : Fin 16}

/-- The rounds of a scan of the source (R206). -/
def State.scanned (s : State) (fm : Fmt) (a g : Nat) : List (Option Nat) × Flags :=
  scanRounds (sumOp s.view (s.view.enabled g) s.vunit fm) fm.lanes.log2 1 (s.view.present fm (s.view.source fm a) g)

theorem length_scanned (s : State) (fm : Fmt) (a g : Nat) : (s.scanned fm a g).1.length = fm.lanes := by
  rw [State.scanned, length_scanRounds, length_present]

theorem vscan_changes (hr : Ready (.vscan d a f g) s) : let fm := Fmt.ofCode f.val
    ∃ value : Vec, Changes (.vscan d a f g) s (fun c => (vecTo s.view 8 d.val value (BitVec.allOnes 2048)
        (if fm.isInt then c else stepsLanes s fm.bits fm.lanes g.val c)).raise (s.scanned fm a.val g.val).2) ∧
      holdsElems value fm.bits fm.lanes (fun e => ((s.scanned fm a.val g.val).1.getD e none).getD 0) := by
  intro fm
  refine ⟨vecOf fm.bits ((s.scanned fm a.val g.val).1.map (fun x => x.getD 0)), changes_of_effects ?_, holdsElems_congr (holdsElems_vecOf ?_) fun e _ => ?_⟩
  · show execVscan d a f g s = _
    refine slotOp_ok hr ?_
    dsimp only
    split
    · rw [putAll_eq, State.upd_upd]; rfl
    · rw [putAll_stepLfsr, State.upd_upd]; rfl
  · rw [List.length_map, length_scanned]
  · exact congrArg (· % 2 ^ fm.bits) (List.getD_map _ none (fun x => x.getD 0))

theorem vscan_int (hint : (Fmt.ofCode f.val).isInt = true) (hr : Ready (.vscan d a f g) s) : let fm := Fmt.ofCode f.val
    WritesAll (.vscan d a f g) s 8 d.val fm.bits fm.lanes (fun e => (((List.range (e + 1)).filter (s.view.enabled g.val)).map (s.src fm a.val)).sum) := by
  intro fm
  obtain ⟨value, hchanges, hholds⟩ := vscan_changes hr
  have hflags : (s.scanned fm a.val g.val).2 = 0 := scanRounds_noFlags (sumOp_noFlags hint) ..
  simp only [fm, hflags, hint, raise_none, if_true] at hchanges
  exact ⟨value, hchanges, holdsElems_congr hholds fun e he =>
    standsFor_sumsTo (scan_present hint (fun v => by simp [SumsTo]) (sumOp_sumsTo hint) rfl he)⟩

/-! ### Floating reductions (R205, R207) -/

variable (hfloat : (Fmt.ofCode f.val).isInt = false)
include hfloat

theorem vrsum_float (hr : Ready (.vrsum d a f g) s) : let fm := Fmt.ofCode f.val
    let sum := s.reduced sumOp fm a.val g.val
    ∃ value : Vec, Changes (.vrsum d a f g) s (fun c => (vecTo s.view 8 d.val value (BitVec.allOnes 2048) (stepsLanes s fm.bits fm.lanes g.val c)).raise sum.2) ∧
      holdsElems value fm.bits fm.lanes (fun e => if e = 0 then sum.1.getD 0 else 0) := by
  obtain ⟨value, hchanges, hholds⟩ := vecReduce_changes hr (rfl : execVrsum d a f g s = _)
  simp only [hfloat, Bool.not_false, Bool.and_self, if_true] at hchanges
  exact ⟨value, hchanges, hholds⟩

theorem vscan_float (hr : Ready (.vscan d a f g) s) : let fm := Fmt.ofCode f.val
    let pre := s.scanned fm a.val g.val
    ∃ value : Vec, Changes (.vscan d a f g) s (fun c => (vecTo s.view 8 d.val value (BitVec.allOnes 2048) (stepsLanes s fm.bits fm.lanes g.val c)).raise pre.2) ∧
      holdsElems value fm.bits fm.lanes (fun e => (pre.1.getD e none).getD 0) := by
  obtain ⟨value, hchanges, hholds⟩ := vscan_changes hr
  simp only [hfloat, Bool.false_eq_true, if_false] at hchanges
  exact ⟨value, hchanges, hholds⟩

theorem vrmax_float (hr : Ready (.vrmax d a f g) s) : let fm := Fmt.ofCode f.val
    WritesAll (.vrmax d a f g) s 8 d.val fm.bits fm.lanes (fun e => if e = 0 then (s.reduced (extremeOp true) fm a.val g.val).1.getD fm.nanCode else 0) :=
  vecReduce_writes hr (rfl : execVrmax d a f g s = _) rfl (tree_noFlags (fun _ _ _ => rfl) ..) (by rw [if_neg (by simp [hfloat])])

theorem vrmin_float (hr : Ready (.vrmin d a f g) s) : let fm := Fmt.ofCode f.val
    WritesAll (.vrmin d a f g) s 8 d.val fm.bits fm.lanes (fun e => if e = 0 then (s.reduced (extremeOp false) fm a.val g.val).1.getD fm.nanCode else 0) :=
  vecReduce_writes hr (rfl : execVrmin d a f g s = _) rfl (tree_noFlags (fun _ _ _ => rfl) ..) (by rw [if_neg (by simp [hfloat])])
end

end Sys2Proof.Machine
end

section
/-! PROOF. VSORT (R207, R284): the order of its keys, a stable sort by insertion, and O37. -/

namespace Sys2Proof.Machine

/-! ### The order of exact values (R207) -/

/-- A finite value has a denominator. -/
def Exact.HasDen : Exact → Prop
  | .fin _ _ d => 0 < d
  | _ => True

theorem floatValue_hasDen (f : Fmt) (code : Nat) : (floatValue f code).HasDen := by
  unfold floatValue
  dsimp only
  repeat' split
  all_goals simp [Exact.HasDen]

/-- A numerator with its sign. -/
def withNeg (neg : Bool) (n : Nat) : Int := if neg then -(n : Int) else n

theorem withNeg_mul (neg : Bool) (n k : Nat) : withNeg neg (n * k) = withNeg neg n * k := by
  cases neg <;> simp [withNeg]

theorem compare_fin (s t : Bool) (n d m e : Nat) : Exact.compare (.fin s n d) (.fin t m e) =
    if withNeg s (n * e) < withNeg t (m * d) then -1 else if withNeg t (m * d) < withNeg s (n * e) then 1 else 0 := rfl

/-- A place in the order of R207: NaN last, the infinities around the finite values, and −0 below +0. -/
def Exact.rank : Exact → ℤ ×ₗ ℚ ×ₗ ℤ
  | .nan => toLex (2, toLex (0, 0))
  | .inf neg => toLex (if neg then -1 else 1, toLex (0, 0))
  | .fin neg n d => toLex (0, toLex ((withNeg neg n : ℚ) / d, if neg then 0 else 1))

/-- Finite values stand to each other as their numerators do, each put over the other's denominator. -/
theorem withNeg_div_lt {s t : Bool} {n d m e : Nat} (hd : 0 < d) (he : 0 < e) :
    (withNeg s n : ℚ) / d < (withNeg t m : ℚ) / e ↔ withNeg s (n * e) < withNeg t (m * d) := by
  rw [div_lt_div_iff₀ (by exact_mod_cast hd) (by exact_mod_cast he), withNeg_mul, withNeg_mul]
  exact_mod_cast Iff.rfl

theorem withNeg_div_eq {s t : Bool} {n d m e : Nat} (hd : 0 < d) (he : 0 < e) :
    (withNeg s n : ℚ) / d = (withNeg t m : ℚ) / e ↔ withNeg s (n * e) = withNeg t (m * d) := by
  rw [div_eq_div_iff (by exact_mod_cast hd.ne') (by exact_mod_cast he.ne'), withNeg_mul, withNeg_mul]
  exact_mod_cast Iff.rfl

theorem before_iff_rank {x y : Exact} (hx : x ≠ .nan) (hy : y ≠ .nan) (hdx : x.HasDen) (hdy : y.HasDen) : x.before y = true ↔ x.rank < y.rank := by
  match x, y with
  | .nan, _ => exact absurd rfl hx
  | .inf _, .nan => exact absurd rfl hy
  | .fin _ _ _, .nan => exact absurd rfl hy
  | .inf s, .inf t => cases s <;> cases t <;> simp [Exact.before, Exact.compare, Exact.isNeg, Exact.rank, Prod.Lex.toLex_lt_toLex]
  | .inf s, .fin t m e => cases s <;> simp [Exact.before, Exact.compare, Exact.rank, Prod.Lex.toLex_lt_toLex]
  | .fin s n d, .inf t => cases t <;> simp [Exact.before, Exact.compare, Exact.rank, Prod.Lex.toLex_lt_toLex]
  | .fin s n d, .fin t m e =>
    rw [Exact.rank, Exact.rank, Prod.Lex.toLex_lt_toLex, Prod.Lex.toLex_lt_toLex]
    simp only [withNeg_div_lt hdx hdy, withNeg_div_eq hdx hdy, Exact.before, compare_fin, Exact.isNeg]
    rcases lt_trichotomy (withNeg s (n * e)) (withNeg t (m * d)) with h | h | h
    · simp [h]
    · cases s <;> cases t <;> simp [h]
    · simp [h.not_gt, h, h.ne']

/-- The key of an element in the order of VSORT (R284). -/
def sortRank (f : Fmt) (ftz : Bool) (a : Nat) : ℤ ×ₗ ℚ ×ₗ ℤ :=
  if f.isInt then toLex (signedOf f.bits a, toLex (0, 0)) else (floatValue f (ftzIn f ftz a)).rank

theorem Exact.isNan_iff (x : Exact) : x.isNan = true ↔ x = .nan := by
  cases x <;> simp [Exact.isNan]

theorem rank_lt_nan {x : Exact} (hx : x ≠ .nan) : x.rank < Exact.nan.rank := by
  match x with
  | .nan => exact absurd rfl hx
  | .inf s => cases s <;> simp [Exact.rank, Prod.Lex.toLex_lt_toLex]
  | .fin s n d => simp [Exact.rank, Prod.Lex.toLex_lt_toLex]

theorem sortBefore_iff (f : Fmt) (ftz : Bool) (a b : Nat) : sortBefore f ftz a b = true ↔ sortRank f ftz a < sortRank f ftz b := by
  unfold sortBefore sortRank
  split
  · simp [Prod.Lex.toLex_lt_toLex]
  · generalize hx : floatValue f (ftzIn f ftz a) = x
    generalize hy : floatValue f (ftzIn f ftz b) = y
    have hdx : x.HasDen := hx ▸ floatValue_hasDen ..
    have hdy : y.HasDen := hy ▸ floatValue_hasDen ..
    by_cases hnx : x = .nan
    · subst hnx
      by_cases hny : y = .nan
      · subst hny; simp [Exact.isNan]
      · simpa [Exact.isNan] using (rank_lt_nan hny).le
    · have hx' : x.isNan = false := Bool.eq_false_iff.2 (mt x.isNan_iff.1 hnx)
      by_cases hny : y = .nan
      · subst hny; simpa [hx', Exact.isNan] using rank_lt_nan hnx
      · have hy' : y.isNan = false := Bool.eq_false_iff.2 (mt y.isNan_iff.1 hny)
        simpa [hx', hy'] using before_iff_rank hnx hny hdx hdy

/-! ### A stable sort (R284) -/

theorem sortInsert_perm (before : Nat → Nat → Bool) (e : Nat) (l : List Nat) : (sortInsert before e l).Perm (e :: l) := by
  induction l with
  | nil => exact .refl _
  | cons x rest ih =>
    unfold sortInsert
    split
    · exact .refl _
    · exact (ih.cons x).trans (.swap ..)

theorem foldl_sortInsert_perm (before : Nat → Nat → Bool) (on l : List Nat) : (on.foldl (fun l e => sortInsert before e l) l).Perm (l ++ on) := by
  induction on generalizing l with
  | nil => simp
  | cons e rest ih => exact (ih _).trans (((sortInsert_perm before e l).append_right rest).trans List.perm_middle.symm)

/-- An index comes before another: its key does, or the keys are equal and it is the lower. -/
def Earlier {K : Type} [LT K] (key : Nat → K) (p q : Nat) : Prop := key p < key q ∨ key p = key q ∧ p < q

section
variable {K : Type} [LinearOrder K] {key : Nat → K} {before : Nat → Nat → Bool} (hb : ∀ p q, before p q = true ↔ key p < key q)
include hb

theorem sortInsert_sorted {e : Nat} {l : List Nat} (hl : l.Pairwise (Earlier key)) (he : ∀ y ∈ l, y < e) : (sortInsert before e l).Pairwise (Earlier key) := by
  induction l with
  | nil => exact List.pairwise_singleton _ _
  | cons x rest ih =>
    obtain ⟨hx, hrest⟩ := List.pairwise_cons.1 hl
    unfold sortInsert
    split
    · next hlt =>
      refine List.pairwise_cons.2 ⟨fun z hz => .inl ?_, hl⟩
      have hex := (hb e x).1 hlt
      rcases List.mem_cons.1 hz with rfl | hz
      · exact hex
      · rcases hx z hz with h | ⟨h, -⟩
        · exact hex.trans h
        · exact h ▸ hex
    · next hge =>
      have hle : key x ≤ key e := not_lt.1 (mt (hb e x).2 hge)
      refine List.pairwise_cons.2 ⟨fun z hz => ?_, ih hrest fun y hy => he y (List.mem_cons_of_mem x hy)⟩
      rcases List.mem_cons.1 ((sortInsert_perm before e rest).mem_iff.1 hz) with rfl | hz
      · rcases hle.lt_or_eq with h | h
        · exact .inl h
        · exact .inr ⟨h, he x List.mem_cons_self⟩
      · exact hx z hz

theorem foldl_sortInsert_sorted {on l : List Nat} (hon : on.Pairwise (· < ·)) (hl : l.Pairwise (Earlier key)) (h : ∀ y ∈ l, ∀ e ∈ on, y < e) :
    (on.foldl (fun l e => sortInsert before e l) l).Pairwise (Earlier key) := by
  induction on generalizing l with
  | nil => exact hl
  | cons e rest ih =>
    obtain ⟨he, hrest⟩ := List.pairwise_cons.1 hon
    refine ih hrest (sortInsert_sorted hb hl fun y hy => h y hy e List.mem_cons_self) fun y hy j hj => ?_
    rcases List.mem_cons.1 ((sortInsert_perm before e l).mem_iff.1 hy) with rfl | hy
    · exact he j hj
    · exact h y hy j (List.mem_cons_of_mem e hj)

theorem not_before_of_earlier {p q : Nat} (h : Earlier key p q) : before q p = false ∧ (before p q = false → p < q) := by
  simp only [← Bool.not_eq_true, hb]
  rcases h with h | ⟨heq, hlt⟩
  · exact ⟨h.not_gt, fun hn => absurd h hn⟩
  · exact ⟨heq ▸ lt_irrefl _, fun _ => hlt⟩
end

/-! ### The slot -/

section
variable {s : State} {d a : Fin 64} {f : Fin 8} {g : Fin 16}

/-- The order of the source's elements under VSORT. -/
def State.sortsBefore (s : State) (fm : Fmt) (a p q : Nat) : Bool := sortBefore fm s.view.ftz (s.src fm a p) (s.src fm a q)

/-- The enabled elements sorted by insertion. -/
def State.sortedOn (s : State) (fm : Fmt) (a g : Nat) : List Nat :=
  ((List.range fm.lanes).filter (s.view.enabled g)).foldl (fun l e => sortInsert (s.sortsBefore fm a) e l) []

/-- The element numbers as VSORT writes them: the enabled ones sorted, then the others. -/
def State.sortedAll (s : State) (fm : Fmt) (a g : Nat) : List Nat := s.sortedOn fm a g ++ (List.range fm.lanes).filter (fun e => !s.view.enabled g e)

theorem sortedOn_perm (s : State) (fm : Fmt) (a g : Nat) : (s.sortedOn fm a g).Perm ((List.range fm.lanes).filter (s.view.enabled g)) :=
  foldl_sortInsert_perm _ _ []

theorem sortedAll_perm (s : State) (fm : Fmt) (a g : Nat) : (s.sortedAll fm a g).Perm (List.range fm.lanes) :=
  ((sortedOn_perm s fm a g).append_right _).trans (List.filter_append_perm _ _)

/-- How two elements stand to each other in the permutation of VSORT (R284). -/
def State.InSortOrder (s : State) (fm : Fmt) (a g p q : Nat) : Prop :=
  (s.view.enabled g q = true → s.view.enabled g p = true ∧ s.sortsBefore fm a q p = false ∧ (s.sortsBefore fm a p q = false → p < q)) ∧
  (s.view.enabled g p = false → p < q)

theorem sortedAll_sorted (s : State) (fm : Fmt) (a g : Nat) : (s.sortedAll fm a g).Pairwise (s.InSortOrder fm a g) := by
  have hkey (p q : Nat) : s.sortsBefore fm a p q = true ↔ sortRank fm s.view.ftz (s.src fm a p) < sortRank fm s.view.ftz (s.src fm a q) := sortBefore_iff ..
  have hrange (on : Nat → Bool) : ((List.range fm.lanes).filter on).Pairwise (· < ·) := List.pairwise_lt_range.filter on
  have henabled {e : Nat} (he : e ∈ s.sortedOn fm a g) : s.view.enabled g e = true := (List.mem_filter.1 ((sortedOn_perm s fm a g).mem_iff.1 he)).2
  have hoff {e : Nat} (he : e ∈ (List.range fm.lanes).filter (fun e => !s.view.enabled g e)) : s.view.enabled g e = false := by
    simpa using (List.mem_filter.1 he).2
  refine List.pairwise_append.2 ⟨?_, ?_, fun p hp q hq => ?_⟩
  · have hsorted := foldl_sortInsert_sorted hkey (hrange (s.view.enabled g)) (l := []) .nil (fun _ h => absurd h List.not_mem_nil)
    refine hsorted.imp_of_mem fun {p q} hp _ h => ⟨fun _ => ⟨henabled hp, not_before_of_earlier hkey h⟩, fun hn => ?_⟩
    exact absurd (henabled hp) (by rw [hn]; exact Bool.false_ne_true)
  · refine (hrange _).imp_of_mem fun {p q} _ hq h => ⟨fun hon => ?_, fun _ => h⟩
    exact absurd hon (by rw [hoff hq]; exact Bool.false_ne_true)
  · exact ⟨fun hon => absurd hon (by rw [hoff hq]; exact Bool.false_ne_true), fun hn => absurd (henabled hp) (by rw [hn]; exact Bool.false_ne_true)⟩

theorem vsort_sorts (hr : Ready (.vsort d a f g) s) : let fm := Fmt.ofCode f.val
    ∃ l : List Nat, l.Perm (List.range fm.lanes) ∧ WritesAll (.vsort d a f g) s 16 d.val fm.bits fm.lanes (fun e => l.getD e 0) ∧
      ∀ m n, m < n → n < fm.lanes → s.InSortOrder fm a.val g.val (l.getD m 0) (l.getD n 0) := by
  intro fm
  have hperm := sortedAll_perm s fm a.val g.val
  have hlen : (s.sortedAll fm a.val g.val).length = fm.lanes := hperm.length_eq.trans List.length_range
  refine ⟨_, hperm, writesAll_of_slotOp hr (rfl : execVsort d a f g s = _) (congrArg Except.ok (putAll_eq ..)) hlen.le (fun _ _ => rfl), fun m n hmn hn => ?_⟩
  rw [List.getD_eq_getElem _ _ (hlen ▸ hmn.trans hn), List.getD_eq_getElem _ _ (hlen ▸ hn)]
  exact List.pairwise_iff_getElem.1 (sortedAll_sorted s fm a.val g.val) m n _ _ hmn
end

/-- Settles O37: trees and prefixes by what their elements stand for, and a stable sort. -/
theorem vectorReductions : Obligations.VectorReductions := by
  unfold Obligations.VectorReductions
  exact ⟨fun s d a f g hint => ⟨vrsum_int hint, vscan_int hint, vrmax_int hint, vrmin_int hint⟩,
    fun s d a f g hfloat => ⟨vrsum_float hfloat, vscan_float hfloat, vrmax_float hfloat, vrmin_float hfloat⟩,
    fun s d a f g => vsort_sorts⟩

end Sys2Proof.Machine
end

section
/-! PROOF. Rounding of what a format holds (R184-R186, R193, R194): O38. -/

namespace Sys2Proof.Machine

/-! ### Exact quotients (R193) -/

theorem Round.toNat_exact (md : Round) (neg : Bool) (k : Nat) {d : Nat} (hd : 0 < d) : md.toNat neg (k * d) d = (k, false) := by
  simp [Round.toNat, hd]

/-- A value that is a whole number of units rounds to that number in every mode. -/
theorem Round.inUnits_exact (md : Round) (neg : Bool) {num den k : Nat} {q : Int} (hden : 0 < den) (h : num * 2 ^ (-q).toNat = k * den * 2 ^ q.toNat) :
    md.inUnits neg num den q = (k, false) := by
  unfold Round.inUnits
  split
  · next hq =>
    have hnum : num = k * (den * 2 ^ q.toNat) := by
      rw [← Nat.mul_assoc, ← h, Int.toNat_of_nonpos (by omega), pow_zero, Nat.mul_one]
    rw [hnum, Round.toNat_exact md neg k (Nat.mul_pos hden (Nat.two_pow_pos _))]
  · next hq =>
    rw [h, Int.toNat_of_nonpos (by omega), pow_zero, Nat.mul_one, Round.toNat_exact md neg k hden]

theorem expOf_two_pow {num : Nat} (hnum : num ≠ 0) (p : Nat) : expOf num (2 ^ p) = (num.log2 : Int) - p := by
  have hlog : 2 ^ num.log2 ≤ num := Nat.log2_self_le hnum
  unfold expOf
  rw [Nat.log2_two_pow]
  refine if_pos ?_
  split
  · next h =>
    rw [← pow_add, decide_eq_true_eq]
    have hexp : p + ((num.log2 : Int) - p).toNat = num.log2 := by omega
    rwa [hexp]
  · next h =>
    rw [decide_eq_true_eq]
    obtain ⟨r, hr⟩ := Nat.exists_eq_add_of_le (show num.log2 ≤ p by omega)
    have hexp : (-((num.log2 : Int) - p)).toNat = r := by omega
    rw [hexp]
    calc 2 ^ p = 2 ^ num.log2 * 2 ^ r := by rw [← pow_add, ← hr]
      _ ≤ num * 2 ^ r := Nat.mul_le_mul_right _ hlog

/-! ### Floating values (R184, R193, R194) -/

theorem Fmt.frac_le_maxCode {f : Fmt} (hf : f.isInt = false) : 2 ^ f.frac ≤ f.maxCode := by
  revert hf
  cases f <;> decide

theorem Fmt.one_le_bias {f : Fmt} (hf : f.isInt = false) : 1 ≤ f.bias := by
  revert hf
  cases f <;> decide

theorem log2_significand {F M r : Nat} (hM : M < 2 ^ F) : ((2 ^ F + M) * 2 ^ r).log2 = F + r := by
  have hpos : (2 ^ F + M) * 2 ^ r ≠ 0 := by positivity
  refine (Nat.log2_eq_iff hpos).2 ⟨?_, ?_⟩
  · rw [pow_add]
    exact Nat.mul_le_mul_right _ (Nat.le_add_right _ _)
  · rw [Nat.add_right_comm, pow_add, pow_succ]
    exact Nat.mul_lt_mul_of_pos_right (by omega) (Nat.two_pow_pos r)

/-- A normal value, its significand `2^F + M` at exponent `E`, rounds to its own code. -/
theorem roundMag_normal {f : Fmt} (md : Round) (neg : Bool) {M E r p : Nat} (hM : M < 2 ^ f.frac) (hE : 1 ≤ E) (hmax : E * 2 ^ f.frac + M ≤ f.maxCode)
    (hexp : (r : Int) - p = E - f.bias - f.frac) : roundMag f md neg ((2 ^ f.frac + M) * 2 ^ r) (2 ^ p) = (withSign f neg (E * 2 ^ f.frac + M), 0) := by
  have hnum : (2 ^ f.frac + M) * 2 ^ r ≠ 0 := by positivity
  have he : expOf ((2 ^ f.frac + M) * 2 ^ r) (2 ^ p) = E - f.bias := by
    rw [expOf_two_pow hnum, log2_significand hM]
    push_cast
    omega
  have hk : md.inUnits neg ((2 ^ f.frac + M) * 2 ^ r) (2 ^ p) (E - f.bias - f.frac) = (2 ^ f.frac + M, false) := by
    refine Round.inUnits_exact md neg (Nat.two_pow_pos p) ?_
    rw [Nat.mul_assoc, Nat.mul_assoc, ← pow_add, ← pow_add]
    congr 2
    omega
  have hcode : ((E : Int) - f.bias + f.bias - 1) * ((2 ^ f.frac : Nat) : Int) + ((2 ^ f.frac + M : Nat) : Int) = ((E * 2 ^ f.frac + M : Nat) : Int) := by
    push_cast
    ring
  have hlow : 2 ^ f.frac ≤ E * 2 ^ f.frac + M := (Nat.le_mul_of_pos_left _ hE).trans (Nat.le_add_right _ _)
  unfold roundMag
  simp only [he, hk, hcode]
  rw [if_neg (by omega), if_neg (by omega), if_neg Bool.false_ne_true, Int.toNat_natCast]

/-- A subnormal value rounds to its own code. -/
theorem roundMag_subnormal {f : Fmt} (hf : f.isInt = false) (md : Round) (neg : Bool) {M : Nat} (hM : M < 2 ^ f.frac) (hpos : M ≠ 0) :
    roundMag f md neg M (2 ^ (f.bias + f.frac - 1)) = (withSign f neg M, 0) := by
  have hbias := Fmt.one_le_bias hf
  have hlog : M.log2 < f.frac := (Nat.log2_lt hpos).2 hM
  obtain ⟨r, hr⟩ := Nat.exists_eq_add_of_lt hlog
  have he : expOf M (2 ^ (f.bias + f.frac - 1)) = (M.log2 : Int) - (f.bias + f.frac - 1) := by
    rw [expOf_two_pow hpos]
    omega
  have hk : md.inUnits neg M (2 ^ (f.bias + f.frac - 1)) ((M.log2 : Int) - (f.bias + f.frac - 1) - f.frac) = (M * 2 ^ (r + 1), false) := by
    refine Round.inUnits_exact md neg (Nat.two_pow_pos _) ?_
    rw [Nat.mul_assoc, Nat.mul_assoc, ← pow_add, ← pow_add]
    congr 2
    omega
  have hks : md.inUnits neg M (2 ^ (f.bias + f.frac - 1)) (1 - (f.bias : Int) - f.frac) = (M, false) := by
    refine Round.inUnits_exact md neg (Nat.two_pow_pos _) ?_
    rw [Nat.mul_assoc, ← pow_add]
    congr 2
    omega
  have hlt : M * 2 ^ (r + 1) < 2 * 2 ^ f.frac := by
    calc M * 2 ^ (r + 1) < 2 ^ (M.log2 + 1) * 2 ^ (r + 1) := Nat.mul_lt_mul_of_pos_right Nat.lt_log2_self (Nat.two_pow_pos _)
      _ = 2 * 2 ^ f.frac := by rw [← pow_add, ← pow_succ']; congr 1; omega
  have hneg : ((M.log2 : Int) - (f.bias + f.frac - 1) + f.bias - 1) * ((2 ^ f.frac : Nat) : Int) ≤ -1 * ((2 ^ f.frac : Nat) : Int) :=
    mul_le_mul_of_nonneg_right (by omega) (Int.natCast_nonneg _)
  have hmax := Fmt.frac_le_maxCode hf
  unfold roundMag
  simp only [he, hk, hks]
  rw [if_neg (by omega), if_pos (by omega), if_neg Bool.false_ne_true]

/-- The finite value of a magnitude (R184). -/
def magValue (f : Fmt) (neg : Bool) (mag : Nat) : Exact :=
  if mag / 2 ^ f.frac = 0 then .fin neg (mag % 2 ^ f.frac) (2 ^ (f.bias + f.frac - 1))
  else if f.bias + f.frac ≤ mag / 2 ^ f.frac then .fin neg ((2 ^ f.frac + mag % 2 ^ f.frac) * 2 ^ (mag / 2 ^ f.frac - f.bias - f.frac)) 1
  else .fin neg (2 ^ f.frac + mag % 2 ^ f.frac) (2 ^ (f.bias + f.frac - mag / 2 ^ f.frac))

theorem floatValue_eq_magValue {f : Fmt} {c : Nat} (h : c % f.signBit ≤ f.maxCode) : floatValue f c = magValue f (c / f.signBit % 2 == 1) (c % f.signBit) := by
  have htop : (f == .e4m3 && c % f.signBit == 0x7F) = false := by
    refine Bool.eq_false_iff.2 fun hb => ?_
    obtain ⟨hf, hc⟩ := Bool.and_eq_true_iff.1 hb
    rw [eq_of_beq hf] at h
    exact absurd ((eq_of_beq hf ▸ eq_of_beq hc : c % Fmt.e4m3.signBit = 0x7F) ▸ h) (by decide)
  have hinf : (f.hasInf && decide (f.maxCode < c % f.signBit)) = false := by rw [decide_eq_false (Nat.not_lt.2 h), Bool.and_false]
  unfold floatValue magValue
  simp only [htop, hinf, gt_iff_lt, ge_iff_le, Bool.false_eq_true, if_false, beq_iff_eq]

theorem roundTo_magValue {f : Fmt} (hf : f.isInt = false) (md : Round) (neg : Bool) {mag : Nat} (hmax : mag ≤ f.maxCode) :
    roundTo f (magValue f neg mag) md = (withSign f neg mag, 0) := by
  have hM : mag % 2 ^ f.frac < 2 ^ f.frac := Nat.mod_lt _ (Nat.two_pow_pos _)
  have hmag : mag / 2 ^ f.frac * 2 ^ f.frac + mag % 2 ^ f.frac = mag := Nat.div_add_mod' ..
  have hround {num den : Nat} (hnum : num ≠ 0) : roundTo f (.fin neg num den) md = roundMag f md neg num den := by
    simp [roundTo, hf, hnum]
  unfold magValue
  split
  · next hE =>
    rw [hE, Nat.zero_mul, Nat.zero_add] at hmag
    rw [hmag] at hM ⊢
    by_cases hzero : mag = 0
    · simp [roundTo, hf, hzero]
    · rw [hround hzero, roundMag_subnormal hf md neg hM hzero]
  · next hE =>
    have hpos : 1 ≤ mag / 2 ^ f.frac := Nat.one_le_iff_ne_zero.2 hE
    split
    · next hle =>
      have h := roundMag_normal md neg (r := mag / 2 ^ f.frac - f.bias - f.frac) (p := 0) hM hpos (hmag.symm ▸ hmax) (by omega)
      rw [hround (by positivity), ← pow_zero 2, h, hmag]
    · next hlt =>
      have h := roundMag_normal md neg (r := 0) (p := f.bias + f.frac - mag / 2 ^ f.frac) hM hpos (hmag.symm ▸ hmax) (by omega)
      rw [pow_zero, Nat.mul_one] at h
      rw [hround (by positivity), h, hmag]

theorem withSign_mod {f : Fmt} {c : Nat} (hc : c < 2 ^ f.bits) : withSign f (c / f.signBit % 2 == 1) (c % f.signBit) = c := by
  have htwo : c / f.signBit < 2 := by
    refine Nat.div_lt_of_lt_mul ?_
    rwa [Fmt.signBit, ← pow_succ, Nat.sub_add_cancel f.bits_pos]
  have hdiv := Nat.div_add_mod' c f.signBit
  unfold withSign
  rw [Nat.mod_eq_of_lt htwo]
  interval_cases c / f.signBit
  · simpa using hdiv
  · simpa [Nat.add_comm] using hdiv

/-- A finite value that a format holds keeps its code in every mode (R193). -/
theorem roundTo_floatValue {f : Fmt} (hf : f.isInt = false) (md : Round) {c : Nat} (hc : c < 2 ^ f.bits) (hmax : c % 2 ^ (f.bits - 1) ≤ f.maxCode) :
    roundTo f (floatValue f c) md = (c, 0) := by
  change c % f.signBit ≤ f.maxCode at hmax
  rw [floatValue_eq_magValue hmax, roundTo_magValue hf md _ hmax, withSign_mod hc]

/-! ### Integers (R186, R193) -/

theorem roundTo_ofInt {f : Fmt} (hf : f.isInt = true) (md : Round) (x : Int) : roundTo f (.ofInt x) md =
    if x < -(2 ^ (f.bits - 1)) then (2 ^ (f.bits - 1), flagNV)
    else if 2 ^ (f.bits - 1) ≤ x then (2 ^ (f.bits - 1) - 1, flagNV)
    else ((x % 2 ^ f.bits).toNat, 0) := by
  have hwhole : md.toNat (decide (x < 0)) x.natAbs 1 = (x.natAbs, false) := by
    have h := md.toNat_exact (decide (x < 0)) x.natAbs Nat.one_pos
    rwa [Nat.mul_one] at h
  have hsign : (if decide (x < 0) = true then -(x.natAbs : Int) else x.natAbs) = x := by
    simp only [decide_eq_true_eq]
    split <;> omega
  have hround : roundTo f (.ofInt x) md = saturateInt f x := by
    simp only [roundTo, hf, if_true, Exact.ofInt, hwhole, hsign, Bool.and_false, Bool.false_eq_true, if_false]
  rw [hround]
  unfold saturateInt Fmt.intMin Fmt.intMax
  push_cast
  simp only [wrapTo_eq, least_emod f.bits_pos, greatest_emod f.bits_pos, Int.sub_one_lt_iff]

/-- Settles O38: a value that a format holds is a whole number of its units, and an integer saturates at the ends of its range. -/
theorem roundingRules : Obligations.RoundingRules := by
  unfold Obligations.RoundingRules
  refine fun fm md => ⟨fun hf => ⟨fun c => roundTo_floatValue hf md, fun hinf => ⟨?_, ?_, ?_⟩⟩, fun hf => roundTo_ofInt hf md⟩
  all_goals simp [roundTo, hf, hinf, withSign, Fmt.signBit]

end Sys2Proof.Machine
end

section
/-! PROOF. Rows of accumulator tiles (R293, R299, R303, R305): what an operation on a tile replaces, and when. -/

namespace Sys2Proof.Machine

/-! ### Rows -/

theorem tileRow_setTileRow (c : Core) (a b : Fin 8) {i : Nat} (hi : i < 128) (v : BitVec 4096) (j : Nat) :
    (c.setTileRow a i v).tileRow b j = if b = a ∧ j = i then v else c.tileRow b j := by
  unfold Core.tileRow Core.setTileRow
  by_cases hb : b = a
  · subst hb
    by_cases hj : j = i
    · subst hj
      simp [List.getD_eq_getElem?_getD, hi]
    · simp [List.getD_eq_getElem?_getD, hj, Ne.symm hj]
  · have hval : a.val ≠ b.val := fun h => hb (Fin.ext h.symm)
    simp [Vector.getElem_set_ne, hval, hb]

/-- Rows replaced from row `i` of a tile: the others of it, and the other tiles, stay. -/
theorem tileRow_setTileRows (c : Core) (a b : Fin 8) {i : Nat} {l : List (BitVec 4096)} (hi : i + l.length ≤ 128) (j : Nat) :
    (c.setTileRows a i l).tileRow b j = if b = a ∧ i ≤ j ∧ j < i + l.length then l.getD (j - i) 0 else c.tileRow b j := by
  induction l generalizing c i with
  | nil => rw [if_neg (by simp only [List.length_nil]; omega)]; rfl
  | cons v vs ih =>
    rw [List.length_cons] at hi ⊢
    rw [Core.setTileRows, ih _ (by omega), tileRow_setTileRow _ _ _ (by omega)]
    by_cases hb : b = a
    · rcases lt_trichotomy j i with hj | rfl | hj
      · rw [if_neg (by omega), if_neg (by omega), if_neg (by omega)]
      · rw [if_neg (by omega), if_pos ⟨hb, rfl⟩, if_pos ⟨hb, le_rfl, by omega⟩, Nat.sub_self]
        rfl
      · obtain ⟨k, rfl⟩ := Nat.exists_eq_add_of_lt hj
        by_cases hk : k < vs.length
        · rw [if_pos ⟨hb, by omega, by omega⟩, if_pos ⟨hb, by omega, by omega⟩, show i + k + 1 - (i + 1) = k by omega, show i + k + 1 - i = k + 1 by omega]
          rfl
        · rw [if_neg (by omega), if_neg (by omega), if_neg (by omega)]
    · simp [hb]

/-! ### What an operation on a tile leaves alone -/

/-- `c'` differs from `c` in its tiles only, and in the flaws of their words. -/
def Core.TilesOnly (c c' : Core) : Prop := c' = { c with mat := { c.mat with acc := c'.mat.acc }, flaws := c'.flaws }

theorem Core.TilesOnly.trans {a b c : Core} (h : a.TilesOnly b) (h' : b.TilesOnly c) : a.TilesOnly c := by
  unfold Core.TilesOnly at *
  rw [h', h]

theorem setTileRows_tilesOnly (a : Fin 8) (l : List (BitVec 4096)) (c : Core) (i : Nat) : c.TilesOnly (c.setTileRows a i l) := by
  induction l generalizing c i with
  | nil => rfl
  | cons v vs ih => exact Core.TilesOnly.trans (b := c.setTileRow a i v) rfl (ih ..)

/-- The rows that a tile is left with depend on the tiles alone. -/
theorem setTileRows_acc (a : Fin 8) (l : List (BitVec 4096)) {c c' : Core} (h : c.mat.acc = c'.mat.acc) (i : Nat) :
    (c.setTileRows a i l).mat.acc = (c'.setTileRows a i l).mat.acc := by
  induction l generalizing c c' i with
  | nil => exact h
  | cons v vs ih => exact ih (by simp only [Core.setTileRow, h]) (i + 1)

/-- MZERO and MWR: what is written does not depend on what the core holds. -/
def TileOp.Plain (op : TileOp) : Prop := op = .zero ∨ ∃ rb rows, op = .write rb rows

section
variable {op : TileOp} (hop : op.Plain)
include hop

theorem applyTile_tilesOnly (c : Core) (d : Nat) (a : Fin 8) : c.TilesOnly (c.applyTile ⟨d, a, op⟩) := by
  rcases hop with rfl | ⟨rb, rows, rfl⟩
  · rfl
  · exact setTileRows_tilesOnly ..

theorem applyTile_acc {c c' : Core} (h : c.mat.acc = c'.mat.acc) (d d' : Nat) (a : Fin 8) :
    (c.applyTile ⟨d, a, op⟩).mat.acc = (c'.applyTile ⟨d', a, op⟩).mat.acc := by
  rcases hop with rfl | ⟨rb, rows, rfl⟩
  · exact congrArg (fun t => t.set a (Vector.replicate 128 0)) h
  · exact setTileRows_acc a rows h _

theorem captureRows_plain {c : Core} {d : Nat} {a : Fin 8} (h : c.mat.tiles = [⟨d, a, op⟩]) : c.captureRows = c := by
  unfold Core.captureRows
  rw [h]
  rcases hop with rfl | ⟨rb, rows, rfl⟩
  · exact congrArg (fun l => ({ c with mat := { c.mat with tiles := l } } : Core)) h.symm
  · exact congrArg (fun l => ({ c with mat := { c.mat with tiles := l } } : Core)) h.symm
end

/-! ### Working cycles that pass (R299) -/

/-- The core `k` working cycles later, nothing else of it changed. -/
def Core.after (c : Core) (k : Nat) : Core := { c with seq := { c.seq with wc := c.seq.wc + k } }

/-- The core with no operation of a tile on its way. -/
def Core.noTiles (c : Core) : Core := { c with mat := { c.mat with tiles := [] } }

theorem landDue_nil {c : Core} (h : c.flight = []) (t : Nat) : c.landDue t = c := by
  unfold Core.landDue
  rw [h]
  exact congrArg (fun l => ({ c with flight := l } : Core)) h.symm

theorem tilesDue_nil {c : Core} (p : TileFlight → Bool) {t : Nat} (h : c.mat.tiles.filter (fun x => p x && decide (x.due ≤ t)) = []) : c.tilesDue p t = c := by
  have hkeep : c.mat.tiles.filter (fun x => !(p x && decide (x.due ≤ t))) = c.mat.tiles :=
    List.filter_eq_self.2 fun x hx => by simpa [imp_iff_not_or] using List.filter_eq_nil_iff.1 h x hx
  unfold Core.tilesDue
  dsimp only
  rw [h, hkeep]
  rfl

theorem advance_eq (c : Core) : c.advance = ((c.after 1).landDue (c.seq.wc + 1)).captureRows.tilesDue (fun _ => true)
    ((c.after 1).landDue (c.seq.wc + 1)).captureRows.seq.wc := rfl

theorem advance_idle {c : Core} (hf : c.flight = []) (ht : c.mat.tiles = []) : c.advance = c.after 1 := by
  have hrows : (c.after 1).captureRows = c.after 1 := by
    unfold Core.captureRows
    rw [show (c.after 1).mat.tiles = [] from ht]
    exact congrArg (fun l => ({ c.after 1 with mat := { c.mat with tiles := l } } : Core)) ht.symm
  rw [advance_eq, landDue_nil (c := c.after 1) hf, hrows]
  exact tilesDue_nil _ (by rw [show (c.after 1).mat.tiles = [] from ht]; rfl)

theorem iterate_advance_idle {c : Core} (hf : c.flight = []) (ht : c.mat.tiles = []) (k : Nat) : Core.advance^[k] c = c.after k := by
  induction k with
  | zero => rfl
  | succ k ih => rw [Function.iterate_succ_apply', ih, advance_idle (c := c.after k) hf ht]; rfl

section
variable {c : Core} {d : Nat} {a : Fin 8} {op : TileOp} (hop : op.Plain) (hf : c.flight = []) (ht : c.mat.tiles = [⟨d, a, op⟩])
include hop hf ht

/-- A working cycle with one operation of a tile on its way. -/
theorem advance_flying : c.advance = (c.after 1).tilesDue (fun _ => true) (c.seq.wc + 1) := by
  rw [advance_eq, landDue_nil (c := c.after 1) hf, captureRows_plain (c := c.after 1) hop ht]
  rfl

theorem advance_waits (hd : c.seq.wc + 1 < d) : c.advance = c.after 1 := by
  rw [advance_flying hop hf ht]
  refine tilesDue_nil _ ?_
  rw [show (c.after 1).mat.tiles = [⟨d, a, op⟩] from ht]
  simpa using hd

theorem advance_applies (hd : d ≤ c.seq.wc + 1) : c.advance = (c.after 1).noTiles.applyTile ⟨d, a, op⟩ := by
  rw [advance_flying hop hf ht]
  unfold Core.tilesDue
  rw [show (c.after 1).mat.tiles = [⟨d, a, op⟩] from ht]
  simp [hd, Core.after, Core.noTiles]

theorem iterate_advance_waits {k : Nat} (hd : c.seq.wc + k < d) : Core.advance^[k] c = c.after k := by
  induction k with
  | zero => rfl
  | succ k ih => rw [Function.iterate_succ_apply', ih (by omega), advance_waits (c := c.after k) hop hf ht hd]; rfl

/-- An operation on its way is seen from its cycle on (R299). -/
theorem tileRow_iterate_advance (hd : c.seq.wc < d) (k i : Nat) :
    (Core.advance^[k] c).tileRow a i = if d ≤ c.seq.wc + k then (c.applyTile ⟨0, a, op⟩).tileRow a i else c.tileRow a i := by
  split
  · next h =>
    obtain ⟨l, rfl⟩ := Nat.exists_eq_add_of_lt hd
    obtain ⟨m, rfl⟩ := Nat.exists_eq_add_of_le (show l + 1 ≤ k by omega)
    have hstep := advance_applies (c := c.after l) hop hf ht (by simp [Core.after])
    have hrest := applyTile_tilesOnly hop ((c.after l).after 1).noTiles (c.seq.wc + l + 1) a
    have hacc := applyTile_acc (c := ((c.after l).after 1).noTiles) (c' := c) hop rfl (c.seq.wc + l + 1) 0 a
    rw [Nat.add_comm (l + 1), Function.iterate_add_apply, Function.iterate_succ_apply', iterate_advance_waits hop hf ht (by omega), hstep,
      iterate_advance_idle ((congrArg Core.flight hrest).trans hf) (congrArg (fun x => x.mat.tiles) hrest)]
    exact congrArg (fun t => (t[a]).toList.getD i 0) hacc
  · next h => rw [iterate_advance_waits hop hf ht (by omega)]; rfl
end

end Sys2Proof.Machine
end

section
/-! PROOF. Values in accumulator tiles (R203, R298, R304, R306, R307): bias, i8 steps, readouts and the completion of steps, and O43. -/

namespace Sys2Proof.Machine

/-! ### Elements of rows that are formed one by one -/

/-- A row of a tile from its 128 elements of 32 bits. -/
theorem el_row (x : Nat → Nat) {j : Nat} (hj : j < 128) : el (BitVec.ofNat 4096 (unel 32 ((List.range 128).map x))).toNat 32 j = x j % 2 ^ 32 := by
  rw [el_ofNat_unel (by simp), getD_map_range, if_pos hj]

/-- 8 rows replaced by rows that a function forms from the rows that stand there. -/
theorem tileRow_setTileRows_map (c : Core) (a b : Fin 8) {rb : Nat} (hrb : rb < 16) (F : Nat → BitVec 4096) (i : Nat) :
    (c.setTileRows a (8 * rb) ((List.range 8).map F)).tileRow b i = if b = a ∧ 8 * rb ≤ i ∧ i < 8 * rb + 8 then F (i - 8 * rb) else c.tileRow b i := by
  have hlen : ((List.range 8).map F).length = 8 := by simp
  rw [tileRow_setTileRows _ _ _ (by rw [hlen]; omega), hlen, getD_map_range]
  split
  · next h => rw [if_pos (by omega)]
  · rfl

/-! ### Steps of i8 (R203) -/

theorem signedOf_emod (w x : Nat) : signedOf w x % 2 ^ w = (x : Int) % 2 ^ w := by
  unfold signedOf
  dsimp only
  split
  · push_cast
    exact Int.emod_emod_of_dvd _ dvd_rfl
  · push_cast
    rw [Int.sub_emod_right]
    exact Int.emod_emod_of_dvd _ dvd_rfl

/-- An i8 step adds the exact dot product modulo 2^32. -/
theorem stepElem_i8 (x y : Nat) (sa sb : Nat → Nat) (acc : Nat) : (stepElem 7 x y sa sb acc).1 % 2 ^ 32 =
    (((acc : Int) + ((List.range 256).map (fun k => (BitVec.ofNat 8 (el x 8 k)).toInt * (BitVec.ofNat 8 (el y 8 k)).toInt)).sum) % 2 ^ 32).toNat := by
  have hsum : (List.range 256).foldl (fun (t : Int) k => t + signedOf 8 (el x 8 k) * signedOf 8 (el y 8 k)) 0 =
      ((List.range 256).map (fun k => (BitVec.ofNat 8 (el x 8 k)).toInt * (BitVec.ofNat 8 (el y 8 k)).toInt)).sum := by
    rw [List.sum_eq_foldl, List.foldl_map]
    simp only [signedOf_eq_toInt (by decide : 0 < 8)]
  have hstep : (stepElem 7 x y sa sb acc).1 = wrapTo 32 (signedOf 32 acc +
      (List.range 256).foldl (fun (t : Int) k => t + signedOf 8 (el x 8 k) * signedOf 8 (el y 8 k)) 0) := rfl
  rw [hstep, hsum, wrapTo_mod, Int.add_emod, signedOf_emod, ← Int.add_emod]

theorem el_stepRow (fc x : Nat) (sa : Nat → Nat) (bs : List Vec) (sb : List (BitVec 1024)) (acc : BitVec 4096) {j : Nat} (hj : j < 128) :
    el (stepRow fc x sa bs sb acc).1.toNat 32 j =
      (stepElem fc x (bs.getD j 0).toNat sa (fun blk => el (sb.getD j 0).toNat 16 blk) (el acc.toNat 32 j)).1 % 2 ^ 32 := by
  unfold stepRow
  dsimp only
  rw [List.map_map, el_row _ hj]
  rfl

theorem tileRow_raise (c : Core) (f : Flags) (a : Fin 8) (i : Nat) : (c.raise f).tileRow a i = c.tileRow a i := rfl

theorem tileRow_applyTile_step (c : Core) (d : Nat) (a b : Fin 8) {rb : Nat} (hrb : rb < 16) (n : Nat) (qa : Fin 16) (rp : Nat) (rows bs : List Vec)
    (sb sa : List (BitVec 1024)) (fc i : Nat) : (c.applyTile ⟨d, a, .step n qa rp rows bs sb sa fc rb⟩).tileRow b i =
      if b = a ∧ 8 * rb ≤ i ∧ i < 8 * rb + 8 then
        (stepRow fc (rows.getD (i - 8 * rb) 0).toNat (fun blk => el (sa.getD (i - 8 * rb) 0).toNat 16 blk) bs sb (c.tileRow a i)).1
      else c.tileRow b i := by
  unfold Core.applyTile
  dsimp only
  rw [tileRow_raise, List.map_map, tileRow_setTileRows_map c a b hrb]
  split
  · next h => rw [Function.comp_apply, Nat.add_sub_cancel' h.2.1]
  · rfl

/-! ### Operations of a tile, element by element -/

section
variable (c : Core) (d : Nat) (a b : Fin 8) {i j rb : Nat} (hrb : rb < 16) (hj : j < 128)
include hrb hj

theorem applyTile_bias_int (beta : BitVec 4096) : el ((c.applyTile ⟨d, a, .bias rb true beta⟩).tileRow b i).toNat 32 j =
    if b = a ∧ 8 * rb ≤ i ∧ i < 8 * rb + 8 then (el (c.tileRow a i).toNat 32 j + el beta.toNat 32 j) % 2 ^ 32 else el (c.tileRow b i).toNat 32 j := by
  unfold Core.applyTile
  dsimp only
  rw [tileRow_setTileRows_map c a b hrb]
  split
  · next h => rw [Nat.add_sub_cancel' h.2.1, el_row _ hj]; exact Nat.mod_mod ..
  · rfl

theorem applyTile_step_i8 (n : Nat) (qa : Fin 16) (rp : Nat) (rows bs : List Vec) (sb sa : List (BitVec 1024)) :
    el ((c.applyTile ⟨d, a, .step n qa rp rows bs sb sa 7 rb⟩).tileRow b i).toNat 32 j =
      if b = a ∧ 8 * rb ≤ i ∧ i < 8 * rb + 8 then
        ((((el (c.tileRow a i).toNat 32 j : Nat) : Int) + ((List.range 256).map (fun k =>
          (BitVec.ofNat 8 (el (rows.getD (i - 8 * rb) 0).toNat 8 k)).toInt * (BitVec.ofNat 8 (el (bs.getD j 0).toNat 8 k)).toInt)).sum) % 2 ^ 32).toNat
      else el (c.tileRow b i).toNat 32 j := by
  rw [tileRow_applyTile_step c d a b hrb]
  split
  · exact (el_stepRow _ _ _ _ _ _ hj).trans (stepElem_i8 ..)
  · rfl
end

theorem getD_replicate_zero (n i : Nat) : (List.replicate n (0 : BitVec 4096)).getD i 0 = 0 := by
  rw [List.getD_eq_getElem?_getD, List.getElem?_replicate]
  split <;> rfl

theorem applyTile_zero (c : Core) (d : Nat) (a b : Fin 8) (i : Nat) : (c.applyTile ⟨d, a, .zero⟩).tileRow b i = if b = a then 0 else c.tileRow b i := by
  unfold Core.tileRow Core.applyTile
  by_cases hb : b = a
  · subst hb
    rw [if_pos rfl]
    simp only [Fin.getElem_fin, Vector.getElem_set_self, Vector.toList_replicate]
    exact getD_replicate_zero 128 i
  · have hval : a.val ≠ b.val := fun h => hb (Fin.ext h.symm)
    simp [Vector.getElem_set_ne, hval, hb]

theorem applyTile_write (c : Core) (d : Nat) (a b : Fin 8) {rb : Nat} (hrb : rb < 16) {rows : List (BitVec 4096)} (hrows : rows.length = 8) (i : Nat) :
    (c.applyTile ⟨d, a, .write rb rows⟩).tileRow b i = if b = a ∧ 8 * rb ≤ i ∧ i < 8 * rb + 8 then rows.getD (i - 8 * rb) 0 else c.tileRow b i := by
  unfold Core.applyTile
  rw [tileRow_setTileRows c a b (by omega), hrows]

/-! ### When a tile is joined (R299) -/

theorem joinTile_eq_foldl_max (c : Core) (a : Fin 8) (l : Nat) :
    c.joinTile a l = ((c.mat.tiles.filter (fun t => t.acc = a)).map TileFlight.due).foldl max (c.seq.wc + l) := by
  rw [List.foldl_map, List.foldl_filter]
  simp [Core.joinTile]

theorem flyTile_visible {c : Core} (a : Fin 8) {l : Nat} {op : TileOp} (hop : op.Plain) (hf : c.flight = []) (ht : c.mat.tiles = []) (hl : 1 ≤ l) (k i : Nat) :
    (Core.advance^[k] (c.flyTile a l op)).tileRow a i = if l ≤ k then (c.applyTile ⟨0, a, op⟩).tileRow a i else c.tileRow a i := by
  have hdue : c.joinTile a l = c.seq.wc + l := by rw [Core.joinTile, ht]; rfl
  have htiles : (c.flyTile a l op).mat.tiles = [⟨c.seq.wc + l, a, op⟩] := by
    rw [← hdue]
    exact congrArg (· ++ [_]) ht
  have hacc := applyTile_acc (c := c.flyTile a l op) (c' := c) hop rfl 0 0 a
  have hrow : ((c.flyTile a l op).applyTile ⟨0, a, op⟩).tileRow a i = (c.applyTile ⟨0, a, op⟩).tileRow a i :=
    congrArg (fun t => (t[a]).toList.getD i 0) hacc
  have h := tileRow_iterate_advance hop (c := c.flyTile a l op) hf htiles (Nat.lt_add_of_pos_right hl) k i
  rw [hrow] at h
  exact h.trans (if_congr Nat.add_le_add_iff_left rfl rfl)

/-! ### Readouts (R304, R307) -/

/-- The landings of the entries of a readout, from entry `wp` on. -/
def rowLandings (due : Nat) (q : Fin 16) (wp depth : Nat) (flags : Flags) (l : List Vec) : List Landing :=
  (List.range l.length).map (fun k => ⟨due, .entry q (Fin.ofNat 8 ((wp + k) % depth)), l.getD k 0, BitVec.allOnes 2048, flags⟩)

theorem sendRows_flight (due : Nat) (q : Fin 16) (depth : Nat) (flags : Flags) (l : List Vec) (c : Core) (wp : Nat) :
    (c.sendRows due q wp depth flags l).flight = c.flight ++ rowLandings due q wp depth flags l := by
  induction l generalizing c wp with
  | nil => simp [Core.sendRows, rowLandings]
  | cons v vs ih =>
    rw [Core.sendRows, ih]
    simp [rowLandings, List.range_succ_eq_map, Function.comp_def, Nat.add_assoc, Nat.add_comm 1, allBits]

/-- An i32 element of an i8 tile is read as it stands (R204). -/
theorem readElem_i32 (band : Nat) (md : Round) {x : Nat} (hx : x < 2 ^ 32) : readElem .i32 7 band md x = (x, 0) := by
  have hread : readElem .i32 7 band md x = roundTo .i32 (.ofInt (signedOf 32 x)) md := rfl
  have hlow := BitVec.le_toInt (BitVec.ofNat 32 x)
  have hhigh := BitVec.toInt_lt (x := BitVec.ofNat 32 x)
  rw [hread, roundTo_ofInt rfl, signedOf_eq_toInt (by decide)]
  have hbits : Fmt.i32.bits = 32 := rfl
  rw [hbits, if_neg (not_lt.2 hlow), if_neg (not_le.2 hhigh), toInt_emod_of_lt hx]

/-- The elements of a readout of 8 rows, with their flags (R307). -/
def Core.readRows (c : Core) (a : Fin 8) (rb : Nat) (f : Fmt) (fc band rm : Nat) (rnd : List (List (BitVec 32))) : List (List (Nat × Flags)) :=
  (List.range 8).map (fun k => (List.range 128).map (fun j =>
    readElem f fc band (Round.ofCode rm 16 (el ((rnd.getD k []).getD (j % 64) 0).toNat 16 (j / 64))) (el (c.tileRow a (8 * rb + k)).toNat 32 j)))

/-- The flags of a readout. -/
def readFlags (r : List (List (Nat × Flags))) : Flags := r.foldl (fun a row => row.foldl (fun a x => a ||| x.2) a) 0

/-- A readout into elements of 32 bits goes to two rings (R304). -/
theorem applyTile_read_flight (c : Core) (d : Nat) (a : Fin 8) (rb fc band rm : Nat) (q : Fin 16) (wp depth wp2 depth2 : Nat) (rnd : List (List (BitVec 32)))
    {fmt : Nat} (hfmt : (Fmt.ofCode fmt).bits = 32) :
    let r := c.readRows a rb (Fmt.ofCode fmt) fc band rm rnd
    let e := rowEntries 32 (r.map (fun row => row.map Prod.fst))
    (c.applyTile ⟨d, a, .read rb q wp depth wp2 depth2 fmt fc band rm rnd⟩).flight =
      c.flight ++ rowLandings (d + 6) q wp depth (readFlags r) e.1 ++ rowLandings (d + 6) (Fin.ofNat 16 (q.val + 1)) wp2 depth2 (readFlags r) e.2 := by
  intro r e
  unfold Core.applyTile
  dsimp only
  rw [hfmt, if_pos (beq_self_eq_true 32), sendRows_flight, sendRows_flight]
  rfl

/-- The 8 rows of 128 elements from row `8·rb` of a tile. -/
def Core.rowsRead (c : Core) (a : Fin 8) (rb : Nat) : List (List Nat) :=
  (List.range 8).map (fun k => (List.range 128).map (fun j => el (c.tileRow a (8 * rb + k)).toNat 32 j))

/-- An i32 readout of an i8 tile: every element as it stands, and no flag. -/
theorem readRows_i32 (c : Core) (a : Fin 8) (rb band rm : Nat) (rnd : List (List (BitVec 32))) :
    c.readRows a rb .i32 7 band rm rnd = (c.rowsRead a rb).map (fun row => row.map (fun x => (x, 0))) := by
  unfold Core.readRows Core.rowsRead
  rw [List.map_map]
  refine List.map_congr_left fun k _ => ?_
  rw [Function.comp_apply, List.map_map]
  exact List.map_congr_left fun j _ => readElem_i32 _ _ (el_lt ..)

theorem readFlags_zero (l : List (List Nat)) : readFlags (l.map (fun row => row.map (fun x => (x, 0)))) = 0 := by
  unfold readFlags
  refine List.foldlRecOn (motive := fun a => a = 0) _ _ rfl fun a ha row hrow => ?_
  obtain ⟨xs, _, rfl⟩ := List.mem_map.1 hrow
  rw [ha]
  refine foldl_or_zero Prod.snd fun x hx => ?_
  obtain ⟨_, _, rfl⟩ := List.mem_map.1 hx
  rfl

theorem applyTile_read_i32 (c : Core) (d : Nat) (a : Fin 8) (rb band rm : Nat) (q : Fin 16) (wp depth wp2 depth2 : Nat) (rnd : List (List (BitVec 32))) :
    (c.applyTile ⟨d, a, .read rb q wp depth wp2 depth2 5 7 band rm rnd⟩).flight =
      c.flight ++ rowLandings (d + 6) q wp depth 0 (rowEntries 32 (c.rowsRead a rb)).1 ++
        rowLandings (d + 6) (Fin.ofNat 16 (q.val + 1)) wp2 depth2 0 (rowEntries 32 (c.rowsRead a rb)).2 := by
  have h := applyTile_read_flight c d a rb 7 band rm q wp depth wp2 depth2 rnd (fmt := 5) rfl
  have hfmt : Fmt.ofCode 5 = .i32 := rfl
  simp only [hfmt, readRows_i32, readFlags_zero, List.map_map, Function.comp_def, List.map_id'] at h
  exact h

theorem length_rowEntries (c : Core) (a : Fin 8) (rb : Nat) :
    (rowEntries 32 (c.rowsRead a rb)).1.length = 8 ∧ (rowEntries 32 (c.rowsRead a rb)).2.length = 8 := by
  simp [rowEntries, Core.rowsRead]

theorem rowEntries_elems (c : Core) (a : Fin 8) (rb : Nat) {k j : Nat} (hk : k < 8) (hj : j < 64) :
    el ((rowEntries 32 (c.rowsRead a rb)).1.getD k 0).toNat 32 j = el (c.tileRow a (8 * rb + k)).toNat 32 j ∧
      el ((rowEntries 32 (c.rowsRead a rb)).2.getD k 0).toNat 32 j = el (c.tileRow a (8 * rb + k)).toNat 32 (64 + j) := by
  have hentries : rowEntries 32 (c.rowsRead a rb) = ((c.rowsRead a rb).map (fun r => vecOf 32 (r.take 64)), (c.rowsRead a rb).map (fun r => vecOf 32 (r.drop 64))) :=
    if_pos rfl
  rw [hentries, Core.rowsRead, List.map_map, List.map_map, getD_map_range, getD_map_range, if_pos hk, if_pos hk, Function.comp_apply, Function.comp_apply,
    el_vecOf (by simp), el_vecOf (by simp)]
  constructor
  · rw [List.getD_eq_getElem _ _ (by simpa using hj)]
    simpa using el_lt (c.tileRow a (8 * rb + k)).toNat 32 j
  · rw [List.getD_eq_getElem _ _ (by simpa using hj)]
    simpa using el_lt (c.tileRow a (8 * rb + k)).toNat 32 (64 + j)

/-! ### Steps that complete (R298) -/

/-- The steps of a core that are due in its next working cycle. -/
def Core.stepsDue (c : Core) : List TileFlight := c.mat.tiles.filter (fun x => x.isStep && decide (x.due ≤ c.seq.wc + 1))

/-- The core with those steps taken off. -/
def Core.withoutStepsDue (c : Core) : Core :=
  { c with mat := { c.mat with tiles := c.mat.tiles.filter (fun x => !(x.isStep && decide (x.due ≤ c.seq.wc + 1))) } }

theorem mstepComplete_eq (s : State) (n : Nat) :
    exec (.mstepComplete n) s = .next (s.setCore n ((s.core n).stepsDue.foldl Core.applyTile (s.core n).withoutStepsDue)) := rfl

theorem withoutStepsDue_none {c : Core} (h : c.stepsDue = []) : c.withoutStepsDue = c := by
  have htiles := tilesDue_nil (c := c) TileFlight.isStep h
  unfold Core.stepsDue at h
  unfold Core.tilesDue at htiles
  dsimp only at htiles
  rw [h] at htiles
  exact htiles

/-- Settles O43: rows by what is replaced, elements by the value formed, and one flight of an operation by induction on the cycles. -/
theorem tileOperations : Obligations.TileOperations := by
  unfold Obligations.TileOperations
  refine ⟨fun c a l k i op hf ht hl hop => flyTile_visible a hop hf ht hl k i, joinTile_eq_foldl_max,
    fun c d a b i hi => ⟨applyTile_zero c d a b i, ?_, ?_, ?_⟩, ?_, ?_⟩
  · exact fun rb rows hrb hrows => applyTile_write c d a b hrb hrows i
  · exact fun rb beta j hrb hj => applyTile_bias_int c d a b hrb hj beta
  · exact fun n qa rp rows bs sb sa rb j hrb hj => applyTile_step_i8 c d a b hrb hj n qa rp rows bs sb sa
  · intro c d a rb band rm q wp depth wp2 depth2 rnd hrb
    obtain ⟨hlo, hhi⟩ := length_rowEntries c a rb
    refine ⟨_, _, hlo, hhi, ?_, fun k j => rowEntries_elems c a rb⟩
    have h := applyTile_read_i32 c d a rb band rm q wp depth wp2 depth2 rnd
    rwa [rowLandings, rowLandings, hlo, hhi] at h
  · intro s n c due c'
    refine ⟨fun h => ?_, fun x h => ?_, fun x y h => ?_⟩
    · rw [mstepComplete_eq, withoutStepsDue_none h, show (s.core n).stepsDue = [] from h]
      rfl
    · rw [mstepComplete_eq, show (s.core n).stepsDue = [x] from h]
      rfl
    · rw [mstepComplete_eq, show (s.core n).stepsDue = [x, y] from h]
      rfl

end Sys2Proof.Machine
end

section
/-! PROOF. Bodies and bundles (R212, R213, R219, R223-R225, R452, R453): what decodes is the encoding of its operation (O2), an encoded operation
decodes to itself (O1), and the bodies of the spec's examples (O3). -/

namespace Sys2Proof.Laws

/-! ### A body and its slices (R219) -/

/-- Below the top of a slice of a number stand the slice and what is below it. -/
theorem slice_add_mod (w K n : Nat) : w / K % n * K + w % K = w % (K * n) := by
  rw [Nat.mod_mul, Nat.mul_comm]; exact Nat.add_comm _ _

theorem slice_eq_iff (w lo len v : Nat) : w / 2 ^ lo % 2 ^ len = v ↔ v * 2 ^ lo + w % 2 ^ lo = w % 2 ^ (lo + len) := by
  rw [Nat.pow_add, ← slice_add_mod, Nat.add_right_cancel_iff]
  exact (Nat.mul_left_inj (Nat.two_pow_pos lo).ne').symm.trans ⟨Eq.symm, Eq.symm⟩

theorem field_val (n w k : Nat) [NeZero n] : (field n w k).val = w / 2 ^ k % n := rfl

theorem pack_cons (v k : Nat) (r : List (Nat × Nat)) : pack ((v, k) :: r) = v * 2 ^ k + pack r := rfl

/-- The fixed bits of a body have their values, each range joined to the bits below it. -/
def FixedBits (w : Nat) : List (Nat × Nat × Nat × Nat) → Prop
  | [] => pack [] = w % 1
  | (lo, len, v, _) :: want => v * 2 ^ lo + w % 2 ^ lo = w % 2 ^ (lo + len) ∧ FixedBits w want

/-- What the checks of a body say of it (R453): its reserved ranges are zero, and its fixed bits have their values. -/
def Sound (w : Nat) (want : List (Nat × Nat × Nat × Nat)) : List (Nat × Nat) → Prop
  | [] => FixedBits w want
  | (lo, len) :: zeros => w % 2 ^ lo = w % 2 ^ (lo + len) ∧ Sound w want zeros

theorem fixedBits_of_wantFault {w : Nat} {want : List (Nat × Nat × Nat × Nat)} (h : wantFault w want = none) : FixedBits w want := by
  induction want with
  | nil => exact (Nat.mod_one w).symm
  | cons t want ih =>
    obtain ⟨lo, len, v, b⟩ := t
    rw [wantFault] at h
    split at h
    · next hv => exact ⟨(slice_eq_iff w lo len v).1 (eq_of_beq hv), ih h⟩
    · cases h

theorem sound_of_zeroFault {w : Nat} {want : List (Nat × Nat × Nat × Nat)} {zeros : List (Nat × Nat)} (hw : FixedBits w want)
    (h : zeroFault w zeros = none) : Sound w want zeros := by
  induction zeros with
  | nil => exact hw
  | cons z zeros ih =>
    obtain ⟨lo, len⟩ := z
    rw [zeroFault] at h
    split at h
    · next hv => exact ⟨by simpa using (slice_eq_iff w lo len 0).1 (eq_of_beq hv), ih h⟩
    · cases h

theorem minFault_eq_none {a b : Option Nat} : minFault a b = none ↔ a = none ∧ b = none := by
  cases a <;> cases b <;> simp [minFault]

/-- An arm of the decoder: a body with opcode `op` that passes its checks is the encoding of the operation read off it, where the fields and the
checked ranges fill the bits below the opcode: `slice_add_mod` joins them from the lowest on. -/
theorem encodes_of_checked {w op k m : Nat} {zeros : List (Nat × Nat)} {want : List (Nat × Nat × Nat × Nat)} {i j : Instr} {r : List (Nat × Nat)}
    (hop : w / 2 ^ k = op) (h : checked w zeros want i = .ok j) (he : encodeBody i = some (pack ((op, k) :: r)))
    (hr : Sound w want zeros → pack r = w % 2 ^ k := by simp +contextual only [Sound, FixedBits, pack_cons, field_val, slice_add_mod,
      Nat.reduceAdd, Nat.reducePow, Nat.reduceMul, Nat.zero_mul, Nat.zero_add, implies_true])
    (hm : (op + 1) * 2 ^ k ≤ m := by decide) : encodeBody j = some w ∧ w < m := by
  have hlt : w < m := lt_of_lt_of_le ((Nat.div_lt_iff_lt_mul (Nat.two_pow_pos k)).1 (hop ▸ Nat.lt_succ_self op)) hm
  unfold checked at h
  split at h
  · cases h
  · next hf =>
    split at h
    · cases h
    · next ho =>
      cases h
      have sound := sound_of_zeroFault (fixedBits_of_wantFault (minFault_eq_none.1 ho).1) (minFault_eq_none.1 hf).1
      exact ⟨by rw [he, pack, hr sound, ← hop, Nat.div_add_mod'], hlt⟩

/-! ### What decodes is the encoding of its operation (R223-R225) -/

theorem decodeS_ok {w : Nat} {i : Instr} (h : decodeS w = .ok i) : encodeBody i = some w ∧ w < 2 ^ 32 := by
  unfold decodeS at h
  split at h
  rotate_right
  · cases h
  all_goals
    next hop =>
    exact encodes_of_checked hop h rfl

/-- VCMPR of the source zero and VXPND to the destination zero are operations of their own (R290, R291): the specifier is a fixed part of their
bodies. -/
theorem decodeV_ok {w : Nat} {i : Instr} (h : decodeV w = .ok i) : encodeBody i = some w ∧ w < 2 ^ 32 := by
  unfold decodeV at h
  split at h
  rotate_right
  · cases h
  case h_67 hop =>
    split at h
    · next hs =>
      have source : 393216 + w % 8192 = w % 524288 := (slice_eq_iff w 13 6 48).1 (eq_of_beq hs)
      exact encodes_of_checked hop h rfl (by
        simp +contextual only [Sound, FixedBits, pack_cons, field_val, slice_add_mod, source, Nat.reduceAdd, Nat.reducePow, Nat.reduceMul,
          implies_true])
    · exact encodes_of_checked hop h rfl
  case h_68 hop =>
    split at h
    · next hs =>
      have source : 25165824 + w % 524288 = w % 33554432 := (slice_eq_iff w 19 6 48).1 (eq_of_beq hs)
      exact encodes_of_checked hop h rfl (by
        simp +contextual only [Sound, FixedBits, pack_cons, field_val, slice_add_mod, source, Nat.reduceAdd, Nat.reducePow, Nat.reduceMul,
          implies_true])
    · exact encodes_of_checked hop h rfl
  all_goals
    next hop =>
    exact encodes_of_checked hop h rfl

theorem decodeX_ok {w : Nat} {i : Instr} (h : decodeX w = .ok i) : encodeBody i = some w ∧ w < 2 ^ 32 := by
  unfold decodeX at h
  split at h
  rotate_right
  · cases h
  all_goals
    next hop =>
    exact encodes_of_checked hop h rfl

theorem decodeM_ok {w : Nat} {i : Instr} (h : decodeM w = .ok i) : encodeBody i = some w ∧ w < 2 ^ 64 := by
  unfold decodeM at h
  split at h
  rotate_right
  · cases h
  all_goals
    next hop =>
    exact encodes_of_checked hop h rfl

theorem decodeC_ok {w : Nat} {i : Instr} (h : decodeC w = .ok i) : encodeBody i = some w ∧ w < 2 ^ 64 := by
  unfold decodeC at h
  split at h
  rotate_right
  · cases h
  all_goals
    next hop =>
    exact encodes_of_checked hop h rfl

/-- A body that decodes is the encoding of its operation, and fits the bytes of its slot. -/
theorem decodeBody_ok {k : Slot} {w : Nat} {i : Instr} (h : decodeBody k w = .ok i) : encodeBody i = some w ∧ w < 2 ^ (8 * k.width) := by
  cases k with
  | s => exact decodeS_ok h
  | v0 => exact decodeV_ok h
  | v1 => exact decodeV_ok h
  | m => exact decodeM_ok h
  | x => exact decodeX_ok h
  | c0 => exact decodeC_ok h
  | c1 => exact decodeC_ok h

/-! ### An encoded body decodes to its operation (R219, R223-R225) -/

theorem decodeBody_encodeBody (i : Instr) : Encoding.Statement i := by
  cases i with
  | add => exact Encoding.add _ _ _
  | sub => exact Encoding.sub _ _ _
  | mul => exact Encoding.mul _ _ _
  | mulh => exact Encoding.mulh _ _ _
  | mulhn => exact Encoding.mulhn _ _ _
  | div => exact Encoding.div _ _ _
  | divn => exact Encoding.divn _ _ _
  | rem => exact Encoding.rem _ _ _
  | remn => exact Encoding.remn _ _ _
  | and => exact Encoding.and _ _ _
  | or => exact Encoding.or _ _ _
  | xor => exact Encoding.xor _ _ _
  | shl => exact Encoding.shl _ _ _
  | shr => exact Encoding.shr _ _ _
  | sra => exact Encoding.sra _ _ _
  | min => exact Encoding.min _ _ _
  | max => exact Encoding.max _ _ _
  | minn => exact Encoding.minn _ _ _
  | maxn => exact Encoding.maxn _ _ _
  | clz => exact Encoding.clz _ _
  | popc => exact Encoding.popc _ _
  | sel => exact Encoding.sel _ _ _ _
  | cmp => exact Encoding.cmp _ _ _ _
  | pand => exact Encoding.pand _ _ _
  | por => exact Encoding.por _ _ _
  | pxor => exact Encoding.pxor _ _ _
  | pnot => exact Encoding.pnot _ _
  | jr => exact Encoding.jr _ _
  | ret => exact Encoding.ret _
  | addi => exact Encoding.addi _ _ _
  | andi => exact Encoding.andi _ _ _
  | ori => exact Encoding.ori _ _ _
  | xori => exact Encoding.xori _ _ _
  | shli => exact Encoding.shli _ _ _
  | shri => exact Encoding.shri _ _ _
  | srai => exact Encoding.srai _ _ _
  | cmpi => exact Encoding.cmpi _ _ _ _
  | lih => exact Encoding.lih _ _
  | br => exact Encoding.br _
  | brc => exact Encoding.brc _ _ _
  | call => exact Encoding.call _
  | loop => exact Encoding.loop _ _ _ _
  | loopi => exact Encoding.loopi _ _ _ _
  | lexit => exact Encoding.lexit _
  | ld => exact Encoding.ld _ _ _ _
  | st => exact Encoding.st _ _ _ _
  | ldc => exact Encoding.ldc _ _ _ _
  | stc => exact Encoding.stc _ _ _ _
  | csrr => exact Encoding.csrr _ _
  | csrw => exact Encoding.csrw _ _ _ _
  | csrs => exact Encoding.csrs _ _ _ _
  | csrc => exact Encoding.csrc _ _ _ _
  | radv => exact Encoding.radv _ _ _ _
  | rcfg => exact Encoding.rcfg _ _ _ _
  | rfill => exact Encoding.rfill _ _
  | fence => exact Encoding.fence _ _ _
  | waitb => exact Encoding.waitb _
  | waitt => exact Encoding.waitt _
  | trap => exact Encoding.trap _
  | brkpt => exact Encoding.brkpt _
  | exit => exact Encoding.exit
  | turn => exact Encoding.turn _ _
  | yield => exact Encoding.yield
  | book => exact Encoding.book _ _ _
  | unbook => exact Encoding.unbook _ _ _
  | bqry => exact Encoding.bqry _ _ _
  | spawn => exact Encoding.spawn _ _ _
  | cancel => exact Encoding.cancel _ _ _
  | vadd => exact Encoding.vadd _ _ _ _ _
  | vsub => exact Encoding.vsub _ _ _ _ _
  | vmul => exact Encoding.vmul _ _ _ _ _
  | vfma => exact Encoding.vfma _ _ _ _ _
  | vfms => exact Encoding.vfms _ _ _ _ _
  | vfnma => exact Encoding.vfnma _ _ _ _ _
  | vmin => exact Encoding.vmin _ _ _ _ _
  | vmax => exact Encoding.vmax _ _ _ _ _
  | vabs => exact Encoding.vabs _ _ _ _
  | vneg => exact Encoding.vneg _ _ _ _
  | vrcp => exact Encoding.vrcp _ _ _ _
  | vrsq => exact Encoding.vrsq _ _ _ _
  | vsqrt => exact Encoding.vsqrt _ _ _ _
  | vexp2 => exact Encoding.vexp2 _ _ _ _
  | vlog2 => exact Encoding.vlog2 _ _ _ _
  | vtanh => exact Encoding.vtanh _ _ _ _
  | viadd => exact Encoding.viadd _ _ _ _ _
  | visub => exact Encoding.visub _ _ _ _ _
  | vimul => exact Encoding.vimul _ _ _ _ _
  | vimulh => exact Encoding.vimulh _ _ _ _ _
  | viadds => exact Encoding.viadds _ _ _ _ _
  | visubs => exact Encoding.visubs _ _ _ _ _
  | vimin => exact Encoding.vimin _ _ _ _ _
  | vimax => exact Encoding.vimax _ _ _ _ _
  | viminn => exact Encoding.viminn _ _ _ _ _
  | vimaxn => exact Encoding.vimaxn _ _ _ _ _
  | vand => exact Encoding.vand _ _ _ _ _
  | vor => exact Encoding.vor _ _ _ _ _
  | vxor => exact Encoding.vxor _ _ _ _ _
  | vshl => exact Encoding.vshl _ _ _ _ _
  | vshr => exact Encoding.vshr _ _ _ _ _
  | vsra => exact Encoding.vsra _ _ _ _ _
  | vcmp => exact Encoding.vcmp _ _ _ _ _ _
  | vsel => exact Encoding.vsel _ _ _ _ _
  | vmand => exact Encoding.vmand _ _ _
  | vmor => exact Encoding.vmor _ _ _
  | vmxor => exact Encoding.vmxor _ _ _
  | vmnot => exact Encoding.vmnot _ _
  | vmpop => exact Encoding.vmpop _ _
  | vcvt => exact Encoding.vcvt _ _ _ _ _
  | vqnt => exact Encoding.vqnt _ _ _ _ _ _
  | vdqnt => exact Encoding.vdqnt _ _ _ _ _ _
  | vpack => exact Encoding.vpack _ _ _ _ _
  | vunpk => exact Encoding.vunpk _ _ _ _
  | vmov => exact Encoding.vmov _ _ _ _
  | vmovi => exact Encoding.vmovi _ _ _ _
  | vperm => exact Encoding.vperm _ _ _ _ _
  | vshuf => exact Encoding.vshuf _ _ _ _ _
  | vrot => exact Encoding.vrot _ _ _ _ _
  | vbcst => exact Encoding.vbcst _ _ _ _
  | vidx => exact Encoding.vidx _ _ _ _ _
  | vins => exact Encoding.vins _ _ _ _ _
  | vext => exact Encoding.vext _ _ _ _
  | vrsum => exact Encoding.vrsum _ _ _ _
  | vrmax => exact Encoding.vrmax _ _ _ _
  | vrmin => exact Encoding.vrmin _ _ _ _
  | vscan => exact Encoding.vscan _ _ _ _
  | vsort => exact Encoding.vsort _ _ _ _
  | vld => exact Encoding.vld _ _ _ _
  | vst => exact Encoding.vst _ _ _ _
  | vlds => exact Encoding.vlds _ _ _ _ _
  | vsts => exact Encoding.vsts _ _ _ _ _
  | vgth => exact Encoding.vgth _ _ _ _ _
  | vsct => exact Encoding.vsct _ _ _ _ _
  | vldc => exact Encoding.vldc _ _ _ _
  | vstc => exact Encoding.vstc _ _ _ _
  | vcmpr => exact Encoding.vcmpr _ _ _ _
  | vcmprFlush => exact Encoding.vcmprFlush _ _
  | vxpnd => exact Encoding.vxpnd _ _ _ _
  | vxpndDrop => exact Encoding.vxpndDrop _ _
  | mldb => exact Encoding.mldb _ _ _ _ _ _
  | mstep => exact Encoding.mstep _ _ _ _ _ _ _ _
  | mzero => exact Encoding.mzero _ _
  | mrd => exact Encoding.mrd _ _ _ _ _ _ _ _
  | mwr => exact Encoding.mwr _ _ _ _ _
  | mbias => exact Encoding.mbias _ _ _ _ _
  | xput => exact Encoding.xput _ _ _ _
  | xget => exact Encoding.xget _ _ _ _
  | xclr => exact Encoding.xclr _
  | cdset => exact Encoding.cdset _ _ _ _
  | cget => exact Encoding.cget _ _ _ _ _ _ _ _ _ _ _
  | cput => exact Encoding.cput _ _ _ _ _ _ _ _ _ _ _
  | cxfer => exact Encoding.cxfer _ _ _ _ _ _ _ _ _
  | cfill => exact Encoding.cfill _ _ _ _ _ _ _ _ _ _
  | ctouch => exact Encoding.ctouch _ _ _ _ _ _ _
  | cflush => exact Encoding.cflush _ _ _ _ _ _ _
  | cmap => exact Encoding.cmap _ _ _ _ _ _
  | cmigr => exact Encoding.cmigr _ _ _ _ _ _ _ _
  | cpfx => exact Encoding.cpfx _ _ _ _
  | aadd => exact Encoding.aadd _ _ _ _ _ _ _ _ _
  | afadd => exact Encoding.afadd _ _ _ _ _ _ _ _ _
  | aand => exact Encoding.aand _ _ _ _ _ _ _ _ _
  | aor => exact Encoding.aor _ _ _ _ _ _ _ _ _
  | axor => exact Encoding.axor _ _ _ _ _ _ _ _ _
  | amin => exact Encoding.amin _ _ _ _ _ _ _ _ _
  | amax => exact Encoding.amax _ _ _ _ _ _ _ _ _
  | aminn => exact Encoding.aminn _ _ _ _ _ _ _ _ _
  | amaxn => exact Encoding.amaxn _ _ _ _ _ _ _ _ _
  | axchg => exact Encoding.axchg _ _ _ _ _ _ _ _ _
  | acas => exact Encoding.acas _ _ _ _ _ _ _ _ _
  | adecp => exact Encoding.adecp _ _ _ _ _ _ _ _ _
  | adcas => exact Encoding.adcas _ _ _ _ _ _ _ _ _
  | amove => exact Encoding.amove _ _ _ _ _ _ _ _ _
  | ared => exact Encoding.ared _ _ _ _ _ _ _
  | waita => exact Encoding.waita _ _ _ _ _ _ _ _ _
  | wake => exact Encoding.wake _ _ _ _ _ _ _ _
  | psend => exact Encoding.psend _ _ _ _ _ _ _ _
  | precv => exact Encoding.precv _ _ _ _ _ _ _ _
  | pclose => exact Encoding.pclose _ _ _
  | tbar => exact Encoding.tbar _ _ _ _ _
  | barsig => exact Encoding.barsig _ _ _ _
  | barset => exact Encoding.barset _ _ _
  | ixopen => exact Encoding.ixopen _ _ _ _ _
  | ixlist => exact Encoding.ixlist _ _ _ _ _ _ _ _
  | ixand => exact Encoding.ixand _ _ _ _
  | ixor => exact Encoding.ixor _ _ _ _
  | ixscore => exact Encoding.ixscore _ _ _ _
  | ixvec => exact Encoding.ixvec _ _ _ _ _ _ _
  | ixtopk => exact Encoding.ixtopk _ _ _
  | ixdrain => exact Encoding.ixdrain _ _ _ _ _ _ _
  | ixclose => exact Encoding.ixclose _ _ _
  | _ => exact fun _ _ _ h => nomatch h

/-! ### Bundles of one slot (R212) -/

theorem leBytes_length (n w : Nat) : (leBytes n w).length = n := by
  induction n generalizing w with
  | zero => rfl
  | succ n ih => rw [leBytes, List.length_cons, ih]

theorem leNat_leBytes (n w : Nat) (rest : List (BitVec 8)) : leNat n (leBytes n w ++ rest) = w % 256 ^ n := by
  induction n generalizing w with
  | zero => exact (Nat.mod_one w).symm
  | succ n ih =>
    rw [leBytes, List.cons_append, leNat, ih, BitVec.toNat_ofNat, Nat.pow_succ' (m := 256), Nat.mod_mul]

/-- A header that names one slot, and the body of that slot in full, are the bundle of the one slot (R212). -/
theorem parseBundle_single (k : Slot) {w : Nat} (hw : w < 2 ^ (8 * k.width)) (latch : Slot → Option Nat) (rest : List (BitVec 8)) :
    parseBundle 0 latch (BitVec.ofNat 8 (2 ^ k.index) :: (leBytes k.width w ++ rest)) =
      .bundle ⟨2 ^ k.index, 0, none, [⟨k, false, some w⟩], 1 + k.width⟩ := by
  have body : leNat k.width (leBytes k.width w ++ rest) = w := by
    rw [leNat_leBytes, Nat.mod_eq_of_lt (by rwa [Nat.pow_mul] at hw)]
  unfold parseBundle
  cases k <;> simp_all [leNat, Slot.index, bitOf, takeSlots, Slot.all, Slot.width]

theorem decode_single {k : Slot} {w : Nat} {i : Instr} (h : decodeBody k w = .ok i) (rest : List (BitVec 8)) :
    decode (BitVec.ofNat 8 (2 ^ k.index) :: (leBytes k.width w ++ rest)) = some (i, rest) := by
  have hdrop : (BitVec.ofNat 8 (2 ^ k.index) :: (leBytes k.width w ++ rest)).drop (1 + k.width) = rest := by
    rw [Nat.add_comm, List.drop_succ_cons, List.drop_left' (leBytes_length _ _)]
  simp only [decode, parseBundle_single k (decodeBody_ok h).2, h, hdrop]

theorem encode_fallowBundle : encode .fallowBundle = [0x80, 0x00] := by decide

/-- H = 0x80 with D = 0x00 is the fallow bundle (R213). -/
theorem decode_fallow (rest : List (BitVec 8)) : decode (0x80 :: 0x00 :: rest) = some (.fallowBundle, rest) := by
  simp [decode, parseBundle, leNat, bitOf, takeSlots, Slot.all, Slot.index]

theorem encode_of_body {i : Instr} {u : Unit'} {w : Nat} (hu : i.unit = some u) (hw : encodeBody i = some w) :
    encode i = BitVec.ofNat 8 (2 ^ u.slot.index) :: leBytes u.slot.width w := by
  rw [encode, hu, hw]

/-- An operation without a body has bytes only where it is the fallow bundle (R213). -/
theorem eq_fallowBundle_of_encode {i : Instr} (h : encode i ≠ []) (hn : i.unit = none ∨ encodeBody i = none) : i = .fallowBundle := by
  by_contra hi
  refine h ?_
  unfold encode
  rcases hn with hn | hn
  · rw [hn]; exact if_neg hi
  · rw [hn]; cases i.unit <;> exact if_neg hi

/-- Settles O2: in each arm of the decoder the fields of the operation and the ranges that are checked fill the body below its opcode. -/
theorem bodyIsTheEncoding : Obligations.BodyIsTheEncoding := by
  unfold Obligations.BodyIsTheEncoding
  exact fun k w i h => (decodeBody_ok h).1

/-- Settles O1: the header names the one slot of the bundle, its body is in full, and the body of every operation decodes to the operation. -/
theorem encodingRoundTrip : Obligations.EncodingRoundTrip := by
  unfold Obligations.EncodingRoundTrip
  intro i rest hwf hne
  cases hu : i.unit with
  | none =>
    rw [eq_fallowBundle_of_encode hne (.inl hu), encode_fallowBundle]
    exact decode_fallow rest
  | some u =>
    cases hw : encodeBody i with
    | none =>
      rw [eq_fallowBundle_of_encode hne (.inr hw), encode_fallowBundle]
      exact decode_fallow rest
    | some w =>
      rw [encode_of_body hu hw]
      exact decode_single (decodeBody_encodeBody i hwf u w hu hw) rest

/-- Settles O3, by running the decoder on each body. -/
theorem exampleBodies : Obligations.ExampleBodies := by
  unfold Obligations.ExampleBodies
  decide

end Sys2Proof.Laws
end

section
/-! PROOF. What the commit of a bundle changes, and what it leaves alone (R213, R217, R218). -/

namespace Sys2Proof.Machine

/-- The core that the commit goes on from: the accesses of the bundle wait for their ports, and their results are the bundle's loads. -/
def Core.posted (c : Core) (iss : Issue) (now : Nat) : Core :=
  { c with unserved := iss.ports.map (fun p => { p with since := now }), loads := iss.loads }

/-- The sequencer's records of a bundle that has ended, whatever address follows and whatever its loops are. -/
def Core.recorded (c : Core) (iss : Issue) (pc : Nat) (x : Scalar) (now : Nat) : Core :=
  { c.posted iss now with
    seq := { c.seq with pc := pc, last := c.seq.pc, epoch := c.seq.epoch + 1,
                        inc := (if iss.inc.isSome then iss.inc else c.seq.inc), complete := c.seq.wc,
                        busy := c.seq.wc + 1 + (if iss.jump.isSome then 1 else 0) }
    x := x }

/-- A bundle with a taken transfer goes to its target and touches no loop (R249). -/
theorem commitSeq_jump {c : Core} {iss : Issue} {a : Nat} (h : iss.jump = some a) (now : Nat) :
    c.commitSeq iss now = c.recorded iss a c.x now := by
  unfold Core.commitSeq Core.recorded Core.posted
  rw [h]

/-- A bundle without one falls through to the loop-back (R253). -/
theorem commitSeq_fallThrough {c : Core} {iss : Issue} (h : iss.jump = none) (now : Nat) :
    c.commitSeq iss now =
      let r := (c.posted iss now).loopBack (iss.skip.getD (c.seq.pc + iss.len)) c.x.loops
      c.recorded iss r.2 r.1.x now := by
  unfold Core.commitSeq Core.recorded Core.posted
  rw [h]
  dsimp only
  rw [loopBack_eq]

/-- Whichever way the bundle goes, the records are those of the bundle. -/
theorem commitSeq_recorded (c : Core) (iss : Issue) (now : Nat) : ∃ pc x, c.commitSeq iss now = c.recorded iss pc x now := by
  cases h : iss.jump with
  | some a => exact ⟨_, _, commitSeq_jump h now⟩
  | none => exact ⟨_, _, commitSeq_fallThrough h now⟩

/-- With no loop active, a bundle without a transfer ends at the byte after it, or where its skipped loop body ends. -/
theorem commitSeq_noLoop {c : Core} {iss : Issue} (h : iss.jump = none) (hl : c.x.loops = []) (now : Nat) :
    c.commitSeq iss now = c.recorded iss (iss.skip.getD (c.seq.pc + iss.len)) c.x now := by
  rw [commitSeq_fallThrough h, hl]
  rfl

/-- What the commit records of the bundle, and where the sequencer goes. -/
theorem commitSeq_records (c : Core) (iss : Issue) (now : Nat) :
    let c' := c.commitSeq iss now
    c'.seq.latch = c.seq.latch ∧ c'.seq.last = c.seq.pc ∧ c'.seq.epoch = c.seq.epoch + 1 ∧ c'.seq.complete = c.seq.wc ∧
    c'.loads = iss.loads ∧ c'.unserved = iss.ports.map (fun p => { p with since := now }) ∧
    c'.seq.inc = (if iss.inc.isSome then iss.inc else c.seq.inc) ∧
    (∀ a, iss.jump = some a → c'.seq.pc = a ∧ c'.seq.busy = c.seq.wc + 2 ∧ c'.x = c.x) ∧
    (iss.jump = none → c'.seq.busy = c.seq.wc + 1 ∧
      (c.x.loops = [] → c'.seq.pc = iss.skip.getD (c.seq.pc + iss.len) ∧ c'.x = c.x)) := by
  intro c'
  obtain ⟨pc, x, hrec⟩ : ∃ pc x, c' = c.recorded iss pc x now := commitSeq_recorded c iss now
  refine ⟨by rw [hrec]; rfl, by rw [hrec]; rfl, by rw [hrec]; rfl, by rw [hrec]; rfl, by rw [hrec]; rfl, by rw [hrec]; rfl,
    by rw [hrec]; rfl, fun a ha => ?_, fun hn => ⟨?_, fun hloops => ?_⟩⟩
  · rw [show c' = c.recorded iss a c.x now from commitSeq_jump ha now]
    refine ⟨rfl, ?_, rfl⟩
    simp [Core.recorded, ha]
  · rw [hrec]
    simp [Core.recorded, hn]
  · rw [show c' = c.recorded iss _ c.x now from commitSeq_noLoop hn hloops now]
    exact ⟨rfl, rfl⟩

/-- The commit of the last slot of a bundle. -/
theorem finish_last_commit {i : Instr} {u : State} (hl : Last i u) :
    let t := u.finish i
    let c' := t.core u.here
    OnlyHere u t ∧ Commits u.cur c' ∧ t.issue = { Issue.init with core := u.here } ∧
    c'.seq.latch = u.cur.seq.latch.setIfInBounds (u.slotOf i).index (some (bodyOf i)) ∧ c'.seq.last = u.cur.seq.pc ∧
    c'.seq.epoch = u.cur.seq.epoch + 1 ∧ c'.seq.complete = u.cur.seq.wc ∧ c'.loads = u.issue.loads ∧
    c'.unserved = u.issue.ports.map (fun p => { p with since := u.tick * 64 + u.instant }) ∧
    c'.seq.inc = (if u.issue.inc.isSome then u.issue.inc else u.cur.seq.inc) ∧
    (∀ a, u.issue.jump = some a → c'.seq.pc = a ∧ c'.seq.busy = u.cur.seq.wc + 2 ∧ c'.x = u.cur.x) ∧
    (u.issue.jump = none → c'.seq.busy = u.cur.seq.wc + 1 ∧
      (u.cur.x.loops = [] → c'.seq.pc = u.issue.skip.getD (u.cur.seq.pc + u.issue.len) ∧ c'.x = u.cur.x)) := by
  intro t c'
  have ht : t = u.committed i := finish_last hl
  have hc' : c' = commitOf i u u.cur := by
    show t.core u.here = _
    rw [ht, committed_core_here]
  rw [ht, hc']
  exact ⟨committed_onlyHere, commitOf_commits i u u.cur, rfl, commitSeq_records _ _ _⟩

/-- A fallow bundle commits as any other (R213). -/
theorem fallowBundle_commit {s : State} (hdests : s.issue.dests = []) (hleave : s.issue.leave = .stay) (hreseed : s.issue.reseed = false)
    (hpost : s.issue.post = none) (hmoncap : s.issue.moncap = none) (hjump : s.issue.jump = none) (hskip : s.issue.skip = none) :
    ∃ t, exec .fallowBundle s = .next t ∧ OnlyHere s t ∧ Commits s.cur (t.core s.here) ∧ (t.core s.here).seq.latch = s.cur.seq.latch ∧
      (t.core s.here).seq.epoch = s.cur.seq.epoch + 1 ∧ (t.core s.here).seq.busy = s.cur.seq.wc + 1 ∧
      (s.cur.x.loops = [] → (t.core s.here).seq.pc = s.cur.seq.pc + s.issue.len ∧ (t.core s.here).x = s.cur.x) := by
  have honce : firstTwice s.issue.dests = none := by rw [hdests]; rfl
  have hretire := retire_plain honce hleave hreseed hpost hmoncap
  have hcore : s.retire.core s.here = s.cur.commitSeq s.issue (s.tick * 64 + s.instant) := by
    rw [hretire]
    exact State.core_upd s (fun c => c.commitSeq s.issue (s.tick * 64 + s.instant))
  obtain ⟨hlatch, -, hepoch, -, -, -, -, -, hfall⟩ := commitSeq_records s.cur s.issue (s.tick * 64 + s.instant)
  obtain ⟨hbusy, hnext⟩ := hfall hjump
  rw [hskip] at hnext
  refine ⟨s.retire, rfl, ?_, ?_⟩
  · rw [hretire]
    exact onlyHere_upd s _ _
  · rw [hcore]
    exact ⟨commitSeq_commits _ _ _, hlatch, hepoch, hbusy, hnext⟩

/-- Settles O10: the last slot commits by `finish_last_commit`, a slot that others follow by `finish_more`, a fallow bundle by
`fallowBundle_commit`. -/
theorem bundleCommit : Obligations.BundleCommit :=
  ⟨fun _ _ hl => finish_last_commit hl, fun _ _ hmore => finish_more hmore,
    fun _ hdests hleave hreseed hpost hmoncap hjump hskip => fallowBundle_commit hdests hleave hreseed hpost hmoncap hjump hskip⟩

end Sys2Proof.Machine
end

section
/-! PROOF. A bundle in which two slots name one destination takes the write-conflict trap (R217, R218). -/

namespace Sys2Proof.Machine

/-- A destination named in both parts of a list is named twice in it. -/
theorem firstTwice_append {d : Nat × Nat} {b : List (Nat × Nat)} (hb : d ∈ b) : ∀ a : List (Nat × Nat), d ∈ a → ∃ e, firstTwice (a ++ b) = some e
  | [], ha => absurd ha List.not_mem_nil
  | x :: a, ha => by
    rw [List.cons_append, firstTwice]
    split
    · exact ⟨x, rfl⟩
    · next hx =>
      refine firstTwice_append hb a ((List.mem_cons.1 ha).resolve_left fun hdx => hx ?_)
      rw [List.contains_iff_mem, ← hdx]
      exact List.mem_append_right a hb

/-- The slot number of a trap record (R445). -/
theorem causeWord_slot {t : Trap} (hcode : t.code < 65536) {slot : Nat} (hslot : slot < 8) (rep inc : Bool) :
    (causeWord t slot rep inc).toNat / 65536 % 8 = slot := by
  unfold causeWord
  rw [BitVec.toNat_ofNat]
  split <;> split <;> omega

/-- A bundle of several slots that is put aside leaves the core as it stood before it. -/
theorem discard_pre {s : State} {p : Core} (hpre : s.issue.pre = some p) :
    s.discard = (s.setCore s.here p).withIssue { Issue.init with core := s.here } := by
  unfold State.discard
  rw [hpre]
  rfl

theorem trapCore_core_other (s : State) {n m : Nat} (h : m ≠ n) (t : Trap) (slot : Nat) (rep inc : Bool) (pc src : Nat) :
    (s.trapCore n t slot rep inc pc src).core m = s.core m :=
  State.core_updCore_other s (fun c => c.halt (causeWord t slot rep inc) pc t.addr src) h

/-- A trap of a bundle of several slots puts the core back as it stood before the bundle, and halts it. -/
theorem takeTrap_core {s : State} {p : Core} (hpre : s.issue.pre = some p) (k : Nat) (t : Trap) (src : Nat) :
    (s.takeTrap k t src).core s.here = p.halt (causeWord t k s.issue.rep s.issue.inc.isSome) s.view.seq.pc t.addr src := by
  unfold State.takeTrap
  rw [trapCore_core, discard_pre hpre]
  exact congrArg (fun c : Core => c.halt _ _ _ _) (State.core_setCore s s.here p)

/-- It touches no other core, no cluster and no global memory. -/
theorem takeTrap_elsewhere {s : State} {p : Core} (hpre : s.issue.pre = some p) (k : Nat) (t : Trap) (src : Nat) :
    (s.takeTrap k t src).clusters = s.clusters ∧ (s.takeTrap k t src).dev = s.dev ∧ (s.takeTrap k t src).host = s.host ∧
      (s.takeTrap k t src).peer = s.peer ∧ ∀ n, n ≠ s.here → (s.takeTrap k t src).core n = s.core n := by
  unfold State.takeTrap
  rw [discard_pre hpre]
  refine ⟨rfl, rfl, rfl, rfl, fun n hn => ?_⟩
  rw [trapCore_core_other _ hn]
  exact State.core_updCore_other s (fun _ => p) hn

/-- The latch of slot `k` filled with a body (R215). -/
def Core.latched (k : Nat) (body : Nat) (c : Core) : Core :=
  { c with seq := { c.seq with latch := c.seq.latch.setIfInBounds k (some body) } }

theorem fillLatch_latched (i : Instr) (u : State) :
    u.fillLatch i = (u.upd (Core.latched (u.slotOf i).index (bodyOf i))).withIssue { u.issue with dests := u.issue.dests ++ i.dests } := rfl

/-- The last slot of a bundle whose destinations clash. -/
theorem finish_conflict {i : Instr} {u : State} {e : Nat × Nat} (hmore : u.issue.more = false)
    (htwice : firstTwice (u.issue.dests ++ i.dests) = some e) :
    u.finish i = (u.fillLatch i).takeTrap 7 ⟨9, e.1 * 16 + e.2 * 256, 0⟩ 0 := by
  have hlast : (u.fillLatch i).issue.more = false := hmore
  have htwice' : firstTwice (u.fillLatch i).issue.dests = some e := htwice
  unfold State.finish
  rw [if_neg (by rw [hlast]; exact Bool.false_ne_true)]
  unfold State.retire
  rw [htwice']

/-- Settles O12: the core goes back to where it stood before the bundle, and halts (`takeTrap_core`); results that land leave its field and its
queues alone (`settle_settles`). -/
theorem writeConflict : Obligations.WriteConflict := by
  intro i u d p hmore hpre hbundle hslot t c'
  obtain ⟨e, he⟩ := firstTwice_append hslot _ hbundle
  have hpre' : (u.fillLatch i).issue.pre = some p := hpre
  have ht : t = (u.fillLatch i).takeTrap 7 ⟨9, e.1 * 16 + e.2 * 256, 0⟩ 0 := finish_conflict hmore he
  have hc' : c' = p.halt (causeWord ⟨9, e.1 * 16 + e.2 * 256, 0⟩ 7 u.issue.rep u.issue.inc.isSome) p.seq.pc 0 0 := by
    show t.core u.here = _
    rw [ht]
    refine (takeTrap_core hpre' 7 _ 0).trans ?_
    rw [State.view, hpre']
    rfl
  obtain ⟨hclusters, hdev, hhost, hpeer, hothers⟩ := takeTrap_elsewhere hpre' 7 ⟨9, e.1 * 16 + e.2 * 256, 0⟩ 0
  have hfield : p.settle.field = p.field := by rw [settle_settles p]
  have hqueue0 : p.settle.queue0 = p.queue0 := by rw [settle_settles p]
  have hqueue1 : p.settle.queue1 = p.queue1 := by rw [settle_settles p]
  have hcode : (9 : Nat) < 65536 := by decide
  rw [ht, hc']
  refine ⟨rfl, causeWord_code hcode 7 _ _, causeWord_slot hcode (by decide) _ _, rfl, rfl, rfl, rfl, rfl, rfl, rfl,
    hfield, hqueue0, hqueue1, hclusters, hdev, hhost, hpeer, fun n hn => ?_⟩
  rw [hothers n hn, fillLatch_latched, State.withIssue_core]
  exact State.core_updCore_other u _ hn

end Sys2Proof.Machine
end

section
/-! PROOF. The values of the integer operations, as R241-R243 give them on numbers: each is the word that the model's operation computes. -/

namespace Sys2Proof.Machine

/-! ### Sums, products and quotients (R241) -/

theorem ofNat_toNat_add (x y : Double) : BitVec.ofNat 64 (x.toNat + y.toNat) = x + y := by
  rw [BitVec.ofNat_add, BitVec.ofNat_toNat, BitVec.ofNat_toNat, BitVec.setWidth_eq, BitVec.setWidth_eq]

theorem ofInt_sub (a b : Int) : BitVec.ofInt 64 (a - b) = BitVec.ofInt 64 a - BitVec.ofInt 64 b := by
  rw [Int.sub_eq_add_neg, BitVec.ofInt_add, BitVec.ofInt_neg, BitVec.sub_eq_add_neg]

theorem ofInt_toInt_sub (x y : Double) : BitVec.ofInt 64 (x.toInt - y.toInt) = x - y := by
  rw [ofInt_sub, BitVec.ofInt_toInt, BitVec.ofInt_toInt]

theorem ofInt_toInt_mul (x y : Double) : BitVec.ofInt 64 (x.toInt * y.toInt) = x * y := by
  rw [BitVec.ofInt_mul, BitVec.ofInt_toInt, BitVec.ofInt_toInt]

theorem remS_eq (x y : Double) : remS x y = if y = 0 then x else BitVec.ofInt 64 (x.toInt.tmod y.toInt) := by
  unfold remS divS
  split
  · rfl
  · rw [Int.tmod_def, ofInt_sub, BitVec.ofInt_mul, BitVec.ofInt_toInt, BitVec.ofInt_toInt]

theorem remU_eq (x y : Double) : remU x y = if y = 0 then x else BitVec.ofNat 64 (x.toNat % y.toNat) := by
  unfold remU divU
  split
  · rfl
  · apply BitVec.eq_of_toNat_eq
    have hle : y.toNat * (x.toNat / y.toNat) ≤ x.toNat := Nat.mul_div_le _ _
    have hx := x.isLt
    have hq : x.toNat / y.toNat < 2 ^ 64 := lt_of_le_of_lt (Nat.div_le_self _ _) hx
    have hprod : (y * BitVec.ofNat 64 (x.toNat / y.toNat)).toNat = y.toNat * (x.toNat / y.toNat) := by
      rw [BitVec.toNat_mul, BitVec.toNat_ofNat, Nat.mod_eq_of_lt hq, Nat.mod_eq_of_lt (lt_of_le_of_lt hle hx)]
    rw [BitVec.toNat_sub_of_le (by rw [BitVec.le_def, hprod]; exact hle), hprod, BitVec.toNat_ofNat,
      Nat.mod_eq_of_lt (lt_of_le_of_lt (Nat.mod_le _ _) hx), Nat.mod_eq_sub_mul_div]

/-! ### Shifts (R241, R242) -/

theorem ofNat_shiftLeft (x : Double) (k : Nat) : BitVec.ofNat 64 (x.toNat * 2 ^ k) = x <<< k := by
  apply BitVec.eq_of_toNat_eq
  rw [BitVec.toNat_ofNat, BitVec.toNat_shiftLeft, Nat.shiftLeft_eq]

theorem ofNat_shiftRight (x : Double) (k : Nat) : BitVec.ofNat 64 (x.toNat / 2 ^ k) = x >>> k := by
  apply BitVec.eq_of_toNat_eq
  rw [BitVec.toNat_ofNat, BitVec.toNat_ushiftRight, Nat.shiftRight_eq_div_pow, Nat.mod_eq_of_lt (lt_of_le_of_lt (Nat.div_le_self _ _) x.isLt)]

theorem ofInt_sshiftRight (x : Double) (k : Nat) : BitVec.ofInt 64 (x.toInt / 2 ^ k) = x.sshiftRight k := by
  rw [BitVec.sshiftRight, Int.shiftRight_eq_div_pow]
  norm_cast

theorem lihValue_eq (i : Fin 524288) : lihValue i = BitVec.ofInt 64 ((BitVec.ofNat 19 i.val).toInt * 2 ^ 13) := by
  rw [lihValue, BitVec.shiftLeft_eq_mul_twoPow, BitVec.ofInt_mul]
  rfl

theorem addImm_eq (x : Double) (i : Fin 8192) : x + sext13 i = BitVec.ofInt 64 (x.toInt + (BitVec.ofNat 13 i.val).toInt) := by
  rw [BitVec.ofInt_add, BitVec.ofInt_toInt]
  rfl

/-! ### The smaller and the larger (R241) -/

theorem minS_eq (x y : Double) : minS x y = BitVec.ofInt 64 (min x.toInt y.toInt) := by
  unfold minS
  rw [BitVec.slt_eq_decide]
  split
  · next h => rw [min_eq_left (decide_eq_true_iff.1 h).le, BitVec.ofInt_toInt]
  · next h => rw [min_eq_right (not_lt.1 (mt decide_eq_true_iff.2 h)), BitVec.ofInt_toInt]

theorem maxS_eq (x y : Double) : maxS x y = BitVec.ofInt 64 (max x.toInt y.toInt) := by
  unfold maxS
  rw [BitVec.slt_eq_decide]
  split
  · next h => rw [max_eq_right (decide_eq_true_iff.1 h).le, BitVec.ofInt_toInt]
  · next h => rw [max_eq_left (not_lt.1 (mt decide_eq_true_iff.2 h)), BitVec.ofInt_toInt]

theorem minU_eq (x y : Double) : minU x y = BitVec.ofNat 64 (min x.toNat y.toNat) := by
  unfold minU
  rw [BitVec.ult_eq_decide]
  split
  · next h => rw [min_eq_left (decide_eq_true_iff.1 h).le, BitVec.ofNat_toNat, BitVec.setWidth_eq]
  · next h => rw [min_eq_right (not_lt.1 (mt decide_eq_true_iff.2 h)), BitVec.ofNat_toNat, BitVec.setWidth_eq]

theorem maxU_eq (x y : Double) : maxU x y = BitVec.ofNat 64 (max x.toNat y.toNat) := by
  unfold maxU
  rw [BitVec.ult_eq_decide]
  split
  · next h => rw [max_eq_right (decide_eq_true_iff.1 h).le, BitVec.ofNat_toNat, BitVec.setWidth_eq]
  · next h => rw [max_eq_left (not_lt.1 (mt decide_eq_true_iff.2 h)), BitVec.ofNat_toNat, BitVec.setWidth_eq]

/-! ### Bits counted (R241) -/

theorem leadingZeros_eq {w : Nat} (hw : w ≠ 0) : ∀ k, w < 2 ^ (k + 1) → leadingZeros (k + 1) w = k - w.log2
  | k, hlt => by
    rw [leadingZeros]
    by_cases htop : 2 ^ k ≤ w
    · have hone : w / 2 ^ k = 1 := Nat.div_eq_of_lt_le (by omega) (by rw [pow_succ] at hlt; omega)
      rw [hone, (Nat.log2_eq_iff hw).2 ⟨htop, hlt⟩]
      simp
    · have hzero : w / 2 ^ k = 0 := Nat.div_eq_of_lt (by omega)
      have hlog : w.log2 < k := (Nat.log2_lt hw).2 (by omega)
      rw [hzero]
      obtain ⟨j, rfl⟩ : ∃ j, k = j + 1 := ⟨k - 1, by omega⟩
      rw [if_neg (by decide), leadingZeros_eq hw j (by omega)]
      omega

theorem leadingZeros_zero : ∀ k, leadingZeros k 0 = k
  | 0 => rfl
  | k + 1 => by rw [leadingZeros, Nat.zero_div, if_neg (by decide), leadingZeros_zero k]

theorem clz_eq (x : Double) : leadingZeros 64 x.toNat = if x = 0 then 64 else 63 - x.toNat.log2 := by
  split
  · next h => rw [h]; exact leadingZeros_zero 64
  · next h => exact leadingZeros_eq (fun hx => h (BitVec.eq_of_toNat_eq hx)) 63 x.isLt

theorem oneBits_eq : ∀ k w, oneBits k w = (List.range k).countP (fun j => w.testBit j)
  | 0, _ => rfl
  | k + 1, w => by
    have hshift : (fun j => w.testBit j) ∘ Nat.succ = fun j => (w / 2).testBit j := funext fun j => Nat.testBit_succ ..
    rw [oneBits, oneBits_eq k, List.range_succ_eq_map, List.countP_cons, List.countP_map, hshift, Nat.testBit_zero]
    have hmod := Nat.mod_two_eq_zero_or_one w
    rcases hmod with h | h <;> simp [h, Nat.add_comm]

end Sys2Proof.Machine
end

section
/-! PROOF. Results of the scalar and predicate operations (R239, R241-R243). -/

namespace Sys2Proof.Machine

/-! ### What an operation with one result changes -/

section
variable {i : Instr} {s : State} (hr : Ready i s)
include hr

/-- An operation whose effect is a change of the core in hand changes that core so. -/
theorem changes_of_act {act : State → Except Trap State} {f : Core → Core} (hexec : exec i s = slotOp i act s) (hact : act s = .ok (s.upd f)) :
    Changes i s f := changes_of_effects (hexec.trans (slotOp_ok hr hact))

theorem setNow_changes {d : Fin 64} {f : State → Double} {v : Double} (hexec : exec i s = slotOp i (setNow d f) s) (hv : f s = v) :
    Changes i s (fun c => c.ws d v) := changes_of_act hr hexec (hv ▸ rfl)

theorem setLate_changes {d : Fin 64} {l : Nat} {f : State → Double} {v : Double} (hexec : exec i s = slotOp i (setLate l d f) s) (hv : f s = v) :
    Changes i s (fun c => c.wsLate l d v) := changes_of_act hr hexec (hv ▸ rfl)

theorem setPred_changes {d : Fin 16} {f : State → Bool} {v : Bool} (hexec : exec i s = slotOp i (setPred d f) s) (hv : f s = v) :
    Changes i s (fun c => c.wp d v) := changes_of_act hr hexec (hv ▸ rfl)

end

/-- The operations of latency 1 (R241, R242). -/
theorem scalarResult_changes {i : Instr} {s : State} {d : Fin 64} {v : Double} (h : scalarResult s.view i = some (d, v)) (hr : Ready i s) :
    Changes i s (fun c => c.ws d v) ∧ i.classes = [0] := by
  cases i with
  | add d a b => cases h; exact ⟨setNow_changes hr (rfl : execAdd d a b s = _) (ofNat_toNat_add _ _).symm, rfl⟩
  | sub d a b => cases h; exact ⟨setNow_changes hr (rfl : execSub d a b s = _) (ofInt_toInt_sub _ _).symm, rfl⟩
  | and d a b => cases h; exact ⟨setNow_changes hr (rfl : execAnd d a b s = _) rfl, rfl⟩
  | or d a b => cases h; exact ⟨setNow_changes hr (rfl : execOr d a b s = _) rfl, rfl⟩
  | xor d a b => cases h; exact ⟨setNow_changes hr (rfl : execXor d a b s = _) rfl, rfl⟩
  | shl d a b => cases h; exact ⟨setNow_changes hr (rfl : execShl d a b s = _) (ofNat_shiftLeft _ _).symm, rfl⟩
  | shr d a b => cases h; exact ⟨setNow_changes hr (rfl : execShr d a b s = _) (ofNat_shiftRight _ _).symm, rfl⟩
  | sra d a b => cases h; exact ⟨setNow_changes hr (rfl : execSra d a b s = _) (ofInt_sshiftRight _ _).symm, rfl⟩
  | min d a b => cases h; exact ⟨setNow_changes hr (rfl : execMin d a b s = _) (minS_eq _ _), rfl⟩
  | max d a b => cases h; exact ⟨setNow_changes hr (rfl : execMax d a b s = _) (maxS_eq _ _), rfl⟩
  | minn d a b => cases h; exact ⟨setNow_changes hr (rfl : execMinn d a b s = _) (minU_eq _ _), rfl⟩
  | maxn d a b => cases h; exact ⟨setNow_changes hr (rfl : execMaxn d a b s = _) (maxU_eq _ _), rfl⟩
  | clz d a => cases h; exact ⟨setNow_changes hr (rfl : execClz d a s = _) (congrArg (BitVec.ofNat 64) (clz_eq _)), rfl⟩
  | popc d a => cases h; exact ⟨setNow_changes hr (rfl : execPopc d a s = _) (congrArg (BitVec.ofNat 64) (oneBits_eq 64 _)), rfl⟩
  | sel d a b p => cases h; exact ⟨setNow_changes hr (rfl : execSel d a b p s = _) rfl, rfl⟩
  | addi d a n => cases h; exact ⟨setNow_changes hr (rfl : execAddi d a n s = _) (addImm_eq _ _), rfl⟩
  | andi d a n => cases h; exact ⟨setNow_changes hr (rfl : execAndi d a n s = _) rfl, rfl⟩
  | ori d a n => cases h; exact ⟨setNow_changes hr (rfl : execOri d a n s = _) rfl, rfl⟩
  | xori d a n => cases h; exact ⟨setNow_changes hr (rfl : execXori d a n s = _) rfl, rfl⟩
  | shli d a n => cases h; exact ⟨setNow_changes hr (rfl : execShli d a n s = _) (ofNat_shiftLeft _ _).symm, rfl⟩
  | shri d a n => cases h; exact ⟨setNow_changes hr (rfl : execShri d a n s = _) (ofNat_shiftRight _ _).symm, rfl⟩
  | srai d a n => cases h; exact ⟨setNow_changes hr (rfl : execSrai d a n s = _) (ofInt_sshiftRight _ _).symm, rfl⟩
  | lih d n => cases h; exact ⟨setNow_changes hr (rfl : execLih d n s = _) (lihValue_eq n), rfl⟩
  | _ => cases h

/-- Multiplication and division (R239, R241). -/
theorem lateResult_changes {i : Instr} {s : State} {d : Fin 64} {l : Nat} {v : Double} (h : lateResult s.view i = some (d, l, v))
    (hr : Ready i s) : Changes i s (fun c => c.wsLate l d v) := by
  cases i with
  | mul d a b => cases h; exact setLate_changes hr (rfl : execMul d a b s = _) (ofInt_toInt_mul _ _).symm
  | mulh d a b => cases h; exact setLate_changes hr (rfl : execMulh d a b s = _) rfl
  | mulhn d a b => cases h; exact setLate_changes hr (rfl : execMulhn d a b s = _) rfl
  | div d a b => cases h; exact setLate_changes hr (rfl : execDiv d a b s = _) rfl
  | divn d a b => cases h; exact setLate_changes hr (rfl : execDivn d a b s = _) rfl
  | rem d a b => cases h; exact setLate_changes hr (rfl : execRem d a b s = _) (remS_eq _ _)
  | remn d a b => cases h; exact setLate_changes hr (rfl : execRemn d a b s = _) (remU_eq _ _)
  | _ => cases h

/-- A condition code that R243 gives is what the model's condition computes. -/
theorem cond_of_ccHolds {x y : Double} {v : Bool} : ∀ {cc : Nat}, ccHolds x y cc = some v → cond cc x y = v
  | 0, h => by rw [← Option.some.inj h]; rfl
  | 1, h => by rw [← Option.some.inj h]; exact (decide_not (p := x = y)).symm
  | 2, h => by rw [← Option.some.inj h]; rfl
  | 3, h => by rw [← Option.some.inj h]; exact (decide_not (p := x.toInt < y.toInt)).symm.trans (decide_eq_decide.2 not_lt)
  | 4, h => by rw [← Option.some.inj h]; rfl
  | 5, h => by rw [← Option.some.inj h]; exact (decide_not (p := x.toNat < y.toNat)).symm.trans (decide_eq_decide.2 not_lt)

/-- The predicate operations (R243). -/
theorem predResult_changes {i : Instr} {s : State} {d : Fin 16} {v : Bool} (h : predResult s.view i = some (d, v)) (hr : Ready i s) :
    Changes i s (fun c => c.wp d v) := by
  cases i with
  | cmp d a b cc =>
    obtain ⟨v, hcc, hv⟩ := Option.map_eq_some_iff.1 h
    cases hv
    exact setPred_changes hr (rfl : execCmp d a b cc s = _) (cond_of_ccHolds hcc)
  | cmpi cc d a n =>
    obtain ⟨v, hcc, hv⟩ := Option.map_eq_some_iff.1 h
    cases hv
    exact setPred_changes hr (rfl : execCmpi cc d a n s = _) (cond_of_ccHolds hcc)
  | pand d a b => cases h; exact setPred_changes hr (rfl : execPand d a b s = _) rfl
  | por d a b => cases h; exact setPred_changes hr (rfl : execPor d a b s = _) rfl
  | pxor d a b => cases h; exact setPred_changes hr (rfl : execPxor d a b s = _) (decide_not (p := s.view.rp a = s.view.rp b)).symm
  | pnot d a => cases h; exact setPred_changes hr (rfl : execPnot d a s = _) rfl
  | _ => cases h

/-- A body with a bit set among those that must be zero is refused for its field (R453). -/
theorem checked_zeroFault {w lo len : Nat} (h : w / 2 ^ lo % 2 ^ len ≠ 0) (i : Instr) :
    ∃ b, checked w [(lo, len)] [] i = .error (.field b) := by
  unfold checked
  rw [zeroFault, if_neg (by simpa using h)]
  cases i.fieldFault with
  | none => exact ⟨_, rfl⟩
  | some b => exact ⟨_, rfl⟩

/-- imm13[12:6] of the shifts by an immediate is reserved zero (R242). -/
theorem shiftImm_reserved {w : Nat} (hop : w / 2 ^ 25 ∈ [0x24, 0x25, 0x26]) (h : w / 2 ^ 6 % 2 ^ 7 ≠ 0) :
    ∃ b, decodeBody .s w = .error (.field b) := by
  rw [decodeBody, decodeS]
  simp only [List.mem_cons, List.not_mem_nil, or_false] at hop
  rcases hop with hop | hop | hop
  · rw [hop]; exact checked_zeroFault h _
  · rw [hop]; exact checked_zeroFault h _
  · rw [hop]; exact checked_zeroFault h _

/-- CMP with a condition code that R243 does not give takes the reserved-field trap, at bit 0 of its f field. -/
theorem cmp_reserved (s : State) (p : Fin 16) (a b : Fin 64) {cc : Fin 8} (h : 6 ≤ cc.val) : Traps (.cmp p a b cc) s ⟨4, 0, 0⟩ := by
  have hfault : s.view.checkTrap (.cmp p a b cc) = some ⟨4, 0, 0⟩ := by
    have hfield : Instr.fieldFault (.cmp p a b cc) = some 0 := by
      show firstFault [(!decide (cc.val ≤ 5), 0)] = some 0
      rw [decide_eq_false (by omega)]
      rfl
    unfold Core.checkTrap Core.formatTrap Core.fieldTrap
    dsimp only
    rw [hfield]
    rfl
  exact slotOp_check (act := setPred p (fun s => cond cc.val (s.view.rs a) (s.view.rs b))) hfault (fun h => WaitState.noConfusion h)

/-- Settles O18: each operation puts the value of its row of the tables into its one destination. -/
theorem scalarResults : Obligations.ScalarResults :=
  ⟨fun _ _ _ _ h hr => scalarResult_changes h hr, fun _ hop h => shiftImm_reserved hop h, fun _ _ _ _ _ h hr => lateResult_changes h hr,
    fun _ _ _ _ h hr => predResult_changes h hr, fun s p a b _ h => cmp_reserved s p a b h⟩

end Sys2Proof.Machine
end

section
/-! PROOF. A step that issues a bundle (R213, R217, R447). -/

namespace Sys2Proof.Machine

section
variable {s : State} {rest : List Work} {n : Nat}

/-- Powered, a step performs the next piece of work. -/
theorem step_work {w : Work} (hpow : s.Powered) (hagenda : s.agenda = w :: rest) : step s = doWork w { s with agenda := rest } := by
  obtain ⟨hstopped, htripped, hboot⟩ := hpow
  unfold step
  rw [if_neg (by simp only [hstopped, htripped, hboot, or_false, not_false_eq_true]), hagenda]

/-- A core that issues in this cycle. -/
theorem step_issue (hpow : s.Powered) (hagenda : s.agenda = .issue n :: rest) (hstarts : (s.core n).seq.starts = false)
    (hissue : (s.core n).mayIssue = true) : step s = issueBundle n (s.withAgenda rest) := by
  have hwork : step s = issueCore n (s.withAgenda rest) := step_work hpow hagenda
  rw [hwork, issueCore]
  simp only [State.withAgenda_core, hstarts, Bool.false_eq_true, if_false, hissue, if_true]

/-- A bundle of which a fetched word is uncorrectable does not issue: the state in hand is that of the core that would have issued. -/
theorem step_unreadable {pc : Nat} {b : Bundle} (hpow : s.Powered) (hagenda : s.agenda = .issue n :: rest)
    (hstarts : (s.core n).seq.starts = false) (hissue : (s.core n).mayIssue = true) (hfetch : (s.core n).fetch = (pc, .ok (.bundle b)))
    (hbad : (s.core n).unreadable pc b = true) :
    step s = .next (({ s with agenda := rest, issue := { Issue.init with core := n } } : State).flawsFound n ((s.core n).wordsFetched pc b.len)) := by
  rw [step_issue hpow hagenda hstarts hissue]
  unfold issueBundle
  simp only [State.withAgenda_core, hfetch, hbad, if_true]
  rfl

end

/-- Errors that are found leave the bundle in hand alone. -/
theorem flawsFound_issue (s : State) (n : Nat) (l : List Flaw) : (s.flawsFound n l).issue = s.issue := by
  obtain ⟨g, a, k, h⟩ := s.flawsFound_frame n l
  rw [h]

/-- A core at a fallow bundle in an uncorrectable word of its bank. -/
def flawedCore : Core := { Core.init.loaded [0x80, 0x00] with flaws := [⟨.bank, 0, true⟩] }

/-- The core issues next, as core 0, and the last bundle that issued was core 1's. -/
def unreadableAfterCore1 : State :=
  { State.reset with power := .up, cores := [(0, flawedCore)], agenda := [.issue 0], issue := { Issue.init with core := 1 } }

theorem flawedCore_fetch : flawedCore.fetch = (0, .ok (.bundle ⟨0x80, 0, none, [], 2⟩)) := by decide +kernel

/-- Refutes O5: a core whose bundle is not readable becomes the core in hand all the same, and the third clause leaves the core in hand as it
was. -/
theorem not_stepRunsTheDecoded : ¬ Obligations.StepRunsTheDecoded := by
  rintro ⟨-, -, hclause, -⟩
  have hpow : unreadableAfterCore1.Powered := ⟨by decide, by decide, by decide⟩
  have hissue : flawedCore.mayIssue = true := by decide
  have hbad : flawedCore.unreadable 0 ⟨0x80, 0, none, [], 2⟩ = true := by decide
  have hclaim := hclause unreadableAfterCore1 [] 0 0 _ hpow rfl rfl hissue flawedCore_fetch hbad
  have hstep := step_unreadable (s := unreadableAfterCore1) (rest := []) (n := 0) hpow rfl rfl hissue flawedCore_fetch hbad
  have hsame := congrArg (fun t : State => t.issue.core) (Host.Outcome.next.inj (hstep.symm.trans hclaim))
  simp only [flawsFound_issue] at hsame
  exact absurd hsame (by decide)

end Sys2Proof.Machine
end

section
/-! PROOF. A word placed as the program of core 0 is what the next step fetches and runs (R212). -/

namespace Sys2Proof.Machine

/-- The bundle of one body in slot `k`. -/
def singleBundle (k : Slot) (w : Nat) : Bundle := ⟨2 ^ k.index, 0, none, [⟨k, false, some w⟩], 1 + k.width⟩

section
variable {k : Slot} {w nbits : Nat}

/-- A core with a table word loaded fetches the bundle of that word at address 0. -/
theorem loaded_fetch (c : Core) (htable : tableSlot nbits w = some k) (hw : w < 2 ^ (8 * k.width)) :
    (c.loaded (tableBytes nbits w)).fetch = (0, .ok (.bundle (singleBundle k w))) := by
  have hcode : tableBytes nbits w = BitVec.ofNat 8 (2 ^ k.index) :: (leBytes k.width w ++ []) := by
    rw [tableBytes, htable, List.append_nil]
  have htrap : fetchTrap (tableBytes nbits w).length 0 = none := by
    rw [hcode, fetchTrap, if_neg (by decide), if_neg (by simp), if_neg (by decide)]
  show fetchAt (tableBytes nbits w) (tableBytes nbits w).length _ (4096 + 1) 0 = _
  rw [fetchAt, htrap, List.drop_zero, hcode, Laws.parseBundle_single k hw]
  rfl

/-- Loading a program leaves no error in the bank. -/
theorem loaded_readable (c : Core) (code : List Byte) (pc : Nat) (b : Bundle) : (c.loaded code).unreadable pc b = false := by
  unfold Core.unreadable Core.wordsFetched Core.loaded
  rw [List.filter_filter, List.filter_eq_nil_iff.2 fun f _ => by simp +contextual]
  rfl

/-- A core with a program loaded issues, whether or not it has still to begin. -/
theorem loaded_begun_mayIssue (c : Core) (code : List Byte) : (c.loaded code).begun.mayIssue = true := by
  unfold Core.begun
  split
  · exact decide_eq_true (Nat.zero_le c.seq.wc)
  · exact decide_eq_true (Nat.zero_le c.seq.wc)

theorem begun_fetch (c : Core) : c.begun.fetch = c.fetch := by
  unfold Core.begun
  split
  · rfl
  · rfl

theorem begun_unreadable (c : Core) (pc : Nat) (b : Bundle) : c.begun.unreadable pc b = c.unreadable pc b := by
  unfold Core.begun
  split
  · rfl
  · rfl

theorem begun_x (c : Core) : c.begun.x = c.x := by
  unfold Core.begun
  split
  · rfl
  · rfl

end

/-! ### A bundle of one slot -/

/-- The one slot of a bundle, in hand, with the core as every slot reads it. -/
def State.inSlot (s : State) (x : SlotBody) (ops : List (Slot × Instr)) : State :=
  s.withIssue { s.issue with slot := x.slot, rep := x.rep, more := false, bundle := (ops.filter (fun y => y.1 ≠ x.slot)).map Prod.snd }

theorem runSlots_single {x : SlotBody} {w : Nat} {i : Instr} (hbody : x.body = some w) (hdec : decodeBody x.slot w = .ok i)
    (ops : List (Slot × Instr)) (s : State) : runSlots ops [x] s = exec i (s.inSlot x ops) := by
  rw [runSlots]
  simp only [hbody, hdec, List.isEmpty_nil, Bool.not_true, Bool.true_or, if_true]
  show (match exec i (s.inSlot x ops) with | .next s' => .next s' | o => o : Out) = _
  cases exec i (s.inSlot x ops) with
  | next => rfl
  | fault => rfl
  | refused => rfl

/-- What an operation that issues alone finds: it is in hand, its core stands at its address, and the rest of the machine is as it was. -/
structure State.Enters (v : State) (n pc : Nat) (b : Bundle) (x : SlotBody) (u : State) : Prop where
  here : u.here = n
  slot : u.issue.slot = x.slot
  len : u.issue.len = b.len
  more : u.issue.more = false
  core : u.core n = { v.core n with seq := { (v.core n).seq with pc := pc } }
  clusters : u.clusters = v.clusters

theorem issueBundle_single {v : State} {n pc w : Nat} {b : Bundle} {x : SlotBody} {i : Instr}
    (hfetch : (v.core n).fetch = (pc, .ok (.bundle b))) (hgood : (v.core n).unreadable pc b = false) (hslots : b.slots = [x])
    (hbody : x.body = some w) (hdec : decodeBody x.slot w = .ok i) : ∃ u, issueBundle n v = exec i u ∧ v.Enters n pc b x u := by
  obtain ⟨g, a, k, hflaws⟩ := (v.withIssue { Issue.init with core := n }).meetFlaws_frame n pc b
  unfold issueBundle
  simp only [hfetch, hgood, Bool.false_eq_true, if_false, hslots, runSlots_single hbody hdec]
  refine ⟨_, rfl, ?_⟩
  rw [show State.meetFlaws { v with issue := { Issue.init with core := n } } n pc b = _ from hflaws]
  exact ⟨rfl, rfl, rfl, rfl, State.core_updCore v n (fun c => { c with seq := { c.seq with pc := pc } }), rfl⟩

/-- The sequencer of a core that may issue once it has begun. -/
theorem issueCore_begun {s : State} {n : Nat} (h : (s.core n).begun.mayIssue = true) :
    ∃ v, issueCore n s = issueBundle n v ∧ v.core n = (s.core n).begun ∧ v.clusters = s.clusters := by
  unfold issueCore
  dsimp only
  split
  · rw [if_pos (by rw [State.core_updCore]; exact h)]
    exact ⟨_, rfl, State.core_updCore s n Core.begun, rfl⟩
  · next hstarts =>
    have hbegun : (s.core n).begun = s.core n := if_neg hstarts
    rw [if_pos (by rw [← hbegun]; exact h)]
    exact ⟨_, rfl, hbegun.symm, rfl⟩

/-- Settles O6: the loaded core begins if it has to, fetches the placed word at address 0 (`loaded_fetch`) from a bank without errors, and its one
slot runs (`issueBundle_single`). -/
theorem fetchWordRuns : Obligations.FetchWordRuns := by
  intro s nbits w k i htable hdec hw
  let c := (s.core 0).loaded (tableBytes nbits w)
  have hcore : ((s.withFetchWord nbits w).withAgenda []).core 0 = c := State.core_updCore s 0 (fun c => c.loaded (tableBytes nbits w))
  have hpow : (s.withFetchWord nbits w).Powered := ⟨Power.noConfusion, Power.noConfusion, Power.noConfusion⟩
  have hstep : step (s.withFetchWord nbits w) = issueCore 0 ((s.withFetchWord nbits w).withAgenda []) := step_work hpow rfl
  obtain ⟨v, hissue, hvcore, hvclusters⟩ := issueCore_begun (s := (s.withFetchWord nbits w).withAgenda []) (n := 0)
    (by rw [hcore]; exact loaded_begun_mayIssue _ _)
  rw [hcore] at hvcore
  have hfetch : (v.core 0).fetch = (0, .ok (.bundle (singleBundle k w))) := by rw [hvcore, begun_fetch, loaded_fetch _ htable hw]
  have hgood : (v.core 0).unreadable 0 (singleBundle k w) = false := by rw [hvcore, begun_unreadable, loaded_readable]
  obtain ⟨u, hu, henters⟩ := issueBundle_single hfetch hgood rfl rfl hdec
  refine ⟨u, hstep.trans (hissue.trans hu), henters.here, henters.slot, henters.len, henters.more, ?_, ?_, henters.clusters.trans hvclusters⟩
  · rw [henters.core]
  · rw [henters.core, hvcore]
    exact begun_x c

end Sys2Proof.Machine
end

section
/-! PROOF. What the slots of a bundle leave alone: every memory (R30, R31). An access of a slot reaches its memory only when a port serves it. -/

namespace Sys2Proof.Machine

/-! ### Memories that stand -/

/-- Every memory of `t` is that of `s`: the fields, the commons and global memory. -/
structure State.KeepsMemory (s t : State) : Prop where
  field : ∀ n, (t.core n).field = (s.core n).field
  commons : ∀ k, (t.cluster k).commons = (s.cluster k).commons
  dev : t.dev = s.dev
  host : t.host = s.host
  peer : t.peer = s.peer

namespace State.KeepsMemory

theorem refl (s : State) : s.KeepsMemory s := ⟨fun _ => rfl, fun _ => rfl, rfl, rfl, rfl⟩

theorem trans {a b c : State} (h : a.KeepsMemory b) (h' : b.KeepsMemory c) : a.KeepsMemory c where
  field n := (h'.field n).trans (h.field n)
  commons k := (h'.commons k).trans (h.commons k)
  dev := h'.dev.trans h.dev
  host := h'.host.trans h.host
  peer := h'.peer.trans h.peer

/-- A state with the same cores, clusters and global memory. -/
theorem of_eq {s t : State} (hcores : t.cores = s.cores) (hclusters : t.clusters = s.clusters) (hdev : t.dev = s.dev) (hhost : t.host = s.host)
    (hpeer : t.peer = s.peer) : s.KeepsMemory t where
  field n := by unfold State.core; rw [hcores]
  commons k := by unfold State.cluster; rw [hclusters]
  dev := hdev
  host := hhost
  peer := hpeer

/-- A core changed, but for its field. -/
theorem setCore (s : State) {n : Nat} {c : Core} (hc : c.field = (s.core n).field) : s.KeepsMemory (s.setCore n c) where
  field m := by
    by_cases h : m = n
    · rw [h, State.core_setCore, hc]
    · exact congrArg Core.field (State.core_updCore_other s (fun _ => c) h)
  commons _ := rfl
  dev := rfl
  host := rfl
  peer := rfl

theorem updCore (s : State) (n : Nat) {f : Core → Core} (hf : ∀ c, (f c).field = c.field) : s.KeepsMemory (s.updCore n f) :=
  setCore s (hf _)

/-- A cluster changed, but for its commons. -/
theorem updCluster (s : State) (k : Nat) {f : Cluster → Cluster} (hf : ∀ c, (f c).commons = c.commons) : s.KeepsMemory (s.updCluster k f) where
  field _ := rfl
  commons j := by
    by_cases h : j = k
    · rw [h, State.cluster_updCluster, hf]
    · rw [State.cluster_updCluster_other s f h]
  dev := rfl
  host := rfl
  peer := rfl

theorem canonical {s t : State} (h : s.KeepsMemory t) (hs : MemoryCanonical s) : MemoryCanonical t := by
  obtain ⟨hfield, hcommons, hdev, hhost, hpeer⟩ := hs
  refine ⟨fun n => ?_, fun k => ?_, ?_, ?_, ?_⟩
  · rw [h.field]; exact hfield n
  · rw [h.commons]; exact hcommons k
  · rw [h.dev]; exact hdev
  · rw [h.host]; exact hhost
  · rw [h.peer]; exact hpeer

end State.KeepsMemory

/-! ### Actions of slot operations -/

/-- What the action of a slot leaves alone: every memory, and, of the bundle in hand, its core and that core as it stood before the bundle. -/
structure State.SlotKeeps (s t : State) : Prop extends s.KeepsMemory t where
  core : t.issue.core = s.issue.core
  pre : t.issue.pre = s.issue.pre

namespace State.SlotKeeps

theorem refl (s : State) : s.SlotKeeps s := ⟨.refl s, rfl, rfl⟩

theorem trans {a b c : State} (h : a.SlotKeeps b) (h' : b.SlotKeeps c) : a.SlotKeeps c :=
  ⟨h.toKeepsMemory.trans h'.toKeepsMemory, h'.core.trans h.core, h'.pre.trans h.pre⟩

theorem updCore (s : State) (n : Nat) {f : Core → Core} (hf : ∀ c, (f c).field = c.field) : s.SlotKeeps (s.updCore n f) := ⟨.updCore s n hf, rfl, rfl⟩

theorem upd (s : State) {f : Core → Core} (hf : ∀ c, (f c).field = c.field) : s.SlotKeeps (s.upd f) := updCore s s.here hf

theorem withIssue (s : State) {I : Issue} (hcore : I.core = s.issue.core) (hpre : I.pre = s.issue.pre) : s.SlotKeeps (s.withIssue I) :=
  ⟨.of_eq rfl rfl rfl rfl rfl, hcore, hpre⟩

/-- A further change of the core in hand. -/
theorem thenUpd {s u : State} {f : Core → Core} (h : s.SlotKeeps u) (hf : ∀ c, (f c).field = c.field) : s.SlotKeeps (u.upd f) := h.trans (upd u hf)

/-- A further change of the bundle in hand. -/
theorem thenIssue {s : State} (u : State) {I : Issue} (h : s.SlotKeeps u) (hcore : I.core = u.issue.core) (hpre : I.pre = u.issue.pre) :
    s.SlotKeeps (u.withIssue I) := h.trans (withIssue u hcore hpre)

theorem addLoad (s : State) (l : Landing) (pieces : List (Nat × Nat × Nat)) : s.SlotKeeps (s.addLoad l pieces) := withIssue s rfl rfl

theorem addStore (s : State) (pieces : List (Nat × List Byte × Nat)) : s.SlotKeeps (s.addStore pieces) := withIssue s rfl rfl

theorem stepLfsr (s : State) (w : Nat) (en : Nat → Bool) : s.SlotKeeps (s.stepLfsr w en) := by
  unfold State.stepLfsr
  split
  · exact upd s fun _ => rfl
  · exact refl s

theorem putVec (s : State) (lat spec : Nat) (value mask : Vec) : s.SlotKeeps (s.putVec lat spec value mask) := by
  unfold State.putVec
  split
  · exact upd s fun _ => rfl
  · exact upd s fun _ => rfl

theorem putElems (s : State) (lat d : Nat) (f : Fmt) (g : Nat) (r : Vec × Flags) : s.SlotKeeps (s.putElems lat d f g r) :=
  thenUpd (putVec s _ _ _ _) fun _ => rfl

theorem putLoad (s : State) (lat spec : Nat) (mask : Vec) (pieces : List (Nat × Nat × Nat)) : s.SlotKeeps (s.putLoad lat spec mask pieces) := by
  unfold State.putLoad
  split
  · exact addLoad s _ _
  · exact thenIssue (s.upd _) (upd s fun _ => rfl) rfl rfl

theorem vecLoad (s : State) (d : Nat) (pieces : List (Nat × Nat)) (w : Nat) (mask : Vec) : s.SlotKeeps (s.vecLoad d pieces w mask) :=
  putLoad s _ _ _ _

theorem csrStore (s : State) (n k : Nat) (new v : Double) : s.SlotKeeps (s.csrStore n k new v) := by
  unfold State.csrStore
  split
  · exact updCore s n fun _ => rfl
  · split
    · exact updCore s n fun _ => rfl
    · exact updCore s n fun _ => rfl
    · exact updCore s n fun _ => rfl
    · exact thenIssue (s.updCore n _) (updCore s n fun _ => rfl) rfl rfl
    · exact updCore s n fun _ => rfl
    · split
      · exact withIssue s rfl rfl
      · exact refl s
    · exact refl s

end State.SlotKeeps

/-- An outcome of an action that, where it is no trap, leaves every memory alone. -/
def KeepsOrTraps (s : State) (r : Except Trap State) : Prop := ∀ t, r = .ok t → s.SlotKeeps t

namespace KeepsOrTraps

theorem ok {s t : State} (h : s.SlotKeeps t) : KeepsOrTraps s (.ok t) := fun _ ht => Except.ok.inj ht ▸ h

theorem error (s : State) (t : Trap) : KeepsOrTraps s (.error t) := fun _ h => nomatch h

/-- An action that changes the core in hand, but for its field. -/
theorem upd (s : State) {f : Core → Core} (hf : ∀ c, (f c).field = c.field) : KeepsOrTraps s (.ok (s.upd f)) := ok (.upd s hf)

end KeepsOrTraps

/-- An action that leaves every memory alone. -/
def Harmless (act : State → Except Trap State) : Prop := ∀ s, KeepsOrTraps s (act s)

/-! #### Scalar, control and ring operations -/

theorem setNow_harmless (d : Fin 64) (v : State → Double) : Harmless (setNow d v) := fun s => .upd s fun c => Core.ws_field c d (v s)

theorem setLate_harmless (lat : Nat) (d : Fin 64) (v : State → Double) : Harmless (setLate lat d v) := fun s => .upd s fun c => Core.wsLate_field c lat d (v s)

theorem setPred_harmless (d : Fin 16) (v : State → Bool) : Harmless (setPred d v) := fun s => .upd s fun c => Core.wp_field c d (v s)

theorem csrOp_harmless (k : Fin 3) (d a : Fin 64) (n : Fin 4096) (x : Fin 2) : Harmless (csrOp k d a n x) := by
  intro s
  unfold csrOp csrWriteOp
  cases s.csr s.here s.view n.val with
  | none => exact .error s _
  | some old =>
    dsimp only
    cases csrReserved n.val (csrNew k old (csrOperand s a x)) with
    | some b => exact .error s _
    | none => exact .ok (.thenUpd (.csrStore s _ _ _ _) fun c => Core.ws_field c d old)

theorem loadScalar_harmless (d a : Fin 64) (z : Fin 4) (o : Fin 2048) : Harmless (loadScalar d a z o) := by
  intro s
  unfold loadScalar
  dsimp only
  split
  · exact .error s _
  · exact .ok (.addLoad s _ _)

theorem storeScalar_harmless (d a : Fin 64) (z : Fin 4) (o : Fin 2048) : Harmless (storeScalar d a z o) := by
  intro s
  unfold storeScalar
  dsimp only
  split
  · exact .error s _
  · exact .ok (.addStore s _)

theorem taskOp_harmless (op : Fin 5) (d a b : Fin 64) : Harmless (taskOp op d a b) := by
  intro s
  unfold taskOp
  dsimp only
  split
  · exact .error s _
  split
  · exact .error s _
  split
  · exact .error s _
  split
  · exact .error s _
  split
  · exact .upd s fun c => Core.ws_field c d 1
  · exact .ok (.thenIssue (s.upd _) (.upd s fun c => Core.ws_field c d 0) rfl rfl)

theorem pushLoop_harmless (l : Fin 4) (st : Fin 8) (body : Fin 4096) (count : State → Nat) : Harmless (fun s => pushLoop l st body (count s) s) := by
  intro s
  unfold pushLoop
  dsimp only
  split
  · exact .error s _
  split
  · exact .error s _
  split
  · exact .ok (.thenIssue (s.upd _) (.upd s fun _ => rfl) rfl rfl)
  · exact .ok (.thenUpd (.upd s fun _ => rfl) fun _ => rfl)

theorem addPend_field (c : Core) (b : Option (Fin 16)) (w : Nat) : (c.addPend b w).field = c.field := by
  cases b with
  | none => rfl
  | some b => rfl

theorem enqueue_field (c : Core) (e : Fin 2) (cmd : Command) : (c.enqueue e cmd).field = c.field := by
  unfold Core.enqueue
  dsimp only
  split
  · rfl
  · rfl

theorem issueCommand_harmless (i : Instr) : Harmless (issueCommand i) := by
  intro s
  unfold issueCommand
  dsimp only
  split
  · exact .error s _
  · exact .upd s fun c => (enqueue_field _ _ _).trans (addPend_field c _ _)

/-! #### Vector operations -/

theorem vecRound_harmless (d a b : Nat) (fc : Fin 8) (g : Fin 16) (op : Fmt → Bool → Round → Nat → Nat → Nat × Flags) :
    Harmless (vecRound d a b fc g op) := fun s => .ok ((State.SlotKeeps.stepLfsr s _ _).trans (.putElems _ _ _ _ _ _))

theorem vecFma_harmless (d : Fin 32) (a b : Nat) (fc : Fin 8) (g : Fin 16) (negProd negAdd : Bool) :
    Harmless (vecFma d a b fc g negProd negAdd) := fun s => .ok ((State.SlotKeeps.stepLfsr s _ _).trans (.putElems _ _ _ _ _ _))

theorem vecPlain_harmless (lat d a b fc : Nat) (g : Fin 16) (op : Fmt → Nat → Nat → Nat) : Harmless (vecPlain lat d a b fc g op) :=
  fun s => .ok (.putElems s _ _ _ _ _)

theorem vecMinMax_harmless (max : Bool) (d a b : Fin 64) (f : Fin 8) (g : Fin 16) : Harmless (vecMinMax max d a b f g) :=
  fun s => vecPlain_harmless 4 _ _ _ _ _ (fun fm x y => minMaxElem fm s.view.ftz max x y) s

theorem vecFun_harmless (k : VFun) (d a : Nat) (fc : Fin 8) (g : Fin 16) : Harmless (vecFun k d a fc g) :=
  fun s => .ok ((State.SlotKeeps.stepLfsr s _ _).trans (.putElems _ _ _ _ _ _))

theorem vecMove_harmless (d a b fc g : Nat) (op : Nat → (Nat → Nat) → (Nat → Nat) → Nat → Nat) : Harmless (vecMove d a b fc g op) :=
  fun s => .ok (.putElems s _ _ _ _ _)

theorem vecCvt_harmless (d a : Fin 64) (f sf g : Fin 8) : Harmless (vecCvt d a f sf g) := by
  intro s
  unfold vecCvt
  dsimp only
  split
  · exact .ok (.thenUpd (.putVec s _ _ _ _) fun _ => rfl)
  · exact .ok (.thenUpd ((State.SlotKeeps.stepLfsr s _ _).trans (.putVec _ _ _ _ _)) fun _ => rfl)

theorem vecQnt_harmless (d a : Fin 64) (f : Fin 8) (t : Fin 4) (q : Fin 16) (g : Fin 8) : Harmless (vecQnt d a f t q g) :=
  fun s => .ok (.thenUpd (.thenUpd (.putVec s _ _ _ _) fun _ => rfl) fun _ => rfl)

theorem vecDqnt_harmless (d a : Fin 64) (f : Fin 8) (t : Fin 4) (q : Fin 16) (g : Fin 8) : Harmless (vecDqnt d a f t q g) :=
  fun s => .ok (.putElems s _ _ _ _ _)

theorem vecReduce_harmless (d a : Fin 64) (fc : Fin 8) (g : Fin 16) (rounds : Bool)
    (op : Core → (Nat → Bool) → Nat → Fmt → Nat → Nat → Nat → Nat × Flags) (absent : Fmt → Nat) :
    Harmless (vecReduce d a fc g rounds op absent) := by
  intro s
  unfold vecReduce
  dsimp only
  split
  · exact .ok (.thenUpd ((State.SlotKeeps.stepLfsr s _ _).trans (.putVec _ _ _ _ _)) fun _ => rfl)
  · exact .ok (.thenUpd (.putVec s _ _ _ _) fun _ => rfl)

theorem loadRows_harmless (d a : Fin 64) (o : Fin 512) (g : Fin 16) : Harmless (loadRows d a o g) := by
  intro s
  unfold loadRows
  dsimp only
  split
  · exact .error s _
  · exact .ok (.vecLoad s _ _ _ _)

theorem storeRows_harmless (d a : Fin 64) (o : Fin 512) (g : Fin 16) : Harmless (storeRows d a o g) := by
  intro s
  unfold storeRows
  dsimp only
  split
  · exact .error s _
  · exact .ok (.addStore s _)

theorem loadGranules_harmless (d a b : Fin 64) (w : Fin 8) (g : Fin 16) : Harmless (loadGranules d a b w g) := by
  intro s
  unfold loadGranules
  dsimp only
  split
  · exact .error s _
  · exact .ok (.vecLoad s _ _ _ _)

theorem storeGranules_harmless (d a b : Fin 64) (w : Fin 8) (g : Fin 16) : Harmless (storeGranules d a b w g) := by
  intro s
  unfold storeGranules
  dsimp only
  split
  · exact .error s _
  · exact .ok (.addStore s _)

end Sys2Proof.Machine
end

section
/-! PROOF. Every operation of a slot is a slot operation whose action leaves every memory alone. -/

namespace Sys2Proof.Machine

/-! ### Shapes of actions -/

theorem harmless_upd {F : State → Core → Core} (hF : ∀ s c, (F s c).field = c.field) : Harmless (fun s => .ok (s.upd (F s))) := fun s => .upd s (hF s)

theorem harmless_withIssue {I : State → Issue} (hcore : ∀ s, (I s).core = s.issue.core) (hpre : ∀ s, (I s).pre = s.issue.pre) :
    Harmless (fun s => .ok (s.withIssue (I s))) := fun s => .ok (.withIssue s (hcore s) (hpre s))

theorem harmless_putVec {lat spec : Nat} {value mask : State → Vec} : Harmless (fun s => .ok (s.putVec lat spec (value s) (mask s))) :=
  fun s => .ok (.putVec s _ _ _ _)

/-- An action that traps under a condition. -/
theorem harmless_trapIf {P : State → Prop} [∀ s, Decidable (P s)] {trap : State → Trap} {act : State → Except Trap State} (h : Harmless act) :
    Harmless (fun s => if P s then .error (trap s) else act s) := by
  intro s
  dsimp only
  split
  · exact .error s _
  · exact h s

/-! ### Operations whose action branches -/

/-- Operation `i` is a slot operation, and its action leaves every memory alone. -/
def IsSlotOp (i : Instr) : Prop := ∃ act, (∀ s, exec i s = slotOp i act s) ∧ Harmless act

theorem csrr_isSlotOp (d : Fin 64) (n : Fin 4096) : IsSlotOp (.csrr d n) := by
  refine ⟨_, fun s => (rfl : execCsrr d n s = _), fun s => ?_⟩
  split
  · exact .error s _
  · next v _ => exact .upd s fun c => Core.ws_field c d v

theorem waitb_isSlotOp (b : Fin 16) : IsSlotOp (.waitb b) :=
  ⟨_, fun s => (rfl : execWaitb b s = _), harmless_trapIf (harmless_withIssue (fun _ => rfl) (fun _ => rfl))⟩

theorem waitt_isSlotOp (a : Fin 64) : IsSlotOp (.waitt a) := by
  refine ⟨_, fun s => (rfl : execWaitt a s = _), fun s => ?_⟩
  dsimp only
  split
  · exact .ok (.refl s)
  · exact .ok (.withIssue s rfl rfl)

theorem brkpt_isSlotOp (n : Fin 524288) : IsSlotOp (.brkpt n) :=
  ⟨_, fun s => (rfl : execBrkpt n s = _), harmless_trapIf fun s => .ok (.refl s)⟩

theorem turn_isSlotOp (a b : Fin 64) : IsSlotOp (.turn a b) := by
  refine ⟨_, fun s => (rfl : execTurn a b s = _), fun s => ?_⟩
  dsimp only
  split
  · exact .error s _
  · exact .ok (.withIssue s rfl rfl)

theorem brc_isSlotOp (p : Fin 16) (n : Fin 2) (o : Fin 1048576) : IsSlotOp (.brc p n o) := by
  refine ⟨_, fun s => (rfl : execBrc p n o s = _), fun s => .ok ?_⟩
  split
  · exact .withIssue s rfl rfl
  · exact .refl s

/-- A link register written, and a transfer. -/
theorem jumpLink_harmless (d : Fin 64) (v : State → Double) (target : State → Nat) :
    Harmless (fun s => .ok ((s.upd (fun c => c.ws d (v s))).jumpTo (target s))) :=
  fun s => .ok (.thenIssue (s.upd _) (.upd s fun c => Core.ws_field c d (v s)) rfl rfl)

theorem lexit_isSlotOp (l : Fin 4) : IsSlotOp (.lexit l) := by
  refine ⟨_, fun s => (rfl : execLexit l s = _), fun s => ?_⟩
  dsimp only
  split
  · exact .error s _
  · exact .ok (.thenIssue (s.upd _) (.upd s fun _ => rfl) rfl rfl)

theorem vbcst_isSlotOp (d a : Fin 64) (w : Fin 8) (g : Fin 16) : IsSlotOp (.vbcst d a w g) :=
  ⟨_, fun s => (rfl : execVbcst d a w g s = _), fun s => vecMove_harmless _ _ _ _ _ _ s⟩

theorem vidx_isSlotOp (d a b : Fin 64) (w : Fin 8) (g : Fin 16) : IsSlotOp (.vidx d a b w g) :=
  ⟨_, fun s => (rfl : execVidx d a b w g s = _), fun s => vecMove_harmless _ _ _ _ _ _ s⟩

theorem vscan_isSlotOp (d a : Fin 64) (f : Fin 8) (g : Fin 16) : IsSlotOp (.vscan d a f g) := by
  refine ⟨_, fun s => (rfl : execVscan d a f g s = _), fun s => ?_⟩
  dsimp only
  split
  · exact .ok (.thenUpd (.putVec s _ _ _ _) fun _ => rfl)
  · exact .ok (.thenUpd ((State.SlotKeeps.stepLfsr s _ _).trans (.putVec _ _ _ _ _)) fun _ => rfl)

theorem vgth_isSlotOp (d a b : Fin 64) (f : Fin 8) (g : Fin 16) : IsSlotOp (.vgth d a b f g) := by
  refine ⟨_, fun s => (rfl : execVgth d a b f g s = _), fun s => ?_⟩
  dsimp only
  split
  · exact .error s _
  · exact .ok (.vecLoad s _ _ _ _)

theorem vsct_isSlotOp (d a b : Fin 64) (f : Fin 8) (g : Fin 16) : IsSlotOp (.vsct d a b f g) := by
  refine ⟨_, fun s => (rfl : execVsct d a b f g s = _), fun s => ?_⟩
  dsimp only
  split
  · exact .error s _
  · exact .ok (.addStore s _)

/-! #### Streams and rings -/

theorem take_field (c : Core) (v : Ring) (q : Fin 16) (b : Nat) : (c.take v q b).field = c.field := by
  unfold Core.take
  dsimp only
  split
  · rfl
  · split
    · rfl
    · rfl

theorem vcmpr_isSlotOp (q : Fin 16) (a : Fin 64) (f : Fin 8) (g : Fin 16) : IsSlotOp (.vcmpr q a f g) := by
  refine ⟨_, fun s => (rfl : execVcmpr q a f g s = _), harmless_trapIf (harmless_upd fun s c => ?_)⟩
  dsimp only
  split
  · rfl
  · rfl

theorem vcmprFlush_isSlotOp (q : Fin 16) (f : Fin 8) : IsSlotOp (.vcmprFlush q f) := by
  refine ⟨_, fun s => (rfl : execVcmprFlush q f s = _), harmless_trapIf (harmless_upd fun s c => ?_)⟩
  dsimp only
  split
  · rfl
  · rfl

theorem vxpnd_isSlotOp (d : Fin 32) (q : Fin 16) (f : Fin 8) (g : Fin 16) : IsSlotOp (.vxpnd d q f g) := by
  refine ⟨_, fun s => (rfl : execVxpnd d q f g s = _), fun s => ?_⟩
  dsimp only
  split
  · exact .error s _
  · exact .ok (.thenUpd (.putVec s _ _ _ _) fun c => take_field c _ _ _)

theorem vxpndDrop_isSlotOp (q : Fin 16) (f : Fin 8) : IsSlotOp (.vxpndDrop q f) := by
  refine ⟨_, fun s => (rfl : execVxpndDrop q f s = _), harmless_trapIf (harmless_upd fun s c => ?_)⟩
  split
  · rfl
  · exact take_field c _ _ _

theorem radv_isSlotOp (q : Fin 16) (w : Fin 2) (n : Fin 8) (g : Fin 16) : IsSlotOp (.radv q w n g) := by
  refine ⟨_, fun s => (rfl : execRadv q w n g s = _), fun s => ?_⟩
  split
  · exact .upd s fun _ => rfl
  · dsimp only
    split
    · exact .error s _
    · exact .upd s fun _ => rfl

/-! #### The matrix unit -/

theorem mldb_isSlotOp (qa : Fin 16) (fs : Fin 8) (ft rb qs g : Fin 16) : IsSlotOp (.mldb qa fs ft rb qs g) :=
  ⟨_, fun s => (rfl : execMldb qa fs ft rb qs g s = _), harmless_trapIf (harmless_upd fun _ _ => rfl)⟩

theorem mstep_isSlotOp (acc : Fin 8) (qa : Fin 16) (fs : Fin 8) (ft rb qs g : Fin 16) (bsw : Fin 2) : IsSlotOp (.mstep acc qa fs ft rb qs g bsw) := by
  refine ⟨_, fun s => (rfl : execMstep acc qa fs ft rb qs g bsw s = _), fun s => ?_⟩
  dsimp only
  split
  · exact .error s _
  split
  · split
    · exact .error s _
    · exact .upd s fun _ => rfl
  · exact .upd s fun _ => rfl

theorem foldl_field {α : Type} {f : Core → α → Core} (hf : ∀ c x, (f c x).field = c.field) (l : List α) (c : Core) : (l.foldl f c).field = c.field :=
  List.foldlRecOn (motive := fun c' => c'.field = c.field) l f rfl fun b hb x _ => (hf b x).trans hb

theorem tilesDue_field (c : Core) (p : TileFlight → Bool) (t : Nat) : (c.tilesDue p t).field = c.field := by rw [tilesDue_settles c p t]

theorem mrd_isSlotOp (acc : Fin 8) (qa : Fin 16) (fs : Fin 8) (ft rb g : Fin 16) (f : Fin 8) (band : Fin 64) :
    IsSlotOp (.mrd acc qa fs ft rb g f band) := by
  refine ⟨_, fun s => (rfl : execMrd acc qa fs ft rb g f band s = _), harmless_upd fun s c => ?_⟩
  dsimp only
  rw [tilesDue_field, Core.flyTile_field]
  exact foldl_field (f := fun c q => c.setRing q ((c.ring q).mark .pending (s.view.ring q).wp (rowEntryCount f.val false))) (fun _ _ => rfl) _ _

/-! ### The table -/

/-- Every operation of a slot, by its constructor. An event is in no slot. -/
theorem isSlotOp {i : Instr} (h : i.unit ≠ none) : IsSlotOp i := by
  cases i with
  | csrr d n => exact csrr_isSlotOp d n
  | csrw d a n x => exact ⟨_, fun s => (rfl : execCsrw d a n x s = _), csrOp_harmless _ _ _ _ _⟩
  | csrs d a n x => exact ⟨_, fun s => (rfl : execCsrs d a n x s = _), csrOp_harmless _ _ _ _ _⟩
  | csrc d a n x => exact ⟨_, fun s => (rfl : execCsrc d a n x s = _), csrOp_harmless _ _ _ _ _⟩
  | ld d a z o => exact ⟨_, fun s => (rfl : execLd d a z o s = _), loadScalar_harmless _ _ _ _⟩
  | st d a z o => exact ⟨_, fun s => (rfl : execSt d a z o s = _), storeScalar_harmless _ _ _ _⟩
  | ldc d a z o => exact ⟨_, fun s => (rfl : execLdc d a z o s = _), loadScalar_harmless _ _ _ _⟩
  | stc d a z o => exact ⟨_, fun s => (rfl : execStc d a z o s = _), storeScalar_harmless _ _ _ _⟩
  | fence m sc k => exact ⟨_, fun s => (rfl : execFence m sc k s = _), harmless_upd fun _ _ => rfl⟩
  | waitb b => exact waitb_isSlotOp b
  | waitt a => exact waitt_isSlotOp a
  | trap i => exact ⟨_, fun s => (rfl : execTrap i s = _), fun s => .error s _⟩
  | brkpt i => exact brkpt_isSlotOp i
  | exit => exact ⟨_, fun s => (rfl : execExit s = _), harmless_withIssue (fun _ => rfl) (fun _ => rfl)⟩
  | turn a b => exact turn_isSlotOp a b
  | yield => exact ⟨_, fun s => (rfl : execYield s = _), harmless_withIssue (fun _ => rfl) (fun _ => rfl)⟩
  | book d a b => exact ⟨_, fun s => (rfl : execBook d a b s = _), taskOp_harmless _ _ _ _⟩
  | unbook d a b => exact ⟨_, fun s => (rfl : execUnbook d a b s = _), taskOp_harmless _ _ _ _⟩
  | bqry d a b => exact ⟨_, fun s => (rfl : execBqry d a b s = _), taskOp_harmless _ _ _ _⟩
  | spawn d a b => exact ⟨_, fun s => (rfl : execSpawn d a b s = _), taskOp_harmless _ _ _ _⟩
  | cancel d a b => exact ⟨_, fun s => (rfl : execCancel d a b s = _), taskOp_harmless _ _ _ _⟩
  | vadd d a b f g => exact ⟨_, fun s => (rfl : execVadd d a b f g s = _), vecRound_harmless _ _ _ _ _ _⟩
  | vsub d a b f g => exact ⟨_, fun s => (rfl : execVsub d a b f g s = _), vecRound_harmless _ _ _ _ _ _⟩
  | vmul d a b f g => exact ⟨_, fun s => (rfl : execVmul d a b f g s = _), vecRound_harmless _ _ _ _ _ _⟩
  | vfma d a b f g => exact ⟨_, fun s => (rfl : execVfma d a b f g s = _), vecFma_harmless _ _ _ _ _ _ _⟩
  | vfms d a b f g => exact ⟨_, fun s => (rfl : execVfms d a b f g s = _), vecFma_harmless _ _ _ _ _ _ _⟩
  | vfnma d a b f g => exact ⟨_, fun s => (rfl : execVfnma d a b f g s = _), vecFma_harmless _ _ _ _ _ _ _⟩
  | vmin d a b f g => exact ⟨_, fun s => (rfl : execVmin d a b f g s = _), vecMinMax_harmless _ _ _ _ _ _⟩
  | vmax d a b f g => exact ⟨_, fun s => (rfl : execVmax d a b f g s = _), vecMinMax_harmless _ _ _ _ _ _⟩
  | vabs d a f g => exact ⟨_, fun s => (rfl : execVabs d a f g s = _), vecPlain_harmless _ _ _ _ _ _ _⟩
  | vneg d a f g => exact ⟨_, fun s => (rfl : execVneg d a f g s = _), vecPlain_harmless _ _ _ _ _ _ _⟩
  | vrcp d a f g => exact ⟨_, fun s => (rfl : execVrcp d a f g s = _), vecFun_harmless _ _ _ _ _⟩
  | vrsq d a f g => exact ⟨_, fun s => (rfl : execVrsq d a f g s = _), vecFun_harmless _ _ _ _ _⟩
  | vsqrt d a f g => exact ⟨_, fun s => (rfl : execVsqrt d a f g s = _), vecFun_harmless _ _ _ _ _⟩
  | vexp2 d a f g => exact ⟨_, fun s => (rfl : execVexp2 d a f g s = _), vecFun_harmless _ _ _ _ _⟩
  | vlog2 d a f g => exact ⟨_, fun s => (rfl : execVlog2 d a f g s = _), vecFun_harmless _ _ _ _ _⟩
  | vtanh d a f g => exact ⟨_, fun s => (rfl : execVtanh d a f g s = _), vecFun_harmless _ _ _ _ _⟩
  | viadd d a b f g => exact ⟨_, fun s => (rfl : execViadd d a b f g s = _), vecPlain_harmless _ _ _ _ _ _ _⟩
  | visub d a b f g => exact ⟨_, fun s => (rfl : execVisub d a b f g s = _), vecPlain_harmless _ _ _ _ _ _ _⟩
  | vimul d a b f g => exact ⟨_, fun s => (rfl : execVimul d a b f g s = _), vecPlain_harmless _ _ _ _ _ _ _⟩
  | vimulh d a b f g => exact ⟨_, fun s => (rfl : execVimulh d a b f g s = _), vecPlain_harmless _ _ _ _ _ _ _⟩
  | viadds d a b f g => exact ⟨_, fun s => (rfl : execViadds d a b f g s = _), vecPlain_harmless _ _ _ _ _ _ _⟩
  | visubs d a b f g => exact ⟨_, fun s => (rfl : execVisubs d a b f g s = _), vecPlain_harmless _ _ _ _ _ _ _⟩
  | vimin d a b f g => exact ⟨_, fun s => (rfl : execVimin d a b f g s = _), vecPlain_harmless _ _ _ _ _ _ _⟩
  | vimax d a b f g => exact ⟨_, fun s => (rfl : execVimax d a b f g s = _), vecPlain_harmless _ _ _ _ _ _ _⟩
  | viminn d a b f g => exact ⟨_, fun s => (rfl : execViminn d a b f g s = _), vecPlain_harmless _ _ _ _ _ _ _⟩
  | vimaxn d a b f g => exact ⟨_, fun s => (rfl : execVimaxn d a b f g s = _), vecPlain_harmless _ _ _ _ _ _ _⟩
  | vand d a b f g => exact ⟨_, fun s => (rfl : execVand d a b f g s = _), vecPlain_harmless _ _ _ _ _ _ _⟩
  | vor d a b f g => exact ⟨_, fun s => (rfl : execVor d a b f g s = _), vecPlain_harmless _ _ _ _ _ _ _⟩
  | vxor d a b f g => exact ⟨_, fun s => (rfl : execVxor d a b f g s = _), vecPlain_harmless _ _ _ _ _ _ _⟩
  | vshl d a b f g => exact ⟨_, fun s => (rfl : execVshl d a b f g s = _), vecPlain_harmless _ _ _ _ _ _ _⟩
  | vshr d a b f g => exact ⟨_, fun s => (rfl : execVshr d a b f g s = _), vecPlain_harmless _ _ _ _ _ _ _⟩
  | vsra d a b f g => exact ⟨_, fun s => (rfl : execVsra d a b f g s = _), vecPlain_harmless _ _ _ _ _ _ _⟩
  | vcmp cc m a b f g => exact ⟨_, fun s => (rfl : execVcmp cc m a b f g s = _), harmless_upd fun _ _ => rfl⟩
  | vsel d a b f g => exact ⟨_, fun s => (rfl : execVsel d a b f g s = _), harmless_putVec⟩
  | vmand d a b => exact ⟨_, fun s => (rfl : execVmand d a b s = _), harmless_upd fun _ _ => rfl⟩
  | vmor d a b => exact ⟨_, fun s => (rfl : execVmor d a b s = _), harmless_upd fun _ _ => rfl⟩
  | vmxor d a b => exact ⟨_, fun s => (rfl : execVmxor d a b s = _), harmless_upd fun _ _ => rfl⟩
  | vmnot d a => exact ⟨_, fun s => (rfl : execVmnot d a s = _), harmless_upd fun _ _ => rfl⟩
  | vmpop d a => exact ⟨_, fun s => (rfl : execVmpop d a s = _), harmless_putVec⟩
  | vcvt d a f sf g => exact ⟨_, fun s => (rfl : execVcvt d a f sf g s = _), vecCvt_harmless _ _ _ _ _⟩
  | vpack d a b f g => exact ⟨_, fun s => (rfl : execVpack d a b f g s = _), vecMove_harmless _ _ _ _ _ _⟩
  | vunpk d a f g => exact ⟨_, fun s => (rfl : execVunpk d a f g s = _), harmless_putVec⟩
  | vqnt d a f t q g => exact ⟨_, fun s => (rfl : execVqnt d a f t q g s = _), vecQnt_harmless _ _ _ _ _ _⟩
  | vdqnt d a f t q g => exact ⟨_, fun s => (rfl : execVdqnt d a f t q g s = _), vecDqnt_harmless _ _ _ _ _ _⟩
  | vmov d a f g => exact ⟨_, fun s => (rfl : execVmov d a f g s = _), vecMove_harmless _ _ _ _ _ _⟩
  | vmovi d f i g => exact ⟨_, fun s => (rfl : execVmovi d f i g s = _), vecMove_harmless _ _ _ _ _ _⟩
  | vperm d a b f g => exact ⟨_, fun s => (rfl : execVperm d a b f g s = _), vecMove_harmless _ _ _ _ _ _⟩
  | vshuf d a f k g => exact ⟨_, fun s => (rfl : execVshuf d a f k g s = _), vecMove_harmless _ _ _ _ _ _⟩
  | vrot d a f r g => exact ⟨_, fun s => (rfl : execVrot d a f r g s = _), vecMove_harmless _ _ _ _ _ _⟩
  | vbcst d a w g => exact vbcst_isSlotOp d a w g
  | vidx d a b w g => exact vidx_isSlotOp d a b w g
  | vins d a b w g => exact ⟨_, fun s => (rfl : execVins d a b w g s = _), harmless_putVec⟩
  | vext v a b w => exact ⟨_, fun s => (rfl : execVext v a b w s = _), harmless_upd fun _ c => Core.wsLate_field c _ _ _⟩
  | vrsum d a f g => exact ⟨_, fun s => (rfl : execVrsum d a f g s = _), vecReduce_harmless _ _ _ _ _ _ _⟩
  | vrmax d a f g => exact ⟨_, fun s => (rfl : execVrmax d a f g s = _), vecReduce_harmless _ _ _ _ _ _ _⟩
  | vrmin d a f g => exact ⟨_, fun s => (rfl : execVrmin d a f g s = _), vecReduce_harmless _ _ _ _ _ _ _⟩
  | vscan d a f g => exact vscan_isSlotOp d a f g
  | vsort d a f g => exact ⟨_, fun s => (rfl : execVsort d a f g s = _), harmless_putVec⟩
  | cdset g d sa w => exact ⟨_, fun s => (rfl : execCdset g d sa w s = _), harmless_upd fun _ _ => rfl⟩
  | cget g b o c d x sa sb sc w i => exact ⟨_, fun s => (rfl : execCget g b o c d x sa sb sc w i s = _), issueCommand_harmless _⟩
  | cput g b o c d x sa sb sc w i => exact ⟨_, fun s => (rfl : execCput g b o c d x sa sb sc w i s = _), issueCommand_harmless _⟩
  | cxfer g b o c d sa sb sc i => exact ⟨_, fun s => (rfl : execCxfer g b o c d sa sb sc i s = _), issueCommand_harmless _⟩
  | cfill g b o c d sa sb sc w i => exact ⟨_, fun s => (rfl : execCfill g b o c d sa sb sc w i s = _), issueCommand_harmless _⟩
  | barset g b sb => exact ⟨_, fun s => (rfl : execBarset g b sb s = _), harmless_upd fun _ _ => rfl⟩
  | aadd g b o c sa sb sc w i => exact ⟨_, fun s => (rfl : execAadd g b o c sa sb sc w i s = _), issueCommand_harmless _⟩
  | afadd g b o c sa sb sc w i => exact ⟨_, fun s => (rfl : execAfadd g b o c sa sb sc w i s = _), issueCommand_harmless _⟩
  | aand g b o c sa sb sc w i => exact ⟨_, fun s => (rfl : execAand g b o c sa sb sc w i s = _), issueCommand_harmless _⟩
  | aor g b o c sa sb sc w i => exact ⟨_, fun s => (rfl : execAor g b o c sa sb sc w i s = _), issueCommand_harmless _⟩
  | axor g b o c sa sb sc w i => exact ⟨_, fun s => (rfl : execAxor g b o c sa sb sc w i s = _), issueCommand_harmless _⟩
  | amin g b o c sa sb sc w i => exact ⟨_, fun s => (rfl : execAmin g b o c sa sb sc w i s = _), issueCommand_harmless _⟩
  | amax g b o c sa sb sc w i => exact ⟨_, fun s => (rfl : execAmax g b o c sa sb sc w i s = _), issueCommand_harmless _⟩
  | aminn g b o c sa sb sc w i => exact ⟨_, fun s => (rfl : execAminn g b o c sa sb sc w i s = _), issueCommand_harmless _⟩
  | amaxn g b o c sa sb sc w i => exact ⟨_, fun s => (rfl : execAmaxn g b o c sa sb sc w i s = _), issueCommand_harmless _⟩
  | axchg g b o c sa sb sc w i => exact ⟨_, fun s => (rfl : execAxchg g b o c sa sb sc w i s = _), issueCommand_harmless _⟩
  | acas g b o c sa sb sc w i => exact ⟨_, fun s => (rfl : execAcas g b o c sa sb sc w i s = _), issueCommand_harmless _⟩
  | adecp g b o c sa sb sc w i => exact ⟨_, fun s => (rfl : execAdecp g b o c sa sb sc w i s = _), issueCommand_harmless _⟩
  | adcas g b o c sa sb sc w i => exact ⟨_, fun s => (rfl : execAdcas g b o c sa sb sc w i s = _), issueCommand_harmless _⟩
  | amove g b o c sa sb sc w i => exact ⟨_, fun s => (rfl : execAmove g b o c sa sb sc w i s = _), issueCommand_harmless _⟩
  | waita g b o c sa sb sc w i => exact ⟨_, fun s => (rfl : execWaita g b o c sa sb sc w i s = _), issueCommand_harmless _⟩
  | ared g b o c sa sb w => exact ⟨_, fun s => (rfl : execAred g b o c sa sb w s = _), issueCommand_harmless _⟩
  | wake g b o c sa sb sc i => exact ⟨_, fun s => (rfl : execWake g b o c sa sb sc i s = _), issueCommand_harmless _⟩
  | ctouch g b o c sa sb i => exact ⟨_, fun s => (rfl : execCtouch g b o c sa sb i s = _), issueCommand_harmless _⟩
  | cflush g b o c sa sb i => exact ⟨_, fun s => (rfl : execCflush g b o c sa sb i s = _), issueCommand_harmless _⟩
  | cmap g b o c sa i => exact ⟨_, fun s => (rfl : execCmap g b o c sa i s = _), issueCommand_harmless _⟩
  | cmigr g b o c sa sb sc w => exact ⟨_, fun s => (rfl : execCmigr g b o c sa sb sc w s = _), issueCommand_harmless _⟩
  | cpfx g b sa sb => exact ⟨_, fun s => (rfl : execCpfx g b sa sb s = _), issueCommand_harmless _⟩
  | psend g b o c d sa sb i => exact ⟨_, fun s => (rfl : execPsend g b o c d sa sb i s = _), issueCommand_harmless _⟩
  | precv g b o c d sa sc i => exact ⟨_, fun s => (rfl : execPrecv g b o c d sa sc i s = _), issueCommand_harmless _⟩
  | pclose g b d => exact ⟨_, fun s => (rfl : execPclose g b d s = _), issueCommand_harmless _⟩
  | tbar g b o c d => exact ⟨_, fun s => (rfl : execTbar g b o c d s = _), issueCommand_harmless _⟩
  | barsig g o c d => exact ⟨_, fun s => (rfl : execBarsig g o c d s = _), issueCommand_harmless _⟩
  | ixopen g b d sa sb => exact ⟨_, fun s => (rfl : execIxopen g b d sa sb s = _), issueCommand_harmless _⟩
  | ixlist g b o c d sa sb i => exact ⟨_, fun s => (rfl : execIxlist g b o c d sa sb i s = _), issueCommand_harmless _⟩
  | ixand g b d sa => exact ⟨_, fun s => (rfl : execIxand g b d sa s = _), issueCommand_harmless _⟩
  | ixor g b d sa => exact ⟨_, fun s => (rfl : execIxor g b d sa s = _), issueCommand_harmless _⟩
  | ixscore g b d sa => exact ⟨_, fun s => (rfl : execIxscore g b d sa s = _), issueCommand_harmless _⟩
  | ixvec g b o c d sa sb => exact ⟨_, fun s => (rfl : execIxvec g b o c d sa sb s = _), issueCommand_harmless _⟩
  | ixtopk g b d => exact ⟨_, fun s => (rfl : execIxtopk g b d s = _), issueCommand_harmless _⟩
  | ixdrain g b o c d sa sc => exact ⟨_, fun s => (rfl : execIxdrain g b o c d sa sc s = _), issueCommand_harmless _⟩
  | ixclose g b d => exact ⟨_, fun s => (rfl : execIxclose g b d s = _), issueCommand_harmless _⟩
  | br o => exact ⟨_, fun s => (rfl : execBr o s = _), harmless_withIssue (fun _ => rfl) (fun _ => rfl)⟩
  | brc p n o => exact brc_isSlotOp p n o
  | call o => exact ⟨_, fun s => (rfl : execCall o s = _), jumpLink_harmless _ _ _⟩
  | jr d a => exact ⟨_, fun s => (rfl : execJr d a s = _), jumpLink_harmless _ _ _⟩
  | ret a => exact ⟨_, fun s => (rfl : execRet a s = _), harmless_withIssue (fun _ => rfl) (fun _ => rfl)⟩
  | loop l st b c => exact ⟨_, fun s => (rfl : execLoop l st b c s = _), pushLoop_harmless _ _ _ _⟩
  | loopi l st b c => exact ⟨_, fun s => (rfl : execLoopi l st b c s = _), pushLoop_harmless _ _ _ _⟩
  | lexit l => exact lexit_isSlotOp l
  | mldb qa fs ft rb qs g => exact mldb_isSlotOp qa fs ft rb qs g
  | mstep acc qa fs ft rb qs g bsw => exact mstep_isSlotOp acc qa fs ft rb qs g bsw
  | mzero acc g => exact ⟨_, fun s => (rfl : execMzero acc g s = _), harmless_upd fun _ _ => rfl⟩
  | mwr acc qa rb g f => exact ⟨_, fun s => (rfl : execMwr acc qa rb g f s = _), harmless_upd fun _ _ => rfl⟩
  | mbias acc qa rb g f => exact ⟨_, fun s => (rfl : execMbias acc qa rb g f s = _), harmless_upd fun _ _ => rfl⟩
  | mrd acc qa fs ft rb g f band => exact mrd_isSlotOp acc qa fs ft rb g f band
  | xput x i w g => exact ⟨_, fun s => (rfl : execXput x i w g s = _), harmless_upd fun _ _ => rfl⟩
  | xget x i w g => exact ⟨_, fun s => (rfl : execXget x i w g s = _), harmless_putVec⟩
  | xclr g => exact ⟨_, fun s => (rfl : execXclr g s = _), harmless_upd fun _ _ => rfl⟩
  | radv q w n g => exact radv_isSlotOp q w n g
  | rcfg q d r w => exact ⟨_, fun s => (rfl : execRcfg q d r w s = _), harmless_trapIf (harmless_upd fun _ _ => rfl)⟩
  | rfill q n => exact ⟨_, fun s => (rfl : execRfill q n s = _), harmless_trapIf (harmless_upd fun _ _ => rfl)⟩
  | add d a b => exact ⟨_, fun s => (rfl : execAdd d a b s = _), setNow_harmless _ _⟩
  | sub d a b => exact ⟨_, fun s => (rfl : execSub d a b s = _), setNow_harmless _ _⟩
  | mul d a b => exact ⟨_, fun s => (rfl : execMul d a b s = _), setLate_harmless _ _ _⟩
  | mulh d a b => exact ⟨_, fun s => (rfl : execMulh d a b s = _), setLate_harmless _ _ _⟩
  | mulhn d a b => exact ⟨_, fun s => (rfl : execMulhn d a b s = _), setLate_harmless _ _ _⟩
  | div d a b => exact ⟨_, fun s => (rfl : execDiv d a b s = _), setLate_harmless _ _ _⟩
  | divn d a b => exact ⟨_, fun s => (rfl : execDivn d a b s = _), setLate_harmless _ _ _⟩
  | rem d a b => exact ⟨_, fun s => (rfl : execRem d a b s = _), setLate_harmless _ _ _⟩
  | remn d a b => exact ⟨_, fun s => (rfl : execRemn d a b s = _), setLate_harmless _ _ _⟩
  | and d a b => exact ⟨_, fun s => (rfl : execAnd d a b s = _), setNow_harmless _ _⟩
  | or d a b => exact ⟨_, fun s => (rfl : execOr d a b s = _), setNow_harmless _ _⟩
  | xor d a b => exact ⟨_, fun s => (rfl : execXor d a b s = _), setNow_harmless _ _⟩
  | shl d a b => exact ⟨_, fun s => (rfl : execShl d a b s = _), setNow_harmless _ _⟩
  | shr d a b => exact ⟨_, fun s => (rfl : execShr d a b s = _), setNow_harmless _ _⟩
  | sra d a b => exact ⟨_, fun s => (rfl : execSra d a b s = _), setNow_harmless _ _⟩
  | min d a b => exact ⟨_, fun s => (rfl : execMin d a b s = _), setNow_harmless _ _⟩
  | max d a b => exact ⟨_, fun s => (rfl : execMax d a b s = _), setNow_harmless _ _⟩
  | minn d a b => exact ⟨_, fun s => (rfl : execMinn d a b s = _), setNow_harmless _ _⟩
  | maxn d a b => exact ⟨_, fun s => (rfl : execMaxn d a b s = _), setNow_harmless _ _⟩
  | clz d a => exact ⟨_, fun s => (rfl : execClz d a s = _), setNow_harmless _ _⟩
  | popc d a => exact ⟨_, fun s => (rfl : execPopc d a s = _), setNow_harmless _ _⟩
  | sel d a b p => exact ⟨_, fun s => (rfl : execSel d a b p s = _), setNow_harmless _ _⟩
  | cmp p a b c => exact ⟨_, fun s => (rfl : execCmp p a b c s = _), setPred_harmless _ _⟩
  | pand d a b => exact ⟨_, fun s => (rfl : execPand d a b s = _), setPred_harmless _ _⟩
  | por d a b => exact ⟨_, fun s => (rfl : execPor d a b s = _), setPred_harmless _ _⟩
  | pxor d a b => exact ⟨_, fun s => (rfl : execPxor d a b s = _), setPred_harmless _ _⟩
  | pnot d a => exact ⟨_, fun s => (rfl : execPnot d a s = _), setPred_harmless _ _⟩
  | addi d a i => exact ⟨_, fun s => (rfl : execAddi d a i s = _), setNow_harmless _ _⟩
  | andi d a i => exact ⟨_, fun s => (rfl : execAndi d a i s = _), setNow_harmless _ _⟩
  | ori d a i => exact ⟨_, fun s => (rfl : execOri d a i s = _), setNow_harmless _ _⟩
  | xori d a i => exact ⟨_, fun s => (rfl : execXori d a i s = _), setNow_harmless _ _⟩
  | shli d a i => exact ⟨_, fun s => (rfl : execShli d a i s = _), setNow_harmless _ _⟩
  | shri d a i => exact ⟨_, fun s => (rfl : execShri d a i s = _), setNow_harmless _ _⟩
  | srai d a i => exact ⟨_, fun s => (rfl : execSrai d a i s = _), setNow_harmless _ _⟩
  | cmpi c p a i => exact ⟨_, fun s => (rfl : execCmpi c p a i s = _), setPred_harmless _ _⟩
  | lih d i => exact ⟨_, fun s => (rfl : execLih d i s = _), setNow_harmless _ _⟩
  | vld d a o g => exact ⟨_, fun s => (rfl : execVld d a o g s = _), loadRows_harmless _ _ _ _⟩
  | vst d a o g => exact ⟨_, fun s => (rfl : execVst d a o g s = _), storeRows_harmless _ _ _ _⟩
  | vlds d a b w g => exact ⟨_, fun s => (rfl : execVlds d a b w g s = _), loadGranules_harmless _ _ _ _ _⟩
  | vsts d a b w g => exact ⟨_, fun s => (rfl : execVsts d a b w g s = _), storeGranules_harmless _ _ _ _ _⟩
  | vgth d a b f g => exact vgth_isSlotOp d a b f g
  | vsct d a b f g => exact vsct_isSlotOp d a b f g
  | vldc d a o g => exact ⟨_, fun s => (rfl : execVldc d a o g s = _), loadRows_harmless _ _ _ _⟩
  | vstc d a o g => exact ⟨_, fun s => (rfl : execVstc d a o g s = _), storeRows_harmless _ _ _ _⟩
  | vcmpr q a f g => exact vcmpr_isSlotOp q a f g
  | vcmprFlush q f => exact vcmprFlush_isSlotOp q f
  | vxpnd d q f g => exact vxpnd_isSlotOp d q f g
  | vxpndDrop q f => exact vxpndDrop_isSlotOp q f
  | _ => exact absurd rfl h

end Sys2Proof.Machine
end

section
/-! PROOF. Every operation and every event answers a next state. -/
namespace Sys2Proof.Machine

theorem csrEvent_next (n : Nat) (k : Fin 3) (v : Double) (s : State) : ∃ t, csrEvent n k v s = .next t := by
  unfold csrEvent
  split
  · exact ⟨_, rfl⟩
  · exact ⟨_, rfl⟩

theorem State.next_of_mailbox {s : State} {o : Out} {opcode : Nat} {ok : Bool} {run : State → State} (h : o = s.mailbox opcode ok run) :
    ∃ t, o = .next t := by
  unfold State.mailbox at h
  split at h
  · exact ⟨_, h⟩
  · split at h
    · exact ⟨_, h⟩
    · exact ⟨_, h⟩

/-! ### Events whose meaning branches: every branch answers a next state -/

theorem execWaittResume_next (n : Nat) (s : State) : ∃ t, execWaittResume n s = .next t := by
  unfold execWaittResume
  repeat' split
  all_goals exact ⟨_, rfl⟩

theorem execCxferTargetSignal_next (n id : Nat) (s : State) : ∃ t, execCxferTargetSignal n id s = .next t := by
  unfold execCxferTargetSignal
  dsimp only
  repeat' split
  all_goals exact ⟨_, rfl⟩

theorem execMigrationPage_next (id : Nat) (s : State) : ∃ t, execMigrationPage id s = .next t := by
  unfold execMigrationPage
  dsimp only
  repeat' split
  all_goals exact ⟨_, rfl⟩

theorem execInvtlbComplete_next (id : Nat) (s : State) : ∃ t, execInvtlbComplete id s = .next t := by
  unfold execInvtlbComplete
  dsimp only
  repeat' split
  all_goals exact ⟨_, rfl⟩

theorem execIxCommandStart_next (n id : Nat) (s : State) : ∃ t, execIxCommandStart n id s = .next t := by
  unfold execIxCommandStart
  repeat' split
  all_goals exact ⟨_, rfl⟩

theorem execCommandAccept_next (n : Nat) (e : Fin 2) (s : State) : ∃ t, execCommandAccept n e s = .next t := by
  unfold execCommandAccept
  dsimp only
  repeat' split
  all_goals exact ⟨_, rfl⟩

theorem execCommandComplete_next (n id : Nat) (s : State) : ∃ t, execCommandComplete n id s = .next t := by
  unfold execCommandComplete
  repeat' split
  all_goals exact ⟨_, rfl⟩

theorem execGraceExpiry_next (n : Nat) (s : State) : ∃ t, execGraceExpiry n s = .next t := by
  unfold execGraceExpiry
  repeat' split
  all_goals exact ⟨_, rfl⟩

theorem execHeadlandResolve_next (n : Nat) (s : State) : ∃ t, execHeadlandResolve n s = .next t := by
  unfold execHeadlandResolve
  dsimp only
  repeat' split
  all_goals exact ⟨_, rfl⟩

theorem execOverrun_next (n : Nat) (s : State) : ∃ t, execOverrun n s = .next t := by
  unfold execOverrun
  dsimp only
  repeat' split
  all_goals exact ⟨_, rfl⟩

theorem execStakeLapse_next (n : Nat) (s : State) : ∃ t, execStakeLapse n s = .next t := by
  unfold execStakeLapse
  dsimp only
  repeat' split
  all_goals exact ⟨_, rfl⟩

theorem execCalendarTick_next (cl : Nat) (s : State) : ∃ t, execCalendarTick cl s = .next t := by
  unfold execCalendarTick
  dsimp only
  repeat' split
  all_goals exact ⟨_, rfl⟩

theorem execInstanceComplete_next (i : Nat) (s : State) : ∃ t, execInstanceComplete i s = .next t := by
  unfold execInstanceComplete
  dsimp only
  repeat' split
  all_goals exact ⟨_, rfl⟩

theorem execSiblingStop_next (n m : Nat) (s : State) : ∃ t, execSiblingStop n m s = .next t := by
  unfold execSiblingStop
  dsimp only
  repeat' split
  all_goals exact ⟨_, rfl⟩

theorem execStageTeam_next (tn : Nat) (s : State) : ∃ t, execStageTeam tn s = .next t := by
  unfold execStageTeam
  dsimp only
  repeat' split
  all_goals exact ⟨_, rfl⟩

theorem execTaskRelease_next (tn : Nat) (s : State) : ∃ t, execTaskRelease tn s = .next t := by
  unfold execTaskRelease
  dsimp only
  repeat' split
  all_goals exact ⟨_, rfl⟩

theorem execPreempt_next (tn : Nat) (s : State) : ∃ t, execPreempt tn s = .next t := by
  unfold execPreempt
  repeat' split
  all_goals exact ⟨_, rfl⟩

theorem execQuantumExpiry_next (tn : Nat) (s : State) : ∃ t, execQuantumExpiry tn s = .next t := by
  unfold execQuantumExpiry
  dsimp only
  repeat' split
  all_goals exact ⟨_, rfl⟩

theorem execDrainEnd_next (n : Nat) (s : State) : ∃ t, execDrainEnd n s = .next t := by
  unfold execDrainEnd
  dsimp only
  repeat' split
  all_goals exact ⟨_, rfl⟩

theorem execTurnRollback_next (n : Nat) (_a : BitVec 64) (s : State) : ∃ t, execTurnRollback n _a s = .next t := by
  unfold execTurnRollback
  dsimp only
  repeat' split
  all_goals exact ⟨_, rfl⟩

theorem execSwapOutComplete_next (n : Nat) (s : State) : ∃ t, execSwapOutComplete n s = .next t := by
  unfold execSwapOutComplete
  dsimp only
  repeat' split
  all_goals exact ⟨_, rfl⟩

theorem execSwapInComplete_next (tn : Nat) (s : State) : ∃ t, execSwapInComplete tn s = .next t := by
  unfold execSwapInComplete
  dsimp only
  repeat' split
  all_goals exact ⟨_, rfl⟩

theorem execContextEnd_next (ctx cause refill : Nat) (s : State) : ∃ t, execContextEnd ctx cause refill s = .next t := by
  unfold execContextEnd
  dsimp only
  repeat' split
  all_goals exact ⟨_, rfl⟩

theorem execQueueDescriptorWrite_next (q : Nat) (reg : Fin 4) (v : BitVec 64) (s : State) :
    ∃ t, execQueueDescriptorWrite q reg v s = .next t := by
  unfold execQueueDescriptorWrite
  repeat' split
  all_goals exact ⟨_, rfl⟩

theorem execKickqWrite_next (q : Nat) (v : BitVec 64) (s : State) : ∃ t, execKickqWrite q v s = .next t := by
  unfold execKickqWrite
  dsimp only
  repeat' split
  all_goals exact ⟨_, rfl⟩

theorem execDoorbellNotify_next (q : Nat) (s : State) : ∃ t, execDoorbellNotify q s = .next t := by
  unfold execDoorbellNotify
  dsimp only
  repeat' split
  all_goals exact ⟨_, rfl⟩

theorem execLaunchAdmit_next (u : Nat) (s : State) : ∃ t, execLaunchAdmit u s = .next t := by
  unfold execLaunchAdmit
  repeat' split
  all_goals exact ⟨_, rfl⟩

theorem execQueueUnpark_next (q : Nat) (s : State) : ∃ t, execQueueUnpark q s = .next t := by
  unfold execQueueUnpark
  dsimp only
  repeat' split
  all_goals exact ⟨_, rfl⟩

theorem execTeamPlace_next (tn : Nat) (s : State) : ∃ t, execTeamPlace tn s = .next t := by
  unfold execTeamPlace
  dsimp only
  repeat' split
  all_goals exact ⟨_, rfl⟩

theorem execCcRequestServe_next (cl : Nat) (s : State) : ∃ t, execCcRequestServe cl s = .next t := by
  unfold execCcRequestServe
  dsimp only
  repeat' split
  all_goals exact ⟨_, rfl⟩

theorem execBookingLapse_next (cl handle : Nat) (s : State) : ∃ t, execBookingLapse cl handle s = .next t := by
  unfold execBookingLapse
  repeat' split
  all_goals exact ⟨_, rfl⟩

theorem execPageFaultResolved_next (ctx va : Nat) (s : State) : ∃ t, execPageFaultResolved ctx va s = .next t := by
  unfold execPageFaultResolved
  dsimp only
  repeat' split
  all_goals exact ⟨_, rfl⟩

theorem execPageFaultUnresolvable_next (ctx va : Nat) (s : State) : ∃ t, execPageFaultUnresolvable ctx va s = .next t := by
  unfold execPageFaultUnresolvable
  dsimp only
  repeat' split
  all_goals exact ⟨_, rfl⟩

theorem execExpiryWritebackComplete_next (cl mem grp : Nat) (s : State) : ∃ t, execExpiryWritebackComplete cl mem grp s = .next t := by
  unfold execExpiryWritebackComplete
  dsimp only
  repeat' split
  all_goals exact ⟨_, rfl⟩

theorem execBucketLeak_next (kind : Fin 6) (s : State) : ∃ t, execBucketLeak kind s = .next t := by
  unfold execBucketLeak
  dsimp only
  repeat' split
  all_goals exact ⟨_, rfl⟩

theorem execShadowLatchReplay_next (place : Fin 4) (unit sub : Nat) (again : Bool) (s : State) :
    ∃ t, execShadowLatchReplay place unit sub again s = .next t := by
  unfold execShadowLatchReplay
  dsimp only
  repeat' split
  all_goals exact ⟨_, rfl⟩

theorem execKatRun_next (n : Nat) (differ : List (Nat × Nat)) (s : State) : ∃ t, execKatRun n differ s = .next t := by
  unfold execKatRun
  dsimp only
  repeat' split
  all_goals exact ⟨_, rfl⟩

theorem execCcFailure_next (cl : Nat) (permit : Bool) (s : State) : ∃ t, execCcFailure cl permit s = .next t := by
  unfold execCcFailure
  dsimp only
  repeat' split
  all_goals exact ⟨_, rfl⟩

theorem execModuleStop_next (stall : Bool) (s : State) : ∃ t, execModuleStop stall s = .next t := by
  unfold execModuleStop
  dsimp only
  repeat' split
  all_goals exact ⟨_, rfl⟩

theorem execReductionContribution_next (module addr : Nat) (op : Fin 8) (v : BitVec 64) (s : State) :
    ∃ t, execReductionContribution module addr op v s = .next t := by
  unfold execReductionContribution
  dsimp only
  repeat' split
  all_goals exact ⟨_, rfl⟩

theorem execRoundTimeout_next (win seg : Nat) (s : State) : ∃ t, execRoundTimeout win seg s = .next t := by
  unfold execRoundTimeout
  repeat' split
  all_goals exact ⟨_, rfl⟩

theorem execPhiokReplay_next (port : Nat) (s : State) : ∃ t, execPhiokReplay port s = .next t := by
  unfold execPhiokReplay
  dsimp only
  repeat' split
  all_goals exact ⟨_, rfl⟩

theorem execPortRetrain_next (port : Nat) (ok : Bool) (s : State) : ∃ t, execPortRetrain port ok s = .next t := by
  unfold execPortRetrain
  dsimp only
  repeat' split
  all_goals exact ⟨_, rfl⟩

theorem execPeerTimeout_next (core id : Nat) (s : State) : ∃ t, execPeerTimeout core id s = .next t := by
  unfold execPeerTimeout
  repeat' split
  all_goals exact ⟨_, rfl⟩

theorem execCxlLinkTimeout_next (core id : Nat) (s : State) : ∃ t, execCxlLinkTimeout core id s = .next t := by
  unfold execCxlLinkTimeout
  repeat' split
  all_goals exact ⟨_, rfl⟩

theorem execHostCxlMemAccess_next (pa len : Nat) (data : List (BitVec 8)) (s : State) : ∃ t, execHostCxlMemAccess pa len data s = .next t := by
  unfold execHostCxlMemAccess
  repeat' split
  all_goals exact ⟨_, rfl⟩

theorem execPhiokInboundRequest_next (kind : Fin 8) (addr len : Nat) (data : List (BitVec 8)) (s : State) :
    ∃ t, execPhiokInboundRequest kind addr len data s = .next t := by
  unfold execPhiokInboundRequest
  dsimp only
  repeat' split
  all_goals exact ⟨_, rfl⟩

theorem execPowerGood_next (cores clusters hbm links : Nat) (boot : Bool) (s : State) :
    ∃ t, execPowerGood cores clusters hbm links boot s = .next t := by
  unfold execPowerGood
  dsimp only
  repeat' split
  all_goals exact ⟨_, rfl⟩

theorem execWeightSetVerified_next (id : Nat) (s : State) : ∃ t, execWeightSetVerified id s = .next t := by
  unfold execWeightSetVerified
  dsimp only
  repeat' split
  all_goals exact ⟨_, rfl⟩

theorem execCheckpointComplete_next (s : State) : ∃ t, execCheckpointComplete s = .next t := by
  unfold execCheckpointComplete
  dsimp only
  repeat' split
  all_goals exact ⟨_, rfl⟩

theorem execRestoreComplete_next (s : State) : ∃ t, execRestoreComplete s = .next t := by
  unfold execRestoreComplete
  repeat' split
  all_goals exact ⟨_, rfl⟩

/-- The scrub's meaning is taken as a function before its arguments are put in, as `exec_globalScrub` does, lest the kernel count out the tiers. -/
theorem execGlobalScrub_next (addr : Nat) (err : Fin 3) (s : State) : ∃ t, execGlobalScrub addr err s = .next t := by
  generalize hmeaning : execGlobalScrub = meaning
  delta execGlobalScrub at hmeaning
  subst hmeaning
  beta_reduce
  split
  · exact ⟨_, rfl⟩
  · exact ⟨_, rfl⟩

theorem event_next {i : Instr} (h : i.unit = none) (s : State) : ∃ t, exec i s = .next t := by
  cases i with
  | psendStore | precvReceive | stakePlace | permitReturn | queueEnable | queueDisable | deferredWritePerform | waitReevaluate | nop
  | launch | wait | signal | ibCall | pktFence | pktBook | pktCancel | counter | timestamp | reservedCycle | msgPlace | msgBook | msgStage
  | msgRelease | msgInvtlb | msgRetire | msgQuantum | msgPreempt | msgCancel | msgBooked | msgNofit | msgStaged | msgHalted | msgSwapped
  | msgSlip | msgEvent | msgComplete | msgFault | cxlLinkDown | ideFailure | ideKeyProgramming | moduleReset | thermalTrip | heartbeat
  | mstepComplete | fallowBundle | resultLand | invtlb | rollbackRestart | retentionTick | refreshUrgent | cxlLinkUp | tickBoundary =>
    exact ⟨_, rfl⟩
  | csrWrite n => exact csrEvent_next n _ _ _
  | vctlWrite => exact csrEvent_next 0x020 _ _ _
  | vseedWrite => exact csrEvent_next 0x022 _ _ _
  | bstatWrite n => exact csrEvent_next (0x200 + n.val) _ _ _
  | moncapWrite => exact csrEvent_next 0x408 _ _ _
  | ctxCreate inp => exact State.next_of_mailbox (execCtxCreate.eq_1 inp s)
  | ctxDestroy inp => exact State.next_of_mailbox (execCtxDestroy.eq_1 inp s)
  | mbInvtlb inp => exact State.next_of_mailbox (execMbInvtlb.eq_1 inp s)
  | migrate inp => exact State.next_of_mailbox (execMigrate.eq_1 inp s)
  | hashSet inp => exact State.next_of_mailbox (execHashSet.eq_1 inp s)
  | powerSet inp => exact State.next_of_mailbox (execPowerSet.eq_1 inp s)
  | keyInstall inp => exact State.next_of_mailbox (execKeyInstall.eq_1 inp s)
  | attest inp => exact State.next_of_mailbox (execAttest.eq_1 inp s)
  | wsetRegister inp => exact State.next_of_mailbox (execWsetRegister.eq_1 inp s)
  | windowOpen inp => exact State.next_of_mailbox (execWindowOpen.eq_1 inp s)
  | windowClose inp => exact State.next_of_mailbox (execWindowClose.eq_1 inp s)
  | mbRetire inp => exact State.next_of_mailbox (execMbRetire.eq_1 inp s)
  | eventRead inp => exact State.next_of_mailbox (execEventRead.eq_1 inp s)
  | ckpt inp => exact State.next_of_mailbox (execCkpt.eq_1 inp s)
  | restore inp => exact State.next_of_mailbox (execRestore.eq_1 inp s)
  | globalScrub addr err => exact execGlobalScrub_next addr err s
  | waittResume n => exact execWaittResume_next n s
  | cxferTargetSignal n id => exact execCxferTargetSignal_next n id s
  | migrationPage id => exact execMigrationPage_next id s
  | invtlbComplete id => exact execInvtlbComplete_next id s
  | ixCommandStart n id => exact execIxCommandStart_next n id s
  | commandAccept n e => exact execCommandAccept_next n e s
  | commandComplete n id => exact execCommandComplete_next n id s
  | graceExpiry n => exact execGraceExpiry_next n s
  | headlandResolve n => exact execHeadlandResolve_next n s
  | overrun n => exact execOverrun_next n s
  | stakeLapse n => exact execStakeLapse_next n s
  | calendarTick cl => exact execCalendarTick_next cl s
  | instanceComplete i => exact execInstanceComplete_next i s
  | siblingStop n m => exact execSiblingStop_next n m s
  | stageTeam tn => exact execStageTeam_next tn s
  | taskRelease tn => exact execTaskRelease_next tn s
  | preempt tn => exact execPreempt_next tn s
  | quantumExpiry tn => exact execQuantumExpiry_next tn s
  | drainEnd n => exact execDrainEnd_next n s
  | turnRollback n _a => exact execTurnRollback_next n _a s
  | swapOutComplete n => exact execSwapOutComplete_next n s
  | swapInComplete tn => exact execSwapInComplete_next tn s
  | contextEnd ctx cause refill => exact execContextEnd_next ctx cause refill s
  | queueDescriptorWrite q reg v => exact execQueueDescriptorWrite_next q reg v s
  | kickqWrite q v => exact execKickqWrite_next q v s
  | doorbellNotify q => exact execDoorbellNotify_next q s
  | launchAdmit u => exact execLaunchAdmit_next u s
  | queueUnpark q => exact execQueueUnpark_next q s
  | teamPlace tn => exact execTeamPlace_next tn s
  | ccRequestServe cl => exact execCcRequestServe_next cl s
  | bookingLapse cl handle => exact execBookingLapse_next cl handle s
  | pageFaultResolved ctx va => exact execPageFaultResolved_next ctx va s
  | pageFaultUnresolvable ctx va => exact execPageFaultUnresolvable_next ctx va s
  | expiryWritebackComplete cl mem grp => exact execExpiryWritebackComplete_next cl mem grp s
  | bucketLeak kind => exact execBucketLeak_next kind s
  | shadowLatchReplay place unit sub again => exact execShadowLatchReplay_next place unit sub again s
  | katRun n differ => exact execKatRun_next n differ s
  | ccFailure cl permit => exact execCcFailure_next cl permit s
  | moduleStop stall => exact execModuleStop_next stall s
  | reductionContribution module addr op v => exact execReductionContribution_next module addr op v s
  | roundTimeout win seg => exact execRoundTimeout_next win seg s
  | phiokReplay port => exact execPhiokReplay_next port s
  | portRetrain port ok => exact execPortRetrain_next port ok s
  | peerTimeout core id => exact execPeerTimeout_next core id s
  | cxlLinkTimeout core id => exact execCxlLinkTimeout_next core id s
  | hostCxlMemAccess pa len data => exact execHostCxlMemAccess_next pa len data s
  | phiokInboundRequest kind addr len data => exact execPhiokInboundRequest_next kind addr len data s
  | powerGood cores clusters hbm links boot => exact execPowerGood_next cores clusters hbm links boot s
  | weightSetVerified id => exact execWeightSetVerified_next id s
  | checkpointComplete => exact execCheckpointComplete_next s
  | restoreComplete => exact execRestoreComplete_next s
  | _ => cases h

/-- A slot operation finishes, waits or traps, and every branch of an event's meaning answers. -/
theorem exec_next (i : Instr) (s : State) : ∃ t, exec i s = .next t := by
  by_cases h : i.unit = none
  · exact event_next h s
  · obtain ⟨act, hexec, -⟩ := isSlotOp h
    rw [hexec]
    exact slotOp_next i act s

/-- Settles O7: the operations of a slot by `slotOp_next`, the events one by one. -/
theorem everyInstructionAnswers : Obligations.EveryInstructionAnswers := exec_next

end Sys2Proof.Machine
end

section
/-! PROOF. The checks before a slot operation's effect, and the null issue (R221, R227, R446, R456). -/

namespace Sys2Proof.Machine

/-- The lowest class of an operation that a mask lacks. -/
theorem lowestMissing_eq_some {mask : Double} {cls : List Nat} {k : Nat} (hmem : k ∈ cls) (hk : mask.getLsbD k = false)
    (hmin : ∀ j ∈ cls, mask.getLsbD j = false → k ≤ j) : lowestMissing mask cls = some k := by
  refine List.min?_eq_some_iff.2 ⟨List.mem_filter.2 ⟨hmem, by rw [hk]; rfl⟩, fun j hj => ?_⟩
  obtain ⟨hcls, hlacks⟩ := List.mem_filter.1 hj
  exact hmin j hcls (Bool.not_eq_true' _ ▸ hlacks)

theorem lowestMissing_eq_none {mask : Double} {cls : List Nat} (h : ∀ j ∈ cls, mask.getLsbD j = true) : lowestMissing mask cls = none := by
  have hnone : cls.filter (fun k => !mask.getLsbD k) = [] := List.filter_eq_nil_iff.2 fun j hj => by simp [h j hj]
  rw [lowestMissing, hnone]
  rfl

section
variable {c : Core} {i : Instr} {k : Nat} (hformat : c.formatTrap i = none) (hmem : k ∈ c.classesOf i)
include hformat hmem

/-- A class that USEM lacks (R227, R456). -/
theorem checkTrap_undeclared (hk : c.csr.usem.getLsbD k = false) (hmin : ∀ j ∈ c.classesOf i, c.csr.usem.getLsbD j = false → k ≤ j) :
    c.checkTrap i = some ⟨7, k, 0⟩ := by
  unfold Core.checkTrap Core.classTrap
  rw [hformat, lowestMissing_eq_some hmem hk hmin]

/-- A class that USEM has and CAPM lacks (R227, R456). -/
theorem checkTrap_fenced (husem : ∀ j ∈ c.classesOf i, c.csr.usem.getLsbD j = true) (hk : c.csr.capm.getLsbD k = false)
    (hmin : ∀ j ∈ c.classesOf i, c.csr.capm.getLsbD j = false → k ≤ j) : c.checkTrap i = some ⟨8, k, 0⟩ := by
  unfold Core.checkTrap Core.classTrap
  rw [hformat, lowestMissing_eq_none husem, lowestMissing_eq_some hmem hk hmin]
  rfl

end

/-- A check that fails traps before anything else of the slot, unless a bundle of one slot waits on a ring. -/
theorem slotOp_checkFirst {i : Instr} {s : State} {t : Trap} {act : State → Except Trap State} (h : s.view.checkTrap i = some t)
    (hwait : s.view.ringState i = .later → s.issue.bundle ≠ []) : slotOp i act s = .next (s.slotTrap i t) := by
  unfold slotOp State.slotTrap
  dsimp only
  rw [if_neg fun hw => hwait hw.1 hw.2, h]

/-- Settles O14: steps 3 to 7 of R446 are the checks of `slotOp`, which come before its guard and its action. -/
theorem checksBeforeEffects : Obligations.ChecksBeforeEffects := by
  intro i s hunit
  obtain ⟨act, hexec, -⟩ := isSlotOp hunit
  have htraps {t : Trap} (hcheck : s.view.checkTrap i = some t) (hwait : s.view.ringState i = .later → s.issue.bundle ≠ []) : Traps i s t :=
    (hexec s).trans (slotOp_checkFirst hcheck hwait)
  refine ⟨fun t hcheck hwait => htraps hcheck hwait, fun k hformat hwait hmem => ⟨fun hk hmin => ?_, fun husem hk hmin => ?_⟩,
    fun g hguard _ hoff hcheck => ?_⟩
  · exact htraps (checkTrap_undeclared hformat hmem hk hmin) hwait
  · exact htraps (checkTrap_fenced hformat hmem husem hk hmin) hwait
  · exact (hexec s).trans (slotOp_null hcheck (by rw [hguard]; exact hoff))

end Sys2Proof.Machine
end

section
/-! PROOF. A step that issues a bundle leaves every memory alone, however the bundle ends (R217, R444, R447). -/

namespace Sys2Proof.Machine

/-! ### The bundle in hand put aside -/

/-- The core kept as it stood before the bundle in hand has the field that the core in hand has: no slot writes it (R31). -/
def State.KeptField (s : State) : Prop := ∀ p, s.issue.pre = some p → p.field = (s.core s.here).field

/-- What the end of a slot leaves: every memory, and a field kept with the bundle that goes on. -/
structure State.SlotEnds (s t : State) : Prop extends s.KeepsMemory t where
  kept : t.KeptField

theorem keptField_of_none {s : State} (h : s.issue.pre = none) : s.KeptField := fun p hp => by rw [h] at hp; cases hp

theorem State.SlotKeeps.kept {s t : State} (h : s.SlotKeeps t) (hs : s.KeptField) : t.KeptField := by
  intro p hp
  have hhere : t.here = s.here := h.core
  rw [hhere, h.field]
  exact hs p (h.pre ▸ hp)

theorem discard_keeps {s : State} (hs : s.KeptField) : s.KeepsMemory s.discard := by
  unfold State.discard
  split
  · next p hp => exact (State.KeepsMemory.setCore s (hs p hp)).trans (.of_eq rfl rfl rfl rfl rfl)
  · exact .of_eq rfl rfl rfl rfl rfl

theorem discard_pre_none (s : State) : s.discard.issue.pre = none := by
  unfold State.discard
  split
  · rfl
  · rfl

theorem halt_field (c : Core) (cause : Double) (pc addr src : Nat) : (c.halt cause pc addr src).field = c.field := (halt_keeps c cause pc addr src).2

theorem trapCore_keeps (s : State) (n : Nat) (t : Trap) (slot : Nat) (rep inc : Bool) (pc src : Nat) :
    s.KeepsMemory (s.trapCore n t slot rep inc pc src) :=
  (State.KeepsMemory.updCore s n (f := fun c => c.halt (causeWord t slot rep inc) pc t.addr src) fun c => halt_field c _ _ _ _).trans
    (.of_eq rfl rfl rfl rfl rfl)

theorem takeTrap_ends {s : State} (hs : s.KeptField) (k : Nat) (t : Trap) (src : Nat) : s.SlotEnds (s.takeTrap k t src) where
  toKeepsMemory := (discard_keeps hs).trans (trapCore_keeps _ _ _ _ _ _ _ _)
  kept := keptField_of_none (discard_pre_none s)

/-! ### The commit -/

theorem commitSeq_field (c : Core) (iss : Issue) (now : Nat) : (c.commitSeq iss now).field = c.field := (commitSeq_commits c iss now).keeps.2.1

namespace State.KeepsMemory

/-- Further changes behind one that leaves every memory alone. -/
theorem thenUpdCore {s u : State} {n : Nat} {f : Core → Core} (h : s.KeepsMemory u) (hf : ∀ c, (f c).field = c.field) : s.KeepsMemory (u.updCore n f) :=
  h.trans (updCore u n hf)

theorem thenUpdCluster {s u : State} {k : Nat} {f : Cluster → Cluster} (h : s.KeepsMemory u) (hf : ∀ c, (f c).commons = c.commons) :
    s.KeepsMemory (u.updCluster k f) := h.trans (updCluster u k hf)

theorem thenIssue {s : State} (u : State) {I : Issue} (h : s.KeepsMemory u) : s.KeepsMemory (u.withIssue I) := h.trans (of_eq rfl rfl rfl rfl rfl)

theorem thenAgenda {s : State} (u : State) {l : List Work} (h : s.KeepsMemory u) : s.KeepsMemory (u.withAgenda l) := h.trans (of_eq rfl rfl rfl rfl rfl)

end State.KeepsMemory

theorem commitLeave_keeps (s : State) (n : Nat) (lv : Leave) : s.KeepsMemory (s.commitLeave n lv) := by
  unfold State.commitLeave
  cases lv with
  | stay => exact .refl s
  | headland b => exact .updCore s n fun _ => rfl
  | waitt t => exact .updCore s n fun _ => rfl
  | exit => exact .thenAgenda (s.updCore n _) (.updCore s n fun _ => rfl)
  | turn base len d bar engine => exact .updCore s n fun _ => rfl
  | yield =>
    dsimp only
    split
    · exact .thenAgenda s (.refl s)
    · exact .refl s

theorem commitLeave_issue (s : State) (n : Nat) (lv : Leave) : (s.commitLeave n lv).issue = s.issue := by
  cases lv with
  | yield =>
    unfold State.commitLeave
    dsimp only
    split
    · rfl
    · rfl
  | _ => rfl

theorem reseed_keeps (s : State) : s.KeepsMemory s.reseed := by
  unfold State.reseed
  split
  · exact .updCore s _ fun _ => rfl
  · exact .refl s

theorem retire_ends {s : State} (hs : s.KeptField) : s.SlotEnds s.retire := by
  unfold State.retire
  split
  · exact takeTrap_ends hs _ _ _
  · dsimp only
    refine ⟨?_, keptField_of_none (by rw [commitLeave_issue]; rfl)⟩
    refine State.KeepsMemory.trans ?_ (commitLeave_keeps _ _ _)
    refine .thenIssue (State.updCore _ _ _) (.thenUpdCore ?_ fun c => commitSeq_field c _ _)
    have hposted : s.KeepsMemory (match s.reseed.issue.post with
        | some r => s.reseed.updCluster (clusterOf s.here) (fun k => { k with reqQ := k.reqQ ++ [r] })
        | none => s.reseed) := by
      split
      · exact .thenUpdCluster (reseed_keeps s) fun _ => rfl
      · exact reseed_keeps s
    split
    · exact .thenUpdCluster hposted fun _ => rfl
    · exact hposted

theorem fillLatch_slotKeeps (i : Instr) (u : State) : u.SlotKeeps (u.fillLatch i) := .thenIssue (u.upd _) (.upd u fun _ => rfl) rfl rfl

theorem finish_ends {u : State} (hu : u.KeptField) (i : Instr) : u.SlotEnds (u.finish i) := by
  have hfill := fillLatch_slotKeeps i u
  have hkept := hfill.kept hu
  unfold State.finish
  dsimp only
  split
  · exact ⟨hfill.toKeepsMemory, hkept⟩
  · have hretire := retire_ends hkept
    exact ⟨hfill.toKeepsMemory.trans hretire.toKeepsMemory, hretire.kept⟩

/-! ### One slot, and all of them -/

theorem stall_slotKeeps (s : State) : s.SlotKeeps s.stall := .upd s fun _ => rfl

theorem State.SlotKeeps.ends {s t u : State} (h : s.SlotKeeps t) (h' : t.SlotEnds u) : s.SlotEnds u :=
  ⟨h.toKeepsMemory.trans h'.toKeepsMemory, h'.kept⟩

theorem slotOp_ends {i : Instr} {act : State → Except Trap State} (hact : Harmless act) {s t : State} (hs : s.KeptField)
    (h : slotOp i act s = .next t) : s.SlotEnds t := by
  rcases slotOp_cases i act s with hw | ⟨trap, htrap⟩ | hnull | ⟨u, hu, hdone⟩
  · rw [← Host.Outcome.next.inj (hw.symm.trans h)]
    exact ⟨(stall_slotKeeps s).toKeepsMemory, (stall_slotKeeps s).kept hs⟩
  · rw [← Host.Outcome.next.inj (htrap.symm.trans h)]
    exact takeTrap_ends hs _ _ _
  · rw [← Host.Outcome.next.inj (hnull.symm.trans h)]
    exact finish_ends hs i
  · rw [← Host.Outcome.next.inj (hdone.symm.trans h)]
    have hkeeps := hact s u hu
    exact hkeeps.ends (finish_ends (hkeeps.kept hs) i)

theorem exec_ends {i : Instr} (hi : i.unit ≠ none) {s t : State} (hs : s.KeptField) (h : exec i s = .next t) : s.SlotEnds t := by
  obtain ⟨act, hexec, hact⟩ := isSlotOp hi
  exact slotOp_ends hact hs ((hexec s).symm.trans h)

/-- What decodes is an operation of a slot. -/
theorem unit_of_decodeBody {k : Slot} {w : Nat} {i : Instr} (h : decodeBody k w = .ok i) : i.unit ≠ none := by
  intro hnone
  obtain ⟨henc, -⟩ := Laws.decodeBody_ok h
  rw [encodeBody, hnone] at henc
  cases henc

/-- The state as the next slot of a bundle finds it. -/
def State.atSlot (s : State) (ops : List (Slot × Instr)) (b : SlotBody) (rest : List SlotBody) : State :=
  s.withIssue { s.issue with slot := b.slot, rep := b.rep, more := !rest.isEmpty, bundle := (ops.filter (fun x => x.1 ≠ b.slot)).map Prod.snd }

/-- A slot that comes next in a bundle, and those behind it. -/
theorem runSlots_keeps (ops : List (Slot × Instr)) : ∀ (l : List SlotBody) (s t : State), s.KeptField → runSlots ops l s = .next t → s.KeepsMemory t
  | [], s, t, _, h => Host.Outcome.next.inj h ▸ .refl s
  | b :: rest, s, t, hs, h => by
    have hslot : s.SlotKeeps (s.atSlot ops b rest) := .withIssue s rfl rfl
    have hkept := hslot.kept hs
    rw [runSlots] at h
    dsimp only at h
    split at h
    · rw [← Host.Outcome.next.inj h]
      exact (hslot.ends (takeTrap_ends hkept _ _ _)).toKeepsMemory
    · split at h
      · rw [← Host.Outcome.next.inj h]
        exact (hslot.ends (takeTrap_ends hkept _ _ _)).toKeepsMemory
      · next i hdec =>
        split at h
        · next u hexec =>
          have hends := hslot.ends (exec_ends (unit_of_decodeBody hdec) hkept hexec)
          split at h
          · rw [← Host.Outcome.next.inj h]
            exact hends.toKeepsMemory
          · exact hends.toKeepsMemory.trans (runSlots_keeps ops rest u t hends.kept h)
        · next hnone => exact absurd h (hnone t)

/-! ### The bundle -/

theorem flawsFound_keeps (s : State) (n : Nat) (l : List Flaw) : s.KeepsMemory (s.flawsFound n l) := by
  obtain ⟨g, a, k, h⟩ := s.flawsFound_frame n l
  rw [h]
  exact .of_eq rfl rfl rfl rfl rfl

/-- The state in which the slots of a bundle at `pc` of core `n` run. -/
def State.atSlots (s : State) (n pc : Nat) (b : Bundle) : State :=
  let u := ((s.withIssue { Issue.init with core := n }).meetFlaws n pc b).updCore n (fun c => { c with seq := { c.seq with pc := pc } })
  u.withIssue { u.issue with len := b.len, inc := b.inc }

/-- The slots of a bundle run: none, one, or several, of which a bundle that waits runs none yet. -/
def runBundle (n : Nat) (b : Bundle) (waits : Bool) (u : State) : Out :=
  match b.slots with
  | [] => exec .fallowBundle u
  | [_] => runSlots (bundleOps b) b.slots (u.withIssue { u.issue with pre := some (u.core n) })
  | _ => if waits then .next u.stall else runSlots (bundleOps b) b.slots (u.withIssue { u.issue with pre := some (u.core n) })

/-- A bundle that can be read runs its slots. -/
theorem issueBundle_runs {n pc : Nat} {s : State} {b : Bundle} (hfetch : (s.core n).fetch = (pc, .ok (.bundle b)))
    (hgood : (s.core n).unreadable pc b = false) : issueBundle n s = runBundle n b ((s.core n).mustWait (bundleOps b)) (s.atSlots n pc b) := by
  unfold issueBundle
  simp only [hfetch, hgood, Bool.false_eq_true, if_false]
  rfl

theorem atSlots_keeps (s : State) (n pc : Nat) (b : Bundle) : s.KeepsMemory (s.atSlots n pc b) := by
  refine .thenIssue (State.updCore _ n _) (.thenUpdCore ?_ fun _ => rfl)
  exact (State.KeepsMemory.thenIssue s (.refl s)).trans (flawsFound_keeps _ _ _)

theorem atSlots_issue (s : State) (n pc : Nat) (b : Bundle) : (s.atSlots n pc b).issue = { Issue.init with core := n, len := b.len, inc := b.inc } := by
  obtain ⟨g, a, k, h⟩ := (s.withIssue { Issue.init with core := n }).meetFlaws_frame n pc b
  unfold State.atSlots
  rw [h]
  rfl

theorem runBundle_keeps {n : Nat} {b : Bundle} {waits : Bool} {u t : State} (hcore : u.issue.core = n) (hpre : u.issue.pre = none)
    (h : runBundle n b waits u = .next t) : u.KeepsMemory t := by
  have hslots (h : runSlots (bundleOps b) b.slots (u.withIssue { u.issue with pre := some (u.core n) }) = .next t) : u.KeepsMemory t := by
    refine (State.KeepsMemory.thenIssue u (.refl u)).trans (runSlots_keeps _ _ _ _ (fun p hp => ?_) h)
    have hhere : (u.withIssue { u.issue with pre := some (u.core n) }).here = n := hcore
    rw [← Option.some.inj hp, hhere, State.withIssue_core]
  unfold runBundle at h
  split at h
  · rw [← Host.Outcome.next.inj h]
    exact (retire_ends (keptField_of_none hpre)).toKeepsMemory
  · exact hslots h
  · split at h
    · rw [← Host.Outcome.next.inj h]
      exact (stall_slotKeeps u).toKeepsMemory
    · exact hslots h

theorem issueBundle_keeps {n : Nat} {s t : State} (h : issueBundle n s = .next t) : s.KeepsMemory t := by
  have hnew : s.KeepsMemory (s.withIssue { Issue.init with core := n }) := .thenIssue s (.refl s)
  by_cases hruns : ∃ pc b, (s.core n).fetch = (pc, .ok (.bundle b)) ∧ (s.core n).unreadable pc b = false
  · obtain ⟨pc, b, hfetch, hgood⟩ := hruns
    rw [issueBundle_runs hfetch hgood] at h
    have hissue := atSlots_issue s n pc b
    exact (atSlots_keeps s n pc b).trans (runBundle_keeps (congrArg Issue.core hissue) (congrArg Issue.pre hissue) h)
  · unfold issueBundle at h
    dsimp only at h
    split at h
    · rw [← Host.Outcome.next.inj h]
      exact hnew.trans (trapCore_keeps _ _ _ _ _ _ _ _)
    · rw [← Host.Outcome.next.inj h]
      exact hnew
    · rw [← Host.Outcome.next.inj h]
      exact hnew.trans (trapCore_keeps _ _ _ _ _ _ _ _)
    · next b hb =>
      have hbad : (s.core n).unreadable (s.core n).fetch.1 b = true := by
        by_contra hgood
        exact hruns ⟨_, b, Prod.ext rfl hb, Bool.eq_false_iff.2 hgood⟩
      rw [if_pos hbad] at h
      rw [← Host.Outcome.next.inj h]
      exact hnew.trans (flawsFound_keeps _ _ _)

theorem begun_field (c : Core) : c.begun.field = c.field := by
  unfold Core.begun
  split
  · rfl
  · rfl

theorem mayIssue_keeps {n : Nat} {s t : State} (h : (if (s.core n).mayIssue then issueBundle n s else .next s) = .next t) : s.KeepsMemory t := by
  split at h
  · exact issueBundle_keeps h
  · rw [← Host.Outcome.next.inj h]
    exact .refl s

theorem issueCore_keeps {n : Nat} {s t : State} (h : issueCore n s = .next t) : s.KeepsMemory t := by
  refine State.KeepsMemory.trans ?_ (mayIssue_keeps h)
  split
  · exact .updCore s n begun_field
  · exact .refl s

/-- A step that issues a bundle, however the bundle ends. -/
theorem step_issue_keeps {s t : State} {n : Nat} {rest : List Work} (hpower : s.power = .up) (hagenda : s.agenda = .issue n :: rest)
    (h : step s = .next t) : s.KeepsMemory t := by
  have hpow : s.Powered := by
    unfold State.Powered
    rw [hpower]
    exact ⟨Power.noConfusion, Power.noConfusion, Power.noConfusion⟩
  have hstep : step s = issueCore n (s.withAgenda rest) := step_work hpow hagenda
  exact (State.KeepsMemory.thenAgenda s (.refl s)).trans (issueCore_keeps (hstep.symm.trans h))

end Sys2Proof.Machine
end

section
/-! PROOF. An access served at its port keeps every memory canonical (R30, R115, R166): a load writes no memory, and a store writes bytes. -/

namespace Sys2Proof.Machine

/-! ### What reads leave alone -/

theorem onRecords_keeps {s t : State} (h : s.OnRecords t) : s.KeepsMemory t :=
  .of_eq h.cores h.clusters (by rw [h]) (by rw [h]) (by rw [h])

theorem foldl_keeps {α : Type} {f : State → α → State} (hf : ∀ (s : State) (x : α), s.KeepsMemory (f s x)) (l : List α) (s : State) : s.KeepsMemory (l.foldl f s) :=
  List.foldlRecOn (motive := s.KeepsMemory) l f (.refl s) fun _ h x _ => h.trans (hf _ x)

theorem readError_onRecords (s : State) (n a len : Nat) : s.OnRecords (s.readError n a len) := by
  unfold State.readError
  split
  · exact wordErrors_onRecords s _ _ _ _
  · exact .refl s

/-- Accesses that a core still waits for are no memory. -/
theorem unserved_keeps (s : State) (n : Nat) (g : List PortWait → List PortWait) :
    s.KeepsMemory (s.updCore n (fun c => { c with unserved := g c.unserved })) := .updCore s n fun _ => rfl

theorem serveLoad_keeps (s : State) (n k : Nat) (parts : List (Nat × Nat × Nat)) : s.KeepsMemory (s.serveLoad n k parts) := by
  refine foldl_keeps (fun s p => ?_) parts s
  dsimp only
  split
  · exact (State.KeepsMemory.updCore s n (f := fun c => { c with loads := c.loads.modify k _ }) fun _ => rfl).trans
      (onRecords_keeps (readError_onRecords _ _ _ _))
  · exact (State.KeepsMemory.updCore s n (f := fun c => { c with loads := c.loads.modify k _ }) fun _ => rfl).trans
      (onRecords_keeps (readCorrects_onRecords _ _ _ _))

theorem readBefore_keeps (s : State) (n : Nat) (p : Nat × List Byte × Nat) : s.KeepsMemory (s.readBefore n p) := by
  refine foldl_keeps (fun s w => ?_) _ s
  split
  · exact .refl s
  · split
    · exact (unserved_keeps s n _).trans (serveLoad_keeps _ _ _ _)
    · exact .refl s

/-- Every core of the table changed, but for its field. -/
theorem tmap_keeps (s : State) {f : Nat → Core → Core} (hf : ∀ k c, (f k c).field = c.field) : s.KeepsMemory { s with cores := tmap f s.cores } where
  field n := by
    unfold State.core
    rw [tget_eq, tget_eq, tfind_tmap]
    cases tfind s.cores n with
    | none => rfl
    | some c => exact hf n c
  commons _ := rfl
  dev := rfl
  host := rfl
  peer := rfl

/-! ### What stores write -/

/-- A change of one local memory that keeps it canonical. -/
theorem updLocal_canonical {s : State} (hs : MemoryCanonical s) (n : Nat) (isCommons : Bool) {f : Local → Local}
    (hf : ∀ l : Local, memWf l.cells = true → memWf (f l).cells = true) : MemoryCanonical (s.updLocal n isCommons f) := by
  obtain ⟨hfield, hcommons, hdev, hhost, hpeer⟩ := hs
  cases isCommons with
  | false =>
    refine ⟨fun m => ?_, hcommons, hdev, hhost, hpeer⟩
    rw [updLocal_field]
    by_cases h : m = n
    · rw [h, State.core_updCore]
      exact hf _ (hfield n)
    · rw [State.core_updCore_other s _ h]
      exact hfield m
  | true =>
    refine ⟨hfield, fun k => ?_, hdev, hhost, hpeer⟩
    rw [updLocal_commons]
    by_cases h : k = clusterOf n
    · rw [h, State.cluster_updCluster]
      exact hf _ (hcommons _)
    · rw [State.cluster_updCluster_other s _ h]
      exact hcommons k

theorem storePart_canonical {s : State} (hs : MemoryCanonical s) (n : Nat) (p : Nat × List Byte × Nat) (more : Bool) :
    MemoryCanonical (s.storePart n p more) := by
  unfold State.storePart
  split
  · exact hs
  · next m off _ =>
    dsimp only
    refine updLocal_canonical ((tmap_keeps s fun k c => ?_).canonical hs) n m fun l hl => ?_
    · split
      · rfl
      · split
        · rfl
        · rfl
    · split
      · rw [Local.freshRow_cells]
        exact Local.put_wf _ _ hl
      · exact Local.put_wf _ _ hl

theorem storeParts_canonical (n op : Nat) : ∀ (parts : List (Nat × List Byte × Nat)) (s : State), MemoryCanonical s →
    MemoryCanonical (State.storeParts n op parts s)
  | [], _, hs => hs
  | p :: rest, s, hs => by
    rw [State.storeParts]
    split
    · exact storeParts_canonical n op rest _ ((unserved_keeps s n _).canonical hs)
    · exact storeParts_canonical n op rest _ (storePart_canonical ((readBefore_keeps s n p).canonical hs) n p _)

theorem serveSlot_canonical {s : State} (hs : MemoryCanonical s) (n : Nat) (w : PortWait) : MemoryCanonical (s.serveSlot n w) := by
  unfold State.serveSlot
  dsimp only
  generalize ((s.core n).unserved.find? fun v => v.same w).getD w = served
  have htaken := unserved_keeps s n fun l => l.erase served
  split
  · refine (htaken.trans (.trans ?_ (serveLoad_keeps _ _ _ _))).canonical hs
    split
    · exact .refl _
    · exact unserved_keeps _ n _
  · exact storeParts_canonical _ _ _ _ (htaken.canonical hs)

/-- Settles O15: a step that issues a bundle leaves every memory as it is (`step_issue_keeps`); an access writes a memory only when it is served,
and then bytes (`serveSlot_canonical`). -/
theorem bundleKeepsMemoryCanonical : Obligations.BundleKeepsMemoryCanonical :=
  ⟨fun _ _ _ _ hpower hagenda hs h => (step_issue_keeps hpower hagenda h).canonical hs, fun _ n w hs => serveSlot_canonical hs n w⟩

end Sys2Proof.Machine
end

section
/-! PROOF. The loop-back and the stage predicates (R253), and the loop operations with their traps (R252, R254, R255). -/

namespace Sys2Proof.Machine

/-! ### The loop-back (R253) -/

/-- The core with the counter of a loop stepped. -/
def Core.counted (c : Core) (n : Fin 4) : Core := { c with x := { c.x with lc := c.x.lc.set n (c.x.lc[n] + 1) } }

/-- The core with other loops active. -/
def Core.withLoops (c : Core) (loops : List Loop) : Core := { c with x := { c.x with loops := loops } }

section
variable {c : Core} {l : Loop} {rest : List Loop} {next : Nat}

/-- A bundle that ends where the innermost loop does not end passes. -/
theorem loopBack_elsewhere {loops : List Loop} (h : ∀ m ∈ loops.head?, m.stop ≠ next) : c.loopBack next loops = (c, next) := by
  cases loops with
  | nil => rfl
  | cons m rest => rw [Core.loopBack, if_pos (h m rfl)]

/-- A loop that has passes left starts again. -/
theorem loopBack_again (hstop : l.stop = next) (hlc : (c.x.lc[l.n] + 1).toNat < l.total) :
    c.loopBack next (l :: rest) = ((c.counted l.n).setStages, l.start) := by
  rw [Core.loopBack, if_neg (not_not.2 hstop)]
  dsimp only
  rw [if_pos hlc]
  rfl

/-- A loop that has none left is popped, and the loops around it are looked at. -/
theorem loopBack_over (hstop : l.stop = next) (hlc : l.total ≤ (c.x.lc[l.n] + 1).toNat) :
    c.loopBack next (l :: rest) = ((c.counted l.n).withLoops rest).setStages.loopBack next rest := by
  rw [Core.loopBack, if_neg (not_not.2 hstop)]
  dsimp only
  rw [if_neg (Nat.not_lt.2 hlc)]
  rfl

end

/-- What the commit makes of the loops of a core, where the bundle ends at `e` by fall-through. -/
theorem commitSeq_loops {c : Core} {iss : Issue} {now : Nat} {l : Loop} {rest : List Loop} (hjump : iss.jump = none) (hl : c.x.loops = l :: rest) :
    let e := iss.skip.getD (c.seq.pc + iss.len)
    let c' := c.commitSeq iss now
    (l.stop ≠ e → c'.seq.pc = e ∧ c'.x = c.x) ∧
    (l.stop = e → (c.x.lc[l.n] + 1).toNat < l.total → c'.seq.pc = l.start ∧ c'.x = (c.counted l.n).setStages.x) ∧
    (l.stop = e → l.total ≤ (c.x.lc[l.n] + 1).toNat → (∀ m ∈ rest.head?, m.stop ≠ e) →
      c'.seq.pc = e ∧ c'.x = ((c.counted l.n).withLoops rest).setStages.x) := by
  intro e c'
  have hc' : c' = c.recorded iss ((c.posted iss now).loopBack e c.x.loops).2 ((c.posted iss now).loopBack e c.x.loops).1.x now :=
    commitSeq_fallThrough hjump now
  rw [hl] at hc'
  refine ⟨fun hstop => ?_, fun hstop hlc => ?_, fun hstop hlc hrest => ?_⟩
  · rw [hc', loopBack_elsewhere (by simpa using hstop)]
    exact ⟨rfl, rfl⟩
  · rw [hc', loopBack_again (c := c.posted iss now) hstop hlc]
    exact ⟨rfl, rfl⟩
  · rw [hc', loopBack_over (c := c.posted iss now) hstop hlc, loopBack_elsewhere hrest]
    exact ⟨rfl, rfl⟩

/-! ### Stage predicates (R253) -/

/-- The stage predicates where no active loop has more than one stage. -/
theorem setStages_plain {c : Core} (h : ∀ l ∈ c.x.loops, l.stages ≤ 1) (k : Fin 8) : c.setStages.x.ps[k] = true := by
  have hfind : c.x.loops.find? (fun l => decide (1 < l.stages)) = none := by simpa using h
  unfold Core.setStages
  rw [hfind]
  exact Vector.getElem_replicate _

/-- The stage predicates of the active loop with more than one stage, the loops inside it having one. -/
theorem setStages_staged {c : Core} {pre post : List Loop} {l : Loop} (hl : c.x.loops = pre ++ l :: post) (hpre : ∀ m ∈ pre, m.stages ≤ 1)
    (hstages : 1 < l.stages) (k : Fin 8) : c.setStages.x.ps[k] =
      if k.val < l.stages then decide (k.val ≤ (c.x.lc[l.n]).toNat) && decide ((c.x.lc[l.n]).toNat < l.count + k.val) else true := by
  have hfind : c.x.loops.find? (fun l => decide (1 < l.stages)) = some l := by
    rw [hl, List.find?_append, List.find?_eq_none.2 (by simpa using hpre)]
    simp [hstages]
  unfold Core.setStages
  rw [hfind]
  fin_cases k <;> rfl

/-- Settles O11: the loop-back by its cases (`commitSeq_loops`), the stage predicates by the loop that they follow. -/
theorem loopBackAndStages : Obligations.LoopBackAndStages := by
  refine ⟨fun c iss now l rest hjump hl => ?_, fun c k => ⟨fun h => setStages_plain h k, fun pre post l hl hpre hstages => ?_⟩⟩
  · obtain ⟨helsewhere, hagain, hover⟩ := commitSeq_loops (now := now) hjump hl
    refine ⟨helsewhere, fun hstop hlc => ?_, fun hstop hlc hrest => ?_⟩
    · obtain ⟨hpc, hx⟩ := hagain hstop hlc
      rw [hx]
      exact ⟨hpc, rfl, rfl, fun _ => rfl⟩
    · obtain ⟨hpc, hx⟩ := hover hstop hlc hrest
      rw [hx]
      exact ⟨hpc, rfl, rfl⟩
  · rw [setStages_staged hl hpre hstages]
    split
    · next hk => simp [hk]
    · next hk => simp [hk]

/-! ### LOOP and LOOPI (R252, R254) -/

/-- The checks of R254 name their reasons 1 to 4. -/
theorem loopTrap_reason {loops : List Loop} {l : Fin 4} {stages e : Nat} {t : Trap} (h : loopTrap loops l stages e = some t) :
    ∃ r, 1 ≤ r ∧ r ≤ 4 ∧ t = .loopState r := by
  unfold loopTrap at h
  split at h
  · exact ⟨1, by decide, by decide, (Option.some.inj h).symm⟩
  · split at h
    · exact ⟨2, by decide, by decide, (Option.some.inj h).symm⟩
    · split at h
      · exact ⟨3, by decide, by decide, (Option.some.inj h).symm⟩
      · split at h
        · split at h
          · exact ⟨4, by decide, by decide, (Option.some.inj h).symm⟩
          · cases h
        · cases h

/-- A loop fits where none of the checks of R254 fails. -/
theorem loopTrap_eq_none_iff {loops : List Loop} {l : Fin 4} {stages e : Nat} : loopTrap loops l stages e = none ↔ loopFits loops l stages e := by
  have hite {p : Prop} [Decidable p] {t : Trap} {o : Option Trap} : (if p then some t else o) = none ↔ ¬p ∧ o = none := by split <;> simp [*]
  unfold loopTrap loopFits
  rw [hite, hite, hite]
  refine and_congr Nat.not_le (and_congr (by simp) (and_congr (by simp) ?_))
  cases loops with
  | nil => simp
  | cons x rest => simp

section
variable {s : State} {l : Fin 4} {st : Fin 8} {b : Fin 4096} {count : Nat}

/-- The body of a loop ends after its own bytes (R252). -/
theorem loopEnd_eq (s : State) (b : Fin 4096) : s.nextPc + b.val + 1 = afterBundle s + (b.val + 1) := rfl

theorem pushLoop_count (h : 2 ^ 32 ≤ count) : pushLoop l st b count s = .error ⟨0x18, 0, 0⟩ := if_pos h

theorem pushLoop_trap {t : Trap} (hcount : count < 2 ^ 32) (ht : loopTrap s.view.x.loops l (st.val + 1) (afterBundle s + (b.val + 1)) = some t) :
    pushLoop l st b count s = .error t := by
  unfold pushLoop
  rw [if_neg (Nat.not_le.2 hcount), loopEnd_eq, ht]

/-- A loop that fits: with a count of 0 its body is skipped, else it is pushed. -/
theorem pushLoop_fits (hcount : count < 2 ^ 32) (hfits : loopFits s.view.x.loops l (st.val + 1) (afterBundle s + (b.val + 1))) :
    pushLoop l st b count s = .ok (if count = 0 then
      (s.upd (fun c => { c with x := { c.x with lc := c.x.lc.set l 0 } })).withIssue { s.issue with skip := some (afterBundle s + (b.val + 1)) }
    else s.upd (fun c => Core.setStages { c with x := { c.x with
      lc := c.x.lc.set l 0,
      loops := ⟨l, afterBundle s, afterBundle s + (b.val + 1), count, st.val + 1,
        if st.val + 1 = 1 then count else count + (st.val + 1) - 1⟩ :: c.x.loops } })) := by
  unfold pushLoop
  rw [if_neg (Nat.not_le.2 hcount), loopEnd_eq, loopTrap_eq_none_iff.2 hfits]
  dsimp only
  rw [State.upd_upd]
  split <;> rfl

end

/-- LOOP and LOOPI are one operation, with the count in a register or in the body. -/
theorem exec_loopOf {i : Instr} {s : State} {l : Fin 4} {stages body count : Nat} (h : loopOf s i = some (l, stages, body, count)) :
    ∃ (st : Fin 8) (b : Fin 4096) (act : State → Except Trap State), stages = st.val + 1 ∧ body = b.val + 1 ∧ exec i s = slotOp i act s ∧
      act s = pushLoop l st b count s := by
  unfold loopOf at h
  split at h
  · next st b r =>
    cases h
    exact ⟨st, b, _, rfl, rfl, rfl, rfl⟩
  · next st b r =>
    cases h
    exact ⟨st, b, _, rfl, rfl, rfl, rfl⟩
  · cases h

/-! ### LEXIT (R255) -/

/-- The loop of the counter is found inside no other of its counter. -/
theorem popTo_found {l : Fin 4} {x : Loop} (hx : x.n = l) (rest : List Loop) :
    ∀ inner : List Loop, (∀ y ∈ inner, y.n ≠ l) → popTo l (inner ++ x :: rest) = some (x.stop, rest)
  | [], _ => by rw [List.nil_append, popTo, if_pos hx]
  | y :: inner, h => by
    rw [List.cons_append, popTo, if_neg (h y (List.mem_cons_self ..))]
    exact popTo_found hx rest inner fun z hz => h z (List.mem_cons_of_mem _ hz)

theorem popTo_none {l : Fin 4} : ∀ loops : List Loop, (∀ y ∈ loops, y.n ≠ l) → popTo l loops = none
  | [], _ => rfl
  | y :: loops, h => by
    rw [popTo, if_neg (h y (List.mem_cons_self ..))]
    exact popTo_none loops fun z hz => h z (List.mem_cons_of_mem _ hz)

theorem effects_lexit {s : State} {l : Fin 4} {x : Loop} {inner rest : List Loop} (hr : Ready (.lexit l) s)
    (hloops : s.view.x.loops = inner ++ x :: rest) (hx : x.n = l) (hinner : ∀ y ∈ inner, y.n ≠ l) :
    Effects (.lexit l) s ((s.upd (fun c => Core.setStages { c with x := { c.x with loops := rest } })).withIssue { s.issue with jump := some x.stop }) := by
  show execLexit l s = _
  refine slotOp_ok hr ?_
  rw [hloops, popTo_found hx rest inner hinner]
  rfl

theorem traps_lexit {s : State} {l : Fin 4} (hr : Ready (.lexit l) s) (h : ∀ x ∈ s.view.x.loops, x.n ≠ l) : Traps (.lexit l) s (.loopState 5) := by
  show execLexit l s = _
  refine slotOp_trap hr ?_
  rw [popTo_none _ h]

/-- Settles O20: LOOP and LOOPI by `pushLoop_fits`, LEXIT by the loop that `popTo` finds. -/
theorem loops : Obligations.Loops := by
  refine ⟨fun i s l stages body count hi hr hcount hfits => ?_, fun s l x inner rest hr hloops hx hinner => ⟨effects_lexit hr hloops hx hinner, rfl⟩⟩
  obtain ⟨st, b, act, rfl, rfl, hexec, hact⟩ := exec_loopOf hi
  rw [pushLoop_fits hcount hfits] at hact
  have heffects := hexec.trans (slotOp_ok hr hact)
  refine ⟨fun hzero => ?_, fun hpos => ?_⟩
  · rw [if_pos hzero] at heffects
    exact heffects
  · rw [if_neg (Nat.pos_iff_ne_zero.1 hpos)] at heffects
    exact heffects

/-- Settles O21: the count is checked before `loopTrap`, whose traps have the reasons 1 to 4. -/
theorem loopTraps : Obligations.LoopTraps := by
  refine ⟨fun i s l stages body count hi hr => ?_, fun s l hr h => traps_lexit hr h⟩
  obtain ⟨st, b, act, rfl, rfl, hexec, hact⟩ := exec_loopOf hi
  refine ⟨fun hcount => hexec.trans (slotOp_trap hr (hact.trans (pushLoop_count hcount))), fun hcount hfits => ?_⟩
  obtain ⟨t, ht⟩ := Option.ne_none_iff_exists'.1 (mt loopTrap_eq_none_iff.1 hfits)
  obtain ⟨r, hlow, hhigh, rfl⟩ := loopTrap_reason ht
  exact ⟨r, hlow, hhigh, hexec.trans (slotOp_trap hr (hact.trans (pushLoop_trap hcount ht)))⟩

end Sys2Proof.Machine
end

section
/-! PROOF. Branches, calls and returns (R248, R249): what a transfer that is taken changes, and O19. -/

namespace Sys2Proof.Machine

/-! ### A slot that leaves something in the bundle in hand for its commit -/

/-- A slot has made `u` of `s`: it has changed the core in hand by `f`, and besides that the bundle in hand only. -/
structure SlotActs (s u : State) (f : Core → Core) : Prop where
  here : u.here = s.here
  cur : u.cur = f s.cur
  rest : ∀ c, u.setCore s.here c = (s.setCore s.here c).withIssue u.issue

theorem slotActs_withIssue (s : State) {I : Issue} (h : I.core = s.here) : SlotActs s (s.withIssue I) id := ⟨h, by rw [State.cur, State.here, show (s.withIssue I).issue.core = s.here from h]; rfl, fun _ => rfl⟩

theorem slotActs_upd_withIssue (s : State) (f : Core → Core) {I : Issue} (h : I.core = s.here) : SlotActs s ((s.upd f).withIssue I) f where
  here := h
  cur := by rw [State.cur, State.here, show ((s.upd f).withIssue I).issue.core = s.here from h]; exact State.core_upd s f
  rest c := by
    show ((s.upd f).setCore s.here c).withIssue I = _
    exact congrArg (fun t : State => t.withIssue I) (State.updCore_updCore s s.here f fun _ => c)

/-- The last slot of a bundle changes no more than its own effect and what a commit moves. -/
theorem SlotActs.leaves {s u : State} {f : Core → Core} {i : Instr} (h : SlotActs s u f) (hl : Last i u) (he : Effects i s u) : Leaves i s f := by
  obtain ⟨hhere, hcommits, -⟩ := finish_last_commit hl
  unfold OnlyHere at hhere
  rw [h.here] at hhere hcommits
  refine ⟨_, he, ?_, ?_⟩
  · refine hhere.trans ?_
    rw [h.rest]
    rfl
  · exact h.cur ▸ hcommits

/-- Accesses, results and a next address put into the bundle in hand leave its last slot the last. -/
theorem Last.posts {i : Instr} {s u : State} {jump skip : Option Nat} {ports : List PortWait} {loads : List Landing} (h : Last i s)
    (hu : u.issue = { s.issue with jump := jump, skip := skip, ports := ports, loads := loads }) : Last i u where
  more := by rw [hu]; exact h.more
  once := by rw [hu]; exact h.once
  leave := by rw [hu]; exact h.leave
  reseed := by rw [hu]; exact h.reseed
  post := by rw [hu]; exact h.post
  moncap := by rw [hu]; exact h.moncap

/-- So a slot that only posts accesses and results leaves the core as it is, but for what the commit moves. -/
theorem leaves_of_posts {i : Instr} {s : State} {jump skip : Option Nat} {ports : List PortWait} {loads : List Landing} (hl : Last i s)
    (he : Effects i s (s.withIssue { s.issue with jump := jump, skip := skip, ports := ports, loads := loads })) : Leaves i s id :=
  SlotActs.leaves (u := s.withIssue { s.issue with jump := jump, skip := skip, ports := ports, loads := loads }) (slotActs_withIssue s rfl)
    (hl.posts rfl) he

/-! ### Transfers (R248, R249) -/

theorem Core.ws_loops (c : Core) (n : Fin 64) (v : Double) : (c.ws n v).x.loops = c.x.loops := by unfold Core.ws; split <;> rfl

theorem Core.ws_lc (c : Core) (n : Fin 64) (v : Double) : (c.ws n v).x.lc = c.x.lc := by unfold Core.ws; split <;> rfl

/-- The target of a branch, as the sum of two words (R248). -/
theorem branchTarget_eq (s : State) (o : Fin 1048576) : branchTarget s.pc o = pcPlus s o := by
  have hsum : BitVec.ofNat 64 s.pc + (BitVec.ofNat 20 o.val).signExtend 64 = BitVec.ofInt 64 ((s.pc : Int) + (BitVec.ofNat 20 o.val).toInt) := by
    rw [BitVec.ofInt_add, BitVec.ofInt_natCast]
    rfl
  unfold branchTarget
  rw [hsum, BitVec.toNat_ofInt]
  rfl

section
variable {i : Instr} {s : State} {a : Nat} {d : Fin 64}

/-- The effect of a transfer that is taken: its link register, and its target for the commit. -/
theorem transferOf_acts (h : transferOf s i = some (a, d)) : i.classes = [4] ∧ ∃ (act : State → Except Trap State) (u : State),
    exec i s = slotOp i act s ∧ act s = .ok u ∧ SlotActs s u (fun c => c.ws d (.ofNat 64 (afterBundle s))) ∧
      u.issue = { s.issue with jump := some a } := by
  have hjump (a : Nat) : SlotActs s (s.jumpTo a) (fun c => c.ws 0 (.ofNat 64 (afterBundle s))) := slotActs_withIssue s rfl
  have hlink (d : Fin 64) (a : Nat) : SlotActs s ((s.upd (fun c => c.ws d (.ofNat 64 s.nextPc))).jumpTo a) (fun c => c.ws d (.ofNat 64 (afterBundle s))) :=
    slotActs_upd_withIssue s _ rfl
  cases i with
  | br o =>
    cases h
    rw [← branchTarget_eq]
    exact ⟨rfl, _, _, (rfl : execBr o s = _), rfl, hjump _, rfl⟩
  | brc p n o =>
    by_cases hcond : s.view.rp p = decide (n = 1)
    · rw [transferOf, if_pos hcond] at h
      cases h
    · rw [transferOf, if_neg hcond] at h
      cases h
      rw [← branchTarget_eq]
      exact ⟨rfl, _, _, (rfl : execBrc p n o s = _), congrArg Except.ok (if_pos (bne_iff_ne.2 hcond)), hjump _, rfl⟩
  | call o =>
    cases h
    rw [← branchTarget_eq]
    exact ⟨rfl, _, _, (rfl : execCall o s = _), rfl, hlink _ _, rfl⟩
  | jr d' b =>
    cases h
    exact ⟨rfl, _, _, (rfl : execJr _ b s = _), rfl, hlink _ _, rfl⟩
  | ret b =>
    cases h
    exact ⟨rfl, _, _, (rfl : execRet b s = _), rfl, hjump _, rfl⟩
  | _ => cases h

/-- A transfer that is taken (R248, R249): the first clause of O19. -/
theorem transfer_taken (h : transferOf s i = some (a, d)) (hr : Ready i s) :
    i.classes = [4] ∧ (∃ u, Effects i s u ∧ u.issue.jump = some a) ∧
    (Last i s → Leaves i s (fun c => c.ws d (.ofNat 64 (afterBundle s))) ∧
      ∃ t, exec i s = .next t ∧ (t.core s.here).seq.pc = a ∧ (t.core s.here).seq.busy = s.cur.seq.wc + 2 ∧
        (t.core s.here).x.loops = s.cur.x.loops ∧ (t.core s.here).x.lc = s.cur.x.lc) := by
  obtain ⟨hclasses, act, u, hexec, hact, hacts, hissue⟩ := transferOf_acts h
  have heffects : Effects i s u := hexec.trans (slotOp_ok hr hact)
  have hjump : u.issue.jump = some a := by rw [hissue]
  refine ⟨hclasses, ⟨u, heffects, hjump⟩, fun hlast => ?_⟩
  have hlast' : Last i u := hlast.posts hissue
  refine ⟨hacts.leaves hlast' heffects, _, heffects, ?_⟩
  obtain ⟨-, -, -, -, -, -, -, -, -, -, htaken, -⟩ := finish_last_commit hlast'
  obtain ⟨hpc, hbusy, hx⟩ := htaken a hjump
  rw [hacts.here] at hpc hbusy hx
  rw [hpc, hbusy, hx, hacts.cur, Core.ws_seq, Core.ws_loops, Core.ws_lc]
  exact ⟨rfl, rfl, rfl, rfl⟩

/-- A BRC whose condition does not hold has no effect (R248). -/
theorem effects_brc_notTaken {p : Fin 16} {n : Fin 2} {o : Fin 1048576} (hr : Ready (.brc p n o) s) (h : transferOf s (.brc p n o) = none) :
    Effects (.brc p n o) s s := by
  have hcond : s.view.rp p = decide (n = 1) := by simpa [transferOf] using h
  show execBrc p n o s = _
  exact slotOp_ok hr (congrArg Except.ok (if_neg (by rw [hcond, bne_self_eq_false]; exact Bool.false_ne_true)))

/-- It costs nothing in a bundle in which no other slot has left a target, as only the slot S can (R212). -/
theorem brc_notTaken_cost {p : Fin 16} {n : Fin 2} {o : Fin 1048576} (hr : Ready (.brc p n o) s) (h : transferOf s (.brc p n o) = none)
    (hlast : Last (.brc p n o) s) (hjump : s.issue.jump = none) :
    ∃ t, exec (.brc p n o) s = .next t ∧ (t.core s.here).seq.busy = s.cur.seq.wc + 1 := by
  obtain ⟨-, -, -, -, -, -, -, -, -, -, -, hfall⟩ := finish_last_commit hlast
  exact ⟨_, effects_brc_notTaken hr h, (hfall hjump).1⟩

end

/-- A core that declares every class, and a bundle in hand that already holds the target of a transfer. -/
def jumpInHand : State :=
  { State.reset with
    cores := [(0, { Core.init with csr := { Csrs.init with usem := allClasses } })]
    issue := { Issue.init with jump := some 0 } }

/-- Refutes O19: the second clause asks for no bundle in hand without a target, and in one that holds the target of a transfer a BRC that is not
taken leaves that transfer and its cost to the commit. Its first clause is `transfer_taken`, the second with that premise `brc_notTaken_cost`. -/
theorem not_transfers : ¬ Obligations.Transfers := by
  rintro ⟨-, hclause⟩
  have hr : Ready (.brc 0 1 0) jumpInHand := ⟨by decide +kernel, by decide +kernel, by decide +kernel, by decide +kernel⟩
  have hlast : Last (.brc 0 1 0) jumpInHand := ⟨rfl, rfl, rfl, rfl, rfl, rfl⟩
  obtain ⟨-, heffects, -, hcost⟩ := hclause jumpInHand 0 1 0 hr rfl
  obtain ⟨-, t, ht, hbusy⟩ := hcost hlast
  obtain rfl := Host.Outcome.next.inj (heffects.symm.trans ht)
  obtain ⟨-, -, -, -, -, -, -, -, -, -, htaken, -⟩ := finish_last_commit hlast
  obtain ⟨-, htwo, -⟩ := htaken 0 rfl
  rw [hbusy] at htwo
  omega

end Sys2Proof.Machine
end

section
/-! PROOF. RADV, RCFG and RFILL (R258-R263): entries of a ring marked one after another, and O27. -/

namespace Sys2Proof.Machine

/-! ### Entries marked in order (R258) -/

/-- The marking of entries changes their states only. -/
theorem mark_frame (e : EntryState) (n : Nat) : ∀ (r : Ring) (p : Nat), r.mark e p n = { r with st := (r.mark e p n).st } := by
  induction n with
  | zero => exact fun _ _ => rfl
  | succ n ih =>
    intro r p
    rw [Ring.mark, ih]

/-- Of the entries of a ring, the `n` from `p` on are in the state that they are marked with. -/
theorem mark_st (e : EntryState) (n : Nat) : ∀ (r : Ring) (p : Nat) (i : Fin 8),
    (r.mark e p n).st[i] = if ∃ k, k < n ∧ i.val = (p + k) % r.depth then e else r.st[i] := by
  induction n with
  | zero => intro r p i; simp [Ring.mark]
  | succ n ih =>
    intro r p i
    rw [Ring.mark, ih]
    have hsucc : (∃ k, k < n + 1 ∧ i.val = (p + k) % r.depth) ↔ p % r.depth = i.val ∨ ∃ k, k < n ∧ i.val = (p + 1 + k) % r.depth := by
      constructor
      · rintro ⟨k, hk, hi⟩
        cases k with
        | zero => exact .inl hi.symm
        | succ k => exact .inr ⟨k, by omega, by rw [hi]; congr 1; omega⟩
      · rintro (hi | ⟨k, hk, hi⟩)
        · exact ⟨0, by omega, hi.symm⟩
        · exact ⟨k + 1, by omega, by rw [hi]; congr 1; omega⟩
    by_cases hrest : ∃ k, k < n ∧ i.val = (p + 1 + k) % r.depth
    · rw [if_pos hrest, if_pos (hsucc.2 (.inr hrest))]
    · rw [if_neg hrest]
      by_cases hfirst : p % r.depth = i.val
      · rw [if_pos (hsucc.2 (.inl hfirst))]
        simp [hfirst]
      · rw [if_neg (fun h => (hsucc.1 h).elim hfirst hrest)]
        simp [hfirst]

/-- A read advance (R261). -/
theorem advR_leaves (r : Ring) (n : Nat) : let r' := r.advR n
    sameRingData r r' ∧ r'.wp = r.wp ∧ r'.rp = (r.rp + n) % r.depth ∧ r'.h = r.h - n ∧
      ∀ e : Fin 8, r'.st[e] = if ∃ k, k < n ∧ e.val = (r.rp + k) % r.depth then .empty else r.st[e] := by
  intro r'
  have hr' : r' = { r with st := (r.mark .empty r.rp n).st, rp := (r.rp + n) % r.depth, h := r.h - n } := by
    show r.advR n = _
    rw [Ring.advR, mark_frame]
  rw [hr']
  exact ⟨⟨rfl, rfl, rfl, rfl, rfl, rfl⟩, rfl, rfl, rfl, fun e => mark_st .empty n r r.rp e⟩

/-- Entries filled where they stand: marked full, and the write pointer past them (R263). -/
theorem fill_leaves (r : Ring) (n : Nat) : let r' := (r.mark .full r.wp n).advW n
    sameRingData r r' ∧ r'.rp = r.rp ∧ r'.wp = (r.wp + n) % r.depth ∧ r'.h = r.h + n ∧
      ∀ e : Fin 8, r'.st[e] = if ∃ k, k < n ∧ e.val = (r.wp + k) % r.depth then .full else r.st[e] := by
  intro r'
  have hr' : r' = { r with st := (r.mark .full r.wp n).st, wp := (r.wp + n) % r.depth, h := r.h + n } := by
    show (r.mark .full r.wp n).advW n = _
    rw [Ring.advW, mark_frame]
  rw [hr']
  exact ⟨⟨rfl, rfl, rfl, rfl, rfl, rfl⟩, rfl, rfl, rfl, fun e => mark_st .full n r r.wp e⟩

/-! ### The operations -/

section
variable {s : State} {q : Fin 16}

theorem radvR_changes {m : Fin 8} {g : Fin 16} (hr : Ready (.radv q 0 m g) s) :
    Changes (.radv q 0 m g) s (fun c => c.setRing q ((s.cur.ring q).advR (m.val + 1))) :=
  changes_of_act hr (rfl : execRadv q 0 m g s = _) rfl

theorem radvW_changes {m : Fin 8} {g : Fin 16} (hr : Ready (.radv q 1 m g) s) (hroom : m.val + 1 ≤ (s.view.ring q).depth - (s.view.ring q).h) :
    Changes (.radv q 1 m g) s (fun c => c.setRing q ((s.cur.ring q).advW (m.val + 1))) :=
  changes_of_act hr (rfl : execRadv q 1 m g s = _) (if_neg (Nat.not_lt.2 hroom))

theorem radvW_traps {m : Fin 8} {g : Fin 16} (hr : Ready (.radv q 1 m g) s) (hroom : (s.view.ring q).depth - (s.view.ring q).h < m.val + 1) :
    Traps (.radv q 1 m g) s (.ring q.val 3) := by
  show execRadv q 1 m g s = _
  exact slotOp_trap hr (if_pos hroom)

theorem rcfg_changes {d rt wt : Fin 8} (hr : Ready (.rcfg q d rt wt) s) (hpending : ¬(s.view.ring q).st.toList.contains .pending)
    (hnamed : ¬s.issue.bundle.any (s.view.namesRing q.val)) :
    Changes (.rcfg q d rt wt) s (fun c => c.setRing q ((c.ring q).configure (d.val + 1) (rt.val + 1) (wt.val + 1))) := by
  refine changes_of_act hr (rfl : execRcfg q d rt wt s = _) (if_neg ?_)
  rw [Bool.or_eq_true]
  exact not_or.2 ⟨hpending, hnamed⟩

theorem rcfg_traps {d rt wt : Fin 8} (hr : Ready (.rcfg q d rt wt) s)
    (h : (s.view.ring q).st.toList.contains .pending ∨ s.issue.bundle.any (s.view.namesRing q.val)) :
    Traps (.rcfg q d rt wt) s (.ring q.val 5) := by
  show execRcfg q d rt wt s = _
  exact slotOp_trap hr (if_pos ((Bool.or_eq_true _ _).mpr h))

theorem rfill_changes {n : Fin 16} (hr : Ready (.rfill q n) s) (hfree : n.val ≤ (s.view.ring q).free) :
    Changes (.rfill q n) s (fun c => c.setRing q (((s.cur.ring q).mark .full (s.cur.ring q).wp n.val).advW n.val)) :=
  changes_of_act hr (rfl : execRfill q n s = _) (if_neg (Nat.not_lt.2 hfree))

theorem rfill_traps {n : Fin 16} (hr : Ready (.rfill q n) s) (hfree : (s.view.ring q).free < n.val) : Traps (.rfill q n) s (.ring q.val 6) := by
  show execRfill q n s = _
  exact slotOp_trap hr (if_pos hfree)

end

/-- Settles O27: each operation puts the ring that it makes in place of its ring, and the entries marked are those of `mark_st`. -/
theorem rings : Obligations.Rings := by
  unfold Obligations.Rings
  refine ⟨fun s q m g => ⟨fun hr => ?_, fun hr => ⟨fun hroom => ?_, radvW_traps hr⟩⟩,
    fun s q => ⟨fun d rt wt hr => ⟨rcfg_changes hr, rcfg_traps hr⟩, fun k hr => ⟨fun hfree => ?_, rfill_traps hr⟩⟩⟩
  · exact ⟨_, radvR_changes hr, advR_leaves _ _⟩
  · exact ⟨_, radvW_changes hr hroom, ⟨rfl, rfl, rfl, rfl, rfl, rfl⟩, rfl, rfl, rfl, rfl⟩
  · exact ⟨_, rfill_changes hr hfree, fill_leaves _ _⟩

end Sys2Proof.Machine
end

section
/-! PROOF. Register writes (R238-R240, R268): writes of latency 1, results in flight as working cycles pass, and O17. -/

namespace Sys2Proof.Machine

/-! ### Registers written at once (R238) -/

/-- A register put into the scalar file is read back, and no other register changes. -/
theorem rs_of_set {c c' : Core} {d : Fin 64} {v : Double} (h : c'.x.s = c.x.s.set d v) (hd : d ≠ 0) (r : Fin 64) :
    c'.rs r = if r = d then v else c.rs r := by
  unfold Core.rs
  rw [h]
  by_cases hr : r = d
  · subst hr
    simp [hd]
  · have hne : d.val ≠ r.val := fun e => hr (Fin.ext e.symm)
    simp [hr, Vector.getElem_set_ne _ _ hne]

theorem rs_ws (c : Core) (d r : Fin 64) (v : Double) : (c.ws d v).rs r = if r = d ∧ d ≠ 0 then v else c.rs r := by
  by_cases hd : d = 0
  · rw [if_neg (fun h => h.2 hd), Core.ws, if_pos hd]
  · have hs : (c.ws d v).x.s = c.x.s.set d v := by rw [Core.ws, if_neg hd]
    simp only [rs_of_set hs hd r, hd, ne_eq, not_false_eq_true, and_true]

theorem rp_wp (c : Core) (p q : Fin 16) (b : Bool) : (c.wp p b).rp q = if q = p ∧ p ≠ 0 then b else c.rp q := by
  by_cases hp : p = 0
  · rw [if_neg (fun h => h.2 hp), Core.wp, if_pos hp]
  · rw [Core.wp, if_neg hp]
    unfold Core.rp
    by_cases hq : q = p
    · subst hq
      simp [hp]
    · have hne : p.val ≠ q.val := fun e => hq (Fin.ext e.symm)
      simp [hq, Vector.getElem_set_ne _ _ hne]

/-! ### A working cycle without operations on tiles (R240) -/

/-- The core with nothing in flight. -/
def Core.noFlight (c : Core) : Core := { c with flight := [] }

/-- What lands leaves the flight and the operations on tiles alone. -/
theorem land_flight (c : Core) (l : Landing) : (c.land l).flight = c.flight ∧ (c.land l).mat = c.mat := by
  unfold Core.land
  dsimp only
  split <;> exact ⟨rfl, rfl⟩

/-- Of the results in flight, those due later stay there. -/
theorem landDue_flight (c : Core) (t : Nat) : (c.landDue t).flight = c.flight.filter (fun l => !decide (l.due ≤ t)) ∧ (c.landDue t).mat = c.mat :=
  List.foldlRecOn (motive := fun b : Core => b.flight = c.flight.filter (fun l => !decide (l.due ≤ t)) ∧ b.mat = c.mat) _ _ ⟨rfl, rfl⟩
    fun b hb l _ => ⟨(land_flight b l).1.trans hb.1, (land_flight b l).2.trans hb.2⟩

theorem captureRows_noTiles {c : Core} (h : c.mat.tiles = []) : c.captureRows = c := by
  unfold Core.captureRows
  rw [h]
  exact congrArg (fun l => ({ c with mat := { c.mat with tiles := l } } : Core)) h.symm

theorem advance_noTiles {c : Core} (ht : c.mat.tiles = []) : c.advance = (c.after 1).landDue (c.seq.wc + 1) := by
  have htiles : ((c.after 1).landDue (c.seq.wc + 1)).mat.tiles = [] := (congrArg Matrix.tiles (landDue_flight _ _).2).trans ht
  rw [advance_eq, captureRows_noTiles htiles]
  exact tilesDue_nil _ (by rw [htiles]; rfl)

/-! ### The count of working cycles (R28) -/

theorem land_seq (c : Core) (l : Landing) : (c.land l).seq = c.seq := by
  unfold Core.land
  dsimp only
  split <;> rfl

theorem setTileRows_seq (c : Core) (a : Fin 8) (i : Nat) (l : List (BitVec 4096)) : (c.setTileRows a i l).seq = c.seq := by
  rw [setTileRows_tilesOnly a l c i]

theorem sendRows_seq (due : Nat) (q : Fin 16) (depth : Nat) (flags : Flags) (l : List Vec) :
    ∀ (c : Core) (wp : Nat), (c.sendRows due q wp depth flags l).seq = c.seq := by
  induction l with
  | nil => exact fun _ _ => rfl
  | cons v l ih => exact fun c wp => ih _ _

theorem applyTile_seq (c : Core) (t : TileFlight) : (c.applyTile t).seq = c.seq := by
  unfold Core.applyTile
  dsimp only
  split
  · exact (Core.raise_seq _ _).trans (setTileRows_seq ..)
  · rfl
  · exact setTileRows_seq ..
  · exact setTileRows_seq ..
  · split
    · exact (sendRows_seq ..).trans (sendRows_seq ..)
    · exact sendRows_seq ..

theorem foldl_seq {α : Type} {f : Core → α → Core} (hf : ∀ c x, (f c x).seq = c.seq) (l : List α) (c : Core) : (l.foldl f c).seq = c.seq :=
  List.foldlRecOn (motive := fun b : Core => b.seq = c.seq) _ _ rfl fun b hb x _ => (hf b x).trans hb

/-- A working cycle counts one, whatever lands in it. -/
theorem advance_wc (c : Core) : c.advance.seq.wc = c.seq.wc + 1 := by
  have hland : ((c.after 1).landDue (c.seq.wc + 1)).captureRows.seq = (c.after 1).seq := foldl_seq land_seq _ _
  have htiles (b : Core) (t : Nat) : (b.tilesDue (fun _ => true) t).seq = b.seq := foldl_seq applyTile_seq _ _
  rw [advance_eq, htiles, hland]
  rfl

/-! ### One result in flight (R239, R240) -/

section
variable {c : Core} {x : Landing} (hf : c.flight = [x]) (ht : c.mat.tiles = [])
include hf ht

theorem advance_early (hd : c.seq.wc + 1 < x.due) : c.advance = c.after 1 := by
  rw [advance_noTiles ht]
  unfold Core.landDue
  rw [show (c.after 1).flight = [x] from hf]
  simp only [List.filter_cons, List.filter_nil, decide_eq_false (Nat.not_le.2 hd), Bool.not_false, if_true, Bool.false_eq_true, if_false, List.foldl_nil]
  exact congrArg (fun l => ({ c.after 1 with flight := l } : Core)) hf.symm

theorem advance_due (hd : x.due ≤ c.seq.wc + 1) : c.advance = (c.after 1).noFlight.land x := by
  rw [advance_noTiles ht]
  unfold Core.landDue
  rw [show (c.after 1).flight = [x] from hf]
  simp only [List.filter_cons, List.filter_nil, decide_eq_true hd, Bool.not_true, if_true, Bool.false_eq_true, if_false, List.foldl_cons, List.foldl_nil]
  rfl

theorem iterate_advance_early {k : Nat} (hd : c.seq.wc + k < x.due) : Core.advance^[k] c = c.after k := by
  induction k with
  | zero => rfl
  | succ k ih => rw [Function.iterate_succ_apply', ih (by omega), advance_early (c := c.after k) hf ht hd]; rfl

end

section
variable {c : Core} {l : Nat} {d : Dest} {v m : Vec} {k : Nat} (hf : c.flight = []) (ht : c.mat.tiles = [])
include hf ht

/-- A result is not there before its latency has passed. -/
theorem launch_waits (hk : k < l) : Core.advance^[k] (c.launch l d v m) = (c.launch l d v m).after k :=
  iterate_advance_early (c := c.launch l d v m) (x := ⟨c.seq.wc + l, d, v, m, 0⟩) (by unfold Core.launch; rw [hf]; rfl) ht (Nat.add_lt_add_left hk _)

/-- From then on it is where it lands. -/
theorem launch_lands (hl : 1 ≤ l) (hk : l ≤ k) :
    Core.advance^[k] (c.launch l d v m) = ((c.after l).land ⟨c.seq.wc + l, d, v, m, 0⟩).after (k - l) := by
  obtain ⟨j, rfl⟩ := Nat.exists_eq_add_of_le' hk
  obtain ⟨l, rfl⟩ := Nat.exists_eq_add_of_le' hl
  have hnone : ((c.launch (l + 1) d v m).after l |>.after 1).noFlight = c.after (l + 1) :=
    congrArg (fun f => ({ c.after (l + 1) with flight := f } : Core)) hf.symm
  have hdue := advance_due (c := (c.launch (l + 1) d v m).after l) (x := ⟨c.seq.wc + (l + 1), d, v, m, 0⟩) (by unfold Core.after Core.launch; rw [hf]; rfl) ht
    (Nat.le_refl _)
  rw [hnone] at hdue
  obtain ⟨hflight, hmat⟩ := land_flight (c.after (l + 1)) ⟨c.seq.wc + (l + 1), d, v, m, 0⟩
  rw [Function.iterate_add_apply, Function.iterate_succ_apply', launch_waits hf ht (Nat.lt_succ_self l), hdue,
    iterate_advance_idle (hflight.trans hf) ((congrArg Matrix.tiles hmat).trans ht), Nat.add_sub_cancel]

end

/-! ### Where a result lands (R239, R268) -/

/-- The bits that a scalar result writes are the whole register. -/
theorem merge_scalar (old v : Double) : BitVec.setWidth 64 (merge (old.setWidth 2048) (v.setWidth 2048) (BitVec.ofNat 2048 (2 ^ 64 - 1))) = v := by
  apply BitVec.eq_of_getLsbD_eq
  intro i hi
  have hwide : i < 2048 := by omega
  simp only [merge, BitVec.getLsbD_setWidth, BitVec.getLsbD_or, BitVec.getLsbD_and, BitVec.getLsbD_not, BitVec.getLsbD_ofNat, Nat.testBit_two_pow_sub_one, hi, hwide,
    decide_true, Bool.true_and, Bool.and_true, Bool.not_true, Bool.and_false, Bool.false_or]

theorem merge_all (old v : Vec) : merge old v (BitVec.allOnes 2048) = v := by
  rw [merge, BitVec.not_allOnes, BitVec.and_zero, BitVec.zero_or, BitVec.and_allOnes]

theorem land_sreg (c : Core) (t : Nat) (d : Fin 64) (v : Double) (f : Flags) :
    (c.land ⟨t, .sreg d, v.setWidth 2048, BitVec.ofNat 2048 (2 ^ 64 - 1), f⟩).x.s = c.x.s.set d v :=
  congrArg (c.x.s.set d) (merge_scalar _ v)

theorem land_vreg (c : Core) (t : Nat) (d r : Fin 32) (v m : Vec) (f : Flags) :
    (c.land ⟨t, .vreg d, v, m, f⟩).vec.v[r] = if r = d then (c.vec.v[r] &&& ~~~m) ||| (v &&& m) else c.vec.v[r] := by
  show (c.vec.v.set d (merge c.vec.v[d] v m))[r] = _
  by_cases hr : r = d
  · subst hr
    simp [merge]
  · have hne : d.val ≠ r.val := fun e => hr (Fin.ext e.symm)
    simp [hr, Vector.getElem_set_ne _ _ hne]

theorem land_entry (c : Core) (t : Nat) (q : Fin 16) (e : Fin 8) (v : Vec) (f : Flags) :
    let r := (c.land ⟨t, .entry q e, v, BitVec.allOnes 2048, f⟩).ring q
    r.st[e] = .full ∧ r.data[e] = v := by
  have hring : (c.land ⟨t, .entry q e, v, BitVec.allOnes 2048, f⟩).ring q =
      { c.ring q with data := (c.ring q).data.set e (merge (c.ring q).data[e] v (BitVec.allOnes 2048)), st := (c.ring q).st.set e .full } :=
    Vector.getElem_set_self ..
  rw [hring, merge_all]
  exact ⟨Vector.getElem_set_self .., Vector.getElem_set_self ..⟩

/-- A late scalar result is read from its latency on. -/
theorem rs_wsLate {c : Core} {l : Nat} (hf : c.flight = []) (ht : c.mat.tiles = []) (hl : 1 ≤ l) (k : Nat) {d : Fin 64} (r : Fin 64) (v : Double) (hd : d ≠ 0) :
    (Core.advance^[k] (c.wsLate l d v)).rs r = if r = d ∧ l ≤ k then v else c.rs r := by
  rw [Core.wsLate, if_neg hd]
  by_cases hk : l ≤ k
  · rw [launch_lands hf ht hl hk]
    simp only [hk, and_true]
    exact rs_of_set (c := c) (land_sreg (c.after l) _ d v 0) hd r
  · rw [launch_waits hf ht (Nat.lt_of_not_le hk), if_neg (fun h => hk h.2)]
    rfl

/-- A result for a vector register is there from its latency on. -/
theorem vreg_launch {c : Core} {l : Nat} (hf : c.flight = []) (ht : c.mat.tiles = []) (hl : 1 ≤ l) (k : Nat) (d r : Fin 32) (v m : Vec) :
    (Core.advance^[k] (c.launch l (.vreg d) v m)).vec.v[r] = if r = d ∧ l ≤ k then (c.vec.v[r] &&& ~~~m) ||| (v &&& m) else c.vec.v[r] := by
  by_cases hk : l ≤ k
  · rw [launch_lands hf ht hl hk]
    simp only [hk, and_true]
    exact land_vreg (c.after l) _ d r v m 0
  · rw [launch_waits hf ht (Nat.lt_of_not_le hk), if_neg (fun h => hk h.2)]
    rfl

/-- Settles O17: a register by what stands in its file, a result in flight by the cycle in which it lands (`launch_lands`). -/
theorem registerWrites : Obligations.RegisterWrites := by
  refine ⟨fun c d r v p q b => ⟨rfl, rfl, rs_ws c d r v, rp_wp c p q b, rfl, rfl⟩, fun c l k hf ht hl => ⟨?_, ?_, ?_⟩, fun s n => ?_⟩
  · exact fun d r v hd => rs_wsLate hf ht hl k r v hd
  · exact fun d r v m => vreg_launch hf ht hl k d r v m
  · intro q e v hk
    rw [launch_lands hf ht hl hk]
    exact land_entry (c.after l) _ q e v 0
  · have hcore : (s.updCore n Core.advance).core n = (s.core n).advance := State.core_updCore s n _
    refine ⟨_, rfl, ?_, hcore, ?_, fun ht => ?_⟩
    · rw [hcore]
      rfl
    · rw [hcore, advance_wc]
    · rw [hcore, advance_noTiles ht, (landDue_flight _ _).1]
      exact List.filter_congr fun l _ => by simp [← decide_not]

end Sys2Proof.Machine
end

section
/-! PROOF. Scalar accesses to local memory (R244-R246): an aligned access lies in one row, its checks in their order, and O25. -/

namespace Sys2Proof.Machine

/-! ### Places of a local address (R103) -/

/-- A local address lies in the field, or in the commons. -/
theorem of_locate_eq_some {a off : Nat} {m : Bool} (h : locate a = some (m, off)) :
    m = false ∧ off = a ∧ a < 0x800000 ∨ m = true ∧ a = 0x2000000 + off ∧ off < 0x2000000 := by
  unfold locate at h
  split at h
  · next hfield =>
    cases h
    exact .inl ⟨rfl, rfl, hfield⟩
  · split at h
    · next hcommons =>
      cases h
      rw [Bool.and_eq_true, decide_eq_true_eq, decide_eq_true_eq] at hcommons
      exact .inr ⟨rfl, by omega, by omega⟩
    · cases h

/-- The row group of a local address, from its place. -/
theorem groupAt_eq {a off : Nat} {m : Bool} (h : locate a = some (m, off)) (field commons : Local) :
    groupAt field commons a = (pick field commons m).group off := by
  unfold groupAt
  rw [h]

/-! ### Aligned accesses of at most 8 bytes (R245) -/

/-- `w` bytes from `a`: 1, 2, 4 or 8 of them, aligned. -/
structure Aligned (a w : Nat) : Prop where
  size : w ∣ 8
  mod : a % w = 0

theorem aligned_of_mod (z : Fin 4) {a : Nat} (h : a % 2 ^ z.val = 0) : Aligned a (2 ^ z.val) :=
  ⟨Nat.pow_dvd_pow 2 (show z.val ≤ 3 by omega), h⟩

namespace Aligned
variable {a w : Nat} (h : Aligned a w)
include h

theorem pos : 0 < w := Nat.pos_of_dvd_of_pos h.size (by decide)

theorem le : w ≤ 8 := Nat.le_of_dvd (by decide) h.size

/-- In memory cut into blocks of whole doubles, an aligned access lies in one block. -/
theorem inBlock {k : Nat} (hk : 8 ∣ k) (hpos : 0 < k) : a + w ≤ (a / k + 1) * k := by
  obtain ⟨x, hx⟩ := Nat.dvd_of_mod_eq_zero h.mod
  obtain ⟨y, hy⟩ := Dvd.dvd.mul_left (h.size.trans hk) (a / k + 1)
  have hlt : a < (a / k + 1) * k := Nat.lt_mul_of_div_lt (Nat.lt_succ_self _) hpos
  rw [hy, hx] at hlt
  rw [hy]
  calc a + w = w * (x + 1) := by rw [hx, Nat.mul_succ]
    _ ≤ w * y := Nat.mul_le_mul_left w (Nat.lt_of_mul_lt_mul_left hlt)

/-- Cut at such blocks, it is one part. -/
theorem lastBlock {k : Nat} (hk : 8 ∣ k) (hpos : 0 < k) : (a + w - 1) / k = a / k := by
  have hin := h.inBlock hk hpos
  have hw := h.pos
  have hlt : (a + w - 1) / k < a / k + 1 := Nat.div_lt_of_lt_mul (by rw [Nat.mul_comm]; omega)
  exact Nat.le_antisymm (Nat.lt_succ_iff.1 hlt) (Nat.div_le_div_right (by omega))

theorem spansOf {k : Nat} (hk : 8 ∣ k) (hpos : 0 < k) : spansOf k a w = [(a, w)] := by
  have hin := h.inBlock hk hpos
  have hlow := Nat.div_mul_le_self a k
  unfold Machine.spansOf
  rw [if_neg h.pos.ne', h.lastBlock hk hpos, Nat.sub_self]
  simp only [Nat.zero_add, List.range_one, List.map_cons, List.map_nil, Nat.add_zero, Nat.max_eq_left hlow, Nat.min_eq_left hin, Nat.add_sub_cancel_left]

theorem groupStarts : groupStarts a w = [a] := by
  have hlow := Nat.div_mul_le_self a 2048
  unfold Machine.groupStarts
  rw [if_neg h.pos.ne', h.lastBlock (by decide) (by decide), Nat.sub_self]
  simp only [Nat.zero_add, List.range_one, List.map_cons, List.map_nil, Nat.add_zero, Nat.max_eq_left hlow]

/-- A row of any span of a region holds the access whole (R105). -/
theorem cut (c : Core) : c.cut a w = [(a, w)] := by
  have hspan (code : Nat) : 8 ∣ spanBytes code ∧ 0 < spanBytes code := by
    unfold spanBytes
    split
    · decide
    · split <;> decide
  exact h.spansOf (hspan _).1 (hspan _).2

/-- The bytes of an access to the field are of the field. -/
theorem inField (hfield : a < 0x800000) : a + w ≤ 0x800000 := by
  have hin := h.inBlock (k := 0x800000) (by decide) (by decide)
  rwa [Nat.div_eq_of_lt hfield] at hin

end Aligned

/-! ### The checks of R245, in their order -/

/-- An address in no region is the first byte outside. -/
theorem outside_noRegion {c : Core} {a : Nat} (h : ∀ k : Fin 16, (c.rgn[k]).holds a = false) (n : Nat) : c.outside a n = some a := by
  have hregion : c.regionAt a = none := List.find?_eq_none.2 fun k _ => by simpa using h k
  unfold Core.outside
  rw [hregion, ite_self]

/-- An access inside a region has a local address. -/
theorem locate_of_inside {c : Core} {a n : Nat} (h : c.outside a n = none) : ∃ m off, locate a = some (m, off) := by
  cases hloc : locate a with
  | none =>
    unfold Core.outside at h
    rw [hloc] at h
    cases h
  | some p => exact ⟨p.1, p.2, rfl⟩

section
variable {s : State} {a w : Nat} {load : Bool}

theorem accessTrap_end (h : 2 ^ 32 < a + w) : accessTrap s a w load = some ⟨0x10, w, max a (2 ^ 32)⟩ := if_pos h

theorem accessTrap_misaligned (hend : a + w ≤ 2 ^ 32) (h : a % w ≠ 0) : accessTrap s a w load = some ⟨0x11, w, a⟩ := by
  unfold accessTrap
  rw [if_neg (Nat.not_lt.2 hend), if_pos h]
  rfl

theorem accessTrap_outside {b : Nat} (hend : a + w ≤ 2 ^ 32) (hmod : a % w = 0) (h : s.view.outside a w = some b) :
    accessTrap s a w load = some ⟨0x10, w, b⟩ := by
  unfold accessTrap
  rw [if_neg (Nat.not_lt.2 hend), if_neg (not_not.2 hmod), h]
  rfl

/-- The group of an aligned access inside its region is the one that is checked. -/
theorem firstGroup_aligned (ha : Aligned a w) (hin : s.view.outside a w = none) (p : Group → Bool) :
    firstGroup s.field s.viewCommons p a w = if p (groupAt s.field s.viewCommons a) then some a else none := by
  obtain ⟨m, off, hloc⟩ := locate_of_inside hin
  unfold firstGroup
  rw [ha.groupStarts, List.find?_singleton, hloc, groupAt_eq hloc]

theorem accessTrap_owner (hend : a + w ≤ 2 ^ 32) (ha : Aligned a w) (hin : s.view.outside a w = none)
    (howner : (groupAt s.field s.viewCommons a).owner ≠ s.view.csr.ctxId.toNat) :
    accessTrap s a w load = some ⟨0x12, (groupAt s.field s.viewCommons a).owner, a⟩ := by
  unfold accessTrap
  rw [if_neg (Nat.not_lt.2 hend), if_neg (not_not.2 ha.mod), hin, firstGroup_aligned ha hin, if_pos (decide_eq_true howner)]

theorem accessTrap_expired {b : Nat} (hend : a + w ≤ 2 ^ 32) (ha : Aligned a w) (hin : s.view.outside a w = none)
    (howner : (groupAt s.field s.viewCommons a).owner = s.view.csr.ctxId.toNat) (hb : firstExpired s a w = some b) :
    accessTrap s a w true = some ⟨0x13, ((s.view.regionAt b).map Fin.val).getD 0, b⟩ := by
  unfold accessTrap
  rw [if_neg (Nat.not_lt.2 hend), if_neg (not_not.2 ha.mod), hin, firstGroup_aligned ha hin, if_neg (by simp [howner]), if_pos rfl, hb]

/-- A group that is not valid has expired (R121). -/
theorem firstExpired_invalid (ha : Aligned a w) (h : (groupAt s.field s.viewCommons a).valid = false) : firstExpired s a w = some a := by
  unfold firstExpired State.expired
  rw [ha.groupStarts, List.find?_singleton, h]
  rfl

/-- An access whose checks pass. -/
theorem of_accessTrap_eq_none (h : accessTrap s a w load = none) : a + w ≤ 2 ^ 32 ∧ a % w = 0 ∧ ∃ m off, locate a = some (m, off) := by
  have hend : a + w ≤ 2 ^ 32 := Nat.le_of_not_lt fun hend => by rw [accessTrap_end hend] at h; cases h
  have hmod : a % w = 0 := by
    by_contra hmod
    rw [accessTrap_misaligned hend hmod] at h
    cases h
  refine ⟨hend, hmod, ?_⟩
  cases hout : s.view.outside a w with
  | none => exact locate_of_inside hout
  | some b =>
    rw [accessTrap_outside hend hmod hout] at h
    cases h

end

/-! ### Scalar loads and stores (R244-R246) -/

section
variable {i : Instr} {s : State} {d a : Fin 64} {z : Fin 4} {o : Fin 2048}

theorem exec_scalarLoad (h : scalarLoad i = some (d, a, z, o)) : exec i s = slotOp i (loadScalar d a z o) s := by
  cases i with
  | ld => cases h; exact (rfl : execLd d a z o s = _)
  | ldc => cases h; exact (rfl : execLdc d a z o s = _)
  | _ => cases h

theorem exec_scalarStore (h : scalarStore i = some (d, a, z, o)) : exec i s = slotOp i (storeScalar d a z o) s := by
  cases i with
  | st => cases h; exact (rfl : execSt d a z o s = _)
  | stc => cases h; exact (rfl : execStc d a z o s = _)
  | _ => cases h

theorem traps_scalarLoad {t : Trap} (h : scalarLoad i = some (d, a, z, o)) (hr : Ready i s)
    (ht : accessTrap s (memAddr s a z o) (2 ^ z.val) true = some t) : Traps i s t := by
  refine (exec_scalarLoad h).trans (slotOp_trap hr ?_)
  unfold loadScalar
  dsimp only
  rw [ht]

theorem traps_scalarStore {t : Trap} (h : scalarStore i = some (d, a, z, o)) (hr : Ready i s)
    (ht : accessTrap s (memAddr s a z o) (2 ^ z.val) false = some t) : Traps i s t := by
  refine (exec_scalarStore h).trans (slotOp_trap hr ?_)
  unfold storeScalar
  dsimp only
  rw [ht]

/-- A check that a load and a store share. -/
theorem traps_scalarAccess {t : Trap} (h : scalarLoad i = some (d, a, z, o) ∨ scalarStore i = some (d, a, z, o)) (hr : Ready i s)
    (ht : ∀ load, accessTrap s (memAddr s a z o) (2 ^ z.val) load = some t) : Traps i s t :=
  h.elim (fun h => traps_scalarLoad h hr (ht true)) (fun h => traps_scalarStore h hr (ht false))

/-- No operation is a load and a store. -/
theorem scalarStore_eq_none (h : (scalarLoad i).isSome) : scalarStore i = none := by
  cases i with
  | ld => rfl
  | ldc => rfl
  | _ => cases h

end

/-- Settles O25: each check in its order, by what `accessTrap` answers once the checks before it pass. -/
theorem scalarAccessTraps : Obligations.ScalarAccessTraps := by
  intro i s d a z o hi hr w ea
  have haligned (h : ea % w = 0) : Aligned ea w := aligned_of_mod z h
  refine ⟨fun hend => ?_, fun hend hmod => ?_, fun hend hmod hregion => ?_, fun hend hmod hin howner => ?_, fun hend hmod hin howner hload hvalid => ?_⟩
  · exact traps_scalarAccess hi hr fun _ => accessTrap_end hend
  · exact traps_scalarAccess hi hr fun _ => accessTrap_misaligned hend hmod
  · exact traps_scalarAccess hi hr fun _ => accessTrap_outside hend hmod (outside_noRegion hregion w)
  · exact traps_scalarAccess hi hr fun _ => accessTrap_owner hend (haligned hmod) hin howner
  · have hi' : scalarLoad i = some (d, a, z, o) := hi.resolve_right (by rw [scalarStore_eq_none hload]; exact nofun)
    exact ⟨_, traps_scalarLoad hi' hr (accessTrap_expired hend (haligned hmod) hin howner (firstExpired_invalid (haligned hmod) hvalid))⟩

end Sys2Proof.Machine
end

section
/-! PROOF. Accesses of slots at their ports (R30, R31, R159, R245, R246): what a scalar load reads and what a scalar store writes when its port serves it, O22
and O23. -/

namespace Sys2Proof.Machine

/-! ### The access that an aligned load or store leaves (R30) -/

/-- The access at the row of a local address that the operation in hand adds to its bundle. -/
def State.rowWait (s : State) (a : Nat) (act : RowAct) : PortWait :=
  ⟨(s.view.rowOf a).1, (s.view.rowOf a).2.1, (s.view.rowOf a).2.2, 0, s.issue.ports.length, act⟩

/-- One part is one access. -/
theorem byRow_singleton {α : Type} (c : Core) (at' : α → Nat) (x : α) : c.byRow at' [x] = [(c.rowOf (at' x), [x])] := by
  unfold Core.byRow
  simp [List.eraseDups_cons]

theorem addLoad_aligned {a w : Nat} (h : Aligned a w) (s : State) (l : Landing) : s.addLoad l [(a, w, 0)] =
    s.withIssue { s.issue with loads := s.issue.loads ++ [l], ports := s.issue.ports ++ [s.rowWait a (.load s.issue.loads.length [(a, w, 0)])] } := by
  unfold State.addLoad
  simp only [List.flatMap_cons, List.flatMap_nil, List.append_nil, h.cut, List.map_cons, List.map_nil, byRow_singleton, Nat.sub_self, Nat.add_zero]
  rfl

theorem addStore_aligned {a w : Nat} (h : Aligned a w) (s : State) {bs : List Byte} (hbs : bs.length = w) : s.addStore [(a, bs, 0)] =
    s.withIssue { s.issue with ports := s.issue.ports ++ [s.rowWait a (.store [(a, bs, 0)])] } := by
  have htake : (bs.drop 0).take w = bs := List.take_of_length_le (Nat.le_of_eq hbs)
  unfold State.addStore
  simp only [hbs, List.flatMap_cons, List.flatMap_nil, List.append_nil, h.cut, List.map_cons, List.map_nil, byRow_singleton, Nat.sub_self, htake]
  rfl

/-- The place of the access: its memory, and in the field its bank (R104). -/
theorem rowWait_place {a off : Nat} {m : Bool} (h : locate a = some (m, off)) (s : State) (act : RowAct) :
    (s.rowWait a act).commons = decide (0x2000000 ≤ a) ∧ (a < 0x800000 → (s.rowWait a act).bank = a / 64 % 32) := by
  have hrow : s.view.rowOf a = (m, (bankRow (s.view.spanAt a) m off).1, (bankRow (s.view.spanAt a) m off).2) := by
    unfold Core.rowOf
    rw [h]
  unfold State.rowWait
  rw [hrow]
  rcases of_locate_eq_some h with ⟨rfl, rfl, hfield⟩ | ⟨rfl, ha, -⟩
  · exact ⟨(decide_eq_false (by omega)).symm, fun _ => rfl⟩
  · exact ⟨(decide_eq_true (by omega)).symm, fun hfield => by omega⟩

/-! ### What a load reads -/

/-- Bytes of a number, one by one (R7). -/
theorem natOfBytes_byte (bs : List Byte) (k : Nat) : natOfBytes bs / 2 ^ (8 * k) % 256 = (bs.getD k 0).toNat := by
  induction bs generalizing k with
  | nil => simp [natOfBytes]
  | cons b bs ih =>
    have hb := b.isLt
    cases k with
    | zero =>
      show (b.toNat + 256 * natOfBytes bs) / 2 ^ 0 % 256 = b.toNat
      omega
    | succ k =>
      have hpow : 2 ^ (8 * (k + 1)) = 256 * 2 ^ (8 * k) := by rw [Nat.mul_succ, Nat.pow_add]; omega
      have hrest : (b.toNat + 256 * natOfBytes bs) / 256 = natOfBytes bs := by omega
      show (b.toNat + 256 * natOfBytes bs) / 2 ^ (8 * (k + 1)) % 256 = (bs.getD k 0).toNat
      rw [hpow, ← Nat.div_div_eq_div_mul, hrest, ih]

theorem natOfBytes_lt_two_pow {bs : List Byte} {n : Nat} (h : 8 * bs.length ≤ n) : natOfBytes bs < 2 ^ n :=
  calc natOfBytes bs < 256 ^ bs.length := natOfBytes_lt bs
    _ = 2 ^ (8 * bs.length) := by rw [Nat.pow_mul]
    _ ≤ 2 ^ n := Nat.pow_le_pow_right Nat.two_pos h

/-- The byte at a local address, from its place. -/
theorem byteAt_eq {s : State} {n a off : Nat} {m : Bool} (h : locate a = some (m, off)) {k : Nat} (hk : a < 0x800000 → a + k < 0x800000) :
    s.byteAt n (a + k) = readByte (s.localOf n m).cells (off + k) := by
  unfold State.byteAt
  rcases of_locate_eq_some h with ⟨rfl, rfl, hfield⟩ | ⟨rfl, ha, -⟩
  · rw [if_pos (hk hfield)]
    rfl
  · rw [if_neg (by omega), show a + k - 0x2000000 = off + k by omega]
    rfl

/-- The bytes that an access reads. -/
theorem localBytes_eq {s : State} {n a off : Nat} {m : Bool} (h : locate a = some (m, off)) (w : Nat) :
    localBytes (s.core n).field (s.commonsOf n) a w = readBytes (s.localOf n m).cells off w := by
  unfold localBytes
  rw [h]
  cases m <;> rfl

theorem localBytes_byte {s : State} {n a w : Nat} (ha : Aligned a w) {m : Bool} {off : Nat} (h : locate a = some (m, off)) (k : Nat) :
    natOfBytes (localBytes (s.core n).field (s.commonsOf n) a w) / 2 ^ (8 * k) % 256 = if k < w then (s.byteAt n (a + k)).toNat else 0 := by
  rw [natOfBytes_byte, localBytes_eq h, readBytes_eq_map]
  by_cases hk : k < w
  · rw [if_pos hk, byteAt_eq h (fun hfield => by have := ha.inField hfield; omega)]
    simp [List.getD_eq_getElem?_getD, hk]
  · rw [if_neg hk]
    simp [List.getD_eq_getElem?_getD, hk]

/-! ### Loads that read a memory without errors (R31, R159) -/

/-- In `t`, core `n` waits for other accesses than in `s`, or its loads have read more; nothing else differs. -/
def State.Waits (s : State) (n : Nat) (t : State) : Prop :=
  ∃ u l, t = s.setCore n { s.core n with unserved := u, loads := l }

theorem waits_updCore (s : State) (n : Nat) (u : List PortWait → List PortWait) (l : List Landing → List Landing) :
    s.Waits n (s.updCore n (fun c => { c with unserved := u c.unserved, loads := l c.loads })) := ⟨_, _, rfl⟩

theorem State.Waits.updCore {s t : State} {n : Nat} (h : s.Waits n t) (u : List PortWait → List PortWait) (l : List Landing → List Landing) :
    s.Waits n (t.updCore n (fun c => { c with unserved := u c.unserved, loads := l c.loads })) := by
  obtain ⟨x, y, rfl⟩ := h
  refine ⟨u x, l y, ?_⟩
  rw [State.updCore, State.core_setCore]
  exact State.updCore_updCore s n (fun _ => { s.core n with unserved := x, loads := y }) (fun _ => { s.core n with unserved := u x, loads := l y })

theorem State.Waits.core {s t : State} {n : Nat} (h : s.Waits n t) : t.core n = { s.core n with unserved := (t.core n).unserved, loads := (t.core n).loads } := by
  obtain ⟨x, y, rfl⟩ := h
  rw [State.core_setCore]

theorem State.Waits.clean {s t : State} {n : Nat} (h : s.Waits n t) (hc : CleanAt s n) : CleanAt t n := by
  obtain ⟨x, y, rfl⟩ := h
  unfold CleanAt
  rw [State.core_setCore]
  exact hc

theorem readCorrects_clean {s : State} {n : Nat} (h : CleanAt s n) (a w : Nat) : s.readCorrects n a w = s := by
  obtain ⟨-, hfield, -, hcommons⟩ := h
  unfold State.readCorrects
  split
  · next m off _ =>
    unfold State.correctWords
    cases m
    · simp [hfield]
    · simp [hcommons]
  · rfl

theorem localBad_clean {s : State} {n : Nat} (h : CleanAt s n) (a w : Nat) : localBad (s.core n).field (s.commonsOf n) a w = false := by
  obtain ⟨hfield, -, hcommons, -⟩ := h
  unfold localBad
  split
  · next m off _ =>
    unfold Local.badIn
    cases m
    · simp [pick, hfield]
    · simp [pick, State.commonsOf, hcommons]
  · rfl

/-- A result with the bytes of one part put at their place. -/
def Landing.filled (x : Landing) (bs : List Byte) (o : Nat) : Landing := { x with value := x.value ||| BitVec.ofNat 2048 (natOfBytes bs * 2 ^ (8 * o)) }

/-- One part read of a memory without errors. -/
theorem serveLoad_clean {s : State} {n : Nat} (h : CleanAt s n) (k a w o : Nat) : s.serveLoad n k [(a, w, o)] =
    s.updCore n (fun c => { c with
      loads := c.loads.modify k (fun x => x.filled (localBytes (s.core n).field (s.commonsOf n) a w) o) }) := by
  have hbad := localBad_clean h a w
  unfold State.serveLoad
  rw [List.foldl_cons, List.foldl_nil]
  dsimp only
  rw [hbad]
  refine readCorrects_clean ?_ a w
  unfold CleanAt
  rw [State.core_updCore]
  exact h

theorem serveLoad_cons (s : State) (n k : Nat) (p : Nat × Nat × Nat) (parts : List (Nat × Nat × Nat)) :
    s.serveLoad n k (p :: parts) = (s.serveLoad n k [p]).serveLoad n k parts := rfl

theorem State.Waits.serveLoad {s : State} {n : Nat} (hc : CleanAt s n) (k : Nat) (parts : List (Nat × Nat × Nat)) :
    ∀ {t : State}, s.Waits n t → s.Waits n (t.serveLoad n k parts) := by
  induction parts with
  | nil => exact fun h => h
  | cons p parts ih =>
    intro t h
    rw [serveLoad_cons, serveLoad_clean (h.clean hc)]
    exact ih (h.updCore id _)

/-! ### The access that is served -/

/-- The access at the place of `p` as it stands among those that wait. -/
def Core.served (c : Core) (p : PortWait) : PortWait := (c.unserved.find? (fun v => v.same p)).getD p

/-- The state with that access taken from those that wait. -/
def State.taken (s : State) (n : Nat) (p : PortWait) : State :=
  s.updCore n (fun c => { c with unserved := c.unserved.erase ((s.core n).served p) })

theorem taken_waits (s : State) (n : Nat) (p : PortWait) : s.Waits n (s.taken n p) := ⟨_, _, rfl⟩

theorem taken_core (s : State) (n : Nat) (p : PortWait) :
    (s.taken n p).core n = { s.core n with unserved := (s.core n).unserved.erase ((s.core n).served p) } := State.core_updCore s n _

theorem same_eq {v w : PortWait} : v.same w = true ↔ v.op = w.op ∧ v.commons = w.commons ∧ v.bank = w.bank ∧ v.row = w.row := by
  unfold PortWait.same
  simp only [Bool.and_eq_true, beq_iff_eq, and_assoc]

theorem PortWait.same_comm (v w : PortWait) : v.same w = w.same v :=
  Bool.eq_iff_iff.2 (by rw [same_eq, same_eq, @eq_comm _ v.op, @eq_comm _ v.commons, @eq_comm _ v.bank, @eq_comm _ v.row])

theorem PortWait.same_refl (v : PortWait) : v.same v = true := same_eq.2 ⟨rfl, rfl, rfl, rfl⟩

section
variable {c : Core} {p : PortWait} {ports : List PortWait} (h : c.Awaits ports)
include h

/-- What is served does what was asked for. -/
theorem served_act (hp : p ∈ ports) : (c.served p).act = p.act ∧ (c.served p).op = p.op := by
  unfold Core.served
  cases hfind : c.unserved.find? (fun v => v.same p) with
  | none => exact ⟨rfl, rfl⟩
  | some v =>
    have hsame : v.same p = true := by simpa using List.find?_some hfind
    exact ⟨h.2 v (List.mem_of_find?_eq_some hfind) p hp hsame, (same_eq.1 hsame).1⟩

/-- No other access waits at its place. -/
theorem erase_served {q : PortWait} (hq : q ∈ c.unserved.erase (c.served p)) : q.same p = false := by
  have hmem := List.mem_of_mem_erase hq
  unfold Core.served at hq
  cases hfind : c.unserved.find? (fun v => v.same p) with
  | none => simpa using List.find?_eq_none.1 hfind q hmem
  | some v =>
    have hv : v.same p = true := by simpa using List.find?_some hfind
    have hnodup : c.unserved.Nodup := h.1.imp fun hab heq => by rw [heq, PortWait.same_refl] at hab; cases hab
    rw [hfind, Option.getD_some, hnodup.mem_erase_iff] at hq
    have hsymm : Std.Symm (fun a b : PortWait => a.same b = false) := ⟨fun a b hab => by rwa [PortWait.same_comm]⟩
    have hfar : q.same v = false :=
      List.Pairwise.forall (R := fun a b => a.same b = false) h.1 hq.2 (List.mem_of_find?_eq_some hfind) hq.1
    by_contra hsame
    rw [Bool.not_eq_false] at hsame
    obtain ⟨hop, hcommons, hbank, hrow⟩ := same_eq.1 hv
    rw [PortWait.same, ← hop, ← hcommons, ← hbank, ← hrow, ← PortWait.same] at hsame
    rw [hsame] at hfar
    cases hfar

end

section
variable {v : State} {n : Nat} {p : PortWait}

/-- A load that alone waits for its result is served: what it reads is read. -/
theorem serveSlot_load {k : Nat} {parts : List (Nat × Nat × Nat)} (hact : p.act = .load k parts) (haw : (v.core n).Awaits [p])
    (hloads : (v.core n).LoadsOf k [p]) : v.serveSlot n p = (v.taken n p).serveLoad n k parts := by
  have hmore : ((v.taken n p).core n).unserved.flatMap (fun q => q.rowRest k parts) = [] := by
    rw [taken_core, List.flatMap_eq_nil_iff]
    intro q hq
    have hfar := erase_served haw hq
    unfold PortWait.rowRest
    split
    · next j ps hq' =>
      refine if_neg fun hj => ?_
      obtain ⟨p', hp', hsame⟩ := hloads q (List.mem_of_mem_erase hq) ps (hj ▸ hq')
      rw [List.mem_singleton.1 hp', hfar] at hsame
      cases hsame
    · rfl
  have hserved := (served_act haw (List.mem_singleton_self p)).1.trans hact
  unfold State.serveSlot
  unfold Core.served at hserved
  unfold State.taken Core.served at hmore ⊢
  generalize ((v.core n).unserved.find? (fun q => q.same p)).getD p = w at hserved hmore ⊢
  dsimp only
  rw [hserved]
  dsimp only
  rw [hmore, List.append_nil]
  rfl

theorem serveSlot_store {parts : List (Nat × List Byte × Nat)} {ports : List PortWait} (hact : p.act = .store parts) (haw : (v.core n).Awaits ports)
    (hp : p ∈ ports) : v.serveSlot n p = State.storeParts n p.op parts (v.taken n p) := by
  obtain ⟨hserved, hop⟩ := served_act haw hp
  rw [hact] at hserved
  unfold State.serveSlot
  unfold Core.served at hserved hop
  unfold State.taken Core.served
  generalize ((v.core n).unserved.find? (fun q => q.same p)).getD p = w at hserved hop ⊢
  dsimp only
  rw [hserved, hop]

end

/-! ### Scalar loads (R245) -/

/-- The result of a scalar load before it is read (R239). -/
def scalarLanding (d : Fin 64) (latency : Nat) : Landing := ⟨latency, if d = 0 then .flags else .sreg d, 0, BitVec.ofNat 2048 (2 ^ 64 - 1), 0⟩

/-- The effect of a scalar load whose checks pass: its result, and one access. -/
theorem effects_scalarLoad {i : Instr} {s : State} {d a : Fin 64} {z : Fin 4} {o : Fin 2048} (h : scalarLoad i = some (d, a, z, o)) (hr : Ready i s)
    (hpass : accessTrap s (memAddr s a z o) (2 ^ z.val) true = none) (ha : Aligned (memAddr s a z o) (2 ^ z.val)) :
    Effects i s (s.withIssue { s.issue with
      loads := s.issue.loads ++ [scalarLanding d (loadLatency (memAddr s a z o))]
      ports := s.issue.ports ++ [s.rowWait (memAddr s a z o) (.load s.issue.loads.length [(memAddr s a z o, 2 ^ z.val, 0)])] }) := by
  refine (exec_scalarLoad h).trans (slotOp_ok hr ?_)
  unfold loadScalar
  dsimp only
  rw [hpass, addLoad_aligned ha]
  rfl

/-- The latency of a load from the field, and from the commons (R239). -/
theorem loadLatency_eq {a off : Nat} {m : Bool} (h : locate a = some (m, off)) : loadLatency a = if a < 0x800000 then 4 else 8 := by
  unfold loadLatency inCommons
  rw [h]
  rcases of_locate_eq_some h with ⟨rfl, -, hfield⟩ | ⟨rfl, ha, -⟩
  · exact (if_pos hfield).symm
  · exact (if_neg (by omega)).symm

/-- A load of one part that its port serves, in a memory without errors. -/
theorem serveSlot_loaded {v : State} {n k a w : Nat} {p : PortWait} {l : Landing} (hact : p.act = .load k [(a, w, 0)]) (hc : CleanAt v n)
    (hl : (v.core n).loads[k]? = some l) (haw : (v.core n).Awaits [p]) (hloads : (v.core n).LoadsOf k [p]) :
    v.serveSlot n p = v.setCore n { v.core n with
      unserved := (v.core n).unserved.erase ((v.core n).served p)
      loads := (v.core n).loads.set k (l.filled (localBytes (v.core n).field (v.commonsOf n) a w) 0) } := by
  have hset (f : Landing → Landing) : (v.core n).loads.modify k f = (v.core n).loads.set k (f l) := by
    rw [List.modify_eq_set_getElem?, hl]
    rfl
  rw [serveSlot_load hact haw hloads, serveLoad_clean ((taken_waits v n p).clean hc)]
  refine (State.updCore_updCore v n _ _).trans ?_
  rw [State.updCore, taken_core, hset]
  rfl

theorem filled_first {x : Landing} (hx : x.value = 0) (bs : List Byte) : x.filled bs 0 = { x with value := BitVec.ofNat 2048 (natOfBytes bs) } := by
  unfold Landing.filled
  rw [hx, show (0 : Vec) = 0#2048 from rfl, BitVec.zero_or, Nat.mul_zero, Nat.pow_zero, Nat.mul_one]

/-- Settles O22: one access at the place of the address, and what it reads once it is served. -/
theorem scalarLoads : Obligations.ScalarLoads := by
  intro i s d a z o hi hr w ea hpass l
  obtain ⟨-, hmod, m, off, hloc⟩ := of_accessTrap_eq_none hpass
  have ha : Aligned ea w := aligned_of_mod z hmod
  have heffects := effects_scalarLoad hi hr hpass ha
  rw [loadLatency_eq hloc] at heffects
  obtain ⟨hcommons, hbank⟩ := rowWait_place hloc s (.load s.issue.loads.length [(ea, w, 0)])
  refine ⟨_, heffects, hcommons, hbank, rfl, fun hlast => leaves_of_posts hlast heffects, fun v hc hl haw hloads => ?_⟩
  let bs := localBytes (v.core s.here).field (v.commonsOf s.here) ea w
  have hlen : bs.length = w := by rw [show bs = _ from localBytes_eq hloc w, readBytes_length]
  have hsmall : natOfBytes bs < 2 ^ 2048 := natOfBytes_lt_two_pow (by have := ha.le; omega)
  refine ⟨BitVec.ofNat 2048 (natOfBytes bs), _, List.erase_sublist, fun q hq => erase_served haw hq, fun k _ => ?_, ?_⟩
  · rw [BitVec.toNat_ofNat, Nat.mod_eq_of_lt hsmall]
    exact localBytes_byte ha hloc k
  · rw [serveSlot_loaded rfl hc hl haw hloads, filled_first (x := l) rfl]

/-! ### What a store writes (R31, R159, R166) -/

section
variable {s t : State} {n : Nat}

/-- No load that waits meets the row of a store: nothing is read before it. -/
theorem readBefore_far {p : Nat × List Byte × Nat} (h : ∀ q ∈ (s.core n).unserved, q.meets p.1 → ∀ k ps, q.act ≠ .load k ps) : s.readBefore n p = s := by
  unfold State.readBefore
  refine List.foldlRecOn (motive := fun t => t = s) _ _ rfl fun t ht q hq => ?_
  split
  · exact ht
  · next k ps hact =>
    refine (if_neg fun hmeets => ?_).trans ht
    refine h q hq ?_ k ps hact
    unfold PortWait.meets
    rw [hact]
    simpa [sameRow] using hmeets

/-- In a memory without errors, what the loads of the bundle read before a store goes to their results. -/
theorem State.Waits.readBefore (hc : CleanAt s n) (h : s.Waits n t) (p : Nat × List Byte × Nat) : s.Waits n (t.readBefore n p) := by
  unfold State.readBefore
  refine List.foldlRecOn (motive := s.Waits n) _ _ h fun t ht q _ => ?_
  split
  · exact ht
  · split
    · exact State.Waits.serveLoad hc _ _ (ht.updCore _ id)
    · exact ht

/-- One part of which no row is kept for another access. -/
theorem storeParts_singleton {op : Nat} {p : Nat × List Byte × Nat} (h : ∀ q ∈ (s.core n).unserved, q.keepsRow op p.1 = false) :
    State.storeParts n op [p] s = (s.readBefore n p).storePart n p false := by
  have hfind : (s.core n).unserved.find? (fun w => w.keepsRow op p.1) = none := List.find?_eq_none.2 fun q hq => by simp [h q hq]
  unfold State.storeParts
  rw [hfind]
  rfl

end

/-- What the commands of core `k` see of a store of core `n` (R166). -/
def Core.sights (n k a : Nat) (isCommons : Bool) (old : List Byte) (c : Core) : Core :=
  if k = n then c.hide a old else if isCommons && clusterOf k == clusterOf n then c.reveal a old.length else c

/-- The state with what every command sees of a store. -/
def State.sighted (s : State) (n a : Nat) (isCommons : Bool) (old : List Byte) : State :=
  { s with cores := tmap (fun k c => c.sights n k a isCommons old) s.cores }

section
variable (s : State) (n a : Nat) (isCommons : Bool) (old : List Byte)

/-- Commands that see a store are changed in their queues only. -/
theorem sighted_core (k : Nat) : (s.sighted n a isCommons old).core k = { s.core k with
    queue0 := ((s.sighted n a isCommons old).core k).queue0, queue1 := ((s.sighted n a isCommons old).core k).queue1 } := by
  have hsights (c : Core) : c.sights n k a isCommons old = { c with
      queue0 := (c.sights n k a isCommons old).queue0, queue1 := (c.sights n k a isCommons old).queue1 } := by
    unfold Core.sights
    split
    · rfl
    · split <;> rfl
  have hget : (s.sighted n a isCommons old).core k = ((tfind s.cores k).map (fun c => c.sights n k a isCommons old)).getD Core.init := by
    show tget Core.init (tmap _ s.cores) k = _
    rw [tget_eq, tfind_tmap]
  have hcore : s.core k = (tfind s.cores k).getD Core.init := tget_eq _ _ _
  rw [hget, hcore]
  cases tfind s.cores k with
  | none => rfl
  | some c => exact hsights c

end

/-- The byte that a store of some bytes from a local address leaves at an address. -/
def storedByte (a : Nat) (bs : List Byte) (x : Nat) : Option Byte := if a ≤ x ∧ x < a + bs.length then some (bs.getD (x - a) 0) else none

/-- A store put into the local memory of its address, the commands of its bundle not seeing it. -/
def State.stored (s : State) (n a off : Nat) (m : Bool) (bs old : List Byte) : State := (s.sighted n a m old).updLocal n m (fun l => l.put off bs)

theorem storePart_eq {a off : Nat} {m : Bool} (h : locate a = some (m, off)) (s : State) (n : Nat) (bs : List Byte) (more : Bool) :
    s.storePart n (a, bs, 0) more = s.stored n a off m bs (localBytes (s.core n).field (s.commonsOf n) a bs.length) := by
  unfold State.storePart
  dsimp only
  rw [h]
  rfl

section
variable {v s : State} {n : Nat} (hw : v.Waits n s) (a off : Nat) (m : Bool) (bs old : List Byte)
include hw

theorem waits_clusters : s.clusters = v.clusters ∧ s.dev = v.dev ∧ s.host = v.host ∧ s.peer = v.peer ∧ s.log = v.log ∧ s.agenda = v.agenda := by
  obtain ⟨u, l, rfl⟩ := hw
  exact ⟨rfl, rfl, rfl, rfl, rfl, rfl⟩

/-- The core of the store: its field, what waits and its queues. -/
theorem stored_core : let t := s.stored n a off m bs old
    t.core n = { v.core n with
      field := if m then (v.core n).field else (v.core n).field.put off bs, unserved := (s.core n).unserved, loads := (s.core n).loads,
      queue0 := (t.core n).queue0, queue1 := (t.core n).queue1 } := by
  intro t
  have hsight := sighted_core s n a m old n
  have hcore := hw.core
  cases m with
  | false =>
    have ht : t.core n = { (s.sighted n a false old).core n with field := ((s.sighted n a false old).core n).field.put off bs } :=
      State.core_updCore (s.sighted n a false old) n (fun c => { c with field := c.field.put off bs })
    rw [ht, hsight, hcore]
    rfl
  | true =>
    have ht : t.core n = (s.sighted n a true old).core n := rfl
    rw [ht, hsight, hcore]
    rfl

theorem stored_core_other {k : Nat} (hk : k ≠ n) : let t := s.stored n a off m bs old
    t.core k = { v.core k with queue0 := (t.core k).queue0, queue1 := (t.core k).queue1 } := by
  intro t
  have hcore : s.core k = v.core k := by
    obtain ⟨u, l, rfl⟩ := hw
    exact State.core_updCore_other v (fun c => { c with unserved := u, loads := l }) hk
  have ht : t.core k = (s.sighted n a m old).core k := by
    cases m
    · exact State.core_updCore_other (s.sighted n a false old) (fun c => { c with field := c.field.put off bs }) hk
    · rfl
  rw [ht, sighted_core, hcore]

theorem stored_cluster : (s.stored n a off m bs old).cluster (clusterOf n) = { v.cluster (clusterOf n) with
    commons := if m then (v.cluster (clusterOf n)).commons.put off bs else (v.cluster (clusterOf n)).commons } := by
  have hcluster : (s.sighted n a m old).cluster (clusterOf n) = v.cluster (clusterOf n) := congrArg (fun c => tget Cluster.init c (clusterOf n)) (waits_clusters hw).1
  cases m with
  | false => exact hcluster
  | true =>
    have ht := State.cluster_updCluster (s.sighted n a true old) (clusterOf n) (fun c => { c with commons := c.commons.put off bs })
    rw [hcluster] at ht
    exact ht

theorem stored_cluster_other {k : Nat} (hk : k ≠ clusterOf n) : (s.stored n a off m bs old).cluster k = v.cluster k := by
  have hcluster : (s.sighted n a m old).cluster k = v.cluster k := congrArg (fun c => tget Cluster.init c k) (waits_clusters hw).1
  cases m with
  | false => exact hcluster
  | true => exact (State.cluster_updCluster_other (s.sighted n a true old) (fun c => { c with commons := c.commons.put off bs }) hk).trans hcluster

/-- Every byte of the field and of the commons once the bytes are written. -/
theorem stored_byteAt (hloc : locate a = some (m, off)) (hwf : memWf (v.localOf n m).cells = true) (hfit : a < 0x800000 → a + bs.length ≤ 0x800000)
    {x : Nat} (hx : x < 0x800000 ∨ 0x2000000 ≤ x) : (s.stored n a off m bs old).byteAt n x = (storedByte a bs x).getD (v.byteAt n x) := by
  unfold State.byteAt storedByte
  rw [stored_core hw, stored_cluster hw]
  rcases of_locate_eq_some hloc with ⟨rfl, rfl, hlow⟩ | ⟨rfl, ha, -⟩
  · have hend := hfit hlow
    simp only [Bool.false_eq_true, if_false]
    by_cases hxf : x < 0x800000
    · rw [if_pos hxf, if_pos hxf]
      refine (readByte_put hwf _ _ _).trans ?_
      split <;> rfl
    · rw [if_neg hxf, if_neg hxf, if_neg (by omega)]
      rfl
  · simp only [if_true]
    by_cases hxf : x < 0x800000
    · rw [if_pos hxf, if_pos hxf, if_neg (by omega)]
      rfl
    · rw [if_neg hxf, if_neg hxf]
      refine (readByte_put hwf _ _ _).trans ?_
      have hplace : (off ≤ x - 0x2000000 ∧ x - 0x2000000 < off + bs.length) ↔ (a ≤ x ∧ x < a + bs.length) := by omega
      simp only [hplace, show x - 0x2000000 - off = x - a by omega]
      split <;> rfl

/-- A store leaves the bytes that it writes, and no other byte changes. -/
theorem stores_stored (hloc : locate a = some (m, off)) (hwf : memWf (v.localOf n m).cells = true) (hfit : a < 0x800000 → a + bs.length ≤ 0x800000)
    (hloads : (∀ q ∈ (v.core n).unserved, ∀ k ps, q.act ≠ .load k ps) → (s.core n).loads = (v.core n).loads) :
    Stores v (s.stored n a off m bs old) n (storedByte a bs) := by
  obtain ⟨-, hdev, hhost, hpeer, hlog, hagenda⟩ := waits_clusters hw
  have hcore := stored_core hw a off m bs old
  refine ⟨fun x hx => stored_byteAt hw a off m bs old hloc hwf hfit hx, ?_, fun hnone => ?_, fun k hk => stored_core_other hw a off m bs old hk,
    fun k hk => stored_cluster_other hw a off m bs old hk, ?_, ?_⟩
  · rw [hcore]
  · rw [hcore]
    exact hloads hnone
  · rw [stored_cluster hw]
  · cases m <;> exact ⟨hdev, hhost, hpeer, hlog, hagenda⟩

/-- No row group changes. -/
theorem stored_group (k : Nat) : let t := s.stored n a off m bs old
    (t.core n).field.group k = (v.core n).field.group k ∧
      (t.cluster (clusterOf n)).commons.group k = (v.cluster (clusterOf n)).commons.group k := by
  intro t
  rw [stored_core hw, stored_cluster hw]
  cases m <;> exact ⟨rfl, rfl⟩

end

/-! ### Scalar stores (R245, R246) -/

/-- The effect of a scalar store whose checks pass: one access. -/
theorem effects_scalarStore {i : Instr} {s : State} {d a : Fin 64} {z : Fin 4} {o : Fin 2048} (h : scalarStore i = some (d, a, z, o)) (hr : Ready i s)
    (hpass : accessTrap s (memAddr s a z o) (2 ^ z.val) false = none) (ha : Aligned (memAddr s a z o) (2 ^ z.val)) :
    Effects i s (s.withIssue { s.issue with
      ports := s.issue.ports ++ [s.rowWait (memAddr s a z o) (.store [(memAddr s a z o, bytesOfNat (2 ^ z.val) (s.view.rs d).toNat, 0)])] }) := by
  refine (exec_scalarStore h).trans (slotOp_ok hr ?_)
  unfold storeScalar
  dsimp only
  rw [hpass, addStore_aligned ha s (bytesOfNat_length _ _)]

/-- The bytes of a register that a store leaves, lowest first. -/
theorem storedByte_bytesOfNat (a w v : Nat) : storedByte a (bytesOfNat w v) =
    fun x => if a ≤ x ∧ x < a + w then some (BitVec.ofNat 8 (v / 2 ^ (8 * (x - a)))) else none := by
  funext x
  unfold storedByte
  rw [bytesOfNat_length]
  split
  · next hx => rw [bytesOfNat_getD _ _ _ (by omega)]
  · rfl

section
variable {v : State} {n : Nat} {p : PortWait} {a : Nat}

/-- An access that is left when `p` is served, and that meets a row, is one of the others that `RowsFree` speaks of. -/
theorem other_of_erase (haw : (v.core n).Awaits [p]) {q : PortWait} (hq : q ∈ (v.core n).unserved.erase ((v.core n).served p)) (hmeets : q.meets a) :
    q ∈ (v.core n).unserved ∧ (∀ p' ∈ [p], q.same p' = false) ∧ ∃ b ∈ [a], q.meets b :=
  ⟨List.mem_of_mem_erase hq, by simpa using erase_served haw hq, a, List.mem_singleton_self a, hmeets⟩

/-- Of what waits when a store is served and its row is free, no other access keeps its row. -/
theorem rowsFree_keepsRow (haw : (v.core n).Awaits [p]) (hfree : v.RowsFree n [p] [a]) (op : Nat) :
    ∀ q ∈ ((v.taken n p).core n).unserved, q.keepsRow op a = false := by
  intro q hq
  rw [taken_core] at hq
  rw [Bool.eq_false_iff]
  intro hkeeps
  unfold PortWait.keepsRow at hkeeps
  rw [Bool.and_eq_true] at hkeeps
  obtain ⟨-, hkeeps⟩ := hkeeps
  cases hact : q.act with
  | load k ps => rw [hact] at hkeeps; cases hkeeps
  | store ps =>
    have hmeets : q.meets a := by
      unfold PortWait.meets
      rw [hact] at hkeeps ⊢
      simpa [sameRow] using hkeeps
    rcases hfree with hnone | ⟨-, hloads⟩
    · exact hnone q (other_of_erase haw hq hmeets)
    · obtain ⟨k, ps', hload⟩ := hloads q (other_of_erase haw hq hmeets)
      rw [hact] at hload
      cases hload

/-- What the loads read before a store, when its row is free: nothing, or parts of a memory without errors. -/
theorem rowsFree_readBefore (haw : (v.core n).Awaits [p]) (bs : List Byte) (hfree : v.RowsFree n [p] [a]) :
    let t := (v.taken n p).readBefore n (a, bs, 0)
    v.Waits n t ∧ ((∀ q ∈ (v.core n).unserved, ∀ k ps, q.act ≠ .load k ps) → (t.core n).loads = (v.core n).loads) := by
  intro t
  have hunserved : ((v.taken n p).core n).unserved = (v.core n).unserved.erase ((v.core n).served p) := by rw [taken_core]
  have htaken := taken_waits v n p
  have hfar (h : ∀ q ∈ (v.core n).unserved.erase ((v.core n).served p), q.meets a → ∀ k ps, q.act ≠ .load k ps) : t = v.taken n p :=
    readBefore_far (p := (a, bs, 0)) (by rw [hunserved]; exact h)
  refine ⟨?_, fun hnone => ?_⟩
  · rcases hfree with hnone | ⟨hc, -⟩
    · rw [hfar fun q hq hmeets => (hnone q (other_of_erase haw hq hmeets)).elim]
      exact htaken
    · exact htaken.readBefore hc _
  · rw [hfar fun q hq _ => hnone q (List.mem_of_mem_erase hq), taken_core]

/-- A store of one part that its port serves, its row free. -/
theorem serveSlot_stored {bs : List Byte} {off : Nat} {m : Bool} (hact : p.act = .store [(a, bs, 0)]) (hloc : locate a = some (m, off))
    (haw : (v.core n).Awaits [p]) (hfree : v.RowsFree n [p] [a]) : ∃ s old, v.Waits n s ∧
      ((∀ q ∈ (v.core n).unserved, ∀ k ps, q.act ≠ .load k ps) → (s.core n).loads = (v.core n).loads) ∧
      v.serveSlot n p = s.stored n a off m bs old := by
  obtain ⟨hwaits, hloads⟩ := rowsFree_readBefore haw bs hfree
  have hserved := serveSlot_store hact haw (List.mem_singleton_self p)
  rw [storeParts_singleton (rowsFree_keepsRow haw hfree _), storePart_eq hloc] at hserved
  exact ⟨_, _, hwaits, hloads, hserved⟩

end

/-- Settles O23: one access at the place of the address, and what it writes once it is served. -/
theorem scalarStores : Obligations.ScalarStores := by
  intro i s d a z o hi hr w ea hpass
  obtain ⟨-, hmod, m, off, hloc⟩ := of_accessTrap_eq_none hpass
  have ha : Aligned ea w := aligned_of_mod z hmod
  have heffects := effects_scalarStore hi hr hpass ha
  obtain ⟨hcommons, hbank⟩ := rowWait_place hloc s (.store [(ea, bytesOfNat w (s.view.rs d).toNat, 0)])
  refine ⟨_, heffects, hcommons, hbank, rfl, fun hlast => leaves_of_posts hlast heffects, fun v hv haw hfree => ?_⟩
  obtain ⟨u, old, hwaits, hloads, hserved⟩ := serveSlot_stored (p := s.rowWait ea _) rfl hloc haw hfree
  have hwf : memWf (v.localOf s.here m).cells = true := by
    cases m
    · exact hv.1 s.here
    · exact hv.2.1 _
  rw [hserved, ← storedByte_bytesOfNat]
  refine ⟨stores_stored hwaits _ _ _ _ _ hloc hwf (fun hfield => ?_) hloads, fun k => (stored_group hwaits _ _ _ _ _ k).1,
    fun k => (stored_group hwaits _ _ _ _ _ k).2⟩
  rw [bytesOfNat_length]
  exact ha.inField hfield

end Sys2Proof.Machine
end
